-- ==== Sys2Proof/Word.lean ====
section
/-!
DEFINITION. The words and the plainest shapes of data of the FX880 model: registers are 32 bits wide (R7),
multi-byte fields are little-endian (R6), and sparse tables hold arrays of which few elements differ from reset.
-/

namespace Sys2Proof

/-- One byte (R6). -/
abbrev Byte := BitVec 8

/-- One BAR0 register word (R7). -/
abbrev Word32 := BitVec 32

/-- A signed Q3.20 value of the control engine (R60). -/
abbrev Q24 := BitVec 24

/-- A table indexed by a number: pairs of index and value, indices strictly rising, and no pair whose value is
what an unlisted index holds. -/
abbrev Sparse (α : Type) := List (Nat × α)

end Sys2Proof
end

