-- ==== Sys2Proof/Config.lean ====
section
/-!
DEFINITION. What one implementation fixes, what the published standards of R29 compute, and the free values: values that
the manual leaves open. Each is an opaque constant, so no proof can lean on a particular value of it.
-/

namespace Sys2Proof.Config

/-- Device serial, fixed at manufacture (R484). Read as GEN.SERIAL_LO and SERIAL_HI. Log entry 3. -/
opaque deviceSerial : BitVec 64

/-- Root key, fused at manufacture, unique per device (R203, Table 08-1). Log entry 3. -/
opaque rootKey : BitVec 256

/-- The n-th 256-bit output of the random number generator (R225). DESIGN CHOICE, log entry 4. -/
opaque randomKey : Nat → BitVec 256

/-- The n-th ephemeral P-256 private key drawn (R203, R220, R223). DESIGN CHOICE, log entry 4. -/
opaque randomScalar : Nat → BitVec 256

/-- SHA-256 of a byte string (FIPS 180-4, R29). Log entry 5. -/
opaque sha256 : List Byte → BitVec 256

/-- RFC 3394 key wrap of a 256-bit key under a 256-bit key-encryption key (R29). Log entry 5. -/
opaque keyWrap : BitVec 256 → BitVec 256 → BitVec 320

/-- RFC 3394 unwrap: none when the integrity check fails (R205). Log entry 5. -/
opaque keyUnwrap : BitVec 256 → BitVec 320 → Option (BitVec 256)

/-- AES-256-GCM encryption (NIST SP 800-38D, R29): key, 96-bit IV, additional data and plaintext give the ciphertext and
the 128-bit tag. Log entry 5. -/
opaque gcmEncrypt : BitVec 256 → BitVec 96 → List Byte → List Byte → List Byte × BitVec 128

/-- AES-256-GCM decryption of a ciphertext under a key and a 96-bit IV (R29). Log entry 5. -/
opaque gcmDecrypt : BitVec 256 → BitVec 96 → List Byte → List Byte

/-- The uncompressed public point, 65 bytes, of a P-256 private key (R29). Log entry 5. -/
opaque p256Public : BitVec 256 → List Byte

/-- P-256 public-key validation of a 65-byte uncompressed point (R29, R222). Log entry 5. -/
opaque p256Valid : List Byte → Bool

/-- The x-coordinate shared between a private key and a public point (R220, R223). Log entry 5. -/
opaque p256Shared : BitVec 256 → List Byte → BitVec 256

/-- HKDF-SHA-256 of keying material, salt and info, to the stated number of bytes (R220, R223). Log entry 5. -/
opaque hkdf : BitVec 256 → List Byte → List Byte → Nat → List Byte

/-- The value of a field that the manual calls undefined or does not state, drawn afresh by a counter of State
(log entry 7). -/
opaque freeWord : Nat → BitVec 32

/-- A sum of products beyond the 48-bit accumulator, before it is rounded and saturated, where the manual states no result (R60; log
entry 83). -/
opaque wideSum : Int → Int

/-- The quotient vnom / v_meas for a measured supply of 0 in Q3.20, before the clamp: the manual states none (R64; log entry 14). -/
opaque quotientByZero : Int → Int

/-- Whether the host link rests in ASPM L1 at a tick (R29, Table 11-7): the link's two ends decide it. Log entry 92. -/
opaque linkInL1 : Nat → Bool

/-- What the leading core of the management pair takes in at its step of a given number: instruction data, load data and interrupt request
in 72 bits (R397; log entry 96). -/
opaque coreInput : Nat → BitVec 72

/-- The bytes that a cut operation leaves in a flash range (R435): draw, then byte address. Log entry 8. -/
opaque cutFlashByte : Nat → Nat → Byte

/-- The check bits that a cut operation leaves in the spare array (R435): draw, then chunk. Log entry 8. -/
opaque cutFlashSpare : Nat → Nat → BitVec 24

end Sys2Proof.Config
end

