-- ==== Sys2Proof/Syntax.lean ====
section
/-!
DEFINITION. The commands of the FX880: one constructor for each row of spec/opcode_table.json, in the table's order but for
some without operands at the end, and the data they carry. A row that the environment brings about (an event on a pin, a measurement, a
message received) carries what the environment measured or sent; log entry 1 says how the rows are cut.
-/

namespace Sys2Proof

/-- Who makes a register access (R477, R479): the host through BAR0, the servo sequencer, or the management pair. -/
inductive Requester where
  | host | seq | mgmt
  deriving DecidableEq, Repr

/-- The four modes (R458), coded as in MODE_NOTE (Table 10-3). -/
inductive Mode where
  | topcoat | undercoat | primer | dustSheet
  deriving DecidableEq, Repr

/-- A core's copy of a bus transaction, as the comparator sees it (R398). -/
structure BusCopy where
  addr : Word32
  data : Word32
  enables : BitVec 4
  kind : BitVec 4
  deriving DecidableEq, Repr

/-- STATE of a stream record (Table 07-6). -/
inductive StreamState where
  | free | open | closed | forked
  deriving DecidableEq, Repr

/-- One 128-byte stream record (R185, Table 07-6); sequences are counts below 2^48. -/
structure StreamRec where
  owner : Nat := 0
  st : StreamState := .free
  home : Nat := 0
  safety : Bool := false
  holdValid : Bool := false
  issued : Nat := 0
  head : Nat := 0
  tail : Nat := 0
  chain : BitVec 128 := 0
  createTick : Nat := 0
  holdFirst : Nat := 0
  holdLast : Nat := 0
  forkSeq : Nat := 0
  deriving DecidableEq, Repr

/-- The records of a table line by their index 0 to 31 (R185); an unlisted record is all zeros. -/
abbrev TableRecs := Sparse StreamRec

/-- Coherence state of a table line (R246). -/
inductive Coh where
  | i | s | e | m
  deriving DecidableEq, Repr

/-- The attach block of HELLO and HELLO_ACK (R268). -/
structure AttachBlock where
  twinId : Nat
  mode : Mode
  paired : Bool
  serial : BitVec 64
  fingerprint : BitVec 64
  cartSerial : BitVec 64
  deriving DecidableEq, Repr

/-- A slot record of the key store (R206, Table 08-2): STATE and the fields of bytes 4 to 55. -/
structure SlotRecord where
  state : BitVec 32
  keygen : Nat
  flags : BitVec 8
  quota : Nat
  createTick : Nat
  wrapped : BitVec 320
  deriving DecidableEq, Repr

/-- A Lath message as this twin sends it (Table 10-3), less the credit fields, which R264 fills when it leaves. -/
inductive LathMsg where
  | credit
  | detach (leaving : Nat)
  | detachAck
  | modeNote (mode : Mode) (sealing : Bool)
  | rd (k : Nat)
  | own (k : Nat)
  | upg (k : Nat)
  | none (k : Nat) (granted : Coh)
  | evicting (k : Nat)
  | evict (k : Nat)
  | evictAck (k : Nat)
  | appBegin (xid owner : Nat) (mark : Nat) (count : Nat)
  | appVerified (xid : Nat) (mark : Nat) (ovr : Bool)
  | appFailed (xid : Nat) (mark : Nat) (status : Nat)
  | appAbort (xid : Nat) (mark : Nat)
  | recovReq (xid : Nat) (mark : Nat) (unit : Nat)
  | ownerNote (slot : Nat)
  | ownerDone (slot : Nat) (code : Nat)
  | catchBegin (xid owner : Nat) (mark : Nat) (count : Nat)
  | catchDone (xid : Nat) (mark : Nat)
  | chainReq (mark : Nat)
  | pulseSync (ticks width localMask peerMask : Nat)
  | catchFailed (xid : Nat) (mark : Nat) (status : Nat)
  | pairConfirm (code : Nat)
  | pairConfirmAck (equal : Bool)
  | data (k : Nat) (granted : Coh) (recs : TableRecs) (poison : BitVec 32)
  | evictD (k : Nat) (recs : TableRecs) (poison : BitVec 32)
  | cleanD (k : Nat) (recs : TableRecs) (poison : BitVec 32)
  | appData (xid unit : Nat) (bytes : List Byte) (poison : BitVec 32)
  | recovData (xid unit : Nat) (bytes : List Byte) (poison : BitVec 32)
  | catchData (xid unit : Nat) (bytes : List Byte) (poison : BitVec 32)
  | hello (blk : AttachBlock)
  | helloAck (blk : AttachBlock)
  | tableXfer (k : Nat) (recs : TableRecs) (poison : BitVec 32)
  | chainVal (mark : Nat) (h : BitVec 128)
  | pairPoint (point : List Byte)
  | keyXfer (slot : Nat) (rec : SlotRecord)
  | cartReg (serials : List (BitVec 64))
  deriving DecidableEq, Repr

/-- The credit fields that every received message carries (R264, R266). -/
structure Credits where
  control : Nat := 0
  data : Nat := 0
  deriving DecidableEq, Repr

/-- What the AFE servo converters deliver at one sampling instant (R58, R61, R64): the error sample, the sum signal, the
commanded acceleration, and the motor supply as a fraction of 32 V. -/
structure ServoSample where
  err : Q24
  sum : Q24
  aCmd : Q24
  vMeas : Q24
  deriving DecidableEq, Repr

/-- Which motion a due microstep belongs to (R93, R104, R108, R100). -/
inductive StepSource where
  | profile | gear | trim | homing | ramp
  deriving DecidableEq, Repr

/-- What the front end and the sample store do next, in order (R113, R117, R120): one channel bit comes, as its equalised sample and the
envelope; the taps are updated, to values that their bounds have not yet limited; or the store takes the oldest entry of the read FIFO. -/
inductive Flow where
  | bit (sample : BitVec 7) (envelope : Nat)
  | adapt (taps : List Int)
  | take
  deriving DecidableEq, Repr

/-- What a DMA read of host memory brings (R317): its bytes, or a failure (an error status, a poisoned TLP or a timeout). -/
inductive DmaResult where
  | ok (bytes : List Byte)
  | failed
  deriving DecidableEq, Repr

/-- A header that was read from a frame (R171): the fields the FX880 uses. -/
structure SectorHeader where
  psa : Nat
  pass : Nat
  keygen : Nat
  owner : Nat
  type : Nat
  slot : Nat
  d : Nat
  relocated : Bool
  contig : Bool
  recOff : Nat
  ringCtr : Nat
  aux : Nat
  deriving DecidableEq, Repr

/-- A cluster as the forward scan of R193 reads it: its place, its header's TYPE, PASS, RING_CTR and AUX, whether all its sectors read and
verify, and its user bytes. -/
structure ScannedCluster where
  layer : Nat
  zone : Nat
  pos : Nat
  type : Nat
  pass : Nat
  ctr : Nat
  aux : Nat
  verified : Bool
  user : List Byte
  deriving DecidableEq, Repr

/-- What the medium gives end-of-log recovery for one ring (R193): the headers that read, each frame's address with the pass it holds, and
the clusters of the ring that the forward scan may read. What recovery makes of them is the machine's. -/
structure RecoveryScan where
  headers : List (Nat × Nat)
  clusters : List ScannedCluster
  deriving DecidableEq, Repr

/-- What a directory checkpoint records of an owner slot (R208). -/
structure DirSlot where
  active : Bool := false
  destroyed : Bool := false
  keygen : Option Nat := none
  deriving DecidableEq, Repr

/-- What a directory checkpoint records of an owner ring (R175): its zones in order of last entry, each with layer, zone and pass, and the
places in that list of its current and next zones. -/
structure DirRing where
  owner : Nat
  zones : List (Nat × Nat × Nat)
  cur : Option Nat
  next : Option Nat
  deriving DecidableEq, Repr

/-- A boot slot of the activation record (R189, Table 07-7). -/
structure BootSlot where
  st : Nat := 0
  length : Nat := 0
  stageGen : Nat := 0
  digest : BitVec 256 := 0
  deriving DecidableEq, Repr

/-- An activation record (R189, Table 07-7). -/
structure Activation where
  generation : Nat := 0
  active : Nat := 0xFF
  previous : Nat := 0xFF
  slots : Sparse BootSlot := []
  deriving DecidableEq, Repr

/-- A directory checkpoint as it reads from the system area (R175, R208): its place among the data positions of L0, its pass and
RING_CTR, whether all its sectors read and verify, and what it records of the owner slots and the rings. -/
structure ScannedDir where
  place : Nat
  pass : Nat
  ctr : Nat
  verified : Bool
  slots : List (Nat × DirSlot)
  rings : List DirRing
  deriving DecidableEq, Repr

/-- The ring checkpoint that opened a zone's present pass, as it reads (R174, R178): the HEAD of each stream that it shows. -/
structure ScannedOpening where
  layer : Nat
  zone : Nat
  heads : List (Nat × Nat)
  deriving DecidableEq, Repr

/-- What a cartridge gives the FX880 that loads it (R175, R189, R193): the headers that read in the system area, each frame's address with
the pass it holds, the directory checkpoints in it, the opening ring checkpoints of the zones in use, the free zones with the highest pass
in each, the defect list with the place of each cluster moved, the spares used by layer × 64 + zone with the highest pass among them, the
clusters written to the system area, the pass at which each boot slot was last written, and the readable copies of the activation
record. -/
structure SystemScan where
  headers : List (Nat × Nat)
  dirs : List ScannedDir
  openings : List ScannedOpening
  free : List (Nat × Nat × Nat)
  defects : List (Nat × Nat × Nat)
  moved : List ((Nat × Nat × Nat) × (Nat × Nat × Nat))
  spares : List (Nat × Nat × Nat)
  ctr : Nat
  bootPass : List (Nat × Nat)
  actA : Option Activation
  actB : Option Activation
  deriving DecidableEq, Repr

/-- The results of the start-up tests and the loads of a power-on reset that lie outside the model's data (R449, R457,
R470): the checker fail map, the comparator start test, which images are valid, the cartridge memory if one is
seated, with what its system area holds. -/
structure PowerOnInputs where
  checkerFail : BitVec 16
  selfTestUs : Nat
  comparatorOk : Bool
  imageAValid : Bool
  imageBValid : Bool
  cartMemory : Option (List Byte)
  system : SystemScan
  pacingFault : Bool
  deriving DecidableEq, Repr

/-- The commands of the FX880, one constructor for each row of the operation table. The last ones carry no operand: Lean's compiler gives
constructors with operands no number beyond 243. -/
inductive Instr where
  /-- APPEND (R181): run the dispatched command `tag`. -/
  | append (tag : Nat)
  /-- READ_MARK (R325). -/
  | readMark (tag : Nat)
  /-- READ_RANGE (R325). -/
  | readRange (tag : Nat)
  /-- HOLD (R179). -/
  | hold (tag : Nat)
  /-- RELEASE_HOLD (R179). -/
  | releaseHold (tag : Nat)
  /-- BOOT_STAGE (R188). -/
  | bootStage (tag : Nat)
  /-- BOOT_ACTIVATE (R189). -/
  | bootActivate (tag : Nat)
  /-- BOOT_READ (R190). -/
  | bootRead (tag : Nat)
  /-- OWNER_CREATE (R215). -/
  | ownerCreate (tag : Nat)
  /-- OWNER_RETIRE (R216). -/
  | ownerRetire (tag : Nat)
  /-- OWNER_EXPORT_KEY (R222); `point` is what the read of POINT_PTR brought. -/
  | ownerExportKey (tag : Nat) (point : DmaResult)
  /-- STREAM_OPEN (R334). -/
  | streamOpen (tag : Nat)
  /-- STREAM_CLOSE (R334). -/
  | streamClose (tag : Nat)
  /-- IDENTIFY (R338). -/
  | identify (tag : Nat)
  /-- GET_LOG (R339). -/
  | getLog (tag : Nat)
  /-- SET_FEATURE (R336). -/
  | setFeature (tag : Nat)
  /-- GET_FEATURE (R336). -/
  | getFeature (tag : Nat)
  /-- ENTER_DUST_SHEET (R335, Table 12-9). -/
  | enterDustSheet (tag : Nat)
  /-- LEAVE_DUST_SHEET (R459); `measured` is what a first calibration, when one runs, measures for its registers, or none when it fails
  (R467). -/
  | leaveDustSheet (tag : Nat) (measured : Option (List (Nat × Word32)))
  /-- DETACH_REQUEST (R287). -/
  | detachRequest (tag : Nat)
  /-- COMMISSION (R288). -/
  | commission (tag : Nat)
  /-- CONFIRM (R288). -/
  | confirm (tag : Nat)
  /-- CARTRIDGE_EJECT_PREP (R464). -/
  | cartridgeEjectPrep (tag : Nat)
  /-- RUN_SELFTEST (R457): the checker fail map, the comparator test's result and the duration. -/
  | runSelftest (tag : Nat) (failMap : BitVec 16) (comparatorOk : Bool) (us : Nat)
  /-- READ_HEADER (R323): the header's 32 bytes as the medium gave them, or none when it did not read. -/
  | readHeader (tag : Nat) (header : Option (List Byte))
  /-- TRIGGER (R368). -/
  | trigger (tag : Nat)
  /-- DOORBELL_POLL (R303). -/
  | doorbellPoll
  /-- DOORBELL_POLL_RETURN (R302): the 128 bytes read. -/
  | doorbellPollReturn (res : DmaResult)
  /-- FETCH_ENTRY (R307). -/
  | fetchEntry
  /-- ENTRY_FETCHED (R309): the 64 bytes read. -/
  | entryFetched (res : DmaResult)
  /-- POST_COMPLETION (R310). -/
  | postCompletion
  /-- COALESCE_TIMER_EXPIRY (R311). -/
  | coalesceTimerExpiry (cq : Nat)
  /-- CONVENTIONAL_RESET (R315). -/
  | conventionalReset
  /-- LINK_DOWN (R306). -/
  | linkDown
  /-- LINK_UP (R306) at a width and speed (Table 11-7). -/
  | linkUp (width : Nat) (speed : Nat)
  /-- BUS_MASTER_ENABLE_CHANGE (R306). -/
  | busMasterEnableChange (on : Bool)
  /-- SETUP_LOCK (R313). -/
  | setupLock
  /-- REGISTER_WRITE (R8): requester, access width in bits, BAR0 offset, value. -/
  | registerWrite (who : Requester) (width : Nat) (offset : Nat) (value : Word32)
  /-- RC_FIELD_READ (R480): requester, access width in bits (R7), BAR0 offset. -/
  | rcFieldRead (who : Requester) (width : Nat) (offset : Nat)
  /-- TICK_LO_READ (R34). -/
  | tickLoRead (who : Requester)
  /-- BAR0_READ_IN_RETENTION (R478): access width in bits (R7), BAR0 offset. -/
  | bar0ReadInRetention (width : Nat) (offset : Nat)
  /-- BOUNDS_CHANGE (R50) of an adaptive loop. -/
  | boundsChange (loop : Nat)
  /-- EXCURSION_RETURN (R48) of an adaptive loop. -/
  | excursionReturn (loop : Nat)
  /-- COUNT_WINDOW_END (R56): crystal periods counted in 1 ms of the backup. -/
  | countWindowEnd (periods : Nat)
  /-- LOOP_SAMPLE (R58). -/
  | loopSample (n : Nat) (x : ServoSample)
  /-- LOOP_COMPUTE_DONE (R64): `eighths` of a tick past the present tick. -/
  | loopComputeDone (n : Nat) (eighths : Nat)
  /-- LOOP_OUTPUT_INSTANT (R71). -/
  | loopOutputInstant (n : Nat)
  /-- LOOP_OPEN (R66). -/
  | loopOpen (who : Requester) (n : Nat)
  /-- LOOP_HOLD (R66). -/
  | loopHold (who : Requester) (n : Nat)
  /-- LOOP_CLOSE (R66). -/
  | loopClose (who : Requester) (n : Nat)
  /-- LOOP_ACQUIRE (R66). -/
  | loopAcquire (who : Requester) (n : Nat)
  /-- DISCARD_SHADOW (R70). -/
  | discardShadow (who : Requester) (n : Nat)
  /-- ACQ_TIMEOUT (R76). -/
  | acqTimeout (n : Nat)
  /-- HOLD_TIMEOUT (R66). -/
  | holdTimeout (n : Nat)
  /-- COEF_LIVE_WRITE (R69). -/
  | coefLiveWrite (who : Requester) (n k : Nat) (value : Word32)
  /-- COEF_SHADOW_WRITE (R70). -/
  | coefShadowWrite (who : Requester) (n k : Nat) (value : Word32)
  /-- SEQ_RUN (R81). -/
  | seqRun (who : Requester) (run : Bool)
  /-- SEQ_KICK (R81). -/
  | seqKick (who : Requester)
  /-- MOVE (R93). -/
  | move (who : Requester)
  /-- HOME (R100). -/
  | home (who : Requester)
  /-- PARK (R101). -/
  | park (who : Requester)
  /-- STOP (R95). -/
  | stop (who : Requester)
  /-- GEAR_ENGAGE (R104). -/
  | gearEngage (who : Requester)
  /-- GEAR_DISENGAGE (R91). -/
  | gearDisengage (who : Requester)
  /-- CLEAR_FAULT (R91). -/
  | clearFault (who : Requester)
  /-- MICROSTEP_DUE (R93): which motion, and outward or inward. -/
  | microstepDue (src : StepSource) (outward : Bool)
  /-- LIMIT_SWITCH_CHANGE (R97): the outer switch or the home switch, its input's level, and for how many ticks it has held (R89). -/
  | limitSwitchChange (outer : Bool) (level : Bool) (held : Nat)
  /-- ENCODER_EDGE (R104), `eighths` of a tick past the present tick (R61). -/
  | encoderEdge (eighths : Nat)
  /-- GEAR_ARM (R105). -/
  | gearArm (who : Requester)
  /-- GEAR_CANCEL (R105). -/
  | gearCancel (who : Requester)
  /-- SECTOR_SYNC (R137): the frame, whether lock is declared by the end of the sync field (R119), and what came before it. -/
  | sectorSync (psa : Nat) (locked : Bool) (flow : List Flow)
  /-- FAST_DECODE_DONE (R123): the frame, and the word that the Fast path holds after its last iteration. -/
  | fastDecodeDone (psa : Nat) (word : BitVec 36992)
  /-- DEEP_ITERATION_DONE (R124): the frame, the inner iterations run, and the word after the last. -/
  | deepIterationDone (psa : Nat) (inner : Nat) (word : BitVec 36992)
  /-- CLUSTER_REREAD (R127). -/
  | clusterReread (cluster : Nat)
  /-- EGRESS_DECRYPT_DONE (R131): the tag's result, the plaintext, and poison in the egress buffer (R446). -/
  | egressDecryptDone (psa : Nat) (tagOk : Bool) (plain : List Byte) (poisoned : Bool)
  /-- RAW_RESULT (R151): code-bit errors, the sector's β in 1/1024, and whether sync and timing were found. -/
  | rawResult (psa : Nat) (errors : Nat) (beta : Int) (synced : Bool)
  /-- IN_PLACE_RETRY (R153). -/
  | inPlaceRetry (psa : Nat) (poisoned : Bool)
  /-- LASER_MAX_WRITE (R143). -/
  | laserMaxWrite (who : Requester) (value : Word32)
  /-- WRITE_INHIBIT (R157): the bit of Table 06-5. -/
  | writeInhibit (cause : Nat)
  /-- OPC_TEST_STEP (R148): the word written to OPC_CMD. -/
  | opcTestStep (who : Requester) (value : Word32)
  /-- OPC_TEST_STEP_DONE (R148): total errors and mean β. -/
  | opcTestStepDone (errors : Nat) (beta : Int)
  /-- STATIC_OPC (R147). -/
  | staticOpc (layer band : Nat)
  /-- STRAT_DATA_ACCESS (R146): a read, or a write of a value. -/
  | stratDataAccess (who : Requester) (value : Option Word32)
  /-- ASSEMBLY_DELAY_EXPIRY (R182) for the ring of an owner. -/
  | assemblyDelayExpiry (owner : Nat)
  /-- ZONE_ENTRY (R178). -/
  | zoneEntry (owner : Nat)
  /-- NEXT_ZONE_NAMING (R176). -/
  | nextZoneNaming (owner : Nat)
  /-- BOOT_DIGEST_CHECK (R190): the digest computed over the image read. -/
  | bootDigestCheck (digest : BitVec 256)
  /-- RECOVERY_PHASE_A (R193). -/
  | recoveryPhaseA (owner : Nat) (scan : RecoveryScan)
  /-- RECOVERY_PHASE_B (R452). -/
  | recoveryPhaseB (owner : Nat)
  /-- APPEND_ADMISSION (R326). -/
  | appendAdmission (tag : Nat)
  /-- RNG_HEALTH_FAIL (R225). -/
  | rngHealthFail
  /-- COMMISSION_TIMEOUT (R289). -/
  | commissionTimeout
  /-- AGEING_TICK (R235). -/
  | ageingTick
  /-- FILL_AFTER_WAIT (R238). -/
  | fillAfterWait
  /-- CACHE_SRAM_ERROR (R241): the line, 0 to 63 in the main array and 64 to 71 in the victim cache, and the record mask of a
  table line. -/
  | cacheSramError (line : Nat) (records : BitVec 32)
  /-- INVALIDATE (R244). -/
  | invalidate (who : Requester)
  /-- CLEAN (R244). -/
  | clean (who : Requester)
  /-- PURGE_OWNER (R244). -/
  | purgeOwner (who : Requester)
  /-- ZERO_LINE (R243). -/
  | zeroLine (who : Requester)
  /-- RANGE_OP_DONE (R244). -/
  | rangeOpDone
  /-- TABLE_LINE_BUSY_CLEAR (R249). -/
  | tableLineBusyClear (k : Nat)
  /-- RD received (R248). -/
  | rd (cr : Credits) (k : Nat)
  /-- OWN received (R248). -/
  | own (cr : Credits) (k : Nat)
  /-- UPG received (R248). -/
  | upg (cr : Credits) (k : Nat)
  /-- DATA received (R248). -/
  | data (cr : Credits) (k : Nat) (granted : Coh) (recs : TableRecs) (poison : BitVec 32)
  /-- NONE received (R248). -/
  | none (cr : Credits) (k : Nat) (granted : Coh)
  /-- EVICTING received (R254). -/
  | evicting (cr : Credits) (k : Nat)
  /-- EVICT received (R254). -/
  | evict (cr : Credits) (k : Nat)
  /-- EVICT_D received (R254). -/
  | evictD (cr : Credits) (k : Nat) (recs : TableRecs) (poison : BitVec 32)
  /-- CLEAN_D received (R248). -/
  | cleanD (cr : Credits) (k : Nat) (recs : TableRecs) (poison : BitVec 32)
  /-- EVICT_ACK received (R248). -/
  | evictAck (cr : Credits) (k : Nat)
  /-- CREDIT received (R264). -/
  | credit (cr : Credits)
  /-- DETACH received (R287). -/
  | detach (cr : Credits) (leaving : Nat)
  /-- DETACH_ACK received (R287). -/
  | detachAck (cr : Credits)
  /-- MODE_NOTE received (R272). -/
  | modeNote (cr : Credits) (mode : Mode) (sealing : Bool)
  /-- APP_BEGIN received (R274). -/
  | appBegin (cr : Credits) (xid owner mark count : Nat)
  /-- APP_DATA received (R274). -/
  | appData (cr : Credits) (xid unit : Nat) (bytes : List Byte) (poison : BitVec 32)
  /-- APP_VERIFIED received (R274). -/
  | appVerified (cr : Credits) (xid mark : Nat) (ovr : Bool)
  /-- APP_FAILED received (R275). -/
  | appFailed (cr : Credits) (xid mark status : Nat)
  /-- APP_ABORT received (R275). -/
  | appAbort (cr : Credits) (xid mark : Nat)
  /-- RECOV_REQ received (R277). -/
  | recovReq (cr : Credits) (xid mark unit : Nat)
  /-- RECOV_DATA received (R24). -/
  | recovData (cr : Credits) (xid unit : Nat) (bytes : List Byte) (poison : BitVec 32)
  /-- OWNER_NOTE received (R216). -/
  | ownerNote (cr : Credits) (slot : Nat)
  /-- OWNER_DONE received (R217). -/
  | ownerDone (cr : Credits) (slot code : Nat)
  /-- CATCH_BEGIN received (R282). -/
  | catchBegin (cr : Credits) (xid owner mark count : Nat)
  /-- CATCH_DATA received (R282). -/
  | catchData (cr : Credits) (xid unit : Nat) (bytes : List Byte) (poison : BitVec 32)
  /-- CATCH_DONE received (R282). -/
  | catchDone (cr : Credits) (xid mark : Nat)
  /-- CATCH_FAILED received (R285). -/
  | catchFailed (cr : Credits) (xid mark status : Nat)
  /-- CHAIN_REQ received (R280). -/
  | chainReq (cr : Credits) (mark : Nat)
  /-- CHAIN_VAL received (R281). -/
  | chainVal (cr : Credits) (mark : Nat) (h : BitVec 128)
  /-- PULSE_SYNC received (R416). -/
  | pulseSync (cr : Credits) (ticks width localMask peerMask : Nat)
  /-- PAIR_POINT received (R220). -/
  | pairPoint (cr : Credits) (point : List Byte)
  /-- PAIR_CONFIRM received (R288): its check code, and whether the peer holds an ACTIVE slot, which decides the key source (R221). -/
  | pairConfirm (cr : Credits) (code : Nat) (peerKeys : Bool)
  /-- PAIR_CONFIRM_ACK received (R289). -/
  | pairConfirmAck (cr : Credits) (equal : Bool)
  /-- HELLO received (R278). -/
  | hello (cr : Credits) (blk : AttachBlock)
  /-- HELLO_ACK received (R278). -/
  | helloAck (cr : Credits) (blk : AttachBlock)
  /-- TABLE_XFER received (R279). -/
  | tableXfer (cr : Credits) (k : Nat) (recs : TableRecs) (poison : BitVec 32)
  /-- KEY_XFER received (R221). -/
  | keyXfer (cr : Credits) (slot : Nat) (rec : SlotRecord)
  /-- CART_REG received (R211). -/
  | cartReg (cr : Credits) (serials : List (BitVec 64))
  /-- LATH_LINK_ERROR (R258). -/
  | lathLinkError
  /-- ALIVE_TOGGLE (R269). -/
  | aliveToggle
  /-- ALIVE_PAUSE_END (R258). -/
  | alivePauseEnd
  /-- LATH_DOWN (R269). -/
  | lathDown
  /-- LATH_LIVE (R269). -/
  | lathLive
  /-- DIRECTION_TAKE (R260, R262): messages of the turn that have gone when LATH_ARB_IN is seen high, none where it stays low. -/
  | directionTake (arbIn : Option Nat)
  /-- ARB_COLLISION (R261). -/
  | arbCollision
  /-- GUARD_TIME_END (R262). -/
  | guardTimeEnd
  /-- IN_PEER_PULSE (R419): how many ticks the input was de-energised. -/
  | inPeerPulse (low : Nat)
  /-- IN_PEER_FAULTED (R270). -/
  | inPeerFaulted
  /-- IN_PEER_HEALTHY (R270). -/
  | inPeerHealthy
  /-- VIN_WARN_ASSERT (R376). -/
  | vinWarnAssert
  /-- VIN_WARN_CLEAR (R371). -/
  | vinWarnClear
  /-- RETURN_CONDITION (R377). -/
  | returnCondition
  /-- PWRWARN_INPUT_CHANGE (R372): a level of IN_PWRWARN, energised or not, and the ticks for which it has held (R419). -/
  | pwrwarnInputChange (energised : Bool) (held : Nat)
  /-- RIDE_THROUGH_WINDOW_EXPIRY (R378). -/
  | rideThroughWindowExpiry
  /-- SEAL_LEVEL_TRIP (R374). -/
  | sealLevelTrip
  /-- SEAL_FINISH_END (R381). -/
  | sealFinishEnd
  /-- SEAL_CHECKPOINT_END (R380). -/
  | sealCheckpointEnd
  /-- SEAL_PARK_END (R378). -/
  | sealParkEnd
  /-- RESET_LEVEL_TRIP (R373), with the results of the start-up that follows. -/
  | resetLevelTrip (inputs : PowerOnInputs)
  /-- STACK_MONITOR_CYCLE (R386): cells, none where no results arrive, REF_B and coarse reading in mV, charge current in mA, and how far
  each tap would move under the load of every 100th cycle (R388). -/
  | stackMonitorCycle (cells : List Nat) (refB coarse current : Nat) (tapMoves : List Nat)
  /-- HEARTBEAT_LOSS (R392): the ticks for which no edge has arrived. -/
  | heartbeatLoss (quiet : Nat)
  /-- BALANCE_COMMAND (R393): the word written to HUS.BALANCE. -/
  | balanceCommand (who : Requester) (value : Word32)
  /-- BALANCE_EXPIRY (R393). -/
  | balanceExpiry
  /-- DISCHARGE_TEST_REQUEST (R394). -/
  | dischargeTestRequest (who : Requester)
  /-- DISCHARGE_TEST_DUE (R394). -/
  | dischargeTestDue
  /-- DISCHARGE_TEST_START (R394). -/
  | dischargeTestStart
  /-- DISCHARGE_TEST_DONE (R395): the fall of the reading 1 ms after switching in mV, and the time of the fall from 14.0 V to
  13.2 V in ticks. -/
  | dischargeTestDone (fallMv : Nat) (ticks : Nat)
  /-- CORE_MISMATCH (R401): a transaction of the leading core, the trailing core's copy of it, and the bits upset in the two copies of
  the output delay register that held the former (R399, R423). -/
  | coreMismatch (lead trail : BusCopy) (upsetA upsetB : BitVec 81)
  /-- LOCKSTEP_SELFTEST (R400): the transaction that carries the test, of each core. -/
  | lockstepSelftest (lead trail : BusCopy)
  /-- LOCKSTEP_SELFTEST_FAIL (R401). -/
  | lockstepSelftestFail
  /-- DELAY_REGISTER_FAULT (R399): the bits upset in the two copies of the delay register in use, parity bits above the data. -/
  | delayRegisterFault (upsetA upsetB : BitVec 81)
  /-- WARM_RESTART_DONE (R402): the CRC results of the image in use and of the other image. -/
  | warmRestartDone (crcOk otherOk : Bool)
  /-- TEST_PULSE_WINDOW (R409) of an output. -/
  | testPulseWindow (out : Nat)
  /-- PULSE_SAMPLE_INSTANT (R411) of an output: the four pins as sampled. -/
  | pulseSampleInstant (out : Nat) (pins : BitVec 4)
  /-- PULSE_PERIOD_END (R412). -/
  | pulsePeriodEnd
  /-- OUTPUT_OVERCURRENT (R408): current limit, or thermal shutdown. -/
  | outputOvercurrent (out : Nat) (shutdown : Bool)
  /-- OUTPUT_RETRY (R408): whether the episode has ended. -/
  | outputRetry (out : Nat) (ended : Bool)
  /-- FAULT_CLR (R414): the word written. -/
  | faultClr (who : Requester) (value : Word32)
  /-- FIELD_SUPPLY_LOW (R490). -/
  | fieldSupplyLow
  /-- FIELD_SUPPLY_RESTORED (R490). -/
  | fieldSupplyRestored
  /-- FIELD_INPUT_CHANGE (R419): input of Table 15-5, a level of it, and the ticks for which it has held. -/
  | fieldInputChange (input : Nat) (energised : Bool) (held : Nat)
  /-- PROGRAM (R429). -/
  | program (who : Requester)
  /-- ERASE_SECTOR (R429). -/
  | eraseSector (who : Requester)
  /-- ERASE_BLOCK (R429). -/
  | eraseBlock (who : Requester)
  /-- BIT_CLEAR (R427). -/
  | bitClear (who : Requester)
  /-- SUSPEND (R433). -/
  | suspend (who : Requester)
  /-- RESUME (R432). -/
  | resume (who : Requester)
  /-- FLASH_OP_DONE (R430): whether the verify passed. -/
  | flashOpDone (verified : Bool)
  /-- FLASH_READ (R426): a chunk, and the sensed bits that differ from those stored. -/
  | flashRead (chunk : Nat) (flips : List Nat)
  /-- SUSPEND_REACHED (R432). -/
  | suspendReached
  /-- SUSPEND_HOLD_EXPIRY (R433). -/
  | suspendHoldExpiry
  /-- AUTO_SUSPEND_END (R432). -/
  | autoSuspendEnd
  /-- FLASH_SCRUB (R440): a sector, and the sensed flips of each of its chunks under a margin read. -/
  | flashScrub (sector : Nat) (flips : List (Nat × List Nat))
  /-- FLASH_REFRESH (R440). -/
  | flashRefresh (sector : Nat)
  /-- EVENT_LOG_WRITE (R437): origin, source, bytes 14 to 15 and the 12 detail bytes. -/
  | eventLogWrite (origin source code : Nat) (detail : List Byte)
  /-- EVENT_LOG_HOUR_END (R438). -/
  | eventLogHourEnd
  /-- SRAM_SCRUB (R444): memory, word, and the 64 data and 8 check bits read; `last` ends a complete pass; `written` tells of a
  functional write accepted in the same tick. -/
  | sramScrub (mem word : Nat) (data : BitVec 64) (check : BitVec 8) (last written : Bool)
  /-- POISON_CONSUMED (R445): the memory (10 for flash), the address, and whether by a fetch. -/
  | poisonConsumed (mem : Nat) (addr : Word32) (fetch : Bool)
  /-- SPLIT_MODE_OPEN (R448): the word written to SPLIT_MODE. -/
  | splitModeOpen (who : Requester) (value : Word32)
  /-- SPLIT_MODE_CLOSE (R448). -/
  | splitModeClose (who : Requester)
  /-- SPLIT_MODE_TIMEOUT (R448). -/
  | splitModeTimeout
  /-- TEST_WRITE_DATA (R448). -/
  | testWriteData (who : Requester)
  /-- TEST_WRITE_CHECK (R448). -/
  | testWriteCheck (who : Requester)
  /-- TEST_READ (R448). -/
  | testRead (who : Requester)
  /-- ZERO_WORD (R443). -/
  | zeroWord (who : Requester) (addr : Word32)
  /-- ICU_CLAIM (R354) at T0 or T1. -/
  | icuClaim (who : Requester) (t : Nat)
  /-- ICU_HOST_CLAIM (R356). -/
  | icuHostClaim (who : Requester)
  /-- ICU_COMPLETE (R354). -/
  | icuComplete (who : Requester) (t : Nat) (value : Word32)
  /-- MASK_SET (R357): word, value. -/
  | maskSet (who : Requester) (w : Nat) (value : Word32)
  /-- MASK_CLR (R357). -/
  | maskClr (who : Requester) (w : Nat) (value : Word32)
  /-- PEND_SET (R350). -/
  | pendSet (who : Requester) (w : Nat) (value : Word32)
  /-- PEND_CLR (R350). -/
  | pendClr (who : Requester) (w : Nat) (value : Word32)
  /-- THRESHOLD_WRITE (R357). -/
  | thresholdWrite (who : Requester) (t : Nat) (value : Word32)
  /-- SRC_CFG_WRITE (R358). -/
  | srcCfgWrite (who : Requester) (src : Nat) (value : Word32)
  /-- WAKE_SLOT_WRITE (R362). -/
  | wakeSlotWrite (who : Requester) (i : Nat) (value : Word32)
  /-- WAKE_DETECT (R364): the watched source and the level its raw signal now has. -/
  | wakeDetect (src : Nat) (level : Bool)
  /-- RETENTION_ENTRY (R364). -/
  | retentionEntry
  /-- IDLE_TIMER_EXPIRY (R342). -/
  | idleTimerExpiry
  /-- POWER_STATE_EXIT_DONE (R344). -/
  | powerStateExitDone
  /-- POWER_ON_RESET (R452). -/
  | powerOnReset (inputs : PowerOnInputs)
  /-- CALIBRATION_SAVE (R456). -/
  | calibrationSave
  /-- CARTRIDGE_SEATED (R461): the 128 bytes of its memory, and what its system area holds. -/
  | cartridgeSeated (memory : List Byte) (system : SystemScan)
  /-- CARTRIDGE_REMOVED (R465). -/
  | cartridgeRemoved
  /-- FW_UPDATE_START (R472): the word written to GEN.FW_UPDATE. -/
  | fwUpdateStart (who : Requester) (value : Word32)
  /-- FW_UPDATE_DONE (R472): the image as the slot gave it, whether the flash verify passed, and the start-up results when RESTART is
  set. -/
  | fwUpdateDone (image : List Byte) (verified : Bool) (inputs : PowerOnInputs)
  /-- CONFIRM_MARK (R471). -/
  | confirmMark
  /-- HEARTBEAT_RESTORED (R392): the ticks for which the heartbeat has been present. -/
  | heartbeatRestored (present : Nat)
  /-- READ_FIFO_HIGH_WATER (R37): what came up to the entry that brings the FIFO to 96. -/
  | readFifoHighWater (flow : List Flow)
  /-- DEFECT_BEGIN (R120): what came up to the bit that begins the defect. -/
  | defectBegin (flow : List Flow)
  /-- DEFECT_END (R120): what came up to the bit that ends the defect. -/
  | defectEnd (flow : List Flow)
  /-- READ_FIFO_OVERFLOW (R114): what came up to the entry that is due into the full FIFO. -/
  | readFifoOverflow (flow : List Flow)
  /-- TIMING_LOCK_LOST (R119): what came up to the bit by which the defect outlasts the flywheel. -/
  | timingLockLost (flow : List Flow)
  /-- DATA_FIELD_END (R121): the frame, and what came up to the last of its entries in the store. -/
  | dataFieldEnd (psa : Nat) (flow : List Flow)
  /-- SECTOR_WRITE_START (R233): the frame, and poison in its plaintext. -/
  | sectorWriteStart (psa : Nat) (before : Option Nat) (poisoned : Bool)
  /-- PAYLOAD_READ_RETURN (R317): the scatter list or the payload of command `tag`. -/
  | payloadReadReturn (tag : Nat) (scatter : Bool) (res : DmaResult)
  /-- CLUSTER_REFRESH (R130). -/
  | clusterRefresh (cluster : Nat)
  /-- VIN_ADC_SAMPLE (R371): VIN and the field supply in mV. -/
  | vinAdcSample (vin field : Nat)
  /-- JUNCTION_TEMPERATURE_LIMIT (R503): core and AFE junction temperatures in °C. -/
  | junctionTemperatureLimit (core afe : Int)
  /-- REFCLK_LOSS (R31). -/
  | refclkLoss
  /-- REFCLK_RETURN (R31). -/
  | refclkReturn
  /-- MSIX_TABLE_WRITE (R311): offset within the table, value. -/
  | msixTableWrite (offset : Nat) (value : Word32)
  /-- LASER_OVER_CLEAR (R144). -/
  | laserOverClear (who : Requester)
  /-- WRITE_INHIBIT_CLEAR (R159): the bit of Table 06-5 that cleared. -/
  | writeInhibitClear (cause : Nat)
  /-- AVS_RAIL_SETTLED (R428). -/
  | avsRailSettled
  /-- AVS_WINDOW_END (R37). -/
  | avsWindowEnd
  /-- CRYSTAL_EDGE_TIMEOUT (R56). -/
  | crystalEdgeTimeout
  /-- FOCUS_LOSS (R68). -/
  | focusLoss
  /-- SEQ_WATCHDOG_EXPIRY (R81). -/
  | seqWatchdogExpiry
  /-- SEQ_HALT (R74). -/
  | seqHalt
  /-- PROFILE_REPLAN (R93). -/
  | profileReplan
  /-- MOVE_COMPLETE (R94). -/
  | moveComplete
  /-- EMERGENCY_RAMP_AT_REST (R95). -/
  | emergencyRampAtRest
  /-- PRE_DRIVER_FAULT (R96). -/
  | preDriverFault
  /-- HOMING_FAILED (R100). -/
  | homingFailed
  /-- WRITE_FIFO_UNDERRUN (R139). -/
  | writeFifoUnderrun
  /-- LASER_OVER_POWER (R144). -/
  | laserOverPower
  /-- LASER_ILK_LOW (R145). -/
  | laserIlkLow
  /-- LASER_ILK_RESTORED (R145). -/
  | laserIlkRestored
  /-- WRITE_RESUME (R159). -/
  | writeResume
  deriving DecidableEq, Repr

end Sys2Proof
end

