-- ==== Sys2Proof/Decode.lean ====
section
/-!
DEFINITION. Words to commands. spec/opcode_table.json gives no row any bits: a command of the FX880 is not spelled by a word, it is
made by a register access, a ring entry, a message, a pin or a measurement. So every word is refused.
-/

namespace Sys2Proof

/-- The command that a word of `nbits` bits spells by the table's bits: none, since no row has bits. -/
def decodeTableWord (_nbits _w : Nat) : Option Instr := Option.none

end Sys2Proof
end

