-- ==== Sys2Proof/Machine/Sparse.lean ====
section
/-!
DEFINITION. Sparse tables in one canonical form (indices strictly rising, no pair whose value is the default of its index), and
the plain arithmetic of register fields and bytes that every block uses.
-/

namespace Sys2Proof.Machine

/-- The value at index `k`: the listed one, else the default `d k`. -/
def sget {α : Type} (d : Nat → α) : Sparse α → Nat → α
  | [], k => d k
  | (i, a) :: m, k => if i = k then a else sget d m k

/-- Put `v` at index `k` whatever the default, in order. -/
def sinsert {α : Type} (k : Nat) (v : α) : Sparse α → Sparse α
  | [] => [(k, v)]
  | (i, a) :: m =>
    if k < i then (k, v) :: (i, a) :: m
    else if k = i then (k, v) :: m
    else (i, a) :: sinsert k v m

/-- Take index `k` out. -/
def serase {α : Type} (k : Nat) (m : Sparse α) : Sparse α :=
  m.filter fun p => p.1 != k

/-- Write `v` at index `k`, keeping the canonical form: writing the default removes the pair. -/
def sset {α : Type} [DecidableEq α] (d : Nat → α) (k : Nat) (v : α) (m : Sparse α) : Sparse α :=
  if v = d k then serase k m else sinsert k v m

/-- Change the value at index `k`. -/
def supd {α : Type} [DecidableEq α] (d : Nat → α) (k : Nat) (f : α → α) (m : Sparse α) : Sparse α :=
  sset d k (f (sget d m k)) m

/-- The canonical form: indices strictly rising from above `lo`, no pair that holds its default. -/
def swfFrom {α : Type} [DecidableEq α] (d : Nat → α) : Option Nat → Sparse α → Bool
  | _, [] => true
  | lo, (i, a) :: m =>
    (match lo with | none => true | some l => decide (l < i)) && decide (a ≠ d i) && swfFrom d (some i) m

/-- The canonical form of a table. -/
def swf {α : Type} [DecidableEq α] (d : Nat → α) (m : Sparse α) : Bool := swfFrom d none m

/-- Field [hi:lo] of a number. -/
def field (hi lo w : Nat) : Nat := w / 2 ^ lo % 2 ^ (hi + 1 - lo)

/-- Field [hi:lo] of a register word. -/
def fld (w : Word32) (hi lo : Nat) : Nat := field hi lo w.toNat

/-- One bit of a register word. -/
def wbit (w : Word32) (i : Nat) : Bool := w.getLsbD i

/-- The word `w` with the field [hi:lo] put at `v`. -/
def wput (w : Word32) (hi lo v : Nat) : Word32 :=
  let m : Nat := (2 ^ (hi + 1 - lo) - 1) * 2 ^ lo
  (w &&& ~~~ (BitVec.ofNat 32 m)) ||| (BitVec.ofNat 32 (v * 2 ^ lo) &&& BitVec.ofNat 32 m)

/-- A `w`-bit field read as a signed number. -/
def signedOf (w v : Nat) : Int := if v < 2 ^ (w - 1) then (v : Int) else (v : Int) - (2 ^ w : Nat)

/-- The low `w` bits of a signed number as a field. -/
def ofSigned (w : Nat) (v : Int) : Nat := (v % (2 ^ w : Nat)).toNat

/-- A number held within [lo, hi]. -/
def clampInt (lo hi v : Int) : Int := if v < lo then lo else if hi < v then hi else v

/-- A flag as a bit. -/
def b2n (b : Bool) : Nat := if b then 1 else 0

/-- `n / d` rounded to nearest, halves away from zero (R509). -/
def roundDiv (n : Int) (d : Nat) : Int :=
  if n < 0 then - ((2 * (-n) + d) / (2 * d)) else (2 * n + d) / (2 * d)

/-- The `n` bytes of a number, little-endian (R6). -/
def leBytes (n v : Nat) : List Byte := (List.range n).map fun i => BitVec.ofNat 8 (v / 256 ^ i)

/-- The number that bytes spell, little-endian (R6). -/
def leNat : List Byte → Nat
  | [] => 0
  | b :: bs => b.toNat + 256 * leNat bs

/-- The `n` bytes of a number, most significant first (the byte strings of published standards, R6). -/
def beBytes (n v : Nat) : List Byte := (leBytes n v).reverse

/-- The number that bytes spell, most significant first. -/
def beNat (bs : List Byte) : Nat := leNat bs.reverse

/-- `n` bytes from offset `o`. -/
def slice (o n : Nat) (bs : List Byte) : List Byte := (bs.drop o).take n

/-- The little-endian field of `n` bytes at offset `o`. -/
def leAt (bs : List Byte) (o n : Nat) : Nat := leNat (slice o n bs)

/-- Bytes filled up with `x` to `n` bytes. -/
def padTo (n : Nat) (x : Byte) (bs : List Byte) : List Byte := bs ++ List.replicate (n - bs.length) x

/-- Replace the element at index `i` of a list. -/
def setAt {α : Type} (i : Nat) (a : α) (l : List α) : List α := l.set i a

/-- Change the first element that satisfies `p`. -/
def updateFirst {α : Type} (p : α → Bool) (f : α → α) : List α → List α
  | [] => []
  | a :: l => if p a then f a :: l else a :: updateFirst p f l

/-- Bits of a number below `n` that are set, lowest first. -/
def bitsOf (n w : Nat) : List Nat := (List.range n).filter fun i => w.testBit i

end Sys2Proof.Machine
end

