-- ==== Sys2Proof/Machine/State.lean ====
section
/-!
DEFINITION. The state of one FX880 module: every register, queue, buffer, counter, mode and pin that the manual names, block by
block, and the queue of waiting commands. Registers whose words are stored (configuration, statistics, latches) live in
`State.regs` by BAR0 offset; fields that report a condition are computed from the structures below. Each field names its rule and
its reset value.
-/

namespace Sys2Proof.Machine

/-- Why the machine stops with a fault. No command of the FX880 stops it: the manual gives every row an effect.
The one constructor is kept for a host program that asks for a fault; nothing raises it, so it is safe. -/
inductive Fault where
  /-- Raised by no command (safe). -/
  | halted
  deriving DecidableEq, Repr

/-- Why a command has no meaning in the model. -/
inductive Refusal where
  /-- The command of this mnemonic has no meaning yet: raised by its arm of `exec` (safe). -/
  | notModelled (mnemonic : String)
  deriving DecidableEq, Repr

/-! ### Timing and adaptive loops (02_timing.md) -/

/-- Pacing counter and its source (R30 to R34, R56, R481). -/
structure Pacing where
  /-- Pacing counter, 64 bits (R32). Reset 0. -/
  now : BitVec 64 := 0
  /-- GEN.PACING_STATUS.PACING_FAULT (R56, Table 02-10). Reset false. -/
  fault : Bool := false
  /-- GEN.PACING_STATUS.BACKUP_ACTIVE (R56, Table 02-10). Reset false. -/
  backup : Bool := false
  /-- GEN.PACING_STATUS.REFCLK_PRESENT (R31, Table 02-10). Reset false. -/
  refclk : Bool := false
  /-- GEN.TICK_HI latch of the host, 32 bits (R34, R481). Reset 0. -/
  hiHost : Word32 := 0
  /-- GEN.TICK_HI latch of the sequencer, 32 bits (R34, R481). Reset 0. -/
  hiSeq : Word32 := 0
  /-- GEN.TICK_HI latch of the management pair, 32 bits (R34, R481). Reset 0. -/
  hiMgmt : Word32 := 0
  deriving DecidableEq, Repr

/-- AVS loop (R36 to R41, R511, R512). -/
structure Avs where
  /-- PWR.AVS_STATUS.CODE, 0 to 60 (R37, Table 02-14). Reset 50. -/
  code : Nat := 50
  /-- PWR.AVS_STATUS.WINDOW_SLACK in 1/8 tick (R36, Table 02-14). Reset 0. -/
  windowSlack : Int := 0
  /-- Lowest slack of the outputs due in the present window, if any (R37). Reset none. -/
  low : Option Int := none
  /-- Tick at which the present window began (R37). Reset 0. -/
  windowStart : Nat := 0
  /-- A servo fault occurred in the present window (Table 02-4). Reset false. -/
  servoFault : Bool := false
  /-- The read FIFO reached 96 entries in the present window (Table 02-4). Reset false. -/
  fifoHigh : Bool := false
  /-- Run of windows with outputs whose lowest slack lay above SLACK_HI (Table 02-4, -1 row). Reset 0. -/
  runAbove : Nat := 0
  /-- Run of windows with outputs whose lowest slack lay at or above SLACK_HI (Table 02-6, (a)). Reset 0. -/
  runSafe : Nat := 0
  /-- The focus loop has closed since power-on reset (R41). Reset false. -/
  focusClosedOnce : Bool := false
  /-- Tick at which the rail settles after the last code change, if not yet settled (R38, R428). Reset none. -/
  settleAt : Option Nat := none
  /-- Band whose sense code competes with the new band's until the rail settles (R428). Reset 6. -/
  oldBand : Nat := 6
  /-- Read operations in progress when the FIFO reached 96 entries, by number (R511). Reset empty. -/
  fifoReads : List Nat := []
  /-- Bounds in force when the present excursion began: a change waits until the invariant is safe (R50). Reset 0 to 60. -/
  excBounds : Nat × Nat := (0, 60)
  deriving DecidableEq, Repr

/-- An entry of the policy-override log (R51, Table 02-7). -/
structure OvrEntry where
  loop : Nat
  invariant : Nat
  isOpen : Bool
  primer : Bool
  count : Nat
  startTick : Nat
  endTick : Nat
  extreme : Word32
  deriving DecidableEq, Repr

/-- Excursions and their log (R43 to R52). -/
structure Excursions where
  /-- Loop ids on an excursion with the invariant of each (GEN.OVR_ACTIVE, R46). Reset none. -/
  active : List (Nat × Nat) := []
  /-- Policy-override log, newest first, at most 64 (R51). Reset empty. -/
  log : List OvrEntry := []
  /-- Entries discarded from the log (R52, R339). Reset 0. -/
  lost : Nat := 0
  /-- GEN.OVR_COUNT.COUNT, 32 bits (Table 02-11). Reset 0. -/
  count : Nat := 0
  /-- Operations that required a present excursion for invariant (c), by loop (Table 02-6); a read has its number × 2, a write its
  number × 2 + 1. Reset empty. -/
  ops : List (Nat × Nat) := []
  deriving DecidableEq, Repr

/-! ### Servo loops and the sequencer (03_servo.md) -/

/-- Loop states (R65, Table 03-3). -/
inductive LoopState where
  | openZero | acquire | closed | hold
  deriving DecidableEq, Repr

/-- Loop commands of SRV.LOOP_CTRL (Table 03-11) that wait for a sampling instant. -/
inductive LoopCmd where
  | open | hold | close | acquire
  deriving DecidableEq, Repr

/-- A computation of R64: what the sampling instant took in, its tick, and the live set as it stood there (R58, R64, R70). -/
structure ServoJob where
  /-- The error e of R64. -/
  err : Q24
  /-- a_cmd of R64. -/
  aCmd : Q24
  /-- v_meas of R64. -/
  vMeas : Q24
  /-- Tick of the sampling instant. -/
  t0 : Nat
  /-- Its output instant has passed (R71). -/
  late : Bool
  /-- The loop's state has been cleared since: the result and the state it produces are discarded (Table 03-4). -/
  cleared : Bool
  /-- The 19 coefficients. -/
  coefs : List Word32
  deriving DecidableEq, Repr

/-- An output that the engine has computed: its value, whether it lies at ±OLIM, and its slack in 1/8 tick (R36, R58). -/
structure ReadyOutput where
  y : Q24
  sat : Bool
  slack : Int
  deriving DecidableEq, Repr

/-- One servo loop (R64 to R73). -/
structure Loop where
  /-- LOOP_STATUS.STATE (R65). Reset openZero. -/
  st : LoopState := .openZero
  /-- LOOP_STATUS.CMD_PENDING: the command and the tick of its acceptance (R66). Reset none. -/
  cmd : Option (LoopCmd × Nat) := none
  /-- LOOP_STATUS.SHADOW_VALID (R70). Reset false. -/
  shadowValid : Bool := false
  /-- LOOP_STATUS.HOLD_TIMEOUT (Table 03-12). Reset false. -/
  holdTimeout : Bool := false
  /-- LOOP_STATUS.FOCUS_LOST (Table 03-12). Reset false. -/
  focusLost : Bool := false
  /-- LOOP_STATUS.HOLD_SAMPLES (Table 03-12). Reset 0. -/
  holdSamples : Nat := 0
  /-- Samples spent in ACQUIRE (R76). Reset 0. -/
  acqSamples : Nat := 0
  /-- LOOP_STATUS.OUT_SAT (Table 03-12). Reset false. -/
  outSat : Bool := false
  /-- Output in force (R58, R71). Reset 0 (OFFSET is 0). -/
  output : Q24 := 0
  /-- Output computed and waiting for its output instant (R58). Reset none. -/
  ready : Option ReadyOutput := none
  /-- Samples that wait for the engine, oldest first (R59). Reset empty. -/
  jobs : List ServoJob := []
  /-- Sampling instant whose output is due (R58). Reset none. -/
  due : Option Nat := none
  /-- Tick of the last sampling instant taken (R35). Reset none. -/
  sampledAt : Option Nat := none
  /-- Tick of the last output instant taken (R58). Reset none. -/
  outputAt : Option Nat := none
  /-- e_prev of R64. Reset 0. -/
  ePrev : Q24 := 0
  /-- d of R64. Reset 0. -/
  dTerm : Q24 := 0
  /-- i of R64. Reset 0. -/
  iTerm : Q24 := 0
  /-- History x1, x2, w1, w2 of the first biquad (R64). Reset 0. -/
  bq0 : List Q24 := [0, 0, 0, 0]
  /-- History x1, x2, w1, w2 of the second biquad (R64). Reset 0. -/
  bq1 : List Q24 := [0, 0, 0, 0]
  /-- Live set copied at entry to HOLD (Table 03-4). Reset empty. -/
  snapshot : List Word32 := []
  /-- Previous error in ACQUIRE, for the zero crossing of R67. Reset none. -/
  prevErr : Option Q24 := none
  /-- Samples since the previous zero crossing in ACQUIRE, if one was seen (R67). Reset none. -/
  sinceCross : Option Nat := none
  /-- Consecutive samples at or below CAPTURE[2] (R67). Reset 0. -/
  belowRun : Nat := 0
  /-- Capture was detected at the last instant: CLOSED at the next (Table 03-4). Reset false. -/
  captured : Bool := false
  /-- Consecutive samples with a low sum signal (R68). Reset 0. -/
  lossRun : Nat := 0
  deriving DecidableEq, Repr

/-- What a script of the servo sequencer does: an acquisition (Table 03-6), a layer jump (Table 03-7), or the end of a seek (R514). -/
inductive ScriptKind where
  | acquisition | jump | seek
  deriving DecidableEq, Repr

/-- Where a script stands (Tables 03-6 and 03-7, R514): it waits for the spindle, for the laser to settle or the jump's kick, for focus, for focus to
settle, for tracking, for sled centering, for the first header. -/
inductive ScriptStep where
  | spin | begin | focus | settle | track | center | header
  deriving DecidableEq, Repr

/-- A script that runs: its kind, its step, and the tick at which the step began. -/
structure Script where
  kind : ScriptKind
  step : ScriptStep
  since : Nat
  deriving DecidableEq, Repr

/-- Control engine and servo sequencer (R58 to R85). -/
structure Servo where
  /-- The four loops by index (Table 03-1). -/
  loops : Sparse Loop := []
  /-- The loop and the sample that the engine computes (R59). Reset none. -/
  engine : Option (Nat × ServoJob) := none
  /-- Time of the last encoder edge in 1/8 tick (R61). Reset none. -/
  edgeAt : Option Nat := none
  /-- Interval between the last two encoder edges in 1/8 tick (R61, R107). Reset none. -/
  edgeInterval : Option Nat := none
  /-- Sum and number of the edge intervals measured since the previous spindle sampling instant (R61, Table 03-1). Reset 0. -/
  edges : Nat × Nat := (0, 0)
  /-- The script that runs (R75 to R77, R514). Reset none. -/
  script : Option Script := none
  /-- Layer last confirmed by a header: the one that an acquisition without a command of its own aims at (R75). Reset 0. -/
  lastLayer : Nat := 0
  /-- The previous focus output was a deadline miss not yet paired (R72). Reset false. -/
  focusMissed : Bool := false
  /-- FAULT_STATUS.ON_TIME_RUN (R72). Reset 0. -/
  onTimeRun : Nat := 0
  /-- FAULT_STATUS.SERVO_FAULT (R72). Reset false. -/
  servoFault : Bool := false
  /-- A servo fault has not been released (R72, R73). Reset false. -/
  faultInhibit : Bool := false
  /-- A focus loss has not been followed by CLOSED (R73). Reset false. -/
  lossInhibit : Bool := false
  /-- The last 20 tracking outputs, newest first (Table 03-1, loop 3). Reset 0: OFFSET is 0. -/
  trackOuts : List Q24 := List.replicate 20 0
  /-- The acquisition in progress is a retry, with the sweep reversed (R76). Reset false. -/
  acqRetry : Bool := false
  /-- Layer wanted by the acquisition or jump in progress (R76, R77). Reset none. -/
  targetLayer : Option Nat := none
  /-- Layer the focus is on, once a header has confirmed it (R75, R77). Reset none. -/
  layer : Option Nat := none
  /-- SEQ_CTRL.RUN (R81). Reset false. -/
  seqRun : Bool := false
  /-- SEQ_STATUS.HALTED (R74). Reset false. -/
  seqHalted : Bool := false
  /-- SEQ_STATUS.WDOG_EXPIRED (R81). Reset false. -/
  seqExpired : Bool := false
  /-- SEQ_STATUS.PRIMER_ENTRY (R82). Reset false. -/
  seqPrimer : Bool := false
  /-- Tick of the last KICK or RUN (R81). Reset 0. -/
  seqKick : Nat := 0
  /-- The medium is not served until the next reset after a watchdog expiry in Primer (R82). Reset false. -/
  mediumDead : Bool := false
  /-- Spindle braked (Table 03-8, R513). Reset true: the spindle stands. -/
  braked : Bool := true
  /-- Session speed: false 3,600 rpm, true 5,400 rpm (R116, Table 01-6). Reset false. -/
  fast : Bool := false
  deriving DecidableEq, Repr

/-! ### Sled motion (04_sled.md) -/

/-- Motion states (R90, Table 04-2). -/
inductive MotionState where
  | unhomed | homing | idle | moving | geared | emergency | fault
  deriving DecidableEq, Repr

/-- Steps of the homing sequence (R100, Table 04-5). -/
inductive HomingPhase where
  | inward | ramp | backOff | extra | slow | finish
  deriving DecidableEq, Repr

/-- Phase current of the stepper (R87, R90): off, HOLD_I or RUN_I. -/
inductive PhaseCurrent where
  | off | hold | run
  deriving DecidableEq, Repr

/-- A motion of the sled as planned (R93, R95, R100, R102): from a half tick on, position, speed and acceleration there, then stretches of
constant jerk, each with its length in half ticks; after them the sled rests at a position, or goes on at a constant speed. The
unit of length is 8·10⁻²⁴ m, of time half a tick (log entry 82). -/
structure Plan where
  start : Nat
  x : Int
  v : Int
  a : Int
  segs : List (Int × Nat)
  rest : Option Int
  cruise : Int
  deriving DecidableEq, Repr

/-- What follows the automatic HOME of R91. -/
inductive AfterHome where
  | nothing | move | park | gear
  deriving DecidableEq, Repr

/-- Motion generator (R86 to R112). -/
structure Motion where
  /-- STATUS.STATE (R90). Reset unhomed. -/
  st : MotionState := .unhomed
  /-- STATUS.POS_VALID. Reset false. -/
  posValid : Bool := false
  /-- STATUS.AT_PARK (R103). Reset false. -/
  atPark : Bool := false
  /-- Phase current; STATUS.CURRENT_ON (R87, R90). Reset off. -/
  current : PhaseCurrent := .off
  /-- Accepted level of the home switch input (R89). Reset high: HOME_SW reads 0. -/
  homeLevel : Bool := true
  /-- Accepted level of the outer switch input (R89). Reset high: OUTER_SW reads 0. -/
  outerLevel : Bool := true
  /-- STATUS.STOP_CAUSE, 0 to 6. Reset 0. -/
  stopCause : Nat := 0
  /-- MPG.POS in microsteps (R86). Reset 0. -/
  pos : Int := 0
  /-- Electrical position, 0 to 255 (R87). Reset 0. -/
  phase : Nat := 0
  /-- MPG.MASTER_POS, 32 bits (R104). Reset 0. -/
  masterPos : Word32 := 0
  /-- acc of R104, with 24 fraction bits. Reset 0. -/
  acc : Int := 0
  /-- base of R104. Reset 0. -/
  base : Int := 0
  /-- Whole microsteps of the geared target not yet emitted (R104). Reset 0. -/
  gearDue : Int := 0
  /-- The motion planned and under way (R93, R95, R100, R102). Reset none. -/
  plan : Option Plan := none
  /-- Tick of the last replan (R93). Reset 0. -/
  plannedAt : Nat := 0
  /-- GEAR_CTRL.ARM: a ratio change is pending (R105). Reset false. -/
  armed : Bool := false
  /-- The pending change was due when armed and applies at the next count (R105). Reset false. -/
  armedLate : Bool := false
  /-- GEAR_NEXT and GEAR_TRIGGER as they were armed (R105). Reset 0. -/
  armedNext : Word32 := 0
  /-- GEAR_TRIGGER as armed. Reset 0. -/
  armedTrigger : Word32 := 0
  /-- GEAR_CTRL.LATE (R105). Reset false. -/
  late : Bool := false
  /-- Engaged from the next encoder count (Table 04-3). Reset false. -/
  engaging : Bool := false
  /-- TRIM_STATUS.TRIM in microsteps (R108). Reset 0. -/
  trim : Int := 0
  /-- Trim microsteps still to emit, signed (R108). Reset 0. -/
  trimDue : Int := 0
  /-- Tick of the last microstep emitted (R108). Reset none. -/
  stepAt : Option Nat := none
  /-- The trim stood at a bound or beyond one at the last sled-centering instant (R109). Reset false. -/
  trimAtBound : Bool := false
  /-- TRIM_BOUNDS in force when the present excursion of the trim began: a change waits until the invariant is safe (R50). Reset 0. -/
  trimHeldBounds : Int × Int := (0, 0)
  /-- Consecutive sled-centering instants with the trim at a bound and tracking saturated (R109). Reset 0. -/
  satRun : Nat := 0
  /-- Step of the homing sequence (Table 04-5). Reset inward. -/
  phaseHome : HomingPhase := .inward
  /-- Microsteps travelled in the present homing step (R100). Reset 0. -/
  travel : Nat := 0
  /-- Target of the move in progress (R93, R101). Reset 0. -/
  goal : Int := 0
  /-- The move in progress is a park (R101). Reset false. -/
  parking : Bool := false
  /-- POS recorded at the home edge during a park (R101). Reset none. -/
  edgePos : Option Int := none
  /-- A PARK waits for the emergency ramp to end (Table 04-3). Reset false. -/
  parkAfterRamp : Bool := false
  /-- State after the emergency ramp (R95, R97, R100 to R102). Reset idle. -/
  afterRamp : MotionState := .idle
  /-- Source raised when the ramp has come to rest beside 70, for a switch stop (R97). Reset none. -/
  rampSource : Option Nat := none
  /-- An emergency ramp is running (R95), inside HOMING or an unhomed park too. Reset false. -/
  ramping : Bool := false
  /-- The position was held without current, so a HOME comes first (R91). Reset false. -/
  needHome : Bool := false
  /-- What the automatic HOME precedes (R91). Reset nothing. -/
  afterHome : AfterHome := .nothing
  /-- A soft-limit clamp holds (R92, R99). Reset false. -/
  clamped : Bool := false
  /-- Phase current is switched off when the park completes (R103). Reset false. -/
  offAtPark : Bool := false
  /-- A seek: acquisition follows the move (R514). Reset false. -/
  seeking : Bool := false
  deriving DecidableEq, Repr

/-! ### Read channel (05_read_channel.md) -/

/-- A cluster position: layer, zone, position (R164, R165). -/
structure Loc where
  layer : Nat
  zone : Nat
  pos : Nat
  deriving DecidableEq, Repr

/-- A sector on the recovery ladder (R114, R119 to R131). -/
inductive SectorState where
  /-- Not yet read. -/
  | unread
  /-- In the sample store, awaiting its decode. -/
  | stored
  /-- Decoded or restored; the recorded block. -/
  | decoded (block : List Byte)
  /-- Lost; `attempted` when a decode was attempted (R127). -/
  | lost (attempted : Bool)
  /-- Decoded, decrypted and its tag verified; the recorded block and the plaintext (R131). -/
  | verified (block plain : List Byte)
  /-- Its bytes came from the peer (R24); its recorded block where that can be formed again, else none, and the plaintext. -/
  | fromPeer (block : List Byte) (plain : List Byte)
  deriving DecidableEq, Repr

/-- What a search for a record serves (R186): a host command, with the records that the peer has given it; the peer's request; catch-up of a
stream; the chain value that the peer asks for or has sent; or the comparison of a forked stream's groups between two sequences. -/
inductive SearchFor where
  | command (tag : Nat) (got : List (Nat × List (List Byte × Bool)))
  | recov (xid mark unit : Nat)
  | catchUp (stream : Nat)
  | chainReq (mark : Nat)
  | chainVal (mark : Nat) (h : BitVec 128)
  | fork (stream lo hi : Nat)
  deriving DecidableEq, Repr

/-- For whom a cluster is read (R128, R234). -/
inductive ReadFor where
  | host (tag : Nat)
  | boot (tag : Nat)
  | recov (xid mark unit : Nat)
  | catchUp (mark : Nat)
  /-- The search for a record that the index does not hold (R186). -/
  | find (why : SearchFor)
  /-- A cache line of this class, lost to an SRAM error, is filled again from its sector (R241). -/
  | refill (psa cls : Nat)
  deriving DecidableEq, Repr

/-- A unit of record bytes asked of the peer (R24, R277): its exchange, the record's mark, the unit of 4 KiB, and what came back; of a
boot image, the sector of the cluster that it is. -/
structure PeerUnit where
  xid : Nat
  mark : Nat
  unit : Nat
  sector : Option Nat := none
  answer : Option (List Byte × Bool)
  deriving DecidableEq, Repr

/-- One cluster of a read on the recovery ladder (R127, Table 05-3). -/
structure LadderCluster where
  id : Nat
  loc : Loc
  purpose : ReadFor
  /-- Wanted ranges: offset in the read's data, first user byte in the cluster, length. -/
  parts : List (Nat × Nat × Nat)
  /-- Addresses of its 18 frames. -/
  psas : List Nat
  sectors : Sparse SectorState := []
  /-- It is on the ladder: not every wanted sector was in the cache, and it has not left. -/
  reading : Bool := false
  /-- Sectors restored by erasure decoding, and whether a decode of each had been attempted (R126). -/
  restored : List (Nat × Bool) := []
  /-- Sectors that ended bound-limited, with the taps at a bound (R117). -/
  boundLimited : List (Nat × List Nat) := []
  /-- Taps that may adapt across the full range through its re-read (R118). -/
  lifted : List Nat := []
  /-- Present ladder step, 1 to 6 (Table 05-3). -/
  step : Nat := 1
  /-- It has left step 1 (R130). -/
  climbed : Bool := false
  /-- Outer iterations run on each sector (R124). -/
  outer : Sparse Nat := []
  /-- Re-reads made (step 4). -/
  rereads : Nat := 0
  /-- Sectors decoded by the Deep path. -/
  deep : List Nat := []
  /-- Units asked of the peer (step 5). -/
  asked : List PeerUnit := []
  /-- DETECT_POLICY as it stood when this cluster took its detector excursion (R127, R129). -/
  held : Option Word32 := none
  /-- Sectors whose egress buffer was poisoned once (R446). -/
  again : List Nat := []
  /-- Sectors whose egress buffer was poisoned twice (R446). -/
  bad : List Nat := []
  /-- Ended at step 6, and refused escalation under STRICT (R132). -/
  ended : Option Bool := none
  /-- Off the ladder, with every wanted sector delivered or given up. -/
  done : Bool := false
  deriving DecidableEq, Repr

/-- A cluster queued for refresh (R130), with the sectors as they were read; `peer` when it was recovered from the peer (R24). -/
structure Refresh where
  id : Nat
  loc : Loc
  sectors : Sparse SectorState
  peer : Bool
  deriving DecidableEq, Repr

/-- An equalised sample on its way to the read FIFO, with its erasure flag, and the frame in whose data field it lies (R113, R120). -/
structure LineBit where
  sample : BitVec 7
  erased : Bool
  psa : Option Nat
  deriving DecidableEq, Repr

/-- An entry of the read FIFO: eight samples and their erasure flags (R113), and the frame they belong to. -/
structure FifoEntry where
  psa : Nat
  word : BitVec 64
  deriving DecidableEq, Repr

/-- A sector slot of the sample store (Table 05-1, stage 6): a frame, and the entries stored for it, newest first. -/
structure StoreSlot where
  psa : Nat
  entries : List (BitVec 64)
  deriving DecidableEq, Repr

/-- The Deep path at work: a sector of a cluster, the inner iterations that its present outer iteration may run, and its step, 2 or 3
(R124, R127). -/
structure DeepRun where
  cluster : Nat
  sector : Nat
  inner : Nat
  step : Nat
  deriving DecidableEq, Repr

/-- Read channel (R113 to R137). -/
structure ReadChannel where
  /-- STATUS.LOCKED (R119). Reset false. -/
  locked : Bool := false
  /-- Occupied sample-store slots, at most 24 (R115, R137). Reset empty. -/
  store : List StoreSlot := []
  /-- Read hand-off FIFO, oldest first, at most 128 entries (R113, R114). Reset empty. -/
  fifo : List FifoEntry := []
  /-- Samples of the entry being packed, oldest first, fewer than eight (R113). Reset empty. -/
  part : List LineBit := []
  /-- The detector's delay line, newest first: a defect that begins or ends may still set or clear the flags in it (R120). Reset empty. -/
  line : List LineBit := []
  /-- Frame whose data field passes under the spot, and its channel bits still to come (R166). Reset none. -/
  incoming : Option (Nat × Nat) := none
  /-- Envelope values of the running mean, newest first, at most 4,096 (R120). Reset empty. -/
  envelopes : List Nat := []
  /-- Envelope values of the run that may begin a defect or end the present one, newest first (R120). Reset empty. -/
  run : List Nat := []
  /-- A defect is in progress (R120). Reset false. -/
  defect : Bool := false
  /-- Channel bits from the start of the present defect to its last bit below the level (R119). Reset 0. -/
  defectLen : Nat := 0
  /-- Channel bits after the last defect still to be flagged (R120). Reset 0. -/
  guard : Nat := 0
  /-- Lock was dropped: the remainder of the sector is flagged (R119). Reset false. -/
  restErased : Bool := false
  /-- Present pass stalled: no sample is accepted until the next revolution (R137). Reset false. -/
  stalled : Bool := false
  /-- First sector not accepted by a stall, where the read resumes (R137). Reset none. -/
  resumeAt : Option Nat := none
  /-- EQ_TAP[t], Q2.9 (R116). Reset 0. -/
  taps : List (BitVec 12) := List.replicate 15 0
  /-- Session speed and layer for which the taps of the present run of reading were loaded (R116). Reset none. -/
  tapsFor : Option (Bool × Nat) := none
  /-- Reads in progress for which source 85 has been raised (R117). Reset empty. -/
  boundRaised : List ReadFor := []
  /-- Clusters being read (R127). Reset empty. -/
  clusters : List LadderCluster := []
  /-- Next cluster identity (model's own). Reset 0. -/
  nextId : Nat := 0
  /-- Deep requests in order: cluster, sector (R124). Reset empty. -/
  deepQueue : List (Nat × Nat) := []
  /-- The Deep path's present outer iteration (R124). Reset none. -/
  deepRun : Option DeepRun := none
  /-- Clusters queued for refresh (R130). Reset empty. -/
  refreshQueue : List Refresh := []
  deriving DecidableEq, Repr

/-! ### Write channel (06_write_channel.md) -/

/-- A sector of a cluster being written (R151 to R159). -/
inductive WriteState where
  /-- Due to be written. -/
  | due
  /-- Its data field is being written, or has been written and the trailing spot has not judged it. -/
  | written
  /-- Failed RAW: waits for an in-place retry; `retries` made so far. -/
  | failed
  /-- Interrupted: rewritten in place without counting a retry (R159). -/
  | interrupted
  /-- Passed RAW. -/
  | passed
  deriving DecidableEq, Repr

/-- One sector's write record. -/
structure WriteSector where
  st : WriteState := .due
  retries : Nat := 0
  /-- An inhibit condition was active while the trailing spot read it (R152). -/
  voided : Bool := false
  deriving DecidableEq, Repr

/-- What a written cluster holds (R171, TYPE). -/
inductive ClusterKind where
  | ownerData | ringCheckpoint | sealCheckpoint | directory | defectList | bootImage (slot : Nat) | activation (copyB : Bool)
  | fill | format
  deriving DecidableEq, Repr

/-- A cluster being written or waiting to be (R138, R154, R168). -/
structure WriteCluster where
  id : Nat
  owner : Nat
  ring : Nat
  kind : ClusterKind
  loc : Loc
  pass : Nat
  ringCtr : Nat
  relocated : Option Loc
  relocations : Nat
  /-- Groups with bytes in this cluster, by identity. -/
  groups : List Nat
  /-- A refresh: where its record bytes lie until it has passed RAW (R130). -/
  refresh : Option Loc
  /-- AUX of a seal checkpoint: first never-started frame of the interrupted group (R191). -/
  aux : Nat
  /-- Its user bytes as assembled; bytes beyond them are 0 (R138). -/
  data : List Byte
  /-- User-byte offsets at which a record header begins (R171, REC_OFF). -/
  begins : List Nat
  /-- User-byte offset at which a group ends, the group until its sector has been written, and the chain value after it (R184). -/
  ends : List (Nat × Option Nat × BitVec 128)
  /-- What a directory checkpoint records of the owner slots (R208). -/
  dir : Sparse DirSlot
  /-- What it records of the owner rings (R175). -/
  dirRings : List DirRing
  sectors : Sparse WriteSector
  deriving DecidableEq, Repr

/-- The trim's excursion for one sector (R150): its frame, whether it goes upward, and the trim that its retries carry. -/
structure TrimExc where
  psa : Nat
  up : Bool
  trim : Int
  deriving DecidableEq, Repr

/-- An OPC test step in progress (R148): what OPC_CMD and OPC_POS held when it began. -/
structure OpcStep where
  layer : Nat
  band : Nat
  power : Nat
  pos : Nat
  deriving DecidableEq, Repr

/-- Static OPC in progress (R148). -/
structure OpcRun where
  layer : Nat
  band : Nat
  k : Nat
  p0 : Nat
  best : Option (Nat × Int)
  deriving DecidableEq, Repr

/-- What was known when a layer and band were last calibrated (R147). -/
structure OpcRecord where
  done : Bool := false
  temp : Int := 0
  writtenTicks : Nat := 0
  deriving DecidableEq, Repr

/-- Write channel and laser (R138 to R162). -/
structure WriteChannel where
  /-- Clusters being written or waiting, in order (R138). Reset empty. -/
  clusters : List WriteCluster := []
  /-- Next cluster identity (model's own). Reset 0. -/
  nextId : Nat := 0
  /-- Cluster and sector whose data field is being written (R139, R159). Reset none. -/
  writing : Option (Nat × Nat) := none
  /-- Tick at which the sector being written began (R147). Reset 0. -/
  writeStart : Nat := 0
  /-- Recorded block last generated for the laser: its frame and its 4,160 bytes (R138, R170). Reset none. -/
  emitted : Option (Nat × List Byte) := none
  /-- Conditions of Table 06-5 that the comparators and the medium report: bits 0 to 3, 6 and 7. Reset 0. -/
  analog : BitVec 10 := 0
  /-- INH_STATUS.CAUSE, ten bits of Table 06-5 (R157). Reset 0, the register's reset word (log entry 12). -/
  inhibit : BitVec 10 := 0
  /-- Tick since which no condition has held (R159). Reset 0. -/
  clearSince : Nat := 0
  /-- Writing is held until WRITE_RESUME (R159). Reset false. -/
  held : Bool := false
  /-- LASER_MAX has been written since power-on reset (R143). Reset false. -/
  maxWritten : Bool := false
  /-- LASER_STATUS.ILK (R145). Reset false. -/
  ilk : Bool := false
  /-- Tick at which LASER_ILK last rose (R145). Reset 0. -/
  ilkSince : Nat := 0
  /-- Medium commands are refused until LASER_ILK has been high for 100 ms (R145). Reset true. -/
  ilkBlocked : Bool := true
  /-- LASER_STATUS.OVER (R144). Reset false. -/
  overTrip : Bool := false
  /-- LASER_STATUS.ON (Table 06-8). Reset false. -/
  laserOn : Bool := false
  /-- LASER_STATUS.LEVEL in 0.1 mW (Table 06-8). Reset 0. -/
  level : Nat := 0
  /-- Running-OPC trim per layer and band, index 4l + b, in 0.1 % (R149). Reset 0. -/
  trims : Sparse Int := []
  /-- ROPC_STATUS.TRIM: the trim in force (Table 06-8). Reset 0. -/
  trim : Int := 0
  /-- Trim excursions of the sectors being retried (R150). Reset none. -/
  excs : List TrimExc := []
  /-- Write hand-off FIFO, oldest first: entries of 64 channel bits, the oldest in bit 0, at most 128 (R139). Reset empty. -/
  fifo : List (BitVec 64) := []
  /-- Entries of the frame being written that have not reached the FIFO (R139). Reset empty. -/
  unsent : List (BitVec 64) := []
  /-- Power changes of the frame being written, in order: level (0 Pe, 1 Pb, 2 Pw) and instant in T/32 from the frame's first channel
  bit (R146). Reset empty. -/
  train : List (Nat × Int) := []
  /-- Pw, Pe and Pb commanded for the frame being written, after the clamp, in 0.1 mW (R142, R143). Reset 0. -/
  powers : Nat × Nat × Nat := (0, 0, 0)
  /-- The write channel has jumped back one track for a rewrite (R153). Reset false. -/
  jumpedBack : Bool := false
  /-- Strategy table words by index (R146). Reset 0. -/
  strat : Sparse Word32 := []
  /-- OPC test step in progress: OPC_CMD.START reads 1 (Table 06-8). Reset none. -/
  opcStep : Option OpcStep := none
  /-- Bounds of running OPC as they stood when its excursion began, which hold through it (R50). Reset 0. -/
  boundsHeld : Int × Int := (0, 0)
  /-- Frames whose last write this FX880 started since power-on, by address, with 1 + the pass of that write (R172). Reset none. -/
  passes : Sparse Nat := []
  /-- Sectors of the running sixteen that were written while catch-up and host appends both waited (R286). Reset 0. -/
  shared : Nat := 0
  /-- Static OPC running (R148). Reset none. -/
  opcRun : Option OpcRun := none
  /-- OPC_RESULT.ERRORS. Reset 0. -/
  opcErrors : Nat := 0
  /-- OPC_RESULT.BETA. Reset 0. -/
  opcBeta : Int := 0
  /-- Calibrations made per layer and band, index 4l + b (R147). Reset none. -/
  opcDone : Sparse OpcRecord := []
  deriving DecidableEq, Repr

/-! ### Record layer (07_record_layer.md) -/

/-- A zone of a ring, or a free zone (R164, R173, R175). -/
structure Zone where
  layer : Nat
  zone : Nat
  /-- Pass of the zone's contents; none when never written beyond the format (R173). -/
  pass : Nat
  /-- Order of last entry: larger is newer; 0 never entered (R175). -/
  entered : Nat
  /-- The HEAD of each stream in the ring checkpoint that opened the zone's pass (R178, R186). -/
  openHeads : Sparse Nat
  deriving DecidableEq, Repr

/-- Where a ring's end-of-log recovery stands (R193, R452). -/
inductive RecoveryPhase where
  | waiting | phaseADone | phaseB | recovered
  deriving DecidableEq, Repr

/-- Where the end of a ring's log was found (R193): whether its last group holds a seal checkpoint, and what is filled of that group and of
the one before it: first position, depth and frames (R192). -/
structure RingEnd where
  sealFound : Bool
  fills : List (Nat × Nat × List Nat)
  deriving DecidableEq, Repr

/-- The cluster that a ring is assembling (R182). Offsets count from the end of its map. -/
structure Assembly where
  id : Nat
  /-- Content bytes laid so far. -/
  bytes : List Byte
  /-- Map entries: stream, first sequence, offset. -/
  entries : List (Nat × Nat × Nat)
  /-- Offsets at which a record header begins. -/
  begins : List Nat
  /-- Offsets at which a group ends, and the group. -/
  ends : List (Nat × Nat)
  groups : List Nat
  /-- Tick at which its first record arrived. -/
  since : Nat
  deriving DecidableEq, Repr

/-- An owner's ring (R173 to R178). -/
structure Ring where
  zones : List Zone := []
  /-- Index in `zones` of the current zone. -/
  cur : Option Nat := none
  /-- Index in `zones` of the named next zone (R175). -/
  next : Option Nat := none
  /-- Next position to write in the current zone (R173). -/
  pos : Nat := 0
  /-- Clusters written to this ring (RING_CTR). -/
  ctr : Nat := 0
  /-- Data clusters written since the last ring checkpoint (R174). -/
  sinceCkpt : Nat := 0
  /-- The zone's opening ring checkpoint is still to be written in this pass (R174). -/
  needCkpt : Bool := false
  /-- A next zone lies outside the window (R177). -/
  excursion : Bool := false
  recovery : RecoveryPhase := .recovered
  /-- What phase A found, for phase B. -/
  found : Option RingEnd := none
  /-- Tick at which the ring's turn of recovery began (R194, RECOVERY_TICKS). -/
  recoveryStart : Nat := 0
  assembly : Option Assembly := none
  /-- Closed clusters that wait for the entry to the next zone. -/
  waiting : List WriteCluster := []
  /-- The directory checkpoint whose RAW pass is the entry to the named zone (R197). -/
  entry : Option Nat := none
  /-- The next zone is to be named, within 1 s of the entry (R175). -/
  naming : Bool := false
  deriving DecidableEq, Repr

/-- One record of a group: its sequence, and where it lies in the group's bytes (R184). -/
structure RecInfo where
  seq : Nat
  off : Nat
  len : Nat
  deriving DecidableEq, Repr

/-- A run of a group's bytes in one cluster: where it begins in the group's bytes, where in the cluster's user bytes (from the end of
the map until the cluster has closed), its length, the cluster and, once it has closed, its location. -/
structure Piece where
  start : Nat
  off : Nat
  len : Nat
  cluster : Nat
  loc : Option Loc
  deriving DecidableEq, Repr

/-- Where a group came from. -/
inductive GroupRole where
  /-- Received from the host by command `tag` (R274: the leader in Topcoat). -/
  | leader (tag : Nat)
  /-- Mirrored from the peer (R274). -/
  | follower (xid : Nat)
  /-- Caught up from the peer (R282). -/
  | caughtUp (xid : Nat)
  /-- Found on the medium by recovery (R193). -/
  | recovered
  deriving DecidableEq, Repr

/-- How far a group has come (R183). -/
inductive GroupState where
  /-- Assembling or being written. -/
  | open
  /-- Every cluster on the local medium has passed RAW. -/
  | verified
  | committed
  | void
  deriving DecidableEq, Repr

/-- A record group (R181 to R184). -/
structure Group where
  id : Nat
  stream : Nat
  owner : Nat
  first : Nat
  count : Nat
  recs : List RecInfo
  /-- The records' bytes laid out as in R184, headers included and padding left out, while the chain needs them. -/
  bytes : List Byte
  pieces : List Piece
  /-- Clusters that hold its bytes and have not passed RAW. -/
  left : List Nat
  role : GroupRole
  st : GroupState
  /-- The peer has confirmed its copy (R22). -/
  peerDone : Bool
  /-- The peer's copy was affected by an excursion (R47, R55). -/
  peerOvr : Bool
  /-- Chain value after this group (R184). -/
  chain : BitVec 128
  /-- Its exchange toward the peer has begun (R274, R267). -/
  sent : Bool
  /-- The status with which the command of a void group completes once no earlier group of its stream is open (R332). -/
  owed : Option Nat := none
  deriving DecidableEq, Repr

/-- Where a search stands (R186): it reads the ring checkpoint at a position, after the last one at or below the record; the maps of a span
of positions; or the clusters from the one where the record begins, the last of them being read. -/
inductive SearchStep where
  | probe (last pos : Nat)
  | maps (span : List Loc)
  | body (at_ : Loc)
  deriving DecidableEq, Repr

/-- A search for a record that the index does not hold (R186). -/
structure Search where
  why : SearchFor
  stream : Nat
  seq : Nat
  /-- The zone of the ring that holds it, by layer and zone. -/
  layer : Nat
  zone : Nat
  /-- Positions of the span before, which is searched when the span does not hold the record. -/
  earlier : List Loc
  step : SearchStep
  /-- Clusters read from the one where the record begins: place, user bytes unless it did not read, and the links of its sectors. -/
  read : List (Loc × Option (List Byte) × List (BitVec 128))
  /-- A cluster did not read. -/
  short : Bool
  /-- One was refused escalation (R132). -/
  strict : Bool
  deriving DecidableEq, Repr

/-- How a search ends: the index tells of the record now; it is nowhere; or it could not be read. -/
inductive SearchEnd where
  | found | absent | unreadable (strict : Bool)
  deriving DecidableEq, Repr

/-- A change of a stream record that waits for its table line in M (R246, R249). -/
inductive TableTask where
  /-- TAIL of a stream at an entry (R178). -/
  | tail (stream value : Nat)
  /-- A retired owner's stream becomes FREE (R216). -/
  | free (stream : Nat)
  /-- A stream takes its record from the other twin's or the medium's account. -/
  | put (stream : Nat) (rec : StreamRec)
  deriving DecidableEq, Repr

/-- An activation record being written to its two copies (R189). -/
structure ActWrite where
  record : Activation
  /-- The copy written first is B. -/
  copyB : Bool
  /-- Cluster identities of the first and the second copy. -/
  firstId : Nat
  secondId : Nat
  /-- The group under which it crosses to the peer or came from it; none when formatting. -/
  group : Option Nat
  deriving DecidableEq, Repr

/-- Record layer (R163 to R197). -/
structure RecordLayer where
  /-- Owner rings by owner (R173). Reset none. -/
  rings : Sparse Ring := []
  /-- Record groups known, newest last (R183). Reset empty. -/
  groups : List Group := []
  /-- Next group identity (model's own). Reset 0. -/
  nextGroup : Nat := 0
  /-- Changes of stream records that wait for their table line in M (R246). Reset empty. -/
  tasks : List TableTask := []
  /-- Spares used in each zone, by layer × 64 + zone (R164, R154). Reset 0. -/
  spares : Sparse Nat := []
  /-- Free zones of the owner pool (R165, R215). Reset empty: a cartridge brings them. -/
  freeZones : List Zone := []
  /-- Order number of the next zone entry (R175). Reset 1. -/
  entryOrder : Nat := 1
  /-- PLACE_STATUS.LAST_CHOICE (Table 07-10). Reset 0x1FF. -/
  lastChoice : Nat := 0x1FF
  /-- Newest directory checkpoint's account of the owner slots (R208, R213). Reset none. -/
  directory : Sparse DirSlot := []
  /-- Its account of the owner rings (R175). Reset none. -/
  dirRings : List DirRing := []
  /-- Ring that was last written since power-on or the previous seal (R380). Reset none. -/
  lastWritten : Option Nat := none
  /-- Rings written since their last seal checkpoint (R464). Reset empty. -/
  sinceSeal : List Nat := []
  /-- Activation record copies A and B (R189). Reset none readable. -/
  actA : Option Activation := none
  /-- Copy B. Reset none. -/
  actB : Option Activation := none
  /-- Activation record being written (R189). Reset none. -/
  actPending : Option ActWrite := none
  /-- Activation records that wait for it, in order (R189). Reset empty. -/
  actQueue : List ActWrite := []
  /-- Slot in staging and the bytes staged so far (R188). Reset none. -/
  staging : Option (Nat × Nat) := none
  /-- Command of the present staging that was flagged as last, and the slot as it will be STAGED (R188). Reset none. -/
  stageLast : Option (Nat × BootSlot) := none
  /-- Pass at which each boot slot was last written, by slot (R172). Reset 0. -/
  bootPass : Sparse Nat := []
  /-- Bytes of the image in staging, for its digest (R188). Reset empty. -/
  staged : List Byte := []
  /-- Result of the digest check of the active slot: not made, passed, or failed (R190). Reset none. -/
  digestOk : Option Bool := none
  /-- Ring being recovered (RECOVERY_STATUS). Reset none. -/
  recovering : Option Nat := none
  /-- RECOVERY_TICKS.TICKS. Reset 0. -/
  recoveryTicks : Nat := 0
  /-- Searches for records under way (R186). Reset empty. -/
  searches : List Search := []
  /-- Records that a search could not read: stream and sequence. Reset empty. -/
  unread : List (Nat × Nat) := []
  /-- Defect list: failed locations (R154). Reset empty. -/
  defects : List Loc := []
  /-- Clusters that lie elsewhere than at the position they were given, newest last: the position and the spare (R130, R154). Reset
  empty. -/
  moved : List (Loc × Loc) := []
  /-- Highest pass at which a spare of a zone was written, by layer × 64 + zone (R173). Reset 0. -/
  tops : Sparse Nat := []
  /-- Refreshed clusters per layer (Table 12-8, page 0x04). Reset 0. -/
  refreshed : Sparse Nat := []
  /-- Streams listed on page 0x0C: stream, divergence, H1 and H0 (R281, Table 10-5). Reset empty. -/
  forks : List (Nat × Nat × Nat × Nat) := []
  deriving DecidableEq, Repr

/-! ### Owners and keys (08_owners.md) -/

/-- States of an owner slot (R198). -/
inductive SlotState where
  | empty | active | retiring | destroyed | unavailable
  deriving DecidableEq, Repr

/-- An owner slot as the crypto engine holds it (R198, R203, R227). -/
structure Slot where
  st : SlotState := .empty
  keygen : Nat := 0
  flags : BitVec 8 := 0
  quota : Nat := 0
  createTick : Nat := 0
  /-- Key register: the key, or none when not loaded (LOADED). -/
  key : Option (BitVec 256) := none
  /-- KEYSTORE_STATUS.PEER_PENDING (R217). -/
  peerPending : Bool := false
  /-- A create or a retire of this slot is in progress on this twin: step reached, and the command (R215, R216). -/
  busy : Bool := false
  /-- Created without the peer: it goes to the peer at the next attach (R515). -/
  alone : Bool := false
  zonesWritten : Nat := 0
  deriving DecidableEq, Repr

/-- Where an owner create or retire stands (R215, R216). -/
inductive OwnerStep where
  /-- OWNER_CREATE waits for the purge (step 1). -/
  | createPurge (slot quota : Nat) (flags : BitVec 8)
  /-- OWNER_CREATE waits for the peer's OWNER_DONE (step 4). -/
  | createPeer (slot quota : Nat)
  /-- OWNER_CREATE waits for its directory checkpoint (step 5). -/
  | createDir (slot : Nat)
  /-- Retire waits for earlier commands (step 2). -/
  | retireDrain (slot : Nat)
  /-- Retire waits for its directory checkpoint (step 6). -/
  | retireDir (slot : Nat)
  /-- Retire waits for the peer's OWNER_DONE (R217). -/
  | retirePeer (slot : Nat)
  /-- A slot received through KEY_XFER waits for its purge, then its directory checkpoint (R215, R515). -/
  | installPurge (slot : Nat) (rec : SlotRecord)
  | installDir (slot : Nat)
  deriving DecidableEq, Repr

/-- One owner operation in progress: its step, the command that waits (none when the peer asked), and the status it will
complete with when it fails. -/
structure OwnerOp where
  step : OwnerStep
  tag : Option Nat
  single : Bool
  failed : Bool
  /-- The directory checkpoint it waits for. -/
  cluster : Nat
  /-- Its purge is running in the range engine (R214). -/
  purging : Bool
  /-- The peer has confirmed its part (R217). -/
  peerOk : Bool
  deriving DecidableEq, Repr

/-- Commissioning in progress (R288, R289). -/
structure Commission where
  scalar : BitVec 256
  tag : Option Nat
  peerPoint : Option (List Byte)
  pairKey : Option (BitVec 256)
  code : Nat
  readyAt : Nat
  localConfirmed : Option Nat
  peerConfirmed : Bool
  /-- The peer holds an ACTIVE slot, as its PAIR_CONFIRM told (R221). -/
  peerKeys : Bool
  deriving DecidableEq, Repr

/-- Crypto engine and key management (R198 to R228). -/
structure Crypto where
  /-- Owner slots by number (R198). Reset: every slot EMPTY, no key loaded. -/
  slots : Sparse Slot := []
  /-- Pair key in use (R203). Reset none. -/
  pairKey : Option (BitVec 256) := none
  /-- PAIR_STATUS.CHECK_VALID and CHECK_CODE (R220). Reset none. -/
  checkCode : Option Nat := none
  /-- CART_STATUS.TAG_OK (R212). Reset false. -/
  tagOk : Bool := false
  /-- Cartridge register: serials, at most 64 (R211). Reset empty. -/
  cartReg : List (BitVec 64) := []
  /-- RNG_STATUS.HEALTH_FAIL (R225). Reset false. -/
  rngFail : Bool := false
  /-- RNG_STATUS.FAIL_COUNT (R225). Reset 0. -/
  rngFails : Nat := 0
  /-- Draws made of the random generator (the model's own counter, log entry 4). Reset 0. -/
  draws : Nat := 0
  /-- Owner operations in progress (R215 to R218). Reset empty. -/
  ops : List OwnerOp := []
  /-- Commissioning in progress (R288). Reset none. -/
  commission : Option Commission := none
  /-- A point received before this twin's own commissioning request (R288, step 3). Reset none. -/
  heldPoint : Option (List Byte) := none
  deriving DecidableEq, Repr

/-! ### Sector cache (09_cache.md) -/

/-- A cache line with its tag (R229, Table 09-1): a sector line's recorded block, or a table line's records. -/
structure Line where
  valid : Bool := false
  table : Bool := false
  busy : Bool := false
  addr : Nat := 0
  pass : Nat := 0
  owner : Nat := 0
  keygen : Nat := 0
  cls : Nat := 0
  age : Nat := 0
  coh : Coh := .i
  poison : BitVec 32 := 0
  block : List Byte := []
  recs : TableRecs := []
  deriving DecidableEq, Repr

/-- A coherence request of this twin (R247). -/
inductive CohReq where
  | rd | own | upg
  deriving DecidableEq, Repr

/-- A range operation with what it was started on: the PSAs of an INVALIDATE, the slot of a PURGE_OWNER (R244, Table 09-3). -/
inductive RangeOp where
  | invalidate (first last : Nat)
  | clean
  | purgeOwner (slot : Nat)
  | zeroLine
  deriving DecidableEq, Repr

/-- Sector cache (R229 to R255). -/
structure Cache where
  /-- Main array by index 0 to 63 (R229). Reset every line invalid. -/
  main : Sparse Line := []
  /-- Victim cache, oldest first, at most 8 (R229, R239). Reset empty. -/
  victim : List Line := []
  /-- Table store: records of each table line (R231). Reset all records zero (the manual gives none: log entry 2). -/
  store : Sparse TableRecs := []
  /-- Poison of the table store's records (Table 16-7, ID 5). Reset none. -/
  storePoison : Sparse (BitVec 32) := []
  /-- TABLE_STATE.REQUEST: requests outstanding (R248). Reset none. -/
  requests : Sparse (Option CohReq) := []
  /-- TABLE_STATE.NOTICE: notices and write-backs outstanding (R240). Reset none. -/
  notices : List Nat := []
  /-- Peer's requests deferred: line and request (R249, R255). Reset empty. -/
  deferred : List (Nat × CohReq) := []
  /-- Accesses since the last ageing tick (R235). Reset 0. -/
  accesses : Nat := 0
  /-- Tick of the last ageing tick (R235). Reset 0. -/
  agedAt : Nat := 0
  /-- RANGE_STATUS.BUSY: the operation running and the write-backs still to be acknowledged (R244). Reset none. -/
  range : Option (RangeOp × List Nat) := none
  /-- RANGE_STATUS.IGNORED (R245). Reset false. -/
  ignored : Bool := false
  /-- RANGE_STATUS.AFFECTED (Table 09-8). Reset 0. -/
  affected : Nat := 0
  /-- Fills that wait for an eligible line or for a range operation (R238, R245). Reset empty. -/
  waiting : List Line := []
  deriving DecidableEq, Repr

/-! ### Twin link (10_twin_link.md) -/

/-- TWN.STATUS.LINK_STATE (Table 10-7). -/
inductive LinkState where
  | down | attaching | reconciling | catchup | mirroring | detaching | detached
  deriving DecidableEq, Repr

/-- Direction of the Lath (TWN.STATUS.DIR). -/
inductive LathDir where
  | idle | sending | receiving
  deriving DecidableEq, Repr

/-- An exchange that carries record bytes from the peer: APP or CATCH (R274, R282). -/
structure Exchange where
  xid : Nat
  catching : Bool
  owner : Nat
  mark : Nat
  units : Nat
  /-- Units received: index and bytes. -/
  received : List (Nat × List Byte)
  poisoned : Bool
  group : Option Nat
  deriving DecidableEq, Repr

/-- What a CHAIN_VAL decides: the first comparison, a step of the fork search between two sequences, or the chain value to go on from
(R280, R281). -/
inductive ChainAsk where
  | compare
  | search (lo hi : Nat)
  | adopt
  deriving DecidableEq, Repr

/-- How a stream stands in reconciliation (R280). -/
inductive StreamSync where
  | unknown | inStep | behind | ahead | forked
  deriving DecidableEq, Repr

/-- A forked stream whose renumbering is outstanding (R281): where the renumbered records begin and end, and on TWIN_ID 1 the groups to
be renumbered. -/
structure Renumber where
  stream : Nat
  start : Nat
  finish : Nat
  groups : List Group
  deriving DecidableEq, Repr

/-- A host read of records that only the peer holds (R285): the record being asked for, and the records learnt so far. A unit is its bytes
and whether they came poisoned. -/
structure GapRead where
  tag : Nat
  stream : Nat
  /-- Sequence being asked for. -/
  seq : Nat
  /-- First unit wanted of it, and bytes wanted at most. -/
  firstUnit : Nat
  room : Nat
  xid : Nat
  /-- Its units that have come, in order. -/
  units : List (List Byte × Bool)
  /-- Records learnt: sequence and units. -/
  got : List (Nat × List (List Byte × Bool))
  deriving DecidableEq, Repr

/-- Lath and twin logic (R256 to R293). -/
structure Lath where
  /-- TWIN_ID strap (R14, Table 10-7). Reset 0: an open TWIN_ID reads 0 (R494, log entry 9). -/
  strap : Nat := 0
  /-- STATUS.LATH_LIVE (R269). Reset false. -/
  live : Bool := false
  /-- Level of LATH_ALIVE_OUT (R269). Reset low. -/
  aliveOut : Bool := false
  /-- Tick of the last toggle of LATH_ALIVE_OUT (R269). Reset 0. -/
  aliveAt : Nat := 0
  /-- End of the pause of toggling after a link error (R258). Reset none. -/
  pauseUntil : Option Nat := none
  /-- STATUS.LINK_STATE. Reset down. -/
  link : LinkState := .down
  /-- STATUS.PEER_HEALTHY (R270). Reset true. -/
  peerHealthy : Bool := true
  /-- STATUS.STRAP_CONFLICT (R15). Reset false. -/
  strapConflict : Bool := false
  /-- STATUS.PAIR_MISMATCH (R278). Reset false. -/
  pairMismatch : Bool := false
  /-- STATUS.COMMISSION_FAILED (R289). Reset false. -/
  commissionFailed : Bool := false
  /-- STATUS.PEER_MODE; none is 7, unknown (R272). Reset none. -/
  peerMode : Option Mode := none
  /-- STATUS.PEER_SEALING. Reset false. -/
  peerSealing : Bool := false
  /-- The attach block last received (R268). Reset none. -/
  peer : Option AttachBlock := none
  /-- Attach was refused under R278 (R273). Reset false. -/
  refused : Bool := false
  /-- HELLO_ACK sent, and received, in the present attach (R278). Reset false. -/
  ackSent : Bool := false
  /-- HELLO_ACK received. Reset false. -/
  ackSeen : Bool := false
  /-- STATUS.DIR (R260). Reset idle. -/
  dir : LathDir := .idle
  /-- Level of LATH_ARB_OUT (R260). Reset low. -/
  arbOut : Bool := false
  /-- Tick at which LATH_ARB_OUT was last raised (R260). Reset 0. -/
  arbSince : Nat := 0
  /-- Guard time: no request before GUARD_TIME_END (R262). Reset false. -/
  guard : Bool := false
  /-- Tick at which the guard time ends (R262). Reset 0. -/
  guardEnd : Nat := 0
  /-- STATUS.CREDIT_C (R264). Reset 0. -/
  creditC : Nat := 0
  /-- STATUS.CREDIT_D (R264). Reset 0. -/
  creditD : Nat := 0
  /-- Control slots freed and not yet reported (R264). Reset 0. -/
  freedC : Nat := 0
  /-- Data slots freed and not yet reported (R264). Reset 0. -/
  freedD : Nat := 0
  /-- Messages queued to be sent, in order (R262). Reset empty. -/
  queue : List LathMsg := []
  /-- Messages sent with the credits they carried, newest first (the wires as the peer sees them). Reset empty. -/
  sent : List (LathMsg × Credits) := []
  /-- LATH_D and LATH_ACK through the phases of the last message that crossed, in order (R257): before, between and after messages the
  wires are low, the spacer. Reset empty. -/
  wires : List (BitVec 32 × Bool) := []
  /-- APP and CATCH exchanges opened by the peer (R267). Reset empty. -/
  exchanges : List Exchange := []
  /-- Exchange numbers in use toward the peer, with the group (R267). Reset empty. -/
  openXids : List (Nat × Nat) := []
  /-- CATCHUP_STATUS.BACKLOG (R284). Reset 0. -/
  backlog : Nat := 0
  /-- Stream standing in reconciliation (R280). Reset unknown. -/
  streams : Sparse StreamSync := []
  /-- Sequence up to which the peer holds each stream, as far as this twin's own groups go (R280, R282). Reset 0. -/
  peerHeads : Sparse Nat := []
  /-- Table lines received in the present reconciliation (R279). Reset empty. -/
  tablesSeen : List Nat := []
  /-- Chain requests that wait for their CHAIN_VAL, by mark, and what each decides (R280, R281). Reset empty. -/
  chainAsked : List (Nat × ChainAsk) := []
  /-- Admission is held at the end of catch-up (R284). Reset false. -/
  admissionHold : Bool := false
  /-- This twin's part of the backlog is done and MODE_NOTE 0 has been sent (R284). Reset false. -/
  sentTopcoat : Bool := false
  /-- The peer has sent MODE_NOTE 0 (R284). Reset false. -/
  seenTopcoat : Bool := false
  /-- Gap list: mark, sequences, at most 1,024 (R285). Reset empty. -/
  gaps : List (Nat × Nat) := []
  /-- SPLIT_TICK (Table 10-7). Reset 0. -/
  splitTick : Nat := 0
  /-- Planned detach: who leaves, and the command that waits (R287). Reset none. -/
  detaching : Option (Nat × Option Nat) := none
  /-- The CLEAN of a planned detach has been started (R287). Reset false. -/
  detachClean : Bool := false
  /-- DETACH_ACK has been sent (R287). Reset false. -/
  detachSent : Bool := false
  /-- DETACH_ACK has been received (R287). Reset false. -/
  detachSeen : Bool := false
  /-- The peer's stream records from TABLE_XFER (R279). Reset all zero. -/
  peerRecs : Sparse StreamRec := []
  /-- Marks of groups that the peer could not write (R285). Reset empty. -/
  peerGaps : List Nat := []
  /-- Streams whose renumbering is outstanding (R281, R283). Reset empty. -/
  renumber : List Renumber := []
  /-- Boot slots and parts of 1 MiB that this twin has still to send in catch-up, and then its activation record (R282). Reset none. -/
  bootQueue : Option (List (Nat × Nat)) := none
  /-- Host reads of records that only the peer holds (R285). Reset empty. -/
  gapReads : List GapRead := []
  /-- Next exchange number (R266). Reset 0. -/
  nextXid : Nat := 0
  deriving DecidableEq, Repr

/-! ### Host rings and commands (11_host_rings.md, 12_commands.md) -/

/-- Ring states (Table 11-8). -/
inductive RingState where
  | disabled | running | error
  deriving DecidableEq, Repr

/-- A submission ring (R294, R299, R302, R313). -/
structure Sq where
  st : RingState := .disabled
  err : Nat := 0
  /-- SQ_TAIL from the last poll. -/
  tail : Nat := 0
  /-- Index of the next entry to be fetched. -/
  fetch : Nat := 0
  /-- Indices beyond it whose commands had started before a seal: they are not fetched again (R320). Reset empty. -/
  skip : List Nat := []
  deriving DecidableEq, Repr

/-- A completion ring (R298, R310, R311). -/
structure Cq where
  st : RingState := .disabled
  err : Nat := 0
  /-- CQ_HEAD from the last poll. -/
  head : Nat := 0
  /-- Next index to be written. -/
  tail : Nat := 0
  /-- PHASE of the next entry. Reset true. -/
  phase : Bool := true
  /-- Completions posted since the last signal (R311). -/
  count : Nat := 0
  /-- Tick of the first completion posted after the last signal (R311). -/
  since : Option Nat := none
  deriving DecidableEq, Repr

/-- Where a fetched command stands. -/
inductive CmdPhase where
  /-- Checked and dispatched: its row may run. -/
  | dispatched
  /-- APPEND waits for admission (R326). -/
  | admission
  /-- Waits for a table line (R246), in M when true. -/
  | line (k : Nat) (exclusive : Bool)
  /-- Waits for its scatter list (R296, R317). -/
  | scatter
  /-- Waits for its payload (R317). -/
  | payload
  /-- Its scatter list could not be read: it is never executed and its slot never passed (R317). -/
  | dead
  /-- Runs on the medium or waits for an outcome (commit, peer, read). -/
  | running
  /-- Its completion is ready. -/
  | done
  deriving DecidableEq, Repr

/-- A command in flight (R299, R308). -/
structure Cmd where
  /-- The model's own number of the command. -/
  tag : Nat
  sq : Nat
  /-- Ring index of its entry (R299). -/
  index : Nat
  /-- The 64 bytes of its entry (R295). -/
  entry : List Byte
  phase : CmdPhase
  /-- Its data have moved, or state has changed on its behalf (R299). -/
  started : Bool
  /-- POLICY_OVERRIDE_SEEN (R47). -/
  ovr : Bool
  /-- The owner bound to its ring when it was fetched (R199). -/
  owner : Nat
  /-- Its scatter list: address and length of each buffer; one buffer without SGL (R296). -/
  sgl : List (Nat × Nat)
  /-- Group of an APPEND once placed. -/
  group : Option Nat
  /-- Payload bytes received, with poison (R317). -/
  payload : List Byte
  poisoned : Bool
  /-- Records delivered (Table 12-3). -/
  records : Nat
  /-- Fetched since a conventional reset: its completion is discarded when set (R315). -/
  discard : Bool
  /-- The status with which the state of its ring's owner slot refused it when it was fetched, if it did (R202, R216, R228). -/
  slotSt : Option Nat := none
  deriving DecidableEq, Repr

/-- A completion that is ready, in order (R310). -/
structure Completion where
  tag : Nat
  sq : Nat
  cid : Nat
  opcode : Nat
  status : Nat
  result : BitVec 64
  single : Bool
  ovr : Bool
  poison : Bool
  noCoalesce : Bool
  mark : Nat
  deriving DecidableEq, Repr

/-- An entry of GET_LOG page 0x01 (R340, Table 12-8). -/
structure CmdError where
  tick : Nat
  sq : Nat
  opcode : Nat
  cid : Nat
  status : Nat
  mark : Nat
  deriving DecidableEq, Repr

/-- A write to host memory by DMA (R298, R312): address, bytes; an MSI-X message is written as its vector. -/
inductive HostWrite where
  | bytes (addr : Nat) (data : List Byte)
  | msix (vector : Nat)
  deriving DecidableEq, Repr

/-- Host interface: rings, polling, power states (R294 to R346). -/
structure HostIf where
  sqs : Sparse Sq := []
  cqs : Sparse Cq := []
  /-- LINK_STATUS.LINK_UP (Table 11-7). Reset false. -/
  linkUp : Bool := false
  /-- LINK_STATUS.BME. Reset false. -/
  bme : Bool := false
  /-- LINK_STATUS.IN_L1. Reset false. -/
  inL1 : Bool := false
  /-- LINK_STATUS.WIDTH. Reset 0. -/
  width : Nat := 0
  /-- LINK_STATUS.SPEED. Reset 0. -/
  speed : Nat := 0
  /-- POLL_STATUS.INTERVAL (R303). Reset 0. -/
  interval : Nat := 0
  /-- Tick of the last poll start (R303). Reset 0. -/
  lastPoll : Nat := 0
  /-- A poll's read is in progress (R303). Reset false. -/
  polling : Bool := false
  /-- The first poll after the lock or a pause is due at once (R303, R306). Reset false. -/
  pollNow : Bool := false
  /-- Polling suspended by a seal (R305). Reset false. -/
  pollSeal : Bool := false
  /-- A completion was posted since the previous poll (R303). Reset false. -/
  posted : Bool := false
  /-- Ring whose entry is being fetched (R307). Reset none. -/
  fetching : Option Nat := none
  /-- Current ring of the weighted round robin (R307). Reset 0. -/
  turn : Nat := 0
  /-- Fetches used in the present turn (R307). Reset 0. -/
  turnUsed : Nat := 0
  /-- Commands in flight, in order of fetch (R308). Reset empty. -/
  cmds : List Cmd := []
  /-- The model's number of the next command fetched. -/
  nextTag : Nat := 0
  /-- Completions ready and not posted, in order (R310). Reset empty. -/
  ready : List Completion := []
  /-- GEN.SETUP_LOCK.LOCK (R313). Reset false. -/
  lock : Bool := false
  /-- The three conditions of R313 held at the lock. Reset false. -/
  lockOk : Bool := false
  /-- GEN.LOCKED_WRITE_COUNT.COUNT (R314). Reset 0. -/
  lockedWrites : Nat := 0
  /-- PS_STATUS.PS (R341). Reset 0. -/
  ps : Nat := 0
  /-- PS_STATUS.TRANSITION. Reset false. -/
  transition : Bool := false
  /-- Tick since which the FX880 has been idle (R342). Reset 0. -/
  idleSince : Nat := 0
  /-- Newest command errors, at most 64 (page 0x01). Reset empty. -/
  errors : List CmdError := []
  /-- Command errors displaced (R339). Reset 0. -/
  errorsLost : Nat := 0
  deriving DecidableEq, Repr

/-! ### Interrupt controller (13_interrupts.md) -/

/-- An ICU source (R347 to R353). -/
structure Src where
  target : Nat := 0
  sense : Nat := 2
  priority : Nat := 0
  vector : Nat := 0
  pending : Bool := false
  active : Bool := false
  counter : Nat := 0
  /-- Raw level of a state source (RAW). -/
  level : Bool := false
  /-- Mask bit as written. -/
  masked : Bool := true
  /-- Mask bit in force (R357). -/
  maskedNow : Bool := true
  /-- Forwarded by the wake unit to its slot's target and not yet claimed (R363). -/
  forwarded : Bool := false
  deriving DecidableEq, Repr

/-- A mask or threshold write that is not yet in force (R357). -/
inductive MaskChange where
  | mask (src : Nat) (on : Bool)
  | threshold (t : Nat) (level : Nat)
  deriving DecidableEq, Repr

/-- A wake slot (R362). -/
structure WakeSlot where
  en : Bool := false
  fwd : Nat := 0
  source : Nat := 0
  deriving DecidableEq, Repr

/-- Interrupt controller and wake unit (R347 to R370). -/
structure Icu where
  /-- Sources by number; the default is the reset configuration of Table 13-2. -/
  srcs : Sparse Src := []
  /-- THRESHOLD[t] as written. Reset 0. -/
  threshold : Sparse Nat := []
  /-- THRESHOLD[t] in force (R357). Reset 0. -/
  thresholdNow : Sparse Nat := []
  /-- Writes not yet in force, in order of acceptance, with the tick at which each acts (R357). Reset empty. -/
  changes : List (Nat × MaskChange) := []
  /-- WAKE_SLOT[i] (R362). Reset disabled. -/
  slots : Sparse WakeSlot := []
  /-- Core rail at retention (R364). Reset false. -/
  retention : Bool := false
  /-- WAKE_STATUS.LAST_SOURCE. Reset 0. -/
  lastWake : Nat := 0
  /-- Detections latched during retention: source, and level for a state source (R364). Reset empty. -/
  latched : List (Nat × Option Bool) := []
  /-- Tick since which nothing has been deliverable, active or polled (R364). Reset 0. -/
  quietSince : Nat := 0
  deriving DecidableEq, Repr

/-! ### Supply and Hawk (14_power_fail.md) -/

/-- Supply states (R374, Table 14-2). -/
inductive SupplyState where
  | unarmed | armed | rideThrough | sealing | sealed | reArming
  deriving DecidableEq, Repr

/-- Charger phases (R385). -/
inductive Charger where
  | off | current | voltage | float
  deriving DecidableEq, Repr

/-- What a seal leaves to be filled (R192): the ring, the zone, the interrupted group's first position and depth with its frames never
started, and the first position, depth and frames never started of the seal checkpoint's group, when one was begun. -/
structure SealFill where
  ring : Nat
  layer : Nat
  zone : Nat
  first : Nat
  depth : Nat
  frames : List Nat
  next : Option (Nat × Nat × List Nat)
  deriving DecidableEq, Repr

/-- Supply, stack monitor and health test (R371 to R396). -/
structure Supply where
  /-- STATUS.STATE (R374). Reset unarmed. -/
  st : SupplyState := .unarmed
  /-- STATUS.VIN_WARN. Reset false. -/
  vinWarn : Bool := false
  /-- IN_PWRWARN filtered: energised (R372, R419). Reset de-energised. -/
  pwrwarnOn : Bool := false
  /-- STATUS.PWRWARN: IN_PWRWARN shows a warning. Reset false, the register's reset word; the input is de-energised, and the next tick
  shows it (log entry 12). -/
  pwrwarn : Bool := false
  /-- STATUS.ON_HAWK. Reset false. -/
  onHawk : Bool := false
  /-- STATUS.CHARGING and the charger's phase (R385). Reset off. -/
  charger : Charger := .off
  /-- STATUS.CHARGE_PAUSE. Reset false. -/
  pause : Bool := false
  /-- STATUS.SEAL_STEP. Reset 0. -/
  sealStep : Nat := 0
  /-- Tick since which no warning has been present (R371). Reset 0. -/
  clearSince : Nat := 0
  /-- The return condition holds since this warning cleared (R377). Reset false. -/
  returned : Bool := false
  /-- Start of the ride-through window, and its length in ms (R376, R396). Reset 0. -/
  windowStart : Nat := 0
  /-- Length of the window, ms. Reset 20 (CFG.WINDOW's reset). -/
  windowMs : Nat := 20
  /-- Start of the seal (LAST_SEAL). Reset 0. -/
  sealStart : Nat := 0
  /-- Group being written when the seal began: its ring (R380). Reset none. -/
  sealRing : Option Nat := none
  /-- What the last seal leaves to be filled (R192, R382). Reset none. -/
  sealFill : Option SealFill := none
  /-- COARSE.MV. Reset 0. -/
  coarse : Nat := 0
  /-- The seal comparator on the coarse divider has tripped (R371, R375). Reset false. -/
  sealTripped : Bool := false
  /-- VIN.VIN in mV. Reset 0. -/
  vin : Nat := 0
  /-- VIN.FIELD in mV. Reset 0. -/
  field : Nat := 0
  /-- COUNTS.SEALS. Reset 0. -/
  seals : Nat := 0
  /-- COUNTS.RIDES. Reset 0. -/
  rides : Nat := 0
  /-- LAST_SEAL.TICKS. Reset 0. -/
  lastSeal : Nat := 0
  /-- CELL[i].MV. Reset 0. -/
  cells : List Nat := [0, 0, 0, 0, 0, 0]
  /-- Readings of the last cycle kept (R387, R392): CELL[i].VALID apart from open taps. Reset false. -/
  cellsValid : Bool := false
  /-- REF_B.MV. Reset 0. -/
  refB : Nat := 0
  /-- REF_B.FAIL. Reset false. -/
  refFail : Bool := false
  /-- Consecutive failing cycles (R387). Reset 0. -/
  refFails : Nat := 0
  /-- Consecutive passing cycles (R387). Reset 0. -/
  refPasses : Nat := 0
  /-- STATUS.MON_FAULT. Reset false. -/
  monFault : Bool := false
  /-- STATUS.OPEN_WIRE. Reset 0. -/
  openWire : BitVec 7 := 0
  /-- Consecutive cycles of disagreement, and of agreement (R389). Reset 0. -/
  diffRun : Nat := 0
  /-- Consecutive cycles of agreement. Reset 0. -/
  sameRun : Nat := 0
  /-- STATUS.MISMATCH. Reset false. -/
  mismatch : Bool := false
  /-- STATUS.CELL_ALARM. Reset 0. -/
  cellAlarm : BitVec 6 := 0
  /-- STATUS.CHAIN_LOST (R392). Reset false. -/
  chainLost : Bool := false
  /-- Tick of the first cycle since the loss of the chain that delivered valid readings (R392). Reset none. -/
  beatSince : Option Nat := none
  /-- BAL_STATUS.ACTIVE (R393). Reset 0. -/
  bleed : BitVec 6 := 0
  /-- Tick at which the balancing command expires (R393). Reset 0. -/
  bleedEnd : Nat := 0
  /-- BALANCE.DURATION as last written, which a reserved encoding leaves (R10, R393). Reset 0. -/
  balanceMs : Nat := 0
  /-- A discharge test is due (R394). Reset false. -/
  testDue : Bool := false
  /-- STATUS.TEST_RUNNING. Reset false. -/
  testRunning : Bool := false
  /-- CAPACITANCE.MF. Reset 0. -/
  cap : Nat := 0
  /-- ESR.UOHM. Reset 0. -/
  esr : Nat := 0
  /-- USABLE.MJ. Reset 0. -/
  usable : Nat := 0
  /-- TEST_TICK. Reset 0. -/
  testTick : Nat := 0
  /-- A test has completed (R395). Reset false. -/
  tested : Bool := false
  /-- Tick at which the last cycle of the stack monitor began, and the cycles since power-on (R386, R388). Reset 0: measured from the
  reset. -/
  cycleAt : Nat := 0
  /-- Cycles since power-on (R388). Reset 0. -/
  cycles : Nat := 0
  /-- Tick of the last conversion of the VIN ADC (R371). Reset 0: measured from the reset. -/
  adcAt : Nat := 0
  /-- STATUS.EOL. Reset false. -/
  eol : Bool := false
  /-- Core junction temperature in °C (R503). Reset 0 (the manual gives none: log entry 2). -/
  tempCore : Int := 0
  /-- AFE junction temperature in °C (R503). Reset 0 (log entry 2). -/
  tempAfe : Int := 0
  deriving DecidableEq, Repr

/-! ### Lockstep and field I/O (15_safety.md) -/

/-- An entry of the safety fault log (R420, Table 15-6). -/
structure SafetyEntry where
  tick : Nat
  cls : Nat
  outputs : BitVec 4
  action : Nat
  detail : Word32
  deriving DecidableEq, Repr

/-- LSK.STATUS.PAIR_STATE (Table 15-7). -/
inductive PairState where
  | running | restarting | held
  deriving DecidableEq, Repr

/-- A delay register: two copies, each of 72 bits with an even parity bit above them for every 8 (R399). -/
structure DelayReg where
  a : BitVec 81 := 0
  b : BitVec 81 := 0
  deriving DecidableEq, Repr

/-- The two cores and the delay registers between them (R397). -/
structure CorePair where
  /-- Steps that the leading core has performed. Reset 0 (the manual numbers none: log entry 96). -/
  lead : Nat := 0
  /-- Steps that the trailing core has performed. Reset 0 (log entry 96). -/
  trail : Nat := 0
  /-- Input delay registers: inputs of the leading core that the trailing core has not taken yet, oldest first. Reset empty. -/
  inputs : List DelayReg := []
  /-- Output delay registers: transactions of the leading core that wait for the trailing core's copy, each with its step, oldest first.
  Reset empty. -/
  outputs : List (Nat × DelayReg) := []
  deriving DecidableEq, Repr

/-- Lockstep supervision (R397 to R405). -/
structure Lockstep where
  /-- The cores and their delay registers (R397). Reset as CorePair. -/
  cores : CorePair := {}
  /-- The next transaction carries a comparator test (R400). Reset false. -/
  testDue : Bool := false
  /-- STATUS.PRIMER_CAUSE. Reset 0. -/
  cause : Nat := 0
  /-- STATUS.PAIR_STATE. Reset running: Table 15-7's reset word 0. -/
  pair : PairState := .running
  /-- STATUS.IMAGE: image B runs. Reset A. -/
  imageB : Bool := false
  /-- Ticks of mismatches (R401). Reset empty. -/
  mismatches : List Nat := []
  /-- MISMATCH_COUNT. Reset 0. -/
  count : Nat := 0
  /-- MISMATCH_ADDR. Reset 0. -/
  addr : Word32 := 0
  /-- SELFTEST.PASSES. Reset 0. -/
  passes : Nat := 0
  /-- SELFTEST.LAST_BIT. Reset 0. -/
  lastBit : Nat := 0
  /-- Bit of the next test (R400). Reset 0. -/
  nextBit : Nat := 0
  /-- RESTART.COUNT. Reset 0. -/
  restarts : Nat := 0
  /-- Tick of the mismatch that began the present restart. Reset 0. -/
  restartStart : Nat := 0
  /-- RESTART.LAST_US. Reset 0. -/
  lastUs : Nat := 0
  /-- Safety fault log, newest first, at most 64 (R420). Reset empty. -/
  log : List SafetyEntry := []
  /-- Entries displaced (R339). Reset 0. -/
  lost : Nat := 0
  deriving DecidableEq, Repr

/-- A check made in the present test-pulse period (R411). -/
structure PulseCheck where
  out : Nat
  high : Bool
  pins : BitVec 4
  drivers : BitVec 4
  deriving DecidableEq, Repr

/-- Field I/O (R406 to R422, R490). -/
structure Field where
  /-- OUT_STATUS.EXT. Reset 0. -/
  ext : BitVec 4 := 0
  /-- OUT_STATUS.CROSS. Reset 0. -/
  cross : BitVec 4 := 0
  /-- OUT_STATUS.GND_FAULT. Reset 0. -/
  gnd : BitVec 4 := 0
  /-- Outputs in thermal shutdown (R408). Reset 0. -/
  shutdown : BitVec 4 := 0
  /-- Tick of the next retry of each output in shutdown (R408). Reset none listed. -/
  retryAt : Sparse Nat := []
  /-- OUT_STATUS.PIN. Reset 0. -/
  pin : BitVec 4 := 0
  /-- Outputs held off by their test pulse at present (R409). Reset 0. -/
  pulsing : BitVec 4 := 0
  /-- Pacing count at which the present window ends (R409). Reset 0. -/
  windowEnd : Nat := 0
  /-- Checks made in this period (R411). Reset empty. -/
  checks : List PulseCheck := []
  /-- The group check made in this period, if one was (R415). Reset none. -/
  groupFailed : Option Bool := none
  /-- Outputs with a joint window in this period (R412 (b)). Reset 0. -/
  joint : BitVec 4 := 0
  /-- Outputs whose pin read low at every sample instant so far in this period, and of the last full period (R414). Reset 0. -/
  lowSoFar : BitVec 4 := 0xF
  /-- The last full period. Reset 0. -/
  lowLast : BitVec 4 := 0
  /-- Samples were taken in this period (R414). Reset false. -/
  sampled : Bool := false
  /-- Period, width and enables in force (R409). Reset as PULSE_CFG. -/
  cfgNow : Word32 := 0x0F050064
  /-- WIRED_GROUP in force (R415). Reset 0. -/
  groupNow : Word32 := 0
  /-- Pacing count at which the present period began (R409). Reset 0. -/
  periodStart : Nat := 0
  /-- PULSE_SYNC arrived in this period, and in the last two (R416). Reset false. -/
  syncSeen : Bool := false
  /-- PULSE_SYNC arrivals of the last two periods. Reset none. -/
  syncLast : List Bool := []
  /-- The peer's LOCAL_MASK and PEER_MASK (R416). Reset 0. -/
  peerLocal : Nat := 0
  /-- The peer's PEER_MASK. Reset 0. -/
  peerPeer : Nat := 0
  /-- OUT_STATUS.SYNC. Reset false. -/
  sync : Bool := false
  /-- Group window by PULSE_SYNC: its start and its width in 0.1 ms (R416). Reset none. -/
  groupWindow : Option (Nat × Nat) := none
  /-- IN_STATUS.LEVEL: IN_PEER, IN_SHOCK_EXT, IN_AUX (input 0 is Supply.pwrwarnOn). Reset 0. -/
  levels : BitVec 4 := 0
  /-- Tick since which IN_PEER has been continuously de-energised, if it is (R270). Reset 0. -/
  peerLowSince : Option Nat := some 0
  /-- Tick of the last test pulse seen on IN_PEER (R270). Reset 0: measured from the reset. -/
  lastPulse : Nat := 0
  /-- Tick since which IN_PEER has been energised with pulses (R270). Reset 0. -/
  peerGoodSince : Nat := 0
  /-- The field supply is low (R490). Reset false. -/
  low : Bool := false
  /-- Outputs stay off until the next test-pulse period after the supply returned (R490). Reset false. -/
  restorePending : Bool := false
  deriving DecidableEq, Repr

/-! ### Flash and memory protection (16_memories.md) -/

/-- Flash operations (Table 16-9). -/
inductive FlashOp where
  | program | eraseSector | eraseBlock | bitClear
  deriving DecidableEq, Repr

/-- Flash array and its controller (R424 to R440). -/
structure Flash where
  /-- Bytes by address, 8 MiB; an unlisted byte is erased, 0xFF (R424, log entry 8). -/
  bytes : Sparse Byte := []
  /-- Check bits of each chunk, 24 bits; unlisted is erased (R425). -/
  spare : Sparse (BitVec 24) := []
  /-- Erase counter of each sector (R429). Reset 0 (log entry 8). -/
  erases : Sparse Nat := []
  /-- The operation in progress and its address (R429). Reset none. -/
  op : Option (FlashOp × Nat) := none
  /-- STATUS.SUSPENDED. Reset false. -/
  suspended : Bool := false
  /-- A suspend is being performed and the array has not reached the suspended state (R432). Reset false. -/
  suspending : Bool := false
  /-- STATUS.SUSPEND_HELD. Reset false. -/
  held : Bool := false
  /-- STATUS.AUTO. Reset false. -/
  auto : Bool := false
  /-- Tick of the last resume of the operation, if any (R433). Reset none. -/
  resumedAt : Option Nat := none
  /-- Tick at which the suspension began (R432). Reset 0. -/
  suspendedAt : Nat := 0
  /-- Reads that wait for the suspended state: chunk and flips (R432). Reset empty. -/
  waiting : List (Nat × List Nat) := []
  /-- STATUS.ERR. Reset 0. -/
  err : Nat := 0
  /-- Refresh-due sectors, ascending (R440). Reset empty. -/
  due : List Nat := []
  /-- Tick of the last refresh of a sector (R440). Reset none. -/
  refreshedAt : Sparse (Option Nat) := []
  /-- What the last chunk read delivered, and whether poison-marked (R426). Reset none. -/
  delivered : Option (List Byte × Bool) := none
  /-- Draws of undefined contents made (the model's own counter, log entry 8). Reset 0. -/
  cuts : Nat := 0
  deriving DecidableEq, Repr

/-- An entry to be written to the event log ring: TICK, ORIGIN, SOURCE, CODE and DETAIL of Table 16-5. -/
structure EventDue where
  tick : Nat
  origin : Nat
  source : Nat
  code : Nat
  detail : List Byte
  deriving DecidableEq, Repr

/-- Event log ring (R437, R438). -/
structure EventLog where
  /-- Index 0 to 32,767 of the next entry in the ring (R437). Reset 0 (log entry 8). -/
  next : Nat := 0
  /-- SEQ of the next entry (R437). Reset 0 (log entry 8). -/
  seq : Nat := 0
  /-- Entries written in the present hour (R438). Reset 0. -/
  hourCount : Nat := 0
  /-- Entries suppressed in the present hour (R438). Reset 0. -/
  suppressed : Nat := 0
  /-- Hour of the pacing counter that the counts belong to (R438). Reset 0. -/
  hour : Nat := 0
  /-- Entries suppressed since power-on (R339, page 0x09). Reset 0. -/
  lost : Nat := 0
  /-- Entries that the management pair has still to write, oldest first (R15, R51, R148, R420, R437). Reset empty. -/
  queue : List EventDue := []
  deriving DecidableEq, Repr

/-- SRAM protection and its tests (R441 to R449). -/
structure Ecc where
  /-- Poisoned words: memory × 2^20 + word, ascending (R442). Reset empty. -/
  poison : List Nat := []
  /-- Test rows by memory × 4 + row: data and check bits (R448). Reset clean zeros (log entry 2). -/
  rows : Sparse (BitVec 64 × BitVec 8) := []
  /-- SPLIT_MODE.OPEN: the tick at which it opened (R448). Reset none. -/
  openedAt : Option Nat := none
  /-- TEST_RESULT.OUTCOME. Reset 0. -/
  outcome : Nat := 0
  /-- TEST_RESULT.BIT. Reset 127. -/
  bit : Nat := 127
  /-- TEST_RESULT.SYNDROME. Reset 0. -/
  syndrome : BitVec 8 := 0
  /-- TEST_READ. Reset 0. -/
  read : BitVec 64 := 0
  /-- SELFTEST.DONE. Reset false. -/
  testDone : Bool := false
  /-- SELFTEST.FAIL_MAP. Reset 0. -/
  failMap : BitVec 16 := 0
  /-- SELFTEST.US. Reset 0. -/
  testUs : Nat := 0
  /-- SCRUB_PASSES (R444). Reset 0. -/
  passes : Nat := 0
  /-- LAST_ERROR. Reset 0. -/
  last : Word32 := 0
  deriving DecidableEq, Repr

/-! ### Start-up, modes and cartridge (17_startup.md) -/

/-- The cartridge in the seat, as its memory describes it (R461, Table 17-5). -/
structure Cartridge where
  k6 : Bool
  format : Nat
  serial : BitVec 64
  zoneDone : List Nat
  deriving DecidableEq, Repr

/-- Contents of the calibration record that the model keeps (R424, R456, R506): saved registers by BAR0 offset (features, servo live
sets, equaliser initial taps, powers), the strategy tables, LASER_MAX, the wear counters. -/
structure Calibration where
  saved : List (Nat × Word32)
  strat : Sparse Word32
  laserMax : Nat
  laserSeconds : Nat
  revolutions : Nat
  deriving DecidableEq, Repr

/-- Structures of the flash whose byte layout the manual does not give (Table 16-1): the pair record, the cartridge register, the
calibration record and the pairing record. -/
structure Nonvolatile where
  /-- Pair record of the key store: the pair key wrapped under the root key (R203). Reset none. -/
  pairRecord : Option (BitVec 320) := none
  /-- Cartridge register (R211). Reset empty. -/
  cartReg : List (BitVec 64) := []
  /-- Calibration record in force, and its GENERATION (R436, R456). Reset absent (R468: DUST_CAUSE 7 at the first power). -/
  calibration : Option Calibration := none
  /-- GENERATION of the calibration copy in force (R436). Reset 0. -/
  calGeneration : Nat := 0
  /-- Pairing record: peer serial, fingerprint, pacing count (R289). Reset none. -/
  pairing : Option (BitVec 64 × BitVec 64 × Nat) := none
  /-- Values in the newest seal entry: laser on-time and spindle revolutions (R506). Reset 0. -/
  sealWear : Nat × Nat := (0, 0)
  deriving DecidableEq, Repr

/-- Modes, start-up, cartridge and firmware (R452 to R475, R506). -/
structure Startup where
  /-- MODE_STATUS.MODE (R453, R458). Reset dustSheet. -/
  mode : Mode := .dustSheet
  /-- The mode has been chosen since power-on (R453). Reset false. -/
  chosen : Bool := false
  /-- MODE_STATUS.DUST_CAUSE. Reset 0. -/
  dustCause : Nat := 0
  /-- MODE_STATUS.CART_STATE. Reset 0. -/
  cartState : Nat := 0
  /-- MODE_STATUS.START_PHASE. Reset 0. -/
  phase : Nat := 0
  /-- Cartridge in the seat. Reset none. -/
  cart : Option Cartridge := none
  /-- FORMAT_STATUS.BUSY. Reset false. -/
  formatting : Bool := false
  /-- First cluster position of the interleave group being formatted (R462). Reset 0. -/
  formatPos : Nat := 0
  /-- A cartridge eject waits for the present zone of the format (R464). Reset none. -/
  ejectTag : Option Nat := none
  /-- The LEAVE_DUST_SHEET that waits for its steps (R459). Reset none. -/
  leaveTag : Option Nat := none
  /-- The ENTER_DUST_SHEET that waits for started commands, with the cause to set (R335). Reset none. -/
  enterTag : Option (Option Nat × Nat) := none
  /-- MILESTONE[i]. Reset 0. -/
  milestones : List Nat := [0, 0, 0]
  /-- FW_STATUS.STATE. Reset 0. -/
  fwState : Nat := 0
  /-- FW_STATUS.ERR. Reset 0. -/
  fwErr : Nat := 0
  /-- FW_UPDATE.SLOT. Reset 0. -/
  fwSlot : Nat := 0
  /-- The slot named when START began the update (R472). Reset 0. -/
  fwSource : Nat := 0
  /-- RESTART. Reset false. -/
  fwRestart : Bool := false
  /-- Start-up self-test passed (Table 15-4). Reset false. -/
  selfTestOk : Bool := false
  /-- Ticks in Topcoat or Undercoat since the last start of the running image (R471). Reset 0. -/
  trialRun : Nat := 0
  /-- Features changed and not yet saved (R456). Reset false. -/
  unsaved : Bool := false
  /-- Tick of the last save (R456). Reset none. -/
  savedAt : Option Nat := none
  /-- Laser on-time, whole seconds (R506). Reset 0. -/
  laserSeconds : Nat := 0
  /-- Ticks of laser on-time towards the next second (R506). Reset 0. -/
  laserTicks : Nat := 0
  /-- Encoder edges counted (R506): revolutions × 1,152 and the remainder. Reset 0. -/
  edges : Nat := 0
  /-- Power-on count (page 0x02). Reset 0. -/
  powerOns : Nat := 0
  /-- The drive stands parked for want of a task (R460). Reset true. -/
  parked : Bool := true
  deriving DecidableEq, Repr

/-- What the FX880 puts on its buses: writes to host memory, MSI-X messages held back, and the word that a register read returns. -/
structure Bus where
  /-- Writes made to host memory, newest first (the bus as the host sees it). Reset empty. -/
  out : List HostWrite := []
  /-- MSI-X pending bits (Table 11-7). Reset 0 (per base specification). -/
  pba : BitVec 32 := 0
  /-- Word that the last register read returned (the model's own: a read has nowhere else to answer). Reset 0. -/
  readData : Word32 := 0
  deriving DecidableEq, Repr

/-- Everything one FX880 holds but the queue of waiting commands. -/
structure Device where
  pacing : Pacing := {}
  avs : Avs := {}
  exc : Excursions := {}
  servo : Servo := {}
  motion : Motion := {}
  rdc : ReadChannel := {}
  wrc : WriteChannel := {}
  rcl : RecordLayer := {}
  cry : Crypto := {}
  cch : Cache := {}
  lath : Lath := {}
  hif : HostIf := {}
  icu : Icu := {}
  pwr : Supply := {}
  lsk : Lockstep := {}
  fio : Field := {}
  fls : Flash := {}
  evt : EventLog := {}
  ecc : Ecc := {}
  nv : Nonvolatile := {}
  gen : Startup := {}
  bus : Bus := {}
  /-- Stored words of registers by BAR0 offset: configuration, statistics and latches; an unlisted word holds the reset word of
  Table 18-3 (R482, R485). -/
  regs : Sparse Word32 := []
  /-- Draws made of free values (the model's own counter, log entry 7). Reset 0. -/
  draws : Nat := 0
  deriving DecidableEq, Repr

/-- The whole state: the FX880, and the commands that wait. -/
structure State where
  /-- The FX880. -/
  dev : Device := {}
  /-- Commands that wait, first in, first out. -/
  pending : List Instr := []
  deriving DecidableEq, Repr

/-- The FX880 right after power-on reset is released, before start-up has run (R452, R482): every register at its reset word, the
supply UNARMED, no command waiting. -/
def State.reset : State := {}

end Sys2Proof.Machine
end

