-- ==== Sys2Proof/Machine/Ops.lean ====
section
/-!
DEFINITION. The operations that every block shares: time, stored registers and statistics, the interrupt controller's detections and
deliveries, MSI-X messages, and the excursions of the adaptive loops with their log.
-/

namespace Sys2Proof.Machine

/-- The outcome of a command that has its effect: the device changed by `f`, the queue untouched. -/
def effect (s : State) (f : Device → Device) : Host.Outcome State Fault Refusal :=
  .next { s with dev := f s.dev }

/-- Apply `f` when `b` holds. An event whose condition does not hold in the present state has no effect (log entry 1). -/
def onlyIf (b : Bool) (f : Device → Device) (d : Device) : Device := if b then f d else d

/-! ### Time (R32, R33) -/

/-- The pacing counter. -/
def Device.now (d : Device) : Nat := d.pacing.now.toNat

/-- Ticks in one millisecond (R4: 1 tick = 40 ns). -/
def ticksPerMs : Nat := 25000

/-- Ticks in one second. -/
def ticksPerS : Nat := 25000000

/-! ### Stored registers (R482, R485, Table 18-3) -/

/-- Reset word of COEF_LIVE and COEF_SHADOW by index (Table 03-2: +1.0 for k = 5, 10, 18). -/
def coefReset (k : Nat) : Word32 := if k = 5 || k = 10 || k = 18 then 0x00100000 else 0

/-- Reset words of the register arrays. -/
def arrayReset (o : Nat) : Word32 :=
  if 0x1800 ≤ o && o < 0x1A00 then (if o % 16 = 12 then 1 else 0)
  else if 0x2100 ≤ o && o < 0x2200 then (if o % 0x20 = 0x0C then 0x00010064 else 0)
  else if 0x8000 ≤ o && o < 0x8800 then
    (if o % 0x200 < 0x80 then coefReset (o % 0x80 / 4)
     else if o % 0x200 < 0x100 then coefReset (o % 0x80 / 4)
     else if o % 0x200 = 0x10C then 0x00FA0000 else 0)
  else if 0xA140 ≤ o && o < 0xA17C then 0x04000C00
  else if 0xA200 ≤ o && o < 0xA600 then (if o % 0x40 = 28 && o % 0x200 < 0x180 then 0x200 else 0)
  else if 0x13020 ≤ o && o < 0x13040 then
    BitVec.ofNat 32 ([0x28, 0x22, 0x1D, 0x19, 0x16, 0x14, 0x12, 0x10].getD ((o - 0x13020) / 4) 0)
  else 0

/-- Reset word of a stored register by BAR0 offset (Table 18-3). -/
def regReset (o : Nat) : Word32 :=
  match o with
  | 0x100C => 0x0000007D
  | 0x1010 => 0x000061A8
  | 0x1018 => 0x00000003
  | 0x101C => 0x000000C8
  | 0x1020 => 0x0000001E
  | 0x1024 => 0x00000258
  | 0x9010 => 0x019004B0
  | 0x9014 => 0x138805DC
  | 0x9018 => 0x00000064
  | 0x901C => 0x3DAA00D6
  | 0x9020 => 0x0000FFC0
  | 0x9028 => 0x000040C0
  | 0x9048 => 0x00800F80
  | 0xA000 => 0x00000440
  | 0xA004 => 0x0B900002
  | 0xA008 => 0x40102080
  | 0xA00C => 0x0000010C
  | 0xA010 => 0x00000A04
  | 0xB000 => 0x00000006
  | 0xB00C => 0x00000025
  | 0xB010 => 0x144D4000
  | 0xB014 => 0x000000FA
  | 0xB020 => 0x000032CE
  | 0xB024 => 0x000A1402
  | 0xC000 => 0x00000004
  | 0xC004 => 0x0000ACE1
  | 0xE004 => 0x00000840
  | 0xF004 => 0x00000014
  | 0xF008 => 0x09C40014
  | 0xF100 => 0x00003C00
  | 0xF104 => 0x00000032
  | 0xF108 => 0x00A00040
  | 0xF110 => 0x00007FFF
  | 0x10024 => 0x00000096
  | 0x10030 => 0x0000001E
  | 0x12004 => 0x0F050064
  | 0x12018 => 0x0000640A
  | 0x1300C => 0x00000001
  | 0x13040 => 0x00000704
  | 0x15004 => 0x37000001
  | 0x1500C => 0x000009C4
  | _ => arrayReset o

/-- The stored word of a register. -/
def Device.reg (d : Device) (o : Nat) : Word32 := sget regReset d.regs o

/-- Field [hi:lo] of a stored register. -/
def Device.regF (d : Device) (o hi lo : Nat) : Nat := fld (d.reg o) hi lo

/-- Store a register word. -/
def setReg (o : Nat) (v : Word32) (d : Device) : Device := { d with regs := sset regReset o v d.regs }

/-- Store field [hi:lo] of a register. -/
def setRegF (o hi lo v : Nat) (d : Device) : Device := setReg o (wput (d.reg o) hi lo v) d

/-- Add `n` to a 32-bit statistics counter, which saturates at 0xFFFF_FFFF (R319, R369 and the like). -/
def countN (o n : Nat) (d : Device) : Device := setReg o (BitVec.ofNat 32 (min 0xFFFFFFFF ((d.reg o).toNat + n))) d

/-- Count one event in a 32-bit statistics counter. -/
def count (o : Nat) (d : Device) : Device := countN o 1 d

/-- Count one event in a counter field [hi:lo], which saturates. -/
def countF (o hi lo : Nat) (d : Device) : Device :=
  setRegF o hi lo (min (2 ^ (hi + 1 - lo) - 1) (d.regF o hi lo + 1)) d

/-- Set bits of a latched register. -/
def latchReg (o : Nat) (bits : Word32) (d : Device) : Device := setReg o (d.reg o ||| bits) d

/-! ### MSI-X (R311, R312, R356) -/

/-- A message of vector `v` can leave: the vector is not masked, the link is up and Bus Master Enable set (R306, R311; log
entry 13). -/
def msixOpen (d : Device) (v : Nat) : Bool :=
  d.hif.linkUp && d.hif.bme && !(wbit (d.reg (0x1800 + 16 * v + 12)) 0)

/-- Signal vector `v`: send its message, or set its pending bit (R311). -/
def msixSignal (v : Nat) (d : Device) : Device :=
  if msixOpen d v then { d with bus := { d.bus with out := .msix v :: d.bus.out } }
  else { d with bus := { d.bus with pba := d.bus.pba ||| BitVec.ofNat 32 (2 ^ v) } }

/-- Send the message of a pending vector that can now leave. -/
def msixFlush1 (v : Nat) (d : Device) : Device :=
  if d.bus.pba.getLsbD v && msixOpen d v then
    { d with bus := { d.bus with out := .msix v :: d.bus.out, pba := d.bus.pba &&& ~~~ (BitVec.ofNat 32 (2 ^ v)) } }
  else d

/-- Send every pending message that can now leave, lowest vector first. -/
def msixFlush (d : Device) : Device := (List.range 32).foldl (fun d v => msixFlush1 v d) d

/-! ### Interrupt controller (R347 to R364) -/

/-- The state sources of Tables 13-5 and 13-6; every other source is an event source (R348, R365). -/
def isStateSrc (s : Nat) : Bool := [26, 144, 145, 146, 147, 153, 157, 169, 170, 171, 172, 173, 187].contains s

/-- The AON sources of Tables 13-5 and 13-6 and R365. -/
def isAonSrc (s : Nat) : Bool :=
  [11, 12, 20, 21, 22, 129, 130, 131, 144, 145, 146, 147, 148, 149, 152, 153, 157, 162, 166, 167, 168, 169, 170, 171, 172,
    173].contains s

/-- Reset configuration of a source (R360, Table 13-2). -/
def srcDefault (s : Nat) : Src :=
  { target := if s ≤ 15 || s = 19 then 2 else if 32 ≤ s && s ≤ 79 then 1 else 0
    sense := if isStateSrc s then 0 else 2 }

/-- Source `s` of the ICU. -/
def Device.src (d : Device) (s : Nat) : Src := sget srcDefault d.icu.srcs s

/-- Change source `s`. -/
def updSrc (s : Nat) (f : Src → Src) (d : Device) : Device :=
  { d with icu := { d.icu with srcs := supd srcDefault s f d.icu.srcs } }

/-- One detection: pending is set and the counter counts, to 255 (R349, R351). -/
def srcDetect (x : Src) : Src := { x with pending := true, counter := min 255 (x.counter + 1) }

/-- Whether a change of level from `a` to `b` is one that the sense mode detects and counts (Table 13-1). -/
def senseEdge (sense : Nat) (a b : Bool) : Bool :=
  if sense = 0 || sense = 2 then !a && b
  else if sense = 1 || sense = 3 then a && !b
  else a != b

/-- A state source's level becomes `v` (Table 13-1, R350); a source no longer pending is no longer forwarded. -/
def srcLevel (v : Bool) (x : Src) : Src :=
  let e := senseEdge x.sense x.level v
  let y := if e then { x with counter := min 255 (x.counter + 1) } else x
  if x.sense = 0 then { y with level := v, pending := v, forwarded := x.forwarded && (x.active || v) }
  else if x.sense = 1 then { y with level := v, pending := !v, forwarded := x.forwarded && (x.active || !v) }
  else { y with level := v, pending := x.pending || e }

/-- The enabled wake slot that names source `s` (R362). -/
def slotOf (d : Device) (s : Nat) : Option WakeSlot :=
  (d.icu.slots.map Prod.snd).find? fun w => w.en && w.source = s

/-- The target that serves a source: its own, or its slot's forwarding target once forwarded (R363); 3 while it waits to be
forwarded. -/
def servedBy (d : Device) (s : Nat) (x : Src) : Nat :=
  if x.target = 3 then (if x.forwarded then ((slotOf d s).map (·.fwd)).getD 3 else 3) else x.target

/-- Threshold of a target in force. -/
def thresholdOf (d : Device) (t : Nat) : Nat := sget (fun _ => 0) d.icu.thresholdNow t

/-- A source that target `t` could receive now (R353). -/
def deliverableTo (d : Device) (t s : Nat) (x : Src) : Bool :=
  x.pending && !x.maskedNow && !x.active && servedBy d s x = t && x.priority > thresholdOf d t && x.priority > 0

/-- Order of delivery: higher priority first, on a tie the lower source number (R353). -/
def goesBefore (a b : Nat × Src) : Bool :=
  a.2.priority > b.2.priority || (a.2.priority = b.2.priority && a.1 < b.1)

/-- The first of a list of sources under the order of R353. -/
def firstSrc : List (Nat × Src) → Option (Nat × Src)
  | [] => none
  | a :: l => match firstSrc l with
    | none => some a
    | some b => if goesBefore b a then some b else some a

/-- The first deliverable source of target `t`. -/
def firstDeliverable (d : Device) (t : Nat) : Option (Nat × Src) :=
  firstSrc (d.icu.srcs.filter fun p => deliverableTo d t p.1 p.2)

/-- The launch of a delivery while a newly written mask or raised threshold is not yet in force counts (R357); a source of target 3
counts when it is forwarded. -/
def lateCount (t : Nat) (x : Src) (d : Device) : Device :=
  if x.target = 3 then d
  else if x.masked || (x.priority ≤ sget (fun _ => 0) d.icu.threshold t) then count 0x4540 d else d

/-- Forward every source of target 3 that has become deliverable (R363). -/
def forwardAll (d : Device) : Device :=
  (d.icu.srcs.filter fun p => p.2.target = 3 && p.2.pending && !p.2.maskedNow && !p.2.active && !p.2.forwarded
      && p.2.priority > 0 && (slotOf d p.1).isSome).foldl
    (fun d p => updSrc p.1 (fun x => { x with forwarded := true }) (if p.2.masked then count 0x4540 d else d)) d

/-- Launch the delivery of one T2 source: active first, then the message (R356). -/
def launchHost (s : Nat) (d : Device) : Device :=
  let x := d.src s
  msixSignal x.vector (lateCount 2 x (updSrc s (fun x => { x with active := true }) d))

/-- Launch every deliverable T2 source in order, at most `n`. -/
def hostDeliver : Nat → Device → Device
  | 0, d => d
  | n + 1, d => match firstDeliverable d 2 with
    | none => d
    | some (s, _) => hostDeliver n (launchHost s d)

/-- Forward and deliver what can be delivered (R353, R356, R363); at retention the ICU evaluates nothing (R364). -/
def deliver (d : Device) : Device :=
  if d.icu.retention then d else
    let d := forwardAll d
    hostDeliver d.icu.srcs.length d

/-- An event of source `s` occurs: it is detected, or latched at retention (R348, R364). -/
def raise (s : Nat) (d : Device) : Device :=
  if d.icu.retention then { d with icu := { d.icu with latched := d.icu.latched ++ [(s, none)] } }
  else deliver (updSrc s srcDetect d)

/-- The raw level of state source `s` becomes `v`. -/
def setLevel (s : Nat) (v : Bool) (d : Device) : Device :=
  if d.icu.retention then { d with icu := { d.icu with latched := d.icu.latched ++ [(s, some v)] } }
  else if (d.src s).level = v then d
  else deliver (updSrc s (srcLevel v) d)

/-- Evaluate one latched detection (R364). -/
def unlatch (p : Nat × Option Bool) (d : Device) : Device :=
  match p.2 with
  | none => updSrc p.1 srcDetect d
  | some v => updSrc p.1 (srcLevel v) d

/-- The core leaves retention: the ICU evaluates everything latched, in order (R364). -/
def leaveRetention (d : Device) : Device :=
  if d.icu.retention then
    let l := d.icu.latched
    let d := { d with icu := { d.icu with retention := false, latched := [], quietSince := d.now } }
    deliver (l.foldl (fun d p => unlatch p d) d)
  else d

/-- A mask or threshold change comes into force (R357). -/
def applyChange (c : MaskChange) (d : Device) : Device :=
  match c with
  | .mask s m => updSrc s (fun x => { x with maskedNow := m }) d
  | .threshold t l => { d with icu := { d.icu with thresholdNow := sset (fun _ => 0) t l d.icu.thresholdNow } }

/-- Every change that is due by now comes into force, in the order of acceptance (R357). -/
def settleIcu (d : Device) : Device :=
  let due := d.icu.changes.filter fun c => decide (c.1 ≤ d.now)
  if due.isEmpty then d else
    let d := { d with icu := { d.icu with changes := d.icu.changes.filter fun c => !decide (c.1 ≤ d.now) } }
    deliver (due.foldl (fun d c => applyChange c.2 d) d)

/-! ### Excursions and the policy-override log (R43 to R52) -/

/-- Loop `l` is on an excursion (GEN.OVR_ACTIVE, R46). -/
def onExcursion (d : Device) (l : Nat) : Bool := d.exc.active.any fun p => p.1 = l

/-- Loop `l` is on an excursion for invariant `i` (1 to 4 for (a) to (d)). -/
def onExcursionFor (d : Device) (l i : Nat) : Bool := d.exc.active.contains (l, i)

/-- How far outside its bounds an equaliser tap value of an EXTREME word lies, in Q2.9 steps (R118). -/
def tapDistance (d : Device) (w : Word32) : Int :=
  let b := d.reg (0xA140 + 4 * fld w 19 16)
  let v := signedOf 12 (fld w 11 0)
  max (signedOf 12 (fld b 11 0) - v) (v - signedOf 12 (fld b 27 16))

/-- EXTREME after the value `v` is reached, where `w` was the furthest (R51 and the loops' own orders: R118, R127, R177, R305). -/
def furthest (d : Device) (l : Nat) (w v : Word32) : Word32 :=
  if l = 1 || l = 5 then (if v.toNat > w.toNat then v else w)
  else if l = 3 then (if v.toNat > w.toNat then v else w)
  else if l = 4 then (if tapDistance d v > tapDistance d w then v else w)
  else if l = 6 then v
  else if v.toInt.natAbs > w.toInt.natAbs then v else w

/-- An open entry for loop and invariant. -/
def isEntry (l i : Nat) (e : OvrEntry) : Bool := e.loop = l && e.invariant = i

/-- Enter an excursion in the log: it reopens the newest entry of the pair within 25,000,000 ticks of its end, or opens a new one
and discards the oldest of 64 (R52, R510). -/
def logExcursion (l i : Nat) (v : Word32) (d : Device) : Device :=
  match d.exc.log.find? (isEntry l i) with
  | some e =>
    if !e.isOpen && d.now ≤ e.endTick + ticksPerS then
      let e' := { e with isOpen := true, endTick := 0, count := min 0xFFFFFFFF (e.count + 1), extreme := furthest d l e.extreme v }
      { d with exc := { d.exc with log := updateFirst (isEntry l i) (fun _ => e') d.exc.log } }
    else addEntry
  | none => addEntry
where
  addEntry : Device :=
    let e : OvrEntry := { loop := l, invariant := i, isOpen := true, primer := d.gen.mode = .primer, count := 1,
                          startTick := d.now, endTick := 0, extreme := v }
    { d with exc := { d.exc with log := (e :: d.exc.log).take 64,
                                 lost := d.exc.lost + (if d.exc.log.length < 64 then 0 else 1) } }

/-- Every command in flight is affected, and every record group still open, a follower's copy included (R47, R274). -/
def markOverride (d : Device) : Device :=
  { d with
      hif := { d.hif with
        cmds := d.hif.cmds.map fun c => { c with ovr := true }
        ready := d.hif.ready.map fun c => { c with ovr := true } }
      rcl := { d.rcl with
        groups := d.rcl.groups.map fun g => if g.st = .open || g.st = .verified then { g with peerOvr := true } else g } }

/-- Loop `l` leaves its bounds for invariant `i` with value `v`: an excursion begins, unless one is under way (R43, R46, R51). -/
def excBegin (l i : Nat) (v : Word32) (d : Device) : Device :=
  if onExcursionFor d l i then d else
    let d := logExcursion l i v { d with exc := { d.exc with count := min 0xFFFFFFFF (d.exc.count + 1) } }
    raise 19 (markOverride { d with exc := { d.exc with active := (l, i) :: d.exc.active } })

/-- The value `v` is reached on the excursion (R51). -/
def excReach (l i : Nat) (v : Word32) (d : Device) : Device :=
  let f (e : OvrEntry) : OvrEntry := if e.isOpen then { e with extreme := furthest d l e.extreme v } else e
  { d with exc := { d.exc with log := updateFirst (isEntry l i) f d.exc.log } }

/-- An entry that the management pair is to write to the event log ring; hardware alone keeps the logs in Primer (R51, R420, R430). -/
def logLater (tick origin source code : Nat) (detail : List Byte) (d : Device) : Device :=
  if d.gen.mode = .primer then d
  else { d with evt := { d.evt with queue := d.evt.queue ++ [⟨tick, origin, source, code, detail⟩] } }

/-- DETAIL of the copy of a policy-override entry: LOOP_ID, INVARIANT, COUNT and EXTREME (Table 16-5). -/
def ovrDetail (e : OvrEntry) : List Byte :=
  leBytes 1 e.loop ++ leBytes 1 e.invariant ++ leBytes 2 0 ++ leBytes 4 e.count ++ leBytes 4 e.extreme.toNat

/-- The closed entry of a pair is copied to the event log (R51, Table 16-5). -/
def copyClosed (l i : Nat) (d : Device) : Device :=
  match d.exc.log.find? (isEntry l i) with
  | some e => if e.isOpen then d else logLater e.endTick 3 19 0 (ovrDetail e) d
  | none => d

/-- The excursion ends: the loop has reached its bounds, and its entry closes and is copied (R48, R51). -/
def excEnd (l i : Nat) (d : Device) : Device :=
  if onExcursionFor d l i then
    copyClosed l i { d with exc := { d.exc with
      active := d.exc.active.filter (fun p => p != (l, i))
      ops := if i = 3 then d.exc.ops.filter (fun p => p.1 != l) else d.exc.ops
      log := updateFirst (isEntry l i) (fun e => { e with isOpen := false, endTick := d.now }) d.exc.log } }
  else d

/-- Operation `op` requires the excursion of loop `l` (Table 02-6, (c)). -/
def excFor (l op : Nat) (d : Device) : Device :=
  if d.exc.ops.contains (l, op) then d else { d with exc := { d.exc with ops := d.exc.ops ++ [(l, op)] } }

/-- The value `v` with which an excursion of loop `l` for invariant `i` begins or goes on. -/
def excTake (l i : Nat) (v : Word32) (d : Device) : Device := excReach l i v (excBegin l i v d)

/-- A signed value as a 32-bit word. -/
def wordOfInt (v : Int) : Word32 := BitVec.ofInt 32 v

end Sys2Proof.Machine
end

