-- ==== Sys2Proof/Machine/Profile.lean ====
section
/-!
DEFINITION. Motion profiles of the sled (R93 to R95, R100, R102): planning a jerk-limited motion to a speed or to a position, the
emergency ramp, and where a planned motion stands at a half tick. Lengths are in units of 8·10⁻²⁴ m and times in half ticks of 20 ns, in
which the limits of Table 04-4 are whole numbers (log entry 82).
-/

namespace Sys2Proof.Machine

/-- One microstep, 2.34375 µm (R86). -/
def unitsPerStep : Int := 292968750000000000

/-- A speed in 0.1 mm/s. -/
def speedUnits (v : Nat) : Int := (v : Int) * 250000000000

/-- An acceleration in mm/s². -/
def accelUnits (a : Nat) : Int := (a : Int) * 50000

/-- Position, speed and acceleration. -/
abbrev Kin := Int × Int × Int

/-- The motion after `t` half ticks at jerk `j`. -/
def kinAfter (j : Int) (t : Nat) (k : Kin) : Kin :=
  (k.1 + k.2.1 * t + k.2.2 * t * t / 2 + j * t * t * t / 6, k.2.1 + k.2.2 * t + j * t * t / 2, k.2.2 + j * t)

/-- The motion at the end of stretches of constant jerk. -/
def kinThrough : List (Int × Nat) → Kin → Kin
  | [], k => k
  | (j, t) :: l, k => kinThrough l (kinAfter j t k)

/-- The motion `t` half ticks into stretches of constant jerk, or none once they are over, with the time left after them. -/
def kinWithin : List (Int × Nat) → Nat → Kin → Option Kin
  | [], _, _ => none
  | (j, n) :: l, t, k => if t < n then some (kinAfter j t k) else kinWithin l (t - n) (kinAfter j n k)

/-- Length of stretches of constant jerk. -/
def segsTime (l : List (Int × Nat)) : Nat := (l.map Prod.snd).foldl (· + ·) 0

/-- Integer square root of a number below 2⁸⁰, bit by bit. -/
def sqrtBits : Nat → Nat → Nat → Nat
  | 0, _, r => r
  | b + 1, n, r => sqrtBits b n (if (r + 2 ^ b) * (r + 2 ^ b) ≤ n then r + 2 ^ b else r)

/-- The quickest change of speed from `v` at acceleration `a` to `w` at acceleration 0, within jerk `j` and acceleration `amax` (R93). -/
def toSpeed (j amax v a w : Int) : List (Int × Nat) :=
  if j ≤ 0 || amax ≤ 0 then [] else
    let s : Int := if v + a * a.natAbs / (2 * j) ≤ w then 1 else -1
    let dv := s * (w - v)
    let b := s * a
    let p : Int := min amax (sqrtBits 40 (j * dv + b * b / 2).toNat 0 : Nat)
    let mid := dv - (p * p - b * b) / (2 * j) - p * p / (2 * j)
    [(s * j, ((p - b) / j).toNat), (0, if p = 0 then 0 else (mid / p).toNat), (-s * j, (p / j).toNat)]

/-- How far a change of speed to `w` and from there to rest carries. -/
def reachOf (j amax v a w : Int) : Int :=
  (kinThrough (toSpeed j amax v a w) (0, v, a)).1 + (kinThrough (toSpeed j amax w 0 0) (0, w, 0)).1

/-- The peak speed between `lo` and `hi` whose profile ends at distance `d`, by halving. -/
def peakSpeed (j amax v a d : Int) : Nat → Int → Int → Int
  | 0, lo, _ => lo
  | n + 1, lo, hi =>
    let m := (lo + hi) / 2
    if reachOf j amax v a m ≤ d then peakSpeed j amax v a d n m hi else peakSpeed j amax v a d n lo m

/-- The stretches of the jerk-limited profile over distance `d` (R93, R94): to the peak speed, at it, and to rest. -/
def profileSegs (j amax vmax v a d : Int) : List (Int × Nat) :=
  let top := reachOf j amax v a vmax
  let bottom := reachOf j amax v a (-vmax)
  if vmax ≤ 0 then []
  else if top ≤ d then toSpeed j amax v a vmax ++ [(0, ((d - top) / vmax).toNat)] ++ toSpeed j amax vmax 0 0
  else if d ≤ bottom then toSpeed j amax v a (-vmax) ++ [(0, ((bottom - d) / vmax).toNat)] ++ toSpeed j amax (-vmax) 0 0
  else
    let w := peakSpeed j amax v a d 52 (-vmax) vmax
    toSpeed j amax v a w ++ toSpeed j amax w 0 0

/-- The stretch of a stop at constant deceleration `e`, without a jerk limit (R95). -/
def rampTime (e v : Int) : Nat := if e ≤ 0 then 0 else (v.natAbs / e.toNat)

/-- Where a plan stands at half tick `t`. -/
def planAt (p : Plan) (t : Nat) : Kin :=
  let k0 : Kin := (p.x, p.v, p.a)
  match kinWithin p.segs (t - p.start) k0 with
  | some k => k
  | none => match p.rest with
    | some x => (x, 0, 0)
    | none =>
      let n := segsTime p.segs
      ((kinThrough p.segs k0).1 + p.cruise * ((t - p.start - n : Nat) : Int), p.cruise, 0)

/-- The plan has come to rest by half tick `t`. -/
def planEnded (p : Plan) (t : Nat) : Bool := p.rest.isSome && decide (p.start + segsTime p.segs ≤ t)

end Sys2Proof.Machine
end

