-- ==== Sys2Proof/Machine/Flags.lean ====
section
/-!
DEFINITION. The status codes of completions (Table 12-5), the flags of a completion (R330), and the codes that modes, rings and
states read as.
-/

namespace Sys2Proof.Machine

/-- OK. -/
def stOk : Nat := 0x0000
/-- OK_RECOVERED. -/
def stRecovered : Nat := 0x0001
/-- OK_POISONED. -/
def stPoisoned : Nat := 0x0002
/-- INVALID_OPCODE. -/
def stInvalidOpcode : Nat := 0x0101
/-- INVALID_FIELD. -/
def stInvalidField : Nat := 0x0102
/-- OWNER_MISMATCH. -/
def stOwnerMismatch : Nat := 0x0103
/-- STREAM_CLOSED. -/
def stStreamClosed : Nat := 0x0104
/-- NOT_YET. -/
def stNotYet : Nat := 0x0105
/-- MEDIUM_FULL. -/
def stMediumFull : Nat := 0x0201
/-- RELOCATION_EXHAUSTED. -/
def stRelocExhausted : Nat := 0x0202
/-- UNCORRECTABLE. -/
def stUncorrectable : Nat := 0x0203
/-- KEY_RETIRED. -/
def stKeyRetired : Nat := 0x0204
/-- ABORTED_POWER. -/
def stAbortedPower : Nat := 0x0301
/-- ABORTED_MODE. -/
def stAbortedMode : Nat := 0x0302
/-- NOT_HOME_STREAM. -/
def stNotHome : Nat := 0x0303
/-- INTERNAL_FAULT. -/
def stInternal : Nat := 0x0401

/-- A status of class 0x01 to 0x04 is a command error (Table 12-8, page 0x01). -/
def isError (st : Nat) : Bool := 0x0100 ≤ st && st < 0x0500

/-- Byte 11 of a completion: SINGLE_COPY, POLICY_OVERRIDE_SEEN, POISON_PRESENT and PHASE (Table 11-2). -/
def flagByte (single ovr poison phase : Bool) : Nat := b2n single + 2 * b2n ovr + 4 * b2n poison + 128 * b2n phase

/-- The code of a mode, as in MODE_NOTE (Table 10-3, Table 12-3). -/
def modeCode : Mode → Nat
  | .topcoat => 0
  | .undercoat => 1
  | .primer => 2
  | .dustSheet => 3

/-- Stream STATE as stored (Table 07-6). -/
def streamCode : StreamState → Nat
  | .free => 0
  | .open => 1
  | .closed => 2
  | .forked => 3

/-- Stream STATE from its code. -/
def streamOfCode (n : Nat) : StreamState :=
  match n % 4 with
  | 0 => .free
  | 1 => .open
  | 2 => .closed
  | _ => .forked

/-- Coherence state as CCH.TABLE_STATE reads it (Table 09-8). -/
def cohCode : Coh → Nat
  | .i => 0
  | .s => 1
  | .e => 2
  | .m => 3

/-- Ring STATE of SQ_STATUS and CQ_STATUS (Table 11-8). -/
def ringCode : RingState → Nat
  | .disabled => 0
  | .running => 1
  | .error => 2

/-- A mark: stream [63:55], sequence [47:0] (Table 00-3). -/
def markOf (stream seq : Nat) : Nat := stream * 2 ^ 55 + seq

/-- Stream of a mark. -/
def markStream (m : Nat) : Nat := m / 2 ^ 55 % 512

/-- Sequence of a mark. -/
def markSeq (m : Nat) : Nat := m % 2 ^ 48

end Sys2Proof.Machine
end

