-- ==== Sys2Proof/Machine/Operands.lean ====
section
/-!
DEFINITION. The fields of a submission entry (Tables 11-1, 12-1, 12-2), which of its bytes are reserved, and the byte layouts of a
completion and of a scatter list.
-/

namespace Sys2Proof.Machine

/-- OPCODE. -/
def eOpcode (e : List Byte) : Nat := leAt e 0 1
/-- SGL. -/
def eSgl (e : List Byte) : Bool := (leAt e 1 1).testBit 0
/-- NO_COALESCE. -/
def eNoCoalesce (e : List Byte) : Bool := (leAt e 1 1).testBit 1
/-- CID. -/
def eCid (e : List Byte) : Nat := leAt e 2 2
/-- DPTR. -/
def eDptr (e : List Byte) : Nat := leAt e 8 8
/-- DLEN. -/
def eDlen (e : List Byte) : Nat := leAt e 16 4
/-- SGL_COUNT. -/
def eSglCount (e : List Byte) : Nat := leAt e 20 2
/-- STREAM of APPEND, HOLD, RELEASE_HOLD, STREAM_OPEN and STREAM_CLOSE. -/
def eStream (e : List Byte) : Nat := leAt e 24 2
/-- MARK of READ_MARK, FIRST of READ_RANGE. -/
def eMark (e : List Byte) : Nat := leAt e 24 8
/-- OFFSET of READ_MARK, BOOT_STAGE and BOOT_READ. -/
def eOffset (e : List Byte) : Nat := leAt e 32 4
/-- LAST of READ_RANGE and HOLD. -/
def eLast (e : List Byte) : Nat := leAt e 32 6
/-- FIRST of HOLD. -/
def eFirst (e : List Byte) : Nat := leAt e 26 6
/-- SLOT, PAGE, FID, REQUEST, FUNC: byte 24. -/
def eSel (e : List Byte) : Nat := leAt e 24 1
/-- Byte 25: LAST of BOOT_STAGE, FLAGS of OWNER_CREATE, TWIN of MODE_REQUEST. -/
def eByte25 (e : List Byte) : Nat := leAt e 25 1
/-- QUOTA of OWNER_CREATE. -/
def eQuota (e : List Byte) : Nat := leAt e 26 2
/-- HOME of STREAM_OPEN, FREE of STREAM_CLOSE. -/
def eByte26 (e : List Byte) : Nat := leAt e 26 1
/-- SETTLE of STREAM_OPEN. -/
def eSettle (e : List Byte) : Bool := (leAt e 27 1).testBit 0
/-- OFFSET of GET_LOG, CODE of MODE_REQUEST: bytes 28 to 31. -/
def eWord28 (e : List Byte) : Nat := leAt e 28 4
/-- VALUE[i] of SET_FEATURE. -/
def eValue (e : List Byte) (i : Nat) : Word32 := BitVec.ofNat 32 (leAt e (28 + 4 * i) 4)
/-- POINT_PTR of OWNER_EXPORT_KEY. -/
def ePointPtr (e : List Byte) : Nat := leAt e 32 8
/-- PSA of READ_HEADER. -/
def ePsa (e : List Byte) : Nat := leAt e 28 6
/-- SOURCE of TRIGGER. -/
def eSource (e : List Byte) : Nat := leAt e 28 1

/-- The way a command's data move (Table 12-1). -/
inductive DataWay where
  | none | toDevice | toHost
  deriving DecidableEq, Repr

/-- A row of Table 12-1: data direction, DLEN range and step, and whether the command needs the medium. -/
structure OpRow where
  way : DataWay
  lo : Nat
  hi : Nat
  step : Nat
  medium : Bool
  deriving DecidableEq, Repr

/-- Table 12-1; a DIAG depends on its function (byte 24). None is an unknown opcode. -/
def opRow (op sel : Nat) : Option OpRow :=
  match op with
  | 0x01 => some ⟨.toDevice, 64, 1048576, 1, true⟩
  | 0x02 => some ⟨.toHost, 1, 196608, 1, true⟩
  | 0x03 => some ⟨.toHost, 1, 196608, 1, true⟩
  | 0x04 => some ⟨.none, 0, 0, 1, false⟩
  | 0x05 => some ⟨.none, 0, 0, 1, false⟩
  | 0x10 => some ⟨.toDevice, 1, 16777216, 1, true⟩
  | 0x11 => some ⟨.none, 0, 0, 1, true⟩
  | 0x12 => some ⟨.toHost, 1, 196608, 1, true⟩
  | 0x20 => some ⟨.none, 0, 0, 1, true⟩
  | 0x21 => some ⟨.none, 0, 0, 1, true⟩
  | 0x22 => some ⟨.toHost, 136, 136, 1, false⟩
  | 0x30 => some ⟨.none, 0, 0, 1, false⟩
  | 0x31 => some ⟨.none, 0, 0, 1, false⟩
  | 0x40 => some ⟨.toHost, 4096, 4096, 1, false⟩
  | 0x41 => some ⟨.toHost, 4, 65536, 4, false⟩
  | 0x42 => some ⟨.none, 0, 0, 1, false⟩
  | 0x43 => some ⟨.toHost, 16, 16, 1, false⟩
  | 0x50 => some ⟨.none, 0, 0, 1, true⟩
  | 0x51 => some ⟨.none, 0, 0, 1, true⟩
  | 0x60 => some (if sel = 2 then ⟨.toHost, 32, 32, 1, true⟩ else ⟨.none, 0, 0, 1, false⟩)
  | _ => none

/-- The admin opcodes (R322). -/
def isAdmin (op : Nat) : Bool := [0x20, 0x21, 0x22, 0x40, 0x41, 0x42, 0x43, 0x50, 0x51, 0x60].contains op

/-- An opcode that names a stream in bytes 24 to 25 or in a mark. -/
def namesStream (op : Nat) : Bool := [0x01, 0x02, 0x03, 0x04, 0x05, 0x30, 0x31].contains op

/-- The stream that an entry names. -/
def entryStream (e : List Byte) : Nat :=
  if eOpcode e = 0x02 || eOpcode e = 0x03 then markStream (eMark e) else eStream e % 512

/-- PARAM bytes that an opcode names, as (first, last) pairs (Table 12-2). -/
def paramBytes (op sel : Nat) : List (Nat × Nat) :=
  match op with
  | 0x01 => [(24, 25)]
  | 0x02 => [(24, 35)]
  | 0x03 => [(24, 37)]
  | 0x04 => [(24, 37)]
  | 0x05 => [(24, 25)]
  | 0x10 => [(24, 25), (32, 35)]
  | 0x11 => [(24, 24)]
  | 0x12 => [(32, 35)]
  | 0x20 => [(24, 27)]
  | 0x21 => [(24, 24)]
  | 0x22 => [(24, 24), (32, 39)]
  | 0x30 => [(24, 27)]
  | 0x31 => [(24, 26)]
  | 0x41 => [(24, 24), (28, 31)]
  | 0x42 => [(24, 24), (28, 43)]
  | 0x43 => [(24, 24)]
  | 0x50 => if sel = 3 then [(24, 25)] else if sel = 5 then [(24, 24), (28, 31)] else [(24, 24)]
  | 0x60 => if sel = 2 then [(24, 24), (28, 33)] else if sel = 3 then [(24, 24), (28, 28)] else [(24, 24)]
  | _ => []

/-- Every byte of the entry that its opcode leaves unnamed is 0 (R11). -/
def reservedBytesZero (e : List Byte) : Bool :=
  let named := paramBytes (eOpcode e) (eSel e)
  (slice 4 4 e ++ slice 22 2 e).all (· == 0) &&
  (List.range 40).all fun i =>
    (named.any fun p => p.1 ≤ i + 24 && i + 24 ≤ p.2) || (e.getD (i + 24) 0) == 0

/-- Reserved bits of the named fields are 0 (Table 12-2). -/
def reservedBitsZero (e : List Byte) : Bool :=
  leAt e 1 1 < 4 &&
  (match eOpcode e with
   | 0x01 | 0x04 | 0x05 => eStream e < 512
   | 0x02 | 0x03 => eMark e / 2 ^ 48 % 128 = 0
   | 0x10 => eByte25 e < 2
   | 0x20 => eByte25 e < 8
   | 0x30 => eStream e < 512 && leAt e 27 1 < 2
   | 0x31 => eStream e < 512 && eByte26 e < 2
   | _ => true)

/-- No field holds an encoding that the manual calls reserved: REQUEST, FUNC, FID, PAGE, HOME (R11, R336, R337, R339). -/
def reservedEncodings (e : List Byte) : Bool :=
  match eOpcode e with
  | 0x30 => [0, 1, 0xFF].contains (eByte26 e)
  | 0x41 => 1 ≤ eSel e && eSel e ≤ 0x0C
  | 0x42 | 0x43 => 1 ≤ eSel e && eSel e ≤ 8
  | 0x50 => 1 ≤ eSel e && eSel e ≤ 5
  | 0x60 => 1 ≤ eSel e && eSel e ≤ 3
  | _ => true

/-- The data fields agree with one another: DPTR is 0 when DLEN is, and SGL_COUNT is 1 to 4,096 with SGL and 0 without
(Table 11-1); a scatter list is 16-byte aligned (R296). -/
def dataFieldsOk (e : List Byte) : Bool :=
  eDlen e ≤ 16777216 &&
  (eDlen e != 0 || eDptr e = 0) &&
  (if eSgl e then 1 ≤ eSglCount e && eSglCount e ≤ 4096 && eDptr e % 16 = 0 && eDlen e != 0 else eSglCount e = 0)

/-- The elements of a scatter list, or none when an element breaks R296. -/
def scatterList : Nat → List Byte → Option (List (Nat × Nat))
  | 0, _ => some []
  | n + 1, bs =>
    let len := leAt bs 8 4
    if 1 ≤ len && len ≤ 16777216 && leAt bs 12 4 = 0 then
      (scatterList n (bs.drop 16)).map fun l => (leAt bs 0 8, len) :: l
    else none

/-- Lay `data` at data offset `off` into a list of host buffers, in list order (R296). -/
def scatterWrites : List (Nat × Nat) → Nat → List Byte → List HostWrite
  | [], _, _ => []
  | (a, n) :: l, off, data =>
    if n ≤ off then scatterWrites l (off - n) data
    else
      let here := data.take (n - off)
      if here.isEmpty then [] else .bytes (a + off) here :: scatterWrites l 0 (data.drop (n - off))

/-- The 16 bytes of a completion entry (Table 11-2). -/
def completionBytes (c : Completion) (sqHead : Nat) (phase : Bool) : List Byte :=
  leBytes 8 c.result.toNat ++ leBytes 2 sqHead ++ leBytes 1 c.sq
    ++ leBytes 1 (flagByte c.single c.ovr (c.status = stPoisoned) phase) ++ leBytes 2 c.cid ++ leBytes 2 c.status

end Sys2Proof.Machine
end

