-- ==== Sys2Proof/Machine/Completion.lean ====
section
/-!
DEFINITION. Commands in flight and their completions: forming a completion, the data a command delivers to host memory, the head of
a submission ring, and rings in error (R299, R302, R310, R315, R329, R330).
-/

namespace Sys2Proof.Machine

/-- The command in flight with number `tag`. -/
def Device.cmd (d : Device) (tag : Nat) : Option Cmd := d.hif.cmds.find? fun c => c.tag = tag

/-- Change the command `tag`. -/
def updCmd (tag : Nat) (f : Cmd → Cmd) (d : Device) : Device :=
  { d with hif := { d.hif with cmds := updateFirst (fun c => c.tag = tag) f d.hif.cmds } }

/-- The command `tag` has moved its data or changed state (R299). -/
def startCmd (tag : Nat) (d : Device) : Device := updCmd tag (fun c => { c with started := true }) d

/-- The command `tag` goes to phase `p`. -/
def setPhase (tag : Nat) (p : CmdPhase) (d : Device) : Device := updCmd tag (fun c => { c with phase := p }) d

/-- The mark that a command error is logged with: the one the entry names, else 0 (Table 12-8, page 0x01). -/
def entryMark (e : List Byte) : Nat :=
  if eOpcode e = 0x02 || eOpcode e = 0x03 then eMark e else 0

/-- The completion of a command (R310, R329, R330). -/
def completionOf (c : Cmd) (st result : Nat) (single : Bool) (mark : Nat) : Completion :=
  { tag := c.tag, sq := c.sq, cid := eCid c.entry, opcode := eOpcode c.entry, status := st,
    result := BitVec.ofNat 64 result, single := single, ovr := c.ovr, poison := st = stPoisoned,
    noCoalesce := eNoCoalesce c.entry, mark := mark }

/-- The read's taps are clamped back to their bounds (R118). -/
def clampTaps (d : Device) : List (BitVec 12) :=
  (List.range 15).map fun t =>
    let b := d.reg (0xA140 + 4 * t)
    BitVec.ofInt 12 (clampInt (signedOf 12 (fld b 11 0)) (signedOf 12 (fld b 27 16)) (d.rdc.taps.getD t 0).toInt)

/-- A read operation completes: the excursions taken for it end (R118, R127). -/
def readOver (d : Device) : Device :=
  let cs := d.rdc.clusters
  let d := if cs.any (·.held.isSome) then d else excEnd 3 3 d
  if onExcursion d 4 && !cs.any (fun c => !c.lifted.isEmpty) then excEnd 4 3 { d with rdc := { d.rdc with taps := clampTaps d } } else d

/-- The clusters read for a purpose leave the read channel, with their slots of the sample store. -/
def dropReads (p : ReadFor → Bool) (d : Device) : Device :=
  if d.rdc.clusters.any (fun c => p c.purpose) then
    let ending := d.rdc.clusters.filter fun c => p c.purpose
    let gone := ending.flatMap (·.psas)
    let out (f : Nat) : Bool := !gone.contains f
    let mine (id : Nat) : Bool := !ending.any fun c => c.id = id
    readOver { d with rdc := { d.rdc with
      clusters := d.rdc.clusters.filter fun c => !p c.purpose
      boundRaised := d.rdc.boundRaised.filter fun x => !p x
      deepQueue := d.rdc.deepQueue.filter fun x => mine x.1
      deepRun := d.rdc.deepRun.filter fun x => mine x.cluster
      store := d.rdc.store.filter fun x => out x.psa
      fifo := d.rdc.fifo.filter fun x => out x.psa
      part := d.rdc.part.filter fun x => match x.psa with | some f => out f | none => true
      line := d.rdc.line.map fun x => match x.psa with | some f => if out f then x else { x with psa := none } | none => x
      incoming := d.rdc.incoming.filter fun x => out x.1
      stalled := d.rdc.stalled && (d.rdc.resumeAt.filter out).isSome
      resumeAt := d.rdc.resumeAt.filter out } }
  else d

/-- Is the read for command `tag`? -/
def readsFor (tag : Nat) (p : ReadFor) : Bool :=
  match p with
  | .host t => t = tag
  | .boot t => t = tag
  | .find (.command t _) => t = tag
  | _ => false

/-- The command `tag` ends with a status, RESULT and SINGLE_COPY: its completion is ready, or after a reset it is discarded and
counted (R310, R315). -/
def finishWith (tag st result : Nat) (single : Bool) (mark : Nat) (d : Device) : Device :=
  match d.cmd tag with
  | none => d
  | some c =>
    if c.phase = .done then d
    else
    let d := dropReads (readsFor tag) d
    if c.discard then
      raise 9 (count 0x1034 { d with hif := { d.hif with cmds := d.hif.cmds.filter fun c => c.tag != tag } })
    else
      let d := setPhase tag .done d
      { d with hif := { d.hif with ready := d.hif.ready ++ [completionOf c st result single mark] } }

/-- The command `tag` ends with a status and RESULT 0. -/
def finish (tag st : Nat) (d : Device) : Device :=
  finishWith tag st 0 false ((d.cmd tag).elim 0 fun c => entryMark c.entry) d

/-- The command `tag` ends with OK and a RESULT. -/
def finishOk (tag result : Nat) (d : Device) : Device := finishWith tag stOk result false 0 d

/-- A command leaves the in-flight list without a completion (R315, R320). -/
def dropCmd (tag : Nat) (d : Device) : Device :=
  { d with hif := { d.hif with cmds := d.hif.cmds.filter fun c => c.tag != tag } }

/-- Data of command `tag` at data offset `off` go to host memory by DMA (R296). -/
def deliverData (tag off : Nat) (data : List Byte) (d : Device) : Device :=
  match d.cmd tag with
  | none => d
  | some c =>
    if c.discard then d
    else startCmd tag { d with bus := { d.bus with out := (scatterWrites c.sgl off data).reverse ++ d.bus.out } }

/-- A command waits: it has been fetched and has not started (R299). -/
def isWaiting (c : Cmd) : Bool := !c.started && c.phase != .done

/-- Submission ring `n`. -/
def Device.sq (d : Device) (n : Nat) : Sq := sget (fun _ => {}) d.hif.sqs n

/-- Completion ring `n`. -/
def Device.cq (d : Device) (n : Nat) : Cq := sget (fun _ => {}) d.hif.cqs n

/-- Change submission ring `n`. -/
def updSq (n : Nat) (f : Sq → Sq) (d : Device) : Device :=
  { d with hif := { d.hif with sqs := supd (fun _ => {}) n f d.hif.sqs } }

/-- Change completion ring `n`. -/
def updCq (n : Nat) (f : Cq → Cq) (d : Device) : Device :=
  { d with hif := { d.hif with cqs := supd (fun _ => {}) n f d.hif.cqs } }

/-- SQ_CFG.SIZE of ring `n`. -/
def sqSize (d : Device) (n : Nat) : Nat := d.regF (0x2008 + 0x20 * n) 12 0

/-- CQ_CFG.SIZE of ring `n`. -/
def cqSize (d : Device) (n : Nat) : Nat := d.regF (0x2108 + 0x20 * n) 12 0

/-- The index after `i` in a ring of `n` entries (R294). -/
def ringNext (n i : Nat) : Nat := if i + 1 < n then i + 1 else 0

/-- SQ_HEAD: the oldest waiting entry, or the next entry to be fetched (R299). -/
def sqHead (d : Device) (n : Nat) : Nat :=
  match d.hif.cmds.find? fun c => c.sq = n && isWaiting c && !c.discard with
  | some c => c.index
  | none => (d.sq n).fetch

/-- Commands in flight, those still running after a reset included (R308, R315). -/
def inFlight (d : Device) : Nat := d.hif.cmds.length

/-- Commands in flight of SQ1 to SQ7 (R308). -/
def inFlightIo (d : Device) : Nat := (d.hif.cmds.filter fun c => c.sq != 0).length

/-- A submission ring enters ERROR (R302, R313, R317, Table 11-5). -/
def sqError (n err : Nat) (d : Device) : Device := raise n (updSq n (fun q => { q with st := .error, err := err }) d)

/-- A completion ring enters ERROR (R302, R313, Table 11-5). -/
def cqError (n err : Nat) (d : Device) : Device := raise 8 (updCq n (fun q => { q with st := .error, err := err }) d)

/-- Does the command need the medium (Table 12-1)? -/
def needsMedium (c : Cmd) : Bool := ((opRow (eOpcode c.entry) (eSel c.entry)).map (·.medium)).getD false

/-- End every command in flight that satisfies `p` with a status (R57, R76, R145). -/
def finishAll (p : Cmd → Bool) (st : Nat) (d : Device) : Device :=
  ((d.hif.cmds.filter fun c => p c && c.phase != .done).map (·.tag)).foldl (fun d t => finish t st d) d

/-- Every command that needs the medium ends with INTERNAL_FAULT (R57, R76, R145). -/
def failMedium (d : Device) : Device := finishAll needsMedium stInternal d

end Sys2Proof.Machine
end

