-- ==== Sys2Proof/Machine/Guards.lean ====
section
/-!
DEFINITION. Who may write a register (R80, R314, R359, R477), the write-inhibit conditions of Table 06-5 with their effect on the
sector being written (R157 to R159), and the laser's levels (R142 to R145).
-/

namespace Sys2Proof.Machine

/-! ### Requesters -/

/-- A host write after the lock is ignored, counted, and raises source 10 (R314). -/
def lockedWrite (d : Device) : Device :=
  raise 10 { d with hif := { d.hif with lockedWrites := min 0xFFFFFFFF (d.hif.lockedWrites + 1) } }

/-- Registers that the sequencer's bus reaches: SRV, MPG, RDC, WRC, TICK_LO and TICK_HI, and its four ICU registers (R80). -/
def seqReaches (o : Nat) : Bool :=
  (0x8000 ≤ o && o < 0xC000) || o = 0x40 || o = 0x44 || o = 0x4510 || o = 0x4514 || o = 0x4518 || o = 0x451C

/-- Registers that the sequencer writes: in the read and write channels only OPC_CMD and OPC_POS (R80, R136, R161). -/
def seqWrites (o : Nat) : Bool := seqReaches o && (o < 0xA000 || 0xC000 ≤ o || o = 0xB0C0 || o = 0xB0C8)

/-- The pair runs: its transactions are compared and its delay registers used (R400). -/
def pairRuns (d : Device) : Bool := d.lsk.pair = .running

/-- The sequencer runs its code: RUN is set and it has not halted (R74, R81). -/
def seqUp (d : Device) : Bool := d.servo.seqRun && !d.servo.seqHalted

/-- `who` can make a bus access: neither a held management pair nor a sequencer in reset makes one (R81, R400, R403). -/
def masterUp (who : Requester) (d : Device) : Bool :=
  match who with
  | .host => true
  | .seq => seqUp d
  | .mgmt => pairRuns d

/-- A bus access by `who`. -/
def onBus (who : Requester) (f : Device → Device) (d : Device) : Device := if masterUp who d then f d else d

/-- A write by `who` to offset `o` has its effect `f` when the requester may make it; `hostOk` tells whether Table 18-1 lets the host
write the field before the lock (R80, R314, R477). -/
def gate (who : Requester) (o : Nat) (hostOk : Bool) (f : Device → Device) (d : Device) : Device :=
  match who with
  | .host => if d.hif.lock then lockedWrite d else if hostOk then f d else d
  | .seq => if seqWrites o then onBus .seq f d else d
  | .mgmt => onBus .mgmt f d

/-! ### Warnings and the stack reading (R371, R372, R391) -/

/-- A warning: VIN_WARN, or IN_PWRWARN de-energised while PWRWARN_EN is set (R372). -/
def warning (d : Device) : Bool := d.pwr.vinWarn || (wbit (d.reg 0xF004) 8 && !d.pwr.pwrwarnOn)

/-- HUS.CELL[i].VALID: readings of the last cycle kept, and neither tap of the cell open (R387, R388, R392). -/
def cellValid (d : Device) (i : Nat) : Bool := d.pwr.cellsValid && !d.pwr.openWire.getLsbD i && !d.pwr.openWire.getLsbD (i + 1)

/-- The sum of the six cell readings is the stack reading (R391). -/
def cellsOk (d : Device) : Bool :=
  (List.range 6).all (cellValid d) && !d.pwr.chainLost && !d.pwr.monFault && !d.pwr.mismatch

/-- The stack reading in mV (R391). -/
def stackReading (d : Device) : Nat := if cellsOk d then d.pwr.cells.foldl (· + ·) 0 else d.pwr.coarse

/-- Commands that need the medium may start: ARMED, or UNARMED on VIN with no warning, where nothing is written (R374 to R379). -/
def mediumOpen (d : Device) : Bool := d.pwr.st = .armed || (d.pwr.st = .unarmed && !warning d && !d.pwr.onHawk)

/-! ### Laser (R142 to R145) -/

/-- LASER_MAX in 0.1 mW. -/
def laserMax (d : Device) : Nat := d.regF 0xB004 9 0

/-- The laser may emit: LASER_EN, a LASER_MAX written, LASER_ILK high, no over-power trip (R143 to R145, Table 06-8). -/
def laserMayEmit (d : Device) : Bool :=
  wbit (d.reg 0xB000) 0 && d.wrc.maxWritten && d.wrc.ilk && !d.wrc.overTrip

/-- The laser is commanded to `level`, clamped to LASER_MAX (R143). -/
def laserLevel (level : Nat) (d : Device) : Device :=
  if laserMayEmit d then
    { d with wrc := { d.wrc with laserOn := true, level := min level (laserMax d) } }
  else { d with wrc := { d.wrc with laserOn := false, level := 0 } }

/-- The laser current goes to zero. -/
def laserOff (d : Device) : Device := { d with wrc := { d.wrc with laserOn := false, level := 0 } }

/-- Read power of the layer in focus (R142, LAYER_CFG). -/
def readPower (d : Device) : Nat := d.regF (0xB0A0 + 4 * d.servo.layer.getD 0) 9 0

/-- The laser at read power, when it is on (R157). -/
def laserToRead (d : Device) : Device := if d.wrc.laserOn then laserLevel (readPower d) d else d

/-! ### Write inhibit (R157, R159) -/

/-- Servo loop `n`. -/
def Device.loop (d : Device) (n : Nat) : Loop := sget (fun _ => {}) d.servo.loops n

/-- Change servo loop `n`. -/
def updLoop (n : Nat) (f : Loop → Loop) (d : Device) : Device :=
  { d with servo := { d.servo with loops := supd (fun _ => {}) n f d.servo.loops } }

/-- The control engine asserts write inhibit (R72, R73). -/
def servoInhibit (d : Device) : Bool :=
  (d.loop 0).st != .closed || (d.loop 1).st != .closed || d.servo.lossInhibit || d.servo.faultInhibit

/-- The motion generator asserts write inhibit (R92). -/
def motionInhibit (d : Device) : Bool := d.motion.st != .geared || d.motion.clamped

/-- The conditions of Table 06-5 that hold now. -/
def inhibitNow (d : Device) : BitVec 10 :=
  let core := 16 * b2n (servoInhibit d) + 32 * b2n (motionInhibit d)
    + 256 * b2n (!d.wrc.ilk || d.wrc.overTrip) + 512 * b2n (d.pacing.fault || d.pwr.sealStep = 3)
  let shock := if wbit (d.reg 0xB000) 2 then 0xFFF else 0x3F7
  (d.wrc.analog &&& BitVec.ofNat 10 shock) ||| BitVec.ofNat 10 core

/-- The sector under way is no longer written, however it ended: its time counts for its layer and band (R147), the rest of its channel
bits is dropped, and a rewrite's jump is made good forward (R153). -/
def endWriting (d : Device) : Device :=
  match d.wrc.writing with
  | none => d
  | some (cl, _) =>
    let t := d.now - d.wrc.writeStart
    let d := { d with wrc := { d.wrc with writing := none, fifo := [], unsent := [], train := [], jumpedBack := false } }
    match d.wrc.clusters.find? fun c => c.id = cl with
    | none => d
    | some c =>
      let k := 4 * c.loc.layer + c.loc.zone / 16
      { d with wrc := { d.wrc with
        opcDone := supd (fun _ => {}) k (fun r => { r with writtenTicks := r.writtenTicks + t }) d.wrc.opcDone } }

/-- The sector being written is cut short: it is interrupted (R159), counted, and source 99 is raised (Table 06-6). -/
def cutSector (d : Device) : Device :=
  match d.wrc.writing with
  | none => d
  | some (cl, i) =>
    let d := endWriting d
    let hit (c : WriteCluster) : WriteCluster :=
      { c with sectors := supd (fun _ => {}) i (fun x => { x with st := .interrupted }) c.sectors }
    raise 99 (count 0xB0DC { d with wrc := { d.wrc with
      clusters := updateFirst (fun c => c.id = cl) hit d.wrc.clusters } })

/-- A sector's write record, marked void when it waits for its RAW result. -/
def voidSector (p : Nat × WriteSector) : Nat × WriteSector :=
  if p.2.st = .written then (p.1, { p.2 with voided := true }) else p

/-- The results of sectors that the trailing spot has not judged are void (R152). -/
def voidPending (d : Device) : Device :=
  { d with wrc := { d.wrc with clusters := d.wrc.clusters.map fun c => { c with sectors := c.sectors.map voidSector } } }

/-- Bring INH_STATUS up to the conditions that hold: new ones are latched, a sector under way is cut and the laser drops to read
power; when the last one clears, the hold time begins (R157 to R159). -/
def refreshInhibit (d : Device) : Device :=
  let w := inhibitNow d
  if w = d.wrc.inhibit then d else
    let d := latchReg 0xB01C (w.setWidth 32 &&& ~~~ (d.wrc.inhibit.setWidth 32)) d
    let d := { d with wrc := { d.wrc with inhibit := w, clearSince := d.now } }
    if w = 0 then d
    else laserToRead (cutSector (voidPending { d with wrc := { d.wrc with held := true } }))

/-- The read and write operations in progress, by number: a read's × 2, a write's × 2 + 1. -/
def mediumOps (d : Device) : List Nat :=
  (d.rdc.clusters.filter fun c => !c.done).map (fun c => 2 * c.id) ++ d.wrc.clusters.map fun c => 2 * c.id + 1

/-- A read or a write operation is in progress. -/
def mediumBusy (d : Device) : Bool := !(mediumOps d).isEmpty

/-- Every operation that required the excursion of loop `l` for invariant (c) has completed (Table 02-6). -/
def opsOver (l : Nat) (d : Device) : Bool := d.exc.ops.all fun p => p.1 != l || !(mediumOps d).contains p.2

/-- Change the AVS loop. -/
def updAvs (f : Avs → Avs) (d : Device) : Device := { d with avs := f d.avs }

/-! ### AVS code (R38, R39, R41, R50, R428) -/

/-- Band of an AVS code. -/
def avsBand (code : Nat) : Nat := code / 8

/-- The AVS code changes: the rail settles within 10 µs (R38), and the sense code is the larger of the two bands' until then (R428). -/
def avsPut (code : Nat) (d : Device) : Device :=
  if d.avs.code = code then d
  else updAvs (fun a => { a with code := code, settleAt := some (d.now + 250), oldBand := avsBand a.code }) d

/-- The code is held at 50 until the focus loop first closes after power-on reset (R41). -/
def avsHeld (d : Device) : Bool := !d.avs.focusClosedOnce

/-- Bounds of the code as they stand: the pin of Primer, PWR.AVS_PIN, or PWR.AVS_BOUNDS (R39, R41). -/
def avsBounds (d : Device) : Nat × Nat :=
  if d.gen.mode = .primer then (50, 50)
  else if wbit (d.reg 0xF104) 31 then (d.regF 0xF104 5 0, d.regF 0xF104 5 0)
  else (d.regF 0xF100 5 0, d.regF 0xF100 13 8)

/-- A code that is neither held nor on an excursion goes to the nearest point of its bounds (R50). -/
def clampAvs (d : Device) : Device :=
  let b := avsBounds d
  if avsHeld d || onExcursion d 1 then d
  else if d.avs.code < b.1 then avsPut b.1 d
  else if b.2 < d.avs.code then avsPut b.2 d
  else d

/-- A value that the manual does not state: the next draw (log entry 7). -/
def freeDraw (d : Device) : Word32 := Config.freeWord d.draws

/-- A 128-bit value that the manual does not give, of four draws. -/
def freeWide (d : Device) : BitVec 128 :=
  let w (i : Nat) : BitVec 128 := (Config.freeWord (d.draws + i)).setWidth 128
  (w 0) ||| (w 1 <<< 32) ||| (w 2 <<< 64) ||| (w 3 <<< 96)

/-- Its draws have been used. -/
def drawnWide (d : Device) : Device := { d with draws := d.draws + 4 }

/-- The draw has been used. -/
def drawn (d : Device) : Device := { d with draws := d.draws + 1 }

end Sys2Proof.Machine
end

