-- ==== Sys2Proof/Machine/Servo.lean ====
section
/-!
DEFINITION. Servo loops, the control engine and the servo sequencer (03_servo.md): the sampling instant, the computation of R64, loop
transitions, coefficient writes, and the sequencer's commands. The output instant is in Sled.lean, since the centering loop's
output moves the sled.
-/

namespace Sys2Proof.Machine

/-! ### Q3.20 arithmetic (R60) -/

/-- Saturate to the Q3.20 range, in units of 2⁻²⁰. -/
def satQ (v : Int) : Int := clampInt (-8388608) 8388607 v

/-- A sum of products with 40 fraction bits as a Q3.20 value: rounded to nearest, ties away from zero, and saturated (R60, R509). For a
sum that the 48-bit accumulator does not hold the manual states no result: it is free before it is saturated (log entry 83). -/
def rndQ (v : Int) : Int :=
  satQ (if -140737488355328 ≤ v && v < 140737488355328 then roundDiv v 1048576 else Config.wideSum v)

/-- A signed Q3.20 value as its 24 bits. -/
def toQ (v : Int) : Q24 := BitVec.ofInt 24 v

/-- Coefficient `k` of the live set of loop `n`. -/
def coef (d : Device) (n k : Nat) : Int := signedOf 24 (d.regF (0x8000 + 0x200 * n + 4 * k) 23 0)

/-- The output in force of loop `n`: OFFSET in OPEN_ZERO, where a write of the live set takes effect at once (R69, Table 03-3). -/
def loopOut (d : Device) (n : Nat) : Q24 := if (d.loop n).st = .openZero then toQ (coef d n 17) else (d.loop n).output

/-- OLIM as the engine takes it: negative is treated as 0 (R63). -/
def outLimit (d : Device) (n : Nat) : Int := max 0 (coef d n 18)

/-- An output at or beyond ±OLIM. -/
def atLimit (lim : Int) (y : Q24) : Bool := decide (lim ≤ y.toInt) || decide (y.toInt ≤ -lim)

/-- LOOP_STATUS.OUT_SAT: the last output lies at ±OLIM (Table 03-12); in OPEN_ZERO the output is OFFSET. -/
def outSatOf (d : Device) (n : Nat) : Bool :=
  if (d.loop n).st = .openZero then atLimit (outLimit d n) (loopOut d n) else (d.loop n).outSat

/-- One biquad in direct form I (R64): output and new history x1, x2, w1, w2. -/
def biquad (b0 b1 b2 a1 a2 : Int) (h : List Q24) (x : Int) : Int × List Q24 :=
  let g (i : Nat) : Int := (h.getD i 0).toInt
  let w := rndQ (b0 * x + b1 * g 0 + b2 * g 1 - a1 * g 2 - a2 * g 3)
  (w, [toQ x, h.getD 0 0, toQ w, h.getD 2 0])

/-- clamp(vnom / v_meas, 0.5, 2.0) in Q3.20. For a measurement of 0 the manual states no quotient: it is free within
the clamp (R64, log entry 14). -/
def supplyRatio (vnom vmeas : Int) : Int :=
  if vmeas = 0 then clampInt 524288 2097152 (Config.quotientByZero vnom)
  else
    let q := if vmeas < 0 then roundDiv (-vnom * 1048576) (-vmeas).toNat else roundDiv (vnom * 1048576) vmeas.toNat
    clampInt 524288 2097152 q

/-- The mean of the last 20 tracking outputs, the input of sled centering (Table 03-1). -/
def meanTrack (d : Device) : Int := roundDiv ((d.servo.trackOuts.map (·.toInt)).foldl (· + ·) 0) 20

/-- The spindle's error has no stated value: its target is 0, or no edge interval was measured since the previous instant (R61). -/
def spindleOpen (d : Device) : Bool := d.regF 0x8508 23 0 = 0 || d.servo.edges.2 = 0

/-- The error e of one sample (R61, R64): the spindle's is (TARGET - mean interval) ÷ TARGET, with the mean of the edge intervals
measured since the previous instant. Where the spindle's has no stated value it is a free value (log entry 7). -/
def loopError (d : Device) (n : Nat) (x : ServoSample) : Int :=
  if n = 2 then
    let t := d.regF 0x8508 23 0
    let k := d.servo.edges.2
    if spindleOpen d then (BitVec.setWidth 24 (freeDraw d)).toInt
    else satQ (roundDiv (((t * k : Nat) - (d.servo.edges.1 : Int)) * 1048576) (t * k))
  else
    let t := signedOf 24 (d.regF (0x8000 + 0x200 * n + 0x108) 23 0)
    satQ (t - (if n = 3 then meanTrack d else x.err.toInt))

/-- The computation of R64 for a sample taken by loop `n`: the loop with its new state, the output y, and whether it lies at a limit. The
coefficients are those of the live set at the sampling instant. -/
def computeLoop (n : Nat) (j : ServoJob) (l : Loop) : Loop × Int × Bool :=
  let c (k : Nat) : Int := signedOf 24 (fld (j.coefs.getD k 0) 23 0)
  let e := j.err.toInt
  let ad := if 0 ≤ c 3 && c 3 < 1048576 then c 3 else 0
  let dT := rndQ (ad * l.dTerm.toInt + c 2 * (e - l.ePrev.toInt))
  let u := rndQ (c 0 * e + (l.iTerm.toInt + dT) * 1048576)
  let (u, h0) := biquad (c 5) (c 6) (c 7) (c 8) (c 9) l.bq0 u
  let (u, h1) := biquad (c 10) (c 11) (c 12) (c 13) (c 14) l.bq1 u
  let u := rndQ (u * 1048576 + c 15 * (if n = 3 then 0 else j.aCmd.toInt))
  let u := if n = 2 && c 16 != 0 then rndQ (u * supplyRatio (c 16) j.vMeas.toInt) else u
  let lim := max 0 (c 18)
  let y := clampInt (-lim) lim (c 17 + u)
  let atLim : Bool := y = lim || y = -lim
  let ki := c 1 * e
  let il := max 0 (c 4)
  let i := if !atLim || (ki < 0 && y > 0) || (ki > 0 && y < 0)
    then clampInt (-il) il (rndQ (l.iTerm.toInt * 1048576 + ki)) else l.iTerm.toInt
  ({ l with ePrev := toQ e, dTerm := toQ dT, iTerm := toQ i, bq0 := h0, bq1 := h1 }, satQ y, atLim)

/-! ### The schedule (R35, R36, R58) -/

/-- Sample period in ticks (Tables 02-3 and 03-1). -/
def loopPeriod (n : Nat) : Nat :=
  match n with
  | 0 => 100
  | 1 => 100
  | 2 => 1000
  | _ => 2000

/-- Phase of the sampling instants (Table 03-1). -/
def loopPhase (n : Nat) : Nat :=
  match n with
  | 0 => 0
  | 1 => 0
  | 2 => 60
  | _ => 80

/-- Output deadline in ticks after the sampling instant (Table 02-3). -/
def loopDeadline (n : Nat) : Nat :=
  match n with
  | 0 => 50
  | 1 => 50
  | 2 => 500
  | _ => 1000

/-- The present tick is a sampling instant of loop `n` whose sample has not been taken (R35, R58). -/
def sampleInstant (d : Device) (n : Nat) : Bool :=
  d.now % loopPeriod n = loopPhase n && (d.loop n).sampledAt != some d.now

/-- The present tick is an output instant of loop `n` not yet taken (R58). -/
def outputTick (d : Device) (n : Nat) : Bool :=
  d.now % loopPeriod n = (loopPhase n + loopDeadline n) % loopPeriod n && (d.loop n).outputAt != some d.now

/-! ### The engine (R59) -/

/-- The engine, when it is idle, takes the oldest sample of the first loop that waits: focus, tracking, spindle, sled centering (R59). -/
def enginePick (d : Device) : Device :=
  if d.servo.engine.isSome then d else
    match (List.range 4).find? fun n => !(d.loop n).jobs.isEmpty with
    | none => d
    | some n =>
      match (d.loop n).jobs with
      | [] => d
      | j :: js =>
        let d := updLoop n (fun l => { l with jobs := js }) d
        { d with servo := { d.servo with engine := some (n, j) } }

/-- Change the computation that runs, if it is loop `n`'s; it is not interrupted (R59). -/
def updEngine (n : Nat) (f : ServoJob → ServoJob) (d : Device) : Device :=
  { d with servo := { d.servo with engine := d.servo.engine.map fun p => if p.1 = n then (p.1, f p.2) else p } }

/-! ### Transitions (Table 03-4) -/

/-- The loop with its state cleared and no sample waiting. -/
def clearLoop (l : Loop) : Loop :=
  { l with
      ePrev := 0, dTerm := 0, iTerm := 0, bq0 := [0, 0, 0, 0], bq1 := [0, 0, 0, 0],
           ready := none, jobs := [], due := none }

/-- A computation of loop `n` that still runs keeps neither result nor state once the loop's state is cleared. -/
def voidJob (n : Nat) (d : Device) : Device := updEngine n (fun j => { j with cleared := true }) d

/-- The words of the live or shadow set of loop `n` (base 0x000 or 0x080). -/
def coefSet (d : Device) (n base : Nat) : List Word32 := (List.range 19).map fun k => d.reg (0x8000 + 0x200 * n + base + 4 * k)

/-- Put a whole set into the live set. -/
def putLive (n : Nat) (ws : List Word32) (d : Device) : Device :=
  (List.range 19).foldl (fun d k => setReg (0x8000 + 0x200 * n + 4 * k) (ws.getD k 0) d) d

/-- Load the shadow set, all 19 values together, if it is valid (R70). -/
def loadShadow (n : Nat) (d : Device) : Device :=
  if (d.loop n).shadowValid then updLoop n (fun l => { l with shadowValid := false }) (putLive n (coefSet d n 0x80) d) else d

/-- What entering CLOSED changes beside the loop: focus restarts ON_TIME_RUN, ends a focus loss and, when it first closes, frees the AVS
code, which goes to its bounds (R41, R50, R72, R73); the spindle is no longer braked. -/
def afterClose (n : Nat) (d : Device) : Device :=
  if n = 0 then
    clampAvs { d with servo := { d.servo with onTimeRun := 0, lossInhibit := false }, avs := { d.avs with focusClosedOnce := true } }
  else if n = 2 then { d with servo := { d.servo with braked := false } }
  else d

/-- What leaving CLOSED changes beside the loop: ON_TIME_RUN reads 0 while focus is not CLOSED (R72). -/
def afterLeave (n : Nat) (d : Device) : Device :=
  if n = 0 then { d with servo := { d.servo with onTimeRun := 0 } } else d

/-- To CLOSED with the state cleared and the shadow loaded if valid. -/
def closeLoop (n : Nat) (d : Device) : Device :=
  afterClose n (voidJob n (updLoop n (fun l => { clearLoop l with st := .closed, holdSamples := 0, captured := false, lossRun := 0 })
    (loadShadow n d)))

/-- To OPEN_ZERO: the output is OFFSET and the state is cleared (Table 03-3). -/
def openLoop (n : Nat) (d : Device) : Device :=
  let o := toQ (coef d n 17)
  refreshInhibit (afterLeave n (voidJob n (updLoop n (fun l => { clearLoop l with
    st := .openZero, output := o, holdSamples := 0, outSat := false, captured := false }) d)))

/-- To ACQUIRE: the state is cleared and the drive begins at OFFSET, whatever OLIM is (Table 03-3, log entry 83). -/
def acquireLoop (n : Nat) (d : Device) : Device :=
  let o := toQ (coef d n 17)
  let sat := atLimit (outLimit d n) o
  refreshInhibit (afterLeave n (voidJob n (updLoop n (fun l => { clearLoop l with
    st := .acquire, output := o, outSat := sat, holdSamples := 0,
    acqSamples := 0, prevErr := none, sinceCross := none, belowRun := 0, captured := false }) d)))

/-- To HOLD: the live set is copied to the snapshot; a computation that still runs keeps the state that it produces, and its output is
discarded (Table 03-4, R59, R71). -/
def holdLoop (n : Nat) (d : Device) : Device :=
  let ws := coefSet d n 0
  refreshInhibit (afterLeave n (updEngine n (fun j => { j with late := true }) (updLoop n (fun l => { l with
    st := .hold, holdSamples := 0, snapshot := ws, jobs := [], ready := none, due := none }) d)))

/-- HOLD ends by a CLOSE: the state is kept and the shadow loaded if valid. -/
def recloseLoop (n : Nat) (d : Device) : Device :=
  refreshInhibit (afterClose n (updLoop n (fun l => { l with st := .closed, holdSamples := 0, lossRun := 0 }) (loadShadow n d)))

/-- HOLD ends at its limit: the snapshot is restored and the shadow discarded (Table 03-4, R84). -/
def holdTimeoutLoop (n : Nat) (d : Device) : Device :=
  let ws := (d.loop n).snapshot
  let d := putLive n ws d
  let d := updLoop n (fun l => { l with st := .closed, holdSamples := 0, shadowValid := false, holdTimeout := true, lossRun := 0 }) d
  raise (37 + n) (countF (0x8000 + 0x200 * n + 0x118) 7 0 (refreshInhibit (afterClose n d)))

/-- Table 03-4 has a row for the command in the state (R66). -/
def hasRow (st : LoopState) (c : LoopCmd) : Bool :=
  match st, c with
  | .openZero, .close => true
  | .openZero, .acquire => true
  | .acquire, .close => true
  | .acquire, .open => true
  | .closed, .hold => true
  | .closed, .acquire => true
  | .closed, .open => true
  | .hold, .close => true
  | .hold, .acquire => true
  | .hold, .open => true
  | .openZero, .open => false
  | .openZero, .hold => false
  | .acquire, .hold => false
  | .acquire, .acquire => false
  | .closed, .close => false
  | .hold, .hold => false

/-- A loop command takes effect (Table 03-4); one with no row for the present state has no effect (R66). -/
def applyLoopCmd (n : Nat) (c : LoopCmd) (d : Device) : Device :=
  if !hasRow (d.loop n).st c then d
  else
    match c with
    | .open => openLoop n d
    | .acquire => acquireLoop n d
    | .hold => holdLoop n d
    | .close => if (d.loop n).st = .hold then recloseLoop n d else refreshInhibit (closeLoop n d)

/-- The command of loop `n` that takes effect at an instant now: accepted at least 1 tick before, and with a row of Table 03-4 for the
present state (R66). -/
def dueCmd (d : Device) (n : Nat) : Option LoopCmd :=
  match (d.loop n).cmd with
  | some (c, t) => if t + 1 ≤ d.now && hasRow (d.loop n).st c then some c else none
  | none => none

/-- A command accepted in time no longer waits at the sampling instant, whether or not it has a row (R66). -/
def dropTaken (n : Nat) (d : Device) : Device :=
  updLoop n (fun l => { l with cmd := match l.cmd with | some (c, t) => if t + 1 ≤ d.now then none else some (c, t) | none => none }) d

/-- The HOLD limit is reached at this instant, no command having been accepted in time (R66, R84). -/
def holdExpired (d : Device) (n : Nat) : Bool :=
  (d.loop n).st = .hold && 64 ≤ (d.loop n).holdSamples && (dueCmd d n).isNone

/-- ACQ_TIMEOUT samples have passed in ACQUIRE without capture. -/
def acqExpired (d : Device) (n : Nat) : Bool :=
  (d.loop n).st = .acquire && !(d.loop n).captured && d.regF (0x8000 + 0x200 * n + 0x10C) 31 16 ≤ (d.loop n).acqSamples

/-- Focus loss is due (R68). -/
def lossDue (d : Device) : Bool :=
  (d.loop 0).st = .closed && d.regF 0x810C 15 8 != 0 && d.regF 0x810C 15 8 ≤ (d.loop 0).lossRun

/-- A command waits for the next sampling instant of loop `n`, in place of an earlier one (R66). -/
def putLoopCmd (n : Nat) (c : LoopCmd) (d : Device) : Device := updLoop n (fun l => { l with cmd := some (c, d.now) }) d

/-! ### Session speed (R79, R513; log entry 84) -/

/-- The session speed that a spindle target sets: 5,400 rpm from the middle of the two intervals of R61 down, else 3,600 rpm. -/
def fastTarget (t : Nat) : Bool := decide (0 < t) && decide (2 * t < 2894 + 1929)

/-- A change of session speed: a CLOSED spindle is acquired again at the new speed (R513), and the equaliser's taps load afresh (R116). -/
def setSpeed (fast : Bool) (d : Device) : Device :=
  if d.servo.fast = fast then d
  else
    let d := { d with servo := { d.servo with fast := fast }, rdc := { d.rdc with tapsFor := none } }
    if (d.loop 2).st = .closed then putLoopCmd 2 .acquire d else d

/-! ### The sequencer's scripts (R75 to R77, R514; log entry 84) -/

/-- The script stands at step `p` from now on. -/
def scriptTo (k : ScriptKind) (p : ScriptStep) (d : Device) : Device :=
  { d with servo := { d.servo with script := some { kind := k, step := p, since := d.now } } }

/-- Loop `n` is CLOSED and no command waits for it. -/
def settledLoop (d : Device) (n : Nat) : Bool := (d.loop n).st = .closed && (d.loop n).cmd.isNone

/-- The laser is turned on at read power, and the acquisition begins (Table 03-6). -/
def laserBegin (d : Device) : Device := laserLevel (readPower d) (scriptTo .acquisition .begin d)

/-- An acquisition of layer `l`: the spindle is brought CLOSED first where it is not (R75, Table 12-12). -/
def startAcquisition (l : Nat) (d : Device) : Device :=
  let d := { d with servo := { d.servo with targetLayer := some l, layer := none, acqRetry := false }, rdc := { d.rdc with tapsFor := none } }
  if settledLoop d 2 then laserBegin d
  else scriptTo .acquisition .spin (if (d.loop 2).st = .acquire then d else putLoopCmd 2 .acquire d)

/-- The sled's gear ratio changes its sign at a jump between layers of opposite directions: the flip is armed for the first count of the
jump (R106, Table 03-7). -/
def flipGear (l : Nat) (d : Device) : Device :=
  let r := (d.reg 0x9030).toInt
  let want : Int := if l % 2 = 0 then r.natAbs else -(r.natAbs : Int)
  if d.motion.st != .geared || r = want then d
  else
    let t := d.motion.masterPos + 1
    let w := BitVec.ofInt 32 want
    setReg 0x9038 t (setReg 0x9034 w { d with
      motion := { d.motion with armed := true, armedLate := false, armedNext := w, armedTrigger := t } })

/-- A jump to layer `l` begins: tracking opens, and the sign flip is armed (Table 03-7, R106). -/
def startJump (l : Nat) (d : Device) : Device :=
  flipGear l (putLoopCmd 1 .open (scriptTo .jump .begin { d with
    servo := { d.servo with targetLayer := some l }, rdc := { d.rdc with tapsFor := none } }))

/-- How long the first step of a script lasts, and how long focus settles: 100 µs and 200 µs in an acquisition, 10 µs and 100 µs in a
jump (Tables 03-6, 03-7). -/
def scriptWait (k : ScriptKind) (p : ScriptStep) : Nat :=
  match k, p with
  | .acquisition, .begin => 2500
  | .acquisition, .settle => 5000
  | .jump, .begin => 250
  | .jump, .settle => 2500
  | _, _ => 0

/-- The script goes on when its step is over: focus, then tracking, then sled centering are acquired in turn (Tables 03-6, 03-7). -/
def runScript (d : Device) : Device :=
  match d.servo.script with
  | none => d
  | some x =>
    if !seqUp d then d
    else
      match x.step with
      | .spin => if settledLoop d 2 then laserBegin d else d
      | .begin => if x.since + scriptWait x.kind .begin ≤ d.now then putLoopCmd 0 .acquire (scriptTo x.kind .focus d) else d
      | .focus => if settledLoop d 0 then scriptTo x.kind .settle d else d
      | .settle => if x.since + scriptWait x.kind .settle ≤ d.now then putLoopCmd 1 .acquire (scriptTo x.kind .track d) else d
      | .track => if settledLoop d 1 then putLoopCmd 3 .acquire (scriptTo x.kind .center d) else d
      | .center => if settledLoop d 3 then scriptTo x.kind .header d else d
      | .header => d

/-- The acquisition has failed for good: laser off, every loop but the spindle open, medium commands fail (R76). -/
def acquisitionFailed (d : Device) : Device :=
  let d := openLoop 3 (openLoop 1 (openLoop 0 (laserOff d)))
  failMedium { d with servo := { d.servo with acqRetry := false, targetLayer := none, layer := none, script := none } }

/-- The first header shows the layer wanted: the script is over (R75, R77). -/
def layerConfirmed (l : Nat) (d : Device) : Device :=
  { d with servo := { d.servo with targetLayer := none, layer := some l, lastLayer := l, acqRetry := false, script := none } }

/-- An attempt to reach layer `l` has failed, with focus captured on layer `on` or on none: once more, then the end. A jump goes on from
the layer reached; an acquisition, and a jump that captured nowhere, acquires with the sweep reversed from the next focus sampling
instant (R76, R77). -/
def attemptFailed (l : Nat) (on : Option Nat) (d : Device) : Device :=
  if d.servo.acqRetry then acquisitionFailed d
  else
    let jump : Bool := match d.servo.script with | some x => x.kind = .jump | none => false
    let d := { d with servo := { d.servo with acqRetry := true, layer := on, targetLayer := some l } }
    if jump && on.isSome then startJump l d
    else putLoopCmd 0 .acquire (openLoop 0 (scriptTo .acquisition .focus { d with servo := { d.servo with layer := none } }))

/-- ACQUIRE ends without capture: OPEN_ZERO, source 46; on focus, a failed attempt of the acquisition under way (R76). -/
def acqTimeoutLoop (n : Nat) (d : Device) : Device :=
  let d := raise 46 (openLoop n d)
  match n, d.servo.targetLayer with
  | 0, some l => attemptFailed l none d
  | _, _ => d

/-- Focus loss: OPEN_ZERO, FOCUS_LOST set, write inhibited until focus is CLOSED again (R68, R73). -/
def focusLossLoop (d : Device) : Device :=
  let d := updLoop 0 (fun l => { l with focusLost := true, lossRun := 0 }) d
  raise 49 (openLoop 0 { d with servo := { d.servo with lossInhibit := true, layer := none } })

/-! ### The sampling instant (R58, R66, R67, R85) -/

/-- Did the error cross zero since the previous sample? A sample of 0 counts as crossed (log entry 83). -/
def crossed (prev : Option Q24) (e : Q24) : Bool :=
  match prev with
  | some p => (p.toInt < 0 && 0 ≤ e.toInt) || (0 < p.toInt && e.toInt ≤ 0)
  | none => false

/-- The spindle's error `e` lies within CAPTURE[2] (R67); a negative limit holds no error. -/
def spindleNear (d : Device) (e : Int) : Bool := (e.natAbs : Int) ≤ signedOf 24 (d.regF 0x8514 23 0)

/-- The capture condition of loop `n` at this sample of error `e` (R67). The first tracking crossing in ACQUIRE has no interval before it
and captures nothing (log entry 83). -/
def captures (d : Device) (n : Nat) (x : ServoSample) (e : Int) (l : Loop) : Bool :=
  if n = 0 then crossed l.prevErr x.err && signedOf 24 (d.regF 0x8114 23 0) ≤ x.sum.toInt
  else if n = 1 then
    crossed l.prevErr x.err && (match l.sinceCross with | some k => d.regF 0x8314 23 0 ≤ k + 1 | none => false)
  else if n = 2 then spindleNear d e && 15 ≤ l.belowRun
  else true

/-- One sample in ACQUIRE: the drive is stepped after the first, and the capture test made (Table 03-3, R67). -/
def acquireSample (n : Nat) (x : ServoSample) (d : Device) : Device :=
  let l := d.loop n
  let e := loopError d n x
  let step := signedOf 24 (d.regF (0x8000 + 0x200 * n + 0x110) 23 0)
  let step := if n = 0 && d.servo.acqRetry then -step else step
  let lim := outLimit d n
  let out := if l.acqSamples = 0 then l.output else toQ (clampInt (-lim) lim (l.output.toInt + step))
  let hit := captures d n x e l
  updLoop n (fun l => { l with
    output := out, outSat := atLimit lim out, captured := l.captured || hit, acqSamples := l.acqSamples + 1,
    prevErr := some x.err, sinceCross := if crossed l.prevErr x.err then some 0 else l.sinceCross.map (· + 1),
    belowRun := if n = 2 && spindleNear d e then l.belowRun + 1 else 0 }) d

/-- One sample in CLOSED: it waits for the engine, and on focus the sum signal is watched (R59, R64, R68). -/
def closedSample (n : Nat) (x : ServoSample) (d : Device) : Device :=
  let low := n = 0 && x.sum.toInt < signedOf 24 (d.regF 0x8114 23 0)
  let j : ServoJob := { err := toQ (loopError d n x), aCmd := x.aCmd, vMeas := x.vMeas, t0 := d.now, late := false, cleared := false,
                        coefs := coefSet d n 0 }
  updLoop n (fun l => { l with
    jobs := l.jobs ++ [j], due := some d.now, ready := none, lossRun := if low then l.lossRun + 1 else 0 }) d

/-- What comes before the sample at a sampling instant: a pending command, then what is due (R66, R84, R85). -/
def beforeSample (n : Nat) (d : Device) : Device :=
  let c := dueCmd d n
  let held := holdExpired d n
  let d := dropTaken n d
  match c with
  | some c => applyLoopCmd n c d
  | none =>
    if held then holdTimeoutLoop n d
    else if acqExpired d n then acqTimeoutLoop n d
    else if n = 0 && lossDue d then focusLossLoop d
    else d

/-- A spindle sample uses the edge intervals measured since the previous instant, and a free value where they state no error. -/
def afterSpindle (n : Nat) (d : Device) : Device :=
  if n = 2 then
    let d := if ((d.loop 2).st = .acquire || (d.loop 2).st = .closed) && spindleOpen d then drawn d else d
    { d with servo := { d.servo with edges := (0, 0) } }
  else d

/-- The sampling instant of loop `n`: a pending command, then what is due, then the sample (R58, R66, R85). -/
def sampleLoop (n : Nat) (x : ServoSample) (d : Device) : Device :=
  let d := beforeSample n (updLoop n (fun l => { l with sampledAt := some d.now }) d)
  let d := if (d.loop n).st = .acquire && (d.loop n).captured
    then refreshInhibit (raise (42 + n) (closeLoop n d)) else d
  let d := match (d.loop n).st with
    | .openZero => d
    | .acquire => acquireSample n x d
    | .closed => closedSample n x d
    | .hold => updLoop n (fun l => { l with holdSamples := l.holdSamples + 1 }) d
  runScript (afterSpindle n d)

/-- LOOP_SAMPLE (R58): the AFE's sample of loop n at a sampling instant (R35). -/
def execLoopSample (n : Nat) (x : ServoSample) (s : State) : Host.Outcome State Fault Refusal :=
  effect s fun d => onlyIf (n < 4 && sampleInstant d n) (sampleLoop n x) d

/-! ### The end of a computation (R36, R64, R71) -/

/-- An output's slack enters the AVS window in which the output is due (R36, R37). -/
def noteSlack (v : Int) (d : Device) : Device :=
  let v := clampInt (-512) 512 v
  { d with avs := { d.avs with low := some (match d.avs.low with | some w => min v w | none => v) } }

/-- The engine has computed the sample `j` of loop `n`, `eighths` of a tick after the present tick: the output is held for its output
instant, or discarded with its state kept when that instant has passed (R36, R71). The slack enters the window in which the output is
due: at its output instant, or, for a miss, now, if that window still runs (R37; log entry 36). -/
def finishJob (n eighths : Nat) (j : ServoJob) (d : Device) : Device :=
  let slack : Int := ((j.t0 + loopDeadline n) * 8 : Nat) - (d.now * 8 + eighths : Nat)
  let d := { d with servo := { d.servo with engine := none } }
  if j.cleared then d
  else
    let (l', y, sat) := computeLoop n j (d.loop n)
    let d := updLoop n (fun _ => { l' with ready := if j.late then l'.ready else some ⟨toQ y, sat, slack⟩ }) d
    if j.late && d.avs.windowStart ≤ j.t0 + loopDeadline n then noteSlack slack d else d

/-- The computation that runs is loop `n`'s, and it ends (R59, R64); the engine takes the next sample that waits. -/
def computeDone (n eighths : Nat) (d : Device) : Device :=
  let d := enginePick d
  match d.servo.engine with
  | some (m, j) => if m = n then enginePick (finishJob n eighths j d) else d
  | none => d

/-- LOOP_COMPUTE_DONE (R64). -/
def execLoopComputeDone (n eighths : Nat) (s : State) : Host.Outcome State Fault Refusal :=
  effect s <| onlyIf (n < 4 && eighths < 8) (computeDone n eighths)

/-! ### Loop commands -/

/-- A command written to SRV.LOOP_CTRL[n] (R66, Table 03-11). -/
def loopCommand (who : Requester) (n : Nat) (c : LoopCmd) (d : Device) : Device :=
  onlyIf (n < 4) (gate who (0x8100 + 0x200 * n) false (putLoopCmd n c)) d

/-- LOOP_OPEN (R66). -/
def execLoopOpen (who : Requester) (n : Nat) (s : State) : Host.Outcome State Fault Refusal :=
  effect s (loopCommand who n .open)

/-- LOOP_HOLD (R66). -/
def execLoopHold (who : Requester) (n : Nat) (s : State) : Host.Outcome State Fault Refusal :=
  effect s (loopCommand who n .hold)

/-- LOOP_CLOSE (R66). -/
def execLoopClose (who : Requester) (n : Nat) (s : State) : Host.Outcome State Fault Refusal :=
  effect s (loopCommand who n .close)

/-- LOOP_ACQUIRE (R66). -/
def execLoopAcquire (who : Requester) (n : Nat) (s : State) : Host.Outcome State Fault Refusal :=
  effect s (loopCommand who n .acquire)

/-- DISCARD_SHADOW (R70): SHADOW_VALID clears at once; a command that waits goes on waiting (log entry 83). -/
def execDiscardShadow (who : Requester) (n : Nat) (s : State) : Host.Outcome State Fault Refusal :=
  effect s <| onlyIf (n < 4) <|
    gate who (0x8100 + 0x200 * n) false (updLoop n fun l => { l with shadowValid := false })

/-- ACQ_TIMEOUT (R76): the samples in ACQUIRE have run out. -/
def execAcqTimeout (n : Nat) (s : State) : Host.Outcome State Fault Refusal :=
  effect s fun d => onlyIf (n < 4 && acqExpired d n) (acqTimeoutLoop n) d

/-- HOLD_TIMEOUT (R66): the 65th sampling instant in HOLD. -/
def execHoldTimeout (n : Nat) (s : State) : Host.Outcome State Fault Refusal :=
  effect s fun d => onlyIf (n < 4 && sampleInstant d n && holdExpired d n) (holdTimeoutLoop n) d

/-- FOCUS_LOSS (R68). -/
def execFocusLoss (s : State) : Host.Outcome State Fault Refusal :=
  effect s fun d => onlyIf (lossDue d) focusLossLoop d

/-- A rejected coefficient write counts and raises source 41 (R69, R79). -/
def rejectCoef (n : Nat) (d : Device) : Device := raise 41 (countF (0x8000 + 0x200 * n + 0x118) 15 8 d)

/-- COEF_LIVE_WRITE (R69): rejected in CLOSED and in Primer, else in effect at once. -/
def execCoefLiveWrite (who : Requester) (n k : Nat) (value : Word32) (s : State) : Host.Outcome State Fault Refusal :=
  effect s <| onlyIf (n < 4 && k < 19) <| gate who (0x8000 + 0x200 * n + 4 * k) true fun d =>
    if d.gen.mode = .primer || (d.loop n).st = .closed then rejectCoef n d
    else setReg (0x8000 + 0x200 * n + 4 * k) (value &&& 0x00FFFFFF) d

/-- COEF_SHADOW_WRITE (R70): accepted in every state but rejected in Primer (R79). -/
def execCoefShadowWrite (who : Requester) (n k : Nat) (value : Word32) (s : State) : Host.Outcome State Fault Refusal :=
  effect s <| onlyIf (n < 4 && k < 19) <| gate who (0x8080 + 0x200 * n + 4 * k) true fun d =>
    if d.gen.mode = .primer then rejectCoef n d
    else updLoop n (fun l => { l with shadowValid := true }) (setReg (0x8080 + 0x200 * n + 4 * k) (value &&& 0x00FFFFFF) d)

/-! ### The sequencer (R80 to R82) -/

/-- A sequencer reset ends every T1 active state (R360). -/
def endActive (t : Nat) (d : Device) : Device :=
  deliver ((d.icu.srcs.filter fun p => p.2.active && servedBy d p.1 p.2 = t).foldl
    (fun d p => updSrc p.1 (fun x => { x with active := false, forwarded := false }) d) d)

/-- SEQ_RUN (R81): RUN set starts the sequencer and its watchdog; RUN clear holds it in reset. -/
def execSeqRun (who : Requester) (run : Bool) (s : State) : Host.Outcome State Fault Refusal :=
  effect s <| gate who 0x8900 true fun d =>
    if run then
      if d.servo.seqRun then d
      else { d with
          servo := { d.servo with
              seqRun := true, seqHalted := false, seqKick := d.now,
                                            seqPrimer := d.gen.mode = .primer } }
    else if d.servo.seqRun then endActive 1 { d with servo := { d.servo with seqRun := false, script := none } } else d

/-- SEQ_KICK (R81): the 10 ms watchdog starts again. -/
def execSeqKick (who : Requester) (s : State) : Host.Outcome State Fault Refusal :=
  effect s <| gate who 0x8900 false fun d => { d with servo := { d.servo with seqKick := d.now } }

/-- Every loop that is not CLOSED goes to OPEN_ZERO (R81). -/
def openUnclosed (d : Device) : Device :=
  (List.range 4).foldl (fun d n => if (d.loop n).st = .closed then d else openLoop n d) d

/-- SEQ_HALT (R74): the sequencer stops on EBREAK or a trap. -/
def execSeqHalt (s : State) : Host.Outcome State Fault Refusal :=
  effect s fun d => onlyIf d.servo.seqRun (fun d => raise 48 { d with servo := { d.servo with seqHalted := true } }) d

end Sys2Proof.Machine
end

