-- ==== Sys2Proof/Machine/Sled.lean ====
section
/-!
DEFINITION. Sled motion and spindle gearing (04_sled.md): motion commands, microsteps, ramps, switches, homing and parking, the
encoder, ratio changes, the centering trim with its excursion, and the output instant of the servo loops (R71, R72), whose sled
output is the trim.
-/

namespace Sys2Proof.Machine

/-- Change the motion generator. -/
def updMotion (f : Motion → Motion) (d : Device) : Device := { d with motion := f d.motion }

/-- The soft limits (Table 04-7): minimum and maximum. -/
def softLimits (d : Device) : Int × Int := (signedOf 16 (d.regF 0x901C 15 0), signedOf 16 (d.regF 0x901C 31 16))

/-- PARK_POS. -/
def parkPos (d : Device) : Int := signedOf 16 (d.regF 0x9020 15 0)

/-- STATUS.HOME_SW: the accepted level is the active one (R89, SWITCH_CFG.HOME_POL). -/
def homeSw (d : Device) : Bool := d.motion.homeLevel = wbit (d.reg 0x9024) 4

/-- STATUS.OUTER_SW (R89, SWITCH_CFG.OUTER_POL). -/
def outerSw (d : Device) : Bool := d.motion.outerLevel = wbit (d.reg 0x9024) 5

/-- What the AFE sets the phase currents to: the sine and cosine of an electrical position of 256, scaled by RUN_I while the sled moves
and by HOLD_I while it stands (R87): the scale, ÷ 255 of full scale, and the position. -/
def phaseCurrents (d : Device) : Nat × Nat :=
  (match d.motion.current with
    | .off => 0
    | .hold => d.regF 0x9028 15 8
    | .run => d.regF 0x9028 7 0, d.motion.phase)

/-- A command that the present state does not accept is counted and raises source 78 (R91). -/
def rejectMotion (d : Device) : Device := raise 78 (countF 0x9050 15 8 d)

/-! ### Planning (R93, R95, R100, R102) -/

/-- Speed of the geared motion: the live ratio at the measured count rate (R104, R107). -/
def gearSpeed (d : Device) : Int :=
  match d.motion.st, d.servo.edgeInterval with
  | .geared, some i => if i = 0 then 0 else (d.reg 0x9030).toInt * unitsPerStep * 4 / (16777216 * i)
  | _, _ => 0

/-- The present motion of the sled: along its plan, geared, or standing. -/
def motionNow (d : Device) : Kin :=
  match d.motion.plan with
  | some p => planAt p (2 * d.now)
  | none => (d.motion.pos * unitsPerStep, gearSpeed d, 0)

/-- JMAX, AMAX, VMAX and EDEC (Table 04-4). -/
def jerkMax (d : Device) : Int := (d.regF 0x9018 7 0 : Nat)
/-- AMAX. -/
def accelMax (d : Device) : Int := accelUnits (d.regF 0x9014 15 0)
/-- VMAX. -/
def speedMax (d : Device) : Int := speedUnits (d.regF 0x9010 15 0)
/-- EDEC. -/
def rampDecel (d : Device) : Int := accelUnits (d.regF 0x9014 31 16)
/-- HOME_FAST. -/
def homeFast (d : Device) : Int := speedUnits (d.regF 0x9010 31 16)
/-- The slow approach of homing, 1.0 mm/s (Table 04-5). -/
def homeSlow : Int := speedUnits 10

/-- Acceleration from which a profile is planned: a ramp's has no jerk limit and counts as 0 (log entry 82). -/
def planAccel (d : Device) : Int := if d.motion.ramping then 0 else clampInt (-(accelMax d)) (accelMax d) (motionNow d).2.2

/-- The profiled motion to `goal` from the present motion (R93). -/
def planTo (goal : Int) (d : Device) : Plan :=
  let k := motionNow d
  let a := planAccel d
  let x := goal * unitsPerStep
  { start := 2 * d.now, x := k.1, v := k.2.1, a := a
    segs := profileSegs (jerkMax d) (accelMax d) (speedMax d) k.2.1 a (x - k.1), rest := some x, cruise := 0 }

/-- The motion that takes up the speed `w` and keeps it (R100, R102). -/
def planSpeed (w : Int) (d : Device) : Plan :=
  let k := motionNow d
  let a := planAccel d
  { start := 2 * d.now, x := k.1, v := k.2.1, a := a, segs := toSpeed (jerkMax d) (accelMax d) k.2.1 a w, rest := none, cruise := w }

/-- The emergency ramp: constant EDEC from the present speed to rest (R95). -/
def planRamp (d : Device) : Plan :=
  let k := motionNow d
  let n := rampTime (rampDecel d) k.2.1
  let a := if 0 < k.2.1 then -(rampDecel d) else rampDecel d
  { start := 2 * d.now, x := k.1, v := k.2.1, a := a, segs := [(0, n)], rest := some (kinAfter 0 n (k.1, k.2.1, a)).1, cruise := 0 }

/-- The plan `p` is under way from now. -/
def withPlan (p : Plan) (d : Device) : Device := updMotion (fun m => { m with plan := some p, plannedAt := d.now, current := .run }) d

/-- The planned motion reaches the next microstep outward or inward at a half tick within half a tick of now (R93). -/
def planDue (now : Nat) (m : Motion) (outward : Bool) : Bool :=
  match m.plan with
  | some p =>
    let x := (planAt p (2 * now + 1)).1
    if outward then decide ((m.pos + 1) * unitsPerStep ≤ x) else decide (x ≤ (m.pos - 1) * unitsPerStep)
  | none => false

/-- The planned motion is over: at rest, every microstep emitted. -/
def planOver (now : Nat) (m : Motion) : Bool :=
  (match m.plan with | some p => planEnded p (2 * now) | none => true) && !planDue now m true && !planDue now m false

/-! ### Starting motions (Table 04-3) -/

/-- The emergency ramp starts (R95): source 69, EMERG counts; gearing and its pending change, a park and a seek end. -/
def startRamp (cause : Nat) (after : MotionState) (d : Device) : Device :=
  let d := withPlan (planRamp d) d
  raise 69 (countF 0x9050 31 24 (updMotion (fun m => { m with
    st := .emergency, ramping := true, afterRamp := after, stopCause := cause, armed := false, armedLate := false,
    engaging := false, gearDue := 0, seeking := false, parking := false, edgePos := none, offAtPark := false }) d))

/-- A ramp inside the homing sequence or an unhomed park, which keeps its state (Table 04-5, R102). -/
def innerRamp (d : Device) : Device :=
  raise 69 (countF 0x9050 31 24 (updMotion (fun m => { m with ramping := true }) (withPlan (planRamp d) d)))

/-- The homing sequence starts (Table 04-5): with the home switch asserted it starts at the back-off. -/
def startHome (after : AfterHome) (d : Device) : Device :=
  let on := homeSw d
  let d := withPlan (planSpeed (if on then homeFast d else -(homeFast d)) d) d
  refreshInhibit (updMotion (fun m => { m with
    st := .homing, atPark := false, posValid := false, travel := 0, afterHome := after, parking := false, engaging := false,
    phaseHome := if on then .backOff else .inward }) d)

/-- A profiled move to `goal` starts, or is replanned from the present motion (R93). A ratio change pending in GEARED is cancelled (Table
04-3 for MOVE; for PARK, log entry 85). -/
def startMove (goal : Int) (park : Bool) (d : Device) : Device :=
  let d := withPlan (planTo goal d) d
  refreshInhibit (updMotion (fun m => { m with
    st := .moving, atPark := false, goal := goal, parking := park, edgePos := none, clamped := false, ramping := false,
    seeking := false, offAtPark := m.offAtPark && park,
    armed := m.armed && m.st != .geared, armedLate := m.armedLate && m.st != .geared, engaging := false, gearDue := 0 }) d)

/-- PARK without a valid position: inward at VMAX until the home switch asserts, then the emergency ramp (R102). -/
def startUnhomedPark (d : Device) : Device :=
  let ramp := d.motion.ramping
  let d := if ramp then d else withPlan (planSpeed (-(speedMax d)) d) d
  let d := refreshInhibit (updMotion (fun m => { m with
    st := .unhomed, atPark := false, parking := true, posValid := false, afterHome := .nothing }) d)
  if homeSw d && !ramp then innerRamp d else d

/-- PARK in the present state (Table 04-3, R101, R102). -/
def doPark (d : Device) : Device :=
  match d.motion.st with
  | .fault => rejectMotion d
  | .emergency => updMotion (fun m => { m with parkAfterRamp := true }) d
  | .unhomed => if d.motion.parking then d else startUnhomedPark d
  | .homing => if d.motion.posValid then startMove (parkPos d) true d else startUnhomedPark d
  | .idle => if d.motion.needHome then startHome .park d else startMove (parkPos d) true d
  | .moving => startMove (parkPos d) true d
  | .geared => startMove (parkPos d) true d

/-- The park step of a seal and its like: PARK, with the phase current off when it completes (R103). -/
def parkDrive (d : Device) : Device :=
  if d.motion.st = .fault then d else doPark (updMotion (fun m => { m with offAtPark := true }) d)

/-- The drive stops serving: focus, tracking and sled centering OPEN_ZERO, spindle OPEN_ZERO and braked (Table 03-8, R513). -/
def brakeDrive (d : Device) : Device :=
  let d := openLoop 3 (openLoop 2 (openLoop 1 (openLoop 0 d)))
  { d with servo := { d.servo with braked := true, layer := none, targetLayer := none, script := none } }

/-- The park step of a seal (R57, R82, R378, Table 03-8): laser off, every loop OPEN_ZERO, the spindle braked, the sled parked. -/
def parkStep (d : Device) : Device := parkDrive (brakeDrive (laserOff d))

/-- A MOVE to TARGET starts; over a followed track it is a seek, for which tracking and sled centering open first (R514). -/
def doMove (d : Device) : Device :=
  let t := (d.reg 0x900C).toInt
  let (lo, hi) := softLimits d
  if t < lo || hi < t then rejectMotion d
  else if d.motion.st = .idle && d.motion.needHome then startHome .move d
  else
    let seek : Bool := (d.loop 1).st = .closed || (d.motion.st = .moving && d.motion.seeking)
    let d := if (d.loop 1).st = .closed then openLoop 3 (openLoop 1 d) else d
    updMotion (fun m => { m with seeking := seek }) (startMove t false d)

/-- MOVE (R93, Table 04-3). -/
def execMove (who : Requester) (s : State) : Host.Outcome State Fault Refusal :=
  effect s <| gate who 0x9000 false fun d =>
    match d.motion.st with
    | .idle => doMove d
    | .moving => doMove d
    | .geared => doMove d
    | .unhomed => rejectMotion d
    | .homing => rejectMotion d
    | .emergency => rejectMotion d
    | .fault => rejectMotion d

/-- HOME (R100, Table 04-3). -/
def execHome (who : Requester) (s : State) : Host.Outcome State Fault Refusal :=
  effect s <| gate who 0x9000 false fun d =>
    if d.motion.st = .unhomed || d.motion.st = .idle then startHome .nothing d else rejectMotion d

/-- PARK (R101, R102, Table 04-3). -/
def execPark (who : Requester) (s : State) : Host.Outcome State Fault Refusal :=
  effect s <| gate who 0x9000 false fun d => doPark (updMotion (fun m => { m with offAtPark := m.offAtPark && m.parkAfterRamp }) d)

/-- STOP (R95, R112, Table 04-3). -/
def execStop (who : Requester) (s : State) : Host.Outcome State Fault Refusal :=
  effect s <| gate who 0x9000 false fun d =>
    match d.motion.st with
    | .moving => refreshInhibit (startRamp 1 .idle d)
    | .geared => refreshInhibit (startRamp 1 .idle d)
    | .homing => refreshInhibit (startRamp 1 .unhomed d)
    | .unhomed => rejectMotion d
    | .idle => rejectMotion d
    | .emergency => rejectMotion d
    | .fault => rejectMotion d

/-- Gearing engages from the next encoder count (Table 04-3, R104): base is POS, acc is 0. -/
def doEngage (d : Device) : Device :=
  refreshInhibit (updMotion (fun m => { m with
    current := .run, atPark := false, base := m.pos, acc := 0, gearDue := 0, engaging := true, clamped := false }) d)

/-- GEAR_ENGAGE (R104): in IDLE with the spindle loop CLOSED. -/
def execGearEngage (who : Requester) (s : State) : Host.Outcome State Fault Refusal :=
  effect s <| gate who 0x9000 false fun d =>
    if d.motion.st = .idle && (d.loop 2).st = .closed then
      (if d.motion.needHome then startHome .gear d else doEngage d)
    else rejectMotion d

/-- Gearing ends at once in IDLE, a pending ratio change cancelled (Table 04-3). -/
def disengage (d : Device) : Device :=
  refreshInhibit (updMotion (fun m => { m with
    st := .idle, current := .hold, armed := false, armedLate := false, engaging := false, gearDue := 0 }) d)

/-- GEAR_DISENGAGE (R91). -/
def execGearDisengage (who : Requester) (s : State) : Host.Outcome State Fault Refusal :=
  effect s <| gate who 0x9000 false fun d => if d.motion.st = .geared then disengage d else rejectMotion d

/-- CLEAR_FAULT (R91): FAULT to UNHOMED. -/
def execClearFault (who : Requester) (s : State) : Host.Outcome State Fault Refusal :=
  effect s <| gate who 0x9000 false fun d =>
    if d.motion.st = .fault then refreshInhibit (updMotion (fun m => { m with st := .unhomed }) d) else rejectMotion d

/-- PROFILE_REPLAN (R93): every 250 ticks the profile is planned again from the present motion. A profile that still ends at its target
is its own replan. -/
def execProfileReplan (s : State) : Host.Outcome State Fault Refusal :=
  effect s fun d => onlyIf (d.motion.st = .moving && decide (d.motion.plannedAt + 250 ≤ d.now))
    (fun d =>
      let same : Bool := match d.motion.plan with | some p => p.rest = some (d.motion.goal * unitsPerStep) | none => false
      if same then updMotion (fun m => { m with plannedAt := d.now }) d else withPlan (planTo d.motion.goal d) d) d

/-! ### Microsteps (R87, R93, R99, R104, R108) -/

/-- One microstep outward or inward at tick `now`: POS and the electrical position move by one (R86, R87). -/
def microstep (now : Nat) (outward : Bool) (m : Motion) : Motion :=
  if outward then { m with pos := m.pos + 1, phase := (m.phase + 1) % 256, stepAt := some now, atPark := false }
  else { m with pos := m.pos - 1, phase := (m.phase + 255) % 256, stepAt := some now, atPark := false }

/-- A microstep of the homing sequence counts the travel of the present step (R100). -/
def homingStep (now : Nat) (outward : Bool) (m : Motion) : Motion :=
  let m := microstep now outward m
  { m with travel := m.travel + 1 }

/-- A microstep of the trim would carry POS beyond a soft limit, or would carry the target of a move there (R99). -/
def trimHeld (lo hi : Int) (outward : Bool) (m : Motion) : Bool :=
  let past (p : Int) : Bool := if outward then decide (hi ≤ p) else decide (p ≤ lo)
  past m.pos || (m.st = .moving && past m.goal)

/-- The trim's next microstep comes no sooner after the last microstep than VMAX allows (R108): 128 × VMAX ÷ 3 microsteps a second. -/
def trimPaced (now vmax : Nat) (m : Motion) : Bool :=
  match m.stepAt with
  | some t => decide (1171875 ≤ (now - t) * 2 * vmax)
  | none => true

/-- The trim's microstep moves the profile's position and target along with POS: the sum is what POS follows. -/
def trimStep (now : Nat) (outward : Bool) (m : Motion) : Motion :=
  let m := microstep now outward m
  let k : Int := if outward then 1 else -1
  let shift (p : Plan) : Plan := { p with x := p.x + k * unitsPerStep, rest := p.rest.map (· + k * unitsPerStep) }
  { m with trimDue := m.trimDue - k, goal := if m.st = .moving then m.goal + k else m.goal, plan := m.plan.map shift }

/-- A due microstep is emitted, when the motion it belongs to is under way and reaches it now (R93, R95, R100, R104). The trim's follow
those of the profile and of gearing (R108). -/
def emitStep (now : Nat) (lo hi : Int) (vmax : Nat) (src : StepSource) (outward : Bool) (m : Motion) : Motion :=
  match src with
  | .profile =>
    if (m.st = .moving || (m.st = .unhomed && m.parking && !m.ramping)) && planDue now m outward then microstep now outward m else m
  | .gear =>
    if m.st = .geared && m.gearDue != 0 && outward = decide (0 < m.gearDue) then
      { microstep now outward m with gearDue := if outward then m.gearDue - 1 else m.gearDue + 1 } else m
  | .trim =>
    if m.trimDue != 0 && outward = decide (0 < m.trimDue) && m.gearDue = 0 && !planDue now m true && !planDue now m false
        && (m.st = .idle || m.st = .geared || (m.st = .moving && !m.parking)) && m.current != .off
        && !trimHeld lo hi outward m && trimPaced now vmax m then trimStep now outward m
    else m
  | .homing => if m.st = .homing && !m.ramping && planDue now m outward then homingStep now outward m else m
  | .ramp => if m.ramping && planDue now m outward then microstep now outward m else m

/-- Geared motion plus trim would carry POS past a soft limit on which it stands, or beyond which it lies. -/
def atSoftLimit (lo hi : Int) (m : Motion) : Bool :=
  let due := m.gearDue + m.trimDue
  m.st = .geared && ((0 < due && decide (hi ≤ m.pos)) || (due < 0 && decide (m.pos ≤ lo)))

/-- The sled stops at the limit, in IDLE, with source 73 (R99); a pending ratio change and the microsteps of the trim still due end (log
entry 85). -/
def softLimitStop (d : Device) : Device :=
  let (lo, hi) := softLimits d
  if atSoftLimit lo hi d.motion then
    raise 73 (refreshInhibit (updMotion (fun m => { m with
      st := .idle, current := .hold, clamped := true, armed := false, armedLate := false, engaging := false, gearDue := 0,
      trimDue := 0 }) d))
  else d

/-- MICROSTEP_DUE (R93). -/
def execMicrostepDue (src : StepSource) (outward : Bool) (s : State) : Host.Outcome State Fault Refusal :=
  effect s fun d => softLimitStop
    (updMotion (emitStep d.now (softLimits d).1 (softLimits d).2 (d.regF 0x9010 15 0) src outward) d)

/-! ### The end of a motion (R94, R95, R100 to R103) -/

/-- A completed park (R101, R103): POS is corrected by the difference recorded at the edge, source 64, and the phase current goes to
HOLD_I, or off where the park was to end so. -/
def parkDone (d : Device) : Device :=
  let e := d.motion.edgePos.getD 0
  let d := updMotion (fun m => { m with
    st := if m.st = .moving then .idle else m.st, pos := m.pos - e, atPark := true, parking := false, edgePos := none,
    current := if m.offAtPark then .off else .hold, needHome := m.needHome || m.offAtPark, offAtPark := false, plan := none }) d
  raise 64 (refreshInhibit d)

/-- After a seek: with another layer wanted, the jump at the target radius, else tracking is acquired (R514). -/
def seekDone (d : Device) : Device :=
  match d.servo.targetLayer with
  | some l => if d.servo.layer = some l then putLoopCmd 1 .acquire (scriptTo .seek .track d) else startJump l d
  | none => putLoopCmd 1 .acquire (scriptTo .seek .track d)

/-- The profile has reached its target (R94, R101, R514). -/
def moveDone (d : Device) : Device :=
  if d.motion.parking then parkDone d
  else
    let seek := d.motion.seeking
    let d := raise 64 (refreshInhibit (updMotion (fun m => { m with st := .idle, current := .hold, plan := none, seeking := false }) d))
    if seek then seekDone d else d

/-- MOVE_COMPLETE (R94). -/
def execMoveComplete (s : State) : Host.Outcome State Fault Refusal :=
  effect s fun d => onlyIf (d.motion.st = .moving && planOver d.now d.motion && d.motion.pos = d.motion.goal) moveDone d

/-- What the automatic HOME preceded now starts (R91). -/
def afterHoming (d : Device) : Device :=
  let a := d.motion.afterHome
  let d := updMotion (fun m => { m with afterHome := .nothing, needHome := false }) d
  match a with
  | .nothing => d
  | .move => doMove d
  | .park => startMove (parkPos d) true d
  | .gear => if (d.loop 2).st = .closed then doEngage d else rejectMotion d

/-- The steps of the homing sequence that end with the sled at rest (Table 04-5): the back-off is followed by the slow approach, and the
last ramp by IDLE. -/
def pumpHoming (d : Device) : Device :=
  if d.motion.st != .homing || d.motion.ramping || !planOver d.now d.motion then d
  else
    match d.motion.phaseHome with
    | .extra => withPlan (planSpeed (-homeSlow) d) (updMotion (fun m => { m with phaseHome := .slow, travel := 0 }) d)
    | .finish => afterHoming (refreshInhibit (updMotion (fun m => { m with st := .idle, current := .hold, plan := none }) d))
    | _ => d

/-- A stop by a switch is at rest: UNHOMED, then its source (R97). -/
def switchRest (src : Nat) (d : Device) : Device :=
  raise src (refreshInhibit (updMotion (fun m => { m with
    st := .unhomed, posValid := false, rampSource := none, seeking := false, parking := false }) d))

/-- A PARK that waited for the ramp starts (Table 04-3). -/
def parkNext (d : Device) : Device :=
  if d.motion.parkAfterRamp then doPark (updMotion (fun m => { m with parkAfterRamp := false }) d) else d

/-- The emergency ramp is at rest (R95): source 70, and the state that follows it; in IDLE the current goes to HOLD_I, in UNHOMED off
(Table 04-2). -/
def rampAtRest (d : Device) : Device :=
  let d := raise 70 (updMotion (fun m => { m with ramping := false, plan := none }) d)
  match d.motion.st with
  | .homing => withPlan (planSpeed (homeFast d) d) (updMotion (fun m => { m with phaseHome := .backOff, travel := 0 }) d)
  | .unhomed => if d.motion.parking then parkDone d else d
  | _ =>
    let d := updMotion (fun m => { m with current := if m.afterRamp = .idle then .hold else .off }) d
    parkNext (match d.motion.rampSource with
      | some src => switchRest src d
      | none => refreshInhibit (updMotion (fun m => { m with
          st := m.afterRamp, posValid := m.posValid && m.afterRamp = .idle }) d))

/-- EMERGENCY_RAMP_AT_REST (R95). -/
def execEmergencyRampAtRest (s : State) : Host.Outcome State Fault Refusal :=
  effect s fun d => onlyIf (d.motion.ramping && planOver d.now d.motion) rampAtRest d

/-- PRE_DRIVER_FAULT (R96): current off at once, FAULT, position lost, source 76. -/
def execPreDriverFault (s : State) : Host.Outcome State Fault Refusal :=
  effect s fun d => raise 76 (countF 0x9050 7 0 (refreshInhibit (updMotion (fun m => { m with
    st := .fault, posValid := false, current := .off, atPark := false, ramping := false, parking := false, armed := false,
    armedLate := false, engaging := false, gearDue := 0, stopCause := 4, rampSource := none, parkAfterRamp := false,
    seeking := false, plan := none, edgePos := none, offAtPark := false, afterHome := .nothing }) d)))

/-! ### Limit switches (R89, R97) -/

/-- An accepted assertion of a switch during a MOVE or in GEARED acts as set for it (R97): HARD stops every emission at once and holds
RUN_I; RAMP starts the ramp, or lets one that runs go on (log entry 85). A PARK that waited for the ramp starts when the sled
stands. -/
def switchStop (outer : Bool) (d : Device) : Device :=
  let ramp := wbit (d.reg 0x9024) (b2n outer)
  let src := if outer then 68 else 67
  let cause := if outer then 3 else 2
  if ramp then
    if d.motion.ramping then d
    else updMotion (fun m => { m with rampSource := some src, posValid := false }) (refreshInhibit (startRamp cause .unhomed d))
  else
    parkNext (switchRest src (updMotion (fun m => { m with
      ramping := false, plan := none, current := .run, stopCause := cause, armed := false, armedLate := false, engaging := false,
      gearDue := 0, trimDue := 0, edgePos := none, offAtPark := m.offAtPark && m.parkAfterRamp }) d))

/-- The home edge during a park (R101): POS is recorded; a mismatch of more than 16 microsteps counts, raises source 75 and starts the
emergency ramp to UNHOMED (R95). -/
def parkEdge (d : Device) : Device :=
  if d.motion.pos.natAbs ≤ 16 then updMotion (fun m => { m with edgePos := some m.pos }) d
  else refreshInhibit (startRamp 6 .unhomed (raise 75 (countF 0x9050 23 16 d)))

/-- The home switch in the homing sequence (Table 04-5): the inward step ends in the emergency ramp; the back-off ends 213 microsteps
beyond the edge; the slow approach fixes the reference and ramps to rest. -/
def homingEdge (on : Bool) (d : Device) : Device :=
  match d.motion.phaseHome, on with
  | .inward, true => innerRamp (updMotion (fun m => { m with phaseHome := .ramp }) d)
  | .backOff, false =>
    withPlan (planTo (d.motion.pos + 213) d) (updMotion (fun m => { m with phaseHome := .extra, travel := 0 }) d)
  | .slow, true =>
    let p := planRamp d
    let k := d.motion.pos * unitsPerStep
    raise 65 (updMotion (fun m => { m with phaseHome := .finish, pos := 0, posValid := true, trimDue := 0 })
      (withPlan { p with x := p.x - k, rest := p.rest.map (· - k) } d))
  | _, _ => d

/-- An accepted change at the home switch, to asserted or released (R97, R100 to R102). -/
def homeChange (act : Bool) (d : Device) : Device :=
  match d.motion.st with
  | .homing => if d.motion.ramping then d else homingEdge act d
  | .unhomed => if act && d.motion.parking && !d.motion.ramping then innerRamp d else d
  | .moving => if !act then d else if d.motion.parking then parkEdge d else switchStop false d
  | .geared => if act then switchStop false d else d
  | .emergency => if act then switchStop false d else d
  | .idle => d
  | .fault => d

/-- A change of level at a limit switch is accepted (R89, R97, R100 to R102). -/
def switchChange (outer level : Bool) (d : Device) : Device :=
  let was := if outer then d.motion.outerLevel else d.motion.homeLevel
  if level = was then d
  else
    let d := updMotion (fun m => if outer then { m with outerLevel := level } else { m with homeLevel := level }) d
    if outer then
      (if outerSw d && (d.motion.st = .moving || d.motion.st = .geared || d.motion.st = .emergency) then switchStop true d else d)
    else homeChange (homeSw d) d

/-- LIMIT_SWITCH_CHANGE (R97): a new level is accepted once it has held for 25 consecutive ticks (R89). -/
def execLimitSwitchChange (outer level : Bool) (held : Nat) (s : State) : Host.Outcome State Fault Refusal :=
  effect s <| onlyIf (25 ≤ held) (switchChange outer level)

/-- The travel within which each homing step must see its switch, in microsteps (R100): 40.0 mm, 2.0 mm, 1.0 mm. -/
def homingLimit (p : HomingPhase) : Option Nat :=
  match p with
  | .inward => some 17067
  | .backOff => some 854
  | .slow => some 427
  | .ramp => none
  | .extra => none
  | .finish => none

/-- Homing has travelled its limit without its switch. -/
def homingOverrun (m : Motion) : Bool :=
  m.st = .homing && !m.ramping && (match homingLimit m.phaseHome with | some k => decide (k ≤ m.travel) | none => false)

/-- HOMING_FAILED (R100): current off, UNHOMED, source 66. -/
def execHomingFailed (s : State) : Host.Outcome State Fault Refusal :=
  effect s fun d => onlyIf (homingOverrun d.motion) (fun d => raise 66 (refreshInhibit (updMotion (fun m => { m with
    st := .unhomed, current := .off, posValid := false, afterHome := .nothing, plan := none }) d))) d

/-! ### Gearing (R104 to R107) -/

/-- The ratio would need more than VMAX at the measured count rate (R107): |ratio| / 2²⁴ × 2·10⁸ / interval microsteps per second
against VMAX × 128 / 3. -/
def overspeed (ratio : Int) (interval vmax : Nat) : Bool :=
  vmax * 128 * 16777216 * interval < ratio.natAbs * 200000000 * 3

/-- One encoder count in GEARED (R104): a due ratio change applies, the target advances. -/
def gearCount (d : Device) : Device :=
  let m := d.motion
  let hit := m.armedLate || (m.armed && m.masterPos = m.armedTrigger)
  let d := if hit then raise 71 (setReg 0x9030 m.armedNext d) else d
  let ratio := (d.reg 0x9030).toInt
  updMotion (fun m => { m with
    armed := m.armed && !hit, armedLate := false, engaging := false, acc := m.acc + ratio,
    gearDue := m.gearDue + ((m.acc + ratio).fdiv 16777216 - m.acc.fdiv 16777216) }) d

/-- The edge's time is measured in 1/8 tick: the interval since the previous edge enters the spindle's mean and the count rate (R61,
R107). -/
def measureEdge (t : Nat) (d : Device) : Device :=
  match d.servo.edgeAt with
  | some p => { d with servo := { d.servo with
      edgeAt := some t, edgeInterval := some (t - p), edges := (d.servo.edges.1 + (t - p), d.servo.edges.2 + 1) } }
  | none => { d with servo := { d.servo with edgeAt := some t } }

/-- A spindle encoder edge at time `t` in 1/8 tick (R61, R104, R107, R506). After the ramp of an overspeed the sled stands in IDLE (log
entry 85). -/
def encoderCount (t : Nat) (d : Device) : Device :=
  let d := measureEdge t { d with gen := { d.gen with edges := d.gen.edges + 1 } }
  let d := updMotion (fun m => { m with
    masterPos := m.masterPos + 1, st := if m.engaging && m.st = .idle then .geared else m.st, engaging := false }) d
  let d := refreshInhibit d
  if d.motion.st = .geared then
    let d := gearCount d
    let fast : Bool := match d.servo.edgeInterval with
      | some i => overspeed (d.reg 0x9030).toInt i (d.regF 0x9010 15 0)
      | none => false
    if fast then raise 74 (refreshInhibit (startRamp 5 .idle d)) else softLimitStop d
  else d

/-- ENCODER_EDGE (R104): edges come one after the other. -/
def execEncoderEdge (eighths : Nat) (s : State) : Host.Outcome State Fault Refusal :=
  effect s fun d => onlyIf (eighths < 8 && (match d.servo.edgeAt with | some p => decide (p < 8 * d.now + eighths) | none => true))
    (encoderCount (8 * d.now + eighths)) d

/-- GEAR_ARM (R105): the values in GEAR_NEXT and GEAR_TRIGGER are armed as they stand; a change already due applies at the next count. -/
def execGearArm (who : Requester) (s : State) : Host.Outcome State Fault Refusal :=
  effect s <| gate who 0x903C false fun d =>
    let late : Bool := (d.reg 0x9038 - d.motion.masterPos).toInt ≤ 0
    let d := updMotion (fun m => { m with
      armed := true, armedLate := late, late := m.late || late, armedNext := d.reg 0x9034, armedTrigger := d.reg 0x9038 }) d
    if late then raise 72 d else d

/-- GEAR_CANCEL (R105): the pending change is cancelled. -/
def execGearCancel (who : Requester) (s : State) : Host.Outcome State Fault Refusal :=
  effect s <| gate who 0x903C false (updMotion fun m => { m with armed := false, armedLate := false })

/-! ### Centering trim, adaptive loop 0x07 (R108, R109) -/

/-- TRIM_BOUNDS. -/
def trimBounds (d : Device) : Int × Int := (signedOf 12 (d.regF 0x9048 11 0), signedOf 12 (d.regF 0x9048 27 16))

/-- The trim becomes `t`; its difference is emitted as microsteps (R108). -/
def setTrim (t : Int) (d : Device) : Device :=
  updMotion (fun m => { m with trim := t, trimDue := m.trimDue + (t - m.trim) }) d

/-- A trim that is on no excursion goes to the nearest point of its bounds (R50). -/
def clampTrim (d : Device) : Device :=
  let (lo, hi) := trimBounds d
  if onExcursion d 7 then d else setTrim (clampInt lo hi d.motion.trim) d

/-- The excursion of the trim begins, for the operations in progress (R109). -/
def liftTrim (want : Int) (b : Int × Int) (d : Device) : Device :=
  let d := updMotion (fun m => { m with trimHeldBounds := b }) d
  excTake 7 3 (wordOfInt want) ((mediumOps d).foldl (fun d op => excFor 7 op d) d)

/-- The trim at a sled-centering output instant (R108, R109): y × 1,024 within the bounds, source 77 on reaching one; an excursion lifts
the bound for the operations in progress, and ends when the trim is back within its bounds (R48). -/
def trimUpdate (d : Device) : Device :=
  let y := (d.loop 3).output.toInt
  let want := clampInt (-1024) 1024 (roundDiv (y * 1024) 1048576)
  let exc := onExcursionFor d 7 3
  let keep := exc && !opsOver 7 d
  let b := if keep then d.motion.trimHeldBounds else trimBounds d
  let outside : Bool := want < b.1 || b.2 < want
  let atBound : Bool := want ≤ b.1 || b.2 ≤ want
  let run := if atBound && outSatOf d 1 && mediumBusy d then d.motion.satRun + 1 else 0
  let begins := !exc && 20 ≤ run && outside
  let was := d.motion.trimAtBound
  let d := setTrim (if (keep || begins) && outside then want else clampInt b.1 b.2 want)
    (updMotion (fun m => { m with satRun := run, trimAtBound := atBound }) d)
  let d := if atBound && !was then raise 77 d else d
  let d := if begins then liftTrim want b d
    else if keep && outside then excTake 7 3 (wordOfInt want) d
    else if exc then clampTrim (excEnd 7 3 d)
    else d
  softLimitStop d

/-! ### The output instant (R58, R71, R72) -/

/-- The sample taken at `t` is late: its result will be discarded (R71). -/
def markLate (n t : Nat) (d : Device) : Device :=
  let late (j : ServoJob) : ServoJob := if j.t0 = t then { j with late := true } else j
  updEngine n late (updLoop n (fun l => { l with jobs := l.jobs.map late }) d)

/-- A deadline miss of loop `n` with the sample taken at `t` (R71); two consecutive ones of focus are a servo fault (R72). Misses count
as consecutive over a time in which focus was not CLOSED too (log entry 83). -/
def missOutput (n t : Nat) (slack : Int) (d : Device) : Device :=
  let d := raise (32 + n) (countF (0x8118 + 0x200 * n) 31 16 (markLate n t (updLoop n (fun l => { l with ready := none }) d)))
  let d := noteSlack slack d
  if n != 0 then d
  else
    let d := { d with servo := { d.servo with onTimeRun := 0 } }
    if d.servo.focusMissed then
      let d := { d with
        servo := { d.servo with focusMissed := false, servoFault := true, faultInhibit := true }
        avs := { d.avs with servoFault := true } }
      refreshInhibit (raise 36 (count 0x8804 d))
    else { d with servo := { d.servo with focusMissed := true } }

/-- An output that is ready is applied; on focus the on-time run counts and releases the fault's inhibit at 100 (R72). -/
def applyOutput (n : Nat) (r : ReadyOutput) (d : Device) : Device :=
  let d := noteSlack r.slack (updLoop n (fun l => { l with output := r.y, outSat := r.sat, ready := none }) d)
  if n != 0 then d
  else
    let k := min 255 (d.servo.onTimeRun + 1)
    refreshInhibit { d with
      servo := { d.servo with
      onTimeRun := k, focusMissed := false, faultInhibit := d.servo.faultInhibit && k < 100 } }

/-- The output of the sample taken at `t` falls due: applied when it was computed in time, else missed (R58, R71). -/
def dueOutput (n t : Nat) (d : Device) : Device :=
  let d' := updLoop n (fun l => { l with due := none }) d
  match (d.loop n).ready with
  | some r => if 0 ≤ r.slack then applyOutput n r d' else missOutput n t r.slack d'
  | none => missOutput n t (-1) d'

/-- The output instant of loop `n` (R58, R71, R108). -/
def outputInstant (n : Nat) (d : Device) : Device :=
  let d := updLoop n (fun l => { l with outputAt := some d.now }) d
  let d := match (d.loop n).st, (d.loop n).due with
    | .closed, some t => dueOutput n t d
    | _, _ => d
  let d := if n = 1 then
      { d with servo := { d.servo with trackOuts := (loopOut d 1 :: d.servo.trackOuts).take 20 } } else d
  if n = 3 && (d.loop 3).st = .closed then trimUpdate d else d

/-- LOOP_OUTPUT_INSTANT (R71). -/
def execLoopOutputInstant (n : Nat) (s : State) : Host.Outcome State Fault Refusal :=
  effect s fun d => onlyIf (n < 4 && outputTick d n) (outputInstant n) d

/-- The sequencer's watchdog has expired (R81, R82): it is held in reset, so RUN reads 0 (Table 03-15), its script ends, source 47, and
loops that are not CLOSED open; in Primer the drive parks and the medium is not served until the next reset. -/
def watchdogExpired (d : Device) : Device :=
  let d := { d with servo := { d.servo with seqRun := false, seqExpired := true, script := none } }
  let d := openUnclosed (raise 47 (endActive 1 d))
  if d.gen.mode = .primer then failMedium (parkStep { d with servo := { d.servo with mediumDead := true } }) else d

/-- SEQ_WATCHDOG_EXPIRY (R81): 250,000 ticks without a KICK. -/
def execSeqWatchdogExpiry (s : State) : Host.Outcome State Fault Refusal :=
  effect s fun d => onlyIf (d.servo.seqRun && decide (d.servo.seqKick + 250000 ≤ d.now)) watchdogExpired d

end Sys2Proof.Machine
end

