-- ==== Sys2Proof/Machine/Codes.lean ====
section
/-!
DEFINITION. The codes that protect data: CRC-32C and CRC-16 (Table 01-8, R266), the SEC-DED code of the SRAMs (R441), the chunk code
of the flash (R425, R426), the cluster erasure code (R125, R126), the sector LDPC code (R122), the modulation code (R140), the sector
frame (R166), and the write strategy (R142, R146).
-/

namespace Sys2Proof.Machine

/-! ### Checksums -/

/-- One bit of the reflected CRC-32C. -/
def crc32cBit : Nat → BitVec 32 → BitVec 32
  | 0, c => c
  | n + 1, c => crc32cBit n (if c.getLsbD 0 then (c >>> 1) ^^^ 0x82F63B78 else c >>> 1)

/-- CRC-32C of bytes (Table 01-8: polynomial 0x1EDC_6F41, reflected, initial value and final XOR 0xFFFF_FFFF). -/
def crc32c (bs : List Byte) : BitVec 32 :=
  (bs.foldl (fun c b => crc32cBit 8 (c ^^^ b.setWidth 32)) 0xFFFFFFFF) ^^^ 0xFFFFFFFF

/-- One bit of the CRC-16 of R266. -/
def crc16Bit : Nat → BitVec 16 → BitVec 16
  | 0, c => c
  | n + 1, c => crc16Bit n (if c.getLsbD 15 then (c <<< 1) ^^^ 0x1021 else c <<< 1)

/-- CRC-16 of bytes: polynomial 0x1021, initial value 0xFFFF, no reflection, no final XOR (R266). -/
def crc16 (bs : List Byte) : BitVec 16 :=
  bs.foldl (fun c b => crc16Bit 8 (c ^^^ ((b.setWidth 16 : BitVec 16) <<< (8 : Nat)))) 0xFFFF

/-- The last 4 of `n` bytes hold the CRC-32C of those before them, little-endian. -/
def crcTailOk (n : Nat) (bs : List Byte) : Bool := leAt bs (n - 4) 4 = (crc32c (bs.take (n - 4))).toNat

/-! ### SEC-DED (R441) -/

/-- Weight of an eight-bit number. -/
def weight8 (n : Nat) : Nat := ((List.range 8).filter n.testBit).length

/-- Columns of data bits 0 to 63 (R441). -/
def secdedColumns : List Nat :=
  ((List.range 256).filter fun n => weight8 n = 3) ++ [0x1F, 0x2F, 0x37, 0x3B, 0x3D, 0x3E, 0x4F, 0x57]

/-- Column of bit `k`: data bits 0 to 63, then check bits 0 to 7. -/
def secdedColumn (k : Nat) : Nat := if k < 64 then secdedColumns.getD k 0 else 2 ^ (k - 64)

/-- The check bits of 64 data bits. -/
def secdedCheck (w : BitVec 64) : BitVec 8 :=
  BitVec.ofNat 8 (((List.range 64).filter fun i => w.getLsbD i).foldl (fun c i => c ^^^ secdedColumn i) 0)

/-- What a word read decodes to. -/
inductive SecDed where
  | clean
  | corrected (bit : Nat) (data : BitVec 64)
  | uncorrectable
  | poison
  deriving DecidableEq, Repr

/-- The syndrome: stored check XOR the check computed from the stored data. -/
def secdedSyndrome (w : BitVec 64) (c : BitVec 8) : BitVec 8 := c ^^^ secdedCheck w

/-- Decode a word (R441): a syndrome equal to a column marks a single-bit error, 0x7F marks poison. -/
def secdedDecode (w : BitVec 64) (c : BitVec 8) : SecDed :=
  let s := secdedSyndrome w c
  if s = 0 then .clean
  else if s = 0x7F then .poison
  else
    match (List.range 72).find? fun k => secdedColumn k = s.toNat with
    | some k => .corrected k (if k < 64 then w ^^^ BitVec.ofNat 64 (2 ^ k) else w)
    | none => .uncorrectable

/-! ### Flash chunks (R425, R426) -/

/-- Class of a chunk on read (Table 16-2): the bytes delivered and how many bits were corrected, or poison-marked. -/
inductive ChunkRead where
  | erased (corrected : Bool)
  | cleared
  | coded (data : List Byte) (corrected : Nat)
  | poison
  deriving DecidableEq, Repr

/-- x · r modulo the generator 0x495C9, the product of x⁹ + x⁴ + 1 and x⁹ + x⁶ + x⁴ + x³ + 1 (R425). -/
def bchTimesX (r : Nat) : Nat := if 2 ^ 17 ≤ r then Nat.xor (2 * r) 0x495C9 else 2 * r

/-- x^n modulo the generator. -/
def bchPow : Nat → Nat
  | 0 => 1
  | n + 1 => bchTimesX (bchPow n)

/-- Bits of bytes, bit i mod 8 of byte i div 8 first. -/
def bitsOfBytes (bs : List Byte) : List Bool := bs.flatMap fun b => (List.range 8).map b.getLsbD

/-- The remainder of a polynomial given by its coefficients, highest power first. -/
def bchRemainder (bits : List Bool) : Nat := bits.foldl (fun r b => Nat.xor (bchTimesX r) (b2n b)) 0

/-- Bits [17:0] of a chunk's check: the remainder of d(x) · x¹⁸. -/
def chunkRemainder (bytes : List Byte) : Nat :=
  bchRemainder ((bitsOfBytes bytes).reverse ++ List.replicate 18 false)

/-- Parity of a list of bits. -/
def parityOf (bits : List Bool) : Bool := bits.foldl (fun p b => p != b) false

/-- The 24 check bits that a program writes: remainder, even parity, marker 0b10101 (R425). -/
def chunkCheck (bytes : List Byte) : BitVec 24 :=
  let r := chunkRemainder bytes
  let p := parityOf (bitsOfBytes bytes ++ (List.range 18).map r.testBit)
  BitVec.ofNat 24 (r + b2n p * 2 ^ 18 + 0b10101 * 2 ^ 19)

/-- The 280 bits of a chunk: data, then check. -/
def chunkBits (bytes : List Byte) (check : BitVec 24) : List Bool :=
  bitsOfBytes bytes ++ (List.range 24).map check.getLsbD

/-- Invert the data bits of a chunk at the positions listed. -/
def flipData (flips : List Nat) (bytes : List Byte) : List Byte :=
  (List.range bytes.length).map fun i =>
    (flips.filter fun k => k / 8 = i).foldl (fun b k => b ^^^ BitVec.ofNat 8 (2 ^ (k % 8))) (bytes.getD i 0)

/-- Invert the check bits of a chunk at positions 256 to 279. -/
def flipCheck (flips : List Nat) (check : BitVec 24) : BitVec 24 :=
  (flips.filter fun k => 256 ≤ k).foldl (fun c k => c ^^^ BitVec.ofNat 24 (2 ^ (k - 256))) check

/-- Power of x at which bit `k` of data and remainder stands: data bit i at 18 + i, check bit j at j. -/
def chunkPower (k : Nat) : Nat := if k < 256 then 18 + k else k - 256

/-- Positions, among data and remainder bits, of at most two errors that explain syndrome `s`. -/
def bchLocate (s : Nat) : Option (List Nat) :=
  let tab := (List.range 274).map fun k => (k, bchPow (chunkPower k))
  if s = 0 then some []
  else
    match tab.find? fun p => p.2 = s with
    | some p => some [p.1]
    | none =>
      match tab.find? fun p => tab.any fun q => p.1 < q.1 && Nat.xor p.2 q.2 = s with
      | some p => (tab.find? fun q => p.1 < q.1 && Nat.xor p.2 q.2 = s).map fun q => [p.1, q.1]
      | none => none

/-- Classify what a chunk's sensed bits hold (Table 16-2). Marker bits that differ from 0b10101 count among the errors of a coded
chunk (DEDUCED from Table 16-8's pattern of three errors at positions 0, 137 and 279, log entry 16). -/
def readChunk (bytes : List Byte) (check : BitVec 24) : ChunkRead :=
  let zeros := ((chunkBits bytes check).filter (!·)).length
  let marker := (List.range 5).map fun i => check.getLsbD (19 + i)
  if zeros ≤ 2 then .erased (0 < zeros)
  else if (marker.filter id).length ≤ 1 then .cleared
  else
    let stored := (List.range 18).map check.getLsbD
    let syn := Nat.xor (chunkRemainder bytes) (check.toNat % 2 ^ 18)
    let odd := parityOf (bitsOfBytes bytes ++ stored ++ [check.getLsbD 18])
    let mark := ((List.range 5).filter fun i => marker.getD i false != (i % 2 = 0)).length
    match bchLocate syn with
    | none => .poison
    | some l =>
      let par := b2n (odd != (l.length % 2 = 1))
      let total := l.length + par + mark
      if total ≤ 2 then .coded (flipData (l.filter (· < 256)) bytes) total else .poison

/-! ### The cluster erasure code (R125, R126) -/

/-- α · a in GF(2⁸) generated by x⁸ + x⁴ + x³ + x² + 1. -/
def gfTimesX (a : Nat) : Nat := if 128 ≤ a then Nat.xor (2 * a) 0x11D % 256 else 2 * a

/-- Product in GF(2⁸), over the low `n` bits of the second factor. -/
def gfMulBits : Nat → Nat → Nat → Nat
  | 0, _, _ => 0
  | n + 1, a, b => Nat.xor (if b % 2 = 1 then a else 0) (gfMulBits n (gfTimesX a) (b / 2))

/-- Product in GF(2⁸). -/
def gfMul (a b : Nat) : Nat := gfMulBits 8 a b

/-- α^n. -/
def gfPow : Nat → Nat
  | 0 => 1
  | n + 1 => gfTimesX (gfPow n)

/-- a^n. -/
def gfExp (a : Nat) : Nat → Nat
  | 0 => 1
  | n + 1 => gfMul a (gfExp a n)

/-- The inverse a^254. -/
def gfInv (a : Nat) : Nat := gfExp a 254

/-- The coefficients of x¹ and x⁰ for the 16 data bytes of one codeword: the remainder of m(x)·x² by (x + 1)(x + α) = x² + 3x + 2. -/
def rsParity (m : List Nat) : Nat × Nat :=
  m.foldl (fun (p : Nat × Nat) a =>
    let t := Nat.xor a p.1
    (Nat.xor p.2 (gfMul t 3), gfMul t 2)) (0, 0)

/-- Byte `j` of each of a list of blocks. -/
def column (blocks : List (List Byte)) (j : Nat) : List Nat := blocks.map fun b => (b.getD j 0).toNat

/-- The two parity blocks of 16 data blocks (R125). -/
def parityBlocks (blocks : List (List Byte)) : List Byte × List Byte :=
  let ps := (List.range 4160).map fun j => rsParity (column blocks j)
  (ps.map fun p => BitVec.ofNat 8 p.1, ps.map fun p => BitVec.ofNat 8 p.2)

/-- The byte of lost sector `i`, when it alone or it and sector `k` are lost, from the other 16 or 17 (R126); lost sectors count as 0 in
`c`. -/
def rsRestore (c : List Nat) (i : Nat) (k : Option Nat) : Nat :=
  let s0 := c.foldl Nat.xor 0
  let s1 := ((List.range 18).map fun s => gfMul (c.getD s 0) (gfPow (17 - s))).foldl Nat.xor 0
  match k with
  | none => s0
  | some k =>
    let xi := gfPow (17 - i)
    let xk := gfPow (17 - k)
    gfMul (Nat.xor s1 (gfMul s0 xk)) (gfInv (Nat.xor xi xk))

/-- Restore the block of lost sector `i` (R126). -/
def restoreBlock (blocks : List (List Byte)) (i : Nat) (k : Option Nat) : List Byte :=
  (List.range 4160).map fun j => BitVec.ofNat 8 (rsRestore (column blocks j) i k)

/-! ### The sector code (R122, Table 05-2) -/

/-- The rows of the base matrix in which information column `c` has a block. -/
def ldpcRows (c : Nat) : List Nat := [c % 29, (c + 10) % 29, (c + 19) % 29]

/-- Shift of information block (r, c). -/
def ldpcShift (r c : Nat) : Nat := (17 * r * c + 3 * r + 5 * c) % 128

/-- The 128 code bits of block column `c` of a word. -/
def ldpcColumn (word c : Nat) : BitVec 128 := BitVec.ofNat 128 (word >>> (128 * c))

/-- What the information columns give to the 128 checks of base row `r`: row q of a block with shift s has its 1 in column q + s. -/
def ldpcInfo (word r : Nat) : BitVec 128 :=
  (List.range 260).foldl (fun x c =>
    if (ldpcRows c).contains r then x ^^^ (ldpcColumn word c).rotateRight (ldpcShift r c) else x) 0

/-- The first n parity columns of the information bits of a word, and the last of them: the check of row j joins columns j and j - 1. -/
def ldpcParity (word : Nat) : Nat → List (BitVec 128) × BitVec 128
  | 0 => ([], 0)
  | n + 1 =>
    let (before, last) := ldpcParity word n
    let p := ldpcInfo word n ^^^ last
    (before ++ [p], p)

/-- The 36,992 code bits of a recorded block. -/
def ldpcEncode (block : List Byte) : List Bool :=
  bitsOfBytes block ++ (ldpcParity (leNat block) 29).1.flatMap fun p => (List.range 128).map p.getLsbD

/-- Every parity check of a codeword is satisfied (R122). -/
def ldpcOk (word : Nat) : Bool :=
  (List.range 29).all fun r =>
    ldpcInfo word r = (if r = 0 then ldpcColumn word 260 else ldpcColumn word (260 + r) ^^^ ldpcColumn word (259 + r))

/-- The recorded block of a codeword: code bit i is bit i mod 8 of byte i div 8 (R122). -/
def codeBlock (word : Nat) : List Byte := leBytes 4160 word

/-! ### Modulation and the frame (R140, R141, R166) -/

/-- Base word of a pair of code bits (Table 06-2). -/
def baseWord (a b : Bool) : List Bool :=
  match a, b with
  | false, false => [false, true, false]
  | false, true => [false, false, true]
  | true, false => [true, false, false]
  | true, true => [true, false, true]

/-- Substitution word of the pairs `a 1`, `1 b` (Table 06-2). -/
def substWord (a b : Bool) : List Bool :=
  match a, b with
  | false, false => [false, false, true, false, false, false]
  | false, true => [false, true, false, false, false, false]
  | true, false => [true, false, true, false, false, false]
  | true, true => [true, false, false, false, false, false]

/-- Code bits to channel bits: a pair ending in 1 followed by a pair beginning with 1 takes a substitution word (R140). -/
def modulate : List Bool → List Bool
  | a :: b :: c :: d :: rest =>
    if b && c then substWord a d ++ modulate rest
    else baseWord a b ++ modulate (c :: d :: rest)
  | a :: b :: _ => baseWord a b
  | _ => []

/-- The 24 bits of the sync word (Table 07-2). -/
def syncWord : List Bool :=
  ((List.range 24).map fun i => (0b100000000010000000010100 : Nat).testBit (23 - i))

/-- The 56,640 channel bits of the frame that carries a recorded block (R166, Table 07-2). -/
def frameBits (block : List Byte) : List Bool :=
  (List.replicate 234 [true, false, false, false]).flatten ++ syncWord ++ modulate (ldpcEncode block)
    ++ (List.replicate 48 [false, true, false, false]).flatten

/-! ### Write strategy (R142, R146) -/

/-- Pw, Pe and Pb of a POWER word under a trim, in 0.1 mW (R142). -/
def writePowers (power : Word32) (trim : Int) : Nat × Nat × Nat :=
  let pw := (roundDiv ((fld power 9 0 : Int) * (1000 + trim)) 1000).toNat
  (pw, (roundDiv ((pw * fld power 23 16 : Nat) : Int) 256).toNat, (roundDiv ((pw * fld power 31 24 : Nat) : Int) 256).toNat)

/-- Strategy class of a mark of `n` channel bits: 0 to 6 for 2T to 8T, 7 from 9T (R146). -/
def markClass (n : Nat) : Nat := min 7 (n - 2)

/-- Edges E0 to E7 of a strategy entry from its two words (Table 06-3, Table 06-8): E1, E3 and E5 are unsigned. -/
def strategyEdges (w0 w1 : Word32) : List Int :=
  let s (w : Word32) (i : Nat) : Int := signedOf 8 (fld w (8 * i + 7) (8 * i))
  let u (w : Word32) (i : Nat) : Int := (fld w (8 * i + 7) (8 * i) : Nat)
  [s w0 0, u w0 1, s w0 2, u w0 3, s w1 0, u w1 1, s w1 2, s w1 3]

/-- Pulses of a mark of `n` channel bits, as rise and fall in T/32 from its nominal leading edge (R146): the first, n − 3 middle ones
and the last. -/
def pulses (e : List Int) (n : Nat) : List (Int × Int) :=
  let at_ (i : Nat) : Int := e.getD i 0
  let first := (at_ 0, at_ 0 + at_ 1)
  let middle := (List.range (n - 3)).map fun k =>
    let r := 32 * ((k : Int) + 1) + at_ 2
    (r, r + at_ 3)
  if n ≤ 2 then [first]
  else
    let r := 32 * ((n : Int) - 2) + at_ 4
    first :: middle ++ [(r, r + at_ 5)]

/-- Power changes of a mark in order, as level (0 Pe, 1 Pb, 2 Pw) and instant; an edge that would fall earlier than the one before it
falls with it (R146). -/
def strategyTrain (e : List Int) (n : Nat) : List (Nat × Int) :=
  let raw := (1, e.getD 7 0) :: (pulses e n).flatMap (fun p => [(2, p.1), (1, p.2)]) ++ [(0, 32 * (n : Int) + e.getD 6 0)]
  (raw.foldl (fun (acc : List (Nat × Int)) p =>
    match acc with
    | [] => [p]
    | (l, t) :: r => (p.1, max p.2 t) :: (l, t) :: r) []).reverse

/-- Marks of a run of channel bits that begins in a space: first channel bit and length. Each 1 is a transition (R140, R146). -/
def marksOf (bits : List Bool) : List (Nat × Nat) :=
  let step (acc : Nat × Option Nat × List (Nat × Nat)) (b : Bool) : Nat × Option Nat × List (Nat × Nat) :=
    match b, acc.2.1 with
    | false, _ => (acc.1 + 1, acc.2.1, acc.2.2)
    | true, none => (acc.1 + 1, some acc.1, acc.2.2)
    | true, some i => (acc.1 + 1, none, (i, acc.1 - i) :: acc.2.2)
  (bits.foldl step (0, none, [])).2.2.reverse

/-- The power changes that write a run of channel bits: each mark's train, from the strategy edges of its class, at its place. -/
def trainOf (edges : Nat → List Int) (bits : List Bool) : List (Nat × Int) :=
  (marksOf bits).flatMap fun m => (strategyTrain (edges (markClass m.2)) m.2).map fun p => (p.1, p.2 + 32 * (m.1 : Int))

/-- Channel bits as entries of the write FIFO: 64 to an entry, the oldest in bit 0 (R139). -/
def fifoEntries (bits : List Bool) : List (BitVec 64) :=
  (List.range (bits.length / 64)).map fun k =>
    BitVec.ofNat 64 (((bits.drop (64 * k)).take 64).foldr (fun b n => 2 * n + (if b then 1 else 0)) 0)

end Sys2Proof.Machine
end

