-- ==== Sys2Proof/Machine/Tokens.lean ====
section
/-!
DEFINITION. What stands on the data wires of the Lath (R256, R257, R266, R267): the bytes of each message of Table 10-3, the tokens that
they make, and the four phases in which a token crosses.
-/

namespace Sys2Proof.Machine

/-! ### Structures that cross whole -/

/-- FLAGS of a stream record. -/
def streamFlags (r : StreamRec) : Nat := b2n r.safety + 2 * b2n r.holdValid

/-- The 128 bytes of a stream record (Table 07-6). -/
def streamBytes (r : StreamRec) : List Byte :=
  leBytes 1 r.owner ++ leBytes 1 (streamCode r.st) ++ leBytes 1 r.home ++ leBytes 1 (streamFlags r)
    ++ leBytes 6 r.issued ++ leBytes 6 r.head ++ leBytes 6 r.tail ++ leBytes 2 0 ++ beBytes 16 r.chain.toNat
    ++ leBytes 8 r.createTick ++ leBytes 6 r.holdFirst ++ leBytes 6 r.holdLast ++ leBytes 4 0 ++ leBytes 6 r.forkSeq
    ++ List.replicate 58 0

/-- Bytes 4 to 59 of a slot record (Table 08-2). -/
def slotBody (r : SlotRecord) : List Byte :=
  leBytes 1 (r.keygen % 16) ++ leBytes 1 r.flags.toNat ++ leBytes 2 r.quota ++ leBytes 8 r.createTick
    ++ beBytes 40 r.wrapped.toNat ++ leBytes 4 0

/-- The 64 bytes of a slot record (Table 08-2). -/
def slotBytes (r : SlotRecord) : List Byte :=
  leBytes 4 r.state.toNat ++ slotBody r ++ leBytes 4 (crc32c (slotBody r)).toNat

/-- The 4,096 bytes of a table line (R185). -/
def lineBytes (r : TableRecs) : List Byte := (List.range 32).flatMap fun i => streamBytes (sget (fun _ => {}) r i)

/-- The 64 bytes of an attach block (R268). -/
def attachBytes (b : AttachBlock) : List Byte :=
  leBytes 1 b.twinId ++ leBytes 1 (modeCode b.mode) ++ leBytes 1 (b2n b.paired) ++ leBytes 1 0 ++ leBytes 8 b.serial.toNat
    ++ leBytes 8 b.fingerprint.toNat ++ leBytes 8 b.cartSerial.toNat ++ List.replicate 36 0

/-! ### Messages (R266, R267) -/

/-- TYPE (Table 10-3). -/
def msgType : LathMsg → Nat
  | .credit => 0x01
  | .detach _ => 0x04
  | .detachAck => 0x05
  | .modeNote _ _ => 0x06
  | .rd _ => 0x10
  | .own _ => 0x11
  | .upg _ => 0x12
  | .none _ _ => 0x13
  | .evicting _ => 0x14
  | .evict _ => 0x15
  | .evictAck _ => 0x16
  | .appBegin _ _ _ _ => 0x20
  | .appVerified _ _ _ => 0x21
  | .appFailed _ _ _ => 0x22
  | .appAbort _ _ => 0x23
  | .recovReq _ _ _ => 0x24
  | .ownerNote _ => 0x25
  | .ownerDone _ _ => 0x26
  | .catchBegin _ _ _ _ => 0x27
  | .catchDone _ _ => 0x28
  | .chainReq _ => 0x29
  | .pulseSync _ _ _ _ => 0x2A
  | .catchFailed _ _ _ => 0x2B
  | .pairConfirm _ => 0x30
  | .pairConfirmAck _ => 0x31
  | .data _ _ _ _ => 0x40
  | .evictD _ _ _ => 0x41
  | .cleanD _ _ _ => 0x42
  | .appData _ _ _ _ => 0x43
  | .recovData _ _ _ _ => 0x44
  | .catchData _ _ _ _ => 0x45
  | .hello _ => 0x46
  | .helloAck _ => 0x47
  | .tableXfer _ _ _ => 0x48
  | .chainVal _ _ => 0x49
  | .pairPoint _ => 0x4A
  | .keyXfer _ _ => 0x4B
  | .cartReg _ => 0x4C

/-- A data message (TYPE 0x40 to 0x5F, R266). -/
def isDataMsg (m : LathMsg) : Bool := 0x40 ≤ msgType m

/-- XID; for DATA the granted state (Table 10-2). -/
def msgXid : LathMsg → Nat
  | .appBegin x _ _ _ | .catchBegin x _ _ _ => x
  | .appVerified x _ _ | .appFailed x _ _ | .catchFailed x _ _ | .recovReq x _ _ => x
  | .appAbort x _ | .catchDone x _ => x
  | .appData x _ _ _ | .recovData x _ _ _ | .catchData x _ _ _ => x
  | .data _ c _ _ => cohCode c
  | _ => 0

/-- ARG (Table 10-3). -/
def msgArg : LathMsg → Nat
  | .detach t => t
  | .modeNote m sealing => modeCode m + 8 * b2n sealing
  | .rd k | .own k | .upg k | .evicting k | .evict k | .evictAck k => k
  | .none k _ => k
  | .appBegin _ o _ _ | .catchBegin _ o _ _ => o
  | .ownerNote n => n
  | .ownerDone n _ => n
  | .pulseSync _ _ _ _ => 1
  | .data k _ _ _ => k
  | .evictD k _ _ | .cleanD k _ _ | .tableXfer k _ _ => k
  | .appData _ u _ _ | .recovData _ u _ _ | .catchData _ u _ _ => u
  | .keyXfer n _ => n
  | _ => 0

/-- BODY of a control message from byte 4 on; its unused bytes are 0 (R267, R416). -/
def msgBody : LathMsg → List Byte
  | .none _ c => leBytes 1 (cohCode c)
  | .appBegin _ _ mark n | .catchBegin _ _ mark n => leBytes 8 mark ++ leBytes 2 n
  | .appVerified _ mark ovr => leBytes 8 mark ++ leBytes 1 (b2n ovr)
  | .appFailed _ mark st | .catchFailed _ mark st => leBytes 8 mark ++ leBytes 2 st
  | .appAbort _ mark | .catchDone _ mark => leBytes 8 mark
  | .recovReq _ mark u => leBytes 8 mark ++ leBytes 2 u
  | .ownerNote _ => leBytes 1 1
  | .ownerDone _ code => leBytes 1 code
  | .chainReq mark => leBytes 8 mark
  | .pulseSync ticks width lm pm => leBytes 4 ticks ++ leBytes 2 width ++ leBytes 1 lm ++ leBytes 1 pm
  | .pairConfirm code => leBytes 4 code
  | .pairConfirmAck equal => leBytes 1 (b2n equal)
  | _ => []

/-- Payload of a data message (Table 10-3). -/
def msgPayload : LathMsg → List Byte
  | .data _ _ r _ => lineBytes r
  | .evictD _ r _ | .cleanD _ r _ | .tableXfer _ r _ => lineBytes r
  | .appData _ _ bs _ | .recovData _ _ bs _ | .catchData _ _ bs _ => bs
  | .hello b | .helloAck b => attachBytes b
  | .chainVal mark h => leBytes 8 mark ++ beBytes 16 h.toNat
  | .pairPoint p => p
  | .keyXfer _ r => slotBytes r
  | .cartReg l => padTo 512 0 (l.flatMap fun s => leBytes 8 s.toNat)
  | _ => []

/-- POISON of a data message (R266). -/
def msgPoison : LathMsg → BitVec 32
  | .data _ _ _ p => p
  | .evictD _ _ p | .cleanD _ _ p | .tableXfer _ _ p => p
  | .appData _ _ _ p | .recovData _ _ _ p | .catchData _ _ _ p => p
  | _ => 0

/-- Header bytes 0 to 13 (Table 10-2). -/
def msgHead (m : LathMsg) (cr : Credits) : List Byte :=
  let p := msgPayload m
  let rest := if isDataMsg m then leBytes 2 p.length ++ leBytes 4 (msgPoison m).toNat ++ leBytes 4 (crc32c p).toNat
    else padTo 10 0 (msgBody m)
  leBytes 1 (msgType m) ++ leBytes 1 cr.control ++ leBytes 1 (16 * msgXid m + cr.data) ++ leBytes 1 (msgArg m) ++ rest

/-- A whole message: its header with HCRC, and its payload (R266). -/
def msgBytes (m : LathMsg) (cr : Credits) : List Byte :=
  let h := msgHead m cr
  h ++ leBytes 2 (crc16 h).toNat ++ msgPayload m

/-! ### Tokens (R257) -/

/-- The four wires of group `g` while they carry the value `v`. -/
def groupWires (g v : Nat) : Nat := 2 ^ (4 * g + v)

/-- LATH_D with a token on it: in group g the one wire 4g + v is high, v being token bits [2g + 1:2g]. -/
def tokenWires (t : Nat) : BitVec 32 :=
  BitVec.ofNat 32 ((List.range 8).foldl (fun w g => w + groupWires g (t / 4 ^ g % 4)) 0)

/-- The wires of group `g` that are high. -/
def groupHigh (w : BitVec 32) (g : Nat) : List Nat := (List.range 4).filter fun v => w.getLsbD (4 * g + v)

/-- All eight groups are valid: one wire is high in each. -/
def tokenValid (w : BitVec 32) : Bool := (List.range 8).all fun g => (groupHigh w g).length = 1

/-- The token on the wires. -/
def tokenRead (w : BitVec 32) : Nat := (List.range 8).foldl (fun t g => t + (groupHigh w g).headD 0 * 4 ^ g) 0

/-- The tokens of a message: token i carries byte 2i in bits [7:0] and byte 2i + 1 in bits [15:8]; `pad` stands where the last token has no
second byte, which the manual does not state (log entry 94). -/
def tokensOf (pad : Byte) : List Byte → List Nat
  | [] => []
  | [a] => [a.toNat + 256 * pad.toNat]
  | a :: b :: bs => (a.toNat + 256 * b.toNat) :: tokensOf pad bs

/-- The four phases of a token: the holder drives it, the receiver raises LATH_ACK, the holder returns to the spacer, the receiver lowers
LATH_ACK. -/
def tokenPhases (t : Nat) : List (BitVec 32 × Bool) :=
  let w := tokenWires t
  [(w, false), (w, true), (0, true), (0, false)]

/-- The levels of LATH_D and LATH_ACK while a message crosses. -/
def messageWires (pad : Byte) (m : LathMsg) (cr : Credits) : List (BitVec 32 × Bool) :=
  (tokensOf pad (msgBytes m cr)).flatMap tokenPhases

end Sys2Proof.Machine
end

