-- ==== Sys2Proof/Machine/Link.lean ====
section
/-!
DEFINITION. The Lath as a carrier of messages (R256 to R267): classes, credits, the queue and the turn in which it is sent, and what
every received message does beside its own meaning. What stands on the wires is in Tokens.lean.
-/

namespace Sys2Proof.Machine

/-- Change the Lath and twin logic. -/
def updLath (f : Lath → Lath) (d : Device) : Device := { d with lath := f d.lath }

/-- Class of a message (Table 10-3): 0 reply, 1 request, 2 notice. -/
def msgClass : LathMsg → Nat
  | .credit => 0
  | .detach _ => 1
  | .detachAck => 0
  | .modeNote _ _ => 2
  | .rd _ => 1
  | .own _ => 1
  | .upg _ => 1
  | .none _ _ => 0
  | .evicting _ => 0
  | .evict _ => 2
  | .evictAck _ => 0
  | .appBegin _ _ _ _ => 1
  | .appVerified _ _ _ => 0
  | .appFailed _ _ _ => 0
  | .appAbort _ _ => 2
  | .recovReq _ _ _ => 1
  | .ownerNote _ => 2
  | .ownerDone _ _ => 0
  | .catchBegin _ _ _ _ => 1
  | .catchDone _ _ => 0
  | .chainReq _ => 1
  | .pulseSync _ _ _ _ => 2
  | .catchFailed _ _ _ => 0
  | .pairConfirm _ => 1
  | .pairConfirmAck _ => 0
  | .data _ _ _ _ => 0
  | .evictD _ _ _ => 2
  | .cleanD _ _ _ => 2
  | .appData _ _ _ _ => 1
  | .recovData _ _ _ _ => 0
  | .catchData _ _ _ _ => 1
  | .hello _ => 1
  | .helloAck _ => 0
  | .tableXfer _ _ _ => 1
  | .chainVal _ _ => 0
  | .pairPoint _ => 1
  | .keyXfer _ _ => 1
  | .cartReg _ => 1

/-- A message may be sent with the credits held: a reply with any, any other with 2 data or 5 control credits (R264, R265). -/
def hasCredit (l : Lath) (m : LathMsg) : Bool :=
  let need := if msgClass m = 0 then 1 else if isDataMsg m then 2 else 5
  decide (need ≤ if isDataMsg m then l.creditD else l.creditC)

/-- LATH_ARB_OUT is raised, but for the guard time (R260). -/
def raiseArb (d : Device) : Device :=
  if d.lath.arbOut || d.lath.guard then d else updLath (fun l => { l with arbOut := true, arbSince := d.now }) d

/-- A message is queued, and the direction requested (R260). -/
def sendMsg (m : LathMsg) (d : Device) : Device :=
  if d.lath.live then raiseArb (updLath (fun l => { l with queue := l.queue ++ [m] }) d) else d

/-- Take the first message of the queue that satisfies `p`. -/
def takeMsg (p : LathMsg → Bool) : List LathMsg → Option (LathMsg × List LathMsg)
  | [] => none
  | m :: ms => if p m then some (m, ms) else (takeMsg p ms).map fun r => (r.1, m :: r.2)

/-- The queued reply that is sent next, if it has credit. -/
def nextReply (l : Lath) : Option (LathMsg × List LathMsg) := takeMsg (fun m => msgClass m = 0 && hasCredit l m) l.queue

/-- The message that the holder sends next: replies first, then other control messages, then data messages, each only with credit
(R262). -/
def nextMsg (l : Lath) : Option (LathMsg × List LathMsg) :=
  match nextReply l with
  | some r => some r
  | none =>
    match takeMsg (fun m => !isDataMsg m && hasCredit l m) l.queue with
    | some r => some r
    | none => takeMsg (fun m => hasCredit l m) l.queue

/-- A message crosses the wires (R257). -/
def crossWires (m : LathMsg) (cr : Credits) (d : Device) : Device :=
  let w := messageWires ((freeDraw d).setWidth 8) m cr
  let d := if (msgPayload m).length % 2 = 1 then drawn d else d
  updLath (fun l => { l with wires := w }) d

/-- One message leaves with the credits freed since the last report (R264, R266). -/
def sendOne (m : LathMsg) (rest : List LathMsg) (d : Device) : Device :=
  let d := crossWires m { control := min 32 d.lath.freedC, data := min 8 d.lath.freedD } (count 0xE024 d)
  updLath (fun l => { l with
    queue := rest, sent := (m, { control := min 32 l.freedC, data := min 8 l.freedD }) :: l.sent,
    freedC := l.freedC - 32, freedD := l.freedD - 8,
    creditC := if isDataMsg m then l.creditC else l.creditC - 1,
    creditD := if isDataMsg m then l.creditD - 1 else l.creditD }) d

/-- The turn of the holder: it sends while it has credit for something queued. `left` messages remain until LATH_ARB_IN is seen high, if it
is seen so in this turn; from then on only queued replies are sent (R262). -/
def sendTurn : Nat → Option Nat → Device → Device
  | 0, _, d => d
  | n + 1, left, d => match if left = some 0 then nextReply d.lath else nextMsg d.lath with
    | none => d
    | some (m, rest) => sendTurn n (left.map (· - 1)) (sendOne m rest d)

/-- The direction is taken, the turn sent, and the direction released into the guard time (R260, R262; log entry 15). -/
def takeTurn (left : Option Nat) (d : Device) : Device :=
  let d := sendTurn d.lath.queue.length left (updLath (fun l => { l with dir := .sending }) d)
  updLath (fun l => { l with dir := .idle, arbOut := false, guard := true, guardEnd := d.now + 12 }) d

/-- The slot of a received message is freed; a CREDIT message reports it when nothing queued would (R264). -/
def freeSlot (isData : Bool) (d : Device) : Device :=
  let d := updLath (fun l => if isData then { l with freedD := l.freedD + 1 } else { l with freedC := l.freedC + 1 }) d
  if d.lath.queue.isEmpty && (1 ≤ d.lath.freedD || 8 ≤ d.lath.freedC) then sendMsg .credit d else d

/-- A message arrives on a live Lath: it is counted, its credits are taken, its meaning `f` follows, and its slot is freed. -/
def receive (cr : Credits) (m : LathMsg) (f : Device → Device) (d : Device) : Device :=
  if d.lath.live then
    let d := crossWires m cr (count 0xE028 d)
    let d := updLath (fun l => { l with
      dir := .receiving, creditC := min 32 (l.creditC + cr.control), creditD := min 8 (l.creditD + cr.data) }) d
    let d := if d.lath.queue.isEmpty then d else raiseArb d
    freeSlot (isDataMsg m) (f d)
  else d

/-- TWIN_ID (R14). -/
def twinId (d : Device) : Nat := d.lath.strap % 2

/-- The pair mirrors: Topcoat. -/
def inTopcoat (d : Device) : Bool := d.gen.mode = .topcoat

/-- DIRECTION_TAKE (R260): ARB_OUT has been high, and LATH_ARB_IN low, for 5 ticks, and no guard time runs. `arbIn` tells how many messages
of the turn have gone when LATH_ARB_IN is next seen high, if it is in this turn (R262). -/
def execDirectionTake (arbIn : Option Nat) (s : State) : Host.Outcome State Fault Refusal :=
  effect s fun d => onlyIf (d.lath.live && d.lath.arbOut && !d.lath.guard && decide (d.lath.arbSince + 5 ≤ d.now)) (takeTurn arbIn) d

/-- ARB_COLLISION (R261): counted; TWIN_ID 1 lowers LATH_ARB_OUT and raises it again when the peer's turn arrives, so that its request
stands while it receives. -/
def execArbCollision (s : State) : Host.Outcome State Fault Refusal :=
  effect s fun d => onlyIf (d.lath.live && d.lath.arbOut)
    (fun d => updLath (fun l => if twinId d = 1 then { l with arbOut := false, dir := .receiving } else l) (count 0xE020 d)) d

/-- GUARD_TIME_END (R262): 12 ticks after the release; a message still queued requests the direction. -/
def execGuardTimeEnd (s : State) : Host.Outcome State Fault Refusal :=
  effect s fun d => onlyIf (d.lath.guard && decide (d.lath.guardEnd ≤ d.now)) (fun d =>
    let d := updLath (fun l => { l with guard := false }) d
    if d.lath.queue.isEmpty then d else raiseArb d) d

/-- CREDIT received (R264). -/
def execCredit (cr : Credits) (s : State) : Host.Outcome State Fault Refusal :=
  effect s (receive cr .credit id)

end Sys2Proof.Machine
end

