-- ==== Sys2Proof/Machine/Cache.lean ====
section
/-!
DEFINITION. The sector cache (09_cache.md): lookup, replacement, the victim cache and what leaves it, the range engine, ageing, SRAM
errors, and the table lines with their coherence requests.
-/

namespace Sys2Proof.Machine

/-- Change the cache. -/
def updCache (f : Cache → Cache) (d : Device) : Device := { d with cch := f d.cch }

/-- Line `i` of the main array. -/
def Device.line (d : Device) (i : Nat) : Line := sget (fun _ => {}) d.cch.main i

/-- Put a line into the main array. -/
def putLine (i : Nat) (l : Line) : Device → Device :=
  updCache fun c => { c with main := sset (fun _ => {}) i l c.main }

/-- A coherence request of this twin is outstanding for table line `k` (R248). -/
def requestOut (d : Device) (k : Nat) : Bool := (sget (fun _ => none) d.cch.requests k).isSome

/-- A notice or write-back of this twin is outstanding for table line `k` (R240). -/
def noticeOut (d : Device) (k : Nat) : Bool := d.cch.notices.contains k

/-- The line satisfies `p`, among the valid lines. -/
def isValid (p : Line → Bool) (l : Line) : Bool := l.valid && p l

/-- Index in the main array of the line that satisfies `p`. -/
def findMain (d : Device) (p : Line → Bool) : Option Nat := (List.range 64).find? fun i => isValid p (d.line i)

/-- The line of the victim cache that satisfies `p`. -/
def findVictim (d : Device) (p : Line → Bool) : Option Line := d.cch.victim.find? (isValid p)

/-- Is it the line of table line `k`? -/
def isTable (k : Nat) (l : Line) : Bool := l.table && l.addr = k

/-- A line that satisfies `p`, in either array. -/
def findLine (d : Device) (p : Line → Bool) : Option Line :=
  match findMain d p with
  | some i => some (d.line i)
  | none => findVictim d p

/-- Change every valid line that satisfies `p`, in both arrays. -/
def mapLines (p : Line → Bool) (f : Line → Line) (d : Device) : Device :=
  let d := (List.range 64).foldl (fun d i => if isValid p (d.line i) then putLine i (f (d.line i)) d else d) d
  updCache (fun c => { c with victim := c.victim.map fun l => if isValid p l then f l else l }) d

/-- Invalidate every line that satisfies `p`, in both arrays. -/
def dropLines (p : Line → Bool) (d : Device) : Device :=
  let d := (List.range 64).foldl (fun d i => if isValid p (d.line i) then putLine i {} d else d) d
  updCache (fun c => { c with victim := c.victim.filter fun l => !isValid p l }) d

/-- How many lines satisfy `p`. -/
def countLines (d : Device) (p : Line → Bool) : Nat :=
  ((List.range 64).filter fun i => isValid p (d.line i)).length + (d.cch.victim.filter (isValid p)).length

/-! ### The table store (R231) -/

/-- Write table line `k` to the table store. -/
def storeTable (k : Nat) (recs : TableRecs) (poison : BitVec 32) : Device → Device :=
  updCache fun c => { c with
    store := sset (fun _ => []) k recs c.store, storePoison := sset (fun _ => 0) k poison c.storePoison }

/-! ### Replacement (R234 to R240) -/

/-- An access: ageing counts it (R235). -/
def access : Device → Device := updCache fun c => { c with accesses := c.accesses + 1 }

/-- Age one line. -/
def ageLine (l : Line) : Line := { l with age := min 3 (l.age + 1) }

/-- The ageing tick (R235). -/
def ageAll (d : Device) : Device :=
  let d := (List.range 64).foldl (fun d i => if (d.line i).valid then putLine i (ageLine (d.line i)) d else d) d
  updCache (fun c => { c with accesses := 0, agedAt := d.now }) d

/-- A line is eligible for replacement (R236). -/
def eligible (d : Device) (l : Line) : Bool := !l.busy && !(l.table && requestOut d l.addr)

/-- One step of the replacement LFSR (R237). -/
def lfsrStep (s : Nat) : Nat :=
  let b := (s + s / 4 + s / 8 + s / 32) % 2
  s / 2 + b * 32768

/-- Replacement mode of a class: 0 NRU, 1 RANDOM (REPL_CFG). -/
def replMode (d : Device) (cls : Nat) : Nat :=
  if cls = 0 then d.regF 0xC000 1 0 else if cls = 1 then d.regF 0xC000 3 2 else d.regF 0xC000 5 4

/-- The eligible line with the highest AGE, the lowest index on a tie. -/
def nruChoice (d : Device) : Option Nat :=
  ((List.range 64).filter fun i => eligible d (d.line i)).foldl (fun b i =>
    match b with
    | none => some i
    | some j => if (d.line j).age < (d.line i).age then some i else some j) none

/-- The next eligible index from `i` upward, modulo 64. -/
def nextEligible (d : Device) (i : Nat) : Option Nat :=
  ((List.range 64).map fun j => (i + j) % 64).find? fun j => eligible d (d.line j)

/-- The line that a fill of class `cls` takes (R236, R237), with the device after the LFSR's step. -/
def chooseLine (cls : Nat) (d : Device) : Option Nat × Device :=
  match (List.range 64).find? fun i => !(d.line i).valid with
  | some i => (some i, d)
  | none =>
    if replMode d cls = 0 then (nruChoice d, d)
    else
      let s := lfsrStep (d.regF 0xC004 15 0)
      let d := setRegF 0xC004 15 0 s d
      (nextEligible d (s % 64), d)

/-- A line leaves the victim cache: a sector line is discarded; a table line goes to the table store, and in Topcoat the peer is
told (R240, R250). -/
def leaveCache (l : Line) (d : Device) : Device :=
  let d := count 0xC10C d
  if l.table then
    let d := storeTable l.addr l.recs l.poison d
    if inTopcoat d then
      let d := updCache (fun c => { c with notices := c.notices ++ [l.addr] }) d
      sendMsg (if l.coh = .m then .evictD l.addr l.recs l.poison else .evict l.addr) d
    else d
  else d

/-- A valid line replaced in the main array moves to the victim cache; when that is full its oldest leaves (R239). -/
def pushVictim (l : Line) (d : Device) : Device :=
  if !l.valid then d
  else if d.cch.victim.length < 8 then updCache (fun c => { c with victim := c.victim ++ [l] }) d
  else
    match d.cch.victim with
    | [] => d
    | old :: rest => leaveCache old (updCache (fun c => { c with victim := rest ++ [l] }) d)

/-- Put a new line in place of line `i`, which moves to the victim cache. -/
def replaceLine (i : Nat) (l : Line) (d : Device) : Device :=
  let old := d.line i
  pushVictim old (putLine i l d)

/-- PSA range of RANGE_CMD. -/
def rangeBounds (d : Device) : Nat × Nat :=
  ((d.reg 0xC014).toNat + d.regF 0xC018 15 0 * 2 ^ 32, (d.reg 0xC01C).toNat + d.regF 0xC020 15 0 * 2 ^ 32)

/-- The sector lines that a running INVALIDATE or PURGE_OWNER matches (Table 09-3). -/
def rangeMatches (op : RangeOp) (l : Line) : Bool :=
  match op with
  | .invalidate a b => !l.table && a ≤ l.addr && l.addr ≤ b
  | .purgeOwner n => !l.table && l.owner = n
  | .clean => false
  | .zeroLine => false

/-- A fill is held: its line matches the range operation that is running (R245). -/
def heldByRange (d : Device) (l : Line) : Bool :=
  match d.cch.range with
  | some (op, _) => rangeMatches op l
  | none => false

/-- A fill: it takes a line, or waits for an eligible one or for the range operation (R236 to R239, R245). -/
def fillLine (l : Line) (d : Device) : Device :=
  let wait (d : Device) : Device := updCache (fun c => { c with waiting := c.waiting ++ [l] }) d
  if heldByRange d l then wait d
  else
    match chooseLine l.cls d with
    | (some i, d) => replaceLine i l d
    | (none, d) => raise 118 (count 0xC118 (wait d))

/-- A hit in the victim cache moves the line back to the main array at AGE 0, where it takes a line chosen by its class's mode
(R239). -/
def swapBack (p : Line → Bool) (l : Line) (d : Device) : Device :=
  match chooseLine l.cls d with
  | (none, d) => d
  | (some i, d) =>
    let d := updCache (fun c => { c with victim := c.victim.eraseP (isValid p) }) d
    replaceLine i { l with age := 0 } d

/-- A lookup: the line found, if any, with the statistics, ages and the victim swap (R232, R235, R239). -/
def lookup (p : Line → Bool) (d : Device) : Option Line × Device :=
  let d := access d
  match findMain d p with
  | some i => (some (d.line i), count 0xC100 (putLine i { d.line i with age := 0 } d))
  | none =>
    match findVictim d p with
    | some l => (some l, swapBack p l (count 0xC108 d))
    | none => (none, count 0xC104 d)

/-! ### Table lines (R231, R246 to R250) -/

/-- Coherence state in which this twin holds table line `k`. -/
def cohOf (d : Device) (k : Nat) : Coh := ((findLine d (isTable k)).map (·.coh)).getD .i

/-- The table line `k` with records, as a fill installs it (R231, R234). -/
def tableLine (k : Nat) (c : Coh) (recs : TableRecs) (poison : BitVec 32) : Line :=
  { valid := true, table := true, addr := k, cls := 2, coh := c, recs := recs, poison := poison }

/-- Fill table line `k` from the table store in state `c`. -/
def fillTable (k : Nat) (c : Coh) (d : Device) : Device :=
  fillLine (tableLine k c (sget (fun _ => []) d.cch.store k) (sget (fun _ => 0) d.cch.storePoison k)) d

/-- Change the state of table line `k` where it is held; I takes it out of the cache. -/
def setCoh (k : Nat) (c : Coh) (d : Device) : Device :=
  if c = .i then dropLines (isTable k) d else mapLines (isTable k) (fun l => { l with coh := c }) d

/-- Does the state allow reading, or changing, records (Table 09-4)? -/
def cohAllows (c : Coh) (exclusive : Bool) : Bool :=
  match c with
  | .m => true
  | .e => true
  | .s => !exclusive
  | .i => false

/-- The request that table line `k` needs from its present state (Table 09-5). -/
def neededReq (c : Coh) (exclusive : Bool) : CohReq := if !exclusive then .rd else if c = .s then .upg else .own

/-- The message of a coherence request. -/
def reqMsg (r : CohReq) (k : Nat) : LathMsg :=
  match r with
  | .rd => .rd k
  | .own => .own k
  | .upg => .upg k

/-- Ask the peer for table line `k`, unless a request or a notice is outstanding for it (R240, R247). -/
def askLine (k : Nat) (exclusive : Bool) (d : Device) : Device :=
  if requestOut d k || noticeOut d k then d
  else
    let r := neededReq (cohOf d k) exclusive
    sendMsg (reqMsg r k) (updCache (fun c => { c with requests := sset (fun _ => none) k (some r) c.requests }) d)

/-- Obtain table line `k` to read or to change its records: at once from the cache, or outside Topcoat from the table store in M;
in Topcoat a request goes to the peer (R246, R250). True when the line may be used now; a line in E becomes M as it is changed. -/
def obtainLine (k : Nat) (exclusive : Bool) (d : Device) : Bool × Device :=
  let (hit, d) := lookup (isTable k) d
  match hit with
  | some l =>
    if cohAllows l.coh exclusive then (true, if exclusive then setCoh k .m d else d)
    else if inTopcoat d then (false, askLine k exclusive d)
    else (true, setCoh k .m d)
  | none => if inTopcoat d then (false, askLine k exclusive d) else (true, fillTable k .m d)

/-- The records of table line `k` as this twin holds them: its cache, or a fill that waits, or its table store. -/
def tableOf (d : Device) (k : Nat) : TableRecs :=
  match findLine d (isTable k) with
  | some l => l.recs
  | none =>
    match d.cch.waiting.find? (isTable k) with
    | some l => l.recs
    | none => sget (fun _ => []) d.cch.store k

/-- Poison of table line `k`. -/
def tablePoison (d : Device) (k : Nat) : BitVec 32 :=
  match findLine d (isTable k) with
  | some l => l.poison
  | none =>
    match d.cch.waiting.find? (isTable k) with
    | some l => l.poison
    | none => sget (fun _ => 0) d.cch.storePoison k

/-- The record of stream `s`, as this twin holds it. -/
def streamRec (d : Device) (s : Nat) : StreamRec := sget (fun _ => {}) (tableOf d (s / 32)) (s % 32)

/-- The record of stream `s` is poisoned (R242). -/
def streamPoisoned (d : Device) (s : Nat) : Bool := (tablePoison d (s / 32)).getLsbD (s % 32)

/-- Change the record of stream `s` in its table line, which is in use for the moment (R249). -/
def updStream (s : Nat) (f : StreamRec → StreamRec) (d : Device) : Device :=
  let k := s / 32
  let g (l : Line) : Line := { l with recs := supd (fun _ => {}) (s % 32) f l.recs, busy := true }
  if (findLine d (isTable k)).isSome then mapLines (isTable k) g d
  else if (d.cch.waiting.any (isTable k)) then
    updCache (fun c => { c with waiting := c.waiting.map fun l => if isTable k l then g l else l }) d
  else updCache (fun c => { c with store := supd (fun _ => []) k (supd (fun _ => {}) (s % 32) f) c.store }) d

/-- Commands that waited for table line `k` may run again. -/
def wakeLine (k : Nat) (d : Device) : Device :=
  { d with
      hif := { d.hif with
      cmds := d.hif.cmds.map fun c =>
      match c.phase with
      | .line j _ => if j = k then { c with phase := .dispatched } else c
      | _ => c } }

/-- An eviction notice of this twin is outstanding for table line `k`; the write-back of a CLEAN is none, for its line is still held (R240,
R254; log entry 100). -/
def evictOut (d : Device) (k : Nat) : Bool :=
  noticeOut d k && !(match d.cch.range with | some (.clean, ks) => ks.contains k | _ => false)

/-- This twin's answer to a request for table line `k` (Table 09-6): reply and new state. -/
def answerReq (k : Nat) (r : CohReq) (d : Device) : Device :=
  if evictOut d k then raise 116 (count 0xC110 (sendMsg (.evicting k) d))
  else
    let c := cohOf d k
    let l := findLine d (isTable k)
    let recs := (l.map (·.recs)).getD []
    let poison := (l.map (·.poison)).getD 0
    match r with
    | .rd =>
      match c with
      | .m => setCoh k .s (storeTable k recs poison (sendMsg (.data k .s recs poison) d))
      | .e => setCoh k .s (sendMsg (.none k .s) d)
      | .s => sendMsg (.none k .s) d
      | .i => sendMsg (.none k .e) d
    | .own => exclusive c recs poison
    | .upg => exclusive c recs poison
where
  exclusive (c : Coh) (recs : TableRecs) (poison : BitVec 32) : Device :=
    match c with
    | .m => setCoh k .i (sendMsg (.data k .m recs poison) d)
    | .e => setCoh k .i (sendMsg (.none k .m) d)
    | .s => setCoh k .i (sendMsg (.none k .m) d)
    | .i => sendMsg (.none k .m) d

/-- Is the held line of table line `k` in use? -/
def tableBusy (d : Device) (k : Nat) : Bool := ((findLine d (isTable k)).map (·.busy)).getD false

/-- A request for table line `k` arrives: answered at once, or deferred while the line is in use (R249), or by TWIN_ID 0 while its
own request is outstanding (R255). Outside Topcoat no coherence message is sent (R250). -/
def takeRequest (k : Nat) (r : CohReq) (d : Device) : Device :=
  if !inTopcoat d || 16 ≤ k then d
  else if tableBusy d k || (requestOut d k && twinId d = 0) then
    updCache (fun c => { c with deferred := c.deferred ++ [(k, r)] }) d
  else answerReq k r d

/-- Answer the deferred requests for table line `k`, in order. -/
def answerDeferred (k : Nat) (d : Device) : Device :=
  let due := d.cch.deferred.filter fun p => p.1 = k
  let d := updCache (fun c => { c with deferred := c.deferred.filter fun p => p.1 != k }) d
  due.foldl (fun d p => answerReq p.1 p.2 d) d

/-- This twin's request for table line `k` is satisfied: installed in state `c`, the commands that waited run, and a deferred request
of the peer is answered (R248, R255). -/
def grantLine (k : Nat) (c : Coh) (recs : TableRecs) (poison : BitVec 32) (d : Device) : Device :=
  let d := updCache (fun x => { x with requests := sset (fun _ => none) k none x.requests }) d
  let d := if (findLine d (isTable k)).isSome
    then mapLines (isTable k) (fun l => { l with coh := c, recs := recs, poison := poison }) d
    else fillLine (tableLine k c recs poison) d
  answerDeferred k (wakeLine k d)

/-- ZERO_LINE of table line `k` (R243): allocated in M, all zeros, POISON clear; in Topcoat obtained from the peer first. -/
def zeroTable (k : Nat) (d : Device) : Device :=
  if (findLine d (isTable k)).isSome then
    mapLines (isTable k) (fun l => { l with coh := .m, recs := [], poison := 0 }) d
  else fillLine (tableLine k .m [] 0) d

/-- A range operation that waits for the peer goes on without it: the lines of a CLEAN go to E, and a ZERO_LINE takes its line (Table
09-3, R243, R250). -/
def rangeAlone (d : Device) : Device :=
  match d.cch.range with
  | some (.clean, ks) =>
    let d := ks.foldl (fun d k => if cohOf d k = .m then setCoh k .e d else d) d
    updCache (fun c => { c with range := some (.clean, []) }) d
  | some (.zeroLine, ks) => updCache (fun c => { c with range := some (.zeroLine, []) }) (ks.foldl (fun d k => zeroTable k d) d)
  | _ => d

/-- Every outstanding request, notice and deferred answer is abandoned (R250). -/
def abandonCoherence (d : Device) : Device :=
  let any := d.cch.requests.length
  let d := rangeAlone (updCache (fun c => { c with requests := [], notices := [], deferred := [] }) d)
  let d := (List.range 16).foldl (fun d k => wakeLine k d) d
  if 0 < any then raise 117 d else d

/-! ### Range engine (R243 to R245) -/

/-- CLEAN in Topcoat: every table line in M is stored and sent to the peer; outside it each goes to E at once (Table 09-3). -/
def cleanLines (d : Device) : Device × List Nat :=
  let ks := (List.range 16).filter fun k => cohOf d k = .m
  let d := ks.foldl (fun d k =>
    let l := (findLine d (isTable k)).getD {}
    let d := storeTable k l.recs l.poison d
    if inTopcoat d then sendMsg (.cleanD k l.recs l.poison) (updCache (fun c => { c with notices := c.notices ++ [k] }) d)
    else setCoh k .e d) d
  (d, if inTopcoat d then ks else [])

/-- A range operation is accepted and runs (R244). -/
def startRange (op : RangeOp) (d : Device) : Device :=
  match op with
  | .invalidate _ _ => purge op d
  | .purgeOwner _ => purge op d
  | .clean =>
    let n := countLines d fun l => l.table && l.coh = .m
    let (d, ks) := cleanLines d
    updCache (fun c => { c with range := some (.clean, ks), affected := n }) d
  | .zeroLine =>
    let k := d.regF 0xC010 19 16
    if inTopcoat d && !cohAllows (cohOf d k) true then
      updCache (fun c => { c with range := some (.zeroLine, [k]), affected := 1 }) (askLine k true d)
    else updCache (fun c => { c with range := some (.zeroLine, []), affected := 1 }) (zeroTable k d)
where
  purge (op : RangeOp) (d : Device) : Device :=
    let n := countLines d (rangeMatches op)
    let d := dropLines (rangeMatches op) d
    updCache (fun c => { c with range := some (op, []), affected := n }) d

/-- A START while BUSY is ignored, latched, and raises source 113 (R245). -/
def rangeCommand (op : RangeOp) (code : Nat) (d : Device) : Device :=
  if d.cch.range.isSome then raise 113 (updCache (fun c => { c with ignored := true }) d)
  else startRange op (setRegF 0xC010 2 0 code d)

/-- INVALIDATE (R244). -/
def execInvalidate (who : Requester) (s : State) : Host.Outcome State Fault Refusal :=
  effect s <| gate who 0xC010 false fun d => rangeCommand (.invalidate (rangeBounds d).1 (rangeBounds d).2) 1 d

/-- CLEAN (R244). -/
def execClean (who : Requester) (s : State) : Host.Outcome State Fault Refusal :=
  effect s <| gate who 0xC010 false (rangeCommand .clean 2)

/-- PURGE_OWNER (R244). -/
def execPurgeOwner (who : Requester) (s : State) : Host.Outcome State Fault Refusal :=
  effect s <| gate who 0xC010 false fun d => rangeCommand (.purgeOwner (d.regF 0xC010 11 8)) 3 d

/-- ZERO_LINE (R243). -/
def execZeroLine (who : Requester) (s : State) : Host.Outcome State Fault Refusal :=
  effect s <| gate who 0xC010 false (rangeCommand .zeroLine 4)

/-- AGEING_TICK (R235): 4,096 accesses, or 25,000 ticks, since the last. -/
def execAgeingTick (s : State) : Host.Outcome State Fault Refusal :=
  effect s fun d => onlyIf (4096 ≤ d.cch.accesses || d.cch.agedAt + 25000 ≤ d.now) ageAll d

/-- A waiting fill goes in, when a line is eligible and no range operation holds it. -/
def fillWaiting (d : Device) : Device :=
  match d.cch.waiting.find? fun l => !heldByRange d l with
  | none => d
  | some l =>
    match chooseLine l.cls d with
    | (none, d) => d
    | (some i, d) =>
      let d := updCache (fun c => { c with waiting := c.waiting.erase l }) d
      let d := replaceLine i l d
      if l.table then wakeLine l.addr d else d

/-- FILL_AFTER_WAIT (R238). -/
def execFillAfterWait (s : State) : Host.Outcome State Fault Refusal := effect s fillWaiting

/-- TABLE_LINE_BUSY_CLEAR (R249): the record layer is done with table line k; a deferred request is answered. -/
def execTableLineBusyClear (k : Nat) (s : State) : Host.Outcome State Fault Refusal :=
  effect s fun d =>
    let d := mapLines (isTable k) (fun l => { l with busy := false }) d
    if requestOut d k && twinId d = 0 then d else answerDeferred k d

/-- RD received (R248). -/
def execRd (cr : Credits) (k : Nat) (s : State) : Host.Outcome State Fault Refusal :=
  effect s (receive cr (.rd k) (takeRequest k .rd))

/-- OWN received (R248). -/
def execOwn (cr : Credits) (k : Nat) (s : State) : Host.Outcome State Fault Refusal :=
  effect s (receive cr (.own k) (takeRequest k .own))

/-- UPG received (R248). -/
def execUpg (cr : Credits) (k : Nat) (s : State) : Host.Outcome State Fault Refusal :=
  effect s (receive cr (.upg k) (takeRequest k .upg))

/-- EVICTING received (R254): counted; this twin's request stays outstanding, for the notice answers it. -/
def execEvicting (cr : Credits) (k : Nat) (s : State) : Host.Outcome State Fault Refusal :=
  effect s (receive cr (.evicting k) fun d => onlyIf (requestOut d k) (fun d => raise 116 (count 0xC110 d)) d)

end Sys2Proof.Machine
end

