-- ==== Sys2Proof/Machine/Layout.lean ====
section
/-!
DEFINITION. Where things lie on a K6 cartridge and how they are laid out in bytes: areas, interleave groups and sector addresses
(R163 to R168), the sector header (R171), stream records (R185), Unvan records (R180, R184) and the activation record (R189).
-/

namespace Sys2Proof.Machine

/-! ### Areas, groups and addresses -/

/-- Data positions of a zone: 0 to 11,703 (R164). -/
def dataPositions : Nat := 11704

/-- Cluster positions of a zone, its 238 spares included (R164). -/
def clusterPositions : Nat := 11942

/-- Spares of a zone (R164). -/
def zoneSpares : Nat := 238

/-- First data position of a zone that its ring writes: the OPC test areas take 0 to 255 of zones 15, 31, 47 and 63 (Table 07-1). -/
def zoneStart (zone : Nat) : Nat := if zone % 16 = 15 then 256 else 0

/-- Place of the n-th data position of L0: boot area first, then the system area (R165). -/
def areaLoc (n : Nat) : Loc := { layer := 0, zone := n / dataPositions, pos := n % dataPositions }

/-- First system-area position as a data position of L0, after the boot area's 131,072 (Table 07-1). -/
def systemFirst : Nat := 131072

/-- Clusters of the system area (Table 07-1). -/
def systemClusters : Nat := 32768

/-- Location of activation copy A, the first system-area position, or copy B, the last (R189). -/
def activationLoc (copyB : Bool) : Loc := areaLoc (if copyB then systemFirst + systemClusters - 1 else systemFirst)

/-- A zone belongs to the owner pool (Table 07-1). -/
def inOwnerPool (layer zone : Nat) : Bool := layer < 6 && zone < 64 && (1 ≤ layer || 14 ≤ zone)

/-- Speed band of a zone (R142). -/
def bandOf (zone : Nat) : Nat := zone / 16

/-- The bits below bit `k` of the largest number whose square is at most `n`, on top of `r`. -/
def sqrtFrom (n : Nat) : Nat → Nat → Nat
  | 0, r => r
  | k + 1, r => sqrtFrom n k (if (r + 2 ^ k) * (r + 2 ^ k) ≤ n then r + 2 ^ k else r)

/-- Square of the radius at which zone `z` begins, in 10⁻²⁰ mm² (R163). -/
def zoneRadius2 (z : Nat) : Nat := 50625000000000000000000 + z * 4465234375000000000000

/-- What one frame adds to the square of the radius, in 10⁻²⁰ mm²: 2.718 72 mm times the track pitch of 0.24 µm, over π (log entry 6). -/
def frameRadius2 : Nat := 20769490890374289

/-- Square of the radius of a frame: an even layer is written from the zone's inner edge, an odd one from its outer edge (R163). -/
def frameRadiusAt (layer zone frame : Nat) : Nat :=
  if layer % 2 = 0 then zoneRadius2 zone + frame * frameRadius2 else zoneRadius2 (zone + 1) - frame * frameRadius2

/-- Frames per revolution at a frame, in millionths: S = 2πr ÷ 2.718 72 mm (R168). -/
def framesPerRev (layer zone frame : Nat) : Nat :=
  sqrtFrom (frameRadiusAt layer zone frame * 5341100779417869 / 10 ^ 23) 28 0

/-- m·S modulo D lies at least 2.0 from 0 and from D (R168), S in millionths. -/
def spreadOk (s d m : Nat) : Bool :=
  2000000 ≤ m * s % (1000000 * d) && m * s % (1000000 * d) + 2000000 ≤ 1000000 * d

/-- The smallest D from `d` upward that satisfies R168. -/
def depthFrom (s : Nat) : Nat → Nat → Nat
  | 0, d => d
  | n + 1, d => if spreadOk s d 1 && spreadOk s d 2 && spreadOk s d 3 then d else depthFrom s n (d + 1)

/-- Interleave depth D of the group whose first position is `first`, its first frame the 18-fold (R168). -/
def interleaveDepth (layer zone first : Nat) : Nat :=
  let s := framesPerRev layer zone (18 * first)
  depthFrom s 64 (max 1 ((s + 5999999) / 6000000))

/-- The interleave group that holds a position: its number, its first position and its depth. -/
def groupFrom (layer zone pos : Nat) : Nat → Nat → Nat → Nat × Nat × Nat
  | 0, g, first => (g, first, interleaveDepth layer zone first)
  | n + 1, g, first =>
    let d := interleaveDepth layer zone first
    if pos < first + d then (g, first, d) else groupFrom layer zone pos n (g + 1) (first + d)

/-- Group, first position and depth of a cluster position. -/
def groupOf (l : Loc) : Nat × Nat × Nat := groupFrom l.layer l.zone l.pos clusterPositions 0 0

/-- A physical sector address (R167). -/
def mkPsa (layer zone frame : Nat) : Nat := layer * 2 ^ 45 + zone * 2 ^ 39 + frame

/-- Layer of a sector address. -/
def psaLayer (psa : Nat) : Nat := psa / 2 ^ 45 % 8

/-- Zone of a sector address. -/
def psaZone (psa : Nat) : Nat := psa / 2 ^ 39 % 64

/-- Frame of a sector address. -/
def psaFrame (psa : Nat) : Nat := psa % 2 ^ 39

/-- Frames of a zone: its groups are whole, the last one with missing positions (R168). -/
def zoneFrames (layer zone : Nat) : Nat :=
  let (_, first, n) := groupOf ⟨layer, zone, clusterPositions - 1⟩
  18 * (first + n)

/-- Address of sector `slot` of the cluster at `l`: frame f of its group carries slot f div D of cluster f mod D (R168). -/
def psaOf (l : Loc) (slot : Nat) : Nat :=
  let (_, first, d) := groupOf l
  mkPsa l.layer l.zone (18 * first + (l.pos - first) + d * slot)

/-- The cluster that an address belongs to, and its sector (R168). -/
def clusterOfPsa (psa : Nat) : Loc × Nat :=
  let l : Loc := ⟨psaLayer psa, psaZone psa, psaFrame psa / 18⟩
  let (_, first, d) := groupOf l
  let f := psaFrame psa - 18 * first
  ({ l with pos := first + f % d }, f / d)

/-- Address of sector `slot` of a seal checkpoint, which lies in frames 0 to 17 of the group at position `l.pos` (R191). -/
def contigPsa (l : Loc) (slot : Nat) : Nat := mkPsa l.layer l.zone (18 * l.pos + slot)

/-- Address of a sector of a cluster being written. -/
def clusterPsa (c : WriteCluster) (slot : Nat) : Nat :=
  if c.kind = .sealCheckpoint then contigPsa c.loc slot else psaOf c.loc slot

/-- One location as a number, for the registers: layer × 64 + zone. -/
def zoneNumber (layer zone : Nat) : Nat := layer * 64 + zone

/-! ### Bytes -/

/-- TYPE of the sector header (Table 07-4). -/
def kindType : ClusterKind → Nat
  | .ownerData => 0
  | .ringCheckpoint => 1
  | .sealCheckpoint => 2
  | .directory => 3
  | .defectList => 4
  | .bootImage _ => 5
  | .activation _ => 6
  | .fill => 7
  | .format => 7

/-- The 28 bytes of a sector header before its HCRC (Table 07-4). -/
def headerBody (h : SectorHeader) : List Byte :=
  leBytes 6 h.psa ++ leBytes 4 h.pass ++ leBytes 1 (h.keygen * 16 + h.owner) ++ leBytes 1 (h.type * 16 + h.slot)
    ++ leBytes 1 h.d ++ leBytes 1 (b2n h.relocated + 2 * b2n h.contig) ++ leBytes 2 h.recOff ++ leBytes 8 h.ringCtr
    ++ leBytes 4 h.aux

/-- The 32 bytes of a sector header (R171). -/
def headerBytes (h : SectorHeader) : List Byte := headerBody h ++ leBytes 4 (crc32c (headerBody h)).toNat

/-- A header read from its bytes: none when HCRC does not match (R171). -/
def parseHeader (b : List Byte) : Option SectorHeader :=
  if crcTailOk 32 b then
    some { psa := leAt b 0 6, pass := leAt b 6 4, keygen := leAt b 10 1 / 16, owner := leAt b 10 1 % 16,
           type := leAt b 11 1 / 16, slot := leAt b 11 1 % 16, d := leAt b 12 1, relocated := (leAt b 13 1).testBit 0,
           contig := (leAt b 13 1).testBit 1, recOff := leAt b 14 2, ringCtr := leAt b 16 8, aux := leAt b 24 4 }
  else none

/-- A stream record read from its 128 bytes (Table 07-6). -/
def parseStream (b : List Byte) : StreamRec :=
  { owner := leAt b 0 1 % 16
    st := (match leAt b 1 1 with | 1 => .open | 2 => .closed | 3 => .forked | _ => .free)
    home := leAt b 2 1, safety := (leAt b 3 1).testBit 0, holdValid := (leAt b 3 1).testBit 1, issued := leAt b 4 6, head := leAt b 10 6
    tail := leAt b 16 6, chain := BitVec.ofNat 128 (beNat (slice 24 16 b)), createTick := leAt b 40 8, holdFirst := leAt b 48 6
    holdLast := leAt b 54 6, forkSeq := leAt b 64 6 }

/-- The stream table, 512 records in stream order (R174). -/
def tableBytes (d : Device) : List Byte := (List.range 512).flatMap fun s => streamBytes (streamRec d s)

/-- The header of an Unvan record with its CRC (Table 07-5); `host` holds what the host supplies. -/
def recordBytes (type flags stream seq ts : Nat) (payload : List Byte) : List Byte :=
  let h := [0x55, 0x56] ++ leBytes 1 type ++ leBytes 1 flags ++ leBytes 4 (32 + payload.length) ++ leBytes 2 stream
    ++ leBytes 6 seq ++ leBytes 8 ts ++ leBytes 4 0
  h ++ leBytes 4 (crc32c (h ++ payload)).toNat ++ payload

/-- The first 128 bits of a SHA-256 digest. -/
def first128 (h : BitVec 256) : BitVec 128 := (h >>> 128).setWidth 128

/-- H₀ of a stream: over "UVCH", the owner, a zero byte, the stream and CREATE_TICK (R184). -/
def chainStart (owner stream tick : Nat) : BitVec 128 :=
  first128 (Config.sha256 ([0x55, 0x56, 0x43, 0x48] ++ leBytes 1 owner ++ [0] ++ leBytes 2 stream ++ leBytes 8 tick))

/-- The chain after a group: over the previous H and every byte of the group's records (R184). -/
def chainNext (h : BitVec 128) (bytes : List Byte) : BitVec 128 := first128 (Config.sha256 (beBytes 16 h.toNat ++ bytes))

/-- Byte 64 + 64k onward of an activation record. -/
def bootSlotBytes (s : BootSlot) : List Byte :=
  leBytes 4 s.st ++ leBytes 4 s.length ++ leBytes 8 s.stageGen ++ beBytes 32 s.digest.toNat ++ List.replicate 16 0

/-- The 2,112 bytes of an activation record (Table 07-7). -/
def activationBytes (a : Activation) : List Byte :=
  leBytes 8 a.generation ++ leBytes 1 a.active ++ leBytes 1 a.previous ++ List.replicate 54 0
    ++ (List.range 32).flatMap fun k => bootSlotBytes (sget (fun _ => {}) a.slots k)

end Sys2Proof.Machine
end

