-- ==== Sys2Proof/Machine/Records.lean ====
section
/-!
DEFINITION. The record layer (07_record_layer.md): rings and their zones, naming and entry, cluster assembly, placement and checkpoints,
record groups with their commit and void, and the exchanges that mirror a group to the peer (R267, R274, R275, R282).
-/

namespace Sys2Proof.Machine

/-- Change the record layer. -/
def updRcl (f : RecordLayer → RecordLayer) (d : Device) : Device := { d with rcl := f d.rcl }

/-- Change the write channel. -/
def updWrc (f : WriteChannel → WriteChannel) (d : Device) : Device := { d with wrc := f d.wrc }

/-- The ring of owner `o`; 0 is the system area's (R173, R175). -/
def Device.ring (d : Device) (o : Nat) : Ring := sget (fun _ => {}) d.rcl.rings o

/-- Change the ring of owner `o`. -/
def updRing (o : Nat) (f : Ring → Ring) : Device → Device :=
  updRcl fun r => { r with rings := supd (fun _ => {}) o f r.rings }

/-- The record group with identity `id`. -/
def Device.group (d : Device) (id : Nat) : Option Group := d.rcl.groups.find? fun g => g.id = id

/-- Change the record group `id`. -/
def updGroup (id : Nat) (f : Group → Group) : Device → Device :=
  updRcl fun r => { r with groups := updateFirst (fun g => g.id = id) f r.groups }

/-- Owner slot `n` (R198). -/
def Device.slot (d : Device) (n : Nat) : Slot := sget (fun _ => {}) d.cry.slots n

/-- Change owner slot `n`. -/
def updSlot (n : Nat) (f : Slot → Slot) (d : Device) : Device :=
  { d with cry := { d.cry with slots := supd (fun _ => {}) n f d.cry.slots } }

/-! ### Streams -/

/-- Change the record of stream `s` once its table line is held in M: true when it is (R246). -/
def changeStream (s : Nat) (f : StreamRec → StreamRec) (d : Device) : Bool × Device :=
  match obtainLine (s / 32) true d with
  | (true, d) => (true, updStream s f d)
  | (false, d) => (false, d)

/-- A stream record made FREE, with its held range cleared (R216, R334). -/
def freeStream (r : StreamRec) : StreamRec :=
  { r with st := .free, holdValid := false, holdFirst := 0, holdLast := 0 }

/-- What a waiting change does. -/
def applyTask (t : TableTask) : Nat × (StreamRec → StreamRec) :=
  match t with
  | .tail s v => (s, fun r => { r with tail := max r.tail v })
  | .free s => (s, freeStream)
  | .put s x => (s, fun _ => x)

/-- Make one waiting change, or keep it waiting for its line. -/
def runTask (t : TableTask) (d : Device) : Device :=
  match changeStream (applyTask t).1 (applyTask t).2 d with
  | (true, d) => d
  | (false, d) => updRcl (fun r => { r with tasks := r.tasks ++ [t] }) d

/-- Try every change of a stream record that waits. -/
def runTasks (d : Device) : Device :=
  let ts := d.rcl.tasks
  ts.foldl (fun d t => runTask t d) (updRcl (fun r => { r with tasks := [] }) d)

/-! ### Zones of a ring (R173 to R178) -/

/-- The zone of the ring that was entered next after `z`. -/
def followZone (r : Ring) (z : Zone) : Option Zone :=
  (r.zones.filter fun y => z.entered < y.entered).foldl (fun b y =>
    match b with
    | none => some y
    | some x => if y.entered < x.entered then some y else some x) none

/-- First sequence of stream `s` after those that zone `z` holds: the HEAD in the checkpoint that opened the following zone. -/
def zoneEnd (d : Device) (r : Ring) (z : Zone) (s : Nat) : Nat :=
  match followZone r z with
  | some y => sget (fun _ => 0) y.openHeads s
  | none => (streamRec d s).head

/-- The zone holds a held record of one of the owner's streams (R179). -/
def zoneHeld (d : Device) (o : Nat) (r : Ring) (z : Zone) : Bool :=
  z.entered != 0 && (List.range 512).any fun s =>
    let x := streamRec d s
    x.owner = o && x.st != .free && x.holdValid && x.holdFirst < zoneEnd d r z s && sget (fun _ => 0) z.openHeads s ≤ x.holdLast

/-- A zone is eligible: in the ring, not its current zone, no held record in it (Append placement, R179). -/
def zoneEligible (d : Device) (o : Nat) (r : Ring) (i : Nat) : Bool :=
  i < r.zones.length && r.cur != some i &&
    (match r.zones[i]? with | some z => !zoneHeld d o r z | none => false)

/-- Zone `i` of the ring. -/
def ringZone (r : Ring) (i : Nat) : Zone := (r.zones[i]?).getD { layer := 0, zone := 0, pass := 0, entered := 0, openHeads := [] }

/-- Age class of a zone's contents: never written, left by an earlier ring, or entered by this one (R176). -/
def zoneAge (z : Zone) : Nat := if z.entered != 0 then z.entered + 1 else b2n (z.pass != 0)

/-- Contents of zone `a` are older than those of `b`: never written first; zones of one age in order of layer and zone (R176; log entry
19). -/
def zoneOlder (r : Ring) (a b : Nat) : Bool :=
  let x := ringZone r a
  let y := ringZone r b
  zoneAge x < zoneAge y || (zoneAge x = zoneAge y && zoneNumber x.layer x.zone < zoneNumber y.layer y.zone)

/-- Put an index into a list that is in order of age, oldest first. -/
def insertOldest (r : Ring) (i : Nat) : List Nat → List Nat
  | [] => [i]
  | j :: l => if zoneOlder r i j then i :: j :: l else j :: insertOldest r i l

/-- The eligible zones, oldest first. -/
def eligibleZones (d : Device) (o : Nat) : List Nat :=
  let r := d.ring o
  ((List.range r.zones.length).filter (zoneEligible d o r)).foldl (fun l i => insertOldest r i l) []

/-- The layer is one to avoid now: set in HOT_MASK with the AFE at or above HOT_TEMP (R176). -/
def layerHot (d : Device) (l : Nat) : Bool :=
  (d.regF 0x15004 21 16).testBit l && decide (signedOf 8 (d.regF 0x15004 31 24) ≤ d.pwr.tempAfe)

/-- Spares used in a zone (R164). -/
def sparesUsed (d : Device) (layer zone : Nat) : Nat := sget (fun _ => 0) d.rcl.spares (zoneNumber layer zone)

/-- Spares used in zone `i` of a ring. -/
def ringSpares (d : Device) (r : Ring) (i : Nat) : Nat := sparesUsed d (ringZone r i).layer (ringZone r i).zone

/-- Fewest spares used, the oldest on a tie: the candidates come oldest first. -/
def fewestSpares (d : Device) (r : Ring) (l : List Nat) : Option Nat :=
  l.foldl (fun b i =>
    match b with
    | none => some i
    | some j => if ringSpares d r i < ringSpares d r j then some i else some j) none

/-- Highest pass in a zone: its positions', and that of a spare written from another zone (R173). -/
def zoneTop (d : Device) (z : Zone) : Nat := max z.pass (sget (fun _ => 0) d.rcl.tops (zoneNumber z.layer z.zone))

/-- The next zone under R176, or outside the window under R177: its index, and whether it is an excursion. -/
def chooseNext (d : Device) (o : Nat) : Option (Nat × Bool) :=
  let r := d.ring o
  let all := eligibleZones d o
  let window := all.take (d.regF 0x15004 4 0)
  let spare (i : Nat) : Bool := ringSpares d r i < zoneSpares
  let cool := window.filter fun i => !layerHot d (ringZone r i).layer
  let normal := fewestSpares d r (if cool.isEmpty then window else cool)
  if window.any spare then normal.map fun i => (i, false)
  else
    match all.find? spare with
    | some i => some (i, true)
    | none => normal.map fun i => (i, false)

/-- A word for EXTREME: layer × 64 + zone (R177). -/
def zoneWord (z : Zone) : Word32 := BitVec.ofNat 32 (zoneNumber z.layer z.zone)

/-- Name the ring's next zone: an excursion begins when it lies outside the window, and the one under way ends when it lies within
(R176, R177). Source 202 when there is none. -/
def nameNext (o : Nat) (d : Device) : Device :=
  match chooseNext d o with
  | none => raise 202 (updRing o (fun r => { r with next := none }) d)
  | some (i, exc) =>
    let z := ringZone (d.ring o) i
    let was := (d.ring o).excursion
    let d := updRing o (fun r => { r with next := some i, excursion := exc }) d
    let d := updRcl (fun r => { r with lastChoice := zoneNumber z.layer z.zone }) d
    if exc then excTake 6 3 (zoneWord z) d
    else if was && !d.rcl.rings.any (fun p => p.2.excursion) then excEnd 6 3 d
    else d

/-! ### Spares (R154, R164) -/

/-- Zones of a layer in order of nearness to `zone`, the lower index first of two equally near (R154). -/
def nearZones (zone : Nat) : List Nat :=
  zone :: (List.range 63).flatMap fun k =>
    (if k + 1 ≤ zone then [zone - (k + 1)] else []) ++ (if zone + k + 1 < 64 then [zone + k + 1] else [])

/-- The next spare for a cluster at `l`: in its zone, else in the nearest zone of the layer that has one (R154). -/
def spareFor (d : Device) (l : Loc) : Option Loc :=
  ((nearZones l.zone).find? fun z => sparesUsed d l.layer z < zoneSpares).map fun z =>
    { layer := l.layer, zone := z, pos := dataPositions + sparesUsed d l.layer z }

/-- The spare at `l` is used, at pass `p` (R164, R173). -/
def useSpare (l : Loc) (p : Nat) : Device → Device :=
  updRcl fun r => { r with
    spares := supd (fun _ => 0) (zoneNumber l.layer l.zone) (· + 1) r.spares
    tops := supd (fun _ => 0) (zoneNumber l.layer l.zone) (max p) r.tops }

/-- The spares of a zone below position `e` are used up: a group that reaches among them has been written whole (log entry 89). -/
def useSparesTo (layer zone e : Nat) : Device → Device :=
  updRcl fun r => { r with spares := supd (fun _ => 0) (zoneNumber layer zone) (max (e - dataPositions)) r.spares }

/-- Where the cluster at `l` was moved to, `n` moves at most (R130, R154). -/
def movedFrom (m : List (Loc × Loc)) : Nat → Loc → Loc
  | 0, l => l
  | n + 1, l =>
    match m.reverse.find? fun x => x.1 = l with
    | some x => movedFrom m n x.2
    | none => l

/-- Where the cluster given position `l` lies now. -/
def placeNow (d : Device) (l : Loc) : Loc := movedFrom d.rcl.moved d.rcl.moved.length l

/-- The cluster at `a` lies at `b` from now on. -/
def noteMove (a b : Loc) : Device → Device := updRcl fun r => { r with moved := r.moved ++ [(a, b)] }

/-- Record bytes that lay at `a` lie at `b` now. -/
def movePieces (a b : Loc) : Device → Device :=
  updRcl fun r => { r with
    groups := r.groups.map fun g => { g with pieces := g.pieces.map fun p => if p.loc = some a then { p with loc := some b } else p } }

/-! ### Clusters to write (R138, R168, R174, R175) -/

/-- A cluster to be written. -/
def mkCluster (id owner ring : Nat) (kind : ClusterKind) (loc : Loc) (pass ctr : Nat) (data : List Byte) : WriteCluster :=
  { id := id, owner := owner, ring := ring, kind := kind, loc := loc, pass := pass, ringCtr := ctr, relocated := none,
    relocations := 0, groups := [], refresh := none, aux := 0, data := data, begins := [], ends := [], dir := [], dirRings := []
    sectors := [] }

/-- The next cluster identity is taken. -/
def takeId : Device → Device := updWrc fun w => { w with nextId := w.nextId + 1 }

/-- A cluster is queued for writing. -/
def queueCluster (c : WriteCluster) : Device → Device := updWrc fun w => { w with clusters := w.clusters ++ [c] }

/-- Usable positions of the system ring: the two activation records keep theirs (R175, R189). -/
def systemUsable : Nat := systemClusters - 2

/-- A cluster for the system area's ring, at its next position (R175). -/
def systemCluster (kind : ClusterKind) (data : List Byte) (dir : Sparse DirSlot) (rings : List DirRing) (d : Device) : Nat × Device :=
  let n := (d.ring 0).ctr
  let id := d.wrc.nextId
  let c := mkCluster id 0 0 kind (areaLoc (systemFirst + 1 + n % systemUsable)) (n / systemUsable + 1) n data
  (id, queueCluster { c with dir := dir, dirRings := rings } (takeId (updRing 0 (fun r => { r with ctr := r.ctr + 1 }) d)))

/-- The state and generation of every owner slot, as a directory checkpoint records them (R208). -/
def dirSnapshot (d : Device) : Sparse DirSlot :=
  (List.range 16).foldl (fun m n =>
    let x := d.slot n
    let old := sget (fun _ => {}) d.rcl.directory n
    let y : DirSlot :=
      { active := x.st = .active, destroyed := x.st = .destroyed,
        keygen := if x.st = .empty || x.st = .unavailable then old.keygen else some x.keygen }
    sset (fun _ => {}) n y m) []

/-- Put zone `i` into a list of a ring's zones that is in order of last entry. -/
def insertEntered (r : Ring) (i : Nat) : List Nat → List Nat
  | [] => [i]
  | j :: l => if (ringZone r i).entered < (ringZone r j).entered then i :: j :: l else j :: insertEntered r i l

/-- A ring as a directory checkpoint records it: its zones in order of last entry, each with its pass, its current and its next zone
(R175). -/
def dirRing (d : Device) (o : Nat) : DirRing :=
  let r := d.ring o
  let is_ := (List.range r.zones.length).foldl (fun l i => insertEntered r i l) []
  { owner := o, zones := is_.map fun i => ((ringZone r i).layer, (ringZone r i).zone, (ringZone r i).pass)
    cur := r.cur.bind fun i => is_.findIdx? (· = i), next := r.next.bind fun i => is_.findIdx? (· = i) }

/-- Every owner ring as a directory checkpoint records it; a destroyed owner's zones are free (R216, step 6). -/
def ringSnapshot (d : Device) : List DirRing :=
  ((List.range 16).filter fun o => 1 ≤ o && !(d.ring o).zones.isEmpty && (d.slot o).st != .destroyed).map (dirRing d)

/-- A directory checkpoint is queued; its identity (R175). -/
def writeDirectory (d : Device) : Nat × Device := systemCluster .directory [] (dirSnapshot d) (ringSnapshot d) d

/-- Every piece in cluster `id` lies at `l`. -/
def locatePieces (id : Nat) (l : Loc) : Device → Device :=
  updRcl fun r => { r with
    groups := r.groups.map fun g => { g with pieces := g.pieces.map fun p => if p.cluster = id then { p with loc := some l } else p } }

/-- The HEADs of the owner's streams now, as an opening checkpoint records them. -/
def headsNow (d : Device) (o : Nat) : Sparse Nat :=
  (List.range 512).foldl (fun m s =>
    let x := streamRec d s
    if x.owner = o && x.st != .free then sset (fun _ => 0) s x.head m else m) []

/-- The ring checkpoint that is due: the stream table as it stands now; the one that opens the zone's pass keeps its HEADs for the reclaim
(R174, R178). -/
def placeCheckpoint (o : Nat) (z : Zone) (d : Device) : Device :=
  let r := d.ring o
  let heads := headsNow d o
  let c := mkCluster d.wrc.nextId 0 o .ringCheckpoint ⟨z.layer, z.zone, r.pos⟩ z.pass r.ctr (tableBytes d)
  let zs := match r.cur, r.needCkpt with
    | some i, true => r.zones.set i { z with openHeads := heads }
    | _, _ => r.zones
  queueCluster c (takeId (updRing o (fun r => { r with
    zones := zs, pos := r.pos + 1, ctr := r.ctr + 1, sinceCkpt := 0, needCkpt := false }) d))

/-- A ring checkpoint is due at the ring's next position: the first cluster of a zone in a pass, and after every 63 data clusters (R174). -/
def checkpointDue (r : Ring) : Bool := r.needCkpt || r.sinceCkpt = 63

/-- The ring is written at its next position: a data cluster goes there. -/
def placeData (o : Nat) (z : Zone) (c : WriteCluster) (d : Device) : Device :=
  let r := d.ring o
  let l : Loc := ⟨z.layer, z.zone, r.pos⟩
  let d := updRing o (fun r => { r with pos := r.pos + 1, ctr := r.ctr + 1, sinceCkpt := r.sinceCkpt + 1 }) d
  let d := updRcl (fun x => { x with lastWritten := some o, sinceSeal := if x.sinceSeal.contains o then x.sinceSeal else x.sinceSeal ++ [o] }) d
  locatePieces c.id l (queueCluster { c with loc := l, pass := z.pass, ringCtr := r.ctr } d)

/-- A closed data cluster takes the ring's next position, after the ring checkpoint that is due; without a position it waits for the
entry to the next zone. -/
def placeCluster (o : Nat) (c : WriteCluster) (d : Device) : Device :=
  let r := d.ring o
  let wait (d : Device) : Device := updRing o (fun r => { r with waiting := r.waiting ++ [c] }) d
  match r.cur with
  | none => wait d
  | some i =>
    let z := ringZone r i
    if !r.waiting.isEmpty || dataPositions ≤ r.pos then wait d
    else
      let d := if checkpointDue r then placeCheckpoint o z d else d
      if dataPositions ≤ (d.ring o).pos then wait d else placeData o z c d

/-- The clusters that waited for the entry are placed, in order. -/
def placeWaiting (o : Nat) (d : Device) : Device :=
  let cs := (d.ring o).waiting
  cs.foldl (fun d c => placeCluster o c d) (updRing o (fun r => { r with waiting := [] }) d)

/-- The ring can take clusters: its current zone has a position, or a next zone is named (R176). -/
def ringOpen (d : Device) (o : Nat) : Bool :=
  let r := d.ring o
  r.next.isSome || (r.cur.isSome && r.pos < dataPositions)

/-! ### Cluster assembly (R182) -/

/-- Round up to a multiple of 8. -/
def align8 (n : Nat) : Nat := (n + 7) / 8 * 8

/-- Length of a cluster map with `n` entries. -/
def mapLength (n : Nat) : Nat := 32 + 16 * n

/-- The cluster map record (R182), whose offsets count from the start of the cluster. -/
def mapBytes (entries : List (Nat × Nat × Nat)) : List Byte :=
  recordBytes 0x80 0 0 0 0 (entries.flatMap fun e =>
    leBytes 2 e.1 ++ leBytes 6 e.2.1 ++ leBytes 4 (mapLength entries.length + e.2.2) ++ leBytes 4 0)

/-- The user bytes of a cluster that closes: its map, its content, and a pad record or zeros (R182). -/
def clusterBytes (a : Assembly) : List Byte :=
  let body := mapBytes a.entries ++ padTo (align8 a.bytes.length) 0 a.bytes
  let rest := 65536 - body.length
  body ++ (if 32 ≤ rest then recordBytes 0x81 0 0 0 0 (List.replicate (rest - 32) 0) else List.replicate rest 0)

/-- The offsets at which a record header begins in the closed cluster: the map, the records, the pad. -/
def clusterBegins (a : Assembly) : List Nat :=
  let m := mapLength a.entries.length
  0 :: a.begins.map (· + m) ++ (if align8 (m + a.bytes.length) + 32 ≤ 65536 then [align8 (m + a.bytes.length)] else [])

/-- The cluster that ring `o` assembles closes (R182). -/
def closeAssembly (o : Nat) (d : Device) : Device :=
  match (d.ring o).assembly with
  | none => d
  | some a =>
    let m := mapLength a.entries.length
    let c := mkCluster a.id o o .ownerData ⟨0, 0, 0⟩ 0 0 (clusterBytes a)
    let d := updRing o (fun r => { r with assembly := none }) d
    let shift (p : Piece) : Piece := if p.cluster = a.id then { p with off := p.off + m } else p
    let d := updRcl (fun r => { r with groups := r.groups.map fun g => { g with pieces := g.pieces.map shift } }) d
    placeCluster o { c with groups := a.groups, begins := clusterBegins a, ends := a.ends.map fun e => (e.1 + m, some e.2, 0) } d

/-- The cluster that ring `o` assembles, opened when there is none. -/
def openAssembly (o : Nat) (d : Device) : Assembly × Device :=
  match (d.ring o).assembly with
  | some a => (a, d)
  | none =>
    let a : Assembly := { id := d.wrc.nextId, bytes := [], entries := [], begins := [], ends := [], groups := [], since := d.now }
    (a, takeId (updRing o (fun r => { r with assembly := some a }) d))

/-- Room left for content at offset `at_` when the map has `n` entries. -/
def assemblyRoom (n at_ : Nat) : Nat := 65536 - mapLength n - at_

/-- Lay the rest of one record of group `gid` into ring `o`: `first` when the group begins here, `cont` when the record goes on from the
cluster before; `start` is where `bs` begins in the group's bytes. Ends when the fuel, one unit a cluster, does. -/
def layBytes (o gid stream seq : Nat) : Nat → Bool → Bool → Nat → List Byte → Device → Device
  | 0, _, _, _, _, d => d
  | n + 1, first, cont, start, bs, d =>
    if bs.isEmpty then d
    else
      let (a, d) := openAssembly o d
      let at_ := if cont then a.bytes.length else align8 a.bytes.length
      let new := first && a.entries.all fun e => e.1 != stream
      if (new && 64 ≤ a.entries.length) || (first && assemblyRoom (a.entries.length + b2n new) at_ < 8) then
        layBytes o gid stream seq n first cont start bs (closeAssembly o d)
      else
        let entries := if new then a.entries ++ [(stream, seq, at_)] else a.entries
        let room := assemblyRoom entries.length at_
        if room = 0 then layBytes o gid stream seq n first cont start bs (closeAssembly o d)
        else
          let here := bs.take room
          let a' : Assembly := { a with
            bytes := padTo at_ 0 a.bytes ++ here, entries := entries,
            begins := if cont then a.begins else a.begins ++ [at_],
            groups := if a.groups.contains gid then a.groups else a.groups ++ [gid] }
          let d := updRing o (fun r => { r with assembly := some a' }) d
          let p : Piece := { start := start, off := at_, len := here.length, cluster := a.id, loc := none }
          let d := updGroup gid (fun g => { g with
            pieces := g.pieces ++ [p], left := if g.left.contains a.id then g.left else g.left ++ [a.id] }) d
          let d := if here.length = room then closeAssembly o d else d
          layBytes o gid stream seq n false true (start + here.length) (bs.drop room) d

/-- An APPEND of owner `o` waits to be assembled (R182). -/
def appendWaiting (d : Device) (o : Nat) : Bool :=
  d.hif.cmds.any fun c => eOpcode c.entry = 0x01 && c.owner = o && c.phase != .running && c.phase != .done && c.phase != .dead

/-- The group's last byte has been laid: the cluster it ends in carries its chain value, be it assembling still or just closed (R184). -/
def endGroup (o gid : Nat) (d : Device) : Device :=
  match d.group gid with
  | none => d
  | some g =>
    match g.pieces.getLast? with
    | none => d
    | some p =>
      let e := p.off + p.len - 1
      let mark (c : WriteCluster) : WriteCluster := if c.id = p.cluster then { c with ends := c.ends ++ [(e, some gid, 0)] } else c
      let d := updRing o (fun r => { r with
        assembly := r.assembly.map fun a => if a.id = p.cluster then { a with ends := a.ends ++ [(e, gid)] } else a
        waiting := r.waiting.map mark }) d
      updWrc (fun w => { w with clusters := w.clusters.map mark }) d

/-- A cluster closes when its map is full, and at once with a DELAY of 0 and no append waiting (R182). -/
def closeIfDue (o : Nat) (d : Device) : Device :=
  match (d.ring o).assembly with
  | none => d
  | some a =>
    if 64 ≤ a.entries.length || (d.regF 0x1500C 15 0 = 0 && !appendWaiting d o) then closeAssembly o d else d

/-- Place every record of group `gid` in ring `o` (R182). -/
def placeGroup (o gid : Nat) (d : Device) : Device :=
  match d.group gid with
  | none => d
  | some g =>
    let d := g.recs.foldl (fun d r =>
      layBytes o gid g.stream g.first 40 (r.off = 0) false r.off (slice r.off r.len g.bytes) d) d
    closeIfDue o (endGroup o gid d)

/-! ### Record groups (R180, R181, R183, R184) -/

/-- The records of a payload as (offset, length), or none when R181 refuses it: MAGIC, LENGTH, TYPE, and records that do not fill it. -/
def parseRecords : Nat → Nat → List Byte → Option (List (Nat × Nat))
  | 0, _, _ => none
  | n + 1, off, bs =>
    let len := leAt bs (off + 4) 4
    let next := align8 (off + len)
    if leAt bs off 2 = 0x5655 && leAt bs (off + 2) 1 < 0x80 && 64 ≤ len && len ≤ 1048576 && off + len ≤ bs.length then
      if off + len = bs.length then some [(off, len)]
      else if next ≤ bs.length && (slice (off + len) (next - (off + len)) bs).all (· == 0) then
        (parseRecords n next bs).map fun l => (off, len) :: l
      else none
    else none

/-- The records of a record group's payload. -/
def groupRecords (bs : List Byte) : Option (List (Nat × Nat)) := parseRecords (bs.length / 64 + 1) 0 bs

/-- One record as the FX880 writes it: STREAM, SEQUENCE, FLAGS [2:0] and CRC are its own (R180). -/
def ownRecord (bs : List Byte) (r : Nat × Nat) (stream seq : Nat) (first last fork : Bool) : List Byte :=
  let h := slice r.1 32 bs
  let flags := leAt h 3 1 / 16 * 16 + b2n first + 2 * b2n last + 4 * b2n fork
  recordBytes (leAt h 2 1) flags stream seq (leAt h 16 8) (slice (r.1 + 32) (r.2 - 32) bs)

/-- The bytes of a group's records one after another (R184), and where each lies. -/
def groupBytes (bs : List Byte) (rs : List (Nat × Nat)) (stream first : Nat) (fork : Bool) : List RecInfo × List Byte :=
  let n := rs.length
  ((List.range n).zip rs).foldl (fun (acc : List RecInfo × List Byte) p =>
    let b := ownRecord bs p.2 stream (first + p.1) (p.1 = 0) (p.1 + 1 = n) fork
    (acc.1 ++ [{ seq := first + p.1, off := acc.2.length, len := b.length }], acc.2 ++ b)) ([], [])

/-- The bytes of a group as they cross the Lath and lie in a payload: each record on an 8-byte boundary. -/
def wireBytes (g : Group) : List Byte :=
  g.recs.foldl (fun bs r => padTo (align8 bs.length) 0 bs ++ slice r.off r.len g.bytes) []

/-- Put a group into a list that is in order of first sequence. -/
def insertGroup (g : Group) : List Group → List Group
  | [] => [g]
  | x :: l => if g.first < x.first then g :: x :: l else x :: insertGroup g l

/-- The groups of a stream that are neither committed nor void, in order of first sequence. -/
def openGroups (d : Device) (stream : Nat) : List Group :=
  (d.rcl.groups.filter fun g => g.stream = stream && g.st != .void && g.st != .committed).foldl (fun l g => insertGroup g l) []

/-- The chain value on which a group that begins at `seq` builds: the stream's, after the groups before it that may still commit
(R184). -/
def chainBefore (d : Device) (stream seq : Nat) : BitVec 128 :=
  ((openGroups d stream).filter fun g => g.first < seq).foldl (fun h g => chainNext h g.bytes) (streamRec d stream).chain

/-- The chain values of a stream's open groups are formed anew, each on the one before it: a void group does not extend the chain
(R183, R184). -/
def rechain (stream : Nat) (d : Device) : Device :=
  ((openGroups d stream).foldl (fun (acc : BitVec 128 × Device) g =>
    let h := chainNext acc.1 g.bytes
    (h, updGroup g.id (fun x => { x with chain := h }) acc.2)) ((streamRec d stream).chain, d)).2

/-- A new record group, its records' bytes already the FX880's own. -/
def addGroup (stream owner first : Nat) (recs : List RecInfo) (bytes : List Byte) (role : GroupRole) (d : Device) : Nat × Device :=
  let id := d.rcl.nextGroup
  let g : Group := { id := id, stream := stream, owner := owner, first := first, count := recs.length, recs := recs, bytes := bytes,
                     pieces := [], left := [], role := role, st := .open, peerDone := false,
                     peerOvr := !d.exc.active.isEmpty, chain := chainNext (chainBefore d stream first) bytes, sent := false }
  (id, updRcl (fun r => { r with groups := r.groups ++ [g], nextGroup := id + 1 }) d)

/-- The mark of a group's first record. -/
def groupMark (g : Group) : Nat := markOf g.stream g.first

/-- Streams above 511 name the two kinds of group that carry no record: parts of a boot image and activation records, which the model
keeps as groups because they cross to the peer in the same way (R282, R330). -/
def bootStream : Nat := 512

/-- The pseudo-stream of activation records. -/
def activationStream : Nat := 513

/-! ### Exchanges toward the peer (R267, R274, R282) -/

/-- The lowest exchange number not in use, if any (R267). -/
def freeXid (d : Device) : Option Nat := (List.range 16).find? fun x => !d.lath.openXids.any fun p => p.1 = x

/-- Units of 4,096 bytes. -/
def unitsOf (bs : List Byte) : List (List Byte) :=
  (List.range ((bs.length + 4095) / 4096)).map fun i => slice (4096 * i) 4096 bs

/-- Send a group to the peer as an APP or a CATCH exchange, every unit with the poison given (R274, R282). -/
def sendGroup (xid : Nat) (catching : Bool) (mark : Nat) (g : Group) (bs : List Byte) (poison : BitVec 32) (d : Device) : Device :=
  let us := unitsOf bs
  let d := updLath (fun l => { l with openXids := l.openXids ++ [(xid, g.id)] }) (updGroup g.id (fun g => { g with sent := true }) d)
  let d := sendMsg (if catching then .catchBegin xid g.owner mark us.length else .appBegin xid g.owner mark us.length) d
  ((List.range us.length).zip us).foldl (fun d p =>
    sendMsg (if catching then .catchData xid p.1 p.2 poison else .appData xid p.1 p.2 poison) d) d

/-- A leader's group that has not been sent to the peer. -/
def unsentGroup (g : Group) : Bool :=
  match g.role with
  | .leader _ => !g.sent && (g.st = .open || g.st = .verified)
  | _ => false

/-- Begin the exchanges of the groups that wait for an exchange number, at most `n` (R267, R274). A boot group crosses as catch-up does,
with a mark that the manual does not state (R330, log entry 17). -/
def pumpMirror : Nat → Device → Device
  | 0, d => d
  | n + 1, d =>
    match inTopcoat d, freeXid d, d.rcl.groups.find? unsentGroup with
    | true, some x, some g =>
      if g.stream < bootStream then pumpMirror n (sendGroup x false (groupMark g) g (wireBytes g) 0 d)
      else pumpMirror n (sendGroup x true (freeDraw d).toNat g g.bytes 0 (drawn d))
    | _, _, _ => d

/-- Exchange number under which group `id` stands open toward the peer. -/
def xidOf (d : Device) (id : Nat) : Option Nat := (d.lath.openXids.find? fun p => p.2 = id).map (·.1)

/-- An exchange toward the peer ends, and a group that waited takes its number. -/
def closeXid (xid : Nat) (d : Device) : Device :=
  pumpMirror 16 (updLath (fun l => { l with openXids := l.openXids.filter fun p => p.1 != xid }) d)

/-! ### Commit and void (R183, R184, R274 to R276, R332) -/

/-- A group is void: its sequences are void, STATS_VOID counts, source 205 (R183, R195). -/
def voidGroup (id : Nat) (d : Device) : Device :=
  match d.group id with
  | none => d
  | some g =>
    if g.st = .void || g.st = .committed then d
    else
      let d := updGroup id (fun g => { g with st := .void }) d
      if g.stream < bootStream then rechain g.stream (raise 205 (count 0x1501C d)) else d

/-- The command of a leader's group, if any. -/
def leaderTag (g : Group) : Option Nat :=
  match g.role with
  | .leader t => some t
  | _ => none

/-- The group may commit now: its local copy is verified, and in Topcoat a leader's has been confirmed by the peer (R22, R183). -/
def groupReady (d : Device) (g : Group) : Bool :=
  g.st = .verified && (g.peerDone || !inTopcoat d || (leaderTag g).isNone)

/-- A follower's copy in Topcoat: its leader commits it (R274). -/
def followsNow (d : Device) (g : Group) : Bool :=
  match g.role with
  | .follower _ => inTopcoat d
  | _ => false

/-- A group of the stream with lower sequences holds `g` back: it is neither committed nor void, and no verified follower's copy (R332). -/
def holdsBack (d : Device) (g x : Group) : Bool :=
  x.stream = g.stream && x.first < g.first && x.st != .committed && x.st != .void && !(followsNow d x && x.st = .verified)

/-- The stream record after a group commits: HEAD and CHAIN advance (R183 to R185). -/
def commitRec (g : Group) (r : StreamRec) : StreamRec :=
  if g.first + g.count ≤ r.head then r
  else { r with
    head := g.first + g.count, chain := chainNext r.chain g.bytes, issued := max r.issued (g.first + g.count) }

/-- Complete the command of a group: OK with its mark, SINGLE_COPY when only the local medium holds it (R22, R330, R331). -/
def completeGroup (g : Group) (d : Device) : Device :=
  match g.role with
  | .leader t =>
    let d := if g.peerDone && g.peerOvr then updCmd t (fun c => { c with ovr := true }) d else d
    finishWith t stOk (groupMark g) (!g.peerDone) 0 d
  | _ => d

/-- A group that came from the peer in catch-up is one that the peer holds (R282). -/
def notePeerHead (g : Group) (d : Device) : Device :=
  match g.role with
  | .caughtUp _ => updLath (fun l => { l with peerHeads := supd (fun _ => 0) g.stream (max (g.first + g.count)) l.peerHeads }) d
  | _ => d

/-- Commit group `g`, which is ready and first in its stream: true when its table line was at hand (R183, R333). -/
def commitGroup (g : Group) (d : Device) : Bool × Device :=
  match changeStream g.stream (commitRec g) d with
  | (true, d) => (true, completeGroup g (notePeerHead g (count 0x15018 (updGroup g.id (fun g => { g with st := .committed }) d))))
  | (false, d) => (false, d)

/-- The command of a failed group completes with the status owed, RESULT the mark of its first record (R324). -/
def payGroup (d : Device) (g : Group) : Device :=
  match g.role, g.owed with
  | .leader t, some st => finishWith t st (groupMark g) false (groupMark g) (updGroup g.id (fun g => { g with owed := none }) d)
  | _, _ => d

/-- The commands of failed groups that no earlier group of their stream holds back complete (R332). -/
def payOwed (d : Device) : Device := (d.rcl.groups.filter fun g => g.owed.isSome && !d.rcl.groups.any (holdsBack d g)).foldl payGroup d

/-- Commit every group that may commit, in sequence order within each stream, at most `n`. -/
def commitReady : Nat → Device → Device
  | 0, d => payOwed d
  | n + 1, d =>
    let d := payOwed d
    match d.rcl.groups.find? fun g =>
        g.stream < bootStream && groupReady d g && !followsNow d g && !d.rcl.groups.any (holdsBack d g)
          && !(requestOut d (g.stream / 32)) with
    | none => d
    | some g =>
      match commitGroup g d with
      | (true, d) => commitReady n d
      | (false, d) => d

/-- Commit what may commit now. -/
def settleGroups (d : Device) : Device := commitReady d.rcl.groups.length d

/-- A caught-up group that this twin cannot write: it is listed as a gap, the chain goes on from the peer's value after it, and the peer
hears CATCH_FAILED; while the list is full it stays in the backlog (R285). -/
def listGap (g : Group) (xid st : Nat) (d : Device) : Device :=
  let d :=
    if d.lath.gaps.any (fun p => p.1 = groupMark g) then updGroup g.id (fun g => { g with st := .void }) d
    else if d.lath.gaps.length < 1024 then
      let end_ := markOf g.stream (g.first + g.count)
      let d := updGroup g.id (fun g => { g with st := .void }) d
      let d := updLath (fun l => { l with
        gaps := l.gaps ++ [(groupMark g, g.count)], chainAsked := l.chainAsked ++ [(end_, .adopt)] }) d
      sendMsg (.chainReq end_) d
    else d
  raise 143 (sendMsg (.catchFailed xid (groupMark g) st) d)

/-- A leader's group has failed: it is void, and its command completes with the status once no earlier group of the stream is open (R332).
A part of the boot area waits for none. -/
def failLeader (g : Group) (t st : Nat) (d : Device) : Device :=
  let d := voidGroup g.id d
  settleGroups (if g.stream < bootStream then updGroup g.id (fun g => { g with owed := some st }) d else finishWith t st 0 false (groupMark g) d)

/-- A group whose copy on this medium cannot be written, with its status: in Topcoat the peer is told, both void it, and a leader's
command completes with the status (R155, R275). A caught-up group is listed as a gap (R285). -/
def failGroup (id st : Nat) (d : Device) : Device :=
  match d.group id with
  | none => d
  | some g =>
    if g.st = .void || g.st = .committed then d
    else
      match g.role with
      | .leader t =>
        let d := match xidOf d id with
          | some x => closeXid x (sendMsg (.appAbort x (groupMark g)) d)
          | none => d
        failLeader g t st d
      | .follower x => settleGroups (voidGroup id (sendMsg (.appFailed x (groupMark g) st) d))
      | .caughtUp x => listGap g x st d
      | .recovered => voidGroup id d

/-- Every group with bytes in the cluster fails with a status. -/
def failCluster (c : WriteCluster) (st : Nat) (d : Device) : Device := c.groups.foldl (fun d g => failGroup g st d) d

/-- This medium holds the whole group verified (R183): the peer is told of a follower's or a caught-up copy (R274, R282). -/
def groupVerified (g : Group) (d : Device) : Device :=
  let d := updGroup g.id (fun g => { g with st := .verified }) d
  match g.role with
  | .leader _ => d
  | .follower x => sendMsg (.appVerified x (groupMark g) g.peerOvr) d
  | .caughtUp x =>
    let d := updLath (fun l => { l with gaps := l.gaps.filter fun p => p.1 != groupMark g }) d
    sendMsg (.catchDone x (groupMark g)) d
  | .recovered => d

/-- Cluster `id` has passed RAW for group `gid`. -/
def groupPassed (id gid : Nat) (d : Device) : Device :=
  let d := updGroup gid (fun g => { g with left := g.left.erase id }) d
  match d.group gid with
  | some g => if g.left.isEmpty && g.st = .open then groupVerified g d else d
  | none => d

/-- The clusters that no zone can take any more fail their groups with MEDIUM_FULL (R176); source 203. -/
def failWaiting (o : Nat) (d : Device) : Device :=
  let cs := (d.ring o).waiting
  if cs.isEmpty then d
  else cs.foldl (fun d c => failCluster c stMediumFull d) (raise 203 (updRing o (fun r => { r with waiting := [] }) d))

/-- Clusters of ring `o` wait for a zone that nothing is going to name: no next zone stands, none is to be named but in Primer, and no
entry is under way (R175, R176). -/
def ringStuck (d : Device) (o : Nat) : Bool :=
  let r := d.ring o
  !r.waiting.isEmpty && r.next.isNone && r.entry.isNone && r.recovery = .recovered && (!r.naming || d.gen.mode = .primer)

/-- The rings that can take nothing more (R176). -/
def pumpFull (d : Device) : Device :=
  ((List.range 16).filter (ringStuck d)).foldl (fun d o => failWaiting o d) d

/-! ### Zone entry (R173, R175, R178, R197) -/

/-- The records that the zone held are reclaimed: TAIL rises to the HEAD that opened the ring's following zone (R178). -/
def reclaimZone (o : Nat) (z : Zone) (d : Device) : Device :=
  if z.entered = 0 then d
  else
    let r := d.ring o
    (List.range 512).foldl (fun d s =>
      let x := streamRec d s
      let v := zoneEnd d r z s
      if x.owner = o && x.st != .free && x.tail < v then runTask (.tail s v) d else d) d

/-- The twin asks again for every listed group (R285); the manual names no message for it: RECOV_REQ carries the mark and, as its unit,
0xFFFF, which no record has (log entry 18). -/
def askGaps (d : Device) : Device :=
  d.lath.gaps.foldl (fun d g =>
    sendMsg (.recovReq (d.lath.nextXid % 16) g.1 0xFFFF) (updLath (fun l => { l with nextXid := l.nextXid + 1 }) d)) d

/-- The entry, at the RAW pass of its directory checkpoint (R197): records are reclaimed, the pass rises, the ring goes on in the zone,
and a next zone is to be named. -/
def enterZone (o : Nat) (d : Device) : Device :=
  match (d.ring o).next with
  | none => updRing o (fun r => { r with entry := none }) d
  | some i =>
    let z := ringZone (d.ring o) i
    let d := reclaimZone o z d
    let z' : Zone := { z with pass := zoneTop d z + 1, entered := d.rcl.entryOrder, openHeads := headsNow d o }
    let d := updRing o (fun r => { r with
      zones := r.zones.set i z', cur := some i, next := none, pos := zoneStart z.zone, sinceCkpt := 0, needCkpt := true,
      entry := none, naming := true }) d
    let d := updRcl (fun r => { r with
      entryOrder := r.entryOrder + 1
      moved := r.moved.filter fun m => !(m.1.layer = z.layer && m.1.zone = z.zone) }) d
    let d := updSlot o (fun s => { s with zonesWritten := s.zonesWritten + 1 }) d
    askGaps (placeWaiting o (raise 200 d))

/-- An entry is due: no entry is under way, and the current zone is full, absent, or left after a placement excursion (R173). -/
def entryDue (d : Device) (o : Nat) : Bool :=
  let r := d.ring o
  r.next.isSome && r.entry.isNone && r.recovery = .recovered &&
    (match r.cur with
     | none => true
     | some _ => dataPositions ≤ r.pos || r.excursion)

/-- The named next zone is eligible. -/
def namedEligible (d : Device) (o : Nat) : Bool := match (d.ring o).next with | some i => zoneEligible d o (d.ring o) i | none => false

/-- ZONE_ENTRY begins (R178): eligibility is checked again, another zone is named if it has gone, but in Primer, where nothing names one
(R175), and the directory checkpoint of the entry is written. -/
def beginEntry (o : Nat) (d : Device) : Device :=
  let d := if namedEligible d o then d
    else if d.gen.mode = .primer then updRing o (fun r => { r with next := none }) d
    else nameNext o d
  if (d.ring o).next.isNone then failWaiting o (updRing o (fun r => { r with entry := none }) d)
  else
    let (id, d) := writeDirectory d
    updRing o (fun r => { r with entry := some id }) d

/-- The directory checkpoint of ring `o`'s entry has passed RAW: the zone is entered, unless a HOLD has made it ineligible meanwhile, when
another is named and the entry begins anew (R178, R197). -/
def entryPassed (o : Nat) (d : Device) : Device := if namedEligible d o then enterZone o d else beginEntry o d

/-- ZONE_ENTRY (R178). -/
def execZoneEntry (owner : Nat) (s : State) : Host.Outcome State Fault Refusal :=
  effect s fun d => onlyIf (1 ≤ owner && owner < 16 && entryDue d owner) (beginEntry owner) d

/-- The next zone is named within 1 s after the entry, with a directory checkpoint; in Primer nothing names one (R175, R176). -/
def nameAfterEntry (o : Nat) (d : Device) : Device :=
  let d := nameNext o (updRing o (fun r => { r with naming := false }) d)
  (writeDirectory d).2

/-- NEXT_ZONE_NAMING (R176). -/
def execNextZoneNaming (owner : Nat) (s : State) : Host.Outcome State Fault Refusal :=
  effect s fun d => onlyIf (1 ≤ owner && owner < 16 && (d.ring owner).naming && d.gen.mode != .primer) (nameAfterEntry owner) d

/-- The assembly delay has passed with no append waiting (R182). -/
def delayExpired (d : Device) (o : Nat) : Bool :=
  match (d.ring o).assembly with
  | none => false
  | some a => a.since + d.regF 0x1500C 15 0 ≤ d.now && !appendWaiting d o

/-- ASSEMBLY_DELAY_EXPIRY (R182). -/
def execAssemblyDelayExpiry (owner : Nat) (s : State) : Host.Outcome State Fault Refusal :=
  effect s fun d => onlyIf (delayExpired d owner) (closeAssembly owner) d

end Sys2Proof.Machine
end

