-- ==== Sys2Proof/Machine/FlashStore.lean ====
section
/-!
DEFINITION. The contents of the flash die (R424, R425, R429) and the slot records of the key store (R206, R207).
-/

namespace Sys2Proof.Machine

/-- Change the flash array and its controller. -/
def updFls (f : Flash → Flash) (d : Device) : Device := { d with fls := f d.fls }

/-- The stored byte at an address; an unlisted byte is erased. -/
def Device.flashByte (d : Device) (a : Nat) : Byte := sget (fun _ => 0xFF) d.fls.bytes a

/-- `n` stored bytes from an address. -/
def flashBytes (d : Device) (a n : Nat) : List Byte := (List.range n).map fun i => d.flashByte (a + i)

/-- Stored check bits of chunk `k`. -/
def Device.flashSpare (d : Device) (k : Nat) : BitVec 24 := sget (fun _ => 0xFFFFFF) d.fls.spare k

/-- Take the indices from `lo` below `hi` out of a table. -/
def dropRange {α : Type} (lo hi : Nat) (m : Sparse α) : Sparse α := m.filter fun p => !(decide (lo ≤ p.1) && decide (p.1 < hi))

/-- Erase a 4 KiB sector: every bit reads 1, and its erase counter counts (R429). -/
def eraseSectorAt (n : Nat) : Device → Device :=
  updFls fun f => { f with
    bytes := dropRange (4096 * n) (4096 * (n + 1)) f.bytes
    spare := dropRange (128 * n) (128 * (n + 1)) f.spare
    erases := supd (fun _ => 0) n (· + 1) f.erases }

/-- Write bytes at an address, check bits left alone. -/
def putBytes (a : Nat) (bs : List Byte) (m : Sparse Byte) : Sparse Byte :=
  ((List.range bs.length).zip bs).foldl (fun m p => sset (fun _ => 0xFF) (a + p.1) p.2 m) m

/-- Program bytes from a chunk-aligned address: each chunk with the check bits of R425. -/
def programAt (a : Nat) (bs : List Byte) : Device → Device :=
  updFls fun f => { f with
    bytes := putBytes a bs f.bytes
    spare := (List.range ((bs.length + 31) / 32)).foldl (fun m k =>
      sset (fun _ => 0xFFFFFF) (a / 32 + k) (chunkCheck (padTo 32 0xFF (slice (32 * k) 32 bs))) m) f.spare }

/-- Address of the sector of slot `n` in a copy of the key store (R206). -/
def slotAddr (copyB : Bool) (n : Nat) : Nat := (if copyB then 0x420000 else 0x400000) + 4096 * n

/-- A slot record from its 64 bytes. -/
def parseSlot (b : List Byte) : SlotRecord :=
  { state := BitVec.ofNat 32 (leAt b 0 4), keygen := leAt b 4 1 % 16, flags := BitVec.ofNat 8 (leAt b 5 1),
    quota := leAt b 6 2, createTick := leAt b 8 8, wrapped := BitVec.ofNat 320 (beNat (slice 16 40 b)) }

/-- STATE of an ACTIVE record. -/
def slotActive : BitVec 32 := 0x0000FFFF

/-- Write a slot record to one copy, its sector erased first. -/
def writeSlotCopy (copyB : Bool) (n : Nat) (bs : List Byte) (d : Device) : Device :=
  programAt (slotAddr copyB n) bs (eraseSectorAt (slotAddr copyB n / 4096) d)

/-- Write a slot record to copy A, then to copy B (R207). -/
def writeSlotRecord (n : Nat) (r : SlotRecord) (d : Device) : Device :=
  writeSlotCopy true n (slotBytes r) (writeSlotCopy false n (slotBytes r) d)

/-- The bit-clear program of a slot's STATE in one copy: bytes 0 to 1 and all 24 check bits of chunk 0 become 0 (R206, R427). -/
def clearSlotState (copyB : Bool) (n : Nat) : Device → Device :=
  updFls fun f => { f with
    bytes := putBytes (slotAddr copyB n) [0, 0] f.bytes
    spare := sset (fun _ => 0xFFFFFF) (slotAddr copyB n / 32) 0 f.spare }

/-- Destroy a slot's record: each copy erased, then programmed to 0x00 throughout, copy A first (R216, step 5). -/
def destroySlotRecord (n : Nat) (d : Device) : Device :=
  writeSlotCopy true n (List.replicate 4096 0) (writeSlotCopy false n (List.replicate 4096 0) d)

end Sys2Proof.Machine
end

