-- ==== Sys2Proof/Machine/Owners.lean ====
section
/-!
DEFINITION. Owners, keys and commissioning (08_owners.md; R287 to R289): creating and retiring an owner step by step, escrow export, the
cartridge register, and the exchange by which a pair shares its keys.
-/

namespace Sys2Proof.Machine

/-- Change the crypto engine and key management. -/
def updCry (f : Crypto → Crypto) (d : Device) : Device := { d with cry := f d.cry }

/-- The FX880 is solo: its key store holds no pair record (R224). -/
def isSolo (d : Device) : Bool := d.nv.pairRecord.isNone

/-- The slot shows ACTIVE. -/
def slotIsActive (d : Device) (n : Nat) : Bool := (d.slot n).st = .active

/-- This twin holds an ACTIVE slot (R221). -/
def holdsActive (d : Device) : Bool := (List.range 16).any (slotIsActive d)

/-- EXPORTABLE of a slot. -/
def slotExportable (s : Slot) : Bool := s.flags.getLsbD 2

/-- A draw of the random generator (R225). -/
def randomDraw (d : Device) : BitVec 256 × Device :=
  (Config.randomKey d.cry.draws, updCry (fun c => { c with draws := c.draws + 1 }) d)

/-- The generation that OWNER_CREATE gives: one above the newest directory checkpoint's, modulo 16, or 0 for a slot never used (R213). -/
def nextKeygen (d : Device) (n : Nat) : Nat :=
  match (sget (fun _ => ({} : DirSlot)) d.rcl.directory n).keygen with
  | some g => (g + 1) % 16
  | none => 0

/-- A slot becomes ACTIVE in the key store with a key wrapped under the root key; the key register is loaded when `load` (R207, R215). -/
def installSlot (n keygen quota tick : Nat) (flags : BitVec 8) (key : BitVec 256) (load : Bool) (d : Device) : Device :=
  let r : SlotRecord := { state := slotActive, keygen := keygen, flags := flags, quota := quota, createTick := tick,
                          wrapped := Config.keyWrap Config.rootKey key }
  let d := writeSlotRecord n r d
  updSlot n (fun s => { s with st := .active, keygen := keygen, flags := flags, quota := quota, createTick := tick,
                               key := if load then some key else s.key }) d

/-- The key of a slot's record in copy A, unwrapped under the root key (R205). -/
def storedKey (d : Device) (n : Nat) : Option (BitVec 256) :=
  Config.keyUnwrap Config.rootKey (parseSlot (flashBytes d (slotAddr false n) 64)).wrapped

/-- The slot record that crosses the Lath: its key wrapped under the pair key (R215, R221). -/
def crossingRecord (d : Device) (n : Nat) (key : BitVec 256) : Option SlotRecord :=
  let s := d.slot n
  d.cry.pairKey.map fun p =>
    { state := slotActive, keygen := s.keygen, flags := s.flags, quota := s.quota, createTick := s.createTick,
      wrapped := Config.keyWrap p key }

/-- The record by which the peer hears that a slot is EMPTY, or DESTROYED: its STATE, and nothing else (R206, R207; log entry 20). -/
def bareRecord (erased : Bool) : SlotRecord :=
  { state := if erased then 0xFFFFFFFF else 0, keygen := 0, flags := 0, quota := 0, createTick := 0, wrapped := 0 }

/-- Send an ACTIVE slot to the peer (R215, R221, R515). -/
def sendKey (n : Nat) (d : Device) : Device :=
  match storedKey d n with
  | none => d
  | some k => match crossingRecord d n k with
    | none => d
    | some r => sendMsg (.keyXfer n r) d

/-! ### Owner operations, step by step -/

/-- Replace the operation `i` of the list. -/
def setOp (i : Nat) (o : OwnerOp) : Device → Device := updCry fun c => { c with ops := c.ops.set i o }

/-- Is an owner operation for slot `n` under way on this twin? -/
def opSlot (o : OwnerStep) : Nat :=
  match o with
  | .createPurge n _ _ => n
  | .createPeer n _ => n
  | .createDir n => n
  | .retireDrain n => n
  | .retireDir n => n
  | .retirePeer n => n
  | .installPurge n _ => n
  | .installDir n => n

/-- Drop operation `i`; its slot is free for the next one. -/
def endOp (i n : Nat) (d : Device) : Device :=
  updSlot n (fun s => { s with busy := false }) (updCry (fun c => { c with ops := c.ops.eraseIdx i }) d)

/-- Complete an owner operation's command: SINGLE_COPY when its effect stands on one medium only (R217, R330, R515). -/
def finishOp (o : OwnerOp) (st result : Nat) (d : Device) : Device :=
  match o.tag with
  | none => d
  | some t => finishWith t st result (st = stOk && (o.single || d.gen.mode = .undercoat)) 0 d

/-- The lowest `q` free zones, by layer and zone (R215; log entry 19). -/
def takeZones (q : Nat) (d : Device) : List Zone := d.rcl.freeZones.take q

/-- Free zones in ascending order of layer and zone: put one zone in. -/
def insertZone (z : Zone) : List Zone → List Zone
  | [] => [z]
  | y :: l => if zoneNumber z.layer z.zone < zoneNumber y.layer y.zone then z :: y :: l else y :: insertZone z l

/-- The owner's ring takes its zones, and its first zone is named (R175, R215). -/
def assignZones (n q : Nat) (d : Device) : Device :=
  let zs := takeZones q d
  let d := updRcl (fun r => { r with freeZones := r.freeZones.drop q }) d
  nameNext n (updRing n (fun _ => { zones := zs }) d)

/-- The owner's zones return to the free pool, not erased (R216, step 6): each keeps its pass, and no ring has entered it. -/
def freeRing (n : Nat) (d : Device) : Device :=
  let zs := (d.ring n).zones.map fun z => { z with entered := 0, openHeads := [] }
  let d := updRing n (fun _ => {}) d
  updRcl (fun r => { r with freeZones := zs.foldl (fun l z => insertZone z l) r.freeZones }) d

/-- Commands of owner `n` fetched earlier, or record groups of it, still run (R216, step 2). -/
def ownerBusy (d : Device) (n : Nat) : Bool :=
  d.hif.cmds.any (fun c => c.owner = n && c.phase != .done && c.phase != .dead && !isAdmin (eOpcode c.entry))
    || d.rcl.groups.any (fun g => g.owner = n && g.stream < bootStream && (g.st = .open || (g.st = .verified && !followsNow d g)))

/-- Steps 3 to 5 of R216: the streams become FREE, the key register is cleared, both copies are destroyed. -/
def destroyOwner (n : Nat) (d : Device) : Device :=
  let d := (List.range 512).foldl (fun d s =>
    let r := streamRec d s
    if r.owner = n && r.st != .free then runTask (.free s) d else d) d
  let d := destroySlotRecord n (updSlot n (fun s => { s with key := none }) d)
  updSlot n (fun s => { s with st := .destroyed }) d

/-- Step 1 of R216: the slot is RETIRING in copy A, then in copy B. -/
def retireMark (n : Nat) (d : Device) : Device :=
  updSlot n (fun s => { s with st := .retiring, busy := true }) (clearSlotState true n (clearSlotState false n d))

/-- Advance operation `i` as far as it can go now; `n` bounds the steps. -/
def advanceOp : Nat → Nat → Device → Device
  | 0, _, d => d
  | f + 1, i, d =>
    match d.cry.ops[i]? with
    | none => d
    | some o =>
      match o.step with
      | .createPurge n q fl =>
        if !o.purging then
          if d.cch.range.isSome then d
          else setOp i { o with purging := true } (startRange (.purgeOwner n) (setRegF 0xC010 2 0 3 (setRegF 0xC010 11 8 n d)))
        else if d.cch.range.isSome then d
        else
          let (key, d) := randomDraw d
          let g := nextKeygen d n
          let d := installSlot n g q d.now fl key false d
          if inTopcoat d then
            advanceOp f i (setOp i { o with step := .createPeer n q, purging := false } (sendKey n d))
          else advanceOp f i (setOp i { o with step := .createPeer n q, purging := false, peerOk := true } d)
      | .createPeer n q =>
        if o.peerOk || !inTopcoat d then
          let (id, d) := writeDirectory (assignZones n q d)
          setOp i { o with step := .createDir n, cluster := id, single := o.single || !o.peerOk } d
        else d
      | .createDir _ => d
      | .retireDrain n =>
        if ownerBusy d n then d
        else
          let (id, d) := writeDirectory (destroyOwner n d)
          setOp i { o with step := .retireDir n, cluster := id } d
      | .retireDir _ => d
      | .retirePeer n =>
        if o.peerOk || !inTopcoat d then
          let d := if o.peerOk || (d.slot n).peerPending then d
            else raise 199 (updSlot n (fun s => { s with peerPending := true }) d)
          endOp i n (finishOp { o with single := o.single || !o.peerOk } (if o.failed then stInternal else stOk) 0 d)
        else d
      | .installPurge n r =>
        if !o.purging then
          if d.cch.range.isSome then d
          else setOp i { o with purging := true } (startRange (.purgeOwner n) (setRegF 0xC010 2 0 3 (setRegF 0xC010 11 8 n d)))
        else if d.cch.range.isSome then d
        else
          match d.cry.pairKey.bind fun p => Config.keyUnwrap p r.wrapped with
          | none => endOp i n (if inTopcoat d then sendMsg (.ownerDone n 3) d else d)
          | some key =>
            let d := installSlot n r.keygen r.quota r.createTick r.flags key true d
            if !(d.ring n).zones.isEmpty then endOp i n (if inTopcoat d then sendMsg (.ownerDone n 2) d else d)
            else if d.gen.cart.isSome && n != 0 && r.quota ≤ d.rcl.freeZones.length then
              let (id, d) := writeDirectory (assignZones n r.quota d)
              setOp i { o with step := .installDir n, cluster := id, purging := false } d
            else endOp i n (if inTopcoat d && n != 0 then sendMsg (.ownerDone n 3) d else d)
      | .installDir _ => d

/-- Advance every owner operation. -/
def pumpOps (d : Device) : Device := (List.range d.cry.ops.length).foldr (fun i d => advanceOp 3 i d) d

/-- The directory checkpoint of operation `i` has passed RAW (R208, R215, R216). -/
def opWritten (i : Nat) (d : Device) : Device :=
  match d.cry.ops[i]? with
  | none => d
  | some o =>
    match o.step with
    | .createDir n =>
      let d := updSlot n (fun s => { s with key := storedKey d n, alone := o.single }) d
      endOp i n (finishOp o stOk (d.slot n).keygen (raise 194 d))
    | .retireDir n =>
      let d := raise 195 (freeRing n d)
      if o.tag.isNone then endOp i n (sendMsg (.ownerDone n 1) d)
      else advanceOp 2 i (setOp i { o with step := .retirePeer n, peerOk := o.peerOk || (isSolo d) } d)
    | .installDir n => endOp i n (sendMsg (.ownerDone n 2) d)
    | _ => d

/-- The directory checkpoint `id` has passed RAW for the owner operation that waits for it. -/
def opsWritten (id : Nat) (d : Device) : Device :=
  match (List.range d.cry.ops.length).find? fun i =>
      match d.cry.ops[i]? with
      | some o => o.cluster = id && (match o.step with | .createDir _ => true | .retireDir _ => true | .installDir _ => true | _ => false)
      | none => false with
  | some i => opWritten i d
  | none => d

/-- Put an owner operation in progress and advance it. -/
def startOp (step : OwnerStep) (tag : Option Nat) (d : Device) : Device :=
  let o : OwnerOp := { step := step, tag := tag, single := false, failed := false, cluster := 0, purging := false, peerOk := false }
  let d := updSlot (opSlot step) (fun s => { s with busy := true }) d
  pumpOps (updCry (fun c => { c with ops := c.ops ++ [o] }) d)

/-- OWNER_CREATE after its checks (R215). -/
def createOwner (tag n q : Nat) (flags : BitVec 8) (d : Device) : Device :=
  if d.rcl.freeZones.length < q then finish tag stMediumFull (raise 203 d)
  else startOp (.createPurge n q flags) (some tag) (setPhase tag .running (startCmd tag d))

/-- Begin steps 1 to 6 of R216 for an ACTIVE slot; the receiving twin tells the peer in Topcoat. -/
def retireOwner (tag : Option Nat) (n : Nat) (d : Device) : Device :=
  let d := retireMark n d
  let d := if tag.isSome && inTopcoat d then sendMsg (.ownerNote n) d else d
  startOp (.retireDrain n) tag d

/-- OWNER_NOTE received (R216): the peer's retire runs here, on an UNAVAILABLE slot too, whose copies are written RETIRING as the peer holds
it (R207); a slot in another state has nothing to destroy (R217). -/
def noteRetire (n : Nat) (d : Device) : Device :=
  if slotIsActive d n && !(d.slot n).busy then retireOwner none n d
  else if (d.slot n).st = .unavailable && !(d.slot n).busy then
    retireOwner none n (writeSlotRecord n { bareRecord false with keygen := ((sget (fun _ => {}) d.rcl.directory n).keygen).getD 0 } d)
  else if (d.slot n).st = .destroyed then sendMsg (.ownerDone n 1) d
  else d

/-- OWNER_NOTE received (R216, R228). -/
def execOwnerNote (cr : Credits) (slot : Nat) (s : State) : Host.Outcome State Fault Refusal :=
  effect s (receive cr (.ownerNote slot) fun d => onlyIf (1 ≤ slot && slot < 16) (noteRetire slot) d)

/-- The operation of slot `n` that waits for the peer hears from it: 1 or 2 done, 3 failed (R215 to R217, R515). -/
def peerDoneOp (n code : Nat) (d : Device) : Device :=
  match (List.range d.cry.ops.length).find? fun i => (d.cry.ops[i]?).elim false fun o => opSlot o.step = n with
  | none => if code = 1 then updSlot n (fun s => { s with peerPending := false }) d
            else if code = 2 then updSlot n (fun s => { s with alone := false }) d else d
  | some i =>
    match d.cry.ops[i]? with
    | none => d
    | some o =>
      if code = 3 then
        match o.step with
        | .createPeer n _ => advanceOp 3 i (setOp i { o with step := .retireDrain n, failed := true, peerOk := true } (retireMark n d))
        | _ => d
      else advanceOp 3 i (setOp i { o with peerOk := true } d)

/-- OWNER_DONE received (R217). -/
def execOwnerDone (cr : Credits) (slot code : Nat) (s : State) : Host.Outcome State Fault Refusal :=
  effect s (receive cr (.ownerDone slot code) fun d => onlyIf (slot < 16 && 1 ≤ code && code ≤ 3) (peerDoneOp slot code) d)

/-- The pair leaves Topcoat: a retire that the peer has not confirmed leaves its destruction pending, and a create goes on alone
(R217, R515). -/
def ownersLeaveTopcoat (d : Device) : Device :=
  let d := (List.range d.cry.ops.length).foldl (fun d i =>
    match d.cry.ops[i]? with
    | none => d
    | some o =>
      if o.tag.isNone || o.peerOk then d
      else
        match o.step with
        | .retireDrain n => raise 199 (updSlot n (fun s => { s with peerPending := true }) (setOp i { o with single := true } d))
        | .retireDir n => raise 199 (updSlot n (fun s => { s with peerPending := true }) (setOp i { o with single := true } d))
        | .retirePeer n => raise 199 (updSlot n (fun s => { s with peerPending := true }) (setOp i { o with single := true } d))
        | _ => setOp i { o with single := true } d) d
  pumpOps d

/-- At attach each twin tells the other how its slots stand: RETIRING slots and destructions pending by OWNER_NOTE, ACTIVE slots by
KEY_XFER, which the other judges by its own state and generation, and the record of every EMPTY or DESTROYED slot, which restores one
that is UNAVAILABLE there (R207, R217, R515; log entry 20). -/
def ownersAttach (d : Device) : Device :=
  (List.range 16).foldl (fun d n =>
    let d := if (d.slot n).peerPending || (d.slot n).st = .retiring then
        updSlot n (fun s => { s with peerPending := false }) (sendMsg (.ownerNote n) d) else d
    match (d.slot n).st with
    | .active => updSlot n (fun s => { s with alone := false }) (sendKey n d)
    | .empty => sendMsg (.keyXfer n (bareRecord true)) d
    | .destroyed => sendMsg (.keyXfer n (bareRecord false)) d
    | _ => d) d

/-- The comparison of the slots at an attach still has steps to run here; no command is accepted before they end (R217, R515). -/
def ownersCompared (d : Device) : Bool :=
  !(d.gen.mode = .undercoat && d.lath.link != .down && d.cry.ops.any fun o => o.tag.isNone)

/-- Slots found RETIRING have yet to be destroyed (R218). -/
def ownersRetiring (d : Device) : Bool :=
  !inTopcoat d && d.cry.ops.any fun o => o.tag.isNone && (match o.step with | .retireDrain _ => true | .retireDir _ => true | _ => false)

/-- Slot `n` is being created: the directory checkpoint that names it has not passed RAW (R208, R215). -/
def creating (d : Device) (n : Nat) : Bool :=
  d.cry.ops.any fun o => match o.step with | .createPeer m _ => m = n | .createDir m => m = n | .installDir m => m = n | _ => false

/-! ### Owner 0, the cartridge register, random numbers -/

/-- Owner 0 is created with generation 0 after its lines have been purged (R213, R214). -/
def createOwner0 (d : Device) : Device :=
  let d := dropLines (fun l => !l.table && l.owner = 0) d
  let (key, d) := randomDraw d
  installSlot 0 0 0 d.now 0 key true d

/-- The cartridge register takes serials, in the key store too (R211). -/
def setCartReg (l : List (BitVec 64)) (d : Device) : Device :=
  { updCry (fun c => { c with cartReg := l }) d with nv := { d.nv with cartReg := l } }

/-- A cartridge is admitted for writing: its serial is in the register, or its tag differs from every one there and an entry is free
(R211). -/
def cartAdmitted (d : Device) (serial : BitVec 64) : Bool :=
  d.cry.cartReg.contains serial
    || (d.cry.cartReg.length < 64 && d.cry.cartReg.all fun x => x.setWidth 16 != serial.setWidth 16)

/-- Enter a newly admitted serial before the cartridge's first write (R211). -/
def enterSerial (serial : BitVec 64) (d : Device) : Device :=
  if d.cry.cartReg.contains serial then d else setCartReg (d.cry.cartReg ++ [serial]) d

/-- RNG_HEALTH_FAIL (R225): HEALTH_FAIL, FAIL_COUNT, source 193; a create that waits for its key completes with INTERNAL_FAULT. -/
def rngFailed (d : Device) : Device :=
  let d := updCry (fun c => { c with rngFail := true, rngFails := min 0xFFFF (c.rngFails + 1) }) d
  let waits (o : OwnerOp) : Bool := match o.step with | .createPurge _ _ _ => true | _ => false
  let d := (d.cry.ops.filter waits).foldl (fun d o =>
    updSlot (opSlot o.step) (fun s => { s with busy := false }) (finishOp o stInternal 0 d)) d
  raise 193 (updCry (fun c => { c with ops := c.ops.filter fun o => !waits o }) d)

/-- RNG_HEALTH_FAIL (R225). -/
def execRngHealthFail (s : State) : Host.Outcome State Fault Refusal := effect s rngFailed

/-! ### Commissioning (R220, R221, R288, R289) -/

/-- The ASCII string "FX880 pair". -/
def pairInfo : List Byte := [0x46, 0x58, 0x38, 0x38, 0x30, 0x20, 0x70, 0x61, 0x69, 0x72]

/-- The pair fingerprint: the first 64 bits of SHA-256 over "FX880 fp" and the pair key (R268). -/
def fingerprintOf (key : BitVec 256) : BitVec 64 :=
  (Config.sha256 ([0x46, 0x58, 0x38, 0x38, 0x30, 0x20, 0x66, 0x70] ++ beBytes 32 key.toNat) >>> 192).setWidth 64

/-- Commissioning is abandoned: the ephemeral keys are discarded, source 140, COMMISSION_FAILED (R289). -/
def abandonCommission (d : Device) : Device :=
  let c := d.cry.commission
  let d := updCry (fun x => { x with commission := none, checkCode := none, heldPoint := none }) d
  let d := updLath (fun l => { l with commissionFailed := true }) d
  let end_ (t : Option Nat) (d : Device) : Device := match t with | some t => finish t stInternal d | none => d
  raise 140 (end_ (c.bind (·.localConfirmed)) (end_ (c.bind (·.tag)) d))

/-- The check code is ready: the pair key and the code come from the shared coordinate (R220), source 139, and COMMISSION completes. -/
def agreeKey (c : Commission) (point : List Byte) (d : Device) : Device :=
  if !Config.p256Valid point then abandonCommission d
  else
    let mine := Config.p256Public c.scalar
    let salt := if twinId d = 0 then mine ++ point else point ++ mine
    let out := Config.hkdf (Config.p256Shared c.scalar point) salt pairInfo 36
    let key := BitVec.ofNat 256 (beNat (out.take 32))
    let code := leNat (slice 32 4 out) % 1000000
    let c' : Commission := { c with peerPoint := some point, pairKey := some key, code := code, readyAt := d.now, tag := none }
    let d := raise 139 (updCry (fun x => { x with commission := some c', checkCode := some code, heldPoint := none }) d)
    match c.tag with
    | some t => finishOk t (modeCode d.gen.mode) d
    | none => d

/-- COMMISSION after its checks: an ephemeral key is drawn and its point sent (R220, R288). -/
def beginCommission (tag : Nat) (d : Device) : Device :=
  let sc := Config.randomScalar d.cry.draws
  let c : Commission := { scalar := sc, tag := some tag, peerPoint := none, pairKey := none, code := 0, readyAt := 0,
                          localConfirmed := none, peerConfirmed := false, peerKeys := false }
  let d := updCry (fun x => { x with draws := x.draws + 1, commission := some c, checkCode := none }) d
  let d := updLath (fun l => { l with commissionFailed := false }) d
  let d := sendMsg (.pairPoint (Config.p256Public sc)) (setPhase tag .running (startCmd tag d))
  match d.cry.heldPoint with
  | some p => agreeKey c p d
  | none => d

/-- PAIR_POINT received (R220). -/
def execPairPoint (cr : Credits) (point : List Byte) (s : State) : Host.Outcome State Fault Refusal :=
  effect s <| receive cr (.pairPoint point) fun d => onlyIf (d.gen.mode = .dustSheet) (fun d =>
    match d.cry.commission with
    | some c => if c.peerPoint.isNone then agreeKey c point d else d
    | none => updCry (fun x => { x with heldPoint := some point }) d) d

/-- The pair key is stored (R221, R288, step 6): the key source sends every ACTIVE slot and the cartridge register, the pairing record
is written, source 140. -/
def storePair (c : Commission) (d : Device) : Device :=
  match c.pairKey with
  | none => d
  | some key =>
    if c.peerKeys && holdsActive d then abandonCommission d
    else
      let d := { updCry (fun x => { x with pairKey := some key, commission := none, checkCode := none, heldPoint := none }) d with
                 nv := { d.nv with
                         pairRecord := some (Config.keyWrap Config.rootKey key)
                         pairing := some ((d.lath.peer.map (·.serial)).getD 0, fingerprintOf key, d.now) } }
      let d := if !c.peerKeys && !holdsActive d && twinId d = 0 then setCartReg [] (createOwner0 d) else d
      let d := if holdsActive d && !c.peerKeys then
          let d := (List.range 16).foldl (fun d n => if slotIsActive d n then sendKey n d else d) d
          sendMsg (.cartReg d.cry.cartReg) d
        else d
      raise 140 (match c.localConfirmed with
        | some t => finishOk t (modeCode d.gen.mode) d
        | none => d)

/-- CONFIRM after its checks: the code is compared and, when equal, sent to the peer (R288, R289). -/
def confirmCode (tag code : Nat) (d : Device) : Device :=
  match d.cry.commission with
  | none => finish tag stAbortedMode d
  | some c =>
    let d := setPhase tag .running (startCmd tag d)
    let c' : Commission := { c with localConfirmed := some tag }
    let d := updCry (fun x => { x with commission := some c' }) d
    if c.code != code then abandonCommission d
    else
      let d := sendMsg (.pairConfirm code) d
      if c.peerConfirmed then storePair c' d else d

/-- PAIR_CONFIRM received (R288): a wrong or an unexpected code is answered not equal, and commissioning ends; the pair key is stored
once both confirmations have arrived. -/
def takeConfirm (code : Nat) (peerKeys : Bool) (d : Device) : Device :=
  match d.cry.commission with
  | none => sendMsg (.pairConfirmAck false) d
  | some c =>
    if c.pairKey.isNone || c.code != code then abandonCommission (sendMsg (.pairConfirmAck false) d)
    else
      let c' : Commission := { c with peerConfirmed := true, peerKeys := peerKeys }
      let d := sendMsg (.pairConfirmAck true) (updCry (fun x => { x with commission := some c' }) d)
      if c.localConfirmed.isSome then storePair c' d else d

/-- PAIR_CONFIRM received (R288). -/
def execPairConfirm (cr : Credits) (code : Nat) (peerKeys : Bool) (s : State) : Host.Outcome State Fault Refusal :=
  effect s (receive cr (.pairConfirm code) fun d => onlyIf (d.gen.mode = .dustSheet) (takeConfirm code peerKeys) d)

/-- PAIR_CONFIRM_ACK received (R289): not equal abandons commissioning. -/
def execPairConfirmAck (cr : Credits) (equal : Bool) (s : State) : Host.Outcome State Fault Refusal :=
  effect s <| receive cr (.pairConfirmAck equal) fun d => onlyIf (!equal && d.cry.commission.isSome) abandonCommission d

/-- 600 s have passed since the check code was ready without both confirmations (R289). -/
def commissionLate (d : Device) : Bool :=
  match d.cry.commission with
  | some c => c.pairKey.isSome && c.readyAt + 600 * ticksPerS ≤ d.now
  | none => false

/-- COMMISSION_TIMEOUT (R289). -/
def execCommissionTimeout (s : State) : Host.Outcome State Fault Refusal :=
  effect s fun d => onlyIf (commissionLate d) abandonCommission d

/-- The key store of a DESTROYED slot is all zeros: its generation is the one that the newest directory checkpoint records (R208, R213). -/
def recallGenerations (d : Device) : Device :=
  (List.range 16).foldl (fun d n =>
    match (d.slot n).st, (sget (fun _ => ({} : DirSlot)) d.rcl.directory n).keygen with
    | .destroyed, some g => updSlot n (fun s => { s with keygen := g }) d
    | _, _ => d) d

/-- An UNAVAILABLE slot takes the EMPTY or DESTROYED state that the peer holds: both copies are written erased, or 0x00 throughout
(R207). -/
def restoreBare (n : Nat) (erased : Bool) (d : Device) : Device :=
  let d := if erased then eraseSectorAt (slotAddr true n / 4096) (eraseSectorAt (slotAddr false n / 4096) d) else destroySlotRecord n d
  recallGenerations (updSlot n (fun _ => { st := if erased then .empty else .destroyed }) d)

/-- A KEY_XFER that brings an ACTIVE slot (R207, R214, R215, R217, R221, R515): the slot is purged and installed when this twin lacks it; a twin that holds it
RETIRING or DESTROYED at that generation has the sender retire it; one that cannot take it in Topcoat answers OWNER_DONE 3. In
commissioning a twin that already holds keys refuses (R221). -/
def takeActive (n : Nat) (r : SlotRecord) (d : Device) : Device :=
  let s := d.slot n
  let lacks := s.st = .empty || s.st = .unavailable || (s.st = .destroyed && s.keygen != r.keygen)
  if n < 16 && lacks && !s.busy && d.cry.pairKey.isSome
      && (!inTopcoat d || n = 0 || s.st = .unavailable || r.quota ≤ d.rcl.freeZones.length) then
    startOp (.installPurge n r) none d
  else if d.gen.mode = .undercoat && 1 ≤ n && n < 16 && (s.st = .retiring || s.st = .destroyed) && s.keygen = r.keygen then
    sendMsg (.ownerNote n) d
  else if inTopcoat d && 1 ≤ n && n < 16 then sendMsg (.ownerDone n 3) d
  else d

/-- KEY_XFER received (R207, R221): an EMPTY or DESTROYED record concerns an UNAVAILABLE slot alone. -/
def takeKey (n : Nat) (r : SlotRecord) (d : Device) : Device :=
  if r.state = 0xFFFFFFFF || r.state = 0 then
    (if n < 16 && (d.slot n).st = .unavailable && !(d.slot n).busy then restoreBare n (r.state = 0xFFFFFFFF) d else d)
  else takeActive n r d

/-- KEY_XFER received (R221). -/
def execKeyXfer (cr : Credits) (slot : Nat) (rec : SlotRecord) (s : State) : Host.Outcome State Fault Refusal :=
  effect s (receive cr (.keyXfer slot rec) (takeKey slot rec))

/-- CART_REG received (R211, R221): the key source's register is taken. -/
def execCartReg (cr : Credits) (serials : List (BitVec 64)) (s : State) : Host.Outcome State Fault Refusal :=
  effect s <| receive cr (.cartReg serials) fun d =>
    onlyIf (d.gen.mode = .dustSheet) (setCartReg ((serials.filter (· != 0)).take 64)) d

/-! ### Escrow export (R222, R223) -/

/-- Bytes 0 to 87 of an escrow blob (Table 08-5). -/
def blobHead (d : Device) (n : Nat) (ephemeral : List Byte) : List Byte :=
  let s := d.slot n
  [1] ++ leBytes 1 n ++ leBytes 1 (s.keygen % 16) ++ leBytes 1 s.flags.toNat ++ leBytes 8 Config.deviceSerial.toNat
    ++ List.replicate 4 0 ++ ephemeral ++ List.replicate 7 0

/-- The 136 bytes of an escrow blob for a recipient's point (R223). -/
def escrowBlob (d : Device) (n : Nat) (scalar key : BitVec 256) (point : List Byte) : List Byte :=
  let head := blobHead d n (Config.p256Public scalar)
  let out := Config.hkdf (Config.p256Shared scalar point) [] (head.take 16) 44
  let k := BitVec.ofNat 256 (beNat (out.take 32))
  let iv := BitVec.ofNat 96 (beNat (slice 32 12 out))
  let (ct, tag) := Config.gcmEncrypt k iv head (beBytes 32 key.toNat)
  head ++ ct ++ beBytes 16 tag.toNat

/-- OWNER_EXPORT_KEY after its other checks: the point is validated, and the blob is delivered; source 198 (R222). -/
def exportKey (tag n : Nat) (point : List Byte) (d : Device) : Device :=
  match (d.slot n).key with
  | none => finish tag stInternal d
  | some key =>
    if !Config.p256Valid point then finish tag stInvalidField d
    else
      let blob := escrowBlob d n (Config.randomScalar d.cry.draws) key point
      let d := updCry (fun c => { c with draws := c.draws + 1 }) d
      raise 198 (finishOk tag 0 (deliverData tag 0 blob d))

end Sys2Proof.Machine
end

