-- ==== Sys2Proof/Machine/Coherence.lean ====
section
/-!
DEFINITION. The answers that reach this twin's coherence requests and notices (R240, R248, R254), the end of a range operation (R244),
and what goes on when a table line has arrived.
-/

namespace Sys2Proof.Machine

/-- A table line has arrived, or the range engine is idle: waiting changes, commits and owner operations go on. -/
def pumpAll (d : Device) : Device := pumpOps (settleGroups (runTasks d))

/-- ZERO_LINE waited for line `k` in M: it is zeroed, or asked for again when the request before it granted less (R243). -/
def zeroGranted (k : Nat) (d : Device) : Device :=
  match d.cch.range with
  | some (.zeroLine, [j]) =>
    if j != k then d
    else if cohAllows (cohOf d k) true then updCache (fun c => { c with range := some (.zeroLine, []) }) (zeroTable k d)
    else askLine k true d
  | _ => d

/-- This twin's request for line `k` is answered with a state and records (R248, R255). -/
def lineArrives (k : Nat) (c : Coh) (recs : TableRecs) (poison : BitVec 32) (d : Device) : Device :=
  pumpAll (zeroGranted k (grantLine k c recs poison d))

/-- The state asked for by the request outstanding for line `k`: E for RD, M for OWN or UPG (R254). -/
def requestedState (d : Device) (k : Nat) : Coh :=
  match sget (fun _ => none) d.cch.requests k with
  | some .rd => .e
  | _ => .m

/-- DATA: the line goes to the table store as well as to the cache (R248). -/
def takeData (k : Nat) (c : Coh) (recs : TableRecs) (poison : BitVec 32) (d : Device) : Device :=
  if requestOut d k then lineArrives k c recs poison (storeTable k recs poison d) else d

/-- DATA received (R248). -/
def execData (cr : Credits) (k : Nat) (granted : Coh) (recs : TableRecs) (poison : BitVec 32) (s : State) :
    Host.Outcome State Fault Refusal :=
  effect s (receive cr (.data k granted recs poison) (takeData k granted recs poison))

/-- NONE: the line is filled from this twin's own table store (Table 09-5). -/
def takeNone (k : Nat) (c : Coh) (d : Device) : Device :=
  if requestOut d k then
    lineArrives k c (tableOf d k) (tablePoison d k) d
  else d

/-- NONE received (R248). -/
def execNone (cr : Credits) (k : Nat) (granted : Coh) (s : State) : Host.Outcome State Fault Refusal :=
  effect s (receive cr (.none k granted) (takeNone k granted))

/-- In Topcoat a notice or write-back of the peer has its effect; outside it no coherence message is sent (R250). -/
def whileTopcoat (f : Device → Device) (d : Device) : Device := if inTopcoat d then f d else d

/-- EVICT: it answers a request of this twin's own, else it is only acknowledged (R248, R254). -/
def takeEvict (k : Nat) (d : Device) : Device :=
  if requestOut d k then
    sendMsg (.evictAck k) (lineArrives k (requestedState d k) (tableOf d k) (tablePoison d k) d)
  else sendMsg (.evictAck k) d

/-- EVICT received (R254). -/
def execEvict (cr : Credits) (k : Nat) (s : State) : Host.Outcome State Fault Refusal :=
  effect s (receive cr (.evict k) (whileTopcoat (takeEvict k)))

/-- EVICT_D: as EVICT, with the line, which is written to the table store (R254). -/
def takeEvictD (k : Nat) (recs : TableRecs) (poison : BitVec 32) (d : Device) : Device :=
  let d' := storeTable k recs poison d
  if requestOut d k then sendMsg (.evictAck k) (lineArrives k (requestedState d k) recs poison d') else sendMsg (.evictAck k) d'

/-- EVICT_D received (R254). -/
def execEvictD (cr : Credits) (k : Nat) (recs : TableRecs) (poison : BitVec 32) (s : State) : Host.Outcome State Fault Refusal :=
  effect s (receive cr (.evictD k recs poison) (whileTopcoat (takeEvictD k recs poison)))

/-- CLEAN_D received (R248): written to the table store and acknowledged. -/
def execCleanD (cr : Credits) (k : Nat) (recs : TableRecs) (poison : BitVec 32) (s : State) : Host.Outcome State Fault Refusal :=
  effect s (receive cr (.cleanD k recs poison) (whileTopcoat fun d => sendMsg (.evictAck k) (storeTable k recs poison d)))

/-- The write-back of line `k` in a CLEAN is acknowledged: the line goes to E (Table 09-3), unless its records have changed since they
were sent, when it would not be equal to both table stores (Table 09-4; log entry 100). -/
def cleanAcked (k : Nat) (d : Device) : Device :=
  match d.cch.range with
  | some (.clean, ks) =>
    if ks.contains k then
      let d := updCache (fun c => { c with range := some (.clean, ks.erase k) }) d
      if cohOf d k = .m && tableOf d k = sget (fun _ => []) d.cch.store k then setCoh k .e d else d
    else d
  | _ => d

/-- EVICT_ACK: the notice is no longer outstanding, and what waited for the line asks again (R240). -/
def takeEvictAck (k : Nat) (d : Device) : Device :=
  let d := updCache (fun c => { c with notices := c.notices.erase k }) d
  pumpAll (wakeLine k (zeroGranted k (cleanAcked k d)))

/-- EVICT_ACK received (R248). -/
def execEvictAck (cr : Credits) (k : Nat) (s : State) : Host.Outcome State Fault Refusal :=
  effect s (receive cr (.evictAck k) (takeEvictAck k))

/-- The range operation ends: BUSY clears, source 112, and what waited for the engine goes on (R244, R245). -/
def rangeDone (d : Device) : Device :=
  pumpAll (raise 112 (updCache (fun c => { c with range := none }) d))

/-- RANGE_OP_DONE (R244): a CLEAN ends only when the peer has acknowledged every write-back, a ZERO_LINE when its line is held. -/
def execRangeOpDone (s : State) : Host.Outcome State Fault Refusal :=
  effect s fun d =>
    match d.cch.range with
    | some (_, ks) => onlyIf ks.isEmpty rangeDone d
    | none => d

end Sys2Proof.Machine
end

