-- ==== Sys2Proof/Machine/Blocks.lean ====
section
/-!
DEFINITION. The recorded block of a sector (R125, R138, R170, R171, R184, R209), and what the model's index of record groups tells of a
cluster: its map, where its records begin and its groups end, and the header that its sectors carry.
-/

namespace Sys2Proof.Machine

/-- The 96-bit IV of a sector: PSA, PASS and the cartridge tag (R209), as a big-endian number of its 12 bytes. -/
def sectorIv (psa pass : Nat) (serial : BitVec 64) : BitVec 96 :=
  BitVec.ofNat 96 (beNat (leBytes 6 psa ++ leBytes 4 pass ++ leBytes 2 (serial.toNat % 65536)))

/-- Serial of the loaded cartridge. -/
def cartSerial (d : Device) : BitVec 64 := (d.gen.cart.map (·.serial)).getD 0

/-- REC_OFF of sector `i`: the first record header that begins in it, within its user bytes (R171). -/
def recOff (c : WriteCluster) (i : Nat) : Nat :=
  match (c.begins.filter fun b => 4096 * i ≤ b && b < 4096 * (i + 1)).foldl (fun m b => match m with | none => some b | some x => some (min x b)) none with
  | some b => b - 4096 * i
  | none => 0xFFFF

/-- The chain value at a group's end: the group's as it stands until the sector is first written, then as it was (R138, R184). -/
def linkAt (d : Device) (e : Nat × Option Nat × BitVec 128) : BitVec 128 :=
  match e.2.1.bind d.group with
  | some g => g.chain
  | none => e.2.2

/-- The link of sector `i`: the chain value of the last group that ends in it, or zeros (R184). -/
def linkOf (d : Device) (c : WriteCluster) (i : Nat) : BitVec 128 :=
  ((c.ends.filter fun e => 4096 * i ≤ e.1 && e.1 < 4096 * (i + 1)).getLast?.map (linkAt d)).getD 0

/-- The cluster with the links of sector `i` as they stand: from its first write on its bytes stay the same (R138, R153). -/
def fixLinks (d : Device) (i : Nat) (c : WriteCluster) : WriteCluster :=
  { c with ends := c.ends.map fun e => if 4096 * i ≤ e.1 && e.1 < 4096 * (i + 1) then (e.1, none, linkAt d e) else e }

/-- AUX of a cluster's headers (Table 07-4). -/
def auxOf (c : WriteCluster) : Nat :=
  match c.relocated with
  | some l => l.layer * 2 ^ 20 + l.zone * 2 ^ 14 + l.pos
  | none => if c.kind = .sealCheckpoint then c.aux else 0

/-- The header of data sector `i` (R171). -/
def headerOf (d : Device) (c : WriteCluster) (i : Nat) : SectorHeader :=
  { psa := clusterPsa c i, pass := c.pass, keygen := (d.slot c.owner).keygen, owner := c.owner, type := kindType c.kind, slot := i,
    d := (groupOf c.loc).2.2, relocated := c.relocated.isSome, contig := c.kind = .sealCheckpoint, recOff := recOff c i,
    ringCtr := c.ringCtr, aux := auxOf c }

/-- The recorded block of data sector `i`: its header, and user bytes and link under the owner's key (R170, R209). -/
def dataBlock (d : Device) (c : WriteCluster) (i : Nat) : List Byte :=
  let h := headerOf d c i
  let hb := headerBytes h
  let plain := padTo 4096 0 (slice (4096 * i) 4096 c.data) ++ beBytes 16 (linkOf d c i).toNat
  let key := ((d.slot c.owner).key).getD 0
  let (ct, tag) := Config.gcmEncrypt key (sectorIv h.psa h.pass (cartSerial d)) hb plain
  hb ++ ct ++ beBytes 16 tag.toNat

/-- The recorded block of slot `i`, parity slots included (R125, R138). -/
def sectorBlock (d : Device) (c : WriteCluster) (i : Nat) : List Byte :=
  if i < 16 then dataBlock d c i
  else
    let ps := parityBlocks ((List.range 16).map (dataBlock d c))
    if i = 16 then ps.1 else ps.2

/-- The kind of cluster that a header's TYPE names (Table 07-4). -/
def typeKind (type : Nat) (l : Loc) : ClusterKind :=
  match type with
  | 0 => .ownerData
  | 1 => .ringCheckpoint
  | 2 => .sealCheckpoint
  | 3 => .directory
  | 4 => .defectList
  | 5 => .bootImage ((zoneNumber 0 l.zone * dataPositions + l.pos) / 4096)
  | 6 => .activation (l != activationLoc false)
  | _ => .fill

/-! ### A cluster as the index knows it -/

/-- Put `bs` at offset `o` of a list of bytes. -/
def overlay (o : Nat) (bs buf : List Byte) : List Byte := buf.take o ++ bs ++ buf.drop (o + bs.length)

/-- The record groups with bytes in the cluster at `l`, each with its run of bytes there. -/
def piecesAt (d : Device) (l : Loc) : List (Group × Piece) :=
  d.rcl.groups.flatMap fun g => (g.pieces.filter fun p => p.loc = some l).map fun p => (g, p)

/-- Map entries of the cluster at `l`: each stream with a group that begins there, with the first such group (R182). -/
def mapOf (d : Device) (l : Loc) : List (Nat × Nat × Nat) :=
  (piecesAt d l).foldl (fun m x =>
    if x.2.start = 0 && m.all (fun e => e.1 != x.1.stream) then m ++ [(x.1.stream, x.1.first, x.2.off)] else m) []

/-- The user bytes of the cluster at `l` but for its records: its map and zeros. -/
def blankUser (d : Device) (l : Loc) : List Byte :=
  let es := mapOf d l
  padTo 65536 0 (mapBytes (es.map fun e => (e.1, e.2.1, e.2.2 - mapLength es.length)))

/-- Offsets in the cluster at `l` at which a record header begins, its map's included. -/
def indexBegins (d : Device) (l : Loc) : List Nat :=
  0 :: (piecesAt d l).flatMap fun x =>
    (x.1.recs.filter fun r => x.2.start ≤ r.off && r.off < x.2.start + x.2.len).map fun r => x.2.off + (r.off - x.2.start)

/-- Offsets in the cluster at `l` at which a group ends, each with the chain value after it. -/
def indexEnds (d : Device) (l : Loc) : List (Nat × BitVec 128) :=
  (piecesAt d l).filterMap fun x =>
    if 0 < x.2.len && (x.1.recs.all fun r => r.off + r.len ≤ x.2.start + x.2.len) then some (x.2.off + x.2.len - 1, x.1.chain) else none

/-- The header fields that the sectors of the cluster at `l` carry as far as the index tells them: owner, type and pass. RING_CTR, which
no record of the ring keeps, is drawn (log entry 86). -/
def indexHeader (d : Device) (l : Loc) : Option SectorHeader :=
  let mk (owner type pass : Nat) : SectorHeader :=
    { psa := 0, pass := pass, keygen := (d.slot owner).keygen, owner := owner, type := type, slot := 0, d := 0, relocated := false,
      contig := false, recOff := 0, ringCtr := (freeDraw d).toNat, aux := 0 }
  if l.layer = 0 && l.zone * dataPositions + l.pos < systemFirst then
    some (mk 0 5 (sget (fun _ => 0) d.rcl.bootPass ((l.zone * dataPositions + l.pos) / 4096)))
  else
    (piecesAt d l).head?.map fun x =>
      mk x.1.owner 0 ((((d.ring x.1.owner).zones.find? fun z => z.layer = l.layer && z.zone = l.zone).map (·.pass)).getD 0)

/-- The cluster at `src` as it is written at `dst`: with the owner, pass and order of its header and the bytes given. -/
def clusterAgain (d : Device) (h : SectorHeader) (src dst : Loc) (user : List Byte) (begins : List Nat)
    (ends : List (Nat × BitVec 128)) : WriteCluster :=
  { mkCluster d.wrc.nextId h.owner h.owner (typeKind h.type src) dst h.pass h.ringCtr user with
    begins := begins, ends := ends.map fun e => (e.1, none, e.2) }

end Sys2Proof.Machine
end

