-- ==== Sys2Proof/Machine/ReadChannel.lean ====
section
/-!
DEFINITION. The read channel (05_read_channel.md): the clusters that are read and where each stands on the recovery ladder, the sectors
as they arrive, decode and decrypt, the equaliser and detector excursions, and what a finished read delivers.
-/

namespace Sys2Proof.Machine

/-- Change the read channel. -/
def updRdc (f : ReadChannel → ReadChannel) (d : Device) : Device := { d with rdc := f d.rdc }

/-- The cluster being read with identity `id`. -/
def Device.reads (d : Device) (id : Nat) : Option LadderCluster := d.rdc.clusters.find? fun c => c.id = id

/-- Change the cluster being read `id`. -/
def updRead (id : Nat) (f : LadderCluster → LadderCluster) : Device → Device :=
  updRdc fun r => { r with clusters := updateFirst (fun c => c.id = id) f r.clusters }

/-- Sector `i` of a cluster being read. -/
def sectorAt (c : LadderCluster) (i : Nat) : SectorState := sget (fun _ => .unread) c.sectors i

/-- Sector `i` takes a new state. -/
def putSector (i : Nat) (x : SectorState) (c : LadderCluster) : LadderCluster :=
  { c with sectors := sset (fun _ => .unread) i x c.sectors }

/-- The sector has not been settled at step 1. -/
def isPending : SectorState → Bool
  | .unread => true
  | .stored => true
  | _ => false

/-- The sector is lost. -/
def isLost : SectorState → Bool
  | .lost _ => true
  | _ => false

/-- The recorded block of a sector that decoded or was restored. -/
def blockOf : SectorState → Option (List Byte)
  | .decoded b => some b
  | .verified b _ => some b
  | .fromPeer b _ => if b.isEmpty then none else some b
  | _ => none

/-- The plaintext of a sector that may be delivered. -/
def plainOf : SectorState → Option (List Byte)
  | .verified _ p => some p
  | .fromPeer _ p => some p
  | _ => none

/-- The sector's bytes came from the peer. -/
def isFromPeer : SectorState → Bool
  | .fromPeer _ _ => true
  | _ => false

/-- Lost sectors of a cluster. -/
def lostSectors (c : LadderCluster) : List Nat := (List.range 18).filter fun i => isLost (sectorAt c i)

/-- Data sectors that hold a wanted byte. -/
def wantedSectors (c : LadderCluster) : List Nat :=
  (List.range 16).filter fun i => c.parts.any fun p => p.2.1 < 4096 * (i + 1) && 4096 * i < p.2.1 + p.2.2

/-- The read is for a host command (R128). -/
def isHostRead : ReadFor → Bool
  | .host _ => true
  | .boot _ => true
  | .find (.command _ _) => true
  | _ => false

/-- The command that the read is for. -/
def readTag : ReadFor → Option Nat
  | .host t => some t
  | .boot t => some t
  | .find (.command t _) => some t
  | _ => none

/-! ### Policy (R127 to R129) -/

/-- DETECT_POLICY as it reaches a cluster: as it stood at the cluster's detector excursion, else as it stands (R129). -/
def policyOf (d : Device) (c : LadderCluster) : Word32 := c.held.getD (d.reg 0xA000)

/-- DETECT_POLICY.MODE is FAST_ONLY, for a host read (R128). -/
def fastOnly (d : Device) (c : LadderCluster) : Bool := isHostRead c.purpose && fld (policyOf d c) 1 0 = 1

/-- Escalation is refused: FAST_ONLY with STRICT (R49, Table 05-3). -/
def refusesDeep (d : Device) (c : LadderCluster) : Bool := fastOnly d c && wbit (policyOf d c) 31

/-- Outer iterations within bounds: MAX_OUTER for a host read under AUTO, none under FAST_ONLY, 8 for the FX880's own (R128). -/
def outerBound (d : Device) (c : LadderCluster) : Nat :=
  if !isHostRead c.purpose then 8 else if fastOnly d c then 0 else fld (policyOf d c) 11 8

/-- Inner iterations of one outer iteration: MAX_INNER in step 2 of a host read, else 4 (R128, Table 05-3). -/
def innerBound (d : Device) (c : LadderCluster) : Nat :=
  if isHostRead c.purpose && c.step = 2 then fld (policyOf d c) 7 4 else 4

/-- Outer iterations run on sector `i`. -/
def outerRun (c : LadderCluster) (i : Nat) : Nat := sget (fun _ => 0) c.outer i

/-- Lost sectors that Deep may work on, with fewer than `n` outer iterations (R127). -/
def deepCandidates (c : LadderCluster) (n : Nat) : List Nat :=
  (List.range 18).filter fun i => sectorAt c i = .lost true && outerRun c i < n

/-- Deep may begin its next outer iteration on sector `i`, in the step that the cluster is in (R127, R129). -/
def deepWants (d : Device) (c : LadderCluster) (i : Nat) : Bool :=
  if c.step = 2 then !fastOnly d c && (deepCandidates c (outerBound d c)).contains i
  else c.step = 3 && !refusesDeep d c && (deepCandidates c 8).contains i

/-! ### What the peer may be asked for (R24, R277) -/

/-- Sector `i` of a cluster and the bytes `[a, a + n)` of it overlap. -/
def touches (i a n : Nat) : Bool := a < 4096 * (i + 1) && 4096 * i < a + n

/-- The 4 KiB units of a record that lie, in part, in a run of its group's bytes. -/
def unitsIn (r : RecInfo) (s e : Nat) : List Nat :=
  (List.range 256).filter fun u => r.off + 4096 * u < e && s < r.off + min r.len (4096 * (u + 1))

/-- Units of record bytes that lie in sector `i` of the cluster at `l`: mark of the record and unit. -/
def unitsOfSector (d : Device) (l : Loc) (i : Nat) : List (Nat × Nat) :=
  ((piecesAt d l).filter fun x => touches i x.2.off x.2.len).flatMap fun x =>
    let s := x.2.start + (max x.2.off (4096 * i) - x.2.off)
    let e := x.2.start + (min (x.2.off + x.2.len) (4096 * (i + 1)) - x.2.off)
    (x.1.recs.filter fun r => r.off < e && s < r.off + r.len).flatMap fun r =>
      (unitsIn r s e).map fun u => (markOf x.1.stream r.seq, u)

/-- A sequence without repeats. -/
def onceEach {α : Type} [BEq α] (l : List α) : List α := l.foldl (fun l x => if l.contains x then l else l ++ [x]) []

/-- Lost data sectors of a cluster. -/
def lostData (c : LadderCluster) : List Nat := (lostSectors c).filter (· < 16)

/-- The read is a boot image's. -/
def isBootRead (p : ReadFor) : Bool :=
  match p with
  | .boot _ => true
  | _ => false

/-- What to ask of the peer for the lost sectors of a cluster: record units, or the sectors of a boot image, whose mark the manual does
not state (log entry 17). -/
def peerAsks (d : Device) (c : LadderCluster) : List PeerUnit :=
  if isBootRead c.purpose then
    let first := (c.loc.zone * dataPositions + c.loc.pos) % 4096 * 16
    (lostData c).map fun i => { xid := 0, mark := (freeDraw d).toNat, unit := first + i, sector := some i, answer := none }
  else
    (onceEach ((lostData c).flatMap (unitsOfSector d c.loc))).map fun u => { xid := 0, mark := u.1, unit := u.2, answer := none }

/-- The peer can hold the cluster's bytes: a boot image's, or a committed group's. A read for the peer's own request is served from this
medium alone (R277). -/
def peerHolds (d : Device) (c : LadderCluster) : Bool :=
  match c.purpose with
  | .recov _ _ _ => false
  | .boot _ => true
  | _ => (piecesAt d c.loc).any fun x => x.1.st = .committed && x.1.stream < bootStream

/-- Step `k` of Table 05-3 applies to a cluster that is still short. -/
def stepApplies (d : Device) (c : LadderCluster) : Nat → Bool
  | 2 => !fastOnly d c && !(deepCandidates c (outerBound d c)).isEmpty
  | 3 => !refusesDeep d c && !(deepCandidates c 8).isEmpty
  | 4 => !refusesDeep d c && c.rereads < d.regF 0xA004 1 0
  | 5 => inTopcoat d && !refusesDeep d c && c.asked.isEmpty && peerHolds d c
  | k => k = 6

/-- The next step of Table 05-3 after the present one whose condition holds. -/
def nextStep (d : Device) (c : LadderCluster) : Nat := (((List.range 7).drop (c.step + 1)).find? (stepApplies d c)).getD 6

/-! ### The cache (R230, R232, R234) -/

/-- A sector line may be delivered: its owner's slot is ACTIVE at its generation (R214). -/
def lineFresh (d : Device) (l : Line) : Bool := (d.slot l.owner).st = .active && (d.slot l.owner).keygen = l.keygen

/-- A lookup of a sector: a stale line is invalidated, counted, and not delivered (R214, R232). -/
def sectorLookup (psa : Nat) (d : Device) : Option (List Byte) × Device :=
  let p (l : Line) : Bool := !l.table && l.addr = psa
  match findLine d p with
  | some l =>
    if lineFresh d l then
      match lookup p d with
      | (some l, d) => (some l.block, d)
      | (none, d) => (none, d)
    else (none, (lookup p (count 0xD05C (dropLines p d))).2)
  | none => (none, (lookup p d).2)

/-- Class and insertion age of a fill for a cluster (Table 09-2): a READ_RANGE streams beyond its first 65,536 bytes. -/
def fillClass (d : Device) (c : LadderCluster) : Nat × Nat :=
  match c.purpose with
  | .host t =>
    let far := c.parts.all fun p => 65536 ≤ p.1
    (0, if far && ((d.cmd t).map fun x => eOpcode x.entry) = some 0x03 then 3 else 0)
  | .boot _ => (0, 0)
  | .refill _ cls => (cls, if cls = 1 then 3 else 0)
  | _ => (1, 3)

/-- Fill the cache with data sector `i` of a cluster, as its header names it (R230). -/
def fillSector (c : LadderCluster) (i : Nat) (block : List Byte) (d : Device) : Device :=
  match parseHeader (block.take 32) with
  | none => d
  | some h =>
    if 16 ≤ i then d
    else
      let (cls, age) := fillClass d c
      fillLine { valid := true, addr := c.psas.getD i 0, pass := h.pass, owner := h.owner, keygen := h.keygen, cls := cls,
                 age := age, block := block } d

/-! ### Starting a read -/

/-- Look up every wanted sector of a cluster in the cache. -/
def lookupWanted (id : Nat) (d : Device) : Device :=
  match d.reads id with
  | none => d
  | some c =>
    (wantedSectors c).foldl (fun d i =>
      match sectorLookup (c.psas.getD i 0) d with
      | (some b, d) => updRead id (putSector i (.decoded b)) d
      | (none, d) => d) d

/-- The focus must be on layer `l`: where it is on another, a jump comes first, after a seek under way (R77, R514); where it is on none,
an acquisition (R75, R145); the taps load afresh (R116). -/
def seekLayer (l : Nat) (d : Device) : Device :=
  if d.servo.layer = some l && d.servo.targetLayer.isNone then d
  else
    if d.servo.script.isSome || d.motion.seeking then { d with servo := { d.servo with targetLayer := some l } }
    else if d.servo.layer.isSome && (d.loop 0).st = .closed then
      startJump l { d with servo := { d.servo with acqRetry := false } }
    else startAcquisition l d

/-- One cluster to read, with its wanted ranges: sectors in the cache are at hand, and the others are read from the medium. -/
def addRead (purpose : ReadFor) (loc : Loc) (parts : List (Nat × Nat × Nat)) (d : Device) : Device :=
  let id := d.rdc.nextId
  let c : LadderCluster :=
    { id := id, loc := loc, purpose := purpose, parts := parts, psas := (List.range 18).map (psaOf loc) }
  let d := lookupWanted id (updRdc (fun r => { r with clusters := r.clusters ++ [c], nextId := id + 1 }) d)
  match d.reads id with
  | none => d
  | some c =>
    if (wantedSectors c).any fun i => isPending (sectorAt c i) then
      seekLayer loc.layer (updRead id (fun c => { c with reading := true }) d)
    else d

/-- The clusters of a list of parts, each once, in order. -/
def partClusters (parts : List (Loc × Nat × Nat × Nat)) : List Loc :=
  parts.foldl (fun l p => if l.contains p.1 then l else l ++ [p.1]) []

/-- Begin to read parts: location, offset in the read's data, first user byte, length. -/
def startRead (purpose : ReadFor) (parts : List (Loc × Nat × Nat × Nat)) (d : Device) : Device :=
  (partClusters parts).foldl (fun d l => addRead purpose l ((parts.filter fun p => p.1 = l).map (·.2)) d) d

/-! ### The end of a read (R132, R133, R325) -/

/-- The bytes of a cluster's user data from `a`, `n` of them, as far as its sectors are delivered; lost sectors give zeros. -/
def userBytes (c : LadderCluster) (a n : Nat) : List Byte :=
  ((List.range 16).filter fun i => a < 4096 * (i + 1) && 4096 * i < a + n).flatMap fun i =>
    let s := max a (4096 * i)
    let e := min (a + n) (4096 * (i + 1))
    slice (s - 4096 * i) (e - s) (padTo 4096 0 ((plainOf (sectorAt c i)).getD []))

/-- Data offsets of a part of a cluster that come from sector `i`: first and length. -/
def partRange (p : Nat × Nat × Nat) (i : Nat) : Option (Nat × Nat) :=
  let s := max p.2.1 (4096 * i)
  let e := min (p.2.1 + p.2.2) (4096 * (i + 1))
  if s < e then some (p.1 + (s - p.2.1), e - s) else none

/-- 4 KiB units of the data that any byte of a range touches. -/
def unitsTouched (r : Nat × Nat) : List Nat :=
  ((List.range 256).filter fun u => r.1 < 4096 * (u + 1) && 4096 * u < r.1 + r.2)

/-- The units affected by a cluster's lost or poisoned sectors (R133, R446). -/
def affectedUnits (c : LadderCluster) : List Nat :=
  ((List.range 16).filter fun i => isLost (sectorAt c i) || c.bad.contains i).flatMap fun i =>
    (c.parts.filterMap fun p => partRange p i).flatMap unitsTouched

/-- An uncorrectable word in a line (R241, R242): a sector line is invalidated and filled again from the medium, a table line's records
are poisoned. -/
def sramError (i : Nat) (records : BitVec 32) (d : Device) : Device :=
  let l := if i < 64 then d.line i else d.cch.victim.getD (i - 64) {}
  if !l.valid then d
  else if l.table then mapLines (isTable l.addr) (fun l => { l with poison := l.poison ||| records }) d
  else
    let d := raise 114 (count 0xC114 (dropLines (fun x => !x.table && x.addr = l.addr && x.pass = l.pass) d))
    let (c, slot) := clusterOfPsa l.addr
    startRead (.refill l.addr l.cls) [(c, 0, 4096 * slot, 4096)] d

/-- CACHE_SRAM_ERROR (R241). -/
def execCacheSramError (line : Nat) (records : BitVec 32) (s : State) : Host.Outcome State Fault Refusal :=
  effect s (sramError line records)

/-- The clusters of one read. -/
def readOf (d : Device) (p : ReadFor) : List LadderCluster := d.rdc.clusters.filter fun c => c.purpose = p

/-- Bytes of a read's data: the end of its last part. -/
def readLength (cs : List LadderCluster) : Nat := (cs.flatMap (·.parts)).foldl (fun n p => max n (p.1 + p.2.2)) 0

/-- The data of a read, affected units filled with 0x5A (R133). -/
def readData (cs : List LadderCluster) : List Byte :=
  let n := readLength cs
  let raw := cs.foldl (fun buf c => c.parts.foldl (fun buf p => overlay p.1 (userBytes c p.2.1 p.2.2) buf) buf) (List.replicate n 0)
  let bad := cs.flatMap affectedUnits
  (List.range ((n + 4095) / 4096)).flatMap fun u =>
    let here := slice (4096 * u) 4096 raw
    if bad.contains u then List.replicate here.length 0x5A else here

/-- A set of unit numbers as bits. -/
def unitMask (us : List Nat) : Nat := (List.range 48).foldl (fun m u => if us.contains u then m + 2 ^ u else m) 0

/-- Deep or the peer served a sector that is delivered, or one that restored it (R132). -/
def recoveredRead (c : LadderCluster) : Bool :=
  (wantedSectors c).any fun i =>
    c.deep.contains i || isFromPeer (sectorAt c i)
      || (c.restored.any (fun r => r.1 = i) && !c.deep.isEmpty)

/-- The status of a read whose clusters have all left the ladder (R132, R446). -/
def readStatus (cs : List LadderCluster) : Nat :=
  if cs.any fun c => c.ended = some true then stUncorrectable
  else if cs.any fun c => c.ended = some false || !c.bad.isEmpty then stPoisoned
  else if cs.any recoveredRead then stRecovered
  else stOk

/-- A host read ends: its data go to the host, and it completes (R132, R133, R324). -/
def finishHostRead (tag : Nat) (cs : List LadderCluster) (d : Device) : Device :=
  let st := readStatus cs
  let mask := unitMask (cs.flatMap affectedUnits)
  let n := (d.cmd tag).elim 0 (·.records)
  let d := deliverData tag 0 (readData cs) d
  let mark := (d.cmd tag).elim 0 fun c => entryMark c.entry
  let d := finishWith tag st (mask + 2 ^ 48 * n) false mark d
  if st = stPoisoned then raise 83 d else if st = stUncorrectable then raise 84 d else d

/-- The peer's request for record bytes is answered, every POISON bit set when they are lost (R277). -/
def answerRecov (xid unit : Nat) (cs : List LadderCluster) (d : Device) : Device :=
  let bad := !(cs.flatMap affectedUnits).isEmpty
  sendMsg (.recovData xid unit (readData cs) (if bad then 0xFFFFFFFF else 0)) d

/-- A group read for catch-up goes to the peer once a number is free, as poison when it does not read (R282, R285). A part of a boot
image crosses under a mark that the manual does not state (log entry 17). -/
def catchRead (mark : Nat) (cs : List LadderCluster) (d : Device) : Device :=
  match d.rcl.groups.find? fun g => groupMark g = mark && g.st = .committed, freeXid d with
  | some g, some x =>
    let p : BitVec 32 := if (cs.flatMap affectedUnits).isEmpty then 0 else 0xFFFFFFFF
    if g.stream < bootStream then
      let g' : Group := { g with bytes := readData cs }
      sendGroup x true mark g (wireBytes g') p d
    else sendGroup x true (freeDraw d).toNat g (readData cs) p (drawn d)
  | _, _ => d

/-- Every cluster of a read is settled: it ends. A search goes on by itself with what it has read (R186). -/
def finishRead (p : ReadFor) (d : Device) : Device :=
  let cs := readOf d p
  if cs.isEmpty || cs.any (fun c => !c.done) then d
  else
    match p with
    | .host t => finishHostRead t cs d
    | .boot t => finishHostRead t cs d
    | .find _ => d
    | .refill _ _ => dropReads (· = p) d
    | .recov x _ u => dropReads (· = p) (answerRecov x u cs d)
    | .catchUp m => dropReads (· = p) (catchRead m cs d)

/-! ### The ladder (R126, R127, R130) -/

/-- Free the sample-store slots of a cluster. -/
def freeStore (c : LadderCluster) : Device → Device :=
  updRdc fun r => { r with store := r.store.filter fun x => !c.psas.contains x.psa }

/-- Every sector that is not lost has its recorded block at hand. -/
def restorable (c : LadderCluster) : Bool :=
  (List.range 18).all fun i => isLost (sectorAt c i) || (blockOf (sectorAt c i)).isSome

/-- The one or two lost sectors are restored from the others (R126), and fill the cache. -/
def restoreCluster (c : LadderCluster) (d : Device) : Device :=
  let lost := lostSectors c
  let blocks := (List.range 18).map fun i => (blockOf (sectorAt c i)).getD (List.replicate 4160 0)
  let d := lost.foldl (fun d i =>
    let b := restoreBlock blocks i (lost.find? (· != i))
    fillSector c i b (updRead c.id (fun x =>
      { putSector i (.decoded b) x with restored := x.restored ++ [(i, decide (sectorAt c i = .lost true))] }) d)) d
  raise 81 d

/-- The cluster is queued for a rewrite; source 90 (R24, R130). -/
def queueRefresh (c : LadderCluster) (d : Device) : Device :=
  let peer := (List.range 18).any fun i => isFromPeer (sectorAt c i)
  let x : Refresh := { id := c.id, loc := c.loc, sectors := c.sectors, peer := peer }
  raise 90 (updRdc (fun r => { r with refreshQueue := r.refreshQueue ++ [x] }) d)

/-- The cluster leaves the ladder: its slots are free, and it is queued for refresh when it left at step 2 or later, or lost two sectors
at step 1 (R130). -/
def leaveLadder (c : LadderCluster) (lostNow : Nat) (d : Device) : Device :=
  let d := freeStore c (updRead c.id (fun c => { c with reading := false }) d)
  if c.climbed || lostNow = 2 then
    match d.reads c.id with
    | some c => queueRefresh c d
    | none => d
  else d

/-- The cluster ends at step 6: its lost sectors are poisoned, or the read is refused escalation (R132, Table 05-3). Neither is queued
for refresh: with STRICT the rule says so, and without it the poisoned data are not there to be rewritten (log entry 86). -/
def endLadder (c : LadderCluster) (d : Device) : Device :=
  let strict := refusesDeep d c
  let d := updRead c.id (fun c => { c with reading := false, step := 6, ended := some strict }) (freeStore c d)
  raise 80 (if strict then d else countN 0xA024 (lostSectors c).length d)

/-- Overlay a unit that came from the peer on the user bytes of the cluster at `l`: bytes of a record, or a sector of a boot image. -/
def overlayUnit (d : Device) (l : Loc) (u : PeerUnit) (user : List Byte) : List Byte :=
  match u.answer, u.sector with
  | some (bs, false), some i => overlay (4096 * i) (padTo 4096 0 (bs.take 4096)) user
  | some (bs, false), none =>
    (piecesAt d l).foldl (fun user x =>
      match x.1.recs.find? fun r => markOf x.1.stream r.seq = u.mark with
      | none => user
      | some r =>
        let a := r.off + 4096 * u.unit
        let s := max a x.2.start
        let e := min (a + bs.length) (x.2.start + x.2.len)
        if s < e then overlay (x.2.off + (s - x.2.start)) (slice (s - a) (e - s) bs) user else user) user
  | _, _ => user

/-- The user bytes of a cluster as the peer's units give them. -/
def peerUser (d : Device) (c : LadderCluster) : List Byte :=
  c.asked.foldl (fun user u => overlayUnit d c.loc u user)
    (if isBootRead c.purpose then List.replicate 65536 0 else blankUser d c.loc)

/-- Every unit of a lost data sector has come without poison (R24, R25). -/
def peerServed (d : Device) (c : LadderCluster) (i : Nat) : Bool :=
  let good (u : PeerUnit) : Bool := match u.answer with | some (_, p) => !p | none => false
  if isBootRead c.purpose then c.asked.any fun u => u.sector = some i && good u
  else (unitsOfSector d c.loc i).all fun x => c.asked.any fun u => u.mark = x.1 && u.unit = x.2 && good u

/-- A header of the cluster that was read. -/
def clusterHeader (c : LadderCluster) : Option SectorHeader :=
  (List.range 16).findSome? fun i => (blockOf (sectorAt c i)).bind fun b => parseHeader (b.take 32)

/-- The recorded block of a sector whose plaintext came from the peer, formed again as it was first written when another sector of the
cluster shows what its header holds (R138). -/
def peerBlock (d : Device) (c : LadderCluster) (user : List Byte) (i : Nat) : List Byte :=
  match clusterHeader c with
  | none => []
  | some h =>
    if (d.slot h.owner).keygen != h.keygen || (d.slot h.owner).key.isNone then []
    else dataBlock d (clusterAgain d h c.loc c.loc user (indexBegins d c.loc) (indexEnds d c.loc)) i

/-- The answers are all in: each lost data sector whose units came takes its bytes from the peer; when no header tells how the cluster was
written and every data sector is at hand, a lost parity sector is written anew with it (R24, R25). -/
def takePeer (c : LadderCluster) (d : Device) : Device :=
  let user := peerUser d c
  let got := (lostData c).filter (peerServed d c)
  let blocks := got.map fun i => (i, peerBlock d c user i)
  let d := blocks.foldl (fun d x => updRead c.id (putSector x.1 (.fromPeer x.2 (slice (4096 * x.1) 4096 user))) d) d
  if got.length = (lostData c).length && blocks.any (fun x => x.2.isEmpty) then
    (lostSectors c).foldl (fun d i => if 16 ≤ i then updRead c.id (putSector i (.fromPeer [] [])) d else d) d
  else d

/-- Step 5: each unit is asked of the peer (R24, R277); when there is none to ask, the index alone tells the lost bytes. -/
def askPeer (c : LadderCluster) (d : Device) : Device :=
  let asks := peerAsks d c
  if asks.isEmpty then takePeer c d
  else
    asks.foldl (fun d u =>
      let x := d.lath.nextXid % 16
      let d := updLath (fun l => { l with nextXid := l.nextXid + 1 }) d
      sendMsg (.recovReq x u.mark u.unit) (updRead c.id (fun c => { c with asked := c.asked ++ [{ u with xid := x }] }) d))
      (if isBootRead c.purpose then drawn d else d)

/-- A step of the ladder begins: Deep is requested for its candidates in order, the slots are free once Deep is over, or the peer is asked
(R115, R124, R127). -/
def enterStep (c : LadderCluster) (k : Nat) (d : Device) : Device :=
  let d := updRead c.id (fun c => { c with step := k, climbed := true }) d
  let request (n : Nat) : Device → Device :=
    updRdc fun r => { r with deepQueue := r.deepQueue ++ (deepCandidates c n).map fun i => (c.id, i) }
  match k with
  | 2 => request (outerBound d c) d
  | 3 => request 8 d
  | 4 => freeStore c d
  | 5 => askPeer { c with step := 5 } (freeStore c d)
  | _ => endLadder c d

/-- Wanted sectors are all delivered or given up. -/
def wantedSettled (c : LadderCluster) : Bool :=
  (wantedSectors c).all fun i =>
    (plainOf (sectorAt c i)).isSome || c.bad.contains i || (c.ended.isSome && isLost (sectorAt c i))

/-- The step that the cluster is in has not ended: a sector is still to be read, Deep works on it or is to, it waits for its re-read, or
for the peer. -/
def stepGoesOn (d : Device) (c : LadderCluster) : Bool :=
  (List.range 18).any (fun i => isPending (sectorAt c i))
    || d.rdc.deepQueue.any (fun x => x.1 = c.id) || (d.rdc.deepRun.any fun x => x.cluster = c.id)
    || (c.step = 4 && stepApplies d c 4) || c.asked.any (fun u => u.answer.isNone)

/-- The step of a cluster has ended: it leaves with at most two sectors lost, which are restored, or the next step begins (R127). -/
def climb (c : LadderCluster) (d : Device) : Device :=
  let n := (lostSectors c).length
  if n = 0 then leaveLadder c 0 d
  else if n ≤ 2 && restorable c then leaveLadder c n (restoreCluster c d)
  else enterStep c (nextStep d c) d

/-- A cluster on the ladder goes as far as it may, at most `n` steps. -/
def climbOn (id : Nat) : Nat → Device → Device
  | 0, d => d
  | n + 1, d =>
    match d.reads id with
    | none => d
    | some c => if !c.reading || stepGoesOn d c then d else climbOn id n (climb c d)

/-- Settle a cluster as far as it stands now (R127), and its read with it. -/
def settleRead (id : Nat) (d : Device) : Device :=
  let d := climbOn id 8 d
  match d.reads id with
  | none => d
  | some c =>
    if !c.done && !c.reading && wantedSettled c then finishRead c.purpose (updRead id (fun c => { c with done := true }) d) else d

/-! ### The Deep path in order of request (R124, R127 to R129) -/

/-- Deep begins its next outer iteration on a sector: within the bounds, or past those of a host read, where the detector takes its
excursion and the policy of that moment holds until the read completes (R43, R50, R127, R129). Source 82 at a decode's first. -/
def beginDeep (c : LadderCluster) (i : Nat) (d : Device) : Device :=
  let k := outerRun c i + 1
  let d := updRdc (fun r => { r with deepRun := some { cluster := c.id, sector := i, inner := innerBound d c, step := c.step } }) d
  let d := if k = 1 then raise 82 (count 0xA020 d) else d
  if isHostRead c.purpose && outerBound d c < k then
    excTake 3 3 (BitVec.ofNat 32 (256 * k)) (updRead c.id (fun c => { c with held := some (policyOf d c) }) d)
  else d

/-- The request at the head of the queue is over. -/
def popDeep : Device → Device := updRdc fun r => { r with deepQueue := r.deepQueue.drop 1 }

/-- Deep goes on with the request at the head, or with the next one that the policy still lets it serve; at most `n` are passed over. -/
def deepNext : Nat → Device → Device
  | 0, d => d
  | n + 1, d =>
    if d.rdc.deepRun.isSome then d
    else
      match d.rdc.deepQueue with
      | [] => d
      | (id, i) :: _ =>
        match d.reads id with
        | none => deepNext n (popDeep d)
        | some c => if c.reading && deepWants d c i then beginDeep c i d else deepNext n (settleRead id (popDeep d))

/-- Clusters that wait for a step which no longer applies go on, and Deep begins what it can (R127, R129). -/
def pumpReads (d : Device) : Device :=
  let d := (d.rdc.clusters.filter (·.reading)).foldl (fun d c => settleRead c.id d) d
  deepNext (40 * (d.rdc.clusters.length + 1)) d

/-! ### Sectors as they arrive (R114 to R121, R137) -/

/-- The cluster being read, and its slot, whose frame has address `psa` in a state that satisfies `p`. -/
def frameRead (d : Device) (psa : Nat) (p : LadderCluster → Nat → Bool) : Option (LadderCluster × Nat) :=
  d.rdc.clusters.findSome? fun c =>
    match (List.range 18).find? fun i => c.psas.getD i 0 = psa with
    | some i => if p c i then some (c, i) else none
    | none => none

/-- Take a frame out of the front end: its samples on the way, and its slot. -/
def dropFrame (psa : Nat) : Device → Device :=
  updRdc fun r => { r with
    store := r.store.filter fun x => x.psa != psa
    fifo := r.fifo.filter fun x => x.psa != psa
    part := r.part.filter fun x => x.psa != some psa
    line := r.line.map fun x => if x.psa = some psa then { x with psa := none } else x
    incoming := r.incoming.filter fun x => x.1 != psa }

/-- The sector of frame `psa` is lost at step 1 (R114, R119, R121). -/
def loseSector (c : LadderCluster) (i : Nat) (attempted : Bool) (d : Device) : Device :=
  let d := updRead c.id (putSector i (.lost attempted)) (count 0xA01C d)
  settleRead c.id (if attempted then d else dropFrame (c.psas.getD i 0) d)

/-- Initial taps of the session speed and the layer (R116). -/
def initialTaps (d : Device) (layer : Nat) : List (BitVec 12) :=
  (List.range 15).map fun t => (d.reg (0xA200 + 0x200 * b2n d.servo.fast + 0x40 * layer + 4 * t)).setWidth 12

/-- The taps are loaded at the start of a run of reading on a layer at a session speed (R116). -/
def loadTaps (layer : Nat) (d : Device) : Device :=
  if d.rdc.tapsFor = some (d.servo.fast, layer) then d
  else updRdc (fun r => { r with taps := initialTaps d layer, tapsFor := some (d.servo.fast, layer) }) d

/-- The supply lets a cluster be read: none starts during a ride-through or a seal's finish step, though one in progress goes on, and
none is read from then until the FX880 is armed again (R375, R376, R379). -/
def readPermitted (d : Device) (c : LadderCluster) : Bool :=
  mediumOpen d || ((d.pwr.st = .rideThrough || (d.pwr.st = .sealing && d.pwr.sealStep = 1)) && !c.sectors.isEmpty)

/-! #### The front end: the defect detector, the FIFO and the store (R113, R114, R117, R119, R120) -/

/-- Channel bits of a data field (Table 07-2). -/
def fieldBits : Nat := 55488

/-- Depth of the delay line: a defect may flag DROP_MIN + GUARD bits back, at most 510 (R120; log entry 87). -/
def lineDepth : Nat := 510

/-- The newest `n` samples of the delay line take a flag. -/
def flagNewest (n : Nat) (on : Bool) (l : List LineBit) : List LineBit :=
  (l.take n).map (fun x => { x with erased := on }) ++ l.drop n

/-- The envelope lies below DROP_LVL / 256 of the running mean (R120). -/
def belowLevel (d : Device) (env : Nat) : Bool :=
  let es := d.rdc.envelopes
  !es.isEmpty && 256 * env * es.length < d.regF 0xA008 7 0 * es.foldl (· + ·) 0

/-- The entry of eight samples and their erasure flags (R113). -/
def packEntry (l : List LineBit) : BitVec 64 :=
  BitVec.ofNat 64 (((List.range 8).zip l).foldl (fun w x =>
    w + x.2.sample.toNat * 2 ^ (7 * x.1) + (if x.2.erased then 2 ^ (56 + x.1) else 0)) 0)

/-- An entry is due into the read FIFO: source 88 and the AVS window's mark at 96 entries; into a full FIFO it is dropped, source 89, and
its sector is lost (R37, R114). -/
def fifoPush (psa : Nat) (w : BitVec 64) (d : Device) : Device :=
  if 128 ≤ d.rdc.fifo.length then
    let d := raise 89 d
    match frameRead d psa fun c i => c.reading && sectorAt c i = .unread with
    | some (c, i) => loseSector c i false d
    | none => dropFrame psa (count 0xA01C d)
  else
    let d := updRdc (fun r => { r with fifo := r.fifo ++ [{ psa := psa, word := w }] }) d
    if d.rdc.fifo.length = 96 then
      let reads := (d.rdc.clusters.filter fun c => !c.done).map (·.id)
      raise 88 (updAvs (fun a => { a with fifoHigh := true, fifoReads := onceEach (a.fifoReads ++ reads) }) d)
    else d

/-- A sample leaves the delay line: one of a data field enters the entry being packed, which goes to the FIFO when it is full (R113). -/
def packBit (b : LineBit) (d : Device) : Device :=
  match b.psa with
  | none => d
  | some psa =>
    let l := d.rdc.part ++ [b]
    if l.length < 8 then updRdc (fun r => { r with part := l }) d
    else fifoPush psa (packEntry l) (updRdc (fun r => { r with part := [] }) d)

/-- A defect longer than FLYWHEEL × 64 channel bits drops lock: source 86, and the rest of the sector is flagged (R119). -/
def flywheel (d : Device) : Device :=
  if d.rdc.locked && d.regF 0xA008 31 24 * 64 < d.rdc.defectLen then
    raise 86 (updRdc (fun r => { r with locked := false, restErased := true }) d)
  else d

/-- A bit outside a defect: it adds to a run below the level, which begins a defect at DROP_MIN bits, back to GUARD bits before its first;
or it ends such a run and enters the mean (R120). -/
def outsideBit (low : Bool) (env : Nat) (d : Device) : Device :=
  let d := updRdc (fun r => { r with guard := r.guard - 1 }) d
  if !low then updRdc (fun r => { r with envelopes := (env :: (r.run ++ r.envelopes)).take 4096, run := [] }) d
  else
    let d := updRdc (fun r => { r with run := env :: r.run }) d
    let n := d.rdc.run.length
    if n < d.regF 0xA008 15 8 then d
    else
      let g := d.regF 0xA008 23 16
      flywheel (updRdc (fun r => { r with
        defect := true, defectLen := n, run := [], guard := 0, line := flagNewest (n + g) true r.line }) d)

/-- A bit in a defect: 16 consecutive bits at or above the level end it, with the flags going on for GUARD bits after its last low bit; a
low bit lengthens it (R119, R120). -/
def defectBit (low : Bool) (env : Nat) (d : Device) : Device :=
  if low then flywheel (updRdc (fun r => { r with defectLen := r.defectLen + r.run.length + 1, run := [] }) d)
  else
    let d := updRdc (fun r => { r with run := env :: r.run }) d
    if d.rdc.run.length < 16 then d
    else
      let g := d.regF 0xA008 23 16
      updRdc (fun r => { r with
        defect := false, defectLen := 0, guard := g - 16, run := [], envelopes := (r.run ++ r.envelopes).take 4096
        line := if r.restErased then r.line else flagNewest (16 - g) false r.line }) d

/-- One channel bit comes from the front end. -/
def takeBit (sample : BitVec 7) (env : Nat) (d : Device) : Device :=
  let low := belowLevel d env
  let erased := d.rdc.defect || 0 < d.rdc.guard || d.rdc.restErased
  let d := updRdc (fun r => { r with
    line := { sample := sample, erased := erased, psa := r.incoming.map (·.1) } :: r.line
    incoming := r.incoming.bind fun x => if x.2 ≤ 1 then none else some (x.1, x.2 - 1) }) d
  let d := if d.rdc.defect then defectBit low env d else outsideBit low env d
  if d.rdc.line.length ≤ lineDepth then d
  else
    match d.rdc.line.getLast? with
    | some b => packBit b (updRdc (fun r => { r with line := r.line.dropLast }) d)
    | none => d

/-- The sample store takes the oldest entry of the FIFO into its frame's slot. -/
def takeEntryOf (d : Device) : Device :=
  match d.rdc.fifo with
  | [] => d
  | e :: l =>
    updRdc (fun r => { r with
      fifo := l, store := updateFirst (fun x => x.psa = e.psa) (fun x => { x with entries := e.word :: x.entries }) r.store }) d

/-- Taps lifted in the cluster whose sector passes under the spot (R118). -/
def liftedNow (d : Device) : List Nat :=
  match d.rdc.incoming.bind fun x => frameRead d x.1 fun _ _ => true with
  | some (c, _) => c.lifted
  | none => []

/-- Tap `t` as it may stand after an update to `v`: within its bounds, or within the tap's range when it is lifted (R117, R118). -/
def boundTap (d : Device) (lifted : List Nat) (t : Nat) (v : Int) : BitVec 12 :=
  let b := d.reg (0xA140 + 4 * t)
  if lifted.contains t then BitVec.ofInt 12 (clampInt (-2048) 2047 v)
  else BitVec.ofInt 12 (clampInt (signedOf 12 (fld b 11 0)) (signedOf 12 (fld b 27 16)) v)

/-- Taps that stand at a bound (R117). -/
def tapsAtBound (d : Device) (taps : List (BitVec 12)) : List Nat :=
  (List.range 15).filter fun t =>
    let b := d.reg (0xA140 + 4 * t)
    let v := (taps.getD t 0).toInt
    v = signedOf 12 (fld b 11 0) || v = signedOf 12 (fld b 27 16)

/-- EXTREME of the equaliser: tap index in [19:16], value in [11:0] (R118). -/
def tapWord (t : Nat) (v : BitVec 12) : Word32 := BitVec.ofNat 32 (t * 65536 + v.toNat)

/-- The adaptation is frozen: off, without lock, or on samples that are flagged (R117). -/
def tapsFrozen (d : Device) : Bool :=
  !wbit (d.reg 0xA00C) 8 || !d.rdc.locked || d.rdc.defect || 0 < d.rdc.guard || d.rdc.restErased

/-- An update of the taps, each held to its bounds; a lifted one past its bound is the excursion's value (R117, R118). -/
def takeTaps (taps : List Int) (d : Device) : Device :=
  if tapsFrozen d then d
  else
    let lifted := liftedNow d
    let ts := (List.range 15).map fun t => boundTap d lifted t (taps.getD t 0)
    let d := lifted.foldl (fun d t =>
      let w := tapWord t (ts.getD t 0)
      if 0 < tapDistance d w then excReach 4 3 w d else d) d
    updRdc (fun r => { r with taps := ts }) d

/-- One event of the front end or the store. -/
def flowStep (d : Device) : Flow → Device
  | .bit v e => takeBit v e d
  | .adapt t => takeTaps t d
  | .take => takeEntryOf d

/-- What came since the last event of the read channel, in order. -/
def flowIn (flow : List Flow) (d : Device) : Device := flow.foldl flowStep d

/-- The sync field of a frame that is due to be read begins and ends: a stall without a free slot, a loss without lock, else its samples
come (R115, R116, R119, R137). -/
def sectorSync (psa : Nat) (locked : Bool) (d : Device) : Device :=
  match frameRead d psa fun c i => c.reading && sectorAt c i = .unread && readPermitted d c with
  | none => d
  | some (c, i) =>
    if d.rdc.stalled && d.rdc.resumeAt != some psa then d
    else if 24 ≤ d.rdc.store.length then
      raise 87 (count 0xA028 (updRdc (fun r => { r with stalled := true, resumeAt := some psa }) d))
    else
      let d := loadTaps c.loc.layer (updRdc (fun r => { r with
        stalled := false, resumeAt := none, locked := locked, restErased := false, incoming := none }) d)
      if locked then
        updRdc (fun r => { r with store := r.store ++ [{ psa := psa, entries := [] }], incoming := some (psa, fieldBits) }) d
      else loseSector c i false d

/-- SECTOR_SYNC (R137). -/
def execSectorSync (psa : Nat) (locked : Bool) (flow : List Flow) (s : State) : Host.Outcome State Fault Refusal :=
  effect s fun d => pumpReads (sectorSync psa locked (flowIn flow d))

/-- READ_FIFO_HIGH_WATER (R37, R114): the entry that brings the FIFO to 96 comes with the flow. -/
def execReadFifoHighWater (flow : List Flow) (s : State) : Host.Outcome State Fault Refusal :=
  effect s fun d => pumpReads (flowIn flow d)

/-- READ_FIFO_OVERFLOW (R114): the entry that finds the FIFO full comes with the flow. -/
def execReadFifoOverflow (flow : List Flow) (s : State) : Host.Outcome State Fault Refusal :=
  effect s fun d => pumpReads (flowIn flow d)

/-- TIMING_LOCK_LOST (R119): the bit by which the defect outlasts the flywheel comes with the flow. -/
def execTimingLockLost (flow : List Flow) (s : State) : Host.Outcome State Fault Refusal :=
  effect s fun d => pumpReads (flowIn flow d)

/-- DEFECT_BEGIN (R120): the bit that begins the defect comes with the flow. -/
def execDefectBegin (flow : List Flow) (s : State) : Host.Outcome State Fault Refusal :=
  effect s fun d => pumpReads (flowIn flow d)

/-- DEFECT_END (R120): the bit that ends the defect comes with the flow. -/
def execDefectEnd (flow : List Flow) (s : State) : Host.Outcome State Fault Refusal :=
  effect s fun d => pumpReads (flowIn flow d)

/-- Erased code bits: two-thirds of the erased channel bits, rounded up (R121). -/
def erasedCode (erased : Nat) : Nat := (2 * erased + 2) / 3

/-- Erased channel bits of a data field in the store. -/
def erasedBits (es : List (BitVec 64)) : Nat :=
  es.foldl (fun n w => n + ((List.range 8).filter fun k => w.getLsbD (56 + k)).length) 0

/-- A bound-limited sector is noted, with source 85 for the first of each read (R117). -/
def noteBound (c : LadderCluster) (i : Nat) (d : Device) : Device :=
  let at_ := tapsAtBound d d.rdc.taps
  if at_.isEmpty then d
  else
    let d := updRead c.id (fun c => { c with boundLimited := c.boundLimited.filter (fun b => b.1 != i) ++ [(i, at_)] }) d
    if d.rdc.boundRaised.contains c.purpose then d
    else raise 85 (updRdc (fun r => { r with boundRaised := r.boundRaised ++ [c.purpose] }) d)

/-- The data field of frame `psa` is in the store: it is lost for its erasures, or handed to the Fast path (R121). -/
def dataFieldEnd (psa : Nat) (d : Device) : Device :=
  match frameRead d psa (fun c i => c.reading && sectorAt c i = .unread), d.rdc.store.find? fun x => x.psa = psa with
  | some (c, i), some x =>
    if 8 * x.entries.length < fieldBits then d
    else
      let d := noteBound c i d
      if d.regF 0xA004 29 16 < erasedCode (erasedBits x.entries) then loseSector c i false d
      else updRead c.id (putSector i .stored) d
  | _, _ => d

/-- DATA_FIELD_END (R121). -/
def execDataFieldEnd (psa : Nat) (flow : List Flow) (s : State) : Host.Outcome State Fault Refusal :=
  effect s fun d => pumpReads (dataFieldEnd psa (flowIn flow d))

/-! ### Decoding (R122 to R124, R127) -/

/-- A header has been read: it confirms the layer that focus captured on, or shows another, which fails the attempt (R75 to R77). -/
def headerSeen (block : List Byte) (d : Device) : Device :=
  match d.servo.targetLayer, parseHeader (block.take 32) with
  | some t, some h =>
    if psaLayer h.psa = t then layerConfirmed t d else attemptFailed t (some (psaLayer h.psa)) d
  | _, _ => d

/-- A sector has decoded: it fills the cache. -/
def sectorDecoded (c : LadderCluster) (i : Nat) (block : List Byte) (d : Device) : Device :=
  settleRead c.id (fillSector c i block (updRead c.id (putSector i (.decoded block)) d))

/-- The slot of a frame is free. -/
def freeStoreSlot (psa : Nat) : Device → Device := updRdc fun r => { r with store := r.store.filter fun x => x.psa != psa }

/-- FAST_DECODE_DONE: decoded when the word satisfies every check, or a Fast failure whose samples stay for the Deep path (R115, R122,
R123). -/
def fastDone (psa word : Nat) (d : Device) : Device :=
  match frameRead d psa fun c i => c.reading && sectorAt c i = .stored with
  | none => d
  | some (c, i) =>
    if ldpcOk word then
      let b := codeBlock word
      sectorDecoded c i b (if i < 16 then headerSeen b (freeStoreSlot psa (count 0xA018 d)) else freeStoreSlot psa (count 0xA018 d))
    else loseSector c i true d

/-- FAST_DECODE_DONE (R123). -/
def execFastDecodeDone (psa : Nat) (word : BitVec 36992) (s : State) : Host.Outcome State Fault Refusal :=
  effect s fun d => pumpReads (fastDone psa word.toNat d)

/-- An outer iteration of Deep on sector `i` has run: it decodes after `inner` inner iterations when its word satisfies every check, or has
run all its inner iterations; its slot is free once the decode has ended (R115, R122, R124, R127). -/
def deepEnds (run : DeepRun) (c : LadderCluster) (i inner word : Nat) (d : Device) : Device :=
  let psa := c.psas.getD i 0
  let ok := inner ≤ run.inner && ldpcOk word
  let k := outerRun c i + 1
  let n := if ok then inner else run.inner
  let d := if c.held.isSome then excReach 3 3 (BitVec.ofNat 32 (256 * k + n)) d else d
  let d := updRdc (fun r => { r with deepRun := none }) (updRead c.id (fun c => { c with outer := sset (fun _ => 0) i k c.outer }) d)
  if ok then sectorDecoded c i (codeBlock word) (updRead c.id (fun c => { c with deep := c.deep ++ [i] }) (popDeep (freeStoreSlot psa d)))
  else if 8 ≤ k then settleRead c.id (popDeep (freeStoreSlot psa d))
  else d

/-- DEEP_ITERATION_DONE on the sector that Deep serves. -/
def deepDone (psa inner word : Nat) (d : Device) : Device :=
  match d.rdc.deepRun with
  | none => d
  | some run =>
    match d.reads run.cluster with
    | none => d
    | some c => if c.psas.getD run.sector 0 = psa then deepEnds run c run.sector inner word d else d

/-- DEEP_ITERATION_DONE (R124): the next iteration follows, on this sector or on the next requested, as the policy then stands (R129). -/
def execDeepIterationDone (psa : Nat) (inner : Nat) (word : BitVec 36992) (s : State) : Host.Outcome State Fault Refusal :=
  effect s fun d => pumpReads (deepDone psa inner word.toNat d)

/-- Taps lifted for a re-read: those at a bound at the end of a sector that is still lost (R118). -/
def liftedTaps (c : LadderCluster) : List Nat :=
  ((c.boundLimited.filter fun b => isLost (sectorAt c b.1)).flatMap (·.2)).foldl (fun l t => if l.contains t then l else l ++ [t]) []

/-- The lost sectors are read again (step 4): taps load afresh, and the equaliser takes its excursion (R116, R118). -/
def rereadCluster (c : LadderCluster) (d : Device) : Device :=
  let lifted := liftedTaps c
  let lost := lostSectors c
  let d := updRdc (fun r => { r with tapsFor := none }) d
  let d := match lifted with
    | t :: _ => excTake 4 3 (tapWord t (d.rdc.taps.getD t 0)) d
    | [] => d
  updRead c.id (fun c =>
    let c := lost.foldl (fun c i => { putSector i .unread c with outer := sset (fun _ => 0) i 0 c.outer }) c
    { c with step := 1, rereads := c.rereads + 1, lifted := lifted }) d

/-- CLUSTER_REREAD (R127): the cluster waits for its re-read. -/
def execClusterReread (cluster : Nat) (s : State) : Host.Outcome State Fault Refusal :=
  effect s fun d =>
    match d.reads cluster with
    | none => d
    | some c => onlyIf (c.reading && c.step = 4 && stepApplies d c 4) (rereadCluster c) d

/-! ### Decryption (R131, R446) -/

/-- A sector's generation is not its owner's present one: a host command that needs it completes with KEY_RETIRED (R214). -/
def generationGone (d : Device) (block : List Byte) : Bool :=
  match parseHeader (block.take 32) with
  | some h => (d.slot h.owner).st != .active || (d.slot h.owner).keygen != h.keygen
  | none => false

/-- The tag failed: the sector is lost, and so is every sector that was restored from it; the cluster re-enters the ladder at step 2
(R131). -/
def tagFailed (c : LadderCluster) (i : Nat) (d : Device) : Device :=
  let d := raise 91 (count 0xD058 (count 0xA02C d))
  let att := match c.restored.find? fun r => r.1 = i with | some r => r.2 | none => true
  let gone := (i, att) :: c.restored.filter fun r => r.1 != i
  let d := gone.foldl (fun d r =>
    dropLines (fun l => !l.table && l.addr = c.psas.getD r.1 0) (updRead c.id (putSector r.1 (.lost r.2)) d)) d
  let d := updRead c.id (fun c => { c with reading := true, step := 1, climbed := true, restored := [], ended := none, asked := [] }) d
  match d.reads c.id with
  | none => d
  | some c => settleRead c.id (seekLayer c.loc.layer (if stepApplies d c 2 then enterStep c 2 d else d))

/-- The tag verified: the plaintext is delivered, unless the egress buffer is poisoned, which is decrypted once more (R446). -/
def tagPassed (c : LadderCluster) (i : Nat) (block plain : List Byte) (poisoned : Bool) (d : Device) : Device :=
  let d := count 0xD054 d
  if poisoned && !c.again.contains i then updRead c.id (fun c => { c with again := c.again ++ [i] }) d
  else
    let d := updRead c.id (putSector i (.verified block (plain.take 4096))) d
    settleRead c.id (if poisoned then updRead c.id (fun c => { c with bad := c.bad ++ [i] }) d else d)

/-- EGRESS_DECRYPT_DONE on a wanted sector that has decoded (R131, R214). -/
def egressDone (psa : Nat) (tagOk : Bool) (plain : List Byte) (poisoned : Bool) (d : Device) : Device :=
  match frameRead d psa fun c i => (wantedSectors c).contains i && (match sectorAt c i with | .decoded _ => true | _ => false) with
  | none => d
  | some (c, i) =>
    let b := (blockOf (sectorAt c i)).getD []
    if generationGone d b then
      let d := count 0xD05C d
      match readTag c.purpose with
      | some t => finish t stKeyRetired d
      | none => settleRead c.id (updRead c.id (fun c => { c with bad := c.bad ++ [i] }) d)
    else if tagOk then tagPassed c i b plain poisoned d
    else tagFailed c i d

/-- EGRESS_DECRYPT_DONE (R131). -/
def execEgressDecryptDone (psa : Nat) (tagOk : Bool) (plain : List Byte) (poisoned : Bool) (s : State) :
    Host.Outcome State Fault Refusal :=
  effect s fun d => pumpReads (egressDone psa tagOk plain poisoned d)

/-! ### The peer's answer (R24) -/

/-- Unit `u` of a cluster is answered; with the last one the sectors that came are taken, and the ladder goes on (R24, Table 05-3). -/
def answerUnits (id : Nat) (f : PeerUnit → PeerUnit) (d : Device) : Device :=
  let d := updRead id (fun c => { c with asked := c.asked.map f }) d
  match d.reads id with
  | none => d
  | some c => if c.asked.any (fun u => u.answer.isNone) then d else settleRead id (takePeer c d)

/-- RECOV_DATA: the unit arrives, poisoned or not. -/
def recovData (xid unit : Nat) (bytes : List Byte) (poison : BitVec 32) (d : Device) : Device :=
  let p (u : PeerUnit) : Bool := u.xid = xid && u.unit = unit && u.answer.isNone
  match d.rdc.clusters.find? fun c => c.asked.any p with
  | none => d
  | some c =>
    match c.asked.find? p with
    | none => d
    | some v => answerUnits c.id (fun u => if u = v then { u with answer := some (bytes, poison != 0) } else u) d

/-- The pair leaves Topcoat: step 5 no longer applies, and every unit still asked is given up (R24). -/
def peerGone (d : Device) : Device :=
  let ids := (d.rdc.clusters.filter fun c => c.asked.any fun u => u.answer.isNone).map (·.id)
  ids.foldl (fun d id => answerUnits id (fun u => if u.answer.isNone then { u with answer := some ([], true) } else u) d) d

/-! ### Refresh (R24, R130) -/

/-- The 4,112 plaintext bytes of a sector as it stands: user bytes and link. -/
def sectorPlain (d : Device) (x : SectorState) : List Byte :=
  match x with
  | .fromPeer _ p => padTo 4096 0 p ++ List.replicate 16 0
  | _ =>
    match blockOf x with
    | none => List.replicate 4112 0
    | some b =>
      match parseHeader (b.take 32) with
      | none => List.replicate 4112 0
      | some h =>
        match (d.slot h.owner).key with
        | none => List.replicate 4112 0
        | some k => Config.gcmDecrypt k (sectorIv h.psa h.pass (cartSerial d)) (slice 32 4112 b)

/-- The rewrite of a refreshed cluster at a spare: same owner, pass, order and bytes. A sector that came from the peer takes its record
starts and its link from the index. -/
def refreshCluster (x : Refresh) (h : SectorHeader) (dst : Loc) (d : Device) : WriteCluster :=
  let at_ (i : Nat) : SectorState := sget (fun _ => .unread) x.sectors i
  let own (o : Nat) : Bool := !isFromPeer (at_ (o / 4096))
  let plains := (List.range 16).map fun i => padTo 4112 0 (sectorPlain d (at_ i))
  let begins := (List.range 16).filterMap fun i =>
    match (blockOf (at_ i)).bind fun b => parseHeader (b.take 32) with
    | some h => if h.recOff < 4096 then some (4096 * i + h.recOff) else none
    | none => none
  let links := (List.range 16).filterMap fun i =>
    let l := slice 4096 16 (plains.getD i [])
    if l.all (· == 0) then none else some (4096 * i + 4095, (BitVec.ofNat 128 (beNat l) : BitVec 128))
  { clusterAgain d h x.loc dst (plains.flatMap (·.take 4096))
      (begins.filter own ++ (indexBegins d x.loc).filter (fun o => !own o))
      (links.filter (fun e => own e.1) ++ (indexEnds d x.loc).filter (fun e => !own e.1)) with
    relocated := some x.loc, refresh := some x.loc }

/-- CLUSTER_REFRESH: the cluster is rewritten at a spare, when one is left and its key is at hand (R24, R130, R154). Where all its sectors
came from the peer, the index tells what its headers hold. -/
def refreshNow (x : Refresh) (d : Device) : Device :=
  let d := updRdc (fun r => { r with refreshQueue := r.refreshQueue.filter fun y => y.id != x.id }) d
  let read := (List.range 16).findSome? fun i => (blockOf (sget (fun _ => .unread) x.sectors i)).bind fun b => parseHeader (b.take 32)
  match read <|> indexHeader d x.loc, spareFor d x.loc with
  | some h, some dst =>
    if (d.slot h.owner).key.isNone || (d.slot h.owner).keygen != h.keygen then d
    else takeId (queueCluster (refreshCluster x h dst d) (useSpare dst h.pass (if read.isNone then drawn d else d)))
  | _, _ => d

/-- CLUSTER_REFRESH (R130): not in Primer (Table 15-3), nor during a seal (R162). -/
def execClusterRefresh (cluster : Nat) (s : State) : Host.Outcome State Fault Refusal :=
  effect s fun d =>
    match d.rdc.refreshQueue.find? fun x => x.id = cluster with
    | none => d
    | some x => onlyIf (d.gen.mode != .primer && d.pwr.sealStep = 0) (refreshNow x) d

end Sys2Proof.Machine
end

