-- ==== Sys2Proof/Machine/Boot.lean ====
section
/-!
DEFINITION. The boot area (R187 to R190): staging an image, the activation record with its two copies, and their crossing to the peer
(R282, R330).
-/

namespace Sys2Proof.Machine

/-- The activation record in force: the readable copy with the higher GENERATION (R189). -/
def activationNow (d : Device) : Activation :=
  match d.rcl.actA, d.rcl.actB with
  | some a, some b => if a.generation < b.generation then b else a
  | some a, none => a
  | none, some b => b
  | none, none => {}

/-- Boot slot `k` of the record in force. -/
def bootSlot (d : Device) (k : Nat) : BootSlot := sget (fun _ => {}) (activationNow d).slots k

/-- The copy that a change writes first holds the older generation, or does not read (R189): true for B. -/
def olderIsB (d : Device) : Bool :=
  match d.rcl.actA, d.rcl.actB with
  | none, _ => false
  | some _, none => true
  | some a, some b => b.generation < a.generation

/-- Queue one copy of the activation record; its pass is above every pass of the system area. -/
def queueActivation (id : Nat) (copyB : Bool) (r : Activation) (groups : List Nat) (d : Device) : Device :=
  let n := (d.ring 0).ctr
  let c := mkCluster id 0 0 (.activation copyB) (activationLoc copyB) (n + 1) n (activationBytes r)
  queueCluster { c with groups := groups } (updRing 0 (fun r => { r with ctr := r.ctr + 1 }) d)

/-- An activation record is written, to the older copy first (R189). -/
def startActivation (w : ActWrite) (d : Device) : Device :=
  let copyB := olderIsB d
  queueActivation w.firstId copyB w.record w.group.toList (updRcl (fun r => { r with actPending := some { w with copyB := copyB } }) d)

/-- The record being written is done with, and the next one that waits is written. -/
def nextActivation (d : Device) : Device :=
  let d' := updRcl (fun r => { r with actPending := none, actQueue := r.actQueue.drop 1 }) d
  match d.rcl.actQueue with
  | [] => d'
  | w :: _ => startActivation w d'

/-- An activation record is to be written, after those being written before it (R189). -/
def writeActivation (r : Activation) (group : Option Nat) (d : Device) : Device :=
  let a := d.wrc.nextId
  let w : ActWrite := { record := r, copyB := false, firstId := a, secondId := a + 1, group := group }
  let d := group.toList.foldl (fun d g => updGroup g (fun g => { g with left := g.left ++ [a, a + 1] }) d) (takeId (takeId d))
  if d.rcl.actPending.isSome then updRcl (fun r => { r with actQueue := r.actQueue ++ [w] }) d else startActivation w d

/-- An activation record changes for command `tag`: in Topcoat it crosses to the peer as boot catch-up does (R282, R330). -/
def changeActivation (tag : Nat) (r : Activation) (d : Device) : Device :=
  let (g, d) := addGroup activationStream 0 0 [] (activationBytes r) (.leader tag) d
  pumpMirror 16 (writeActivation r (some g) d)

/-- Copy `copyB` of the activation record has passed RAW: the first takes effect (R189, source 206), the second ends the change. -/
def activationWritten (id : Nat) (copyB : Bool) (d : Device) : Device :=
  match d.rcl.actPending with
  | none => d
  | some w =>
    let before := activationNow d
    let d := updRcl (fun r => if copyB then { r with actB := some w.record } else { r with actA := some w.record }) d
    let d := (w.group.toList).foldl (fun d g => groupPassed id g d) d
    if id = w.firstId then
      let d := if before.active = w.record.active then d
        else raise 206 (updRcl (fun r => { r with digestOk := none }) d)
      queueActivation w.secondId (!w.copyB) w.record w.group.toList d
    else nextActivation d

/-! ### Staging (R188) -/

/-- Bytes of the image staged so far in slot `k`. -/
def stagedLength (d : Device) (k : Nat) : Nat :=
  match d.rcl.staging with
  | some (s, n) => if s = k then n else 0
  | none => 0

/-- A BOOT_STAGE's fields are in range (R188, R323). -/
def stageFieldsOk (d : Device) (e : List Byte) : Bool :=
  let k := eSel e
  k < 32 && (activationNow d).active != k && eOffset e = stagedLength d k && eOffset e + eDlen e ≤ 268435456
    && (eByte25 e = 1 || eDlen e % 65536 = 0)

/-- One part of at most 1 MiB of an image: its clusters, in a group of its own. -/
def stagePart (slot base tag : Nat) (role : GroupRole) (bs : List Byte) (d : Device) : Device :=
  let (g, d) := addGroup bootStream 0 tag [] bs role d
  let pass := sget (fun _ => 0) d.rcl.bootPass slot
  (List.range ((bs.length + 65535) / 65536)).foldl (fun d i =>
    let id := d.wrc.nextId
    let c := mkCluster id 0 0 (.bootImage slot) (areaLoc (base + i)) pass (base + i) (slice (65536 * i) 65536 bs)
    let d := updGroup g (fun x => { x with left := x.left ++ [id] }) d
    queueCluster { c with groups := [g] } (takeId d)) d

/-- BOOT_STAGE with its payload: whole clusters from the offset onward; a new staging abandons the earlier one, and the one flagged as
last fixes the image's length and digest (R188). -/
def stageImage (tag slot off : Nat) (last : Bool) (bs : List Byte) (d : Device) : Device :=
  let d := if off = 0 then
      updRcl (fun r => { r with staged := [], stageLast := none, bootPass := supd (fun _ => 0) slot (· + 1) r.bootPass }) d else d
  let d := updRcl (fun r => { r with staging := some (slot, off + bs.length), staged := r.staged ++ bs }) d
  let x : BootSlot := { st := 1, length := d.rcl.staged.length, stageGen := 0, digest := Config.sha256 d.rcl.staged }
  let d := if last then updRcl (fun r => { r with stageLast := some (tag, x) }) d else d
  let d := (List.range ((bs.length + 1048575) / 1048576)).foldl (fun d i =>
    stagePart slot (4096 * slot + off / 65536 + 16 * i) tag (.leader tag) (slice (1048576 * i) 1048576 bs) d) d
  pumpMirror 16 (startCmd tag (setPhase tag .running d))

/-- The record with a slot STAGED as the staging left it (R188). -/
def stagedRecord (d : Device) (slot : Nat) (x : BootSlot) : Activation :=
  let a := activationNow d
  { a with generation := a.generation + 1, slots := sset (fun _ => {}) slot { x with stageGen := a.generation + 1 } a.slots }

/-- The slot as command `tag`, flagged as last, leaves it, unless its staging has been abandoned (R188). -/
def stagedBy (d : Device) (tag : Nat) : Option BootSlot := (d.rcl.stageLast.filter fun x => x.1 = tag).map (·.2)

/-- The record with a slot ACTIVE; the slot active before becomes STAGED (R189; log entry 21). -/
def activeRecord (d : Device) (slot : Nat) : Activation :=
  let a := activationNow d
  let down (m : Sparse BootSlot) : Sparse BootSlot :=
    if a.active < 32 then supd (fun _ => {}) a.active (fun s => { s with st := 1 }) m else m
  { a with generation := a.generation + 1, active := slot, previous := a.active,
           slots := supd (fun _ => {}) slot (fun s => { s with st := 2 }) (down a.slots) }

/-- Boot groups of command `tag`. -/
def bootGroups (d : Device) (tag : Nat) : List Group :=
  d.rcl.groups.filter fun g => bootStream ≤ g.stream && leaderTag g = some tag && g.st != .committed

/-- Boot groups leave the model's list once they count as written. -/
def dropBoot (tag : Nat) : Device → Device :=
  updRcl fun r => { r with groups := r.groups.filter fun g => !(bootStream ≤ g.stream && leaderTag g = some tag) }

/-- Every boot group of command `tag` is on the media that the mode asks for: the last part of an image makes its slot STAGED, and
anything else completes the command; the last part of a staging abandoned meanwhile is refused as one at another offset would be (R22,
R188, R189, R324, R330; log entry 90). -/
def bootStep (tag : Nat) (d : Device) : Device :=
  match d.cmd tag with
  | none => dropBoot tag d
  | some c =>
    let gs := bootGroups d tag
    let single := gs.any fun g => !g.peerDone
    let act := gs.any fun g => g.stream = activationStream
    let d := dropBoot tag d
    if eOpcode c.entry = 0x10 && eByte25 c.entry = 1 && !act then
      match stagedBy d tag with
      | some x => changeActivation tag (stagedRecord d (eSel c.entry) x) d
      | none => finish tag stInvalidField d
    else if eOpcode c.entry = 0x10 then
      let n := eOffset c.entry + eDlen c.entry
      let d := if act && (stagedBy d tag).isSome then updRcl (fun r => { r with staging := none, staged := [], stageLast := none }) d else d
      finishWith tag stOk n single 0 d
    else finishWith tag stOk (activationNow d).generation single 0 d

/-- A boot group holds its command back no longer. -/
def bootReady (d : Device) (g : Group) : Bool := g.st = .verified && (g.peerDone || !inTopcoat d)

/-- Command `tag` is a BOOT_STAGE whose image is written and whose activation record is to follow (R188). -/
def stagesNow (d : Device) (tag : Nat) (gs : List Group) : Bool :=
  (d.cmd tag).any fun c => eOpcode c.entry = 0x10 && eByte25 c.entry = 1 && gs.all fun g => g.stream != activationStream

/-- Go on with every boot command whose groups are ready. -/
def settleBoot (d : Device) : Device :=
  let tags := (d.rcl.groups.filter fun g => bootStream ≤ g.stream).filterMap leaderTag
  (tags.foldl (fun l t => if l.contains t then l else l ++ [t]) []).foldl (fun d t =>
    let gs := bootGroups d t
    if !gs.isEmpty && gs.all (bootReady d) && !(stagesNow d t gs && d.rcl.actPending.isSome) then bootStep t d else d) d

/-! ### What crosses from the peer (R282) -/

/-- An activation record read from its bytes (Table 07-7). -/
def parseActivation (b : List Byte) : Activation :=
  { generation := leAt b 0 8, active := leAt b 8 1, previous := leAt b 9 1
    slots := (List.range 32).foldl (fun m k =>
      let o := 64 + 64 * k
      let s : BootSlot := { st := leAt b o 4, length := leAt b (o + 4) 4, stageGen := leAt b (o + 8) 8,
                            digest := BitVec.ofNat 256 (beNat (slice (o + 16) 32 b)) }
      sset (fun _ => {}) k s m) [] }

/-- A boot exchange of the peer has arrived whole: 2,112 bytes are its activation record, anything else is a part of an image, whose
place the manual does not let its mark tell (R282; log entry 17). -/
def takeBoot (xid : Nat) (bs : List Byte) (d : Device) : Device :=
  if bs.length = 2112 then
    let (g, d) := addGroup activationStream 0 0 [] bs (.caughtUp xid) d
    writeActivation (parseActivation bs) (some g) d
  else
    let n := (freeDraw d).toNat % 131056
    let slot := n / 4096
    let d := updRcl (fun r => { r with bootPass := supd (fun _ => 0) slot (· + 1) r.bootPass }) (drawn d)
    stagePart slot n 0 (.caughtUp xid) bs d

end Sys2Proof.Machine
end

