-- ==== Sys2Proof/Machine/Scan.lean ====
section
/-!
DEFINITION. What the FX880 makes of a medium that it reads: the last group written at a pass (R193), the record groups that a run of
clusters holds (R180 to R182), the stream table of a checkpoint (R174), and the newest directory checkpoint (R175).
-/

namespace Sys2Proof.Machine

/-! ### The search by halving (R193) -/

/-- The last group that is behind, from `lo` on and below `hi`, by at most `n` halvings. -/
def halve (behind : Nat → Bool) : Nat → Nat → Nat → Nat
  | 0, lo, _ => lo
  | n + 1, lo, hi =>
    if hi - lo ≤ 1 then lo
    else if behind ((lo + hi) / 2) then halve behind n ((lo + hi) / 2) hi
    else halve behind n lo ((lo + hi) / 2)

/-- Pass of the header that reads in a frame, if one does. -/
def headerPass (hs : List (Nat × Nat)) (psa : Nat) : Option Nat := (hs.find? fun p => p.1 = psa).map (·.2)

/-- The group at position `first` with depth `n` is behind pass `p`: its first header that reads holds a pass of `p` or above. -/
def groupBehind (hs : List (Nat × Nat)) (layer zone first n p : Nat) : Bool :=
  match (List.range (18 * n)).findSome? fun f => headerPass hs (mkPsa layer zone (18 * first + f)) with
  | some q => p ≤ q
  | none => false

/-- The interleave groups of a zone from position `first` on, as first position and depth; `n` of them at most. -/
def interleaveFrom (layer zone : Nat) : Nat → Nat → List (Nat × Nat)
  | 0, _ => []
  | n + 1, first =>
    if clusterPositions ≤ first then []
    else (first, interleaveDepth layer zone first) :: interleaveFrom layer zone n (first + interleaveDepth layer zone first)

/-- The groups that a ring writes in a zone: beyond the OPC test positions (Table 07-1). Their first one is the search's group 0 (log entry
91). -/
def ringGroups (layer zone : Nat) : List (Nat × Nat) :=
  interleaveFrom layer zone clusterPositions (groupOf ⟨layer, zone, zoneStart zone⟩).2.1

/-- Group `g` of a list of groups. -/
def nthGroup (gs : List (Nat × Nat)) (g : Nat) : Nat × Nat := gs.getD g (clusterPositions, 1)

/-- The last group of a zone that was written at pass `p`. -/
def lastGroupAt (hs : List (Nat × Nat)) (layer zone p : Nat) : Nat :=
  let gs := ringGroups layer zone
  halve (fun m => groupBehind hs layer zone (nthGroup gs m).1 (nthGroup gs m).2 p) 16 0 gs.length

/-- Where a ring's log ends: the place of its zone in the ring, the pass, and the last group (R193). -/
def findEnd (d : Device) (r : Ring) (hs : List (Nat × Nat)) : Option (Nat × Nat × Nat) :=
  let first (i p : Nat) : Bool :=
    let z := ringZone r i
    let g := nthGroup (ringGroups z.layer z.zone) 0
    groupBehind hs z.layer z.zone g.1 g.2 p
  let at_ (i p : Nat) : Nat × Nat × Nat := (i, p, lastGroupAt hs (ringZone r i).layer (ringZone r i).zone p)
  match r.next.filter fun i => first i (zoneTop d (ringZone r i) + 1) with
  | some i => some (at_ i (zoneTop d (ringZone r i) + 1))
  | none => r.cur.map fun i => at_ i (ringZone r i).pass

/-! ### The records of a run of clusters (R180 to R182) -/

/-- A record as it was read: its bytes, and its runs: start in the record, offset in the cluster, length, place. -/
structure Found where
  bytes : List Byte
  runs : List (Nat × Nat × Nat × Loc)
  deriving DecidableEq, Repr

/-- A record that goes on in the next cluster: the bytes still to come, and what there is. -/
structure Carry where
  need : Nat
  got : Found
  deriving DecidableEq, Repr

/-- The records in `bs`, which lie at offset `off` of the cluster at `l`, after the part of a record that was carried over; `n` steps at
most. They end at a pad record or at zeros. -/
def takeRecords (l : Loc) : Nat → Nat → List Byte → Option Carry → List Found × Option Carry
  | 0, _, _, c => ([], c)
  | n + 1, off, bs, some c =>
    let k := min c.need bs.length
    let f : Found := { bytes := c.got.bytes ++ bs.take k, runs := c.got.runs ++ (if k = 0 then [] else [(c.got.bytes.length, off, k, l)]) }
    if k < c.need then ([], some { need := c.need - k, got := f })
    else
      let next := align8 (off + k)
      let (fs, c') := takeRecords l n next (bs.drop (next - off)) none
      (f :: fs, c')
  | n + 1, off, bs, none =>
    if bs.length < 8 || leAt bs 0 2 != 0x5655 || 0x80 ≤ leAt bs 2 1 || leAt bs 4 4 < 32 then ([], none)
    else takeRecords l n off bs (some { need := leAt bs 4 4, got := { bytes := [], runs := [] } })

/-- Entries of a cluster map: stream, first sequence, offset in the cluster (R182). -/
def mapEntries (user : List Byte) : List (Nat × Nat × Nat) :=
  (List.range ((leAt user 4 4 - 32) / 16)).map fun i =>
    let e := slice (32 + 16 * i) 16 user
    (leAt e 0 2 % 512, leAt e 2 6, leAt e 8 4)

/-- The lowest offset at which a group begins in a cluster. -/
def firstEntry (user : List Byte) : Option Nat :=
  (mapEntries user).foldl (fun b e => match b with | none => some e.2.2 | some x => some (min x e.2.2)) none

/-- The records of one cluster: after its map where a record was carried over, else from the first group that begins in it. -/
def clusterRecords (l : Loc) (user : List Byte) (c : Option Carry) : List Found × Option Carry :=
  match c, firstEntry user with
  | some c, _ => takeRecords l 2200 (leAt user 4 4) (user.drop (leAt user 4 4)) (some c)
  | none, some o => takeRecords l 2200 o (user.drop o) none
  | none, none => ([], none)

/-- A record group as it was read: stream, first sequence, its records' places in its bytes, its bytes, its runs, and whether all of it was
read (R181). -/
structure FoundGroup where
  stream : Nat
  first : Nat
  recs : List RecInfo
  bytes : List Byte
  pieces : List Piece
  whole : Bool
  deriving DecidableEq, Repr

/-- A record joins the groups read so far: GROUP_FIRST begins one, and GROUP_LAST makes it whole. -/
def addFound (gs : List FoundGroup) (f : Found) : List FoundGroup :=
  let flags := leAt f.bytes 3 1
  let seq := leAt f.bytes 10 6
  let piece (base : Nat) (x : Nat × Nat × Nat × Loc) : Piece :=
    { start := base + x.1, off := x.2.1, len := x.2.2.1, cluster := 0, loc := some x.2.2.2 }
  let grown (g : FoundGroup) : FoundGroup :=
    { g with
      recs := g.recs ++ [{ seq := seq, off := g.bytes.length, len := f.bytes.length }], bytes := g.bytes ++ f.bytes
      pieces := g.pieces ++ f.runs.map (piece g.bytes.length), whole := flags.testBit 1 }
  if flags.testBit 0 then
    gs ++ [grown { stream := leAt f.bytes 8 2 % 512, first := seq, recs := [], bytes := [], pieces := [], whole := false }]
  else
    match gs.getLast? with
    | some g => if g.whole then gs else gs.dropLast ++ [grown g]
    | none => gs

/-- The record groups of a run of clusters, in ring order: place and user bytes, none for one that does not read; and the part of a record
that goes on after them. A group broken off by such a cluster stays short of its last record. -/
def groupsIn : List (Loc × Option (List Byte)) → List FoundGroup → Option Carry → List FoundGroup × Option Carry
  | [], gs, c => (gs, c)
  | (_, none) :: cs, gs, _ => groupsIn cs gs none
  | (l, some user) :: cs, gs, c =>
    let (fs, c') := clusterRecords l user c
    groupsIn cs (fs.foldl addFound gs) c'

/-- A group that was read enters the index, with the chain value that its link gives; one that no link gives is drawn (log entry 86). -/
def indexGroup (o : Nat) (g : FoundGroup) (st : GroupState) (link : Option (BitVec 128)) (d : Device) : Nat × Device :=
  let h := link.getD (freeWide d)
  let (id, d) := addGroup g.stream o g.first g.recs g.bytes .recovered (if link.isNone then drawnWide d else d)
  (id, updGroup id (fun x => { x with
    pieces := g.pieces, st := st, chain := if st = .committed then h else x.chain }) d)

/-! ### Checkpoints (R174, R175) -/

/-- The stream records that a ring or seal checkpoint holds. -/
def tableIn (user : List Byte) : List (Nat × StreamRec) :=
  (List.range 512).map fun s => (s, parseStream (slice (128 * s) 128 user))

/-- Put a cluster into a list that is in ring order. -/
def insertCtr (c : ScannedCluster) : List ScannedCluster → List ScannedCluster
  | [] => [c]
  | x :: l => if c.ctr < x.ctr then c :: x :: l else x :: insertCtr c l

/-- The cluster belongs to the ring as it was last written: in the zone where the log ends at its pass and not beyond position `e`, or in
another zone of the ring at that zone's pass. -/
def inRing (r : Ring) (i p e : Nat) (c : ScannedCluster) : Bool :=
  (List.range r.zones.length).any fun k =>
    let z := ringZone r k
    z.layer = c.layer && z.zone = c.zone && (if k = i then c.pass = p && c.pos < e else c.pass = z.pass && z.entered != 0)

/-- The last 64 clusters of a ring, ending in its last group, in ring order (R193). -/
def lastClusters (r : Ring) (i p e : Nat) (cs : List ScannedCluster) : List ScannedCluster :=
  let l := (cs.filter (inRing r i p e)).foldl (fun l c => insertCtr c l) []
  l.drop (l.length - 64)

/-- The clusters of a scan as a run of record clusters: checkpoints stand aside, and one missing in the order or not verified breaks it. -/
def recordRun (d : Device) : Option Nat → List ScannedCluster → List (Loc × Option (List Byte))
  | _, [] => []
  | before, c :: cs =>
    let l : Loc := placeNow d ⟨c.layer, c.zone, c.pos⟩
    let gap : List (Loc × Option (List Byte)) := if before.any (fun b => b + 1 != c.ctr) then [(l, none)] else []
    let here : List (Loc × Option (List Byte)) :=
      if c.type != 0 then [] else [(l, if c.verified then some c.user else none)]
    gap ++ here ++ recordRun d (some c.ctr) cs

/-- The checkpoint that recovery loads: the newest ring or seal checkpoint among those read that verified (R193). -/
def newestCheckpoint (cs : List ScannedCluster) : Option ScannedCluster :=
  (cs.filter fun c => (c.type = 1 || c.type = 2) && c.verified).getLast?

/-- Groups of the system area, over its three zones, as layer, zone, first position and depth (Table 07-1). -/
def systemGroups : List (Nat × Nat × Nat) :=
  [11, 12, 13].flatMap fun z =>
    ((interleaveFrom 0 z clusterPositions 0).filter fun g =>
      let a := z * dataPositions + g.1
      g.1 < dataPositions && systemFirst < a + g.2 && a < systemFirst + systemClusters).map fun g => (z, g.1, g.2)

/-- The newest directory checkpoint: by the search over the system area, whose first position after the activation
record shows the pass, then the one with the highest
RING_CTR that verifies, in the last group found or before it (R193). -/
def newestDir (s : SystemScan) : Option ScannedDir :=
  let gs := systemGroups
  let at_ (g : Nat) : Nat × Nat × Nat := gs.getD g (0, 0, 0)
  let p := ((List.range 16).findSome? fun i => headerPass s.headers (psaOf (areaLoc (systemFirst + 1)) i)).getD 0
  let g := at_ (halve (fun m => groupBehind s.headers 0 (at_ m).1 (at_ m).2.1 (at_ m).2.2 p) 16 0 gs.length)
  let e := g.1 * dataPositions + g.2.1 + g.2.2
  (s.dirs.filter fun x => x.verified && (x.pass < p || x.place < e)).foldl (fun b x =>
    match b with
    | none => some x
    | some y => if y.ctr < x.ctr then some x else some y) none

end Sys2Proof.Machine
end

