-- ==== Sys2Proof/Machine/Modes.lean ====
section
/-!
DEFINITION. The four modes and the moves between them (R276, R335, R403, R458, R460): what leaving Topcoat settles, how Dust Sheet,
Undercoat and Primer are entered, the safety fault log (R420), the conditions of the field outputs (Table 15-4), and what a cartridge's
system area brings when it is loaded.
-/

namespace Sys2Proof.Machine

/-- Change start-up, modes and cartridge. -/
def updGen (f : Startup → Startup) (d : Device) : Device := { d with gen := f d.gen }

/-- Change lockstep supervision. -/
def updLsk (f : Lockstep → Lockstep) (d : Device) : Device := { d with lsk := f d.lsk }

/-- Change the supply. -/
def updPwr (f : Supply → Supply) (d : Device) : Device := { d with pwr := f d.pwr }

/-- Change the host interface. -/
def updHif (f : HostIf → HostIf) (d : Device) : Device := { d with hif := f d.hif }

/-- Change the field I/O. -/
def updFio (f : Field → Field) (d : Device) : Device := { d with fio := f d.fio }

/-! ### Safety fault log and output conditions (R406, R420) -/

/-- Enter a fault in the safety fault log, newest first (R339, R420); the management pair copies it to the event log ring (Table 16-5). -/
def logSafety (cls : Nat) (outputs : BitVec 4) (action : Nat) (detail : Word32) : Device → Device := fun d =>
  let e : SafetyEntry := { tick := d.now, cls := cls, outputs := outputs, action := action, detail := detail }
  let d := logLater d.now 2 0 (cls + 256 * outputs.toNat) (leBytes 4 action ++ leBytes 4 detail.toNat) d
  updLsk (fun l => { l with log := (e :: l.log).take 64, lost := if l.log.length < 64 then l.lost else l.lost + 1 }) d

/-- LASER_ILK has been high for 100 ms (R145). -/
def ilkReady (d : Device) : Bool := d.wrc.ilk && !d.wrc.ilkBlocked

/-- The condition of Table 15-4 for output `i`, latches apart. -/
def outCondition (d : Device) (i : Nat) : Bool :=
  match i with
  | 0 => d.gen.selfTestOk && d.gen.mode != .primer && !d.pacing.fault && d.fio.ext = 0 && d.fio.cross = 0
  | 1 => d.gen.mode != .dustSheet && (d.pwr.st = .armed || d.pwr.st = .rideThrough) && (d.gen.cart.elim false (·.k6)) && ilkReady d
      && !d.pacing.fault
  | 2 => d.pwr.st = .sealed || d.pwr.st = .reArming
  | 3 => wbit (d.reg 0x12000) 0
  | _ => false

/-- LOCAL_MASK of the wired group in force, 0 without one (R415). -/
def groupLocal (d : Device) : Nat := if wbit d.fio.groupNow 31 then fld d.fio.groupNow 3 0 else 0

/-- PEER_MASK of the wired group in force (R415). -/
def groupPeer (d : Device) : Nat := if wbit d.fio.groupNow 31 then fld d.fio.groupNow 11 8 else 0

/-- The group is synchronised (R416): the Lath is live, PULSE_SYNC has crossed in each of the last two periods, and the masks agree. The
sender is told of no masks, and takes them as agreeing (log entry 34). -/
def synchronised (d : Device) : Bool :=
  d.lath.live && d.fio.syncLast = [true, true]
    && (twinId d = 0 || (groupPeer d = d.fio.peerLocal && groupLocal d = d.fio.peerPeer))

/-- This twin drives a group with peer members that is not synchronised (R417). -/
def drivesAlone (d : Device) : Bool := twinId d = 0 || !d.lath.peerHealthy

/-- Output `i` is held off, unlatched, for a group that the other twin drives (R417). -/
def heldForGroup (d : Device) (i : Nat) : Bool :=
  (groupLocal d).testBit i && groupPeer d != 0 && !synchronised d && !drivesAlone d

/-- Output `i` is energised but for its test pulse: its condition holds, no fault latches it off, the field supply stands, and no
group holds it (R406, R417, R490). -/
def energised (d : Device) (i : Nat) : Bool :=
  outCondition d i && !d.fio.ext.getLsbD i && !d.fio.cross.getLsbD i && !d.fio.shutdown.getLsbD i && !d.fio.low && !d.fio.restorePending
    && !heldForGroup d i

/-- A paired FX880 (R407). -/
def isPaired (d : Device) : Bool := !isSolo d

/-! ### Messages that tell the peer -/

/-- MODE_NOTE with this twin's mode and whether it seals (R458, Table 10-3). -/
def tellMode (d : Device) : Device := sendMsg (.modeNote d.gen.mode (1 ≤ d.pwr.sealStep)) d

/-- The attach block of this twin (R268). -/
def myBlock (d : Device) : AttachBlock :=
  { twinId := twinId d, mode := d.gen.mode, paired := isPaired d, serial := Config.deviceSerial,
    fingerprint := (d.cry.pairKey.map fingerprintOf).getD 0, cartSerial := cartSerial d }

/-- HELLO: attach begins anew (R278). -/
def sendHello (d : Device) : Device :=
  if d.lath.live && d.gen.mode != .primer then
    sendMsg (.hello (myBlock d)) (updLath (fun l => { l with link := .attaching, ackSent := false, ackSeen := false }) d)
  else d

/-! ### Leaving Topcoat (R276, R293) -/

/-- A group that the peer leads and this medium has not verified. -/
def unverifiedCopy (g : Group) : Bool :=
  g.st = .open && (match g.role with | .follower _ => true | .caughtUp _ => true | _ => false)

/-- The pair has left Topcoat: what this medium has verified commits, open copies of the peer's groups are void, a group of this twin's
own goes on alone (R23, R276; log entry 22), and coherence, mirroring and owner operations with the peer end (R217, R250, R515). -/
def leaveTopcoat (d : Device) : Device :=
  let d := updLath (fun l => { l with
    splitTick := d.now, openXids := [], exchanges := [], admissionHold := false, sentTopcoat := false, seenTopcoat := false,
    link := if l.link = .detached then .detached else if l.live then .attaching else .down }) d
  let d := (d.rcl.groups.filter unverifiedCopy).foldl (fun d g => voidGroup g.id d) d
  let d := settleGroups (abandonCoherence d)
  raise 133 (peerGone (settleBoot (ownersLeaveTopcoat d)))

/-- The mode becomes `m`: source 18, MODE_NOTE, and what entering or leaving Topcoat brings (R458). The MODE_NOTE of Topcoat has gone
before (R284). Primer is left by a power-on reset alone (R405). -/
def setMode (m : Mode) (d : Device) : Device :=
  let was := d.gen.mode
  if was = m || was = .primer then d
  else
    let d := raise 18 (updGen (fun g => { g with mode := m }) d)
    let d := if m = .topcoat then d else tellMode d
    let d := if was = .topcoat then leaveTopcoat d else d
    if m = .topcoat then
      raise 132 (updGen (fun g => { g with
        milestones := if g.milestones.getD 2 0 = 0 then setAt 2 (min 0xFFFFFFFF d.now) g.milestones else g.milestones }) d)
    else d

/-- Topcoat ends but this twin goes on alone (Table 17-4, Topcoat row). -/
def toUndercoat (d : Device) : Device := if d.gen.mode = .topcoat then setMode .undercoat d else d

/-! ### Dust Sheet (R335, R458, R460) -/

/-- A command that Table 12-4 refuses in Dust Sheet. -/
def refusedInDust (c : Cmd) : Bool :=
  [0x01, 0x02, 0x03, 0x04, 0x05, 0x10, 0x11, 0x12, 0x30, 0x31].contains (eOpcode c.entry)

/-- Waiting commands that Dust Sheet refuses complete with ABORTED_MODE (R335). -/
def abortWaiting (d : Device) : Device := finishAll (fun c => isWaiting c && c.phase != .dead && refusedInDust c) stAbortedMode d

/-- The drive stands parked, spindle stopped, laser off (R460). -/
def standParked (d : Device) : Device := updGen (fun g => { g with parked := true }) (parkStep d)

/-- In Primer and Dust Sheet there are no power states: PS reads 0 (R341); a change raises source 15 (R342). -/
def noPower (d : Device) : Device :=
  let was := d.hif.ps
  let d := updHif (fun h => { h with ps := 0, transition := false }) (leaveRetention d)
  if was = 0 then d else raise 15 d

/-- Dust Sheet is entered now with a cause, and the request that waited completes (R335, R337, Table 12-3). -/
def enterDust (cause : Nat) (d : Device) : Device :=
  let tag := d.gen.enterTag.bind (·.1)
  let d := abortWaiting (setMode .dustSheet d)
  let d := standParked (updGen (fun g => { g with dustCause := cause, enterTag := none }) d)
  let d := noPower d
  match tag with
  | some t => finishOk t (modeCode .dustSheet) d
  | none => d

/-- A command that still runs and that the entry to Dust Sheet waits for (R335). -/
def holdsDust (d : Device) : Bool :=
  let own := d.gen.enterTag.bind (·.1)
  d.hif.cmds.any fun c => c.started && c.phase != .done && c.phase != .dead && some c.tag != own

/-- The entry to Dust Sheet takes place once every started command has completed (R335). -/
def pumpDust (d : Device) : Device :=
  match d.gen.enterTag with
  | some (_, cause) => if holdsDust d then d else enterDust cause d
  | none => d

/-- Dust Sheet is asked for: waiting commands end, started ones run to completion first (R335). -/
def beginDust (tag : Option Nat) (cause : Nat) (d : Device) : Device :=
  pumpDust (abortWaiting (updGen (fun g => { g with enterTag := some (tag, cause) }) d))

/-! ### Slots found RETIRING (R208, R218) -/

/-- A slot ACTIVE in the key store that the directory does not list as created at its generation is RETIRING (R208, R218). -/
def unlisted (d : Device) (n : Nat) : Bool :=
  let x := sget (fun _ => ({} : DirSlot)) d.rcl.directory n
  (d.slot n).st = .active && !(x.active && x.keygen = some (d.slot n).keygen)

/-- Every slot found RETIRING goes through steps 3 to 6 of R216 (R208, R218). -/
def finishRetiring (d : Device) : Device :=
  (List.range 16).foldl (fun d n =>
    if (d.slot n).st = .retiring && !(d.slot n).busy then startOp (.retireDrain n) none d else d) d

/-! ### Undercoat (R458, R459) -/

/-- Undercoat is entered from Dust Sheet: the request completes, and the peer hears HELLO (R278, R287, R459). -/
def enterUndercoat (d : Device) : Device :=
  let tag := d.gen.leaveTag
  let d := setMode .undercoat (updGen (fun g => { g with dustCause := 0, leaveTag := none, parked := false }) d)
  let d := finishRetiring (sendHello (updHif (fun h => { h with idleSince := d.now }) d))
  match tag with
  | some t => finishOk t (modeCode .undercoat) d
  | none => d

/-! ### Primer (R335, R403, Table 15-2) -/

/-- An APPEND whose payload lies wholly in assembly buffers of this twin (R335). -/
def placedAppend (c : Cmd) : Bool := eOpcode c.entry = 0x01 && c.group.isSome

/-- Primer is entered: the pair is held, the AVS code pinned, the sequencer restarted at its Primer entry, the session speed 3,600 rpm, running OPC at 0, static OPC
abandoned, balancing and a discharge test dropped, and fetched commands end but for appends already placed (R41, R79, R82, R149, R335,
R393, R403, Table 15-3). -/
def enterPrimer (cause : Nat) (d : Device) : Device :=
  if d.gen.mode = .primer then d
  else
    let d := raise 162 (updLsk (fun l => { l with cause := cause, pair := .held, testDue := false }) d)
    let d := { d with servo := { d.servo with seqRun := true, seqHalted := false, seqPrimer := true, seqKick := d.now, script := none } }
    let d := if d.servo.fast then setSpeed false (setRegF 0x8508 23 0 2894 d) else d
    let d := updWrc (fun w => { w with trims := [], trim := 0, opcRun := none, opcStep := none }) d
    let d := clampAvs (setMode .primer d)
    let d := updCry (fun c => { c with commission := none, checkCode := none, heldPoint := none }) d
    let d := updGen (fun g => { g with enterTag := none, leaveTag := none, ejectTag := none, formatting := false, dustCause := 0 }) d
    let d := updPwr (fun p => { p with bleed := 0, testRunning := false }) (noPower d)
    finishAll (fun c => !placedAppend c && c.phase != .dead) stAbortedMode d

/-! ### Loading a cartridge (R175, R189, R193) -/

/-- A zone as the directory lists it, with the HEADs that its opening checkpoint shows; one at pass 0 has never been entered. -/
def zoneOf (os : List ScannedOpening) (z : Nat × Nat × Nat) (order : Nat) : Zone :=
  let heads := ((os.find? fun o => o.layer = z.1 && o.zone = z.2.1).map (·.heads)).getD []
  { layer := z.1, zone := z.2.1, pass := z.2.2, entered := if z.2.2 = 0 then 0 else order
    openHeads := heads.foldl (fun m p => sset (fun _ => 0) p.1 p.2 m) [] }

/-- A ring as the directory lists it: it waits for its recovery (R193). -/
def loadRing (os : List ScannedOpening) (r : DirRing) (d : Device) : Device :=
  let base := d.rcl.entryOrder
  let n := r.zones.length
  let zs := (List.range n).zip r.zones |>.map fun p => zoneOf os p.2 (base + p.1)
  let ring : Ring := { zones := zs, cur := r.cur, next := r.next, recovery := .waiting }
  updRing r.owner (fun _ => ring) (updRcl (fun x => { x with entryOrder := base + n }) d)

/-- What the system area of a formatted cartridge holds comes into force, by its newest directory checkpoint (R175, R189, R193). -/
def loadMedium (s : SystemScan) (d : Device) : Device :=
  let dir := newestDir s
  let rings := (dir.map (·.rings)).getD []
  let fresh : RecordLayer :=
    { nextGroup := d.rcl.nextGroup, lastChoice := d.rcl.lastChoice
      directory := ((dir.map (·.slots)).getD []).foldl (fun m p => sset (fun _ => {}) p.1 p.2 m) []
      dirRings := rings
      freeZones := s.free.map fun z => { layer := z.1, zone := z.2.1, pass := z.2.2, entered := 0, openHeads := [] }
      defects := s.defects.map fun l => ⟨l.1, l.2.1, l.2.2⟩
      moved := s.moved.map fun m => (⟨m.1.1, m.1.2.1, m.1.2.2⟩, ⟨m.2.1, m.2.2.1, m.2.2.2⟩)
      spares := s.spares.foldl (fun m p => sset (fun _ => 0) p.1 p.2.1 m) []
      tops := s.spares.foldl (fun m p => sset (fun _ => 0) p.1 p.2.2 m) []
      bootPass := s.bootPass.foldl (fun m p => sset (fun _ => 0) p.1 p.2 m) []
      actA := s.actA, actB := s.actB }
  let d := updRcl (fun _ => fresh) d
  let d := rings.foldl (fun d r => loadRing s.openings r d) d
  recallGenerations (updRing 0 (fun r => { r with ctr := s.ctr }) d)

/-- A ring has not been recovered (R193, RECOVERY_STATUS.PENDING). -/
def ringPending (d : Device) (o : Nat) : Bool := (d.rcl.rings.any fun p => p.1 = o) && (d.ring o).recovery != .recovered

/-- Some ring has not been recovered. -/
def anyPending (d : Device) : Bool := (List.range 16).any fun o => 1 ≤ o && ringPending d o

/-- The medium is formatted and admitted: its rings may be written (R211, R461). -/
def mediumReady (d : Device) : Bool := (match d.gen.cart with | some c => c.k6 && c.format = 2 | none => false) && d.cry.tagOk

end Sys2Proof.Machine
end

