-- ==== Sys2Proof/Machine/Format.lean ====
section
/-!
DEFINITION. Seal checkpoints and fill (R191, R192), formatting a blank cartridge (R462, R463), the steps of LEAVE_DUST_SHEET that follow
its acceptance (R459), and preparing a cartridge for ejection (R464).
-/

namespace Sys2Proof.Machine

/-! ### Seal checkpoint and fill (R191, R192) -/

/-- Sectors of a cluster that have been started: written, or past being due. -/
def sectorStarted (c : WriteCluster) (i : Nat) : Bool := (sget (fun _ => {}) c.sectors i).st != .due

/-- A position that its ring does not write in turn: an OPC test position, or a spare that has been used (Table 07-1, R164). -/
def positionTaken (d : Device) (l : Loc) : Bool :=
  l.pos < zoneStart l.zone || (dataPositions ≤ l.pos && l.pos < dataPositions + sparesUsed d l.layer l.zone)

/-- Frame `f` of the group that begins at `first` with depth `n` has been started: its cluster is written, or being written and past that
sector; or the ring does not write its position. -/
def frameStarted (d : Device) (layer zone first n next f : Nat) : Bool :=
  let l : Loc := ⟨layer, zone, first + f % n⟩
  positionTaken d l ||
    (match d.wrc.clusters.find? fun c => c.loc = l with
     | some c => sectorStarted c (f / n)
     | none => decide (l.pos < next))

/-- First frame of a group that was never started (R191, AUX). -/
def neverStarted (d : Device) (layer zone first n next : Nat) : Nat :=
  ((List.range (18 * n)).find? fun f => !frameStarted d layer zone first n next f).getD (18 * n)

/-- Where a seal would interrupt a ring in its zone: the group before its next position, first position and depth, none while nothing of
the zone has been written in this pass; and the first position of the group that follows (R191). -/
def sealGroups (r : Ring) (z : Zone) : Option (Nat × Nat) × Nat :=
  let (_, first, n) := groupOf ⟨z.layer, z.zone, r.pos⟩
  if r.pos = zoneStart z.zone then (none, if first = r.pos then first else first + n)
  else if first = r.pos then
    let b := groupOf ⟨z.layer, z.zone, r.pos - 1⟩
    (some (b.2.1, b.2.2), first)
  else (some (first, n), first + n)

/-- A seal checkpoint fits the group at position `at_` with depth `m`: the group begins among the data positions, and no spare that it
reaches has been used (R164, R191; log entry 89). -/
def sealFits (d : Device) (z : Zone) (at_ m : Nat) : Bool :=
  at_ < dataPositions && (at_ + m ≤ dataPositions || sparesUsed d z.layer z.zone = 0)

/-- The seal checkpoint of ring `o` is queued, in the group that follows the interrupted one; without a group to follow none is written.
Appends go on after both (R191, R192). -/
def queueSeal (o : Nat) (d : Device) : Device :=
  let r := d.ring o
  match r.cur with
  | none => d
  | some i =>
    let z := ringZone r i
    let (before, at_) := sealGroups r z
    let (_, _, m) := groupOf ⟨z.layer, z.zone, at_⟩
    if !sealFits d z at_ m then updRing o (fun r => { r with pos := at_ }) d
    else
      let c := mkCluster d.wrc.nextId 0 o .sealCheckpoint ⟨z.layer, z.zone, at_⟩ z.pass r.ctr (tableBytes d)
      let aux := match before with
        | some b => neverStarted d z.layer z.zone b.1 b.2 r.pos
        | none => 18 * (groupOf ⟨z.layer, z.zone, at_ - 1⟩).2.2
      let d := updRing o (fun r => { r with pos := at_ + m, ctr := r.ctr + 1 }) d
      queueCluster { c with aux := aux } (takeId (useSparesTo z.layer z.zone (at_ + m) d))

/-- Fill for the frames listed of the group at position `first`, at the ring's pass (R192). -/
def queueFill (o : Nat) (z : Zone) (first n : Nat) (frames : List Nat) (d : Device) : Device :=
  let d := if frames.isEmpty then d else useSparesTo z.layer z.zone (first + n) d
  (List.range n).foldl (fun d k =>
    let mine := (frames.filter fun f => f % n = k).map (· / n)
    if mine.isEmpty then d
    else
      let c := mkCluster d.wrc.nextId 0 o .fill ⟨z.layer, z.zone, first + k⟩ z.pass (d.ring o).ctr []
      let done := (List.range 18).foldl (fun m i =>
        if mine.contains i then m else sset (fun _ => ({} : WriteSector)) i { st := .passed } m) []
      queueCluster { c with sectors := done } (takeId d)) d

/-! ### Formatting (R462, R463) -/

/-- Zone `i` of the format order: L0 to L5, each in write order, odd layers from zone 63 inward (R163, R462). -/
def formatZone (i : Nat) : Nat × Nat := (i / 64, if i / 64 % 2 = 0 then i % 64 else 63 - i % 64)

/-- The first zone of the format order whose ZONE_DONE bit is clear (R463). -/
def nextFormatZone (d : Device) : Option Nat :=
  d.gen.cart.bind fun c => (List.range 384).find? fun i => !c.zoneDone.contains i

/-- Change the cartridge's memory as the FX880 writes it (R461). -/
def updCart (f : Cartridge → Cartridge) : Device → Device := updGen fun g => { g with cart := g.cart.map f }

/-- The interleave group at the format's position is queued: fill at pass 0 in every frame, but for spares already taken by a relocation
of this format (R462). -/
def queueFormatGroup (d : Device) : Device :=
  match nextFormatZone d with
  | none => d
  | some i =>
    let (l, z) := formatZone i
    let (_, first, n) := groupOf ⟨l, z, d.gen.formatPos⟩
    let taken := dataPositions + sparesUsed d l z
    (List.range n).foldl (fun d k =>
      let p := first + k
      if dataPositions ≤ p && p < taken then d
      else queueCluster (mkCluster d.wrc.nextId 0 0 .format ⟨l, z, p⟩ 0 0 []) (takeId d)) d

/-- A format begins or resumes (R462, R463): FORMAT_STATE is FORMATTING, and the serial is entered before the first write (R211). -/
def startFormat (d : Device) : Device :=
  let d := enterSerial (cartSerial d) d
  let d := updGen (fun g => { g with formatting := true, formatPos := 0, cartState := 4 }) (updCart (fun c => { c with format := 1 }) d)
  let d := updRcl (fun r => { nextGroup := r.nextGroup, lastChoice := r.lastChoice, tasks := r.tasks }) d
  queueFormatGroup { updCry (fun c => { c with tagOk := true }) d with wrc := { d.wrc with opcDone := [] } }

/-- Every zone of the owner pool, in order of layer and zone, as the format leaves it (R165). -/
def poolZones : List Zone :=
  (List.range 384).filterMap fun i =>
    if inOwnerPool (i / 64) (i % 64) then some { layer := i / 64, zone := i % 64, pass := 0, entered := 0, openHeads := [] } else none

/-- The defect list is written to the system area (R154, R175, R462). -/
def writeDefects (d : Device) : Device :=
  (systemCluster .defectList (d.rcl.defects.flatMap fun l => leBytes 1 l.layer ++ leBytes 1 l.zone ++ leBytes 2 l.pos) [] [] d).2

/-- The zones are done: owners hold their quotas, and the first directory checkpoint, the defect list and both activation records at
GENERATION 0 are written (R462). -/
def endFormatZones (d : Device) : Device :=
  let d := updRcl (fun r => { r with freeZones := poolZones }) d
  let d := (List.range 16).foldl (fun d n =>
    if 1 ≤ n && slotIsActive d n then assignZones n (d.slot n).quota d else d) d
  let d := (writeDirectory d).2
  writeActivation {} none (writeDefects d)

/-- The accepted LEAVE_DUST_SHEET goes on: a blank cartridge is formatted once ARMED, and a formatted one takes the FX880 to Undercoat
(R459). -/
def leaveNow (d : Device) : Device :=
  match d.gen.leaveTag, d.gen.cart with
  | some _, some c =>
    if c.format = 2 then enterUndercoat d
    else if d.gen.formatting then d
    else if d.pwr.st = .armed then startFormat d
    else d
  | _, _ => d

/-- The format is complete: FORMATTED (R462). -/
def formatDone (d : Device) : Device :=
  leaveNow (updGen (fun g => { g with formatting := false, cartState := 2 }) (updCart (fun c => { c with format := 2 }) d))

/-! ### Ejection (R464) -/

/-- The cartridge is released: CART_STATE 5, DUST_CAUSE 12, source 23, and the request completes (R464). -/
def ejectDone (d : Device) : Device :=
  let t := d.gen.ejectTag
  let d := standParked (updGen (fun g => { g with ejectTag := none, cartState := 5, dustCause := 12 }) d)
  let d := raise 23 d
  match t with
  | some t => finishOk t 0 d
  | none => d

/-- An ejection goes on: once no zone is being formatted and every seal checkpoint has passed RAW, the cartridge is released. -/
def pumpEject (d : Device) : Device :=
  if d.gen.ejectTag.isSome && !d.gen.formatting && d.wrc.clusters.isEmpty then ejectDone d else d

/-- CARTRIDGE_EJECT_PREP begins: the ring checkpoints that are owed are written (R464). -/
def startEject (tag : Nat) (d : Device) : Device :=
  let d := startCmd tag (setPhase tag .running (updGen (fun g => { g with ejectTag := some tag }) d))
  if d.gen.formatting then d
  else
    let owed := d.rcl.sinceSeal
    pumpEject (owed.foldl (fun d o => queueSeal o d) (updRcl (fun r => { r with sinceSeal := [] }) d))

/-! ### How a format moves on -/

/-- The zone being formatted is complete: its bit is set, and the format goes on, ends, or stops for an ejection (R462, R464). -/
def formatZoneDone (i : Nat) (d : Device) : Device :=
  let d := updGen (fun g => { g with formatPos := 0 }) (updCart (fun c => { c with zoneDone := c.zoneDone ++ [i] }) d)
  if d.gen.ejectTag.isSome then
    let t := d.gen.leaveTag
    let d := updGen (fun g => { g with formatting := false, leaveTag := none }) d
    let d := match t with | some t => finish t stAbortedMode d | none => d
    pumpEject d
  else if (nextFormatZone d).isSome then queueFormatGroup d
  else endFormatZones d

/-- A cluster has been written: the format moves to the next group when the present one is done, and ends when nothing is left. -/
def pumpFormat (d : Device) : Device :=
  if !d.gen.formatting then d
  else if d.wrc.clusters.any (fun c => c.kind = .format) then d
  else
    match nextFormatZone d with
    | none => if d.wrc.clusters.isEmpty && d.rcl.actPending.isNone then formatDone d else d
    | some i =>
      let (l, z) := formatZone i
      let (_, first, n) := groupOf ⟨l, z, d.gen.formatPos⟩
      if first + n < clusterPositions then queueFormatGroup (updGen (fun g => { g with formatPos := first + n }) d)
      else formatZoneDone i d

end Sys2Proof.Machine
end

