-- ==== Sys2Proof/Machine/WriteChannel.lean ====
section
/-!
DEFINITION. The write channel and the laser (06_write_channel.md): writing a sector, read-after-write, retry, relocation, running OPC with
its excursions, write inhibit, static OPC and the laser's ceiling; and what a written cluster settles.
-/

namespace Sys2Proof.Machine

/-- Change the cluster being written `id`. -/
def updCluster (id : Nat) (f : WriteCluster → WriteCluster) : Device → Device :=
  updWrc fun w => { w with clusters := updateFirst (fun c => c.id = id) f w.clusters }

/-- Take the cluster `id` out of the write queue. -/
def dropCluster (id : Nat) : Device → Device :=
  updWrc fun w => { w with clusters := w.clusters.filter fun c => c.id != id }

/-- Sector record `i` of a cluster being written. -/
def wsector (c : WriteCluster) (i : Nat) : WriteSector := sget (fun _ => {}) c.sectors i

/-- Change sector record `i`. -/
def putWsector (id i : Nat) (f : WriteSector → WriteSector) : Device → Device :=
  updCluster id fun c => { c with sectors := supd (fun _ => {}) i f c.sectors }

/-- The cluster and slot of frame `psa` whose sector record satisfies `p`; a cluster earlier in the queue comes first. -/
def frameWrite (d : Device) (psa : Nat) (p : WriteSector → Bool) : Option (WriteCluster × Nat) :=
  d.wrc.clusters.findSome? fun c =>
    ((List.range 18).find? fun i => clusterPsa c i = psa && p (wsector c i)).map fun i => (c, i)

/-! ### Power and running OPC (R142, R149, R150) -/

/-- Index 4l + b of a layer and band. -/
def bandIndex (l : Loc) : Nat := 4 * l.layer + bandOf l.zone

/-- POWER of a layer and band. -/
def powerWord (d : Device) (k : Nat) : Word32 := d.reg (0xB040 + 4 * k)

/-- Trim of running OPC for a layer and band. -/
def trimAt (d : Device) (k : Nat) : Int := sget (fun _ => 0) d.wrc.trims k

/-- MIN and MAX of ROPC_BOUNDS. -/
def ropcBounds (d : Device) : Int × Int := (signedOf 8 (d.regF 0xB020 7 0), signedOf 8 (d.regF 0xB020 15 8))

/-- The bounds in force: on an excursion a change waits until it ends (R50). -/
def trimBound (d : Device) : Int × Int := if onExcursion d 2 then d.wrc.boundsHeld else ropcBounds d

/-- An excursion of loop 0x02 begins or goes on with value `v`: the bounds of its beginning are kept (R43, R50). -/
def trimExcursion (inv : Nat) (v : Word32) (d : Device) : Device :=
  excTake 2 inv v (if onExcursion d 2 then d else updWrc (fun w => { w with boundsHeld := ropcBounds d }) d)

/-- The excursion of frame `psa`'s trim, if any (R150). -/
def trimExcOf (d : Device) (psa : Nat) : Option TrimExc := d.wrc.excs.find? fun e => e.psa = psa

/-- Trim in force for a write of frame `psa`: the excursion's on its sector, else the band's (R142, R150); 0 in Primer (R149). -/
def trimFor (d : Device) (k psa : Nat) : Int :=
  if d.gen.mode = .primer then 0
  else
    match trimExcOf d psa with
    | some e => e.trim
    | none => trimAt d k

/-- The running-OPC trims are brought within their bounds (R50). -/
def clampTrims (d : Device) : Device :=
  let (lo, hi) := trimBound d
  updWrc (fun w => { w with
    trims := (List.range 24).foldl (fun m k => supd (fun _ => 0) k (clampInt lo hi) m) w.trims
    trim := clampInt lo hi w.trim }) d

/-- Direction that a sector's β calls for: +1, −1 or 0 (R149). -/
def betaCall (d : Device) (layer : Nat) (beta : Int) : Int :=
  let target := signedOf 10 (d.regF (0xB0A0 + 4 * layer) 25 16)
  let dead : Int := (d.regF 0xB024 15 8 : Nat)
  if beta < target - dead then 1 else if target + dead < beta then -1 else 0

/-- Running OPC is on: CTRL.ROPC_EN, and not in Primer (R149). -/
def ropcOn (d : Device) : Bool := wbit (d.reg 0xB000) 1 && d.gen.mode != .primer

/-- The trim's step after a RAW result, with source 101 when it reaches a bound (R149). -/
def ropcStep (l : Loc) (beta : Int) (d : Device) : Device :=
  if !ropcOn d then d
  else
    let k := bandIndex l
    let t := trimAt d k
    let (lo, hi) := trimBound d
    let t' := clampInt lo hi (t + betaCall d l.layer beta * (d.regF 0xB024 7 0 : Nat))
    let d := updWrc (fun w => { w with trims := sset (fun _ => 0) k t' w.trims, trim := t' }) d
    if t' != t && (t' = lo || t' = hi) then raise 101 d else d

/-- The next trim of an excursion: one EXC_STEP further out, within ±80, unless Pw would pass LASER_MAX (R150). -/
def excNext (d : Device) (k : Nat) (t : Int) (up : Bool) : Int :=
  let step : Int := (d.regF 0xB024 23 16 : Nat)
  let t' := clampInt (-80) 80 (if up then t + step else t - step)
  if laserMax d < (writePowers (powerWord d k) t').1 then t else t'

/-- A sector has failed RAW: the trim's excursion begins when the trim stood at the bound that its β calls for, and goes one step further
at each further failure (R43, R150). `before` is the trim of the failed write. -/
def excursionStep (c : WriteCluster) (psa : Nat) (before beta : Int) (d : Device) : Device :=
  if !ropcOn d then d
  else
    let k := bandIndex c.loc
    match trimExcOf d psa with
    | some e =>
      let t := excNext d k e.trim e.up
      excReach 2 3 (wordOfInt t) (updWrc (fun w => { w with excs := updateFirst (fun e => e.psa = psa) (fun e => { e with trim := t }) w.excs }) d)
    | none =>
      let (lo, hi) := trimBound d
      let dir := betaCall d c.loc.layer beta
      if (dir = 1 && before = hi) || (dir = -1 && before = lo) then
        let t := excNext d k before (dir = 1)
        trimExcursion 3 (wordOfInt t) (updWrc (fun w => { w with excs := w.excs ++ [{ psa := psa, up := decide (dir = 1), trim := t }] }) d)
      else d

/-- The operation that invariant (c) names ends with sector `psa`: its trim returns to the bound at once, and with the last such sector
the excursion ends, with the bounds as they stand then (R48, R50, R150). -/
def excursionOver (psa : Nat) (d : Device) : Device :=
  if (trimExcOf d psa).isNone then d
  else
    let d := updWrc (fun w => { w with excs := w.excs.filter fun e => e.psa != psa }) d
    if d.wrc.excs.isEmpty then
      let d := excEnd 2 3 d
      if onExcursion d 2 then d else clampTrims d
    else d

/-! ### The laser ceiling (R43, R44) -/

/-- The sled's radius in units of 1/128 µm: 21.5 mm and 2.34375 µm a microstep (R86). -/
def sledRadius (d : Device) : Nat := (2752000 + 300 * d.motion.pos).toNat

/-- The speed band at a radius in 1/128 µm: zones are of equal area, from 22.5 mm (R142, R163). -/
def bandAt (r : Nat) : Nat := min 63 ((r * r - 8294400000000) / 731584000000) / 16

/-- Layer and band in use: of the sector being written, else of the next cluster to be written, else where focus and sled are. -/
def bandInUse (d : Device) : Nat :=
  let writing := d.wrc.writing.bind fun x => d.wrc.clusters.find? fun c => c.id = x.1
  match writing <|> d.wrc.clusters.head? with
  | some c => bandIndex c.loc
  | none => 4 * d.servo.layer.getD 0 + bandAt (sledRadius d)

/-- LASER_MAX stands below Pw at the trim's lower bound: the power sits at LASER_MAX (R44). -/
def ceilingShort (d : Device) : Bool :=
  d.wrc.maxWritten && laserMax d < (writePowers (powerWord d (bandInUse d)) (ropcBounds d).1).1

/-- While it does, it is an excursion of loop 0x02 for invariant (b); the trim that LASER_MAX amounts to is its value (R43, R44). -/
def pumpCeiling (d : Device) : Device :=
  if ceilingShort d then
    let cal := fld (powerWord d (bandInUse d)) 9 0
    let v := wordOfInt (roundDiv (1000 * (laserMax d : Int)) cal - 1000)
    if onExcursionFor d 2 2 then excReach 2 2 v d else trimExcursion 2 v d
  else d

/-! ### What a written cluster settles -/

/-- A ring whose phase B has ended is recovered: source 204 (R452, R195). -/
def phaseBEnd (o : Nat) (d : Device) : Device :=
  if (d.ring o).recovery = .phaseB
      && !d.wrc.clusters.any (fun c => c.ring = o && (c.kind = .fill || c.kind = .sealCheckpoint)) then
    let ticks := min 0xFFFFFFFF (d.now - (d.ring o).recoveryStart)
    let d := updRing o (fun r => { r with recovery := .recovered, found := none }) d
    let d := updRcl (fun r => { r with recovering := none, recoveryTicks := ticks }) d
    let d := raise 204 d
    if anyPending d then d
    else updGen (fun g => { g with
      phase := 6
      milestones := if g.milestones.getD 1 0 = 0 then setAt 1 (min 0xFFFFFFFF d.now) g.milestones else g.milestones }) d
  else d

/-- The directory checkpoint `c` has passed RAW: source 201, its account of the slots is the newest, an entry takes place, and owner
operations go on (R175, R178, R208). -/
def directoryWritten (c : WriteCluster) (d : Device) : Device :=
  let d := raise 201 (updRcl (fun r => { r with directory := c.dir, dirRings := c.dirRings }) d)
  let d := match d.rcl.rings.find? fun p => p.2.entry = some c.id with
    | some (o, _) => entryPassed o d
    | none => d
  pumpOps (opsWritten c.id d)

/-- What a cluster's kind settles when all its sectors have passed RAW. -/
def kindPassed (c : WriteCluster) (d : Device) : Device :=
  match c.kind with
  | .ownerData => settleGroups (c.groups.foldl (fun d g => groupPassed c.id g d) d)
  | .ringCheckpoint => count 0x15020 d
  | .sealCheckpoint =>
    raise 207 (count 0x15020 (updRcl (fun r => { r with sinceSeal := r.sinceSeal.erase c.ring }) d))
  | .directory => directoryWritten c (count 0x15020 d)
  | .bootImage _ => settleBoot (c.groups.foldl (fun d g => groupPassed c.id g d) d)
  | .activation b => settleBoot (activationWritten c.id b d)
  | .defectList => d
  | .fill => d
  | .format => d

/-- What goes on once a cluster has left the write queue. -/
def afterCluster (c : WriteCluster) (d : Device) : Device := pumpEject (pumpFormat (phaseBEnd c.ring d))

/-- Every sector of the cluster has passed RAW. -/
def clusterPassed (c : WriteCluster) (d : Device) : Device :=
  let d := dropCluster c.id d
  let d := match c.refresh with
    | some l =>
      updRcl (fun r => { r with refreshed := supd (fun _ => 0) c.loc.layer (· + 1) r.refreshed }) (movePieces l c.loc (noteMove l c.loc d))
    | none => d
  afterCluster c (kindPassed c d)

/-- A directory checkpoint that could not be written is written anew at the next position, for those that wait for it (R154, R175). -/
def rewriteDirectory (c : WriteCluster) (d : Device) : Device :=
  let (id, d) := systemCluster .directory [] c.dir c.dirRings d
  let d := updRcl (fun r => { r with
    rings := r.rings.map fun p =>
    if p.2.entry = some c.id then (p.1, { p.2 with entry := some id }) else p }) d
  updCry (fun x => { x with ops := x.ops.map fun o => if o.cluster = c.id then { o with cluster := id } else o }) d

/-- The cluster is given up with a status: its groups fail, and the write queue goes on (R155, R447). -/
def clusterLost (c : WriteCluster) (st : Nat) (d : Device) : Device :=
  let d := (List.range 18).foldl (fun d i => excursionOver (clusterPsa c i) d) (dropCluster c.id d)
  let d := failCluster c st d
  let d := match c.kind with
    | .directory => rewriteDirectory c d
    | .activation _ => nextActivation d
    | _ => d
  afterCluster c (settleGroups d)

/-! ### Writing a sector (R138, R147, R156, R172, R233) -/

/-- Static OPC is current for a layer and band (R147); it does not run in Primer. -/
def opcCurrent (d : Device) (k : Nat) : Bool :=
  d.gen.mode = .primer ||
    (let r := sget (fun _ => {}) d.wrc.opcDone k
     r.done && (d.pwr.tempAfe - r.temp).natAbs < 5 && r.writtenTicks < 24 * 3600 * ticksPerS)

/-- The write channel may form marks now: no inhibit, not held, laser permitted, 3,600 rpm (R146, R157, R159). -/
def mayWrite (d : Device) : Bool := d.wrc.inhibit = 0 && !d.wrc.held && laserMayEmit d && !d.servo.fast

/-- The interleave group of the cluster is being written: a sector of one of its clusters has begun (R168, R376). -/
def groupBegun (d : Device) (c : WriteCluster) : Bool :=
  let (_, first, n) := groupOf c.loc
  d.wrc.clusters.any fun x =>
    x.loc.layer = c.loc.layer && x.loc.zone = c.loc.zone && first ≤ x.loc.pos && x.loc.pos < first + n
      && (List.range 18).any fun i => (wsector x i).st != .due

/-- The supply lets a sector of the cluster be written: while ARMED; during a ride-through and a seal's finish step the group being written
goes on; the checkpoint step writes the seal checkpoint (R374 to R380). -/
def writePermitted (d : Device) (c : WriteCluster) : Bool :=
  match d.pwr.st with
  | .armed => true
  | .rideThrough => groupBegun d c
  | .sealing => (d.pwr.sealStep = 1 && groupBegun d c) || (d.pwr.sealStep = 2 && c.kind = .sealCheckpoint)
  | _ => false

/-- A cluster of groups that only catch-up brings (R282, R286). -/
def catchCluster (d : Device) (c : WriteCluster) : Bool :=
  let caught (g : Group) : Bool := match g.role with | .caughtUp _ => true | _ => false
  c.kind = .ownerData && c.refresh.isNone && !c.groups.isEmpty && c.groups.all fun i => (d.group i).any caught

/-- A cluster that holds bytes of a host append, this twin's or the peer's. -/
def appendCluster (d : Device) (c : WriteCluster) : Bool :=
  let append (g : Group) : Bool := match g.role with | .leader _ => true | .follower _ => true | _ => false
  c.kind = .ownerData && c.refresh.isNone && c.groups.any fun i => (d.group i).any append

/-- A sector of the cluster waits to be written, and nothing but its turn keeps it. -/
def writeWaits (d : Device) (c : WriteCluster) : Bool :=
  writePermitted d c && opcCurrent d (bandIndex c.loc) && (List.range 18).any fun i => (wsector c i).st = .due

/-- Catch-up and host appends both wait for the medium (R286). -/
def sharing (d : Device) : Bool :=
  d.wrc.clusters.any (fun c => catchCluster d c && writeWaits d c) && d.wrc.clusters.any (fun c => appendCluster d c && writeWaits d c)

/-- The cluster may have the next sector written: while both wait, SHARE sectors in sixteen are catch-up's (R286; log entry 95). -/
def shareAllows (d : Device) (c : WriteCluster) : Bool :=
  !sharing d ||
    (let turn : Bool := d.wrc.shared < d.regF 0xE004 11 8
     (!catchCluster d c || turn) && (!appendCluster d c || !turn))

/-- A sector written while both wait counts among the sixteen. -/
def countShare (d : Device) : Device := if sharing d then updWrc (fun w => { w with shared := (w.shared + 1) % 16 }) d else d

/-- The strategy edges of a layer, band and class (R146). -/
def edgesOf (d : Device) (k cls : Nat) : List Int :=
  let w (i : Nat) : Word32 := sget (fun _ => 0) d.wrc.strat (16 * k + 2 * cls + i)
  strategyEdges (w 0) (w 1)

/-- The frame of a recorded block goes to the laser: its channel bits into the write FIFO as far as they fit, its pulse train from the
strategy tables, and the four levels after the clamp (R139 to R143, R146, R166). -/
def emitFrame (k : Nat) (psa : Nat) (block : List Byte) (trim : Int) (d : Device) : Device :=
  let bits := frameBits block
  let es := fifoEntries bits
  let p := writePowers (powerWord d k) trim
  let m := laserMax d
  laserLevel p.1 (updWrc (fun w => { w with
    emitted := some (psa, block), fifo := es.take 128, unsent := es.drop 128, train := trainOf (edgesOf d k) bits
    powers := (min p.1 m, min p.2.1 m, min p.2.2 m), trim := trim }) d)

/-- The sector's data field is being written: its block is generated afresh from the assembly buffer, and its result is awaited (R138,
R209). -/
def emitSector (c : WriteCluster) (i : Nat) (d : Device) : Device :=
  let k := bandIndex c.loc
  let psa := clusterPsa c i
  let t := trimFor d k psa
  let b := sectorBlock d c i
  let d := if i < 16 then
      count 0xD050 (updWrc (fun w => { w with passes := sset (fun _ => 0) psa (c.pass + 1) w.passes }) (updCluster c.id (fixLinks d i) d))
    else d
  let d := putWsector c.id i (fun x => { x with st := .written, voided := false }) (endWriting d)
  emitFrame k psa b t (updWrc (fun w => { w with writing := some (c.id, i), writeStart := d.now }) d)

/-- A group whose command has completed is no longer in a buffer (R138): it never commits. -/
def orphanGroup (d : Device) (g : Group) : Bool :=
  match g.role with
  | .leader t => g.st = .open && !d.hif.cmds.any (fun c => c.tag = t && c.phase != .done)
  | _ => false

/-- Groups whose commands have ended without them are void, and in Topcoat the peer is told (R138, R183, R275). -/
def sweepGroups (d : Device) : Device :=
  (d.rcl.groups.filter (orphanGroup d)).foldl (fun d g => failGroup g.id stInternal d) d

/-! ### Read-after-write (R151 to R155) -/

/-- The whole cluster is written again at a spare: same pass, same bytes, the failed location in the defect list (R154). -/
def relocate (c : WriteCluster) (dst : Loc) (d : Device) : Device :=
  let d := updRcl (fun r => { r with defects := r.defects ++ [c.loc] }) (noteMove c.loc dst (useSpare dst c.pass d))
  let d := updCluster c.id (fun c => { c with
    loc := dst, relocated := some (c.relocated.getD c.loc), relocations := c.relocations + 1, sectors := [] }) d
  raise 97 (count 0xB0D8 (locatePieces c.id dst d))

/-- A sector has failed its third retry: the cluster is relocated, or given up (R154, R155); not during a ride-through
(R376) or once a seal has begun (R162). -/
def exhaustSector (c : WriteCluster) (d : Device) : Device :=
  if d.pwr.st != .armed then d
  else if 2 ≤ c.relocations then clusterLost c stRelocExhausted (raise 98 d)
  else
    match spareFor d c.loc with
    | none => clusterLost c stRelocExhausted (raise 98 d)
    | some l => relocate c l d

/-- The sector passes (R151): the cluster is written when it was the last. -/
def sectorPassed (c : WriteCluster) (i : Nat) (d : Device) : Device :=
  let d := excursionOver (clusterPsa c i) (count 0xB0D0 (putWsector c.id i (fun x => { x with st := .passed }) d))
  match d.wrc.clusters.find? fun x => x.id = c.id with
  | some c => if (List.range 18).all fun j => (wsector c j).st = .passed then clusterPassed c d else d
  | none => d

/-- A data frame may be written at the cluster's pass: a header with a lower pass was read from it, or this FX880 started its last write
itself and knows its pass to be lower. A format writes every frame, and parity frames carry no header (R172). -/
def passAllowed (d : Device) (c : WriteCluster) (i psa : Nat) (before : Option Nat) : Bool :=
  let mine := sget (fun _ => 0) d.wrc.passes psa
  c.kind = .format || 16 ≤ i || before.any (· < c.pass) || (mine != 0 && mine ≤ c.pass)

/-- A frame that may not be written at the pass: fill leaves it as it is; any other cluster goes elsewhere, as after a third retry (R172;
log entry 81). -/
def refuseFrame (c : WriteCluster) (i : Nat) (d : Device) : Device :=
  if c.kind = .fill then sectorPassed c i d
  else exhaustSector c (putWsector c.id i (fun x => { x with st := .failed, retries := 3 }) d)

/-- SECTOR_WRITE_START: a frame that is due, with the pass of the header read from it; poison in its plaintext abandons the cluster (R156,
R447), else the cache forgets its address and it is written. -/
def writeSector (psa : Nat) (before : Option Nat) (poisoned : Bool) (d : Device) : Device :=
  match frameWrite d psa fun x => x.st = .due with
  | none => d
  | some (c, i) =>
    if !opcCurrent d (bandIndex c.loc) || !writePermitted d c || !shareAllows d c then d
    else if !passAllowed d c i psa before then refuseFrame c i d
    else if poisoned then clusterLost c stInternal (raise 185 d)
    else emitSector c i (countShare (dropLines (fun l => !l.table && l.addr = psa) d))

/-- SECTOR_WRITE_START (R233). -/
def execSectorWriteStart (psa : Nat) (before : Option Nat) (poisoned : Bool) (s : State) : Host.Outcome State Fault Refusal :=
  effect s fun d => onlyIf (mayWrite d) (fun d => writeSector psa before poisoned (sweepGroups d)) d

/-- IN_PLACE_RETRY (R153, R159): the write channel jumps back one track; a failed sector is rewritten as a retry, source 96, or its
cluster is relocated where a ride-through held that back (R376); an interrupted one without counting. One whose data have come to carry
poison is never rewritten (R156, R447). None is made once a seal has begun (R162). -/
def retrySector (psa : Nat) (poisoned : Bool) (d : Device) : Device :=
  match frameWrite d psa fun x => x.st = .failed || x.st = .interrupted with
  | none => d
  | some (c, i) =>
    let again (d : Device) : Device := updWrc (fun w => { w with jumpedBack := true }) (emitSector c i d)
    if !writePermitted d c then d
    else if (wsector c i).st = .failed && 3 ≤ (wsector c i).retries then exhaustSector c d
    else if poisoned then clusterLost c stInternal (raise 185 d)
    else if (wsector c i).st = .failed then
      again (raise 96 (putWsector c.id i (fun x => { x with retries := x.retries + 1 }) d))
    else again d

/-- IN_PLACE_RETRY (R153). -/
def execInPlaceRetry (psa : Nat) (poisoned : Bool) (s : State) : Host.Outcome State Fault Refusal :=
  effect s fun d => onlyIf (mayWrite d && d.pwr.st != .sealing) (retrySector psa poisoned) d

/-- The sector fails (R151, R153): a retry follows, or after the third the cluster is relocated. -/
def sectorFailed (c : WriteCluster) (i : Nat) (before beta : Int) (d : Device) : Device :=
  let psa := clusterPsa c i
  let d := count 0xB0D4 d
  if (wsector c i).retries < 3 then
    excursionStep c psa before beta (putWsector c.id i (fun x => { x with st := .failed }) d)
  else exhaustSector c (excursionOver psa (putWsector c.id i (fun x => { x with st := .failed }) d))

/-- RAW_RESULT of a sector that has been written: void, passed or failed (R151, R152), with running OPC's step (R149). -/
def rawResult (psa errors : Nat) (beta : Int) (synced : Bool) (d : Device) : Device :=
  match frameWrite d psa fun x => x.st = .written with
  | none => d
  | some (c, i) =>
    let d := if d.wrc.writing = some (c.id, i) then laserToRead (endWriting d) else d
    if (wsector c i).voided || d.wrc.inhibit != 0 then
      count 0xB0DC (putWsector c.id i (fun x => { x with st := .interrupted, voided := false }) d)
    else
      let before := trimFor d (bandIndex c.loc) psa
      let d := if (trimExcOf d psa).isSome then d else ropcStep c.loc beta d
      if synced && errors < d.regF 0xB00C 5 0 then sectorPassed c i d else sectorFailed c i before beta d

/-- RAW_RESULT (R151). -/
def execRawResult (psa : Nat) (errors : Nat) (beta : Int) (synced : Bool) (s : State) : Host.Outcome State Fault Refusal :=
  effect s fun d => rawResult psa errors beta synced (sweepGroups d)

/-! ### Write inhibit (R139, R157 to R159) -/

/-- Condition `cause` of Table 06-5 that a comparator or the medium reports: bits 0 to 3, 6 and 7. -/
def analogCause (cause : Nat) : Bool := [0, 1, 2, 3, 6, 7].contains cause

/-- WRITE_INHIBIT: the condition holds; source 106 when the wobble lock is lost (R157, R160). The core's own conditions follow the state
that they name. -/
def assertInhibit (cause : Nat) (d : Device) : Device :=
  let d := if analogCause cause then updWrc (fun w => { w with analog := w.analog ||| BitVec.ofNat 10 (2 ^ cause) }) d else d
  let d := if cause = 6 then raise 106 d else d
  refreshInhibit d

/-- WRITE_INHIBIT (R157). -/
def execWriteInhibit (cause : Nat) (s : State) : Host.Outcome State Fault Refusal := effect s (assertInhibit cause)

/-- WRITE_INHIBIT_CLEAR (R159). -/
def execWriteInhibitClear (cause : Nat) (s : State) : Host.Outcome State Fault Refusal :=
  effect s fun d => refreshInhibit
    (if analogCause cause then updWrc (fun w => { w with analog := w.analog &&& ~~~ (BitVec.ofNat 10 (2 ^ cause)) }) d else d)

/-- WRITE_FIFO_UNDERRUN (R139): the generator has taken every entry of the FIFO and a further one is due, while a sector's data field is
being written; counted, source 100, and the sector is cut short. -/
def execWriteFifoUnderrun (s : State) : Host.Outcome State Fault Refusal :=
  effect s fun d => onlyIf d.wrc.writing.isSome
    (fun d => assertInhibit 7 (raise 100 (count 0xB0E0 (updWrc (fun w => { w with fifo := [] }) d)))) d

/-- Every condition has stayed clear for HOLD ticks (R159). -/
def holdOver (d : Device) : Bool :=
  d.wrc.held && d.wrc.inhibit = 0 && decide (d.wrc.clearSince + d.regF 0xB014 15 0 ≤ d.now)

/-- WRITE_RESUME (R159). -/
def execWriteResume (s : State) : Host.Outcome State Fault Refusal :=
  effect s fun d => onlyIf (holdOver d) (updWrc fun w => { w with held := false }) d

/-! ### The laser (R143 to R145) -/

/-- A write of LASER_MAX (R143): the first takes any value, a later one only lowers. -/
def writeLaserMax (v : Nat) (d : Device) : Device :=
  if !d.wrc.maxWritten then pumpCeiling (setRegF 0xB004 9 0 v (updWrc (fun w => { w with maxWritten := true }) d))
  else if v < laserMax d then
    let d := setRegF 0xB004 9 0 v d
    let d := updWrc (fun w => { w with powers := (min w.powers.1 v, min w.powers.2.1 v, min w.powers.2.2 v) }) d
    pumpCeiling (if d.wrc.laserOn then laserLevel d.wrc.level d else d)
  else if v = laserMax d then d
  else raise 107 (count 0xB0E4 d)

/-- LASER_MAX_WRITE (R143). -/
def execLaserMaxWrite (who : Requester) (value : Word32) (s : State) : Host.Outcome State Fault Refusal :=
  effect s (gate who 0xB004 true (writeLaserMax (fld value 9 0)))

/-- LASER_OVER_POWER (R144): OVER is latched and the laser is off; source 104. -/
def execLaserOverPower (s : State) : Host.Outcome State Fault Refusal :=
  effect s fun d => refreshInhibit (raise 104 (laserOff (updWrc (fun w => { w with overTrip := true }) d)))

/-- LASER_OVER_CLEAR (R144): the firmware clears OVER, but not in Primer. -/
def execLaserOverClear (who : Requester) (s : State) : Host.Outcome State Fault Refusal :=
  effect s (gate who 0xB008 false fun d =>
    onlyIf (d.gen.mode != .primer) (fun d => refreshInhibit (updWrc (fun w => { w with overTrip := false }) d)) d)

/-- LASER_ILK_LOW (R145): laser off, source 105, and every command in progress that needs the medium completes with INTERNAL_FAULT; the
layer in focus is no longer known, so that the next such command acquires again. -/
def execLaserIlkLow (s : State) : Host.Outcome State Fault Refusal :=
  effect s fun d =>
    let d := laserOff (updWrc (fun w => { w with ilk := false, ilkBlocked := true }) d)
    let d := { d with servo := { d.servo with layer := none, targetLayer := none, script := none } }
    sweepGroups (failMedium (raise 105 (refreshInhibit d)))

/-- LASER_ILK_RESTORED (R145): the ball has been high for 100 ms; medium commands are served again. -/
def execLaserIlkRestored (s : State) : Host.Outcome State Fault Refusal :=
  effect s fun d => refreshInhibit (updWrc (fun w => { w with ilk := true, ilkBlocked := false, ilkSince := d.now }) d)

/-! ### Strategy tables (R146) -/

/-- STRAT_ADDR.INDEX after an access, which AUTO_INC advances; past the last word, where the encodings are
reserved, the manual states no value: it is free among the words (log entry 23). -/
def stratAdvance (d : Device) : Device :=
  let i := d.regF 0xB02C 8 0
  if !wbit (d.reg 0xB02C) 31 then d
  else if i + 1 < 384 then setRegF 0xB02C 8 0 (i + 1) d
  else drawn (setRegF 0xB02C 8 0 ((freeDraw d).toNat % 384) d)

/-- STRAT_DATA_ACCESS (R146): a write has its effect while no sector write is in progress; a read returns the word. -/
def stratAccess (value : Option Word32) (d : Device) : Device :=
  let i := d.regF 0xB02C 8 0
  match value with
  | some v => if d.wrc.writing.isSome then d
              else stratAdvance (updWrc (fun w => { w with strat := sset (fun _ => 0) i v w.strat }) d)
  | none => stratAdvance ({ d with bus := { d.bus with readData := sget (fun _ => 0) d.wrc.strat i } })

/-- STRAT_DATA_ACCESS (R146). A read has no lock to pass. -/
def execStratDataAccess (who : Requester) (value : Option Word32) (s : State) : Host.Outcome State Fault Refusal :=
  effect s (if value.isSome then gate who 0xB030 true (stratAccess value) else onBus who (stratAccess value))

/-! ### Static OPC (R147, R148) -/

/-- The cluster position that a frame belongs to (R168). -/
def positionOf (layer zone frame : Nat) : Nat :=
  let (_, first, n) := groupOf ⟨layer, zone, frame / 18⟩
  first + (frame - 18 * first) % n

/-- Four frames of the OPC test zone of a layer and band, from `frame` on, lie in its test area: positions 0 to 255 of zone 15, 31, 47 or
63 (R147, Table 07-1). -/
def testSectorsOk (layer band frame : Nat) : Bool :=
  (List.range 4).all fun k => positionOf layer (16 * band + 15) (frame + k) < 256

/-- A test step begins: its four sectors are written at its power, after the clamp, from OPC_POS, while no inhibit holds (R143, R148,
R157). One that would write outside the test area is not begun (R147; log entry 88). -/
def beginTest (layer band : Nat) (d : Device) : Device :=
  let x : OpcStep := { layer := layer, band := band, power := d.regF 0xB0C0 9 0, pos := (d.reg 0xB0C8).toNat }
  if testSectorsOk layer band x.pos then
    let d := updWrc (fun w => { w with opcStep := some x }) d
    if d.wrc.inhibit = 0 && !d.wrc.held then laserLevel x.power d else laserToRead d
  else d

/-- A write of OPC_CMD (R148): a reserved LAYER keeps its value (R10), and START, which is not the host's (R477), begins a step when none
runs and the supply lets the medium be written (R375, R379). -/
def writeOpcCmd (who : Requester) (v : Word32) (d : Device) : Device :=
  let d := if fld v 26 24 < 6 then setRegF 0xB0C0 26 24 (fld v 26 24) d else d
  let d := setRegF 0xB0C0 21 20 (fld v 21 20) (setRegF 0xB0C0 9 0 (fld v 9 0) d)
  if wbit v 31 && who != .host && d.wrc.opcStep.isNone && d.pwr.st = .armed then
    beginTest (d.regF 0xB0C0 26 24) (d.regF 0xB0C0 21 20) d
  else d

/-- OPC_TEST_STEP (R148). -/
def execOpcTestStep (who : Requester) (value : Word32) (s : State) : Host.Outcome State Fault Refusal :=
  effect s (gate who 0xB0C0 true (writeOpcCmd who value))

/-- Static OPC ends: the calibration takes the first step that met the target, or stays, which the event log records (R148). -/
def opcEnd (r : OpcRun) (d : Device) : Device :=
  let k := 4 * r.layer + r.band
  let rec_ : OpcRecord := { done := true, temp := d.pwr.tempAfe, writtenTicks := 0 }
  let d := updWrc (fun w => { w with opcRun := none, opcDone := sset (fun _ => {}) k rec_ w.opcDone }) d
  match r.best with
  | none => raise 103 (logLater d.now 1 103 0 (leBytes 1 r.layer ++ leBytes 1 r.band) d)
  | some (p, beta) =>
    let d := setRegF (0xB040 + 4 * k) 9 0 (min (roundDiv ((p * 112 : Nat) : Int) 100).toNat (laserMax d)) d
    let d := setRegF (0xB0A0 + 4 * r.layer) 25 16 (ofSigned 10 beta) d
    raise 102 (updWrc (fun w => { w with trims := sset (fun _ => 0) k 0 w.trims, trim := 0 }) d)

/-- OPC_POS for the next step of static OPC: as it stands where its four sectors lie in the test area, else the area's first frame
(log entry 88). -/
def opcPlace (layer band : Nat) (d : Device) : Nat :=
  let p := (d.reg 0xB0C8).toNat
  if testSectorsOk layer band p then p else 0

/-- The next step of static OPC, or its end after step 10 or above the laser ceiling (R148); without ARMED the
calibration is abandoned, and is still due (R374 to R376). -/
def opcNext (r : OpcRun) (d : Device) : Device :=
  let p := (roundDiv ((r.p0 * (85 + 3 * r.k) : Nat) : Int) 100).toNat
  if d.pwr.st != .armed then updWrc (fun w => { w with opcRun := none }) d
  else if 10 < r.k || laserMax d < p then opcEnd r d
  else
    let d := setRegF 0xB0C0 26 24 r.layer (setRegF 0xB0C0 21 20 r.band (setRegF 0xB0C0 9 0 p d))
    let d := setReg 0xB0C8 (BitVec.ofNat 32 (opcPlace r.layer r.band d)) d
    beginTest r.layer r.band (updWrc (fun w => { w with opcRun := some r }) d)

/-- A test step ends (R148): the laser is at read power, its results are there, and static OPC goes on from the next four sectors. The
target 2.5 × 10⁻⁴ is errors × 4,000 below 147,968. -/
def testStepDone (x : OpcStep) (errors : Nat) (beta : Int) (d : Device) : Device :=
  let d := laserToRead (updWrc (fun w => { w with opcStep := none, opcErrors := min 0xFFFF errors, opcBeta := clampInt (-512) 511 beta }) d)
  match d.wrc.opcRun with
  | none => d
  | some r =>
    let best := if r.best.isNone && errors * 4000 < 147968 then some (x.power, clampInt (-512) 511 beta) else r.best
    opcNext { r with best := best, k := r.k + 1 } (setReg 0xB0C8 (BitVec.ofNat 32 (x.pos + 4)) d)

/-- OPC_TEST_STEP_DONE (R148). -/
def execOpcTestStepDone (errors : Nat) (beta : Int) (s : State) : Host.Outcome State Fault Refusal :=
  effect s fun d => match d.wrc.opcStep with | some x => testStepDone x errors beta d | none => d

/-- STATIC_OPC (R147): due for a layer and band, and not in Primer. -/
def execStaticOpc (layer band : Nat) (s : State) : Host.Outcome State Fault Refusal :=
  effect s fun d =>
    onlyIf (layer < 6 && band < 4 && d.gen.mode != .primer && !opcCurrent d (4 * layer + band) && d.pwr.st = .armed
        && d.wrc.opcRun.isNone && d.wrc.opcStep.isNone)
      (opcNext { layer := layer, band := band, k := 0, p0 := fld (powerWord d (4 * layer + band)) 9 0, best := none }) d

end Sys2Proof.Machine
end

