-- ==== Sys2Proof/Machine/Timing.lean ====
section
/-!
DEFINITION. Timing without a clock (02_timing.md): the AVS window and its return to bounds, changes of bounds, the end of an excursion,
the pacing fault, and the PCIe reference.
-/

namespace Sys2Proof.Machine

/-! ### The AVS loop (R37 to R41, R511, R512) -/

/-- Invariant `i` of an AVS excursion is safe (Table 02-6, R511). -/
def avsSafe (d : Device) (i : Nat) : Bool :=
  if i = 1 then 2500 ≤ d.avs.runSafe
  else d.avs.fifoReads.all fun id => !d.rdc.clusters.any fun c => c.id = id && !c.done

/-- Every invariant of the present AVS excursion is safe. -/
def avsAllSafe (d : Device) : Bool := [1, 3].all fun i => !onExcursionFor d 1 i || avsSafe d i

/-- SLACK_LO and SLACK_HI. -/
def slackLo (d : Device) : Int := (d.regF 0xF108 8 0 : Nat)
/-- SLACK_HI. -/
def slackHi (d : Device) : Int := (d.regF 0xF108 24 16 : Nat)

/-- The first matching row of Table 02-4: the change and the invariant that it is for. -/
def avsRow (d : Device) : Int × Nat :=
  if d.avs.servoFault then (10, 1)
  else if (match d.avs.low with | some v => decide (v < slackLo d) | none => false) then (1, 1)
  else if d.avs.fifoHigh then (1, 3)
  else if d.avs.low.isSome && 16 ≤ d.avs.runAbove then (-1, 0)
  else (0, 0)

/-- The window's slack enters WINDOW_SLACK, AVS_SLACK_MIN and the two runs; a window without outputs leaves them (R37). -/
def noteWindow (d : Device) : Device :=
  match d.avs.low with
  | none => d
  | some v =>
    let d := updAvs (fun a => { a with
      windowSlack := v
      runAbove := if slackHi d < v then min 16 (a.runAbove + 1) else 0
      runSafe := if slackHi d ≤ v then min 2500 (a.runSafe + 1) else 0 }) d
    let m := signedOf 16 (d.regF 0xF110 15 0)
    if v < m then setRegF 0xF110 15 0 (ofSigned 16 v) d else d

/-- The AVS excursion ends when the code lies within the bounds (R48); bounds changed meanwhile then take effect (R50). -/
def avsReached (b : Nat × Nat) (d : Device) : Device :=
  if onExcursion d 1 && b.1 ≤ d.avs.code && d.avs.code ≤ b.2 then clampAvs (excEnd 1 3 (excEnd 1 1 d)) else d

/-- The code rises by `n` for invariant `i`, to 60 at most; past its upper bound it is an excursion (R38, R43, R511). -/
def avsRaise (n i : Nat) (b : Nat × Nat) (d : Device) : Device :=
  let c := min 60 (d.avs.code + n)
  if c = d.avs.code then d
  else
    let d := avsPut c (if onExcursion d 1 then d else updAvs (fun a => { a with excBounds := b }) d)
    if b.2 < c then excTake 1 i (BitVec.ofNat 32 c) d else d

/-- One code toward the bounds (R512). -/
def avsToward (b : Nat × Nat) (d : Device) : Device :=
  let c := d.avs.code
  avsReached b (if b.2 < c then avsPut (c - 1) d else if c < b.1 then avsPut (c + 1) d else d)

/-- One code down, never below the lower bound (Table 02-4). -/
def avsLower (b : Nat × Nat) (d : Device) : Device :=
  if b.1 < d.avs.code then avsReached b (avsPut (d.avs.code - 1) d) else d

/-- The code step at the end of a window (R37, R511, R512). -/
def avsStep (d : Device) : Device :=
  let (n, i) := avsRow d
  let exc := onExcursion d 1
  let back := exc && avsAllSafe d
  let b := if exc && !back then d.avs.excBounds else avsBounds d
  if 0 < n then avsRaise n.toNat i b d
  else if back then avsToward b d
  else if n < 0 then avsLower b d
  else d

/-- The end of an AVS window; the next begins where it ended. -/
def avsWindowEnd (d : Device) : Device :=
  let d := noteWindow d
  let d := if avsHeld d then d else avsStep d
  updAvs (fun a => { a with low := none, servoFault := false, fifoHigh := false, windowStart := a.windowStart + 1000 }) d

/-- AVS_WINDOW_END (R37): the window has lasted 1,000 ticks. -/
def execAvsWindowEnd (s : State) : Host.Outcome State Fault Refusal :=
  effect s fun d => onlyIf (d.avs.windowStart + 1000 ≤ d.now) avsWindowEnd d

/-- AVS_RAIL_SETTLED (R38, R428): 10 µs after the last code change the sense code is the present band's alone. -/
def execAvsRailSettled (s : State) : Host.Outcome State Fault Refusal :=
  effect s fun d => onlyIf (match d.avs.settleAt with | some t => decide (t ≤ d.now) | none => false)
    (fun d => updAvs (fun a => { a with settleAt := none, oldBand := avsBand a.code }) d) d

/-! ### Changes of bounds (R50) -/

/-- A named next zone that lies outside its window is named again (R50, R176). -/
def renameOutside (d : Device) : Device :=
  (List.range 16).foldl (fun d o =>
    let r := d.ring o
    match r.next with
    | some i =>
      if !r.excursion && r.entry.isNone && !((eligibleZones d o).take (d.regF 0x15004 4 0)).contains i then nameNext o d else d
    | none => d) d

/-- Polling bounds: HIF.POLL_MIN and POLL_MAX, or the pinned interval of a power state and its transitions (R303, R304, Table 11-4). -/
def pollBounds (d : Device) : Nat × Nat :=
  if d.gen.mode = .primer || d.gen.mode = .dustSheet || (d.hif.ps = 0 && !d.hif.transition) then
    (d.regF 0x100C 17 0, d.regF 0x1010 17 0)
  else if d.hif.ps = 3 then (250000, 250000)
  else (25000, 25000)

/-- The poll interval goes to the nearest point of its bounds as they stand (R50, R304). -/
def clampPoll (d : Device) : Device :=
  if d.hif.lockOk && !onExcursion d 5 then
    let b := pollBounds d
    updHif (fun h => { h with interval := max b.1 (min b.2 h.interval) }) d
  else d

/-- A loop that is not on an excursion goes at once to the nearest point of its bounds (R50). The detector's policy is read at each
outer iteration (R129). -/
def applyBounds (loop : Nat) (d : Device) : Device :=
  if onExcursion d loop then d
  else
    match loop with
    | 1 => clampAvs d
    | 2 => clampTrims d
    | 4 => updRdc (fun r => { r with taps := clampTaps d }) d
    | 5 => clampPoll d
    | 6 => renameOutside d
    | 7 => clampTrim d
    | _ => d

/-- BOUNDS_CHANGE (R50). -/
def execBoundsChange (loop : Nat) (s : State) : Host.Outcome State Fault Refusal :=
  effect s <| onlyIf (1 ≤ loop && loop ≤ 7) (applyBounds loop)

/-! ### The end of an excursion (R48) -/

/-- A cluster being written has frame `psa`. -/
def writesFrame (d : Device) (psa : Nat) : Bool :=
  d.wrc.clusters.any fun c => (List.range 18).any fun i => clusterPsa c i = psa

/-- The invariant of the present excursion of a loop is safe (Table 02-6). -/
def excSafe (d : Device) (loop : Nat) : Bool :=
  match loop with
  | 1 => avsAllSafe d
  | 2 => (!onExcursionFor d 2 3 || d.wrc.excs.all fun e => !writesFrame d e.psa) && (!onExcursionFor d 2 2 || !ceilingShort d)
  | 3 => !d.rdc.clusters.any (·.held.isSome)
  | 4 => !d.rdc.clusters.any fun c => !c.lifted.isEmpty
  | 5 => 12000 ≤ stackReading d && !d.pwr.vinWarn
  | 6 => !d.rcl.rings.any fun p => p.2.excursion
  | 7 => opsOver 7 d
  | _ => false

/-- The loop is back within its bounds as they stand, and its excursions end. -/
def excReturn (loop : Nat) (d : Device) : Device :=
  let endAll (d : Device) : Device := [1, 2, 3, 4].foldl (fun d i => excEnd loop i d) d
  match loop with
  | 1 => avsReached (avsBounds d) d
  | 2 => applyBounds 2 (endAll (updWrc (fun w => { w with excs := [] }) d))
  | 4 => endAll (updRdc (fun r => { r with taps := clampTaps d }) d)
  | 5 =>
    let v := BitVec.ofNat 32 (min 0xFFFFFFFF (d.now - d.hif.lastPoll))
    let d := endAll (excReach 5 4 v d)
    updHif (fun h => { h with pollSeal := false, pollNow := true, interval := (pollBounds d).1 }) d
  | 7 => applyBounds 7 (endAll d)
  | _ => endAll d

/-- EXCURSION_RETURN (R48); polling resumes at the lower bound (R305). -/
def execExcursionReturn (loop : Nat) (s : State) : Host.Outcome State Fault Refusal :=
  effect s fun d => onlyIf (1 ≤ loop && loop ≤ 7 && onExcursion d loop && excSafe d loop) (excReturn loop) d

/-! ### The pacing fault (R56, R57) and the PCIe reference (R31) -/

/-- A pacing fault is declared: the backup keeps time, source 20; medium commands end, the laser drops to read power, the drive parks,
and Dust Sheet is asked for unless the FX880 is in Primer; where Dust Sheet is not to be entered, the park step of a seal runs at once
(R56, R57, Table 17-4). -/
def pacingFault (d : Device) : Device :=
  let d := raise 20 { d with pacing := { d.pacing with fault := true, backup := true } }
  let d := parkStep (failMedium (laserToRead (refreshInhibit d)))
  if !d.gen.chosen || d.gen.mode = .primer then d
  else if d.gen.mode = .dustSheet then d
  else beginDust none 10 d

/-- CRYSTAL_EDGE_TIMEOUT (R56). -/
def execCrystalEdgeTimeout (s : State) : Host.Outcome State Fault Refusal :=
  effect s fun d => onlyIf (!d.pacing.fault) pacingFault d

/-- COUNT_WINDOW_END (R56): more than 1 % from 25,000. -/
def execCountWindowEnd (periods : Nat) (s : State) : Host.Outcome State Fault Refusal :=
  effect s fun d => onlyIf (!d.pacing.fault && (periods < 24750 || 25250 < periods)) pacingFault d

/-- REFCLK_RETURN (R31). -/
def execRefclkReturn (s : State) : Host.Outcome State Fault Refusal :=
  effect s fun d => { d with pacing := { d.pacing with refclk := true } }

/-- A read of TICK_LO: the lower half is returned and the upper half latched for the requester (R34, R481). -/
def tickLoRead (who : Requester) (d : Device) : Device :=
  let lo := d.pacing.now.setWidth 32
  let hi := (d.pacing.now >>> 32).setWidth 32
  let p := match who with
    | .host => { d.pacing with hiHost := hi }
    | .seq => { d.pacing with hiSeq := hi }
    | .mgmt => { d.pacing with hiMgmt := hi }
  { d with pacing := p, bus := { d.bus with readData := lo } }

/-- TICK_LO_READ (R34, R481). -/
def execTickLoRead (who : Requester) (s : State) : Host.Outcome State Fault Refusal := effect s (onBus who (tickLoRead who))

end Sys2Proof.Machine
end

