-- ==== Sys2Proof/Machine/Power.lean ====
section
/-!
DEFINITION. Power states (R341 to R346): when the FX880 is idle, how it goes deeper, and how it comes back to PS0. An entry is complete
when it begins to show; an exit shows as a transition until POWER_STATE_EXIT_DONE.
-/

namespace Sys2Proof.Machine

/-- The FX880's own medium work is due or under way (R342). -/
def ownWork (d : Device) : Bool :=
  !d.wrc.clusters.isEmpty || !d.rdc.clusters.isEmpty || !d.rdc.refreshQueue.isEmpty || d.wrc.opcRun.isSome || anyPending d
    || d.rcl.rings.any (fun p => p.2.assembly.isSome || !p.2.waiting.isEmpty || p.2.naming) || d.lath.link = .catchup

/-- The FX880 is idle (R342). -/
def isIdle (d : Device) : Bool :=
  !d.hif.cmds.any needsMedium && d.lath.exchanges.isEmpty && d.lath.openXids.isEmpty && !ownWork d

/-- The drive starts: the spindle spins up with the automatic HOME alongside, and the layer last used is acquired (R75, Table 12-12). -/
def startDrive (d : Device) : Device :=
  let d := if d.motion.st = .unhomed || (d.motion.st = .idle && d.motion.needHome) then startHome .nothing d else d
  startAcquisition (d.servo.targetLayer.getD d.servo.lastLayer) (updGen (fun g => { g with parked := false }) d)

/-- The FX880 leaves PS1 to PS3 for PS0: the core rail leaves retention and the drive starts (R343, R344). -/
def wakePower (d : Device) : Device :=
  if d.hif.ps = 0 || d.hif.transition then d
  else
    let d := leaveRetention d
    startDrive (clampPoll (updHif (fun h => { h with transition := true }) d))

/-- The FX880 is in PS0 and able to use the medium. -/
def inPs0 (d : Device) : Bool := d.hif.ps = 0 && !d.hif.transition

/-- The exit ends with the first header read: the layer is confirmed, PS0, source 15, and idle time restarts (R75, R342, R343). -/
def exitDone (d : Device) : Device :=
  let d := match d.servo.targetLayer with | some l => layerConfirmed l d | none => d
  raise 15 (clampPoll (updHif (fun h => { h with ps := 0, transition := false, idleSince := d.now }) d))

/-- No script runs but one that has only the first header to read (Table 03-6). -/
def scriptReady (d : Device) : Bool := match d.servo.script with | some x => x.step = .header | none => true

/-- POWER_STATE_EXIT_DONE (R344): the loops have been acquired. -/
def execPowerStateExitDone (s : State) : Host.Outcome State Fault Refusal :=
  effect s fun d => onlyIf (d.hif.transition && scriptReady d) exitDone d

/-- PS_IDLEn in ticks (Table 11-7). -/
def psTimer (d : Device) (n : Nat) : Nat :=
  match n with
  | 1 => d.regF 0x101C 15 0 * ticksPerMs
  | 2 => d.regF 0x1020 15 0 * ticksPerS
  | _ => d.regF 0x1024 15 0 * ticksPerS

/-- Idle time at which PSn is entered: the larger of its timer and every shallower one (R342). -/
def psDue (d : Device) (n : Nat) : Nat := ((List.range n).map fun k => psTimer d (k + 1)).foldl max 0

/-- The idle timer of the next deeper state has run out (R342). -/
def idleExpired (d : Device) : Bool :=
  (d.gen.mode = .topcoat || d.gen.mode = .undercoat) && d.hif.ps < 3 && !d.hif.transition && d.hif.ps < d.regF 0x1018 1 0
    && isIdle d && d.hif.idleSince + psDue d (d.hif.ps + 1) ≤ d.now

/-- PSn is entered: PS1 turns the laser off and opens focus, tracking and centering; PS2 stops and brakes the spindle and ends
gearing, so that the sled stands at HOLD_I; PS3 parks, with the phase current off (R103, Tables 03-8, 12-11). -/
def enterPs (n : Nat) (d : Device) : Device :=
  let d := match n with
    | 1 =>
      let d := openLoop 3 (openLoop 1 (openLoop 0 (laserOff d)))
      { d with servo := { d.servo with layer := none, targetLayer := none, script := none } }
    | 2 =>
      let d := brakeDrive d
      if d.motion.st = .geared then disengage d else d
    | _ => updGen (fun g => { g with parked := true }) (parkDrive d)
  raise 15 (clampPoll (updHif (fun h => { h with ps := n }) d))

/-- IDLE_TIMER_EXPIRY (R342). -/
def execIdleTimerExpiry (s : State) : Host.Outcome State Fault Refusal :=
  effect s fun d => onlyIf (idleExpired d) (enterPs (d.hif.ps + 1)) d

end Sys2Proof.Machine
end

