-- ==== Sys2Proof/Machine/Search.lean ====
section
/-!
DEFINITION. Finding a record that the index of record groups does not hold (R186): by the opening ring checkpoints of the zones, the ring
checkpoints of the zone, and the cluster maps of the span, each read from the medium.
-/

namespace Sys2Proof.Machine

/-! ### What the index knows -/

/-- The committed group that holds a sequence of a stream. -/
def groupAt (d : Device) (stream seq : Nat) : Option Group :=
  d.rcl.groups.find? fun g => g.stream = stream && g.first ≤ seq && seq < g.first + g.count && g.st = .committed

/-- The group that holds a sequence of a stream, as far as this medium holds it verified. -/
def groupHeld (d : Device) (stream seq : Nat) : Option Group :=
  d.rcl.groups.find? fun g => g.stream = stream && g.first ≤ seq && seq < g.first + g.count && (g.st = .committed || g.st = .verified)

/-- The sequence lies in a group of the gap list (R285). -/
def inGap (d : Device) (s q : Nat) : Bool :=
  d.lath.gaps.any fun g => markStream g.1 = s && markSeq g.1 ≤ q && q < markSeq g.1 + g.2

/-- Where what is known of sequence `q` ends, when anything is: a group of the index, a listed gap, or a record that did not read. -/
def knownTo (d : Device) (s q : Nat) : Option Nat :=
  ((d.rcl.groups.find? fun g => g.stream = s && g.first ≤ q && q < g.first + g.count).map fun g => g.first + g.count)
    <|> ((d.lath.gaps.find? fun g => markStream g.1 = s && markSeq g.1 ≤ q && q < markSeq g.1 + g.2).map fun g => markSeq g.1 + g.2)
    <|> (if d.rcl.unread.contains (s, q) then some (q + 1) else none)

/-- The first sequence from `q` on and below `e` of which nothing is known, past `n` known runs at most. -/
def firstUnknown (d : Device) (s e : Nat) : Nat → Nat → Option Nat
  | 0, _ => none
  | n + 1, q =>
    if e ≤ q then none
    else
      match knownTo d s q with
      | some k => firstUnknown d s e n k
      | none => some q

/-- The first sequence of a stream from `q` on and below `e` that the index does not tell of. -/
def missingFrom (d : Device) (s q e : Nat) : Option Nat :=
  firstUnknown d s e (d.rcl.groups.length + d.lath.gaps.length + d.rcl.unread.length + 1) q

/-! ### Reading for a search -/

/-- Positions `a` to `b - 1` of a zone. -/
def spanOf (z : Zone) (a b : Nat) : List Loc := (List.range (b - a)).map fun i => ⟨z.layer, z.zone, a + i⟩

/-- One past the last position that a ring has written in a zone in its present pass. -/
def writtenEnd (r : Ring) (z : Zone) : Nat :=
  match r.cur with
  | some i => if (ringZone r i).layer = z.layer && (ringZone r i).zone = z.zone then min r.pos dataPositions else dataPositions
  | none => dataPositions

/-- The end of the zone that the ring entered before `z`: the records of a group that was open when the checkpoint of `z` was written lie
there (log entry 86). -/
def spanBefore (r : Ring) (z : Zone) : List Loc :=
  match (r.zones.filter fun y => y.entered != 0 && y.entered < z.entered).foldl (fun (b : Option Zone) y =>
    match b with
    | none => some y
    | some x => if x.entered < y.entered then some y else some x) none with
  | some y => spanOf y (dataPositions - 128) dataPositions
  | none => []

/-- The ring that a search goes through. -/
def searchRing (d : Device) (x : Search) : Ring := d.ring (streamRec d x.stream).owner

/-- Its zone. -/
def searchZone (d : Device) (x : Search) : Zone :=
  ((searchRing d x).zones.find? fun z => z.layer = x.layer && z.zone = x.zone).getD
    { layer := x.layer, zone := x.zone, pass := 0, entered := 0, openHeads := [] }

/-- A search takes a new state. -/
def putSearch (x : Search) : Device → Device :=
  updRcl fun r => { r with searches := r.searches.filter (fun y => y.why != x.why) ++ [x] }

/-- Read `n` user bytes from `a` on of each cluster for a search; what it had read before is done with. -/
def searchRead (x : Search) (ls : List Loc) (a n : Nat) (d : Device) : Device :=
  let d := dropReads (· = .find x.why) (putSearch x d)
  startRead (.find x.why) (ls.map fun l => (placeNow d l, 0, a, n)) d

/-- The maps of a span are read next. -/
def toMaps (ls : List Loc) (x : Search) (d : Device) : Device := searchRead { x with step := .maps ls } ls 0 (mapLength 64) d

/-- The ring checkpoint at or after position `pos` is looked for next; at the end of what the ring has written the span ends. -/
def toProbe (last pos : Nat) (x : Search) (d : Device) : Device :=
  let z := searchZone d x
  let e := writtenEnd (searchRing d x) z
  if e ≤ pos then toMaps (spanOf z last e) x d
  else searchRead { x with step := .probe last pos } [⟨z.layer, z.zone, pos⟩] (128 * x.stream) 128 d

/-- The cluster at `l` is read whole next. -/
def toBody (l : Loc) (x : Search) (d : Device) : Device := searchRead { x with step := .body l } [l] 0 65536 d

/-- A search begins in the zone whose opening ring checkpoint shows a HEAD at or below the record and whose successor shows one above it
(R186). -/
def startSearch (why : SearchFor) (s q : Nat) (d : Device) : Device :=
  if d.rcl.searches.any fun x => x.why = why then d
  else
    let r := d.ring (streamRec d s).owner
    let x (l z : Nat) (before : List Loc) (step : SearchStep) : Search :=
      { why := why, stream := s, seq := q, layer := l, zone := z, earlier := before, step := step, read := [], short := false, strict := false }
    match r.zones.find? fun z => z.entered != 0 && sget (fun _ => 0) z.openHeads s ≤ q && q < zoneEnd d r z s with
    | none => putSearch (x 0 0 [] (.maps [])) d
    | some z =>
      let a := zoneStart z.zone
      wakePower (toProbe a (a + 64) (x z.layer z.zone (spanBefore r z) (.maps [])) d)

/-! ### Going on with what was read -/

/-- The cluster was read for the search without loss. -/
def readsWell (c : LadderCluster) : Bool := c.ended.isNone && c.bad.isEmpty

/-- TYPE and PASS of a cluster's header. -/
def headerKind (c : LadderCluster) : Option (Nat × Nat) := (clusterHeader c).map fun h => (h.type, h.pass)

/-- What did not read is noted. -/
def noteShort (cs : List LadderCluster) (x : Search) : Search :=
  { x with short := x.short || cs.any (fun c => !readsWell c), strict := x.strict || cs.any fun c => c.ended = some true }

/-- A search that comes to nothing. -/
def searchFails (x : Search) : SearchEnd := if x.short then .unreadable x.strict else .absent

/-- A ring checkpoint was read, or another cluster in its place: the span ends at the first one whose HEAD lies above the record. -/
def stepProbe (last pos : Nat) (c : LadderCluster) (x : Search) (d : Device) : Device :=
  let z := searchZone d x
  match readsWell c, headerKind c with
  | true, some (t, p) =>
    if p < z.pass then toMaps (spanOf z last pos) x d
    else if t != 1 || p != z.pass then toProbe last (pos + 1) x d
    else if x.seq < (parseStream (userBytes c (128 * x.stream) 128)).head then toMaps (spanOf z last pos) x d
    else toProbe pos (pos + 64) { x with earlier := spanOf z last pos } d
  | _, _ => toProbe last (pos + 1) x d

/-- The cluster's map has an entry of the stream at or below the record. -/
def mapHits (x : Search) (c : LadderCluster) : Bool :=
  readsWell c && ((headerKind c).map (·.1)) = some 0
    && (mapEntries (userBytes c 0 (mapLength 64))).any fun e => e.1 = x.stream && e.2.1 ≤ x.seq

/-- The maps of the span were read: the record begins in the last cluster whose map comes before it; where none does, the span before is
searched. -/
def stepMaps (ls : List Loc) (cs : List LadderCluster) (x : Search) (d : Device) : Option SearchEnd × Device :=
  let x := noteShort cs x
  match (ls.filter fun l => cs.any fun c => c.loc = placeNow d l && mapHits x c).getLast? with
  | some l => (none, toBody l x d)
  | none => if x.earlier.isEmpty then (some (searchFails x), d) else (none, toMaps x.earlier { x with earlier := [] } d)

/-- The position at which the ring goes on after `l`. -/
def nextPlace (r : Ring) (z : Zone) (l : Loc) : Option Loc :=
  if l.pos + 1 < writtenEnd r z then some { l with pos := l.pos + 1 }
  else (followZone r z).map fun y => ⟨y.layer, y.zone, zoneStart y.zone⟩

/-- The chain value in the link of the sector in which a group ends, when no later group ends there (R184). -/
def linkFor (read : List (Loc × Option (List Byte) × List (BitVec 128))) (gs : List FoundGroup) (g : FoundGroup) : Option (BitVec 128) :=
  let last (g : FoundGroup) : Option (Loc × Nat) := g.pieces.getLast?.bind fun p => p.loc.map fun l => (l, p.off + p.len - 1)
  match last g with
  | none => none
  | some (l, e) =>
    if !g.whole || gs.any (fun x => (last x).any fun y => y.1 = l && y.2 / 4096 = e / 4096 && e < y.2) then none
    else (read.find? fun y => y.1 = l).map fun y => y.2.2.getD (e / 4096) 0

/-- The committed groups that a search has read enter the index. -/
def indexFound (read : List (Loc × Option (List Byte) × List (BitVec 128))) (gs : List FoundGroup) (d : Device) : Device :=
  gs.foldl (fun d g =>
    if g.recs.isEmpty || (streamRec d g.stream).head < g.first + g.recs.length || (groupHeld d g.stream g.first).isSome then d
    else (indexGroup (streamRec d g.stream).owner g .committed (linkFor read gs g) d).2) d

/-- A cluster from the one where the record begins was read: the record's group is whole, or goes on in the next one. -/
def stepBody (l : Loc) (c : LadderCluster) (x : Search) (d : Device) : Option SearchEnd × Device :=
  let x := noteShort [c] x
  let links := (List.range 16).map fun i => (BitVec.ofNat 128 (beNat (slice 4096 16 (sectorPlain d (sectorAt c i)))) : BitVec 128)
  let ckpt : Bool := readsWell c && (headerKind c).map (·.1) = some 1
  let user := if readsWell c && (headerKind c).map (·.1) = some 0 then some (userBytes c 0 65536) else none
  let read := if ckpt then x.read else x.read ++ [(placeNow d l, user, links)]
  let (gs, carry) := groupsIn (read.map fun y => (y.1, y.2.1)) [] none
  let mine := gs.find? fun g => g.stream = x.stream && g.recs.any fun r => r.seq = x.seq
  let more : Bool := (ckpt || user.isSome) && read.length < 18 && (carry.isSome || !(gs.getLast?.all (·.whole)))
  match mine, if more && !(mine.any (·.whole)) then nextPlace (searchRing d x) (searchZone d x) l else none with
  | _, some n => (none, toBody n { x with read := read, layer := n.layer, zone := n.zone } d)
  | some _, none => (some .found, indexFound read gs d)
  | none, none => (some (searchFails x), d)

/-- A search goes on, once what it reads has been read: it may end. -/
def stepSearch (x : Search) (d : Device) : Option SearchEnd × Device :=
  let cs := readOf d (.find x.why)
  match x.step, cs with
  | .probe last pos, c :: _ => (none, stepProbe last pos c x d)
  | .maps ls, _ => stepMaps ls cs x d
  | .body l, c :: _ => stepBody l c x d
  | _, [] => (some (searchFails x), d)

/-- A search is over, or given up. -/
def dropSearch (why : SearchFor) (d : Device) : Device :=
  dropReads (· = .find why) (updRcl (fun r => { r with searches := r.searches.filter fun y => y.why != why }) d)

/-- A record that is nowhere on the medium is void (R183, R186). -/
def noteAbsent (s q : Nat) (d : Device) : Device :=
  let (id, d) := addGroup s (streamRec d s).owner q [{ seq := q, off := 0, len := 0 }] [] .recovered d
  updGroup id (fun g => { g with st := .void }) d

end Sys2Proof.Machine
end

