-- ==== Sys2Proof/Machine/Twin.lean ====
section
/-!
DEFINITION. The pair (10_twin_link.md): who may append, liveness, attach and reconciliation, forks, catch-up with its gap list, mirrored
appends as the follower and the leader see them, and planned detach.
-/

namespace Sys2Proof.Machine

/-! ### Who may append (R272, R273, R283) -/

/-- The peer's attach block shows the same pair (R268, R278). -/
def samePair (d : Device) : Bool :=
  match d.lath.peer with
  | some b => b.paired && isPaired d && b.fingerprint = ((d.cry.pairKey.map fingerprintOf).getD 0)
  | none => false

/-- The two hold unrelated stores: attach was refused, and not for the straps alone (R273). -/
def unrelated (d : Device) : Bool := d.lath.refused && !samePair d

/-- The TWIN_ID that the home rule uses: with equal straps the lower serial counts as 0 (R273). Once the conflict has been seen it does so
with the Lath down too (DESIGN CHOICE, log entry 99). -/
def homeId (d : Device) : Nat :=
  match d.lath.peer with
  | some b => if d.lath.strapConflict then (if Config.deviceSerial.toNat < b.serial.toNat then 0 else 1) else twinId d
  | none => twinId d

/-- This twin is the stream's home twin (R272). -/
def isHome (d : Device) (s : Nat) : Bool := (streamRec d s).home = homeId d

/-- How stream `s` stands in reconciliation. -/
def syncOf (d : Device) (s : Nat) : StreamSync := sget (fun _ => .unknown) d.lath.streams s

/-- The pair compares its streams and catches up: the comparison of R280 has begun. -/
def comparing (d : Device) : Bool := d.lath.link = .reconciling || d.lath.link = .catchup

/-- The peer holds all that this twin has committed to stream `s`: the stream is in step again (R280, R283). -/
def peerHasAll (d : Device) (s : Nat) : Bool := (streamRec d s).head ≤ sget (fun _ => 0) d.lath.peerHeads s

/-- A twin appends to stream `s` while the pair attaches, reconciles and catches up (R283): on a stream in step its home twin, on any other
the twin that is not behind; before the comparison of R280 has been made it goes by the home rule while attaching, and not at all while
reconciling (log entry 24). -/
def mayDuringAttach (d : Device) (s : Nat) : Bool :=
  if d.lath.renumber.any (fun r => r.stream = s) then false
  else if !comparing d then isHome d s
  else
    match syncOf d s with
    | .unknown => false
    | .behind => false
    | .inStep => isHome d s
    | .ahead => isHome d s || !peerHasAll d s
    | .forked => isHome d s || !peerHasAll d s

/-- This twin may append to stream `s` (Table 10-4). -/
def mayAppend (d : Device) (s : Nat) : Bool :=
  if d.gen.mode = .primer then
    if unrelated d then true
    else if !d.lath.live then !d.lath.peerHealthy || isHome d s
    else d.lath.peerMode = some .primer && isHome d s
  else if inTopcoat d then true
  else if unrelated d then true
  else if !d.lath.live then !d.lath.peerHealthy || isHome d s
  else if !d.lath.peerHealthy then true
  else if d.lath.peerMode = some .primer || d.lath.peerMode = some .dustSheet then true
  else if d.lath.refused then isHome d s
  else mayDuringAttach d s

/-! ### Reading a run of a group's bytes -/

/-- The parts that hold bytes [a, a + n) of a group, laid from data offset `o` onward. -/
def groupParts (g : Group) (a n o : Nat) : List (Loc × Nat × Nat × Nat) :=
  g.pieces.filterMap fun p =>
    let s := max a p.start
    let e := min (a + n) (p.start + p.len)
    match p.loc with
    | some l => if s < e then some (l, o + (s - a), p.off + (s - p.start), e - s) else none
    | none => none

/-! ### The backlog and the end of catch-up (R282, R284) -/

/-- The next group of stream `s` that the peer lacks (R282). -/
def nextCatch (d : Device) (s : Nat) : Option Group :=
  let from_ := max (sget (fun _ => 0) d.lath.peerHeads s) (streamRec d s).tail
  (d.rcl.groups.filter fun g => g.stream = s && g.st = .committed && from_ ≤ g.first && !d.lath.peerGaps.contains (groupMark g)).foldl
    (fun b g => match b with | none => some g | some x => if g.first < x.first then some g else some x) none

/-- A sequence that the peer lacks, before the next group known, of which the index does not tell yet (R186, R282). -/
def catchUnknown (d : Device) (s : Nat) : Option Nat :=
  let from_ := max (sget (fun _ => 0) d.lath.peerHeads s) (streamRec d s).tail
  missingFrom d s from_ (min (streamRec d s).head (((nextCatch d s).map (·.first)).getD (streamRec d s).head))

/-- Streams that this twin sends in catch-up: those in step, ahead, or forked. -/
def sendsStream (d : Device) (s : Nat) : Bool :=
  match syncOf d s with
  | .inStep => true
  | .ahead => true
  | .forked => true
  | _ => false

/-- A group of stream `s` is being read for the peer, or crosses. -/
def catchBusy (d : Device) (s : Nat) : Bool :=
  d.rdc.clusters.any (fun c => match c.purpose with | .catchUp m => m / 2 ^ 55 = s | _ => false)
    || d.lath.openXids.any fun p => match d.group p.2 with | some g => g.stream = s | none => false

/-- Every group of this twin's that the peer lacks has crossed, and nothing of its own is still being written. -/
def ownDone (d : Device) : Bool :=
  ((List.range 512).all fun s => !sendsStream d s || ((nextCatch d s).isNone && (catchUnknown d s).isNone)) && d.lath.openXids.isEmpty && d.lath.bootQueue.isNone
    && d.lath.renumber.isEmpty && !d.rcl.groups.any (fun g => g.st = .open && g.stream < bootStream)
    && !d.rdc.clusters.any fun c => match c.purpose with | .catchUp _ => true | _ => false

/-- Everything that the peer showed has arrived here, but for what the gap list holds. -/
def peerDone (d : Device) : Bool :=
  (List.range 512).all fun s =>
    syncOf d s != .behind || (sget (fun _ => ({} : StreamRec)) d.lath.peerRecs s).head ≤ (streamRec d s).head

/-- Clusters of this twin's groups that have still to cross. -/
def ownBacklog (d : Device) : Nat :=
  ((d.rcl.groups.filter fun g => g.stream < bootStream && g.st = .committed && sendsStream d g.stream
      && sget (fun _ => 0) d.lath.peerHeads g.stream ≤ g.first && !d.lath.peerGaps.contains (groupMark g)).flatMap fun g =>
    g.pieces.filterMap (·.loc)).foldl (fun (l : List Loc) x => if l.contains x then l else l ++ [x]) [] |>.length

/-- BACKLOG: what this twin has still to send, and, while anything is still to come, a number of clusters that no message tells (log
entry 25). -/
def noteBacklog (d : Device) : Device :=
  let n := ownBacklog d
  if peerDone d then updLath (fun l => { l with backlog := n }) d
  else
    let w := (freeDraw d).toNat
    updLath (fun l => { l with backlog := n + 1 + w }) (drawn d)

/-- Every table line held goes to the table store and to I (R284). -/
def storeTables (d : Device) : Device :=
  let d := (List.range 16).foldl (fun d k =>
    match findLine d (isTable k) with
    | some l => storeTable k l.recs l.poison d
    | none => d) d
  dropLines (fun l => l.table) d

/-- Both twins are done: Topcoat (R284, R458). -/
def tryTopcoat (d : Device) : Device :=
  if d.lath.sentTopcoat && d.lath.seenTopcoat && d.gen.mode = .undercoat && d.lath.peerHealthy then
    setMode .topcoat (updLath (fun l => { l with
      link := .mirroring, admissionHold := false, sentTopcoat := false, seenTopcoat := false, backlog := 0 }) d)
  else d

/-- Catch-up is complete on this twin's side: the table lines are stored, and the peer hears MODE_NOTE 0 (R284). -/
def catchComplete (d : Device) : Device :=
  let d := sendMsg (.modeNote .topcoat false) (storeTables (raise 135 d))
  tryTopcoat (updLath (fun l => { l with sentTopcoat := true, admissionHold := true }) d)

/-- After a step of catch-up: BACKLOG, the admission hold, and the end (R284, R285). -/
def catchProgress (d : Device) : Device :=
  if d.lath.link != .catchup || d.lath.sentTopcoat then d
  else
    let d := noteBacklog d
    let hold := d.lath.backlog ≤ d.regF 0xE004 7 0 && d.lath.gaps.length < 1024
    let d := if hold then updLath (fun l => { l with admissionHold := true }) d else d
    if ownDone d && peerDone d && d.lath.peerHealthy && d.pwr.sealStep = 0 then catchComplete d else d

/-! ### Sending what the peer lacks (R282) -/

/-- Begin to read a group for catch-up. -/
def startCatch (g : Group) (d : Device) : Device := startRead (.catchUp (groupMark g)) (groupParts g 0 g.bytes.length 0) d

/-- The next part of the boot area goes to the peer; after the last part, the activation record (R282). -/
def pumpBootCatch (d : Device) : Device :=
  match d.lath.bootQueue with
  | none => d
  | some [] =>
    match freeXid d with
    | none => d
    | some x =>
      let (id, d) := addGroup activationStream 0 0 [] (activationBytes (activationNow d)) .recovered d
      match d.group id with
      | some g => updLath (fun l => { l with bootQueue := none }) (sendGroup x true (freeDraw d).toNat g g.bytes 0 (drawn d))
      | none => d
  | some ((slot, part) :: _) =>
    if catchBusy d bootStream then d
    else
      let n := min 1048576 ((bootSlot d slot).length - 1048576 * part)
      let ps := (List.range ((n + 65535) / 65536)).map fun i =>
        ({ start := 65536 * i, off := 0, len := min 65536 (n - 65536 * i), cluster := 0,
           loc := some (areaLoc (4096 * slot + 16 * part + i)) } : Piece)
      let (id, d) := addGroup bootStream 0 (4096 * slot + part) [] [] .recovered d
      let d := updGroup id (fun g => { g with st := .committed, pieces := ps, bytes := List.replicate n 0 }) d
      match d.group id with
      | some g => startCatch g d
      | none => d

/-- A stream on which this twin was behind is in step once its HEAD has reached the peer's (R280, R283; log entry 24). -/
def stepIn (s : Nat) (d : Device) : Device :=
  let h := (streamRec d s).head
  if syncOf d s = .behind && (sget (fun _ => ({} : StreamRec)) d.lath.peerRecs s).head ≤ h then
    updLath (fun l => { l with
      streams := sset (fun _ => .unknown) s .inStep l.streams, peerHeads := supd (fun _ => 0) s (max h) l.peerHeads }) d
  else d

/-- Catch-up goes on: each stream's next group is read and crosses in turn (R282). -/
def pumpCatch (d : Device) : Device :=
  if d.lath.link != .catchup || d.gen.mode != .undercoat then d
  else
    let d := (List.range 512).foldl (fun d s =>
      let d := stepIn s d
      if sendsStream d s && !catchBusy d s then
        match catchUnknown d s, nextCatch d s with
        | some q, _ => startSearch (.catchUp s) s q d
        | none, some g => startCatch g d
        | none, none => d
      else d) d
    catchProgress (pumpBootCatch d)

/-! ### Reconciliation (R279 to R281) -/

/-- The peer's record of stream `s`. -/
def peerRec (d : Device) (s : Nat) : StreamRec := sget (fun _ => {}) d.lath.peerRecs s

/-- Stream `s` stands so. -/
def putSync (s : Nat) (x : StreamSync) : Device → Device :=
  updLath fun l => { l with streams := sset (fun _ => .unknown) s x l.streams }

/-- The chain value at the end of a group of this twin's, or at its HEAD: a value that the index does not hold is drawn free. -/
def chainAt (d : Device) (s seq : Nat) : BitVec 128 × Device :=
  if (streamRec d s).head = seq then ((streamRec d s).chain, d)
  else
    match d.rcl.groups.find? fun g => g.stream = s && g.st = .committed && g.first + g.count = seq with
    | some g => (g.chain, d)
    | none =>
      (freeWide d, drawnWide d)

/-- Ask the peer for the chain value at a sequence (R280). -/
def askChain (s seq : Nat) (why : ChainAsk) (d : Device) : Device :=
  sendMsg (.chainReq (markOf s seq)) (updLath (fun l => { l with chainAsked := l.chainAsked ++ [(markOf s seq, why)] }) d)

/-- The record that a twin takes over from the ahead twin: its HEAD, CHAIN and what it has issued stay its own; where the peer's TAIL lies
beyond its HEAD it begins at that TAIL (R280, R282; log entry 26). -/
def takeOver (mine theirs : StreamRec) : StreamRec :=
  if mine.head < theirs.tail then { theirs with head := theirs.tail, issued := max mine.issued theirs.tail }
  else { theirs with head := mine.head, tail := max mine.tail (min theirs.tail mine.head), chain := mine.chain, issued := mine.issued }

/-- This twin is behind on stream `s`. -/
def setBehind (s : Nat) (d : Device) : Device :=
  let mine := streamRec d s
  let theirs := peerRec d s
  let d := runTask (.put s (takeOver mine theirs)) (putSync s .behind d)
  if mine.head < theirs.tail then askChain s theirs.tail .adopt d else d

/-- This twin is ahead on stream `s`. -/
def setAhead (s : Nat) (d : Device) : Device :=
  let h := (peerRec d s).head
  putSync s .ahead (updLath (fun l => { l with peerHeads := sset (fun _ => 0) s h l.peerHeads }) d)

/-- Both HEADs are equal and the chains agree: in step. A record that is FREE here takes the peer's, and two that differ follow the home
twin's (log entry 26). -/
def setInStep (s : Nat) (d : Device) : Device :=
  let mine := streamRec d s
  let theirs := peerRec d s
  let d := putSync s .inStep (updLath (fun l => { l with peerHeads := sset (fun _ => 0) s mine.head l.peerHeads }) d)
  if mine.st = .free && theirs.st != .free then runTask (.put s theirs) d
  else if theirs.st != .free && theirs.st != mine.st && theirs.home != homeId d then runTask (.put s theirs) d
  else d

/-- Boundaries of this twin's committed groups of a stream strictly between two sequences, rising. -/
def boundaries (d : Device) (s lo hi : Nat) : List Nat :=
  ((d.rcl.groups.filter fun g => g.stream = s && g.st = .committed).map fun g => g.first + g.count).filter (fun b => lo < b && b < hi)
    |>.mergeSort (· ≤ ·)

/-- The groups of a stream from a sequence onward, in order. -/
def groupsFrom (d : Device) (s c : Nat) : List Group :=
  (d.rcl.groups.filter fun g => g.stream = s && g.st = .committed && c ≤ g.first).mergeSort (fun a b => a.first ≤ b.first)

/-- The divergence point of stream `s` is `c`: it becomes FORKED (R281). -/
def setFork (s c : Nat) (d : Device) : Device :=
  let mine := streamRec d s
  let theirs := peerRec d s
  let zero := twinId d = 0
  let h0 := if zero then mine.head else theirs.head
  let h1 := if zero then theirs.head else mine.head
  let gs := groupsFrom d s c
  let (chainC, d) := chainAt d s c
  let r : StreamRec := { mine with st := .forked, forkSeq := h0 }
  let r := if zero then r else { r with head := c, chain := chainC, issued := max mine.issued h0 }
  let d := updLath (fun l => { l with
    renumber := l.renumber ++ [{ stream := s, start := h0, finish := h0 + (h1 - c), groups := if zero then [] else gs }],
    peerHeads := sset (fun _ => 0) s (if zero then c else h0) l.peerHeads }) d
  let d := updRcl (fun x => { x with
    forks := x.forks.filter (fun f => f.1 != s) ++ [(s, c, h1, h0)]
    groups := if zero then x.groups else x.groups.filter fun g => !(g.stream = s && g.st = .committed && c ≤ g.first) }) d
  raise 136 (count 0xE034 (runTask (.put s r) (putSync s .forked d)))

/-- The binary search between two sequences: the chains agree at `lo` and differ at `hi` (R281). The groups of this twin's own from `lo` on
are looked up first, as far as the index does not tell of them. -/
def forkSearch (s lo hi : Nat) (d : Device) : Device :=
  match missingFrom d s lo (streamRec d s).head with
  | some q => startSearch (.fork s lo hi) s q d
  | none =>
    let bs := boundaries d s lo hi
    match bs[bs.length / 2]? with
    | some m => askChain s m (.search lo hi) d
    | none => setFork s lo d

/-- Compare the two records of stream `s` (R280). -/
def compareStream (s : Nat) (d : Device) : Device :=
  let mine := streamRec d s
  let theirs := peerRec d s
  if mine.st = .free && theirs.st = .free && mine.head = theirs.head then putSync s .inStep d
  else if theirs.head < mine.head then
    if theirs.head ≤ mine.tail then setAhead s d else askChain s theirs.head .compare d
  else if mine.head < theirs.head then
    if mine.head ≤ theirs.tail then setBehind s d else askChain s mine.head .compare d
  else if mine.chain = theirs.chain || mine.st = .free || theirs.st = .free then setInStep s d
  else forkSearch s (max mine.tail theirs.tail) mine.head d

/-- Every stream has been compared: catch-up starts (R282), source 134. The twin whose activation record is the newer sends the boot area;
no message tells the peer's GENERATION, so which twin that is, is drawn free (log entry 27). -/
def reconciled (d : Device) : Device :=
  if d.lath.link = .reconciling && d.lath.tablesSeen.length = 16 && (List.range 512).all (fun s => syncOf d s != .unknown) then
    let slots := (List.range 32).filter fun k => (bootSlot d k).st != 0
    let parts := slots.flatMap fun k => (List.range (((bootSlot d k).length + 1048575) / 1048576)).map fun i => (k, i)
    let mine := (freeDraw d).getLsbD 0
    let d := updLath (fun l => { l with
      link := .catchup, bootQueue := if mine && (d.rcl.actA.isSome || d.rcl.actB.isSome) then some parts else none }) (drawn d)
    pumpCatch (raise 134 d)
  else d

/-- TABLE_XFER: the peer's records of one table line; after the sixteenth the streams are compared (R279, R280). -/
def takeTable (k : Nat) (recs : TableRecs) (d : Device) : Device :=
  if d.lath.link != .reconciling || 16 ≤ k || d.lath.tablesSeen.contains k then d
  else
    let d := updLath (fun l => { l with
      tablesSeen := l.tablesSeen ++ [k]
      peerRecs := (List.range 32).foldl (fun m i => sset (fun _ => {}) (32 * k + i) (sget (fun _ => {}) recs i) m) l.peerRecs }) d
    if d.lath.tablesSeen.length = 16 then
      reconciled ((List.range 512).foldl (fun d s => compareStream s d) d)
    else d

/-- TABLE_XFER received (R279). -/
def execTableXfer (cr : Credits) (k : Nat) (recs : TableRecs) (poison : BitVec 32) (s : State) : Host.Outcome State Fault Refusal :=
  effect s (receive cr (.tableXfer k recs poison) (takeTable k recs))

/-- CHAIN_REQ: answered with the chain value at that sequence; the twin that is asked about its own HEAD asks in turn, so that both sides
compare (R280; log entry 28). -/
def answerChain (mark : Nat) (d : Device) : Device :=
  let s := markStream mark
  let (h, d) := chainAt d s (markSeq mark)
  sendMsg (.chainVal mark h) d

/-- The sequence whose group must be found before this twin can tell its chain value at `seq` (R184, R280). -/
def chainUnknown (d : Device) (s seq : Nat) : Option Nat :=
  if (streamRec d s).head ≤ seq || seq ≤ (streamRec d s).tail then none else missingFrom d s (seq - 1) seq

/-- CHAIN_REQ is answered, once the group that ends there is known. -/
def takeChainReq (mark : Nat) (d : Device) : Device :=
  match chainUnknown d (markStream mark) (markSeq mark) with
  | some q => startSearch (.chainReq mark) (markStream mark) q d
  | none => answerChain mark d

/-- CHAIN_REQ received (R280). -/
def execChainReq (cr : Credits) (mark : Nat) (s : State) : Host.Outcome State Fault Refusal :=
  effect s (receive cr (.chainReq mark) (takeChainReq mark))

/-- The peer's chain value decides what was asked for (R280, R281). -/
def useChain (mark : Nat) (h : BitVec 128) (d : Device) : Device :=
  match d.lath.chainAsked.find? fun p => p.1 = mark with
  | none => d
  | some (_, why) =>
    let s := markStream mark
    let seq := markSeq mark
    let d := updLath (fun l => { l with chainAsked := l.chainAsked.eraseP fun p => p.1 = mark }) d
    match why with
    | .adopt =>
      let d := runTask (.put s { streamRec d s with head := max (streamRec d s).head seq, chain := h }) d
      catchProgress (settleGroups (rechain s d))
    | .compare =>
      let (mine, d) := chainAt d s seq
      if mine = h then reconciled (if (peerRec d s).head = seq then setAhead s d else setBehind s d)
      else reconciled (forkSearch s (max (streamRec d s).tail (peerRec d s).tail) seq d)
    | .search lo hi =>
      let (mine, d) := chainAt d s seq
      reconciled (if mine = h then forkSearch s seq hi d else forkSearch s lo seq d)

/-- CHAIN_VAL: compared once this twin's own value at that sequence can be told. -/
def takeChain (mark : Nat) (h : BitVec 128) (d : Device) : Device :=
  match if d.lath.chainAsked.any fun p => p.1 = mark && p.2 != .adopt then chainUnknown d (markStream mark) (markSeq mark) else none with
  | some q => startSearch (.chainVal mark h) (markStream mark) q d
  | none => useChain mark h d

/-- CHAIN_VAL received (R281). -/
def execChainVal (cr : Credits) (mark : Nat) (h : BitVec 128) (s : State) : Host.Outcome State Fault Refusal :=
  effect s (receive cr (.chainVal mark h) (takeChain mark h))

/-! ### Renumbering (R281) -/

/-- One group is written anew with its records renumbered from `first`, FORK set. -/
def renumberGroup (s first : Nat) (g : Group) (d : Device) : Nat × Device :=
  let bs := wireBytes g
  let rs := (groupRecords bs).getD []
  let (recs, bytes) := groupBytes bs rs s first true
  let (id, d) := addGroup s g.owner first recs bytes .recovered d
  (first + recs.length, placeGroup g.owner id d)

/-- Renumberings that can go on or that are complete. -/
def pumpRenumber (d : Device) : Device :=
  d.lath.renumber.foldl (fun d r =>
    let h := (streamRec d r.stream).head
    let put (x : Option Renumber) (d : Device) : Device :=
      updLath (fun l => { l with renumber := l.renumber.flatMap fun y => if y.stream = r.stream then x.toList else [y] }) d
    if r.finish ≤ h then put none d
    else if !r.groups.isEmpty && r.start ≤ h then
      let d := put (some { r with groups := [] }) d
      (r.groups.foldl (fun (a : Nat × Device) g => renumberGroup r.stream a.1 g a.2) (r.start, d)).2
    else d) d

/-! ### Attach (R15, R278, R279) -/

/-- The pair attaches: outstanding coherence requests are abandoned, the table lines cross, and what each twin missed is told (R217, R279,
R285, R515). -/
def attach (d : Device) : Device :=
  let d := raise 128 (updLath (fun l => { l with
    link := .reconciling, refused := false, strapConflict := false, pairMismatch := false, tablesSeen := [], streams := [], peerRecs := [],
    peerHeads := [], chainAsked := [], renumber := [], bootQueue := none, sentTopcoat := false, seenTopcoat := false }) d)
  let d := abandonCoherence d
  let d := (List.range 16).foldl (fun d k => sendMsg (.tableXfer k (tableOf d k) (tablePoison d k)) d) d
  askGaps (ownersAttach d)

/-- Attach is refused: equal straps, or not one pair (R15, R278). -/
def refuseAttach (b : AttachBlock) (d : Device) : Device :=
  let conflict := b.twinId = twinId d
  let d := if conflict then logLater d.now 1 138 0 (leBytes 1 (twinId d)) d else d
  raise 138 (updLath (fun l => { l with
    refused := true, strapConflict := conflict
    pairMismatch := b.fingerprint != (myBlock d).fingerprint }) d)

/-- Both HELLO_ACKs have crossed: the twins attach, or do not (R278). -/
def considerAttach (d : Device) : Device :=
  match d.lath.peer with
  | none => d
  | some b =>
    if !(d.lath.ackSent && d.lath.ackSeen) then d
    else if b.twinId = twinId d || !samePair d then refuseAttach b d
    else if d.gen.mode = .undercoat && b.mode = .undercoat && d.lath.peerHealthy && d.pwr.sealStep = 0 && !d.lath.peerSealing then attach d
    else d

/-- The peer's attach block is taken (R268): a twin that asks to attach does not seal (log entry 30). -/
def takeBlock (b : AttachBlock) : Device → Device := updLath fun l => { l with peer := some b, peerMode := some b.mode, peerSealing := false }

/-- HELLO: answered; when this twin had answered one before, a new attach begins and it sends its own (R278). -/
def takeHello (b : AttachBlock) (d : Device) : Device :=
  let d := takeBlock b d
  if d.gen.mode = .primer then d
  else
    let d := if b.mode != .topcoat then toUndercoat d else d
    let d := if d.lath.ackSent then sendHello d else d
    considerAttach (updLath (fun l => { l with ackSent := true }) (sendMsg (.helloAck (myBlock d)) d))

/-- HELLO received (R278). -/
def execHello (cr : Credits) (blk : AttachBlock) (s : State) : Host.Outcome State Fault Refusal :=
  effect s (receive cr (.hello blk) (takeHello blk))

/-- HELLO_ACK received (R278). -/
def execHelloAck (cr : Credits) (blk : AttachBlock) (s : State) : Host.Outcome State Fault Refusal :=
  effect s <| receive cr (.helloAck blk) fun d =>
    if d.gen.mode = .primer then takeBlock blk d
    else considerAttach (updLath (fun l => { l with ackSeen := true }) (takeBlock blk d))

/-- MODE_NOTE (R272, R276, R293): the peer's mode; leaving Topcoat with it, entering Topcoat with it, or attaching anew. -/
def takeMode (m : Mode) (sealing : Bool) (d : Device) : Device :=
  let d := updLath (fun l => { l with peerMode := some m, peerSealing := sealing }) d
  let d := if m = .primer || sealing then raise 141 d else d
  let d := if inTopcoat d && (m != .topcoat || sealing) && d.lath.detaching.isNone then toUndercoat d else d
  if m = .topcoat && !sealing then tryTopcoat (updLath (fun l => { l with seenTopcoat := true }) d)
  else
    let d := updLath (fun l => { l with seenTopcoat := false }) d
    if m = .undercoat && !sealing && d.gen.mode = .undercoat && d.pwr.sealStep = 0 && (d.lath.link = .down || d.lath.link = .attaching
        || d.lath.link = .detached) && !d.lath.refused then sendHello d
    else d

/-- MODE_NOTE received (R272). -/
def execModeNote (cr : Credits) (mode : Mode) (sealing : Bool) (s : State) : Host.Outcome State Fault Refusal :=
  effect s (receive cr (.modeNote mode sealing) (takeMode mode sealing))

/-! ### Liveness (R258, R269, R270) -/

/-- The Lath is down: what was queued is lost, the peer's mode is unknown, catch-up ends, and Topcoat is left (R258, R269, R276). -/
def lathLost (d : Device) : Device :=
  let d := updLath (fun l => { l with
    live := false, link := .down, queue := [], dir := .idle, arbOut := false, guard := false, creditC := 0, creditD := 0, freedC := 0,
    freedD := 0, peerMode := none, peerSealing := false, ackSent := false, ackSeen := false, admissionHold := false, sentTopcoat := false,
    seenTopcoat := false, chainAsked := [], bootQueue := none, openXids := if l.live then [] else l.openXids, exchanges := [] }) d
  let d := dropReads (fun p => match p with | .catchUp _ => true | .recov _ _ _ => true | _ => false) d
  let d := raise 129 d
  if inTopcoat d then toUndercoat d else peerGone (settleGroups (abandonCoherence d))

/-- LATH_DOWN (R269): 5 ms without an edge. -/
def execLathDown (s : State) : Host.Outcome State Fault Refusal :=
  effect s fun d => onlyIf d.lath.live (fun d => lathLost (count 0xE030 d)) d

/-- LATH_LINK_ERROR (R258): counted, source 137, the Lath is down, and toggling pauses for 10 ms. -/
def execLathLinkError (s : State) : Host.Outcome State Fault Refusal :=
  effect s fun d => onlyIf d.lath.live
    (fun d => lathLost (raise 137 (count 0xE02C (updLath (fun l => { l with pauseUntil := some (d.now + 250000) }) d)))) d

/-- ALIVE_PAUSE_END (R258). -/
def execAlivePauseEnd (s : State) : Host.Outcome State Fault Refusal :=
  effect s fun d => onlyIf (match d.lath.pauseUntil with | some t => decide (t ≤ d.now) | none => false)
    (updLath fun l => { l with pauseUntil := none }) d

/-- ALIVE_TOGGLE (R269): every 2,500 ticks, not during the pause of R258. -/
def execAliveToggle (s : State) : Host.Outcome State Fault Refusal :=
  effect s fun d => onlyIf (d.lath.pauseUntil.isNone && decide (d.lath.aliveAt + 2500 ≤ d.now))
    (fun d => updLath (fun l => { l with aliveOut := !l.aliveOut, aliveAt := d.now }) d) d

/-- The Lath is live: credits start from 32 and 8, and HELLO is sent (R264, R269, R278). -/
def lathUp (d : Device) : Device :=
  sendHello (updLath (fun l => { l with
    live := true, link := .attaching, creditC := 32, creditD := 8, freedC := 0, freedD := 0, queue := [], dir := .idle, arbOut := false,
    guard := false, refused := false, ackSent := false, ackSeen := false }) d)

/-- LATH_LIVE (R269): edges at every expected toggle for 10 ms. -/
def execLathLive (s : State) : Host.Outcome State Fault Refusal :=
  effect s fun d => onlyIf (!d.lath.live && d.lath.pauseUntil.isNone) lathUp d

/-- IN_PEER is energised (Table 15-5). -/
def inPeer (d : Device) : Bool := d.fio.levels.getLsbD 1

/-- A test pulse is seen on IN_PEER; after a gap of more than 300 ms the 1 s of R270 begins anew. -/
def notePulse (d : Device) : Device :=
  let late := decide (d.fio.lastPulse + 7500000 < d.now)
  updFio (fun f => { f with lastPulse := d.now, peerGoodSince := if late then d.now else f.peerGoodSince }) d

/-- A de-energised interval of 40 µs to 2 ms is a test pulse (R419). -/
def isPulse (low : Nat) : Bool := 1000 ≤ low && low ≤ 50000

/-- IN_PEER_PULSE (R419): IN_PEER, energised before and after, was de-energised for `low` ticks. -/
def execInPeerPulse (low : Nat) (s : State) : Host.Outcome State Fault Refusal :=
  effect s <| onlyIf (isPulse low && inPeer s.dev) notePulse

/-- IN_PEER shows the peer faulted: de-energised for 5 ms, or no test pulse for 300 ms (R270). -/
def peerLooksFaulted (d : Device) : Bool :=
  (match d.fio.peerLowSince with | some t => decide (t + 125000 ≤ d.now) | none => false) || decide (d.fio.lastPulse + 7500000 ≤ d.now)

/-- IN_PEER_FAULTED (R270): source 130; the pair leaves Topcoat (Table 17-4). -/
def execInPeerFaulted (s : State) : Host.Outcome State Fault Refusal :=
  effect s fun d => onlyIf (d.lath.peerHealthy && peerLooksFaulted d)
    (fun d => toUndercoat (raise 130 (updLath (fun l => { l with peerHealthy := false }) d))) d

/-- IN_PEER_HEALTHY (R270): energised with pulses no more than 300 ms apart for 1 s; source 131, and the twins may attach. -/
def execInPeerHealthy (s : State) : Host.Outcome State Fault Refusal :=
  effect s fun d => onlyIf (!d.lath.peerHealthy && inPeer d && !peerLooksFaulted d && decide (d.fio.peerGoodSince + ticksPerS ≤ d.now))
    (fun d =>
      let d := raise 131 (updLath (fun l => { l with peerHealthy := true }) d)
      if d.gen.mode = .undercoat then sendHello d else d) d

/-! ### Exchanges from the peer (R274, R275, R282) -/

/-- APP_BEGIN or CATCH_BEGIN: an exchange is open; it needs this twin's medium (R343, R345). -/
def openExchange (x : Exchange) (d : Device) : Device :=
  wakePower (updLath (fun l => { l with exchanges := l.exchanges.filter (fun y => y.xid != x.xid) ++ [x] }) d)

/-- APP_BEGIN received (R274): in Topcoat. -/
def execAppBegin (cr : Credits) (xid owner mark count : Nat) (s : State) : Host.Outcome State Fault Refusal :=
  effect s <| receive cr (.appBegin xid owner mark count) fun d => onlyIf (inTopcoat d)
    (openExchange { xid := xid, catching := false, owner := owner, mark := mark, units := count, received := [], poisoned := false, group := none }) d

/-- CATCH_BEGIN received (R282). -/
def execCatchBegin (cr : Credits) (xid owner mark count : Nat) (s : State) : Host.Outcome State Fault Refusal :=
  effect s <| receive cr (.catchBegin xid owner mark count) fun d => onlyIf (inTopcoat d || d.gen.mode = .undercoat)
    (openExchange { xid := xid, catching := true, owner := owner, mark := mark, units := count, received := [], poisoned := false, group := none }) d

/-- The bytes of an exchange in unit order. -/
def exchangeBytes (x : Exchange) : List Byte :=
  (List.range x.units).flatMap fun i => ((x.received.find? fun u => u.1 = i).map (·.2)).getD []

/-- The records of a group as they crossed, unchanged, one after another. -/
def wireRecords (bs : List Byte) (rs : List (Nat × Nat)) (first : Nat) : List RecInfo × List Byte :=
  ((List.range rs.length).zip rs).foldl (fun (acc : List RecInfo × List Byte) p =>
    let b := slice p.2.1 p.2.2 bs
    (acc.1 ++ [{ seq := first + p.1, off := acc.2.length, len := b.length }], acc.2 ++ b)) ([], [])

/-- A group that crossed whole is placed in a ring of this twin (R274, R282); poison withdraws it (R447), and a ring that can take nothing
more fails it (R275, R285). -/
def landGroup (x : Exchange) (rs : List (Nat × Nat)) (bs : List Byte) (d : Device) : Device :=
  let s := markStream x.mark
  let (recs, bytes) := wireRecords bs rs (markSeq x.mark)
  let (id, d) := addGroup s x.owner (markSeq x.mark) recs bytes (if x.catching then .caughtUp x.xid else .follower x.xid) d
  if x.poisoned then failGroup id stInternal (raise 185 d)
  else if !ringOpen d x.owner then failGroup id stMediumFull (raise 203 d)
  else if x.catching && (d.group id).elim false (fun g => d.rcl.groups.any fun y => y.id != id && y.stream = s && y.first = g.first
      && (y.st = .committed || y.st = .verified)) then
    match d.group id with
    | some g => groupVerified g (updGroup id (fun g => { g with st := .void }) d)
    | none => d
  else placeGroup x.owner id d

/-- The last unit of an exchange has arrived. -/
def exchangeWhole (x : Exchange) (d : Device) : Device :=
  let bs := exchangeBytes x
  let d := updLath (fun l => { l with exchanges := l.exchanges.filter fun y => y.xid != x.xid }) d
  match groupRecords bs with
  | some rs => landGroup x rs bs d
  | none => if x.catching && !x.poisoned then takeBoot x.xid bs d else landGroup x [] [] d

/-- A unit of an exchange arrives (R274, R282). -/
def takeUnit (catching : Bool) (xid unit : Nat) (bytes : List Byte) (poison : BitVec 32) (d : Device) : Device :=
  match d.lath.exchanges.find? fun x => x.xid = xid && x.catching = catching with
  | none => d
  | some x =>
    let x := { x with received := x.received.filter (fun u => u.1 != unit) ++ [(unit, bytes)], poisoned := x.poisoned || poison != 0 }
    let d := updLath (fun l => { l with exchanges := updateFirst (fun y => y.xid = xid) (fun _ => x) l.exchanges }) d
    if x.received.length = x.units then exchangeWhole x d else d

/-- APP_DATA received (R274). -/
def execAppData (cr : Credits) (xid unit : Nat) (bytes : List Byte) (poison : BitVec 32) (s : State) : Host.Outcome State Fault Refusal :=
  effect s (receive cr (.appData xid unit bytes poison) (takeUnit false xid unit bytes poison))

/-- CATCH_DATA received (R282). -/
def execCatchData (cr : Credits) (xid unit : Nat) (bytes : List Byte) (poison : BitVec 32) (s : State) : Host.Outcome State Fault Refusal :=
  effect s (receive cr (.catchData xid unit bytes poison) (takeUnit true xid unit bytes poison))

/-- The group of an exchange that this twin has open toward its peer. -/
def xidGroup (d : Device) (xid : Nat) : Option Group :=
  (d.lath.openXids.find? fun p => p.1 = xid).bind fun p => d.group p.2

/-- APP_VERIFIED: the peer's copy has passed; what waited for it completes (R22, R47, R274). -/
def takeVerified (xid mark : Nat) (ovr : Bool) (d : Device) : Device :=
  match xidGroup d xid with
  | none => d
  | some g =>
    if groupMark g != mark then d
    else
      let d := updGroup g.id (fun g => { g with peerDone := true, peerOvr := g.peerOvr || ovr }) d
      settleBoot (settleGroups (closeXid xid d))

/-- APP_VERIFIED received (R274). -/
def execAppVerified (cr : Credits) (xid mark : Nat) (ovr : Bool) (s : State) : Host.Outcome State Fault Refusal :=
  effect s (receive cr (.appVerified xid mark ovr) (takeVerified xid mark ovr))

/-- APP_FAILED: the group is void, and its command completes with the peer's status unless this twin's own write has failed (R275). -/
def takeFailed (xid mark status : Nat) (d : Device) : Device :=
  match xidGroup d xid with
  | none => d
  | some g =>
    if groupMark g != mark then d
    else
      let d := raise 142 (closeXid xid d)
      let d := if status = stMediumFull && (leaderTag g).isSome then raise 203 d else d
      match leaderTag g with
      | some t => failLeader g t status d
      | none => settleGroups (voidGroup g.id d)

/-- APP_FAILED received (R275). -/
def execAppFailed (cr : Credits) (xid mark status : Nat) (s : State) : Host.Outcome State Fault Refusal :=
  effect s (receive cr (.appFailed xid mark status) (takeFailed xid mark status))

/-- APP_ABORT: the leader could not write its copy; this twin voids its own (R275). -/
def takeAbort (xid mark : Nat) (d : Device) : Device :=
  let d := updLath (fun l => { l with exchanges := l.exchanges.filter fun x => !(x.xid = xid && x.mark = mark && !x.catching) }) d
  match d.rcl.groups.find? fun g => g.role = .follower xid && groupMark g = mark && g.st != .void with
  | some g => settleGroups (voidGroup g.id d)
  | none => d

/-- APP_ABORT received (R275). -/
def execAppAbort (cr : Credits) (xid mark : Nat) (s : State) : Host.Outcome State Fault Refusal :=
  effect s (receive cr (.appAbort xid mark) (takeAbort xid mark))

/-- A CATCH exchange of this twin's ends with the peer's answer; the next group of its stream, or the next part of the boot area, follows
(R282). -/
def catchEnded (xid : Nat) (ok : Bool) (d : Device) : Device :=
  match xidGroup d xid with
  | none => d
  | some g =>
    let d := closeXid xid d
    if bootStream ≤ g.stream then
      match leaderTag g with
      | some _ => settleBoot (updGroup g.id (fun g => { g with peerDone := ok }) d)
      | none =>
        let d := updRcl (fun r => { r with groups := r.groups.filter fun y => y.id != g.id }) d
        pumpCatch (updLath (fun l => { l with bootQueue := l.bootQueue.map fun q => q.drop 1 }) d)
    else
      let d := updLath (fun l => { l with
        peerHeads := supd (fun _ => 0) g.stream (max (g.first + g.count)) l.peerHeads
        peerGaps := if ok then l.peerGaps.filter (· != groupMark g) else l.peerGaps.filter (· != groupMark g) ++ [groupMark g] }) d
      pumpCatch d

/-- CATCH_DONE received (R282). -/
def execCatchDone (cr : Credits) (xid mark : Nat) (s : State) : Host.Outcome State Fault Refusal :=
  effect s (receive cr (.catchDone xid mark) (catchEnded xid true))

/-- CATCH_FAILED received (R285): source 143. -/
def execCatchFailed (cr : Credits) (xid mark status : Nat) (s : State) : Host.Outcome State Fault Refusal :=
  effect s (receive cr (.catchFailed xid mark status) fun d => catchEnded xid false (raise 143 d))

/-- The request is answered with every POISON bit set (R277). -/
def answerPoison (xid unit : Nat) (d : Device) : Device := sendMsg (.recovData xid unit [] 0xFFFFFFFF) d

/-- RECOV_REQ (R277): record bytes are read and sent, from where the index or a search tells (R186); a record that this twin does not hold
is answered with every POISON bit set, a unit beyond its end with no bytes. Unit 0xFFFF asks for a whole group again (R285; log entry 18). -/
def takeRecovReq (xid mark unit : Nat) (d : Device) : Device :=
  let s := markStream mark
  let q := markSeq mark
  match groupHeld d s q with
  | none =>
    if (streamRec d s).tail ≤ q && (missingFrom d s q (min (q + 1) (streamRec d s).head)).isSome then
      startSearch (.recov xid mark unit) s q d
    else answerPoison xid unit d
  | some g =>
    if unit = 0xFFFF then wakePower (startCatch g d)
    else
      match g.recs.find? fun r => r.seq = markSeq mark with
      | none => answerPoison xid unit d
      | some r =>
        let n := min 4096 (r.len - 4096 * unit)
        if n = 0 then sendMsg (.recovData xid unit [] 0) d
        else wakePower (startRead (.recov xid mark unit) (groupParts g (r.off + 4096 * unit) n 0) d)

/-- RECOV_REQ received (R277). -/
def execRecovReq (cr : Credits) (xid mark unit : Nat) (s : State) : Host.Outcome State Fault Refusal :=
  effect s <| receive cr (.recovReq xid mark unit) fun d =>
    onlyIf ((inTopcoat d || (unit = 0xFFFF && d.gen.mode = .undercoat)) && unit < 65536) (takeRecovReq xid mark unit) d

/-! ### Planned detach (R287) -/

/-- Every APP exchange is settled on this twin. -/
def exchangesDone (d : Device) : Bool :=
  d.lath.openXids.isEmpty && d.lath.exchanges.isEmpty && !d.rcl.groups.any fun g => g.stream < bootStream && g.st = .open

/-- The detach has run: the leaving twin enters Dust Sheet, the other goes on in Undercoat (R287, R458). -/
def detachDone (leaving : Nat) (tag : Option Nat) (d : Device) : Device :=
  let d := updLath (fun l => { l with
    link := if l.live then .detached else .down, detaching := none, detachClean := false, detachSent := false, detachSeen := false, admissionHold := false }) d
  if leaving = twinId d then beginDust tag 9 d
  else
    let d := toUndercoat d
    match tag with
    | some t => finishOk t (modeCode d.gen.mode) d
    | none => d

/-- A detach goes on: exchanges end, CLEAN runs, DETACH_ACK is sent, and with both acknowledged it is done (R287). -/
def pumpDetach (d : Device) : Device :=
  match d.lath.detaching with
  | none => d
  | some (leaving, tag) =>
    if !inTopcoat d then detachDone leaving tag d
    else
    let d := if exchangesDone d && !d.lath.detachClean && d.cch.range.isNone then
        startRange .clean (updLath (fun l => { l with detachClean := true }) d) else d
    let d := if d.lath.detachClean && d.cch.range.isNone && !d.lath.detachSent then
        sendMsg .detachAck (updLath (fun l => { l with detachSent := true }) d) else d
    if d.lath.detachSent && d.lath.detachSeen then detachDone leaving tag d else d

/-- A detach begins on this twin: no append is admitted until it has run (log entry 29). -/
def beginDetach (leaving : Nat) (tag : Option Nat) (d : Device) : Device :=
  pumpDetach (updLath (fun l => { l with
    link := .detaching, detaching := some (leaving, tag), detachClean := false, detachSent := false, admissionHold := true }) d)

/-- DETACH received (R287). -/
def execDetach (cr : Credits) (leaving : Nat) (s : State) : Host.Outcome State Fault Refusal :=
  effect s <| receive cr (.detach leaving) fun d => onlyIf (inTopcoat d && leaving < 2 && d.lath.detaching.isNone) (beginDetach leaving none) d

/-- DETACH_ACK received (R287). -/
def execDetachAck (cr : Credits) (s : State) : Host.Outcome State Fault Refusal :=
  effect s <| receive cr .detachAck fun d =>
    onlyIf d.lath.detaching.isSome (fun d => pumpDetach (updLath (fun l => { l with detachSeen := true }) d)) d

/-- What the pair's logic carries on by itself once a condition has come about: detach, renumbering, catch-up. -/
def pumpTwin (d : Device) : Device := pumpCatch (pumpRenumber (pumpDetach d))

end Sys2Proof.Machine
end

