-- ==== Sys2Proof/Machine/FlashCmd.lean ====
section
/-!
DEFINITION. Flash commands with suspend and resume (R427, R429 to R433), reads, scrubbing and refresh (R426, R431, R440), and the event log
ring (R437, R438).
-/

namespace Sys2Proof.Machine

/-! ### Starting an operation (R429, R430) -/

/-- A chunk counts as erased (Table 16-2). -/
def chunkErased (d : Device) (k : Nat) : Bool :=
  match readChunk (flashBytes d (32 * k) 32) (d.flashSpare k) with
  | .erased _ => true
  | _ => false

/-- PROG_BUF as bytes. -/
def progBuf (d : Device) : List Byte := (List.range 64).flatMap fun w => leBytes 4 (d.reg (0x13100 + 4 * w)).toNat

/-- The address lies in the firmware image now running (R430). -/
def inRunningImage (d : Device) (a : Nat) : Bool := a / 0x200000 = b2n d.lsk.imageB

/-- Bytes that one operation covers: first address and length. -/
def flashSpan (op : FlashOp) (a : Nat) : Nat × Nat :=
  match op with
  | .program => (a / 256 * 256, 256)
  | .eraseSector => (a / 4096 * 4096, 4096)
  | .eraseBlock => (a / 65536 * 65536, 65536)
  | .bitClear => (a / 32 * 32, 32)

/-- A BIT_CLEAR within R427: chunk 0 of a key-store sector, and no bit of bytes 4 to 7 cleared. -/
def bitClearOk (d : Device) (a : Nat) : Bool :=
  0x400000 ≤ a && a < 0x440000 && a % 4096 = 0
    && (List.range 4).all fun i => (d.flashByte (a + 4 + i) &&& ~~~ ((progBuf d).getD (4 + i) 0)) = 0

/-- ERR of an operation that is refused, 0 for one that runs, in the order in which R430 lists the cases (log entry 31). -/
def flashErr (d : Device) (op : FlashOp) (a : Nat) : Nat :=
  if op = .program && (List.range 8).any (fun i => !chunkErased d (a / 256 * 8 + i)) then 1
  else if op != .bitClear && inRunningImage d a then 2
  else if (op = .bitClear && !bitClearOk d a) || a % (flashSpan op a).2 != 0 then 4
  else if d.gen.mode = .primer then 5
  else 0

/-- The array as the operation leaves it when it ends. -/
def flashApply (op : FlashOp) (a : Nat) (d : Device) : Device :=
  match op with
  | .program => programAt a (progBuf d) d
  | .eraseSector => eraseSectorAt (a / 4096) d
  | .eraseBlock => (List.range 16).foldl (fun d i => eraseSectorAt (a / 4096 + i) d) d
  | .bitClear =>
    let bs := (List.range 4).map fun i => d.flashByte (a + i) &&& (progBuf d).getD i 0
    updFls (fun f => { f with bytes := putBytes a bs f.bytes, spare := sset (fun _ => 0xFFFFFF) (a / 32) 0 f.spare }) d

/-- CMD code of an operation (Table 16-9). -/
def flashCode (op : FlashOp) : Nat :=
  match op with
  | .program => 1
  | .eraseSector => 2
  | .eraseBlock => 3
  | .bitClear => 4

/-- START of an operation: ignored while BUSY (R450), refused with ERR (R430), or begun; the reserved range is never programmed (R424, log
entry 32). -/
def startFlash (op : FlashOp) (d : Device) : Device :=
  let d := setRegF 0x13000 2 0 (flashCode op) d
  if d.fls.op.isSome then d
  else
    let a := d.regF 0x13004 22 0
    let e := flashErr d op a
    if e != 0 then updFls (fun f => { f with err := e }) d
    else if (op = .program || op = .bitClear) && 0x5D0000 ≤ a then updFls (fun f => { f with err := 0 }) d
    else
      let d := flashApply op a d
      updFls (fun f => { f with
        err := 0, op := some (op, a), suspended := false, suspending := false, held := false, auto := false, resumedAt := none }) d

/-- PROGRAM (R429). -/
def execProgram (who : Requester) (s : State) : Host.Outcome State Fault Refusal := effect s (gate who 0x13000 false (startFlash .program))

/-- ERASE_SECTOR (R429). -/
def execEraseSector (who : Requester) (s : State) : Host.Outcome State Fault Refusal :=
  effect s (gate who 0x13000 false (startFlash .eraseSector))

/-- ERASE_BLOCK (R429). -/
def execEraseBlock (who : Requester) (s : State) : Host.Outcome State Fault Refusal :=
  effect s (gate who 0x13000 false (startFlash .eraseBlock))

/-- BIT_CLEAR (R427). -/
def execBitClear (who : Requester) (s : State) : Host.Outcome State Fault Refusal := effect s (gate who 0x13000 false (startFlash .bitClear))

/-! ### Refresh-due sectors (R440) -/

/-- Put a number into an ascending list once. -/
def insertNat (n : Nat) : List Nat → List Nat
  | [] => [n]
  | a :: l => if n < a then n :: a :: l else if n = a then a :: l else a :: insertNat n l

/-- The sector is refresh-due: source 181 (R440). -/
def noteDue (sector : Nat) (d : Device) : Device := raise 181 (updFls (fun f => { f with due := insertNat sector f.due }) d)

/-! ### Reads (R426, R431, R432) -/

/-- The sector is the one being programmed or erased (R431). -/
def sectorBusy (d : Device) (sector : Nat) : Bool :=
  match d.fls.op with
  | some (op, a) =>
    let (lo, n) := flashSpan op a
    lo / 4096 ≤ sector && sector ≤ (lo + n - 1) / 4096
  | none => false

/-- A read delivers bytes, poison-marked or not. -/
def deliverFlash (bs : List Byte) (poison : Bool) : Device → Device := updFls fun f => { f with delivered := some (bs, poison) }

/-- What chunk `k` reads as with the bits given upset (R426). -/
def sensed (d : Device) (k : Nat) (flips : List Nat) : ChunkRead :=
  readChunk (flipData flips (flashBytes d (32 * k) 32)) (flipCheck flips (d.flashSpare k))

/-- The read corrected the chunk (R426). -/
def wasCorrected : ChunkRead → Bool
  | .erased c => c
  | .cleared => false
  | .coded _ n => decide (0 < n)
  | .poison => false

/-- A corrected chunk is counted and raises source 179, a poison-marked one is counted and raises source 180 (R426). -/
def noteChunk (r : ChunkRead) (d : Device) : Device :=
  if wasCorrected r then raise 179 (count 0x13050 d)
  else if r = .poison then raise 180 (count 0x13054 d)
  else d

/-- A chunk is sensed, classified and delivered (R426); 2 corrected bits make its sector refresh-due (R440). -/
def senseChunk (k : Nat) (flips : List Nat) (d : Device) : Device :=
  let raw := flipData flips (flashBytes d (32 * k) 32)
  let r := sensed d k flips
  let d := noteChunk r d
  match r with
  | .erased _ => deliverFlash (List.replicate 32 0xFF) false d
  | .cleared => deliverFlash raw false d
  | .coded bs n => if n = 2 then noteDue (k / 128) (deliverFlash bs false d) else deliverFlash bs false d
  | .poison => deliverFlash raw true d

/-- Enough run time has passed since the last resume to perform a suspend (R433). -/
def runLongEnough (d : Device) : Bool := match d.fls.resumedAt with | some t => decide (t + 6250 ≤ d.now) | none => true

/-- A suspend is asked for: performed, or held until 250 µs of run time have passed, source 178 (R433). -/
def askSuspend (auto : Bool) (d : Device) : Device :=
  if d.fls.op.isNone || d.fls.suspended || d.fls.suspending || d.fls.held then
    (if auto then d else updFls (fun f => { f with auto := false }) d)
  else if runLongEnough d then updFls (fun f => { f with suspending := true, auto := auto }) d
  else raise 178 (count 0x13058 (updFls (fun f => { f with held := true, auto := auto }) d))

/-- FLASH_READ: poison-marked at once in the sector being operated on; at once while the array is free or suspended; else it waits, and
suspends the operation where AUTO_SUSPEND is 1 (R431, R432). -/
def flashRead (k : Nat) (flips : List Nat) (d : Device) : Device :=
  if sectorBusy d (k / 128) then deliverFlash [] true d
  else if d.fls.op.isNone || d.fls.suspended then senseChunk k flips d
  else
    let d := updFls (fun f => { f with waiting := f.waiting ++ [(k, flips)] }) d
    if wbit (d.reg 0x1300C) 0 then askSuspend true d else d

/-- FLASH_READ (R426). -/
def execFlashRead (chunk : Nat) (flips : List Nat) (s : State) : Host.Outcome State Fault Refusal :=
  effect s (onlyIf (decide (chunk < 262144)) (flashRead chunk flips))

/-- The reads that waited are served, in order. -/
def serveWaiting (d : Device) : Device :=
  let l := d.fls.waiting
  l.foldl (fun d p => senseChunk p.1 p.2 d) (updFls (fun f => { f with waiting := [] }) d)

/-! ### Suspend and resume (R432, R433) -/

/-- SUSPEND (R433). -/
def execSuspend (who : Requester) (s : State) : Host.Outcome State Fault Refusal :=
  effect s (gate who 0x13000 false fun d => askSuspend false (setRegF 0x13000 2 0 5 d))

/-- The operation runs on (R432). -/
def resumeFlash (d : Device) : Device :=
  if d.fls.op.isSome && (d.fls.suspended || d.fls.suspending || d.fls.held) then
    updFls (fun f => { f with
      suspended := false, suspending := false, held := false, auto := false
      resumedAt := if f.suspended || f.suspending then some d.now else f.resumedAt }) d
  else d

/-- RESUME (R432). -/
def execResume (who : Requester) (s : State) : Host.Outcome State Fault Refusal :=
  effect s (gate who 0x13000 false fun d => resumeFlash (setRegF 0x13000 2 0 6 d))

/-- SUSPEND_REACHED (R432): the array is suspended, and the reads that waited are served. -/
def execSuspendReached (s : State) : Host.Outcome State Fault Refusal :=
  effect s fun d => onlyIf (d.fls.op.isSome && d.fls.suspending)
    (fun d => serveWaiting (updFls (fun f => { f with suspended := true, suspending := false, suspendedAt := d.now }) d)) d

/-- SUSPEND_HOLD_EXPIRY (R433): a held suspend is performed. -/
def execSuspendHoldExpiry (s : State) : Host.Outcome State Fault Refusal :=
  effect s fun d => onlyIf (d.fls.op.isSome && d.fls.held && runLongEnough d)
    (updFls fun f => { f with held := false, suspending := true }) d

/-- AUTO_SUSPEND_END (R432): no read waits, or 100 µs have passed. -/
def execAutoSuspendEnd (s : State) : Host.Outcome State Fault Refusal :=
  effect s fun d => onlyIf (d.fls.suspended && d.fls.auto && (d.fls.waiting.isEmpty || decide (d.fls.suspendedAt + 2500 ≤ d.now)))
    resumeFlash d

/-! ### The end of an operation (R430, R435) -/

/-- A range of the array is left in a state that the manual does not state (R435, log entry 8). -/
def cutRange (lo n : Nat) (d : Device) : Device :=
  updFls (fun f => { f with
    bytes := (List.range n).foldl (fun m i => sset (fun _ => 0xFF) (lo + i) (Config.cutFlashByte f.cuts (lo + i)) m) f.bytes
    spare := (List.range (n / 32)).foldl (fun m i =>
      sset (fun _ => 0xFFFFFF) (lo / 32 + i) (Config.cutFlashSpare f.cuts (lo / 32 + i)) m) f.spare
    cuts := f.cuts + 1 }) d

/-- The operation ends: source 176; a failed verify sets ERR 3, counts and raises source 177, and what the range then holds is not stated
(R430, log entry 8). -/
def flashDone (verified : Bool) (d : Device) : Device :=
  match d.fls.op with
  | none => d
  | some (op, a) =>
    let d := raise 176 (updFls (fun f => { f with op := none, suspending := false, held := false, auto := false, resumedAt := none }) d)
    let d := if verified then d
      else
        let (lo, n) := flashSpan op a
        raise 177 (count 0x1305C (cutRange lo n (updFls (fun f => { f with err := 3 }) d)))
    serveWaiting d

/-- FLASH_OP_DONE (R430). -/
def execFlashOpDone (verified : Bool) (s : State) : Host.Outcome State Fault Refusal :=
  effect s fun d => onlyIf (!d.fls.suspended) (flashDone verified) d

/-! ### Scrub and refresh (R440) -/

/-- Sectors of the event log ring (Table 16-1). -/
def eventSector (n : Nat) : Bool := 0x4D0 ≤ n && n < 0x5D0

/-- The sector is margin-read: what it finds in the chunks listed is counted, and a corrected chunk makes it refresh-due (R426, R440). The
chunks that are not listed read without error. -/
def scrubSector (sector : Nat) (flips : List (Nat × List Nat)) (d : Device) : Device :=
  let reads := (flips.filter fun p => p.1 < 128).map fun p => sensed d (128 * sector + p.1) p.2
  let d := reads.foldl (fun d r => noteChunk r d) d
  if reads.any wasCorrected then noteDue sector d else d

/-- FLASH_SCRUB: a margin read of every chunk of a sector outside the event log (R440). -/
def execFlashScrub (sector : Nat) (flips : List (Nat × List Nat)) (s : State) : Host.Outcome State Fault Refusal :=
  effect s fun d => onlyIf (decide (sector < 2048) && !eventSector sector && !sectorBusy d sector) (scrubSector sector flips) d

/-- The same sector in the other copy of a two-copy structure (Table 16-1). -/
def twinSector (n : Nat) : Option Nat :=
  if 0x400 ≤ n && n < 0x420 then some (n + 0x20)
  else if 0x420 ≤ n && n < 0x440 then some (n - 0x20)
  else if 0x440 ≤ n && n < 0x480 then some (n + 0x40)
  else if 0x480 ≤ n && n < 0x4C0 then some (n - 0x40)
  else if 0x4C0 ≤ n && n < 0x4C8 then some (n + 8)
  else if 0x4C8 ≤ n && n < 0x4D0 then some (n - 8)
  else none

/-- The chunks of a sector as they would be programmed again: erased, bit-cleared with its bytes, coded with its corrected bytes; none
when it does not read. -/
def chunkContents (d : Device) (k : Nat) : Option ChunkRead :=
  match readChunk (flashBytes d (32 * k) 32) (d.flashSpare k) with
  | .poison => none
  | r => some r

/-- Every chunk of the sector reads. -/
def sectorReads (d : Device) (n : Nat) : Bool := (List.range 128).all fun i => (chunkContents d (128 * n + i)).isSome

/-- Program one chunk with contents read earlier. -/
def programChunk (k : Nat) (raw : List Byte) (r : Option ChunkRead) (d : Device) : Device :=
  match r with
  | some (.coded bs _) => programAt (32 * k) bs d
  | some .cleared =>
    updFls (fun f => { f with bytes := putBytes (32 * k) raw f.bytes, spare := sset (fun _ => 0xFFFFFF) k 0 f.spare }) d
  | _ => d

/-- Sector `n` is erased and programmed from the corrected contents of sector `m` (R440). -/
def rewriteSector (n m : Nat) (d : Device) : Device :=
  let l := (List.range 128).map fun i => (i, flashBytes d (32 * (128 * m + i)) 32, chunkContents d (128 * m + i))
  let d := l.foldl (fun d p => programChunk (128 * n + p.1) p.2.1 p.2.2 d) (eraseSectorAt n d)
  updFls (fun f => { f with due := f.due.erase n, refreshedAt := sset (fun _ => none) n (some d.now) f.refreshedAt }) d

/-- 30 days have passed since the sector's last refresh (R440). -/
def refreshAllowed (d : Device) (n : Nat) : Bool :=
  match sget (fun _ => none) d.fls.refreshedAt n with
  | some t => decide (t + 30 * 86400 * ticksPerS ≤ d.now)
  | none => true

/-- A due sector is refreshed: from its own contents, or when a chunk is poison-marked from the other copy of its structure; an image is
left to the firmware update (R440). -/
def refreshFlash (n : Nat) (d : Device) : Device :=
  if sectorReads d n then rewriteSector n n d
  else
    match twinSector n with
    | some m => if sectorReads d m then rewriteSector n m d else d
    | none => d

/-- FLASH_REFRESH (R440): not in Primer, at most once in 30 days for a sector. -/
def execFlashRefresh (sector : Nat) (s : State) : Host.Outcome State Fault Refusal :=
  effect s fun d => onlyIf (d.fls.due.contains sector && d.gen.mode != .primer && d.fls.op.isNone && refreshAllowed d sector)
    (refreshFlash sector) d

/-! ### Event log (R437, R438, R507) -/

/-- Change the event log. -/
def updEvt (f : EventLog → EventLog) (d : Device) : Device := { d with evt := f d.evt }

/-- Address of an entry's place in the ring. -/
def eventAddr (i : Nat) : Nat := 0x4D0000 + 32 * i

/-- The hour of the pacing counter. -/
def hourOf (d : Device) : Nat := d.now / (3600 * ticksPerS)

/-- The 28 bytes that an entry's CRC covers (Table 16-5). -/
def eventBody (tick seq origin source code : Nat) (detail : List Byte) : List Byte :=
  leBytes 8 tick ++ leBytes 4 seq ++ leBytes 1 origin ++ leBytes 1 source ++ leBytes 2 code ++ (padTo 12 0 detail).take 12

/-- Write one entry, erasing the next sector of the ring before the first of a sector; source 27 (R437). -/
def putEvent (tick origin source code : Nat) (detail : List Byte) (d : Device) : Device :=
  let i := d.evt.next
  let d := if i % 128 = 0 then eraseSectorAt (0x4D0 + (i / 128 + 1) % 256) d else d
  let b := eventBody tick d.evt.seq origin source code detail
  let d := programAt (eventAddr i) (b ++ leBytes 4 (crc32c b).toNat) d
  raise 27 (updEvt (fun e => { e with next := (i + 1) % 32768, seq := (e.seq + 1) % 2 ^ 32, hourCount := e.hourCount + 1 }) d)

/-- The hour has ended: the number of suppressed entries is written as the first of the next (R438). -/
def rollHour (d : Device) : Device :=
  if d.evt.hour < hourOf d then
    let n := d.evt.suppressed
    let d := updEvt (fun e => { e with hour := hourOf d, hourCount := 0, suppressed := 0 }) d
    if 0 < n && d.gen.mode != .primer then putEvent d.now 5 0 0 (leBytes 4 n) d else d
  else d

/-- An entry with its TICK is written, or counted beyond 7,200 in the hour (R438); nothing is programmed in Primer (R430). -/
def logEventAt (tick origin source code : Nat) (detail : List Byte) (d : Device) : Device :=
  let d := rollHour d
  if d.gen.mode = .primer then d
  else if 7200 ≤ d.evt.hourCount then updEvt (fun e => { e with suppressed := e.suppressed + 1, lost := e.lost + 1 }) d
  else putEvent tick origin source code detail d

/-- An entry with the pacing counter as its TICK. -/
def logEvent (origin source code : Nat) (detail : List Byte) (d : Device) : Device := logEventAt d.now origin source code detail d

/-- The oldest entry that the management pair has still to write is written (R15, R51, R420), while the pair runs. -/
def writeQueued (d : Device) : Device :=
  match d.evt.queue with
  | [] => d
  | e :: l =>
    if d.lsk.pair = .running && d.gen.mode != .primer then
      logEventAt e.tick e.origin e.source e.code e.detail (updEvt (fun x => { x with queue := l }) d)
    else d

/-- EVENT_LOG_WRITE (R437): a firmware event of ORIGIN 1 with what the firmware has to say of it, or a queued copy of ORIGIN 2 or 3. The
entries of ORIGIN 4 and 5 are written with the seal and at the end of an hour (R438, R507). -/
def execEventLogWrite (origin source code : Nat) (detail : List Byte) (s : State) : Host.Outcome State Fault Refusal :=
  effect s fun d =>
    if origin = 1 then onlyIf (d.lsk.pair = .running) (logEvent 1 source code detail) d
    else if origin = 2 || origin = 3 then
      onlyIf (match d.evt.queue with | e :: _ => e.origin = origin | [] => false) writeQueued d
    else d

/-- EVENT_LOG_HOUR_END (R438). -/
def execEventLogHourEnd (s : State) : Host.Outcome State Fault Refusal := effect s rollHour

/-! ### Firmware images and their marks (R469 to R471) -/

/-- First address of image A or B (Table 16-1). -/
def imageBase (b : Bool) : Nat := if b then 0x200000 else 0

/-- The 256-byte page at `a` is erased. -/
def pageErased (d : Device) (a : Nat) : Bool := (List.range 8).all fun k => chunkErased d (a / 32 + k)

/-- The model holds the image's header; an image without one is a confirmed image of GENERATION 0 (log entry 8). -/
def hasHeader (d : Device) (b : Bool) : Bool := !pageErased d (imageBase b)

/-- Start marks programmed (R469). -/
def startMarks (d : Device) (b : Bool) : Nat := ([1, 2, 3].filter fun k => !pageErased d (imageBase b + 256 * k)).length

/-- The image is on trial: its confirm mark is erased (R470). -/
def onTrial (d : Device) (b : Bool) : Bool := hasHeader d b && pageErased d (imageBase b + 0x400)

/-- A trial image with all three start marks programmed is rejected (R470). -/
def rejected (d : Device) (b : Bool) : Bool := onTrial d b && startMarks d b = 3

/-- GENERATION of an image (Table 17-6). -/
def imageGeneration (d : Device) (b : Bool) : Nat := if hasHeader d b then leNat (flashBytes d (imageBase b + 16) 8) else 0

/-- A mark is programmed: its page is erased no more, with bytes that the manual does not state (R469, log entry 8). -/
def programMark (a : Nat) (d : Device) : Device :=
  let bs := (List.range 256).map fun i => Config.cutFlashByte d.fls.cuts (a + i)
  programAt a bs (updFls (fun f => { f with cuts := f.cuts + 1 }) d)

/-- The running image starts: a trial image programs its next erased start mark (R471); none is programmed in Primer (R430). -/
def imageStarts (d : Device) : Device :=
  let b := d.lsk.imageB
  let d := { d with gen := { d.gen with trialRun := 0 } }
  if d.gen.mode != .primer && onTrial d b then
    match [1, 2, 3].find? fun k => pageErased d (imageBase b + 256 * k) with
    | some k => programMark (imageBase b + 256 * k) d
    | none => d
  else d

/-- 600 s in Topcoat or Undercoat since the image started, without a core mismatch (R471). -/
def confirmDue (d : Device) : Bool :=
  d.lsk.pair = .running && (d.gen.mode = .topcoat || d.gen.mode = .undercoat) && onTrial d d.lsk.imageB && 600 * ticksPerS ≤ d.gen.trialRun

/-- CONFIRM_MARK (R471). -/
def execConfirmMark (s : State) : Host.Outcome State Fault Refusal :=
  effect s fun d => onlyIf (confirmDue d) (programMark (imageBase d.lsk.imageB + 0x400)) d

end Sys2Proof.Machine
end

