-- ==== Sys2Proof/Machine/Ecc.lean ====
section
/-!
DEFINITION. SRAM protection (R441 to R445) and the checker test window (R448): scrubbing, poison, test rows.
-/

namespace Sys2Proof.Machine

/-- Change SRAM protection. -/
def updEcc (f : Ecc → Ecc) (d : Device) : Device := { d with ecc := f d.ecc }

/-- Words of a protected memory (Table 16-7). -/
def eccWords (mem : Nat) : Nat := [65536, 32768, 8192, 2048, 37440, 8192, 147456, 2048, 4176, 512].getD mem 0

/-- Index of a word in the list of poisoned words. -/
def poisonIndex (mem word : Nat) : Nat := mem * 2 ^ 20 + word

/-- LAST_ERROR (Table 16-10). -/
def noteEcc (mem kind word : Nat) : Device → Device :=
  updEcc fun e => { e with last := BitVec.ofNat 32 (mem * 2 ^ 28 + kind * 2 ^ 26 + word % 2 ^ 18) }

/-- The `n`-th entry of a log held in core SRAM is discarded and counted in LOST (Table 16-7, R339; log entry 33). -/
def dropLogEntry (n : Nat) (d : Device) : Device :=
  if n < 64 then
    if n < d.exc.log.length then
      { d with exc := { d.exc with log := d.exc.log.eraseIdx n, lost := d.exc.lost + 1 } } else d
  else if n - 64 < d.lsk.log.length then
    updLsk (fun l => { l with log := l.log.eraseIdx (n - 64), lost := l.lost + 1 }) d
  else d

/-- A word is made poison, and its consumer acts (R442, Table 16-7): instruction words are reloaded, a table-store word poisons its record,
a log word discards its entry. -/
def poisonWord (mem word : Nat) (d : Device) : Device :=
  if mem = 0 || mem = 2 then d
  else if mem = 5 then
    updCache (fun c => { c with
      storePoison := supd (fun _ => 0) (word / 512) (· ||| BitVec.ofNat 32 (2 ^ (word % 512 / 16))) c.storePoison }) d
  else if mem = 9 then dropLogEntry (word / 4) d
  else updEcc (fun e => { e with poison := insertNat (poisonIndex mem word) e.poison }) d

/-- SRAM_SCRUB: a word read is clean, corrected, or made poison; a functional write of the same tick wins over the write-back (R442,
R444). -/
def scrubWord (mem word : Nat) (data : BitVec 64) (check : BitVec 8) (written : Bool) (d : Device) : Device :=
  match secdedDecode data check with
  | .clean => d
  | .poison => d
  | .corrected _ _ => raise 182 (noteEcc mem 1 word (count 0x14028 d))
  | .uncorrectable =>
    let d := raise 183 (noteEcc mem 2 word (count 0x1402C d))
    if written then d else poisonWord mem word d

/-- SRAM_SCRUB (R444): the last word of a pass counts it. -/
def execSramScrub (mem word : Nat) (data : BitVec 64) (check : BitVec 8) (last written : Bool) (s : State) :
    Host.Outcome State Fault Refusal :=
  effect s <| onlyIf (decide (word < eccWords mem)) fun d =>
    let d := scrubWord mem word data check written d
    if last then updEcc (fun e => { e with passes := min 0xFFFFFFFF (e.passes + 1) }) d else d

/-- POISON_CONSUMED (R445): a load access fault or an instruction access fault of the management pair; counted, source 184. The trap itself
runs in the pair's firmware. Flash has no memory ID in LAST_ERROR. -/
def execPoisonConsumed (mem : Nat) (addr : Word32) (_fetch : Bool) (s : State) : Host.Outcome State Fault Refusal :=
  effect s <| onlyIf (pairRuns s.dev) fun d =>
    let d := count 0x14030 d
    raise 184 (if mem < 10 then noteEcc mem 3 (addr.toNat / 8) d else d)

/-! ### Checker test window (R448, R451) -/

/-- MEM and ROW of SPLIT_MODE as an index of a test row. -/
def testRow (d : Device) : Nat := 4 * d.regF 0x14000 12 8 + d.regF 0x14000 1 0

/-- A write of SPLIT_MODE: MEM and ROW while the window is closed, then OPEN (R10, R448, R451). -/
def splitOpen (v : Word32) (d : Device) : Device :=
  if d.ecc.openedAt.isSome then d
  else
    let d := if fld v 12 8 < 10 then setRegF 0x14000 12 8 (fld v 12 8) d else d
    let d := setRegF 0x14000 1 0 (fld v 1 0) d
    if wbit v 31 then setLevel 187 true (updEcc (fun e => { e with openedAt := some d.now }) d) else d

/-- The window closes. -/
def splitClose (d : Device) : Device := setLevel 187 false (updEcc (fun e => { e with openedAt := none }) d)

/-- SPLIT_MODE_OPEN (R448). -/
def execSplitModeOpen (who : Requester) (value : Word32) (s : State) : Host.Outcome State Fault Refusal :=
  effect s (gate who 0x14000 false (splitOpen value))

/-- SPLIT_MODE_CLOSE (R448). -/
def execSplitModeClose (who : Requester) (s : State) : Host.Outcome State Fault Refusal :=
  effect s (gate who 0x14000 false splitClose)

/-- SPLIT_MODE_TIMEOUT (R448): 25,000 ticks after it opened. -/
def execSplitModeTimeout (s : State) : Host.Outcome State Fault Refusal :=
  effect s fun d => onlyIf (match d.ecc.openedAt with | some t => decide (t + 25000 ≤ d.now) | none => false) splitClose d

/-- Change the selected test row while the window is open. -/
def updRow (f : BitVec 64 × BitVec 8 → BitVec 64 × BitVec 8) (d : Device) : Device :=
  if d.ecc.openedAt.isSome then updEcc (fun e => { e with rows := supd (fun _ => (0, 0)) (testRow d) f e.rows }) d else d

/-- TEST_DATA, 64 bits. -/
def testData (d : Device) : BitVec 64 := BitVec.ofNat 64 ((d.reg 0x14004).toNat + 2 ^ 32 * (d.reg 0x14008).toNat)

/-- TEST_WRITE_DATA (R448): the data bits of the selected row, its check bits left. -/
def execTestWriteData (who : Requester) (s : State) : Host.Outcome State Fault Refusal :=
  effect s (gate who 0x14010 false fun d => updRow (fun r => (testData d, r.2)) d)

/-- TEST_WRITE_CHECK (R448): the check bits of the selected row, its data bits left. -/
def execTestWriteCheck (who : Requester) (s : State) : Host.Outcome State Fault Refusal :=
  effect s (gate who 0x14010 false fun d => updRow (fun r => (r.1, BitVec.ofNat 8 (d.regF 0x1400C 7 0))) d)

/-- The selected row is decoded into TEST_RESULT and TEST_READ, with no count and no source (R448). -/
def readRow (d : Device) : Device :=
  let (w, c) := sget (fun _ => (0, 0)) d.ecc.rows (testRow d)
  let put (outcome bit : Nat) (data : BitVec 64) (d : Device) : Device :=
    updEcc (fun e => { e with outcome := outcome, bit := bit, syndrome := secdedSyndrome w c, read := data }) d
  match secdedDecode w c with
  | .clean => put 0 127 w d
  | .corrected k x => put 1 k x d
  | .uncorrectable => put 2 127 w d
  | .poison => put 3 127 w d

/-- TEST_READ (R448). -/
def execTestRead (who : Requester) (s : State) : Host.Outcome State Fault Refusal :=
  effect s (gate who 0x14010 false fun d => onlyIf d.ecc.openedAt.isSome readRow d)

/-- ZERO_WORD (R443): an aligned word of the data SRAM becomes 0 with valid check bits. -/
def zeroData (addr : Word32) (d : Device) : Device :=
  if addr.toNat % 8 = 0 then
    updEcc (fun e => { e with poison := e.poison.erase (poisonIndex 1 (addr.toNat / 8 % 32768)) }) d
  else d

/-- ZERO_WORD (R443). -/
def execZeroWord (who : Requester) (addr : Word32) (s : State) : Host.Outcome State Fault Refusal :=
  effect s (gate who 0x14024 false (zeroData addr))

end Sys2Proof.Machine
end

