-- ==== Sys2Proof/Machine/Supply.lean ====
section
/-!
DEFINITION. Supply states, ride-through and seal (R371 to R382), the charger (R385), the stack monitor (R386 to R393) and the health test
(R394, R395).
-/

namespace Sys2Proof.Machine

/-! ### Load, charger and bleeds (R376, R385, R393) -/

/-- The charger may run: load on VIN, no warning, no discharge test, and a state in which it charges (R385, R394). -/
def chargerMay (d : Device) : Bool :=
  !d.pwr.onHawk && !warning d && !d.pwr.testRunning
    && (d.pwr.st = .unarmed || d.pwr.st = .armed || d.pwr.st = .reArming || d.pwr.st = .rideThrough)

/-- The charger is off. -/
def chargerOff : Device → Device := updPwr fun p => { p with charger := .off, pause := false }

/-- The charger starts at constant current where it may run. -/
def chargerOn (d : Device) : Device :=
  if chargerMay d && d.pwr.charger = .off then updPwr (fun p => { p with charger := .current }) d else d

/-- The load goes to the Hawk: the charger stops (R376). -/
def loadOnHawk (d : Device) : Device := chargerOff (updPwr (fun p => { p with onHawk := true }) d)

/-- The load goes to VIN: the charger runs (R377). -/
def loadOnVin (d : Device) : Device := chargerOn (updPwr (fun p => { p with onHawk := false }) d)

/-- Every bleed stops, and a discharge test is abandoned and still due (R376, R393, R394). -/
def stopBleedAndTest : Device → Device := updPwr fun p => { p with bleed := 0, testRunning := false }

/-! ### Armed (R374, R382) -/

/-- Fill that a seal left is written (R192, R382). -/
def fillAfterSeal (d : Device) : Device :=
  match d.pwr.sealFill with
  | none => d
  | some f =>
    let z : Zone := { layer := f.layer, zone := f.zone, pass := (((d.ring f.ring).zones.find? fun z =>
      z.layer = f.layer && z.zone = f.zone).map (·.pass)).getD 0, entered := 0, openHeads := [] }
    let d := queueFill f.ring z f.first f.depth f.frames (updPwr (fun p => { p with sealFill := none }) d)
    match f.next with
    | some (a, n, frames) => queueFill f.ring z a n frames d
    | none => d

/-- A format that a seal interrupted goes on (R463). -/
def resumeFormat (d : Device) : Device :=
  if d.gen.formatting && d.wrc.clusters.all (fun c => c.kind != .format) then
    (if (nextFormatZone d).isSome then queueFormatGroup d
     else if d.rcl.actPending.isSome then d
     else
       writeActivation {} none (writeDefects d))
  else d

/-- The drive spins up with the automatic HOME alongside (R382). -/
def spinUp (d : Device) : Device :=
  startDrive (leaveRetention d)

/-- The supply becomes ARMED: writes are permitted, and a LEAVE_DUST_SHEET that waited for it goes on (R374, R459). -/
def armNow (d : Device) : Device :=
  leaveNow (resumeFormat (fillAfterSeal (updPwr (fun p => { p with st := .armed, sealStep := 0 }) d)))

/-- ARMED after a seal: OUT_SEALED falls, the drive spins up outside Dust Sheet, the peer hears, source 151 (R382, R293). -/
def reArmed (d : Device) : Device :=
  let d := raise 151 (armNow (leaveRetention d))
  let d := if d.gen.mode = .dustSheet && !d.gen.formatting then d else spinUp d
  if d.gen.mode = .undercoat then sendHello (tellMode d) else if d.gen.chosen then tellMode d else d

/-- The ride-through ends in ARMED: source 150, counted (R377). -/
def rideOver (d : Device) : Device :=
  raise 150 (updPwr (fun p => { p with st := .armed, rides := min 0xFFFF (p.rides + 1) }) d)

/-- The stack stands at or above the admit level (R371). -/
def admitLevel (d : Device) : Bool := 12000 ≤ stackReading d

/-- The transitions of Table 14-2 that the stack reading makes. -/
def supplyByStack (d : Device) : Device :=
  if !admitLevel d then d
  else
    match d.pwr.st with
    | .unarmed => if warning d then d else armNow d
    | .reArming => reArmed d
    | .rideThrough => if d.pwr.returned && !warning d then rideOver d else d
    | _ => d

/-! ### Warnings (R372, R375, R376) -/

/-- Reads in progress end, and their commands complete with ABORTED_POWER (R375). -/
def abortReads (d : Device) : Device :=
  let tags := d.rdc.clusters.filterMap fun c => readTag c.purpose
  dropReads (fun _ => true) (tags.foldl (fun d t => finish t stAbortedPower d) d)

/-- The sled stops: in motion it takes the emergency ramp; standing it stays (R375). -/
def stopSled (d : Device) : Device :=
  match d.motion.st with
  | .moving => refreshInhibit (startRamp 1 .idle d)
  | .geared => refreshInhibit (startRamp 1 .idle d)
  | .homing => refreshInhibit (startRamp 1 .unhomed d)
  | _ => d

/-- A warning in UNARMED (R375). -/
def warnUnarmed (d : Device) : Device :=
  let d := updGen (fun g => { g with parked := true }) (abortReads (laserOff (stopBleedAndTest (chargerOff d))))
  if d.pwr.sealTripped then stopSled (brakeDrive d)
  else parkDrive (brakeDrive (loadOnHawk d))

/-- The ride-through begins (R376). -/
def beginRide (d : Device) : Device :=
  let d := stopBleedAndTest (loadOnHawk d)
  updPwr (fun p => { p with st := .rideThrough, windowStart := d.now, windowMs := d.regF 0xF004 6 0, returned := false }) d

/-- A warning begins, in each supply state (Table 14-2). -/
def warningBegins (d : Device) : Device :=
  let d := updPwr (fun p => { p with returned := false }) d
  match d.pwr.st with
  | .unarmed => warnUnarmed d
  | .armed => beginRide d
  | .rideThrough => stopBleedAndTest (loadOnHawk d)
  | .sealing => stopBleedAndTest d
  | .sealed => stopBleedAndTest d
  | .reArming => stopBleedAndTest (loadOnHawk (updPwr (fun p => { p with st := .sealed }) d))

/-- A change that may begin or end a warning: at its end the 5 ms of the return condition begin (R371, R372). -/
def withWarning (f : Device → Device) (d : Device) : Device :=
  let was := warning d
  let d := f d
  if warning d && !was then warningBegins d
  else if !warning d && was then updPwr (fun p => { p with clearSince := d.now, returned := false }) d
  else d

/-- VIN_WARN_ASSERT (R376): source 144. -/
def execVinWarnAssert (s : State) : Host.Outcome State Fault Refusal :=
  effect s fun d => onlyIf (!d.pwr.vinWarn)
    (withWarning fun d => setLevel 144 true (updPwr (fun p => { p with vinWarn := true }) d)) d

/-- VIN_WARN_CLEAR (R371). -/
def execVinWarnClear (s : State) : Host.Outcome State Fault Refusal :=
  effect s fun d => onlyIf d.pwr.vinWarn
    (withWarning fun d => setLevel 144 false (updPwr (fun p => { p with vinWarn := false }) d)) d

/-- The filtered level of IN_PWRWARN: source 170 while energised; de-energised it shows a warning (R372). -/
def takePwrwarn (on : Bool) (d : Device) : Device :=
  withWarning (fun d => setLevel 170 on (updPwr (fun p => { p with pwrwarnOn := on, pwrwarn := !on }) d)) d

/-- The ticks for which a new level of input `j` must hold before it is accepted: the filters of IN_PWRWARN and IN_AUX (R419). -/
def inputFilter (d : Device) (j : Nat) : Nat :=
  match j with
  | 0 => d.regF 0x12018 7 0 * 250
  | 3 => d.regF 0x12018 15 8 * 250
  | _ => 0

/-- PWRWARN_INPUT_CHANGE (R372, R419). -/
def execPwrwarnInputChange (energised : Bool) (held : Nat) (s : State) : Host.Outcome State Fault Refusal :=
  effect s <| onlyIf (decide (inputFilter s.dev 0 ≤ held)) (takePwrwarn energised)

/-- The return condition holds (R371): no warning for 5 ms. -/
def returnHolds (d : Device) : Bool := !warning d && decide (d.pwr.clearSince + 5 * ticksPerMs ≤ d.now)

/-- SEALED goes to RE_ARMING: load on VIN, charger on (Table 14-2). -/
def beginReArm (d : Device) : Device := loadOnVin (updPwr (fun p => { p with st := .reArming, returned := true }) d)

/-- What the return condition does in each state (R375, R377, Table 14-2); a seal under way goes on (R378). -/
def takeReturn (d : Device) : Device :=
  match d.pwr.st with
  | .unarmed => loadOnVin (updPwr (fun p => { p with returned := true }) d)
  | .armed => loadOnVin (updPwr (fun p => { p with returned := true }) d)
  | .rideThrough => supplyByStack (loadOnVin (updPwr (fun p => { p with returned := true }) d))
  | .sealing => d
  | .sealed => beginReArm d
  | .reArming => d

/-- RETURN_CONDITION (R377). -/
def execReturnCondition (s : State) : Host.Outcome State Fault Refusal :=
  effect s fun d => onlyIf (returnHolds d) takeReturn d

/-! ### Seal (R378 to R382) -/

/-- Indices of ring `n` from `o` to its fetch position that were not dropped: they are not fetched again (R320). -/
def refetchSkip (d : Device) (n : Nat) (dropped : List Nat) : Nat → Nat → List Nat
  | 0, _ => []
  | k + 1, i =>
    if i = (d.sq n).fetch then []
    else if dropped.contains i then refetchSkip d n dropped k (ringNext (sqSize d n) i)
    else i :: refetchSkip d n dropped k (ringNext (sqSize d n) i)

/-- A fetched command that a seal drops: waiting, and not barred for good by a failed read (R317, R320). -/
def sealDrops (c : Cmd) : Bool := isWaiting c && c.phase != .dead

/-- The fetch position of ring `n` returns to its oldest dropped entry (R320). -/
def rewindRing (n : Nat) (d : Device) : Device :=
  let l := (d.hif.cmds.filter fun c => c.sq = n && sealDrops c && !c.discard).map (·.index)
  match l with
  | [] => d
  | o :: _ => updSq n (fun q => { q with fetch := o, skip := refetchSkip d n l (sqSize d n) o ++ q.skip }) d

/-- Waiting commands are dropped (R320). -/
def dropWaiting (d : Device) : Device :=
  let d := (List.range 8).foldl (fun d n => rewindRing n d) d
  updHif (fun h => { h with cmds := h.cmds.filter fun c => !sealDrops c, fetching := none }) d

/-- Reconciliation and catch-up stop: copies not yet verified are void, and the twins attach again after the re-arm (R293). -/
def stopCatchup (d : Device) : Device :=
  if d.lath.link = .reconciling || d.lath.link = .catchup then
    let d := (d.rcl.groups.filter unverifiedCopy).foldl (fun d g => voidGroup g.id d) d
    peerGone (updLath (fun l => { l with
      link := .attaching, openXids := [], exchanges := [], admissionHold := false, sentTopcoat := false, seenTopcoat := false,
      chainAsked := [], bootQueue := none }) d)
  else d

/-- The ring whose group is being written (R380). -/
def ringBeingWritten (d : Device) : Option Nat :=
  ((d.wrc.clusters.filter fun c => 1 ≤ c.ring && (List.range 18).any fun i => (wsector c i).st != .due).head?).map (·.ring)

/-- A seal begins (R379): SEALING is sent and Topcoat left, OUT_READY falls, polling stops as an excursion for invariant (d), waiting
commands are dropped; source 148. -/
def beginSeal (d : Device) : Device :=
  let d := updPwr (fun p => { p with
    st := .sealing, sealStep := 1, sealStart := d.now, sealRing := ringBeingWritten d }) (stopBleedAndTest (loadOnHawk d))
  let d := raise 148 d
  let d := stopCatchup (if d.gen.mode = .topcoat then setMode .undercoat d else tellMode d)
  let d := excTake 5 4 0 d
  let d := updHif (fun h => { h with pollSeal := true, polling := false, pollNow := false }) d
  pumpTwin (dropWaiting d)

/-- RIDE_THROUGH_WINDOW_EXPIRY (R378). -/
def execRideThroughWindowExpiry (s : State) : Host.Outcome State Fault Refusal :=
  effect s fun d => onlyIf (d.pwr.st = .rideThrough && decide (d.pwr.windowStart + d.pwr.windowMs * ticksPerMs ≤ d.now)) beginSeal d

/-- SEAL_LEVEL_TRIP (R374): the comparator on the coarse divider trips, source 146; in ARMED and RIDE_THROUGH a seal begins. -/
def execSealLevelTrip (s : State) : Host.Outcome State Fault Refusal :=
  effect s fun d =>
    let d := setLevel 146 true (updPwr (fun p => { p with sealTripped := true }) d)
    onlyIf (d.pwr.st = .armed || d.pwr.st = .rideThrough) beginSeal d

/-- The ring's next position goes back to the first group of its current zone that was placed and never begun. -/
def rewindPlacement (o : Nat) (d : Device) : Device :=
  let r := d.ring o
  match r.cur with
  | none => d
  | some i =>
    let z := ringZone r i
    let unbegun := d.wrc.clusters.filter fun c =>
      c.ring = o && c.kind != .fill && c.loc.layer = z.layer && c.loc.zone = z.zone && c.loc.pos < r.pos && !groupBegun d c
    let low := (unbegun.map fun c => (groupOf c.loc).2.1).foldl min r.pos
    let opening := d.wrc.clusters.any fun c => unbegun.any (fun u => u.id = c.id) && c.kind = .ringCheckpoint && c.loc.pos = zoneStart z.zone
    updRing o (fun r => { r with pos := low, needCkpt := r.needCkpt || (opening && low ≤ zoneStart z.zone) }) d

/-- What is to be filled after the seal in the ring's interrupted group, and in the checkpoint's (R192). -/
def noteFill (o : Nat) (d : Device) : Device :=
  let r := d.ring o
  match r.cur with
  | none => d
  | some i =>
    let z := ringZone r i
    let (before, at_) := sealGroups r z
    let (_, _, m) := groupOf ⟨z.layer, z.zone, at_⟩
    let b := before.getD (at_, 0)
    let frames := (List.range (18 * b.2)).filter fun f => !frameStarted d z.layer z.zone b.1 b.2 r.pos f
    let later := (List.range (18 * m)).filter fun f => 18 ≤ f && !positionTaken d ⟨z.layer, z.zone, at_ + f % m⟩
    let f : SealFill := { ring := o, layer := z.layer, zone := z.zone, first := b.1, depth := b.2, frames := frames,
                          next := if sealFits d z at_ m then some (at_, m, later) else none }
    updPwr (fun p => { p with sealFill := some f }) d

/-- A cluster that has not been verified is abandoned, and what waits for a cluster of its kind is queued anew for after the re-arm (R162,
R381). -/
def abandonCluster (c : WriteCluster) (d : Device) : Device :=
  let d := (List.range 18).foldl (fun d i => excursionOver (clusterPsa c i) d) (dropCluster c.id d)
  let d := failCluster c stAbortedPower d
  match c.kind with
  | .directory => rewriteDirectory c d
  | .activation _ => updRcl (fun r => { r with actPending := none, actQueue := [] }) d
  | _ => d

/-- Groups in assembly buffers are lost with their commands (R381). -/
def abandonAssemblies (d : Device) : Device :=
  let d := updRcl (fun r => { r with rings := r.rings.map fun p => (p.1, { p.2 with assembly := none, waiting := [] }) }) d
  (d.rcl.groups.filter fun g => g.st = .open).foldl (fun d g => failGroup g.id stAbortedPower d) d

/-- A started command that a seal ends: it needs the medium and is not a mode request, whose steps go on after the re-arm (R381, R463). -/
def sealEnds (c : Cmd) : Bool := c.started && needsMedium c && eOpcode c.entry != 0x50

/-- Owner operations go on after the re-arm; their commands have completed (R381). -/
def detachOwnerOps : Device → Device := updCry fun c => { c with ops := c.ops.map fun o => { o with tag := none } }

/-- Started commands settle at the end of the finish step (R381); a ring in phase B of its recovery receives it again (R452). -/
def settleSeal (old : List WriteCluster) (d : Device) : Device :=
  let d := old.foldl (fun d c => abandonCluster c d) d
  let d := settleGroups (abandonAssemblies d)
  let d := dropReads (fun _ => true) (finishAll sealEnds stAbortedPower d)
  let again (r : Ring) : Ring := if r.recovery = .phaseB then { r with recovery := .phaseADone } else r
  let d := updRcl (fun r => { r with rings := r.rings.map fun p => (p.1, again p.2) }) d
  updGen (fun g => { g with ejectTag := none }) (updLath (fun l => { l with gapReads := [] }) (detachOwnerOps d))

/-- The park step begins: laser off, focus open, sled parked by ramp, spindle braked (R78, R103, R378). -/
def beginSealPark (d : Device) : Device :=
  let d := updPwr (fun p => { p with sealStep := 3 }) d
  refreshInhibit (standParked d)

/-- The finish step ends: commands settle, and the seal checkpoint is queued in the ring interrupted, or in the one last written; with
neither the step is skipped (R380, R381). -/
def finishSealStep (d : Device) : Device :=
  let old := d.wrc.clusters
  let d := updWrc (fun w => { w with writing := none }) d
  let ring := match d.pwr.sealRing with | some o => some o | none => d.rcl.lastWritten
  match ring with
  | some o =>
    let d := queueSeal o (noteFill o (rewindPlacement o d))
    settleSeal old (updPwr (fun p => { p with sealStep := 2 }) d)
  | none => beginSealPark (settleSeal old d)

/-- SEAL_FINISH_END (R381). -/
def execSealFinishEnd (s : State) : Host.Outcome State Fault Refusal :=
  effect s fun d => onlyIf (d.pwr.st = .sealing && d.pwr.sealStep = 1) finishSealStep d

/-- A seal checkpoint can still pass RAW: it waits, and no sector of it has failed (R162). -/
def checkpointAlive (d : Device) : Bool :=
  d.wrc.clusters.any fun c => c.kind = .sealCheckpoint
    && (List.range 18).all fun i => (wsector c i).st != .failed && (wsector c i).st != .interrupted

/-- The checkpoint is given up: those of its frames that were never started are filled with the rest of its group (R192). -/
def dropCheckpoint (c : WriteCluster) (d : Device) : Device :=
  let due := (List.range 18).filter fun i => !sectorStarted c i
  let widen (f : SealFill) : SealFill :=
    match f.next with
    | some (a, m, fs) => if a = c.loc.pos && f.ring = c.ring then { f with next := some (a, m, due ++ fs) } else f
    | none => f
  dropCluster c.id (updPwr (fun p => { p with sealFill := p.sealFill.map widen }) d)

/-- SEAL_CHECKPOINT_END (R380): the checkpoint has passed RAW, or can no longer; the park step begins. -/
def execSealCheckpointEnd (s : State) : Host.Outcome State Fault Refusal :=
  effect s fun d => onlyIf (d.pwr.st = .sealing && d.pwr.sealStep = 2 && !checkpointAlive d)
    (fun d => beginSealPark ((d.wrc.clusters.filter fun c => c.kind = .sealCheckpoint).foldl (fun d c => dropCheckpoint c d) d)) d

/-- The sled has come to rest: parked, or in FAULT (R103). -/
def sledAtRest (d : Device) : Bool := !d.motion.parking && !d.motion.ramping && planOver d.now d.motion

/-- Spindle revolutions counted (R506). -/
def revolutions (d : Device) : Nat := d.gen.edges / 1152

/-- The seal's event-log entry with the wear counters (R506, R507); nothing is written in Primer (R430). -/
def sealEntry (d : Device) : Device :=
  let d := logEvent 4 0 0 (leBytes 4 d.gen.laserSeconds ++ leBytes 8 (revolutions d)) d
  if d.gen.mode = .primer then d else { d with nv := { d.nv with sealWear := (d.gen.laserSeconds, revolutions d) } }

/-- The seal is complete: OUT_SEALED is energised, source 149; a return condition that already holds begins the re-arm at once (R374,
R378). -/
def sealDone (d : Device) : Device :=
  let d := updPwr (fun p => { p with
    st := .sealed, sealStep := 4, seals := min 0xFFFF (p.seals + 1), lastSeal := min 0xFFFFFFFF (d.now - p.sealStart) }) d
  let d := sealEntry (raise 149 (updRcl (fun r => { r with lastWritten := none }) d))
  if returnHolds d then beginReArm d else d

/-- SEAL_PARK_END (R378). -/
def execSealParkEnd (s : State) : Host.Outcome State Fault Refusal :=
  effect s fun d => onlyIf (d.pwr.st = .sealing && d.pwr.sealStep = 3 && sledAtRest d) sealDone d

/-! ### Stack monitor (R386 to R392) -/

/-- The REF_B check of a cycle (R387): a failing cycle discards its readings, latches FAIL and raises source 152. -/
def refCheck (refB : Nat) (d : Device) : Device :=
  let d := updPwr (fun p => { p with refB := refB }) d
  if refB < 1244 || 1256 < refB then
    raise 152 (updPwr (fun p => { p with
      cellsValid := false, refFail := true, refFails := p.refFails + 1, refPasses := 0
      monFault := p.monFault || 3 ≤ p.refFails + 1 }) d)
  else updPwr (fun p => { p with
    refFails := 0, refPasses := p.refPasses + 1, monFault := p.monFault && p.refPasses + 1 < 100 }) d

/-- The open-wire test of every 100th cycle (R388): source 152 for a tap that moves by more than 50 mV. -/
def wireTest (moves : List Nat) (d : Device) : Device :=
  let open_ := (List.range 7).filter fun j => 50 < moves.getD j 0
  let d := updPwr (fun p => { p with openWire := BitVec.ofNat 7 ((open_.map fun j => 2 ^ j).foldl (· + ·) 0) }) d
  if open_.isEmpty then d else raise 152 d

/-- The readings of six valid cells against the coarse reading (R389). A cycle without six valid readings breaks both runs. -/
def mismatchCheck (d : Device) : Device :=
  let sum := d.pwr.cells.foldl (· + ·) 0
  let far := 500 < (((sum : Nat) : Int) - (d.pwr.coarse : Int)).natAbs
  if !((List.range 6).all (cellValid d)) then updPwr (fun p => { p with diffRun := 0, sameRun := 0 }) d
  else if far then
    let set := 100 ≤ d.pwr.diffRun + 1 && !d.pwr.mismatch
    let d := updPwr (fun p => { p with diffRun := p.diffRun + 1, sameRun := 0, mismatch := p.mismatch || set }) d
    if set then raise 152 d else d
  else updPwr (fun p => { p with diffRun := 0, sameRun := p.sameRun + 1, mismatch := p.mismatch && p.sameRun + 1 < 100 }) d

/-- Cell `i` is in alarm (R390). -/
def cellInAlarm (d : Device) (i : Nat) : Bool :=
  let mv := d.pwr.cells.getD i 0
  cellValid d i && (d.regF 0xF008 27 16 < mv
    || 6 * d.regF 0x10024 11 0 < (6 * (mv : Int) - (stackReading d : Int)).natAbs)

/-- CELL_ALARM follows its condition, and source 153 is the OR of all six (R390). -/
def alarmCheck (d : Device) : Device :=
  let bits := (List.range 6).filter (cellInAlarm d)
  setLevel 153 (!bits.isEmpty) (updPwr (fun p => { p with cellAlarm := BitVec.ofNat 6 ((bits.map fun i => 2 ^ i).foldl (· + ·) 0) }) d)

/-- Sources 145 and 146 follow the stack (Table 13-6). -/
def stackLevels (d : Device) : Device :=
  let d := updPwr (fun p => { p with sealTripped := d.pwr.coarse < 9000 }) d
  setLevel 146 d.pwr.sealTripped (setLevel 145 (!admitLevel d) d)

/-- The charger's phase after a reading, with the charge current in mA (R385). -/
def chargerStep (current : Nat) (d : Device) : Device :=
  if !chargerMay d then chargerOff d
  else
    let r := stackReading d
    let full := if cellsOk d then 14400 else 13800
    let next := match d.pwr.charger with
      | .off => Charger.current
      | .current => if full ≤ r then .voltage else .current
      | .voltage => if current < 50 then .float else .voltage
      | .float => if r < 14200 then .current else .float
    let top := d.regF 0xF008 27 16
    let high := cellsOk d && d.pwr.cells.any fun c => top < c
    let low := cellsOk d && d.pwr.cells.all fun c => c + 20 ≤ top
    updPwr (fun p => { p with charger := next, pause := high || (p.pause && !low) }) d

/-- A cycle's command frame while the chain is lost restarts the monitor, which clears every bleed (R392). -/
def restartMonitor (d : Device) : Device :=
  if d.pwr.chainLost then countF 0x10048 15 0 (updPwr (fun p => { p with bleed := 0 }) d) else d

/-- The cycle's cell readings, when six arrive and REF_B passes (R386, R387). -/
def takeCells (cells : List Nat) (refB : Nat) (d : Device) : Device :=
  if refB < 1244 || 1256 < refB then d
  else if cells.length = 6 then updPwr (fun p => { p with cells := cells.map (min 0xFFFF), cellsValid := true }) d
  else updPwr (fun p => { p with cellsValid := false }) d

/-- After the checks of a cycle: with the chain lost, a cycle with valid readings is noted (R392). -/
def noteBeat (d : Device) : Device :=
  if d.pwr.chainLost && d.pwr.cellsValid then updPwr (fun p => { p with beatSince := some d.now }) d else d

/-- The results of a cycle: REF_B judges the readings, and every 100th cycle tests the taps. Without results no reading is valid (R386 to
R388). -/
def takeResults (cells : List Nat) (refB : Nat) (tapMoves : List Nat) (d : Device) : Device :=
  if cells.length = 6 then
    let d := refCheck refB (takeCells cells refB d)
    if d.pwr.cycles % 100 = 0 then wireTest tapMoves d else d
  else updPwr (fun p => { p with cellsValid := false }) d

/-- STACK_MONITOR_CYCLE (R386): readings, checks, alarms, charger and the transitions that the stack makes. -/
def monitorCycle (cells : List Nat) (refB coarse current : Nat) (tapMoves : List Nat) (d : Device) : Device :=
  let d := updPwr (fun p => { p with coarse := min 0xFFFF coarse, cycleAt := d.now, cycles := p.cycles + 1 }) (restartMonitor d)
  let d := takeResults cells refB tapMoves d
  let d := stackLevels (alarmCheck (mismatchCheck (noteBeat d)))
  supplyByStack (chargerStep current d)

/-- STACK_MONITOR_CYCLE (R386). -/
def execStackMonitorCycle (cells : List Nat) (refB coarse current : Nat) (tapMoves : List Nat) (s : State) :
    Host.Outcome State Fault Refusal :=
  effect s fun d => onlyIf (decide (d.pwr.cycleAt + 250000 ≤ d.now)) (monitorCycle cells refB coarse current tapMoves) d

/-- HEARTBEAT_LOSS (R392), after 50,000 ticks without an edge: STACK_CHAIN_LOST, source 147, counted, every reading not VALID. -/
def execHeartbeatLoss (quiet : Nat) (s : State) : Host.Outcome State Fault Refusal :=
  effect s fun d => onlyIf (!d.pwr.chainLost && decide (50000 ≤ quiet))
    (fun d => setLevel 147 true (countF 0x10048 31 16 (updPwr (fun p => { p with
      chainLost := true, cellsValid := false, beatSince := none }) d))) d

/-- HEARTBEAT_RESTORED (R392): present for 20 ms, and a cycle has delivered valid readings. -/
def execHeartbeatRestored (present : Nat) (s : State) : Host.Outcome State Fault Refusal :=
  effect s fun d => onlyIf (d.pwr.chainLost && d.pwr.beatSince.isSome && decide (500000 ≤ present))
    (fun d => setLevel 147 false (updPwr (fun p => { p with chainLost := false, beatSince := none }) d)) d

/-! ### Balancing (R393) -/

/-- A write of HUS.BALANCE: bleeds for DURATION ms; 0 stops them. A reserved DURATION keeps its previous value, and MASK takes effect
(R10). In Primer nothing bleeds. -/
def balance (v : Word32) (d : Device) : Device :=
  let ms := if fld v 26 16 ≤ 2000 then fld v 26 16 else d.pwr.balanceMs
  let d := updPwr (fun p => { p with balanceMs := ms }) d
  if d.gen.mode = .primer then d
  else if ms = 0 then updPwr (fun p => { p with bleed := 0 }) d
  else updPwr (fun p => { p with bleed := BitVec.ofNat 6 (fld v 5 0), bleedEnd := d.now + ms * ticksPerMs }) d

/-- BALANCE_COMMAND (R393): the management pair alone. -/
def execBalanceCommand (who : Requester) (value : Word32) (s : State) : Host.Outcome State Fault Refusal :=
  effect s (gate who 0x10028 false (balance value))

/-- BALANCE_EXPIRY (R393): source 154. -/
def execBalanceExpiry (s : State) : Host.Outcome State Fault Refusal :=
  effect s fun d => onlyIf (d.pwr.bleed != 0 && decide (d.pwr.bleedEnd ≤ d.now))
    (fun d => raise 154 (updPwr (fun p => { p with bleed := 0 }) d)) d

/-! ### Health test (R394, R395) -/

/-- DISCHARGE_TEST_REQUEST (R394): TEST_CFG.START by the management pair. -/
def execDischargeTestRequest (who : Requester) (s : State) : Host.Outcome State Fault Refusal :=
  effect s (gate who 0x10030 false (updPwr fun p => { p with testDue := p.testDue || !p.testRunning }))

/-- INTERVAL days have passed since the last completed test (R394). -/
def testIntervalOver (d : Device) : Bool :=
  let days := d.regF 0x10030 7 0
  0 < days && decide (d.pwr.testTick + days * 86400 * ticksPerS ≤ d.now)

/-- DISCHARGE_TEST_DUE (R394). Primer runs no tests (Table 15-3). -/
def execDischargeTestDue (s : State) : Host.Outcome State Fault Refusal :=
  effect s fun d => onlyIf (testIntervalOver d && d.gen.mode != .primer) (updPwr fun p => { p with testDue := p.testDue || !p.testRunning }) d

/-- DISCHARGE_TEST_START (R394): ARMED, at float, no warning, no bleed. -/
def execDischargeTestStart (s : State) : Host.Outcome State Fault Refusal :=
  effect s fun d => onlyIf (d.pwr.testDue && d.gen.mode != .primer && !d.pwr.testRunning && d.pwr.st = .armed && d.pwr.charger = .float && !warning d
      && d.pwr.bleed = 0) (fun d => chargerOff (updPwr (fun p => { p with testRunning := true }) d)) d

/-- Usable energy in mJ for a capacitance in mF and an ESR in µΩ: 19.375 C − 5.2983 ESR (R395). -/
def usableEnergy (mf uohm : Int) : Int := roundDiv (193750000 * mf - 52983 * uohm) 10000000

/-- The test ends: C, ESR and the usable energy from the predicted values, source 155; below 25 J the end-of-life flag and source 156
(R394, R395). An energy below 0 has no value in the manual (log entry 7). -/
def testDone (fallMv ticks : Nat) (d : Device) : Device :=
  let c : Int := roundDiv (ticks : Int) 20000
  let esr : Int := 1000 * fallMv
  let cp := if d.pwr.tested then min c (2 * c - d.pwr.cap) else c
  let ep := if d.pwr.tested then max esr (2 * esr - d.pwr.esr) else esr
  let e := usableEnergy cp ep
  let mj := if e < 0 then (freeDraw d).toNat else e.toNat
  let d := if e < 0 then drawn d else d
  let d := updPwr (fun p => { p with
    cap := c.toNat, esr := esr.toNat, usable := mj, testTick := d.now, tested := true, testDue := false, testRunning := false
    eol := e < 25000 }) d
  let d := raise 155 (chargerOn d)
  if e < 25000 then raise 156 d else d

/-- DISCHARGE_TEST_DONE (R395). -/
def execDischargeTestDone (fallMv : Nat) (ticks : Nat) (s : State) : Host.Outcome State Fault Refusal :=
  effect s fun d => onlyIf d.pwr.testRunning (testDone fallMv ticks) d

/-! ### VIN and temperatures (R371, R503) -/

/-- VIN_ADC_SAMPLE (R371), every 1 ms: PWR.VIN, and source 157 outside 19.2 V to 30 V. -/
def execVinAdcSample (vin field : Nat) (s : State) : Host.Outcome State Fault Refusal :=
  effect s fun d => onlyIf (decide (d.pwr.adcAt + ticksPerMs ≤ d.now)) (fun d => setLevel 157 (decide (vin < 19200) || decide (30000 < vin))
    (updPwr (fun p => { p with vin := min 0xFFFF vin, field := min 0xFFFF field, adcAt := d.now }) d)) d

/-- JUNCTION_TEMPERATURE_LIMIT (R503): source 26 while either reading exceeds 110 °C. -/
def execJunctionTemperatureLimit (core afe : Int) (s : State) : Host.Outcome State Fault Refusal :=
  effect s fun d => setLevel 26 (decide (110 < core) || decide (110 < afe))
    (updPwr (fun p => { p with tempCore := core, tempAfe := afe }) d)

end Sys2Proof.Machine
end

