-- ==== Sys2Proof/Machine/Lockstep.lean ====
section
/-!
DEFINITION. Lockstep supervision of the management pair (R397 to R405, R423): mismatches, the comparator self-test, delay registers and
warm restarts.
-/

namespace Sys2Proof.Machine

/-! ### Delay registers (R397 to R399) -/

/-- The 72 bits that the comparator compares (R398). -/
def busBits (t : BusCopy) : BitVec 72 := t.kind ++ t.enables ++ t.data ++ t.addr

/-- A delay register's 72 bits with an even parity bit for every 8. -/
def withParity (v : BitVec 72) : BitVec 81 :=
  let odd (k : Nat) : Bool := ((List.range 8).filter fun b => v.getLsbD (8 * k + b)).length % 2 = 1
  v.setWidth 81 ||| BitVec.ofNat 81 (((List.range 9).filter odd).foldl (fun m k => m + 2 ^ (72 + k)) 0)

/-- A delay register that holds `v`, and whose copies have the bits given upset. -/
def delayed (v : BitVec 72) (upsetA upsetB : BitVec 81) : DelayReg := { a := withParity v ^^^ upsetA, b := withParity v ^^^ upsetB }

/-- The parity of a copy is right. -/
def parityOk (x : BitVec 81) : Bool := withParity (x.setWidth 72) = x

/-- What a use of a delay register finds: 3 a parity error in either copy, 4 unequal copies (R399, PRIMER_CAUSE of Table 15-7). -/
def delayFault (r : DelayReg) : Option Nat :=
  if !parityOk r.a || !parityOk r.b then some 3 else if r.a = r.b then none else some 4

/-- One token: the leading core performs a step, with or without a bus transaction, and the trailing core the step two before it, for
which it takes the inputs held (R397). -/
def coreToken (out : Option DelayReg) (c : CorePair) : CorePair :=
  let held := c.inputs ++ [delayed (Config.coreInput c.lead) 0 0]
  let waits := c.outputs ++ (out.toList.map fun r => (c.lead, r))
  if held.length ≤ 2 then { c with lead := c.lead + 1, inputs := held, outputs := waits }
  else { lead := c.lead + 1, trail := c.trail + 1, inputs := held.drop 1, outputs := waits }

/-- The pair at a tick: a token while it runs, and every 25,000 ticks the next transaction is to carry a test (R397, R400). -/
def pairTick (d : Device) : Device :=
  if pairRuns d then
    updLsk (fun l => { l with cores := coreToken none l.cores, testDue := l.testDue || d.now % 25000 = 0 }) d
  else d

/-- The trailing core has produced its copy of the oldest transaction, and the delay register is free (R397). -/
def freeOutput : Device → Device := updLsk fun l => { l with cores := { l.cores with outputs := l.cores.outputs.drop 1 } }

/-- The leading core issues a transaction, and two tokens later the trailing core produces its copy (R397). -/
def issuePair (r : DelayReg) : Device → Device :=
  updLsk fun l => { l with cores := coreToken none (coreToken none (coreToken (some r) l.cores)) }

/-- DELAY_REGISTER_FAULT, of cause 3 or 4: Primer at once, sources 164 and 162 (R399, R401). -/
def delayFaulted (cause : Nat) (d : Device) : Device := enterPrimer cause (logSafety cause 0 2 0 (raise 164 d))

/-- A warm restart begins: both cores are held, both copies of every delay register are zeroed, and every T0 active state ends (R360,
R402). -/
def beginRestart (d : Device) : Device :=
  endActive 0 (updLsk (fun l => { l with
    pair := .restarting, restartStart := d.now, testDue := false, cores := { l.cores with inputs := [], outputs := [] } }) d)

/-- A core mismatch is answered: a warm restart, or Primer when two earlier mismatches lie in the preceding 10 s, one exactly 10 s earlier included
(R401, R510). -/
def mismatchAt (addr : Word32) (d : Device) : Device :=
  let earlier := d.lsk.mismatches.filter fun t => decide (d.now ≤ t + 10 * ticksPerS)
  let d := updLsk (fun l => { l with mismatches := d.now :: earlier, count := min 0xFFFFFFFF (l.count + 1), addr := addr }) d
  let d := raise 160 d
  if 2 ≤ earlier.length then enterPrimer 1 (logSafety 1 0 2 addr d)
  else beginRestart (logSafety 1 0 1 addr d)

/-- CORE_MISMATCH: the comparator takes both copies. A delay-register fault is one before anything else (R423); unequal copies are a core
mismatch, and the transaction is not released; equal ones are released (R398). -/
def coreMismatch (lead trail : BusCopy) (upsetA upsetB : BitVec 81) (d : Device) : Device :=
  let r := delayed (busBits lead) upsetA upsetB
  let d := issuePair r d
  match delayFault r with
  | some cause => delayFaulted cause d
  | none => if r.a.setWidth 72 = busBits trail then freeOutput d else mismatchAt (r.a.setWidth 32) d

/-- CORE_MISMATCH (R401). -/
def execCoreMismatch (lead trail : BusCopy) (upsetA upsetB : BitVec 81) (s : State) : Host.Outcome State Fault Refusal :=
  effect s fun d => onlyIf (pairRuns d) (coreMismatch lead trail upsetA upsetB) d

/-- The bit inverted by the present test; the next test takes the next (R400). -/
def nextTest : Device → Device :=
  updLsk fun l => { l with lastBit := l.nextBit, nextBit := (l.nextBit + 1) % 72, testDue := false }

/-- A self-test failure: Primer at once, sources 163 and 162 (R401). -/
def selftestFailed (d : Device) : Device :=
  let d := raise 163 (nextTest d)
  enterPrimer 2 (logSafety 2 0 2 (BitVec.ofNat 32 d.lsk.lastBit) d)

/-- LOCKSTEP_SELFTEST: one bit of the trailing core's copy is inverted on its way to the comparator. The test passes when the comparator
flags that bit; any other bit it flags is a core mismatch, and without one the transaction is released (R400). -/
def lockstepSelftest (lead trail : BusCopy) (d : Device) : Device :=
  let flip : BitVec 72 := BitVec.ofNat 72 (2 ^ d.lsk.nextBit)
  let flagged := busBits lead ^^^ (busBits trail ^^^ flip)
  let d := issuePair (delayed (busBits lead) 0 0) d
  if flagged &&& flip = 0 then selftestFailed d
  else
    let d := nextTest (updLsk (fun l => { l with passes := min 0xFFFFFF (l.passes + 1) }) d)
    if flagged = flip then freeOutput d else mismatchAt lead.addr d

/-- LOCKSTEP_SELFTEST (R400). -/
def execLockstepSelftest (lead trail : BusCopy) (s : State) : Host.Outcome State Fault Refusal :=
  effect s fun d => onlyIf (pairRuns d && d.lsk.testDue) (lockstepSelftest lead trail) d

/-- LOCKSTEP_SELFTEST_FAIL (R401): the comparator did not flag the bit within 25 ticks. -/
def execLockstepSelftestFail (s : State) : Host.Outcome State Fault Refusal :=
  effect s fun d => onlyIf (pairRuns d && d.lsk.testDue) selftestFailed d

/-- DELAY_REGISTER_FAULT: the delay register in use, the oldest that holds inputs, has bits of its copies upset (R399, R401). -/
def delayRegisterFault (upsetA upsetB : BitVec 81) (d : Device) : Device :=
  let r := d.lsk.cores.inputs.headD {}
  match delayFault { a := r.a ^^^ upsetA, b := r.b ^^^ upsetB } with
  | some cause => delayFaulted cause d
  | none => d

/-- DELAY_REGISTER_FAULT (R399). -/
def execDelayRegisterFault (upsetA upsetB : BitVec 81) (s : State) : Host.Outcome State Fault Refusal :=
  effect s fun d => onlyIf (pairRuns d) (delayRegisterFault upsetA upsetB) d

/-- The pair runs again: source 161, and a trial image marks its start (R402, R471). -/
def restartDone (d : Device) : Device :=
  raise 161 <| imageStarts (updLsk (fun l => { l with
    pair := .running, restarts := min 0xFFFF (l.restarts + 1), lastUs := min 0xFFFF ((d.now - l.restartStart) / 25) }) d)

/-- WARM_RESTART_DONE: the image in use passes its CRC; or the other one does, and the pair runs from it, source 165; or neither, and
Primer follows (R401, R402). -/
def warmRestartDone (crcOk otherOk : Bool) (d : Device) : Device :=
  let image : Word32 := if d.lsk.imageB then 1 else 0
  if crcOk then restartDone d
  else if otherOk then
    restartDone (updLsk (fun l => { l with imageB := !l.imageB }) (logSafety 5 0 4 image (raise 165 d)))
  else enterPrimer 5 (logSafety 5 0 2 image (raise 165 d))

/-- WARM_RESTART_DONE (R402). -/
def execWarmRestartDone (crcOk otherOk : Bool) (s : State) : Host.Outcome State Fault Refusal :=
  effect s fun d => onlyIf (d.lsk.pair = .restarting) (warmRestartDone crcOk otherOk) d

end Sys2Proof.Machine
end

