-- ==== Sys2Proof/Machine/FieldIo.lean ====
section
/-!
DEFINITION. Field outputs, their test pulses and checks, wired groups, fault clearing and field inputs (R406 to R419, R422, R490).
-/

namespace Sys2Proof.Machine

/-! ### Drivers and windows (R409, R415) -/

/-- Output `i` is held off by a test window now. -/
def inPulse (d : Device) (i : Nat) : Bool := d.fio.pulsing.getLsbD i && decide (d.now < d.fio.windowEnd)

/-- OUT_STATUS.ON: the driver is on. -/
def driverOn (d : Device) (i : Nat) : Bool := energised d i && !inPulse d i

/-- The four drivers. -/
def driversOn (d : Device) : BitVec 4 :=
  BitVec.ofNat 4 (((List.range 4).filter (driverOn d)).foldl (fun m i => m + 2 ^ i) 0)

/-- PERIOD in force, in ticks. -/
def pulsePeriod (d : Device) : Nat := fld d.fio.cfgNow 9 0 * ticksPerMs

/-- WIDTH in force, in ticks. -/
def pulseWidth (d : Device) : Nat := fld d.fio.cfgNow 19 16 * 2500

/-- PULSE_EN of an output; OUT_HEALTHY is always pulsed. -/
def pulseEnabled (d : Device) (i : Nat) : Bool := i = 0 || (fld d.fio.cfgNow 27 24).testBit i

/-- Lowest index set in a mask of four. -/
def lowestOut (m : Nat) : Option Nat := (List.range 4).find? m.testBit

/-- Output `i` is a local member of the group in force. -/
def groupMember (d : Device) (i : Nat) : Bool := (groupLocal d).testBit i

/-- This twin pulses and checks its group: local, synchronised, or driven by it alone (R415, R417). -/
def groupActive (d : Device) : Bool := groupLocal d != 0 && (groupPeer d = 0 || synchronised d || drivesAlone d)

/-- Length of a slot, an eighth of the period (R409). -/
def slotLength (d : Device) : Nat := pulsePeriod d / 8

/-- What the window in the slot of output `i` covers: the joint window, the group window, its own, or nothing where another window
replaces it (R409, R412, R415). -/
def windowMask (d : Device) (i : Nat) : Nat :=
  let j := d.fio.joint.toNat
  if j.testBit i then (if lowestOut j = some i then j else 0)
  else if groupMember d i then (if groupActive d && lowestOut (groupLocal d) = some i then groupLocal d else 0)
  else 2 ^ i

/-- Width of the window in the slot of output `i`: PULSE_CFG.WIDTH, or for a group timed by PULSE_SYNC the width it gave (R409, R416). -/
def windowWidth (d : Device) (i : Nat) : Nat :=
  match d.fio.groupWindow with
  | some (_, w) => if groupMember d i && groupPeer d != 0 && twinId d = 1 && synchronised d then w * 2500 else pulseWidth d
  | none => pulseWidth d

/-- The instant at which the window in the slot of output `i` begins: slot 2i + TWIN_ID, for a group the slot of TWIN_ID 0's schedule, or
on TWIN_ID 1 the start that PULSE_SYNC gave (R409, R415, R416). -/
def windowOpens (d : Device) (i : Nat) : Nat :=
  let own := d.fio.periodStart + (2 * i + twinId d) * slotLength d
  let group := d.fio.periodStart + 2 * i * slotLength d
  if !groupMember d i || d.fio.joint.getLsbD i then own
  else
    match d.fio.groupWindow with
    | some (t, _) => if groupPeer d != 0 && twinId d = 1 && synchronised d then t else group
    | none => group

/-- TEST_PULSE_WINDOW: the drivers of energised, pulsed outputs are off for WIDTH (R409). In a joint window every driver of it is off. -/
def pulseWindow (i : Nat) (d : Device) : Device :=
  let m := windowMask d i
  let off := (List.range 4).filter fun k => m.testBit k && energised d k && (pulseEnabled d k || d.fio.joint.getLsbD k)
  if m = 0 then d
  else updFio (fun f => { f with
    pulsing := BitVec.ofNat 4 (off.foldl (fun m k => m + 2 ^ k) 0), windowEnd := d.now + windowWidth d i }) d

/-- TEST_PULSE_WINDOW (R409). -/
def execTestPulseWindow (out : Nat) (s : State) : Host.Outcome State Fault Refusal := 
  effect s fun d => onlyIf (decide (out < 4 ∧ d.now = windowOpens d out)) (pulseWindow out) d

/-! ### Latching (R413) -/

/-- A mask of four as its bits. -/
def maskOf (l : List Nat) : BitVec 4 := BitVec.ofNat 4 (((List.range 4).filter l.contains).foldl (fun m i => m + 2 ^ i) 0)

/-- EXT_DRIVE or CROSS_CONNECT on the outputs named: latched off, source 166 or 168, counted, and entered in the safety fault log (R413). -/
def latchOutputs (cross : Bool) (l : List Nat) (d : Device) : Device :=
  let m := maskOf l
  if m = 0 then d
  else
    let d := updFio (fun f => if cross then { f with cross := f.cross ||| m } else { f with ext := f.ext ||| m }) d
    let d := countN 0x12020 ((List.range 4).filter m.getLsbD).length d
    raise (if cross then 168 else 166) (logSafety (if cross then 7 else 6) m 3 0 d)

/-- A fault latches output `i` off. -/
def isLatched (d : Device) (i : Nat) : Bool := d.fio.ext.getLsbD i || d.fio.cross.getLsbD i

/-! ### Checks (R411, R412) -/

/-- Output `i` has a check of its own in this period (R411, R412, R415, R417). -/
def hasCheck (d : Device) (i : Nat) : Bool :=
  !isLatched d i && !groupMember d i && !d.fio.joint.getLsbD i && (!outCondition d i || (energised d i && pulseEnabled d i))

/-- The joint window's sample settles it: low on two or more is CROSS_CONNECT, high is EXT_DRIVE, low on one alone clears it (R412). -/
def settleJoint (pins : BitVec 4) (d : Device) : Device :=
  let members := (List.range 4).filter d.fio.joint.getLsbD
  let low := members.filter fun i => !pins.getLsbD i
  let high := members.filter pins.getLsbD
  let d := countN 0x1201C members.length (updFio (fun f => { f with joint := 0 }) d)
  let d := latchOutputs false high d
  if 2 ≤ low.length then latchOutputs true low d else d

/-- PULSE_SAMPLE_INSTANT: the four pins are sampled at the instant of output `i`, of its group, or of the joint window (R411, R412, R414,
R415). -/
def pulseSample (i : Nat) (pins : BitVec 4) (d : Device) : Device :=
  let m := windowMask d i
  if m = 0 then d
  else
    let seen := BitVec.ofNat 4 m
    let d := updFio (fun f => { f with
      lowSoFar := f.lowSoFar &&& ~~~ pins, sampled := true, pin := (f.pin &&& ~~~ seen) ||| (pins &&& seen) }) d
    if d.fio.joint.getLsbD i then settleJoint pins d
    else if groupMember d i then
      count 0x1201C (updFio (fun f => { f with groupFailed := some ((pins &&& seen) != 0) }) d)
    else if hasCheck d i then
      let c : PulseCheck := { out := i, high := pins.getLsbD i, pins := pins, drivers := driversOn d }
      count 0x1201C (updFio (fun f => { f with checks := f.checks ++ [c] }) d)
    else d

/-- PULSE_SAMPLE_INSTANT (R411): WIDTH − 50 µs after the window's start. -/
def execPulseSampleInstant (out : Nat) (pins : BitVec 4) (s : State) : Host.Outcome State Fault Refusal :=
  effect s fun d => onlyIf (decide (out < 4 ∧ d.now + 1250 = windowOpens d out + windowWidth d out)) (pulseSample out pins) d

/-- Outputs connected with the failed check of X: their drivers were on at X's instant, and X read low at theirs (R412 (a)). -/
def crossedWith (cs : List PulseCheck) (x : PulseCheck) : List Nat :=
  (cs.filter fun y => y.out != x.out && x.drivers.getLsbD y.out && !y.pins.getLsbD x.out).map (·.out)

/-- The failed checks of a period are settled (R412, R415). -/
def settleChecks (d : Device) : Device :=
  let cs := d.fio.checks
  let failed := cs.filter (·.high)
  let d := failed.foldl (fun d x =>
    let ys := crossedWith cs x
    if ys.isEmpty then d else latchOutputs true (x.out :: ys) d) d
  let rest := (failed.map (·.out)).filter fun i => !isLatched d i
  let d := if rest.length = 1 then latchOutputs false rest d else d
  let d := if 2 ≤ rest.length then updFio (fun f => { f with joint := maskOf rest }) d else d
  if d.fio.groupFailed = some true then latchOutputs false ((List.range 4).filter (groupMember d)) d else d

/-- A change of the group's synchronisation enters the safety fault log (R417). -/
def noteSync (d : Device) : Device :=
  let now := groupPeer d != 0 && synchronised d
  if d.fio.sync = now then d
  else logSafety 11 (BitVec.ofNat 4 (groupLocal d)) 0 (if now then 1 else 0) (updFio (fun f => { f with sync := now }) d)

/-- TWIN_ID 0 sends PULSE_SYNC for a group with peer members at the start of a period (R416). -/
def sendSync (d : Device) : Device :=
  match lowestOut (groupLocal d) with
  | some i =>
    if groupPeer d != 0 && twinId d = 0 && d.lath.live then
      sendMsg (.pulseSync (pulsePeriod d * i / 4) (fld d.fio.cfgNow 19 16) (groupLocal d) (groupPeer d))
        (updFio (fun f => { f with syncSeen := true }) d)
    else d
  | none => d

/-- PULSE_PERIOD_END: checks are settled, new settings come into force, and outputs that waited for the period follow their conditions
(R409, R412, R415, R416, R490). -/
def pulsePeriodEnd (d : Device) : Device :=
  let d := updFio (fun f => { f with joint := 0 }) d
  let d := settleChecks d
  let d := updFio (fun f => { f with
    lowLast := if f.sampled then f.lowSoFar else 0, lowSoFar := 0xF, sampled := false, checks := [], groupFailed := none
    pulsing := 0, periodStart := f.periodStart + pulsePeriod d, cfgNow := d.reg 0x12004, groupNow := d.reg 0x12008
    syncLast := (f.syncSeen :: f.syncLast).take 2, syncSeen := false, restorePending := false }) d
  noteSync (sendSync d)

/-- PULSE_PERIOD_END (R412). -/
def execPulsePeriodEnd (s : State) : Host.Outcome State Fault Refusal :=
  effect s fun d => onlyIf (decide (d.fio.periodStart + pulsePeriod d ≤ d.now)) pulsePeriodEnd d

/-- PULSE_SYNC received (R416): TWIN_ID 1 times its group window from it. -/
def takeSync (ticks width localMask peerMask : Nat) (d : Device) : Device :=
  if twinId d = 1 then
    noteSync (updFio (fun f => { f with
      syncSeen := true, peerLocal := localMask, peerPeer := peerMask, groupWindow := some (d.now + ticks, width) }) d)
  else d

/-- PULSE_SYNC (R416). -/
def execPulseSync (cr : Credits) (ticks width localMask peerMask : Nat) (s : State) : Host.Outcome State Fault Refusal :=
  effect s (receive cr (.pulseSync ticks width localMask peerMask) (takeSync ticks width localMask peerMask))

/-! ### Overload, field supply, clearing (R408, R414, R490) -/

/-- The driver of output `i` is in thermal shutdown, and is retried in 1 s (R408). -/
def shutDown (i : Nat) (d : Device) : Device :=
  updFio (fun f => { f with shutdown := f.shutdown ||| maskOf [i], retryAt := supd (fun _ => 0) i (fun _ => d.now + ticksPerS) f.retryAt }) d

/-- OUTPUT_OVERCURRENT: an episode begins, source 167, or its driver shuts down (R408). -/
def overcurrent (i : Nat) (shutdown : Bool) (d : Device) : Device :=
  let m := maskOf [i]
  let first := !d.fio.gnd.getLsbD i
  let d := updFio (fun f => { f with gnd := f.gnd ||| m }) d
  let d := if shutdown then shutDown i d else d
  if first then raise 167 (logSafety 8 m 0 0 d) else d

/-- OUTPUT_OVERCURRENT (R408). -/
def execOutputOvercurrent (out : Nat) (shutdown : Bool) (s : State) : Host.Outcome State Fault Refusal :=
  effect s (onlyIf (decide (out < 4)) (overcurrent out shutdown))

/-- The limit or shutdown episode of output `i` is over, or its driver shuts down again (R408). -/
def outputRetry (i : Nat) (ended : Bool) (d : Device) : Device :=
  if ended then updFio (fun f => { f with gnd := f.gnd &&& ~~~ (maskOf [i]), shutdown := f.shutdown &&& ~~~ (maskOf [i]) }) d
  else if d.fio.shutdown.getLsbD i then shutDown i d
  else d

/-- An output in shutdown is retried each second while its condition calls for it; one that only limits its current recovers at any
time (R408). -/
def retryDue (d : Device) (i : Nat) : Bool :=
  !d.fio.shutdown.getLsbD i || (outCondition d i && decide (sget (fun _ => 0) d.fio.retryAt i ≤ d.now))

/-- OUTPUT_RETRY (R408). -/
def execOutputRetry (out : Nat) (ended : Bool) (s : State) : Host.Outcome State Fault Refusal :=
  effect s fun d => onlyIf (decide (out < 4) && d.fio.gnd.getLsbD out && retryDue d out) (outputRetry out ended) d

/-- The clear of a latched output is accepted: its pin read low at every sample instant of the last full period (R414). -/
def clearable (d : Device) (i : Nat) : Bool := d.fio.lowLast.getLsbD i

/-- Clear the latched outputs named that may be cleared; a clear is entered in the safety fault log (R414). Primer drops clearing
(Table 15-3). -/
def clearOutputs (v : Word32) (d : Device) : Device :=
  let l := (List.range 4).filter fun i => wbit v i && isLatched d i && clearable d i
  if l.isEmpty || d.gen.mode = .primer then d
  else
    let m := maskOf l
    logSafety 10 m 0 0 (updFio (fun f => { f with ext := f.ext &&& ~~~ m, cross := f.cross &&& ~~~ m }) d)

/-- FAULT_CLR (R414): the host alone, before the lock; afterwards it uses feature 0x08. -/
def execFaultClr (who : Requester) (value : Word32) (s : State) : Host.Outcome State Fault Refusal :=
  effect s fun d => if who = .host then gate .host 0x1200C true (clearOutputs value) d else d

/-- FIELD_SUPPLY_LOW (R490): every output off, source 169; one entry in the safety fault log. -/
def execFieldSupplyLow (s : State) : Host.Outcome State Fault Refusal :=
  effect s fun d => onlyIf (!d.fio.low)
    (fun d => setLevel 169 true (logSafety 9 0xF 0 0 (updFio (fun f => { f with low := true }) d))) d

/-- FIELD_SUPPLY_RESTORED (R490): outputs follow their conditions from the next period. -/
def execFieldSupplyRestored (s : State) : Host.Outcome State Fault Refusal :=
  effect s fun d => onlyIf d.fio.low
    (fun d => setLevel 169 false (updFio (fun f => { f with low := false, restorePending := true }) d)) d

/-! ### Inputs (R418, R419) -/

/-- Level of input `j`. -/
def putInput (j : Nat) (on : Bool) : Device → Device :=
  updFio fun f => { f with levels := (f.levels &&& ~~~ (BitVec.ofNat 4 (2 ^ j))) ||| (if on then BitVec.ofNat 4 (2 ^ j) else 0) }

/-- IN_PEER changes: the intervals of R270 are measured from it; a low of 40 µs to 2 ms that ends is a test pulse, a longer one is none
(R419). -/
def takePeerInput (on : Bool) (d : Device) : Device :=
  let since := d.fio.peerLowSince
  let low := match since with | some t => d.now - t | none => 0
  let long := decide (50000 < low)
  let d := if on && isPulse low then notePulse d else d
  let d := updFio (fun f => { f with
    peerLowSince := if on then none else some (since.getD d.now)
    peerGoodSince := if on && long then d.now else f.peerGoodSince }) d
  setLevel 171 on (putInput 1 on d)

/-- FIELD_INPUT_CHANGE: IN_PWRWARN, IN_PEER, IN_SHOCK_EXT with its write inhibit (R157), IN_AUX. -/
def takeInput (j : Nat) (on : Bool) (d : Device) : Device :=
  match j with
  | 0 => takePwrwarn on d
  | 1 => takePeerInput on d
  | 2 =>
    let d := setLevel 172 on (putInput 2 on d)
    refreshInhibit (updWrc (fun w => { w with analog := if on then w.analog ||| 8 else w.analog &&& ~~~ (8 : BitVec 10) }) d)
  | 3 => setLevel 173 on (putInput 3 on d)
  | _ => d

/-- FIELD_INPUT_CHANGE (R419). -/
def execFieldInputChange (input : Nat) (energised : Bool) (held : Nat) (s : State) : Host.Outcome State Fault Refusal :=
  effect s <| onlyIf (decide (inputFilter s.dev input ≤ held)) (takeInput input energised)

end Sys2Proof.Machine
end

