-- ==== Sys2Proof/Machine/Interrupts.lean ====
section
/-!
DEFINITION. The interrupt controller's register accesses (R347 to R361): claims and completions, masks, thresholds, configuration; the
wake unit and retention (R362 to R364); and the MSI-X table (R311).
-/

namespace Sys2Proof.Machine

/-- Change the ICU. -/
def updIcu (f : Icu → Icu) (d : Device) : Device := { d with icu := f d.icu }

/-- The value that a register read returns. -/
def putRead (v : Word32) (d : Device) : Device := { d with bus := { d.bus with readData := v } }

/-! ### Claims and completions (R354, R356) -/

/-- The word of CLAIM for a source returned (Table 13-7). -/
def claimWord (p : Nat × Src) : Word32 := BitVec.ofNat 32 (p.2.counter * 2 ^ 24 + p.1)

/-- The word of CLAIM for none. -/
def claimNone : Word32 := 0x100

/-- A claim at T0 or T1: the source is active, its pending bit cleared in an edge mode, its counter cleared (R351, R354). -/
def claimSource (x : Src) : Src := { x with active := true, pending := x.pending && x.sense < 2, counter := 0 }

/-- A read of CLAIM[t] for T0 or T1 (R354). -/
def icuClaim (t : Nat) (d : Device) : Device :=
  match firstDeliverable d t with
  | none => putRead claimNone d
  | some p => putRead (claimWord p) (updSrc p.1 claimSource (lateCount t p.2 d))

/-- The active sources of target `t`. -/
def activeAt (d : Device) (t : Nat) : List (Nat × Src) := d.icu.srcs.filter fun p => p.2.active && servedBy d p.1 p.2 = t

/-- A claim at T2 is its completion too: no longer active or pending, counter cleared (R351, R356). -/
def hostClaimSource (x : Src) : Src := { x with active := false, forwarded := false, pending := false, counter := 0 }

/-- A host read of CLAIM[2] (R356). -/
def icuHostClaim (d : Device) : Device :=
  match firstSrc (activeAt d 2) with
  | none => putRead claimNone d
  | some p => deliver (putRead (claimWord p) (updSrc p.1 hostClaimSource d))

/-- A read of CLAIM[t] by `who` (R80, R354, R356). -/
def readClaim (who : Requester) (t : Nat) (d : Device) : Device :=
  if who = .seq && t != 1 then putRead 0 d
  else if t = 2 then (if who = .host then icuHostClaim d else putRead claimNone d)
  else icuClaim t d

/-- ICU_CLAIM (R354). -/
def execIcuClaim (who : Requester) (t : Nat) (s : State) : Host.Outcome State Fault Refusal :=
  effect s fun d => onlyIf (t < 2) (onBus who (readClaim who t)) d

/-- ICU_HOST_CLAIM (R356). -/
def execIcuHostClaim (who : Requester) (s : State) : Host.Outcome State Fault Refusal :=
  effect s (onBus who (readClaim who 2))

/-- A completion at `t`: a source active there is active no more, and anything else is stray (R354). -/
def icuComplete (t : Nat) (n : Nat) (d : Device) : Device :=
  if (d.src n).active && servedBy d n (d.src n) = t then
    deliver (updSrc n (fun x => { x with active := false, forwarded := false }) d)
  else raise 17 (count (0x450C + 0x10 * t) d)

/-- A host write that R359 ignores in whole or in part: counted once, source 16. -/
def cfgRefused (d : Device) : Device := raise 16 (count 0x4544 d)

/-- An ICU write by `who` at offset `o`: the host's has the effect `g`, as far as R359 lets it, before the lock; after it R314
applies. -/
def icuGate (who : Requester) (o : Nat) (g f : Device → Device) (d : Device) : Device :=
  if who = .host && !d.hif.lock then g d else gate who o false f d

/-- A write of COMPLETE[t] (R354, R359). -/
def writeComplete (who : Requester) (t : Nat) (v : Word32) (d : Device) : Device :=
  icuGate who (0x4508 + 0x10 * t) cfgRefused (icuComplete t (fld v 8 0)) d

/-- ICU_COMPLETE (R354). -/
def execIcuComplete (who : Requester) (t : Nat) (value : Word32) (s : State) : Host.Outcome State Fault Refusal :=
  effect s fun d => onlyIf (t < 2) (writeComplete who t value) d

/-! ### Bit arrays (R350, R357, R359) -/

/-- Sources that bits of word `w` name. -/
def namedSources (w : Nat) (v : Word32) : List Nat := (bitsOf 32 v.toNat).map fun b => 32 * w + b

/-- A write to a bit array: `f` on each source named; the host reaches only T2 sources, and a write that names another is counted once
(R359). -/
def bitArrayWrite (who : Requester) (o w : Nat) (v : Word32) (f : Nat → Device → Device) (d : Device) : Device :=
  let all := namedSources w v
  let mine := all.filter fun s => (d.src s).target = 2
  icuGate who o
    (fun d =>
      let d := mine.foldl (fun d s => f s d) d
      deliver (if mine.length = all.length then d else cfgRefused d))
    (fun d => deliver (all.foldl (fun d s => f s d) d)) d

/-- A mask bit is written; it is in force 2 ticks later (R357). -/
def writeMask (on : Bool) (s : Nat) (d : Device) : Device :=
  updIcu (fun i => { i with changes := i.changes ++ [(d.now + 2, .mask s on)] }) (updSrc s (fun x => { x with masked := on }) d)

/-- PEND_SET on one source: as one edge in an edge mode, nothing in a level mode (R350). -/
def pendSet1 (s : Nat) (d : Device) : Device :=
  if (d.src s).sense < 2 then d else updSrc s srcDetect d

/-- PEND_CLR on one source (R350). -/
def pendClr1 (s : Nat) (d : Device) : Device :=
  if (d.src s).sense < 2 then d
  else updSrc s (fun x => { x with pending := false, forwarded := x.forwarded && x.active }) d

/-- A write of MASK_SET[w]. -/
def writeMaskSet (who : Requester) (w : Nat) (v : Word32) (d : Device) : Device :=
  bitArrayWrite who (0x4400 + 4 * w) w v (writeMask true) d

/-- A write of MASK_CLR[w]. -/
def writeMaskClr (who : Requester) (w : Nat) (v : Word32) (d : Device) : Device :=
  bitArrayWrite who (0x4420 + 4 * w) w v (writeMask false) d

/-- A write of PEND_SET[w]. -/
def writePendSet (who : Requester) (w : Nat) (v : Word32) (d : Device) : Device :=
  bitArrayWrite who (0x4440 + 4 * w) w v pendSet1 d

/-- A write of PEND_CLR[w]. -/
def writePendClr (who : Requester) (w : Nat) (v : Word32) (d : Device) : Device :=
  bitArrayWrite who (0x4460 + 4 * w) w v pendClr1 d

/-- MASK_SET (R357). -/
def execMaskSet (who : Requester) (w : Nat) (value : Word32) (s : State) : Host.Outcome State Fault Refusal :=
  effect s fun d => onlyIf (w < 8) (writeMaskSet who w value) d

/-- MASK_CLR (R357). -/
def execMaskClr (who : Requester) (w : Nat) (value : Word32) (s : State) : Host.Outcome State Fault Refusal :=
  effect s fun d => onlyIf (w < 8) (writeMaskClr who w value) d

/-- PEND_SET (R350). -/
def execPendSet (who : Requester) (w : Nat) (value : Word32) (s : State) : Host.Outcome State Fault Refusal :=
  effect s fun d => onlyIf (w < 8) (writePendSet who w value) d

/-- PEND_CLR (R350). -/
def execPendClr (who : Requester) (w : Nat) (value : Word32) (s : State) : Host.Outcome State Fault Refusal :=
  effect s fun d => onlyIf (w < 8) (writePendClr who w value) d

/-- THRESHOLD[t] is written; it is in force 2 ticks later (R357). -/
def setThreshold (t : Nat) (v : Word32) (d : Device) : Device :=
  updIcu (fun i => { i with
    threshold := sset (fun _ => 0) t (fld v 3 0) i.threshold
    changes := i.changes ++ [(d.now + 2, .threshold t (fld v 3 0))] }) d

/-- A write of THRESHOLD[t] (R357, R359). -/
def writeThreshold (who : Requester) (t : Nat) (v : Word32) (d : Device) : Device :=
  icuGate who (0x4500 + 0x10 * t) (if t = 2 then setThreshold t v else cfgRefused) (setThreshold t v) d

/-- THRESHOLD_WRITE (R357). -/
def execThresholdWrite (who : Requester) (t : Nat) (value : Word32) (s : State) : Host.Outcome State Fault Refusal :=
  effect s fun d => onlyIf (t < 3) (writeThreshold who t value) d

/-! ### Configuration (R349, R350, R358, R359) -/

/-- SENSE after a write: a reserved encoding keeps the previous one (R10, R349). -/
def senseAfter (s old v : Nat) : Nat :=
  if (if isStateSrc s then v < 5 else v = 2) then v else old

/-- The source as a write of SRC_CFG would leave its fields. -/
def cfgAfter (s : Nat) (v : Word32) (x : Src) : Src :=
  { x with vector := fld v 31 27, priority := fld v 11 8, target := fld v 5 4, sense := senseAfter s x.sense (fld v 2 0) }

/-- Pending after an accepted change of SENSE (R350). -/
def pendingAfter (old new : Src) : Src :=
  { new with
      pending := if new.sense = 0 then new.level
        else if new.sense = 1 then !new.level
        else if old.sense < 2 then false
        else old.pending
      forwarded := false }

/-- A write of SRC_CFG is refused as a whole (R358; a wake slot that forwards to T2 wants an edge mode, R362). -/
def cfgBad (d : Device) (s : Nat) (x y : Src) : Bool :=
  !x.masked || !x.maskedNow || x.active
    || (y.sense < 2 && (y.target = 2 || (y.target = 3 && (slotOf d s).any fun w => w.fwd = 2)))
    || (y.target = 3 && (slotOf d s).isNone)

/-- SRC_CFG[s] is written (R358). -/
def setCfg (s : Nat) (v : Word32) (d : Device) : Device :=
  let x := d.src s
  let y := cfgAfter s v x
  if cfgBad d s x y then cfgRefused d else deliver (updSrc s (fun _ => pendingAfter x y) d)

/-- A write of SRC_CFG[s]: the host's only for a T2 source that stays one (R359). -/
def writeCfg (who : Requester) (s : Nat) (v : Word32) (d : Device) : Device :=
  icuGate who (0x4000 + 4 * s) (if (d.src s).target = 2 && fld v 5 4 = 2 then setCfg s v else cfgRefused) (setCfg s v) d

/-- SRC_CFG_WRITE (R358). -/
def execSrcCfgWrite (who : Requester) (src : Nat) (value : Word32) (s : State) : Host.Outcome State Fault Refusal :=
  effect s fun d => onlyIf (src < 256) (writeCfg who src value) d

/-! ### Wake unit and retention (R362 to R364, R478) -/

/-- Wake slot `i`. -/
def wakeSlot (d : Device) (i : Nat) : WakeSlot := sget (fun _ => {}) d.icu.slots i

/-- Another enabled slot names source `s`. -/
def namedElsewhere (d : Device) (i s : Nat) : Bool := d.icu.slots.any fun p => p.1 != i && p.2.en && p.2.source = s

/-- A source that slot `i` may name (R362). -/
def wakeNameOk (d : Device) (i s : Nat) : Bool := isAonSrc s && !namedElsewhere d i s

/-- The slot as a write would leave it: a reserved FWD or SOURCE keeps the previous one (R10, R362). -/
def slotAfter (d : Device) (i : Nat) (v : Word32) : WakeSlot :=
  let w := wakeSlot d i
  { en := wbit v 31
    fwd := if fld v 9 8 = 3 then w.fwd else fld v 9 8
    source := if wakeNameOk d i (fld v 7 0) then fld v 7 0 else w.source }

/-- WAKE_SLOT[i] is written (R362): refused while the source it would leave has TARGET 3; without effect when an enabled slot would name
no AON source of its own, or forward a level source to T2. -/
def setSlot (i : Nat) (v : Word32) (d : Device) : Device :=
  let w := wakeSlot d i
  let y := slotAfter d i v
  if w.en && (d.src w.source).target = 3 && (!y.en || y.source != w.source) then cfgRefused d
  else if y.en && (!wakeNameOk d i y.source || (y.fwd = 2 && (d.src y.source).sense < 2)) then d
  else deliver (updIcu (fun c => { c with slots := sset (fun _ => {}) i y c.slots }) d)

/-- A write of WAKE_SLOT[i] (R359, R362). -/
def writeSlot (who : Requester) (i : Nat) (v : Word32) (d : Device) : Device :=
  icuGate who (0x4600 + 4 * i) cfgRefused (setSlot i v) d

/-- WAKE_SLOT_WRITE (R362). -/
def execWakeSlotWrite (who : Requester) (i : Nat) (value : Word32) (s : State) : Host.Outcome State Fault Refusal :=
  effect s fun d => onlyIf (i < 16) (writeSlot who i value) d

/-- A watched source's own SENSE detects a raw signal that now has `level` (R364). -/
def wakeSees (d : Device) (src : Nat) (level : Bool) : Bool :=
  let x := d.src src
  (slotOf d src).isSome &&
    (!isStateSrc src || (if x.sense < 2 then (x.sense = 0) = level else senseEdge x.sense x.level level))

/-- The detection is latched, unless its own event has latched it already. -/
def latchWake (src : Nat) (level : Bool) (d : Device) : Device :=
  if d.icu.latched.any fun p => p.1 = src then d
  else updIcu (fun i => { i with latched := i.latched ++ [(src, if isStateSrc src then some level else none)] }) d

/-- The wake unit brings the core out of retention: WAKE_STATUS, the latched detections, then source 25 (R364). -/
def wake (src : Nat) (level : Bool) (d : Device) : Device :=
  let d := latchWake src level d
  let d := countF 0x4640 31 16 (updIcu (fun i => { i with lastWake := src }) d)
  raise 25 (leaveRetention d)

/-- WAKE_DETECT (R364). -/
def execWakeDetect (src : Nat) (level : Bool) (s : State) : Host.Outcome State Fault Refusal :=
  effect s fun d => onlyIf (d.icu.retention && wakeSees d src level) (wake src level) d

/-- A T0 or T1 source is deliverable or active, or a poll is in progress (R364). -/
def coreBusy (d : Device) : Bool :=
  d.hif.polling || d.icu.srcs.any fun p =>
    let t := servedBy d p.1 p.2
    t < 2 && (p.2.active || deliverableTo d t p.1 p.2)

/-- The tick since which the core has had nothing to serve follows the present tick while it has (R364). -/
def noteQuiet (d : Device) : Device := if coreBusy d then updIcu (fun i => { i with quietSince := d.now }) d else d

/-- The core rail may go to retention: PS3 or SEALED (Table 12-11, R382), 25,000 ticks with nothing to serve (R364). -/
def mayRetain (d : Device) : Bool :=
  !d.icu.retention && ((d.hif.ps = 3 && !d.hif.transition) || d.pwr.st = .sealed) && !coreBusy d && d.icu.quietSince + 25000 ≤ d.now

/-- RETENTION_ENTRY (R364). -/
def execRetentionEntry (s : State) : Host.Outcome State Fault Refusal :=
  effect s fun d => onlyIf (mayRetain d) (updIcu fun i => { i with retention := true }) d

/-! ### MSI-X table (R311, R314) -/

/-- Bits of a word of the MSI-X table that the base specification gives: the address is 4-byte aligned, and of the vector control only
the mask bit stands (PRESUMED, log entry 13). -/
def msixBits (o : Nat) : Word32 :=
  if o % 16 = 0 then 0xFFFFFFFC else if o % 16 = 12 then 1 else 0xFFFFFFFF

/-- A word of the MSI-X table is written: a vector unmasked sends the message that its pending bit holds (R311). -/
def writeMsix (o : Nat) (v : Word32) (d : Device) : Device :=
  msixFlush1 (o / 16) (setReg (0x1800 + o) (v &&& msixBits o) d)

/-- MSIX_TABLE_WRITE (R311): exempt from the lock (R314). -/
def execMsixTableWrite (offset : Nat) (value : Word32) (s : State) : Host.Outcome State Fault Refusal :=
  effect s fun d => onlyIf (offset < 512 && offset % 4 = 0) (writeMsix offset value) d

end Sys2Proof.Machine
end

