-- ==== Sys2Proof/Machine/RegStore.lean ====
section
/-!
DEFINITION. Registers that hold what is written to them (R8 to R10, R477, R485): the fields that a write changes, the encodings that are
reserved, the rules that leave a whole register unchanged, when a register may be written, and what a change brings about. Registers
whose write is a command or has an order of its own are in Registers.lean.
-/

namespace Sys2Proof.Machine

/-- A writable field: its bits, and the encodings that are not reserved. -/
abbrev FieldRule := Nat × Nat × (Nat → Bool)

/-- A field every encoding of which is good. -/
def anyField (hi lo : Nat) : FieldRule := (hi, lo, fun _ => true)

/-- A field whose encodings from `a` to `b` are good. -/
def within (hi lo a b : Nat) : FieldRule := (hi, lo, fun v => a ≤ v && v ≤ b)

/-- Fields of the RNG registers by their offset within the block (Table 11-8). -/
def ringFields (o : Nat) : List FieldRule :=
  let size : FieldRule := (12, 0, fun v => v = 0 || (16 ≤ v && v ≤ 4096))
  if o = 0x200 then [anyField 31 31, anyField 2 0]
  else if 0x200 ≤ o then []
  else if o % 0x20 = 0 then [anyField 31 12]
  else if o % 0x20 = 4 then [anyField 31 0]
  else if o < 0x100 && o % 0x20 = 8 then [anyField 31 31, anyField 27 24, anyField 23 20, anyField 18 16, size]
  else if 0x100 ≤ o && o % 0x20 = 8 then [anyField 31 31, anyField 30 30, anyField 20 16, size]
  else if 0x100 ≤ o && o % 0x20 = 12 then [within 23 16 1 255, within 15 0 1 65535]
  else []

/-- Fields of the SRV registers of one loop (Tables 03-9, 03-10, 03-13). -/
def loopFields (o : Nat) : List FieldRule :=
  if o = 0x108 || o = 0x110 || o = 0x114 then [anyField 23 0]
  else if o = 0x10C then [within 31 16 1 65535, anyField 15 8]
  else []

/-- Fields of the RDC register arrays (Table 05-5). -/
def tapFields (o : Nat) : List FieldRule :=
  if 0xA140 ≤ o && o < 0xA17C then [anyField 27 16, anyField 11 0]
  else if 0xA200 ≤ o && o < 0xA600 && o % 0x200 < 0x180 && o % 0x40 < 0x3C then [anyField 11 0]
  else []

/-- Fields of the register arrays. -/
def arrayFields (o : Nat) : List FieldRule :=
  if 0x2000 ≤ o && o < 0x4000 then ringFields (o - 0x2000)
  else if 0x8000 ≤ o && o < 0x8800 then loopFields (o % 0x200)
  else if 0xA000 ≤ o && o < 0xB000 then tapFields o
  else if 0xB040 ≤ o && o < 0xB0A0 then [anyField 31 24, anyField 23 16, anyField 9 0]
  else if 0xB0A0 ≤ o && o < 0xB0B8 then [anyField 25 16, anyField 9 0]
  else if 0x13020 ≤ o && o < 0x13040 then [within 5 0 8 63]
  else if 0x13100 ≤ o && o < 0x13200 then [anyField 31 0]
  else []

/-- The writable fields of a register that holds what is written to it; none for any other offset. -/
def regFields (o : Nat) : List FieldRule :=
  match o with
  | 0x1004 => [anyField 31 12]
  | 0x1008 => [anyField 31 0]
  | 0x100C => [within 17 0 25 250000]
  | 0x1010 => [within 17 0 25 250000]
  | 0x1018 => [anyField 1 0]
  | 0x101C => [within 15 0 1 65535]
  | 0x1020 => [within 15 0 1 65535]
  | 0x1024 => [within 15 0 1 65535]
  | 0x900C => [anyField 31 0]
  | 0x9010 => [within 31 16 1 1200, within 15 0 1 1200]
  | 0x9014 => [within 31 16 2000 5000, within 15 0 1 1500]
  | 0x9018 => [within 7 0 1 100]
  | 0x901C => [(31, 16, fun v => signedOf 16 v ≤ 15999), (15, 0, fun v => 1 ≤ signedOf 16 v)]
  | 0x9020 => [(15, 0, fun v => -426 ≤ signedOf 16 v && signedOf 16 v ≤ -1)]
  | 0x9024 => [anyField 5 5, anyField 4 4, anyField 1 1, anyField 0 0]
  | 0x9028 => [anyField 15 8, anyField 7 0]
  | 0x9030 => [anyField 31 0]
  | 0x9034 => [anyField 31 0]
  | 0x9038 => [anyField 31 0]
  | 0x9048 =>
    let ok (v : Nat) : Bool := -1024 ≤ signedOf 12 v && signedOf 12 v ≤ 1024
    [(27, 16, ok), (11, 0, ok)]
  | 0xA000 => [anyField 31 31, within 11 8 1 8, within 7 4 1 4, within 1 0 0 1]
  | 0xA004 => [within 29 16 0 3712, anyField 1 0]
  | 0xA008 => [within 31 24 1 255, anyField 23 16, within 15 8 1 255, anyField 7 0]
  | 0xA00C => [anyField 8 8, within 4 0 8 16]
  | 0xA010 => [anyField 11 8, anyField 3 0]
  | 0xB000 => [anyField 2 2, anyField 1 1, anyField 0 0]
  | 0xB00C => [within 5 0 1 37]
  | 0xB010 => [anyField 31 24, anyField 23 16, anyField 15 8]
  | 0xB014 => [anyField 15 0]
  | 0xB020 => [anyField 15 8, anyField 7 0]
  | 0xB024 => [within 23 16 1 255, anyField 15 8, within 7 0 1 255]
  | 0xB02C => [anyField 31 31, within 8 0 0 383]
  | 0xB0C8 => [anyField 31 0]
  | 0xC000 => [within 5 4 0 1, within 3 2 0 1, within 1 0 0 1]
  | 0xC004 => [within 15 0 1 65535]
  | 0xC014 => [anyField 31 0]
  | 0xC018 => [anyField 15 0]
  | 0xC01C => [anyField 31 0]
  | 0xC020 => [anyField 15 0]
  | 0xE004 => [within 11 8 1 15, within 7 0 1 255]
  | 0xF004 => [anyField 8 8, within 6 0 5 100]
  | 0xF008 => [within 27 16 2400 2550, within 4 0 5 20]
  | 0xF100 => [within 13 8 0 60, within 5 0 0 60]
  | 0xF104 => [anyField 31 31, within 5 0 0 60]
  | 0xF108 => [anyField 24 16, anyField 8 0]
  | 0x10024 => [within 11 0 10 500]
  | 0x10030 => [anyField 7 0]
  | 0x12000 => [anyField 0 0]
  | 0x12004 => [(27, 24, fun v => v % 2 = 1), within 19 16 2 10, within 9 0 20 1000]
  | 0x12008 => [(11, 8, fun v => v % 2 = 0), (3, 0, fun v => v % 2 = 0), anyField 31 31]
  | 0x12018 => [anyField 15 8, anyField 7 0]
  | 0x13004 => [anyField 22 0]
  | 0x1300C => [anyField 0 0]
  | 0x13040 => [within 15 8 1 255, within 2 0 1 7]
  | 0x14004 => [anyField 31 0]
  | 0x14008 => [anyField 31 0]
  | 0x1400C => [anyField 7 0]
  | 0x15000 => [anyField 27 24, anyField 8 0]
  | 0x15004 => [anyField 31 24, anyField 21 16, within 4 0 1 16]
  | 0x1500C => [anyField 15 0]
  | _ => arrayFields o

/-- The offset holds a register of this kind. -/
def isStored (o : Nat) : Bool := !(regFields o).isEmpty

/-- One field of a write: a reserved encoding keeps the previous value (R10). -/
def putField (v : Word32) (w : Word32) (f : FieldRule) : Word32 :=
  if f.2.2 (fld v f.1 f.2.1) then wput w f.1 f.2.1 (fld v f.1 f.2.1) else w

/-- The register as it would stand after a write, field by field (R10). -/
def fieldsAfter (o : Nat) (old v : Word32) : Word32 := (regFields o).foldl (putField v) old

/-- An enabled wired group without a local member: EN with an empty LOCAL_MASK is reserved (R422). -/
def emptyGroup (w : Word32) : Bool := wbit w 31 && fld w 3 0 = 0

/-- The register as it would stand after a write. In WIRED_GROUP an EN that would name an empty group keeps its value, and so does
LOCAL_MASK when EN is set already (R10, R422). -/
def regAfter (o : Nat) (old v : Word32) : Word32 :=
  let w := fieldsAfter o old v
  if o = 0x12008 && emptyGroup w then
    (if wbit old 31 then wput w 3 0 (fld old 3 0) else wput w 31 31 0)
  else w

/-- The rules that leave a whole register unchanged, judged on the register as it would stand (R10, R40, R111, R136, R161, R319). -/
def regRule (d : Device) (o : Nat) (w : Word32) : Bool :=
  let inBound (v : Nat) : Bool := -80 ≤ signedOf 8 v && signedOf 8 v ≤ 80
  match o with
  | 0x100C => fld w 17 0 ≤ d.regF 0x1010 17 0
  | 0x1010 => d.regF 0x100C 17 0 ≤ fld w 17 0
  | 0x901C => signedOf 16 (fld w 15 0) ≤ signedOf 16 (fld w 31 16)
  | 0x9048 => signedOf 12 (fld w 11 0) ≤ signedOf 12 (fld w 27 16)
  | 0xB020 => signedOf 8 (fld w 7 0) ≤ signedOf 8 (fld w 15 8) && inBound (fld w 7 0) && inBound (fld w 15 8)
  | 0xF100 => fld w 5 0 ≤ fld w 13 8
  | 0xF108 => fld w 8 0 < fld w 24 16
  | _ => if 0xA140 ≤ o && o < 0xA17C then signedOf 12 (fld w 11 0) ≤ signedOf 12 (fld w 27 16) else true

/-- The register may be written now: the conditions of the RWL fields (R111, R161), and in Primer no setting of the field I/O changes
(Table 15-3). -/
def regOpen (d : Device) (o : Nat) : Bool :=
  if 0x9010 ≤ o && o ≤ 0x9024 then d.motion.st = .unhomed || d.motion.st = .idle || d.motion.st = .fault
  else if o = 0x9030 then d.motion.st != .geared
  else if 0xB040 ≤ o && o < 0xB0A0 then d.wrc.writing.isNone
  else if 0x12000 ≤ o && o < 0x13000 then d.gen.mode != .primer
  else true

/-- Table 18-1 lets the host write the register before the lock. -/
def hostStores (o : Nat) : Bool :=
  !(o = 0x13004 || (0x13100 ≤ o && o < 0x13200) || (0x14000 ≤ o && o < 0x15000))

/-- Registers of features 0x01 to 0x08 whose values are saved (R456, Table 12-7, R422). -/
def featureRegs : List Nat :=
  [0x1018, 0x101C, 0x1020, 0x1024, 0x100C, 0x1010, 0xF100, 0xF104, 0xF108, 0xA000, 0xA004, 0x15004, 0x1500C, 0x15000, 0xE004,
    0x12000, 0x12004, 0x12008]

/-- The adaptive loop whose bounds a register holds, 0 for none (R42, R50). -/
def loopOfReg (o : Nat) : Nat :=
  if o = 0xF100 || o = 0xF104 || o = 0xF108 then 1
  else if o = 0xB020 then 2
  else if 0xA140 ≤ o && o < 0xA17C then 4
  else if o = 0x100C || o = 0x1010 then 5
  else if o = 0x15004 then 6
  else if o = 0x9048 then 7
  else 0

/-- What follows a change of a register: bounds take effect (R50), a laser without LASER_EN goes dark, the shock input counts or does
not, a MAX_PS below the present state ends it (R343), a spindle target sets the session speed (R513), and a feature waits to be saved (R456). -/
def afterStore (o : Nat) (d : Device) : Device :=
  let d := applyBounds (loopOfReg o) d
  let d := if o = 0xB020 || (0xB040 ≤ o && o < 0xB0A0) then pumpCeiling d else d
  let d := if o = 0xB000 then refreshInhibit (if wbit (d.reg 0xB000) 0 then d else laserOff d) else d
  let d := if o = 0x1018 && d.regF 0x1018 1 0 < d.hif.ps then wakePower d else d
  let d := if o = 0x8508 && d.gen.mode != .primer then setSpeed (fastTarget (d.regF 0x8508 23 0)) d else d
  if featureRegs.contains o then updGen (fun g => { g with unsaved := true }) d else d

/-- The register names the owner of a submission ring, and the lock has bound it (R199). -/
def ownerBound (d : Device) (o : Nat) : Bool := d.hif.lock && 0x2000 ≤ o && o < 0x2100 && o % 0x20 = 8

/-- A write of a stored register (R10). The owner of a ring does not change once the lock is set (R199). -/
def storeReg (o : Nat) (v : Word32) (d : Device) : Device :=
  let w := regAfter o (d.reg o) v
  let w := if ownerBound d o then wput w 23 20 (fld (d.reg o) 23 20) else w
  if regOpen d o && regRule d o w then
    (if o = 0xF004 then withWarning (setReg o w) d else afterStore o (setReg o w d))
  else d

/-! ### Features (R336, Table 12-7) -/

/-- The registers of a feature, in the order of its VALUE words. -/
def featureWords (fid : Nat) : List Nat :=
  match fid with
  | 1 => [0x1018, 0x101C, 0x1020, 0x1024]
  | 2 => [0x100C, 0x1010]
  | 3 => [0xF100, 0xF104, 0xF108]
  | 4 => [0xA000, 0xA004]
  | 5 => [0x15004, 0x1500C]
  | 6 => [0x15000]
  | 7 => [0xE004]
  | 8 => [0x12000, 0x12004, 0x12008, 0x1200C]
  | _ => []

/-- Bits of a register word that no writable field covers. -/
def reservedBits (o : Nat) (v : Word32) : Bool :=
  v != (regFields o).foldl (fun w f => wput w f.1 f.2.1 (fld v f.1 f.2.1)) 0

/-- A VALUE word for a register holds no reserved bit or encoding. -/
def valueOk (o : Nat) (v : Word32) : Bool := !reservedBits o v && regAfter o 0 v = v

/-- The rules on a feature's registers hold for its VALUE words taken together (R336). -/
def featureRule (d : Device) (vs : List (Nat × Word32)) : Bool :=
  let e := vs.foldl (fun d p => setReg p.1 p.2 d) d
  vs.all fun p => regRule e p.1 p.2

/-- Every output that a FAULT_CLR word names can be cleared (R414, R422). -/
def faultClrOk (d : Device) (v : Word32) : Bool := (List.range 4).all fun i => !v.getLsbD i || clearable d i

/-- The VALUE words of a feature with their registers. -/
def featurePairs (fid : Nat) (value : Nat → Word32) : List (Nat × Word32) :=
  let regs := featureWords fid
  ((List.range regs.length).zip regs).map fun p => (p.2, value p.1)

/-- A write-only word, FAULT_CLR, stands in no register. -/
def heldPair (p : Nat × Word32) : Bool := p.1 != 0x1200C

/-- No VALUE word holds a reserved bit or encoding, and the words that the table does not use are 0 (R11, R336). -/
def featureEncodings (fid : Nat) (value : Nat → Word32) : Bool :=
  let vs := featurePairs fid value
  vs.all (fun p => if heldPair p then valueOk p.1 p.2 else p.2.toNat < 16)
    && (List.range 4).all fun i => i < vs.length || value i = 0

/-- A SET_FEATURE leaves no register unchanged under that register's own rule (R336). -/
def featureOk (d : Device) (fid : Nat) (value : Nat → Word32) : Bool :=
  featureRule d ((featurePairs fid value).filter heldPair) && (fid != 8 || faultClrOk d (value 3))

/-- The registers of a feature take their values together (R336): every register is stored, then what the changes bring about. -/
def setFeature (fid : Nat) (value : Nat → Word32) (d : Device) : Device :=
  let plain := (featurePairs fid value).filter heldPair
  let d := plain.foldl (fun d p => setReg p.1 p.2 d) d
  let d := plain.foldl (fun d p => afterStore p.1 d) d
  if fid = 8 then clearOutputs (value 3) d else d

/-- A feature's word as GET_FEATURE gives it: write-only words read 0 (R8, R336). -/
def featureWord (d : Device) (fid i : Nat) : Word32 :=
  match (featureWords fid)[i]? with
  | some o => if o = 0x1200C then 0 else d.reg o
  | none => 0

end Sys2Proof.Machine
end

