-- ==== Sys2Proof/Machine/Startup.lean ====
section
/-!
DEFINITION. Start-up from a power-on reset (R452 to R457): the key loader (R205 to R208), the restored values (R456, R436), the choice of
the mode; recovery of the rings (R193); the cartridge (R461 to R465); firmware updates (R469 to R474).
-/

namespace Sys2Proof.Machine

/-! ### Key loader (R205 to R207, R427) -/

/-- The flash sector that begins at `a` reads erased throughout. -/
def sectorErased (d : Device) (a : Nat) : Bool :=
  !(d.fls.bytes.any fun p => a ≤ p.1 && p.1 < a + 4096) && !(d.fls.spare.any fun p => a / 32 ≤ p.1 && p.1 < a / 32 + 128)

/-- The flash sector that begins at `a` reads 0x00 throughout. -/
def sectorZero (d : Device) (a : Nat) : Bool :=
  let here := d.fls.bytes.filter fun p => a ≤ p.1 && p.1 < a + 4096
  here.length = 4096 && here.all fun p => p.2 = 0

/-- Half of STATE as the loader takes it: cleared with at least nine 0s (R427). -/
def halfCleared (bs : List Byte) : Bool := 9 ≤ (bs.flatMap fun b => (List.range 8).filter fun i => !b.getLsbD i).length

/-- STATE from the two halves: ACTIVE or RETIRING (R206, R427). -/
def loaderState (bs : List Byte) : Option SlotState :=
  if halfCleared (slice 2 2 bs) then (if halfCleared (slice 0 2 bs) then some .retiring else some .active) else none

/-- A copy of a slot's record as the loader judges it: its state and its 64 bytes, or none when the copy is bad (R207). -/
def loadCopy (d : Device) (copyB : Bool) (n : Nat) : Option (SlotState × List Byte) :=
  let a := slotAddr copyB n
  let bs := flashBytes d a 64
  if sectorErased d a then some (.empty, bs)
  else if sectorZero d a then some (.destroyed, bs)
  else
    match loaderState bs with
    | some st => if leAt bs 60 4 = (crc32c (slice 4 56 bs)).toNat then some (st, bs) else none
    | none => none

/-- Order of the states toward destruction (R207). -/
def towardDestruction : SlotState → Nat
  | .empty => 0
  | .active => 1
  | .retiring => 2
  | .destroyed => 3
  | .unavailable => 4

/-- A copy of slot `n` is rewritten to match a good one: source 196, REPAIRED (R205, R207); in Primer nothing is programmed (R430). -/
def repairCopy (may copyB : Bool) (n : Nat) (good : SlotState × List Byte) (d : Device) : Device :=
  if !may then d
  else
    let a := slotAddr copyB n
    let d := match good.1 with
      | .empty => eraseSectorAt (a / 4096) d
      | .destroyed => writeSlotCopy copyB n (List.replicate 4096 0) d
      | _ => writeSlotCopy copyB n good.2 d
    raise 196 (latchReg 0xD048 (BitVec.ofNat 32 (2 ^ (16 + n))) d)

/-- The key of an ACTIVE copy, when it unwraps under the root key. -/
def copyKey (c : SlotState × List Byte) : Option (BitVec 256) :=
  if c.1 = .active then Config.keyUnwrap Config.rootKey (parseSlot c.2).wrapped else none

/-- Slot `n` takes the state and the fields of a copy. -/
def takeCopy (n : Nat) (c : SlotState × List Byte) (key : Option (BitVec 256)) (d : Device) : Device :=
  let r := parseSlot c.2
  match c.1 with
  | .active => updSlot n (fun _ => { st := .active, keygen := r.keygen, flags := r.flags, quota := r.quota, createTick := r.createTick,
                                     key := key }) d
  | .retiring => updSlot n (fun _ => { st := .retiring, keygen := r.keygen, flags := r.flags, quota := r.quota, createTick := r.createTick }) d
  | st => updSlot n (fun _ => { st := st }) d

/-- Slot `n` is UNAVAILABLE: source 192. -/
def slotUnavailable (n : Nat) (d : Device) : Device := raise 192 (updSlot n (fun _ => { st := .unavailable }) d)

/-- The copy chosen, copy `copyB`, with the other: an ACTIVE copy whose key does not unwrap gives way to the other one (R205). -/
def useCopy (may copyB : Bool) (n : Nat) (c : SlotState × List Byte) (other : Option (SlotState × List Byte)) (d : Device) : Device :=
  if c.1 != .active then takeCopy n c none d
  else
    match copyKey c with
    | some k => takeCopy n c (some k) d
    | none =>
      match other with
      | some o =>
        match copyKey o with
        | some k => repairCopy may copyB n o (takeCopy n o (some k) d)
        | none => slotUnavailable n d
      | none => slotUnavailable n d

/-- Slot `n` at power-on (R205, R207). -/
def loadSlot (may : Bool) (n : Nat) (d : Device) : Device :=
  match loadCopy d false n, loadCopy d true n with
  | none, none => slotUnavailable n d
  | some a, none => useCopy may false n a none (repairCopy may true n a d)
  | none, some b => useCopy may true n b none (repairCopy may false n b d)
  | some a, some b =>
    if a.1 = b.1 then
      if a.2 = b.2 then useCopy may false n a (some b) d
      else useCopy may false n a (some b) (repairCopy may true n a d)
    else if towardDestruction a.1 < towardDestruction b.1 then useCopy may true n b (some a) d
    else useCopy may false n a (some b) d

/-- The key loader: the sixteen slots, the pair key and the cartridge register (R203, R205, R211). -/
def loadKeys (may : Bool) (d : Device) : Device :=
  let d := (List.range 16).foldl (fun d n => loadSlot may n d) d
  updCry (fun c => { c with
    pairKey := d.nv.pairRecord.bind (Config.keyUnwrap Config.rootKey)
    cartReg := d.nv.cartReg }) d

/-! ### Calibration record (R424, R436, R456, R506) -/

/-- Registers that first calibration sets: live sets, equaliser initial taps, powers and layers (R424, R467). -/
def calibrationReg (o : Nat) : Bool :=
  (0x8000 ≤ o && o < 0x8800 && o % 0x200 < 0x4C) || (0xA200 ≤ o && o < 0xA600) || (0xB040 ≤ o && o < 0xB0B8)

/-- The registers of a kind that differ from their reset words. -/
def regsNow (d : Device) (p : Nat → Bool) : List (Nat × Word32) := d.regs.filter fun x => p x.1

/-- A calibration record is written, one GENERATION higher (R436). -/
def writeCalibration (c : Calibration) (d : Device) : Device :=
  updGen (fun g => { g with unsaved := false, savedAt := some d.now })
    { d with nv := { d.nv with calibration := some c, calGeneration := d.nv.calGeneration + 1 } }

/-- A register takes what the calibration scripts measured for it, by its own rules (R10, R467). -/
def takeMeasured (d : Device) (p : Nat × Word32) : Device :=
  if !calibrationReg p.1 then d
  else if p.1 < 0x9000 then setReg p.1 (p.2 &&& 0x00FFFFFF) d
  else
    let w := regAfter p.1 (d.reg p.1) p.2
    if isStored p.1 && regRule d p.1 w then setReg p.1 w d else d

/-- Static OPC has been run on every layer and band (R147, R467). -/
def opcEverywhere (d : Device) : Device :=
  updWrc (fun w => { w with opcDone := (List.range 24).foldl (fun m k =>
    sset (fun _ => {}) k { done := true, temp := d.pwr.tempAfe, writtenTicks := 0 } m) w.opcDone }) d

/-- The record that first calibration writes, together with LASER_MAX (R467). -/
def firstCalibration (d : Device) : Device :=
  writeCalibration { saved := regsNow d (fun o => calibrationReg o || featureRegs.contains o), strat := d.wrc.strat, laserMax := laserMax d,
                     laserSeconds := d.gen.laserSeconds, revolutions := revolutions d } d

/-- A save of changed features and of the wear counters (R456, R506). -/
def saveFeatures (d : Device) : Device :=
  match d.nv.calibration with
  | none => d
  | some c =>
    writeCalibration { c with
      saved := c.saved.filter (fun p => !featureRegs.contains p.1) ++ regsNow d (fun o => featureRegs.contains o)
      laserSeconds := d.gen.laserSeconds, revolutions := revolutions d } d

/-- The wear counters have changed since they were saved (R506). -/
def wearChanged (d : Device) : Bool :=
  match d.nv.calibration with
  | some c => c.laserSeconds != d.gen.laserSeconds || c.revolutions != revolutions d
  | none => false

/-- A save is due: something has changed, a record exists, and 8 h have passed since the last (R439, R456, R506). -/
def saveDue (d : Device) : Bool :=
  d.nv.calibration.isSome && d.gen.mode != .primer && pairRuns d && (d.gen.unsaved || wearChanged d)
    && (match d.gen.savedAt with | some t => decide (t + 8 * 3600 * ticksPerS ≤ d.now) | none => true)

/-- CALIBRATION_SAVE (R456). -/
def execCalibrationSave (s : State) : Host.Outcome State Fault Refusal :=
  effect s fun d => onlyIf (saveDue d) saveFeatures d

/-- What the calibration record restores at start-up: registers, strategy tables, LASER_MAX as its first write, wear counters (R143,
R456, R506). Without a valid copy, source 186 (R436). -/
def restoreCalibration (d : Device) : Device :=
  let wear (a b : Nat) (d : Device) : Device :=
    updGen (fun g => { g with laserSeconds := max a d.nv.sealWear.1, edges := 1152 * max b d.nv.sealWear.2 }) d
  match d.nv.calibration with
  | none => raise 186 (wear 0 0 d)
  | some c =>
    let d := c.saved.foldl (fun d p => setReg p.1 p.2 d) d
    let d := updWrc (fun w => { w with strat := c.strat }) (writeLaserMax c.laserMax d)
    wear c.laserSeconds c.revolutions d

/-! ### Cartridge (R209 to R212, R461, R464, R465) -/

/-- The cartridge memory of Table 17-5, or none when it is treated as not K6 (R461). -/
def parseCartridge (b : List Byte) : Option Cartridge :=
  if b.length = 128 && crcTailOk 128 b && leAt b 0 2 = 0x4B36 && leAt b 2 1 < 3 then
    some { k6 := true, format := leAt b 2 1, serial := BitVec.ofNat 64 (leAt b 8 8), zoneDone := bitsOf 384 (leAt b 16 48) }
  else none

/-- A cartridge that is not K6. -/
def notK6 : Cartridge := { k6 := false, format := 0, serial := 0, zoneDone := [] }

/-- A formatted cartridge whose serial is not in the register is foreign (R457). -/
def cartForeign (d : Device) (c : Cartridge) : Bool := c.k6 && c.format = 2 && !d.cry.cartReg.contains c.serial

/-- The cartridge may be written (R211, R212): a blank one whose serial is in the register is never formatted again. -/
def cartWritable (d : Device) (c : Cartridge) : Bool :=
  c.k6 && cartAdmitted d c.serial && !cartForeign d c && !(c.format = 0 && d.cry.cartReg.contains c.serial)

/-- DUST_CAUSE of the cartridge in the seat by row 7 of Table 17-3, 0 when it is formatted and admitted (R457, R475). -/
def cartCause (d : Device) : Nat :=
  match d.gen.cart with
  | none => 2
  | some c =>
    if !c.k6 then 3
    else if cartForeign d c then 5
    else if !cartWritable d c then 6
    else if c.format != 2 then 4
    else 0

/-- The FX880 identifies the cartridge in its seat: CART_STATE, TAG_OK, source 197 for one refused, and a formatted and admitted one is
loaded (R211, R212, R461). -/
def identify (system : SystemScan) (d : Device) : Device :=
  match d.gen.cart with
  | none => updGen (fun g => { g with cartState := 0 }) (updCry (fun c => { c with tagOk := false }) d)
  | some c =>
    let ok := cartWritable d c
    let d := updCry (fun x => { x with tagOk := ok }) d
    let d := updGen (fun g => { g with cartState := if ok || cartForeign d c && cartAdmitted d c.serial then 2 else 3 }) d
    let d := if c.k6 && !cartAdmitted d c.serial then raise 197 d else d
    if ok && c.format = 2 then loadMedium system d else d

/-- CARTRIDGE_SEATED: source 21; a refused cartridge shows its cause in Dust Sheet (R3, R461, R475). -/
def cartSeated (memory : List Byte) (system : SystemScan) (d : Device) : Device :=
  let c := (parseCartridge memory).getD notK6
  let d := raise 21 (identify system (updGen (fun g => { g with cart := some c }) d))
  let cause := cartCause d
  if d.gen.mode = .dustSheet && (cause = 3 || cause = 6) then updGen (fun g => { g with dustCause := cause }) d else d

/-- CARTRIDGE_SEATED (R461). -/
def execCartridgeSeated (memory : List Byte) (system : SystemScan) (s : State) : Host.Outcome State Fault Refusal :=
  effect s fun d => onlyIf d.gen.cart.isNone (cartSeated memory system) d

/-- Nothing of the medium is at hand any more: reads, writes, rings, what waited for them. -/
def clearMedium (d : Device) : Device :=
  let d := dropReads (fun _ => true) d
  let d := { d with
    rdc := { d.rdc with refreshQueue := [], resumeAt := none, stalled := false }
    wrc := { d.wrc with clusters := [], writing := none, fifo := [], unsent := [], train := [], jumpedBack := false, opcRun := none, opcStep := none, excs := [], opcDone := [], passes := [] } }
  let d := updCry (fun c => { c with tagOk := false, ops := [] }) d
  let d := (List.range 16).foldl (fun d n => updSlot n (fun s => { s with busy := false }) d) d
  updRcl (fun r => { nextGroup := r.nextGroup, lastChoice := r.lastChoice, tasks := r.tasks }) d

/-- The cartridge leaves the seat without preparation: laser off, medium commands end with INTERNAL_FAULT, Dust Sheet with cause 11 (R465);
Primer stays Primer (R458). -/
def cartTorn (d : Device) : Device :=
  let d := laserOff (failMedium d)
  let d := updGen (fun g => { g with formatting := false, leaveTag := none, ejectTag := none, cart := none, cartState := 0 }) d
  let d := if d.gen.mode = .primer then d
    else if d.gen.mode = .dustSheet then updGen (fun g => { g with dustCause := 11 }) d
    else enterDust 11 d
  clearMedium d

/-- The cartridge leaves the seat: source 22 (R464, R465). -/
def cartRemoved (d : Device) : Device :=
  raise 22 (if d.gen.cartState = 5 then
      clearMedium (updGen (fun g => { g with cart := none, cartState := 0 }) d)
    else cartTorn d)

/-- CARTRIDGE_REMOVED (R465). -/
def execCartridgeRemoved (s : State) : Host.Outcome State Fault Refusal :=
  effect s fun d => onlyIf d.gen.cart.isSome cartRemoved d

/-! ### The start-up sequence (R452, R453, R457) -/

/-- The active boot slot's digest has not been checked (R190). -/
def digestDue (d : Device) : Bool := (activationNow d).active < 32 && d.rcl.digestOk.isNone && mediumReady d

/-- START_PHASE once the directory has been read: boot digest, ring recovery, complete (Table 17-7). -/
def advancePhase (d : Device) : Device :=
  if d.gen.phase < 3 || d.gen.phase = 6 then d
  else updGen (fun g => { g with phase := if digestDue d then 4 else if anyPending d then 5 else 6 }) d

/-- BOOT_DIGEST_CHECK: the result is kept until the slot changes or the next power-on; BOOT_READ is served from now on (R190, R455). -/
def checkDigest (digest : BitVec 256) (d : Device) : Device :=
  let ok : Bool := (bootSlot d (activationNow d).active).digest = digest
  let d := updRcl (fun r => { r with digestOk := some ok }) d
  let d := if ok && d.gen.milestones.getD 0 0 = 0 then
      updGen (fun g => { g with milestones := setAt 0 (min 0xFFFFFFFF d.now) g.milestones }) d else d
  advancePhase d

/-- BOOT_DIGEST_CHECK (R190). -/
def execBootDigestCheck (digest : BitVec 256) (s : State) : Host.Outcome State Fault Refusal :=
  effect s fun d => onlyIf (digestDue d && d.gen.mode != .dustSheet) (checkDigest digest) d

/-- The state right after a power-on reset: what flash and the event log hold, the strap, the traces of the bus and of the Lath, and the
model's own counters stay; all else is at its reset value (R32, R482). A flash operation under way is cut (R435). -/
def resetDevice (d : Device) : Device :=
  let d := match d.fls.op with
    | some (op, a) => cutRange (flashSpan op a).1 (flashSpan op a).2 d
    | none => d
  { fls := { bytes := d.fls.bytes, spare := d.fls.spare, erases := d.fls.erases, cuts := d.fls.cuts }
    evt := { next := d.evt.next, seq := d.evt.seq }
    nv := d.nv
    lath := { strap := d.lath.strap, sent := d.lath.sent }
    bus := { out := d.bus.out }
    cry := { draws := d.cry.draws }
    gen := { powerOns := min 0xFFFFFFFF (d.gen.powerOns + 1) }
    draws := d.draws }

/-- The outcome of the start-up tests (R449, Table 15-1): ECC.SELFTEST, source 24, and 186 or 163 on a failure. -/
def noteTests (failMap : BitVec 16) (comparatorOk : Bool) (us : Nat) (d : Device) : Device :=
  let d := updEcc (fun e => { e with testDone := true, failMap := failMap, testUs := us }) d
  let d := updGen (fun g => { g with selfTestOk := failMap = 0 && comparatorOk }) d
  let d := if failMap = 0 then d else raise 186 d
  let d := if comparatorOk then d else raise 163 d
  raise 24 d

/-- PRIMER_CAUSE by rows 1 to 3 of Table 17-3, if one holds. -/
def primerCause (failMap : BitVec 16) (comparatorOk image : Bool) : Option Nat :=
  if failMap != 0 then some 6 else if !comparatorOk then some 2 else if !image then some 5 else none

/-- DUST_CAUSE by rows 4 to 7 of Table 17-3, 0 when none holds. -/
def dustChoice (d : Device) : Nat :=
  if d.pacing.fault then 10
  else if d.nv.calibration.isNone then 7
  else if d.nv.pairRecord.isNone && !slotIsActive d 0 then 8
  else cartCause d

/-- Slots ACTIVE that the loaded directory does not list are RETIRING (R208). -/
def judgeSlots (d : Device) : Device :=
  if !mediumReady d then d
  else (List.range 16).foldl (fun d n =>
    if 1 ≤ n && unlisted d n then updSlot n (fun s => { s with st := .retiring, key := none }) d else d) d

/-- The images that may run: valid as the loader's checks find them, and not a rejected trial (R470). -/
def imageUsable (d : Device) (x : PowerOnInputs) (b : Bool) : Bool := (if b then x.imageBValid else x.imageAValid) && !rejected d b

/-- The image chosen: the usable one with the higher GENERATION, A on a tie (R470). -/
def chooseImage (d : Device) (x : PowerOnInputs) : Bool :=
  imageUsable d x true && (!imageUsable d x false || imageGeneration d false < imageGeneration d true)

/-- The mode chosen at power-on takes effect (R453, R457). -/
def chooseMode (cause : Option Nat) (d : Device) : Device :=
  let d := updGen (fun g => { g with chosen := true }) d
  match cause with
  | some c =>
    let d := enterPrimer c d
    if mediumReady d && d.nv.calibration.isSome then spinUp d else d
  | none =>
    let c := dustChoice d
    if c != 0 then raise 18 (updGen (fun g => { g with dustCause := c, parked := true }) d)
    else spinUp (finishRetiring (setMode .undercoat d))

/-- POWER_ON_RESET: Table 17-1 up to the newest directory checkpoint, with the results that the environment gives (R449, R452, R457,
R461, R470). -/
def powerOn (x : PowerOnInputs) (d : Device) : Device :=
  let d := noteTests x.checkerFail x.comparatorOk x.selfTestUs (resetDevice d)
  let d := if x.pacingFault then raise 20 { d with pacing := { d.pacing with fault := true, backup := true } } else d
  let cause := primerCause x.checkerFail x.comparatorOk (imageUsable d x false || imageUsable d x true)
  let d := updLsk (fun l => { l with imageB := chooseImage d x }) d
  let d := loadKeys cause.isNone d
  let d := restoreCalibration (if d.nv.pairing.isNone then raise 186 d else d)
  let d := updGen (fun g => { g with cart := x.cartMemory.map fun m => (parseCartridge m).getD notK6, phase := 1 }) d
  let d := judgeSlots (identify x.system d)
  let d := chooseMode cause d
  let d := if cause.isNone then imageStarts d else d
  advancePhase (updGen (fun g => { g with phase := if mediumReady d then 3 else 6 }) d)

/-- POWER_ON_RESET (R452). -/
def execPowerOnReset (inputs : PowerOnInputs) (s : State) : Host.Outcome State Fault Refusal := effect s (powerOn inputs)

/-- RESET_LEVEL_TRIP: one of the two comparators acts in every state, and the FX880 starts anew (R373). -/
def execResetLevelTrip (inputs : PowerOnInputs) (s : State) : Host.Outcome State Fault Refusal := effect s (powerOn inputs)

/-! ### End-of-log recovery (R193, R452) -/

/-- Rings in the order of recovery: the safety stream's owner first, then the others (R193). -/
def recoveryOrder (d : Device) : List Nat :=
  let s := d.regF 0x15000 27 24
  (if 1 ≤ s then [s] else []) ++ (List.range 16).filter fun o => 1 ≤ o && o != s

/-- The first ring in the order of recovery that stands at a phase. -/
def nextRecovery (d : Device) (p : RecoveryPhase) : Option Nat :=
  (recoveryOrder d).find? fun o => (d.rcl.rings.any fun r => r.1 = o) && (d.ring o).recovery = p

/-- The FX880 may work on its rings: a medium is loaded, and the mode uses it (R452, Table 15-3). -/
def recoveryMay (d : Device) : Bool := mediumReady d && d.gen.chosen && d.gen.mode != .dustSheet && !d.pacing.fault && inPs0 d

/-- One group of the forward scan: verified it commits behind those before it, else its sequences are void; one that the checkpoint covers
is only indexed (R193). -/
def recoverGroup (o : Nat) (g : FoundGroup) (d : Device) : Device :=
  let e := g.first + g.recs.length
  if e ≤ (streamRec d g.stream).head then (if g.whole then (indexGroup o g .committed none d).2 else d)
  else
    let d := if g.whole then (indexGroup o g .verified (some 0) d).2
      else
        let (id, d) := indexGroup o g .open (some 0) d
        voidGroup id d
    let r := streamRec d g.stream
    runTask (.put g.stream { r with issued := max r.issued e }) d

/-- Data frames of a group whose header reads with a pass below `p` (R192). -/
def lowFrames (hs : List (Nat × Nat)) (z : Zone) (first n p : Nat) : List Nat :=
  (List.range (16 * n)).filter fun f => (headerPass hs (mkPsa z.layer z.zone (18 * first + f))).any fun q => decide (q < p)

/-- The frames of a group that R192 fills: those whose header reads with a lower pass, those that AUX shows as never started, and the
parity frames of every cluster of which a data frame is filled (R172). -/
def fillFrames (d : Device) (hs : List (Nat × Nat)) (z : Zone) (first n p aux : Nat) : List Nat :=
  let low := lowFrames hs z first n p
  (List.range (18 * n)).filter fun f =>
    !positionTaken d ⟨z.layer, z.zone, first + f % n⟩ && (low.contains f || aux ≤ f || (16 * n ≤ f && low.any fun x => x % n = f % n))

/-- Where the ring stands as the scan shows: the zone and the pass, the clusters written, the position after the last group, and what R192
fills (R193). -/
def placeRing (o i p g : Nat) (hs : List (Nat × Nat)) (cs : List ScannedCluster) (d : Device) : Device :=
  let r := d.ring o
  let z := ringZone r i
  let gs := ringGroups z.layer z.zone
  let (first, n) := nthGroup gs g
  let moved : Bool := r.next = some i
  let z' : Zone := { z with pass := p, entered := if moved then d.rcl.entryOrder else z.entered }
  let here := cs.filter fun c => c.layer = z.layer && c.zone = z.zone
  let mark := here.find? fun c => c.type = 2 && c.pos = first
  let prior := if g = 0 then [] else
    let b := nthGroup gs (g - 1)
    [(b.1, b.2, fillFrames d hs z b.1 b.2 p ((mark.map (·.aux)).getD (18 * b.2)))]
  let own := (fillFrames d hs z first n p (18 * n)).filter fun f => mark.isNone || 18 ≤ f
  let data := (cs.drop ((cs.findIdx? fun c => some c.ctr = ((cs.filter fun c => c.type = 1).getLast?.map (·.ctr))).getD 0)).filter fun c => c.type = 0
  let d := updRing o (fun r => { r with
    zones := r.zones.set i z', cur := some i, next := if moved then none else r.next, pos := first + n
    ctr := (cs.getLast?.map fun c => c.ctr + 1).getD 0, sinceCkpt := min 63 data.length
    needCkpt := here.all fun c => c.type != 1, naming := r.naming || moved || r.next.isNone
    found := some { sealFound := mark.isSome, fills := prior ++ [(first, n, own)] } }) d
  updRcl (fun r => { r with entryOrder := r.entryOrder + 1 }) d

/-- Phase A of a ring: the end of its log, the stream records of the newest checkpoint among its last 64 clusters, and the record groups
that those hold (R193). The stream records taken are those of the ring's own streams (log entry 91). -/
def phaseA (o : Nat) (x : RecoveryScan) (d : Device) : Device :=
  let d := updRing o (fun r => { r with recoveryStart := d.now }) (updRcl (fun r => { r with recovering := some o }) d)
  let d := match findEnd d (d.ring o) x.headers with
    | none => d
    | some (i, p, g) =>
      let z := ringZone (d.ring o) i
      let e := nthGroup (ringGroups z.layer z.zone) g
      let cs := lastClusters (d.ring o) i p (e.1 + e.2) x.clusters
      let table := ((newestCheckpoint cs).map fun c => tableIn c.user).getD []
      let d := placeRing o i p g x.headers cs d
      let d := (table.filter fun t => t.2.owner = o).foldl (fun d t => runTask (.put t.1 t.2) d) d
      settleGroups ((groupsIn (recordRun d none cs) [] none).1.foldl (fun d g => recoverGroup o g d) d)
  updRing o (fun r => { r with recovery := .phaseADone }) d

/-- RECOVERY_PHASE_A (R193): the next ring in order. -/
def execRecoveryPhaseA (owner : Nat) (scan : RecoveryScan) (s : State) : Host.Outcome State Fault Refusal :=
  effect s fun d => onlyIf (recoveryMay d && !digestDue d && nextRecovery d .waiting = some owner) (phaseA owner scan) d

/-- Phase B of a ring: fill, and a seal checkpoint when the scan found none (R192, R193, R452). -/
def phaseB (o : Nat) (d : Device) : Device :=
  let r := d.ring o
  let d := match r.cur, r.found with
    | some i, some x =>
      let d := x.fills.foldl (fun d f => queueFill o (ringZone r i) f.1 f.2.1 f.2.2 d) d
      if x.sealFound then d else queueSeal o d
    | _, _ => d
  phaseBEnd o (updRing o (fun r => { r with recovery := .phaseB }) (updRcl (fun r => { r with recovering := some o }) d))

/-- RECOVERY_PHASE_B (R452): the next ring in order, once ARMED. -/
def execRecoveryPhaseB (owner : Nat) (s : State) : Host.Outcome State Fault Refusal :=
  effect s fun d => onlyIf (recoveryMay d && d.pwr.st = .armed && nextRecovery d .phaseADone = some owner
    && (nextRecovery d .phaseB).isNone) (phaseB owner) d

/-! ### Firmware update (R472, R474) -/

/-- A write of GEN.FW_UPDATE: SLOT and RESTART, and with START an update of the slot named begins, or ends at once with ERR 1 or 6
(R8, R474). START while an update runs does nothing (log entry 64). -/
def writeFwUpdate (v : Word32) (d : Device) : Device :=
  let d := updGen (fun g => { g with fwSlot := fld v 4 0, fwRestart := wbit v 30 }) d
  if d.gen.fwState = 1 || !wbit v 31 then d
  else
    let err := if d.gen.mode != .dustSheet then 1 else if d.pwr.st != .armed then 6 else 0
    updGen (fun g => { g with fwState := if err = 0 then 1 else 3, fwErr := err, fwSource := g.fwSlot }) d

/-- FW_UPDATE_START (R472): only the host writes the register, before the lock (R474). -/
def execFwUpdateStart (who : Requester) (value : Word32) (s : State) : Host.Outcome State Fault Refusal :=
  effect s fun d => if who = .host then gate .host 0x68 true (writeFwUpdate value) d else d

/-- The image's header, body and unused pages are as R472 asks. -/
def imageGood (b : List Byte) : Bool :=
  let len := leAt b 4 4
  slice 0 4 b = [0x46, 0x58, 0x46, 0x57] && len ≤ 2095872 && leAt b 8 4 ≤ 524288 && 0x500 + len ≤ b.length
    && leAt b 16 8 = 0 && leAt b 60 4 = (crc32c (slice 0 60 b)).toNat
    && (slice 256 1024 b).all (· == 0xFF) && leAt b 56 4 = (crc32c (slice 0x500 len b)).toNat

/-- The header page as it is programmed: GENERATION one above the running image's, HCRC computed anew (R472). -/
def headerPage (d : Device) (b : List Byte) : List Byte :=
  let h := slice 0 16 b ++ leBytes 8 (imageGeneration d d.lsk.imageB + 1) ++ slice 24 36 b
  h ++ leBytes 4 (crc32c h).toNat ++ slice 64 192 b

/-- ERR of the update, by the order of its steps (R472, Table 17-8). -/
def updateErr (image : List Byte) (verified : Bool) (d : Device) : Nat :=
  let s := bootSlot d d.gen.fwSource
  if d.gen.mode != .dustSheet then 1
  else if d.pwr.st != .armed then 6
  else if s.st != 1 then 2
  else if Config.sha256 image != s.digest then 3
  else if !imageGood image then 4
  else if !verified then 5
  else 0

/-- The other image region is erased and programmed, page 0 last (R472). -/
def programImage (image : List Byte) (d : Device) : Device :=
  let base := imageBase (!d.lsk.imageB)
  let d := (List.range 512).foldl (fun d k => eraseSectorAt (base / 4096 + k) d) d
  programAt base (headerPage d image) (programAt (base + 0x500) (slice 0x500 (leAt image 4 4) image) d)

/-- FW_UPDATE_DONE: the update ends, done or failed; after a failed verify what the region holds is not stated (R472, log entry 8). -/
def updateDone (image : List Byte) (verified : Bool) (x : PowerOnInputs) (d : Device) : Device :=
  let err := updateErr image verified d
  let d := if err = 0 then programImage image d
    else if err = 5 then cutRange (imageBase (!d.lsk.imageB)) 0x200000 d
    else d
  let d := updGen (fun g => { g with fwState := if err = 0 then 2 else 3, fwErr := err }) d
  if err = 0 && d.gen.fwRestart then powerOn x d else d

/-- FW_UPDATE_DONE (R472). -/
def execFwUpdateDone (image : List Byte) (verified : Bool) (inputs : PowerOnInputs) (s : State) : Host.Outcome State Fault Refusal :=
  effect s fun d => onlyIf (d.gen.fwState = 1) (updateDone image verified inputs) d

/-! ### Leaving Dust Sheet (R337, R459) -/

/-- DUST_CAUSE of the first condition of R459 that fails, in the order of Table 17-3, 0 when all hold. An ACTIVE owner 0 without a pair
record is a single FX880 in service, as row 6 of that table has it. -/
def leaveCause (d : Device) : Nat :=
  if d.pacing.fault then 10
  else if d.nv.calibration.isNone && laserMax d = 0 then 7
  else if (d.nv.pairRecord.isNone && holdsActive d && !slotIsActive d 0) || d.cry.commission.isSome then 8
  else if cartCause d = 4 then 0
  else cartCause d

/-- An accepted LEAVE_DUST_SHEET: owner 0 for a single FX880, first calibration when the record is absent, then format or Undercoat (R459,
R464, R467). -/
def leaveAccepted (tag : Nat) (measured : Option (List (Nat × Word32))) (d : Device) : Device :=
  let d := startCmd tag (setPhase tag .running d)
  let d := if d.nv.pairRecord.isNone && !slotIsActive d 0 then createOwner0 d else d
  let absent := d.nv.calibration.isNone
  if absent && measured.isNone then finish tag stInternal d
  else
    let d := if absent then firstCalibration (opcEverywhere ((measured.getD []).foldl takeMeasured d)) else d
    let d := updGen (fun g => { g with leaveTag := some tag, cartState := if g.cartState = 5 then 2 else g.cartState }) d
    let d := leaveNow d
    if d.gen.parked then d else spinUp d

/-- LEAVE_DUST_SHEET as its row runs: refused with its cause, or accepted; a first calibration writes the medium and waits for ARMED
(R459). -/
def leaveDust (tag : Nat) (measured : Option (List (Nat × Word32))) (d : Device) : Device :=
  let cause := leaveCause d
  if cause != 0 then finish tag stAbortedMode (updGen (fun g => { g with dustCause := cause }) d)
  else if d.nv.calibration.isNone && d.pwr.st != .armed then d
  else leaveAccepted tag measured d

end Sys2Proof.Machine
end

