-- ==== Sys2Proof/Machine/RegRead.lean ====
section
/-!
DEFINITION. What a register read returns and what it clears (R7 to R9, R80, R476, R478 to R481, Table 18-3): fields that report a
condition are computed from the state, fields that hold what was written are stored.
-/

namespace Sys2Proof.Machine

/-- A register word from its fields: lowest bit and value. -/
def wordOf (fs : List (Nat × Nat)) : Word32 := BitVec.ofNat 32 ((fs.map fun f => f.2 * 2 ^ f.1).foldl (· + ·) 0)

/-- A flag as a field at a bit. -/
def flagAt (i : Nat) (b : Bool) : Nat × Nat := (i, b2n b)

/-- The low or the high 32 bits of a 64-bit value. -/
def halfOf (hi : Bool) (v : Nat) : Word32 := BitVec.ofNat 32 (if hi then v / 2 ^ 32 else v)

/-! ### Codes -/

/-- LOOP_STATUS.STATE (Table 03-12). -/
def loopCode : LoopState → Nat
  | .openZero => 0
  | .acquire => 1
  | .closed => 2
  | .hold => 3

/-- MPG.STATUS.STATE (Table 04-7). -/
def motionCode : MotionState → Nat
  | .unhomed => 0
  | .homing => 1
  | .idle => 2
  | .moving => 3
  | .geared => 4
  | .emergency => 5
  | .fault => 6

/-- OWNER_STATUS.STATE (Table 08-7). -/
def slotCode : SlotState → Nat
  | .empty => 0
  | .active => 1
  | .retiring => 2
  | .destroyed => 3
  | .unavailable => 4

/-- TWN.STATUS.LINK_STATE (Table 10-7). -/
def linkCode : LinkState → Nat
  | .down => 0
  | .attaching => 1
  | .reconciling => 2
  | .catchup => 3
  | .mirroring => 4
  | .detaching => 5
  | .detached => 6

/-- TWN.STATUS.DIR (Table 10-7). -/
def dirCode : LathDir → Nat
  | .idle => 0
  | .sending => 1
  | .receiving => 2

/-- PWR.STATUS.STATE (Table 14-7). -/
def supplyCode : SupplyState → Nat
  | .unarmed => 0
  | .armed => 1
  | .rideThrough => 2
  | .sealing => 3
  | .sealed => 4
  | .reArming => 5

/-- LSK.STATUS.PAIR_STATE (Table 15-7). -/
def pairCode : PairState → Nat
  | .running => 0
  | .restarting => 1
  | .held => 2

/-! ### Block by block -/

/-- GEN registers that report a condition. TICK_HI is the requester's own latch (R481). -/
def genWord (who : Requester) (d : Device) (o : Nat) : Word32 :=
  match o with
  | 0x00 => 0x0880C101
  | 0x04 => halfOf false Config.deviceSerial.toNat
  | 0x08 => halfOf true Config.deviceSerial.toNat
  | 0x20 => wordOf [flagAt 0 d.hif.lock]
  | 0x24 => BitVec.ofNat 32 d.hif.lockedWrites
  | 0x40 => halfOf false d.now
  | 0x44 => match who with
    | .host => d.pacing.hiHost
    | .seq => d.pacing.hiSeq
    | .mgmt => d.pacing.hiMgmt
  | 0x48 => wordOf [flagAt 2 d.pacing.fault, flagAt 1 d.pacing.backup, flagAt 0 d.pacing.refclk]
  | 0x50 => wordOf ((List.range 8).map fun l => flagAt l (onExcursion d l))
  | 0x54 => BitVec.ofNat 32 d.exc.count
  | 0x60 => wordOf [(24, d.gen.dustCause), (16, d.gen.cartState), (8, d.gen.phase), (0, modeCode d.gen.mode)]
  | 0x68 => wordOf [flagAt 31 (d.gen.fwState = 1), flagAt 30 d.gen.fwRestart, (0, d.gen.fwSlot)]
  | 0x6C => wordOf [(30, d.gen.fwState), (24, d.gen.fwErr), flagAt 17 (onTrial d d.lsk.imageB), flagAt 16 d.lsk.imageB,
      (0, startMarks d d.lsk.imageB)]
  | 0x70 => wordOf [flagAt 31 d.gen.formatting, (0, (d.gen.cart.elim 0 fun c => c.zoneDone.length))]
  | 0x74 => BitVec.ofNat 32 (d.gen.milestones.getD 0 0)
  | 0x78 => BitVec.ofNat 32 (d.gen.milestones.getD 1 0)
  | 0x7C => BitVec.ofNat 32 (d.gen.milestones.getD 2 0)
  | _ => 0

/-- Polling is suspended by a seal, or after the lock by the link or Bus Master Enable (R305, R306). -/
def pollSuspended (d : Device) : Bool := d.hif.pollSeal || (d.hif.lock && !(d.hif.linkUp && d.hif.bme))

/-- HIF registers (Table 11-7). -/
def hifWord (d : Device) (o : Nat) : Word32 :=
  match o with
  | 0x1000 => wordOf [flagAt 31 d.hif.linkUp, flagAt 30 d.hif.bme, flagAt 29 d.hif.inL1, (4, d.hif.width % 4), (0, d.hif.speed % 4)]
  | 0x1014 => wordOf [flagAt 31 (onExcursion d 5), flagAt 30 (pollSuspended d), (0, d.hif.interval % 2 ^ 18)]
  | 0x1028 => wordOf [flagAt 31 d.hif.transition, (0, d.hif.ps)]
  | 0x1A00 => d.bus.pba
  | _ => d.reg o

/-- INFLIGHT.COUNT: the commands in flight, an entry being fetched among them (R308). -/
def inFlightNow (d : Device) : Nat := inFlight d + b2n d.hif.fetching.isSome

/-- RNG registers (Table 11-8). -/
def rngWord (d : Device) (o : Nat) : Word32 :=
  let n := (o - 0x2000) % 0x100 / 0x20
  if o = 0x2204 then wordOf [(16, d.regF 0x2204 24 16), (0, inFlightNow d)]
  else if o < 0x2100 && o % 0x20 = 0x0C then
    let q := d.sq n
    wordOf [(30, ringCode q.st), (28, q.err), (12, q.tail), (0, sqHead d n)]
  else if 0x2100 ≤ o && o < 0x2200 && o % 0x20 = 0x10 then
    let q := d.cq n
    wordOf [(30, ringCode q.st), (28, q.err), flagAt 24 q.phase, (12, q.head), (0, q.tail)]
  else d.reg o

/-- A word of a bit array of the ICU. -/
def srcBits (d : Device) (w : Nat) (p : Src → Bool) : Word32 := wordOf ((List.range 32).map fun b => flagAt b (p (d.src (32 * w + b))))

/-- SRC_CFG[s] (Table 13-7). -/
def srcCfgWord (d : Device) (s : Nat) : Word32 :=
  let x := d.src s
  wordOf [(27, x.vector), (16, x.counter), flagAt 15 (isStateSrc s), flagAt 14 (isAonSrc s), (8, x.priority), (4, x.target), (0, x.sense)]

/-- ICU registers (Table 13-7), CLAIM apart. -/
def icuWord (d : Device) (o : Nat) : Word32 :=
  let w := o % 0x20 / 4
  if o < 0x4400 then srcCfgWord d ((o - 0x4000) / 4)
  else if o < 0x4440 then srcBits d w (·.masked)
  else if o < 0x4480 then srcBits d w (·.pending)
  else if o < 0x44A0 then srcBits d w (·.active)
  else if o < 0x44C0 then srcBits d w (·.level)
  else if o = 0x4500 || o = 0x4510 || o = 0x4520 then wordOf [(0, sget (fun _ => 0) d.icu.threshold ((o - 0x4500) / 0x10))]
  else if 0x4600 ≤ o && o < 0x4640 then
    let x := wakeSlot d ((o - 0x4600) / 4)
    wordOf [flagAt 31 x.en, (8, x.fwd), (0, x.source)]
  else if o = 0x4640 then wordOf [(16, d.regF 0x4640 31 16), (0, d.icu.lastWake)]
  else d.reg o

/-- SRV registers (Tables 03-10 to 03-16). FAULT_STATUS.INHIBIT shows the condition as INH_STATUS has it (log entry 12). -/
def srvWord (d : Device) (o : Nat) : Word32 :=
  if o < 0x8800 && o % 0x200 = 0x104 then
    let n := (o - 0x8000) / 0x200
    let l := d.loop n
    wordOf [flagAt 31 l.shadowValid, flagAt 30 l.holdTimeout, flagAt 29 (n = 0 && l.focusLost), flagAt 28 l.cmd.isSome,
      (16, min 255 l.holdSamples), flagAt 3 (outSatOf d n), (0, loopCode l.st)]
  else
    match o with
    | 0x8800 => wordOf [(8, min 255 d.servo.onTimeRun), flagAt 1 (d.wrc.inhibit.getLsbD 4), flagAt 0 d.servo.servoFault]
    | 0x8900 => wordOf [flagAt 0 d.servo.seqRun]
    | 0x8904 => wordOf [flagAt 2 d.servo.seqHalted, flagAt 1 d.servo.seqExpired, flagAt 0 d.servo.seqPrimer]
    | _ => d.reg o

/-- MPG registers (Table 04-7). -/
def mpgWord (d : Device) (o : Nat) : Word32 :=
  let m := d.motion
  match o with
  | 0x9004 => wordOf [flagAt 31 m.posValid, flagAt 30 m.atPark, flagAt 29 (m.current != .off), flagAt 28 (motionInhibit d), flagAt 27 (homeSw d),
      flagAt 26 (outerSw d), (4, m.stopCause), (0, motionCode m.st)]
  | 0x9008 => wordOfInt m.pos
  | 0x903C => wordOf [flagAt 2 m.late, flagAt 0 m.armed]
  | 0x9040 => m.masterPos
  | 0x904C => wordOf [flagAt 31 (onExcursion d 7), (0, ofSigned 12 m.trim)]
  | _ => d.reg o

/-- RDC registers (Table 05-5). -/
def rdcWord (d : Device) (o : Nat) : Word32 :=
  if o = 0xA014 then
    wordOf [flagAt 31 d.rdc.locked, flagAt 30 (onExcursion d 3), flagAt 29 (onExcursion d 4), (8, d.rdc.store.length), (0, d.rdc.fifo.length)]
  else if 0xA100 ≤ o && o < 0xA13C then (d.rdc.taps.getD ((o - 0xA100) / 4) 0).setWidth 32
  else d.reg o

/-- WRC registers (Table 06-8), STRAT_DATA apart. -/
def wrcWord (d : Device) (o : Nat) : Word32 :=
  let w := d.wrc
  match o with
  | 0xB008 => wordOf [flagAt 31 w.ilk, flagAt 30 w.overTrip, flagAt 29 w.laserOn, (0, w.level % 1024)]
  | 0xB018 => wordOf [flagAt 31 (w.inhibit != 0), (0, w.inhibit.toNat)]
  | 0xB028 => wordOf [flagAt 31 (onExcursion d 2), (0, ofSigned 8 w.trim)]
  | 0xB0C0 => wordOf [flagAt 31 w.opcStep.isSome, (0, d.regF 0xB0C0 30 0)]
  | 0xB0C4 => wordOf [(16, ofSigned 10 w.opcBeta), (0, min 65535 w.opcErrors)]
  | _ => d.reg o

/-- CCH registers (Table 09-8). -/
def cchWord (d : Device) (o : Nat) : Word32 :=
  if o = 0xC010 then wordOf [flagAt 31 d.cch.range.isSome, (0, d.regF 0xC010 30 0)]
  else if o = 0xC024 then wordOf [flagAt 31 d.cch.range.isSome, flagAt 30 d.cch.ignored, (0, d.cch.affected)]
  else if 0xC040 ≤ o && o < 0xC080 then
    let k := (o - 0xC040) / 4
    wordOf [flagAt 7 (noticeOut d k), flagAt 6 (requestOut d k), flagAt 5 (findVictim d (isTable k)).isSome,
      flagAt 4 (findLine d (isTable k)).isSome, (0, cohCode (cohOf d k))]
  else if 0xC080 ≤ o && o < 0xC0C0 then tablePoison d ((o - 0xC080) / 4)
  else d.reg o

/-- CRY registers (Table 08-7). -/
def cryWord (d : Device) (o : Nat) : Word32 :=
  if o < 0xD040 then
    let s := d.slot ((o - 0xD000) / 4)
    wordOf [(16, s.quota), (8, s.keygen % 16), flagAt 6 (s.flags.getLsbD 2), flagAt 5 (s.flags.getLsbD 1), flagAt 4 (s.flags.getLsbD 0),
      flagAt 3 s.key.isSome, (0, slotCode s.st)]
  else
    match o with
    | 0xD040 => wordOf [flagAt 31 (isPaired d), flagAt 30 d.cry.checkCode.isSome, (0, d.cry.checkCode.getD 0)]
    | 0xD044 => wordOf [flagAt 31 d.cry.tagOk, (16, d.cry.cartReg.length), (0, (cartSerial d).toNat % 65536)]
    | 0xD048 => wordOf ((16, d.regF 0xD048 31 16) :: (List.range 16).map fun n => flagAt n (d.slot n).peerPending)
    | 0xD04C => wordOf [flagAt 31 d.cry.rngFail, (0, d.cry.rngFails)]
    | _ => d.reg o

/-- TWN registers (Table 10-7). -/
def twnWord (d : Device) (o : Nat) : Word32 :=
  let l := d.lath
  let serial := (l.peer.elim 0 fun b => b.serial.toNat)
  match o with
  | 0xE000 => wordOf [flagAt 31 l.live, flagAt 30 l.peerHealthy, flagAt 29 l.strapConflict, flagAt 28 l.pairMismatch,
      flagAt 27 l.commissionFailed, (24, linkCode l.link), (21, l.peerMode.elim 7 modeCode), flagAt 20 l.peerSealing, (18, dirCode l.dir),
      (12, min 63 l.creditC), (8, min 15 l.creditD), (0, twinId d)]
  | 0xE008 => BitVec.ofNat 32 l.backlog
  | 0xE00C => halfOf false serial
  | 0xE010 => halfOf true serial
  | 0xE014 => halfOf false l.splitTick
  | 0xE018 => halfOf true l.splitTick
  | _ => d.reg o

/-- PWR registers (Tables 02-12 to 02-15, 14-7). -/
def pwrWord (d : Device) (o : Nat) : Word32 :=
  let p := d.pwr
  match o with
  | 0xF000 => wordOf [flagAt 31 p.vinWarn, flagAt 30 p.pwrwarn, flagAt 29 p.onHawk, flagAt 28 (p.charger != .off && !p.pause),
      flagAt 27 p.pause, (4, p.sealStep), (0, supplyCode p.st)]
  | 0xF00C => wordOf [(16, p.field % 65536), (0, p.vin % 65536)]
  | 0xF010 => wordOf [(0, p.coarse % 65536)]
  | 0xF014 => wordOf [(16, min 65535 p.seals), (0, min 65535 p.rides)]
  | 0xF018 => BitVec.ofNat 32 p.lastSeal
  | 0xF10C => wordOf [flagAt 31 (onExcursion d 1), (24, avsBand d.avs.code), (16, d.avs.code), (0, ofSigned 11 d.avs.windowSlack)]
  | _ => d.reg o

/-- Milliseconds of balancing left, a part of one counted whole (Table 14-8). -/
def bleedLeft (d : Device) : Nat := if d.pwr.bleed = 0 then 0 else (d.pwr.bleedEnd - d.now + 24999) / 25000

/-- HUS registers (Table 14-8). -/
def husWord (d : Device) (o : Nat) : Word32 :=
  let p := d.pwr
  if o < 0x10018 then
    let i := (o - 0x10000) / 4
    wordOf [flagAt 31 (cellValid d i), (0, p.cells.getD i 0 % 65536)]
  else
    match o with
    | 0x10018 => wordOf [flagAt 31 (cellsOk d), (0, stackReading d % 65536)]
    | 0x1001C => wordOf [flagAt 31 p.chainLost, flagAt 30 p.monFault, flagAt 29 p.mismatch, flagAt 28 p.eol, flagAt 27 p.testRunning,
        (16, p.openWire.toNat), (0, p.cellAlarm.toNat)]
    | 0x10020 => wordOf [flagAt 31 p.refFail, (0, p.refB % 65536)]
    | 0x1002C => wordOf [(16, bleedLeft d % 2048), (0, p.bleed.toNat)]
    | 0x10030 => wordOf [flagAt 31 (p.testDue || p.testRunning), (0, d.regF 0x10030 7 0)]
    | 0x10034 => BitVec.ofNat 32 p.cap
    | 0x10038 => BitVec.ofNat 32 p.esr
    | 0x1003C => BitVec.ofNat 32 p.usable
    | 0x10040 => halfOf false p.testTick
    | 0x10044 => halfOf true p.testTick
    | _ => d.reg o

/-- Mismatches detected in the last 10 s (R401, R510). -/
def mismatchWindow (d : Device) : Nat := min 3 (d.lsk.mismatches.filter fun t => decide (d.now ≤ t + 10 * ticksPerS)).length

/-- LSK registers (Table 15-7). -/
def lskWord (d : Device) (o : Nat) : Word32 :=
  let l := d.lsk
  match o with
  | 0x11000 => wordOf [flagAt 31 (d.gen.mode = .primer), (28, l.cause), (24, pairCode l.pair), flagAt 16 l.imageB, (8, mismatchWindow d)]
  | 0x11004 => BitVec.ofNat 32 (min 0xFFFFFFFF l.count)
  | 0x11008 => l.addr
  | 0x1100C => wordOf [(8, min 0xFFFFFF l.passes), (0, l.lastBit)]
  | 0x11010 => wordOf [(16, min 65535 l.restarts), (0, min 65535 l.lastUs)]
  | _ => 0

/-- FIO registers (Table 15-8). -/
def fioWord (d : Device) (o : Nat) : Word32 :=
  let f := d.fio
  match o with
  | 0x12010 => wordOf [flagAt 31 f.sync, (24, f.gnd.toNat), (20, f.cross.toNat), (16, f.ext.toNat), (8, f.pin.toNat),
      (0, (driversOn d).toNat)]
  | 0x12014 => wordOf [flagAt 8 d.lath.peerHealthy, (0, f.levels.toNat - f.levels.toNat % 2 + b2n d.pwr.pwrwarnOn)]
  | _ => d.reg o

/-- The sense code of a band. -/
def senseDelay (d : Device) (b : Nat) : Nat := d.regF (0x13020 + 4 * b) 5 0

/-- The sense code in force: until the rail has settled, the larger of the two bands' (R428). -/
def senseCode (d : Device) : Nat :=
  let b := avsBand d.avs.code
  if d.avs.settleAt.isSome then max (senseDelay d d.avs.oldBand) (senseDelay d b) else senseDelay d b

/-- The highest erase count and the lowest sector that holds it (Table 16-9). -/
def wearMost (d : Device) : Nat × Nat := d.fls.erases.foldl (fun b p => if b.1 < p.2 then (p.2, p.1) else b) (0, 0)

/-- FLS registers (Table 16-9). -/
def flsWord (d : Device) (o : Nat) : Word32 :=
  let f := d.fls
  match o with
  | 0x13000 => wordOf [flagAt 31 f.op.isSome, (0, d.regF 0x13000 2 0)]
  | 0x13008 => wordOf [flagAt 31 f.op.isSome, flagAt 30 f.suspended, flagAt 29 f.held, flagAt 28 f.auto, (0, f.err)]
  | 0x13010 => wordOf [(16, avsBand d.avs.code), (0, senseCode d)]
  | 0x13044 => wordOf [(16, f.due.length), (0, f.due.headD 0x7FF)]
  | 0x13048 => wordOf [(11, min (2 ^ 21 - 1) (wearMost d).1), (0, (wearMost d).2)]
  | _ => d.reg o

/-- ECC registers (Table 16-10). -/
def eccWord (d : Device) (o : Nat) : Word32 :=
  let e := d.ecc
  match o with
  | 0x14000 => wordOf [flagAt 31 e.openedAt.isSome, (0, d.regF 0x14000 29 0)]
  | 0x14014 => wordOf [(24, e.outcome), (16, e.bit), (0, e.syndrome.toNat)]
  | 0x14018 => halfOf false e.read.toNat
  | 0x1401C => halfOf true e.read.toNat
  | 0x14020 => wordOf [flagAt 31 e.testDone, flagAt 30 (e.failMap != 0), (16, min 16383 e.testUs), (0, e.failMap.toNat)]
  | 0x14034 => BitVec.ofNat 32 e.passes
  | 0x14038 => e.last
  | _ => d.reg o

/-- RCL registers (Table 07-10). -/
def rclWord (d : Device) (o : Nat) : Word32 :=
  match o with
  | 0x15008 => wordOf [flagAt 31 (onExcursion d 6), (0, d.rcl.lastChoice)]
  | 0x15010 => wordOf ([flagAt 31 d.rcl.recovering.isSome, (24, d.rcl.recovering.getD 0)]
      ++ (List.range 15).map fun i => flagAt (i + 1) (ringPending d (i + 1)))
  | 0x15014 => BitVec.ofNat 32 d.rcl.recoveryTicks
  | _ => d.reg o

/-- The word that a read of offset `o` by `who` returns, CLAIM apart; an offset without a register reads 0 (R476). -/
def regWord (who : Requester) (d : Device) (o : Nat) : Word32 :=
  if o < 0x1000 then genWord who d o
  else if o < 0x2000 then hifWord d o
  else if o < 0x4000 then rngWord d o
  else if o < 0x8000 then icuWord d o
  else if o < 0x9000 then srvWord d o
  else if o < 0xA000 then mpgWord d o
  else if o < 0xB000 then rdcWord d o
  else if o < 0xC000 then wrcWord d o
  else if o < 0xD000 then cchWord d o
  else if o < 0xE000 then cryWord d o
  else if o < 0xF000 then twnWord d o
  else if o < 0x10000 then pwrWord d o
  else if o < 0x11000 then husWord d o
  else if o < 0x12000 then lskWord d o
  else if o < 0x13000 then fioWord d o
  else if o < 0x14000 then flsWord d o
  else if o < 0x15000 then eccWord d o
  else if o < 0x16000 then rclWord d o
  else 0

/-! ### What a read clears (R480) -/

/-- A whole register of access RC (Table 18-3). -/
def clearsWhole (o : Nat) : Bool :=
  let span (a b : Nat) : Bool := a ≤ o && o ≤ b
  span 0x1030 0x1038 || span 0x2208 0x220C || o = 0x450C || o = 0x451C || span 0x4540 0x4544
    || (span 0x8000 0x87FF && o % 0x200 = 0x118) || o = 0x8804 || o = 0x9050 || span 0xA018 0xA02C || span 0xB0D0 0xB0E4
    || span 0xC100 0xC118 || span 0xD050 0xD05C || span 0xE020 0xE034 || o = 0x10048 || span 0x1201C 0x12020
    || span 0x13050 0x1305C || span 0x14028 0x14030 || span 0x15018 0x15020

/-- What a read of offset `o` leaves: RC fields return to 0, AVS_SLACK_MIN to its reset value, INFLIGHT.PEAK to COUNT (R8, R480). -/
def clearOnRead (o : Nat) (d : Device) : Device :=
  if clearsWhole o then setReg o 0 d
  else if o = 0x2204 then setRegF 0x2204 24 16 (inFlightNow d) d
  else if o = 0x4640 then setRegF 0x4640 31 16 0 d
  else if o = 0xF110 then setReg 0xF110 0x7FFF d
  else d

/-- A register read by `who` (R7, R34, R80, R146, R354, R480). -/
def readReg (who : Requester) (o : Nat) (d : Device) : Device :=
  if o % 4 != 0 || (who = .seq && !seqReaches o) then putRead 0 d
  else if o = 0x4504 then readClaim who 0 d
  else if o = 0x4514 then readClaim who 1 d
  else if o = 0x4524 then readClaim who 2 d
  else if o = 0x40 then tickLoRead who d
  else if o = 0xB030 then stratAccess none d
  else clearOnRead o (putRead (regWord who d o) d)

/-- A read of `width` bits: another width than 32 returns 0 (R7) and, by the model's choice, clears nothing (log entry 92). -/
def readBar0 (who : Requester) (width o : Nat) (d : Device) : Device :=
  onBus who (if width = 32 then readReg who o else putRead 0) d

/-- RC_FIELD_READ (R480). -/
def execRcFieldRead (who : Requester) (width offset : Nat) (s : State) : Host.Outcome State Fault Refusal :=
  effect s (readBar0 who width offset)

/-- BAR0_READ_IN_RETENTION (R478): a host read that brings the core rail back, as a wake does. -/
def execBar0ReadInRetention (width offset : Nat) (s : State) : Host.Outcome State Fault Refusal :=
  effect s fun d => onlyIf d.icu.retention (fun d => readBar0 .host width offset (leaveRetention d)) d

end Sys2Proof.Machine
end

