-- ==== Sys2Proof/Machine/Checks.lean ====
section
/-!
DEFINITION. The checks that a fetched command passes (R309, R326 to R328), in their order, and what a command waits for before its row
runs: a table line, an earlier command of its stream, the management pair, and the medium (R246, R307, R326, R343, R374, R376, R402).
-/

namespace Sys2Proof.Machine

/-- Owner slot bound to submission ring `n` (R199). -/
def ringOwner (d : Device) (n : Nat) : Nat := d.regF (0x2008 + 0x20 * n) 23 20

/-- Owner of the safety stream; 0 for none (Table 07-10). -/
def safetyOwner (d : Device) : Nat := d.regF 0x15000 27 24

/-- Stream `s` is the safety stream (Table 07-10). -/
def isSafety (d : Device) (s : Nat) : Bool := safetyOwner d != 0 && d.regF 0x15000 8 0 = s

/-! ### Mode (R327, Tables 08-6, 12-4, 12-9) -/

/-- The FX880 serves hosts' records: Topcoat or Undercoat. -/
def inService (d : Device) : Bool := d.gen.mode = .topcoat || d.gen.mode = .undercoat

/-- Owners may be created and retired (Table 08-6); in Dust Sheet an admitted, formatted cartridge is needed (R460). -/
def ownerOpsOk (d : Device) : Bool :=
  match d.gen.mode with
  | .topcoat => true
  | .undercoat => isSolo d
  | .primer => false
  | .dustSheet => (isSolo d || (d.lath.live && d.lath.peerMode = some .dustSheet)) && mediumReady d

/-- The mode request is accepted (Table 12-9). -/
def requestOk (d : Device) (req : Nat) : Bool :=
  match req with
  | 1 => inService d && d.gen.enterTag.isNone
  | 2 => d.gen.mode = .dustSheet
  | 3 => d.gen.mode = .topcoat
  | 4 => d.gen.mode = .dustSheet
  | 5 => d.gen.mode = .dustSheet && d.cry.checkCode.isSome
  | _ => false

/-- The diagnostic function is accepted (Table 12-4). -/
def diagOk (d : Device) (func : Nat) : Bool := d.gen.mode = .dustSheet || (inService d && (func = 2 || func = 3))

/-- A command that Dust Sheet refuses is refused from the moment its entry is under way (R335). -/
def servesRecords (d : Device) : Bool := inService d && d.gen.enterTag.isNone

/-- The mode accepts the entry (R327, Table 12-4). -/
def modeAccepts (d : Device) (e : List Byte) : Bool :=
  match eOpcode e with
  | 0x01 => servesRecords d || (d.gen.mode = .primer && isSafety d (eStream e))
  | 0x02 => servesRecords d
  | 0x03 => servesRecords d
  | 0x04 => servesRecords d
  | 0x05 => servesRecords d
  | 0x10 => servesRecords d
  | 0x11 => servesRecords d
  | 0x12 => servesRecords d || d.gen.mode = .primer
  | 0x20 => ownerOpsOk d
  | 0x21 => ownerOpsOk d
  | 0x22 => d.gen.mode = .dustSheet
  | 0x30 => servesRecords d
  | 0x31 => servesRecords d
  | 0x50 => requestOk d (eSel e)
  | 0x51 => d.gen.mode = .dustSheet
  | 0x60 => diagOk d (eSel e)
  | _ => d.gen.mode != .primer

/-! ### Owner slot (R202) and boot rights (R201) -/

/-- What the state of the ring's owner slot brings, if it refuses the command (R202). A slot being created counts as it stood before,
EMPTY or DESTROYED (R208). -/
def slotStatus (d : Device) (o : Nat) : Option Nat :=
  match (d.slot o).st with
  | .active =>
    if creating d o then
      (if (sget (fun _ => ({} : DirSlot)) d.rcl.directory o).keygen.isSome then some stKeyRetired else some stOwnerMismatch)
    else none
  | .retiring => some stKeyRetired
  | .destroyed => some stKeyRetired
  | .empty => some stOwnerMismatch
  | .unavailable => some stInternal

/-- A boot command is accepted from the ring's owner (R201). -/
def bootAllowed (d : Device) (o op : Nat) : Bool :=
  o = 0 || (if op = 0x12 then (d.slot o).flags.getLsbD 0 else (d.slot o).flags.getLsbD 1)

/-! ### Where a record is (R186, R285) -/

/-- TAIL of a stream with the changes that wait for its table line: a reclaim counts from the entry on (R178, R197). -/
def tailNow (d : Device) (s : Nat) : Nat :=
  d.rcl.tasks.foldl (fun n t => match t with | .tail k v => if k = s then max n v else n | _ => n) (streamRec d s).tail

/-- The sequence is void (R183): no group that this medium or, for the gap list, the peer holds has it. -/
def isVoid (d : Device) (s q : Nat) : Bool :=
  !inGap d s q && (groupHeld d s q).isNone && d.rcl.groups.any fun g => g.stream = s && g.first ≤ q && q < g.first + g.count && g.st = .void

/-- A read of the sequence is refused with NOT_YET (R186, R328 step 6). -/
def notYet (d : Device) (s q : Nat) : Bool := (streamRec d s).head ≤ q || (!inTopcoat d && inGap d s q)

/-! ### Field values (R328 step 7) -/

/-- DLEN lies in the opcode's range (R321, Table 12-1). -/
def lengthOk (d : Device) (e : List Byte) : Bool :=
  match opRow (eOpcode e) (eSel e) with
  | none => false
  | some r => r.lo ≤ eDlen e && eDlen e ≤ r.hi && eDlen e % r.step = 0
      && (eOpcode e != 0x01 || d.gen.mode != .primer || eDlen e ≤ 4096)

/-- A STREAM_OPEN finds its stream FREE, CLOSED, or FORKED to be settled in Topcoat (R334). -/
def openOk (d : Device) (e : List Byte) : Bool :=
  match (streamRec d (eStream e)).st with
  | .free => true
  | .closed => true
  | .forked => eSettle e && inTopcoat d
  | .open => false

/-- The slot may be created: EMPTY or DESTROYED, with nothing under way (R215). -/
def createOk (d : Device) (e : List Byte) : Bool :=
  let n := eSel e
  1 ≤ n && n < 16 && ((d.slot n).st = .empty || (d.slot n).st = .destroyed) && !(d.slot n).busy && 2 ≤ eQuota e

/-- The slot may be exported: ACTIVE, and owner 0 or EXPORTABLE (R222). -/
def exportOk (d : Device) (n : Nat) : Bool := n < 16 && slotIsActive d n && (n = 0 || slotExportable (d.slot n))

/-- The address names a frame of a K6 (R163, R164, R167). -/
def frameExists (psa : Nat) : Bool := psaLayer psa < 6 && psaFrame psa < zoneFrames (psaLayer psa) (psaZone psa)

/-- The opcode's own fields are good (R179, R186, R188, R189, R215, R216, R222, R323, R334). -/
def fieldsOk (d : Device) (e : List Byte) : Bool :=
  let s := entryStream e
  match eOpcode e with
  | 0x02 => eOffset e % 4096 = 0 && tailNow d s ≤ markSeq (eMark e) && !isVoid d s (markSeq (eMark e))
  | 0x03 => markSeq (eMark e) ≤ eLast e && tailNow d s ≤ markSeq (eMark e)
  | 0x04 => eFirst e ≤ eLast e && tailNow d s ≤ eLast e
  | 0x10 => stageFieldsOk d e
  | 0x11 => eSel e < 32 && (bootSlot d (eSel e)).st = 1
  | 0x12 => eOffset e % 4096 = 0 && (activationNow d).active < 32 && eOffset e < (bootSlot d (activationNow d).active).length
  | 0x20 => createOk d e
  | 0x21 => 1 ≤ eSel e && eSel e < 16 && slotIsActive d (eSel e) && !(d.slot (eSel e)).busy
  | 0x22 => exportOk d (eSel e)
  | 0x30 => openOk d e
  | 0x41 => eWord28 e % 4 = 0
  | 0x42 => featureOk d (eSel e) (eValue e)
  | 0x50 => (eSel e != 3 || eByte25 e < 2) && (eSel e != 5 || eWord28 e ≤ 999999)
  | 0x60 => (eSel e != 2 || frameExists (ePsa e)) && (eSel e != 3 || 208 ≤ eSource e)
  | _ => true

/-- OWNER_RETIRE and OWNER_EXPORT_KEY of a slot that is UNAVAILABLE (R216, R222). -/
def namesUnavailable (d : Device) (e : List Byte) : Bool :=
  (eOpcode e = 0x21 && 1 ≤ eSel e && eSel e < 16 && (d.slot (eSel e)).st = .unavailable)
    || (eOpcode e = 0x22 && eSel e < 16 && (d.slot (eSel e)).st = .unavailable)

/-- Step 7: field values, and the slot that the command names. -/
def fieldStatus (d : Device) (e : List Byte) : Option Nat :=
  if !lengthOk d e then some stInvalidField
  else if namesUnavailable d e then some stInternal
  else if !fieldsOk d e then some stInvalidField
  else none

/-! ### Steps 3 to 7 (R328) -/

/-- APPEND may go to the stream on this twin (R407, Table 10-4). -/
def appendHere (d : Device) (s : Nat) : Bool :=
  mayAppend d s && !(isPaired d && d.gen.mode != .primer && !energised d 0)

/-- Step 3 for a command that names a stream: a FREE stream, then the owner (R200); a poisoned record comes first (R242, DEDUCED). -/
def streamStatus (d : Device) (c : Cmd) : Option Nat :=
  let r := streamRec d (entryStream c.entry)
  let opens := eOpcode c.entry = 0x30
  if streamPoisoned d (entryStream c.entry) then some stInternal
  else if !opens && r.st = .free then some stStreamClosed
  else if c.owner = 0 || (!(opens && r.st = .free) && r.owner != c.owner) then some stOwnerMismatch
  else none

/-- Steps 4 to 6 for a command that names a stream. -/
def recordStatus (d : Device) (c : Cmd) : Option Nat :=
  let s := entryStream c.entry
  if eOpcode c.entry = 0x01 then
    (if (streamRec d s).st = .closed then some stStreamClosed else if !appendHere d s then some stNotHome else none)
  else if (eOpcode c.entry = 0x02 || eOpcode c.entry = 0x03) && notYet d s (markSeq (eMark c.entry)) then some stNotYet
  else none

/-- The first of steps 3 to 7 that the command fails, as its status. -/
def laterStatus (d : Device) (c : Cmd) : Option Nat :=
  let op := eOpcode c.entry
  if namesStream op then
    match streamStatus d c with
    | some st => some st
    | none =>
      match recordStatus d c with
      | some st => some st
      | none => fieldStatus d c.entry
  else if (op = 0x10 || op = 0x11 || op = 0x12) && !bootAllowed d c.owner op then some stOwnerMismatch
  else fieldStatus d c.entry

/-! ### What a command waits for -/

/-- The command changes its stream record (R246). -/
def changesRecord (op : Nat) : Bool := op != 0x02 && op != 0x03

/-- The table line of the stream that the command names, at hand or asked for. -/
def lineFor (c : Cmd) (d : Device) : Bool × Device :=
  if namesStream (eOpcode c.entry) then obtainLine (entryStream c.entry / 32) (changesRecord (eOpcode c.entry)) d else (true, d)

/-- Commands fetched before `tag`, in order. -/
def fetchedBefore (d : Device) (tag : Nat) : List Cmd := d.hif.cmds.takeWhile fun c => c.tag != tag

/-- The command has not taken effect yet. -/
def notYetRun (c : Cmd) : Bool := c.phase != .running && c.phase != .done && c.phase != .dead

/-- An earlier command of the stream stands in the way: a STREAM_OPEN or STREAM_CLOSE goes before everything fetched after it, and an
APPEND before a later STREAM_CLOSE (R307, R334). -/
def streamAhead (d : Device) (c : Cmd) : Bool :=
  namesStream (eOpcode c.entry) && (fetchedBefore d c.tag).any fun x =>
    namesStream (eOpcode x.entry) && entryStream x.entry = entryStream c.entry && notYetRun x
      && (eOpcode x.entry = 0x30 || eOpcode x.entry = 0x31 || (eOpcode x.entry = 0x01 && eOpcode c.entry = 0x31))

/-- End-of-log recovery has not yet found the stream's records: phase A of the ring is to come (R193, DEDUCED for commands other than
APPEND). -/
def recordsUnknown (d : Device) (c : Cmd) : Bool :=
  namesStream (eOpcode c.entry) && ringPending d c.owner && (d.ring c.owner).recovery = .waiting

/-- Commands of an owner wait while slots found RETIRING are destroyed; BOOT_READ is served before the medium can be written (R218, R454;
log entry 93). -/
def destroysFirst (d : Device) (c : Cmd) : Bool := ownersRetiring d && !isAdmin (eOpcode c.entry) && eOpcode c.entry != 0x12

/-- The command waits: admin commands for a warm restart to end (R402), others as above. -/
def mustWait (d : Device) (c : Cmd) : Bool :=
  (isAdmin (eOpcode c.entry) && d.lsk.pair = .restarting) || streamAhead d c || recordsUnknown d c || destroysFirst d c

/-- The medium is not served: a pacing fault, a watchdog expiry in Primer, a laser interlock, or no calibration in Primer (R57, R82, R145,
R436). -/
def mediumGone (d : Device) : Bool :=
  d.pacing.fault || d.servo.mediumDead || d.wrc.ilkBlocked || (d.gen.mode = .primer && d.nv.calibration.isNone)

/-- A command that needs the medium may go on now: it has started, or the supply and the power state let it start (R343, R374, R376). -/
def mediumAt (d : Device) (c : Cmd) : Bool := !needsMedium c || c.started || (mediumOpen d && inPs0 d)

/-! ### Running a dispatched command -/

/-- Run `f` on command `tag` when it is dispatched and `p` holds of it: its row's opcode. -/
def runCmd (tag : Nat) (p : Cmd → Bool) (f : Cmd → Device → Device) (d : Device) : Device :=
  match d.cmd tag with
  | some c => if c.phase = .dispatched && p c then f c d else d
  | none => d

/-- Steps 3 to 8 of R328, with the mode judged again for a command that has waited (R335): the command waits, or takes the status of the first check it fails, or has its effect `f`. -/
def checkThen (f : Cmd → Device → Device) (c : Cmd) (d : Device) : Device :=
  if mustWait d c then d
  else if !c.started && !modeAccepts d c.entry then finish c.tag stAbortedMode d
  else
    match lineFor c d with
    | (false, d) => setPhase c.tag (.line (entryStream c.entry / 32) (changesRecord (eOpcode c.entry))) d
    | (true, d) =>
      match laterStatus d c with
      | some st =>
        finish c.tag st (if namesStream (eOpcode c.entry) && streamPoisoned d (entryStream c.entry) then raise 115 d else d)
      | none =>
        if needsMedium c && mediumGone d then finish c.tag stInternal d
        else if mediumAt d c then f c d
        else wakePower d

/-- The row of an opcode: the dispatched command runs. -/
def runOp (tag op : Nat) (f : Cmd → Device → Device) : Device → Device :=
  runCmd tag (fun c => eOpcode c.entry = op) (checkThen f)

/-- The row of one function of an opcode (byte 24). -/
def runSub (tag op sel : Nat) (f : Cmd → Device → Device) : Device → Device :=
  runCmd tag (fun c => eOpcode c.entry = op && eSel c.entry = sel) (checkThen f)

/-! ### From fetch to dispatch (R309, R326, R328 steps 1 and 2) -/

/-- The VALUE words of a SET_FEATURE hold no reserved bit or encoding (R11, R336). -/
def valuesGood (e : List Byte) : Bool := eOpcode e != 0x42 || featureEncodings (eSel e) (eValue e)

/-- R309 on the entry itself: the status it fails with, if any. -/
def entryStatus (sq : Nat) (e : List Byte) : Option Nat :=
  if (opRow (eOpcode e) (eSel e)).isNone || (isAdmin (eOpcode e) && sq != 0) then some stInvalidOpcode
  else if !(reservedBytesZero e && reservedBitsZero e && reservedEncodings e && valuesGood e && dataFieldsOk e) then some stInvalidField
  else none

/-- A fetched command whose entry is good: mode, then the state of the owner slot at its fetch (R228), then it is dispatched; an APPEND waits for admission. A command that
needs the medium wakes the drive (R343). -/
def dispatchCmd (tag : Nat) (d : Device) : Device :=
  match d.cmd tag with
  | none => d
  | some c =>
    if !modeAccepts d c.entry then finish tag stAbortedMode d
    else
      match c.slotSt with
      | some st => finish tag st d
      | none =>
        let d := if needsMedium c then wakePower d else d
        setPhase tag (if eOpcode c.entry = 0x01 then .admission else .dispatched) d

/-- A command has been fetched (R309): its entry is checked; with SGL its scatter list is read first (R296). -/
def takeCmd (c : Cmd) (d : Device) : Device :=
  match entryStatus c.sq c.entry with
  | some st => finish c.tag st d
  | none => if eSgl c.entry then setPhase c.tag .scatter d else dispatchCmd c.tag d

/-- Admission is open for the command's ring (R284, R326). -/
def admissionOpen (d : Device) (c : Cmd) : Bool :=
  admitLevel d && !ringPending d c.owner && !d.lath.admissionHold

/-- APPEND_ADMISSION (R326): a waiting APPEND goes on. -/
def execAppendAdmission (tag : Nat) (s : State) : Host.Outcome State Fault Refusal :=
  effect s fun d =>
    match d.cmd tag with
    | some c => onlyIf (c.phase = .admission && admissionOpen d c) (setPhase tag .dispatched) d
    | none => d

end Sys2Proof.Machine
end

