-- ==== Sys2Proof/Machine/HostData.lean ====
section
/-!
DEFINITION. The commands that carry and read records: APPEND (R181 to R183, R447), READ_MARK and READ_RANGE with the records that only the
peer holds (R186, R285, R325), HOLD and RELEASE_HOLD (R179), STREAM_OPEN and STREAM_CLOSE (R334).
-/

namespace Sys2Proof.Machine

/-- The command goes on by itself: it has started and waits for its outcome. -/
def goOn (tag : Nat) (d : Device) : Device := startCmd tag (setPhase tag .running d)

/-- The command's payload is pulled from host memory (R317); the command has started. -/
def pullPayload (tag : Nat) (d : Device) : Device := startCmd tag (setPhase tag .payload d)

/-! ### APPEND -/

/-- Sequences are issued from ISSUED: the stream's record, whose line is held in M, counts on (R185). -/
def issue (s n : Nat) : Device → Device := updStream s fun r => { r with issued := r.issued + n }

/-- A payload that could not be read whole is withdrawn before placement: its sequences are void, source 185, INTERNAL_FAULT (R317, R447).
How many records it held is not known: the number is drawn (log entry 7). -/
def withdrawAppend (c : Cmd) (d : Device) : Device :=
  let s := eStream c.entry
  let first := (streamRec d s).issued
  let n := 1 + (freeDraw d).toNat % max 1 (eDlen c.entry / 64)
  let recs := (List.range n).map fun i => ({ seq := first + i, off := 0, len := 0 } : RecInfo)
  let (id, d) := addGroup s c.owner first recs [] (.leader c.tag) (issue s n (drawn d))
  failGroup id stInternal (raise 185 d)

/-- The group's sequences are issued, its records take their headers, it is placed in the owner's ring, and in Topcoat its exchange with
the peer begins (R22, R180 to R184, R274). -/
def placeAppend (c : Cmd) (rs : List (Nat × Nat)) (d : Device) : Device :=
  let s := eStream c.entry
  let first := (streamRec d s).issued
  let (recs, bytes) := groupBytes c.payload rs s first false
  let (id, d) := addGroup s c.owner first recs bytes (.leader c.tag) (issue s rs.length d)
  let d := updCmd c.tag (fun c => { c with group := some id }) (goOn c.tag d)
  pumpMirror 16 (placeGroup c.owner id d)

/-- APPEND: the payload is pulled, then its group is issued and placed; a payload that is no record group is refused (R181), and a ring that
can take nothing more completes with MEDIUM_FULL, source 203 (R176). -/
def runAppend (c : Cmd) (d : Device) : Device :=
  if c.payload.isEmpty then pullPayload c.tag d
  else if c.poisoned then withdrawAppend c d
  else
    match groupRecords c.payload with
    | none => finish c.tag stInvalidField d
    | some rs => if ringOpen d c.owner then placeAppend c rs d else finish c.tag stMediumFull (raise 203 d)

/-- APPEND (R181). -/
def execAppend (tag : Nat) (s : State) : Host.Outcome State Fault Refusal := effect s (runOp tag 0x01 runAppend)

/-! ### Reading records that lie on this medium -/

/-- The record of a sequence on this medium, with its group. -/
def recordOf (d : Device) (s q : Nat) : Option (Group × RecInfo) :=
  (groupHeld d s q).bind fun g => (g.recs.find? fun r => r.seq = q).map fun r => (g, r)

/-! ### Records that only the peer holds (R285) -/

/-- Bytes of a unit; one that came poisoned and empty counts whole. -/
def unitLength (u : List Byte × Bool) : Nat := if u.2 && u.1.isEmpty then 4096 else u.1.length

/-- Length of a record from its units: its header tells it, or what came. -/
def farLength (us : List (List Byte × Bool)) : Nat :=
  match us with
  | (b, false) :: _ => if 32 ≤ b.length then leAt b 4 4 else b.length
  | _ => (us.map unitLength).foldl (· + ·) 0

/-- A sector of a read whose bytes came from the peer. -/
def unitSector (u : List Byte × Bool) : SectorState := if u.2 then .lost false else .fromPeer [] (padTo 4096 0 u.1)

/-- Sixteen units of the peer's bytes, from unit 16 · j on, as a cluster of a read; `n` bytes of them in all are laid from data offset
`o`. -/
def farCluster (tag o n : Nat) (us : List (List Byte × Bool)) (j id : Nat) : LadderCluster :=
  let here := (us.drop (16 * j)).take 16
  { id := id, loc := ⟨0, 0, 0⟩, purpose := .host tag, parts := [(o + 65536 * j, 0, min 65536 (n - 65536 * j))], psas := []
    sectors := ((List.range here.length).zip here).foldl (fun m p => sset (fun _ => .unread) p.1 (unitSector p.2) m) []
    step := 5, ended := if here.any (·.2) then some false else none, done := true }

/-- The peer's bytes of one record enter the read. -/
def addFar (tag : Nat) (x : Nat × Nat × List (List Byte × Bool)) (d : Device) : Device :=
  (List.range ((x.2.1 + 65535) / 65536)).foldl (fun d j =>
    updRdc (fun r => { r with clusters := r.clusters ++ [farCluster tag x.1 x.2.1 x.2.2 j r.nextId], nextId := r.nextId + 1 }) d) d

/-- Begin the read of `n` records: parts on this medium, and bytes that came from the peer. -/
def beginRead (c : Cmd) (n : Nat) (parts : List (Loc × Nat × Nat × Nat)) (far : List (Nat × Nat × List (List Byte × Bool)))
    (d : Device) : Device :=
  let d := updCmd c.tag (fun c => { c with records := n }) (goOn c.tag d)
  if parts.isEmpty && far.isEmpty then finishWith c.tag stOk (2 ^ 48 * n) false 0 d
  else finishRead (.host c.tag) (startRead (.host c.tag) parts (far.foldl (fun d x => addFar c.tag x d) d))

/-- Ask the peer for the next unit of a record (R277). -/
def askUnit (g : GapRead) (d : Device) : Device :=
  let x := d.lath.nextXid % 16
  let g' : GapRead := { g with xid := x }
  let d := updLath (fun l => { l with
    nextXid := l.nextXid + 1, gapReads := (l.gapReads.filter fun y => y.tag != g.tag) ++ [g'] }) (goOn g.tag d)
  sendMsg (.recovReq x (markOf g.stream g.seq) (g.firstUnit + g.units.length)) d

/-- A gap read is over. -/
def endGap (tag : Nat) : Device → Device := updLath fun l => { l with gapReads := l.gapReads.filter fun y => y.tag != tag }

/-! ### READ_MARK (R325) -/

/-- The bytes of one record from OFFSET: on this medium, on the peer's, or once a search has found it (R186, R285, R325). -/
def runReadMark (c : Cmd) (d : Device) : Device :=
  let e := c.entry
  let s := entryStream e
  let q := markSeq (eMark e)
  let o := eOffset e
  let n := eDlen e
  match recordOf d s q with
  | some (g, r) =>
    if r.len ≤ o then finish c.tag stInvalidField d
    else beginRead c 1 (groupParts g (r.off + o) (min n (r.len - o)) 0) [] d
  | none =>
    if inGap d s q then
      askUnit { tag := c.tag, stream := s, seq := q, firstUnit := o / 4096, room := n, xid := 0, units := [], got := [] } d
    else startSearch (.command c.tag []) s q (goOn c.tag d)

/-- READ_MARK (R325). -/
def execReadMark (tag : Nat) (s : State) : Host.Outcome State Fault Refusal := effect s (runOp tag 0x02 runReadMark)

/-! ### READ_RANGE (R325) -/

/-- What a READ_RANGE delivers: parts on this medium, the peer's records (data offset, length, units), how many records, the bytes so far,
and the sequence that must first be asked of the peer or searched for. -/
structure RangePlan where
  parts : List (Loc × Nat × Nat × Nat) := []
  far : List (Nat × Nat × List (List Byte × Bool)) := []
  records : Nat := 0
  size : Nat := 0
  ask : Option Nat := none
  find : Option Nat := none
  deriving DecidableEq, Repr

/-- Put a record of length `len` after those laid, when it fits whole in `room`. -/
def planRecord (room len : Nat) (p : RangePlan) (f : Nat → RangePlan → RangePlan) : Option RangePlan :=
  let o := align8 p.size
  if o + len ≤ room then some { f o p with records := p.records + 1, size := o + len } else none

/-- Walk the sequences from `q` on, `n` of them at most: void ones are skipped, and the walk ends at HEAD, at a record that does not fit,
at one of which the index does not tell, and, outside Topcoat, at one that this twin lacks (R325, R285). -/
def walkRange (d : Device) (s room : Nat) (got : List (Nat × List (List Byte × Bool))) : Nat → Nat → RangePlan → RangePlan
  | 0, _, p => p
  | n + 1, q, p =>
    if (streamRec d s).head ≤ q then p
    else
      match recordOf d s q, got.find? fun x => x.1 = q with
      | some (g, r), _ =>
        match planRecord room r.len p fun o p => { p with parts := p.parts ++ groupParts g r.off r.len o } with
        | some p => walkRange d s room got n (q + 1) p
        | none => p
      | none, some x =>
        match planRecord room (farLength x.2) p fun o p => { p with far := p.far ++ [(o, farLength x.2, x.2)] } with
        | some p => walkRange d s room got n (q + 1) p
        | none => p
      | none, none =>
        if inGap d s q then (if inTopcoat d then { p with ask := some q } else p)
        else if isVoid d s q then walkRange d s room got n (q + 1) p
        else { p with find := some q }

/-- The range as far as it is known: the next record is asked of the peer or searched for, or the read begins. -/
def goRange (got : List (Nat × List (List Byte × Bool))) (c : Cmd) (d : Device) : Device :=
  let e := c.entry
  let s := entryStream e
  let q := markSeq (eMark e)
  let p := walkRange d s (eDlen e) got (eLast e + 1 - q) q {}
  match p.ask, p.find with
  | some k, _ =>
    askUnit { tag := c.tag, stream := s, seq := k, firstUnit := 0, room := eDlen e - align8 p.size, xid := 0, units := [], got := got } d
  | none, some k => startSearch (.command c.tag got) s k (goOn c.tag d)
  | none, none => beginRead c p.records p.parts p.far d

/-- READ_RANGE (R325). -/
def execReadRange (tag : Nat) (s : State) : Host.Outcome State Fault Refusal := effect s (runOp tag 0x03 (goRange []))

/-! ### The peer's answers -/

/-- A record of a gap read has come as far as it is wanted: the command reads on, or delivers (R285). -/
def gapLearnt (g : GapRead) (d : Device) : Device :=
  let d := endGap g.tag d
  match d.cmd g.tag with
  | none => d
  | some c =>
    if eOpcode c.entry = 0x03 then goRange (g.got ++ [(g.seq, g.units)]) c d
    else
      let n := min g.room ((g.units.map unitLength).foldl (· + ·) 0)
      if n = 0 then finish c.tag stInvalidField d else beginRead c 1 [] [(0, n, g.units)] d

/-- A unit of a gap read has come; a short one is the record's last. -/
def gapUnit (g : GapRead) (bytes : List Byte) (poisoned : Bool) (d : Device) : Device :=
  let g' : GapRead := { g with units := g.units ++ [(bytes.take 4096, poisoned)] }
  if bytes.length < 4096 || g.room ≤ 4096 * g'.units.length then gapLearnt g' d else askUnit g' d

/-- RECOV_DATA: for a gap read, or for a cluster at step 5 of the ladder (R24, R285). -/
def takeRecovData (xid unit : Nat) (bytes : List Byte) (poison : BitVec 32) (d : Device) : Device :=
  match d.lath.gapReads.find? fun g => g.xid = xid && g.firstUnit + g.units.length = unit with
  | some g => gapUnit g bytes (poison != 0) d
  | none => recovData xid unit bytes poison d

/-- RECOV_DATA received (R24). -/
def execRecovData (cr : Credits) (xid unit : Nat) (bytes : List Byte) (poison : BitVec 32) (s : State) :
    Host.Outcome State Fault Refusal :=
  effect s (receive cr (.recovData xid unit bytes poison) (takeRecovData xid unit bytes poison))

/-! ### Searches (R186) -/

/-- What the search serves still waits for it. -/
def searchWanted (d : Device) : SearchFor → Bool
  | .command t _ => (d.cmd t).any fun c => c.phase = .running
  | .recov _ _ u => inTopcoat d || (u = 0xFFFF && d.gen.mode = .undercoat)
  | .catchUp _ => d.lath.link = .catchup
  | .chainReq _ => d.lath.live
  | .chainVal _ _ => d.lath.link = .reconciling
  | .fork _ _ _ => d.lath.link = .reconciling

/-- A record that no cluster of this medium gives: the command asks the peer for it in Topcoat, and otherwise has lost it (R24, R132). -/
def searchLost (tag s q : Nat) (got : List (Nat × List (List Byte × Bool))) (strict : Bool) (d : Device) : Device :=
  match d.cmd tag with
  | none => d
  | some c =>
    if inTopcoat d && !strict then
      askUnit { tag := tag, stream := s, seq := q, firstUnit := if eOpcode c.entry = 0x02 then eOffset c.entry / 4096 else 0
                room := eDlen c.entry, xid := 0, units := [], got := got } d
    else raise 84 (finish tag stUncorrectable d)

/-- The command goes on with what the peer has given it, or from the start of its row. -/
def searchAgain (tag : Nat) (got : List (Nat × List (List Byte × Bool))) (d : Device) : Device :=
  match d.cmd tag with
  | none => d
  | some c => if got.isEmpty then setPhase tag .dispatched d else goRange got c d

/-- What is known of the record once its search is over: found, void, or not to be read. -/
def noteEnd (x : Search) (e : SearchEnd) (d : Device) : Device :=
  match e with
  | .found => d
  | .absent => noteAbsent x.stream x.seq d
  | .unreadable _ => updRcl (fun r => { r with unread := r.unread ++ [(x.stream, x.seq)] }) d

/-- A search is over: what it served goes on. -/
def searchOver (x : Search) (e : SearchEnd) (d : Device) : Device :=
  let d := dropSearch x.why d
  match x.why, e with
  | .command t got, .unreadable strict => searchLost t x.stream x.seq got strict d
  | .command t got, e => searchAgain t got (noteEnd x e d)
  | .recov xid m u, .found => takeRecovReq xid m u d
  | .recov xid _ u, e => answerPoison xid u (noteEnd x e d)
  | .catchUp _, e => noteEnd x e d
  | .chainReq m, e => answerChain m (noteEnd x e d)
  | .chainVal m h, e => useChain m h (noteEnd x e d)
  | .fork s lo hi, e => forkSearch s lo hi (noteEnd x e d)

/-- A search whose clusters have been read goes on; one whose reads are gone is given up, and its command begins anew. -/
def pumpSearch (d : Device) (x : Search) : Device :=
  let cs := readOf d (.find x.why)
  if !searchWanted d x.why then dropSearch x.why d
  else if cs.isEmpty && x.step != .maps [] then
    match x.why with
    | .command t got => searchAgain t got (dropSearch x.why d)
    | _ => dropSearch x.why d
  else if cs.any (fun c => !c.done) then d
  else
    match stepSearch x d with
    | (some e, d) => searchOver x e d
    | (none, d) => d

/-- Every search as far as it can go. -/
def pumpSearches (d : Device) : Device := d.rcl.searches.foldl pumpSearch d

/-- Outside Topcoat a gap read ends with NOT_YET (R285). -/
def pumpGaps (d : Device) : Device :=
  if inTopcoat d || d.lath.gapReads.isEmpty then d
  else d.lath.gapReads.foldl (fun d g => finish g.tag stNotYet (endGap g.tag d)) d

/-! ### HOLD and RELEASE_HOLD (R179) -/

/-- The record with a range held from `a` to `b`, widened over the range held before. -/
def holdRange (a b : Nat) (r : StreamRec) : StreamRec :=
  if r.holdValid then { r with holdFirst := min a r.holdFirst, holdLast := max b r.holdLast }
  else { r with holdValid := true, holdFirst := a, holdLast := b }

/-- HOLD: from the larger of FIRST and TAIL; RESULT is the mark of the first sequence held. -/
def runHold (c : Cmd) (d : Device) : Device :=
  let s := eStream c.entry
  let a := max (eFirst c.entry) (tailNow d s)
  finishOk c.tag (markOf s a) (updStream s (holdRange a (eLast c.entry)) d)

/-- HOLD (R179). -/
def execHold (tag : Nat) (s : State) : Host.Outcome State Fault Refusal := effect s (runOp tag 0x04 runHold)

/-- RELEASE_HOLD clears the range. -/
def runRelease (c : Cmd) (d : Device) : Device :=
  finishOk c.tag 0 (updStream (eStream c.entry) (fun r => { r with holdValid := false, holdFirst := 0, holdLast := 0 }) d)

/-- RELEASE_HOLD (R179). -/
def execReleaseHold (tag : Nat) (s : State) : Host.Outcome State Fault Refusal := effect s (runOp tag 0x05 runRelease)

/-! ### STREAM_OPEN and STREAM_CLOSE (R334) -/

/-- HOME as PARAM gives it. -/
def openHome (e : List Byte) : Nat := if eByte26 e = 0xFF then eStream e % 2 else eByte26 e

/-- A FREE stream opened for an owner (R334). -/
def freshStream (d : Device) (o : Nat) (e : List Byte) (r : StreamRec) : StreamRec :=
  { r with owner := o, st := .open, home := openHome e, safety := isSafety d (eStream e), holdValid := false, holdFirst := 0, holdLast := 0,
           tail := r.head, chain := chainStart o (eStream e) d.now, createTick := d.now }

/-- The record after a STREAM_OPEN. -/
def openedStream (d : Device) (o : Nat) (e : List Byte) (r : StreamRec) : StreamRec :=
  match r.st with
  | .free => freshStream d o e r
  | .forked => { r with st := .open, forkSeq := 0 }
  | _ => { r with st := .open }

/-- STREAM_OPEN: RESULT is the mark of the next sequence to be issued. -/
def runOpen (c : Cmd) (d : Device) : Device :=
  let s := eStream c.entry
  let d := if (streamRec d s).st = .forked then updRcl (fun r => { r with forks := r.forks.filter fun f => f.1 != s }) d else d
  finishOk c.tag (markOf s (streamRec d s).issued) (updStream s (openedStream d c.owner c.entry) d)

/-- STREAM_OPEN (R334). -/
def execStreamOpen (tag : Nat) (s : State) : Host.Outcome State Fault Refusal := effect s (runOp tag 0x30 runOpen)

/-- The record after a STREAM_CLOSE. -/
def closedStream (toFree : Bool) (r : StreamRec) : StreamRec := if toFree then freeStream r else { r with st := .closed }

/-- An APPEND to the stream that was fetched before the close has not completed. -/
def appendBefore (d : Device) (c : Cmd) : Bool :=
  (fetchedBefore d c.tag).any fun x =>
    eOpcode x.entry = 0x01 && entryStream x.entry = entryStream c.entry && x.phase != .done && x.phase != .dead

/-- A STREAM_CLOSE that has taken effect completes once every earlier APPEND of its stream has. -/
def closeDone (d : Device) (c : Cmd) : Bool := eOpcode c.entry = 0x31 && c.phase = .running && !appendBefore d c

/-- Complete the closes that wait no longer. -/
def pumpCloses (d : Device) : Device := (d.hif.cmds.filter (closeDone d)).foldl (fun d c => finishOk c.tag 0 d) d

/-- STREAM_CLOSE: the stream is CLOSED, or FREE. -/
def runClose (c : Cmd) (d : Device) : Device :=
  let d := updStream (eStream c.entry) (closedStream (eByte26 c.entry % 2 = 1)) d
  if appendBefore d c then goOn c.tag d else finishOk c.tag 0 d

/-- STREAM_CLOSE (R334). -/
def execStreamClose (tag : Nat) (s : State) : Host.Outcome State Fault Refusal := effect s (runOp tag 0x31 runClose)

end Sys2Proof.Machine
end

