-- ==== Sys2Proof/Machine/HostBoot.lean ====
section
/-!
DEFINITION. The boot commands (R187 to R190) and the owner commands (R215, R216, R222) as their rows run them.
-/

namespace Sys2Proof.Machine

/-- BOOT_STAGE: the payload is pulled, then written as whole clusters; one that came poisoned is withdrawn, source 185 (R188, R447). -/
def runStage (c : Cmd) (d : Device) : Device :=
  if c.payload.isEmpty then pullPayload c.tag d
  else if c.poisoned then finish c.tag stInternal (raise 185 d)
  else stageImage c.tag (eSel c.entry) (eOffset c.entry) (eByte25 c.entry = 1) c.payload d

/-- BOOT_STAGE (R188). -/
def execBootStage (tag : Nat) (s : State) : Host.Outcome State Fault Refusal := effect s (runOp tag 0x10 runStage)

/-- BOOT_ACTIVATE: a new activation record with the slot ACTIVE; it waits while another is being written (R189). -/
def runActivate (c : Cmd) (d : Device) : Device :=
  if d.rcl.actPending.isSome then d
  else changeActivation c.tag (activeRecord d (eSel c.entry)) (goOn c.tag d)

/-- BOOT_ACTIVATE (R189). -/
def execBootActivate (tag : Nat) (s : State) : Host.Outcome State Fault Refusal := effect s (runOp tag 0x11 runActivate)

/-- Where `n` bytes of the image in boot slot `k` lie from offset `a` on, laid from data offset `o`; `f` clusters at most (R187, R188). -/
def imageParts (k : Nat) : Nat → Nat → Nat → Nat → List (Loc × Nat × Nat × Nat)
  | 0, _, _, _ => []
  | f + 1, a, n, o =>
    if n = 0 then []
    else
      let m := min n (65536 - a % 65536)
      (areaLoc (4096 * k + a / 65536), o, a % 65536, m) :: imageParts k f (a + m) (n - m) (o + m)

/-- BOOT_READ: the active image from OFFSET, once its digest has been checked; with a mismatch, UNCORRECTABLE (R190, R325). -/
def runBootRead (c : Cmd) (d : Device) : Device :=
  let k := (activationNow d).active
  match d.rcl.digestOk with
  | none => d
  | some false => finish c.tag stUncorrectable d
  | some true =>
    let a := eOffset c.entry
    startRead (.boot c.tag) (imageParts k 4 a (min (eDlen c.entry) ((bootSlot d k).length - a)) 0) (goOn c.tag d)

/-- BOOT_READ (R190). -/
def execBootRead (tag : Nat) (s : State) : Host.Outcome State Fault Refusal := effect s (runOp tag 0x12 runBootRead)

/-- OWNER_CREATE: FLAGS and QUOTA as PARAM gives them (R215). -/
def runCreate (c : Cmd) (d : Device) : Device :=
  createOwner c.tag (eSel c.entry) (eQuota c.entry) (BitVec.ofNat 8 (eByte25 c.entry)) d

/-- OWNER_CREATE (R215). -/
def execOwnerCreate (tag : Nat) (s : State) : Host.Outcome State Fault Refusal := effect s (runOp tag 0x20 runCreate)

/-- OWNER_RETIRE (R216). -/
def runRetire (c : Cmd) (d : Device) : Device := retireOwner (some c.tag) (eSel c.entry) (goOn c.tag d)

/-- OWNER_RETIRE (R216). -/
def execOwnerRetire (tag : Nat) (s : State) : Host.Outcome State Fault Refusal := effect s (runOp tag 0x21 runRetire)

/-- OWNER_EXPORT_KEY with the 65 bytes that the read of POINT_PTR brought; a point that could not be read is not valid (R222, DEDUCED). -/
def runExport (point : DmaResult) (c : Cmd) (d : Device) : Device :=
  match point with
  | .ok bs => exportKey c.tag (eSel c.entry) (bs.take 65) d
  | .failed => finish c.tag stInvalidField d

/-- OWNER_EXPORT_KEY (R222). -/
def execOwnerExportKey (tag : Nat) (point : DmaResult) (s : State) : Host.Outcome State Fault Refusal :=
  effect s (runOp tag 0x22 (runExport point))

end Sys2Proof.Machine
end

