-- ==== Sys2Proof/Machine/HostAdmin.lean ====
section
/-!
DEFINITION. The admin commands that inform and configure (R336 to R340): IDENTIFY, GET_LOG with its pages, SET_FEATURE and GET_FEATURE; the
mode requests (R287, R288, R335, R337, R459), CARTRIDGE_EJECT_PREP (R464), and the functions of DIAG (R323, R368, R457).
-/

namespace Sys2Proof.Machine

/-- A 16-bit signed value. -/
def signedBytes (v : Int) : List Byte := leBytes 2 (BitVec.ofInt 16 v).toNat

/-! ### IDENTIFY (R338, Table 12-10) -/

/-- VERSION of the running image (Table 17-6); without a header in the model its bytes are drawn (log entry 8). -/
def fwVersion (d : Device) : List Byte :=
  if hasHeader d d.lsk.imageB then flashBytes d (imageBase d.lsk.imageB + 24) 32
  else (List.range 8).flatMap fun i => leBytes 4 (Config.freeWord (d.draws + i)).toNat

/-- Device serial of the paired peer, 0 for none. -/
def peerSerial (d : Device) : Nat := d.nv.pairing.elim 0 (·.1.toNat)

/-- Bytes 0 to 119 of the IDENTIFY data. -/
def identifyHead (d : Device) : List Byte :=
  [0x46, 0x58, 0x38, 0x38] ++ leBytes 2 1 ++ [0xC1] ++ leBytes 1 (twinId d) ++ leBytes 8 Config.deviceSerial.toNat ++ fwVersion d
    ++ leBytes 1 (b2n d.lsk.imageB) ++ leBytes 1 (modeCode d.gen.mode) ++ leBytes 1 d.hif.ps ++ leBytes 1 (d.regF 0x1018 1 0)
    ++ leBytes 2 256 ++ leBytes 2 240 ++ leBytes 4 1048576 ++ leBytes 4 196608 ++ leBytes 8 (cartSerial d).toNat
    ++ leBytes 4 4324336 ++ leBytes 2 370 ++ leBytes 2 d.rcl.freeZones.length ++ leBytes 4 3000 ++ leBytes 4 1900000 ++ leBytes 4 2900000
    ++ leBytes 2 16 ++ leBytes 2 512 ++ leBytes 8 (peerSerial d) ++ leBytes 1 (b2n (isPaired d) + 2 * b2n d.lath.live)
    ++ leBytes 1 (safetyOwner d) ++ leBytes 2 (d.regF 0x15000 8 0) ++ leBytes 4 0x1FFE ++ leBytes 8 d.now

/-- IDENTIFY. -/
def runIdentify (c : Cmd) (d : Device) : Device :=
  let bs := padTo 4096 0 (identifyHead d)
  let d := if hasHeader d d.lsk.imageB then d else { d with draws := d.draws + 8 }
  finishOk c.tag 0 (deliverData c.tag 0 bs d)

/-- IDENTIFY (R338). -/
def execIdentify (tag : Nat) (s : State) : Host.Outcome State Fault Refusal := effect s (runOp tag 0x40 runIdentify)

/-! ### GET_LOG (R339, R340, Table 12-8) -/

/-- A page: its header, then its entries or its structure. -/
def logPage (page entrySize entries lost : Nat) (body : List Byte) : List Byte :=
  leBytes 1 page ++ leBytes 1 1 ++ leBytes 2 entrySize ++ leBytes 4 entries ++ leBytes 4 lost ++ leBytes 4 0 ++ body

/-- A page of equal entries. -/
def entryPage (page size lost : Nat) (es : List (List Byte)) : List Byte :=
  logPage page size es.length lost (es.flatMap fun e => (padTo size 0 e).take size)

/-- An entry of page 0x01. -/
def errorBytes (e : CmdError) : List Byte :=
  leBytes 8 e.tick ++ leBytes 1 e.sq ++ leBytes 1 e.opcode ++ leBytes 2 e.cid ++ leBytes 2 e.status ++ leBytes 2 0 ++ leBytes 8 e.mark

/-- Page 0x02. The servo faults are those that SRV.FAULT_COUNT shows (DEDUCED). -/
def healthBytes (d : Device) : List Byte :=
  leBytes 1 (modeCode d.gen.mode) ++ leBytes 1 d.hif.ps ++ leBytes 1 d.avs.code ++ leBytes 1 0 ++ signedBytes d.pwr.tempCore
    ++ signedBytes d.pwr.tempAfe ++ leBytes 8 d.gen.laserSeconds ++ leBytes 8 (revolutions d) ++ leBytes 4 d.gen.powerOns
    ++ leBytes 4 d.pwr.seals ++ leBytes 4 (d.reg 0x8804).toNat

/-- Page 0x03. -/
def hawkBytes (d : Device) : List Byte :=
  (List.range 6).flatMap (fun i => leBytes 2 (d.pwr.cells.getD i 0)) ++ leBytes 2 (stackReading d) ++ leBytes 2 d.pwr.coarse
    ++ leBytes 4 d.pwr.cap ++ leBytes 4 d.pwr.esr ++ leBytes 4 d.pwr.usable ++ leBytes 1 (b2n d.pwr.eol + 2 * b2n d.pwr.chainLost)
    ++ leBytes 3 0 ++ leBytes 8 d.pwr.testTick

/-- An entry of page 0x04. -/
def layerBytes (d : Device) (l : Nat) : List Byte :=
  leBytes 4 (((List.range 64).map fun z => sparesUsed d l z).foldl (· + ·) 0)
    ++ leBytes 4 (d.rcl.defects.filter fun x => x.layer = l).length ++ leBytes 4 (sget (fun _ => 0) d.rcl.refreshed l)

/-- An entry of page 0x05 (Table 02-7). -/
def ovrBytes (e : OvrEntry) : List Byte :=
  leBytes 1 e.loop ++ leBytes 1 e.invariant ++ leBytes 1 (b2n e.isOpen + 2 * b2n e.primer) ++ leBytes 1 0 ++ leBytes 4 e.count
    ++ leBytes 8 e.startTick ++ leBytes 8 e.endTick ++ leBytes 4 e.extreme.toNat

/-- An entry of page 0x06. -/
def ownerBytes (d : Device) (n : Nat) : List Byte :=
  let s := d.slot n
  leBytes 1 (slotCode s.st) ++ leBytes 1 s.keygen ++ leBytes 1 s.flags.toNat ++ leBytes 1 (b2n s.peerPending) ++ leBytes 2 s.quota
    ++ leBytes 2 s.zonesWritten

/-- An entry of page 0x07. -/
def streamEntry (r : StreamRec) : List Byte :=
  leBytes 1 (streamCode r.st) ++ leBytes 1 r.owner ++ leBytes 1 r.home ++ leBytes 1 (streamFlags r) ++ leBytes 6 r.head ++ leBytes 6 r.tail
    ++ leBytes 6 r.holdFirst ++ leBytes 6 r.holdLast

/-- The entry in place `i` of the event log ring, when its CRC is good (R437). -/
def ringEntry (d : Device) (i : Nat) : Option (List Byte) :=
  let b := flashBytes d (eventAddr (i % 32768)) 32
  if crcTailOk 32 b then some b else none

/-- The newest valid entries of the ring, at most `n`, from place `i` backward over `f` places. -/
def newestEvents (d : Device) : Nat → Nat → Nat → List (List Byte)
  | 0, _, _ => []
  | f + 1, n, i =>
    if n = 0 then []
    else
      let before := (i + 32767) % 32768
      match ringEntry d i with
      | some b => b :: newestEvents d f (n - 1) before
      | none => newestEvents d f n before

/-- Page 0x0A. -/
def twinBytes (d : Device) : List Byte :=
  leBytes 4 (twnWord d 0xE000).toNat ++ leBytes 8 (d.lath.peer.elim 0 fun b => b.serial.toNat) ++ leBytes 8 d.lath.splitTick
    ++ leBytes 4 d.lath.backlog ++ leBytes 4 (d.reg 0xE020).toNat ++ leBytes 4 d.lath.gaps.length

/-- An entry of page 0x0B (Table 15-6). -/
def safetyBytes (e : SafetyEntry) : List Byte :=
  leBytes 8 e.tick ++ leBytes 1 e.cls ++ leBytes 1 e.outputs.toNat ++ leBytes 1 e.action ++ leBytes 1 0 ++ leBytes 4 e.detail.toNat

/-- The entries of page 0x0C: one per FORKED stream (Table 10-5). -/
def forkEntries (d : Device) : List (List Byte) :=
  (d.rcl.forks.filter fun f => (streamRec d f.1).st = .forked).map fun f =>
    leBytes 2 f.1 ++ leBytes 6 f.2.1 ++ leBytes 6 f.2.1 ++ leBytes 6 f.2.2.1 ++ leBytes 6 f.2.2.2

/-- The bytes of a log page. -/
def pageBytes (d : Device) (page : Nat) : List Byte :=
  match page with
  | 0x01 => entryPage page 32 d.hif.errorsLost (d.hif.errors.map errorBytes)
  | 0x02 => logPage page 0 1 0 (padTo 64 0 (healthBytes d))
  | 0x03 => logPage page 0 1 0 (padTo 64 0 (hawkBytes d))
  | 0x04 => entryPage page 16 0 ((List.range 6).map (layerBytes d))
  | 0x05 => entryPage page 32 d.exc.lost (d.exc.log.map ovrBytes)
  | 0x06 => entryPage page 16 0 ((List.range 16).map (ownerBytes d))
  | 0x07 => entryPage page 32 0 ((List.range 512).map fun s => streamEntry (streamRec d s))
  | 0x08 => logPage page 0 1 0 (activationBytes (activationNow d))
  | 0x09 => entryPage page 32 d.evt.lost (newestEvents d 32768 1024 (d.evt.next + 32767))
  | 0x0A => logPage page 0 1 0 (padTo 64 0 (twinBytes d))
  | 0x0B => entryPage page 32 d.lsk.lost (d.lsk.log.map safetyBytes)
  | 0x0C => entryPage page 32 0 (forkEntries d)
  | _ => []

/-- GET_LOG: the page from OFFSET, up to DLEN bytes; RESULT is the page's size. -/
def runGetLog (c : Cmd) (d : Device) : Device :=
  let p := pageBytes d (eSel c.entry)
  finishOk c.tag p.length (deliverData c.tag 0 (slice (eWord28 c.entry) (eDlen c.entry) p) d)

/-- GET_LOG (R339). -/
def execGetLog (tag : Nat) (s : State) : Host.Outcome State Fault Refusal := effect s (runOp tag 0x41 runGetLog)

/-! ### Features (R336) -/

/-- SET_FEATURE after its check: the registers take their values together. -/
def runSetFeature (c : Cmd) (d : Device) : Device := finishOk c.tag 0 (setFeature (eSel c.entry) (eValue c.entry) d)

/-- SET_FEATURE (R336). -/
def execSetFeature (tag : Nat) (s : State) : Host.Outcome State Fault Refusal := effect s (runOp tag 0x42 runSetFeature)

/-- GET_FEATURE: the four words. -/
def runGetFeature (c : Cmd) (d : Device) : Device :=
  finishOk c.tag 0 (deliverData c.tag 0 ((List.range 4).flatMap fun i => leBytes 4 (featureWord d (eSel c.entry) i).toNat) d)

/-- GET_FEATURE (R336). -/
def execGetFeature (tag : Nat) (s : State) : Host.Outcome State Fault Refusal := effect s (runOp tag 0x43 runGetFeature)

/-! ### Mode requests (R337, Table 12-9) -/

/-- ENTER_DUST_SHEET: Dust Sheet is entered once every started command has completed (R335). -/
def runEnter (c : Cmd) (d : Device) : Device := beginDust (some c.tag) 1 (goOn c.tag d)

/-- ENTER_DUST_SHEET (R335). -/
def execEnterDustSheet (tag : Nat) (s : State) : Host.Outcome State Fault Refusal := effect s (runSub tag 0x50 1 runEnter)

/-- LEAVE_DUST_SHEET: one at a time; its conditions come before the medium's (R459). -/
def runLeave (measured : Option (List (Nat × Word32))) (c : Cmd) (d : Device) : Device :=
  if mustWait d c || d.gen.leaveTag.isSome then d
  else if modeAccepts d c.entry && leaveCause d != 0 then leaveDust c.tag measured d
  else checkThen (fun c d => leaveDust c.tag measured d) c d

/-- LEAVE_DUST_SHEET (R459). -/
def execLeaveDustSheet (tag : Nat) (measured : Option (List (Nat × Word32))) (s : State) : Host.Outcome State Fault Refusal :=
  effect s (runCmd tag (fun c => eOpcode c.entry = 0x50 && eSel c.entry = 2) (runLeave measured))

/-- DETACH: the peer hears which twin leaves, and the detach begins here (R287). -/
def runDetach (c : Cmd) (d : Device) : Device :=
  if d.lath.detaching.isSome then d
  else beginDetach (eByte25 c.entry) (some c.tag) (sendMsg (.detach (eByte25 c.entry)) (goOn c.tag d))

/-- DETACH_REQUEST (R287). -/
def execDetachRequest (tag : Nat) (s : State) : Host.Outcome State Fault Refusal := effect s (runSub tag 0x50 3 runDetach)

/-- COMMISSION: one commissioning at a time (R288). -/
def runCommission (c : Cmd) (d : Device) : Device := if d.cry.commission.isSome then d else beginCommission c.tag d

/-- COMMISSION (R288). -/
def execCommission (tag : Nat) (s : State) : Host.Outcome State Fault Refusal := effect s (runSub tag 0x50 4 runCommission)

/-- CONFIRM: the code is compared (R288, R289). -/
def runConfirm (c : Cmd) (d : Device) : Device := confirmCode c.tag (eWord28 c.entry) d

/-- CONFIRM (R288). -/
def execConfirm (tag : Nat) (s : State) : Host.Outcome State Fault Refusal := effect s (runSub tag 0x50 5 runConfirm)

/-! ### CARTRIDGE_EJECT_PREP (R464) and DIAG (R323, R368, R457) -/

/-- CARTRIDGE_EJECT_PREP: one at a time. -/
def runEject (c : Cmd) (d : Device) : Device := if d.gen.ejectTag.isSome then d else startEject c.tag d

/-- CARTRIDGE_EJECT_PREP (R464). -/
def execCartridgeEjectPrep (tag : Nat) (s : State) : Host.Outcome State Fault Refusal := effect s (runOp tag 0x51 runEject)

/-- RUN_SELFTEST: the tests run again; a failure enters Primer, where the command ends with ABORTED_MODE (R335, R457). -/
def runSelf (failMap : BitVec 16) (comparatorOk : Bool) (us : Nat) (c : Cmd) (d : Device) : Device :=
  let d := noteTests failMap comparatorOk us d
  match primerCause failMap comparatorOk true with
  | some cause => enterPrimer cause d
  | none => finishOk c.tag 0 d

/-- RUN_SELFTEST (R457). -/
def execRunSelftest (tag : Nat) (failMap : BitVec 16) (comparatorOk : Bool) (us : Nat) (s : State) : Host.Outcome State Fault Refusal :=
  effect s (runSub tag 0x60 1 (runSelf failMap comparatorOk us))

/-- READ_HEADER: the header's 32 bytes, or UNCORRECTABLE when the frame does not read (R323, DEDUCED). -/
def runHeader (header : Option (List Byte)) (c : Cmd) (d : Device) : Device :=
  match header with
  | some h => finishOk c.tag 0 (deliverData c.tag 0 ((padTo 32 0 h).take 32) d)
  | none => finish c.tag stUncorrectable d

/-- READ_HEADER (R323). -/
def execReadHeader (tag : Nat) (header : Option (List Byte)) (s : State) : Host.Outcome State Fault Refusal :=
  effect s (runSub tag 0x60 2 (runHeader header))

/-- TRIGGER: the software-triggered source is set pending, as PEND_SET does (R350, R368). -/
def runTrigger (c : Cmd) (d : Device) : Device := finishOk c.tag 0 (deliver (pendSet1 (eSource c.entry) d))

/-- TRIGGER (R368). -/
def execTrigger (tag : Nat) (s : State) : Host.Outcome State Fault Refusal := effect s (runSub tag 0x60 3 runTrigger)

end Sys2Proof.Machine
end

