-- ==== Sys2Proof/Machine/Rings.lean ====
section
/-!
DEFINITION. The ring engine (R294 to R320): the set-up lock, polling of the doorbell page, arbitration and fetch, scatter lists and
payloads, the posting of completions, the coalesced MSI-X signals, the PCIe link and the conventional reset.
-/

namespace Sys2Proof.Machine

/-- The host's memory can be reached: the link is up and Bus Master Enable set (R306). -/
def busOpen (d : Device) : Bool := d.hif.linkUp && d.hif.bme

/-! ### The lock (R313) -/

/-- SQ_CFG.EN. -/
def sqEnabled (d : Device) (n : Nat) : Bool := wbit (d.reg (0x2008 + 0x20 * n)) 31

/-- CQ_CFG.EN. -/
def cqEnabled (d : Device) (n : Nat) : Bool := wbit (d.reg (0x2108 + 0x20 * n)) 31

/-- SQ_CFG.CQ. -/
def cqOf (d : Device) (n : Nat) : Nat := d.regF (0x2008 + 0x20 * n) 18 16

/-- A 64-bit host address from its LO and HI registers. -/
def hostAddr (d : Device) (o : Nat) : Nat := (d.reg o).toNat + 2 ^ 32 * (d.reg (o + 4)).toNat

/-- The context of an enabled submission ring is good (R313). -/
def sqContextOk (d : Device) (n : Nat) : Bool :=
  hostAddr d (0x2000 + 0x20 * n) != 0 && sqSize d n != 0 && cqEnabled d (cqOf d n)

/-- The context of an enabled completion ring is good (R313). -/
def cqContextOk (d : Device) (n : Nat) : Bool := hostAddr d (0x2100 + 0x20 * n) != 0 && cqSize d n != 0

/-- The three conditions of R313: SQ0 and CQ0 enabled, SQ0 naming CQ0, and a doorbell page. -/
def lockConditions (d : Device) : Bool := sqEnabled d 0 && cqEnabled d 0 && cqOf d 0 = 0 && hostAddr d 0x1004 != 0

/-- Submission ring `n` at the lock: RUNNING when `go` lets it, or ERROR with ERR 3. -/
def lockSq (go : Bool) (n : Nat) (d : Device) : Device :=
  if !sqEnabled d n then d
  else if !sqContextOk d n then sqError n 3 d
  else if go then updSq n (fun q => { q with st := .running }) d
  else d

/-- Completion ring `n` at the lock. -/
def lockCq (go : Bool) (n : Nat) (d : Device) : Device :=
  if !cqEnabled d n then d
  else if !cqContextOk d n then cqError n 3 d
  else if go then updCq n (fun q => { q with st := .running }) d
  else d

/-- The lock is set (R313): each enabled ring is checked; the first poll is due at once, at the lower bound (R303). When one of the three
conditions fails, SQ0 and CQ0 enter ERROR and nothing is polled. -/
def setLock (d : Device) : Device :=
  let ok := lockConditions d
  let d := updHif (fun h => { h with lock := true, lockOk := ok }) d
  let rest := if ok then List.range 8 else (List.range 7).map (· + 1)
  let d := if ok then d else cqError 0 3 (sqError 0 3 d)
  let d := rest.foldl (fun d n => lockSq ok n (lockCq ok n d)) d
  if ok then updHif (fun h => { h with pollNow := true, interval := (pollBounds d).1 }) d else d

/-- SETUP_LOCK (R313): the host's write; after the lock it is a locked write (R314). -/
def execSetupLock (s : State) : Host.Outcome State Fault Refusal := effect s (gate .host 0x20 true setLock)

/-! ### Polling (R300 to R306) -/

/-- A poll is due: its interval has run out, or it is the first after the lock or a pause (R303, R305, R306). -/
def pollDue (d : Device) : Bool :=
  d.hif.lockOk && busOpen d && !d.hif.pollSeal && !d.hif.polling && (d.hif.pollNow || d.hif.lastPoll + d.hif.interval ≤ d.now)

/-- One read of the doorbell page begins (R300); the core rail leaves retention for it (R364). -/
def startPoll (d : Device) : Device :=
  let d := count 0x1030 (leaveRetention d)
  updHif (fun h => { h with polling := true, pollNow := false, lastPoll := d.now }) d

/-- DOORBELL_POLL (R303). -/
def execDoorbellPoll (s : State) : Host.Outcome State Fault Refusal := effect s fun d => onlyIf (pollDue d) startPoll d

/-- A doorbell word is good: no reserved bit, an index below the ring's size (R302). -/
def doorbellOk (size w : Nat) : Bool := w < 4096 && w < size

/-- The word of submission ring `n` in a doorbell page read. -/
def tailWord (page : List Byte) (n : Nat) : Nat := leAt page (0x40 + 4 * n) 4

/-- The word of completion ring `n`. -/
def headWord (page : List Byte) (n : Nat) : Nat := leAt page (0x60 + 4 * n) 4

/-- SQ_TAIL of ring `n` is taken in (R302). -/
def takeTail (page : List Byte) (n : Nat) (d : Device) : Device :=
  if (d.sq n).st != .running then d
  else if doorbellOk (sqSize d n) (tailWord page n) then updSq n (fun q => { q with tail := tailWord page n }) d
  else sqError n 1 d

/-- CQ_HEAD of ring `n` is taken in (R302). -/
def takeHead (page : List Byte) (n : Nat) (d : Device) : Device :=
  if (d.cq n).st != .running then d
  else if doorbellOk (cqSize d n) (headWord page n) then updCq n (fun q => { q with head := headWord page n }) d
  else cqError n 1 d

/-- The doorbell read shows new entries: the tail of a running ring has changed (R303). -/
def tailsMoved (old new : Device) : Bool :=
  (List.range 8).any fun n => (new.sq n).st = .running && (new.sq n).tail != (old.sq n).tail

/-- The interval to the next poll (R303). -/
def nextInterval (d : Device) (hint : Nat) (moved : Bool) : Nat :=
  let b := pollBounds d
  if hint.testBit 31 || moved || d.hif.posted then b.1
  else if hint.testBit 30 then b.2
  else max b.1 (min b.2 (2 * d.hif.interval))

/-- The doorbell page has been read (R302, R303). -/
def takePage (page : List Byte) (d : Device) : Device :=
  let e := (List.range 8).foldl (fun d n => takeHead page n (takeTail page n d)) d
  updHif (fun h => { h with interval := nextInterval e (leAt page 0 4) (tailsMoved d e), posted := false }) e

/-- DOORBELL_POLL_RETURN (R302); a failed poll is counted and made again at the next interval (R317). -/
def execDoorbellPollReturn (res : DmaResult) (s : State) : Host.Outcome State Fault Refusal :=
  effect s <| fun d => onlyIf d.hif.polling (fun d =>
    let d := updHif (fun h => { h with polling := false }) d
    match res with
    | .failed => count 0x1038 d
    | .ok page => takePage page d) d

/-! ### Arbitration and fetch (R307 to R309) -/

/-- A ring that has reached its share of the commands in flight (R308). -/
def barred (d : Device) (n : Nat) : Bool := 256 ≤ inFlight d || (n != 0 && 240 ≤ inFlightIo d)

/-- A submission ring is ready (R307). -/
def sqReady (d : Device) (n : Nat) : Bool := (d.sq n).st = .running && (d.sq n).fetch != (d.sq n).tail && !barred d n

/-- Fetches in one turn of ring `n`. -/
def sqWeight (d : Device) (n : Nat) : Nat := d.regF (0x2008 + 0x20 * n) 27 24 + 1

/-- The urgent ring, when it is enabled and ready (R307). -/
def urgentReady (d : Device) : Bool := wbit (d.reg 0x2200) 31 && sqReady d (d.regF 0x2200 2 0)

/-- The current ring goes on with its turn (R307). -/
def turnGoesOn (d : Device) : Bool := sqReady d d.hif.turn && decide (d.hif.turnUsed < sqWeight d d.hif.turn)

/-- The next ready ring after the current one, itself last (R307). -/
def nextReady (d : Device) : Option Nat := ((List.range 8).map fun i => (d.hif.turn + 1 + i) % 8).find? (sqReady d)

/-- The ring engine fetches at all (R217, R305, R306, R313, R453, R515). -/
def mayFetch (d : Device) : Bool :=
  d.hif.lockOk && d.gen.chosen && busOpen d && !d.hif.pollSeal && d.hif.fetching.isNone && ownersCompared d

/-- The highest number of commands in flight since the last read (Table 11-8). -/
def notePeak (d : Device) : Device := setRegF 0x2204 24 16 (max (d.regF 0x2204 24 16) (inFlightNow d)) d

/-- One entry of ring `n` is fetched; the command counts as in flight from here, and reaching a limit raises source 14 (R308). -/
def beginFetch (n : Nat) (d : Device) : Device :=
  let full := inFlight d + 1 = 256 || (n != 0 && inFlightIo d + 1 = 240)
  let d := notePeak (updHif (fun h => { h with fetching := some n }) d)
  if full then raise 14 d else d

/-- The ring engine chooses a ring and fetches from it (R307). -/
def fetchNext (d : Device) : Device :=
  if urgentReady d then beginFetch (d.regF 0x2200 2 0) d
  else if turnGoesOn d then beginFetch d.hif.turn (updHif (fun h => { h with turnUsed := h.turnUsed + 1 }) d)
  else
    match nextReady d with
    | some n => beginFetch n (updHif (fun h => { h with turn := n, turnUsed := 1 }) d)
    | none => d

/-- FETCH_ENTRY (R307). -/
def execFetchEntry (s : State) : Host.Outcome State Fault Refusal := effect s fun d => onlyIf (mayFetch d) fetchNext d

/-- A read for ring `n` failed: the ring enters ERROR with ERR 2, and source 13 is raised (R317). -/
def fetchError (n : Nat) (d : Device) : Device :=
  let d := count 0x1038 d
  raise 13 (if (d.sq n).st = .error then d else sqError n 2 d)

/-- The fetch position goes on past entries that are not fetched again (R320). -/
def advanceFetch (size : Nat) : Nat → Sq → Sq
  | 0, q => q
  | k + 1, q =>
    if q.skip.contains q.fetch then
      advanceFetch size k { q with fetch := ringNext size q.fetch, skip := q.skip.filter (· != q.fetch) }
    else q

/-- The fetch position after one entry was fetched. -/
def passEntry (size : Nat) (q : Sq) : Sq :=
  advanceFetch size q.skip.length { q with fetch := ringNext size q.fetch }

/-- The command that an entry of ring `n` makes (R199, R228, R296, R299). -/
def newCmd (n : Nat) (e : List Byte) (d : Device) : Cmd :=
  { tag := d.hif.nextTag, sq := n, index := (d.sq n).fetch, entry := e, phase := .dispatched, started := false
    ovr := !d.exc.active.isEmpty, owner := ringOwner d n, sgl := if eSgl e then [] else [(eDptr e, eDlen e)]
    group := none, payload := [], poisoned := false, records := 0, discard := false
    slotSt := if isAdmin (eOpcode e) then none else slotStatus d (ringOwner d n) }

/-- An entry has come: its command is in flight and its checks begin (R309). -/
def takeEntry (n : Nat) (e : List Byte) (d : Device) : Device :=
  let c := newCmd n e d
  let d := updHif (fun h => { h with cmds := h.cmds ++ [c], nextTag := h.nextTag + 1 }) d
  takeCmd c (count 0x2208 (updSq n (passEntry (sqSize d n)) d))

/-- ENTRY_FETCHED (R309, R317). -/
def execEntryFetched (res : DmaResult) (s : State) : Host.Outcome State Fault Refusal :=
  effect s <| fun d =>
    match d.hif.fetching with
    | none => d
    | some n =>
      let d := updHif (fun h => { h with fetching := none }) d
      match res with
      | .failed => fetchError n d
      | .ok e => takeEntry n e d

/-! ### Scatter lists and payloads (R296, R317, R447) -/

/-- A command's scatter list has come: its lengths add up to DLEN, or the command completes with INVALID_FIELD (R296). -/
def takeScatter (c : Cmd) (bytes : List Byte) (d : Device) : Device :=
  match scatterList (eSglCount c.entry) bytes with
  | none => finish c.tag stInvalidField d
  | some l =>
    if (l.map Prod.snd).foldl (· + ·) 0 = eDlen c.entry then
      dispatchCmd c.tag (updCmd c.tag (fun c => { c with sgl := l }) d)
    else finish c.tag stInvalidField d

/-- A command's scatter list could not be read: it is never executed (R317). -/
def loseScatter (c : Cmd) (d : Device) : Device := fetchError c.sq (setPhase c.tag .dead d)

/-- The payload as it enters the buffer: the bytes read, or poison in their place (R317, R447). -/
def takePayload (tag : Nat) (res : DmaResult) (d : Device) : Device :=
  let into (c : Cmd) : Cmd :=
    match res with
    | .ok bytes => { c with phase := .dispatched, payload := (padTo (eDlen c.entry) 0 bytes).take (eDlen c.entry) }
    | .failed => { c with phase := .dispatched, payload := List.replicate (eDlen c.entry) 0, poisoned := true }
  updCmd tag into d

/-- PAYLOAD_READ_RETURN (R317). -/
def execPayloadReadReturn (tag : Nat) (scatter : Bool) (res : DmaResult) (s : State) : Host.Outcome State Fault Refusal :=
  effect s <| fun d =>
    match d.cmd tag with
    | none => d
    | some c =>
      if scatter then
        onlyIf (c.phase = .scatter) (fun d => match res with | .ok l => takeScatter c l d | .failed => loseScatter c d) d
      else onlyIf (c.phase = .payload) (takePayload tag res) d

/-! ### Completions (R298, R299, R310 to R312, R340) -/

/-- The completion's ring can take it now (R302, R310). -/
def postable (d : Device) (c : Completion) : Bool :=
  let n := cqOf d c.sq
  (d.cq n).st = .running && ringNext (cqSize d n) (d.cq n).tail != (d.cq n).head

/-- The completion that is posted next: of each ring, the one that became ready first (R310). -/
def nextPosted (d : Device) : Option Completion := d.hif.ready.find? (postable d)

/-- Completion ring `n` signals its vector; the count and the timer start again (R311). -/
def signalCq (n : Nat) (d : Device) : Device :=
  msixSignal (d.regF (0x2108 + 0x20 * n) 20 16) (updCq n (fun q => { q with count := 0, since := none }) d)

/-- One more completion posted to ring `n`, and whether it signals (R311). -/
def coalesce (n : Nat) (atOnce : Bool) (d : Device) : Device :=
  if !wbit (d.reg (0x2108 + 0x20 * n)) 30 then d
  else
    let d := updCq n (fun q => { q with count := q.count + 1, since := some (q.since.getD d.now) }) d
    if atOnce || d.regF (0x210C + 0x20 * n) 23 16 ≤ (d.cq n).count then signalCq n d else d

/-- A completion with a status of class 0x01 to 0x04 enters page 0x01 (R339, R340). -/
def logError (c : Completion) (d : Device) : Device :=
  if c.status < 0x100 then d
  else
    let x : CmdError := { tick := d.now, sq := c.sq, opcode := c.opcode, cid := c.cid, status := c.status, mark := c.mark }
    updHif (fun h => { h with
      errors := (x :: h.errors).take 64
      errorsLost := h.errorsLost + (if h.errors.length < 64 then 0 else 1) }) d

/-- The next index and phase of a completion ring (R298). -/
def passCompletion (size : Nat) (q : Cq) : Cq :=
  { q with tail := ringNext size q.tail, phase := if ringNext size q.tail = 0 then !q.phase else q.phase }

/-- A completion is posted (R298, R310): one write of 16 bytes, then its signal. -/
def postOne (c : Completion) (d : Device) : Device :=
  let n := cqOf d c.sq
  let q := d.cq n
  let w : HostWrite := .bytes (hostAddr d (0x2100 + 0x20 * n) + 16 * q.tail) (completionBytes c (sqHead d c.sq) q.phase)
  let d := updHif (fun h => { h with
    ready := h.ready.filter fun x => x.tag != c.tag, cmds := h.cmds.filter fun x => x.tag != c.tag, posted := true }) { d with bus := { d.bus with out := w :: d.bus.out } }
  pumpDust (coalesce n c.noCoalesce (logError c (count 0x220C (updCq n (passCompletion (cqSize d n)) d))))

/-- Completions may be posted: the link, and not SEALED, where the host's work has stopped (R306, R382). -/
def mayPost (d : Device) : Bool := busOpen d && d.pwr.st != .sealed

/-- POST_COMPLETION (R310). -/
def execPostCompletion (s : State) : Host.Outcome State Fault Refusal :=
  effect s fun d => onlyIf (mayPost d) (fun d => match nextPosted d with | some c => postOne c d | none => d) d

/-- The coalescing time of ring `n` has passed (R311): 1 µs is 25 ticks. -/
def coalesceDue (d : Device) (n : Nat) : Bool :=
  wbit (d.reg (0x2108 + 0x20 * n)) 30 &&
    (match (d.cq n).since with | some t => decide (t + 25 * d.regF (0x210C + 0x20 * n) 15 0 ≤ d.now) | none => false)

/-- COALESCE_TIMER_EXPIRY (R311). -/
def execCoalesceTimerExpiry (cq : Nat) (s : State) : Host.Outcome State Fault Refusal :=
  effect s fun d => onlyIf (cq < 8 && coalesceDue d cq) (signalCq cq) d

/-! ### The link (R31, R306) -/

/-- The link or Bus Master Enable came back: held messages leave, and polling resumes at the lower bound (R306, R311). -/
def resumeBus (d : Device) : Device :=
  if busOpen d then
    msixFlush (if d.hif.lockOk then updHif (fun h => { h with pollNow := true, interval := (pollBounds d).1 }) d else d)
  else d

/-- The link is down: source 11 (R306, Table 11-5). -/
def dropLink (d : Device) : Device :=
  if d.hif.linkUp then
    raise 11 (updHif (fun h => { h with linkUp := false, inL1 := false, width := 0, speed := 0 }) d)
  else d

/-- LINK_DOWN (R306). -/
def execLinkDown (s : State) : Host.Outcome State Fault Refusal := effect s dropLink

/-- LINK_UP (R306): source 12. -/
def execLinkUp (width speed : Nat) (s : State) : Host.Outcome State Fault Refusal :=
  effect s fun d => onlyIf (!d.hif.linkUp)
    (fun d => raise 12 (resumeBus (updHif (fun h => { h with linkUp := true, width := width, speed := speed }) d))) d

/-- BUS_MASTER_ENABLE_CHANGE (R306). -/
def execBusMasterEnableChange (on : Bool) (s : State) : Host.Outcome State Fault Refusal :=
  effect s fun d => onlyIf (d.hif.bme != on) (fun d => resumeBus (updHif (fun h => { h with bme := on }) d)) d

/-- REFCLK_LOSS (R31): the island stops, and with it the link; the core goes on. -/
def execRefclkLoss (s : State) : Host.Outcome State Fault Refusal :=
  effect s fun d => dropLink { d with pacing := { d.pacing with refclk := false } }

/-! ### Conventional reset (R315, R360) -/

/-- A T2 source after a conventional reset: masked in force, not active (R360). -/
def resetHostSrc (d : Device) (s : Nat) : Device :=
  let served := servedBy d s (d.src s) = 2
  let mine := (d.src s).target = 2
  updSrc s (fun x => { x with
    masked := x.masked || mine, maskedNow := x.maskedNow || mine
    active := x.active && !served, forwarded := x.forwarded && !(served && x.active) }) d

/-- An unmask of a T2 source that is not yet due. -/
def cancelled (d : Device) (c : Nat × MaskChange) : Bool :=
  match c.2 with
  | .mask s on => !on && (d.src s).target = 2
  | .threshold _ _ => false

/-- The ICU at a conventional reset (R360). -/
def resetHostIcu (d : Device) : Device :=
  let d := updIcu (fun i => { i with changes := i.changes.filter fun c => !cancelled d c }) d
  (d.icu.srcs.map Prod.fst).foldl resetHostSrc d

/-- The HIF and RNG registers and rings at their reset values; the drive's power state stands (R315). -/
def resetHostRegs (d : Device) : Device :=
  let d := { d with regs := d.regs.filter fun p => p.1 < 0x1000 || 0x4000 ≤ p.1, bus := { d.bus with pba := 0 } }
  updHif (fun h => { h with
    sqs := [], cqs := [], bme := false, interval := 0, lastPoll := 0, polling := false, pollNow := false, posted := false
    fetching := none, turn := 0, turnUsed := 0, lock := false, lockOk := false, lockedWrites := 0 }) d

/-- Waiting commands are dropped; started ones go on, and their completions will be discarded (R315). -/
def orphanCmds (d : Device) : Device :=
  updHif (fun h => { h with
    cmds := (h.cmds.filter fun c => !isWaiting c).map fun c => { c with discard := true } }) d

/-- A completion that was ready is discarded (R315). -/
def discardOne (c : Completion) (d : Device) : Device := raise 9 (count 0x1034 (dropCmd c.tag d))

/-- Every completion that was ready is discarded (R315). -/
def discardReady (d : Device) : Device :=
  let l := d.hif.ready
  l.foldl (fun d c => discardOne c d) (updHif (fun h => { h with ready := [] }) d)

/-- A conventional reset of the function (R315). -/
def resetFunction (d : Device) : Device :=
  pumpDust (discardReady (orphanCmds (resetHostRegs (resetHostIcu (dropLink d)))))

/-- CONVENTIONAL_RESET (R315). -/
def execConventionalReset (s : State) : Host.Outcome State Fault Refusal := effect s resetFunction

end Sys2Proof.Machine
end

