-- ==== Sys2Proof/Machine/Registers.lean ====
section
/-!
DEFINITION. REGISTER_WRITE: a write of any BAR0 offset by any requester (R7 to R10, R80, R314, R476, R477). A register that holds what is
written goes to RegStore.lean; a field that is a command goes to the operation of its own row; a CLR field clears its flag.
-/

namespace Sys2Proof.Machine

/-- The operation of another row, as a register write reaches it. -/
def viaRow (f : State → Host.Outcome State Fault Refusal) (d : Device) : Device :=
  match f { dev := d, pending := [] } with
  | .next s => s.dev
  | .fault _ => d
  | .refused _ => d

/-- `f` when bit `i` of the word written is 1 (SET and CLR, Table 00-2). -/
def whenBit (v : Word32) (i : Nat) (f : Device → Device) (d : Device) : Device := if wbit v i then f d else d

/-! ### Blocks whose writes are commands -/

/-- LOOP_CTRL[n] (Table 03-11); 0, 6 and 7 do nothing. -/
def writeLoopCtrl (who : Requester) (n : Nat) (v : Word32) (d : Device) : Device :=
  match fld v 2 0 with
  | 1 => viaRow (execLoopOpen who n) d
  | 2 => viaRow (execLoopHold who n) d
  | 3 => viaRow (execLoopClose who n) d
  | 4 => viaRow (execLoopAcquire who n) d
  | 5 => viaRow (execDiscardShadow who n) d
  | _ => d

/-- LOOP_STATUS[n] (Table 03-12): HOLD_TIMEOUT and FOCUS_LOST clear. -/
def clearLoopStatus (n : Nat) (v : Word32) : Device → Device :=
  updLoop n fun l => { l with holdTimeout := l.holdTimeout && !wbit v 30, focusLost := l.focusLost && !wbit v 29 }

/-- SEQ_CTRL (R81): RUN, then KICK, which is not the host's (R477). -/
def writeSeqCtrl (who : Requester) (v : Word32) (d : Device) : Device :=
  whenBit v 1 (viaRow (execSeqKick who)) (viaRow (execSeqRun who (wbit v 0)) d)

/-- The SRV block (R83). -/
def writeSrv (who : Requester) (o : Nat) (v : Word32) (d : Device) : Device :=
  let n := (o - 0x8000) / 0x200
  let r := o % 0x200
  if o < 0x8800 && r < 0x4C then viaRow (execCoefLiveWrite who n (r / 4) v) d
  else if o < 0x8800 && 0x80 ≤ r && r < 0xCC then viaRow (execCoefShadowWrite who n (r % 0x80 / 4) v) d
  else if o < 0x8800 && r = 0x100 then writeLoopCtrl who n v d
  else if o < 0x8800 && r = 0x104 then gate who o false (clearLoopStatus n v) d
  else
    match o with
    | 0x8800 => gate who o false (whenBit v 0 fun d => { d with servo := { d.servo with servoFault := false } }) d
    | 0x8900 => writeSeqCtrl who v d
    | 0x8904 => gate who o false (whenBit v 1 fun d => { d with servo := { d.servo with seqExpired := false } }) d
    | _ => d

/-- MPG.CMD (Table 04-3); 0 does nothing. -/
def writeMotionCmd (who : Requester) (v : Word32) (d : Device) : Device :=
  match fld v 2 0 with
  | 1 => viaRow (execMove who) d
  | 2 => viaRow (execHome who) d
  | 3 => viaRow (execPark who) d
  | 4 => viaRow (execStop who) d
  | 5 => viaRow (execGearEngage who) d
  | 6 => viaRow (execGearDisengage who) d
  | 7 => viaRow (execClearFault who) d
  | _ => d

/-- GEAR_CTRL (Table 04-7): LATE clears, then CANCEL, then ARM. -/
def writeGearCtrl (who : Requester) (v : Word32) (d : Device) : Device :=
  let d := gate who 0x903C false (whenBit v 2 (updMotion fun m => { m with late := false })) d
  whenBit v 0 (viaRow (execGearArm who)) (whenBit v 1 (viaRow (execGearCancel who)) d)

/-- RANGE_CMD.OP as it stands when START is judged: a reserved code keeps the previous one (R10, R253). -/
def rangeOpAfter (v : Word32) (d : Device) : Nat := if 1 ≤ fld v 2 0 && fld v 2 0 ≤ 4 then fld v 2 0 else d.regF 0xC010 2 0

/-- The fields of RANGE_CMD. -/
def setRangeFields (v : Word32) (d : Device) : Device :=
  setRegF 0xC010 2 0 (rangeOpAfter v d) (setRegF 0xC010 11 8 (fld v 11 8) (setRegF 0xC010 19 16 (fld v 19 16) d))

/-- START of RANGE_CMD with the operation in OP (Table 09-3). -/
def startRangeOp (who : Requester) (d : Device) : Device :=
  match d.regF 0xC010 2 0 with
  | 1 => viaRow (execInvalidate who) d
  | 2 => viaRow (execClean who) d
  | 3 => viaRow (execPurgeOwner who) d
  | 4 => viaRow (execZeroLine who) d
  | _ => d

/-- RANGE_CMD (R245, R253): the fields, then START. -/
def writeRangeCmd (who : Requester) (v : Word32) (d : Device) : Device :=
  whenBit v 31 (startRangeOp who) (gate who 0xC010 true (setRangeFields v) d)

/-- Poison bits of table line `k` clear, where this twin holds the line (R242). -/
def clearTablePoison (k : Nat) (v : Word32) (d : Device) : Device :=
  if (findLine d (isTable k)).isSome then mapLines (isTable k) (fun l => { l with poison := l.poison &&& ~~~ v }) d
  else updCache (fun c => { c with storePoison := supd (fun _ => 0) k (fun p => p &&& ~~~ v) c.storePoison }) d

/-- The CCH block (R253). -/
def writeCch (who : Requester) (o : Nat) (v : Word32) (d : Device) : Device :=
  if o = 0xC010 then writeRangeCmd who v d
  else if o = 0xC024 then gate who o false (whenBit v 30 (updCache fun c => { c with ignored := false })) d
  else if 0xC080 ≤ o && o < 0xC0C0 then gate who o false (clearTablePoison ((o - 0xC080) / 4) v) d
  else d

/-- FLS.CMD.OP as it stands when START is judged (R10, R450). -/
def flashOpAfter (v : Word32) (d : Device) : Nat := if 1 ≤ fld v 2 0 && fld v 2 0 ≤ 6 then fld v 2 0 else d.regF 0x13000 2 0

/-- START of FLS.CMD (Table 16-9). -/
def startFlashOp (who : Requester) (d : Device) : Device :=
  match d.regF 0x13000 2 0 with
  | 1 => viaRow (execProgram who) d
  | 2 => viaRow (execEraseSector who) d
  | 3 => viaRow (execEraseBlock who) d
  | 4 => viaRow (execBitClear who) d
  | 5 => viaRow (execSuspend who) d
  | 6 => viaRow (execResume who) d
  | _ => d

/-- FLS.CMD (R450): OP, then START. -/
def writeFlashCmd (who : Requester) (v : Word32) (d : Device) : Device :=
  whenBit v 31 (startFlashOp who) (gate who 0x13000 false (fun d => setRegF 0x13000 2 0 (flashOpAfter v d) d) d)

/-- The ECC block (R451). SPLIT_MODE closes before it opens; TEST_CMD writes before it reads. -/
def writeEcc (who : Requester) (o : Nat) (v : Word32) (d : Device) : Device :=
  match o with
  | 0x14000 => viaRow (execSplitModeOpen who v) (whenBit v 30 (viaRow (execSplitModeClose who)) d)
  | 0x14010 =>
    whenBit v 2 (viaRow (execTestRead who)) (whenBit v 1 (viaRow (execTestWriteCheck who)) (whenBit v 0 (viaRow (execTestWriteData who)) d))
  | 0x14024 => viaRow (execZeroWord who v) d
  | _ => d

/-- A host write to an ICU register that R359 keeps from it. -/
def writeIcuOther (who : Requester) (o : Nat) (d : Device) : Device := icuGate who o cfgRefused id d

/-- The offset holds an ICU register (Table 18-3). -/
def isIcuReg (o : Nat) : Bool :=
  (0x4000 ≤ o && o < 0x44C0) || [0x4500, 0x4504, 0x4508, 0x450C, 0x4510, 0x4514, 0x4518, 0x451C, 0x4520, 0x4524, 0x4540, 0x4544].contains o
    || (0x4600 ≤ o && o < 0x4644)

/-- The ICU block (R357 to R359). -/
def writeIcu (who : Requester) (o : Nat) (v : Word32) (d : Device) : Device :=
  let w := o % 0x20 / 4
  if !isIcuReg o then d
  else if o < 0x4400 then viaRow (execSrcCfgWrite who ((o - 0x4000) / 4) v) d
  else if o < 0x4420 then viaRow (execMaskSet who w v) d
  else if o < 0x4440 then viaRow (execMaskClr who w v) d
  else if o < 0x4460 then viaRow (execPendSet who w v) d
  else if o < 0x4480 then viaRow (execPendClr who w v) d
  else if 0x4600 ≤ o && o < 0x4640 then viaRow (execWakeSlotWrite who ((o - 0x4600) / 4) v) d
  else if o = 0x4500 || o = 0x4510 || o = 0x4520 then viaRow (execThresholdWrite who ((o - 0x4500) / 0x10) v) d
  else if o = 0x4508 || o = 0x4518 then viaRow (execIcuComplete who ((o - 0x4508) / 0x10) v) d
  else writeIcuOther who o d

/-- Registers outside those blocks whose write is a command or clears a flag. -/
def writeOther (who : Requester) (o : Nat) (v : Word32) (d : Device) : Device :=
  match o with
  | 0x20 => if who = .host then whenBit v 0 (viaRow execSetupLock) d else d
  | 0x68 => viaRow (execFwUpdateStart who v) d
  | 0x9000 => writeMotionCmd who v d
  | 0x903C => writeGearCtrl who v d
  | 0xB004 => viaRow (execLaserMaxWrite who v) d
  | 0xB008 => whenBit v 30 (viaRow (execLaserOverClear who)) d
  | 0xB01C => gate who o false (fun d => setReg o (d.reg o &&& ~~~ v) d) d
  | 0xB030 => viaRow (execStratDataAccess who (some v)) d
  | 0xB0C0 => viaRow (execOpcTestStep who v) d
  | 0xD048 => gate who o false (fun d => setReg o (d.reg o &&& ~~~ (v &&& 0xFFFF0000)) d) d
  | 0xD04C => gate who o false (whenBit v 31 (updCry fun c => { c with rngFail := false })) d
  | 0xE000 => gate who o false (whenBit v 27 (updLath fun l => { l with commissionFailed := false })) d
  | 0x10020 => gate who o false (whenBit v 31 (updPwr fun p => { p with refFail := false })) d
  | 0x10028 => viaRow (execBalanceCommand who v) d
  | 0x10030 => whenBit v 31 (viaRow (execDischargeTestRequest who)) (gate who o true (storeReg o v) d)
  | 0x1200C => viaRow (execFaultClr who v) d
  | 0x13000 => writeFlashCmd who v d
  | _ => if isStored o then gate who o (hostStores o) (storeReg o v) d else d

/-- A write that R314 and R7 let through, at its register (R80, R477). -/
def writeAt (who : Requester) (o : Nat) (v : Word32) (d : Device) : Device :=
  if who = .seq && !seqReaches o then d
  else if 0x1800 ≤ o && o < 0x1A00 then viaRow (execMsixTableWrite (o - 0x1800) v) d
  else if 0x4000 ≤ o && o < 0x8000 then writeIcu who o v d
  else if isStored o then writeOther who o v d
  else if 0x8000 ≤ o && o < 0x9000 then writeSrv who o v d
  else if 0xC000 ≤ o && o < 0xD000 then writeCch who o v d
  else if 0x14000 ≤ o && o < 0x15000 then writeEcc who o v d
  else writeOther who o v d

/-- The MSI-X table and the pending-bit array, which the lock exempts (R314). -/
def isMsix (o : Nat) : Bool := 0x1800 ≤ o && o < 0x1A08

/-- A register write (R7, R314, R476). -/
def writeReg (who : Requester) (width o : Nat) (v : Word32) (d : Device) : Device :=
  let plain := width = 32 && o % 4 = 0
  if who = .host && d.hif.lock && !(plain && isMsix o) then lockedWrite d
  else if plain then onBus who (writeAt who o v) d
  else d

/-- REGISTER_WRITE (R8). -/
def execRegisterWrite (who : Requester) (width offset : Nat) (value : Word32) (s : State) : Host.Outcome State Fault Refusal :=
  effect s (writeReg who width offset value)

end Sys2Proof.Machine
end

