-- ==== Sys2Proof/Machine/Dispatch.lean ====
section
/-!
DEFINITION. The meaning of every command: one arm for each constructor, one call of its meaning.
-/

namespace Sys2Proof.Machine

/-- Run a command on the state: its effect on everything but the queue. -/
def exec (i : Instr) (s : State) : Host.Outcome State Fault Refusal :=
  match i with
  | .append tag => Sys2Proof.Machine.execAppend tag s
  | .readMark tag => Sys2Proof.Machine.execReadMark tag s
  | .readRange tag => Sys2Proof.Machine.execReadRange tag s
  | .hold tag => Sys2Proof.Machine.execHold tag s
  | .releaseHold tag => Sys2Proof.Machine.execReleaseHold tag s
  | .bootStage tag => Sys2Proof.Machine.execBootStage tag s
  | .bootActivate tag => Sys2Proof.Machine.execBootActivate tag s
  | .bootRead tag => Sys2Proof.Machine.execBootRead tag s
  | .ownerCreate tag => Sys2Proof.Machine.execOwnerCreate tag s
  | .ownerRetire tag => Sys2Proof.Machine.execOwnerRetire tag s
  | .ownerExportKey tag point => Sys2Proof.Machine.execOwnerExportKey tag point s
  | .streamOpen tag => Sys2Proof.Machine.execStreamOpen tag s
  | .streamClose tag => Sys2Proof.Machine.execStreamClose tag s
  | .identify tag => Sys2Proof.Machine.execIdentify tag s
  | .getLog tag => Sys2Proof.Machine.execGetLog tag s
  | .setFeature tag => Sys2Proof.Machine.execSetFeature tag s
  | .getFeature tag => Sys2Proof.Machine.execGetFeature tag s
  | .enterDustSheet tag => Sys2Proof.Machine.execEnterDustSheet tag s
  | .leaveDustSheet tag measured => Sys2Proof.Machine.execLeaveDustSheet tag measured s
  | .detachRequest tag => Sys2Proof.Machine.execDetachRequest tag s
  | .commission tag => Sys2Proof.Machine.execCommission tag s
  | .confirm tag => Sys2Proof.Machine.execConfirm tag s
  | .cartridgeEjectPrep tag => Sys2Proof.Machine.execCartridgeEjectPrep tag s
  | .runSelftest tag failMap comparatorOk us => Sys2Proof.Machine.execRunSelftest tag failMap comparatorOk us s
  | .readHeader tag header => Sys2Proof.Machine.execReadHeader tag header s
  | .trigger tag => Sys2Proof.Machine.execTrigger tag s
  | .doorbellPoll => Sys2Proof.Machine.execDoorbellPoll s
  | .doorbellPollReturn res => Sys2Proof.Machine.execDoorbellPollReturn res s
  | .fetchEntry => Sys2Proof.Machine.execFetchEntry s
  | .entryFetched res => Sys2Proof.Machine.execEntryFetched res s
  | .postCompletion => Sys2Proof.Machine.execPostCompletion s
  | .coalesceTimerExpiry cq => Sys2Proof.Machine.execCoalesceTimerExpiry cq s
  | .conventionalReset => Sys2Proof.Machine.execConventionalReset s
  | .linkDown => Sys2Proof.Machine.execLinkDown s
  | .linkUp width speed => Sys2Proof.Machine.execLinkUp width speed s
  | .busMasterEnableChange on => Sys2Proof.Machine.execBusMasterEnableChange on s
  | .setupLock => Sys2Proof.Machine.execSetupLock s
  | .registerWrite who width offset value => Sys2Proof.Machine.execRegisterWrite who width offset value s
  | .rcFieldRead who width offset => Sys2Proof.Machine.execRcFieldRead who width offset s
  | .tickLoRead who => Sys2Proof.Machine.execTickLoRead who s
  | .bar0ReadInRetention width offset => Sys2Proof.Machine.execBar0ReadInRetention width offset s
  | .boundsChange loop => Sys2Proof.Machine.execBoundsChange loop s
  | .excursionReturn loop => Sys2Proof.Machine.execExcursionReturn loop s
  | .countWindowEnd periods => Sys2Proof.Machine.execCountWindowEnd periods s
  | .loopSample n x => Sys2Proof.Machine.execLoopSample n x s
  | .loopComputeDone n eighths => Sys2Proof.Machine.execLoopComputeDone n eighths s
  | .loopOutputInstant n => Sys2Proof.Machine.execLoopOutputInstant n s
  | .loopOpen who n => Sys2Proof.Machine.execLoopOpen who n s
  | .loopHold who n => Sys2Proof.Machine.execLoopHold who n s
  | .loopClose who n => Sys2Proof.Machine.execLoopClose who n s
  | .loopAcquire who n => Sys2Proof.Machine.execLoopAcquire who n s
  | .discardShadow who n => Sys2Proof.Machine.execDiscardShadow who n s
  | .acqTimeout n => Sys2Proof.Machine.execAcqTimeout n s
  | .holdTimeout n => Sys2Proof.Machine.execHoldTimeout n s
  | .coefLiveWrite who n k value => Sys2Proof.Machine.execCoefLiveWrite who n k value s
  | .coefShadowWrite who n k value => Sys2Proof.Machine.execCoefShadowWrite who n k value s
  | .seqRun who run => Sys2Proof.Machine.execSeqRun who run s
  | .seqKick who => Sys2Proof.Machine.execSeqKick who s
  | .move who => Sys2Proof.Machine.execMove who s
  | .home who => Sys2Proof.Machine.execHome who s
  | .park who => Sys2Proof.Machine.execPark who s
  | .stop who => Sys2Proof.Machine.execStop who s
  | .gearEngage who => Sys2Proof.Machine.execGearEngage who s
  | .gearDisengage who => Sys2Proof.Machine.execGearDisengage who s
  | .clearFault who => Sys2Proof.Machine.execClearFault who s
  | .microstepDue src outward => Sys2Proof.Machine.execMicrostepDue src outward s
  | .limitSwitchChange outer level held => Sys2Proof.Machine.execLimitSwitchChange outer level held s
  | .encoderEdge eighths => Sys2Proof.Machine.execEncoderEdge eighths s
  | .gearArm who => Sys2Proof.Machine.execGearArm who s
  | .gearCancel who => Sys2Proof.Machine.execGearCancel who s
  | .sectorSync psa locked flow => Sys2Proof.Machine.execSectorSync psa locked flow s
  | .fastDecodeDone psa word => Sys2Proof.Machine.execFastDecodeDone psa word s
  | .deepIterationDone psa inner word => Sys2Proof.Machine.execDeepIterationDone psa inner word s
  | .clusterReread cluster => Sys2Proof.Machine.execClusterReread cluster s
  | .egressDecryptDone psa tagOk plain poisoned => Sys2Proof.Machine.execEgressDecryptDone psa tagOk plain poisoned s
  | .rawResult psa errors beta synced => Sys2Proof.Machine.execRawResult psa errors beta synced s
  | .inPlaceRetry psa poisoned => Sys2Proof.Machine.execInPlaceRetry psa poisoned s
  | .laserMaxWrite who value => Sys2Proof.Machine.execLaserMaxWrite who value s
  | .writeInhibit cause => Sys2Proof.Machine.execWriteInhibit cause s
  | .opcTestStep who value => Sys2Proof.Machine.execOpcTestStep who value s
  | .opcTestStepDone errors beta => Sys2Proof.Machine.execOpcTestStepDone errors beta s
  | .staticOpc layer band => Sys2Proof.Machine.execStaticOpc layer band s
  | .stratDataAccess who value => Sys2Proof.Machine.execStratDataAccess who value s
  | .assemblyDelayExpiry owner => Sys2Proof.Machine.execAssemblyDelayExpiry owner s
  | .zoneEntry owner => Sys2Proof.Machine.execZoneEntry owner s
  | .nextZoneNaming owner => Sys2Proof.Machine.execNextZoneNaming owner s
  | .bootDigestCheck digest => Sys2Proof.Machine.execBootDigestCheck digest s
  | .recoveryPhaseA owner scan => Sys2Proof.Machine.execRecoveryPhaseA owner scan s
  | .recoveryPhaseB owner => Sys2Proof.Machine.execRecoveryPhaseB owner s
  | .appendAdmission tag => Sys2Proof.Machine.execAppendAdmission tag s
  | .rngHealthFail => Sys2Proof.Machine.execRngHealthFail s
  | .commissionTimeout => Sys2Proof.Machine.execCommissionTimeout s
  | .ageingTick => Sys2Proof.Machine.execAgeingTick s
  | .fillAfterWait => Sys2Proof.Machine.execFillAfterWait s
  | .cacheSramError line records => Sys2Proof.Machine.execCacheSramError line records s
  | .invalidate who => Sys2Proof.Machine.execInvalidate who s
  | .clean who => Sys2Proof.Machine.execClean who s
  | .purgeOwner who => Sys2Proof.Machine.execPurgeOwner who s
  | .zeroLine who => Sys2Proof.Machine.execZeroLine who s
  | .rangeOpDone => Sys2Proof.Machine.execRangeOpDone s
  | .tableLineBusyClear k => Sys2Proof.Machine.execTableLineBusyClear k s
  | .rd cr k => Sys2Proof.Machine.execRd cr k s
  | .own cr k => Sys2Proof.Machine.execOwn cr k s
  | .upg cr k => Sys2Proof.Machine.execUpg cr k s
  | .data cr k granted recs poison => Sys2Proof.Machine.execData cr k granted recs poison s
  | .none cr k granted => Sys2Proof.Machine.execNone cr k granted s
  | .evicting cr k => Sys2Proof.Machine.execEvicting cr k s
  | .evict cr k => Sys2Proof.Machine.execEvict cr k s
  | .evictD cr k recs poison => Sys2Proof.Machine.execEvictD cr k recs poison s
  | .cleanD cr k recs poison => Sys2Proof.Machine.execCleanD cr k recs poison s
  | .evictAck cr k => Sys2Proof.Machine.execEvictAck cr k s
  | .credit cr => Sys2Proof.Machine.execCredit cr s
  | .detach cr leaving => Sys2Proof.Machine.execDetach cr leaving s
  | .detachAck cr => Sys2Proof.Machine.execDetachAck cr s
  | .modeNote cr mode sealing => Sys2Proof.Machine.execModeNote cr mode sealing s
  | .appBegin cr xid owner mark count => Sys2Proof.Machine.execAppBegin cr xid owner mark count s
  | .appData cr xid unit bytes poison => Sys2Proof.Machine.execAppData cr xid unit bytes poison s
  | .appVerified cr xid mark ovr => Sys2Proof.Machine.execAppVerified cr xid mark ovr s
  | .appFailed cr xid mark status => Sys2Proof.Machine.execAppFailed cr xid mark status s
  | .appAbort cr xid mark => Sys2Proof.Machine.execAppAbort cr xid mark s
  | .recovReq cr xid mark unit => Sys2Proof.Machine.execRecovReq cr xid mark unit s
  | .recovData cr xid unit bytes poison => Sys2Proof.Machine.execRecovData cr xid unit bytes poison s
  | .ownerNote cr slot => Sys2Proof.Machine.execOwnerNote cr slot s
  | .ownerDone cr slot code => Sys2Proof.Machine.execOwnerDone cr slot code s
  | .catchBegin cr xid owner mark count => Sys2Proof.Machine.execCatchBegin cr xid owner mark count s
  | .catchData cr xid unit bytes poison => Sys2Proof.Machine.execCatchData cr xid unit bytes poison s
  | .catchDone cr xid mark => Sys2Proof.Machine.execCatchDone cr xid mark s
  | .catchFailed cr xid mark status => Sys2Proof.Machine.execCatchFailed cr xid mark status s
  | .chainReq cr mark => Sys2Proof.Machine.execChainReq cr mark s
  | .chainVal cr mark h => Sys2Proof.Machine.execChainVal cr mark h s
  | .pulseSync cr ticks width localMask peerMask => Sys2Proof.Machine.execPulseSync cr ticks width localMask peerMask s
  | .pairPoint cr point => Sys2Proof.Machine.execPairPoint cr point s
  | .pairConfirm cr code peerKeys => Sys2Proof.Machine.execPairConfirm cr code peerKeys s
  | .pairConfirmAck cr equal => Sys2Proof.Machine.execPairConfirmAck cr equal s
  | .hello cr blk => Sys2Proof.Machine.execHello cr blk s
  | .helloAck cr blk => Sys2Proof.Machine.execHelloAck cr blk s
  | .tableXfer cr k recs poison => Sys2Proof.Machine.execTableXfer cr k recs poison s
  | .keyXfer cr slot rc => Sys2Proof.Machine.execKeyXfer cr slot rc s
  | .cartReg cr serials => Sys2Proof.Machine.execCartReg cr serials s
  | .lathLinkError => Sys2Proof.Machine.execLathLinkError s
  | .aliveToggle => Sys2Proof.Machine.execAliveToggle s
  | .alivePauseEnd => Sys2Proof.Machine.execAlivePauseEnd s
  | .lathDown => Sys2Proof.Machine.execLathDown s
  | .lathLive => Sys2Proof.Machine.execLathLive s
  | .directionTake arbIn => Sys2Proof.Machine.execDirectionTake arbIn s
  | .arbCollision => Sys2Proof.Machine.execArbCollision s
  | .guardTimeEnd => Sys2Proof.Machine.execGuardTimeEnd s
  | .inPeerPulse low => Sys2Proof.Machine.execInPeerPulse low s
  | .inPeerFaulted => Sys2Proof.Machine.execInPeerFaulted s
  | .inPeerHealthy => Sys2Proof.Machine.execInPeerHealthy s
  | .vinWarnAssert => Sys2Proof.Machine.execVinWarnAssert s
  | .vinWarnClear => Sys2Proof.Machine.execVinWarnClear s
  | .returnCondition => Sys2Proof.Machine.execReturnCondition s
  | .pwrwarnInputChange energised held => Sys2Proof.Machine.execPwrwarnInputChange energised held s
  | .rideThroughWindowExpiry => Sys2Proof.Machine.execRideThroughWindowExpiry s
  | .sealLevelTrip => Sys2Proof.Machine.execSealLevelTrip s
  | .sealFinishEnd => Sys2Proof.Machine.execSealFinishEnd s
  | .sealCheckpointEnd => Sys2Proof.Machine.execSealCheckpointEnd s
  | .sealParkEnd => Sys2Proof.Machine.execSealParkEnd s
  | .resetLevelTrip inputs => Sys2Proof.Machine.execResetLevelTrip inputs s
  | .stackMonitorCycle cells refB coarse current tapMoves => Sys2Proof.Machine.execStackMonitorCycle cells refB coarse current tapMoves s
  | .heartbeatLoss quiet => Sys2Proof.Machine.execHeartbeatLoss quiet s
  | .balanceCommand who value => Sys2Proof.Machine.execBalanceCommand who value s
  | .balanceExpiry => Sys2Proof.Machine.execBalanceExpiry s
  | .dischargeTestRequest who => Sys2Proof.Machine.execDischargeTestRequest who s
  | .dischargeTestDue => Sys2Proof.Machine.execDischargeTestDue s
  | .dischargeTestStart => Sys2Proof.Machine.execDischargeTestStart s
  | .dischargeTestDone fallMv ticks => Sys2Proof.Machine.execDischargeTestDone fallMv ticks s
  | .coreMismatch lead trail upsetA upsetB => Sys2Proof.Machine.execCoreMismatch lead trail upsetA upsetB s
  | .lockstepSelftest lead trail => Sys2Proof.Machine.execLockstepSelftest lead trail s
  | .lockstepSelftestFail => Sys2Proof.Machine.execLockstepSelftestFail s
  | .delayRegisterFault upsetA upsetB => Sys2Proof.Machine.execDelayRegisterFault upsetA upsetB s
  | .warmRestartDone crcOk otherOk => Sys2Proof.Machine.execWarmRestartDone crcOk otherOk s
  | .testPulseWindow out => Sys2Proof.Machine.execTestPulseWindow out s
  | .pulseSampleInstant out pins => Sys2Proof.Machine.execPulseSampleInstant out pins s
  | .pulsePeriodEnd => Sys2Proof.Machine.execPulsePeriodEnd s
  | .outputOvercurrent out shutdown => Sys2Proof.Machine.execOutputOvercurrent out shutdown s
  | .outputRetry out ended => Sys2Proof.Machine.execOutputRetry out ended s
  | .faultClr who value => Sys2Proof.Machine.execFaultClr who value s
  | .fieldSupplyLow => Sys2Proof.Machine.execFieldSupplyLow s
  | .fieldSupplyRestored => Sys2Proof.Machine.execFieldSupplyRestored s
  | .fieldInputChange input energised held => Sys2Proof.Machine.execFieldInputChange input energised held s
  | .program who => Sys2Proof.Machine.execProgram who s
  | .eraseSector who => Sys2Proof.Machine.execEraseSector who s
  | .eraseBlock who => Sys2Proof.Machine.execEraseBlock who s
  | .bitClear who => Sys2Proof.Machine.execBitClear who s
  | .suspend who => Sys2Proof.Machine.execSuspend who s
  | .resume who => Sys2Proof.Machine.execResume who s
  | .flashOpDone verified => Sys2Proof.Machine.execFlashOpDone verified s
  | .flashRead chunk flips => Sys2Proof.Machine.execFlashRead chunk flips s
  | .suspendReached => Sys2Proof.Machine.execSuspendReached s
  | .suspendHoldExpiry => Sys2Proof.Machine.execSuspendHoldExpiry s
  | .autoSuspendEnd => Sys2Proof.Machine.execAutoSuspendEnd s
  | .flashScrub sector flips => Sys2Proof.Machine.execFlashScrub sector flips s
  | .flashRefresh sector => Sys2Proof.Machine.execFlashRefresh sector s
  | .eventLogWrite origin source code detail => Sys2Proof.Machine.execEventLogWrite origin source code detail s
  | .eventLogHourEnd => Sys2Proof.Machine.execEventLogHourEnd s
  | .sramScrub mem word data check last written => Sys2Proof.Machine.execSramScrub mem word data check last written s
  | .poisonConsumed mem addr fetch => Sys2Proof.Machine.execPoisonConsumed mem addr fetch s
  | .splitModeOpen who value => Sys2Proof.Machine.execSplitModeOpen who value s
  | .splitModeClose who => Sys2Proof.Machine.execSplitModeClose who s
  | .splitModeTimeout => Sys2Proof.Machine.execSplitModeTimeout s
  | .testWriteData who => Sys2Proof.Machine.execTestWriteData who s
  | .testWriteCheck who => Sys2Proof.Machine.execTestWriteCheck who s
  | .testRead who => Sys2Proof.Machine.execTestRead who s
  | .zeroWord who addr => Sys2Proof.Machine.execZeroWord who addr s
  | .icuClaim who t => Sys2Proof.Machine.execIcuClaim who t s
  | .icuHostClaim who => Sys2Proof.Machine.execIcuHostClaim who s
  | .icuComplete who t value => Sys2Proof.Machine.execIcuComplete who t value s
  | .maskSet who w value => Sys2Proof.Machine.execMaskSet who w value s
  | .maskClr who w value => Sys2Proof.Machine.execMaskClr who w value s
  | .pendSet who w value => Sys2Proof.Machine.execPendSet who w value s
  | .pendClr who w value => Sys2Proof.Machine.execPendClr who w value s
  | .thresholdWrite who t value => Sys2Proof.Machine.execThresholdWrite who t value s
  | .srcCfgWrite who src value => Sys2Proof.Machine.execSrcCfgWrite who src value s
  | .wakeSlotWrite who ix value => Sys2Proof.Machine.execWakeSlotWrite who ix value s
  | .wakeDetect src level => Sys2Proof.Machine.execWakeDetect src level s
  | .retentionEntry => Sys2Proof.Machine.execRetentionEntry s
  | .idleTimerExpiry => Sys2Proof.Machine.execIdleTimerExpiry s
  | .powerStateExitDone => Sys2Proof.Machine.execPowerStateExitDone s
  | .powerOnReset inputs => Sys2Proof.Machine.execPowerOnReset inputs s
  | .calibrationSave => Sys2Proof.Machine.execCalibrationSave s
  | .cartridgeSeated memory system => Sys2Proof.Machine.execCartridgeSeated memory system s
  | .cartridgeRemoved => Sys2Proof.Machine.execCartridgeRemoved s
  | .fwUpdateStart who value => Sys2Proof.Machine.execFwUpdateStart who value s
  | .fwUpdateDone image verified inputs => Sys2Proof.Machine.execFwUpdateDone image verified inputs s
  | .confirmMark => Sys2Proof.Machine.execConfirmMark s
  | .heartbeatRestored present => Sys2Proof.Machine.execHeartbeatRestored present s
  | .readFifoHighWater flow => Sys2Proof.Machine.execReadFifoHighWater flow s
  | .defectBegin flow => Sys2Proof.Machine.execDefectBegin flow s
  | .defectEnd flow => Sys2Proof.Machine.execDefectEnd flow s
  | .readFifoOverflow flow => Sys2Proof.Machine.execReadFifoOverflow flow s
  | .timingLockLost flow => Sys2Proof.Machine.execTimingLockLost flow s
  | .dataFieldEnd psa flow => Sys2Proof.Machine.execDataFieldEnd psa flow s
  | .sectorWriteStart psa before poisoned => Sys2Proof.Machine.execSectorWriteStart psa before poisoned s
  | .payloadReadReturn tag scatter res => Sys2Proof.Machine.execPayloadReadReturn tag scatter res s
  | .clusterRefresh cluster => Sys2Proof.Machine.execClusterRefresh cluster s
  | .vinAdcSample vin field => Sys2Proof.Machine.execVinAdcSample vin field s
  | .junctionTemperatureLimit core afe => Sys2Proof.Machine.execJunctionTemperatureLimit core afe s
  | .refclkLoss => Sys2Proof.Machine.execRefclkLoss s
  | .refclkReturn => Sys2Proof.Machine.execRefclkReturn s
  | .msixTableWrite offset value => Sys2Proof.Machine.execMsixTableWrite offset value s
  | .laserOverClear who => Sys2Proof.Machine.execLaserOverClear who s
  | .writeInhibitClear cause => Sys2Proof.Machine.execWriteInhibitClear cause s
  | .avsRailSettled => Sys2Proof.Machine.execAvsRailSettled s
  | .avsWindowEnd => Sys2Proof.Machine.execAvsWindowEnd s
  | .crystalEdgeTimeout => Sys2Proof.Machine.execCrystalEdgeTimeout s
  | .focusLoss => Sys2Proof.Machine.execFocusLoss s
  | .seqWatchdogExpiry => Sys2Proof.Machine.execSeqWatchdogExpiry s
  | .seqHalt => Sys2Proof.Machine.execSeqHalt s
  | .profileReplan => Sys2Proof.Machine.execProfileReplan s
  | .moveComplete => Sys2Proof.Machine.execMoveComplete s
  | .emergencyRampAtRest => Sys2Proof.Machine.execEmergencyRampAtRest s
  | .preDriverFault => Sys2Proof.Machine.execPreDriverFault s
  | .homingFailed => Sys2Proof.Machine.execHomingFailed s
  | .writeFifoUnderrun => Sys2Proof.Machine.execWriteFifoUnderrun s
  | .laserOverPower => Sys2Proof.Machine.execLaserOverPower s
  | .laserIlkLow => Sys2Proof.Machine.execLaserIlkLow s
  | .laserIlkRestored => Sys2Proof.Machine.execLaserIlkRestored s
  | .writeResume => Sys2Proof.Machine.execWriteResume s

end Sys2Proof.Machine
end

