-- ==== Sys2Proof/Machine/Tick.lean ====
section
/-!
DEFINITION. What one tick brings when no command waits (R32, R335, R342, R357, R364, R471, R506): the pacing counter counts, changes that
are due come into force, and what waited for time goes on. Every other timed event is a row of its own, brought by the environment (log
entries 10, 11).
-/

namespace Sys2Proof.Machine

/-- Laser-on time (R506): a second for every 25,000,000 ticks with the laser on. -/
def countLaser (d : Device) : Device :=
  if !d.wrc.laserOn then d
  else if d.gen.laserTicks + 1 < ticksPerS then updGen (fun g => { g with laserTicks := g.laserTicks + 1 }) d
  else updGen (fun g => { g with laserTicks := 0, laserSeconds := g.laserSeconds + 1 }) d

/-- Time in service of a firmware image on trial (R471). -/
def countTrial (d : Device) : Device :=
  if inService d && d.lsk.pair = .running then updGen (fun g => { g with trialRun := g.trialRun + 1 }) d else d

/-- Idle time counts from the moment idleness began (R342). -/
def countIdle (d : Device) : Device := if isIdle d then d else updHif (fun h => { h with idleSince := d.now }) d

/-- The host link goes into ASPM L1 and out of it by itself (R29; log entry 92). -/
def linkRest (d : Device) : Device := updHif (fun h => { h with inL1 := h.linkUp && Config.linkInL1 d.now }) d

/-- The pins and counters that follow time. -/
def tickCounters (d : Device) : Device :=
  let d := { d with pacing := { d.pacing with now := d.pacing.now + 1 } }
  pairTick <| linkRest (countIdle (countTrial (countLaser (updPwr (fun p => { p with pwrwarn := !p.pwrwarnOn }) d))))

/-- The drive: the engine takes a sample that waits, homing goes on, and the sequencer's script (R59, R75 to R77, R100, R514). -/
def pumpDrive (d : Device) : Device := runScript (pumpHoming (enginePick d))

/-- Medium work that is ready, on another layer than the one in focus, and none on that one: the layer of the first (R77, R145). -/
def layerWanted (d : Device) : Option Nat :=
  let reads := d.rdc.clusters.filter fun c => c.reading && readPermitted d c && (List.range 18).any fun i => sectorAt c i = .unread
  let ls := reads.map (·.loc.layer) ++ (d.wrc.clusters.filter fun c => writePermitted d c && shareAllows d c).map (·.loc.layer)
  if ls.any (fun l => d.servo.layer = some l) then none else ls.head?

/-- The drive goes to the layer that waiting work needs, by a jump or an acquisition, once it stands free to (R75 to R77, R145, R514). -/
def pumpSeek (d : Device) : Device :=
  if d.servo.script.isSome || d.servo.targetLayer.isSome || d.motion.seeking || !mediumOpen d || !ilkReady d || d.hif.ps != 0
      || d.hif.transition then d
  else
    match layerWanted d with
    | some l => seekLayer l d
    | none => d

/-- A task for which the drive runs in Dust Sheet is under way (R460). -/
def dustTask (d : Device) : Bool :=
  d.gen.formatting || d.gen.leaveTag.isSome || d.gen.ejectTag.isSome || d.gen.fwState = 1 || d.wrc.clusters.any fun c => c.ring = 0

/-- In Dust Sheet the drive spins up for a task that needs it, once the supply lets it, and parks again when the task ends (R460). -/
def pumpPark (d : Device) : Device :=
  if d.gen.mode != .dustSheet || !d.gen.chosen then d
  else if d.gen.parked then (if dustTask d && mediumOpen d && d.gen.cart.isSome && !mediumGone d then spinUp d else d)
  else if dustTask d then d
  else standParked d

/-- What waited and may go on. -/
def tickPumps (d : Device) : Device :=
  writeQueued (pumpCeiling (sweepGroups (pumpFull (pumpSearches (pumpGaps (pumpCloses (pumpTwin (pumpDust (noteSync (pumpReads (pumpSeek (pumpPark (pumpDrive d)))))))))))))

/-- One tick of the pacing counter (R32; log entry 10). -/
def tick (d : Device) : Device := tickPumps (refreshInhibit (noteQuiet (settleIcu (tickCounters d))))

end Sys2Proof.Machine
end

