-- ==== Sys2Proof/WellFormed.lean ====
section
/-!
DEFINITION. Well-formed commands: every operand lies in the range that its row and its data have.
-/

namespace Sys2Proof

/-- The credit fields of a message (Table 10-2). -/
def Credits.wf (c : Credits) : Bool := c.control ≤ 32 && c.data ≤ 8

/-- A DMA read brings the bytes that were asked for, or fails. -/
def DmaResult.wf (n : Nat) : DmaResult → Bool
  | .ok bytes => bytes.length = n
  | .failed => true

/-- A sparse list of records with rising indices below `n`. -/
def risingBelow {α : Type} (n : Nat) (m : Sparse α) : Bool :=
  m.all (fun p => p.1 < n) && (m.map Prod.fst).Pairwise (· < ·)

/-- Records of a table line: 32 at most, their sequences and owner in range (Table 07-6). -/
def tableWf (r : TableRecs) : Bool :=
  risingBelow 32 r && r.all fun p =>
    p.2.owner < 16 && p.2.home < 2 && p.2.issued < 2 ^ 48 && p.2.head < 2 ^ 48 && p.2.tail < 2 ^ 48

/-- A frame's address (R163). -/
def psaWf (psa : Nat) : Bool := psa < 2 ^ 48

/-- An update of the taps carries all fifteen (R116). -/
def flowWf : Flow → Bool
  | .adapt taps => taps.length = 15
  | _ => true

/-- A record mark (R180). -/
def markWf (m : Nat) : Bool := m < 2 ^ 64

/-- The unit of a record or of a group. -/
def unitWf (bytes : List Byte) : Bool := bytes.length ≤ 4096

/-- Slot record fields (Table 08-2). -/
def SlotRecord.wf (r : SlotRecord) : Bool := r.keygen < 256 && r.quota < 2 ^ 16 && r.createTick < 2 ^ 64

/-- An attach block (R268). -/
def AttachBlock.wf (b : AttachBlock) : Bool := b.twinId < 2

/-- A directory or recovery place on the medium. -/
def placeWf (layer zone : Nat) : Bool := layer < 6 && zone < 64

/-- What a system area holds. -/
def SystemScan.wf (s : SystemScan) : Bool :=
  s.dirs.all (fun x => x.rings.all (fun r => r.owner < 16 && r.zones.all fun z => placeWf z.1 z.2.1) && x.slots.all fun p => p.1 < 16)
    && s.headers.all (fun p => psaWf p.1) && s.free.all fun p => placeWf p.1 p.2.1

/-- The inputs of a power-on reset. -/
def PowerOnInputs.wf (i : PowerOnInputs) : Bool :=
  i.system.wf && i.cartMemory.all fun m => m.length = 128

/-- The scan of a ring. -/
def RecoveryScan.wf (s : RecoveryScan) : Bool :=
  s.headers.all (fun p => psaWf p.1) && s.clusters.all fun c => placeWf c.layer c.zone && c.user.length ≤ 65536

/-- The width of a bus access, in bits (R7). -/
def accessWidth (w : Nat) : Bool := [8, 16, 32, 64].contains w

/-- The command's operands lie in their ranges. -/
def Instr.wf : Instr → Bool
  | .append _ | .readMark _ | .readRange _ | .hold _ | .releaseHold _ | .bootStage _ | .bootActivate _ | .bootRead _ => true
  | .ownerCreate _ | .ownerRetire _ => true
  | .ownerExportKey _ point => point.wf 65
  | .streamOpen _ | .streamClose _ | .identify _ | .getLog _ | .setFeature _ | .getFeature _ | .enterDustSheet _ => true
  | .leaveDustSheet _ _ | .detachRequest _ | .commission _ | .confirm _ | .cartridgeEjectPrep _ => true
  | .runSelftest _ _ _ us => us < 16384
  | .readHeader _ header => header.all fun h => h.length = 32
  | .trigger _ | .doorbellPoll => true
  | .doorbellPollReturn res => res.wf 128
  | .fetchEntry => true
  | .entryFetched res => res.wf 64
  | .postCompletion => true
  | .coalesceTimerExpiry cq => cq < 8
  | .conventionalReset | .linkDown => true
  | .linkUp width speed => (width = 1 || width = 2) && 1 ≤ speed && speed ≤ 3
  | .busMasterEnableChange _ | .setupLock => true
  | .registerWrite _ width offset _ => accessWidth width && offset < 0x20000
  | .rcFieldRead _ width offset => accessWidth width && offset < 0x20000
  | .tickLoRead _ => true
  | .bar0ReadInRetention width offset => accessWidth width && offset < 0x20000
  | .avsWindowEnd => true
  | .boundsChange loop => 1 ≤ loop && loop ≤ 7
  | .excursionReturn loop => 1 ≤ loop && loop ≤ 7
  | .crystalEdgeTimeout | .countWindowEnd _ => true
  | .loopSample n _ => n < 4
  | .loopComputeDone n eighths => n < 4 && eighths < 8
  | .loopOutputInstant n => n < 4
  | .loopOpen _ n | .loopHold _ n | .loopClose _ n | .loopAcquire _ n | .discardShadow _ n => n < 4
  | .acqTimeout n | .holdTimeout n => n < 4
  | .focusLoss => true
  | .coefLiveWrite _ n k _ | .coefShadowWrite _ n k _ => n < 4 && k < 19
  | .seqRun _ _ | .seqKick _ | .seqWatchdogExpiry | .seqHalt => true
  | .move _ | .home _ | .park _ | .stop _ | .gearEngage _ | .gearDisengage _ | .clearFault _ => true
  | .profileReplan | .microstepDue _ _ | .moveComplete | .emergencyRampAtRest | .preDriverFault | .limitSwitchChange _ _ _ => true
  | .homingFailed | .gearArm _ | .gearCancel _ => true
  | .encoderEdge eighths => eighths < 8
  | .sectorSync psa _ flow => psaWf psa && flow.all flowWf
  | .readFifoOverflow flow | .timingLockLost flow => flow.all flowWf
  | .fastDecodeDone psa _ => psaWf psa
  | .deepIterationDone psa inner _ => psaWf psa && 1 ≤ inner && inner ≤ 4
  | .clusterReread _ => true
  | .egressDecryptDone psa _ plain _ => psaWf psa && unitWf plain
  | .writeFifoUnderrun => true
  | .rawResult psa _ _ _ => psaWf psa
  | .inPlaceRetry psa _ => psaWf psa
  | .laserMaxWrite _ _ | .laserOverPower | .laserIlkLow | .laserIlkRestored => true
  | .writeInhibit cause => cause < 10
  | .writeResume | .opcTestStep _ _ | .opcTestStepDone _ _ => true
  | .staticOpc layer band => layer < 6 && band < 4
  | .stratDataAccess _ _ => true
  | .assemblyDelayExpiry owner | .zoneEntry owner | .nextZoneNaming owner => owner < 16
  | .bootDigestCheck _ => true
  | .recoveryPhaseA owner scan => owner < 16 && scan.wf
  | .recoveryPhaseB owner => owner < 16
  | .appendAdmission _ | .rngHealthFail | .commissionTimeout | .ageingTick | .fillAfterWait => true
  | .cacheSramError line _ => line < 72
  | .invalidate _ | .clean _ | .purgeOwner _ | .zeroLine _ | .rangeOpDone => true
  | .tableLineBusyClear k => k < 16
  | .rd cr k | .own cr k | .upg cr k | .none cr k _ | .evicting cr k | .evict cr k | .evictAck cr k => cr.wf && k < 16
  | .data cr k _ recs _ | .evictD cr k recs _ | .cleanD cr k recs _ | .tableXfer cr k recs _ => cr.wf && k < 16 && tableWf recs
  | .credit cr => cr.wf
  | .detach cr leaving => cr.wf && leaving < 2
  | .detachAck cr => cr.wf
  | .modeNote cr _ _ => cr.wf
  | .appBegin cr xid owner mark _ | .catchBegin cr xid owner mark _ => cr.wf && xid < 16 && owner < 16 && markWf mark
  | .appData cr xid _ bytes _ | .recovData cr xid _ bytes _ | .catchData cr xid _ bytes _ => cr.wf && xid < 16 && unitWf bytes
  | .appVerified cr xid mark _ => cr.wf && xid < 16 && markWf mark
  | .appFailed cr xid mark status | .catchFailed cr xid mark status => cr.wf && xid < 16 && markWf mark && status < 2 ^ 16
  | .appAbort cr xid mark => cr.wf && xid < 16 && markWf mark
  | .recovReq cr xid mark unit => cr.wf && xid < 16 && markWf mark && unit < 2 ^ 16
  | .ownerNote cr slot => cr.wf && slot < 16
  | .ownerDone cr slot code => cr.wf && slot < 16 && code < 256
  | .catchDone cr xid mark => cr.wf && xid < 16 && markWf mark
  | .chainReq cr mark => cr.wf && markWf mark
  | .chainVal cr mark _ => cr.wf && markWf mark
  | .pulseSync cr ticks width localMask peerMask => cr.wf && ticks < 2 ^ 32 && width ≤ 10 && localMask < 16 && peerMask < 16
  | .pairPoint cr point => cr.wf && point.length = 65
  | .pairConfirm cr code _ => cr.wf && code < 1000000
  | .pairConfirmAck cr _ => cr.wf
  | .hello cr blk | .helloAck cr blk => cr.wf && blk.wf
  | .keyXfer cr slot r => cr.wf && slot < 16 && r.wf
  | .cartReg cr serials => cr.wf && serials.length ≤ 64
  | .lathLinkError | .aliveToggle | .alivePauseEnd | .lathDown | .lathLive | .directionTake _ | .arbCollision | .guardTimeEnd => true
  | .inPeerPulse _ | .inPeerFaulted | .inPeerHealthy => true
  | .vinWarnAssert | .vinWarnClear | .returnCondition | .pwrwarnInputChange _ _ | .rideThroughWindowExpiry | .sealLevelTrip => true
  | .sealFinishEnd | .sealCheckpointEnd | .sealParkEnd => true
  | .resetLevelTrip inputs => inputs.wf
  | .stackMonitorCycle cells _ _ _ tapMoves => (cells.length = 6 || cells.isEmpty) && tapMoves.length = 7
  | .heartbeatLoss _ | .balanceCommand _ _ | .balanceExpiry | .dischargeTestRequest _ | .dischargeTestDue | .dischargeTestStart => true
  | .dischargeTestDone _ ticks => 0 < ticks
  | .coreMismatch _ _ _ _ | .lockstepSelftest _ _ | .lockstepSelftestFail | .delayRegisterFault _ _ | .warmRestartDone _ _ => true
  | .testPulseWindow out => out < 4
  | .pulseSampleInstant out _ => out < 4
  | .pulsePeriodEnd => true
  | .outputOvercurrent out _ => out < 4
  | .outputRetry out _ => out < 4
  | .faultClr _ _ | .fieldSupplyLow | .fieldSupplyRestored => true
  | .fieldInputChange input _ _ => input < 4
  | .program _ | .eraseSector _ | .eraseBlock _ | .bitClear _ | .suspend _ | .resume _ | .flashOpDone _ => true
  | .flashRead chunk _ => chunk < 262144
  | .suspendReached | .suspendHoldExpiry | .autoSuspendEnd => true
  | .flashScrub sector _ => sector < 2048
  | .flashRefresh sector => sector < 2048
  | .eventLogWrite origin source code detail => origin < 256 && source < 256 && code < 2 ^ 16 && detail.length = 12
  | .eventLogHourEnd => true
  | .sramScrub mem _ _ _ _ _ => mem < 10
  | .poisonConsumed mem _ _ => mem ≤ 10
  | .splitModeOpen _ _ | .splitModeClose _ | .splitModeTimeout | .testWriteData _ | .testWriteCheck _ | .testRead _ => true
  | .zeroWord _ addr => addr.toNat % 8 = 0
  | .icuClaim _ t => t < 2
  | .icuHostClaim _ => true
  | .icuComplete _ t _ => t < 2
  | .maskSet _ w _ | .maskClr _ w _ | .pendSet _ w _ | .pendClr _ w _ => w < 8
  | .thresholdWrite _ t _ => t < 3
  | .srcCfgWrite _ src _ => src < 256
  | .wakeSlotWrite _ i _ => i < 16
  | .wakeDetect src _ => src < 256
  | .retentionEntry | .idleTimerExpiry | .powerStateExitDone => true
  | .powerOnReset inputs => inputs.wf
  | .calibrationSave => true
  | .cartridgeSeated memory system => memory.length = 128 && system.wf
  | .cartridgeRemoved | .fwUpdateStart _ _ => true
  | .fwUpdateDone _ _ inputs => inputs.wf
  | .confirmMark | .heartbeatRestored _ => true
  | .readFifoHighWater flow | .defectBegin flow | .defectEnd flow => flow.all flowWf
  | .dataFieldEnd psa flow => psaWf psa && flow.all flowWf
  | .sectorWriteStart psa _ _ => psaWf psa
  | .payloadReadReturn _ _ _ => true
  | .clusterRefresh _ => true
  | .vinAdcSample _ _ | .junctionTemperatureLimit _ _ | .refclkLoss | .refclkReturn => true
  | .msixTableWrite offset _ => offset < 512 && offset % 4 = 0
  | .laserOverClear _ => true
  | .avsRailSettled | .writeInhibitClear _ => true

end Sys2Proof
end

