-- ==== Sys2Proof/Safety.lean ====
section
/-!
DEFINITION. The terms that claims about the FX880 use: a command that completes with an effect of its own, what a change leaves as it
was (block by block, and stored register by stored register), and the invariants of the state.
-/

namespace Sys2Proof.Machine

/-- The parts of the device's state, one for each field of `Device` but the stored register words. -/
inductive Block where
  | pacing | avs | exc | servo | motion | rdc | wrc | rcl | cry | cch | lath | hif | icu | pwr | lsk | fio | fls | evt | ecc | nv
  | gen | bus | draws
  deriving DecidableEq, Repr

/-- Part `b` is the same in `e` as in `d`. -/
def Block.kept (b : Block) (d e : Device) : Prop :=
  match b with
  | .pacing => e.pacing = d.pacing
  | .avs => e.avs = d.avs
  | .exc => e.exc = d.exc
  | .servo => e.servo = d.servo
  | .motion => e.motion = d.motion
  | .rdc => e.rdc = d.rdc
  | .wrc => e.wrc = d.wrc
  | .rcl => e.rcl = d.rcl
  | .cry => e.cry = d.cry
  | .cch => e.cch = d.cch
  | .lath => e.lath = d.lath
  | .hif => e.hif = d.hif
  | .icu => e.icu = d.icu
  | .pwr => e.pwr = d.pwr
  | .lsk => e.lsk = d.lsk
  | .fio => e.fio = d.fio
  | .fls => e.fls = d.fls
  | .evt => e.evt = d.evt
  | .ecc => e.ecc = d.ecc
  | .nv => e.nv = d.nv
  | .gen => e.gen = d.gen
  | .bus => e.bus = d.bus
  | .draws => e.draws = d.draws

/-- Nothing changed from `d` to `e` but the parts `bs`; of the stored register words nothing but those at the offsets `os`. -/
def OnlyIn (bs : List Block) (os : List Nat) (d e : Device) : Prop :=
  (∀ b, b ∉ bs → b.kept d e) ∧ ∀ o, o ∉ os → e.reg o = d.reg o

/-- Nothing changed from `d` to `e` but the parts `bs` and stored register words. -/
def OnlyParts (bs : List Block) (d e : Device) : Prop := ∀ b, b ∉ bs → b.kept d e

/-- The command `c` completes in the state `s`: it answers a next state, the waiting commands are as they were, and the device it leaves
satisfies `P`. -/
def Completes (c : Instr) (s : State) (P : Device → Prop) : Prop :=
  ∃ t, exec c s = .next t ∧ t.pending = s.pending ∧ P t.dev

/-- The parts that raising an interrupt source may change beside the register ICU.MASK_LATE_COUNT (0x4540): the interrupt controller, and the
bus, where a message may leave. -/
def interruptParts : List Block := [.icu, .bus]

/-- Interrupt source `n` has been detected: it is pending, or latched for the end of retention (R349, R364). -/
def Raised (n : Nat) (d : Device) : Prop := (d.src n).pending = true ∨ (n, none) ∈ d.icu.latched

/-- Nothing waits for a table line or for the range engine: no change of a stream record, no record group, no owner operation, no range
operation, no deferred answer. -/
def NothingWaits (d : Device) : Prop :=
  d.rcl.tasks = [] ∧ d.rcl.groups = [] ∧ d.cry.ops = [] ∧ d.cch.range = none ∧ d.cch.deferred = []

/-- Every cluster on the ladder waits for something of its own, and the Deep path is busy or has nothing to do: no read goes on by itself
(R124, R127). -/
def LadderRests (d : Device) : Prop :=
  (∀ c ∈ d.rdc.clusters, c.reading = true → stepGoesOn d c = true) ∧ (d.rdc.deepRun ≠ none ∨ d.rdc.deepQueue = [])

/-! ### A host command as its row runs it -/

/-- The command number `tag` is `c`: dispatched, its completion wanted, and no read of the medium under way for it. -/
def Dispatched (d : Device) (tag : Nat) (c : Cmd) : Prop :=
  d.cmd tag = some c ∧ c.phase = .dispatched ∧ c.discard = false ∧ ∀ x ∈ d.rdc.clusters, readsFor tag x.purpose = false

/-- The command waits for nothing, and the table line that it names is at hand, in the device `e`; the mode takes the command, or it has
started (R246, R307, R327, R335). -/
def AtHand (c : Cmd) (d e : Device) : Prop :=
  mustWait d c = false ∧ (c.started = true ∨ modeAccepts d c.entry = true) ∧ lineFor c d = (true, e)

/-- The command passes its checks and runs, on the device `e` (R328, R343, R374). -/
def Cleared (c : Cmd) (d e : Device) : Prop :=
  AtHand c d e ∧ laterStatus e c = none ∧ (needsMedium c = true → mediumGone e = false ∧ mediumAt e c = true)

/-- The command `c` has completed with a status and a RESULT: its completion is the last of those ready in `d`, after those ready in
`e`. -/
def Answered (c : Cmd) (st result : Nat) (e d : Device) : Prop :=
  d.hif.ready = e.hif.ready ++ [completionOf c st result false 0]

/-- The bytes have gone to the command's buffer in host memory, from data offset 0 on (R296). -/
def Delivered (c : Cmd) (bytes : List Byte) (e d : Device) : Prop :=
  d.bus.out = (scatterWrites c.sgl 0 bytes).reverse ++ e.bus.out

/-! ### Rules over every command -/

/-- The stored register words are in their canonical form (strictly rising offsets, no word that equals its reset word). -/
def RegistersCanonical (s : State) : Prop := swf regReset s.dev.regs = true

/-- So are the interrupt sources. -/
def SourcesCanonical (s : State) : Prop := swf srcDefault s.dev.icu.srcs = true

/-- A power-on reset, a trip at the reset level, or the end of a firmware update that asked for a restart: the FX880 starts anew (R32, R373,
R472). -/
def startsAnew (c : Instr) (d : Device) : Bool :=
  match c with
  | .powerOnReset _ => true
  | .resetLevelTrip _ => true
  | .fwUpdateDone image verified _ => d.gen.fwState = 1 && updateErr image verified d = 0 && d.gen.fwRestart
  | _ => false

/-- Registers that the FX880 itself changes beside the writes to them: the spindle's target, as Primer takes 3,600 rpm (Table 15-3); the
gear ratio and the change armed at a jump (R105, R106); the powers that static OPC sets (R148) and OPC_POS (R161); STRAT_ADDR (R146); and
the state of the replacement LFSR (R237). -/
def selfChanged (o : Nat) : Bool :=
  o = 0x8508 || o = 0x9030 || o = 0x9034 || o = 0x9038 || (0xB040 ≤ o && o < 0xB0B8) || o = 0xB0C8 || o = 0xB02C || o = 0xC004

/-- A LEAVE_DUST_SHEET that makes the first calibration, which sets the registers that a calibration record holds (R467). -/
def firstCalibrates (c : Instr) (d : Device) : Bool :=
  match c with
  | .leaveDustSheet _ _ => d.nv.calibration.isNone
  | _ => false

/-- A register that holds what is written to it, and nothing else (R8, R10). -/
def configuration (o : Nat) : Bool := isStored o && !selfChanged o

/-- Every waiting command is well formed. -/
def QueueWellFormed (s : State) : Prop := ∀ c ∈ s.pending, c.wf = true

end Sys2Proof.Machine
end

