-- ==== Sys2Proof/Certificates/Slice0/Obligations.lean ====
section
/-!
DEFINITION. The statements for the provers: what the commands of the FX880 do, block by block, and what every step keeps. `Completes c s P` says
that the command `c` answers a next state in `s`, that the commands waiting stay as they were, and that `P` holds of the device it leaves;
`OnlyIn` names all that may have changed.
-/

open Sys2Proof Sys2Proof.Machine

/-- The supply scaling at a window's end, the bounds of adaptive values, and the pacing fault. Table 02-4 (R37), 1,000 ticks after the
window began, outside the hold of R41 and off an excursion: the code rises by 10 after a servo fault, else by 1 for slack below
SLACK_LO, else by 1 for a read FIFO at 96 entries, and never above 60 (R38); with none of these a sixteenth window above SLACK_HI lowers
it by 1 while it lies above its lower bound. WINDOW_SLACK takes the window's lowest slack and keeps its value without one. The return
from excursions and changes of bounds (R48, R50), and the settling of the rail (R38, R428). The pacing fault (R56): no edge for 1 µs, or
a count window more than 1 % from 25,000 periods. Where the model chooses, log entries 1, 36 and 79 say how. -/
def Obligations.AvsAndPacingFollowTheirBounds : Prop :=
  (∀ s : State, s.dev.avs.windowStart + 1000 ≤ s.dev.now → avsHeld s.dev = false → onExcursion s.dev 1 = false →
      Completes .avsWindowEnd s fun d =>
        (s.dev.avs.servoFault = true → d.avs.code = min 60 (s.dev.avs.code + 10)) ∧
        (∀ v, s.dev.avs.servoFault = false → s.dev.avs.low = some v → v < slackLo s.dev →
          d.avs.code = min 60 (s.dev.avs.code + 1)) ∧
        (s.dev.avs.servoFault = false → (∀ v, s.dev.avs.low = some v → slackLo s.dev ≤ v) → s.dev.avs.fifoHigh = true →
          d.avs.code = min 60 (s.dev.avs.code + 1)) ∧
        (∀ v, s.dev.avs.servoFault = false → s.dev.avs.low = some v → slackLo s.dev ≤ v → slackHi s.dev < v →
          s.dev.avs.fifoHigh = false → 15 ≤ s.dev.avs.runAbove → (avsBounds s.dev).1 < s.dev.avs.code →
          d.avs.code = s.dev.avs.code - 1) ∧
        (s.dev.avs.servoFault = false → s.dev.avs.low = none → s.dev.avs.fifoHigh = false → d.avs.code = s.dev.avs.code) ∧
        (∀ v, s.dev.avs.low = some v → d.avs.windowSlack = v) ∧
        (s.dev.avs.low = none → d.avs.windowSlack = s.dev.avs.windowSlack) ∧
        d.avs.low = none ∧ d.avs.servoFault = false ∧ d.avs.fifoHigh = false ∧ d.avs.windowStart = s.dev.avs.windowStart + 1000 ∧
        OnlyParts ([.avs, .exc, .hif, .rcl] ++ interruptParts) s.dev d) ∧
  ((∀ s : State, avsHeld s.dev = false → onExcursion s.dev 1 = false → (avsBounds s.dev).1 ≤ (avsBounds s.dev).2 →
      Completes (.boundsChange 1) s fun d =>
        d.avs.code = max (avsBounds s.dev).1 (min (avsBounds s.dev).2 s.dev.avs.code) ∧ OnlyIn [.avs] [] s.dev d) ∧
    (∀ s : State, onExcursion s.dev 7 = false → (trimBounds s.dev).1 ≤ (trimBounds s.dev).2 →
      Completes (.boundsChange 7) s fun d =>
        d.motion.trim = clampInt (trimBounds s.dev).1 (trimBounds s.dev).2 s.dev.motion.trim ∧
        d.motion.trimDue - s.dev.motion.trimDue = d.motion.trim - s.dev.motion.trim ∧ OnlyIn [.motion] [] s.dev d) ∧
    (∀ s : State, onExcursion s.dev 5 = false → s.dev.hif.lockOk = true → (pollBounds s.dev).1 ≤ (pollBounds s.dev).2 →
      Completes (.boundsChange 5) s fun d =>
        (pollBounds s.dev).1 ≤ d.hif.interval ∧ d.hif.interval ≤ (pollBounds s.dev).2 ∧ OnlyIn [.hif] [] s.dev d) ∧
    (∀ (s : State) (loop : Nat), 2 ≤ loop → loop ≤ 7 → onExcursion s.dev loop = true → excSafe s.dev loop = true →
      Completes (.excursionReturn loop) s fun d =>
        (∀ i, 1 ≤ i → i ≤ 4 → onExcursionFor d loop i = false) ∧ d.pacing = s.dev.pacing) ∧
    (∀ (s : State) (t : Nat), s.dev.avs.settleAt = some t → t ≤ s.dev.now →
      Completes .avsRailSettled s fun d =>
        d.avs.settleAt = none ∧ d.avs.oldBand = avsBand s.dev.avs.code ∧ d.avs.code = s.dev.avs.code ∧
        OnlyIn [.avs] [] s.dev d)) ∧
  ((∀ s : State, s.dev.pacing.fault = false →
      Completes .crystalEdgeTimeout s fun d =>
        d.pacing = { s.dev.pacing with fault := true, backup := true } ∧ d.fls = s.dev.fls ∧ d.nv = s.dev.nv) ∧
    (∀ (s : State) (n : Nat), s.dev.pacing.fault = false → (n < 24750 ∨ 25250 < n) →
      Completes (.countWindowEnd n) s fun d =>
        d.pacing = { s.dev.pacing with fault := true, backup := true } ∧ d.fls = s.dev.fls ∧ d.nv = s.dev.nv) ∧
    (∀ (s : State) (n : Nat), 24750 ≤ n → n ≤ 25250 → Completes (.countWindowEnd n) s fun d => d = s.dev) ∧
    (∀ s : State, Completes .refclkReturn s fun d => d.pacing.refclk = true ∧ d.pacing.now = s.dev.pacing.now ∧
      OnlyIn [.pacing] [] s.dev d))

/-- A read of GEN.TICK_LO answers the counter's lower half and latches its upper half for the reader; a read of GEN.TICK_HI then answers
that half, whatever the other readers do (R34, R481). -/
def Obligations.TickLoLatchesTheUpperHalf : Prop :=
  (∀ (s : State) (who : Requester), masterUp who s.dev = true →
    Completes (.tickLoRead who) s fun d =>
      d.bus.readData = s.dev.pacing.now.setWidth 32 ∧
      (match who with
       | .host => d.pacing = { s.dev.pacing with hiHost := (s.dev.pacing.now >>> 32).setWidth 32 }
       | .seq => d.pacing = { s.dev.pacing with hiSeq := (s.dev.pacing.now >>> 32).setWidth 32 }
       | .mgmt => d.pacing = { s.dev.pacing with hiMgmt := (s.dev.pacing.now >>> 32).setWidth 32 }) ∧
      d.bus.out = s.dev.bus.out ∧ d.bus.pba = s.dev.bus.pba ∧ OnlyIn [.pacing, .bus] [] s.dev d) ∧
  (∀ (s : State) (who : Requester), masterUp who s.dev = true →
    Completes (.rcFieldRead who 32 0x44) s fun d =>
      d.bus.readData = (match who with
        | .host => s.dev.pacing.hiHost
        | .seq => s.dev.pacing.hiSeq
        | .mgmt => s.dev.pacing.hiMgmt) ∧
      d.bus.out = s.dev.bus.out ∧ d.bus.pba = s.dev.bus.pba ∧ OnlyIn [.bus] [] s.dev d)

/-- Loop commands and the ends of loop states by time or loss. A command written to LOOP_CTRL by the sequencer or the management pair waits
for the next sampling instant, in place of an earlier one; DISCARD_SHADOW acts at once and leaves the live set as it is (R66, R70, R83).
The ends of ACQUIRE, HOLD and CLOSED that time or the sum signal brings (Table 03-4, R66, R68, R76). Where the model chooses, log
entries 37 and 83 say how. -/
def Obligations.LoopsAwaitCommandsAndLeaveInTime : Prop :=
  (∀ (s : State) (who : Requester) (n : Nat), who ≠ .host → masterUp who s.dev = true → n < 4 →
      (Completes (.loopOpen who n) s fun d =>
        d.loop n = { s.dev.loop n with cmd := some (.open, s.dev.now) } ∧ (∀ m, m ≠ n → d.loop m = s.dev.loop m) ∧
        OnlyIn [.servo] [] s.dev d) ∧
      (Completes (.loopHold who n) s fun d =>
        d.loop n = { s.dev.loop n with cmd := some (.hold, s.dev.now) } ∧ (∀ m, m ≠ n → d.loop m = s.dev.loop m) ∧
        OnlyIn [.servo] [] s.dev d) ∧
      (Completes (.loopClose who n) s fun d =>
        d.loop n = { s.dev.loop n with cmd := some (.close, s.dev.now) } ∧ (∀ m, m ≠ n → d.loop m = s.dev.loop m) ∧
        OnlyIn [.servo] [] s.dev d) ∧
      (Completes (.loopAcquire who n) s fun d =>
        d.loop n = { s.dev.loop n with cmd := some (.acquire, s.dev.now) } ∧ (∀ m, m ≠ n → d.loop m = s.dev.loop m) ∧
        OnlyIn [.servo] [] s.dev d) ∧
      (Completes (.discardShadow who n) s fun d =>
        d.loop n = { s.dev.loop n with shadowValid := false } ∧ (∀ m, m ≠ n → d.loop m = s.dev.loop m) ∧
        OnlyIn [.servo] [] s.dev d)) ∧
  ((∀ (s : State) (n : Nat), n < 4 → acqExpired s.dev n = true → (n = 0 → s.dev.servo.targetLayer = none) →
      Completes (.acqTimeout n) s fun d =>
        (d.loop n).st = .openZero ∧ (∀ m, m ≠ n → (d.loop m).st = (s.dev.loop m).st) ∧ Raised 46 d) ∧
    (∀ (s : State) (n : Nat), n < 4 → sampleInstant s.dev n = true → holdExpired s.dev n = true →
      Completes (.holdTimeout n) s fun d =>
        (d.loop n).st = .closed ∧ (d.loop n).holdTimeout = true ∧ (d.loop n).shadowValid = false ∧
        (∀ k, k < 19 → d.reg (0x8000 + 0x200 * n + 4 * k) = (s.dev.loop n).snapshot.getD k 0) ∧ Raised (37 + n) d) ∧
    (∀ s : State, lossDue s.dev = true →
      Completes .focusLoss s fun d =>
        (d.loop 0).st = .openZero ∧ (d.loop 0).focusLost = true ∧ d.servo.lossInhibit = true ∧ Raised 49 d))

/-- Coefficient writes (R69, R70, R79): a live set is written at once unless its loop is CLOSED, a shadow set in every state; in Primer both
are rejected, and a rejected write changes no coefficient. -/
def Obligations.CoefficientWritesFollowTheLoopState : Prop :=
  ∀ (s : State) (who : Requester) (n k : Nat) (v : Word32), (who = .host → s.dev.hif.lock = false) → masterUp who s.dev = true → n < 4 →
    k < 19 →
    (s.dev.gen.mode ≠ .primer → (s.dev.loop n).st ≠ .closed →
      Completes (.coefLiveWrite who n k v) s fun d =>
        d.reg (0x8000 + 0x200 * n + 4 * k) = v &&& 0x00FFFFFF ∧ OnlyIn [] [0x8000 + 0x200 * n + 4 * k] s.dev d) ∧
    (s.dev.gen.mode ≠ .primer →
      Completes (.coefShadowWrite who n k v) s fun d =>
        d.reg (0x8080 + 0x200 * n + 4 * k) = v &&& 0x00FFFFFF ∧ (d.loop n).shadowValid = true ∧
        OnlyIn [.servo] [0x8080 + 0x200 * n + 4 * k] s.dev d) ∧
    (s.dev.gen.mode = .primer ∨ (s.dev.loop n).st = .closed →
      Completes (.coefLiveWrite who n k v) s fun d =>
        d.regF (0x8118 + 0x200 * n) 15 8 = min 255 (s.dev.regF (0x8118 + 0x200 * n) 15 8 + 1) ∧ Raised 41 d ∧ OnlyIn interruptParts [0x8118 + 0x200 * n, 0x4540] s.dev d) ∧
    (s.dev.gen.mode = .primer →
      Completes (.coefShadowWrite who n k v) s fun d =>
        d.regF (0x8118 + 0x200 * n) 15 8 = min 255 (s.dev.regF (0x8118 + 0x200 * n) 15 8 + 1) ∧ Raised 41 d ∧ OnlyIn interruptParts [0x8118 + 0x200 * n, 0x4540] s.dev d)

/-- The sequencer is started and stopped by RUN, kept alive by KICK within 250,000 ticks, and stopped by EBREAK or a trap (R74, R81). -/
def Obligations.SequencerRunsUnderItsWatchdog : Prop :=
  (∀ (s : State) (who : Requester), (who = .host → s.dev.hif.lock = false) → masterUp who s.dev = true → s.dev.servo.seqRun = false →
    Completes (.seqRun who true) s fun d =>
      d.servo.seqRun = true ∧ d.servo.seqHalted = false ∧ d.servo.seqKick = s.dev.now ∧
      d.servo.seqPrimer = decide (s.dev.gen.mode = .primer) ∧ d.servo.loops = s.dev.servo.loops ∧ OnlyIn [.servo] [] s.dev d) ∧
  (∀ (s : State) (who : Requester), (who = .host → s.dev.hif.lock = false) → masterUp who s.dev = true → s.dev.servo.seqRun = true →
    Completes (.seqRun who false) s fun d =>
      d.servo.seqRun = false ∧ d.servo.loops = s.dev.servo.loops ∧ OnlyIn (.servo :: interruptParts) [0x4540] s.dev d) ∧
  (∀ (s : State) (who : Requester), who ≠ .host → masterUp who s.dev = true →
    Completes (.seqKick who) s fun d =>
      d.servo = { s.dev.servo with seqKick := s.dev.now } ∧ OnlyIn [.servo] [] s.dev d) ∧
  (∀ s : State, s.dev.servo.seqRun = true →
    Completes .seqHalt s fun d =>
      d.servo.seqHalted = true ∧ Raised 48 d ∧ OnlyIn (.servo :: interruptParts) [0x4540] s.dev d) ∧
  (∀ s : State, s.dev.servo.seqRun = true → s.dev.servo.seqKick + 250000 ≤ s.dev.now → s.dev.gen.mode ≠ .primer →
    Completes .seqWatchdogExpiry s fun d =>
      d.servo.seqRun = false ∧ d.servo.seqExpired = true ∧
      ∀ n, n < 4 → (d.loop n).st = if (s.dev.loop n).st = .closed then .closed else .openZero)

/-- The sampling instant, the computation and the output instant of a loop (R35, R36, R58, R59, R64, R66, R71, R72): a command accepted at
least a tick before takes effect, and a CLOSED loop's sample waits for the engine with the live set as it stands; the engine's result
waits for its output instant, where it is applied, and where none is ready is a miss. Where the model chooses, log entries 11, 36 and 83
say how. -/
def Obligations.LoopsSampleComputeAndOutput : Prop :=
  (∀ (s : State) (n : Nat) (x : ServoSample) (t : Nat), n < 4 → sampleInstant s.dev n = true → (s.dev.loop n).st = .openZero →
      (s.dev.loop n).cmd = some (.close, t) → t + 1 ≤ s.dev.now → s.dev.servo.script = none →
    Completes (.loopSample n x) s fun d =>
      (d.loop n).st = .closed ∧ (d.loop n).cmd = none ∧ (d.loop n).due = some s.dev.now ∧ (d.loop n).sampledAt = some s.dev.now ∧
      (d.loop n).jobs = [{ err := toQ (loopError s.dev n x), aCmd := x.aCmd, vMeas := x.vMeas, t0 := s.dev.now, late := false, cleared := false, coefs := (List.range 19).map fun k => d.reg (0x8000 + 0x200 * n + 4 * k) }] ∧
      (d.loop n).shadowValid = false ∧
      ((s.dev.loop n).shadowValid = true →
        ∀ k, k < 19 → d.reg (0x8000 + 0x200 * n + 4 * k) = s.dev.reg (0x8080 + 0x200 * n + 4 * k))) ∧
  (∀ (s : State) (n eighths : Nat) (j : ServoJob), n < 4 → eighths < 8 →
      s.dev.servo.engine = some (n, j) → j.late = false → j.cleared = false →
    Completes (.loopComputeDone n eighths) s fun d =>
      (d.loop n).ready = some { y := toQ (computeLoop n j (s.dev.loop n)).2.1, sat := (computeLoop n j (s.dev.loop n)).2.2, slack := ((j.t0 + loopDeadline n) * 8 : Nat) - (s.dev.now * 8 + eighths : Nat) } ∧
      ((List.range 4).all (fun m => (s.dev.loop m).jobs.isEmpty) = true → d.servo.engine = none) ∧
      (∀ m, m ≠ n → (d.loop m).output = (s.dev.loop m).output ∧ (d.loop m).ready = (s.dev.loop m).ready) ∧
      OnlyIn [.servo] [] s.dev d) ∧
  (∀ (s : State) (n : Nat) (y : ReadyOutput) (t : Nat), n < 3 → n ≠ 0 → outputTick s.dev n = true → (s.dev.loop n).st = .closed →
      (s.dev.loop n).due = some t → (s.dev.loop n).ready = some y → 0 ≤ y.slack →
    Completes (.loopOutputInstant n) s fun d =>
      (d.loop n).output = y.y ∧ (d.loop n).outSat = y.sat ∧ (d.loop n).ready = none ∧ (d.loop n).due = none ∧
      OnlyIn [.servo, .avs] [] s.dev d) ∧
  (∀ (s : State) (n t : Nat), n < 3 → n ≠ 0 → outputTick s.dev n = true → (s.dev.loop n).st = .closed →
      (s.dev.loop n).due = some t → (s.dev.loop n).ready = none →
    Completes (.loopOutputInstant n) s fun d =>
      (d.loop n).output = (s.dev.loop n).output ∧ (d.loop n).due = none ∧
      d.servo.engine = s.dev.servo.engine.map (fun p => if p.1 = n ∧ p.2.t0 = t then (p.1, { p.2 with late := true }) else p) ∧
      d.regF (0x8118 + 0x200 * n) 31 16 = min 65535 (s.dev.regF (0x8118 + 0x200 * n) 31 16 + 1) ∧ Raised (32 + n) d ∧
      OnlyIn ([.servo, .avs] ++ interruptParts) [0x8118 + 0x200 * n, 0x4540] s.dev d) ∧
  (∀ (s : State) (y : ReadyOutput) (t : Nat), outputTick s.dev 0 = true → (s.dev.loop 0).st = .closed →
      (s.dev.loop 0).due = some t → (s.dev.loop 0).ready = some y → 0 ≤ y.slack →
    Completes (.loopOutputInstant 0) s fun d =>
      (d.loop 0).output = y.y ∧ d.servo.onTimeRun = min 255 (s.dev.servo.onTimeRun + 1) ∧ d.servo.focusMissed = false ∧
      (100 ≤ s.dev.servo.onTimeRun + 1 → d.servo.faultInhibit = false)) ∧
  (∀ (s : State) (t : Nat), outputTick s.dev 0 = true → (s.dev.loop 0).st = .closed →
      (s.dev.loop 0).due = some t → (s.dev.loop 0).ready = none →
    Completes (.loopOutputInstant 0) s fun d =>
      (d.loop 0).output = (s.dev.loop 0).output ∧ d.servo.onTimeRun = 0 ∧ Raised 32 d ∧
      (s.dev.servo.focusMissed = false → d.servo.focusMissed = true ∧ d.servo.servoFault = s.dev.servo.servoFault) ∧
      (s.dev.servo.focusMissed = true → d.servo.servoFault = true ∧ d.servo.faultInhibit = true ∧ d.avs.servoFault = true ∧
        Raised 36 d))

/-- Motion commands in and out of the states that take them. Motion commands accepted where Table 04-3 accepts them. A command in a state
that Table 04-3 does not give it is ignored, counted, and raises source 78 (R91). Where the model chooses, log entries 38, 39, 82 and 85
say how. -/
def Obligations.MotionCommandsFollowTheirStates : Prop :=
  ((∀ (s : State) (who : Requester), who ≠ .host → masterUp who s.dev = true → s.dev.motion.st = .idle → s.dev.motion.needHome = false →
        (softLimits s.dev).1 ≤ (s.dev.reg 0x900C).toInt → (s.dev.reg 0x900C).toInt ≤ (softLimits s.dev).2 →
      Completes (.move who) s fun d =>
        d.motion.st = .moving ∧ d.motion.goal = (s.dev.reg 0x900C).toInt ∧ d.motion.pos = s.dev.motion.pos ∧
        d.motion.current = .run ∧ d.motion.plan = some (planTo (s.dev.reg 0x900C).toInt s.dev) ∧ d.motion.atPark = false) ∧
    (∀ (s : State) (who : Requester), who ≠ .host → masterUp who s.dev = true → (s.dev.motion.st = .unhomed ∨ s.dev.motion.st = .idle) →
      Completes (.home who) s fun d =>
        d.motion.st = .homing ∧ d.motion.current = .run ∧ d.motion.posValid = false ∧ d.motion.pos = s.dev.motion.pos ∧
        d.motion.phaseHome = (if homeSw s.dev = true then .backOff else .inward)) ∧
    (∀ (s : State) (who : Requester), who ≠ .host → masterUp who s.dev = true →
        (s.dev.motion.st = .moving ∨ s.dev.motion.st = .geared ∨ (s.dev.motion.st = .idle ∧ s.dev.motion.needHome = false)) →
      Completes (.park who) s fun d =>
        d.motion.st = .moving ∧ d.motion.parking = true ∧ d.motion.goal = parkPos s.dev ∧ d.motion.plan = some (planTo (parkPos s.dev) s.dev) ∧
        d.motion.pos = s.dev.motion.pos) ∧
    (∀ (s : State) (who : Requester), who ≠ .host → masterUp who s.dev = true → (s.dev.motion.st = .moving ∨ s.dev.motion.st = .geared) →
      Completes (.stop who) s fun d =>
        d.motion.st = .emergency ∧ d.motion.ramping = true ∧ d.motion.afterRamp = .idle ∧ d.motion.stopCause = 1 ∧
        d.motion.armed = false ∧ d.motion.plan = some (planRamp s.dev) ∧ d.motion.pos = s.dev.motion.pos) ∧
    (∀ (s : State) (who : Requester), who ≠ .host → masterUp who s.dev = true → s.dev.motion.st = .fault →
      Completes (.clearFault who) s fun d =>
        d.motion = { s.dev.motion with st := .unhomed })) ∧
  (∀ (s : State) (who : Requester), who ≠ .host → masterUp who s.dev = true →
      (s.dev.motion.st ∉ [MotionState.idle, .moving, .geared] →
        Completes (.move who) s fun d => Raised 78 d ∧ d.regF 0x9050 15 8 = min 255 (s.dev.regF 0x9050 15 8 + 1) ∧
          OnlyIn interruptParts [0x9050, 0x4540] s.dev d) ∧
      (s.dev.motion.st ∉ [MotionState.unhomed, .idle] →
        Completes (.home who) s fun d => Raised 78 d ∧ d.regF 0x9050 15 8 = min 255 (s.dev.regF 0x9050 15 8 + 1) ∧
          OnlyIn interruptParts [0x9050, 0x4540] s.dev d) ∧
      (s.dev.motion.st = .fault →
        Completes (.park who) s fun d => Raised 78 d ∧ d.regF 0x9050 15 8 = min 255 (s.dev.regF 0x9050 15 8 + 1) ∧
          OnlyIn interruptParts [0x9050, 0x4540] s.dev d) ∧
      (s.dev.motion.st ∉ [MotionState.moving, .homing, .geared] →
        Completes (.stop who) s fun d => Raised 78 d ∧ d.regF 0x9050 15 8 = min 255 (s.dev.regF 0x9050 15 8 + 1) ∧
          OnlyIn interruptParts [0x9050, 0x4540] s.dev d) ∧
      ((s.dev.motion.st ≠ .idle ∨ (s.dev.loop 2).st ≠ .closed) →
        Completes (.gearEngage who) s fun d => Raised 78 d ∧ d.regF 0x9050 15 8 = min 255 (s.dev.regF 0x9050 15 8 + 1) ∧
          OnlyIn interruptParts [0x9050, 0x4540] s.dev d) ∧
      (s.dev.motion.st ≠ .geared →
        Completes (.gearDisengage who) s fun d => Raised 78 d ∧ d.regF 0x9050 15 8 = min 255 (s.dev.regF 0x9050 15 8 + 1) ∧
          OnlyIn interruptParts [0x9050, 0x4540] s.dev d) ∧
      (s.dev.motion.st ≠ .fault →
        Completes (.clearFault who) s fun d => Raised 78 d ∧ d.regF 0x9050 15 8 = min 255 (s.dev.regF 0x9050 15 8 + 1) ∧
          OnlyIn interruptParts [0x9050, 0x4540] s.dev d))

/-- Gearing engages and disengages, a ratio change is armed and cancelled, and each encoder edge advances the geared target (R91, R104,
R105). Where the model chooses, log entries 82 and 85 say how. -/
def Obligations.GearingFollowsTheEncoder : Prop :=
  (∀ (s : State) (who : Requester), who ≠ .host → masterUp who s.dev = true → s.dev.motion.st = .idle → (s.dev.loop 2).st = .closed →
      s.dev.motion.needHome = false →
    Completes (.gearEngage who) s fun d =>
      d.motion.engaging = true ∧ d.motion.base = s.dev.motion.pos ∧ d.motion.acc = 0 ∧ d.motion.pos = s.dev.motion.pos) ∧
  (∀ (s : State) (who : Requester), who ≠ .host → masterUp who s.dev = true → s.dev.motion.st = .geared →
    Completes (.gearDisengage who) s fun d =>
      d.motion.st = .idle ∧ d.motion.armed = false ∧ d.motion.pos = s.dev.motion.pos) ∧
  (∀ (s : State) (who : Requester), who ≠ .host → masterUp who s.dev = true → 0 < (s.dev.reg 0x9038 - s.dev.motion.masterPos).toInt →
    Completes (.gearArm who) s fun d =>
      d.motion = { s.dev.motion with armed := true, armedLate := false, armedNext := s.dev.reg 0x9034, armedTrigger := s.dev.reg 0x9038 } ∧ OnlyIn [.motion] [] s.dev d) ∧
  (∀ (s : State) (who : Requester), who ≠ .host → masterUp who s.dev = true → (s.dev.reg 0x9038 - s.dev.motion.masterPos).toInt ≤ 0 →
    Completes (.gearArm who) s fun d =>
      d.motion = { s.dev.motion with armed := true, armedLate := true, late := true, armedNext := s.dev.reg 0x9034, armedTrigger := s.dev.reg 0x9038 } ∧ Raised 72 d ∧
      OnlyIn (.motion :: interruptParts) [0x4540] s.dev d) ∧
  (∀ (s : State) (who : Requester), who ≠ .host → masterUp who s.dev = true →
    Completes (.gearCancel who) s fun d =>
      d.motion = { s.dev.motion with armed := false, armedLate := false } ∧ OnlyIn [.motion] [] s.dev d) ∧
  (∀ (s : State) (eighths : Nat), eighths < 8 → (∀ p, s.dev.servo.edgeAt = some p → p < 8 * s.dev.now + eighths) →
      s.dev.motion.st ≠ .geared → s.dev.motion.engaging = false →
    Completes (.encoderEdge eighths) s fun d =>
      d.motion.masterPos = s.dev.motion.masterPos + 1 ∧ d.motion.pos = s.dev.motion.pos ∧ d.motion.acc = s.dev.motion.acc ∧
      d.servo.edgeAt = some (8 * s.dev.now + eighths) ∧ d.gen.edges = s.dev.gen.edges + 1) ∧
  (∀ (s : State) (eighths : Nat), eighths < 8 → (∀ p, s.dev.servo.edgeAt = some p → p < 8 * s.dev.now + eighths) →
      s.dev.motion.st = .geared → s.dev.motion.armed = true → s.dev.motion.armedLate = false →
      s.dev.motion.masterPos + 1 = s.dev.motion.armedTrigger →
    Completes (.encoderEdge eighths) s fun d =>
      d.motion.masterPos = s.dev.motion.masterPos + 1 ∧ d.reg 0x9030 = s.dev.motion.armedNext ∧ d.motion.armed = false ∧
      d.motion.acc = s.dev.motion.acc + s.dev.motion.armedNext.toInt ∧ Raised 71 d) ∧
  (∀ (s : State) (eighths : Nat), eighths < 8 → s.dev.servo.edgeAt = none → s.dev.servo.edgeInterval = none →
      s.dev.motion.st = .geared → s.dev.motion.armed = false → s.dev.motion.armedLate = false → s.dev.motion.clamped = false →
    Completes (.encoderEdge eighths) s fun d =>
      d.motion.acc = s.dev.motion.acc + (s.dev.reg 0x9030).toInt ∧ d.motion.pos = s.dev.motion.pos ∧
      (d.motion.clamped = false → d.motion.st = .geared ∧ d.motion.gearDue = s.dev.motion.gearDue +
        ((s.dev.motion.acc + (s.dev.reg 0x9030).toInt).fdiv 16777216 - s.dev.motion.acc.fdiv 16777216)))

/-- Profiled motion (R87, R93 to R95, R101): a due microstep moves POS by one, and a move is complete when POS has reached its goal. Where
the model chooses, log entries 38 and 82 say how. -/
def Obligations.MovesAdvanceByMicrosteps : Prop :=
  (∀ s : State, s.dev.motion.st = .moving → planDue s.dev.now s.dev.motion true = true →
    Completes (.microstepDue .profile true) s fun d =>
      d.motion = { s.dev.motion with pos := s.dev.motion.pos + 1, phase := (s.dev.motion.phase + 1) % 256, stepAt := some s.dev.now, atPark := false } ∧
      OnlyIn [.motion] [] s.dev d) ∧
  (∀ s : State, s.dev.motion.st = .moving → planDue s.dev.now s.dev.motion false = true →
    Completes (.microstepDue .profile false) s fun d =>
      d.motion = { s.dev.motion with pos := s.dev.motion.pos - 1, phase := (s.dev.motion.phase + 255) % 256, stepAt := some s.dev.now, atPark := false } ∧
      OnlyIn [.motion] [] s.dev d) ∧
  (∀ s : State, s.dev.motion.st = .geared → 0 < s.dev.motion.gearDue → s.dev.motion.clamped = false →
    Completes (.microstepDue .gear true) s fun d =>
      d.motion.pos = s.dev.motion.pos + 1 ∧
      (d.motion.clamped = false → d.motion.st = .geared ∧ d.motion.gearDue = s.dev.motion.gearDue - 1)) ∧
  (∀ s : State, s.dev.motion.st = .moving → s.dev.motion.plannedAt + 250 ≤ s.dev.now → s.dev.motion.plan = none →
    Completes .profileReplan s fun d =>
      d.motion = { s.dev.motion with plan := some (planTo s.dev.motion.goal s.dev), plannedAt := s.dev.now, current := .run } ∧
      OnlyIn [.motion] [] s.dev d) ∧
  (∀ s : State, s.dev.motion.st = .moving → s.dev.motion.pos = s.dev.motion.goal →
      planOver s.dev.now s.dev.motion = true → s.dev.motion.parking = false →
      s.dev.motion.seeking = false →
    Completes .moveComplete s fun d => d.motion.st = .idle ∧ d.motion.pos = s.dev.motion.pos ∧ Raised 64 d) ∧
  (∀ s : State, s.dev.motion.st = .moving → s.dev.motion.pos = s.dev.motion.goal →
      planOver s.dev.now s.dev.motion = true → s.dev.motion.parking = true →
    Completes .moveComplete s fun d =>
      d.motion.st = .idle ∧ d.motion.atPark = true ∧ d.motion.pos = s.dev.motion.pos - s.dev.motion.edgePos.getD 0 ∧ Raised 64 d)

/-- What ends motion abnormally (R95 to R97, R100): the ramp at rest, the pre-driver, a switch set to HARD, a homing that overruns. Where
the model chooses, log entries 39 and 85 say how. -/
def Obligations.AbnormalStopsEndMotion : Prop :=
  (∀ s : State, s.dev.motion.st = .emergency → s.dev.motion.ramping = true → s.dev.motion.rampSource = none →
      s.dev.motion.parkAfterRamp = false → planOver s.dev.now s.dev.motion = true →
    Completes .emergencyRampAtRest s fun d =>
      d.motion.st = s.dev.motion.afterRamp ∧ d.motion.ramping = false ∧ d.motion.pos = s.dev.motion.pos ∧ Raised 70 d) ∧
  (∀ s : State, Completes .preDriverFault s fun d =>
      d.motion.st = .fault ∧ d.motion.current = .off ∧ d.motion.posValid = false ∧ d.motion.ramping = false ∧
      d.motion.stopCause = 4 ∧ Raised 76 d) ∧
  (∀ (s : State) (outer level : Bool) (held : Nat), held < 25 →
    Completes (.limitSwitchChange outer level held) s fun d => d = s.dev) ∧
  (∀ (s : State) (held : Nat), s.dev.motion.st = .moving → s.dev.motion.parking = false → homeSw s.dev = false →
      (s.dev.reg 0x9024).getLsbD 0 = false → 25 ≤ held →
    Completes (.limitSwitchChange false ((s.dev.reg 0x9024).getLsbD 4) held) s fun d =>
      d.motion.st = .unhomed ∧ d.motion.posValid = false ∧ homeSw d = true ∧ d.motion.stopCause = 2 ∧ Raised 67 d) ∧
  (∀ s : State, homingOverrun s.dev.motion = true →
    Completes .homingFailed s fun d =>
      d.motion.st = .unhomed ∧ d.motion.current = .off ∧ d.motion.posValid = false ∧ Raised 66 d)

/-- Sectors as they arrive (R113, R114, R119, R120, R137), after the samples that came before (`flow`): a free slot of the sample store
takes the sector's data field; a full store stalls it; one without lock is lost. An entry that brings the read FIFO to 96 marks the AVS
window and raises source 88 (R37), and one that finds it full loses its sector; a run of DROP_MIN bits below the level begins a defect,
16 bits at or above the level end it, and one longer than the flywheel drops lock. Where the model chooses, log entries 40 and 87 say
how. -/
def Obligations.ReadSamplesArriveOrAreLost : Prop :=
  (∀ (s : State) (psa : Nat) (flow : List Flow) (e : Device) (c : LadderCluster) (i : Nat), e = flowIn flow s.dev →
      frameRead e psa (fun c i => c.reading && sectorAt c i = .unread && readPermitted e c) = some (c, i) →
      e.rdc.stalled = false → e.rdc.store.length < 24 → LadderRests e →
    Completes (.sectorSync psa true flow) s fun d =>
      d.rdc.store = e.rdc.store ++ [{ psa := psa, entries := [] }] ∧ d.rdc.incoming = some (psa, 55488) ∧ d.rdc.locked = true ∧
      d.rdc.tapsFor = some (e.servo.fast, c.loc.layer) ∧
      (e.rdc.tapsFor ≠ some (e.servo.fast, c.loc.layer) → d.rdc.taps = initialTaps e c.loc.layer) ∧ OnlyIn [.rdc] [] e d) ∧
  (∀ (s : State) (psa : Nat) (locked : Bool) (flow : List Flow) (e : Device) (c : LadderCluster) (i : Nat), e = flowIn flow s.dev →
      frameRead e psa (fun c i => c.reading && sectorAt c i = .unread && readPermitted e c) = some (c, i) →
      e.rdc.stalled = false → 24 ≤ e.rdc.store.length → LadderRests e →
    Completes (.sectorSync psa locked flow) s fun d =>
      d.rdc = { e.rdc with stalled := true, resumeAt := some psa } ∧ Raised 87 d ∧
      d.reg 0xA028 = BitVec.ofNat 32 (min 0xFFFFFFFF ((e.reg 0xA028).toNat + 1)) ∧
      OnlyIn (.rdc :: interruptParts) [0xA028, 0x4540] e d) ∧
  (∀ (s : State) (psa : Nat) (flow : List Flow) (e : Device) (c : LadderCluster) (i : Nat), e = flowIn flow s.dev →
      frameRead e psa (fun c i => c.reading && sectorAt c i = .unread && readPermitted e c) = some (c, i) →
      e.rdc.stalled = false → e.rdc.store.length < 24 →
    Completes (.sectorSync psa false flow) s fun d =>
      d.rdc.locked = false ∧ d.reg 0xA01C = BitVec.ofNat 32 (min 0xFFFFFFFF ((e.reg 0xA01C).toNat + 1))) ∧
  (∀ (s : State) (flow : List Flow) (e : Device), e = flowIn flow s.dev → LadderRests e →
    Completes (.readFifoHighWater flow) s fun d => d = e) ∧
  (∀ (s : State) (v : BitVec 7) (env psa : Nat) (b : LineBit), LadderRests s.dev → s.dev.rdc.defect = false → 0 < s.dev.rdc.envelopes.length →
      s.dev.regF 0xA008 7 0 = 0 → s.dev.rdc.line.length = 510 → s.dev.rdc.line.getLast? = some b → b.psa = some psa →
      s.dev.rdc.part.length = 7 → s.dev.rdc.fifo.length = 95 →
    Completes (.readFifoHighWater [.bit v env]) s fun d =>
      d.rdc.fifo = s.dev.rdc.fifo ++ [{ psa := psa, word := packEntry (s.dev.rdc.part ++ [b]) }] ∧ d.rdc.part = [] ∧
      d.avs.fifoHigh = true ∧ Raised 88 d ∧ OnlyIn ([.rdc, .avs] ++ interruptParts) [0x4540] s.dev d) ∧
  (∀ (s : State) (v : BitVec 7) (env psa : Nat) (b : LineBit), LadderRests s.dev → s.dev.rdc.defect = false → 0 < s.dev.rdc.envelopes.length →
      s.dev.regF 0xA008 7 0 = 0 → s.dev.rdc.line.length = 510 → s.dev.rdc.line.getLast? = some b → b.psa = some psa →
      s.dev.rdc.part.length = 7 → s.dev.rdc.fifo.length = 128 →
      frameRead s.dev psa (fun c i => c.reading && sectorAt c i = .unread) = none →
    Completes (.readFifoOverflow [.bit v env]) s fun d =>
      d.rdc.fifo = s.dev.rdc.fifo.filter (fun x => x.psa != psa) ∧ d.rdc.clusters = s.dev.rdc.clusters ∧ Raised 89 d ∧
      d.reg 0xA01C = BitVec.ofNat 32 (min 0xFFFFFFFF ((s.dev.reg 0xA01C).toNat + 1)) ∧
      OnlyIn (.rdc :: interruptParts) [0xA01C, 0x4540] s.dev d) ∧
  (∀ (s : State) (v : BitVec 7) (env : Nat), LadderRests s.dev → s.dev.rdc.defect = true → s.dev.rdc.locked = true → s.dev.rdc.run = [] →
      belowLevel s.dev env = true → s.dev.rdc.defectLen = 64 * s.dev.regF 0xA008 31 24 → s.dev.rdc.line.length < 510 →
    Completes (.timingLockLost [.bit v env]) s fun d =>
      d.rdc.locked = false ∧ d.rdc.restErased = true ∧ d.rdc.defect = true ∧ Raised 86 d ∧
      OnlyIn (.rdc :: interruptParts) [0x4540] s.dev d) ∧
  (∀ (s : State) (v : BitVec 7) (env : Nat), LadderRests s.dev → s.dev.rdc.defect = false → belowLevel s.dev env = true →
      s.dev.rdc.run.length + 1 = s.dev.regF 0xA008 15 8 → s.dev.regF 0xA008 15 8 ≤ 64 * s.dev.regF 0xA008 31 24 →
      s.dev.rdc.line.length < 510 →
    Completes (.defectBegin [.bit v env]) s fun d =>
      d.rdc.defect = true ∧ d.rdc.defectLen = s.dev.regF 0xA008 15 8 ∧
      (∀ x ∈ d.rdc.line.take (s.dev.regF 0xA008 15 8 + s.dev.regF 0xA008 23 16), x.erased = true) ∧
      d.rdc.line.drop (s.dev.regF 0xA008 15 8 + s.dev.regF 0xA008 23 16) =
        s.dev.rdc.line.drop (s.dev.regF 0xA008 15 8 + s.dev.regF 0xA008 23 16 - 1) ∧ OnlyIn [.rdc] [] s.dev d) ∧
  (∀ (s : State) (v : BitVec 7) (env : Nat), LadderRests s.dev → s.dev.rdc.defect = true → belowLevel s.dev env = false →
      s.dev.rdc.run.length = 15 → s.dev.rdc.line.length < 510 →
    Completes (.defectEnd [.bit v env]) s fun d =>
      d.rdc.defect = false ∧ d.rdc.defectLen = 0 ∧ d.rdc.guard = s.dev.regF 0xA008 23 16 - 16 ∧ d.rdc.locked = s.dev.rdc.locked ∧
      OnlyIn [.rdc] [] s.dev d)

/-- The recovery ladder, deep decoding and the tag check. The recovery ladder's own events (R121 to R123, R127, R130): a data field that is
wholly in the store goes to the Fast path, or is lost for its erasures; a word decodes when every parity check is satisfied; the lost
sectors of a cluster are read again; a refresh leaves the queue. Deep decoding and the tag check at egress (R115, R124, R127, R131,
R209): a Deep decode that ends frees its slot; one that goes on begins its next outer iteration on the same sector; the tag check counts
what it finds. Where the model chooses, log entries 40 and 87 say how. -/
def Obligations.RecoveryLadderAndDeepDecoding : Prop :=
  ((∀ (s : State) (psa : Nat) (flow : List Flow) (e : Device) (c : LadderCluster) (i : Nat) (x : StoreSlot), e = flowIn flow s.dev →
        frameRead e psa (fun c i => c.reading && sectorAt c i = .unread) = some (c, i) →
        e.rdc.store.find? (fun x => x.psa = psa) = some x → 55488 ≤ 8 * x.entries.length →
        erasedCode (erasedBits x.entries) ≤ e.regF 0xA004 29 16 → tapsAtBound e e.rdc.taps = [] → LadderRests e →
      Completes (.dataFieldEnd psa flow) s fun d =>
        (∀ c', d.reads c.id = some c' → sectorAt c' i = .stored) ∧ d.rdc.store = e.rdc.store ∧ OnlyIn [.rdc] [] e d) ∧
    (∀ (s : State) (psa : Nat) (flow : List Flow) (e : Device) (c : LadderCluster) (i : Nat) (x : StoreSlot), e = flowIn flow s.dev →
        frameRead e psa (fun c i => c.reading && sectorAt c i = .unread) = some (c, i) →
        e.rdc.store.find? (fun x => x.psa = psa) = some x → 55488 ≤ 8 * x.entries.length →
        e.regF 0xA004 29 16 < erasedCode (erasedBits x.entries) →
      Completes (.dataFieldEnd psa flow) s fun d =>
        d.reg 0xA01C = BitVec.ofNat 32 (min 0xFFFFFFFF ((e.reg 0xA01C).toNat + 1)) ∧ (∀ x ∈ d.rdc.store, x.psa ≠ c.psas.getD i 0)) ∧
    (∀ (s : State) (psa : Nat) (word : BitVec 36992) (c : LadderCluster) (i : Nat),
        frameRead s.dev psa (fun c i => c.reading && sectorAt c i = .stored) = some (c, i) →
      Completes (.fastDecodeDone psa word) s fun d =>
        if ldpcOk word.toNat = true then d.reg 0xA018 = BitVec.ofNat 32 (min 0xFFFFFFFF ((s.dev.reg 0xA018).toNat + 1)) ∧
          (∀ x ∈ d.rdc.store, x.psa ≠ psa)
        else d.reg 0xA01C = BitVec.ofNat 32 (min 0xFFFFFFFF ((s.dev.reg 0xA01C).toNat + 1))) ∧
    (∀ (s : State) (cluster : Nat) (c : LadderCluster), s.dev.reads cluster = some c → c.reading = true → c.step = 4 →
        stepApplies s.dev c 4 = true → lostSectors c ≠ [] →
      Completes (.clusterReread cluster) s fun d =>
        ∃ c', d.reads cluster = some c' ∧ c'.rereads = c.rereads + 1 ∧ c'.step = 1 ∧ c'.parts = c.parts ∧
          ∀ i, i < 18 → sectorAt c' i = if isLost (sectorAt c i) then .unread else sectorAt c i) ∧
    (∀ (s : State) (cluster : Nat) (x : Refresh), s.dev.rdc.refreshQueue.find? (fun x => x.id = cluster) = some x →
        s.dev.gen.mode ≠ .primer → s.dev.pwr.sealStep = 0 →
      Completes (.clusterRefresh cluster) s fun d =>
        d.rdc.refreshQueue = s.dev.rdc.refreshQueue.filter (fun y => y.id != cluster) ∧ d.rdc.clusters = s.dev.rdc.clusters)) ∧
  ((∀ (s : State) (psa inner : Nat) (word : BitVec 36992) (run : DeepRun) (c : LadderCluster), s.dev.rdc.deepRun = some run →
        s.dev.reads run.cluster = some c → c.psas.getD run.sector 0 = psa →
        ((inner ≤ run.inner ∧ ldpcOk word.toNat = true) ∨ 8 ≤ outerRun c run.sector + 1) →
      Completes (.deepIterationDone psa inner word) s fun d => ∀ x ∈ d.rdc.store, x.psa ≠ psa) ∧
    (∀ (s : State) (psa inner : Nat) (word : BitVec 36992) (run : DeepRun) (c : LadderCluster), s.dev.rdc.deepRun = some run →
        s.dev.reads run.cluster = some c → c.psas.getD run.sector 0 = psa → run.inner < inner → outerRun c run.sector < 7 →
        s.dev.rdc.deepQueue = [(run.cluster, run.sector)] → s.dev.rdc.clusters = [c] → c.reading = true →
        deepWants s.dev { c with outer := sset (fun _ => 0) run.sector (outerRun c run.sector + 1) c.outer } run.sector = true →
      Completes (.deepIterationDone psa inner word) s fun d =>
        (∀ c', d.reads run.cluster = some c' → outerRun c' run.sector = outerRun c run.sector + 1) ∧
        d.rdc.deepRun.map (fun r => (r.cluster, r.sector)) = some (run.cluster, run.sector) ∧ d.rdc.store = s.dev.rdc.store) ∧
    (∀ (s : State) (psa : Nat) (tagOk : Bool) (plain : List Byte) (poisoned : Bool) (c : LadderCluster) (i : Nat),
        frameRead s.dev psa (fun c i => (wantedSectors c).contains i && (match sectorAt c i with | .decoded _ => true | _ => false))
          = some (c, i) →
        generationGone s.dev ((blockOf (sectorAt c i)).getD []) = false →
      Completes (.egressDecryptDone psa tagOk plain poisoned) s fun d =>
        if tagOk then d.reg 0xD054 = BitVec.ofNat 32 (min 0xFFFFFFFF ((s.dev.reg 0xD054).toNat + 1))
        else d.reg 0xA02C = BitVec.ofNat 32 (min 0xFFFFFFFF ((s.dev.reg 0xA02C).toNat + 1)) ∧
          d.reg 0xD058 = BitVec.ofNat 32 (min 0xFFFFFFFF ((s.dev.reg 0xD058).toNat + 1))))

/-- Writing a sector, its read-after-write result and its rewrite in place (R138, R142, R143, R151 to R153, R156, R159, R172); one whose
data carry poison is not written. Where the model chooses, log entries 74 and 81 say how. -/
def Obligations.SectorsAreWrittenJudgedAndRewritten : Prop :=
  (∀ (s : State) (psa : Nat) (before : Option Nat) (c : WriteCluster) (i : Nat),
      s.dev.wrc.clusters.find? (fun x => x.id = c.id) = some c →
      s.dev.rcl.groups.filter (orphanGroup s.dev) = [] → mayWrite s.dev = true →
      frameWrite s.dev psa (fun x => x.st = .due) = some (c, i) → opcCurrent s.dev (bandIndex c.loc) = true →
      writePermitted s.dev c = true → shareAllows s.dev c = true → passAllowed s.dev c i psa before = true →
    Completes (.sectorWriteStart psa before false) s fun d =>
      d.wrc.writing = some (c.id, i) ∧
      d.wrc.level = min (writePowers (powerWord s.dev (bandIndex c.loc)) (trimFor s.dev (bandIndex c.loc) psa)).1 (laserMax s.dev) ∧ d.wrc.emitted = some (psa, sectorBlock s.dev c i) ∧
      (d.wrc.clusters.find? fun x => x.id = c.id).map (fun x => (wsector x i).st) = some .written ∧
      OnlyIn [.wrc, .cch] [0xD050] s.dev d) ∧
  (∀ (s : State) (psa : Nat) (before : Option Nat) (c : WriteCluster) (i : Nat),
      s.dev.rcl.groups.filter (orphanGroup s.dev) = [] → mayWrite s.dev = true →
      frameWrite s.dev psa (fun x => x.st = .due) = some (c, i) → opcCurrent s.dev (bandIndex c.loc) = true →
      writePermitted s.dev c = true → shareAllows s.dev c = true → passAllowed s.dev c i psa before = true →
    Completes (.sectorWriteStart psa before true) s fun d =>
      Raised 185 d ∧ d.wrc.writing = s.dev.wrc.writing ∧ d.wrc.emitted = s.dev.wrc.emitted) ∧
  (∀ (s : State) (psa errors : Nat) (beta : Int) (c : WriteCluster) (i j : Nat),
      s.dev.wrc.clusters.find? (fun x => x.id = c.id) = some c →
      s.dev.rcl.groups.filter (orphanGroup s.dev) = [] → s.dev.wrc.inhibit = 0 →
      frameWrite s.dev psa (fun x => x.st = .written) = some (c, i) → (wsector c i).voided = false →
      j < 18 → j ≠ i → (wsector c j).st ≠ .passed → errors < s.dev.regF 0xB00C 5 0 →
    Completes (.rawResult psa errors beta true) s fun d =>
      (d.wrc.clusters.find? fun x => x.id = c.id).map (fun x => (wsector x i).st) = some .passed ∧
      d.reg 0xB0D0 = BitVec.ofNat 32 (min 0xFFFFFFFF ((s.dev.reg 0xB0D0).toNat + 1)) ∧
      OnlyIn ([.wrc, .exc, .evt] ++ interruptParts) [0xB0D0, 0x4540] s.dev d) ∧
  (∀ (s : State) (psa errors : Nat) (beta : Int) (synced : Bool) (c : WriteCluster) (i : Nat),
      s.dev.wrc.clusters.find? (fun x => x.id = c.id) = some c →
      s.dev.rcl.groups.filter (orphanGroup s.dev) = [] → s.dev.wrc.inhibit = 0 →
      frameWrite s.dev psa (fun x => x.st = .written) = some (c, i) → (wsector c i).voided = false →
      (wsector c i).retries < 3 → (synced = false ∨ s.dev.regF 0xB00C 5 0 ≤ errors) →
    Completes (.rawResult psa errors beta synced) s fun d =>
      (d.wrc.clusters.find? fun x => x.id = c.id).map (fun x => (wsector x i).st) = some .failed ∧
      d.reg 0xB0D4 = BitVec.ofNat 32 (min 0xFFFFFFFF ((s.dev.reg 0xB0D4).toNat + 1)) ∧
      OnlyIn ([.wrc, .exc, .hif, .rcl, .evt] ++ interruptParts) [0xB0D4, 0x4540] s.dev d) ∧
  (∀ (s : State) (psa errors : Nat) (beta : Int) (synced : Bool) (c : WriteCluster) (i : Nat),
      s.dev.wrc.clusters.find? (fun x => x.id = c.id) = some c →
      s.dev.rcl.groups.filter (orphanGroup s.dev) = [] →
      frameWrite s.dev psa (fun x => x.st = .written) = some (c, i) →
      ((wsector c i).voided = true ∨ s.dev.wrc.inhibit ≠ 0) →
    Completes (.rawResult psa errors beta synced) s fun d =>
      (d.wrc.clusters.find? fun x => x.id = c.id).map (fun x => (wsector x i).st) = some .interrupted ∧
      d.reg 0xB0DC = BitVec.ofNat 32 (min 0xFFFFFFFF ((s.dev.reg 0xB0DC).toNat + 1)) ∧
      OnlyIn [.wrc] [0xB0DC] s.dev d) ∧
  (∀ (s : State) (psa : Nat) (c : WriteCluster) (i : Nat),
      s.dev.wrc.clusters.find? (fun x => x.id = c.id) = some c →
      mayWrite s.dev = true → s.dev.pwr.st = .armed →
      frameWrite s.dev psa (fun x => x.st = .failed || x.st = .interrupted) = some (c, i) →
      (wsector c i).st = .failed → (wsector c i).retries < 3 →
    Completes (.inPlaceRetry psa false) s fun d =>
      d.wrc.writing = some (c.id, i) ∧ d.wrc.jumpedBack = true ∧ d.wrc.emitted = some (psa, sectorBlock s.dev c i) ∧
      (d.wrc.clusters.find? fun x => x.id = c.id).map (fun x => (wsector x i).retries) = some ((wsector c i).retries + 1) ∧
      Raised 96 d ∧ OnlyIn (.wrc :: interruptParts) [0xD050, 0x4540] s.dev d) ∧
  (∀ (s : State) (psa : Nat) (c : WriteCluster) (i : Nat),
      s.dev.wrc.clusters.find? (fun x => x.id = c.id) = some c →
      mayWrite s.dev = true → s.dev.pwr.st = .armed →
      frameWrite s.dev psa (fun x => x.st = .failed || x.st = .interrupted) = some (c, i) → (wsector c i).st = .interrupted →
    Completes (.inPlaceRetry psa false) s fun d =>
      d.wrc.writing = some (c.id, i) ∧ d.wrc.jumpedBack = true ∧ d.wrc.emitted = some (psa, sectorBlock s.dev c i) ∧
      (d.wrc.clusters.find? fun x => x.id = c.id).map (fun x => (wsector x i).retries) = some (wsector c i).retries ∧
      OnlyIn [.wrc] [0xD050] s.dev d) ∧
  (∀ (s : State) (psa : Nat) (c : WriteCluster) (i : Nat), mayWrite s.dev = true → s.dev.pwr.st = .armed →
      frameWrite s.dev psa (fun x => x.st = .failed || x.st = .interrupted) = some (c, i) → (wsector c i).retries < 3 →
    Completes (.inPlaceRetry psa true) s fun d =>
      Raised 185 d ∧ d.wrc.writing = s.dev.wrc.writing ∧ d.wrc.emitted = s.dev.wrc.emitted)

/-- Write inhibit: a new condition cuts the sector under way, and writing resumes HOLD ticks after the last one clears (R139, R157 to R159).
Where the model chooses, log entry 1 says how. -/
def Obligations.InhibitCutsAndWritingResumes : Prop :=
  (∀ (s : State) (cl i : Nat), s.dev.wrc.inhibit = inhibitNow s.dev → s.dev.wrc.analog.getLsbD 0 = false →
      s.dev.wrc.writing = some (cl, i) →
    Completes (.writeInhibit 0) s fun d =>
      d.wrc.analog = s.dev.wrc.analog ||| 1 ∧ d.wrc.inhibit = s.dev.wrc.inhibit ||| 1 ∧ d.wrc.held = true ∧ d.wrc.writing = none ∧
      d.reg 0xB01C = s.dev.reg 0xB01C ||| 1 ∧
      d.reg 0xB0DC = BitVec.ofNat 32 (min 0xFFFFFFFF ((s.dev.reg 0xB0DC).toNat + 1)) ∧ Raised 99 d ∧
      OnlyIn (.wrc :: interruptParts) [0xB01C, 0xB0DC, 0x4540] s.dev d) ∧
  (∀ s : State, s.dev.wrc.inhibit = inhibitNow s.dev → s.dev.wrc.analog.getLsbD 6 = false → s.dev.wrc.writing = none →
    Completes (.writeInhibit 6) s fun d =>
      d.wrc.inhibit = s.dev.wrc.inhibit ||| 0x40 ∧ d.wrc.held = true ∧ Raised 106 d ∧
      OnlyIn (.wrc :: interruptParts) [0xB01C, 0x4540] s.dev d) ∧
  (∀ s : State, s.dev.wrc.inhibit = 1 → inhibitNow s.dev = 1 → s.dev.wrc.analog = 1 →
    Completes (.writeInhibitClear 0) s fun d =>
      d.wrc = { s.dev.wrc with analog := 0, inhibit := 0, clearSince := s.dev.now } ∧ OnlyIn [.wrc] [] s.dev d) ∧
  (∀ s : State, s.dev.wrc.held = true → s.dev.wrc.inhibit = 0 → s.dev.wrc.clearSince + s.dev.regF 0xB014 15 0 ≤ s.dev.now →
    Completes .writeResume s fun d => d.wrc = { s.dev.wrc with held := false } ∧ OnlyIn [.wrc] [] s.dev d) ∧
  (∀ s : State, (s.dev.wrc.held = false ∨ s.dev.wrc.inhibit ≠ 0 ∨ s.dev.now < s.dev.wrc.clearSince + s.dev.regF 0xB014 15 0) →
    Completes .writeResume s fun d => d = s.dev) ∧
  (∀ (s : State) (cl i : Nat), s.dev.wrc.inhibit = 0 → inhibitNow s.dev = 0 → s.dev.wrc.writing = some (cl, i) →
    Completes .writeFifoUnderrun s fun d =>
      d.wrc.inhibit = 0x80 ∧ d.wrc.held = true ∧ d.wrc.writing = none ∧ Raised 100 d ∧ Raised 99 d ∧
      d.reg 0xB0E0 = BitVec.ofNat 32 (min 0xFFFFFFFF ((s.dev.reg 0xB0E0).toNat + 1)) ∧
      OnlyIn (.wrc :: interruptParts) [0xB01C, 0xB0DC, 0xB0E0, 0x4540] s.dev d)

/-- The laser's ceiling and its guards (R143 to R145). Where the model chooses, log entries 1 and 66 say how. -/
def Obligations.LaserCeilingAndGuards : Prop :=
  (∀ (s : State) (who : Requester) (v : Word32), who ≠ .seq → (who = .host → s.dev.hif.lock = false) → masterUp who s.dev = true →
      s.dev.wrc.maxWritten = false →
    Completes (.laserMaxWrite who v) s fun d =>
      d.wrc.maxWritten = true ∧ laserMax d = fld v 9 0 ∧ d.wrc.laserOn = s.dev.wrc.laserOn ∧ d.wrc.level = s.dev.wrc.level ∧
      OnlyIn ([.wrc, .exc, .hif, .rcl, .evt] ++ interruptParts) [0xB004, 0x4540] s.dev d) ∧
  (∀ (s : State) (v : Word32), pairRuns s.dev = true → s.dev.wrc.maxWritten = true → fld v 9 0 < laserMax s.dev →
    Completes (.laserMaxWrite .mgmt v) s fun d => laserMax d = fld v 9 0 ∧ d.wrc.level ≤ max (fld v 9 0) (if s.dev.wrc.laserOn then 0 else s.dev.wrc.level)) ∧
  (∀ (s : State) (v : Word32), pairRuns s.dev = true → s.dev.wrc.maxWritten = true → laserMax s.dev < fld v 9 0 →
    Completes (.laserMaxWrite .mgmt v) s fun d =>
      laserMax d = laserMax s.dev ∧ Raised 107 d ∧
      d.reg 0xB0E4 = BitVec.ofNat 32 (min 0xFFFFFFFF ((s.dev.reg 0xB0E4).toNat + 1)) ∧
      OnlyIn interruptParts [0xB0E4, 0x4540] s.dev d) ∧
  (∀ s : State, Completes .laserOverPower s fun d =>
      d.wrc.overTrip = true ∧ d.wrc.laserOn = false ∧ d.wrc.level = 0 ∧ Raised 104 d ∧
      OnlyIn (.wrc :: interruptParts) [0xB01C, 0xB0DC, 0x4540] s.dev d) ∧
  (∀ s : State, pairRuns s.dev = true → s.dev.gen.mode ≠ .primer →
    Completes (.laserOverClear .mgmt) s fun d => d.wrc.overTrip = false) ∧
  (∀ s : State, s.dev.gen.mode = .primer → Completes (.laserOverClear .mgmt) s fun d => d = s.dev) ∧
  (∀ s : State, Completes .laserIlkLow s fun d =>
      d.wrc.ilk = false ∧ d.wrc.laserOn = false ∧ d.wrc.ilkBlocked = true ∧ Raised 105 d) ∧
  (∀ s : State, Completes .laserIlkRestored s fun d => d.wrc.ilk = true ∧ d.wrc.ilkBlocked = false ∧ d.wrc.ilkSince = s.dev.now)

/-- OPC_CMD (R148): its fields are written, and START, which is not the host's (R477), begins a step on four sectors of the test area at the
clamped power (R143, R147); a step's results end it; static OPC takes step after step, and ends with the calibration taken or with none
found. Where the model chooses, log entries 11 and 88 say how. -/
def Obligations.OpcCalibratesWritePower : Prop :=
  (∀ (s : State) (who : Requester) (v : Word32), (who = .host → s.dev.hif.lock = false) → masterUp who s.dev = true →
      fld v 26 24 < 6 → (who = .host ∨ v.getLsbD 31 = false) →
    Completes (.opcTestStep who v) s fun d =>
      d.regF 0xB0C0 26 24 = fld v 26 24 ∧ d.regF 0xB0C0 21 20 = fld v 21 20 ∧ d.regF 0xB0C0 9 0 = fld v 9 0 ∧
      OnlyIn [] [0xB0C0] s.dev d) ∧
  (∀ (s : State) (who : Requester) (v : Word32), who ≠ .host → masterUp who s.dev = true →
      fld v 26 24 < 6 → v.getLsbD 31 = true → s.dev.wrc.opcStep = none → s.dev.pwr.st = .armed →
      testSectorsOk (fld v 26 24) (fld v 21 20) (s.dev.reg 0xB0C8).toNat = true →
    Completes (.opcTestStep who v) s fun d =>
      d.wrc.opcStep = some { layer := fld v 26 24, band := fld v 21 20, power := fld v 9 0, pos := (s.dev.reg 0xB0C8).toNat } ∧
      (s.dev.wrc.inhibit = 0 → s.dev.wrc.held = false → laserMayEmit s.dev = true →
        d.wrc.laserOn = true ∧ d.wrc.level = min (fld v 9 0) (laserMax s.dev)) ∧
      d.regF 0xB0C0 26 24 = fld v 26 24 ∧ d.regF 0xB0C0 21 20 = fld v 21 20 ∧ d.regF 0xB0C0 9 0 = fld v 9 0 ∧
      OnlyIn [.wrc] [0xB0C0] s.dev d) ∧
  (∀ (s : State) (errors : Nat) (beta : Int) (x : OpcStep), s.dev.wrc.opcStep = some x → s.dev.wrc.opcRun = none →
    Completes (.opcTestStepDone errors beta) s fun d =>
      d.wrc.opcStep = none ∧ d.wrc.opcErrors = min 0xFFFF errors ∧ d.wrc.opcBeta = clampInt (-512) 511 beta ∧
      OnlyIn [.wrc] [] s.dev d) ∧
  (∀ (s : State) (errors : Nat) (beta : Int) (x : OpcStep) (r : OpcRun), s.dev.wrc.opcStep = some x → s.dev.wrc.opcRun = some r →
      r.k < 10 → r.layer < 6 → r.band < 4 → s.dev.pwr.st = .armed →
      (roundDiv ((r.p0 * (85 + 3 * (r.k + 1)) : Nat) : Int) 100).toNat ≤ laserMax s.dev →
    Completes (.opcTestStepDone errors beta) s fun d =>
      d.wrc.opcRun.map (fun y => (y.layer, y.band, y.k, y.p0)) = some (r.layer, r.band, r.k + 1, r.p0) ∧
      d.regF 0xB0C0 9 0 = (roundDiv ((r.p0 * (85 + 3 * (r.k + 1)) : Nat) : Int) 100).toNat ∧
      OnlyIn [.wrc] [0xB0C0, 0xB0C8] s.dev d) ∧
  (∀ (s : State) (errors : Nat) (beta : Int) (x : OpcStep) (r : OpcRun), s.dev.wrc.opcStep = some x → s.dev.wrc.opcRun = some r →
      10 ≤ r.k → r.best = none → 147968 ≤ errors * 4000 → s.dev.pwr.st = .armed →
    Completes (.opcTestStepDone errors beta) s fun d =>
      d.wrc.opcRun = none ∧ d.wrc.opcStep = none ∧ Raised 103 d ∧
      OnlyIn ([.wrc, .evt] ++ interruptParts) [0xB0C8, 0x4540] s.dev d) ∧
  (∀ (s : State) (errors : Nat) (beta : Int) (x : OpcStep) (r : OpcRun) (p : Nat) (b : Int), s.dev.wrc.opcStep = some x →
      s.dev.wrc.opcRun = some r → 10 ≤ r.k → r.layer < 6 → r.band < 4 → r.best = some (p, b) → s.dev.pwr.st = .armed →
    Completes (.opcTestStepDone errors beta) s fun d =>
      d.wrc.opcRun = none ∧ Raised 102 d ∧
      d.regF (0xB040 + 4 * (4 * r.layer + r.band)) 9 0 = min (roundDiv ((p * 112 : Nat) : Int) 100).toNat (laserMax s.dev) ∧
      d.regF (0xB0A0 + 4 * r.layer) 25 16 = ofSigned 10 b ∧ trimAt d (4 * r.layer + r.band) = 0) ∧
  (∀ (s : State) (layer band : Nat), layer < 6 → band < 4 → s.dev.gen.mode ≠ .primer → opcCurrent s.dev (4 * layer + band) = false →
      s.dev.pwr.st = .armed → s.dev.wrc.opcRun = none → s.dev.wrc.opcStep = none →
      (roundDiv ((fld (powerWord s.dev (4 * layer + band)) 9 0 * 85 : Nat) : Int) 100).toNat ≤ laserMax s.dev →
    Completes (.staticOpc layer band) s fun d =>
      d.wrc.opcRun = some { layer := layer, band := band, k := 0, p0 := fld (powerWord s.dev (4 * layer + band)) 9 0, best := none } ∧
      d.regF 0xB0C0 26 24 = layer ∧ d.regF 0xB0C0 21 20 = band ∧
      d.regF 0xB0C0 9 0 = (roundDiv ((fld (powerWord s.dev (4 * layer + band)) 9 0 * 85 : Nat) : Int) 100).toNat ∧
      OnlyIn [.wrc] [0xB0C0, 0xB0C8] s.dev d)

/-- STRAT_DATA reaches the word that STRAT_ADDR.INDEX names (R146): a write stores it while no sector is being written, and has no effect
meanwhile; a read returns it; with AUTO_INC the index goes on. -/
def Obligations.StrategyTablesAreReached : Prop :=
  (∀ (s : State) (who : Requester) (v : Word32), who ≠ .seq → (who = .host → s.dev.hif.lock = false) → masterUp who s.dev = true →
      s.dev.wrc.writing = none →
    Completes (.stratDataAccess who (some v)) s fun d =>
      sget (fun _ => 0) d.wrc.strat (s.dev.regF 0xB02C 8 0) = v ∧
      (∀ k, k ≠ s.dev.regF 0xB02C 8 0 → sget (fun _ => 0) d.wrc.strat k = sget (fun _ => 0) s.dev.wrc.strat k) ∧
      ((s.dev.reg 0xB02C).getLsbD 31 = true → s.dev.regF 0xB02C 8 0 < 383 → d.regF 0xB02C 8 0 = s.dev.regF 0xB02C 8 0 + 1) ∧
      ((s.dev.reg 0xB02C).getLsbD 31 = false → d.reg 0xB02C = s.dev.reg 0xB02C) ∧
      (s.dev.regF 0xB02C 8 0 < 383 → d.draws = s.dev.draws) ∧ OnlyIn [.wrc, .draws] [0xB02C] s.dev d) ∧
  (∀ (s : State) (who : Requester) (v : Word32), who ≠ .seq → (who = .host → s.dev.hif.lock = false) → s.dev.wrc.writing ≠ none →
    Completes (.stratDataAccess who (some v)) s fun d => d = s.dev) ∧
  (∀ (s : State) (who : Requester), masterUp who s.dev = true →
    Completes (.stratDataAccess who none) s fun d =>
      d.bus.readData = sget (fun _ => 0) s.dev.wrc.strat (s.dev.regF 0xB02C 8 0) ∧
      ((s.dev.reg 0xB02C).getLsbD 31 = true → s.dev.regF 0xB02C 8 0 < 383 → d.regF 0xB02C 8 0 = s.dev.regF 0xB02C 8 0 + 1) ∧
      (s.dev.regF 0xB02C 8 0 < 383 → d.draws = s.dev.draws) ∧ OnlyIn [.bus, .draws] [0xB02C] s.dev d)

/-- A ring goes on from zone to zone, and its clusters close (R175, R176, R178, R182). Where the model chooses, log entries 19, 24, 74 and
89 say how. -/
def Obligations.RingsAdvanceThroughTheirZones : Prop :=
  (∀ (s : State) (o i : Nat), 1 ≤ o → o < 16 → entryDue s.dev o = true → (s.dev.ring o).next = some i →
      zoneEligible s.dev o (s.dev.ring o) i = true →
    Completes (.zoneEntry o) s fun d =>
      (d.ring o).entry = some s.dev.wrc.nextId ∧ (d.ring o).next = some i ∧
      (∃ c, d.wrc.clusters = s.dev.wrc.clusters ++ [c] ∧ c.kind = .directory ∧ c.id = s.dev.wrc.nextId ∧ c.dir = dirSnapshot s.dev ∧ c.dirRings = ringSnapshot s.dev) ∧
      OnlyIn [.wrc, .rcl] [] s.dev d) ∧
  (∀ (s : State) (o i : Nat), 1 ≤ o → o < 16 → (s.dev.ring o).naming = true → s.dev.gen.mode ≠ .primer →
      (s.dev.ring o).excursion = false → chooseNext s.dev o = some (i, false) →
    Completes (.nextZoneNaming o) s fun d =>
      (d.ring o).next = some i ∧ (d.ring o).naming = false ∧
      d.rcl.lastChoice = zoneNumber (ringZone (s.dev.ring o) i).layer (ringZone (s.dev.ring o) i).zone ∧
      (∃ c, d.wrc.clusters = s.dev.wrc.clusters ++ [c] ∧ c.kind = .directory) ∧ OnlyIn [.wrc, .rcl] [] s.dev d) ∧
  (∀ (s : State) (o i : Nat) (a : Assembly), (s.dev.ring o).assembly = some a → delayExpired s.dev o = true →
      (s.dev.ring o).cur = some i → (s.dev.ring o).waiting = [] → (s.dev.ring o).pos < dataPositions →
      checkpointDue (s.dev.ring o) = false →
    Completes (.assemblyDelayExpiry o) s fun d =>
      (d.ring o).assembly = none ∧ (d.ring o).pos = (s.dev.ring o).pos + 1 ∧ (d.ring o).ctr = (s.dev.ring o).ctr + 1 ∧
      (∃ c, d.wrc.clusters = s.dev.wrc.clusters ++ [c] ∧ c.id = a.id ∧ c.kind = .ownerData ∧ c.data = clusterBytes a ∧
        c.pass = (ringZone (s.dev.ring o) i).pass ∧ c.ringCtr = (s.dev.ring o).ctr ∧
        c.loc = ⟨(ringZone (s.dev.ring o) i).layer, (ringZone (s.dev.ring o) i).zone, (s.dev.ring o).pos⟩) ∧
      OnlyIn [.wrc, .rcl] [] s.dev d)

/-- End-of-log recovery, the boot digest check, and admission of an APPEND (R190, R193, R326, R452). Where the model chooses, log entries 1,
24, 86 and 91 say how. -/
def Obligations.RecoveryRunsRingByRing : Prop :=
  (∀ (s : State) (o : Nat) (x : RecoveryScan), recoveryMay s.dev = true → digestDue s.dev = false →
      nextRecovery s.dev .waiting = some o →
    Completes (.recoveryPhaseA o x) s fun d => (d.ring o).recovery = .phaseADone) ∧
  (∀ (s : State) (o : Nat) (x : RecoveryScan), nextRecovery s.dev .waiting ≠ some o →
    Completes (.recoveryPhaseA o x) s fun d => d = s.dev) ∧
  (∀ (s : State) (o i : Nat) (x : RingEnd), recoveryMay s.dev = true → s.dev.pwr.st = .armed →
      nextRecovery s.dev .phaseADone = some o → nextRecovery s.dev .phaseB = none → (s.dev.ring o).cur = some i →
      (s.dev.ring o).found = some x → x.fills = [] → x.sealFound = false →
    Completes (.recoveryPhaseB o) s fun d =>
      (groupOf ⟨(ringZone (s.dev.ring o) i).layer, (ringZone (s.dev.ring o) i).zone, (s.dev.ring o).pos⟩).2.1 = (s.dev.ring o).pos →
      (s.dev.ring o).pos + (groupOf ⟨(ringZone (s.dev.ring o) i).layer, (ringZone (s.dev.ring o) i).zone, (s.dev.ring o).pos⟩).2.2
        ≤ dataPositions →
      (d.ring o).recovery = .phaseB ∧ d.rcl.recovering = some o ∧
      (∃ c, d.wrc.clusters = s.dev.wrc.clusters ++ [c] ∧ c.kind = .sealCheckpoint ∧ c.data = tableBytes s.dev ∧ c.ring = o ∧
        c.pass = (ringZone (s.dev.ring o) i).pass) ∧
      OnlyIn [.wrc, .rcl] [] s.dev d) ∧
  (∀ (s : State) (o : Nat), recoveryMay s.dev = true → s.dev.pwr.st = .armed →
      nextRecovery s.dev .phaseADone = some o → nextRecovery s.dev .phaseB = none → (s.dev.ring o).cur = none →
      s.dev.wrc.clusters = [] →
    Completes (.recoveryPhaseB o) s fun d => (d.ring o).recovery = .recovered ∧ Raised 204 d ∧ d.rcl.recovering = none) ∧
  (∀ (s : State) (digest : BitVec 256), digestDue s.dev = true → s.dev.gen.mode ≠ .dustSheet →
    Completes (.bootDigestCheck digest) s fun d =>
      d.rcl = { s.dev.rcl with digestOk := some (decide ((bootSlot s.dev (activationNow s.dev).active).digest = digest)) } ∧
      OnlyIn [.rcl, .gen] [] s.dev d) ∧
  (∀ (s : State) (tag : Nat) (c : Cmd), s.dev.cmd tag = some c → c.phase = .admission → admissionOpen s.dev c = true →
    Completes (.appendAdmission tag) s fun d =>
      (d.cmd tag).map (fun x => x.phase) = some .dispatched ∧ OnlyIn [.hif] [] s.dev d) ∧
  (∀ (s : State) (tag : Nat) (c : Cmd), s.dev.cmd tag = some c → admissionOpen s.dev c = false →
    Completes (.appendAdmission tag) s fun d => d = s.dev)

/-- Received messages, credits, and the owners' exchanges. A live Lath whose message frees its slot: what every received message does to the
counter and the credits (R264). What the owners' exchanges and the random generator bring (R211, R216, R217, R221, R225). Where the
model chooses, log entries 1, 20 and 94 say how. -/
def Obligations.MessagesCountAndOwnerExchangesActOnce : Prop :=
  ((∀ (s : State) (cr : Credits), s.dev.lath.live = true →
      Completes (.credit cr) s fun d =>
        d.reg 0xE028 = BitVec.ofNat 32 (min 0xFFFFFFFF ((s.dev.reg 0xE028).toNat + 1)) ∧
        d.lath.creditC = min 32 (s.dev.lath.creditC + cr.control) ∧ d.lath.creditD = min 8 (s.dev.lath.creditD + cr.data) ∧
        d.lath.freedC = s.dev.lath.freedC + 1 ∧ OnlyIn [.lath] [0xE028] s.dev d) ∧
    (∀ (s : State) (cr : Credits), s.dev.lath.live = false → Completes (.credit cr) s fun d => d = s.dev)) ∧
  ((∀ (s : State) (cr : Credits) (n : Nat), s.dev.lath.live = true → 1 ≤ n → n < 16 → (s.dev.slot n).st = .destroyed →
      Completes (.ownerNote cr n) s fun d => LathMsg.ownerDone n 1 ∈ d.lath.queue ∧ OnlyIn [.lath] [0xE028] s.dev d) ∧
    (∀ (s : State) (cr : Credits) (n : Nat), s.dev.lath.live = true → n < 16 → s.dev.cry.ops = [] →
      Completes (.ownerDone cr n 1) s fun d =>
        (d.slot n).peerPending = false ∧ (d.slot n).st = (s.dev.slot n).st ∧ OnlyIn [.lath, .cry] [0xE028] s.dev d) ∧
    (∀ (s : State) (cr : Credits) (serials : List (BitVec 64)), s.dev.lath.live = true → s.dev.gen.mode = .dustSheet →
      Completes (.cartReg cr serials) s fun d =>
        d.cry.cartReg = (serials.filter (· != 0)).take 64 ∧ d.nv.cartReg = (serials.filter (· != 0)).take 64 ∧
        OnlyIn [.lath, .cry, .nv] [0xE028] s.dev d) ∧
    (∀ (s : State) (cr : Credits) (n : Nat) (r : SlotRecord), s.dev.lath.live = true → n < 16 → (s.dev.slot n).st = .empty →
        (s.dev.slot n).busy = false → s.dev.cry.pairKey ≠ none → s.dev.gen.mode = .dustSheet → s.dev.cry.ops = [] →
        s.dev.cch.range = none →
      Completes (.keyXfer cr n r) s fun d =>
        (d.slot n).busy = true ∧ d.regF 0xC010 11 8 = n ∧ d.cch.range ≠ none ∧
        d.cry.ops.map (fun o => (o.step, o.purging)) = [(.installPurge n r, true)]) ∧
    (∀ s : State, s.dev.cry.ops = [] →
      Completes .rngHealthFail s fun d =>
        d.cry = { s.dev.cry with rngFail := true, rngFails := min 0xFFFF (s.dev.cry.rngFails + 1) } ∧ Raised 193 d ∧
        OnlyIn (.cry :: interruptParts) [0x4540] s.dev d))

/-- Commissioning a pair: points, codes, confirmations and the timeout (R220, R288, R289). Where the model chooses, log entries 1, 5, 60 and
78 say how. -/
def Obligations.CommissioningAgreesOrIsAbandoned : Prop :=
  (∀ (s : State) (cr : Credits) (p : List Byte), s.dev.lath.live = true → s.dev.gen.mode = .dustSheet → s.dev.cry.commission = none →
    Completes (.pairPoint cr p) s fun d =>
      d.cry = { s.dev.cry with heldPoint := some p } ∧ OnlyIn [.lath, .cry, .draws] [0xE028] s.dev d) ∧
  (∀ (s : State) (cr : Credits) (p : List Byte) (c : Commission), s.dev.lath.live = true → s.dev.gen.mode = .dustSheet →
      s.dev.cry.commission = some c → c.peerPoint = none → c.tag = none →
    Completes (.pairPoint cr p) s fun d =>
      Config.p256Valid p = true →
      (d.cry.commission.bind (·.peerPoint)) = some p ∧ (d.cry.commission.map (·.code)) = d.cry.checkCode ∧
      (d.cry.checkCode.map fun n => decide (n < 1000000)) = some true ∧ Raised 139 d) ∧
  (∀ (s : State) (cr : Credits) (code : Nat) (peerKeys : Bool) (c : Commission), s.dev.lath.live = true → s.dev.gen.mode = .dustSheet →
      s.dev.cry.commission = some c → c.pairKey ≠ none → c.code = code → c.localConfirmed = none →
    Completes (.pairConfirm cr code peerKeys) s fun d =>
      d.cry.commission = some { c with peerConfirmed := true, peerKeys := peerKeys } ∧
      LathMsg.pairConfirmAck true ∈ d.lath.queue ∧ OnlyIn [.lath, .cry] [0xE028] s.dev d) ∧
  (∀ (s : State) (cr : Credits) (code : Nat) (peerKeys : Bool) (c : Commission), s.dev.lath.live = true → s.dev.gen.mode = .dustSheet →
      s.dev.cry.commission = some c → c.code ≠ code → c.tag = none → c.localConfirmed = none →
    Completes (.pairConfirm cr code peerKeys) s fun d =>
      d.cry.commission = none ∧ d.cry.checkCode = none ∧ LathMsg.pairConfirmAck false ∈ d.lath.queue ∧
      d.lath.commissionFailed = true ∧ Raised 140 d) ∧
  (∀ (s : State) (cr : Credits) (c : Commission), s.dev.lath.live = true → s.dev.cry.commission = some c → c.tag = none →
      c.localConfirmed = none →
    Completes (.pairConfirmAck cr false) s fun d =>
      d.cry.commission = none ∧ d.lath.commissionFailed = true ∧ Raised 140 d ∧
      OnlyIn ([.lath, .cry] ++ interruptParts) [0xE028, 0x4540] s.dev d) ∧
  (∀ (s : State) (c : Commission), s.dev.cry.commission = some c → c.pairKey ≠ none →
      c.readyAt + 600 * ticksPerS ≤ s.dev.now → c.tag = none → c.localConfirmed = none →
    Completes .commissionTimeout s fun d =>
      d.cry.commission = none ∧ d.cry.checkCode = none ∧ d.lath.commissionFailed = true ∧ Raised 140 d ∧
      OnlyIn ([.lath, .cry] ++ interruptParts) [0x4540] s.dev d) ∧
  (∀ (s : State) (c : Commission), s.dev.cry.commission = some c → s.dev.now < c.readyAt + 600 * ticksPerS →
    Completes .commissionTimeout s fun d => d = s.dev)

/-- The range engine runs one operation at a time (R243 to R245, Table 09-3). Where the model chooses, log entries 1 and 100 say how. -/
def Obligations.RangeEngineRunsOneOperation : Prop :=
  (∀ s : State, pairRuns s.dev = true → s.dev.cch.range = none →
    Completes (.invalidate .mgmt) s fun d =>
      d.cch.range = some (.invalidate (rangeBounds s.dev).1 (rangeBounds s.dev).2, []) ∧ d.cch.affected = countLines s.dev (rangeMatches (.invalidate (rangeBounds s.dev).1 (rangeBounds s.dev).2)) ∧
      countLines d (rangeMatches (.invalidate (rangeBounds s.dev).1 (rangeBounds s.dev).2)) = 0 ∧
      (∀ i, isValid (rangeMatches (.invalidate (rangeBounds s.dev).1 (rangeBounds s.dev).2)) (s.dev.line i) = false → d.line i = s.dev.line i) ∧
      d.regF 0xC010 2 0 = 1 ∧ OnlyIn [.cch] [0xC010] s.dev d) ∧
  (∀ s : State, pairRuns s.dev = true → s.dev.cch.range = none →
    Completes (.purgeOwner .mgmt) s fun d =>
      d.cch.range = some (.purgeOwner (s.dev.regF 0xC010 11 8), []) ∧ d.cch.affected = countLines s.dev (rangeMatches (.purgeOwner (s.dev.regF 0xC010 11 8))) ∧
      countLines d (rangeMatches (.purgeOwner (s.dev.regF 0xC010 11 8))) = 0 ∧
      (∀ i, isValid (rangeMatches (.purgeOwner (s.dev.regF 0xC010 11 8))) (s.dev.line i) = false → d.line i = s.dev.line i) ∧
      d.regF 0xC010 2 0 = 3 ∧ OnlyIn [.cch] [0xC010] s.dev d) ∧
  (∀ s : State, pairRuns s.dev = true → s.dev.cch.range = none → s.dev.gen.mode ≠ .topcoat →
    Completes (.clean .mgmt) s fun d =>
      d.cch.range = some (.clean, []) ∧ (∀ k, k < 16 → cohOf s.dev k = .m → cohOf d k = .e) ∧ OnlyIn [.cch] [0xC010] s.dev d) ∧
  (∀ s : State, pairRuns s.dev = true → s.dev.cch.range = none → s.dev.gen.mode = .topcoat →
    Completes (.clean .mgmt) s fun d =>
      d.cch.range = some (.clean, (List.range 16).filter fun k => cohOf s.dev k = .m) ∧
      d.cch.notices = s.dev.cch.notices ++ (List.range 16).filter (fun k => cohOf s.dev k = .m) ∧
      OnlyIn [.cch, .lath] [0xC010] s.dev d) ∧
  (∀ s : State, pairRuns s.dev = true → s.dev.cch.range = none → s.dev.gen.mode ≠ .topcoat →
      (findLine s.dev (isTable (s.dev.regF 0xC010 19 16))).isSome = true →
    Completes (.zeroLine .mgmt) s fun d =>
      cohOf d (s.dev.regF 0xC010 19 16) = .m ∧ tableOf d (s.dev.regF 0xC010 19 16) = [] ∧
      tablePoison d (s.dev.regF 0xC010 19 16) = 0 ∧ OnlyIn [.cch] [0xC010] s.dev d) ∧
  (∀ (s : State) (c : Instr), pairRuns s.dev = true → s.dev.cch.range ≠ none →
      c ∈ [Instr.invalidate .mgmt, .clean .mgmt, .purgeOwner .mgmt, .zeroLine .mgmt] →
    Completes c s fun d =>
      d.cch = { s.dev.cch with ignored := true } ∧ Raised 113 d ∧ OnlyIn (.cch :: interruptParts) [0x4540] s.dev d) ∧
  (∀ (s : State) (op : RangeOp), s.dev.cch.range = some (op, []) → s.dev.rcl.tasks = [] → s.dev.rcl.groups = [] → s.dev.cry.ops = [] →
    Completes .rangeOpDone s fun d =>
      d.cch = { s.dev.cch with range := none } ∧ Raised 112 d ∧ OnlyIn (.cch :: interruptParts) [0x4540] s.dev d) ∧
  (∀ (s : State) (op : RangeOp) (k : Nat) (ks : List Nat), s.dev.cch.range = some (op, k :: ks) →
    Completes .rangeOpDone s fun d => d = s.dev)

/-- A request of the peer for a table line is answered as Table 09-6 gives (R248, R249, R254). -/
def Obligations.PeerRequestsAreAnswered : Prop :=
  ∀ (s : State) (cr : Credits) (k : Nat), s.dev.lath.live = true → s.dev.gen.mode = .topcoat → k < 16 →
    tableBusy s.dev k = false → (requestOut s.dev k = false ∨ twinId s.dev = 1) →
    (evictOut s.dev k = false → cohOf s.dev k = .m →
      Completes (.rd cr k) s fun d =>
        LathMsg.data k .s (tableOf s.dev k) (tablePoison s.dev k) ∈ d.lath.queue ∧ cohOf d k = .s ∧
        sget (fun _ => []) d.cch.store k = tableOf s.dev k ∧ OnlyIn [.lath, .cch] [0xE028] s.dev d) ∧
    (evictOut s.dev k = false → cohOf s.dev k = .e →
      Completes (.rd cr k) s fun d =>
        LathMsg.none k .s ∈ d.lath.queue ∧ cohOf d k = .s ∧ OnlyIn [.lath, .cch] [0xE028] s.dev d) ∧
    (evictOut s.dev k = false → cohOf s.dev k = .i →
      Completes (.rd cr k) s fun d => LathMsg.none k .e ∈ d.lath.queue ∧ OnlyIn [.lath] [0xE028] s.dev d) ∧
    (evictOut s.dev k = false → cohOf s.dev k = .m →
      Completes (.own cr k) s fun d =>
        LathMsg.data k .m (tableOf s.dev k) (tablePoison s.dev k) ∈ d.lath.queue ∧ cohOf d k = .i ∧
        OnlyIn [.lath, .cch] [0xE028] s.dev d) ∧
    (evictOut s.dev k = false → cohOf s.dev k ≠ .m →
      Completes (.own cr k) s fun d =>
        LathMsg.none k .m ∈ d.lath.queue ∧ cohOf d k = .i ∧ OnlyIn [.lath, .cch] [0xE028] s.dev d) ∧
    (evictOut s.dev k = false → cohOf s.dev k ≠ .m →
      Completes (.upg cr k) s fun d =>
        LathMsg.none k .m ∈ d.lath.queue ∧ cohOf d k = .i ∧ OnlyIn [.lath, .cch] [0xE028] s.dev d) ∧
    (∀ c, c ∈ [Instr.rd cr k, .own cr k, .upg cr k] → evictOut s.dev k = true →
      Completes c s fun d =>
        LathMsg.evicting k ∈ d.lath.queue ∧ Raised 116 d ∧
        d.reg 0xC110 = BitVec.ofNat 32 (min 0xFFFFFFFF ((s.dev.reg 0xC110).toNat + 1)) ∧
        OnlyIn (.lath :: interruptParts) [0xE028, 0xC110, 0x4540] s.dev d)

/-- The peer's answers and notices for table lines (R240, R248, R254, Table 09-5). -/
def Obligations.PeerAnswersAndNoticesTakeEffect : Prop :=
  ∀ (s : State) (cr : Credits) (k : Nat) (recs : TableRecs) (poison : BitVec 32) (c : Coh), s.dev.lath.live = true →
    (requestOut s.dev k = true →
      Completes (.evicting cr k) s fun d =>
        requestOut d k = true ∧ Raised 116 d ∧
        d.reg 0xC110 = BitVec.ofNat 32 (min 0xFFFFFFFF ((s.dev.reg 0xC110).toNat + 1)) ∧
        OnlyIn (.lath :: interruptParts) [0xE028, 0xC110, 0x4540] s.dev d) ∧
    (requestOut s.dev k = true → NothingWaits s.dev → (findLine s.dev (isTable k)).isSome = true →
      Completes (.data cr k c recs poison) s fun d =>
        requestOut d k = false ∧ cohOf d k = c ∧ tableOf d k = recs ∧ tablePoison d k = poison ∧
        sget (fun _ => []) d.cch.store k = recs) ∧
    (requestOut s.dev k = true → NothingWaits s.dev → (findLine s.dev (isTable k)).isSome = true →
      Completes (.none cr k c) s fun d =>
        requestOut d k = false ∧ cohOf d k = c ∧ tableOf d k = tableOf s.dev k ∧ tablePoison d k = tablePoison s.dev k) ∧
    (requestOut s.dev k = false →
      Completes (.data cr k c recs poison) s fun d => OnlyIn [.lath] [0xE028] s.dev d) ∧
    (requestOut s.dev k = false → s.dev.gen.mode = .topcoat →
      Completes (.evict cr k) s fun d => LathMsg.evictAck k ∈ d.lath.queue ∧ OnlyIn [.lath] [0xE028] s.dev d) ∧
    (requestOut s.dev k = false → s.dev.gen.mode = .topcoat →
      Completes (.evictD cr k recs poison) s fun d =>
        LathMsg.evictAck k ∈ d.lath.queue ∧ sget (fun _ => []) d.cch.store k = recs ∧
        sget (fun _ => 0) d.cch.storePoison k = poison ∧ d.cch.main = s.dev.cch.main ∧ d.cch.victim = s.dev.cch.victim ∧
        OnlyIn [.lath, .cch] [0xE028] s.dev d) ∧
    (s.dev.gen.mode = .topcoat →
      Completes (.cleanD cr k recs poison) s fun d =>
        LathMsg.evictAck k ∈ d.lath.queue ∧ sget (fun _ => []) d.cch.store k = recs ∧
        sget (fun _ => 0) d.cch.storePoison k = poison ∧ d.cch.main = s.dev.cch.main ∧ d.cch.victim = s.dev.cch.victim ∧
        OnlyIn [.lath, .cch] [0xE028] s.dev d) ∧
    (∀ i, i ∈ [Instr.evict cr k, .evictD cr k recs poison, .cleanD cr k recs poison] → s.dev.gen.mode ≠ .topcoat →
      Completes i s fun d => OnlyIn [.lath] [0xE028] s.dev d) ∧
    (NothingWaits s.dev →
      Completes (.evictAck cr k) s fun d =>
        d.cch = { s.dev.cch with notices := s.dev.cch.notices.erase k } ∧ OnlyIn [.lath, .cch, .hif] [0xE028] s.dev d)

/-- Ageing, a fill that waited, an error in the cache's memory, a table line no longer in use (R235, R238, R241, R242, R249). Where the
model chooses, log entries 1 and 100 say how. -/
def Obligations.CacheLinesAgeFillAndFail : Prop :=
  (∀ s : State, (4096 ≤ s.dev.cch.accesses ∨ s.dev.cch.agedAt + 25000 ≤ s.dev.now) →
    Completes .ageingTick s fun d =>
      d.cch.accesses = 0 ∧ d.cch.agedAt = s.dev.now ∧ d.cch.victim = s.dev.cch.victim ∧
      (∀ i, i < 64 → d.line i = if (s.dev.line i).valid then ageLine (s.dev.line i) else s.dev.line i) ∧
      OnlyIn [.cch] [] s.dev d) ∧
  (∀ s : State, s.dev.cch.accesses < 4096 → s.dev.now < s.dev.cch.agedAt + 25000 →
    Completes .ageingTick s fun d => d = s.dev) ∧
  (∀ (s : State) (l : Line) (i : Nat), s.dev.cch.waiting = [l] → heldByRange s.dev l = false → l.table = false →
      (List.range 64).find? (fun j => !(s.dev.line j).valid) = some i →
    Completes .fillAfterWait s fun d =>
      d.line i = l ∧ d.cch.waiting = [] ∧ (∀ j, j ≠ i → d.line j = s.dev.line j) ∧ OnlyIn [.cch] [] s.dev d) ∧
  (∀ s : State, s.dev.cch.waiting = [] → Completes .fillAfterWait s fun d => d = s.dev) ∧
  (∀ (s : State) (i : Nat) (records : BitVec 32), i < 64 → (s.dev.line i).valid = true → (s.dev.line i).table = false →
    Completes (.cacheSramError i records) s fun d =>
      countLines d (fun x => !x.table && x.addr = (s.dev.line i).addr && x.pass = (s.dev.line i).pass) = 0 ∧ Raised 114 d ∧
      d.reg 0xC114 = BitVec.ofNat 32 (min 0xFFFFFFFF ((s.dev.reg 0xC114).toNat + 1)) ∧
      OnlyIn ([.cch, .rdc, .servo, .motion, .wrc] ++ interruptParts)
        [0xC100, 0xC104, 0xC108, 0xC114, 0x9034, 0x9038, 0x4540] s.dev d) ∧
  (∀ (s : State) (i : Nat) (records : BitVec 32), i < 64 → (s.dev.line i).valid = true → (s.dev.line i).table = true →
    Completes (.cacheSramError i records) s fun d =>
      tablePoison d (s.dev.line i).addr = tablePoison s.dev (s.dev.line i).addr ||| records ∧
      tableOf d (s.dev.line i).addr = tableOf s.dev (s.dev.line i).addr ∧ OnlyIn [.cch] [] s.dev d) ∧
  (∀ (s : State) (k : Nat), (requestOut s.dev k = false ∨ twinId s.dev = 1) →
    Completes (.tableLineBusyClear k) s fun d => ∀ p ∈ d.cch.deferred, p.1 ≠ k) ∧
  (∀ (s : State) (k : Nat), s.dev.cch.deferred = [] →
    Completes (.tableLineBusyClear k) s fun d =>
      tableBusy d k = false ∧ tableOf d k = tableOf s.dev k ∧ cohOf d k = cohOf s.dev k ∧ OnlyIn [.cch] [] s.dev d)

/-- Turns of the Lath and its liveness (R258, R260 to R262, R264, R269). Where the model chooses, log entries 1 and 15 say how. -/
def Obligations.LathTurnsAndLiveness : Prop :=
  (∀ (s : State) (m : LathMsg) (arbIn : Option Nat), s.dev.lath.live = true → s.dev.lath.arbOut = true → s.dev.lath.guard = false →
      s.dev.lath.arbSince + 5 ≤ s.dev.now → s.dev.lath.queue = [m] → hasCredit s.dev.lath m = true →
      (arbIn ≠ some 0 ∨ msgClass m = 0) →
    Completes (.directionTake arbIn) s fun d =>
      d.lath.queue = [] ∧ d.lath.sent = (m, { control := min 32 s.dev.lath.freedC, data := min 8 s.dev.lath.freedD }) :: s.dev.lath.sent ∧
      d.lath.dir = .idle ∧ d.lath.arbOut = false ∧ d.lath.guard = true ∧ d.lath.guardEnd = s.dev.now + 12 ∧
      d.lath.wires = messageWires ((freeDraw s.dev).setWidth 8) m
        { control := min 32 s.dev.lath.freedC, data := min 8 s.dev.lath.freedD } ∧
      d.lath.creditC + d.lath.creditD + 1 = s.dev.lath.creditC + s.dev.lath.creditD ∧
      d.reg 0xE024 = BitVec.ofNat 32 (min 0xFFFFFFFF ((s.dev.reg 0xE024).toNat + 1)) ∧ OnlyIn [.lath, .draws] [0xE024] s.dev d) ∧
  (∀ (s : State) (m : LathMsg), s.dev.lath.live = true → s.dev.lath.arbOut = true → s.dev.lath.guard = false →
      s.dev.lath.arbSince + 5 ≤ s.dev.now → s.dev.lath.queue = [m] → msgClass m ≠ 0 →
    Completes (.directionTake (some 0)) s fun d =>
      d.lath = { s.dev.lath with dir := .idle, arbOut := false, guard := true, guardEnd := s.dev.now + 12 } ∧ OnlyIn [.lath] [] s.dev d) ∧
  (∀ (s : State) (arbIn : Option Nat), (s.dev.lath.guard = true ∨ s.dev.now < s.dev.lath.arbSince + 5) →
    Completes (.directionTake arbIn) s fun d => d = s.dev) ∧
  (∀ s : State, s.dev.lath.live = true → s.dev.lath.arbOut = true → twinId s.dev = 0 →
    Completes .arbCollision s fun d =>
      d.reg 0xE020 = BitVec.ofNat 32 (min 0xFFFFFFFF ((s.dev.reg 0xE020).toNat + 1)) ∧ OnlyIn [] [0xE020] s.dev d) ∧
  (∀ s : State, s.dev.lath.live = true → s.dev.lath.arbOut = true → twinId s.dev = 1 →
    Completes .arbCollision s fun d =>
      d.lath = { s.dev.lath with arbOut := false, dir := .receiving } ∧
      d.reg 0xE020 = BitVec.ofNat 32 (min 0xFFFFFFFF ((s.dev.reg 0xE020).toNat + 1)) ∧ OnlyIn [.lath] [0xE020] s.dev d) ∧
  (∀ s : State, s.dev.lath.guard = true → s.dev.lath.guardEnd ≤ s.dev.now →
    Completes .guardTimeEnd s fun d =>
      d.lath.guard = false ∧ d.lath.arbOut = (s.dev.lath.arbOut || !s.dev.lath.queue.isEmpty) ∧ d.lath.queue = s.dev.lath.queue ∧
      OnlyIn [.lath] [] s.dev d) ∧
  (∀ s : State, s.dev.now < s.dev.lath.guardEnd → Completes .guardTimeEnd s fun d => d = s.dev) ∧
  (∀ s : State, s.dev.lath.pauseUntil = none → s.dev.lath.aliveAt + 2500 ≤ s.dev.now →
    Completes .aliveToggle s fun d =>
      d.lath = { s.dev.lath with aliveOut := !s.dev.lath.aliveOut, aliveAt := s.dev.now } ∧ OnlyIn [.lath] [] s.dev d) ∧
  (∀ s : State, (s.dev.lath.pauseUntil ≠ none ∨ s.dev.now < s.dev.lath.aliveAt + 2500) → Completes .aliveToggle s fun d => d = s.dev) ∧
  (∀ (s : State) (t : Nat), s.dev.lath.pauseUntil = some t → t ≤ s.dev.now →
    Completes .alivePauseEnd s fun d => d.lath = { s.dev.lath with pauseUntil := none } ∧ OnlyIn [.lath] [] s.dev d) ∧
  (∀ s : State, s.dev.lath.live = true →
    Completes .lathDown s fun d =>
      d.lath.live = false ∧ d.gen.mode ≠ .topcoat ∧ Raised 129 d ∧
      d.reg 0xE030 = BitVec.ofNat 32 (min 0xFFFFFFFF ((s.dev.reg 0xE030).toNat + 1))) ∧
  (∀ s : State, s.dev.lath.live = true →
    Completes .lathLinkError s fun d =>
      d.lath.live = false ∧ d.lath.pauseUntil = some (s.dev.now + 250000) ∧ d.gen.mode ≠ .topcoat ∧ Raised 137 d ∧ Raised 129 d ∧
      d.reg 0xE02C = BitVec.ofNat 32 (min 0xFFFFFFFF ((s.dev.reg 0xE02C).toNat + 1))) ∧
  (∀ s : State, s.dev.lath.live = false → s.dev.lath.pauseUntil = none → s.dev.gen.mode ≠ .primer →
    Completes .lathLive s fun d =>
      d.lath.live = true ∧ d.lath.creditC = 32 ∧ d.lath.creditD = 8 ∧ d.lath.link = .attaching ∧
      d.lath.queue = [.hello (myBlock s.dev)] ∧ OnlyIn [.lath] [] s.dev d)

/-- The peer's health, its mode, and the attach (R15, R270, R272, R276, R278, R279, R284). Where the model chooses, log entries 30, 52 and
99 say how. -/
def Obligations.PeerHealthModeAndAttach : Prop :=
  (∀ (s : State) (low : Nat), inPeer s.dev = true → 1000 ≤ low → low ≤ 50000 → Completes (.inPeerPulse low) s fun d =>
      d.fio = { s.dev.fio with
        lastPulse := s.dev.now,
        peerGoodSince := if s.dev.fio.lastPulse + 7500000 < s.dev.now then s.dev.now else s.dev.fio.peerGoodSince } ∧
      OnlyIn [.fio] [] s.dev d) ∧
  (∀ (s : State) (low : Nat), (low < 1000 ∨ 50000 < low) → Completes (.inPeerPulse low) s fun d => d = s.dev) ∧
  (∀ s : State, s.dev.lath.peerHealthy = true → peerLooksFaulted s.dev = true →
    Completes .inPeerFaulted s fun d => d.lath.peerHealthy = false ∧ d.gen.mode ≠ .topcoat ∧ Raised 130 d) ∧
  (∀ s : State, s.dev.lath.peerHealthy = false → inPeer s.dev = true → peerLooksFaulted s.dev = false →
      s.dev.fio.peerGoodSince + ticksPerS ≤ s.dev.now →
    Completes .inPeerHealthy s fun d => d.lath.peerHealthy = true ∧ Raised 131 d ∧ OnlyIn (.lath :: interruptParts) [0x4540] s.dev d) ∧
  (∀ (s : State) (cr : Credits) (sealing : Bool), s.dev.lath.live = true → s.dev.gen.mode ≠ .topcoat →
    Completes (.modeNote cr .primer sealing) s fun d =>
      d.lath.peerMode = some .primer ∧ d.lath.peerSealing = sealing ∧ Raised 141 d ∧
      OnlyIn (.lath :: interruptParts) [0xE028, 0x4540] s.dev d) ∧
  (∀ (s : State) (cr : Credits) (m : Mode), s.dev.lath.live = true → s.dev.gen.mode = .topcoat → s.dev.lath.detaching = none →
      m ≠ .topcoat →
    Completes (.modeNote cr m false) s fun d => d.gen.mode = .undercoat ∧ d.lath.peerMode = some m) ∧
  (∀ (s : State) (cr : Credits), s.dev.lath.live = true → s.dev.gen.mode = .undercoat → s.dev.lath.sentTopcoat = true →
      s.dev.lath.peerHealthy = true →
    Completes (.modeNote cr .topcoat false) s fun d => d.gen.mode = .topcoat ∧ d.lath.link = .mirroring ∧ Raised 132 d) ∧
  (∀ (s : State) (cr : Credits) (b : AttachBlock), s.dev.lath.live = true → s.dev.gen.mode ≠ .primer →
      (s.dev.gen.mode = .topcoat → b.mode = .topcoat) → s.dev.lath.ackSent = false → s.dev.lath.ackSeen = false →
    Completes (.hello cr b) s fun d =>
      d.lath.peer = some b ∧ d.lath.peerMode = some b.mode ∧ d.lath.ackSent = true ∧ LathMsg.helloAck (myBlock s.dev) ∈ d.lath.queue ∧
      OnlyIn [.lath] [0xE028] s.dev d) ∧
  (∀ (s : State) (cr : Credits) (b : AttachBlock), s.dev.lath.live = true → s.dev.gen.mode ≠ .primer → s.dev.lath.ackSent = true →
      (b.twinId = twinId s.dev ∨ b.paired = false ∨ b.fingerprint ≠ (myBlock s.dev).fingerprint) →
    Completes (.helloAck cr b) s fun d =>
      d.lath.refused = true ∧ d.lath.strapConflict = decide (b.twinId = twinId s.dev) ∧ Raised 138 d ∧
      (b.twinId = twinId s.dev →
        d.evt.queue = s.dev.evt.queue ++ [⟨s.dev.now, 1, 138, 0, leBytes 1 (twinId s.dev)⟩]) ∧
      OnlyIn ([.lath, .evt] ++ interruptParts) [0xE028, 0x4540] s.dev d) ∧
  (∀ (s : State) (cr : Credits) (b : AttachBlock), s.dev.lath.live = true → s.dev.gen.mode = .undercoat → s.dev.lath.ackSent = true →
      b.twinId ≠ twinId s.dev → b.paired = true → isPaired s.dev = true → b.fingerprint = (myBlock s.dev).fingerprint →
      b.mode = .undercoat → s.dev.lath.peerHealthy = true → s.dev.pwr.sealStep = 0 →
    Completes (.helloAck cr b) s fun d =>
      d.lath.link = .reconciling ∧ d.cch.requests = [] ∧ d.cch.notices = [] ∧ Raised 128 d ∧
      ∀ k, k < 16 → LathMsg.tableXfer k (tableOf s.dev k) (tablePoison s.dev k) ∈ d.lath.queue) ∧
  (∀ (s : State) (cr : Credits) (k : Nat) (recs : TableRecs) (poison : BitVec 32), s.dev.lath.live = true →
      s.dev.lath.link = .reconciling → k < 16 → s.dev.lath.tablesSeen.contains k = false → s.dev.lath.tablesSeen.length < 15 →
    Completes (.tableXfer cr k recs poison) s fun d =>
      d.lath.tablesSeen = s.dev.lath.tablesSeen ++ [k] ∧
      (∀ i, i < 32 → sget (fun _ => {}) d.lath.peerRecs (32 * k + i) = sget (fun _ => {}) recs i) ∧
      OnlyIn [.lath] [0xE028] s.dev d)

/-- A mirrored append as the follower and the leader see it, and a caught-up group as its receiver sees it (R183, R274, R275, R282). Where
the model chooses, log entries 22 and 94 say how. -/
def Obligations.MirroredGroupsCross : Prop :=
  (∀ (s : State) (cr : Credits) (xid owner mark n : Nat), s.dev.lath.live = true → s.dev.gen.mode = .topcoat → s.dev.hif.ps = 0 →
    Completes (.appBegin cr xid owner mark n) s fun d =>
      ({ xid := xid, catching := false, owner := owner, mark := mark, units := n, received := [], poisoned := false, group := none }
        : Exchange) ∈ d.lath.exchanges ∧ OnlyIn [.lath] [0xE028] s.dev d) ∧
  (∀ (s : State) (cr : Credits) (xid owner mark n : Nat), s.dev.lath.live = true → s.dev.gen.mode = .undercoat → s.dev.hif.ps = 0 →
    Completes (.catchBegin cr xid owner mark n) s fun d =>
      ({ xid := xid, catching := true, owner := owner, mark := mark, units := n, received := [], poisoned := false, group := none }
        : Exchange) ∈ d.lath.exchanges ∧ OnlyIn [.lath] [0xE028] s.dev d) ∧
  (∀ (s : State) (cr : Credits) (xid unit : Nat) (bytes : List Byte) (poison : BitVec 32) (x : Exchange), s.dev.lath.live = true →
      s.dev.lath.exchanges.find? (fun y => y.xid = xid && y.catching = false) = some x → (∀ u ∈ x.received, u.1 ≠ unit) →
      x.received.length + 1 < x.units →
    Completes (.appData cr xid unit bytes poison) s fun d =>
      { x with received := x.received ++ [(unit, bytes)], poisoned := x.poisoned || poison != 0 } ∈ d.lath.exchanges ∧
      OnlyIn [.lath, .draws] [0xE028] s.dev d) ∧
  (∀ (s : State) (cr : Credits) (xid unit : Nat) (bytes : List Byte) (poison : BitVec 32) (x : Exchange), s.dev.lath.live = true →
      s.dev.lath.exchanges.find? (fun y => y.xid = xid && y.catching = true) = some x → (∀ u ∈ x.received, u.1 ≠ unit) →
      x.received.length + 1 < x.units →
    Completes (.catchData cr xid unit bytes poison) s fun d =>
      { x with received := x.received ++ [(unit, bytes)], poisoned := x.poisoned || poison != 0 } ∈ d.lath.exchanges ∧
      OnlyIn [.lath, .draws] [0xE028] s.dev d) ∧
  (∀ (s : State) (cr : Credits) (xid t : Nat) (ovr : Bool) (g : Machine.Group), s.dev.lath.live = true → s.dev.rcl.groups = [g] →
      s.dev.lath.openXids = [(xid, g.id)] → g.role = .leader t → g.stream < 512 → g.st = .open → g.sent = true →
    Completes (.appVerified cr xid (groupMark g) ovr) s fun d =>
      d.rcl.groups = [{ g with peerDone := true, peerOvr := g.peerOvr || ovr }] ∧ d.lath.openXids = [] ∧
      OnlyIn [.lath, .rcl] [0xE028] s.dev d) ∧
  (∀ (s : State) (cr : Credits) (xid t status : Nat) (g : Machine.Group), s.dev.lath.live = true → s.dev.rcl.groups = [g] →
      s.dev.lath.openXids = [(xid, g.id)] → g.role = .leader t → g.stream < 512 → g.st = .open → g.sent = true →
    Completes (.appFailed cr xid (groupMark g) status) s fun d =>
      d.rcl.groups = [{ g with st := .void }] ∧ d.lath.openXids = [] ∧ Raised 142 d ∧ Raised 205 d ∧
      d.reg 0x1501C = BitVec.ofNat 32 (min 0xFFFFFFFF ((s.dev.reg 0x1501C).toNat + 1))) ∧
  (∀ (s : State) (cr : Credits) (xid : Nat) (g : Machine.Group), s.dev.lath.live = true → s.dev.rcl.groups = [g] →
      g.role = .follower xid → g.stream < 512 → g.st = .open →
    Completes (.appAbort cr xid (groupMark g)) s fun d =>
      d.rcl.groups = [{ g with st := .void }] ∧ Raised 205 d ∧
      (∀ x ∈ d.lath.exchanges, ¬ (x.xid = xid ∧ x.mark = groupMark g ∧ x.catching = false)) ∧
      d.reg 0x1501C = BitVec.ofNat 32 (min 0xFFFFFFFF ((s.dev.reg 0x1501C).toNat + 1)) ∧
      OnlyIn ([.lath, .rcl] ++ interruptParts) [0xE028, 0x1501C, 0x4540] s.dev d)

/-- Catch-up answers, chain values, record bytes for the peer, and the planned detach (R277, R280, R282, R285, R287). Where the model
chooses, log entries 18, 28, 80 and 95 say how. -/
def Obligations.CatchUpRecoveryAndDetach : Prop :=
  (∀ (s : State) (cr : Credits) (xid mark : Nat) (g : Machine.Group), s.dev.lath.live = true → xidGroup s.dev xid = some g →
      g.stream < 512 →
    Completes (.catchDone cr xid mark) s fun d =>
      g.first + g.count ≤ sget (fun _ => 0) d.lath.peerHeads g.stream ∧ groupMark g ∉ d.lath.peerGaps) ∧
  (∀ (s : State) (cr : Credits) (xid mark status : Nat) (g : Machine.Group), s.dev.lath.live = true → xidGroup s.dev xid = some g →
      g.stream < 512 →
    Completes (.catchFailed cr xid mark status) s fun d =>
      g.first + g.count ≤ sget (fun _ => 0) d.lath.peerHeads g.stream ∧ groupMark g ∈ d.lath.peerGaps ∧ Raised 143 d) ∧
  (∀ (s : State) (cr : Credits) (mark : Nat), s.dev.lath.live = true →
      (streamRec s.dev (markStream mark)).head = markSeq mark →
    Completes (.chainReq cr mark) s fun d =>
      LathMsg.chainVal mark (streamRec s.dev (markStream mark)).chain ∈ d.lath.queue ∧ OnlyIn [.lath] [0xE028] s.dev d) ∧
  (∀ (s : State) (cr : Credits) (mark : Nat) (h : BitVec 128), s.dev.lath.live = true →
      (s.dev.lath.chainAsked.find? fun p => p.1 = mark) = none →
    Completes (.chainVal cr mark h) s fun d => OnlyIn [.lath] [0xE028] s.dev d) ∧
  (∀ (s : State) (cr : Credits) (mark : Nat) (h : BitVec 128), s.dev.lath.live = true →
      (s.dev.lath.chainAsked.find? fun p => p.1 = mark) = some (mark, .adopt) → s.dev.gen.mode = .undercoat → s.dev.rcl.groups = [] →
      s.dev.lath.link ≠ .catchup → (findLine s.dev (isTable (markStream mark / 32))).isSome = true →
    Completes (.chainVal cr mark h) s fun d =>
      (streamRec d (markStream mark)).chain = h ∧
      (streamRec d (markStream mark)).head = max (streamRec s.dev (markStream mark)).head (markSeq mark)) ∧
  (∀ (s : State) (cr : Credits) (xid mark unit : Nat), s.dev.lath.live = true → s.dev.gen.mode = .topcoat → unit < 65536 →
      groupHeld s.dev (markStream mark) (markSeq mark) = none →
      (markSeq mark < (streamRec s.dev (markStream mark)).tail ∨ (streamRec s.dev (markStream mark)).head ≤ markSeq mark) →
    Completes (.recovReq cr xid mark unit) s fun d =>
      LathMsg.recovData xid unit [] 0xFFFFFFFF ∈ d.lath.queue ∧ OnlyIn [.lath] [0xE028] s.dev d) ∧
  (∀ (s : State) (cr : Credits) (xid mark unit : Nat) (g : Machine.Group) (r : RecInfo), s.dev.lath.live = true →
      s.dev.gen.mode = .topcoat → unit < 65535 → groupHeld s.dev (markStream mark) (markSeq mark) = some g →
      g.recs.find? (fun r => r.seq = markSeq mark) = some r → 4096 * unit < r.len →
      groupParts g (r.off + 4096 * unit) (min 4096 (r.len - 4096 * unit)) 0 ≠ [] →
    Completes (.recovReq cr xid mark unit) s fun d => s.dev.rdc.nextId < d.rdc.nextId) ∧
  (∀ (s : State) (cr : Credits) (xid unit : Nat) (bytes : List Byte) (poison : BitVec 32) (g : GapRead), s.dev.lath.live = true →
      s.dev.lath.gapReads.find? (fun g => g.xid = xid && g.firstUnit + g.units.length = unit) = some g → bytes.length = 4096 →
      4096 * (g.units.length + 1) < g.room →
    Completes (.recovData cr xid unit bytes poison) s fun d =>
      LathMsg.recovReq (s.dev.lath.nextXid % 16) (markOf g.stream g.seq) (unit + 1) ∈ d.lath.queue ∧
      { g with xid := s.dev.lath.nextXid % 16, units := g.units ++ [(bytes, poison != 0)] } ∈ d.lath.gapReads ∧
      OnlyIn [.lath, .hif] [0xE028] s.dev d) ∧
  (∀ (s : State) (cr : Credits) (leaving : Nat), s.dev.lath.live = true → s.dev.gen.mode = .topcoat → leaving < 2 →
      s.dev.lath.detaching = none → s.dev.lath.openXids ≠ [] →
    Completes (.detach cr leaving) s fun d =>
      d.lath.detaching = some (leaving, none) ∧ d.lath.link = .detaching ∧ d.lath.admissionHold = true ∧
      OnlyIn [.lath] [0xE028] s.dev d) ∧
  (∀ (s : State) (cr : Credits) (leaving : Nat), s.dev.lath.live = true → s.dev.gen.mode = .topcoat →
      s.dev.lath.detaching = some (leaving, none) → s.dev.lath.detachClean = false → s.dev.lath.detachSent = false →
      s.dev.lath.openXids ≠ [] →
    Completes (.detachAck cr) s fun d =>
      d.lath.detachSeen = true ∧ d.lath.detaching = some (leaving, none) ∧ OnlyIn [.lath] [0xE028] s.dev d) ∧
  (∀ (s : State) (cr : Credits), s.dev.lath.live = true → s.dev.gen.mode = .topcoat →
      s.dev.lath.detaching = some (1 - twinId s.dev, none) → s.dev.lath.detachClean = true → s.dev.lath.detachSent = true →
      s.dev.cch.range = none →
    Completes (.detachAck cr) s fun d => d.gen.mode = .undercoat ∧ d.lath.detaching = none ∧ d.lath.link = .detached)

/-- The doorbell page is polled, its words are taken in, and a failed poll is made again (R302, R303, R317). Where the model chooses, log
entries 1 and 43 say how. -/
def Obligations.DoorbellPollsTakeTheTails : Prop :=
  (∀ s : State, pollDue s.dev = true → s.dev.icu.retention = false →
    Completes .doorbellPoll s fun d =>
      d.hif = { s.dev.hif with polling := true, pollNow := false, lastPoll := s.dev.now } ∧
      d.reg 0x1030 = BitVec.ofNat 32 (min 0xFFFFFFFF ((s.dev.reg 0x1030).toNat + 1)) ∧ OnlyIn [.hif] [0x1030] s.dev d) ∧
  (∀ s : State, s.dev.hif.pollNow = false → s.dev.now < s.dev.hif.lastPoll + s.dev.hif.interval →
    Completes .doorbellPoll s fun d => d = s.dev) ∧
  (∀ s : State, s.dev.hif.polling = true →
    Completes (.doorbellPollReturn .failed) s fun d =>
      d.hif = { s.dev.hif with polling := false } ∧
      d.reg 0x1038 = BitVec.ofNat 32 (min 0xFFFFFFFF ((s.dev.reg 0x1038).toNat + 1)) ∧ OnlyIn [.hif] [0x1038] s.dev d) ∧
  (∀ (s : State) (page : List Byte), s.dev.hif.polling = true →
      (∀ n, n < 8 → (s.dev.sq n).st = .running → leAt page (0x40 + 4 * n) 4 < min 4096 (sqSize s.dev n)) →
      (∀ n, n < 8 → (s.dev.cq n).st = .running → leAt page (0x60 + 4 * n) 4 < min 4096 (cqSize s.dev n)) →
    Completes (.doorbellPollReturn (.ok page)) s fun d =>
      (∀ n, n < 8 → d.sq n = if (s.dev.sq n).st = .running then { s.dev.sq n with tail := leAt page (0x40 + 4 * n) 4 } else s.dev.sq n) ∧
      (∀ n, n < 8 → d.cq n = if (s.dev.cq n).st = .running then { s.dev.cq n with head := leAt page (0x60 + 4 * n) 4 } else s.dev.cq n) ∧
      d.hif.polling = false ∧ d.hif.posted = false ∧ d.hif.cmds = s.dev.hif.cmds ∧
      d.hif.interval = (
        let b := pollBounds s.dev
        let hint := leAt page 0 4
        if hint.testBit 31 || ((List.range 8).any fun n => (s.dev.sq n).st = .running && leAt page (0x40 + 4 * n) 4 != (s.dev.sq n).tail) ||
            s.dev.hif.posted then b.1
        else if hint.testBit 30 then b.2
        else max b.1 (min b.2 (2 * s.dev.hif.interval))) ∧
      OnlyIn [.hif] [] s.dev d) ∧
  (∀ (s : State) (page : List Byte) (n : Nat), s.dev.hif.polling = true → n < 8 → (s.dev.sq n).st = .running →
      min 4096 (sqSize s.dev n) ≤ leAt page (0x40 + 4 * n) 4 →
    Completes (.doorbellPollReturn (.ok page)) s fun d =>
      (d.sq n).st = .error ∧ (d.sq n).err = 1 ∧ (d.sq n).tail = (s.dev.sq n).tail ∧ Raised n d)

/-- Entries are fetched one at a time, round robin under the in-flight limits, and a fetched command is in flight (R307 to R309, R317).
Where the model chooses, log entries 1 and 46 say how. -/
def Obligations.EntriesAreFetchedInTurn : Prop :=
  (∀ s : State, mayFetch s.dev = true → wbit (s.dev.reg 0x2200) 31 = true → sqReady s.dev (s.dev.regF 0x2200 2 0) = true →
    Completes .fetchEntry s fun d =>
      d.hif = { s.dev.hif with fetching := some (s.dev.regF 0x2200 2 0) } ∧ OnlyIn (.hif :: interruptParts) [0x2204, 0x4540] s.dev d) ∧
  (∀ s : State, mayFetch s.dev = true → wbit (s.dev.reg 0x2200) 31 = false → sqReady s.dev s.dev.hif.turn = true →
      s.dev.hif.turnUsed < s.dev.regF (0x2008 + 0x20 * s.dev.hif.turn) 27 24 + 1 →
    Completes .fetchEntry s fun d =>
      d.hif = { s.dev.hif with fetching := some s.dev.hif.turn, turnUsed := s.dev.hif.turnUsed + 1 } ∧
      OnlyIn (.hif :: interruptParts) [0x2204, 0x4540] s.dev d) ∧
  (∀ (s : State) (k : Nat), mayFetch s.dev = true → wbit (s.dev.reg 0x2200) 31 = false → k < 8 →
      (sqReady s.dev s.dev.hif.turn = true → s.dev.regF (0x2008 + 0x20 * s.dev.hif.turn) 27 24 + 1 ≤ s.dev.hif.turnUsed) →
      sqReady s.dev ((s.dev.hif.turn + 1 + k) % 8) = true →
      (∀ j, j < k → sqReady s.dev ((s.dev.hif.turn + 1 + j) % 8) = false) →
    Completes .fetchEntry s fun d =>
      d.hif = { s.dev.hif with fetching := some ((s.dev.hif.turn + 1 + k) % 8), turn := (s.dev.hif.turn + 1 + k) % 8, turnUsed := 1 } ∧
      OnlyIn (.hif :: interruptParts) [0x2204, 0x4540] s.dev d) ∧
  (∀ s : State, 256 ≤ inFlight s.dev → Completes .fetchEntry s fun d => d = s.dev) ∧
  (∀ (s : State) (n : Nat), s.dev.hif.fetching = some n → (s.dev.sq n).st = .running → n < 8 →
    Completes (.entryFetched .failed) s fun d =>
      d.hif.fetching = none ∧ d.hif.cmds = s.dev.hif.cmds ∧ d.sq n = { s.dev.sq n with st := .error, err := 2 } ∧ Raised n d ∧ Raised 13 d ∧
      d.reg 0x1038 = BitVec.ofNat 32 (min 0xFFFFFFFF ((s.dev.reg 0x1038).toNat + 1)) ∧
      OnlyIn (.hif :: interruptParts) [0x1038, 0x4540] s.dev d) ∧
  (∀ (s : State) (n : Nat) (e : List Byte), s.dev.hif.fetching = some n → (∀ x ∈ s.dev.hif.cmds, x.tag ≠ s.dev.hif.nextTag) →
      entryStatus n e = none → eSgl e = false → modeAccepts s.dev e = true →
      (isAdmin (eOpcode e) = true ∨ slotStatus s.dev (ringOwner s.dev n) = none) → (needsMedium (newCmd n e s.dev) = true → s.dev.hif.ps = 0) →
    Completes (.entryFetched (.ok e)) s fun d =>
      d.hif.fetching = none ∧
      d.hif.cmds = s.dev.hif.cmds ++ [{ newCmd n e s.dev with phase := if eOpcode e = 0x01 then .admission else .dispatched }] ∧
      d.sq n = passEntry (sqSize s.dev n) (s.dev.sq n) ∧
      d.reg 0x2208 = BitVec.ofNat 32 (min 0xFFFFFFFF ((s.dev.reg 0x2208).toNat + 1)) ∧ OnlyIn [.hif] [0x2208] s.dev d) ∧
  (∀ (s : State) (n st : Nat) (e : List Byte), s.dev.hif.fetching = some n → (∀ x ∈ s.dev.hif.cmds, x.tag ≠ s.dev.hif.nextTag) →
      entryStatus n e = some st →
    Completes (.entryFetched (.ok e)) s fun d => ∃ x ∈ d.hif.ready, x.tag = s.dev.hif.nextTag ∧ x.sq = n ∧ x.status = st)

/-- Scatter lists and payloads come in, and completions go out with their signals (R296, R298, R310, R311, R317). Where the model chooses,
log entries 13, 45 and 47 say how. -/
def Obligations.PayloadsComeAndCompletionsGo : Prop :=
  (∀ (s : State) (tag : Nat) (c : Cmd) (bytes : List Byte), s.dev.cmd tag = some c → c.phase = .payload →
      bytes.length = eDlen c.entry →
    Completes (.payloadReadReturn tag false (.ok bytes)) s fun d =>
      d.cmd tag = some { c with phase := .dispatched, payload := bytes } ∧ OnlyIn [.hif] [] s.dev d) ∧
  (∀ (s : State) (tag : Nat) (c : Cmd), s.dev.cmd tag = some c → c.phase = .payload →
    Completes (.payloadReadReturn tag false .failed) s fun d =>
      d.cmd tag = some { c with phase := .dispatched, payload := List.replicate (eDlen c.entry) 0, poisoned := true } ∧
      OnlyIn [.hif] [] s.dev d) ∧
  (∀ (s : State) (tag : Nat) (c : Cmd), s.dev.cmd tag = some c → c.phase = .scatter → (s.dev.sq c.sq).st = .running →
    Completes (.payloadReadReturn tag true .failed) s fun d =>
      d.cmd tag = some { c with phase := .dead } ∧ (d.sq c.sq).st = .error ∧ (d.sq c.sq).err = 2 ∧ Raised 13 d ∧
      OnlyIn (.hif :: interruptParts) [0x1038, 0x4540] s.dev d) ∧
  (∀ (s : State) (c : Completion) (n : Nat), busOpen s.dev = true → s.dev.pwr.st ≠ .sealed → s.dev.gen.enterTag = none →
      n = cqOf s.dev c.sq → n < 8 →
      s.dev.hif.ready.find? (fun x => (s.dev.cq (cqOf s.dev x.sq)).st = .running &&
        ringNext (cqSize s.dev (cqOf s.dev x.sq)) (s.dev.cq (cqOf s.dev x.sq)).tail != (s.dev.cq (cqOf s.dev x.sq)).head) = some c →
    Completes .postCompletion s fun d =>
      HostWrite.bytes (hostAddr s.dev (0x2100 + 0x20 * n) + 16 * (s.dev.cq n).tail)
        (leBytes 8 c.result.toNat ++ leBytes 2 (sqHead s.dev c.sq) ++ leBytes 1 c.sq ++
          leBytes 1 (flagByte c.single c.ovr (c.status = stPoisoned) (s.dev.cq n).phase) ++ leBytes 2 c.cid ++ leBytes 2 c.status)
        ∈ d.bus.out ∧
      (d.cq n).tail = ringNext (cqSize s.dev n) (s.dev.cq n).tail ∧
      (d.cq n).phase = (if ringNext (cqSize s.dev n) (s.dev.cq n).tail = 0 then !(s.dev.cq n).phase else (s.dev.cq n).phase) ∧
      (∀ x ∈ d.hif.cmds, x.tag ≠ c.tag) ∧ (∀ x ∈ d.hif.ready, x.tag ≠ c.tag) ∧ d.hif.posted = true ∧
      d.reg 0x220C = BitVec.ofNat 32 (min 0xFFFFFFFF ((s.dev.reg 0x220C).toNat + 1)) ∧ OnlyIn [.hif, .bus] [0x220C] s.dev d) ∧
  (∀ (s : State) (n t : Nat), n < 8 → wbit (s.dev.reg (0x2108 + 0x20 * n)) 30 = true → (s.dev.cq n).since = some t →
      t + 25 * s.dev.regF (0x210C + 0x20 * n) 15 0 ≤ s.dev.now → msixOpen s.dev (s.dev.regF (0x2108 + 0x20 * n) 20 16) = true →
    Completes (.coalesceTimerExpiry n) s fun d =>
      d.cq n = { s.dev.cq n with count := 0, since := none } ∧
      d.bus = { s.dev.bus with out := .msix (s.dev.regF (0x2108 + 0x20 * n) 20 16) :: s.dev.bus.out } ∧ OnlyIn [.hif, .bus] [] s.dev d) ∧
  (∀ (s : State) (n t : Nat), n < 8 → wbit (s.dev.reg (0x2108 + 0x20 * n)) 30 = true → (s.dev.cq n).since = some t →
      t + 25 * s.dev.regF (0x210C + 0x20 * n) 15 0 ≤ s.dev.now → msixOpen s.dev (s.dev.regF (0x2108 + 0x20 * n) 20 16) = false →
    Completes (.coalesceTimerExpiry n) s fun d =>
      d.cq n = { s.dev.cq n with count := 0, since := none } ∧
      d.bus = { s.dev.bus with pba := s.dev.bus.pba ||| BitVec.ofNat 32 (2 ^ s.dev.regF (0x2108 + 0x20 * n) 20 16) } ∧
      OnlyIn [.hif, .bus] [] s.dev d)

/-- The link, Bus Master Enable, the reference clock, the conventional reset, and the set-up lock (R31, R303, R306, R313, R315). Where the
model chooses, log entries 41, 42 and 92 say how. -/
def Obligations.LinkResetAndLock : Prop :=
  (∀ s : State, s.dev.hif.linkUp = true →
    Completes .linkDown s fun d =>
      d.hif = { s.dev.hif with linkUp := false, inL1 := false, width := 0, speed := 0 } ∧ Raised 11 d ∧
      OnlyIn (.hif :: interruptParts) [0x4540] s.dev d) ∧
  (∀ (s : State) (width speed : Nat), s.dev.hif.linkUp = false → s.dev.hif.bme = true → s.dev.hif.lockOk = true →
    Completes (.linkUp width speed) s fun d =>
      d.hif = { s.dev.hif with linkUp := true, width := width, speed := speed, pollNow := true, interval := (pollBounds s.dev).1 } ∧
      Raised 12 d ∧ OnlyIn (.hif :: interruptParts) [0x4540] s.dev d) ∧
  (∀ s : State, s.dev.hif.bme = false → s.dev.hif.linkUp = true → s.dev.hif.lockOk = true →
    Completes (.busMasterEnableChange true) s fun d =>
      d.hif = { s.dev.hif with bme := true, pollNow := true, interval := (pollBounds s.dev).1 } ∧
      (∀ v, v < 32 → s.dev.bus.pba.getLsbD v = true → msixOpen d v = true → HostWrite.msix v ∈ d.bus.out ∧ d.bus.pba.getLsbD v = false) ∧
      OnlyIn [.hif, .bus] [] s.dev d) ∧
  (∀ s : State, s.dev.hif.linkUp = true →
    Completes .refclkLoss s fun d =>
      d.pacing = { s.dev.pacing with refclk := false } ∧ d.hif.linkUp = false ∧ Raised 11 d ∧
      OnlyIn ([.pacing, .hif] ++ interruptParts) [0x4540] s.dev d) ∧
  (∀ s : State, s.dev.hif.ready = [] → s.dev.gen.enterTag = none →
    Completes .conventionalReset s fun d =>
      d.hif.sqs = [] ∧ d.hif.cqs = [] ∧ d.hif.lock = false ∧ d.hif.lockOk = false ∧ d.hif.linkUp = false ∧ d.hif.fetching = none ∧
      (∀ x ∈ d.hif.cmds, x.discard = true ∧ isWaiting x = false) ∧
      (∀ o, 0x1000 ≤ o → o < 0x4000 → d.reg o = regReset o) ∧
      OnlyParts ([.hif] ++ interruptParts) s.dev d ∧ ∀ o, (o < 0x1000 ∨ 0x4000 ≤ o) → o ≠ 0x4540 → d.reg o = s.dev.reg o) ∧
  (∀ s : State, s.dev.hif.lock = false → lockConditions s.dev = true →
      (∀ n, n < 8 → sqEnabled s.dev n = true → sqContextOk s.dev n = true) →
      (∀ n, n < 8 → cqEnabled s.dev n = true → cqContextOk s.dev n = true) →
    Completes .setupLock s fun d =>
      d.hif.lock = true ∧ d.hif.lockOk = true ∧ d.hif.pollNow = true ∧ d.hif.interval = (pollBounds s.dev).1 ∧
      (∀ n, n < 8 → d.sq n = if sqEnabled s.dev n then { s.dev.sq n with st := .running } else s.dev.sq n) ∧
      (∀ n, n < 8 → d.cq n = if cqEnabled s.dev n then { s.dev.cq n with st := .running } else s.dev.cq n) ∧ OnlyIn [.hif] [] s.dev d) ∧
  (∀ s : State, s.dev.hif.lock = false → lockConditions s.dev = false →
    Completes .setupLock s fun d =>
      d.hif.lock = true ∧ d.hif.lockOk = false ∧ (d.sq 0).st = .error ∧ (d.sq 0).err = 3 ∧ (d.cq 0).st = .error ∧ (d.cq 0).err = 3 ∧
      Raised 0 d ∧ Raised 8 d) ∧
  (∀ s : State, s.dev.hif.lock = true →
    Completes .setupLock s fun d => d.hif = { s.dev.hif with lockedWrites := min 0xFFFFFFFF (s.dev.hif.lockedWrites + 1) } ∧ Raised 10 d ∧
      OnlyIn (.hif :: interruptParts) [0x4540] s.dev d)

/-- Host commands that fail a check, and the record commands that pass. A command that fails a check of steps 3 to 7 completes with that
check's status (R328). APPEND, the reads, HOLD, and the opening and closing of streams (R176, R179, R181, R185, R317, R325, R334, R447).
Where the model chooses, log entries 47, 55 and 58 say how. -/
def Obligations.RecordCommandsCompleteOrFailTheirChecks : Prop :=
  (∀ (s : State) (tag op st : Nat) (c : Cmd) (e : Device) (i : Instr),
      (op, i) ∈ [(0x01, Instr.append tag), (0x02, .readMark tag), (0x03, .readRange tag), (0x04, .hold tag), (0x05, .releaseHold tag),
        (0x10, .bootStage tag), (0x11, .bootActivate tag), (0x12, .bootRead tag), (0x20, .ownerCreate tag), (0x21, .ownerRetire tag),
        (0x22, .ownerExportKey tag .failed), (0x30, .streamOpen tag), (0x31, .streamClose tag), (0x41, .getLog tag),
        (0x42, .setFeature tag), (0x43, .getFeature tag)] →
      Dispatched s.dev tag c → eOpcode c.entry = op → AtHand c s.dev e → laterStatus e c = some st →
      Completes i s fun d =>
        ∃ x ∈ d.hif.ready, x.tag = tag ∧ x.status = st ∧ x.result = 0 ∧ d.rcl = e.rcl ∧ d.cch = e.cch ∧ d.cry = e.cry) ∧
  ((∀ (s : State) (tag : Nat) (c : Cmd) (e : Device), Dispatched s.dev tag c → eOpcode c.entry = 0x01 → Cleared c s.dev e → c.payload = [] →
      Completes (.append tag) s fun d =>
        d.cmd tag = some { c with phase := .payload, started := true } ∧ OnlyIn [.hif] [] e d) ∧
    (∀ (s : State) (tag : Nat) (c : Cmd) (e : Device) (rs : List (Nat × Nat)), Dispatched s.dev tag c → eOpcode c.entry = 0x01 →
        Cleared c s.dev e → c.poisoned = false → groupRecords c.payload = some rs → ringOpen e c.owner = true → eStream c.entry < 512 →
      Completes (.append tag) s fun d =>
        (streamRec d (eStream c.entry)).issued = (streamRec e (eStream c.entry)).issued + rs.length ∧
        ∃ g ∈ d.rcl.groups, g.stream = eStream c.entry ∧ g.owner = c.owner ∧ g.first = (streamRec e (eStream c.entry)).issued ∧
          g.count = rs.length ∧ g.role = .leader tag) ∧
    (∀ (s : State) (tag : Nat) (c : Cmd) (e : Device) (rs : List (Nat × Nat)), Dispatched s.dev tag c → eOpcode c.entry = 0x01 →
        Cleared c s.dev e → c.poisoned = false → groupRecords c.payload = some rs → ringOpen e c.owner = false →
      Completes (.append tag) s fun d =>
        Answered c stMediumFull 0 e d ∧ Raised 203 d ∧ OnlyIn (.hif :: interruptParts) [0x4540] e d) ∧
    (∀ (s : State) (tag : Nat) (c : Cmd) (e : Device), Dispatched s.dev tag c → eOpcode c.entry = 0x01 → Cleared c s.dev e →
        c.payload ≠ [] → c.poisoned = true →
      Completes (.append tag) s fun d => Raised 185 d ∧ ∃ x ∈ d.hif.ready, x.tag = tag ∧ x.status = stInternal) ∧
    (∀ (s : State) (tag : Nat) (c : Cmd) (e : Device) (g : Machine.Group) (r : RecInfo) (p : Loc × Nat × Nat × Nat),
        Dispatched s.dev tag c → eOpcode c.entry = 0x02 → Cleared c s.dev e →
        recordOf e (entryStream c.entry) (markSeq (eMark c.entry)) = some (g, r) → eOffset c.entry < r.len →
        groupParts g (r.off + eOffset c.entry) (min (eDlen c.entry) (r.len - eOffset c.entry)) 0 = [p] →
        (∀ psa, findLine e (fun l => !l.table && l.addr = psa) = none) →
      Completes (.readMark tag) s fun d =>
        d.cmd tag = some { c with phase := .running, started := true, records := 1 } ∧
        ∃ x ∈ d.rdc.clusters, x.purpose = .host tag ∧ x.loc = p.1 ∧ x.parts = [p.2]) ∧
    (∀ (s : State) (tag : Nat) (c : Cmd) (e : Device) (g : Machine.Group) (r : RecInfo), Dispatched s.dev tag c → eOpcode c.entry = 0x03 →
        Cleared c s.dev e → recordOf e (entryStream c.entry) (markSeq (eMark c.entry)) = some (g, r) → eDlen c.entry < r.len →
        markSeq (eMark c.entry) < (streamRec e (entryStream c.entry)).head →
      Completes (.readRange tag) s fun d => Answered c stOk 0 e d ∧ OnlyIn [.hif] [] e d) ∧
    (∀ (s : State) (tag : Nat) (c : Cmd) (e : Device), Dispatched s.dev tag c → eOpcode c.entry = 0x04 → Cleared c s.dev e →
        eStream c.entry < 512 →
      Completes (.hold tag) s fun d =>
        let r := streamRec e (eStream c.entry)
        let a := max (eFirst c.entry) r.tail
        streamRec d (eStream c.entry) =
          (if r.holdValid then { r with holdFirst := min a r.holdFirst, holdLast := max (eLast c.entry) r.holdLast }
           else { r with holdValid := true, holdFirst := a, holdLast := eLast c.entry }) ∧
        Answered c stOk (markOf (eStream c.entry) a) e d ∧ OnlyIn [.hif, .cch] [] e d) ∧
    (∀ (s : State) (tag : Nat) (c : Cmd) (e : Device), Dispatched s.dev tag c → eOpcode c.entry = 0x05 → Cleared c s.dev e →
        eStream c.entry < 512 →
      Completes (.releaseHold tag) s fun d =>
        streamRec d (eStream c.entry) = { streamRec e (eStream c.entry) with holdValid := false, holdFirst := 0, holdLast := 0 } ∧
        Answered c stOk 0 e d ∧ OnlyIn [.hif, .cch] [] e d) ∧
    (∀ (s : State) (tag : Nat) (c : Cmd) (e : Device), Dispatched s.dev tag c → eOpcode c.entry = 0x30 → Cleared c s.dev e →
        eStream c.entry < 512 → (streamRec e (eStream c.entry)).st = .free →
      Completes (.streamOpen tag) s fun d =>
        streamRec d (eStream c.entry) = freshStream e c.owner c.entry (streamRec e (eStream c.entry)) ∧
        Answered c stOk (markOf (eStream c.entry) (streamRec e (eStream c.entry)).issued) e d ∧ OnlyIn [.hif, .cch] [] e d) ∧
    (∀ (s : State) (tag : Nat) (c : Cmd) (e : Device), Dispatched s.dev tag c → eOpcode c.entry = 0x30 → Cleared c s.dev e →
        eStream c.entry < 512 → (streamRec e (eStream c.entry)).st = .closed →
      Completes (.streamOpen tag) s fun d =>
        streamRec d (eStream c.entry) = { streamRec e (eStream c.entry) with st := .open } ∧
        Answered c stOk (markOf (eStream c.entry) (streamRec e (eStream c.entry)).issued) e d ∧ OnlyIn [.hif, .cch] [] e d) ∧
    (∀ (s : State) (tag : Nat) (c : Cmd) (e : Device), Dispatched s.dev tag c → eOpcode c.entry = 0x31 → Cleared c s.dev e →
        eStream c.entry < 512 → appendBefore e c = false →
      Completes (.streamClose tag) s fun d =>
        streamRec d (eStream c.entry) = closedStream (eByte26 c.entry % 2 = 1) (streamRec e (eStream c.entry)) ∧
        Answered c stOk 0 e d ∧ OnlyIn [.hif, .cch] [] e d))

/-- The boot commands and the owner commands (R176, R188 to R190, R215, R216, R222). Where the model chooses, log entries 4, 5, 21, 55, 60
and 90 say how. -/
def Obligations.BootAndOwnerCommandsTakeEffect : Prop :=
  (∀ (s : State) (tag : Nat) (c : Cmd), Dispatched s.dev tag c → eOpcode c.entry = 0x10 → Cleared c s.dev s.dev → c.payload = [] →
    Completes (.bootStage tag) s fun d =>
      d.cmd tag = some { c with phase := .payload, started := true } ∧ OnlyIn [.hif] [] s.dev d) ∧
  (∀ (s : State) (tag : Nat) (c : Cmd), Dispatched s.dev tag c → eOpcode c.entry = 0x10 → Cleared c s.dev s.dev → c.payload ≠ [] →
      c.poisoned = false →
    Completes (.bootStage tag) s fun d =>
      d.rcl.staging = some (eSel c.entry, eOffset c.entry + c.payload.length) ∧
      d.rcl.staged = (if eOffset c.entry = 0 then [] else s.dev.rcl.staged) ++ c.payload ∧
      d.cmd tag = some { c with phase := .running, started := true }) ∧
  (∀ (s : State) (tag : Nat) (c : Cmd), Dispatched s.dev tag c → eOpcode c.entry = 0x11 → Cleared c s.dev s.dev →
      s.dev.rcl.actPending = none →
    Completes (.bootActivate tag) s fun d =>
      (∃ w, d.rcl.actPending = some w ∧ w.record = activeRecord s.dev (eSel c.entry)) ∧
      d.cmd tag = some { c with phase := .running, started := true }) ∧
  (∀ (s : State) (tag : Nat) (c : Cmd), Dispatched s.dev tag c → eOpcode c.entry = 0x12 → Cleared c s.dev s.dev →
      s.dev.rcl.digestOk = some false →
    Completes (.bootRead tag) s fun d => Answered c stUncorrectable 0 s.dev d ∧ OnlyIn [.hif] [] s.dev d) ∧
  (∀ (s : State) (tag : Nat) (c : Cmd), Dispatched s.dev tag c → eOpcode c.entry = 0x12 → Cleared c s.dev s.dev →
      s.dev.rcl.digestOk = some true → 0 < eDlen c.entry →
    Completes (.bootRead tag) s fun d =>
      (d.cmd tag).map (·.phase) = some .running ∧
      ∃ x ∈ d.rdc.clusters, x.purpose = .boot tag ∧ x.loc = areaLoc (4096 * (activationNow s.dev).active + eOffset c.entry / 65536)) ∧
  (∀ (s : State) (tag : Nat) (c : Cmd), Dispatched s.dev tag c → eOpcode c.entry = 0x20 → Cleared c s.dev s.dev →
      s.dev.rcl.freeZones.length < eQuota c.entry →
    Completes (.ownerCreate tag) s fun d => Answered c stMediumFull 0 s.dev d ∧ Raised 203 d ∧
      OnlyIn (.hif :: interruptParts) [0x4540] s.dev d) ∧
  (∀ (s : State) (tag : Nat) (c : Cmd), Dispatched s.dev tag c → eOpcode c.entry = 0x20 → Cleared c s.dev s.dev →
      eQuota c.entry ≤ s.dev.rcl.freeZones.length → s.dev.cch.range ≠ none →
    Completes (.ownerCreate tag) s fun d =>
      (d.slot (eSel c.entry)).busy = true ∧
      (∃ o ∈ d.cry.ops, o.tag = some tag ∧ o.step = .createPurge (eSel c.entry) (eQuota c.entry) (BitVec.ofNat 8 (eByte25 c.entry))) ∧
      d.cmd tag = some { c with phase := .running, started := true }) ∧
  (∀ (s : State) (tag : Nat) (c : Cmd), Dispatched s.dev tag c → eOpcode c.entry = 0x21 → Cleared c s.dev s.dev →
      s.dev.cry.ops = [] → ownerBusy s.dev (eSel c.entry) = true →
    Completes (.ownerRetire tag) s fun d =>
      (d.slot (eSel c.entry)).st = .retiring ∧
      (∃ o ∈ d.cry.ops, o.tag = some tag ∧ o.step = .retireDrain (eSel c.entry)) ∧ (d.cmd tag).map (·.phase) = some .running) ∧
  (∀ (s : State) (tag : Nat) (c : Cmd) (bytes : List Byte) (key : BitVec 256), Dispatched s.dev tag c → eOpcode c.entry = 0x22 →
      Cleared c s.dev s.dev → (s.dev.slot (eSel c.entry)).key = some key →
    Completes (.ownerExportKey tag (.ok bytes)) s fun d =>
      if Config.p256Valid (bytes.take 65) = true then
        Answered c stOk 0 s.dev d ∧
          Delivered c (escrowBlob s.dev (eSel c.entry) (Config.randomScalar s.dev.cry.draws) key (bytes.take 65)) s.dev d ∧ Raised 198 d
      else Answered c stInvalidField 0 s.dev d ∧ OnlyIn [.hif] [] s.dev d)

/-- IDENTIFY, the logs, the features, and DIAG (R323, R336, R338, R339, R368, R449, R457). Where the model chooses, log entries 55, 56 and
61 say how. -/
def Obligations.InformingCommandsAnswer : Prop :=
  (∀ (s : State) (tag : Nat) (c : Cmd), Dispatched s.dev tag c → eOpcode c.entry = 0x40 → Cleared c s.dev s.dev →
    Completes (.identify tag) s fun d =>
      Delivered c (padTo 4096 0 (identifyHead s.dev)) s.dev d ∧ Answered c stOk 0 s.dev d ∧ OnlyIn [.hif, .bus, .draws] [] s.dev d) ∧
  (∀ (s : State) (tag : Nat) (c : Cmd), Dispatched s.dev tag c → eOpcode c.entry = 0x41 → Cleared c s.dev s.dev →
    Completes (.getLog tag) s fun d =>
      Delivered c (((pageBytes s.dev (eSel c.entry)).drop (eWord28 c.entry)).take (eDlen c.entry)) s.dev d ∧
      Answered c stOk (pageBytes s.dev (eSel c.entry)).length s.dev d ∧ OnlyIn [.hif, .bus] [] s.dev d) ∧
  (∀ (s : State) (tag : Nat) (c : Cmd), Dispatched s.dev tag c → eOpcode c.entry = 0x42 → Cleared c s.dev s.dev →
    Completes (.setFeature tag) s fun d =>
      (∀ i, i < (featureWords (eSel c.entry)).length → (featureWords (eSel c.entry))[i]? ≠ some 0x1200C →
        featureWord d (eSel c.entry) i = eValue c.entry i) ∧
      Answered c stOk 0 s.dev d) ∧
  (∀ (s : State) (tag : Nat) (c : Cmd), Dispatched s.dev tag c → eOpcode c.entry = 0x43 → Cleared c s.dev s.dev →
    Completes (.getFeature tag) s fun d =>
      Delivered c ((List.range 4).flatMap fun i => leBytes 4 (featureWord s.dev (eSel c.entry) i).toNat) s.dev d ∧
      Answered c stOk 0 s.dev d ∧ OnlyIn [.hif, .bus] [] s.dev d) ∧
  (∀ (s : State) (tag us : Nat) (c : Cmd), Dispatched s.dev tag c → eOpcode c.entry = 0x60 → eSel c.entry = 1 → Cleared c s.dev s.dev →
    Completes (.runSelftest tag 0 true us) s fun d =>
      d.ecc = { s.dev.ecc with testDone := true, failMap := 0, testUs := us } ∧ d.gen = { s.dev.gen with selfTestOk := true } ∧ Raised 24 d ∧
      Answered c stOk 0 s.dev d ∧ OnlyIn ([.hif, .ecc, .gen] ++ interruptParts) [0x4540] s.dev d) ∧
  (∀ (s : State) (tag us : Nat) (failMap : BitVec 16) (ok : Bool) (c : Cmd), Dispatched s.dev tag c → eOpcode c.entry = 0x60 →
      eSel c.entry = 1 → Cleared c s.dev s.dev → s.dev.gen.mode ≠ .primer → (failMap ≠ 0 ∨ ok = false) →
    Completes (.runSelftest tag failMap ok us) s fun d =>
      d.gen.mode = .primer ∧ d.lsk.cause = (if failMap ≠ 0 then 6 else 2) ∧ d.lsk.pair = .held ∧ Raised 162 d ∧
      ∃ x ∈ d.hif.ready, x.tag = tag ∧ x.status = stAbortedMode) ∧
  (∀ (s : State) (tag : Nat) (c : Cmd) (h : List Byte), Dispatched s.dev tag c → eOpcode c.entry = 0x60 → eSel c.entry = 2 →
      Cleared c s.dev s.dev → h.length = 32 →
    Completes (.readHeader tag (some h)) s fun d =>
      Delivered c h s.dev d ∧ Answered c stOk 0 s.dev d ∧ OnlyIn [.hif, .bus] [] s.dev d) ∧
  (∀ (s : State) (tag : Nat) (c : Cmd), Dispatched s.dev tag c → eOpcode c.entry = 0x60 → eSel c.entry = 2 → Cleared c s.dev s.dev →
    Completes (.readHeader tag none) s fun d => Answered c stUncorrectable 0 s.dev d ∧ OnlyIn [.hif] [] s.dev d) ∧
  (∀ (s : State) (tag : Nat) (c : Cmd), Dispatched s.dev tag c → eOpcode c.entry = 0x60 → eSel c.entry = 3 → Cleared c s.dev s.dev →
      2 ≤ (s.dev.src (eSource c.entry)).sense →
    Completes (.trigger tag) s fun d =>
      (d.src (eSource c.entry)).pending = true ∧ Answered c stOk 0 s.dev d ∧ OnlyIn (.hif :: interruptParts) [0x4540] s.dev d)

/-- The mode requests and the ejection of the cartridge (R287 to R289, R335, R337, R459, R464). Where the model chooses, log entries 4, 5,
59 and 60 say how. -/
def Obligations.ModeRequestsTakeEffect : Prop :=
  (∀ (s : State) (tag : Nat) (c : Cmd), Dispatched s.dev tag c → eOpcode c.entry = 0x50 → eSel c.entry = 1 → Cleared c s.dev s.dev →
      s.dev.hif.cmds = [c] →
    Completes (.enterDustSheet tag) s fun d =>
      d.gen.mode = .dustSheet ∧ d.gen.dustCause = 1 ∧ d.gen.enterTag = none ∧ d.gen.parked = true ∧
      ∃ x ∈ d.hif.ready, x.tag = tag ∧ x.status = stOk ∧ x.result = 3) ∧
  (∀ (s : State) (tag : Nat) (c x : Cmd), Dispatched s.dev tag c → eOpcode c.entry = 0x50 → eSel c.entry = 1 → Cleared c s.dev s.dev →
      s.dev.hif.cmds = [x, c] → x.started = true → x.phase = .running → x.tag ≠ tag →
    Completes (.enterDustSheet tag) s fun d =>
      d.gen = { s.dev.gen with enterTag := some (some tag, 1) } ∧ d.hif.cmds = [x, { c with phase := .running, started := true }] ∧
      OnlyIn [.gen, .hif] [] s.dev d) ∧
  (∀ (s : State) (tag : Nat) (c : Cmd) (measured : Option (List (Nat × Word32))), Dispatched s.dev tag c → eOpcode c.entry = 0x50 →
      eSel c.entry = 2 →
      mustWait s.dev c = false → modeAccepts s.dev c.entry = true → s.dev.gen.leaveTag = none → leaveCause s.dev ≠ 0 →
    Completes (.leaveDustSheet tag measured) s fun d =>
      d.gen = { s.dev.gen with dustCause := leaveCause s.dev } ∧ Answered c stAbortedMode 0 s.dev d ∧ OnlyIn [.gen, .hif] [] s.dev d) ∧
  (∀ (s : State) (tag : Nat) (c : Cmd) (k : Cartridge) (measured : Option (List (Nat × Word32))), Dispatched s.dev tag c →
      eOpcode c.entry = 0x50 → eSel c.entry = 2 →
      Cleared c s.dev s.dev → s.dev.gen.leaveTag = none → leaveCause s.dev = 0 → s.dev.gen.mode = .dustSheet →
      s.dev.nv.pairRecord.isSome = true → s.dev.nv.calibration.isSome = true → s.dev.gen.cart = some k → k.format = 2 →
    Completes (.leaveDustSheet tag measured) s fun d =>
      d.gen.mode = .undercoat ∧ d.gen.dustCause = 0 ∧ Raised 18 d ∧ ∃ x ∈ d.hif.ready, x.tag = tag ∧ x.status = stOk ∧ x.result = 1) ∧
  (∀ (s : State) (tag : Nat) (c : Cmd), Dispatched s.dev tag c → eOpcode c.entry = 0x50 → eSel c.entry = 3 → Cleared c s.dev s.dev →
      s.dev.lath.live = true → s.dev.gen.mode = .topcoat → s.dev.lath.detaching = none → exchangesDone s.dev = false → s.dev.lath.detachClean = false →
    Completes (.detachRequest tag) s fun d =>
      d.lath.detaching = some (eByte25 c.entry, some tag) ∧ d.lath.link = .detaching ∧ d.lath.admissionHold = true ∧
      LathMsg.detach (eByte25 c.entry) ∈ d.lath.queue ∧ d.cmd tag = some { c with phase := .running, started := true } ∧
      OnlyIn [.lath, .hif] [] s.dev d) ∧
  (∀ (s : State) (tag : Nat) (c : Cmd), Dispatched s.dev tag c → eOpcode c.entry = 0x50 → eSel c.entry = 4 → Cleared c s.dev s.dev →
      s.dev.lath.live = true → s.dev.cry.commission = none → s.dev.cry.heldPoint = none →
    Completes (.commission tag) s fun d =>
      (∃ x, d.cry.commission = some x ∧ x.scalar = Config.randomScalar s.dev.cry.draws ∧ x.tag = some tag) ∧
      LathMsg.pairPoint (Config.p256Public (Config.randomScalar s.dev.cry.draws)) ∈ d.lath.queue ∧
      d.cmd tag = some { c with phase := .running, started := true } ∧ OnlyIn [.cry, .lath, .hif] [] s.dev d) ∧
  (∀ (s : State) (tag : Nat) (c : Cmd) (x : Commission), Dispatched s.dev tag c → eOpcode c.entry = 0x50 → eSel c.entry = 5 →
      Cleared c s.dev s.dev → s.dev.cry.commission = some x → x.code = eWord28 c.entry → x.peerConfirmed = false →
      s.dev.lath.live = true →
    Completes (.confirm tag) s fun d =>
      d.cry.commission = some { x with localConfirmed := some tag } ∧ LathMsg.pairConfirm (eWord28 c.entry) ∈ d.lath.queue ∧
      d.cmd tag = some { c with phase := .running, started := true } ∧ OnlyIn [.cry, .lath, .hif] [] s.dev d) ∧
  (∀ (s : State) (tag : Nat) (c : Cmd) (x : Commission), Dispatched s.dev tag c → eOpcode c.entry = 0x50 → eSel c.entry = 5 →
      Cleared c s.dev s.dev → s.dev.cry.commission = some x → x.tag = none → x.code ≠ eWord28 c.entry →
    Completes (.confirm tag) s fun d =>
      d.cry.commission = none ∧ d.cry.checkCode = none ∧ d.lath.commissionFailed = true ∧ Answered c stInternal 0 s.dev d ∧ Raised 140 d ∧
      OnlyIn ([.cry, .lath, .hif] ++ interruptParts) [0x4540] s.dev d) ∧
  (∀ (s : State) (tag : Nat) (c : Cmd), Dispatched s.dev tag c → eOpcode c.entry = 0x51 → Cleared c s.dev s.dev →
      s.dev.gen.ejectTag = none → s.dev.gen.formatting = false → s.dev.rcl.sinceSeal = [] → s.dev.wrc.clusters = [] →
    Completes (.cartridgeEjectPrep tag) s fun d =>
      d.gen.cartState = 5 ∧ d.gen.dustCause = 12 ∧ d.gen.parked = true ∧ Raised 23 d ∧ ∃ x ∈ d.hif.ready, x.tag = tag ∧ x.status = stOk)

/-- Power states, register reads and register writes. The power states and the reads of registers (R8, R34, R341 to R344, R354, R364, R476,
R478, R480). Register writes (R7, R10, R80, R314, R476). Where the model chooses, log entries 1, 49, 54, 79 and 92 say how. -/
def Obligations.RegistersAreReadAndWritten : Prop :=
  ((∀ s : State, idleExpired s.dev = true →
      Completes .idleTimerExpiry s fun d =>
        d.hif.ps = s.dev.hif.ps + 1 ∧ Raised 15 d ∧ (s.dev.hif.ps = 0 → d.servo.layer = none) ∧ (s.dev.hif.ps = 2 → d.gen.parked = true)) ∧
    (∀ s : State, s.dev.hif.transition = true →
      Completes .powerStateExitDone s fun d =>
        d.hif.ps = 0 ∧ d.hif.transition = false ∧ d.hif.idleSince = s.dev.now ∧ Raised 15 d ∧
        OnlyIn (.hif :: interruptParts) [0x4540] s.dev d) ∧
    (∀ (s : State) (o width : Nat), s.dev.icu.retention = true → o % 4 = 0 → o < 0x1000 → o ≠ 0x40 →
      Completes (.bar0ReadInRetention width o) s fun d => d.icu.retention = false ∧ d.icu.latched = []) ∧
    (∀ (s : State) (who : Requester) (o : Nat), masterUp who s.dev = true → o % 4 = 0 → ¬ (who = .seq ∧ seqReaches o = false) →
        o ∉ [0x4504, 0x4514, 0x4524, 0x40, 0xB030] →
      Completes (.rcFieldRead who 32 o) s fun d =>
        d.bus.readData = regWord who s.dev o ∧
        (clearsWhole o = true → d.reg o = 0) ∧
        OnlyIn [.bus] (if clearsWhole o || [0x2204, 0x4640, 0xF110].contains o then [o] else []) s.dev d) ∧
    (∀ (s : State) (who : Requester) (width o : Nat), masterUp who s.dev = true → (width ≠ 32 ∨ o % 4 ≠ 0) →
      Completes (.rcFieldRead who width o) s fun d => d.bus.readData = 0 ∧ OnlyIn [.bus] [] s.dev d)) ∧
  ((∀ (s : State) (o : Nat) (v : Word32), pairRuns s.dev = true → o ∈ [0x1008, 0x900C, 0x9034, 0x9038, 0xB0C8, 0xC014, 0xC01C] →
      Completes (.registerWrite .mgmt 32 o v) s fun d => d.reg o = v ∧ OnlyIn [] [o] s.dev d) ∧
    (∀ (s : State) (n : Nat) (v : Word32), n < 8 → s.dev.hif.lock = false →
      Completes (.registerWrite .host 32 (0x2004 + 0x20 * n) v) s fun d =>
        d.reg (0x2004 + 0x20 * n) = v ∧ OnlyIn [] [0x2004 + 0x20 * n] s.dev d) ∧
    (∀ (s : State) (v : Word32), pairRuns s.dev = true → fld v 7 0 = 0 →
      Completes (.registerWrite .mgmt 32 0x9018 v) s fun d => OnlyIn [] [] s.dev d) ∧
    (∀ (s : State) (who : Requester) (width o : Nat) (v : Word32), (width ≠ 32 ∨ o % 4 ≠ 0) → (who = .host → s.dev.hif.lock = false) →
      Completes (.registerWrite who width o v) s fun d => d = s.dev) ∧
    (∀ (s : State) (o : Nat) (v : Word32), seqReaches o = false →
      Completes (.registerWrite .seq 32 o v) s fun d => d = s.dev) ∧
    (∀ (s : State) (width o : Nat) (v : Word32), s.dev.hif.lock = true → (o < 0x1800 ∨ 0x1A08 ≤ o) →
      Completes (.registerWrite .host width o v) s fun d =>
        d.hif = { s.dev.hif with lockedWrites := min 0xFFFFFFFF (s.dev.hif.lockedWrites + 1) } ∧ Raised 10 d ∧
        OnlyIn (.hif :: interruptParts) [0x4540] s.dev d))

/-- Claims and completions (R80, R350, R351, R354, R356). Where the model chooses, log entry 62 says how. -/
def Obligations.ClaimsAndCompletionsServeSources : Prop :=
  (∀ (s : State) (who : Requester) (t : Nat) (p : Nat × Src), SourcesCanonical s → masterUp who s.dev = true → t < 2 →
      (who = .seq → t = 1) → firstDeliverable s.dev t = some p →
    Completes (.icuClaim who t) s fun d =>
      d.bus = { s.dev.bus with readData := BitVec.ofNat 32 (p.2.counter * 2 ^ 24 + p.1) } ∧
      d.src p.1 = { s.dev.src p.1 with active := true, pending := (s.dev.src p.1).pending && decide ((s.dev.src p.1).sense < 2), counter := 0 } ∧
      (∀ n, n ≠ p.1 → d.src n = s.dev.src n) ∧ OnlyIn [.icu, .bus] [0x4540] s.dev d) ∧
  (∀ (s : State) (who : Requester) (t : Nat), masterUp who s.dev = true → t < 2 → (who = .seq → t = 1) → firstDeliverable s.dev t = none →
    Completes (.icuClaim who t) s fun d =>
      d.bus = { s.dev.bus with readData := 0x100 } ∧ OnlyIn [.bus] [] s.dev d) ∧
  (∀ (s : State) (p : Nat × Src), SourcesCanonical s → firstSrc (activeAt s.dev 2) = some p →
    Completes (.icuHostClaim .host) s fun d =>
      d.bus.readData = BitVec.ofNat 32 (p.2.counter * 2 ^ 24 + p.1) ∧
      d.src p.1 = { s.dev.src p.1 with active := false, forwarded := false, pending := false, counter := 0 } ∧
      OnlyIn interruptParts [0x4540] s.dev d) ∧
  (∀ s : State, firstSrc (activeAt s.dev 2) = none →
    Completes (.icuHostClaim .host) s fun d => d.bus = { s.dev.bus with readData := 0x100 } ∧ OnlyIn [.bus] [] s.dev d) ∧
  (∀ (s : State) (t : Nat) (v : Word32), pairRuns s.dev = true → SourcesCanonical s → t < 2 → (s.dev.src (fld v 8 0)).active = true → servedBy s.dev (fld v 8 0) (s.dev.src (fld v 8 0)) = t →
    Completes (.icuComplete .mgmt t v) s fun d => (d.src (fld v 8 0)).active = false ∧ OnlyIn interruptParts [0x4540] s.dev d) ∧
  (∀ (s : State) (t : Nat) (v : Word32), pairRuns s.dev = true → t < 2 → (s.dev.src (fld v 8 0)).active = false →
    Completes (.icuComplete .mgmt t v) s fun d =>
      Raised 17 d ∧ d.reg (0x450C + 0x10 * t) = BitVec.ofNat 32 (min 0xFFFFFFFF ((s.dev.reg (0x450C + 0x10 * t)).toNat + 1)) ∧
      OnlyIn interruptParts [0x450C + 0x10 * t, 0x4540] s.dev d) ∧
  (∀ (s : State) (t : Nat) (v : Word32), t < 2 → s.dev.hif.lock = false →
    Completes (.icuComplete .host t v) s fun d =>
      Raised 16 d ∧ d.reg 0x4544 = BitVec.ofNat 32 (min 0xFFFFFFFF ((s.dev.reg 0x4544).toNat + 1)) ∧
      OnlyIn interruptParts [0x4540, 0x4544] s.dev d)

/-- The sources' controls, wake, retention and the message table. Masks, pending bits, thresholds and the configuration of sources (R349,
R350, R357 to R359). Wake slots, retention, and the MSI-X table (R311, R314, R362 to R364). Where the model chooses, log entries 1, 13,
49, 62 and 63 say how. -/
def Obligations.SourceControlsWakeAndMessages : Prop :=
  ((∀ (s : State) (w : Nat) (v : Word32), pairRuns s.dev = true → w < 8 →
      Completes (.maskSet .mgmt w v) s fun d =>
        (∀ n, n < 256 → (d.src n).masked = ((s.dev.src n).masked || (n / 32 = w && v.getLsbD (n % 32))) ∧
          (d.src n).maskedNow = (s.dev.src n).maskedNow) ∧
        (∀ b, b < 32 → v.getLsbD b = true → (s.dev.now + 2, MaskChange.mask (32 * w + b) true) ∈ d.icu.changes) ∧
        OnlyIn interruptParts [0x4540] s.dev d) ∧
    (∀ (s : State) (w : Nat) (v : Word32), pairRuns s.dev = true → w < 8 →
      Completes (.maskClr .mgmt w v) s fun d =>
        (∀ n, n < 256 → (d.src n).masked = ((s.dev.src n).masked && !(n / 32 = w && v.getLsbD (n % 32))) ∧
          (d.src n).maskedNow = (s.dev.src n).maskedNow) ∧
        (∀ b, b < 32 → v.getLsbD b = true → (s.dev.now + 2, MaskChange.mask (32 * w + b) false) ∈ d.icu.changes) ∧
        OnlyIn interruptParts [0x4540] s.dev d) ∧
    (∀ (s : State) (w : Nat) (v : Word32), pairRuns s.dev = true → w < 8 →
      Completes (.pendSet .mgmt w v) s fun d =>
        (∀ n, n < 256 → (d.src n).pending = ((s.dev.src n).pending || (decide (2 ≤ (s.dev.src n).sense) && n / 32 = w && v.getLsbD (n % 32)))) ∧
        OnlyIn interruptParts [0x4540] s.dev d) ∧
    (∀ (s : State) (w : Nat) (v : Word32), pairRuns s.dev = true → w < 8 →
      Completes (.pendClr .mgmt w v) s fun d =>
        (∀ n, n < 256 → (d.src n).pending = ((s.dev.src n).pending && !(decide (2 ≤ (s.dev.src n).sense) && n / 32 = w && v.getLsbD (n % 32)))) ∧
        OnlyIn interruptParts [0x4540] s.dev d) ∧
    (∀ (s : State) (w n : Nat) (v : Word32), w < 8 → s.dev.hif.lock = false → n / 32 = w → v.getLsbD (n % 32) = true →
        (s.dev.src n).target ≠ 2 →
      Completes (.maskSet .host w v) s fun d =>
        (d.src n).masked = (s.dev.src n).masked ∧ Raised 16 d ∧
        d.reg 0x4544 = BitVec.ofNat 32 (min 0xFFFFFFFF ((s.dev.reg 0x4544).toNat + 1)) ∧ OnlyIn interruptParts [0x4540, 0x4544] s.dev d) ∧
    (∀ (s : State) (t : Nat) (v : Word32), pairRuns s.dev = true → t < 3 →
      Completes (.thresholdWrite .mgmt t v) s fun d =>
        sget (fun _ => 0) d.icu.threshold t = fld v 3 0 ∧ (s.dev.now + 2, MaskChange.threshold t (fld v 3 0)) ∈ d.icu.changes ∧
        thresholdOf d t = thresholdOf s.dev t ∧ OnlyIn [.icu] [] s.dev d) ∧
    (∀ (s : State) (n : Nat) (v : Word32), pairRuns s.dev = true → n < 256 → cfgBad s.dev n (s.dev.src n) (cfgAfter n v (s.dev.src n)) = false →
      Completes (.srcCfgWrite .mgmt n v) s fun d =>
        (d.src n).vector = fld v 31 27 ∧ (d.src n).priority = fld v 11 8 ∧ (d.src n).target = fld v 5 4 ∧
        (d.src n).sense = senseAfter n (s.dev.src n).sense (fld v 2 0) ∧
        (2 ≤ (d.src n).sense → (d.src n).pending = ((s.dev.src n).pending && decide (2 ≤ (s.dev.src n).sense))) ∧
        OnlyIn interruptParts [0x4540] s.dev d) ∧
    (∀ (s : State) (n : Nat) (v : Word32), pairRuns s.dev = true → n < 256 → cfgBad s.dev n (s.dev.src n) (cfgAfter n v (s.dev.src n)) = true →
      Completes (.srcCfgWrite .mgmt n v) s fun d =>
        (d.src n).target = (s.dev.src n).target ∧ (d.src n).priority = (s.dev.src n).priority ∧ Raised 16 d ∧
        d.reg 0x4544 = BitVec.ofNat 32 (min 0xFFFFFFFF ((s.dev.reg 0x4544).toNat + 1)) ∧ OnlyIn interruptParts [0x4540, 0x4544] s.dev d)) ∧
  ((∀ (s : State) (i : Nat) (v : Word32), pairRuns s.dev = true → i < 16 → fld v 9 8 < 3 → wakeNameOk s.dev i (fld v 7 0) = true →
        ¬ (fld v 9 8 = 2 ∧ (s.dev.src (fld v 7 0)).sense < 2) →
        ((wakeSlot s.dev i).en = true → (s.dev.src (wakeSlot s.dev i).source).target ≠ 3) →
      Completes (.wakeSlotWrite .mgmt i v) s fun d =>
        wakeSlot d i = { en := wbit v 31, fwd := fld v 9 8, source := fld v 7 0 } ∧ OnlyIn interruptParts [0x4540] s.dev d) ∧
    (∀ (s : State) (src : Nat) (level : Bool), s.dev.icu.retention = true → wakeSees s.dev src level = true →
      Completes (.wakeDetect src level) s fun d =>
        d.icu.retention = false ∧ d.icu.latched = [] ∧ d.icu.lastWake = src ∧ Raised 25 d ∧
        d.regF 0x4640 31 16 = min 65535 (s.dev.regF 0x4640 31 16 + 1) ∧ OnlyIn interruptParts [0x4540, 0x4640] s.dev d) ∧
    (∀ s : State, mayRetain s.dev = true →
      Completes .retentionEntry s fun d => d.icu = { s.dev.icu with retention := true } ∧ OnlyIn [.icu] [] s.dev d) ∧
    (∀ s : State, s.dev.hif.polling = true → Completes .retentionEntry s fun d => d = s.dev) ∧
    (∀ (s : State) (o : Nat) (v : Word32), o < 512 → o % 4 = 0 →
      Completes (.msixTableWrite o v) s fun d =>
        d.reg (0x1800 + o) = v &&& (if o % 16 = 0 then 0xFFFFFFFC else if o % 16 = 12 then 1 else 0xFFFFFFFF) ∧
        OnlyIn [.bus] [0x1800 + o] s.dev d) ∧
    (∀ (s : State) (vec : Nat) (v : Word32), vec < 32 → wbit v 0 = false → s.dev.bus.pba.getLsbD vec = true → s.dev.hif.linkUp = true →
        s.dev.hif.bme = true →
      Completes (.msixTableWrite (16 * vec + 12) v) s fun d =>
        d.bus.out = .msix vec :: s.dev.bus.out ∧ d.bus.pba.getLsbD vec = false ∧
        (∀ u, u ≠ vec → d.bus.pba.getLsbD u = s.dev.bus.pba.getLsbD u)))

/-- Warnings, the return condition, and the ride-through (R371, R372, R375 to R378). Where the model chooses, log entries 1, 69 and 70 say
how. -/
def Obligations.WarningsMoveTheSupplyState : Prop :=
  (∀ s : State, s.dev.pwr.st = .armed → warning s.dev = false → s.dev.pwr.vinWarn = false → s.dev.icu.retention = false →
    Completes .vinWarnAssert s fun d =>
      d.pwr = { s.dev.pwr with
        vinWarn := true, st := .rideThrough, onHawk := true, charger := .off, pause := false, bleed := 0, testRunning := false,
        windowStart := s.dev.now, windowMs := s.dev.regF 0xF004 6 0, returned := false } ∧
      (d.src 144).level = true ∧ OnlyIn (.pwr :: interruptParts) [0x4540] s.dev d) ∧
  (∀ s : State, s.dev.pwr.st = .reArming → warning s.dev = false → s.dev.pwr.vinWarn = false →
    Completes .vinWarnAssert s fun d => d.pwr.st = .sealed ∧ d.pwr.onHawk = true ∧ OnlyIn (.pwr :: interruptParts) [0x4540] s.dev d) ∧
  (∀ s : State, s.dev.pwr.st = .unarmed → warning s.dev = false → s.dev.pwr.vinWarn = false → s.dev.pwr.sealTripped = false →
    Completes .vinWarnAssert s fun d => d.pwr.st = .unarmed ∧ d.pwr.onHawk = true ∧ d.gen.parked = true ∧ d.rdc.clusters = []) ∧
  (∀ s : State, s.dev.pwr.vinWarn = true → s.dev.pwr.pwrwarnOn = true → s.dev.icu.retention = false →
    Completes .vinWarnClear s fun d =>
      d.pwr = { s.dev.pwr with vinWarn := false, clearSince := s.dev.now, returned := false } ∧ (d.src 144).level = false ∧
      OnlyIn (.pwr :: interruptParts) [0x4540] s.dev d) ∧
  (∀ (s : State) (held : Nat), s.dev.pwr.st = .armed → warning s.dev = false → wbit (s.dev.reg 0xF004) 8 = true →
      s.dev.regF 0x12018 7 0 * 250 ≤ held →
    Completes (.pwrwarnInputChange false held) s fun d =>
      d.pwr.st = .rideThrough ∧ d.pwr.pwrwarnOn = false ∧ d.pwr.onHawk = true ∧ d.pwr.windowStart = s.dev.now ∧
      OnlyIn (.pwr :: interruptParts) [0x4540] s.dev d) ∧
  (∀ (s : State) (on : Bool) (held : Nat), held < s.dev.regF 0x12018 7 0 * 250 →
    Completes (.pwrwarnInputChange on held) s fun d => d = s.dev) ∧
  (∀ s : State, s.dev.pwr.st = .rideThrough → returnHolds s.dev = true → 12000 ≤ stackReading s.dev →
    Completes .returnCondition s fun d =>
      d.pwr.st = .armed ∧ d.pwr.onHawk = false ∧ d.pwr.rides = min 0xFFFF (s.dev.pwr.rides + 1) ∧ Raised 150 d ∧
      OnlyIn (.pwr :: interruptParts) [0x4540] s.dev d) ∧
  (∀ s : State, s.dev.pwr.st = .sealed → returnHolds s.dev = true →
    Completes .returnCondition s fun d => d.pwr.st = .reArming ∧ d.pwr.onHawk = false ∧ OnlyIn [.pwr] [] s.dev d) ∧
  (∀ s : State, s.dev.pwr.st = .sealing → Completes .returnCondition s fun d => d = s.dev) ∧
  (∀ s : State, s.dev.pwr.st = .rideThrough → s.dev.pwr.windowStart + s.dev.pwr.windowMs * 25000 ≤ s.dev.now →
    Completes .rideThroughWindowExpiry s fun d =>
      d.pwr.st = .sealing ∧ d.pwr.sealStep = 1 ∧ d.pwr.sealStart = s.dev.now ∧ d.hif.pollSeal = true ∧ d.hif.polling = false ∧
      (∀ x ∈ d.hif.cmds, sealDrops x = false) ∧ Raised 148 d) ∧
  (∀ s : State, s.dev.now < s.dev.pwr.windowStart + s.dev.pwr.windowMs * 25000 →
    Completes .rideThroughWindowExpiry s fun d => d = s.dev)

/-- The seal and its steps (R320, R373, R374, R378 to R382). Where the model chooses, log entries 1 and 69 say how. -/
def Obligations.SealRunsItsSteps : Prop :=
  (∀ s : State, (s.dev.pwr.st = .armed ∨ s.dev.pwr.st = .rideThrough) →
    Completes .sealLevelTrip s fun d =>
      d.pwr.sealTripped = true ∧ d.pwr.st = .sealing ∧ d.pwr.sealStep = 1 ∧ d.pwr.sealStart = s.dev.now ∧ d.pwr.onHawk = true ∧
      d.hif.pollSeal = true ∧ (∀ x ∈ d.hif.cmds, sealDrops x = false) ∧ Raised 148 d) ∧
  (∀ s : State, s.dev.pwr.st = .unarmed → s.dev.icu.retention = false →
    Completes .sealLevelTrip s fun d =>
      d.pwr = { s.dev.pwr with sealTripped := true } ∧ (d.src 146).level = true ∧ OnlyIn (.pwr :: interruptParts) [0x4540] s.dev d) ∧
  (∀ (s : State) (o : Nat), s.dev.pwr.st = .sealing → s.dev.pwr.sealStep = 1 → s.dev.pwr.sealRing = some o →
    Completes .sealFinishEnd s fun d => d.pwr.st = .sealing ∧ d.pwr.sealStep = 2 ∧ d.wrc.writing = none ∧ d.rdc.clusters = []) ∧
  (∀ s : State, s.dev.pwr.st = .sealing → s.dev.pwr.sealStep = 1 → s.dev.pwr.sealRing = none → s.dev.rcl.lastWritten = none →
    Completes .sealFinishEnd s fun d => d.pwr.st = .sealing ∧ d.pwr.sealStep = 3 ∧ d.gen.parked = true ∧ d.rdc.clusters = []) ∧
  (∀ s : State, s.dev.pwr.st = .sealing → s.dev.pwr.sealStep = 2 → s.dev.wrc.clusters = [] →
    Completes .sealCheckpointEnd s fun d => d.pwr = { s.dev.pwr with sealStep := 3 } ∧ d.gen.parked = true ∧ d.servo.braked = true) ∧
  (∀ (s : State) (c : WriteCluster), s.dev.pwr.st = .sealing → s.dev.wrc.clusters = [c] → c.kind = .sealCheckpoint →
      (∀ i, i < 18 → (wsector c i).st = .due) →
    Completes .sealCheckpointEnd s fun d => d = s.dev) ∧
  (∀ s : State, s.dev.pwr.st = .sealing → s.dev.pwr.sealStep = 3 → sledAtRest s.dev = true → returnHolds s.dev = false →
    Completes .sealParkEnd s fun d =>
      d.pwr = { s.dev.pwr with
        st := .sealed, sealStep := 4, seals := min 0xFFFF (s.dev.pwr.seals + 1),
        lastSeal := min 0xFFFFFFFF (s.dev.now - s.dev.pwr.sealStart) } ∧ Raised 149 d) ∧
  (∀ s : State, s.dev.pwr.st = .sealing → s.dev.pwr.sealStep = 3 → sledAtRest s.dev = true → returnHolds s.dev = true →
    Completes .sealParkEnd s fun d => d.pwr.st = .reArming ∧ d.pwr.onHawk = false ∧ Raised 149 d) ∧
  (∀ (s : State) (x : PowerOnInputs),
    Completes (.resetLevelTrip x) s fun d =>
      d.hif.lock = false ∧ d.hif.cmds = [] ∧ d.pwr.st = .unarmed ∧ d.rdc.clusters = [])

/-- The stack monitor and its heartbeat (R374, R386 to R389, R391, R392). Where the model chooses, log entries 70 and 98 say how. -/
def Obligations.StackMonitorReadsAndJudges : Prop :=
  (∀ (s : State) (cells tapMoves : List Nat) (refB coarse current : Nat), s.dev.pwr.cycleAt + 250000 ≤ s.dev.now → cells.length = 6 →
      1244 ≤ refB → refB ≤ 1256 → s.dev.pwr.st = .armed →
    Completes (.stackMonitorCycle cells refB coarse current tapMoves) s fun d =>
      d.pwr.cells = cells.map (min 0xFFFF) ∧ d.pwr.cellsValid = true ∧ d.pwr.coarse = min 0xFFFF coarse ∧ d.pwr.refB = refB ∧
      d.pwr.refFails = 0 ∧ d.pwr.refFail = s.dev.pwr.refFail ∧ d.pwr.cycleAt = s.dev.now ∧ d.pwr.cycles = s.dev.pwr.cycles + 1 ∧
      d.pwr.st = .armed ∧ OnlyIn (.pwr :: interruptParts) [0x4540, 0x10048] s.dev d) ∧
  (∀ (s : State) (cells tapMoves : List Nat) (refB coarse current : Nat), s.dev.pwr.cycleAt + 250000 ≤ s.dev.now → cells.length = 6 →
      (refB < 1244 ∨ 1256 < refB) → s.dev.pwr.st = .armed →
    Completes (.stackMonitorCycle cells refB coarse current tapMoves) s fun d =>
      d.pwr.cells = s.dev.pwr.cells ∧ d.pwr.cellsValid = false ∧ d.pwr.refFail = true ∧ d.pwr.refFails = s.dev.pwr.refFails + 1 ∧
      Raised 152 d ∧ OnlyIn (.pwr :: interruptParts) [0x4540, 0x10048] s.dev d) ∧
  (∀ (s : State) (cells tapMoves : List Nat) (refB coarse current : Nat), s.dev.pwr.cycleAt + 250000 ≤ s.dev.now → cells.length = 6 →
      s.dev.pwr.st = .unarmed → refB < 1244 → 12000 ≤ coarse → warning s.dev = false →
    Completes (.stackMonitorCycle cells refB coarse current tapMoves) s fun d => d.pwr.st = .armed ∧ d.pwr.sealStep = 0) ∧
  (∀ (s : State) (cells tapMoves : List Nat) (refB coarse current : Nat), s.dev.pwr.cycleAt + 250000 ≤ s.dev.now → cells.length = 6 →
      s.dev.pwr.st = .unarmed → refB < 1244 → coarse < 12000 → s.dev.icu.retention = false →
    Completes (.stackMonitorCycle cells refB coarse current tapMoves) s fun d =>
      d.pwr.st = .unarmed ∧ (d.src 145).level = true ∧ ((d.src 146).level = true ↔ coarse < 9000) ∧
      OnlyIn (.pwr :: interruptParts) [0x4540, 0x10048] s.dev d) ∧
  (∀ (s : State) (cells tapMoves : List Nat) (refB coarse current : Nat), s.dev.now < s.dev.pwr.cycleAt + 250000 →
    Completes (.stackMonitorCycle cells refB coarse current tapMoves) s fun d => d = s.dev) ∧
  (∀ (s : State) (quiet : Nat), s.dev.pwr.chainLost = false → 50000 ≤ quiet → s.dev.icu.retention = false →
    Completes (.heartbeatLoss quiet) s fun d =>
      d.pwr = { s.dev.pwr with chainLost := true, cellsValid := false, beatSince := none } ∧ (d.src 147).level = true ∧
      d.regF 0x10048 31 16 = min 65535 (s.dev.regF 0x10048 31 16 + 1) ∧ OnlyIn (.pwr :: interruptParts) [0x10048, 0x4540] s.dev d) ∧
  (∀ (s : State) (quiet : Nat), quiet < 50000 → Completes (.heartbeatLoss quiet) s fun d => d = s.dev) ∧
  (∀ (s : State) (t present : Nat), s.dev.pwr.chainLost = true → s.dev.pwr.beatSince = some t → 500000 ≤ present →
      s.dev.icu.retention = false →
    Completes (.heartbeatRestored present) s fun d =>
      d.pwr = { s.dev.pwr with chainLost := false, beatSince := none } ∧ (d.src 147).level = false ∧
      OnlyIn (.pwr :: interruptParts) [0x4540] s.dev d) ∧
  (∀ (s : State) (present : Nat), (s.dev.pwr.beatSince = none ∨ present < 500000) →
    Completes (.heartbeatRestored present) s fun d => d = s.dev)

/-- Balancing, the health test, and the measurements (R371, R393 to R395, R503, R509). Where the model chooses, log entries 70, 71 and 98
say how. -/
def Obligations.BalancingTestsAndMeasurements : Prop :=
  (∀ (s : State) (v : Word32), pairRuns s.dev = true → s.dev.gen.mode ≠ .primer → 0 < fld v 26 16 → fld v 26 16 ≤ 2000 →
    Completes (.balanceCommand .mgmt v) s fun d =>
      d.pwr = { s.dev.pwr with
        balanceMs := fld v 26 16, bleed := BitVec.ofNat 6 (fld v 5 0), bleedEnd := s.dev.now + fld v 26 16 * 25000 } ∧
      OnlyIn [.pwr] [] s.dev d) ∧
  (∀ (s : State) (v : Word32), pairRuns s.dev = true → s.dev.gen.mode ≠ .primer → fld v 26 16 = 0 →
    Completes (.balanceCommand .mgmt v) s fun d =>
      d.pwr = { s.dev.pwr with balanceMs := 0, bleed := 0 } ∧ OnlyIn [.pwr] [] s.dev d) ∧
  (∀ (s : State) (v : Word32), pairRuns s.dev = true → s.dev.gen.mode ≠ .primer → 2000 < fld v 26 16 → 0 < s.dev.pwr.balanceMs →
    Completes (.balanceCommand .mgmt v) s fun d =>
      d.pwr = { s.dev.pwr with bleed := BitVec.ofNat 6 (fld v 5 0), bleedEnd := s.dev.now + s.dev.pwr.balanceMs * 25000 } ∧
      OnlyIn [.pwr] [] s.dev d) ∧
  (∀ s : State, s.dev.pwr.bleed ≠ 0 → s.dev.pwr.bleedEnd ≤ s.dev.now →
    Completes .balanceExpiry s fun d =>
      d.pwr = { s.dev.pwr with bleed := 0 } ∧ Raised 154 d ∧ OnlyIn (.pwr :: interruptParts) [0x4540] s.dev d) ∧
  (∀ s : State, s.dev.now < s.dev.pwr.bleedEnd → Completes .balanceExpiry s fun d => d = s.dev) ∧
  (∀ s : State, pairRuns s.dev = true → s.dev.pwr.testRunning = false →
    Completes (.dischargeTestRequest .mgmt) s fun d => d.pwr = { s.dev.pwr with testDue := true } ∧ OnlyIn [.pwr] [] s.dev d) ∧
  (∀ s : State, s.dev.gen.mode ≠ .primer → s.dev.pwr.testRunning = false → 0 < s.dev.regF 0x10030 7 0 →
      s.dev.pwr.testTick + s.dev.regF 0x10030 7 0 * 86400 * 25000000 ≤ s.dev.now →
    Completes .dischargeTestDue s fun d => d.pwr = { s.dev.pwr with testDue := true } ∧ OnlyIn [.pwr] [] s.dev d) ∧
  (∀ s : State, s.dev.pwr.testDue = true → s.dev.gen.mode ≠ .primer → s.dev.pwr.testRunning = false → s.dev.pwr.st = .armed →
      s.dev.pwr.charger = .float → warning s.dev = false → s.dev.pwr.bleed = 0 →
    Completes .dischargeTestStart s fun d =>
      d.pwr = { s.dev.pwr with testRunning := true, charger := .off, pause := false } ∧ OnlyIn [.pwr] [] s.dev d) ∧
  (∀ (s : State) (fall ticks : Nat), s.dev.pwr.testRunning = true → s.dev.pwr.tested = false →
      0 ≤ usableEnergy (roundDiv (ticks : Int) 20000) (1000 * fall) →
    Completes (.dischargeTestDone fall ticks) s fun d =>
      d.pwr.cap = (roundDiv (ticks : Int) 20000).toNat ∧ d.pwr.esr = 1000 * fall ∧
      (d.pwr.usable : Int) = usableEnergy (roundDiv (ticks : Int) 20000) (1000 * fall) ∧ d.pwr.testTick = s.dev.now ∧
      d.pwr.tested = true ∧ d.pwr.testDue = false ∧ d.pwr.testRunning = false ∧
      (d.pwr.eol = true ↔ usableEnergy (roundDiv (ticks : Int) 20000) (1000 * fall) < 25000) ∧ Raised 155 d ∧
      (d.pwr.eol = true → Raised 156 d) ∧ OnlyIn (.pwr :: interruptParts) [0x4540] s.dev d) ∧
  (∀ (s : State) (fall ticks : Nat), s.dev.pwr.testRunning = false →
    Completes (.dischargeTestDone fall ticks) s fun d => d = s.dev) ∧
  (∀ (s : State) (vin field : Nat), s.dev.pwr.adcAt + 25000 ≤ s.dev.now → vin < 65536 → field < 65536 → s.dev.icu.retention = false →
    Completes (.vinAdcSample vin field) s fun d =>
      d.pwr = { s.dev.pwr with vin := vin, field := field, adcAt := s.dev.now } ∧
      ((d.src 157).level = true ↔ vin < 19200 ∨ 30000 < vin) ∧ OnlyIn (.pwr :: interruptParts) [0x4540] s.dev d) ∧
  (∀ (s : State) (core afe : Int), s.dev.icu.retention = false →
    Completes (.junctionTemperatureLimit core afe) s fun d =>
      d.pwr = { s.dev.pwr with tempCore := core, tempAfe := afe } ∧ ((d.src 26).level = true ↔ 110 < core ∨ 110 < afe) ∧
      OnlyIn (.pwr :: interruptParts) [0x4540] s.dev d)

/-- Lockstep supervision (R399 to R403, R420). Where the model chooses, log entries 73 and 96 say how. -/
def Obligations.LockstepFaultsRestartOrHold : Prop :=
  (∀ (s : State) (lead trail : BusCopy), pairRuns s.dev = true → lead ≠ trail →
      (s.dev.lsk.mismatches.filter fun t => decide (s.dev.now ≤ t + 250000000)).length < 2 →
    Completes (.coreMismatch lead trail 0 0) s fun d =>
      d.lsk.pair = .restarting ∧ d.lsk.restartStart = s.dev.now ∧ d.lsk.count = min 0xFFFFFFFF (s.dev.lsk.count + 1) ∧
      d.lsk.addr = lead.addr ∧ (d.lsk.log.head?).map (fun e => (e.cls, e.action, e.detail)) = some (1, 1, lead.addr) ∧ Raised 160 d ∧
      OnlyIn ([.lsk, .evt] ++ interruptParts) [0x4540] s.dev d) ∧
  (∀ (s : State) (lead trail : BusCopy), pairRuns s.dev = true → lead ≠ trail → s.dev.gen.mode ≠ .primer →
      2 ≤ (s.dev.lsk.mismatches.filter fun t => decide (s.dev.now ≤ t + 250000000)).length →
    Completes (.coreMismatch lead trail 0 0) s fun d =>
      d.gen.mode = .primer ∧ d.lsk.cause = 1 ∧ d.lsk.pair = .held ∧ Raised 160 d ∧ Raised 162 d) ∧
  (∀ (s : State) (x : BusCopy), pairRuns s.dev = true →
    Completes (.coreMismatch x x 0 0) s fun d =>
      d.lsk = { s.dev.lsk with cores := d.lsk.cores } ∧ d.lsk.cores.lead = s.dev.lsk.cores.lead + 3 ∧ OnlyIn [.lsk] [] s.dev d) ∧
  (∀ (s : State) (lead trail : BusCopy) (upset : BitVec 81), pairRuns s.dev = true → upset ≠ 0 → s.dev.gen.mode ≠ .primer →
    Completes (.coreMismatch lead trail upset 0) s fun d =>
      d.gen.mode = .primer ∧ d.lsk.cause = (if parityOk (withParity (busBits lead) ^^^ upset) then 4 else 3) ∧ d.lsk.pair = .held ∧
      d.lsk.count = s.dev.lsk.count ∧ Raised 164 d ∧ Raised 162 d) ∧
  (∀ (s : State) (x : BusCopy), pairRuns s.dev = true → s.dev.lsk.testDue = true → s.dev.lsk.nextBit < 72 →
    Completes (.lockstepSelftest x x) s fun d =>
      d.lsk = { s.dev.lsk with
        passes := min 0xFFFFFF (s.dev.lsk.passes + 1), lastBit := s.dev.lsk.nextBit, nextBit := (s.dev.lsk.nextBit + 1) % 72,
        testDue := false, cores := d.lsk.cores } ∧
      d.lsk.cores.lead = s.dev.lsk.cores.lead + 3 ∧ OnlyIn [.lsk] [] s.dev d) ∧
  (∀ s : State, pairRuns s.dev = true → s.dev.lsk.testDue = true → s.dev.gen.mode ≠ .primer →
    Completes .lockstepSelftestFail s fun d =>
      d.gen.mode = .primer ∧ d.lsk.cause = 2 ∧ d.lsk.pair = .held ∧ d.lsk.lastBit = s.dev.lsk.nextBit ∧ Raised 163 d ∧ Raised 162 d) ∧
  (∀ (s : State) (r : DelayReg) (upsetA upsetB : BitVec 81) (cause : Nat), pairRuns s.dev = true →
      s.dev.lsk.cores.inputs.head? = some r → delayFault { a := r.a ^^^ upsetA, b := r.b ^^^ upsetB } = some cause →
      s.dev.gen.mode ≠ .primer →
    Completes (.delayRegisterFault upsetA upsetB) s fun d =>
      d.gen.mode = .primer ∧ d.lsk.cause = cause ∧ d.lsk.pair = .held ∧ Raised 164 d ∧ Raised 162 d) ∧
  (∀ (s : State) (other : Bool), s.dev.lsk.pair = .restarting →
    Completes (.warmRestartDone true other) s fun d =>
      d.lsk.pair = .running ∧ d.lsk.imageB = s.dev.lsk.imageB ∧ d.lsk.restarts = min 0xFFFF (s.dev.lsk.restarts + 1) ∧
      d.lsk.lastUs = min 0xFFFF ((s.dev.now - s.dev.lsk.restartStart) / 25) ∧ Raised 161 d) ∧
  (∀ s : State, s.dev.lsk.pair = .restarting →
    Completes (.warmRestartDone false true) s fun d =>
      d.lsk.pair = .running ∧ d.lsk.imageB = !s.dev.lsk.imageB ∧ Raised 165 d ∧ Raised 161 d) ∧
  (∀ s : State, s.dev.lsk.pair = .restarting → s.dev.gen.mode ≠ .primer →
    Completes (.warmRestartDone false false) s fun d =>
      d.gen.mode = .primer ∧ d.lsk.cause = 5 ∧ d.lsk.pair = .held ∧ Raised 165 d ∧ Raised 162 d)

/-- Test pulses and their checks (R409, R411 to R413, R416). Where the model chooses, log entries 1, 34 and 98 say how. -/
def Obligations.TestPulsesCheckTheOutputs : Prop :=
  (∀ (s : State) (i : Nat), i < 4 → s.dev.fio.joint.getLsbD i = false → groupMember s.dev i = false → energised s.dev i = true →
      pulseEnabled s.dev i = true →
      s.dev.now = s.dev.fio.periodStart + (2 * i + twinId s.dev) * (fld s.dev.fio.cfgNow 9 0 * 25000 / 8) →
    Completes (.testPulseWindow i) s fun d =>
      d.fio = { s.dev.fio with pulsing := BitVec.ofNat 4 (2 ^ i), windowEnd := s.dev.now + fld s.dev.fio.cfgNow 19 16 * 2500 } ∧
      OnlyIn [.fio] [] s.dev d) ∧
  (∀ (s : State) (i : Nat), (4 ≤ i ∨ s.dev.now ≠ windowOpens s.dev i) → Completes (.testPulseWindow i) s fun d => d = s.dev) ∧
  (∀ (s : State) (i : Nat) (pins : BitVec 4), i < 4 → s.dev.fio.joint.getLsbD i = false → groupMember s.dev i = false →
      isLatched s.dev i = false → energised s.dev i = true → pulseEnabled s.dev i = true →
      s.dev.now + 1250 = s.dev.fio.periodStart + (2 * i + twinId s.dev) * (fld s.dev.fio.cfgNow 9 0 * 25000 / 8)
        + fld s.dev.fio.cfgNow 19 16 * 2500 →
    Completes (.pulseSampleInstant i pins) s fun d =>
      d.fio.checks = s.dev.fio.checks ++ [{ out := i, high := pins.getLsbD i, pins := pins, drivers := driversOn s.dev }] ∧
      d.fio.pin.getLsbD i = pins.getLsbD i ∧ d.fio.sampled = true ∧
      d.reg 0x1201C = BitVec.ofNat 32 (min 0xFFFFFFFF ((s.dev.reg 0x1201C).toNat + 1)) ∧ OnlyIn [.fio] [0x1201C] s.dev d) ∧
  (∀ (s : State) (c : PulseCheck), s.dev.fio.periodStart + pulsePeriod s.dev ≤ s.dev.now → s.dev.fio.checks = [c] → c.out < 4 →
      c.high = true → isLatched s.dev c.out = false → s.dev.fio.groupFailed = none →
    Completes .pulsePeriodEnd s fun d =>
      d.fio.ext.getLsbD c.out = true ∧ (∀ i, i ≠ c.out → d.fio.ext.getLsbD i = s.dev.fio.ext.getLsbD i) ∧ d.fio.cross = s.dev.fio.cross ∧
      d.fio.joint = 0 ∧ d.fio.checks = [] ∧ d.fio.periodStart = s.dev.fio.periodStart + pulsePeriod s.dev ∧ d.fio.cfgNow = s.dev.reg 0x12004 ∧
      d.fio.groupNow = s.dev.reg 0x12008 ∧
      d.reg 0x12020 = BitVec.ofNat 32 (min 0xFFFFFFFF ((s.dev.reg 0x12020).toNat + 1)) ∧ Raised 166 d) ∧
  (∀ (s : State) (c : PulseCheck), s.dev.fio.periodStart + pulsePeriod s.dev ≤ s.dev.now → s.dev.fio.checks = [c] → c.high = false →
      s.dev.fio.groupFailed = none →
    Completes .pulsePeriodEnd s fun d => d.fio.ext = s.dev.fio.ext ∧ d.fio.cross = s.dev.fio.cross ∧ d.fio.checks = []) ∧
  (∀ (s : State) (a b : PulseCheck), s.dev.fio.periodStart + pulsePeriod s.dev ≤ s.dev.now → s.dev.fio.checks = [a, b] →
      a.out < 4 → b.out < 4 → a.out ≠ b.out → a.high = true → b.high = true → a.drivers.getLsbD b.out = true →
      b.pins.getLsbD a.out = false → s.dev.fio.groupFailed = none →
    Completes .pulsePeriodEnd s fun d => d.fio.cross.getLsbD a.out = true ∧ d.fio.cross.getLsbD b.out = true ∧ Raised 168 d) ∧
  (∀ s : State, s.dev.now < s.dev.fio.periodStart + pulsePeriod s.dev → Completes .pulsePeriodEnd s fun d => d = s.dev) ∧
  (∀ (s : State) (cr : Credits) (ticks width l p : Nat), s.dev.lath.live = true → twinId s.dev = 1 →
    Completes (.pulseSync cr ticks width l p) s fun d =>
      d.fio.syncSeen = true ∧ d.fio.peerLocal = l ∧ d.fio.peerPeer = p ∧ d.fio.groupWindow = some (s.dev.now + ticks, width) ∧
      OnlyIn [.fio, .lath, .lsk, .evt] [0xE028] s.dev d)

/-- Overload, the field supply, the clearing of faults, and the field inputs (R157, R372, R408, R414, R418 to R420, R490). Where the model
chooses, log entries 1, 49, 73 and 98 say how. -/
def Obligations.FieldFaultsAndInputs : Prop :=
  (∀ (s : State) (i : Nat), i < 4 → s.dev.fio.gnd.getLsbD i = false →
    Completes (.outputOvercurrent i false) s fun d =>
      d.fio = { s.dev.fio with gnd := s.dev.fio.gnd ||| maskOf [i] } ∧ Raised 167 d ∧
      (d.lsk.log.head?).map (fun e => (e.tick, e.cls, e.outputs)) = some (s.dev.now, 8, maskOf [i]) ∧
      OnlyIn ([.fio, .lsk, .evt] ++ interruptParts) [0x4540] s.dev d) ∧
  (∀ (s : State) (i : Nat), i < 4 → s.dev.fio.gnd.getLsbD i = true →
    Completes (.outputOvercurrent i true) s fun d =>
      d.fio.gnd = s.dev.fio.gnd ∧ d.fio.shutdown = s.dev.fio.shutdown ||| maskOf [i] ∧
      sget (fun _ => 0) d.fio.retryAt i = s.dev.now + 25000000 ∧ OnlyIn [.fio] [] s.dev d) ∧
  (∀ (s : State) (i : Nat), i < 4 → s.dev.fio.gnd.getLsbD i = true →
      (s.dev.fio.shutdown.getLsbD i = true → outCondition s.dev i = true ∧ sget (fun _ => 0) s.dev.fio.retryAt i ≤ s.dev.now) →
    Completes (.outputRetry i true) s fun d =>
      d.fio = { s.dev.fio with gnd := s.dev.fio.gnd &&& ~~~ (maskOf [i]), shutdown := s.dev.fio.shutdown &&& ~~~ (maskOf [i]) } ∧
      OnlyIn [.fio] [] s.dev d) ∧
  (∀ (s : State) (i : Nat), i < 4 → s.dev.fio.gnd.getLsbD i = true → s.dev.fio.shutdown.getLsbD i = true →
      outCondition s.dev i = true → sget (fun _ => 0) s.dev.fio.retryAt i ≤ s.dev.now →
    Completes (.outputRetry i false) s fun d =>
      d.fio.gnd = s.dev.fio.gnd ∧ d.fio.shutdown.getLsbD i = true ∧ sget (fun _ => 0) d.fio.retryAt i = s.dev.now + 25000000 ∧
      OnlyIn [.fio] [] s.dev d) ∧
  (∀ (s : State) (i : Nat) (ended : Bool), s.dev.fio.shutdown.getLsbD i = true →
      (outCondition s.dev i = false ∨ s.dev.now < sget (fun _ => 0) s.dev.fio.retryAt i) →
    Completes (.outputRetry i ended) s fun d => d = s.dev) ∧
  (∀ (s : State) (v : Word32), s.dev.hif.lock = false → s.dev.gen.mode ≠ .primer →
    Completes (.faultClr .host v) s fun d =>
      (∀ i, i < 4 → isLatched d i = (isLatched s.dev i && !(wbit v i && s.dev.fio.lowLast.getLsbD i))) ∧
      OnlyIn [.fio, .lsk, .evt] [] s.dev d) ∧
  (∀ s : State, s.dev.fio.low = false → s.dev.icu.retention = false →
    Completes .fieldSupplyLow s fun d =>
      d.fio = { s.dev.fio with low := true } ∧ (d.src 169).level = true ∧
      (d.lsk.log.head?).map (fun e => (e.tick, e.cls, e.outputs)) = some (s.dev.now, 9, 0xF) ∧
      OnlyIn ([.fio, .lsk, .evt] ++ interruptParts) [0x4540] s.dev d) ∧
  (∀ s : State, s.dev.fio.low = true → s.dev.icu.retention = false →
    Completes .fieldSupplyRestored s fun d =>
      d.fio = { s.dev.fio with low := false, restorePending := true } ∧ (d.src 169).level = false ∧
      OnlyIn (.fio :: interruptParts) [0x4540] s.dev d) ∧
  (∀ (s : State) (on : Bool) (held : Nat), s.dev.icu.retention = false →
    Completes (.fieldInputChange 1 on held) s fun d =>
      d.fio.levels.getLsbD 1 = on ∧ (d.fio.peerLowSince = none ↔ on = true) ∧ (d.src 171).level = on ∧
      OnlyIn (.fio :: interruptParts) [0x4540] s.dev d) ∧
  (∀ (s : State) (on : Bool) (held : Nat), s.dev.icu.retention = false →
    Completes (.fieldInputChange 2 on held) s fun d =>
      d.fio.levels.getLsbD 2 = on ∧ d.wrc.analog.getLsbD 3 = on ∧ (d.src 172).level = on) ∧
  (∀ (s : State) (on : Bool) (held : Nat), s.dev.icu.retention = false →
      s.dev.regF 0x12018 15 8 * 250 ≤ held →
    Completes (.fieldInputChange 3 on held) s fun d =>
      d.fio = { s.dev.fio with levels := (s.dev.fio.levels &&& 7) ||| (if on then 8 else 0) } ∧ (d.src 173).level = on ∧
      OnlyIn (.fio :: interruptParts) [0x4540] s.dev d) ∧
  (∀ (s : State) (on : Bool) (held : Nat), held < s.dev.regF 0x12018 15 8 * 250 →
    Completes (.fieldInputChange 3 on held) s fun d => d = s.dev)

/-- Flash operations: their start and its refusals, suspend and resume, and their end (R427, R429, R430, R432, R433). Where the model
chooses, log entries 1, 31, 32 and 72 say how. -/
def Obligations.FlashOperationsChangeTheArray : Prop :=
  (∀ (s : State) (a : Nat), pairRuns s.dev = true → s.dev.fls.op = none → a = s.dev.regF 0x13004 22 0 → flashErr s.dev .program a = 0 → a < 0x5D0000 →
    Completes (.program .mgmt) s fun d =>
      d.fls.op = some (.program, a) ∧ d.fls.err = 0 ∧
      (∀ i, i < 256 → d.flashByte (a + i) = (progBuf s.dev).getD i 0xFF) ∧
      (∀ i, i < a ∨ a + 256 ≤ i → d.flashByte i = s.dev.flashByte i) ∧ OnlyIn [.fls] [0x13000] s.dev d) ∧
  (∀ (s : State) (a : Nat), pairRuns s.dev = true → s.dev.fls.op = none → a = s.dev.regF 0x13004 22 0 → flashErr s.dev .eraseSector a = 0 →
    Completes (.eraseSector .mgmt) s fun d =>
      d.fls.op = some (.eraseSector, a) ∧ d.fls.err = 0 ∧
      (∀ i, i < 4096 → d.flashByte (a + i) = 0xFF) ∧
      (∀ i, i < a ∨ a + 4096 ≤ i → d.flashByte i = s.dev.flashByte i) ∧
      sget (fun _ => 0) d.fls.erases (a / 4096) = sget (fun _ => 0) s.dev.fls.erases (a / 4096) + 1 ∧ OnlyIn [.fls] [0x13000] s.dev d) ∧
  (∀ (s : State) (a : Nat), pairRuns s.dev = true → s.dev.fls.op = none → a = s.dev.regF 0x13004 22 0 → flashErr s.dev .eraseBlock a = 0 →
    Completes (.eraseBlock .mgmt) s fun d =>
      d.fls.op = some (.eraseBlock, a) ∧ d.fls.err = 0 ∧
      (∀ i, i < 65536 → d.flashByte (a + i) = 0xFF) ∧
      (∀ i, i < a ∨ a + 65536 ≤ i → d.flashByte i = s.dev.flashByte i) ∧ OnlyIn [.fls] [0x13000] s.dev d) ∧
  (∀ (s : State) (a : Nat), pairRuns s.dev = true → s.dev.fls.op = none → a = s.dev.regF 0x13004 22 0 → flashErr s.dev .bitClear a = 0 →
    Completes (.bitClear .mgmt) s fun d =>
      d.fls.op = some (.bitClear, a) ∧ d.fls.err = 0 ∧
      (∀ i, i < 4 → d.flashByte (a + i) = s.dev.flashByte (a + i) &&& (progBuf s.dev).getD i 0) ∧
      (∀ i, i < a ∨ a + 4 ≤ i → d.flashByte i = s.dev.flashByte i) ∧ OnlyIn [.fls] [0x13000] s.dev d) ∧
  (∀ s : State, pairRuns s.dev = true → s.dev.fls.op = none → s.dev.gen.mode = .primer → flashErr s.dev .eraseSector (s.dev.regF 0x13004 22 0) ≠ 0 →
    Completes (.eraseSector .mgmt) s fun d =>
      d.fls = { s.dev.fls with err := flashErr s.dev .eraseSector (s.dev.regF 0x13004 22 0) } ∧ OnlyIn [.fls] [0x13000] s.dev d) ∧
  (∀ s : State, pairRuns s.dev = true → s.dev.fls.op ≠ none → Completes (.program .mgmt) s fun d => OnlyIn [] [0x13000] s.dev d) ∧
  (∀ s : State, pairRuns s.dev = true → s.dev.fls.op ≠ none → s.dev.fls.suspended = false → s.dev.fls.suspending = false → s.dev.fls.held = false →
      runLongEnough s.dev = true →
    Completes (.suspend .mgmt) s fun d => d.fls = { s.dev.fls with suspending := true, auto := false } ∧ OnlyIn [.fls] [0x13000] s.dev d) ∧
  (∀ s : State, pairRuns s.dev = true → s.dev.fls.op ≠ none → s.dev.fls.suspended = false → s.dev.fls.suspending = false → s.dev.fls.held = false →
      runLongEnough s.dev = false →
    Completes (.suspend .mgmt) s fun d =>
      d.fls = { s.dev.fls with held := true, auto := false } ∧ Raised 178 d ∧
      d.reg 0x13058 = BitVec.ofNat 32 (min 0xFFFFFFFF ((s.dev.reg 0x13058).toNat + 1)) ∧
      OnlyIn (.fls :: interruptParts) [0x13000, 0x13058, 0x4540] s.dev d) ∧
  (∀ s : State, pairRuns s.dev = true → s.dev.fls.op ≠ none → s.dev.fls.suspended = true →
    Completes (.resume .mgmt) s fun d =>
      d.fls = { s.dev.fls with suspended := false, suspending := false, held := false, auto := false, resumedAt := some s.dev.now } ∧
      OnlyIn [.fls] [0x13000] s.dev d) ∧
  (∀ s : State, s.dev.fls.op ≠ none → s.dev.fls.suspending = true → s.dev.fls.waiting = [] →
    Completes .suspendReached s fun d =>
      d.fls = { s.dev.fls with suspended := true, suspending := false, suspendedAt := s.dev.now, waiting := [] } ∧
      OnlyIn [.fls] [] s.dev d) ∧
  (∀ s : State, s.dev.fls.op ≠ none → s.dev.fls.held = true → runLongEnough s.dev = true →
    Completes .suspendHoldExpiry s fun d => d.fls = { s.dev.fls with held := false, suspending := true } ∧ OnlyIn [.fls] [] s.dev d) ∧
  (∀ s : State, s.dev.fls.op ≠ none → s.dev.fls.suspended = true → s.dev.fls.auto = true → s.dev.fls.suspendedAt + 2500 ≤ s.dev.now →
    Completes .autoSuspendEnd s fun d =>
      d.fls = { s.dev.fls with suspended := false, suspending := false, held := false, auto := false, resumedAt := some s.dev.now } ∧
      OnlyIn [.fls] [] s.dev d) ∧
  (∀ (s : State) (x : FlashOp × Nat), s.dev.fls.op = some x → s.dev.fls.suspended = false → s.dev.fls.waiting = [] →
    Completes (.flashOpDone true) s fun d =>
      d.fls = { s.dev.fls with op := none, suspending := false, held := false, auto := false, resumedAt := none, waiting := [] } ∧
      Raised 176 d ∧ OnlyIn (.fls :: interruptParts) [0x4540] s.dev d) ∧
  (∀ (s : State) (x : FlashOp × Nat), s.dev.fls.op = some x → s.dev.fls.suspended = false → s.dev.fls.waiting = [] →
    Completes (.flashOpDone false) s fun d =>
      d.fls.op = none ∧ d.fls.err = 3 ∧ Raised 176 d ∧ Raised 177 d ∧
      d.reg 0x1305C = BitVec.ofNat 32 (min 0xFFFFFFFF ((s.dev.reg 0x1305C).toNat + 1)) ∧
      OnlyIn (.fls :: interruptParts) [0x1305C, 0x4540] s.dev d) ∧
  (∀ s : State, s.dev.fls.op ≠ none → s.dev.fls.suspended = true → Completes (.flashOpDone true) s fun d => d = s.dev)

/-- Flash reads, scrubbing and refresh, the event log, and the confirm mark (R426, R431, R437, R438, R440, R471). Where the model chooses,
log entries 8, 72 and 98 say how. -/
def Obligations.FlashReadsScrubsAndLogs : Prop :=
  (∀ (s : State) (k : Nat) (bs : List Byte), k < 262144 → s.dev.fls.op = none →
      readChunk (flashBytes s.dev (32 * k) 32) (s.dev.flashSpare k) = .coded bs 0 → flipCheck [] (s.dev.flashSpare k) = s.dev.flashSpare k →
      flipData [] (flashBytes s.dev (32 * k) 32) = flashBytes s.dev (32 * k) 32 →
    Completes (.flashRead k []) s fun d => d.fls = { s.dev.fls with delivered := some (bs, false) } ∧ OnlyIn [.fls] [] s.dev d) ∧
  (∀ (s : State) (k : Nat) (flips : List Nat), k < 262144 → s.dev.fls.op = none →
      readChunk (flipData flips (flashBytes s.dev (32 * k) 32)) (flipCheck flips (s.dev.flashSpare k)) = .poison →
    Completes (.flashRead k flips) s fun d =>
      d.fls.delivered = some (flipData flips (flashBytes s.dev (32 * k) 32), true) ∧ Raised 180 d ∧
      d.reg 0x13054 = BitVec.ofNat 32 (min 0xFFFFFFFF ((s.dev.reg 0x13054).toNat + 1)) ∧
      OnlyIn (.fls :: interruptParts) [0x13054, 0x4540] s.dev d) ∧
  (∀ (s : State) (k : Nat) (flips : List Nat), k < 262144 → sectorBusy s.dev (k / 128) = true →
    Completes (.flashRead k flips) s fun d => d.fls = { s.dev.fls with delivered := some ([], true) } ∧ OnlyIn [.fls] [] s.dev d) ∧
  (∀ (s : State) (n k : Nat) (fl : List Nat), n < 2048 → ¬ (0x4D0 ≤ n ∧ n < 0x5D0) → sectorBusy s.dev n = false → k < 128 →
      wasCorrected (sensed s.dev (128 * n + k) fl) = true →
    Completes (.flashScrub n [(k, fl)]) s fun d =>
      n ∈ d.fls.due ∧ Raised 181 d ∧ OnlyIn (.fls :: interruptParts) [0x13050, 0x4540] s.dev d) ∧
  (∀ (s : State) (n : Nat), Completes (.flashScrub n []) s fun d => d = s.dev) ∧
  (∀ (s : State) (n : Nat), s.dev.fls.due = [n] → s.dev.gen.mode ≠ .primer → s.dev.fls.op = none → refreshAllowed s.dev n = true →
      sectorReads s.dev n = true →
    Completes (.flashRefresh n) s fun d =>
      d.fls.due = [] ∧ sget (fun _ => none) d.fls.refreshedAt n = some s.dev.now ∧
      sget (fun _ => 0) d.fls.erases n = sget (fun _ => 0) s.dev.fls.erases n + 1 ∧
      (∀ i, i < 4096 * n ∨ 4096 * (n + 1) ≤ i → d.flashByte i = s.dev.flashByte i) ∧ OnlyIn [.fls] [] s.dev d) ∧
  (∀ (s : State) (source code : Nat) (detail : List Byte), pairRuns s.dev = true → s.dev.gen.mode ≠ .primer →
      hourOf s.dev ≤ s.dev.evt.hour → s.dev.evt.hourCount < 7200 → s.dev.evt.next < 32768 →
    Completes (.eventLogWrite 1 source code detail) s fun d =>
      (let b := eventBody s.dev.now s.dev.evt.seq 1 source code detail
       flashBytes d (0x4D0000 + 32 * s.dev.evt.next) 32 = b ++ leBytes 4 (crc32c b).toNat) ∧
      d.evt = { s.dev.evt with
        next := (s.dev.evt.next + 1) % 32768, seq := (s.dev.evt.seq + 1) % 4294967296, hourCount := s.dev.evt.hourCount + 1 } ∧
      Raised 27 d ∧ OnlyIn ([.fls, .evt] ++ interruptParts) [0x4540] s.dev d) ∧
  (∀ (s : State) (source code : Nat) (detail : List Byte), pairRuns s.dev = true → s.dev.gen.mode ≠ .primer →
      hourOf s.dev ≤ s.dev.evt.hour → 7200 ≤ s.dev.evt.hourCount →
    Completes (.eventLogWrite 1 source code detail) s fun d =>
      d.evt = { s.dev.evt with suppressed := s.dev.evt.suppressed + 1, lost := s.dev.evt.lost + 1 } ∧ OnlyIn [.evt] [] s.dev d) ∧
  (∀ (s : State) (e : EventDue) (q : List EventDue) (source code : Nat) (detail : List Byte), s.dev.evt.queue = e :: q →
      (e.origin = 2 ∨ e.origin = 3) → pairRuns s.dev = true → s.dev.gen.mode ≠ .primer →
      hourOf s.dev ≤ s.dev.evt.hour → s.dev.evt.hourCount < 7200 → s.dev.evt.next < 32768 →
    Completes (.eventLogWrite e.origin source code detail) s fun d =>
      (let b := eventBody e.tick s.dev.evt.seq e.origin e.source e.code e.detail
       flashBytes d (0x4D0000 + 32 * s.dev.evt.next) 32 = b ++ leBytes 4 (crc32c b).toNat) ∧
      d.evt = { s.dev.evt with
        queue := q, next := (s.dev.evt.next + 1) % 32768, seq := (s.dev.evt.seq + 1) % 4294967296,
        hourCount := s.dev.evt.hourCount + 1 } ∧
      Raised 27 d ∧ OnlyIn ([.fls, .evt] ++ interruptParts) [0x4540] s.dev d) ∧
  (∀ s : State, s.dev.evt.hour < hourOf s.dev → s.dev.evt.suppressed = 0 →
    Completes .eventLogHourEnd s fun d =>
      d.evt = { s.dev.evt with hour := hourOf s.dev, hourCount := 0, suppressed := 0 } ∧ OnlyIn [.evt] [] s.dev d) ∧
  (∀ s : State, s.dev.evt.hour < hourOf s.dev → 0 < s.dev.evt.suppressed → s.dev.gen.mode ≠ .primer →
    Completes .eventLogHourEnd s fun d =>
      d.evt = { s.dev.evt with
        hour := hourOf s.dev, hourCount := 1, suppressed := 0, next := (s.dev.evt.next + 1) % 32768,
        seq := (s.dev.evt.seq + 1) % 4294967296 } ∧ Raised 27 d) ∧
  (∀ s : State, confirmDue s.dev = true →
    Completes .confirmMark s fun d =>
      (∀ i, i < imageBase s.dev.lsk.imageB + 0x400 ∨ imageBase s.dev.lsk.imageB + 0x500 ≤ i → d.flashByte i = s.dev.flashByte i) ∧
      d.fls.cuts = s.dev.fls.cuts + 1 ∧ OnlyIn [.fls] [] s.dev d)

/-- The protected memories and the checker test window (R442 to R445, R448). Where the model chooses, log entry 1 says how. -/
def Obligations.ProtectedMemoriesAreScrubbedAndTested : Prop :=
  (∀ (s : State) (mem word k : Nat) (data fixed : BitVec 64) (check : BitVec 8) (written : Bool), word < eccWords mem →
      secdedDecode data check = .corrected k fixed →
    Completes (.sramScrub mem word data check false written) s fun d =>
      d.reg 0x14028 = BitVec.ofNat 32 (min 0xFFFFFFFF ((s.dev.reg 0x14028).toNat + 1)) ∧ Raised 182 d ∧ d.ecc.poison = s.dev.ecc.poison ∧
      OnlyIn (.ecc :: interruptParts) [0x14028, 0x4540] s.dev d) ∧
  (∀ (s : State) (word : Nat) (data : BitVec 64) (check : BitVec 8), word < 32768 → secdedDecode data check = .uncorrectable →
    Completes (.sramScrub 1 word data check false false) s fun d =>
      2 ^ 20 + word ∈ d.ecc.poison ∧ d.reg 0x1402C = BitVec.ofNat 32 (min 0xFFFFFFFF ((s.dev.reg 0x1402C).toNat + 1)) ∧ Raised 183 d ∧
      OnlyIn (.ecc :: interruptParts) [0x1402C, 0x4540] s.dev d) ∧
  (∀ (s : State) (word : Nat) (data : BitVec 64) (check : BitVec 8), word < 32768 → secdedDecode data check = .uncorrectable →
    Completes (.sramScrub 1 word data check false true) s fun d => d.ecc.poison = s.dev.ecc.poison ∧ Raised 183 d) ∧
  (∀ (s : State) (mem word : Nat) (data : BitVec 64) (check : BitVec 8) (written : Bool), word < eccWords mem →
      secdedDecode data check = .clean →
    Completes (.sramScrub mem word data check true written) s fun d =>
      d.ecc = { s.dev.ecc with passes := min 0xFFFFFFFF (s.dev.ecc.passes + 1) } ∧ OnlyIn [.ecc] [] s.dev d) ∧
  (∀ (s : State) (mem : Nat) (addr : Word32) (fetch : Bool), pairRuns s.dev = true →
    Completes (.poisonConsumed mem addr fetch) s fun d =>
      d.reg 0x14030 = BitVec.ofNat 32 (min 0xFFFFFFFF ((s.dev.reg 0x14030).toNat + 1)) ∧ Raised 184 d ∧
      OnlyIn (.ecc :: interruptParts) [0x14030, 0x4540] s.dev d) ∧
  (∀ (s : State) (v : Word32), pairRuns s.dev = true → s.dev.ecc.openedAt = none → wbit v 31 = true → fld v 12 8 < 10 → s.dev.icu.retention = false →
    Completes (.splitModeOpen .mgmt v) s fun d =>
      d.ecc = { s.dev.ecc with openedAt := some s.dev.now } ∧ d.regF 0x14000 12 8 = fld v 12 8 ∧ d.regF 0x14000 1 0 = fld v 1 0 ∧
      (d.src 187).level = true ∧ OnlyIn (.ecc :: interruptParts) [0x14000, 0x4540] s.dev d) ∧
  (∀ (s : State) (v : Word32), pairRuns s.dev = true → s.dev.ecc.openedAt ≠ none → Completes (.splitModeOpen .mgmt v) s fun d => d = s.dev) ∧
  (∀ s : State, pairRuns s.dev = true → s.dev.icu.retention = false →
    Completes (.splitModeClose .mgmt) s fun d =>
      d.ecc = { s.dev.ecc with openedAt := none } ∧ (d.src 187).level = false ∧ OnlyIn (.ecc :: interruptParts) [0x4540] s.dev d) ∧
  (∀ (s : State) (t : Nat), s.dev.ecc.openedAt = some t → t + 25000 ≤ s.dev.now → s.dev.icu.retention = false →
    Completes .splitModeTimeout s fun d =>
      d.ecc = { s.dev.ecc with openedAt := none } ∧ (d.src 187).level = false ∧ OnlyIn (.ecc :: interruptParts) [0x4540] s.dev d) ∧
  (∀ (s : State) (t : Nat), pairRuns s.dev = true → s.dev.ecc.openedAt = some t →
    Completes (.testWriteData .mgmt) s fun d =>
      sget (fun _ => (0, 0)) d.ecc.rows (testRow s.dev) = (testData s.dev, (sget (fun _ => (0, 0)) s.dev.ecc.rows (testRow s.dev)).2) ∧
      (∀ r, r ≠ testRow s.dev → sget (fun _ => (0, 0)) d.ecc.rows r = sget (fun _ => (0, 0)) s.dev.ecc.rows r) ∧
      OnlyIn [.ecc] [] s.dev d) ∧
  (∀ (s : State) (t : Nat), pairRuns s.dev = true → s.dev.ecc.openedAt = some t →
    Completes (.testWriteCheck .mgmt) s fun d =>
      sget (fun _ => (0, 0)) d.ecc.rows (testRow s.dev) =
        ((sget (fun _ => (0, 0)) s.dev.ecc.rows (testRow s.dev)).1, BitVec.ofNat 8 (s.dev.regF 0x1400C 7 0)) ∧
      OnlyIn [.ecc] [] s.dev d) ∧
  (∀ (s : State) (t : Nat) (w : BitVec 64) (c : BitVec 8), pairRuns s.dev = true → s.dev.ecc.openedAt = some t →
      sget (fun _ => (0, 0)) s.dev.ecc.rows (testRow s.dev) = (w, c) → secdedDecode w c = .clean →
    Completes (.testRead .mgmt) s fun d =>
      d.ecc = { s.dev.ecc with outcome := 0, bit := 127, syndrome := secdedSyndrome w c, read := w } ∧ OnlyIn [.ecc] [] s.dev d) ∧
  (∀ (s : State) (t : Nat) (w : BitVec 64) (c : BitVec 8), pairRuns s.dev = true → s.dev.ecc.openedAt = some t →
      sget (fun _ => (0, 0)) s.dev.ecc.rows (testRow s.dev) = (w, c) → secdedDecode w c = .uncorrectable →
    Completes (.testRead .mgmt) s fun d =>
      d.ecc = { s.dev.ecc with outcome := 2, bit := 127, syndrome := secdedSyndrome w c, read := w } ∧ OnlyIn [.ecc] [] s.dev d) ∧
  (∀ (s : State) (word : Nat), pairRuns s.dev = true → word < 32768 → s.dev.ecc.poison = [2 ^ 20 + word] →
    Completes (.zeroWord .mgmt (BitVec.ofNat 32 (8 * word))) s fun d => d.ecc = { s.dev.ecc with poison := [] } ∧ OnlyIn [.ecc] [] s.dev d)

/-- Power-on, the calibration record, the cartridge in its seat, and firmware updates (R3, R32, R436, R449, R456 to R458, R461, R464, R465,
R472, R474). Where the model chooses, log entries 61, 64, 65, 66, 67 and 97 say how. -/
def Obligations.StartUpCartridgeAndUpdate : Prop :=
  (∀ (s : State) (x : PowerOnInputs),
    Completes (.powerOnReset x) s fun d =>
      d.pacing.now = 0 ∧ d.hif.lock = false ∧ d.hif.cmds = [] ∧ d.pwr.st = .unarmed ∧ d.gen.chosen = true ∧
      d.gen.powerOns = min 0xFFFFFFFF (s.dev.gen.powerOns + 1) ∧ d.ecc.testDone = true ∧ d.ecc.failMap = x.checkerFail ∧
      d.rdc.clusters = []) ∧
  (∀ (s : State) (x : PowerOnInputs), x.checkerFail ≠ 0 →
    Completes (.powerOnReset x) s fun d => d.gen.mode = .primer ∧ d.lsk.cause = 6 ∧ d.lsk.pair = .held ∧ Raised 186 d ∧ Raised 162 d) ∧
  (∀ (s : State) (c : Calibration), s.dev.nv.calibration = some c → saveDue s.dev = true →
    Completes .calibrationSave s fun d =>
      (∃ r, d.nv.calibration = some r ∧ r.laserSeconds = s.dev.gen.laserSeconds ∧ r.revolutions = s.dev.gen.edges / 1152 ∧
        r.strat = c.strat ∧ r.laserMax = c.laserMax) ∧
      d.nv.calGeneration = s.dev.nv.calGeneration + 1 ∧ d.gen.unsaved = false ∧ d.gen.savedAt = some s.dev.now ∧
      OnlyIn [.nv, .gen] [] s.dev d) ∧
  (∀ (s : State) (m : List Byte) (y : SystemScan), s.dev.gen.cart = none → s.dev.gen.mode = .dustSheet → parseCartridge m = none →
    Completes (.cartridgeSeated m y) s fun d =>
      d.gen = { s.dev.gen with cart := some notK6, cartState := 3, dustCause := 3 } ∧ d.cry.tagOk = false ∧ Raised 21 d ∧
      OnlyIn ([.gen, .cry] ++ interruptParts) [0x4540] s.dev d) ∧
  (∀ (s : State) (m : List Byte) (y : SystemScan) (c : Cartridge), s.dev.gen.cart = none → parseCartridge m = some c →
      cartWritable s.dev c = true → c.format = 0 →
    Completes (.cartridgeSeated m y) s fun d =>
      d.gen = { s.dev.gen with cart := some c, cartState := 2 } ∧ d.cry = { s.dev.cry with tagOk := true } ∧ Raised 21 d ∧
      OnlyIn ([.gen, .cry] ++ interruptParts) [0x4540] s.dev d) ∧
  (∀ (s : State) (c : Cartridge), s.dev.gen.cart = some c → s.dev.gen.cartState = 5 →
    Completes .cartridgeRemoved s fun d =>
      d.gen = { s.dev.gen with cart := none, cartState := 0 } ∧ d.rdc.clusters = [] ∧ d.wrc.clusters = [] ∧ d.cry.tagOk = false ∧
      Raised 22 d) ∧
  (∀ (s : State) (c : Cartridge), s.dev.gen.cart = some c → s.dev.gen.cartState ≠ 5 → s.dev.gen.mode = .undercoat →
    Completes .cartridgeRemoved s fun d =>
      d.gen.mode = .dustSheet ∧ d.gen.dustCause = 11 ∧ d.gen.cart = none ∧ d.gen.cartState = 0 ∧ d.gen.parked = true ∧
      d.wrc.laserOn = false ∧ Raised 22 d) ∧
  (∀ (s : State) (v : Word32), s.dev.hif.lock = false → s.dev.gen.fwState ≠ 1 → wbit v 31 = true → s.dev.gen.mode = .dustSheet →
      s.dev.pwr.st = .armed →
    Completes (.fwUpdateStart .host v) s fun d =>
      d.gen = { s.dev.gen with fwSlot := fld v 4 0, fwRestart := wbit v 30, fwState := 1, fwErr := 0, fwSource := fld v 4 0 } ∧ OnlyIn [.gen] [] s.dev d) ∧
  (∀ (s : State) (v : Word32), s.dev.hif.lock = false → (s.dev.gen.fwState = 1 ∨ wbit v 31 = false) →
    Completes (.fwUpdateStart .host v) s fun d =>
      d.gen = { s.dev.gen with fwSlot := fld v 4 0, fwRestart := wbit v 30 } ∧ OnlyIn [.gen] [] s.dev d) ∧
  (∀ (s : State) (v : Word32), s.dev.hif.lock = false → s.dev.gen.fwState ≠ 1 → wbit v 31 = true → s.dev.gen.mode ≠ .dustSheet →
    Completes (.fwUpdateStart .host v) s fun d =>
      d.gen = { s.dev.gen with fwSlot := fld v 4 0, fwRestart := wbit v 30, fwState := 3, fwErr := 1, fwSource := fld v 4 0 } ∧ OnlyIn [.gen] [] s.dev d) ∧
  (∀ (s : State) (image : List Byte) (x : PowerOnInputs), s.dev.gen.fwState = 1 → updateErr image true s.dev = 0 →
      s.dev.gen.fwRestart = false →
    Completes (.fwUpdateDone image true x) s fun d =>
      d.gen = { s.dev.gen with fwState := 2, fwErr := 0 } ∧
      (∀ i, i < imageBase (!s.dev.lsk.imageB) ∨ imageBase (!s.dev.lsk.imageB) + 0x200000 ≤ i → d.flashByte i = s.dev.flashByte i) ∧
      OnlyIn [.gen, .fls] [] s.dev d) ∧
  (∀ (s : State) (image : List Byte) (ok : Bool) (x : PowerOnInputs), s.dev.gen.fwState = 1 → updateErr image ok s.dev ≠ 0 →
      updateErr image ok s.dev ≠ 5 →
    Completes (.fwUpdateDone image ok x) s fun d =>
      d.gen = { s.dev.gen with fwState := 3, fwErr := updateErr image ok s.dev } ∧ OnlyIn [.gen] [] s.dev d)

/-- After GEN.SETUP_LOCK.LOCK is set, a host write that a command makes to a register, outside the MSI-X table, has no effect: it is counted
and raises source 10 (R314). Where the model chooses, log entry 48 says how. -/
def Obligations.HostWritesAfterTheLockAreIgnored : Prop :=
  ∀ (s : State) (c : Instr) (n k : Nat) (v : Word32) (b : Bool), s.dev.hif.lock = true → n < 2 → k < 8 →
      c ∈ [Instr.loopOpen .host n, .loopHold .host n, .loopClose .host n, .loopAcquire .host n, .discardShadow .host n,
        .coefLiveWrite .host n k v, .coefShadowWrite .host n k v, .seqRun .host b, .seqKick .host, .move .host, .home .host,
        .park .host, .stop .host, .gearEngage .host, .gearDisengage .host, .clearFault .host, .gearArm .host, .gearCancel .host,
        .laserMaxWrite .host v, .laserOverClear .host, .opcTestStep .host v, .stratDataAccess .host (some v), .invalidate .host,
        .clean .host, .purgeOwner .host, .zeroLine .host, .setupLock, .maskSet .host k v, .maskClr .host k v, .pendSet .host k v,
        .pendClr .host k v, .thresholdWrite .host n v, .icuComplete .host n v, .srcCfgWrite .host n v, .wakeSlotWrite .host n v,
        .balanceCommand .host v, .dischargeTestRequest .host, .faultClr .host v, .program .host, .eraseSector .host,
        .eraseBlock .host, .bitClear .host, .suspend .host, .resume .host, .splitModeOpen .host v, .splitModeClose .host,
        .testWriteData .host, .testWriteCheck .host, .testRead .host, .zeroWord .host v, .fwUpdateStart .host v] →
    Completes c s fun d =>
      d.hif = { s.dev.hif with lockedWrites := min 0xFFFFFFFF (s.dev.hif.lockedWrites + 1) } ∧ Raised 10 d ∧
      OnlyIn (.hif :: interruptParts) [0x4540] s.dev d

/-- A step runs the command in front of the queue with the queue's rest, and every command completes and leaves the other waiting commands
as they were; on an empty queue one tick passes (log entry 10). Where the model chooses, log entries 1 and 10 say how. -/
def Obligations.StepRunsTheCommandInFront : Prop :=
  (∀ (s : State) (c : Instr) (rest : List Instr), s.pending = c :: rest → step s = exec c { s with pending := rest }) ∧
  (∀ (s : State) (c : Instr) (rest : List Instr), s.pending = c :: rest → ∃ t, step s = .next t ∧ t.pending = rest) ∧
  (∀ s : State, s.pending = [] → ∃ t, step s = .next t ∧ t.pending = [] ∧ t.dev.pacing.now = s.dev.pacing.now + 1)

/-- The state after reset: the pacing counter at 0, every register at its reset word, the supply UNARMED, no command waiting; and its tables
are in their canonical form (R32, R374, R482). Where the model chooses, log entry 2 says how. -/
def Obligations.ResetStateHoldsItsValues : Prop :=
  State.reset.pending = [] ∧ State.reset.dev.pacing.now = 0 ∧ (∀ o, State.reset.dev.reg o = regReset o) ∧
  (State.reset.dev.reg 0x100C, State.reset.dev.reg 0x1010, State.reset.dev.reg 0xC004, State.reset.dev.reg 0xF110) =
    (0x7D, 0x61A8, 0xACE1, 0x7FFF) ∧
  State.reset.dev.pwr.st = .unarmed ∧ State.reset.dev.hif.lock = false ∧ State.reset.dev.hif.linkUp = false ∧
  (∀ n, (State.reset.dev.src n).pending = false ∧ (State.reset.dev.src n).masked = true) ∧
  RegistersCanonical State.reset ∧ SourcesCanonical State.reset

/-- Only time moves the pacing counter, and only a power-on reset returns it to 0 (R32). Where the model chooses, log entry 10 says how. -/
def Obligations.PacingCounterCountsTicksAlone : Prop :=
  (∀ (s t : State) (c : Instr) (rest : List Instr), s.pending = c :: rest → startsAnew c s.dev = false → step s = .next t →
    t.dev.pacing.now = s.dev.pacing.now) ∧
  (∀ (s t : State) (c : Instr) (rest : List Instr), s.pending = c :: rest → startsAnew c s.dev = true → step s = .next t →
    t.dev.pacing.now = 0) ∧
  (∀ s t : State, s.pending = [] → step s = .next t → t.dev.pacing.now = s.dev.pacing.now + 1)

/-- Every step keeps the stored registers and the interrupt sources in their canonical form. -/
def Obligations.EveryStepKeepsTheTablesCanonical : Prop :=
  (∀ s t : State, RegistersCanonical s → step s = .next t → RegistersCanonical t) ∧
  (∀ s t : State, SourcesCanonical s → step s = .next t → SourcesCanonical t)

/-- A register that holds what is written to it changes by register writes, SET_FEATURE, the first calibration and resets alone: no event,
message, other command or passing of time changes it (R8, R336, R482). -/
def Obligations.ConfigurationFollowsWritesAlone : Prop :=
  ∀ (s t : State) (c : Instr) (rest : List Instr) (o : Nat), s.pending = c :: rest → startsAnew c s.dev = false → firstCalibrates c s.dev = false →
    (∀ who width off v, c ≠ .registerWrite who width off v) → (∀ tag, c ≠ .setFeature tag) → c ≠ .conventionalReset →
    configuration o = true → step s = .next t → t.dev.reg o = s.dev.reg o

/-- GEN.SETUP_LOCK.LOCK, once set, is cleared by a conventional reset and by a power-on reset alone (R313, R315, R482). -/
def Obligations.LockHoldsUntilAReset : Prop :=
  ∀ s t : State, s.dev.hif.lock = true → (∀ c rest, s.pending = c :: rest → startsAnew c s.dev = false ∧ c ≠ .conventionalReset) →
    step s = .next t → t.dev.hif.lock = true

/-- Primer is left by a power-on reset alone (R405, R458, Table 17-4). -/
def Obligations.PrimerEndsAtAPowerOnReset : Prop :=
  ∀ s t : State, s.dev.gen.mode = .primer → (∀ c rest, s.pending = c :: rest → startsAnew c s.dev = false) →
    step s = .next t → t.dev.gen.mode = .primer

/-- After its first write LASER_MAX is never raised until the next power-on reset (R143). -/
def Obligations.LaserMaxIsNeverRaised : Prop :=
  ∀ s t : State, s.dev.wrc.maxWritten = true → (∀ c rest, s.pending = c :: rest → startsAnew c s.dev = false) →
    step s = .next t → t.dev.wrc.maxWritten = true ∧ laserMax t.dev ≤ laserMax s.dev
end

