-- ==== Sys2Proof/Laws/Sparse.lean ====
section
/-!
SUPPORT. Sparse tables: what a read gives after a write, and that every write keeps the canonical form; the stored registers as the first
case of both.
-/

namespace Sys2Proof.Machine

/-! ### A read after a write -/

/-- A write leaves every other index alone. -/
theorem sget_sset_ne {α : Type} [DecidableEq α] (d : Nat → α) (k : Nat) (v : α) (m : Sparse α) (j : Nat) (h : j ≠ k) :
    sget d (sset d k v m) j = sget d m j := by
  unfold sset
  split
  · induction m with
    | nil => rfl
    | cons p m ih =>
      obtain ⟨i, a⟩ := p
      simp only [serase, List.filter_cons] at ih ⊢
      split
      · simp only [sget]
        split
        · rfl
        · exact ih
      · rename_i hi
        simp only [bne_iff_ne, ne_eq, not_not] at hi
        simp only [sget, hi, Ne.symm h, if_false]
        exact ih
  · induction m with
    | nil => simp [sinsert, sget, Ne.symm h]
    | cons p m ih =>
      obtain ⟨i, a⟩ := p
      simp only [sinsert]
      split
      · simp [sget, Ne.symm h]
      · split
        · rename_i hi
          subst hi
          simp [sget, Ne.symm h]
        · simp only [sget]
          split
          · rfl
          · exact ih

theorem sget_serase_self {α : Type} (d : Nat → α) (k : Nat) (m : Sparse α) : sget d (serase k m) k = d k := by
  induction m with
  | nil => rfl
  | cons p m ih =>
    obtain ⟨i, a⟩ := p
    simp only [serase, List.filter_cons] at ih ⊢
    split
    · rename_i hi
      simp only [bne_iff_ne, ne_eq] at hi
      simp only [sget, hi, if_false]
      exact ih
    · exact ih

theorem sget_sinsert_self {α : Type} (d : Nat → α) (k : Nat) (v : α) (m : Sparse α) : sget d (sinsert k v m) k = v := by
  induction m with
  | nil => simp [sinsert, sget]
  | cons p m ih =>
    obtain ⟨i, a⟩ := p
    simp only [sinsert]
    split
    · simp [sget]
    · split
      · simp [sget]
      · rename_i h1 h2
        simp only [sget, Ne.symm h2, if_false]
        exact ih

/-- A read after a write to the same index gives the value written. -/
@[simp] theorem sget_sset_self {α : Type} [DecidableEq α] (d : Nat → α) (k : Nat) (v : α) (m : Sparse α) :
    sget d (sset d k v m) k = v := by
  unfold sset
  split
  · rename_i h
    rw [sget_serase_self, h]
  · exact sget_sinsert_self d k v m

/-- A read after a write. -/
theorem sget_sset {α : Type} [DecidableEq α] (d : Nat → α) (k : Nat) (v : α) (m : Sparse α) (j : Nat) :
    sget d (sset d k v m) j = if j = k then v else sget d m j := by
  split
  · rename_i h
    subst h
    exact sget_sset_self d j v m
  · rename_i h
    exact sget_sset_ne d k v m j h

/-- A read after a change of one value. -/
theorem sget_supd {α : Type} [DecidableEq α] (d : Nat → α) (k : Nat) (f : α → α) (m : Sparse α) (j : Nat) :
    sget d (supd d k f m) j = if j = k then f (sget d m k) else sget d m j := sget_sset d k _ m j

@[simp] theorem sget_supd_self {α : Type} [DecidableEq α] (d : Nat → α) (k : Nat) (f : α → α) (m : Sparse α) :
    sget d (supd d k f m) k = f (sget d m k) := sget_sset_self d k _ m

/-! ### The canonical form -/

theorem swfFrom_cons {α : Type} [DecidableEq α] (d : Nat → α) (lo : Option Nat) (i : Nat) (a : α) (m : Sparse α) :
    swfFrom d lo ((i, a) :: m) = true ↔ (∀ l, lo = some l → l < i) ∧ a ≠ d i ∧ swfFrom d (some i) m = true := by
  cases lo <;> simp [swfFrom, and_assoc]

theorem swfFrom_mono {α : Type} [DecidableEq α] (d : Nat → α) (i : Nat) (lo : Option Nat) (m : Sparse α)
    (hl : ∀ l, lo = some l → l < i) (h : swfFrom d (some i) m = true) : swfFrom d lo m = true := by
  cases m with
  | nil => rfl
  | cons p m =>
    obtain ⟨j, a⟩ := p
    rw [swfFrom_cons] at h ⊢
    exact ⟨fun l e => (hl l e).trans (h.1 i rfl), h.2⟩

theorem swfFrom_filter {α : Type} [DecidableEq α] (d : Nat → α) (p : Nat × α → Bool) (lo : Option Nat) (m : Sparse α)
    (h : swfFrom d lo m = true) : swfFrom d lo (m.filter p) = true := by
  induction m generalizing lo with
  | nil => rfl
  | cons q m ih =>
    obtain ⟨i, a⟩ := q
    rw [swfFrom_cons] at h
    have h2 := ih _ h.2.2
    simp only [List.filter_cons]
    split
    · exact (swfFrom_cons ..).2 ⟨h.1, h.2.1, h2⟩
    · exact swfFrom_mono d i lo _ h.1 h2

theorem swfFrom_sinsert {α : Type} [DecidableEq α] (d : Nat → α) (k : Nat) (v : α) (hv : v ≠ d k) (lo : Option Nat)
    (m : Sparse α) (h : swfFrom d lo m = true) (hk : ∀ l, lo = some l → l < k) : swfFrom d lo (sinsert k v m) = true := by
  induction m generalizing lo with
  | nil => exact (swfFrom_cons ..).2 ⟨hk, hv, rfl⟩
  | cons p m ih =>
    obtain ⟨i, a⟩ := p
    rw [swfFrom_cons] at h
    unfold sinsert
    split
    · rename_i hki
      exact (swfFrom_cons ..).2 ⟨hk, hv, (swfFrom_cons ..).2 ⟨fun l e => by cases e; exact hki, h.2⟩⟩
    · split
      · rename_i hki
        subst hki
        exact (swfFrom_cons ..).2 ⟨hk, hv, h.2.2⟩
      · exact (swfFrom_cons ..).2 ⟨h.1, h.2.1, ih _ h.2.2 (fun l e => by cases e; omega)⟩

/-- Dropping pairs keeps the canonical form. -/
theorem swf_filter {α : Type} [DecidableEq α] (d : Nat → α) (p : Nat × α → Bool) (m : Sparse α) (h : swf d m = true) :
    swf d (m.filter p) = true := swfFrom_filter d p none m h

/-- A write keeps the canonical form. -/
@[simp] theorem swf_sset {α : Type} [DecidableEq α] (d : Nat → α) (k : Nat) (v : α) (m : Sparse α)
    (h : swf d m = true) : swf d (sset d k v m) = true := by
  unfold sset
  split
  · exact swfFrom_filter d _ none m h
  · rename_i hv
    exact swfFrom_sinsert d k v hv none m h (by simp)

/-- A change of one value keeps the canonical form. -/
@[simp] theorem swf_supd {α : Type} [DecidableEq α] (d : Nat → α) (k : Nat) (f : α → α) (m : Sparse α)
    (h : swf d m = true) : swf d (supd d k f m) = true := swf_sset d k _ m h

/-- A table in canonical form lists an index at most once, and with the value that a read gives. -/
theorem sget_of_mem {α : Type} [DecidableEq α] (d : Nat → α) (m : Sparse α) (h : swf d m = true) (i : Nat) (a : α)
    (hm : (i, a) ∈ m) : sget d m i = a := by
  have gen : ∀ (lo : Option Nat), swfFrom d lo m = true → (∀ l, lo = some l → l < i) ∧ sget d m i = a := by
    clear h
    induction m with
    | nil => cases hm
    | cons p m ih =>
      intro lo h
      obtain ⟨j, b⟩ := p
      rw [swfFrom_cons] at h
      rcases List.mem_cons.1 hm with he | hm'
      · cases he
        exact ⟨h.1, by simp [sget]⟩
      · have g := ih hm' (some j) h.2.2
        have hj : j < i := g.1 j rfl
        refine ⟨fun l e => (h.1 l e).trans hj, ?_⟩
        simp only [sget, Nat.ne_of_lt hj, if_false]
        exact g.2
  exact (gen none h).2

/-! ### Stored registers -/

@[simp] theorem setReg_reg_self (o : Nat) (v : Word32) (d : Device) : (setReg o v d).reg o = v := sget_sset_self _ _ _ _

theorem setReg_reg (o : Nat) (v : Word32) (d : Device) (j : Nat) : (setReg o v d).reg j = if j = o then v else d.reg j :=
  sget_sset _ _ _ _ _

theorem setReg_reg_ne (o : Nat) (v : Word32) (d : Device) (j : Nat) (h : j ≠ o) : (setReg o v d).reg j = d.reg j :=
  sget_sset_ne _ _ _ _ _ h

theorem setRegF_reg (o hi lo v : Nat) (d : Device) (j : Nat) :
    (setRegF o hi lo v d).reg j = if j = o then wput (d.reg o) hi lo v else d.reg j := setReg_reg _ _ _ _

theorem count_reg (o : Nat) (d : Device) (j : Nat) :
    (count o d).reg j = if j = o then BitVec.ofNat 32 (min 0xFFFFFFFF ((d.reg o).toNat + 1)) else d.reg j := setReg_reg _ _ _ _

end Sys2Proof.Machine
end

