-- ==== Sys2Proof/Laws/Accessors.lean ====
section
/-!
SUPPORT. What the accessors of the state read after a change through them: the loops, the rings, the slots, the commands in flight, the reads
and the record groups; and what the end of a command leaves.
-/

namespace Sys2Proof.Machine

theorem updLoop_loop (n : Nat) (f : Loop → Loop) (d : Device) (m : Nat) :
    (updLoop n f d).loop m = if m = n then f (d.loop n) else d.loop m := sget_supd _ _ _ _ _

@[simp] theorem updLoop_loop_self (n : Nat) (f : Loop → Loop) (d : Device) : (updLoop n f d).loop n = f (d.loop n) :=
  sget_supd_self _ _ _ _

theorem updSq_sq (n : Nat) (f : Sq → Sq) (d : Device) (m : Nat) : (updSq n f d).sq m = if m = n then f (d.sq n) else d.sq m :=
  sget_supd _ _ _ _ _

@[simp] theorem updSq_sq_self (n : Nat) (f : Sq → Sq) (d : Device) : (updSq n f d).sq n = f (d.sq n) := sget_supd_self _ _ _ _

@[simp] theorem updSq_cq (n : Nat) (f : Sq → Sq) (d : Device) (m : Nat) : (updSq n f d).cq m = d.cq m := rfl

theorem updCq_cq (n : Nat) (f : Cq → Cq) (d : Device) (m : Nat) : (updCq n f d).cq m = if m = n then f (d.cq n) else d.cq m :=
  sget_supd _ _ _ _ _

@[simp] theorem updCq_cq_self (n : Nat) (f : Cq → Cq) (d : Device) : (updCq n f d).cq n = f (d.cq n) := sget_supd_self _ _ _ _

@[simp] theorem updCq_sq (n : Nat) (f : Cq → Cq) (d : Device) (m : Nat) : (updCq n f d).sq m = d.sq m := rfl

theorem updRing_ring (n : Nat) (f : Ring → Ring) (d : Device) (m : Nat) :
    (updRing n f d).ring m = if m = n then f (d.ring n) else d.ring m := sget_supd _ _ _ _ _

@[simp] theorem updRing_ring_self (n : Nat) (f : Ring → Ring) (d : Device) : (updRing n f d).ring n = f (d.ring n) :=
  sget_supd_self _ _ _ _

theorem updSlot_slot (n : Nat) (f : Slot → Slot) (d : Device) (m : Nat) :
    (updSlot n f d).slot m = if m = n then f (d.slot n) else d.slot m := sget_supd _ _ _ _ _

@[simp] theorem updSlot_slot_self (n : Nat) (f : Slot → Slot) (d : Device) : (updSlot n f d).slot n = f (d.slot n) :=
  sget_supd_self _ _ _ _

/-- The first element that satisfies `p`, after a change of the first that satisfies `p` which keeps `p`. -/
theorem find_updateFirst {α : Type} (p : α → Bool) (f : α → α) (l : List α) (h : ∀ x, p x = true → p (f x) = true) :
    (updateFirst p f l).find? p = (l.find? p).map f := by
  induction l with
  | nil => rfl
  | cons a l ih =>
    unfold updateFirst
    split
    · rename_i e
      simp [e, h a e]
    · rename_i e
      simp only [List.find?_cons]
      rw [ih]
      simp [e]

/-- A search for what the change neither makes nor spoils. -/
theorem find_updateFirst_other {α : Type} (p q : α → Bool) (f : α → α) (l : List α) (h : ∀ x, p x = true → q x = false ∧ q (f x) = false) :
    (updateFirst p f l).find? q = l.find? q := by
  induction l with
  | nil => rfl
  | cons a l ih =>
    unfold updateFirst
    split
    · rename_i e
      simp [(h a e).1, (h a e).2]
    · simp only [List.find?_cons]
      rw [ih]

/-- The command `tag` after a change of it that keeps its number. -/
theorem updCmd_cmd (tag : Nat) (f : Cmd → Cmd) (d : Device) (h : ∀ c, (f c).tag = c.tag) : (updCmd tag f d).cmd tag = (d.cmd tag).map f :=
  find_updateFirst _ _ _ (fun x e => by simp only [decide_eq_true_eq] at e ⊢; rw [h, e])

/-- Another command is as it was. -/
theorem updCmd_cmd_other (tag t : Nat) (f : Cmd → Cmd) (d : Device) (h : ∀ c, (f c).tag = c.tag) (ne : t ≠ tag) :
    (updCmd tag f d).cmd t = d.cmd t :=
  find_updateFirst_other _ _ _ _ (fun x e => by
    simp only [decide_eq_true_eq] at e
    simp only [decide_eq_false_iff_not, h, e]
    exact ⟨Ne.symm ne, Ne.symm ne⟩)

theorem updRead_reads (id : Nat) (f : LadderCluster → LadderCluster) (d : Device) (h : ∀ c, (f c).id = c.id) :
    (updRead id f d).reads id = (d.reads id).map f :=
  find_updateFirst _ _ _ (fun x e => by simp only [decide_eq_true_eq] at e ⊢; rw [h, e])

theorem updGroup_group (id : Nat) (f : Group → Group) (d : Device) (h : ∀ g, (f g).id = g.id) :
    (updGroup id f d).group id = (d.group id).map f :=
  find_updateFirst _ _ _ (fun x e => by simp only [decide_eq_true_eq] at e ⊢; rw [h, e])

end Sys2Proof.Machine
end

