-- ==== Sys2Proof/Laws/Interrupts.lean ====
section
/-!
SUPPORT. What a detection, a change of level and a delivery can do (R348 to R356, R364): of the state they change the interrupt controller
and the bus, of the stored registers ICU.MASK_LATE_COUNT; and a source once detected stays detected.
-/

namespace Sys2Proof.Machine

/-! ### Sources -/

theorem updSrc_src (k : Nat) (f : Src → Src) (d : Device) (n : Nat) :
    (updSrc k f d).src n = if n = k then f (d.src k) else d.src n := sget_supd _ _ _ _ _

@[simp] theorem updSrc_src_self (k : Nat) (f : Src → Src) (d : Device) : (updSrc k f d).src k = f (d.src k) :=
  sget_supd_self _ _ _ _

/-- A step of delivery: one source becomes active or forwarded, a message leaves, and a late mask may be counted. -/
def Delivering (d e : Device) : Prop :=
  (∃ i b r, e = { d with icu := i, bus := b, regs := r }) ∧
  (∀ n, e.src n = { d.src n with active := (e.src n).active, forwarded := (e.src n).forwarded }) ∧
  (∀ o, o ≠ 0x4540 → e.reg o = d.reg o) ∧
  e.icu = { d.icu with srcs := e.icu.srcs } ∧
  (swf regReset d.regs = true → swf regReset e.regs = true) ∧
  (swf srcDefault d.icu.srcs = true → swf srcDefault e.icu.srcs = true) ∧
  (∀ n, (d.src n).active = true → (e.src n).active = true) ∧
  (∀ n, (d.src n).forwarded = true → (e.src n).forwarded = true) ∧
  e.bus.readData = d.bus.readData

theorem Delivering.rfl {d : Device} : Delivering d d :=
  ⟨⟨_, _, _, Eq.refl _⟩, fun _ => Eq.refl _, fun _ _ => Eq.refl _, Eq.refl _, id, id, fun _ h => h, fun _ h => h, Eq.refl _⟩

theorem Delivering.trans {a b c : Device} (h : Delivering a b) (g : Delivering b c) : Delivering a c := by
  obtain ⟨⟨i, u, r, h0⟩, h1, h2, h3, h4, h5, h6, h7, h8⟩ := h
  obtain ⟨⟨j, v, q, g0⟩, g1, g2, g3, g4, g5, g6, g7, g8⟩ := g
  refine ⟨⟨j, v, q, by rw [g0, h0]⟩, fun n => ?_, fun o ho => (g2 o ho).trans (h2 o ho), ?_, g4 ∘ h4, g5 ∘ h5,
    fun n h => g6 n (h6 n h), fun n h => g7 n (h7 n h), g8.trans h8⟩
  · have e1 := g1 n
    have e2 := h1 n
    rw [e2] at e1
    exact e1
  · rw [g3, h3]

theorem count_delivering (d : Device) : Delivering d (count 0x4540 d) := by
  refine ⟨⟨d.icu, d.bus, _, Eq.refl _⟩, fun _ => Eq.refl _, fun o h => ?_, Eq.refl _, fun h => swf_sset _ _ _ _ h, id, fun _ h => h,
    fun _ h => h, Eq.refl _⟩
  rw [count_reg, if_neg h]

theorem updSrc_delivering (k : Nat) (f : Src → Src) (d : Device)
    (hf : ∀ x : Src, f x = { x with active := (f x).active, forwarded := (f x).forwarded })
    (ha : ∀ x : Src, x.active = true → (f x).active = true) (hw : ∀ x : Src, x.forwarded = true → (f x).forwarded = true) :
    Delivering d (updSrc k f d) := by
  refine ⟨⟨_, d.bus, d.regs, Eq.refl _⟩, fun n => ?_, fun _ _ => Eq.refl _, Eq.refl _, id, fun h => swf_supd _ _ _ _ h, fun n h => ?_,
    fun n h => ?_, Eq.refl _⟩
  · rw [updSrc_src]
    split
    · rename_i e
      subst e
      exact hf _
    · exact Eq.refl _
  · rw [updSrc_src]
    split
    · rename_i e
      subst e
      exact ha _ h
    · exact h
  · rw [updSrc_src]
    split
    · rename_i e
      subst e
      exact hw _ h
    · exact h

theorem msixSignal_delivering (v : Nat) (d : Device) : Delivering d (msixSignal v d) := by
  unfold msixSignal
  split <;> exact ⟨⟨d.icu, _, d.regs, Eq.refl _⟩, fun _ => Eq.refl _, fun _ _ => Eq.refl _, Eq.refl _, id, id, fun _ h => h,
    fun _ h => h, Eq.refl _⟩

theorem lateCount_delivering (t : Nat) (x : Src) (d : Device) : Delivering d (lateCount t x d) := by
  unfold lateCount
  split
  · exact .rfl
  · split
    · exact count_delivering d
    · exact .rfl

theorem launchHost_delivering (s : Nat) (d : Device) : Delivering d (launchHost s d) :=
  ((updSrc_delivering s (fun x => { x with active := true }) d (fun _ => Eq.refl _) (fun _ _ => Eq.refl _) (fun _ h => h)).trans
    (lateCount_delivering 2 _ _)).trans (msixSignal_delivering _ _)

theorem hostDeliver_delivering (n : Nat) (d : Device) : Delivering d (hostDeliver n d) := by
  induction n generalizing d with
  | zero => exact .rfl
  | succ n ih =>
    unfold hostDeliver
    split
    · exact .rfl
    · exact (launchHost_delivering _ d).trans (ih _)

theorem foldl_delivering {α : Type} (f : Device → α → Device) (h : ∀ d a, Delivering d (f d a)) (l : List α) (d : Device) :
    Delivering d (l.foldl f d) := by
  induction l generalizing d with
  | nil => exact .rfl
  | cons a l ih => exact (h d a).trans (ih _)

theorem forwardAll_delivering (d : Device) : Delivering d (forwardAll d) := by
  refine foldl_delivering _ (fun d p => ?_) _ d
  refine Delivering.trans ?_ (updSrc_delivering p.1 (fun x => { x with forwarded := true }) _ (fun _ => Eq.refl _) (fun _ h => h)
    (fun _ _ => Eq.refl _))
  split
  · exact count_delivering d
  · exact .rfl

/-- A delivery changes of each source no more than that it is active or forwarded. -/
theorem deliver_delivering (d : Device) : Delivering d (deliver d) := by
  unfold deliver
  split
  · exact .rfl
  · exact (forwardAll_delivering d).trans (hostDeliver_delivering _ _)

/-! ### Detections -/

/-- Everything that a detection of source `s` can do: at retention it is latched; else the source is pending, its counter counts, and a
delivery may follow. -/
theorem raise_spec (s : Nat) (d : Device) :
    (d.icu.retention = true ∧ raise s d = { d with icu := { d.icu with latched := d.icu.latched ++ [(s, none)] } }) ∨
    (d.icu.retention = false ∧ Delivering (updSrc s srcDetect d) (raise s d)) := by
  unfold raise
  cases h : d.icu.retention with
  | true => exact Or.inl ⟨Eq.refl _, by simp⟩
  | false => exact Or.inr ⟨Eq.refl _, by simpa using deliver_delivering _⟩

/-- Everything that a change of level can do. -/
theorem setLevel_spec (s : Nat) (v : Bool) (d : Device) :
    (d.icu.retention = true ∧ setLevel s v d = { d with icu := { d.icu with latched := d.icu.latched ++ [(s, some v)] } }) ∨
    (d.icu.retention = false ∧ (d.src s).level = v ∧ setLevel s v d = d) ∨
    (d.icu.retention = false ∧ (d.src s).level ≠ v ∧ Delivering (updSrc s (srcLevel v) d) (setLevel s v d)) := by
  unfold setLevel
  cases h : d.icu.retention with
  | true => exact Or.inl ⟨Eq.refl _, by simp⟩
  | false =>
    by_cases g : (d.src s).level = v
    · exact Or.inr (Or.inl ⟨Eq.refl _, g, by simp [g]⟩)
    · exact Or.inr (Or.inr ⟨Eq.refl _, g, by simpa [g] using deliver_delivering _⟩)

/-- A detection changes no stored register but ICU.MASK_LATE_COUNT. -/
theorem raise_reg (s : Nat) (d : Device) (o : Nat) (h : o ≠ 0x4540) : (raise s d).reg o = d.reg o := by
  rcases raise_spec s d with ⟨_, e⟩ | ⟨_, e⟩
  · rw [e]; rfl
  · exact e.2.2.1 o h

theorem setLevel_reg (s : Nat) (v : Bool) (d : Device) (o : Nat) (h : o ≠ 0x4540) : (setLevel s v d).reg o = d.reg o := by
  rcases setLevel_spec s v d with ⟨_, e⟩ | ⟨_, _, e⟩ | ⟨_, _, e⟩
  · rw [e]; rfl
  · rw [e]
  · exact e.2.2.1 o h

/-- A detection is there after it. -/
theorem raised_raise (s : Nat) (d : Device) : Raised s (raise s d) := by
  rcases raise_spec s d with ⟨_, e⟩ | ⟨_, e⟩
  · right; rw [e]; simp
  · left; rw [e.2.1 s]; simp [srcDetect]

/-- A detection stays when another one follows. -/
theorem Raised.raise {n : Nat} {d : Device} (h : Raised n d) (s : Nat) : Raised n (raise s d) := by
  rcases raise_spec s d with ⟨_, e⟩ | ⟨_, e⟩
  · rcases h with h | h
    · left; rw [e]; exact h
    · right; rw [e]; simp [h]
  · rcases h with h | h
    · left
      rw [e.2.1 n, updSrc_src]
      split
      · rfl
      · exact h
    · right
      rw [e.2.2.2.1]
      exact h

/-- `Raised` looks at the interrupt controller alone. -/
theorem Raised.of_icu {n : Nat} {d e : Device} (h : Raised n d) (i : e.icu = d.icu) : Raised n e := by
  unfold Raised Device.src at *
  rw [i]
  exact h

/-- A detection stays when another source's level changes; a source's own level may take its pending bit back. -/
theorem Raised.setLevel {n : Nat} {d : Device} (h : Raised n d) (s : Nat) (v : Bool) (g : s ≠ n) : Raised n (setLevel s v d) := by
  rcases setLevel_spec s v d with ⟨_, e⟩ | ⟨_, _, e⟩ | ⟨_, _, e⟩
  · rcases h with h | h
    · left; rw [e]; exact h
    · right; rw [e]; simp [h]
  · rw [e]; exact h
  · rcases h with h | h
    · left
      rw [e.2.1 n, updSrc_src, if_neg (Ne.symm g)]
      exact h
    · right
      rw [e.2.2.2.1]
      exact h

@[simp] theorem srcLevel_level (v : Bool) (x : Src) : (srcLevel v x).level = v := by
  unfold srcLevel
  dsimp only
  split
  · rfl
  · split <;> rfl

/-- Outside retention the level is as set. -/
theorem setLevel_level (s : Nat) (v : Bool) (d : Device) (h : d.icu.retention = false) : ((setLevel s v d).src s).level = v := by
  rcases setLevel_spec s v d with ⟨g, _⟩ | ⟨_, g, e⟩ | ⟨_, _, e⟩
  · rw [h] at g; cases g
  · rw [e, g]
  · rw [e.2.1 s]; simp

end Sys2Proof.Machine
end

