-- ==== Sys2Proof/Laws/Servo.lean ====
section
/-!
SUPPORT. Ranges of the engine's arithmetic (R60, R64), and what an access leaves of STRAT_ADDR (R146).
-/

namespace Sys2Proof.Machine

/-- A clamped value lies between its limits. -/
theorem clampInt_mem (lo hi v : Int) (h : lo ≤ hi) : lo ≤ clampInt lo hi v ∧ clampInt lo hi v ≤ hi := by
  unfold clampInt; omega

/-- Saturation keeps the Q3.20 range. -/
theorem satQ_mem (v : Int) : -8388608 ≤ satQ v ∧ satQ v ≤ 8388607 := clampInt_mem _ _ _ (by decide)

/-- Every rounded sum lies in the Q3.20 range, whatever the accumulator held (R60). -/
theorem rndQ_mem (v : Int) : -8388608 ≤ rndQ v ∧ rndQ v ≤ 8388607 := satQ_mem _

/-- A value in the Q3.20 range stands as it is. -/
theorem satQ_of_mem (v : Int) (h : -8388608 ≤ v ∧ v ≤ 8388607) : satQ v = v := by
  unfold satQ clampInt; omega

/-- The supply ratio lies between 0.5 and 2.0, for a measurement of 0 too (R64). -/
theorem supplyRatio_mem (vnom vmeas : Int) : 524288 ≤ supplyRatio vnom vmeas ∧ supplyRatio vnom vmeas ≤ 2097152 := by
  unfold supplyRatio
  split
  · exact clampInt_mem _ _ _ (by decide)
  · exact clampInt_mem _ _ _ (by decide)

/-- An access of STRAT_DATA changes no register but STRAT_ADDR. -/
theorem stratAdvance_reg (d : Device) (o : Nat) (h : o ≠ 0xB02C) : (stratAdvance d).reg o = d.reg o := by
  simp only [stratAdvance]
  split
  · rfl
  · split
    · simp [setRegF_reg, h]
    · show (setRegF 0xB02C 8 0 _ d).reg o = d.reg o
      simp [setRegF_reg, h]

/-- The strategy table does not change as STRAT_ADDR goes on. -/
@[simp] theorem stratAdvance_wrc (d : Device) : (stratAdvance d).wrc = d.wrc := by
  simp only [stratAdvance]
  split
  · rfl
  · split <;> rfl

end Sys2Proof.Machine
end

