-- ==== Sys2Proof/Laws/State.lean ====
section
/-!
SUPPORT. What the updates of one part of the device leave and change: one lemma for each field and update, each true by definition.
-/

namespace Sys2Proof.Machine

/-! ### updAvs -/

@[simp] theorem updAvs_pacing (f : Avs → Avs) (d : Device) : (updAvs f d).pacing = d.pacing := rfl
@[simp] theorem updAvs_avs (f : Avs → Avs) (d : Device) : (updAvs f d).avs = f d.avs := rfl
@[simp] theorem updAvs_exc (f : Avs → Avs) (d : Device) : (updAvs f d).exc = d.exc := rfl
@[simp] theorem updAvs_servo (f : Avs → Avs) (d : Device) : (updAvs f d).servo = d.servo := rfl
@[simp] theorem updAvs_motion (f : Avs → Avs) (d : Device) : (updAvs f d).motion = d.motion := rfl
@[simp] theorem updAvs_rdc (f : Avs → Avs) (d : Device) : (updAvs f d).rdc = d.rdc := rfl
@[simp] theorem updAvs_wrc (f : Avs → Avs) (d : Device) : (updAvs f d).wrc = d.wrc := rfl
@[simp] theorem updAvs_rcl (f : Avs → Avs) (d : Device) : (updAvs f d).rcl = d.rcl := rfl
@[simp] theorem updAvs_cry (f : Avs → Avs) (d : Device) : (updAvs f d).cry = d.cry := rfl
@[simp] theorem updAvs_cch (f : Avs → Avs) (d : Device) : (updAvs f d).cch = d.cch := rfl
@[simp] theorem updAvs_lath (f : Avs → Avs) (d : Device) : (updAvs f d).lath = d.lath := rfl
@[simp] theorem updAvs_hif (f : Avs → Avs) (d : Device) : (updAvs f d).hif = d.hif := rfl
@[simp] theorem updAvs_icu (f : Avs → Avs) (d : Device) : (updAvs f d).icu = d.icu := rfl
@[simp] theorem updAvs_pwr (f : Avs → Avs) (d : Device) : (updAvs f d).pwr = d.pwr := rfl
@[simp] theorem updAvs_lsk (f : Avs → Avs) (d : Device) : (updAvs f d).lsk = d.lsk := rfl
@[simp] theorem updAvs_fio (f : Avs → Avs) (d : Device) : (updAvs f d).fio = d.fio := rfl
@[simp] theorem updAvs_fls (f : Avs → Avs) (d : Device) : (updAvs f d).fls = d.fls := rfl
@[simp] theorem updAvs_evt (f : Avs → Avs) (d : Device) : (updAvs f d).evt = d.evt := rfl
@[simp] theorem updAvs_ecc (f : Avs → Avs) (d : Device) : (updAvs f d).ecc = d.ecc := rfl
@[simp] theorem updAvs_nv (f : Avs → Avs) (d : Device) : (updAvs f d).nv = d.nv := rfl
@[simp] theorem updAvs_gen (f : Avs → Avs) (d : Device) : (updAvs f d).gen = d.gen := rfl
@[simp] theorem updAvs_bus (f : Avs → Avs) (d : Device) : (updAvs f d).bus = d.bus := rfl
@[simp] theorem updAvs_draws (f : Avs → Avs) (d : Device) : (updAvs f d).draws = d.draws := rfl
@[simp] theorem updAvs_regs (f : Avs → Avs) (d : Device) : (updAvs f d).regs = d.regs := rfl

/-! ### updMotion -/

@[simp] theorem updMotion_pacing (f : Motion → Motion) (d : Device) : (updMotion f d).pacing = d.pacing := rfl
@[simp] theorem updMotion_avs (f : Motion → Motion) (d : Device) : (updMotion f d).avs = d.avs := rfl
@[simp] theorem updMotion_exc (f : Motion → Motion) (d : Device) : (updMotion f d).exc = d.exc := rfl
@[simp] theorem updMotion_servo (f : Motion → Motion) (d : Device) : (updMotion f d).servo = d.servo := rfl
@[simp] theorem updMotion_motion (f : Motion → Motion) (d : Device) : (updMotion f d).motion = f d.motion := rfl
@[simp] theorem updMotion_rdc (f : Motion → Motion) (d : Device) : (updMotion f d).rdc = d.rdc := rfl
@[simp] theorem updMotion_wrc (f : Motion → Motion) (d : Device) : (updMotion f d).wrc = d.wrc := rfl
@[simp] theorem updMotion_rcl (f : Motion → Motion) (d : Device) : (updMotion f d).rcl = d.rcl := rfl
@[simp] theorem updMotion_cry (f : Motion → Motion) (d : Device) : (updMotion f d).cry = d.cry := rfl
@[simp] theorem updMotion_cch (f : Motion → Motion) (d : Device) : (updMotion f d).cch = d.cch := rfl
@[simp] theorem updMotion_lath (f : Motion → Motion) (d : Device) : (updMotion f d).lath = d.lath := rfl
@[simp] theorem updMotion_hif (f : Motion → Motion) (d : Device) : (updMotion f d).hif = d.hif := rfl
@[simp] theorem updMotion_icu (f : Motion → Motion) (d : Device) : (updMotion f d).icu = d.icu := rfl
@[simp] theorem updMotion_pwr (f : Motion → Motion) (d : Device) : (updMotion f d).pwr = d.pwr := rfl
@[simp] theorem updMotion_lsk (f : Motion → Motion) (d : Device) : (updMotion f d).lsk = d.lsk := rfl
@[simp] theorem updMotion_fio (f : Motion → Motion) (d : Device) : (updMotion f d).fio = d.fio := rfl
@[simp] theorem updMotion_fls (f : Motion → Motion) (d : Device) : (updMotion f d).fls = d.fls := rfl
@[simp] theorem updMotion_evt (f : Motion → Motion) (d : Device) : (updMotion f d).evt = d.evt := rfl
@[simp] theorem updMotion_ecc (f : Motion → Motion) (d : Device) : (updMotion f d).ecc = d.ecc := rfl
@[simp] theorem updMotion_nv (f : Motion → Motion) (d : Device) : (updMotion f d).nv = d.nv := rfl
@[simp] theorem updMotion_gen (f : Motion → Motion) (d : Device) : (updMotion f d).gen = d.gen := rfl
@[simp] theorem updMotion_bus (f : Motion → Motion) (d : Device) : (updMotion f d).bus = d.bus := rfl
@[simp] theorem updMotion_draws (f : Motion → Motion) (d : Device) : (updMotion f d).draws = d.draws := rfl
@[simp] theorem updMotion_regs (f : Motion → Motion) (d : Device) : (updMotion f d).regs = d.regs := rfl

/-! ### updRdc -/

@[simp] theorem updRdc_pacing (f : ReadChannel → ReadChannel) (d : Device) : (updRdc f d).pacing = d.pacing := rfl
@[simp] theorem updRdc_avs (f : ReadChannel → ReadChannel) (d : Device) : (updRdc f d).avs = d.avs := rfl
@[simp] theorem updRdc_exc (f : ReadChannel → ReadChannel) (d : Device) : (updRdc f d).exc = d.exc := rfl
@[simp] theorem updRdc_servo (f : ReadChannel → ReadChannel) (d : Device) : (updRdc f d).servo = d.servo := rfl
@[simp] theorem updRdc_motion (f : ReadChannel → ReadChannel) (d : Device) : (updRdc f d).motion = d.motion := rfl
@[simp] theorem updRdc_rdc (f : ReadChannel → ReadChannel) (d : Device) : (updRdc f d).rdc = f d.rdc := rfl
@[simp] theorem updRdc_wrc (f : ReadChannel → ReadChannel) (d : Device) : (updRdc f d).wrc = d.wrc := rfl
@[simp] theorem updRdc_rcl (f : ReadChannel → ReadChannel) (d : Device) : (updRdc f d).rcl = d.rcl := rfl
@[simp] theorem updRdc_cry (f : ReadChannel → ReadChannel) (d : Device) : (updRdc f d).cry = d.cry := rfl
@[simp] theorem updRdc_cch (f : ReadChannel → ReadChannel) (d : Device) : (updRdc f d).cch = d.cch := rfl
@[simp] theorem updRdc_lath (f : ReadChannel → ReadChannel) (d : Device) : (updRdc f d).lath = d.lath := rfl
@[simp] theorem updRdc_hif (f : ReadChannel → ReadChannel) (d : Device) : (updRdc f d).hif = d.hif := rfl
@[simp] theorem updRdc_icu (f : ReadChannel → ReadChannel) (d : Device) : (updRdc f d).icu = d.icu := rfl
@[simp] theorem updRdc_pwr (f : ReadChannel → ReadChannel) (d : Device) : (updRdc f d).pwr = d.pwr := rfl
@[simp] theorem updRdc_lsk (f : ReadChannel → ReadChannel) (d : Device) : (updRdc f d).lsk = d.lsk := rfl
@[simp] theorem updRdc_fio (f : ReadChannel → ReadChannel) (d : Device) : (updRdc f d).fio = d.fio := rfl
@[simp] theorem updRdc_fls (f : ReadChannel → ReadChannel) (d : Device) : (updRdc f d).fls = d.fls := rfl
@[simp] theorem updRdc_evt (f : ReadChannel → ReadChannel) (d : Device) : (updRdc f d).evt = d.evt := rfl
@[simp] theorem updRdc_ecc (f : ReadChannel → ReadChannel) (d : Device) : (updRdc f d).ecc = d.ecc := rfl
@[simp] theorem updRdc_nv (f : ReadChannel → ReadChannel) (d : Device) : (updRdc f d).nv = d.nv := rfl
@[simp] theorem updRdc_gen (f : ReadChannel → ReadChannel) (d : Device) : (updRdc f d).gen = d.gen := rfl
@[simp] theorem updRdc_bus (f : ReadChannel → ReadChannel) (d : Device) : (updRdc f d).bus = d.bus := rfl
@[simp] theorem updRdc_draws (f : ReadChannel → ReadChannel) (d : Device) : (updRdc f d).draws = d.draws := rfl
@[simp] theorem updRdc_regs (f : ReadChannel → ReadChannel) (d : Device) : (updRdc f d).regs = d.regs := rfl

/-! ### updWrc -/

@[simp] theorem updWrc_pacing (f : WriteChannel → WriteChannel) (d : Device) : (updWrc f d).pacing = d.pacing := rfl
@[simp] theorem updWrc_avs (f : WriteChannel → WriteChannel) (d : Device) : (updWrc f d).avs = d.avs := rfl
@[simp] theorem updWrc_exc (f : WriteChannel → WriteChannel) (d : Device) : (updWrc f d).exc = d.exc := rfl
@[simp] theorem updWrc_servo (f : WriteChannel → WriteChannel) (d : Device) : (updWrc f d).servo = d.servo := rfl
@[simp] theorem updWrc_motion (f : WriteChannel → WriteChannel) (d : Device) : (updWrc f d).motion = d.motion := rfl
@[simp] theorem updWrc_rdc (f : WriteChannel → WriteChannel) (d : Device) : (updWrc f d).rdc = d.rdc := rfl
@[simp] theorem updWrc_wrc (f : WriteChannel → WriteChannel) (d : Device) : (updWrc f d).wrc = f d.wrc := rfl
@[simp] theorem updWrc_rcl (f : WriteChannel → WriteChannel) (d : Device) : (updWrc f d).rcl = d.rcl := rfl
@[simp] theorem updWrc_cry (f : WriteChannel → WriteChannel) (d : Device) : (updWrc f d).cry = d.cry := rfl
@[simp] theorem updWrc_cch (f : WriteChannel → WriteChannel) (d : Device) : (updWrc f d).cch = d.cch := rfl
@[simp] theorem updWrc_lath (f : WriteChannel → WriteChannel) (d : Device) : (updWrc f d).lath = d.lath := rfl
@[simp] theorem updWrc_hif (f : WriteChannel → WriteChannel) (d : Device) : (updWrc f d).hif = d.hif := rfl
@[simp] theorem updWrc_icu (f : WriteChannel → WriteChannel) (d : Device) : (updWrc f d).icu = d.icu := rfl
@[simp] theorem updWrc_pwr (f : WriteChannel → WriteChannel) (d : Device) : (updWrc f d).pwr = d.pwr := rfl
@[simp] theorem updWrc_lsk (f : WriteChannel → WriteChannel) (d : Device) : (updWrc f d).lsk = d.lsk := rfl
@[simp] theorem updWrc_fio (f : WriteChannel → WriteChannel) (d : Device) : (updWrc f d).fio = d.fio := rfl
@[simp] theorem updWrc_fls (f : WriteChannel → WriteChannel) (d : Device) : (updWrc f d).fls = d.fls := rfl
@[simp] theorem updWrc_evt (f : WriteChannel → WriteChannel) (d : Device) : (updWrc f d).evt = d.evt := rfl
@[simp] theorem updWrc_ecc (f : WriteChannel → WriteChannel) (d : Device) : (updWrc f d).ecc = d.ecc := rfl
@[simp] theorem updWrc_nv (f : WriteChannel → WriteChannel) (d : Device) : (updWrc f d).nv = d.nv := rfl
@[simp] theorem updWrc_gen (f : WriteChannel → WriteChannel) (d : Device) : (updWrc f d).gen = d.gen := rfl
@[simp] theorem updWrc_bus (f : WriteChannel → WriteChannel) (d : Device) : (updWrc f d).bus = d.bus := rfl
@[simp] theorem updWrc_draws (f : WriteChannel → WriteChannel) (d : Device) : (updWrc f d).draws = d.draws := rfl
@[simp] theorem updWrc_regs (f : WriteChannel → WriteChannel) (d : Device) : (updWrc f d).regs = d.regs := rfl

/-! ### updRcl -/

@[simp] theorem updRcl_pacing (f : RecordLayer → RecordLayer) (d : Device) : (updRcl f d).pacing = d.pacing := rfl
@[simp] theorem updRcl_avs (f : RecordLayer → RecordLayer) (d : Device) : (updRcl f d).avs = d.avs := rfl
@[simp] theorem updRcl_exc (f : RecordLayer → RecordLayer) (d : Device) : (updRcl f d).exc = d.exc := rfl
@[simp] theorem updRcl_servo (f : RecordLayer → RecordLayer) (d : Device) : (updRcl f d).servo = d.servo := rfl
@[simp] theorem updRcl_motion (f : RecordLayer → RecordLayer) (d : Device) : (updRcl f d).motion = d.motion := rfl
@[simp] theorem updRcl_rdc (f : RecordLayer → RecordLayer) (d : Device) : (updRcl f d).rdc = d.rdc := rfl
@[simp] theorem updRcl_wrc (f : RecordLayer → RecordLayer) (d : Device) : (updRcl f d).wrc = d.wrc := rfl
@[simp] theorem updRcl_rcl (f : RecordLayer → RecordLayer) (d : Device) : (updRcl f d).rcl = f d.rcl := rfl
@[simp] theorem updRcl_cry (f : RecordLayer → RecordLayer) (d : Device) : (updRcl f d).cry = d.cry := rfl
@[simp] theorem updRcl_cch (f : RecordLayer → RecordLayer) (d : Device) : (updRcl f d).cch = d.cch := rfl
@[simp] theorem updRcl_lath (f : RecordLayer → RecordLayer) (d : Device) : (updRcl f d).lath = d.lath := rfl
@[simp] theorem updRcl_hif (f : RecordLayer → RecordLayer) (d : Device) : (updRcl f d).hif = d.hif := rfl
@[simp] theorem updRcl_icu (f : RecordLayer → RecordLayer) (d : Device) : (updRcl f d).icu = d.icu := rfl
@[simp] theorem updRcl_pwr (f : RecordLayer → RecordLayer) (d : Device) : (updRcl f d).pwr = d.pwr := rfl
@[simp] theorem updRcl_lsk (f : RecordLayer → RecordLayer) (d : Device) : (updRcl f d).lsk = d.lsk := rfl
@[simp] theorem updRcl_fio (f : RecordLayer → RecordLayer) (d : Device) : (updRcl f d).fio = d.fio := rfl
@[simp] theorem updRcl_fls (f : RecordLayer → RecordLayer) (d : Device) : (updRcl f d).fls = d.fls := rfl
@[simp] theorem updRcl_evt (f : RecordLayer → RecordLayer) (d : Device) : (updRcl f d).evt = d.evt := rfl
@[simp] theorem updRcl_ecc (f : RecordLayer → RecordLayer) (d : Device) : (updRcl f d).ecc = d.ecc := rfl
@[simp] theorem updRcl_nv (f : RecordLayer → RecordLayer) (d : Device) : (updRcl f d).nv = d.nv := rfl
@[simp] theorem updRcl_gen (f : RecordLayer → RecordLayer) (d : Device) : (updRcl f d).gen = d.gen := rfl
@[simp] theorem updRcl_bus (f : RecordLayer → RecordLayer) (d : Device) : (updRcl f d).bus = d.bus := rfl
@[simp] theorem updRcl_draws (f : RecordLayer → RecordLayer) (d : Device) : (updRcl f d).draws = d.draws := rfl
@[simp] theorem updRcl_regs (f : RecordLayer → RecordLayer) (d : Device) : (updRcl f d).regs = d.regs := rfl

/-! ### updCry -/

@[simp] theorem updCry_pacing (f : Crypto → Crypto) (d : Device) : (updCry f d).pacing = d.pacing := rfl
@[simp] theorem updCry_avs (f : Crypto → Crypto) (d : Device) : (updCry f d).avs = d.avs := rfl
@[simp] theorem updCry_exc (f : Crypto → Crypto) (d : Device) : (updCry f d).exc = d.exc := rfl
@[simp] theorem updCry_servo (f : Crypto → Crypto) (d : Device) : (updCry f d).servo = d.servo := rfl
@[simp] theorem updCry_motion (f : Crypto → Crypto) (d : Device) : (updCry f d).motion = d.motion := rfl
@[simp] theorem updCry_rdc (f : Crypto → Crypto) (d : Device) : (updCry f d).rdc = d.rdc := rfl
@[simp] theorem updCry_wrc (f : Crypto → Crypto) (d : Device) : (updCry f d).wrc = d.wrc := rfl
@[simp] theorem updCry_rcl (f : Crypto → Crypto) (d : Device) : (updCry f d).rcl = d.rcl := rfl
@[simp] theorem updCry_cry (f : Crypto → Crypto) (d : Device) : (updCry f d).cry = f d.cry := rfl
@[simp] theorem updCry_cch (f : Crypto → Crypto) (d : Device) : (updCry f d).cch = d.cch := rfl
@[simp] theorem updCry_lath (f : Crypto → Crypto) (d : Device) : (updCry f d).lath = d.lath := rfl
@[simp] theorem updCry_hif (f : Crypto → Crypto) (d : Device) : (updCry f d).hif = d.hif := rfl
@[simp] theorem updCry_icu (f : Crypto → Crypto) (d : Device) : (updCry f d).icu = d.icu := rfl
@[simp] theorem updCry_pwr (f : Crypto → Crypto) (d : Device) : (updCry f d).pwr = d.pwr := rfl
@[simp] theorem updCry_lsk (f : Crypto → Crypto) (d : Device) : (updCry f d).lsk = d.lsk := rfl
@[simp] theorem updCry_fio (f : Crypto → Crypto) (d : Device) : (updCry f d).fio = d.fio := rfl
@[simp] theorem updCry_fls (f : Crypto → Crypto) (d : Device) : (updCry f d).fls = d.fls := rfl
@[simp] theorem updCry_evt (f : Crypto → Crypto) (d : Device) : (updCry f d).evt = d.evt := rfl
@[simp] theorem updCry_ecc (f : Crypto → Crypto) (d : Device) : (updCry f d).ecc = d.ecc := rfl
@[simp] theorem updCry_nv (f : Crypto → Crypto) (d : Device) : (updCry f d).nv = d.nv := rfl
@[simp] theorem updCry_gen (f : Crypto → Crypto) (d : Device) : (updCry f d).gen = d.gen := rfl
@[simp] theorem updCry_bus (f : Crypto → Crypto) (d : Device) : (updCry f d).bus = d.bus := rfl
@[simp] theorem updCry_draws (f : Crypto → Crypto) (d : Device) : (updCry f d).draws = d.draws := rfl
@[simp] theorem updCry_regs (f : Crypto → Crypto) (d : Device) : (updCry f d).regs = d.regs := rfl

/-! ### updCache -/

@[simp] theorem updCache_pacing (f : Cache → Cache) (d : Device) : (updCache f d).pacing = d.pacing := rfl
@[simp] theorem updCache_avs (f : Cache → Cache) (d : Device) : (updCache f d).avs = d.avs := rfl
@[simp] theorem updCache_exc (f : Cache → Cache) (d : Device) : (updCache f d).exc = d.exc := rfl
@[simp] theorem updCache_servo (f : Cache → Cache) (d : Device) : (updCache f d).servo = d.servo := rfl
@[simp] theorem updCache_motion (f : Cache → Cache) (d : Device) : (updCache f d).motion = d.motion := rfl
@[simp] theorem updCache_rdc (f : Cache → Cache) (d : Device) : (updCache f d).rdc = d.rdc := rfl
@[simp] theorem updCache_wrc (f : Cache → Cache) (d : Device) : (updCache f d).wrc = d.wrc := rfl
@[simp] theorem updCache_rcl (f : Cache → Cache) (d : Device) : (updCache f d).rcl = d.rcl := rfl
@[simp] theorem updCache_cry (f : Cache → Cache) (d : Device) : (updCache f d).cry = d.cry := rfl
@[simp] theorem updCache_cch (f : Cache → Cache) (d : Device) : (updCache f d).cch = f d.cch := rfl
@[simp] theorem updCache_lath (f : Cache → Cache) (d : Device) : (updCache f d).lath = d.lath := rfl
@[simp] theorem updCache_hif (f : Cache → Cache) (d : Device) : (updCache f d).hif = d.hif := rfl
@[simp] theorem updCache_icu (f : Cache → Cache) (d : Device) : (updCache f d).icu = d.icu := rfl
@[simp] theorem updCache_pwr (f : Cache → Cache) (d : Device) : (updCache f d).pwr = d.pwr := rfl
@[simp] theorem updCache_lsk (f : Cache → Cache) (d : Device) : (updCache f d).lsk = d.lsk := rfl
@[simp] theorem updCache_fio (f : Cache → Cache) (d : Device) : (updCache f d).fio = d.fio := rfl
@[simp] theorem updCache_fls (f : Cache → Cache) (d : Device) : (updCache f d).fls = d.fls := rfl
@[simp] theorem updCache_evt (f : Cache → Cache) (d : Device) : (updCache f d).evt = d.evt := rfl
@[simp] theorem updCache_ecc (f : Cache → Cache) (d : Device) : (updCache f d).ecc = d.ecc := rfl
@[simp] theorem updCache_nv (f : Cache → Cache) (d : Device) : (updCache f d).nv = d.nv := rfl
@[simp] theorem updCache_gen (f : Cache → Cache) (d : Device) : (updCache f d).gen = d.gen := rfl
@[simp] theorem updCache_bus (f : Cache → Cache) (d : Device) : (updCache f d).bus = d.bus := rfl
@[simp] theorem updCache_draws (f : Cache → Cache) (d : Device) : (updCache f d).draws = d.draws := rfl
@[simp] theorem updCache_regs (f : Cache → Cache) (d : Device) : (updCache f d).regs = d.regs := rfl

/-! ### updLath -/

@[simp] theorem updLath_pacing (f : Lath → Lath) (d : Device) : (updLath f d).pacing = d.pacing := rfl
@[simp] theorem updLath_avs (f : Lath → Lath) (d : Device) : (updLath f d).avs = d.avs := rfl
@[simp] theorem updLath_exc (f : Lath → Lath) (d : Device) : (updLath f d).exc = d.exc := rfl
@[simp] theorem updLath_servo (f : Lath → Lath) (d : Device) : (updLath f d).servo = d.servo := rfl
@[simp] theorem updLath_motion (f : Lath → Lath) (d : Device) : (updLath f d).motion = d.motion := rfl
@[simp] theorem updLath_rdc (f : Lath → Lath) (d : Device) : (updLath f d).rdc = d.rdc := rfl
@[simp] theorem updLath_wrc (f : Lath → Lath) (d : Device) : (updLath f d).wrc = d.wrc := rfl
@[simp] theorem updLath_rcl (f : Lath → Lath) (d : Device) : (updLath f d).rcl = d.rcl := rfl
@[simp] theorem updLath_cry (f : Lath → Lath) (d : Device) : (updLath f d).cry = d.cry := rfl
@[simp] theorem updLath_cch (f : Lath → Lath) (d : Device) : (updLath f d).cch = d.cch := rfl
@[simp] theorem updLath_lath (f : Lath → Lath) (d : Device) : (updLath f d).lath = f d.lath := rfl
@[simp] theorem updLath_hif (f : Lath → Lath) (d : Device) : (updLath f d).hif = d.hif := rfl
@[simp] theorem updLath_icu (f : Lath → Lath) (d : Device) : (updLath f d).icu = d.icu := rfl
@[simp] theorem updLath_pwr (f : Lath → Lath) (d : Device) : (updLath f d).pwr = d.pwr := rfl
@[simp] theorem updLath_lsk (f : Lath → Lath) (d : Device) : (updLath f d).lsk = d.lsk := rfl
@[simp] theorem updLath_fio (f : Lath → Lath) (d : Device) : (updLath f d).fio = d.fio := rfl
@[simp] theorem updLath_fls (f : Lath → Lath) (d : Device) : (updLath f d).fls = d.fls := rfl
@[simp] theorem updLath_evt (f : Lath → Lath) (d : Device) : (updLath f d).evt = d.evt := rfl
@[simp] theorem updLath_ecc (f : Lath → Lath) (d : Device) : (updLath f d).ecc = d.ecc := rfl
@[simp] theorem updLath_nv (f : Lath → Lath) (d : Device) : (updLath f d).nv = d.nv := rfl
@[simp] theorem updLath_gen (f : Lath → Lath) (d : Device) : (updLath f d).gen = d.gen := rfl
@[simp] theorem updLath_bus (f : Lath → Lath) (d : Device) : (updLath f d).bus = d.bus := rfl
@[simp] theorem updLath_draws (f : Lath → Lath) (d : Device) : (updLath f d).draws = d.draws := rfl
@[simp] theorem updLath_regs (f : Lath → Lath) (d : Device) : (updLath f d).regs = d.regs := rfl

/-! ### updHif -/

@[simp] theorem updHif_pacing (f : HostIf → HostIf) (d : Device) : (updHif f d).pacing = d.pacing := rfl
@[simp] theorem updHif_avs (f : HostIf → HostIf) (d : Device) : (updHif f d).avs = d.avs := rfl
@[simp] theorem updHif_exc (f : HostIf → HostIf) (d : Device) : (updHif f d).exc = d.exc := rfl
@[simp] theorem updHif_servo (f : HostIf → HostIf) (d : Device) : (updHif f d).servo = d.servo := rfl
@[simp] theorem updHif_motion (f : HostIf → HostIf) (d : Device) : (updHif f d).motion = d.motion := rfl
@[simp] theorem updHif_rdc (f : HostIf → HostIf) (d : Device) : (updHif f d).rdc = d.rdc := rfl
@[simp] theorem updHif_wrc (f : HostIf → HostIf) (d : Device) : (updHif f d).wrc = d.wrc := rfl
@[simp] theorem updHif_rcl (f : HostIf → HostIf) (d : Device) : (updHif f d).rcl = d.rcl := rfl
@[simp] theorem updHif_cry (f : HostIf → HostIf) (d : Device) : (updHif f d).cry = d.cry := rfl
@[simp] theorem updHif_cch (f : HostIf → HostIf) (d : Device) : (updHif f d).cch = d.cch := rfl
@[simp] theorem updHif_lath (f : HostIf → HostIf) (d : Device) : (updHif f d).lath = d.lath := rfl
@[simp] theorem updHif_hif (f : HostIf → HostIf) (d : Device) : (updHif f d).hif = f d.hif := rfl
@[simp] theorem updHif_icu (f : HostIf → HostIf) (d : Device) : (updHif f d).icu = d.icu := rfl
@[simp] theorem updHif_pwr (f : HostIf → HostIf) (d : Device) : (updHif f d).pwr = d.pwr := rfl
@[simp] theorem updHif_lsk (f : HostIf → HostIf) (d : Device) : (updHif f d).lsk = d.lsk := rfl
@[simp] theorem updHif_fio (f : HostIf → HostIf) (d : Device) : (updHif f d).fio = d.fio := rfl
@[simp] theorem updHif_fls (f : HostIf → HostIf) (d : Device) : (updHif f d).fls = d.fls := rfl
@[simp] theorem updHif_evt (f : HostIf → HostIf) (d : Device) : (updHif f d).evt = d.evt := rfl
@[simp] theorem updHif_ecc (f : HostIf → HostIf) (d : Device) : (updHif f d).ecc = d.ecc := rfl
@[simp] theorem updHif_nv (f : HostIf → HostIf) (d : Device) : (updHif f d).nv = d.nv := rfl
@[simp] theorem updHif_gen (f : HostIf → HostIf) (d : Device) : (updHif f d).gen = d.gen := rfl
@[simp] theorem updHif_bus (f : HostIf → HostIf) (d : Device) : (updHif f d).bus = d.bus := rfl
@[simp] theorem updHif_draws (f : HostIf → HostIf) (d : Device) : (updHif f d).draws = d.draws := rfl
@[simp] theorem updHif_regs (f : HostIf → HostIf) (d : Device) : (updHif f d).regs = d.regs := rfl

/-! ### updIcu -/

@[simp] theorem updIcu_pacing (f : Icu → Icu) (d : Device) : (updIcu f d).pacing = d.pacing := rfl
@[simp] theorem updIcu_avs (f : Icu → Icu) (d : Device) : (updIcu f d).avs = d.avs := rfl
@[simp] theorem updIcu_exc (f : Icu → Icu) (d : Device) : (updIcu f d).exc = d.exc := rfl
@[simp] theorem updIcu_servo (f : Icu → Icu) (d : Device) : (updIcu f d).servo = d.servo := rfl
@[simp] theorem updIcu_motion (f : Icu → Icu) (d : Device) : (updIcu f d).motion = d.motion := rfl
@[simp] theorem updIcu_rdc (f : Icu → Icu) (d : Device) : (updIcu f d).rdc = d.rdc := rfl
@[simp] theorem updIcu_wrc (f : Icu → Icu) (d : Device) : (updIcu f d).wrc = d.wrc := rfl
@[simp] theorem updIcu_rcl (f : Icu → Icu) (d : Device) : (updIcu f d).rcl = d.rcl := rfl
@[simp] theorem updIcu_cry (f : Icu → Icu) (d : Device) : (updIcu f d).cry = d.cry := rfl
@[simp] theorem updIcu_cch (f : Icu → Icu) (d : Device) : (updIcu f d).cch = d.cch := rfl
@[simp] theorem updIcu_lath (f : Icu → Icu) (d : Device) : (updIcu f d).lath = d.lath := rfl
@[simp] theorem updIcu_hif (f : Icu → Icu) (d : Device) : (updIcu f d).hif = d.hif := rfl
@[simp] theorem updIcu_icu (f : Icu → Icu) (d : Device) : (updIcu f d).icu = f d.icu := rfl
@[simp] theorem updIcu_pwr (f : Icu → Icu) (d : Device) : (updIcu f d).pwr = d.pwr := rfl
@[simp] theorem updIcu_lsk (f : Icu → Icu) (d : Device) : (updIcu f d).lsk = d.lsk := rfl
@[simp] theorem updIcu_fio (f : Icu → Icu) (d : Device) : (updIcu f d).fio = d.fio := rfl
@[simp] theorem updIcu_fls (f : Icu → Icu) (d : Device) : (updIcu f d).fls = d.fls := rfl
@[simp] theorem updIcu_evt (f : Icu → Icu) (d : Device) : (updIcu f d).evt = d.evt := rfl
@[simp] theorem updIcu_ecc (f : Icu → Icu) (d : Device) : (updIcu f d).ecc = d.ecc := rfl
@[simp] theorem updIcu_nv (f : Icu → Icu) (d : Device) : (updIcu f d).nv = d.nv := rfl
@[simp] theorem updIcu_gen (f : Icu → Icu) (d : Device) : (updIcu f d).gen = d.gen := rfl
@[simp] theorem updIcu_bus (f : Icu → Icu) (d : Device) : (updIcu f d).bus = d.bus := rfl
@[simp] theorem updIcu_draws (f : Icu → Icu) (d : Device) : (updIcu f d).draws = d.draws := rfl
@[simp] theorem updIcu_regs (f : Icu → Icu) (d : Device) : (updIcu f d).regs = d.regs := rfl

/-! ### updPwr -/

@[simp] theorem updPwr_pacing (f : Supply → Supply) (d : Device) : (updPwr f d).pacing = d.pacing := rfl
@[simp] theorem updPwr_avs (f : Supply → Supply) (d : Device) : (updPwr f d).avs = d.avs := rfl
@[simp] theorem updPwr_exc (f : Supply → Supply) (d : Device) : (updPwr f d).exc = d.exc := rfl
@[simp] theorem updPwr_servo (f : Supply → Supply) (d : Device) : (updPwr f d).servo = d.servo := rfl
@[simp] theorem updPwr_motion (f : Supply → Supply) (d : Device) : (updPwr f d).motion = d.motion := rfl
@[simp] theorem updPwr_rdc (f : Supply → Supply) (d : Device) : (updPwr f d).rdc = d.rdc := rfl
@[simp] theorem updPwr_wrc (f : Supply → Supply) (d : Device) : (updPwr f d).wrc = d.wrc := rfl
@[simp] theorem updPwr_rcl (f : Supply → Supply) (d : Device) : (updPwr f d).rcl = d.rcl := rfl
@[simp] theorem updPwr_cry (f : Supply → Supply) (d : Device) : (updPwr f d).cry = d.cry := rfl
@[simp] theorem updPwr_cch (f : Supply → Supply) (d : Device) : (updPwr f d).cch = d.cch := rfl
@[simp] theorem updPwr_lath (f : Supply → Supply) (d : Device) : (updPwr f d).lath = d.lath := rfl
@[simp] theorem updPwr_hif (f : Supply → Supply) (d : Device) : (updPwr f d).hif = d.hif := rfl
@[simp] theorem updPwr_icu (f : Supply → Supply) (d : Device) : (updPwr f d).icu = d.icu := rfl
@[simp] theorem updPwr_pwr (f : Supply → Supply) (d : Device) : (updPwr f d).pwr = f d.pwr := rfl
@[simp] theorem updPwr_lsk (f : Supply → Supply) (d : Device) : (updPwr f d).lsk = d.lsk := rfl
@[simp] theorem updPwr_fio (f : Supply → Supply) (d : Device) : (updPwr f d).fio = d.fio := rfl
@[simp] theorem updPwr_fls (f : Supply → Supply) (d : Device) : (updPwr f d).fls = d.fls := rfl
@[simp] theorem updPwr_evt (f : Supply → Supply) (d : Device) : (updPwr f d).evt = d.evt := rfl
@[simp] theorem updPwr_ecc (f : Supply → Supply) (d : Device) : (updPwr f d).ecc = d.ecc := rfl
@[simp] theorem updPwr_nv (f : Supply → Supply) (d : Device) : (updPwr f d).nv = d.nv := rfl
@[simp] theorem updPwr_gen (f : Supply → Supply) (d : Device) : (updPwr f d).gen = d.gen := rfl
@[simp] theorem updPwr_bus (f : Supply → Supply) (d : Device) : (updPwr f d).bus = d.bus := rfl
@[simp] theorem updPwr_draws (f : Supply → Supply) (d : Device) : (updPwr f d).draws = d.draws := rfl
@[simp] theorem updPwr_regs (f : Supply → Supply) (d : Device) : (updPwr f d).regs = d.regs := rfl

/-! ### updLsk -/

@[simp] theorem updLsk_pacing (f : Lockstep → Lockstep) (d : Device) : (updLsk f d).pacing = d.pacing := rfl
@[simp] theorem updLsk_avs (f : Lockstep → Lockstep) (d : Device) : (updLsk f d).avs = d.avs := rfl
@[simp] theorem updLsk_exc (f : Lockstep → Lockstep) (d : Device) : (updLsk f d).exc = d.exc := rfl
@[simp] theorem updLsk_servo (f : Lockstep → Lockstep) (d : Device) : (updLsk f d).servo = d.servo := rfl
@[simp] theorem updLsk_motion (f : Lockstep → Lockstep) (d : Device) : (updLsk f d).motion = d.motion := rfl
@[simp] theorem updLsk_rdc (f : Lockstep → Lockstep) (d : Device) : (updLsk f d).rdc = d.rdc := rfl
@[simp] theorem updLsk_wrc (f : Lockstep → Lockstep) (d : Device) : (updLsk f d).wrc = d.wrc := rfl
@[simp] theorem updLsk_rcl (f : Lockstep → Lockstep) (d : Device) : (updLsk f d).rcl = d.rcl := rfl
@[simp] theorem updLsk_cry (f : Lockstep → Lockstep) (d : Device) : (updLsk f d).cry = d.cry := rfl
@[simp] theorem updLsk_cch (f : Lockstep → Lockstep) (d : Device) : (updLsk f d).cch = d.cch := rfl
@[simp] theorem updLsk_lath (f : Lockstep → Lockstep) (d : Device) : (updLsk f d).lath = d.lath := rfl
@[simp] theorem updLsk_hif (f : Lockstep → Lockstep) (d : Device) : (updLsk f d).hif = d.hif := rfl
@[simp] theorem updLsk_icu (f : Lockstep → Lockstep) (d : Device) : (updLsk f d).icu = d.icu := rfl
@[simp] theorem updLsk_pwr (f : Lockstep → Lockstep) (d : Device) : (updLsk f d).pwr = d.pwr := rfl
@[simp] theorem updLsk_lsk (f : Lockstep → Lockstep) (d : Device) : (updLsk f d).lsk = f d.lsk := rfl
@[simp] theorem updLsk_fio (f : Lockstep → Lockstep) (d : Device) : (updLsk f d).fio = d.fio := rfl
@[simp] theorem updLsk_fls (f : Lockstep → Lockstep) (d : Device) : (updLsk f d).fls = d.fls := rfl
@[simp] theorem updLsk_evt (f : Lockstep → Lockstep) (d : Device) : (updLsk f d).evt = d.evt := rfl
@[simp] theorem updLsk_ecc (f : Lockstep → Lockstep) (d : Device) : (updLsk f d).ecc = d.ecc := rfl
@[simp] theorem updLsk_nv (f : Lockstep → Lockstep) (d : Device) : (updLsk f d).nv = d.nv := rfl
@[simp] theorem updLsk_gen (f : Lockstep → Lockstep) (d : Device) : (updLsk f d).gen = d.gen := rfl
@[simp] theorem updLsk_bus (f : Lockstep → Lockstep) (d : Device) : (updLsk f d).bus = d.bus := rfl
@[simp] theorem updLsk_draws (f : Lockstep → Lockstep) (d : Device) : (updLsk f d).draws = d.draws := rfl
@[simp] theorem updLsk_regs (f : Lockstep → Lockstep) (d : Device) : (updLsk f d).regs = d.regs := rfl

/-! ### updFio -/

@[simp] theorem updFio_pacing (f : Field → Field) (d : Device) : (updFio f d).pacing = d.pacing := rfl
@[simp] theorem updFio_avs (f : Field → Field) (d : Device) : (updFio f d).avs = d.avs := rfl
@[simp] theorem updFio_exc (f : Field → Field) (d : Device) : (updFio f d).exc = d.exc := rfl
@[simp] theorem updFio_servo (f : Field → Field) (d : Device) : (updFio f d).servo = d.servo := rfl
@[simp] theorem updFio_motion (f : Field → Field) (d : Device) : (updFio f d).motion = d.motion := rfl
@[simp] theorem updFio_rdc (f : Field → Field) (d : Device) : (updFio f d).rdc = d.rdc := rfl
@[simp] theorem updFio_wrc (f : Field → Field) (d : Device) : (updFio f d).wrc = d.wrc := rfl
@[simp] theorem updFio_rcl (f : Field → Field) (d : Device) : (updFio f d).rcl = d.rcl := rfl
@[simp] theorem updFio_cry (f : Field → Field) (d : Device) : (updFio f d).cry = d.cry := rfl
@[simp] theorem updFio_cch (f : Field → Field) (d : Device) : (updFio f d).cch = d.cch := rfl
@[simp] theorem updFio_lath (f : Field → Field) (d : Device) : (updFio f d).lath = d.lath := rfl
@[simp] theorem updFio_hif (f : Field → Field) (d : Device) : (updFio f d).hif = d.hif := rfl
@[simp] theorem updFio_icu (f : Field → Field) (d : Device) : (updFio f d).icu = d.icu := rfl
@[simp] theorem updFio_pwr (f : Field → Field) (d : Device) : (updFio f d).pwr = d.pwr := rfl
@[simp] theorem updFio_lsk (f : Field → Field) (d : Device) : (updFio f d).lsk = d.lsk := rfl
@[simp] theorem updFio_fio (f : Field → Field) (d : Device) : (updFio f d).fio = f d.fio := rfl
@[simp] theorem updFio_fls (f : Field → Field) (d : Device) : (updFio f d).fls = d.fls := rfl
@[simp] theorem updFio_evt (f : Field → Field) (d : Device) : (updFio f d).evt = d.evt := rfl
@[simp] theorem updFio_ecc (f : Field → Field) (d : Device) : (updFio f d).ecc = d.ecc := rfl
@[simp] theorem updFio_nv (f : Field → Field) (d : Device) : (updFio f d).nv = d.nv := rfl
@[simp] theorem updFio_gen (f : Field → Field) (d : Device) : (updFio f d).gen = d.gen := rfl
@[simp] theorem updFio_bus (f : Field → Field) (d : Device) : (updFio f d).bus = d.bus := rfl
@[simp] theorem updFio_draws (f : Field → Field) (d : Device) : (updFio f d).draws = d.draws := rfl
@[simp] theorem updFio_regs (f : Field → Field) (d : Device) : (updFio f d).regs = d.regs := rfl

/-! ### updFls -/

@[simp] theorem updFls_pacing (f : Flash → Flash) (d : Device) : (updFls f d).pacing = d.pacing := rfl
@[simp] theorem updFls_avs (f : Flash → Flash) (d : Device) : (updFls f d).avs = d.avs := rfl
@[simp] theorem updFls_exc (f : Flash → Flash) (d : Device) : (updFls f d).exc = d.exc := rfl
@[simp] theorem updFls_servo (f : Flash → Flash) (d : Device) : (updFls f d).servo = d.servo := rfl
@[simp] theorem updFls_motion (f : Flash → Flash) (d : Device) : (updFls f d).motion = d.motion := rfl
@[simp] theorem updFls_rdc (f : Flash → Flash) (d : Device) : (updFls f d).rdc = d.rdc := rfl
@[simp] theorem updFls_wrc (f : Flash → Flash) (d : Device) : (updFls f d).wrc = d.wrc := rfl
@[simp] theorem updFls_rcl (f : Flash → Flash) (d : Device) : (updFls f d).rcl = d.rcl := rfl
@[simp] theorem updFls_cry (f : Flash → Flash) (d : Device) : (updFls f d).cry = d.cry := rfl
@[simp] theorem updFls_cch (f : Flash → Flash) (d : Device) : (updFls f d).cch = d.cch := rfl
@[simp] theorem updFls_lath (f : Flash → Flash) (d : Device) : (updFls f d).lath = d.lath := rfl
@[simp] theorem updFls_hif (f : Flash → Flash) (d : Device) : (updFls f d).hif = d.hif := rfl
@[simp] theorem updFls_icu (f : Flash → Flash) (d : Device) : (updFls f d).icu = d.icu := rfl
@[simp] theorem updFls_pwr (f : Flash → Flash) (d : Device) : (updFls f d).pwr = d.pwr := rfl
@[simp] theorem updFls_lsk (f : Flash → Flash) (d : Device) : (updFls f d).lsk = d.lsk := rfl
@[simp] theorem updFls_fio (f : Flash → Flash) (d : Device) : (updFls f d).fio = d.fio := rfl
@[simp] theorem updFls_fls (f : Flash → Flash) (d : Device) : (updFls f d).fls = f d.fls := rfl
@[simp] theorem updFls_evt (f : Flash → Flash) (d : Device) : (updFls f d).evt = d.evt := rfl
@[simp] theorem updFls_ecc (f : Flash → Flash) (d : Device) : (updFls f d).ecc = d.ecc := rfl
@[simp] theorem updFls_nv (f : Flash → Flash) (d : Device) : (updFls f d).nv = d.nv := rfl
@[simp] theorem updFls_gen (f : Flash → Flash) (d : Device) : (updFls f d).gen = d.gen := rfl
@[simp] theorem updFls_bus (f : Flash → Flash) (d : Device) : (updFls f d).bus = d.bus := rfl
@[simp] theorem updFls_draws (f : Flash → Flash) (d : Device) : (updFls f d).draws = d.draws := rfl
@[simp] theorem updFls_regs (f : Flash → Flash) (d : Device) : (updFls f d).regs = d.regs := rfl

/-! ### updEvt -/

@[simp] theorem updEvt_pacing (f : EventLog → EventLog) (d : Device) : (updEvt f d).pacing = d.pacing := rfl
@[simp] theorem updEvt_avs (f : EventLog → EventLog) (d : Device) : (updEvt f d).avs = d.avs := rfl
@[simp] theorem updEvt_exc (f : EventLog → EventLog) (d : Device) : (updEvt f d).exc = d.exc := rfl
@[simp] theorem updEvt_servo (f : EventLog → EventLog) (d : Device) : (updEvt f d).servo = d.servo := rfl
@[simp] theorem updEvt_motion (f : EventLog → EventLog) (d : Device) : (updEvt f d).motion = d.motion := rfl
@[simp] theorem updEvt_rdc (f : EventLog → EventLog) (d : Device) : (updEvt f d).rdc = d.rdc := rfl
@[simp] theorem updEvt_wrc (f : EventLog → EventLog) (d : Device) : (updEvt f d).wrc = d.wrc := rfl
@[simp] theorem updEvt_rcl (f : EventLog → EventLog) (d : Device) : (updEvt f d).rcl = d.rcl := rfl
@[simp] theorem updEvt_cry (f : EventLog → EventLog) (d : Device) : (updEvt f d).cry = d.cry := rfl
@[simp] theorem updEvt_cch (f : EventLog → EventLog) (d : Device) : (updEvt f d).cch = d.cch := rfl
@[simp] theorem updEvt_lath (f : EventLog → EventLog) (d : Device) : (updEvt f d).lath = d.lath := rfl
@[simp] theorem updEvt_hif (f : EventLog → EventLog) (d : Device) : (updEvt f d).hif = d.hif := rfl
@[simp] theorem updEvt_icu (f : EventLog → EventLog) (d : Device) : (updEvt f d).icu = d.icu := rfl
@[simp] theorem updEvt_pwr (f : EventLog → EventLog) (d : Device) : (updEvt f d).pwr = d.pwr := rfl
@[simp] theorem updEvt_lsk (f : EventLog → EventLog) (d : Device) : (updEvt f d).lsk = d.lsk := rfl
@[simp] theorem updEvt_fio (f : EventLog → EventLog) (d : Device) : (updEvt f d).fio = d.fio := rfl
@[simp] theorem updEvt_fls (f : EventLog → EventLog) (d : Device) : (updEvt f d).fls = d.fls := rfl
@[simp] theorem updEvt_evt (f : EventLog → EventLog) (d : Device) : (updEvt f d).evt = f d.evt := rfl
@[simp] theorem updEvt_ecc (f : EventLog → EventLog) (d : Device) : (updEvt f d).ecc = d.ecc := rfl
@[simp] theorem updEvt_nv (f : EventLog → EventLog) (d : Device) : (updEvt f d).nv = d.nv := rfl
@[simp] theorem updEvt_gen (f : EventLog → EventLog) (d : Device) : (updEvt f d).gen = d.gen := rfl
@[simp] theorem updEvt_bus (f : EventLog → EventLog) (d : Device) : (updEvt f d).bus = d.bus := rfl
@[simp] theorem updEvt_draws (f : EventLog → EventLog) (d : Device) : (updEvt f d).draws = d.draws := rfl
@[simp] theorem updEvt_regs (f : EventLog → EventLog) (d : Device) : (updEvt f d).regs = d.regs := rfl

/-! ### updEcc -/

@[simp] theorem updEcc_pacing (f : Ecc → Ecc) (d : Device) : (updEcc f d).pacing = d.pacing := rfl
@[simp] theorem updEcc_avs (f : Ecc → Ecc) (d : Device) : (updEcc f d).avs = d.avs := rfl
@[simp] theorem updEcc_exc (f : Ecc → Ecc) (d : Device) : (updEcc f d).exc = d.exc := rfl
@[simp] theorem updEcc_servo (f : Ecc → Ecc) (d : Device) : (updEcc f d).servo = d.servo := rfl
@[simp] theorem updEcc_motion (f : Ecc → Ecc) (d : Device) : (updEcc f d).motion = d.motion := rfl
@[simp] theorem updEcc_rdc (f : Ecc → Ecc) (d : Device) : (updEcc f d).rdc = d.rdc := rfl
@[simp] theorem updEcc_wrc (f : Ecc → Ecc) (d : Device) : (updEcc f d).wrc = d.wrc := rfl
@[simp] theorem updEcc_rcl (f : Ecc → Ecc) (d : Device) : (updEcc f d).rcl = d.rcl := rfl
@[simp] theorem updEcc_cry (f : Ecc → Ecc) (d : Device) : (updEcc f d).cry = d.cry := rfl
@[simp] theorem updEcc_cch (f : Ecc → Ecc) (d : Device) : (updEcc f d).cch = d.cch := rfl
@[simp] theorem updEcc_lath (f : Ecc → Ecc) (d : Device) : (updEcc f d).lath = d.lath := rfl
@[simp] theorem updEcc_hif (f : Ecc → Ecc) (d : Device) : (updEcc f d).hif = d.hif := rfl
@[simp] theorem updEcc_icu (f : Ecc → Ecc) (d : Device) : (updEcc f d).icu = d.icu := rfl
@[simp] theorem updEcc_pwr (f : Ecc → Ecc) (d : Device) : (updEcc f d).pwr = d.pwr := rfl
@[simp] theorem updEcc_lsk (f : Ecc → Ecc) (d : Device) : (updEcc f d).lsk = d.lsk := rfl
@[simp] theorem updEcc_fio (f : Ecc → Ecc) (d : Device) : (updEcc f d).fio = d.fio := rfl
@[simp] theorem updEcc_fls (f : Ecc → Ecc) (d : Device) : (updEcc f d).fls = d.fls := rfl
@[simp] theorem updEcc_evt (f : Ecc → Ecc) (d : Device) : (updEcc f d).evt = d.evt := rfl
@[simp] theorem updEcc_ecc (f : Ecc → Ecc) (d : Device) : (updEcc f d).ecc = f d.ecc := rfl
@[simp] theorem updEcc_nv (f : Ecc → Ecc) (d : Device) : (updEcc f d).nv = d.nv := rfl
@[simp] theorem updEcc_gen (f : Ecc → Ecc) (d : Device) : (updEcc f d).gen = d.gen := rfl
@[simp] theorem updEcc_bus (f : Ecc → Ecc) (d : Device) : (updEcc f d).bus = d.bus := rfl
@[simp] theorem updEcc_draws (f : Ecc → Ecc) (d : Device) : (updEcc f d).draws = d.draws := rfl
@[simp] theorem updEcc_regs (f : Ecc → Ecc) (d : Device) : (updEcc f d).regs = d.regs := rfl

/-! ### updGen -/

@[simp] theorem updGen_pacing (f : Startup → Startup) (d : Device) : (updGen f d).pacing = d.pacing := rfl
@[simp] theorem updGen_avs (f : Startup → Startup) (d : Device) : (updGen f d).avs = d.avs := rfl
@[simp] theorem updGen_exc (f : Startup → Startup) (d : Device) : (updGen f d).exc = d.exc := rfl
@[simp] theorem updGen_servo (f : Startup → Startup) (d : Device) : (updGen f d).servo = d.servo := rfl
@[simp] theorem updGen_motion (f : Startup → Startup) (d : Device) : (updGen f d).motion = d.motion := rfl
@[simp] theorem updGen_rdc (f : Startup → Startup) (d : Device) : (updGen f d).rdc = d.rdc := rfl
@[simp] theorem updGen_wrc (f : Startup → Startup) (d : Device) : (updGen f d).wrc = d.wrc := rfl
@[simp] theorem updGen_rcl (f : Startup → Startup) (d : Device) : (updGen f d).rcl = d.rcl := rfl
@[simp] theorem updGen_cry (f : Startup → Startup) (d : Device) : (updGen f d).cry = d.cry := rfl
@[simp] theorem updGen_cch (f : Startup → Startup) (d : Device) : (updGen f d).cch = d.cch := rfl
@[simp] theorem updGen_lath (f : Startup → Startup) (d : Device) : (updGen f d).lath = d.lath := rfl
@[simp] theorem updGen_hif (f : Startup → Startup) (d : Device) : (updGen f d).hif = d.hif := rfl
@[simp] theorem updGen_icu (f : Startup → Startup) (d : Device) : (updGen f d).icu = d.icu := rfl
@[simp] theorem updGen_pwr (f : Startup → Startup) (d : Device) : (updGen f d).pwr = d.pwr := rfl
@[simp] theorem updGen_lsk (f : Startup → Startup) (d : Device) : (updGen f d).lsk = d.lsk := rfl
@[simp] theorem updGen_fio (f : Startup → Startup) (d : Device) : (updGen f d).fio = d.fio := rfl
@[simp] theorem updGen_fls (f : Startup → Startup) (d : Device) : (updGen f d).fls = d.fls := rfl
@[simp] theorem updGen_evt (f : Startup → Startup) (d : Device) : (updGen f d).evt = d.evt := rfl
@[simp] theorem updGen_ecc (f : Startup → Startup) (d : Device) : (updGen f d).ecc = d.ecc := rfl
@[simp] theorem updGen_nv (f : Startup → Startup) (d : Device) : (updGen f d).nv = d.nv := rfl
@[simp] theorem updGen_gen (f : Startup → Startup) (d : Device) : (updGen f d).gen = f d.gen := rfl
@[simp] theorem updGen_bus (f : Startup → Startup) (d : Device) : (updGen f d).bus = d.bus := rfl
@[simp] theorem updGen_draws (f : Startup → Startup) (d : Device) : (updGen f d).draws = d.draws := rfl
@[simp] theorem updGen_regs (f : Startup → Startup) (d : Device) : (updGen f d).regs = d.regs := rfl

/-! ### setReg -/

@[simp] theorem setReg_pacing (o : Nat) (v : Word32) (d : Device) : (setReg o v d).pacing = d.pacing := rfl
@[simp] theorem setReg_avs (o : Nat) (v : Word32) (d : Device) : (setReg o v d).avs = d.avs := rfl
@[simp] theorem setReg_exc (o : Nat) (v : Word32) (d : Device) : (setReg o v d).exc = d.exc := rfl
@[simp] theorem setReg_servo (o : Nat) (v : Word32) (d : Device) : (setReg o v d).servo = d.servo := rfl
@[simp] theorem setReg_motion (o : Nat) (v : Word32) (d : Device) : (setReg o v d).motion = d.motion := rfl
@[simp] theorem setReg_rdc (o : Nat) (v : Word32) (d : Device) : (setReg o v d).rdc = d.rdc := rfl
@[simp] theorem setReg_wrc (o : Nat) (v : Word32) (d : Device) : (setReg o v d).wrc = d.wrc := rfl
@[simp] theorem setReg_rcl (o : Nat) (v : Word32) (d : Device) : (setReg o v d).rcl = d.rcl := rfl
@[simp] theorem setReg_cry (o : Nat) (v : Word32) (d : Device) : (setReg o v d).cry = d.cry := rfl
@[simp] theorem setReg_cch (o : Nat) (v : Word32) (d : Device) : (setReg o v d).cch = d.cch := rfl
@[simp] theorem setReg_lath (o : Nat) (v : Word32) (d : Device) : (setReg o v d).lath = d.lath := rfl
@[simp] theorem setReg_hif (o : Nat) (v : Word32) (d : Device) : (setReg o v d).hif = d.hif := rfl
@[simp] theorem setReg_icu (o : Nat) (v : Word32) (d : Device) : (setReg o v d).icu = d.icu := rfl
@[simp] theorem setReg_pwr (o : Nat) (v : Word32) (d : Device) : (setReg o v d).pwr = d.pwr := rfl
@[simp] theorem setReg_lsk (o : Nat) (v : Word32) (d : Device) : (setReg o v d).lsk = d.lsk := rfl
@[simp] theorem setReg_fio (o : Nat) (v : Word32) (d : Device) : (setReg o v d).fio = d.fio := rfl
@[simp] theorem setReg_fls (o : Nat) (v : Word32) (d : Device) : (setReg o v d).fls = d.fls := rfl
@[simp] theorem setReg_evt (o : Nat) (v : Word32) (d : Device) : (setReg o v d).evt = d.evt := rfl
@[simp] theorem setReg_ecc (o : Nat) (v : Word32) (d : Device) : (setReg o v d).ecc = d.ecc := rfl
@[simp] theorem setReg_nv (o : Nat) (v : Word32) (d : Device) : (setReg o v d).nv = d.nv := rfl
@[simp] theorem setReg_gen (o : Nat) (v : Word32) (d : Device) : (setReg o v d).gen = d.gen := rfl
@[simp] theorem setReg_bus (o : Nat) (v : Word32) (d : Device) : (setReg o v d).bus = d.bus := rfl
@[simp] theorem setReg_draws (o : Nat) (v : Word32) (d : Device) : (setReg o v d).draws = d.draws := rfl

/-! ### updSrc -/

@[simp] theorem updSrc_pacing (k : Nat) (f : Src → Src) (d : Device) : (updSrc k f d).pacing = d.pacing := rfl
@[simp] theorem updSrc_avs (k : Nat) (f : Src → Src) (d : Device) : (updSrc k f d).avs = d.avs := rfl
@[simp] theorem updSrc_exc (k : Nat) (f : Src → Src) (d : Device) : (updSrc k f d).exc = d.exc := rfl
@[simp] theorem updSrc_servo (k : Nat) (f : Src → Src) (d : Device) : (updSrc k f d).servo = d.servo := rfl
@[simp] theorem updSrc_motion (k : Nat) (f : Src → Src) (d : Device) : (updSrc k f d).motion = d.motion := rfl
@[simp] theorem updSrc_rdc (k : Nat) (f : Src → Src) (d : Device) : (updSrc k f d).rdc = d.rdc := rfl
@[simp] theorem updSrc_wrc (k : Nat) (f : Src → Src) (d : Device) : (updSrc k f d).wrc = d.wrc := rfl
@[simp] theorem updSrc_rcl (k : Nat) (f : Src → Src) (d : Device) : (updSrc k f d).rcl = d.rcl := rfl
@[simp] theorem updSrc_cry (k : Nat) (f : Src → Src) (d : Device) : (updSrc k f d).cry = d.cry := rfl
@[simp] theorem updSrc_cch (k : Nat) (f : Src → Src) (d : Device) : (updSrc k f d).cch = d.cch := rfl
@[simp] theorem updSrc_lath (k : Nat) (f : Src → Src) (d : Device) : (updSrc k f d).lath = d.lath := rfl
@[simp] theorem updSrc_hif (k : Nat) (f : Src → Src) (d : Device) : (updSrc k f d).hif = d.hif := rfl
@[simp] theorem updSrc_pwr (k : Nat) (f : Src → Src) (d : Device) : (updSrc k f d).pwr = d.pwr := rfl
@[simp] theorem updSrc_lsk (k : Nat) (f : Src → Src) (d : Device) : (updSrc k f d).lsk = d.lsk := rfl
@[simp] theorem updSrc_fio (k : Nat) (f : Src → Src) (d : Device) : (updSrc k f d).fio = d.fio := rfl
@[simp] theorem updSrc_fls (k : Nat) (f : Src → Src) (d : Device) : (updSrc k f d).fls = d.fls := rfl
@[simp] theorem updSrc_evt (k : Nat) (f : Src → Src) (d : Device) : (updSrc k f d).evt = d.evt := rfl
@[simp] theorem updSrc_ecc (k : Nat) (f : Src → Src) (d : Device) : (updSrc k f d).ecc = d.ecc := rfl
@[simp] theorem updSrc_nv (k : Nat) (f : Src → Src) (d : Device) : (updSrc k f d).nv = d.nv := rfl
@[simp] theorem updSrc_gen (k : Nat) (f : Src → Src) (d : Device) : (updSrc k f d).gen = d.gen := rfl
@[simp] theorem updSrc_bus (k : Nat) (f : Src → Src) (d : Device) : (updSrc k f d).bus = d.bus := rfl
@[simp] theorem updSrc_draws (k : Nat) (f : Src → Src) (d : Device) : (updSrc k f d).draws = d.draws := rfl
@[simp] theorem updSrc_regs (k : Nat) (f : Src → Src) (d : Device) : (updSrc k f d).regs = d.regs := rfl

/-! ### updCmd -/

@[simp] theorem updCmd_pacing (k : Nat) (f : Cmd → Cmd) (d : Device) : (updCmd k f d).pacing = d.pacing := rfl
@[simp] theorem updCmd_avs (k : Nat) (f : Cmd → Cmd) (d : Device) : (updCmd k f d).avs = d.avs := rfl
@[simp] theorem updCmd_exc (k : Nat) (f : Cmd → Cmd) (d : Device) : (updCmd k f d).exc = d.exc := rfl
@[simp] theorem updCmd_servo (k : Nat) (f : Cmd → Cmd) (d : Device) : (updCmd k f d).servo = d.servo := rfl
@[simp] theorem updCmd_motion (k : Nat) (f : Cmd → Cmd) (d : Device) : (updCmd k f d).motion = d.motion := rfl
@[simp] theorem updCmd_rdc (k : Nat) (f : Cmd → Cmd) (d : Device) : (updCmd k f d).rdc = d.rdc := rfl
@[simp] theorem updCmd_wrc (k : Nat) (f : Cmd → Cmd) (d : Device) : (updCmd k f d).wrc = d.wrc := rfl
@[simp] theorem updCmd_rcl (k : Nat) (f : Cmd → Cmd) (d : Device) : (updCmd k f d).rcl = d.rcl := rfl
@[simp] theorem updCmd_cry (k : Nat) (f : Cmd → Cmd) (d : Device) : (updCmd k f d).cry = d.cry := rfl
@[simp] theorem updCmd_cch (k : Nat) (f : Cmd → Cmd) (d : Device) : (updCmd k f d).cch = d.cch := rfl
@[simp] theorem updCmd_lath (k : Nat) (f : Cmd → Cmd) (d : Device) : (updCmd k f d).lath = d.lath := rfl
@[simp] theorem updCmd_icu (k : Nat) (f : Cmd → Cmd) (d : Device) : (updCmd k f d).icu = d.icu := rfl
@[simp] theorem updCmd_pwr (k : Nat) (f : Cmd → Cmd) (d : Device) : (updCmd k f d).pwr = d.pwr := rfl
@[simp] theorem updCmd_lsk (k : Nat) (f : Cmd → Cmd) (d : Device) : (updCmd k f d).lsk = d.lsk := rfl
@[simp] theorem updCmd_fio (k : Nat) (f : Cmd → Cmd) (d : Device) : (updCmd k f d).fio = d.fio := rfl
@[simp] theorem updCmd_fls (k : Nat) (f : Cmd → Cmd) (d : Device) : (updCmd k f d).fls = d.fls := rfl
@[simp] theorem updCmd_evt (k : Nat) (f : Cmd → Cmd) (d : Device) : (updCmd k f d).evt = d.evt := rfl
@[simp] theorem updCmd_ecc (k : Nat) (f : Cmd → Cmd) (d : Device) : (updCmd k f d).ecc = d.ecc := rfl
@[simp] theorem updCmd_nv (k : Nat) (f : Cmd → Cmd) (d : Device) : (updCmd k f d).nv = d.nv := rfl
@[simp] theorem updCmd_gen (k : Nat) (f : Cmd → Cmd) (d : Device) : (updCmd k f d).gen = d.gen := rfl
@[simp] theorem updCmd_bus (k : Nat) (f : Cmd → Cmd) (d : Device) : (updCmd k f d).bus = d.bus := rfl
@[simp] theorem updCmd_draws (k : Nat) (f : Cmd → Cmd) (d : Device) : (updCmd k f d).draws = d.draws := rfl
@[simp] theorem updCmd_regs (k : Nat) (f : Cmd → Cmd) (d : Device) : (updCmd k f d).regs = d.regs := rfl

/-! ### updSq -/

@[simp] theorem updSq_pacing (k : Nat) (f : Sq → Sq) (d : Device) : (updSq k f d).pacing = d.pacing := rfl
@[simp] theorem updSq_avs (k : Nat) (f : Sq → Sq) (d : Device) : (updSq k f d).avs = d.avs := rfl
@[simp] theorem updSq_exc (k : Nat) (f : Sq → Sq) (d : Device) : (updSq k f d).exc = d.exc := rfl
@[simp] theorem updSq_servo (k : Nat) (f : Sq → Sq) (d : Device) : (updSq k f d).servo = d.servo := rfl
@[simp] theorem updSq_motion (k : Nat) (f : Sq → Sq) (d : Device) : (updSq k f d).motion = d.motion := rfl
@[simp] theorem updSq_rdc (k : Nat) (f : Sq → Sq) (d : Device) : (updSq k f d).rdc = d.rdc := rfl
@[simp] theorem updSq_wrc (k : Nat) (f : Sq → Sq) (d : Device) : (updSq k f d).wrc = d.wrc := rfl
@[simp] theorem updSq_rcl (k : Nat) (f : Sq → Sq) (d : Device) : (updSq k f d).rcl = d.rcl := rfl
@[simp] theorem updSq_cry (k : Nat) (f : Sq → Sq) (d : Device) : (updSq k f d).cry = d.cry := rfl
@[simp] theorem updSq_cch (k : Nat) (f : Sq → Sq) (d : Device) : (updSq k f d).cch = d.cch := rfl
@[simp] theorem updSq_lath (k : Nat) (f : Sq → Sq) (d : Device) : (updSq k f d).lath = d.lath := rfl
@[simp] theorem updSq_icu (k : Nat) (f : Sq → Sq) (d : Device) : (updSq k f d).icu = d.icu := rfl
@[simp] theorem updSq_pwr (k : Nat) (f : Sq → Sq) (d : Device) : (updSq k f d).pwr = d.pwr := rfl
@[simp] theorem updSq_lsk (k : Nat) (f : Sq → Sq) (d : Device) : (updSq k f d).lsk = d.lsk := rfl
@[simp] theorem updSq_fio (k : Nat) (f : Sq → Sq) (d : Device) : (updSq k f d).fio = d.fio := rfl
@[simp] theorem updSq_fls (k : Nat) (f : Sq → Sq) (d : Device) : (updSq k f d).fls = d.fls := rfl
@[simp] theorem updSq_evt (k : Nat) (f : Sq → Sq) (d : Device) : (updSq k f d).evt = d.evt := rfl
@[simp] theorem updSq_ecc (k : Nat) (f : Sq → Sq) (d : Device) : (updSq k f d).ecc = d.ecc := rfl
@[simp] theorem updSq_nv (k : Nat) (f : Sq → Sq) (d : Device) : (updSq k f d).nv = d.nv := rfl
@[simp] theorem updSq_gen (k : Nat) (f : Sq → Sq) (d : Device) : (updSq k f d).gen = d.gen := rfl
@[simp] theorem updSq_bus (k : Nat) (f : Sq → Sq) (d : Device) : (updSq k f d).bus = d.bus := rfl
@[simp] theorem updSq_draws (k : Nat) (f : Sq → Sq) (d : Device) : (updSq k f d).draws = d.draws := rfl
@[simp] theorem updSq_regs (k : Nat) (f : Sq → Sq) (d : Device) : (updSq k f d).regs = d.regs := rfl

/-! ### updCq -/

@[simp] theorem updCq_pacing (k : Nat) (f : Cq → Cq) (d : Device) : (updCq k f d).pacing = d.pacing := rfl
@[simp] theorem updCq_avs (k : Nat) (f : Cq → Cq) (d : Device) : (updCq k f d).avs = d.avs := rfl
@[simp] theorem updCq_exc (k : Nat) (f : Cq → Cq) (d : Device) : (updCq k f d).exc = d.exc := rfl
@[simp] theorem updCq_servo (k : Nat) (f : Cq → Cq) (d : Device) : (updCq k f d).servo = d.servo := rfl
@[simp] theorem updCq_motion (k : Nat) (f : Cq → Cq) (d : Device) : (updCq k f d).motion = d.motion := rfl
@[simp] theorem updCq_rdc (k : Nat) (f : Cq → Cq) (d : Device) : (updCq k f d).rdc = d.rdc := rfl
@[simp] theorem updCq_wrc (k : Nat) (f : Cq → Cq) (d : Device) : (updCq k f d).wrc = d.wrc := rfl
@[simp] theorem updCq_rcl (k : Nat) (f : Cq → Cq) (d : Device) : (updCq k f d).rcl = d.rcl := rfl
@[simp] theorem updCq_cry (k : Nat) (f : Cq → Cq) (d : Device) : (updCq k f d).cry = d.cry := rfl
@[simp] theorem updCq_cch (k : Nat) (f : Cq → Cq) (d : Device) : (updCq k f d).cch = d.cch := rfl
@[simp] theorem updCq_lath (k : Nat) (f : Cq → Cq) (d : Device) : (updCq k f d).lath = d.lath := rfl
@[simp] theorem updCq_icu (k : Nat) (f : Cq → Cq) (d : Device) : (updCq k f d).icu = d.icu := rfl
@[simp] theorem updCq_pwr (k : Nat) (f : Cq → Cq) (d : Device) : (updCq k f d).pwr = d.pwr := rfl
@[simp] theorem updCq_lsk (k : Nat) (f : Cq → Cq) (d : Device) : (updCq k f d).lsk = d.lsk := rfl
@[simp] theorem updCq_fio (k : Nat) (f : Cq → Cq) (d : Device) : (updCq k f d).fio = d.fio := rfl
@[simp] theorem updCq_fls (k : Nat) (f : Cq → Cq) (d : Device) : (updCq k f d).fls = d.fls := rfl
@[simp] theorem updCq_evt (k : Nat) (f : Cq → Cq) (d : Device) : (updCq k f d).evt = d.evt := rfl
@[simp] theorem updCq_ecc (k : Nat) (f : Cq → Cq) (d : Device) : (updCq k f d).ecc = d.ecc := rfl
@[simp] theorem updCq_nv (k : Nat) (f : Cq → Cq) (d : Device) : (updCq k f d).nv = d.nv := rfl
@[simp] theorem updCq_gen (k : Nat) (f : Cq → Cq) (d : Device) : (updCq k f d).gen = d.gen := rfl
@[simp] theorem updCq_bus (k : Nat) (f : Cq → Cq) (d : Device) : (updCq k f d).bus = d.bus := rfl
@[simp] theorem updCq_draws (k : Nat) (f : Cq → Cq) (d : Device) : (updCq k f d).draws = d.draws := rfl
@[simp] theorem updCq_regs (k : Nat) (f : Cq → Cq) (d : Device) : (updCq k f d).regs = d.regs := rfl

/-! ### updLoop -/

@[simp] theorem updLoop_pacing (k : Nat) (f : Loop → Loop) (d : Device) : (updLoop k f d).pacing = d.pacing := rfl
@[simp] theorem updLoop_avs (k : Nat) (f : Loop → Loop) (d : Device) : (updLoop k f d).avs = d.avs := rfl
@[simp] theorem updLoop_exc (k : Nat) (f : Loop → Loop) (d : Device) : (updLoop k f d).exc = d.exc := rfl
@[simp] theorem updLoop_motion (k : Nat) (f : Loop → Loop) (d : Device) : (updLoop k f d).motion = d.motion := rfl
@[simp] theorem updLoop_rdc (k : Nat) (f : Loop → Loop) (d : Device) : (updLoop k f d).rdc = d.rdc := rfl
@[simp] theorem updLoop_wrc (k : Nat) (f : Loop → Loop) (d : Device) : (updLoop k f d).wrc = d.wrc := rfl
@[simp] theorem updLoop_rcl (k : Nat) (f : Loop → Loop) (d : Device) : (updLoop k f d).rcl = d.rcl := rfl
@[simp] theorem updLoop_cry (k : Nat) (f : Loop → Loop) (d : Device) : (updLoop k f d).cry = d.cry := rfl
@[simp] theorem updLoop_cch (k : Nat) (f : Loop → Loop) (d : Device) : (updLoop k f d).cch = d.cch := rfl
@[simp] theorem updLoop_lath (k : Nat) (f : Loop → Loop) (d : Device) : (updLoop k f d).lath = d.lath := rfl
@[simp] theorem updLoop_hif (k : Nat) (f : Loop → Loop) (d : Device) : (updLoop k f d).hif = d.hif := rfl
@[simp] theorem updLoop_icu (k : Nat) (f : Loop → Loop) (d : Device) : (updLoop k f d).icu = d.icu := rfl
@[simp] theorem updLoop_pwr (k : Nat) (f : Loop → Loop) (d : Device) : (updLoop k f d).pwr = d.pwr := rfl
@[simp] theorem updLoop_lsk (k : Nat) (f : Loop → Loop) (d : Device) : (updLoop k f d).lsk = d.lsk := rfl
@[simp] theorem updLoop_fio (k : Nat) (f : Loop → Loop) (d : Device) : (updLoop k f d).fio = d.fio := rfl
@[simp] theorem updLoop_fls (k : Nat) (f : Loop → Loop) (d : Device) : (updLoop k f d).fls = d.fls := rfl
@[simp] theorem updLoop_evt (k : Nat) (f : Loop → Loop) (d : Device) : (updLoop k f d).evt = d.evt := rfl
@[simp] theorem updLoop_ecc (k : Nat) (f : Loop → Loop) (d : Device) : (updLoop k f d).ecc = d.ecc := rfl
@[simp] theorem updLoop_nv (k : Nat) (f : Loop → Loop) (d : Device) : (updLoop k f d).nv = d.nv := rfl
@[simp] theorem updLoop_gen (k : Nat) (f : Loop → Loop) (d : Device) : (updLoop k f d).gen = d.gen := rfl
@[simp] theorem updLoop_bus (k : Nat) (f : Loop → Loop) (d : Device) : (updLoop k f d).bus = d.bus := rfl
@[simp] theorem updLoop_draws (k : Nat) (f : Loop → Loop) (d : Device) : (updLoop k f d).draws = d.draws := rfl
@[simp] theorem updLoop_regs (k : Nat) (f : Loop → Loop) (d : Device) : (updLoop k f d).regs = d.regs := rfl

/-! ### updRing -/

@[simp] theorem updRing_pacing (k : Nat) (f : Ring → Ring) (d : Device) : (updRing k f d).pacing = d.pacing := rfl
@[simp] theorem updRing_avs (k : Nat) (f : Ring → Ring) (d : Device) : (updRing k f d).avs = d.avs := rfl
@[simp] theorem updRing_exc (k : Nat) (f : Ring → Ring) (d : Device) : (updRing k f d).exc = d.exc := rfl
@[simp] theorem updRing_servo (k : Nat) (f : Ring → Ring) (d : Device) : (updRing k f d).servo = d.servo := rfl
@[simp] theorem updRing_motion (k : Nat) (f : Ring → Ring) (d : Device) : (updRing k f d).motion = d.motion := rfl
@[simp] theorem updRing_rdc (k : Nat) (f : Ring → Ring) (d : Device) : (updRing k f d).rdc = d.rdc := rfl
@[simp] theorem updRing_wrc (k : Nat) (f : Ring → Ring) (d : Device) : (updRing k f d).wrc = d.wrc := rfl
@[simp] theorem updRing_cry (k : Nat) (f : Ring → Ring) (d : Device) : (updRing k f d).cry = d.cry := rfl
@[simp] theorem updRing_cch (k : Nat) (f : Ring → Ring) (d : Device) : (updRing k f d).cch = d.cch := rfl
@[simp] theorem updRing_lath (k : Nat) (f : Ring → Ring) (d : Device) : (updRing k f d).lath = d.lath := rfl
@[simp] theorem updRing_hif (k : Nat) (f : Ring → Ring) (d : Device) : (updRing k f d).hif = d.hif := rfl
@[simp] theorem updRing_icu (k : Nat) (f : Ring → Ring) (d : Device) : (updRing k f d).icu = d.icu := rfl
@[simp] theorem updRing_pwr (k : Nat) (f : Ring → Ring) (d : Device) : (updRing k f d).pwr = d.pwr := rfl
@[simp] theorem updRing_lsk (k : Nat) (f : Ring → Ring) (d : Device) : (updRing k f d).lsk = d.lsk := rfl
@[simp] theorem updRing_fio (k : Nat) (f : Ring → Ring) (d : Device) : (updRing k f d).fio = d.fio := rfl
@[simp] theorem updRing_fls (k : Nat) (f : Ring → Ring) (d : Device) : (updRing k f d).fls = d.fls := rfl
@[simp] theorem updRing_evt (k : Nat) (f : Ring → Ring) (d : Device) : (updRing k f d).evt = d.evt := rfl
@[simp] theorem updRing_ecc (k : Nat) (f : Ring → Ring) (d : Device) : (updRing k f d).ecc = d.ecc := rfl
@[simp] theorem updRing_nv (k : Nat) (f : Ring → Ring) (d : Device) : (updRing k f d).nv = d.nv := rfl
@[simp] theorem updRing_gen (k : Nat) (f : Ring → Ring) (d : Device) : (updRing k f d).gen = d.gen := rfl
@[simp] theorem updRing_bus (k : Nat) (f : Ring → Ring) (d : Device) : (updRing k f d).bus = d.bus := rfl
@[simp] theorem updRing_draws (k : Nat) (f : Ring → Ring) (d : Device) : (updRing k f d).draws = d.draws := rfl
@[simp] theorem updRing_regs (k : Nat) (f : Ring → Ring) (d : Device) : (updRing k f d).regs = d.regs := rfl

/-! ### updSlot -/

@[simp] theorem updSlot_pacing (k : Nat) (f : Slot → Slot) (d : Device) : (updSlot k f d).pacing = d.pacing := rfl
@[simp] theorem updSlot_avs (k : Nat) (f : Slot → Slot) (d : Device) : (updSlot k f d).avs = d.avs := rfl
@[simp] theorem updSlot_exc (k : Nat) (f : Slot → Slot) (d : Device) : (updSlot k f d).exc = d.exc := rfl
@[simp] theorem updSlot_servo (k : Nat) (f : Slot → Slot) (d : Device) : (updSlot k f d).servo = d.servo := rfl
@[simp] theorem updSlot_motion (k : Nat) (f : Slot → Slot) (d : Device) : (updSlot k f d).motion = d.motion := rfl
@[simp] theorem updSlot_rdc (k : Nat) (f : Slot → Slot) (d : Device) : (updSlot k f d).rdc = d.rdc := rfl
@[simp] theorem updSlot_wrc (k : Nat) (f : Slot → Slot) (d : Device) : (updSlot k f d).wrc = d.wrc := rfl
@[simp] theorem updSlot_rcl (k : Nat) (f : Slot → Slot) (d : Device) : (updSlot k f d).rcl = d.rcl := rfl
@[simp] theorem updSlot_cch (k : Nat) (f : Slot → Slot) (d : Device) : (updSlot k f d).cch = d.cch := rfl
@[simp] theorem updSlot_lath (k : Nat) (f : Slot → Slot) (d : Device) : (updSlot k f d).lath = d.lath := rfl
@[simp] theorem updSlot_hif (k : Nat) (f : Slot → Slot) (d : Device) : (updSlot k f d).hif = d.hif := rfl
@[simp] theorem updSlot_icu (k : Nat) (f : Slot → Slot) (d : Device) : (updSlot k f d).icu = d.icu := rfl
@[simp] theorem updSlot_pwr (k : Nat) (f : Slot → Slot) (d : Device) : (updSlot k f d).pwr = d.pwr := rfl
@[simp] theorem updSlot_lsk (k : Nat) (f : Slot → Slot) (d : Device) : (updSlot k f d).lsk = d.lsk := rfl
@[simp] theorem updSlot_fio (k : Nat) (f : Slot → Slot) (d : Device) : (updSlot k f d).fio = d.fio := rfl
@[simp] theorem updSlot_fls (k : Nat) (f : Slot → Slot) (d : Device) : (updSlot k f d).fls = d.fls := rfl
@[simp] theorem updSlot_evt (k : Nat) (f : Slot → Slot) (d : Device) : (updSlot k f d).evt = d.evt := rfl
@[simp] theorem updSlot_ecc (k : Nat) (f : Slot → Slot) (d : Device) : (updSlot k f d).ecc = d.ecc := rfl
@[simp] theorem updSlot_nv (k : Nat) (f : Slot → Slot) (d : Device) : (updSlot k f d).nv = d.nv := rfl
@[simp] theorem updSlot_gen (k : Nat) (f : Slot → Slot) (d : Device) : (updSlot k f d).gen = d.gen := rfl
@[simp] theorem updSlot_bus (k : Nat) (f : Slot → Slot) (d : Device) : (updSlot k f d).bus = d.bus := rfl
@[simp] theorem updSlot_draws (k : Nat) (f : Slot → Slot) (d : Device) : (updSlot k f d).draws = d.draws := rfl
@[simp] theorem updSlot_regs (k : Nat) (f : Slot → Slot) (d : Device) : (updSlot k f d).regs = d.regs := rfl

/-! ### putRead -/

@[simp] theorem putRead_pacing (v : Word32) (d : Device) : (putRead v d).pacing = d.pacing := rfl
@[simp] theorem putRead_avs (v : Word32) (d : Device) : (putRead v d).avs = d.avs := rfl
@[simp] theorem putRead_exc (v : Word32) (d : Device) : (putRead v d).exc = d.exc := rfl
@[simp] theorem putRead_servo (v : Word32) (d : Device) : (putRead v d).servo = d.servo := rfl
@[simp] theorem putRead_motion (v : Word32) (d : Device) : (putRead v d).motion = d.motion := rfl
@[simp] theorem putRead_rdc (v : Word32) (d : Device) : (putRead v d).rdc = d.rdc := rfl
@[simp] theorem putRead_wrc (v : Word32) (d : Device) : (putRead v d).wrc = d.wrc := rfl
@[simp] theorem putRead_rcl (v : Word32) (d : Device) : (putRead v d).rcl = d.rcl := rfl
@[simp] theorem putRead_cry (v : Word32) (d : Device) : (putRead v d).cry = d.cry := rfl
@[simp] theorem putRead_cch (v : Word32) (d : Device) : (putRead v d).cch = d.cch := rfl
@[simp] theorem putRead_lath (v : Word32) (d : Device) : (putRead v d).lath = d.lath := rfl
@[simp] theorem putRead_hif (v : Word32) (d : Device) : (putRead v d).hif = d.hif := rfl
@[simp] theorem putRead_icu (v : Word32) (d : Device) : (putRead v d).icu = d.icu := rfl
@[simp] theorem putRead_pwr (v : Word32) (d : Device) : (putRead v d).pwr = d.pwr := rfl
@[simp] theorem putRead_lsk (v : Word32) (d : Device) : (putRead v d).lsk = d.lsk := rfl
@[simp] theorem putRead_fio (v : Word32) (d : Device) : (putRead v d).fio = d.fio := rfl
@[simp] theorem putRead_fls (v : Word32) (d : Device) : (putRead v d).fls = d.fls := rfl
@[simp] theorem putRead_evt (v : Word32) (d : Device) : (putRead v d).evt = d.evt := rfl
@[simp] theorem putRead_ecc (v : Word32) (d : Device) : (putRead v d).ecc = d.ecc := rfl
@[simp] theorem putRead_nv (v : Word32) (d : Device) : (putRead v d).nv = d.nv := rfl
@[simp] theorem putRead_gen (v : Word32) (d : Device) : (putRead v d).gen = d.gen := rfl
@[simp] theorem putRead_draws (v : Word32) (d : Device) : (putRead v d).draws = d.draws := rfl
@[simp] theorem putRead_regs (v : Word32) (d : Device) : (putRead v d).regs = d.regs := rfl

/-! ### The queue and the outcome -/

@[simp] theorem effect_next (s : State) (f : Device → Device) : effect s f = .next { s with dev := f s.dev } := rfl

@[simp] theorem onlyIf_true (f : Device → Device) (d : Device) : onlyIf true f d = f d := rfl

@[simp] theorem onlyIf_false (f : Device → Device) (d : Device) : onlyIf false f d = d := rfl

/-- A command whose meaning is a change of the device completes with that change. -/
theorem completes_effect {c : Instr} {s : State} {P : Device → Prop} (f : Device → Device) (h : exec c s = effect s f) (p : P (f s.dev)) :
    Completes c s P := ⟨{ s with dev := f s.dev }, h, rfl, p⟩

end Sys2Proof.Machine
end

