-- ==== Sys2Proof/Tests/Slice0.lean ====
section
/-!
SUPPORT. Tests: ill-formed commands that `Instr.wf` refuses, worked cases and rules of the manual on single steps, and for every statement of
Certificates/Slice0/Obligations.lean, clause by clause, a state and operands that meet all of its hypotheses (`witness_<statement>_<clause>`,
the clauses numbered through in their order).
-/

namespace Sys2Proof.Tests

open Sys2Proof Sys2Proof.Machine

set_option maxRecDepth 4000
set_option linter.unusedVariables false

/-! ### States for the tests -/

/-- The device with no command waiting. -/
def atd (d : Device) : State := { pending := [], dev := d }
def wreg (o v : Nat) (d : Device) : Device := setReg o (BitVec.ofNat 32 v) d
def smp : ServoSample := { err := 0, sum := 0, aCmd := 0, vMeas := 0 }
def lad : LadderCluster := { id := 0, loc := ⟨0, 14, 0⟩, purpose := .host 0, parts := [(0, 0, 100)], psas := (List.range 18).map (· + 1000), sectors := [], reading := true, restored := [], boundLimited := [], step := 1, outer := [], rereads := 0, deep := [], asked := [], held := none, again := [], bad := [], ended := none, done := false }
def ladS : LadderCluster := { lad with sectors := [(0, .stored)] }
def ladL : LadderCluster := { lad with sectors := (List.range 18).map fun i => (i, if i < 3 then .lost false else .decoded []) }
def ladD : LadderCluster := { lad with sectors := (List.range 18).map fun i => (i, if i < 3 then .lost true else .decoded []) }
def ladE : LadderCluster := { lad with sectors := [(0, .decoded [1])] }
def rfr : Refresh := { id := 0, loc := ⟨0, 14, 0⟩, sectors := [], peer := false }
def wcl : WriteCluster := { id := 0, owner := 1, ring := 1, kind := .sealCheckpoint, loc := ⟨0, 14, 0⟩, pass := 0, ringCtr := 0, relocated := none, relocations := 0, groups := [], refresh := none, aux := 0, data := [], begins := [], ends := [], dir := [], dirRings := [], sectors := [] }
def wclW : WriteCluster := { wcl with sectors := [(0, { st := .written })] }
def wclF : WriteCluster := { wcl with sectors := [(0, { st := .failed, retries := 2 })] }
def wclI : WriteCluster := { wcl with sectors := [(0, { st := .interrupted, retries := 3 })] }
def wpsa : Nat := mkPsa 0 14 0
def zn (k : Nat) : Zone := { layer := 0, zone := k, pass := 3, entered := 1, openHeads := [] }
def asm : Assembly := { id := 4, bytes := [1, 2], entries := [(5, 0, 0)], begins := [0], ends := [], groups := [], since := 0 }
def scan : RecoveryScan := { headers := [], clusters := [] }
def rend : RingEnd := { sealFound := true, fills := [] }
def sysS : SystemScan := { headers := [], dirs := [], openings := [], free := [], defects := [], moved := [], spares := [], ctr := 0, bootPass := [], actA := none, actB := none }
def crd : Credits := { control := 3, data := 1 }
def grp : Machine.Group := { id := 0, stream := 5, owner := 1, first := 2, count := 1, recs := [⟨2, 0, 64⟩], bytes := [], pieces := [⟨0, 0, 64, 0, some ⟨0, 14, 7⟩⟩], left := [], role := .recovered, st := .committed, peerDone := false, peerOvr := false, chain := 0, sent := false }
def bs8 (l : List Nat) : List Byte := l.map (BitVec.ofNat 8)
def ent (op sgl cid dptr dlen : Nat) (param : List Nat) : List Byte :=
  leBytes 1 op ++ leBytes 1 sgl ++ leBytes 2 cid ++ leBytes 4 0 ++ leBytes 8 dptr ++ leBytes 4 dlen ++ leBytes 2 0 ++ leBytes 2 0 ++ padTo 40 0 (bs8 param)
def cm (e : List Byte) : Cmd := { tag := 0, sq := 0, index := 0, entry := e, phase := .dispatched, started := false, ovr := false, owner := 1, sgl := [(0x50000, eDlen e)], group := none, payload := [], poisoned := false, records := 0, discard := false }
def cmA : Cmd := { cm (ent 1 0 9 0x60000 200 [5, 0]) with phase := .admission }
def srec : SlotRecord := { state := 1, keygen := 2, flags := 0, quota := 2, createTick := 0, wrapped := 0 }
def comm : Commission := { scalar := 1, tag := none, peerPoint := none, pairKey := none, code := 7, readyAt := 0, localConfirmed := none, peerConfirmed := false, peerKeys := false }
def commK : Commission := { comm with pairKey := some 1 }
def tline (k : Nat) (c : Coh) : Line := { valid := true, table := true, addr := k, coh := c, recs := [(3, { owner := 1, st := .open, issued := 4 })] }
def sline : Line := { valid := true, addr := 77, owner := 1, pass := 3, block := [1] }
def blk : AttachBlock := { twinId := 1, mode := .undercoat, paired := true, serial := 0, fingerprint := 0, cartSerial := 0 }
def exch : Exchange := { xid := 3, catching := false, owner := 1, mark := 5, units := 3, received := [(0, [1])], poisoned := false, group := none }
def exchC : Exchange := { exch with catching := true }
def grpL : Machine.Group := { grp with role := .leader 0, st := .open, sent := true }
def grpF : Machine.Group := { grp with role := .follower 3, st := .open }
def gapr : GapRead := { tag := 0, stream := 5, seq := 2, firstUnit := 0, room := 10000, xid := 3, units := [], got := [] }
def pg (tails heads : List Nat) : List Byte := padTo 64 0 [] ++ padTo 32 0 (tails.flatMap (leBytes 4)) ++ padTo 32 0 (heads.flatMap (leBytes 4))
def cmP : Cmd := { cm (ent 1 0 9 0x60000 200 [5, 0]) with phase := .payload }
def cmS : Cmd := { cm (ent 1 1 9 0x60000 200 [5, 0]) with phase := .scatter }
def cpl : Completion := { tag := 0, sq := 0, cid := 9, opcode := 1, status := 0, result := 5, single := false, ovr := false, poison := false, noCoalesce := false, mark := 0 }
def mk5 : List Nat := ((List.range 8).map fun i => markOf 5 2 / 256 ^ i % 256)
def cmR : Cmd := cm (ent 2 0 9 0x60000 4096 mk5)
def cmRR : Cmd := cm (ent 3 0 9 0x60000 32 (mk5 ++ [2]))
def cmAp : Cmd := cm (ent 1 0 9 0x60000 128 [5, 0])
def recd (len : Nat) : List Byte := padTo len 0x11 ([0x55, 0x56, 1, 0].map (BitVec.ofNat 8) ++ leBytes 4 len)
def cmApP : Cmd := { cmAp with payload := recd 128, started := true }
def cmApX : Cmd := { cmAp with payload := [1], poisoned := true, started := true }
def grpB : Machine.Group := { grp with recs := [⟨2, 0, 128⟩] }
def cmRB : Cmd := cm (ent 3 0 9 0x60000 64 (mk5 ++ [2]))
def cmd (op sgl dptr dlen : Nat) (param : List Nat) : Cmd := cm (ent op sgl 9 dptr dlen param)
def cmN (op dlen : Nat) (param : List Nat) : Cmd := cm (ent op 0 9 (if dlen = 0 then 0 else 0x60000) dlen param)
def cart2 : Cartridge := { k6 := true, format := 2, serial := 5, zoneDone := [] }
def pwi : PowerOnInputs := { checkerFail := 0, selfTestUs := 0, comparatorOk := true, imageAValid := true, imageBValid := true, cartMemory := none, system := sysS, pacingFault := false }
def cal : Calibration := { saved := [], strat := [(3, 4)], laserMax := 500, laserSeconds := 0, revolutions := 0 }
def k6mem (fmt : Nat) : List Byte := let b := bs8 [0x36, 0x4B, fmt, 0, 0, 0, 0, 0, 7] ++ List.replicate 115 0; b ++ leBytes 4 (crc32c b).toNat
def hdr : List Byte := let h := bs8 [0x46, 0x58, 0x46, 0x57] ++ List.replicate 52 0 ++ leBytes 4 (crc32c []).toNat; h ++ leBytes 4 (crc32c h).toNat
def img : List Byte := hdr ++ List.replicate 192 0xFF ++ List.replicate 1024 0xFF
theorem imageGood_img : imageGood img = true := by decide +kernel
theorem updateErr_img (d : Device) (h : d.gen.mode = .dustSheet) (p : d.pwr.st = .armed) (t : (bootSlot d d.gen.fwSource).st = 1)
    (g : (bootSlot d d.gen.fwSource).digest = Config.sha256 img) : updateErr img true d = 0 := by
  simp [updateErr, h, p, t, g, imageGood_img]
/-- The device after one command. -/
def after (c : Instr) (d : Device) : Device :=
  match exec c (atd d) with
  | .next t => t.dev
  | _ => d

/-! ### Well-formedness refuses (operand ranges of the rows) -/

theorem test_wf_refuses_host :
    ([.ownerExportKey 0 (.ok []), .runSelftest 0 0 true 16384, .readHeader 0 (some []), .doorbellPollReturn (.ok []), .entryFetched (.ok []), .coalesceTimerExpiry 8] : List Instr).all (fun c => !c.wf) = true := by
  decide

theorem test_wf_refuses_link :
    ([.linkUp 3 1, .linkUp 1 0, .linkUp 2 4, .registerWrite .mgmt 24 0 0, .registerWrite .mgmt 32 0x20000 0, .rcFieldRead .host 32 0x20000, .rcFieldRead .host 24 0, .bar0ReadInRetention 32 0x20000, .msixTableWrite 512 0, .msixTableWrite 2 0] : List Instr).all (fun c => !c.wf) = true := by
  decide

theorem test_wf_refuses_servo :
    ([.boundsChange 0, .boundsChange 8, .excursionReturn 0, .excursionReturn 8, .loopSample 4 smp, .loopComputeDone 4 0, .loopComputeDone 0 8, .loopOutputInstant 4, .loopOpen .mgmt 4, .loopHold .mgmt 4, .loopClose .mgmt 4, .loopAcquire .mgmt 4, .discardShadow .mgmt 4, .acqTimeout 4, .holdTimeout 4, .coefLiveWrite .mgmt 4 0 0, .coefLiveWrite .mgmt 0 19 0, .coefShadowWrite .mgmt 4 0 0, .coefShadowWrite .mgmt 0 19 0] : List Instr).all (fun c => !c.wf) = true := by
  decide

theorem test_wf_refuses_channels :
    ([.sectorSync (2 ^ 48) true [], .sectorSync 0 true [.adapt []], .fastDecodeDone (2 ^ 48) 0, .deepIterationDone (2 ^ 48) 1 0, .deepIterationDone 0 0 0, .deepIterationDone 0 5 0, .egressDecryptDone (2 ^ 48) true [] false, .egressDecryptDone 0 true (List.replicate 4097 0) false, .rawResult (2 ^ 48) 0 0 true, .inPlaceRetry (2 ^ 48) false, .writeInhibit 10, .staticOpc 6 0, .staticOpc 0 4, .dataFieldEnd (2 ^ 48) [], .readFifoHighWater [.adapt []], .sectorWriteStart (2 ^ 48) (some 1) true] : List Instr).all (fun c => !c.wf) = true := by
  decide +kernel

theorem test_wf_refuses_record_layer :
    ([.assemblyDelayExpiry 16, .zoneEntry 16, .nextZoneNaming 16, .recoveryPhaseA 16 scan, .recoveryPhaseA 0 { headers := [(2 ^ 48, default)], clusters := [] }, .recoveryPhaseB 16, .cacheSramError 72 0, .tableLineBusyClear 16] : List Instr).all (fun c => !c.wf) = true := by
  decide

theorem test_wf_refuses_messages :
    ([.rd { control := 33, data := 0 } 0, .rd { control := 0, data := 9 } 0, .rd crd 16, .own crd 16, .upg crd 16, .none crd 16 .s, .evicting crd 16, .evict crd 16, .evictAck crd 16, .data crd 16 .s [] 0, .evictD crd 16 [] 0, .cleanD crd 16 [] 0, .tableXfer crd 16 [] 0, .credit { control := 33, data := 0 }, .detach crd 2, .detachAck { control := 33, data := 0 }, .modeNote { control := 33, data := 0 } .primer false] : List Instr).all (fun c => !c.wf) = true := by
  decide

theorem test_wf_refuses_table_records :
    ([.data crd 0 .s [(32, { owner := 1, st := .open })] 0, .data crd 0 .s [(1, { owner := 1, st := .open }), (0, { owner := 1, st := .open })] 0, .data crd 0 .s [(0, { owner := 16, st := .open })] 0, .data crd 0 .s [(0, { owner := 1, st := .open, home := 2 })] 0, .data crd 0 .s [(0, { owner := 1, st := .open, issued := 2 ^ 48 })] 0, .data crd 0 .s [(0, { owner := 1, st := .open, head := 2 ^ 48 })] 0, .data crd 0 .s [(0, { owner := 1, st := .open, tail := 2 ^ 48 })] 0] : List Instr).all (fun c => !c.wf) = true := by
  decide

theorem test_wf_refuses_mirroring :
    ([.appBegin crd 16 0 0 1, .appBegin crd 0 16 0 1, .appBegin crd 0 0 (2 ^ 64) 1, .catchBegin crd 16 0 0 1, .appData crd 16 0 [] 0, .appData crd 0 0 (List.replicate 4097 0) 0, .recovData crd 16 0 [] 0, .catchData crd 16 0 [] 0, .appVerified crd 16 0 false, .appFailed crd 0 0 (2 ^ 16), .catchFailed crd 16 0 0, .appAbort crd 16 0, .recovReq crd 0 0 (2 ^ 16), .catchDone crd 16 0, .chainReq crd (2 ^ 64), .chainVal crd (2 ^ 64) 0] : List Instr).all (fun c => !c.wf) = true := by
  decide +kernel

theorem test_wf_refuses_pairing :
    ([.ownerNote crd 16, .ownerDone crd 16 0, .ownerDone crd 0 256, .pulseSync crd (2 ^ 32) 0 0 0, .pulseSync crd 0 11 0 0, .pulseSync crd 0 0 16 0, .pulseSync crd 0 0 0 16, .pairPoint crd [], .pairConfirm crd 1000000 false, .pairConfirmAck { control := 33, data := 0 } true, .hello crd { blk with twinId := 2 }, .helloAck crd { blk with twinId := 2 }, .keyXfer crd 16 srec, .keyXfer crd 0 { srec with keygen := 256 }, .keyXfer crd 0 { srec with quota := 2 ^ 16 }, .cartReg crd (List.replicate 65 1)] : List Instr).all (fun c => !c.wf) = true := by
  decide

theorem test_wf_refuses_power_safety :
    ([.resetLevelTrip { pwi with cartMemory := some [] }, .stackMonitorCycle [0] 0 0 0 [0, 0, 0, 0, 0, 0, 0], .stackMonitorCycle [0, 0, 0, 0, 0, 0] 0 0 0 [], .dischargeTestDone 0 0, .testPulseWindow 4, .pulseSampleInstant 4 0, .outputOvercurrent 4 true, .outputRetry 4 true, .fieldInputChange 4 true 25] : List Instr).all (fun c => !c.wf) = true := by
  decide

theorem test_wf_refuses_memories_interrupts :
    ([.flashRead 262144 [], .flashScrub 2048 [], .flashRefresh 2048, .eventLogWrite 256 0 0 [], .eventLogWrite 1 256 0 (List.replicate 12 0), .eventLogWrite 1 0 (2 ^ 16) (List.replicate 12 0), .eventLogWrite 1 0 0 [], .sramScrub 10 0 0 0 true true, .poisonConsumed 11 0 true, .zeroWord .mgmt 4, .icuClaim .mgmt 2, .icuComplete .mgmt 2 0, .maskSet .mgmt 8 0, .maskClr .mgmt 8 0, .pendSet .mgmt 8 0, .pendClr .mgmt 8 0, .thresholdWrite .mgmt 3 0, .srcCfgWrite .mgmt 256 0, .wakeSlotWrite .mgmt 16 0, .wakeDetect 256 true] : List Instr).all (fun c => !c.wf) = true := by
  decide

theorem test_wf_refuses_start_up :
    ([.powerOnReset { pwi with cartMemory := some [] }, .powerOnReset { pwi with system := { pwi.system with dirs := [{ place := 0, pass := 1, ctr := 1, verified := true, slots := [], rings := [{ owner := 16, zones := [], cur := none, next := none }] }] } }, .powerOnReset { pwi with system := { pwi.system with dirs := [{ place := 0, pass := 1, ctr := 1, verified := true, slots := [], rings := [{ owner := 1, zones := [(0, 64, 1)], cur := none, next := none }] }] } }, .cartridgeSeated [] pwi.system, .fwUpdateDone [] true { pwi with cartMemory := some [] }] : List Instr).all (fun c => !c.wf) = true := by
  decide

theorem test_wf_takes : ([.linkUp 2 3, .loopSample 3 smp, .coefLiveWrite .mgmt 3 18 0, .rd crd 15, .zeroWord .mgmt 8] : List Instr).all Instr.wf = true := by
  decide

/-! ### Worked cases and rules of the manual -/

/-- Scope and conventions: stream 5, sequence 1,000. -/
theorem test_mark : markOf 5 1000 = 0x02800000000003E8 := by decide

/-- Owners: L2 zone 40, frame index 136,805. -/
theorem test_psa : mkPsa 2 40 136805 = 0x540000021665 := by decide

/-- Cache: two steps of the LFSR from 0xACE1. -/
theorem test_lfsr : (lfsrStep 0xACE1, lfsrStep (lfsrStep 0xACE1)) = (0x5670, 0xAB38) := by decide

/-- Write channel: PW_CAL 240 at trims +60 and +80. -/
theorem test_write_power : ((writePowers 240 60).1, (writePowers 240 80).1) = (254, 259) := by decide

/-- Timing: a window whose lowest slack is 48 units, below 64, takes the code from 10 to 11. -/
theorem test_avs_step :
    (after .avsWindowEnd (({} : Device) |> fun d => { d with avs := { d.avs with focusClosedOnce := true, code := 10, low := some 48 } }
      |> fun d => { d with pacing := { d.pacing with now := 1000 } })).avs.code = 11 := by
  decide

/-- Servo: the write of 0x000E_0000 to COEF_LIVE[1][0] in CLOSED is rejected, REJECT is 1 and source 41 is raised. -/
theorem test_coef_rejected :
    let d := after (.coefLiveWrite .mgmt 1 0 0x000E0000) (({} : Device) |> updLoop 1 fun l => { l with st := .closed })
    d.reg 0x8200 = 0 ∧ d.regF 0x8318 15 8 = 1 ∧ (d.src 41).pending = true := by
  decide

/-- Servo: the write of 0x00F8_0000 to COEF_SHADOW[1][8] reaches 0x0_82A0 and sets SHADOW_VALID. -/
theorem test_coef_shadow :
    let d := after (.coefShadowWrite .mgmt 1 8 0x00F80000) (({} : Device) |> updLoop 1 fun l => { l with st := .closed })
    d.reg 0x82A0 = 0x00F80000 ∧ (d.loop 1).shadowValid = true := by
  decide

/-- Sled: at count 0x0400_1200 the armed ratio −1,491 takes the place of +1,491. -/
theorem test_gear_flip :
    let d := after (.encoderEdge 3) (({} : Device)
      |> (fun d => { d with motion := { d.motion with st := .geared, armed := true, armedNext := 0xFFFFFA2D, armedTrigger := 0x04001200, masterPos := 0x040011FF } })
      |> wreg 0x9030 0x000005D3)
    d.motion.masterPos = 0x04001200 ∧ d.reg 0x9030 = 0xFFFFFA2D ∧ d.motion.armed = false := by
  decide

/-- Host rings: SQ_CFG 0x8331_0100 enables an SQ of owner 3 and CQ1 with 256 entries, and the lock starts it. -/
theorem test_setup_lock :
    let d := after .setupLock (({} : Device) |> wreg 0x1004 0x3000 |> wreg 0x1008 1 |> wreg 0x2104 1 |> wreg 0x2108 0xC0000040
      |> wreg 0x2124 1 |> wreg 0x2128 0xC0010100 |> wreg 0x2004 1 |> wreg 0x2008 0x80000040 |> wreg 0x2020 0x10000 |> wreg 0x2024 1
      |> wreg 0x2028 0x83310100)
    (d.sq 1).st = .running ∧ (d.cq 1).st = .running ∧ d.hif.lockOk = true ∧ ringOwner d 1 = 3 ∧ cqOf d 1 = 1 ∧ sqSize d 1 = 256 := by
  decide

/-- Host rings: a poll that finds nothing doubles the interval from 125 ticks to 250. -/
theorem test_poll_doubles :
    (after (.doorbellPollReturn (.ok (List.replicate 128 0)))
      (({} : Device) |> fun d => { d with hif := { d.hif with polling := true, interval := 125 } })).hif.interval = 250 := by
  decide

/-- R374, Table 14-2: VIN_WARN in ARMED begins the ride-through. -/
theorem test_ride_through :
    (after .vinWarnAssert (({} : Device) |> fun d => { d with pwr := { d.pwr with st := .armed } })).pwr.st = .rideThrough := by
  decide

/-- R481: the management pair's latch, not the host's, takes the upper half. -/
theorem test_tick_latch :
    let d := after (.tickLoRead .mgmt) (({} : Device) |> fun d => { d with pacing := { d.pacing with now := 0x500000009 } })
    d.pacing.hiMgmt = 5 ∧ d.pacing.hiHost = 0 ∧ d.bus.readData = 9 := by
  decide

/-- R33: an empty queue is one tick; a waiting command runs in its place. -/
theorem test_step :
    (match step State.reset with | .next t => t.dev.pacing.now | _ => 7) = 1 := by
  decide

/-! ### Witnesses, clause by clause -/

theorem witness_AvsAndPacingFollowTheirBounds_1 : ∃ (s : State),
    s.dev.avs.windowStart + 1000 ≤ s.dev.now ∧ avsHeld s.dev = false ∧ onExcursion s.dev 1 = false :=
  ⟨atd (({} : Device) |> (fun d => { d with avs := { d.avs with focusClosedOnce := true, low := some 500, runAbove := 15 } }) |> (fun d => { d with pacing := { d.pacing with now := 1000000 } }) |> (fun d => { d with avs := { d.avs with windowStart := 0 } })), ⟨by decide, by decide, by decide⟩⟩

theorem witness_AvsAndPacingFollowTheirBounds_2 : ∃ (s : State),
    avsHeld s.dev = false ∧ onExcursion s.dev 1 = false ∧ (avsBounds s.dev).1 ≤ (avsBounds s.dev).2 :=
  ⟨atd (({} : Device) |> (fun d => { d with avs := { d.avs with focusClosedOnce := true } })), ⟨by decide, by decide, by decide⟩⟩

theorem witness_AvsAndPacingFollowTheirBounds_3 : ∃ (s : State),
    onExcursion s.dev 7 = false ∧ (trimBounds s.dev).1 ≤ (trimBounds s.dev).2 :=
  ⟨atd (({} : Device)), ⟨by decide, by decide⟩⟩

theorem witness_AvsAndPacingFollowTheirBounds_4 : ∃ (s : State),
    onExcursion s.dev 5 = false ∧ s.dev.hif.lockOk = true ∧ (pollBounds s.dev).1 ≤ (pollBounds s.dev).2 :=
  ⟨atd (({} : Device) |> (fun d => { d with hif := { d.hif with lockOk := true } })), ⟨by decide, by decide, by decide⟩⟩

theorem witness_AvsAndPacingFollowTheirBounds_5 : ∃ (s : State) (loop : Nat),
    2 ≤ loop ∧ loop ≤ 7 ∧ onExcursion s.dev loop = true ∧ excSafe s.dev loop = true :=
  ⟨atd (({} : Device) |> (fun d => { d with exc := { d.exc with active := [(2, 1)] } })), 2, ⟨by decide, by decide, by decide, by decide⟩⟩

theorem witness_AvsAndPacingFollowTheirBounds_6 : ∃ (s : State) (t : Nat),
    s.dev.avs.settleAt = some t ∧ t ≤ s.dev.now :=
  ⟨atd (({} : Device) |> (fun d => { d with avs := { d.avs with settleAt := some 0 } })), 0, ⟨by decide, by decide⟩⟩

theorem witness_AvsAndPacingFollowTheirBounds_7 : ∃ (s : State),
    s.dev.pacing.fault = false :=
  ⟨atd (({} : Device) |> (fun d => { d with pacing := { d.pacing with fault := false } })), by decide⟩

theorem witness_AvsAndPacingFollowTheirBounds_8 : ∃ (s : State) (n : Nat),
    s.dev.pacing.fault = false ∧ ((n < 24750 ∨ 25250 < n)) :=
  ⟨atd (({} : Device) |> (fun d => { d with pacing := { d.pacing with fault := false } })), 24749, ⟨by decide, by decide⟩⟩

theorem witness_AvsAndPacingFollowTheirBounds_9 : ∃ (s : State) (n : Nat),
    24750 ≤ n ∧ n ≤ 25250 :=
  ⟨atd (({} : Device)), 25250, ⟨by decide, by decide⟩⟩

theorem witness_TickLoLatchesTheUpperHalf_1 : ∃ (s : State) (who : Requester),
    masterUp who s.dev = true :=
  ⟨atd (({} : Device)), .mgmt, by decide⟩

theorem witness_TickLoLatchesTheUpperHalf_2 : ∃ (s : State) (who : Requester),
    masterUp who s.dev = true :=
  ⟨atd (({} : Device)), .mgmt, by decide⟩

theorem witness_LoopsAwaitCommandsAndLeaveInTime_1 : ∃ (s : State) (who : Requester) (n : Nat),
    who ≠ .host ∧ masterUp who s.dev = true ∧ n < 4 :=
  ⟨atd (({} : Device)), .mgmt, 3, ⟨by decide, by decide, by decide⟩⟩

theorem witness_LoopsAwaitCommandsAndLeaveInTime_2 : ∃ (s : State) (who : Requester) (n : Nat),
    who ≠ .host ∧ masterUp who s.dev = true ∧ n < 4 :=
  ⟨atd (({} : Device)), .mgmt, 3, ⟨by decide, by decide, by decide⟩⟩

theorem witness_LoopsAwaitCommandsAndLeaveInTime_3 : ∃ (s : State) (who : Requester) (n : Nat),
    who ≠ .host ∧ masterUp who s.dev = true ∧ n < 4 :=
  ⟨atd (({} : Device)), .mgmt, 3, ⟨by decide, by decide, by decide⟩⟩

theorem witness_LoopsAwaitCommandsAndLeaveInTime_4 : ∃ (s : State) (who : Requester) (n : Nat),
    who ≠ .host ∧ masterUp who s.dev = true ∧ n < 4 :=
  ⟨atd (({} : Device)), .mgmt, 3, ⟨by decide, by decide, by decide⟩⟩

theorem witness_LoopsAwaitCommandsAndLeaveInTime_5 : ∃ (s : State) (who : Requester) (n : Nat),
    who ≠ .host ∧ masterUp who s.dev = true ∧ n < 4 :=
  ⟨atd (({} : Device)), .mgmt, 3, ⟨by decide, by decide, by decide⟩⟩

theorem witness_LoopsAwaitCommandsAndLeaveInTime_6 : ∃ (s : State) (n : Nat),
    n < 4 ∧ acqExpired s.dev n = true ∧ ((n = 0 → s.dev.servo.targetLayer = none)) :=
  ⟨atd (({} : Device) |> (updLoop 0 fun x => { x with st := .acquire, acqSamples := 1000000 }) |> (fun d => { d with servo := { d.servo with targetLayer := none } })), 0, ⟨by decide, by decide, by decide⟩⟩

theorem witness_LoopsAwaitCommandsAndLeaveInTime_7 : ∃ (s : State) (n : Nat),
    n < 4 ∧ sampleInstant s.dev n = true ∧ holdExpired s.dev n = true :=
  ⟨atd (({} : Device) |> (updLoop 3 fun x => { x with st := .hold, holdSamples := 1000000, sampledAt := none }) |> (fun d => { d with pacing := { d.pacing with now := 2080 } })), 3, ⟨by decide, by decide, by decide⟩⟩

theorem witness_LoopsAwaitCommandsAndLeaveInTime_8 : ∃ (s : State),
    lossDue s.dev = true :=
  ⟨atd (({} : Device) |> (updLoop 0 fun x => { x with st := .closed, lossRun := 255 }) |> wreg 0x810C 0x100), by decide⟩

theorem witness_CoefficientWritesFollowTheLoopState_1 : ∃ (s : State) (who : Requester) (n : Nat) (k : Nat) (v : Word32),
    ((who = .host → s.dev.hif.lock = false)) ∧ masterUp who s.dev = true ∧ n < 4 ∧ k < 19 ∧ s.dev.gen.mode ≠ .primer ∧ (s.dev.loop n).st ≠ .closed :=
  ⟨atd (({} : Device) |> (fun d => { d with gen := { d.gen with mode := .undercoat } }) |> (updLoop 3 fun x => { x with st := .hold })), .mgmt, 3, 18, 0xFF000001, ⟨by decide, by decide, by decide, by decide, by decide, by decide⟩⟩

theorem witness_CoefficientWritesFollowTheLoopState_2 : ∃ (s : State) (who : Requester) (n : Nat) (k : Nat) (v : Word32),
    ((who = .host → s.dev.hif.lock = false)) ∧ masterUp who s.dev = true ∧ n < 4 ∧ k < 19 ∧ s.dev.gen.mode ≠ .primer :=
  ⟨atd (({} : Device) |> (fun d => { d with gen := { d.gen with mode := .undercoat } })), .mgmt, 3, 18, 0xFF000001, ⟨by decide, by decide, by decide, by decide, by decide⟩⟩

theorem witness_CoefficientWritesFollowTheLoopState_3 : ∃ (s : State) (who : Requester) (n : Nat) (k : Nat) (v : Word32),
    ((who = .host → s.dev.hif.lock = false)) ∧ masterUp who s.dev = true ∧ n < 4 ∧ k < 19 ∧ (s.dev.gen.mode = .primer ∨ (s.dev.loop n).st = .closed) :=
  ⟨atd (({} : Device) |> (updLoop 3 fun x => { x with st := .closed })), .mgmt, 3, 18, 0xFF000001, ⟨by decide, by decide, by decide, by decide, by decide⟩⟩

theorem witness_CoefficientWritesFollowTheLoopState_4 : ∃ (s : State) (who : Requester) (n : Nat) (k : Nat) (v : Word32),
    ((who = .host → s.dev.hif.lock = false)) ∧ masterUp who s.dev = true ∧ n < 4 ∧ k < 19 ∧ s.dev.gen.mode = .primer :=
  ⟨atd (({} : Device) |> (fun d => { d with gen := { d.gen with mode := .primer } })), .mgmt, 3, 18, 0xFF000001, ⟨by decide, by decide, by decide, by decide, by decide⟩⟩

theorem witness_SequencerRunsUnderItsWatchdog_1 : ∃ (s : State) (who : Requester),
    ((who = .host → s.dev.hif.lock = false)) ∧ masterUp who s.dev = true ∧ s.dev.servo.seqRun = false :=
  ⟨atd (({} : Device) |> (fun d => { d with servo := { d.servo with seqRun := false } })), .mgmt, ⟨by decide, by decide, by decide⟩⟩

theorem witness_SequencerRunsUnderItsWatchdog_2 : ∃ (s : State) (who : Requester),
    ((who = .host → s.dev.hif.lock = false)) ∧ masterUp who s.dev = true ∧ s.dev.servo.seqRun = true :=
  ⟨atd (({} : Device) |> (fun d => { d with servo := { d.servo with seqRun := true } })), .mgmt, ⟨by decide, by decide, by decide⟩⟩

theorem witness_SequencerRunsUnderItsWatchdog_3 : ∃ (s : State) (who : Requester),
    who ≠ .host ∧ masterUp who s.dev = true :=
  ⟨atd (({} : Device)), .mgmt, ⟨by decide, by decide⟩⟩

theorem witness_SequencerRunsUnderItsWatchdog_4 : ∃ (s : State),
    s.dev.servo.seqRun = true :=
  ⟨atd (({} : Device) |> (fun d => { d with servo := { d.servo with seqRun := true } })), by decide⟩

theorem witness_SequencerRunsUnderItsWatchdog_5 : ∃ (s : State),
    s.dev.servo.seqRun = true ∧ s.dev.servo.seqKick + 250000 ≤ s.dev.now ∧ s.dev.gen.mode ≠ .primer :=
  ⟨atd (({} : Device) |> (fun d => { d with servo := { d.servo with seqRun := true, seqKick := 0 } }) |> (fun d => { d with pacing := { d.pacing with now := 250000 } }) |> (fun d => { d with gen := { d.gen with mode := .undercoat } })), ⟨by decide, by decide, by decide⟩⟩

theorem witness_LoopsSampleComputeAndOutput_1 : ∃ (s : State) (n : Nat) (x : ServoSample) (t : Nat),
    n < 4 ∧ sampleInstant s.dev n = true ∧ (s.dev.loop n).st = .openZero ∧ (s.dev.loop n).cmd = some (.close, t) ∧ t + 1 ≤ s.dev.now ∧ s.dev.servo.script = none :=
  ⟨atd (({} : Device) |> (updLoop 3 fun x => { x with st := .openZero, cmd := some (.close, 0), sampledAt := none }) |> (fun d => { d with pacing := { d.pacing with now := 2080 } }) |> (fun d => { d with servo := { d.servo with script := none } })), 3, smp, 0, ⟨by decide, by decide, by decide, by decide, by decide, by decide⟩⟩

theorem witness_LoopsSampleComputeAndOutput_2 : ∃ (s : State) (n : Nat) (eighths : Nat) (j : ServoJob),
    n < 4 ∧ eighths < 8 ∧ s.dev.servo.engine = some (n, j) ∧ j.late = false ∧ j.cleared = false :=
  ⟨atd (({} : Device) |> (fun d => { d with servo := { d.servo with engine := some (2, { err := 5, aCmd := 1, vMeas := 2, t0 := 60, late := false, cleared := false, coefs := coefSet ({} : Device) 2 0 }) } }) |> (fun d => { d with pacing := { d.pacing with now := 100 } })), 2, 7, { err := 5, aCmd := 1, vMeas := 2, t0 := 60, late := false, cleared := false, coefs := coefSet ({} : Device) 2 0 }, ⟨by decide, by decide, by decide, by decide, by decide⟩⟩

theorem witness_LoopsSampleComputeAndOutput_3 : ∃ (s : State) (n : Nat) (y : ReadyOutput) (t : Nat),
    n < 3 ∧ n ≠ 0 ∧ outputTick s.dev n = true ∧ (s.dev.loop n).st = .closed ∧ (s.dev.loop n).due = some t ∧ (s.dev.loop n).ready = some y ∧ 0 ≤ y.slack :=
  ⟨atd (({} : Device) |> (updLoop 2 fun x => { x with st := .closed, due := some 60, ready := some ⟨5, true, 3⟩, outputAt := none }) |> (fun d => { d with pacing := { d.pacing with now := 560 } })), 2, ⟨5, true, 3⟩, 60, ⟨by decide, by decide, by decide, by decide, by decide, by decide, by decide⟩⟩

theorem witness_LoopsSampleComputeAndOutput_4 : ∃ (s : State) (n : Nat) (t : Nat),
    n < 3 ∧ n ≠ 0 ∧ outputTick s.dev n = true ∧ (s.dev.loop n).st = .closed ∧ (s.dev.loop n).due = some t ∧ (s.dev.loop n).ready = none :=
  ⟨atd (({} : Device) |> (updLoop 2 fun x => { x with st := .closed, due := some 60, ready := none, outputAt := none }) |> (fun d => { d with servo := { d.servo with engine := some (2, { err := 5, aCmd := 1, vMeas := 2, t0 := 60, late := false, cleared := false, coefs := [] }) } }) |> (fun d => { d with pacing := { d.pacing with now := 560 } })), 2, 60, ⟨by decide, by decide, by decide, by decide, by decide, by decide⟩⟩

theorem witness_LoopsSampleComputeAndOutput_5 : ∃ (s : State) (y : ReadyOutput) (t : Nat),
    outputTick s.dev 0 = true ∧ (s.dev.loop 0).st = .closed ∧ (s.dev.loop 0).due = some t ∧ (s.dev.loop 0).ready = some y ∧ 0 ≤ y.slack :=
  ⟨atd (({} : Device) |> (updLoop 0 fun x => { x with st := .closed, due := some 0, ready := some ⟨5, true, 0⟩, outputAt := none }) |> (fun d => { d with pacing := { d.pacing with now := 50 } }) |> (fun d => { d with servo := { d.servo with onTimeRun := 99 } })), ⟨5, true, 0⟩, 0, ⟨by decide, by decide, by decide, by decide, by decide⟩⟩

theorem witness_LoopsSampleComputeAndOutput_6 : ∃ (s : State) (t : Nat),
    outputTick s.dev 0 = true ∧ (s.dev.loop 0).st = .closed ∧ (s.dev.loop 0).due = some t ∧ (s.dev.loop 0).ready = none :=
  ⟨atd (({} : Device) |> (updLoop 0 fun x => { x with st := .closed, due := some 0, ready := none, outputAt := none }) |> (fun d => { d with pacing := { d.pacing with now := 50 } }) |> (fun d => { d with servo := { d.servo with focusMissed := true } })), 0, ⟨by decide, by decide, by decide, by decide⟩⟩

theorem witness_MotionCommandsFollowTheirStates_1 : ∃ (s : State) (who : Requester),
    who ≠ .host ∧ masterUp who s.dev = true ∧ s.dev.motion.st = .idle ∧ s.dev.motion.needHome = false ∧ (softLimits s.dev).1 ≤ (s.dev.reg 0x900C).toInt ∧ (s.dev.reg 0x900C).toInt ≤ (softLimits s.dev).2 :=
  ⟨atd (({} : Device) |> (fun d => { d with motion := { d.motion with st := .idle, needHome := false } }) |> wreg 0x901C 0x00010000 |> wreg 0x900C 1), .mgmt, ⟨by decide, by decide, by decide, by decide, by decide, by decide⟩⟩

theorem witness_MotionCommandsFollowTheirStates_2 : ∃ (s : State) (who : Requester),
    who ≠ .host ∧ masterUp who s.dev = true ∧ ((s.dev.motion.st = .unhomed ∨ s.dev.motion.st = .idle)) :=
  ⟨atd (({} : Device) |> (fun d => { d with motion := { d.motion with st := .unhomed } })), .mgmt, ⟨by decide, by decide, by decide⟩⟩

theorem witness_MotionCommandsFollowTheirStates_3 : ∃ (s : State) (who : Requester),
    who ≠ .host ∧ masterUp who s.dev = true ∧ ((s.dev.motion.st = .moving ∨ s.dev.motion.st = .geared ∨ (s.dev.motion.st = .idle ∧ s.dev.motion.needHome = false))) :=
  ⟨atd (({} : Device) |> (fun d => { d with motion := { d.motion with st := .idle, needHome := false } })), .mgmt, ⟨by decide, by decide, by decide⟩⟩

theorem witness_MotionCommandsFollowTheirStates_4 : ∃ (s : State) (who : Requester),
    who ≠ .host ∧ masterUp who s.dev = true ∧ ((s.dev.motion.st = .moving ∨ s.dev.motion.st = .geared)) :=
  ⟨atd (({} : Device) |> (fun d => { d with motion := { d.motion with st := .geared } })), .mgmt, ⟨by decide, by decide, by decide⟩⟩

theorem witness_MotionCommandsFollowTheirStates_5 : ∃ (s : State) (who : Requester),
    who ≠ .host ∧ masterUp who s.dev = true ∧ s.dev.motion.st = .fault :=
  ⟨atd (({} : Device) |> (fun d => { d with motion := { d.motion with st := .fault } })), .mgmt, ⟨by decide, by decide, by decide⟩⟩

theorem witness_MotionCommandsFollowTheirStates_6 : ∃ (s : State) (who : Requester),
    who ≠ .host ∧ masterUp who s.dev = true ∧ s.dev.motion.st ∉ [MotionState.idle, .moving, .geared] :=
  ⟨atd (({} : Device) |> (fun d => { d with motion := { d.motion with st := .unhomed } })), .mgmt, ⟨by decide, by decide, by decide⟩⟩

theorem witness_MotionCommandsFollowTheirStates_7 : ∃ (s : State) (who : Requester),
    who ≠ .host ∧ masterUp who s.dev = true ∧ s.dev.motion.st ∉ [MotionState.unhomed, .idle] :=
  ⟨atd (({} : Device) |> (fun d => { d with motion := { d.motion with st := .geared } })), .mgmt, ⟨by decide, by decide, by decide⟩⟩

theorem witness_MotionCommandsFollowTheirStates_8 : ∃ (s : State) (who : Requester),
    who ≠ .host ∧ masterUp who s.dev = true ∧ s.dev.motion.st = .fault :=
  ⟨atd (({} : Device) |> (fun d => { d with motion := { d.motion with st := .fault } })), .mgmt, ⟨by decide, by decide, by decide⟩⟩

theorem witness_MotionCommandsFollowTheirStates_9 : ∃ (s : State) (who : Requester),
    who ≠ .host ∧ masterUp who s.dev = true ∧ s.dev.motion.st ∉ [MotionState.moving, .homing, .geared] :=
  ⟨atd (({} : Device) |> (fun d => { d with motion := { d.motion with st := .idle } })), .mgmt, ⟨by decide, by decide, by decide⟩⟩

theorem witness_MotionCommandsFollowTheirStates_10 : ∃ (s : State) (who : Requester),
    who ≠ .host ∧ masterUp who s.dev = true ∧ ((s.dev.motion.st ≠ .idle ∨ (s.dev.loop 2).st ≠ .closed)) :=
  ⟨atd (({} : Device) |> (fun d => { d with motion := { d.motion with st := .geared } })), .mgmt, ⟨by decide, by decide, by decide⟩⟩

theorem witness_MotionCommandsFollowTheirStates_11 : ∃ (s : State) (who : Requester),
    who ≠ .host ∧ masterUp who s.dev = true ∧ s.dev.motion.st ≠ .geared :=
  ⟨atd (({} : Device) |> (fun d => { d with motion := { d.motion with st := .idle } })), .mgmt, ⟨by decide, by decide, by decide⟩⟩

theorem witness_MotionCommandsFollowTheirStates_12 : ∃ (s : State) (who : Requester),
    who ≠ .host ∧ masterUp who s.dev = true ∧ s.dev.motion.st ≠ .fault :=
  ⟨atd (({} : Device) |> (fun d => { d with motion := { d.motion with st := .idle } })), .mgmt, ⟨by decide, by decide, by decide⟩⟩

theorem witness_GearingFollowsTheEncoder_1 : ∃ (s : State) (who : Requester),
    who ≠ .host ∧ masterUp who s.dev = true ∧ s.dev.motion.st = .idle ∧ (s.dev.loop 2).st = .closed ∧ s.dev.motion.needHome = false :=
  ⟨atd (({} : Device) |> (fun d => { d with motion := { d.motion with st := .idle, needHome := false } }) |> (updLoop 2 fun x => { x with st := .closed })), .mgmt, ⟨by decide, by decide, by decide, by decide, by decide⟩⟩

theorem witness_GearingFollowsTheEncoder_2 : ∃ (s : State) (who : Requester),
    who ≠ .host ∧ masterUp who s.dev = true ∧ s.dev.motion.st = .geared :=
  ⟨atd (({} : Device) |> (fun d => { d with motion := { d.motion with st := .geared } })), .mgmt, ⟨by decide, by decide, by decide⟩⟩

theorem witness_GearingFollowsTheEncoder_3 : ∃ (s : State) (who : Requester),
    who ≠ .host ∧ masterUp who s.dev = true ∧ 0 < (s.dev.reg 0x9038 - s.dev.motion.masterPos).toInt :=
  ⟨atd (({} : Device) |> (fun d => { d with motion := { d.motion with masterPos := 0 } }) |> wreg 0x9038 1), .mgmt, ⟨by decide, by decide, by decide⟩⟩

theorem witness_GearingFollowsTheEncoder_4 : ∃ (s : State) (who : Requester),
    who ≠ .host ∧ masterUp who s.dev = true ∧ (s.dev.reg 0x9038 - s.dev.motion.masterPos).toInt ≤ 0 :=
  ⟨atd (({} : Device) |> (fun d => { d with motion := { d.motion with masterPos := 0 } }) |> wreg 0x9038 0), .mgmt, ⟨by decide, by decide, by decide⟩⟩

theorem witness_GearingFollowsTheEncoder_5 : ∃ (s : State) (who : Requester),
    who ≠ .host ∧ masterUp who s.dev = true :=
  ⟨atd (({} : Device)), .mgmt, ⟨by decide, by decide⟩⟩

theorem witness_GearingFollowsTheEncoder_6 : ∃ (s : State) (eighths : Nat),
    eighths < 8 ∧ ((∀ p, s.dev.servo.edgeAt = some p → p < 8 * s.dev.now + eighths)) ∧ s.dev.motion.st ≠ .geared ∧ s.dev.motion.engaging = false :=
  ⟨atd (({} : Device) |> (fun d => { d with motion := { d.motion with st := .idle, engaging := false } }) |> (fun d => { d with servo := { d.servo with edgeAt := none } })), 7, ⟨by decide, by decide, by decide, by decide⟩⟩

theorem witness_GearingFollowsTheEncoder_7 : ∃ (s : State) (eighths : Nat),
    eighths < 8 ∧ ((∀ p, s.dev.servo.edgeAt = some p → p < 8 * s.dev.now + eighths)) ∧ s.dev.motion.st = .geared ∧ s.dev.motion.armed = true ∧ s.dev.motion.armedLate = false ∧ s.dev.motion.masterPos + 1 = s.dev.motion.armedTrigger :=
  ⟨atd (({} : Device) |> (fun d => { d with motion := { d.motion with st := .geared, armed := true, armedLate := false, masterPos := 6, armedTrigger := 7, armedNext := 9 } }) |> (fun d => { d with servo := { d.servo with edgeAt := some 7 } }) |> (fun d => { d with pacing := { d.pacing with now := 1 } })), 1, ⟨by decide, by decide, by decide, by decide, by decide, by decide⟩⟩

theorem witness_GearingFollowsTheEncoder_8 : ∃ (s : State) (eighths : Nat),
    eighths < 8 ∧ s.dev.servo.edgeAt = none ∧ s.dev.servo.edgeInterval = none ∧ s.dev.motion.st = .geared ∧ s.dev.motion.armed = false ∧ s.dev.motion.armedLate = false ∧ s.dev.motion.clamped = false :=
  ⟨atd (({} : Device) |> (fun d => { d with motion := { d.motion with st := .geared, armed := false, armedLate := false, clamped := false, acc := 16777215, pos := 500 } }) |> (fun d => { d with servo := { d.servo with edgeAt := none, edgeInterval := none } }) |> wreg 0x9030 1), 0, ⟨by decide, by decide, by decide, by decide, by decide, by decide, by decide⟩⟩

theorem witness_MovesAdvanceByMicrosteps_1 : ∃ (s : State),
    s.dev.motion.st = .moving ∧ planDue s.dev.now s.dev.motion true = true :=
  ⟨atd (({} : Device) |> (fun d => { d with motion := { d.motion with st := .moving, pos := 0, goal := 1, plan := some { start := 0, x := 0, v := 0, a := 0, segs := [], rest := some unitsPerStep, cruise := 0 } } })), ⟨by decide, by decide⟩⟩

theorem witness_MovesAdvanceByMicrosteps_2 : ∃ (s : State),
    s.dev.motion.st = .moving ∧ planDue s.dev.now s.dev.motion false = true :=
  ⟨atd (({} : Device) |> (fun d => { d with motion := { d.motion with st := .moving, pos := 0, goal := -1, plan := some { start := 0, x := 0, v := 0, a := 0, segs := [], rest := some (-unitsPerStep), cruise := 0 } } })), ⟨by decide, by decide⟩⟩

theorem witness_MovesAdvanceByMicrosteps_3 : ∃ (s : State),
    s.dev.motion.st = .geared ∧ 0 < s.dev.motion.gearDue ∧ s.dev.motion.clamped = false :=
  ⟨atd (({} : Device) |> (fun d => { d with motion := { d.motion with st := .geared, pos := 500, gearDue := 1, clamped := false } })), ⟨by decide, by decide, by decide⟩⟩

theorem witness_MovesAdvanceByMicrosteps_4 : ∃ (s : State),
    s.dev.motion.st = .moving ∧ s.dev.motion.plannedAt + 250 ≤ s.dev.now ∧ s.dev.motion.plan = none :=
  ⟨atd (({} : Device) |> (fun d => { d with motion := { d.motion with st := .moving, plannedAt := 0, plan := none } }) |> (fun d => { d with pacing := { d.pacing with now := 250 } })), ⟨by decide, by decide, by decide⟩⟩

theorem witness_MovesAdvanceByMicrosteps_5 : ∃ (s : State),
    s.dev.motion.st = .moving ∧ s.dev.motion.pos = s.dev.motion.goal ∧ planOver s.dev.now s.dev.motion = true ∧ s.dev.motion.parking = false ∧ s.dev.motion.seeking = false :=
  ⟨atd (({} : Device) |> (fun d => { d with motion := { d.motion with st := .moving, pos := 3, goal := 3, parking := false, seeking := false, plan := none } })), ⟨by decide, by decide, by decide, by decide, by decide⟩⟩

theorem witness_MovesAdvanceByMicrosteps_6 : ∃ (s : State),
    s.dev.motion.st = .moving ∧ s.dev.motion.pos = s.dev.motion.goal ∧ planOver s.dev.now s.dev.motion = true ∧ s.dev.motion.parking = true :=
  ⟨atd (({} : Device) |> (fun d => { d with motion := { d.motion with st := .moving, pos := 3, goal := 3, parking := true, edgePos := some 2, plan := none } })), ⟨by decide, by decide, by decide, by decide⟩⟩

theorem witness_AbnormalStopsEndMotion_1 : ∃ (s : State),
    s.dev.motion.st = .emergency ∧ s.dev.motion.ramping = true ∧ s.dev.motion.rampSource = none ∧ s.dev.motion.parkAfterRamp = false ∧ planOver s.dev.now s.dev.motion = true :=
  ⟨atd (({} : Device) |> (fun d => { d with motion := { d.motion with st := .emergency, ramping := true, rampSource := none, parkAfterRamp := false, plan := none } })), ⟨by decide, by decide, by decide, by decide, by decide⟩⟩

theorem witness_AbnormalStopsEndMotion_3 : ∃ (s : State) (outer : Bool) (level : Bool) (held : Nat),
    held < 25 :=
  ⟨atd (({} : Device)), true, false, 24, by decide⟩

theorem witness_AbnormalStopsEndMotion_4 : ∃ (s : State) (held : Nat),
    s.dev.motion.st = .moving ∧ s.dev.motion.parking = false ∧ homeSw s.dev = false ∧ (s.dev.reg 0x9024).getLsbD 0 = false ∧ 25 ≤ held :=
  ⟨atd (({} : Device) |> (fun d => { d with motion := { d.motion with st := .moving, parking := false, homeLevel := true } }) |> wreg 0x9024 0), 25, ⟨by decide, by decide, by decide, by decide, by decide⟩⟩

theorem witness_AbnormalStopsEndMotion_5 : ∃ (s : State),
    homingOverrun s.dev.motion = true :=
  ⟨atd (({} : Device) |> (fun d => { d with motion := { d.motion with st := .homing, phaseHome := .inward, travel := 1000000, ramping := false } })), by decide⟩

theorem witness_ReadSamplesArriveOrAreLost_1 : ∃ (s : State) (psa : Nat) (flow : List Flow) (e : Device) (c : LadderCluster) (i : Nat),
    e = flowIn flow s.dev ∧ frameRead e psa (fun c i => c.reading && sectorAt c i = .unread && readPermitted e c) = some (c, i) ∧ e.rdc.stalled = false ∧ e.rdc.store.length < 24 ∧ LadderRests e :=
  ⟨atd (({} : Device) |> (fun d => { d with rdc := { d.rdc with clusters := [lad] } }) |> (fun d => { d with pwr := { d.pwr with st := .armed } }) |> (fun d => { d with rdc := { d.rdc with store := [], stalled := false, deepRun := none, deepQueue := [] } }) |> (fun d => { d with servo := { d.servo with fast := false } })), 1000, [.take], (flowIn [.take] (({} : Device) |> (fun d => { d with rdc := { d.rdc with clusters := [lad] } }) |> (fun d => { d with pwr := { d.pwr with st := .armed } }) |> (fun d => { d with rdc := { d.rdc with store := [], stalled := false, deepRun := none, deepQueue := [] } }) |> (fun d => { d with servo := { d.servo with fast := false } }))), lad, 0, ⟨rfl, by decide, by decide, by decide, by unfold LadderRests; decide⟩⟩

theorem witness_ReadSamplesArriveOrAreLost_2 : ∃ (s : State) (psa : Nat) (locked : Bool) (flow : List Flow) (e : Device) (c : LadderCluster) (i : Nat),
    e = flowIn flow s.dev ∧ frameRead e psa (fun c i => c.reading && sectorAt c i = .unread && readPermitted e c) = some (c, i) ∧ e.rdc.stalled = false ∧ 24 ≤ e.rdc.store.length ∧ LadderRests e :=
  ⟨atd (({} : Device) |> (fun d => { d with rdc := { d.rdc with clusters := [lad] } }) |> (fun d => { d with pwr := { d.pwr with st := .armed } }) |> (fun d => { d with rdc := { d.rdc with store := (List.range 24).map (fun k => { psa := k, entries := [] }), stalled := false, deepRun := none, deepQueue := [] } })), 1000, true, [], (flowIn [] (({} : Device) |> (fun d => { d with rdc := { d.rdc with clusters := [lad] } }) |> (fun d => { d with pwr := { d.pwr with st := .armed } }) |> (fun d => { d with rdc := { d.rdc with store := (List.range 24).map (fun k => { psa := k, entries := [] }), stalled := false, deepRun := none, deepQueue := [] } }))), lad, 0, ⟨rfl, by decide, by decide, by decide, by unfold LadderRests; decide⟩⟩

theorem witness_ReadSamplesArriveOrAreLost_3 : ∃ (s : State) (psa : Nat) (flow : List Flow) (e : Device) (c : LadderCluster) (i : Nat),
    e = flowIn flow s.dev ∧ frameRead e psa (fun c i => c.reading && sectorAt c i = .unread && readPermitted e c) = some (c, i) ∧ e.rdc.stalled = false ∧ e.rdc.store.length < 24 :=
  ⟨atd (({} : Device) |> (fun d => { d with rdc := { d.rdc with clusters := [lad] } }) |> (fun d => { d with pwr := { d.pwr with st := .armed } }) |> (fun d => { d with rdc := { d.rdc with store := [], stalled := false } })), 1000, [], (flowIn [] (({} : Device) |> (fun d => { d with rdc := { d.rdc with clusters := [lad] } }) |> (fun d => { d with pwr := { d.pwr with st := .armed } }) |> (fun d => { d with rdc := { d.rdc with store := [], stalled := false } }))), lad, 0, ⟨rfl, by decide, by decide, by decide⟩⟩

theorem witness_ReadSamplesArriveOrAreLost_4 : ∃ (s : State) (flow : List Flow) (e : Device),
    e = flowIn flow s.dev ∧ LadderRests e :=
  ⟨atd (({} : Device) |> (fun d => { d with rdc := { d.rdc with clusters := [], deepRun := none, deepQueue := [] } })), [.take], (flowIn [.take] (({} : Device) |> (fun d => { d with rdc := { d.rdc with clusters := [], deepRun := none, deepQueue := [] } }))), ⟨rfl, by unfold LadderRests; decide⟩⟩

theorem witness_ReadSamplesArriveOrAreLost_5 : ∃ (s : State) (v : BitVec 7) (env : Nat) (psa : Nat) (b : LineBit),
    LadderRests s.dev ∧ s.dev.rdc.defect = false ∧ 0 < s.dev.rdc.envelopes.length ∧ s.dev.regF 0xA008 7 0 = 0 ∧ s.dev.rdc.line.length = 510 ∧ s.dev.rdc.line.getLast? = some b ∧ b.psa = some psa ∧ s.dev.rdc.part.length = 7 ∧ s.dev.rdc.fifo.length = 95 :=
  ⟨atd (({} : Device) |> (fun d => { d with rdc := { d.rdc with clusters := [], deepRun := none, deepQueue := [], defect := false, run := [], guard := 0, envelopes := [5], line := List.replicate 510 { sample := 1, erased := true, psa := some 1000 }, part := List.replicate 7 { sample := 1, erased := true, psa := some 1000 }, fifo := List.replicate 95 { psa := 1000, word := 0 } } }) |> wreg 0xA008 0x40100000), 5, 7, 1000, { sample := 1, erased := true, psa := some 1000 }, ⟨by unfold LadderRests; decide, by decide, by decide, by decide, by decide, by decide, by decide, by decide, by decide⟩⟩

theorem witness_ReadSamplesArriveOrAreLost_6 : ∃ (s : State) (v : BitVec 7) (env : Nat) (psa : Nat) (b : LineBit),
    LadderRests s.dev ∧ s.dev.rdc.defect = false ∧ 0 < s.dev.rdc.envelopes.length ∧ s.dev.regF 0xA008 7 0 = 0 ∧ s.dev.rdc.line.length = 510 ∧ s.dev.rdc.line.getLast? = some b ∧ b.psa = some psa ∧ s.dev.rdc.part.length = 7 ∧ s.dev.rdc.fifo.length = 128 ∧ frameRead s.dev psa (fun c i => c.reading && sectorAt c i = .unread) = none :=
  ⟨atd (({} : Device) |> (fun d => { d with rdc := { d.rdc with clusters := [], deepRun := none, deepQueue := [], defect := false, run := [], guard := 0, envelopes := [5], line := List.replicate 510 { sample := 1, erased := true, psa := some 1000 }, part := List.replicate 7 { sample := 1, erased := true, psa := some 1000 }, fifo := List.replicate 128 { psa := 1000, word := 0 } } }) |> wreg 0xA008 0x40100000), 5, 7, 1000, { sample := 1, erased := true, psa := some 1000 }, ⟨by unfold LadderRests; decide, by decide, by decide, by decide, by decide, by decide, by decide, by decide, by decide, by decide⟩⟩

theorem witness_ReadSamplesArriveOrAreLost_7 : ∃ (s : State) (v : BitVec 7) (env : Nat),
    LadderRests s.dev ∧ s.dev.rdc.defect = true ∧ s.dev.rdc.locked = true ∧ s.dev.rdc.run = [] ∧ belowLevel s.dev env = true ∧ s.dev.rdc.defectLen = 64 * s.dev.regF 0xA008 31 24 ∧ s.dev.rdc.line.length < 510 :=
  ⟨atd (({} : Device) |> (fun d => { d with rdc := { d.rdc with clusters := [], deepRun := none, deepQueue := [], defect := true, locked := true, run := [], envelopes := [100], defectLen := 64, line := [] } }) |> wreg 0xA008 0x01102080), 5, 7, ⟨by unfold LadderRests; decide, by decide, by decide, by decide, by decide, by decide, by decide⟩⟩

theorem witness_ReadSamplesArriveOrAreLost_8 : ∃ (s : State) (v : BitVec 7) (env : Nat),
    LadderRests s.dev ∧ s.dev.rdc.defect = false ∧ belowLevel s.dev env = true ∧ s.dev.rdc.run.length + 1 = s.dev.regF 0xA008 15 8 ∧ s.dev.regF 0xA008 15 8 ≤ 64 * s.dev.regF 0xA008 31 24 ∧ s.dev.rdc.line.length < 510 :=
  ⟨atd (({} : Device) |> (fun d => { d with rdc := { d.rdc with clusters := [], deepRun := none, deepQueue := [], defect := false, run := List.replicate 31 7, envelopes := [100], line := List.replicate 100 { sample := 1, erased := false, psa := some 1000 } } }) |> wreg 0xA008 0x40102080), 5, 7, ⟨by unfold LadderRests; decide, by decide, by decide, by decide, by decide, by decide⟩⟩

theorem witness_ReadSamplesArriveOrAreLost_9 : ∃ (s : State) (v : BitVec 7) (env : Nat),
    LadderRests s.dev ∧ s.dev.rdc.defect = true ∧ belowLevel s.dev env = false ∧ s.dev.rdc.run.length = 15 ∧ s.dev.rdc.line.length < 510 :=
  ⟨atd (({} : Device) |> (fun d => { d with rdc := { d.rdc with clusters := [], deepRun := none, deepQueue := [], defect := true, run := List.replicate 15 100, envelopes := [100], line := [] } }) |> wreg 0xA008 0x40102080), 5, 100, ⟨by unfold LadderRests; decide, by decide, by decide, by decide, by decide⟩⟩

theorem witness_RecoveryLadderAndDeepDecoding_1 : ∃ (s : State) (psa : Nat) (flow : List Flow) (e : Device) (c : LadderCluster) (i : Nat) (x : StoreSlot),
    e = flowIn flow s.dev ∧ frameRead e psa (fun c i => c.reading && sectorAt c i = .unread) = some (c, i) ∧ e.rdc.store.find? (fun x => x.psa = psa) = some x ∧ 55488 ≤ 8 * x.entries.length ∧ erasedCode (erasedBits x.entries) ≤ e.regF 0xA004 29 16 ∧ tapsAtBound e e.rdc.taps = [] ∧ LadderRests e :=
  ⟨atd (({} : Device) |> (fun d => { d with rdc := { d.rdc with clusters := [lad], store := [{ psa := 1000, entries := List.replicate 6936 0 }], taps := List.replicate 15 0x700, deepRun := none, deepQueue := [] } }) |> wreg 0xA00C 0 |> wreg 0xA004 0x03E80003), 1000, [], (flowIn [] (({} : Device) |> (fun d => { d with rdc := { d.rdc with clusters := [lad], store := [{ psa := 1000, entries := List.replicate 6936 0 }], taps := List.replicate 15 0x700, deepRun := none, deepQueue := [] } }) |> wreg 0xA00C 0 |> wreg 0xA004 0x03E80003)), lad, 0, { psa := 1000, entries := List.replicate 6936 0 }, ⟨rfl, by decide, by decide +kernel, by decide +kernel, by decide +kernel, by decide, by unfold LadderRests; decide⟩⟩

theorem witness_RecoveryLadderAndDeepDecoding_2 : ∃ (s : State) (psa : Nat) (flow : List Flow) (e : Device) (c : LadderCluster) (i : Nat) (x : StoreSlot),
    e = flowIn flow s.dev ∧ frameRead e psa (fun c i => c.reading && sectorAt c i = .unread) = some (c, i) ∧ e.rdc.store.find? (fun x => x.psa = psa) = some x ∧ 55488 ≤ 8 * x.entries.length ∧ e.regF 0xA004 29 16 < erasedCode (erasedBits x.entries) :=
  ⟨atd (({} : Device) |> (fun d => { d with rdc := { d.rdc with clusters := [lad], store := [{ psa := 1000, entries := List.replicate 6936 (BitVec.ofNat 64 (2 ^ 56)) }], deepRun := none, deepQueue := [] } }) |> wreg 0xA004 0x03E80003), 1000, [], (flowIn [] (({} : Device) |> (fun d => { d with rdc := { d.rdc with clusters := [lad], store := [{ psa := 1000, entries := List.replicate 6936 (BitVec.ofNat 64 (2 ^ 56)) }], deepRun := none, deepQueue := [] } }) |> wreg 0xA004 0x03E80003)), lad, 0, { psa := 1000, entries := List.replicate 6936 (BitVec.ofNat 64 (2 ^ 56)) }, ⟨rfl, by decide, by decide +kernel, by decide +kernel, by decide +kernel⟩⟩

theorem witness_RecoveryLadderAndDeepDecoding_3 : ∃ (s : State) (psa : Nat) (word : BitVec 36992) (c : LadderCluster) (i : Nat),
    frameRead s.dev psa (fun c i => c.reading && sectorAt c i = .stored) = some (c, i) :=
  ⟨atd (({} : Device) |> (fun d => { d with rdc := { d.rdc with clusters := [ladS] } })), 1000, 0, ladS, 0, by decide⟩

theorem witness_RecoveryLadderAndDeepDecoding_4 : ∃ (s : State) (cluster : Nat) (c : LadderCluster),
    s.dev.reads cluster = some c ∧ c.reading = true ∧ c.step = 4 ∧ stepApplies s.dev c 4 = true ∧ lostSectors c ≠ [] :=
  ⟨atd (({} : Device) |> (fun d => { d with rdc := { d.rdc with clusters := [{ ladL with step := 4 }] } }) |> wreg 0xA004 3), 0, { ladL with step := 4 }, ⟨by decide, by decide, by decide, by decide, by decide⟩⟩

theorem witness_RecoveryLadderAndDeepDecoding_5 : ∃ (s : State) (cluster : Nat) (x : Refresh),
    s.dev.rdc.refreshQueue.find? (fun x => x.id = cluster) = some x ∧ s.dev.gen.mode ≠ .primer ∧ s.dev.pwr.sealStep = 0 :=
  ⟨atd (({} : Device) |> (fun d => { d with rdc := { d.rdc with refreshQueue := [rfr] } }) |> (fun d => { d with gen := { d.gen with mode := .undercoat } }) |> (fun d => { d with pwr := { d.pwr with sealStep := 0 } })), 0, rfr, ⟨by decide, by decide, by decide⟩⟩

theorem witness_RecoveryLadderAndDeepDecoding_6 : ∃ (s : State) (psa : Nat) (inner : Nat) (word : BitVec 36992) (run : DeepRun) (c : LadderCluster),
    s.dev.rdc.deepRun = some run ∧ s.dev.reads run.cluster = some c ∧ c.psas.getD run.sector 0 = psa ∧ (((inner ≤ run.inner ∧ ldpcOk word.toNat = true) ∨ 8 ≤ outerRun c run.sector + 1)) :=
  ⟨atd (({} : Device) |> (fun d => { d with rdc := { d.rdc with clusters := [{ ladD with step := 2 }], deepRun := some { cluster := 0, sector := 0, inner := 4, step := 2 }, store := [{ psa := 1000, entries := [] }] } }) |> wreg 0xA000 0x800), 1000, 0, 0, { cluster := 0, sector := 0, inner := 4, step := 2 }, { ladD with step := 2 }, ⟨by decide, by decide, by decide, Or.inl ⟨by decide, by decide +kernel⟩⟩⟩

theorem witness_RecoveryLadderAndDeepDecoding_7 : ∃ (s : State) (psa : Nat) (inner : Nat) (word : BitVec 36992) (run : DeepRun) (c : LadderCluster),
    s.dev.rdc.deepRun = some run ∧ s.dev.reads run.cluster = some c ∧ c.psas.getD run.sector 0 = psa ∧ run.inner < inner ∧ outerRun c run.sector < 7 ∧ s.dev.rdc.deepQueue = [(run.cluster, run.sector)] ∧ s.dev.rdc.clusters = [c] ∧ c.reading = true ∧ deepWants s.dev { c with outer := sset (fun _ => 0) run.sector (outerRun c run.sector + 1) c.outer } run.sector = true :=
  ⟨atd (({} : Device) |> (fun d => { d with rdc := { d.rdc with clusters := [{ ladD with step := 2 }], deepRun := some { cluster := 0, sector := 0, inner := 4, step := 2 }, deepQueue := [(0, 0)], store := [{ psa := 1000, entries := [] }] } }) |> wreg 0xA000 0x840), 1000, 5, 0, { cluster := 0, sector := 0, inner := 4, step := 2 }, { ladD with step := 2 }, ⟨by decide, by decide, by decide, by decide, by decide, by decide, by decide, by decide, by decide⟩⟩

theorem witness_RecoveryLadderAndDeepDecoding_8 : ∃ (s : State) (psa : Nat) (tagOk : Bool) (plain : List Byte) (poisoned : Bool) (c : LadderCluster) (i : Nat),
    frameRead s.dev psa (fun c i => (wantedSectors c).contains i && (match sectorAt c i with | .decoded _ => true | _ => false)) = some (c, i) ∧ generationGone s.dev ((blockOf (sectorAt c i)).getD []) = false :=
  ⟨atd (({} : Device) |> (fun d => { d with rdc := { d.rdc with clusters := [ladE] } })), 1000, true, [], false, ladE, 0, ⟨by decide, by decide⟩⟩

theorem witness_SectorsAreWrittenJudgedAndRewritten_1 : ∃ (s : State) (psa : Nat) (before : Option Nat) (c : WriteCluster) (i : Nat),
    s.dev.wrc.clusters.find? (fun x => x.id = c.id) = some c ∧ s.dev.rcl.groups.filter (orphanGroup s.dev) = [] ∧ mayWrite s.dev = true ∧ frameWrite s.dev psa (fun x => x.st = .due) = some (c, i) ∧ opcCurrent s.dev (bandIndex c.loc) = true ∧ writePermitted s.dev c = true ∧ shareAllows s.dev c = true ∧ passAllowed s.dev c i psa before = true :=
  ⟨atd (({} : Device) |> (fun d => { d with wrc := { d.wrc with ilk := true, ilkBlocked := false, overTrip := false, maxWritten := true, laserOn := true, analog := 0, inhibit := 0, held := false } }) |> (fun d => { d with rcl := { d.rcl with groups := [] } }) |> (fun d => { d with servo := { d.servo with loops := [(0,{st:=.closed}),(1,{st:=.closed})], lossInhibit := false, faultInhibit := false, fast := false } }) |> (fun d => { d with motion := { d.motion with st := .geared, clamped := false } }) |> (fun d => { d with pacing := { d.pacing with fault := false } }) |> (fun d => { d with pwr := { d.pwr with st := .armed, sealStep := 0 } }) |> wreg 0xB000 7 |> wreg 0xB004 500 |> wreg 0xB040 300 |> (fun d => { d with wrc := { d.wrc with clusters := [{ wcl with pass := 1 }], passes := [(wpsa, 1)] } }) |> (fun d => { d with gen := { d.gen with mode := .primer } })), wpsa, none, { wcl with pass := 1 }, 0, ⟨by decide, by decide, by decide, by decide, by decide, by decide, by decide, by decide⟩⟩

theorem witness_SectorsAreWrittenJudgedAndRewritten_2 : ∃ (s : State) (psa : Nat) (before : Option Nat) (c : WriteCluster) (i : Nat),
    s.dev.rcl.groups.filter (orphanGroup s.dev) = [] ∧ mayWrite s.dev = true ∧ frameWrite s.dev psa (fun x => x.st = .due) = some (c, i) ∧ opcCurrent s.dev (bandIndex c.loc) = true ∧ writePermitted s.dev c = true ∧ shareAllows s.dev c = true ∧ passAllowed s.dev c i psa before = true :=
  ⟨atd (({} : Device) |> (fun d => { d with wrc := { d.wrc with ilk := true, ilkBlocked := false, overTrip := false, maxWritten := true, laserOn := true, analog := 0, inhibit := 0, held := false } }) |> (fun d => { d with rcl := { d.rcl with groups := [] } }) |> (fun d => { d with servo := { d.servo with loops := [(0,{st:=.closed}),(1,{st:=.closed})], lossInhibit := false, faultInhibit := false, fast := false } }) |> (fun d => { d with motion := { d.motion with st := .geared, clamped := false } }) |> (fun d => { d with pacing := { d.pacing with fault := false } }) |> (fun d => { d with pwr := { d.pwr with st := .armed, sealStep := 0 } }) |> wreg 0xB000 7 |> wreg 0xB004 500 |> wreg 0xB040 300 |> (fun d => { d with wrc := { d.wrc with clusters := [{ wcl with pass := 1 }], passes := [(wpsa, 1)] } }) |> (fun d => { d with gen := { d.gen with mode := .primer } })), wpsa, none, { wcl with pass := 1 }, 0, ⟨by decide, by decide, by decide, by decide, by decide, by decide, by decide⟩⟩

theorem witness_SectorsAreWrittenJudgedAndRewritten_3 : ∃ (s : State) (psa : Nat) (errors : Nat) (beta : Int) (c : WriteCluster) (i : Nat) (j : Nat),
    s.dev.wrc.clusters.find? (fun x => x.id = c.id) = some c ∧ s.dev.rcl.groups.filter (orphanGroup s.dev) = [] ∧ s.dev.wrc.inhibit = 0 ∧ frameWrite s.dev psa (fun x => x.st = .written) = some (c, i) ∧ (wsector c i).voided = false ∧ j < 18 ∧ j ≠ i ∧ (wsector c j).st ≠ .passed ∧ errors < s.dev.regF 0xB00C 5 0 :=
  ⟨atd (({} : Device) |> (fun d => { d with wrc := { d.wrc with ilk := true, ilkBlocked := false, overTrip := false, maxWritten := true, laserOn := true, analog := 0, inhibit := 0, held := false } }) |> (fun d => { d with rcl := { d.rcl with groups := [] } }) |> (fun d => { d with servo := { d.servo with loops := [(0,{st:=.closed}),(1,{st:=.closed})], lossInhibit := false, faultInhibit := false, fast := false } }) |> (fun d => { d with motion := { d.motion with st := .geared, clamped := false } }) |> (fun d => { d with pacing := { d.pacing with fault := false } }) |> (fun d => { d with pwr := { d.pwr with st := .armed, sealStep := 0 } }) |> wreg 0xB000 7 |> wreg 0xB004 500 |> wreg 0xB040 300 |> (fun d => { d with wrc := { d.wrc with clusters := [wclW] } }) |> wreg 0xB00C 1), wpsa, 0, 0, wclW, 0, 1, ⟨by decide, by decide, by decide, by decide, by decide, by decide, by decide, by decide, by decide⟩⟩

theorem witness_SectorsAreWrittenJudgedAndRewritten_4 : ∃ (s : State) (psa : Nat) (errors : Nat) (beta : Int) (synced : Bool) (c : WriteCluster) (i : Nat),
    s.dev.wrc.clusters.find? (fun x => x.id = c.id) = some c ∧ s.dev.rcl.groups.filter (orphanGroup s.dev) = [] ∧ s.dev.wrc.inhibit = 0 ∧ frameWrite s.dev psa (fun x => x.st = .written) = some (c, i) ∧ (wsector c i).voided = false ∧ (wsector c i).retries < 3 ∧ ((synced = false ∨ s.dev.regF 0xB00C 5 0 ≤ errors)) :=
  ⟨atd (({} : Device) |> (fun d => { d with wrc := { d.wrc with ilk := true, ilkBlocked := false, overTrip := false, maxWritten := true, laserOn := true, analog := 0, inhibit := 0, held := false } }) |> (fun d => { d with rcl := { d.rcl with groups := [] } }) |> (fun d => { d with servo := { d.servo with loops := [(0,{st:=.closed}),(1,{st:=.closed})], lossInhibit := false, faultInhibit := false, fast := false } }) |> (fun d => { d with motion := { d.motion with st := .geared, clamped := false } }) |> (fun d => { d with pacing := { d.pacing with fault := false } }) |> (fun d => { d with pwr := { d.pwr with st := .armed, sealStep := 0 } }) |> wreg 0xB000 7 |> wreg 0xB004 500 |> wreg 0xB040 300 |> (fun d => { d with wrc := { d.wrc with clusters := [wclW] } }) |> wreg 0xB00C 1), wpsa, 1, 0, true, wclW, 0, ⟨by decide, by decide, by decide, by decide, by decide, by decide, by decide⟩⟩

theorem witness_SectorsAreWrittenJudgedAndRewritten_5 : ∃ (s : State) (psa : Nat) (errors : Nat) (beta : Int) (synced : Bool) (c : WriteCluster) (i : Nat),
    s.dev.wrc.clusters.find? (fun x => x.id = c.id) = some c ∧ s.dev.rcl.groups.filter (orphanGroup s.dev) = [] ∧ frameWrite s.dev psa (fun x => x.st = .written) = some (c, i) ∧ (((wsector c i).voided = true ∨ s.dev.wrc.inhibit ≠ 0)) :=
  ⟨atd (({} : Device) |> (fun d => { d with wrc := { d.wrc with ilk := true, ilkBlocked := false, overTrip := false, maxWritten := true, laserOn := true, analog := 0, inhibit := 0, held := false } }) |> (fun d => { d with rcl := { d.rcl with groups := [] } }) |> (fun d => { d with servo := { d.servo with loops := [(0,{st:=.closed}),(1,{st:=.closed})], lossInhibit := false, faultInhibit := false, fast := false } }) |> (fun d => { d with motion := { d.motion with st := .geared, clamped := false } }) |> (fun d => { d with pacing := { d.pacing with fault := false } }) |> (fun d => { d with pwr := { d.pwr with st := .armed, sealStep := 0 } }) |> wreg 0xB000 7 |> wreg 0xB004 500 |> wreg 0xB040 300 |> (fun d => { d with wrc := { d.wrc with clusters := [wclW], inhibit := 1 } })), wpsa, 0, 0, true, wclW, 0, ⟨by decide, by decide, by decide, by decide⟩⟩

theorem witness_SectorsAreWrittenJudgedAndRewritten_6 : ∃ (s : State) (psa : Nat) (c : WriteCluster) (i : Nat),
    s.dev.wrc.clusters.find? (fun x => x.id = c.id) = some c ∧ mayWrite s.dev = true ∧ s.dev.pwr.st = .armed ∧ frameWrite s.dev psa (fun x => x.st = .failed || x.st = .interrupted) = some (c, i) ∧ (wsector c i).st = .failed ∧ (wsector c i).retries < 3 :=
  ⟨atd (({} : Device) |> (fun d => { d with wrc := { d.wrc with ilk := true, ilkBlocked := false, overTrip := false, maxWritten := true, laserOn := true, analog := 0, inhibit := 0, held := false } }) |> (fun d => { d with rcl := { d.rcl with groups := [] } }) |> (fun d => { d with servo := { d.servo with loops := [(0,{st:=.closed}),(1,{st:=.closed})], lossInhibit := false, faultInhibit := false, fast := false } }) |> (fun d => { d with motion := { d.motion with st := .geared, clamped := false } }) |> (fun d => { d with pacing := { d.pacing with fault := false } }) |> (fun d => { d with pwr := { d.pwr with st := .armed, sealStep := 0 } }) |> wreg 0xB000 7 |> wreg 0xB004 500 |> wreg 0xB040 300 |> (fun d => { d with wrc := { d.wrc with clusters := [wclF] } })), wpsa, wclF, 0, ⟨by decide, by decide, by decide, by decide, by decide, by decide⟩⟩

theorem witness_SectorsAreWrittenJudgedAndRewritten_7 : ∃ (s : State) (psa : Nat) (c : WriteCluster) (i : Nat),
    s.dev.wrc.clusters.find? (fun x => x.id = c.id) = some c ∧ mayWrite s.dev = true ∧ s.dev.pwr.st = .armed ∧ frameWrite s.dev psa (fun x => x.st = .failed || x.st = .interrupted) = some (c, i) ∧ (wsector c i).st = .interrupted :=
  ⟨atd (({} : Device) |> (fun d => { d with wrc := { d.wrc with ilk := true, ilkBlocked := false, overTrip := false, maxWritten := true, laserOn := true, analog := 0, inhibit := 0, held := false } }) |> (fun d => { d with rcl := { d.rcl with groups := [] } }) |> (fun d => { d with servo := { d.servo with loops := [(0,{st:=.closed}),(1,{st:=.closed})], lossInhibit := false, faultInhibit := false, fast := false } }) |> (fun d => { d with motion := { d.motion with st := .geared, clamped := false } }) |> (fun d => { d with pacing := { d.pacing with fault := false } }) |> (fun d => { d with pwr := { d.pwr with st := .armed, sealStep := 0 } }) |> wreg 0xB000 7 |> wreg 0xB004 500 |> wreg 0xB040 300 |> (fun d => { d with wrc := { d.wrc with clusters := [{ wclI with sectors := [(0, { st := .interrupted, retries := 2 })] }] } })), wpsa, { wclI with sectors := [(0, { st := .interrupted, retries := 2 })] }, 0, ⟨by decide, by decide, by decide, by decide, by decide⟩⟩

theorem witness_SectorsAreWrittenJudgedAndRewritten_8 : ∃ (s : State) (psa : Nat) (c : WriteCluster) (i : Nat),
    mayWrite s.dev = true ∧ s.dev.pwr.st = .armed ∧ frameWrite s.dev psa (fun x => x.st = .failed || x.st = .interrupted) = some (c, i) ∧ (wsector c i).retries < 3 :=
  ⟨atd (({} : Device) |> (fun d => { d with wrc := { d.wrc with ilk := true, ilkBlocked := false, overTrip := false, maxWritten := true, laserOn := true, analog := 0, inhibit := 0, held := false } }) |> (fun d => { d with rcl := { d.rcl with groups := [] } }) |> (fun d => { d with servo := { d.servo with loops := [(0,{st:=.closed}),(1,{st:=.closed})], lossInhibit := false, faultInhibit := false, fast := false } }) |> (fun d => { d with motion := { d.motion with st := .geared, clamped := false } }) |> (fun d => { d with pacing := { d.pacing with fault := false } }) |> (fun d => { d with pwr := { d.pwr with st := .armed, sealStep := 0 } }) |> wreg 0xB000 7 |> wreg 0xB004 500 |> wreg 0xB040 300 |> (fun d => { d with wrc := { d.wrc with clusters := [wclF] } })), wpsa, wclF, 0, ⟨by decide, by decide, by decide, by decide⟩⟩

theorem witness_InhibitCutsAndWritingResumes_1 : ∃ (s : State) (cl : Nat) (i : Nat),
    s.dev.wrc.inhibit = inhibitNow s.dev ∧ s.dev.wrc.analog.getLsbD 0 = false ∧ s.dev.wrc.writing = some (cl, i) :=
  ⟨atd (({} : Device) |> (fun d => { d with wrc := { d.wrc with ilk := true, ilkBlocked := false, overTrip := false, maxWritten := true, laserOn := true, analog := 0, inhibit := 0, held := false } }) |> (fun d => { d with rcl := { d.rcl with groups := [] } }) |> (fun d => { d with servo := { d.servo with loops := [(0,{st:=.closed}),(1,{st:=.closed})], lossInhibit := false, faultInhibit := false, fast := false } }) |> (fun d => { d with motion := { d.motion with st := .geared, clamped := false } }) |> (fun d => { d with pacing := { d.pacing with fault := false } }) |> (fun d => { d with pwr := { d.pwr with st := .armed, sealStep := 0 } }) |> wreg 0xB000 7 |> wreg 0xB004 500 |> wreg 0xB040 300 |> (fun d => { d with wrc := { d.wrc with clusters := [wclW], writing := some (0, 0), analog := 0, inhibit := 0 } })), 0, 0, ⟨by decide, by decide, by decide⟩⟩

theorem witness_InhibitCutsAndWritingResumes_2 : ∃ (s : State),
    s.dev.wrc.inhibit = inhibitNow s.dev ∧ s.dev.wrc.analog.getLsbD 6 = false ∧ s.dev.wrc.writing = none :=
  ⟨atd (({} : Device) |> (fun d => { d with wrc := { d.wrc with ilk := true, ilkBlocked := false, overTrip := false, maxWritten := true, laserOn := true, analog := 0, inhibit := 0, held := false } }) |> (fun d => { d with rcl := { d.rcl with groups := [] } }) |> (fun d => { d with servo := { d.servo with loops := [(0,{st:=.closed}),(1,{st:=.closed})], lossInhibit := false, faultInhibit := false, fast := false } }) |> (fun d => { d with motion := { d.motion with st := .geared, clamped := false } }) |> (fun d => { d with pacing := { d.pacing with fault := false } }) |> (fun d => { d with pwr := { d.pwr with st := .armed, sealStep := 0 } }) |> wreg 0xB000 7 |> wreg 0xB004 500 |> wreg 0xB040 300 |> (fun d => { d with wrc := { d.wrc with writing := none, analog := 0, inhibit := 0 } })), ⟨by decide, by decide, by decide⟩⟩

theorem witness_InhibitCutsAndWritingResumes_3 : ∃ (s : State),
    s.dev.wrc.inhibit = 1 ∧ inhibitNow s.dev = 1 ∧ s.dev.wrc.analog = 1 :=
  ⟨atd (({} : Device) |> (fun d => { d with wrc := { d.wrc with ilk := true, ilkBlocked := false, overTrip := false, maxWritten := true, laserOn := true, analog := 0, inhibit := 0, held := false } }) |> (fun d => { d with rcl := { d.rcl with groups := [] } }) |> (fun d => { d with servo := { d.servo with loops := [(0,{st:=.closed}),(1,{st:=.closed})], lossInhibit := false, faultInhibit := false, fast := false } }) |> (fun d => { d with motion := { d.motion with st := .geared, clamped := false } }) |> (fun d => { d with pacing := { d.pacing with fault := false } }) |> (fun d => { d with pwr := { d.pwr with st := .armed, sealStep := 0 } }) |> wreg 0xB000 7 |> wreg 0xB004 500 |> wreg 0xB040 300 |> (fun d => { d with wrc := { d.wrc with analog := 1, inhibit := 1 } })), ⟨by decide, by decide, by decide⟩⟩

theorem witness_InhibitCutsAndWritingResumes_4 : ∃ (s : State),
    s.dev.wrc.held = true ∧ s.dev.wrc.inhibit = 0 ∧ s.dev.wrc.clearSince + s.dev.regF 0xB014 15 0 ≤ s.dev.now :=
  ⟨atd (({} : Device) |> (fun d => { d with wrc := { d.wrc with held := true, inhibit := 0, clearSince := 0 } }) |> (fun d => { d with pacing := { d.pacing with now := 65535 } })), ⟨by decide, by decide, by decide⟩⟩

theorem witness_InhibitCutsAndWritingResumes_5 : ∃ (s : State),
    ((s.dev.wrc.held = false ∨ s.dev.wrc.inhibit ≠ 0 ∨ s.dev.now < s.dev.wrc.clearSince + s.dev.regF 0xB014 15 0)) :=
  ⟨atd (({} : Device) |> (fun d => { d with wrc := { d.wrc with held := false } })), by decide⟩

theorem witness_InhibitCutsAndWritingResumes_6 : ∃ (s : State) (cl : Nat) (i : Nat),
    s.dev.wrc.inhibit = 0 ∧ inhibitNow s.dev = 0 ∧ s.dev.wrc.writing = some (cl, i) :=
  ⟨atd (({} : Device) |> (fun d => { d with wrc := { d.wrc with ilk := true, ilkBlocked := false, overTrip := false, maxWritten := true, laserOn := true, analog := 0, inhibit := 0, held := false } }) |> (fun d => { d with rcl := { d.rcl with groups := [] } }) |> (fun d => { d with servo := { d.servo with loops := [(0,{st:=.closed}),(1,{st:=.closed})], lossInhibit := false, faultInhibit := false, fast := false } }) |> (fun d => { d with motion := { d.motion with st := .geared, clamped := false } }) |> (fun d => { d with pacing := { d.pacing with fault := false } }) |> (fun d => { d with pwr := { d.pwr with st := .armed, sealStep := 0 } }) |> wreg 0xB000 7 |> wreg 0xB004 500 |> wreg 0xB040 300 |> (fun d => { d with wrc := { d.wrc with clusters := [wclW], writing := some (0, 0), analog := 0, inhibit := 0 } })), 0, 0, ⟨by decide, by decide, by decide⟩⟩

theorem witness_LaserCeilingAndGuards_1 : ∃ (s : State) (who : Requester) (v : Word32),
    who ≠ .seq ∧ ((who = .host → s.dev.hif.lock = false)) ∧ masterUp who s.dev = true ∧ s.dev.wrc.maxWritten = false :=
  ⟨atd (({} : Device) |> (fun d => { d with wrc := { d.wrc with maxWritten := false } })), .mgmt, 0x3FF, ⟨by decide, by decide, by decide, by decide⟩⟩

theorem witness_LaserCeilingAndGuards_2 : ∃ (s : State) (v : Word32),
    pairRuns s.dev = true ∧ s.dev.wrc.maxWritten = true ∧ fld v 9 0 < laserMax s.dev :=
  ⟨atd (({} : Device) |> (fun d => { d with wrc := { d.wrc with maxWritten := true } }) |> wreg 0xB004 500), 499, ⟨by decide, by decide, by decide⟩⟩

theorem witness_LaserCeilingAndGuards_3 : ∃ (s : State) (v : Word32),
    pairRuns s.dev = true ∧ s.dev.wrc.maxWritten = true ∧ laserMax s.dev < fld v 9 0 :=
  ⟨atd (({} : Device) |> (fun d => { d with wrc := { d.wrc with maxWritten := true } }) |> wreg 0xB004 500), 501, ⟨by decide, by decide, by decide⟩⟩

theorem witness_LaserCeilingAndGuards_5 : ∃ (s : State),
    pairRuns s.dev = true ∧ s.dev.gen.mode ≠ .primer :=
  ⟨atd (({} : Device) |> (fun d => { d with gen := { d.gen with mode := .undercoat } })), ⟨by decide, by decide⟩⟩

theorem witness_LaserCeilingAndGuards_6 : ∃ (s : State),
    s.dev.gen.mode = .primer :=
  ⟨atd (({} : Device) |> (fun d => { d with gen := { d.gen with mode := .primer } })), by decide⟩

theorem witness_OpcCalibratesWritePower_1 : ∃ (s : State) (who : Requester) (v : Word32),
    ((who = .host → s.dev.hif.lock = false)) ∧ masterUp who s.dev = true ∧ fld v 26 24 < 6 ∧ ((who = .host ∨ v.getLsbD 31 = false)) :=
  ⟨atd (({} : Device) |> (fun d => { d with hif := { d.hif with lock := false } })), .host, 0x85300001, ⟨by decide, by decide, by decide, by decide⟩⟩

theorem witness_OpcCalibratesWritePower_2 : ∃ (s : State) (who : Requester) (v : Word32),
    who ≠ .host ∧ masterUp who s.dev = true ∧ fld v 26 24 < 6 ∧ v.getLsbD 31 = true ∧ s.dev.wrc.opcStep = none ∧ s.dev.pwr.st = .armed ∧ testSectorsOk (fld v 26 24) (fld v 21 20) (s.dev.reg 0xB0C8).toNat = true :=
  ⟨atd (({} : Device) |> (fun d => { d with wrc := { d.wrc with opcStep := none } }) |> (fun d => { d with pwr := { d.pwr with st := .armed } }) |> wreg 0xB0C8 4 |> (fun d => { d with lsk := { d.lsk with pair := .running } })), .mgmt, 0x85300001, ⟨by decide, by decide, by decide, by decide, by decide, by decide, by decide⟩⟩

theorem witness_OpcCalibratesWritePower_3 : ∃ (s : State) (errors : Nat) (beta : Int) (x : OpcStep),
    s.dev.wrc.opcStep = some x ∧ s.dev.wrc.opcRun = none :=
  ⟨atd (({} : Device) |> (fun d => { d with wrc := { d.wrc with opcStep := some { layer := 5, band := 3, power := 300, pos := 0 }, opcRun := none } })), 3, 4, { layer := 5, band := 3, power := 300, pos := 0 }, ⟨by decide, by decide⟩⟩

theorem witness_OpcCalibratesWritePower_4 : ∃ (s : State) (errors : Nat) (beta : Int) (x : OpcStep) (r : OpcRun),
    s.dev.wrc.opcStep = some x ∧ s.dev.wrc.opcRun = some r ∧ r.k < 10 ∧ r.layer < 6 ∧ r.band < 4 ∧ s.dev.pwr.st = .armed ∧ (roundDiv ((r.p0 * (85 + 3 * (r.k + 1)) : Nat) : Int) 100).toNat ≤ laserMax s.dev :=
  ⟨atd (({} : Device) |> (fun d => { d with wrc := { d.wrc with opcStep := some { layer := 5, band := 3, power := 300, pos := 0 }, opcRun := some { layer := 5, band := 3, k := 9, p0 := 100, best := none } } }) |> (fun d => { d with pwr := { d.pwr with st := .armed } }) |> wreg 0xB004 500), 0, 0, { layer := 5, band := 3, power := 300, pos := 0 }, { layer := 5, band := 3, k := 9, p0 := 100, best := none }, ⟨by decide, by decide, by decide, by decide, by decide, by decide, by decide⟩⟩

theorem witness_OpcCalibratesWritePower_5 : ∃ (s : State) (errors : Nat) (beta : Int) (x : OpcStep) (r : OpcRun),
    s.dev.wrc.opcStep = some x ∧ s.dev.wrc.opcRun = some r ∧ 10 ≤ r.k ∧ r.best = none ∧ 147968 ≤ errors * 4000 ∧ s.dev.pwr.st = .armed :=
  ⟨atd (({} : Device) |> (fun d => { d with wrc := { d.wrc with opcStep := some { layer := 5, band := 3, power := 300, pos := 0 }, opcRun := some { layer := 5, band := 3, k := 10, p0 := 100, best := none } } }) |> (fun d => { d with pwr := { d.pwr with st := .armed } })), 36992, 0, { layer := 5, band := 3, power := 300, pos := 0 }, { layer := 5, band := 3, k := 10, p0 := 100, best := none }, ⟨by decide, by decide, by decide, by decide, by decide, by decide⟩⟩

theorem witness_OpcCalibratesWritePower_6 : ∃ (s : State) (errors : Nat) (beta : Int) (x : OpcStep) (r : OpcRun) (p : Nat) (b : Int),
    s.dev.wrc.opcStep = some x ∧ s.dev.wrc.opcRun = some r ∧ 10 ≤ r.k ∧ r.layer < 6 ∧ r.band < 4 ∧ r.best = some (p, b) ∧ s.dev.pwr.st = .armed :=
  ⟨atd (({} : Device) |> (fun d => { d with wrc := { d.wrc with opcStep := some { layer := 5, band := 3, power := 300, pos := 0 }, opcRun := some { layer := 5, band := 3, k := 10, p0 := 100, best := some (100, 3) } } }) |> (fun d => { d with pwr := { d.pwr with st := .armed } })), 0, 0, { layer := 5, band := 3, power := 300, pos := 0 }, { layer := 5, band := 3, k := 10, p0 := 100, best := some (100, 3) }, 100, 3, ⟨by decide, by decide, by decide, by decide, by decide, by decide, by decide⟩⟩

theorem witness_OpcCalibratesWritePower_7 : ∃ (s : State) (layer : Nat) (band : Nat),
    layer < 6 ∧ band < 4 ∧ s.dev.gen.mode ≠ .primer ∧ opcCurrent s.dev (4 * layer + band) = false ∧ s.dev.pwr.st = .armed ∧ s.dev.wrc.opcRun = none ∧ s.dev.wrc.opcStep = none ∧ (roundDiv ((fld (powerWord s.dev (4 * layer + band)) 9 0 * 85 : Nat) : Int) 100).toNat ≤ laserMax s.dev :=
  ⟨atd (({} : Device) |> (fun d => { d with gen := { d.gen with mode := .undercoat } }) |> (fun d => { d with wrc := { d.wrc with opcDone := [], opcRun := none, opcStep := none } }) |> (fun d => { d with pwr := { d.pwr with st := .armed } }) |> wreg 0xB004 500), 5, 3, ⟨by decide, by decide, by decide, by decide, by decide, by decide, by decide, by decide⟩⟩

theorem witness_StrategyTablesAreReached_1 : ∃ (s : State) (who : Requester) (v : Word32),
    who ≠ .seq ∧ ((who = .host → s.dev.hif.lock = false)) ∧ masterUp who s.dev = true ∧ s.dev.wrc.writing = none :=
  ⟨atd (({} : Device) |> (fun d => { d with wrc := { d.wrc with writing := none } }) |> (fun d => { d with hif := { d.hif with lock := false } }) |> wreg 0xB02C 0x8000017E), .host, 7, ⟨by decide, by decide, by decide, by decide⟩⟩

theorem witness_StrategyTablesAreReached_2 : ∃ (s : State) (who : Requester) (v : Word32),
    who ≠ .seq ∧ ((who = .host → s.dev.hif.lock = false)) ∧ s.dev.wrc.writing ≠ none :=
  ⟨atd (({} : Device) |> (fun d => { d with wrc := { d.wrc with writing := some (0, 0) } })), .mgmt, 7, ⟨by decide, by decide, by decide⟩⟩

theorem witness_StrategyTablesAreReached_3 : ∃ (s : State) (who : Requester),
    masterUp who s.dev = true :=
  ⟨atd (({} : Device) |> wreg 0xB02C 0x8000017E), .mgmt, by decide⟩

theorem witness_RingsAdvanceThroughTheirZones_1 : ∃ (s : State) (o : Nat) (i : Nat),
    1 ≤ o ∧ o < 16 ∧ entryDue s.dev o = true ∧ (s.dev.ring o).next = some i ∧ zoneEligible s.dev o (s.dev.ring o) i = true :=
  ⟨atd (({} : Device) |> (updRing 15 fun x => { x with zones := [zn 14, zn 15], cur := none, next := some 1, recovery := .recovered, entry := none })), 15, 1, ⟨by decide, by decide, by decide, by decide, by decide⟩⟩

theorem witness_RingsAdvanceThroughTheirZones_2 : ∃ (s : State) (o : Nat) (i : Nat),
    1 ≤ o ∧ o < 16 ∧ (s.dev.ring o).naming = true ∧ s.dev.gen.mode ≠ .primer ∧ (s.dev.ring o).excursion = false ∧ chooseNext s.dev o = some (i, false) :=
  ⟨atd (({} : Device) |> (updRing 15 fun x => { x with zones := [zn 14, zn 16], cur := some 0, next := none, naming := true, excursion := false }) |> (fun d => { d with gen := { d.gen with mode := .undercoat } }) |> wreg 0x15004 1), 15, 1, ⟨by decide, by decide, by decide, by decide, by decide, by decide⟩⟩

theorem witness_RingsAdvanceThroughTheirZones_3 : ∃ (s : State) (o : Nat) (i : Nat) (a : Assembly),
    (s.dev.ring o).assembly = some a ∧ delayExpired s.dev o = true ∧ (s.dev.ring o).cur = some i ∧ (s.dev.ring o).waiting = [] ∧ (s.dev.ring o).pos < dataPositions ∧ checkpointDue (s.dev.ring o) = false :=
  ⟨atd (({} : Device) |> (updRing 15 fun x => { x with zones := [zn 14], cur := some 0, assembly := some asm, pos := 100, sinceCkpt := 3, waiting := [] }) |> (fun d => { d with pacing := { d.pacing with now := 100000000 } }) |> (fun d => { d with hif := { d.hif with cmds := [] } })), 15, 0, asm, ⟨by decide, by decide, by decide, by decide, by decide, by decide⟩⟩

theorem witness_RecoveryRunsRingByRing_1 : ∃ (s : State) (o : Nat) (x : RecoveryScan),
    recoveryMay s.dev = true ∧ digestDue s.dev = false ∧ nextRecovery s.dev .waiting = some o :=
  ⟨atd (({} : Device) |> (fun d => { d with gen := { d.gen with mode := .undercoat, chosen := true } }) |> (fun d => { d with pacing := { d.pacing with fault := false } }) |> (fun d => { d with pwr := { d.pwr with st := .armed } }) |> (fun d => { d with hif := { d.hif with ps := 0, transition := false } }) |> (fun d => { d with rcl := { d.rcl with rings := [] } }) |> (fun d => { d with cry := { d.cry with tagOk := true } }) |> (fun d => { d with gen := { d.gen with cart := some { k6 := true, format := 2, serial := 5, zoneDone := [] }, cartState := 2 } }) |> (updRing 1 fun x => { x with zones := [zn 14], cur := some 0, recovery := .waiting }) |> (fun d => { d with rcl := { d.rcl with digestOk := some true } })), 1, scan, ⟨by decide, by decide, by decide⟩⟩

theorem witness_RecoveryRunsRingByRing_2 : ∃ (s : State) (o : Nat) (x : RecoveryScan),
    nextRecovery s.dev .waiting ≠ some o :=
  ⟨atd (({} : Device) |> (fun d => { d with rcl := { d.rcl with rings := [] } })), 1, scan, by decide⟩

theorem witness_RecoveryRunsRingByRing_3 : ∃ (s : State) (o : Nat) (i : Nat) (x : RingEnd),
    recoveryMay s.dev = true ∧ s.dev.pwr.st = .armed ∧ nextRecovery s.dev .phaseADone = some o ∧ nextRecovery s.dev .phaseB = none ∧ (s.dev.ring o).cur = some i ∧ (s.dev.ring o).found = some x ∧ x.fills = [] ∧ x.sealFound = false :=
  ⟨atd (({} : Device) |> (fun d => { d with gen := { d.gen with mode := .undercoat, chosen := true } }) |> (fun d => { d with pacing := { d.pacing with fault := false } }) |> (fun d => { d with pwr := { d.pwr with st := .armed } }) |> (fun d => { d with hif := { d.hif with ps := 0, transition := false } }) |> (fun d => { d with rcl := { d.rcl with rings := [] } }) |> (fun d => { d with cry := { d.cry with tagOk := true } }) |> (fun d => { d with gen := { d.gen with cart := some { k6 := true, format := 2, serial := 5, zoneDone := [] }, cartState := 2 } }) |> (updRing 1 fun x => { x with zones := [zn 14], cur := some 0, recovery := .phaseADone, found := some { sealFound := false, fills := [] } })), 1, 0, { sealFound := false, fills := [] }, ⟨by decide, by decide, by decide, by decide, by decide, by decide, by decide, by decide⟩⟩

theorem witness_RecoveryRunsRingByRing_4 : ∃ (s : State) (o : Nat),
    recoveryMay s.dev = true ∧ s.dev.pwr.st = .armed ∧ nextRecovery s.dev .phaseADone = some o ∧ nextRecovery s.dev .phaseB = none ∧ (s.dev.ring o).cur = none ∧ s.dev.wrc.clusters = [] :=
  ⟨atd (({} : Device) |> (fun d => { d with gen := { d.gen with mode := .undercoat, chosen := true } }) |> (fun d => { d with pacing := { d.pacing with fault := false } }) |> (fun d => { d with pwr := { d.pwr with st := .armed } }) |> (fun d => { d with hif := { d.hif with ps := 0, transition := false } }) |> (fun d => { d with rcl := { d.rcl with rings := [] } }) |> (fun d => { d with cry := { d.cry with tagOk := true } }) |> (fun d => { d with gen := { d.gen with cart := some { k6 := true, format := 2, serial := 5, zoneDone := [] }, cartState := 2 } }) |> (updRing 1 fun x => { x with zones := [zn 14], cur := none, recovery := .phaseADone }) |> (fun d => { d with wrc := { d.wrc with clusters := [] } })), 1, ⟨by decide, by decide, by decide, by decide, by decide, by decide⟩⟩

theorem witness_RecoveryRunsRingByRing_5 : ∃ (s : State) (digest : BitVec 256),
    digestDue s.dev = true ∧ s.dev.gen.mode ≠ .dustSheet :=
  ⟨atd (({} : Device) |> (fun d => { d with gen := { d.gen with mode := .undercoat, chosen := true } }) |> (fun d => { d with pacing := { d.pacing with fault := false } }) |> (fun d => { d with pwr := { d.pwr with st := .armed } }) |> (fun d => { d with hif := { d.hif with ps := 0, transition := false } }) |> (fun d => { d with rcl := { d.rcl with rings := [] } }) |> (fun d => { d with cry := { d.cry with tagOk := true } }) |> (fun d => { d with gen := { d.gen with cart := some { k6 := true, format := 2, serial := 5, zoneDone := [] }, cartState := 2 } }) |> (fun d => { d with rcl := { d.rcl with digestOk := none, actA := some { generation := 1, active := 0, previous := 0, slots := [] } } }) |> (fun d => { d with gen := { d.gen with mode := .undercoat } })), 0, ⟨by decide, by decide⟩⟩

theorem witness_RecoveryRunsRingByRing_6 : ∃ (s : State) (tag : Nat) (c : Cmd),
    s.dev.cmd tag = some c ∧ c.phase = .admission ∧ admissionOpen s.dev c = true :=
  ⟨atd (({} : Device) |> (fun d => { d with hif := { d.hif with cmds := [cmA] } }) |> (fun d => { d with lath := { d.lath with admissionHold := false } }) |> (fun d => { d with rcl := { d.rcl with rings := [] } }) |> (fun d => { d with rcl := { d.rcl with groups := [] } }) |> (fun d => { d with pwr := { d.pwr with coarse := 12000, cellsValid := false } })), 0, cmA, ⟨by decide, by decide, by decide⟩⟩

theorem witness_RecoveryRunsRingByRing_7 : ∃ (s : State) (tag : Nat) (c : Cmd),
    s.dev.cmd tag = some c ∧ admissionOpen s.dev c = false :=
  ⟨atd (({} : Device) |> (fun d => { d with hif := { d.hif with cmds := [cmA] } }) |> (fun d => { d with lath := { d.lath with admissionHold := true } })), 0, cmA, ⟨by decide, by decide⟩⟩

theorem witness_MessagesCountAndOwnerExchangesActOnce_1 : ∃ (s : State) (cr : Credits),
    s.dev.lath.live = true :=
  ⟨atd (({} : Device) |> (fun d => { d with lath := { d.lath with live := true } })), crd, by decide⟩

theorem witness_MessagesCountAndOwnerExchangesActOnce_2 : ∃ (s : State) (cr : Credits),
    s.dev.lath.live = false :=
  ⟨atd (({} : Device) |> (fun d => { d with lath := { d.lath with live := false } })), crd, by decide⟩

theorem witness_MessagesCountAndOwnerExchangesActOnce_3 : ∃ (s : State) (cr : Credits) (n : Nat),
    s.dev.lath.live = true ∧ 1 ≤ n ∧ n < 16 ∧ (s.dev.slot n).st = .destroyed :=
  ⟨atd (({} : Device) |> (fun d => { d with lath := { d.lath with live := true } }) |> (updSlot 15 fun x => { x with st := .destroyed })), crd, 15, ⟨by decide, by decide, by decide, by decide⟩⟩

theorem witness_MessagesCountAndOwnerExchangesActOnce_4 : ∃ (s : State) (cr : Credits) (n : Nat),
    s.dev.lath.live = true ∧ n < 16 ∧ s.dev.cry.ops = [] :=
  ⟨atd (({} : Device) |> (fun d => { d with lath := { d.lath with live := true } }) |> (fun d => { d with cry := { d.cry with ops := [] } })), crd, 15, ⟨by decide, by decide, by decide⟩⟩

theorem witness_MessagesCountAndOwnerExchangesActOnce_5 : ∃ (s : State) (cr : Credits) (serials : List (BitVec 64)),
    s.dev.lath.live = true ∧ s.dev.gen.mode = .dustSheet :=
  ⟨atd (({} : Device) |> (fun d => { d with lath := { d.lath with live := true } }) |> (fun d => { d with gen := { d.gen with mode := .dustSheet } })), crd, [1, 0, 2], ⟨by decide, by decide⟩⟩

theorem witness_MessagesCountAndOwnerExchangesActOnce_6 : ∃ (s : State) (cr : Credits) (n : Nat) (r : SlotRecord),
    s.dev.lath.live = true ∧ n < 16 ∧ (s.dev.slot n).st = .empty ∧ (s.dev.slot n).busy = false ∧ s.dev.cry.pairKey ≠ none ∧ s.dev.gen.mode = .dustSheet ∧ s.dev.cry.ops = [] ∧ s.dev.cch.range = none :=
  ⟨atd (({} : Device) |> (fun d => { d with lath := { d.lath with live := true } }) |> (updSlot 15 fun x => { x with st := .empty, busy := false }) |> (fun d => { d with cry := { d.cry with pairKey := some 1, ops := [] } }) |> (fun d => { d with gen := { d.gen with mode := .dustSheet } }) |> (fun d => { d with cch := { d.cch with range := none } })), crd, 15, srec, ⟨by decide, by decide, by decide, by decide, by decide, by decide, by decide, by decide⟩⟩

theorem witness_MessagesCountAndOwnerExchangesActOnce_7 : ∃ (s : State),
    s.dev.cry.ops = [] :=
  ⟨atd (({} : Device) |> (fun d => { d with cry := { d.cry with ops := [] } })), by decide⟩

theorem witness_CommissioningAgreesOrIsAbandoned_1 : ∃ (s : State) (cr : Credits) (p : List Byte),
    s.dev.lath.live = true ∧ s.dev.gen.mode = .dustSheet ∧ s.dev.cry.commission = none :=
  ⟨atd (({} : Device) |> (fun d => { d with lath := { d.lath with live := true } }) |> (fun d => { d with gen := { d.gen with mode := .dustSheet } }) |> (fun d => { d with cry := { d.cry with commission := none } })), crd, [4], ⟨by decide, by decide, by decide⟩⟩

theorem witness_CommissioningAgreesOrIsAbandoned_2 : ∃ (s : State) (cr : Credits) (p : List Byte) (c : Commission),
    s.dev.lath.live = true ∧ s.dev.gen.mode = .dustSheet ∧ s.dev.cry.commission = some c ∧ c.peerPoint = none ∧ c.tag = none :=
  ⟨atd (({} : Device) |> (fun d => { d with lath := { d.lath with live := true } }) |> (fun d => { d with gen := { d.gen with mode := .dustSheet } }) |> (fun d => { d with cry := { d.cry with commission := some comm } })), crd, [4], comm, ⟨by decide, by decide, by decide, by decide, by decide⟩⟩

theorem witness_CommissioningAgreesOrIsAbandoned_3 : ∃ (s : State) (cr : Credits) (code : Nat) (peerKeys : Bool) (c : Commission),
    s.dev.lath.live = true ∧ s.dev.gen.mode = .dustSheet ∧ s.dev.cry.commission = some c ∧ c.pairKey ≠ none ∧ c.code = code ∧ c.localConfirmed = none :=
  ⟨atd (({} : Device) |> (fun d => { d with lath := { d.lath with live := true } }) |> (fun d => { d with gen := { d.gen with mode := .dustSheet } }) |> (fun d => { d with cry := { d.cry with commission := some commK } })), crd, 7, true, commK, ⟨by decide, by decide, by decide, by decide, by decide, by decide⟩⟩

theorem witness_CommissioningAgreesOrIsAbandoned_4 : ∃ (s : State) (cr : Credits) (code : Nat) (peerKeys : Bool) (c : Commission),
    s.dev.lath.live = true ∧ s.dev.gen.mode = .dustSheet ∧ s.dev.cry.commission = some c ∧ c.code ≠ code ∧ c.tag = none ∧ c.localConfirmed = none :=
  ⟨atd (({} : Device) |> (fun d => { d with lath := { d.lath with live := true } }) |> (fun d => { d with gen := { d.gen with mode := .dustSheet } }) |> (fun d => { d with cry := { d.cry with commission := some commK } })), crd, 8, true, commK, ⟨by decide, by decide, by decide, by decide, by decide, by decide⟩⟩

theorem witness_CommissioningAgreesOrIsAbandoned_5 : ∃ (s : State) (cr : Credits) (c : Commission),
    s.dev.lath.live = true ∧ s.dev.cry.commission = some c ∧ c.tag = none ∧ c.localConfirmed = none :=
  ⟨atd (({} : Device) |> (fun d => { d with lath := { d.lath with live := true } }) |> (fun d => { d with cry := { d.cry with commission := some commK } })), crd, commK, ⟨by decide, by decide, by decide, by decide⟩⟩

theorem witness_CommissioningAgreesOrIsAbandoned_6 : ∃ (s : State) (c : Commission),
    s.dev.cry.commission = some c ∧ c.pairKey ≠ none ∧ c.readyAt + 600 * ticksPerS ≤ s.dev.now ∧ c.tag = none ∧ c.localConfirmed = none :=
  ⟨atd (({} : Device) |> (fun d => { d with cry := { d.cry with commission := some commK } }) |> (fun d => { d with pacing := { d.pacing with now := 15000000000 } })), commK, ⟨by decide, by decide, by decide, by decide, by decide⟩⟩

theorem witness_CommissioningAgreesOrIsAbandoned_7 : ∃ (s : State) (c : Commission),
    s.dev.cry.commission = some c ∧ s.dev.now < c.readyAt + 600 * ticksPerS :=
  ⟨atd (({} : Device) |> (fun d => { d with cry := { d.cry with commission := some commK } }) |> (fun d => { d with pacing := { d.pacing with now := 14999999999 } })), commK, ⟨by decide, by decide⟩⟩

theorem witness_RangeEngineRunsOneOperation_1 : ∃ (s : State),
    pairRuns s.dev = true ∧ s.dev.cch.range = none :=
  ⟨atd (({} : Device) |> (fun d => { d with cch := { d.cch with range := none } })), ⟨by decide, by decide⟩⟩

theorem witness_RangeEngineRunsOneOperation_2 : ∃ (s : State),
    pairRuns s.dev = true ∧ s.dev.cch.range = none :=
  ⟨atd (({} : Device) |> (fun d => { d with cch := { d.cch with range := none } })), ⟨by decide, by decide⟩⟩

theorem witness_RangeEngineRunsOneOperation_3 : ∃ (s : State),
    pairRuns s.dev = true ∧ s.dev.cch.range = none ∧ s.dev.gen.mode ≠ .topcoat :=
  ⟨atd (({} : Device) |> (fun d => { d with cch := { d.cch with range := none } }) |> (fun d => { d with gen := { d.gen with mode := .undercoat } })), ⟨by decide, by decide, by decide⟩⟩

theorem witness_RangeEngineRunsOneOperation_4 : ∃ (s : State),
    pairRuns s.dev = true ∧ s.dev.cch.range = none ∧ s.dev.gen.mode = .topcoat :=
  ⟨atd (({} : Device) |> (fun d => { d with cch := { d.cch with range := none } }) |> (fun d => { d with gen := { d.gen with mode := .topcoat } })), ⟨by decide, by decide, by decide⟩⟩

theorem witness_RangeEngineRunsOneOperation_5 : ∃ (s : State),
    pairRuns s.dev = true ∧ s.dev.cch.range = none ∧ s.dev.gen.mode ≠ .topcoat ∧ (findLine s.dev (isTable (s.dev.regF 0xC010 19 16))).isSome = true :=
  ⟨atd (({} : Device) |> (fun d => { d with cch := { d.cch with range := none, main := [(16, tline 15 .e)] } }) |> (fun d => { d with gen := { d.gen with mode := .undercoat } }) |> wreg 0xC010 0xF0000), ⟨by decide, by decide, by decide, by decide⟩⟩

theorem witness_RangeEngineRunsOneOperation_6 : ∃ (s : State) (c : Instr),
    pairRuns s.dev = true ∧ s.dev.cch.range ≠ none ∧ c ∈ [Instr.invalidate .mgmt, .clean .mgmt, .purgeOwner .mgmt, .zeroLine .mgmt] :=
  ⟨atd (({} : Device) |> (fun d => { d with cch := { d.cch with range := some (.clean, []) } })), (.clean .mgmt), ⟨by decide, by decide, by decide⟩⟩

theorem witness_RangeEngineRunsOneOperation_7 : ∃ (s : State) (op : RangeOp),
    s.dev.cch.range = some (op, []) ∧ s.dev.rcl.tasks = [] ∧ s.dev.rcl.groups = [] ∧ s.dev.cry.ops = [] :=
  ⟨atd (({} : Device) |> (fun d => { d with cch := { d.cch with range := some (.clean, []) } }) |> (fun d => { d with rcl := { d.rcl with tasks := [], groups := [] } }) |> (fun d => { d with cry := { d.cry with ops := [] } })), .clean, ⟨by decide, by decide, by decide, by decide⟩⟩

theorem witness_RangeEngineRunsOneOperation_8 : ∃ (s : State) (op : RangeOp) (k : Nat) (ks : List Nat),
    s.dev.cch.range = some (op, k :: ks) :=
  ⟨atd (({} : Device) |> (fun d => { d with cch := { d.cch with range := some (.clean, [3]) } })), .clean, 3, [], by decide⟩

theorem witness_PeerRequestsAreAnswered_1 : ∃ (s : State) (cr : Credits) (k : Nat),
    s.dev.lath.live = true ∧ s.dev.gen.mode = .topcoat ∧ k < 16 ∧ tableBusy s.dev k = false ∧ ((requestOut s.dev k = false ∨ twinId s.dev = 1)) ∧ evictOut s.dev k = false ∧ cohOf s.dev k = .m :=
  ⟨atd (({} : Device) |> (fun d => { d with lath := { d.lath with live := true, strap := 1 } }) |> (fun d => { d with gen := { d.gen with mode := .topcoat } }) |> (fun d => { d with cch := { d.cch with notices := [], requests := [], victim := [] } }) |> (fun d => { d with cch := { d.cch with main := [(16, tline 15 .m)] } })), crd, 15, ⟨by decide, by decide, by decide, by decide, by decide, by decide, by decide⟩⟩

theorem witness_PeerRequestsAreAnswered_2 : ∃ (s : State) (cr : Credits) (k : Nat),
    s.dev.lath.live = true ∧ s.dev.gen.mode = .topcoat ∧ k < 16 ∧ tableBusy s.dev k = false ∧ ((requestOut s.dev k = false ∨ twinId s.dev = 1)) ∧ evictOut s.dev k = false ∧ cohOf s.dev k = .e :=
  ⟨atd (({} : Device) |> (fun d => { d with lath := { d.lath with live := true, strap := 1 } }) |> (fun d => { d with gen := { d.gen with mode := .topcoat } }) |> (fun d => { d with cch := { d.cch with notices := [], requests := [], victim := [] } }) |> (fun d => { d with cch := { d.cch with main := [(16, tline 15 .e)] } })), crd, 15, ⟨by decide, by decide, by decide, by decide, by decide, by decide, by decide⟩⟩

theorem witness_PeerRequestsAreAnswered_3 : ∃ (s : State) (cr : Credits) (k : Nat),
    s.dev.lath.live = true ∧ s.dev.gen.mode = .topcoat ∧ k < 16 ∧ tableBusy s.dev k = false ∧ ((requestOut s.dev k = false ∨ twinId s.dev = 1)) ∧ evictOut s.dev k = false ∧ cohOf s.dev k = .i :=
  ⟨atd (({} : Device) |> (fun d => { d with lath := { d.lath with live := true, strap := 1 } }) |> (fun d => { d with gen := { d.gen with mode := .topcoat } }) |> (fun d => { d with cch := { d.cch with notices := [], requests := [], victim := [] } }) |> (fun d => { d with cch := { d.cch with main := [] } })), crd, 15, ⟨by decide, by decide, by decide, by decide, by decide, by decide, by decide⟩⟩

theorem witness_PeerRequestsAreAnswered_4 : ∃ (s : State) (cr : Credits) (k : Nat),
    s.dev.lath.live = true ∧ s.dev.gen.mode = .topcoat ∧ k < 16 ∧ tableBusy s.dev k = false ∧ ((requestOut s.dev k = false ∨ twinId s.dev = 1)) ∧ evictOut s.dev k = false ∧ cohOf s.dev k = .m :=
  ⟨atd (({} : Device) |> (fun d => { d with lath := { d.lath with live := true, strap := 1 } }) |> (fun d => { d with gen := { d.gen with mode := .topcoat } }) |> (fun d => { d with cch := { d.cch with notices := [], requests := [], victim := [] } }) |> (fun d => { d with cch := { d.cch with main := [(16, tline 15 .m)] } })), crd, 15, ⟨by decide, by decide, by decide, by decide, by decide, by decide, by decide⟩⟩

theorem witness_PeerRequestsAreAnswered_5 : ∃ (s : State) (cr : Credits) (k : Nat),
    s.dev.lath.live = true ∧ s.dev.gen.mode = .topcoat ∧ k < 16 ∧ tableBusy s.dev k = false ∧ ((requestOut s.dev k = false ∨ twinId s.dev = 1)) ∧ evictOut s.dev k = false ∧ cohOf s.dev k ≠ .m :=
  ⟨atd (({} : Device) |> (fun d => { d with lath := { d.lath with live := true, strap := 1 } }) |> (fun d => { d with gen := { d.gen with mode := .topcoat } }) |> (fun d => { d with cch := { d.cch with notices := [], requests := [], victim := [] } }) |> (fun d => { d with cch := { d.cch with main := [(16, tline 15 .s)] } })), crd, 15, ⟨by decide, by decide, by decide, by decide, by decide, by decide, by decide⟩⟩

theorem witness_PeerRequestsAreAnswered_6 : ∃ (s : State) (cr : Credits) (k : Nat),
    s.dev.lath.live = true ∧ s.dev.gen.mode = .topcoat ∧ k < 16 ∧ tableBusy s.dev k = false ∧ ((requestOut s.dev k = false ∨ twinId s.dev = 1)) ∧ evictOut s.dev k = false ∧ cohOf s.dev k ≠ .m :=
  ⟨atd (({} : Device) |> (fun d => { d with lath := { d.lath with live := true, strap := 1 } }) |> (fun d => { d with gen := { d.gen with mode := .topcoat } }) |> (fun d => { d with cch := { d.cch with notices := [], requests := [], victim := [] } }) |> (fun d => { d with cch := { d.cch with main := [(16, tline 15 .s)] } })), crd, 15, ⟨by decide, by decide, by decide, by decide, by decide, by decide, by decide⟩⟩

theorem witness_PeerRequestsAreAnswered_7 : ∃ (s : State) (cr : Credits) (k : Nat) (c : Instr),
    s.dev.lath.live = true ∧ s.dev.gen.mode = .topcoat ∧ k < 16 ∧ tableBusy s.dev k = false ∧ ((requestOut s.dev k = false ∨ twinId s.dev = 1)) ∧ c ∈ [Instr.rd cr k, .own cr k, .upg cr k] ∧ evictOut s.dev k = true :=
  ⟨atd (({} : Device) |> (fun d => { d with lath := { d.lath with live := true, strap := 1 } }) |> (fun d => { d with gen := { d.gen with mode := .topcoat } }) |> (fun d => { d with cch := { d.cch with notices := [], requests := [], victim := [] } }) |> (fun d => { d with cch := { d.cch with notices := [15] } })), crd, 15, (.own crd 15), ⟨by decide, by decide, by decide, by decide, by decide, by decide, by decide⟩⟩

theorem witness_PeerAnswersAndNoticesTakeEffect_1 : ∃ (s : State) (cr : Credits) (k : Nat) (recs : TableRecs) (poison : BitVec 32) (c : Coh),
    s.dev.lath.live = true ∧ requestOut s.dev k = true :=
  ⟨atd (({} : Device) |> (fun d => { d with lath := { d.lath with live := true } }) |> (fun d => { d with cch := { d.cch with requests := [(15, some .rd)] } })), crd, 15, [], 1, .e, ⟨by decide, by decide⟩⟩

theorem witness_PeerAnswersAndNoticesTakeEffect_2 : ∃ (s : State) (cr : Credits) (k : Nat) (recs : TableRecs) (poison : BitVec 32) (c : Coh),
    s.dev.lath.live = true ∧ requestOut s.dev k = true ∧ NothingWaits s.dev ∧ (findLine s.dev (isTable k)).isSome = true :=
  ⟨atd (({} : Device) |> (fun d => { d with lath := { d.lath with live := true } }) |> (fun d => { d with rcl := { d.rcl with tasks := [], groups := [] } }) |> (fun d => { d with cry := { d.cry with ops := [] } }) |> (fun d => { d with cch := { d.cch with range := none, deferred := [], victim := [] } }) |> (fun d => { d with cch := { d.cch with requests := [(15, some .rd)], main := [(16, tline 15 .s)] } })), crd, 15, [], 1, .e, ⟨by decide, by decide, ⟨rfl, rfl, rfl, rfl, rfl⟩, by decide⟩⟩

theorem witness_PeerAnswersAndNoticesTakeEffect_3 : ∃ (s : State) (cr : Credits) (k : Nat) (recs : TableRecs) (poison : BitVec 32) (c : Coh),
    s.dev.lath.live = true ∧ requestOut s.dev k = true ∧ NothingWaits s.dev ∧ (findLine s.dev (isTable k)).isSome = true :=
  ⟨atd (({} : Device) |> (fun d => { d with lath := { d.lath with live := true } }) |> (fun d => { d with rcl := { d.rcl with tasks := [], groups := [] } }) |> (fun d => { d with cry := { d.cry with ops := [] } }) |> (fun d => { d with cch := { d.cch with range := none, deferred := [], victim := [] } }) |> (fun d => { d with cch := { d.cch with requests := [(15, some .rd)], main := [(16, tline 15 .s)] } })), crd, 15, [], 1, .e, ⟨by decide, by decide, ⟨rfl, rfl, rfl, rfl, rfl⟩, by decide⟩⟩

theorem witness_PeerAnswersAndNoticesTakeEffect_4 : ∃ (s : State) (cr : Credits) (k : Nat) (recs : TableRecs) (poison : BitVec 32) (c : Coh),
    s.dev.lath.live = true ∧ requestOut s.dev k = false :=
  ⟨atd (({} : Device) |> (fun d => { d with lath := { d.lath with live := true } }) |> (fun d => { d with cch := { d.cch with requests := [] } })), crd, 15, [], 1, .e, ⟨by decide, by decide⟩⟩

theorem witness_PeerAnswersAndNoticesTakeEffect_5 : ∃ (s : State) (cr : Credits) (k : Nat) (recs : TableRecs) (poison : BitVec 32) (c : Coh),
    s.dev.lath.live = true ∧ requestOut s.dev k = false ∧ s.dev.gen.mode = .topcoat :=
  ⟨atd (({} : Device) |> (fun d => { d with lath := { d.lath with live := true } }) |> (fun d => { d with gen := { d.gen with mode := .topcoat } }) |> (fun d => { d with cch := { d.cch with requests := [] } })), crd, 15, [], 1, .e, ⟨by decide, by decide, by decide⟩⟩

theorem witness_PeerAnswersAndNoticesTakeEffect_6 : ∃ (s : State) (cr : Credits) (k : Nat) (recs : TableRecs) (poison : BitVec 32) (c : Coh),
    s.dev.lath.live = true ∧ requestOut s.dev k = false ∧ s.dev.gen.mode = .topcoat :=
  ⟨atd (({} : Device) |> (fun d => { d with lath := { d.lath with live := true } }) |> (fun d => { d with gen := { d.gen with mode := .topcoat } }) |> (fun d => { d with cch := { d.cch with requests := [] } })), crd, 15, [], 1, .e, ⟨by decide, by decide, by decide⟩⟩

theorem witness_PeerAnswersAndNoticesTakeEffect_7 : ∃ (s : State) (cr : Credits) (k : Nat) (recs : TableRecs) (poison : BitVec 32) (c : Coh),
    s.dev.lath.live = true ∧ s.dev.gen.mode = .topcoat :=
  ⟨atd (({} : Device) |> (fun d => { d with lath := { d.lath with live := true } }) |> (fun d => { d with gen := { d.gen with mode := .topcoat } })), crd, 15, [], 1, .e, ⟨by decide, by decide⟩⟩

theorem witness_PeerAnswersAndNoticesTakeEffect_8 : ∃ (s : State) (cr : Credits) (k : Nat) (recs : TableRecs) (poison : BitVec 32) (c : Coh) (i : Instr),
    s.dev.lath.live = true ∧ i ∈ [Instr.evict cr k, .evictD cr k recs poison, .cleanD cr k recs poison] ∧ s.dev.gen.mode ≠ .topcoat :=
  ⟨atd (({} : Device) |> (fun d => { d with lath := { d.lath with live := true } }) |> (fun d => { d with gen := { d.gen with mode := .undercoat } })), crd, 15, [], 1, .e, (.cleanD crd 15 [] 1), ⟨by decide, by decide, by decide⟩⟩

theorem witness_PeerAnswersAndNoticesTakeEffect_9 : ∃ (s : State) (cr : Credits) (k : Nat) (recs : TableRecs) (poison : BitVec 32) (c : Coh),
    s.dev.lath.live = true ∧ NothingWaits s.dev :=
  ⟨atd (({} : Device) |> (fun d => { d with lath := { d.lath with live := true } }) |> (fun d => { d with rcl := { d.rcl with tasks := [], groups := [] } }) |> (fun d => { d with cry := { d.cry with ops := [] } }) |> (fun d => { d with cch := { d.cch with range := none, deferred := [], victim := [] } }) |> (fun d => { d with cch := { d.cch with notices := [15] } })), crd, 15, [], 1, .e, ⟨by decide, ⟨rfl, rfl, rfl, rfl, rfl⟩⟩⟩

theorem witness_CacheLinesAgeFillAndFail_1 : ∃ (s : State),
    ((4096 ≤ s.dev.cch.accesses ∨ s.dev.cch.agedAt + 25000 ≤ s.dev.now)) :=
  ⟨atd (({} : Device) |> (fun d => { d with cch := { d.cch with accesses := 4096 } })), by decide⟩

theorem witness_CacheLinesAgeFillAndFail_2 : ∃ (s : State),
    s.dev.cch.accesses < 4096 ∧ s.dev.now < s.dev.cch.agedAt + 25000 :=
  ⟨atd (({} : Device) |> (fun d => { d with cch := { d.cch with accesses := 4095, agedAt := 0 } }) |> (fun d => { d with pacing := { d.pacing with now := 24999 } })), ⟨by decide, by decide⟩⟩

theorem witness_CacheLinesAgeFillAndFail_3 : ∃ (s : State) (l : Line) (i : Nat),
    s.dev.cch.waiting = [l] ∧ heldByRange s.dev l = false ∧ l.table = false ∧ (List.range 64).find? (fun j => !(s.dev.line j).valid) = some i :=
  ⟨atd (({} : Device) |> (fun d => { d with cch := { d.cch with waiting := [sline], range := none, main := [] } })), sline, 0, ⟨by decide, by decide, by decide, by decide⟩⟩

theorem witness_CacheLinesAgeFillAndFail_4 : ∃ (s : State),
    s.dev.cch.waiting = [] :=
  ⟨atd (({} : Device) |> (fun d => { d with cch := { d.cch with waiting := [] } })), by decide⟩

theorem witness_CacheLinesAgeFillAndFail_5 : ∃ (s : State) (i : Nat) (records : BitVec 32),
    i < 64 ∧ (s.dev.line i).valid = true ∧ (s.dev.line i).table = false :=
  ⟨atd (({} : Device) |> (fun d => { d with cch := { d.cch with main := [(63, sline)] } })), 63, 1, ⟨by decide, by decide, by decide⟩⟩

theorem witness_CacheLinesAgeFillAndFail_6 : ∃ (s : State) (i : Nat) (records : BitVec 32),
    i < 64 ∧ (s.dev.line i).valid = true ∧ (s.dev.line i).table = true :=
  ⟨atd (({} : Device) |> (fun d => { d with cch := { d.cch with main := [(63, tline 15 .m)] } })), 63, 1, ⟨by decide, by decide, by decide⟩⟩

theorem witness_CacheLinesAgeFillAndFail_7 : ∃ (s : State) (k : Nat),
    ((requestOut s.dev k = false ∨ twinId s.dev = 1)) :=
  ⟨atd (({} : Device) |> (fun d => { d with cch := { d.cch with requests := [] } })), 15, by decide⟩

theorem witness_CacheLinesAgeFillAndFail_8 : ∃ (s : State) (k : Nat),
    s.dev.cch.deferred = [] :=
  ⟨atd (({} : Device) |> (fun d => { d with cch := { d.cch with deferred := [] } })), 15, by decide⟩

theorem witness_LathTurnsAndLiveness_1 : ∃ (s : State) (m : LathMsg) (arbIn : Option Nat),
    s.dev.lath.live = true ∧ s.dev.lath.arbOut = true ∧ s.dev.lath.guard = false ∧ s.dev.lath.arbSince + 5 ≤ s.dev.now ∧ s.dev.lath.queue = [m] ∧ hasCredit s.dev.lath m = true ∧ ((arbIn ≠ some 0 ∨ msgClass m = 0)) :=
  ⟨atd (({} : Device) |> (fun d => { d with lath := { d.lath with live := true, arbOut := true, arbSince := 0, guard := false, queue := [.detachAck], creditC := 32, creditD := 8 } }) |> (fun d => { d with pacing := { d.pacing with now := 5 } })), (.detachAck), (some 0), ⟨by decide, by decide, by decide, by decide, by decide, by decide, by decide⟩⟩

theorem witness_LathTurnsAndLiveness_2 : ∃ (s : State) (m : LathMsg),
    s.dev.lath.live = true ∧ s.dev.lath.arbOut = true ∧ s.dev.lath.guard = false ∧ s.dev.lath.arbSince + 5 ≤ s.dev.now ∧ s.dev.lath.queue = [m] ∧ msgClass m ≠ 0 :=
  ⟨atd (({} : Device) |> (fun d => { d with lath := { d.lath with live := true, arbOut := true, arbSince := 0, guard := false, queue := [.pairConfirm 3], creditC := 32, creditD := 8 } }) |> (fun d => { d with pacing := { d.pacing with now := 5 } })), (.pairConfirm 3), ⟨by decide, by decide, by decide, by decide, by decide, by decide⟩⟩

theorem witness_LathTurnsAndLiveness_3 : ∃ (s : State) (arbIn : Option Nat),
    ((s.dev.lath.guard = true ∨ s.dev.now < s.dev.lath.arbSince + 5)) :=
  ⟨atd (({} : Device) |> (fun d => { d with lath := { d.lath with guard := true } })), none, by decide⟩

theorem witness_LathTurnsAndLiveness_4 : ∃ (s : State),
    s.dev.lath.live = true ∧ s.dev.lath.arbOut = true ∧ twinId s.dev = 0 :=
  ⟨atd (({} : Device) |> (fun d => { d with lath := { d.lath with live := true, arbOut := true, strap := 0 } })), ⟨by decide, by decide, by decide⟩⟩

theorem witness_LathTurnsAndLiveness_5 : ∃ (s : State),
    s.dev.lath.live = true ∧ s.dev.lath.arbOut = true ∧ twinId s.dev = 1 :=
  ⟨atd (({} : Device) |> (fun d => { d with lath := { d.lath with live := true, arbOut := true, strap := 1 } })), ⟨by decide, by decide, by decide⟩⟩

theorem witness_LathTurnsAndLiveness_6 : ∃ (s : State),
    s.dev.lath.guard = true ∧ s.dev.lath.guardEnd ≤ s.dev.now :=
  ⟨atd (({} : Device) |> (fun d => { d with lath := { d.lath with guard := true, guardEnd := 12, queue := [.detachAck] } }) |> (fun d => { d with pacing := { d.pacing with now := 12 } })), ⟨by decide, by decide⟩⟩

theorem witness_LathTurnsAndLiveness_7 : ∃ (s : State),
    s.dev.now < s.dev.lath.guardEnd :=
  ⟨atd (({} : Device) |> (fun d => { d with lath := { d.lath with guardEnd := 12 } }) |> (fun d => { d with pacing := { d.pacing with now := 11 } })), by decide⟩

theorem witness_LathTurnsAndLiveness_8 : ∃ (s : State),
    s.dev.lath.pauseUntil = none ∧ s.dev.lath.aliveAt + 2500 ≤ s.dev.now :=
  ⟨atd (({} : Device) |> (fun d => { d with lath := { d.lath with pauseUntil := none, aliveAt := 0 } }) |> (fun d => { d with pacing := { d.pacing with now := 2500 } })), ⟨by decide, by decide⟩⟩

theorem witness_LathTurnsAndLiveness_9 : ∃ (s : State),
    ((s.dev.lath.pauseUntil ≠ none ∨ s.dev.now < s.dev.lath.aliveAt + 2500)) :=
  ⟨atd (({} : Device) |> (fun d => { d with lath := { d.lath with pauseUntil := some 4 } })), by decide⟩

theorem witness_LathTurnsAndLiveness_10 : ∃ (s : State) (t : Nat),
    s.dev.lath.pauseUntil = some t ∧ t ≤ s.dev.now :=
  ⟨atd (({} : Device) |> (fun d => { d with lath := { d.lath with pauseUntil := some 0 } })), 0, ⟨by decide, by decide⟩⟩

theorem witness_LathTurnsAndLiveness_11 : ∃ (s : State),
    s.dev.lath.live = true :=
  ⟨atd (({} : Device) |> (fun d => { d with lath := { d.lath with live := true } })), by decide⟩

theorem witness_LathTurnsAndLiveness_12 : ∃ (s : State),
    s.dev.lath.live = true :=
  ⟨atd (({} : Device) |> (fun d => { d with lath := { d.lath with live := true } })), by decide⟩

theorem witness_LathTurnsAndLiveness_13 : ∃ (s : State),
    s.dev.lath.live = false ∧ s.dev.lath.pauseUntil = none ∧ s.dev.gen.mode ≠ .primer :=
  ⟨atd (({} : Device) |> (fun d => { d with lath := { d.lath with live := false, pauseUntil := none } }) |> (fun d => { d with gen := { d.gen with mode := .undercoat } })), ⟨by decide, by decide, by decide⟩⟩

theorem witness_PeerHealthModeAndAttach_1 : ∃ (s : State) (low : Nat),
    inPeer s.dev = true ∧ 1000 ≤ low ∧ low ≤ 50000 :=
  ⟨atd (({} : Device) |> (fun d => { d with fio := { d.fio with levels := 2 } })), 50000, ⟨by decide, by decide, by decide⟩⟩

theorem witness_PeerHealthModeAndAttach_2 : ∃ (s : State) (low : Nat),
    ((low < 1000 ∨ 50000 < low)) :=
  ⟨atd (({} : Device) |> (fun d => { d with fio := { d.fio with levels := 2 } })), 50001, by decide⟩

theorem witness_PeerHealthModeAndAttach_3 : ∃ (s : State),
    s.dev.lath.peerHealthy = true ∧ peerLooksFaulted s.dev = true :=
  ⟨atd (({} : Device) |> (fun d => { d with lath := { d.lath with peerHealthy := true } }) |> (fun d => { d with fio := { d.fio with lastPulse := 0 } }) |> (fun d => { d with pacing := { d.pacing with now := 7500000 } })), ⟨by decide, by decide⟩⟩

theorem witness_PeerHealthModeAndAttach_4 : ∃ (s : State),
    s.dev.lath.peerHealthy = false ∧ inPeer s.dev = true ∧ peerLooksFaulted s.dev = false ∧ s.dev.fio.peerGoodSince + ticksPerS ≤ s.dev.now :=
  ⟨atd (({} : Device) |> (fun d => { d with lath := { d.lath with peerHealthy := false } }) |> (fun d => { d with fio := { d.fio with levels := 2, peerLowSince := none, lastPulse := 25000000, peerGoodSince := 0 } }) |> (fun d => { d with pacing := { d.pacing with now := 25000000 } })), ⟨by decide, by decide, by decide, by decide⟩⟩

theorem witness_PeerHealthModeAndAttach_5 : ∃ (s : State) (cr : Credits) (sealing : Bool),
    s.dev.lath.live = true ∧ s.dev.gen.mode ≠ .topcoat :=
  ⟨atd (({} : Device) |> (fun d => { d with lath := { d.lath with live := true } }) |> (fun d => { d with gen := { d.gen with mode := .undercoat } })), crd, true, ⟨by decide, by decide⟩⟩

theorem witness_PeerHealthModeAndAttach_6 : ∃ (s : State) (cr : Credits) (m : Mode),
    s.dev.lath.live = true ∧ s.dev.gen.mode = .topcoat ∧ s.dev.lath.detaching = none ∧ m ≠ .topcoat :=
  ⟨atd (({} : Device) |> (fun d => { d with lath := { d.lath with live := true, detaching := none } }) |> (fun d => { d with gen := { d.gen with mode := .topcoat } })), crd, .dustSheet, ⟨by decide, by decide, by decide, by decide⟩⟩

theorem witness_PeerHealthModeAndAttach_7 : ∃ (s : State) (cr : Credits),
    s.dev.lath.live = true ∧ s.dev.gen.mode = .undercoat ∧ s.dev.lath.sentTopcoat = true ∧ s.dev.lath.peerHealthy = true :=
  ⟨atd (({} : Device) |> (fun d => { d with lath := { d.lath with live := true, sentTopcoat := true, peerHealthy := true } }) |> (fun d => { d with gen := { d.gen with mode := .undercoat } })), crd, ⟨by decide, by decide, by decide, by decide⟩⟩

theorem witness_PeerHealthModeAndAttach_8 : ∃ (s : State) (cr : Credits) (b : AttachBlock),
    s.dev.lath.live = true ∧ s.dev.gen.mode ≠ .primer ∧ ((s.dev.gen.mode = .topcoat → b.mode = .topcoat)) ∧ s.dev.lath.ackSent = false ∧ s.dev.lath.ackSeen = false :=
  ⟨atd (({} : Device) |> (fun d => { d with lath := { d.lath with live := true, ackSent := false, ackSeen := false } }) |> (fun d => { d with gen := { d.gen with mode := .undercoat } })), crd, blk, ⟨by decide, by decide, by decide, by decide, by decide⟩⟩

theorem witness_PeerHealthModeAndAttach_9 : ∃ (s : State) (cr : Credits) (b : AttachBlock),
    s.dev.lath.live = true ∧ s.dev.gen.mode ≠ .primer ∧ s.dev.lath.ackSent = true ∧ ((b.twinId = twinId s.dev ∨ b.paired = false ∨ b.fingerprint ≠ (myBlock s.dev).fingerprint)) :=
  ⟨atd (({} : Device) |> (fun d => { d with lath := { d.lath with live := true, ackSent := true, strap := 1 } }) |> (fun d => { d with gen := { d.gen with mode := .undercoat } })), crd, blk, ⟨by decide, by decide, by decide, by decide⟩⟩

theorem witness_PeerHealthModeAndAttach_10 : ∃ (s : State) (cr : Credits) (b : AttachBlock),
    s.dev.lath.live = true ∧ s.dev.gen.mode = .undercoat ∧ s.dev.lath.ackSent = true ∧ b.twinId ≠ twinId s.dev ∧ b.paired = true ∧ isPaired s.dev = true ∧ b.fingerprint = (myBlock s.dev).fingerprint ∧ b.mode = .undercoat ∧ s.dev.lath.peerHealthy = true ∧ s.dev.pwr.sealStep = 0 :=
  ⟨atd (({} : Device) |> (fun d => { d with lath := { d.lath with live := true, ackSent := true, strap := 0, peerHealthy := true } }) |> (fun d => { d with gen := { d.gen with mode := .undercoat } }) |> (fun d => { d with cry := { d.cry with pairKey := some 1 } }) |> (fun d => { d with pwr := { d.pwr with sealStep := 0 } }) |> (fun d => { d with nv := { d.nv with pairRecord := some 0 } })), crd, { myBlock (({} : Device) |> (fun d => { d with lath := { d.lath with live := true, ackSent := true, strap := 0, peerHealthy := true } }) |> (fun d => { d with gen := { d.gen with mode := .undercoat } }) |> (fun d => { d with cry := { d.cry with pairKey := some 1 } }) |> (fun d => { d with pwr := { d.pwr with sealStep := 0 } }) |> (fun d => { d with nv := { d.nv with pairRecord := some 0 } })) with twinId := 1, paired := true }, ⟨by decide, by decide, by decide, by decide, by decide, by decide, rfl, by decide, by decide, by decide⟩⟩

theorem witness_PeerHealthModeAndAttach_11 : ∃ (s : State) (cr : Credits) (k : Nat) (recs : TableRecs) (poison : BitVec 32),
    s.dev.lath.live = true ∧ s.dev.lath.link = .reconciling ∧ k < 16 ∧ s.dev.lath.tablesSeen.contains k = false ∧ s.dev.lath.tablesSeen.length < 15 :=
  ⟨atd (({} : Device) |> (fun d => { d with lath := { d.lath with live := true, link := .reconciling, tablesSeen := List.range 14 } })), crd, 15, [(3, {})], 2, ⟨by decide, by decide, by decide, by decide, by decide⟩⟩

theorem witness_MirroredGroupsCross_1 : ∃ (s : State) (cr : Credits) (xid : Nat) (owner : Nat) (mark : Nat) (n : Nat),
    s.dev.lath.live = true ∧ s.dev.gen.mode = .topcoat ∧ s.dev.hif.ps = 0 :=
  ⟨atd (({} : Device) |> (fun d => { d with lath := { d.lath with live := true } }) |> (fun d => { d with gen := { d.gen with mode := .topcoat } }) |> (fun d => { d with hif := { d.hif with ps := 0 } })), crd, 3, 1, 5, 2, ⟨by decide, by decide, by decide⟩⟩

theorem witness_MirroredGroupsCross_2 : ∃ (s : State) (cr : Credits) (xid : Nat) (owner : Nat) (mark : Nat) (n : Nat),
    s.dev.lath.live = true ∧ s.dev.gen.mode = .undercoat ∧ s.dev.hif.ps = 0 :=
  ⟨atd (({} : Device) |> (fun d => { d with lath := { d.lath with live := true } }) |> (fun d => { d with gen := { d.gen with mode := .undercoat } }) |> (fun d => { d with hif := { d.hif with ps := 0 } })), crd, 3, 1, 5, 2, ⟨by decide, by decide, by decide⟩⟩

theorem witness_MirroredGroupsCross_3 : ∃ (s : State) (cr : Credits) (xid : Nat) (unit : Nat) (bytes : List Byte) (poison : BitVec 32) (x : Exchange),
    s.dev.lath.live = true ∧ s.dev.lath.exchanges.find? (fun y => y.xid = xid && y.catching = false) = some x ∧ (∀ u ∈ x.received, u.1 ≠ unit) ∧ x.received.length + 1 < x.units :=
  ⟨atd (({} : Device) |> (fun d => { d with lath := { d.lath with live := true, exchanges := [exch] } })), crd, 3, 1, [7], 0, exch, ⟨by decide, by decide, by decide, by decide⟩⟩

theorem witness_MirroredGroupsCross_4 : ∃ (s : State) (cr : Credits) (xid : Nat) (unit : Nat) (bytes : List Byte) (poison : BitVec 32) (x : Exchange),
    s.dev.lath.live = true ∧ s.dev.lath.exchanges.find? (fun y => y.xid = xid && y.catching = true) = some x ∧ (∀ u ∈ x.received, u.1 ≠ unit) ∧ x.received.length + 1 < x.units :=
  ⟨atd (({} : Device) |> (fun d => { d with lath := { d.lath with live := true, exchanges := [exchC] } })), crd, 3, 1, [7], 0, exchC, ⟨by decide, by decide, by decide, by decide⟩⟩

theorem witness_MirroredGroupsCross_5 : ∃ (s : State) (cr : Credits) (xid : Nat) (t : Nat) (ovr : Bool) (g : Machine.Group),
    s.dev.lath.live = true ∧ s.dev.rcl.groups = [g] ∧ s.dev.lath.openXids = [(xid, g.id)] ∧ g.role = .leader t ∧ g.stream < 512 ∧ g.st = .open ∧ g.sent = true :=
  ⟨atd (({} : Device) |> (fun d => { d with lath := { d.lath with live := true, openXids := [(3, 0)] } }) |> (fun d => { d with rcl := { d.rcl with groups := [grpL] } })), crd, 3, 0, true, grpL, ⟨by decide, by decide, by decide, by decide, by decide, by decide, by decide⟩⟩

theorem witness_MirroredGroupsCross_6 : ∃ (s : State) (cr : Credits) (xid : Nat) (t : Nat) (status : Nat) (g : Machine.Group),
    s.dev.lath.live = true ∧ s.dev.rcl.groups = [g] ∧ s.dev.lath.openXids = [(xid, g.id)] ∧ g.role = .leader t ∧ g.stream < 512 ∧ g.st = .open ∧ g.sent = true :=
  ⟨atd (({} : Device) |> (fun d => { d with lath := { d.lath with live := true, openXids := [(3, 0)] } }) |> (fun d => { d with rcl := { d.rcl with groups := [grpL] } })), crd, 3, 0, 8, grpL, ⟨by decide, by decide, by decide, by decide, by decide, by decide, by decide⟩⟩

theorem witness_MirroredGroupsCross_7 : ∃ (s : State) (cr : Credits) (xid : Nat) (g : Machine.Group),
    s.dev.lath.live = true ∧ s.dev.rcl.groups = [g] ∧ g.role = .follower xid ∧ g.stream < 512 ∧ g.st = .open :=
  ⟨atd (({} : Device) |> (fun d => { d with lath := { d.lath with live := true } }) |> (fun d => { d with rcl := { d.rcl with groups := [grpF] } })), crd, 3, grpF, ⟨by decide, by decide, by decide, by decide, by decide⟩⟩

theorem witness_CatchUpRecoveryAndDetach_1 : ∃ (s : State) (cr : Credits) (xid : Nat) (mark : Nat) (g : Machine.Group),
    s.dev.lath.live = true ∧ xidGroup s.dev xid = some g ∧ g.stream < 512 :=
  ⟨atd (({} : Device) |> (fun d => { d with lath := { d.lath with live := true, openXids := [(3, 0)] } }) |> (fun d => { d with rcl := { d.rcl with groups := [grp] } })), crd, 3, (markOf 5 2), grp, ⟨by decide, by decide, by decide⟩⟩

theorem witness_CatchUpRecoveryAndDetach_2 : ∃ (s : State) (cr : Credits) (xid : Nat) (mark : Nat) (status : Nat) (g : Machine.Group),
    s.dev.lath.live = true ∧ xidGroup s.dev xid = some g ∧ g.stream < 512 :=
  ⟨atd (({} : Device) |> (fun d => { d with lath := { d.lath with live := true, openXids := [(3, 0)] } }) |> (fun d => { d with rcl := { d.rcl with groups := [grp] } })), crd, 3, (markOf 5 2), 8, grp, ⟨by decide, by decide, by decide⟩⟩

theorem witness_CatchUpRecoveryAndDetach_3 : ∃ (s : State) (cr : Credits) (mark : Nat),
    s.dev.lath.live = true ∧ (streamRec s.dev (markStream mark)).head = markSeq mark :=
  ⟨atd (({} : Device) |> (fun d => { d with lath := { d.lath with live := true } }) |> (fun d => { d with cch := { d.cch with main := [(0, tline 0 .m)], victim := [] } })), crd, (markOf 5 0), ⟨by decide, by decide⟩⟩

theorem witness_CatchUpRecoveryAndDetach_4 : ∃ (s : State) (cr : Credits) (mark : Nat) (h : BitVec 128),
    s.dev.lath.live = true ∧ (s.dev.lath.chainAsked.find? fun p => p.1 = mark) = none :=
  ⟨atd (({} : Device) |> (fun d => { d with lath := { d.lath with live := true, chainAsked := [] } })), crd, (markOf 5 2), 9, ⟨by decide, by decide⟩⟩

theorem witness_CatchUpRecoveryAndDetach_5 : ∃ (s : State) (cr : Credits) (mark : Nat) (h : BitVec 128),
    s.dev.lath.live = true ∧ (s.dev.lath.chainAsked.find? fun p => p.1 = mark) = some (mark, .adopt) ∧ s.dev.gen.mode = .undercoat ∧ s.dev.rcl.groups = [] ∧ s.dev.lath.link ≠ .catchup ∧ (findLine s.dev (isTable (markStream mark / 32))).isSome = true :=
  ⟨atd (({} : Device) |> (fun d => { d with lath := { d.lath with live := true, chainAsked := [(markOf 5 2, .adopt)], link := .attaching } }) |> (fun d => { d with gen := { d.gen with mode := .undercoat } }) |> (fun d => { d with rcl := { d.rcl with groups := [] } }) |> (fun d => { d with cch := { d.cch with main := [(0, tline 0 .e)], victim := [] } })), crd, (markOf 5 2), 9, ⟨by decide, by decide, by decide, by decide, by decide, by decide⟩⟩

theorem witness_CatchUpRecoveryAndDetach_6 : ∃ (s : State) (cr : Credits) (xid : Nat) (mark : Nat) (unit : Nat),
    s.dev.lath.live = true ∧ s.dev.gen.mode = .topcoat ∧ unit < 65536 ∧ groupHeld s.dev (markStream mark) (markSeq mark) = none ∧ ((markSeq mark < (streamRec s.dev (markStream mark)).tail ∨ (streamRec s.dev (markStream mark)).head ≤ markSeq mark)) :=
  ⟨atd (({} : Device) |> (fun d => { d with lath := { d.lath with live := true } }) |> (fun d => { d with gen := { d.gen with mode := .topcoat } }) |> (fun d => { d with rcl := { d.rcl with groups := [] } })), crd, 3, (markOf 5 2), 65535, ⟨by decide, by decide, by decide, by decide, by decide⟩⟩

theorem witness_CatchUpRecoveryAndDetach_7 : ∃ (s : State) (cr : Credits) (xid : Nat) (mark : Nat) (unit : Nat) (g : Machine.Group) (r : RecInfo),
    s.dev.lath.live = true ∧ s.dev.gen.mode = .topcoat ∧ unit < 65535 ∧ groupHeld s.dev (markStream mark) (markSeq mark) = some g ∧ g.recs.find? (fun r => r.seq = markSeq mark) = some r ∧ 4096 * unit < r.len ∧ groupParts g (r.off + 4096 * unit) (min 4096 (r.len - 4096 * unit)) 0 ≠ [] :=
  ⟨atd (({} : Device) |> (fun d => { d with lath := { d.lath with live := true } }) |> (fun d => { d with gen := { d.gen with mode := .topcoat } }) |> (fun d => { d with rcl := { d.rcl with groups := [grp] } })), crd, 3, (markOf 5 2), 0, grp, ⟨2, 0, 64⟩, ⟨by decide, by decide, by decide, by decide, by decide, by decide, by decide⟩⟩

theorem witness_CatchUpRecoveryAndDetach_8 : ∃ (s : State) (cr : Credits) (xid : Nat) (unit : Nat) (bytes : List Byte) (poison : BitVec 32) (g : GapRead),
    s.dev.lath.live = true ∧ s.dev.lath.gapReads.find? (fun g => g.xid = xid && g.firstUnit + g.units.length = unit) = some g ∧ bytes.length = 4096 ∧ 4096 * (g.units.length + 1) < g.room :=
  ⟨atd (({} : Device) |> (fun d => { d with lath := { d.lath with live := true, gapReads := [gapr] } })), crd, 3, 0, (List.replicate 4096 1), 0, gapr, ⟨by decide, by decide, List.length_replicate, by decide⟩⟩

theorem witness_CatchUpRecoveryAndDetach_9 : ∃ (s : State) (cr : Credits) (leaving : Nat),
    s.dev.lath.live = true ∧ s.dev.gen.mode = .topcoat ∧ leaving < 2 ∧ s.dev.lath.detaching = none ∧ s.dev.lath.openXids ≠ [] :=
  ⟨atd (({} : Device) |> (fun d => { d with lath := { d.lath with live := true, detaching := none, openXids := [(3, 0)] } }) |> (fun d => { d with gen := { d.gen with mode := .topcoat } })), crd, 1, ⟨by decide, by decide, by decide, by decide, by decide⟩⟩

theorem witness_CatchUpRecoveryAndDetach_10 : ∃ (s : State) (cr : Credits) (leaving : Nat),
    s.dev.lath.live = true ∧ s.dev.gen.mode = .topcoat ∧ s.dev.lath.detaching = some (leaving, none) ∧ s.dev.lath.detachClean = false ∧ s.dev.lath.detachSent = false ∧ s.dev.lath.openXids ≠ [] :=
  ⟨atd (({} : Device) |> (fun d => { d with lath := { d.lath with live := true, detaching := some (1, none), detachClean := false, detachSent := false, openXids := [(3, 0)] } }) |> (fun d => { d with gen := { d.gen with mode := .topcoat } })), crd, 1, ⟨by decide, by decide, by decide, by decide, by decide, by decide⟩⟩

theorem witness_CatchUpRecoveryAndDetach_11 : ∃ (s : State) (cr : Credits),
    s.dev.lath.live = true ∧ s.dev.gen.mode = .topcoat ∧ s.dev.lath.detaching = some (1 - twinId s.dev, none) ∧ s.dev.lath.detachClean = true ∧ s.dev.lath.detachSent = true ∧ s.dev.cch.range = none :=
  ⟨atd (({} : Device) |> (fun d => { d with lath := { d.lath with live := true, strap := 1, detaching := some (0, none), detachClean := true, detachSent := true } }) |> (fun d => { d with gen := { d.gen with mode := .topcoat } }) |> (fun d => { d with cch := { d.cch with range := none } })), crd, ⟨by decide, by decide, by decide, by decide, by decide, by decide⟩⟩

theorem witness_DoorbellPollsTakeTheTails_1 : ∃ (s : State),
    pollDue s.dev = true ∧ s.dev.icu.retention = false :=
  ⟨atd (({} : Device) |> (fun d => { d with hif := { d.hif with lockOk := true, linkUp := true, bme := true, pollSeal := false, polling := false, pollNow := true } }) |> (fun d => { d with icu := { d.icu with retention := false } })), ⟨by decide, by decide⟩⟩

theorem witness_DoorbellPollsTakeTheTails_2 : ∃ (s : State),
    s.dev.hif.pollNow = false ∧ s.dev.now < s.dev.hif.lastPoll + s.dev.hif.interval :=
  ⟨atd (({} : Device) |> (fun d => { d with hif := { d.hif with pollNow := false, lastPoll := 0, interval := 10 } }) |> (fun d => { d with pacing := { d.pacing with now := 9 } })), ⟨by decide, by decide⟩⟩

theorem witness_DoorbellPollsTakeTheTails_3 : ∃ (s : State),
    s.dev.hif.polling = true :=
  ⟨atd (({} : Device) |> (fun d => { d with hif := { d.hif with polling := true } })), by decide⟩

theorem witness_DoorbellPollsTakeTheTails_4 : ∃ (s : State) (page : List Byte),
    s.dev.hif.polling = true ∧ ((∀ n, n < 8 → (s.dev.sq n).st = .running → leAt page (0x40 + 4 * n) 4 < min 4096 (sqSize s.dev n))) ∧ ((∀ n, n < 8 → (s.dev.cq n).st = .running → leAt page (0x60 + 4 * n) 4 < min 4096 (cqSize s.dev n))) :=
  ⟨atd (({} : Device) |> (fun d => { d with hif := { d.hif with polling := true, sqs := [(0, { st := .running })], cqs := [(0, { st := .running })] } }) |> wreg 0x2008 0x80000004 |> wreg 0x2108 0x80000004), (pg [3] [2]), ⟨by decide, by decide, by decide⟩⟩

theorem witness_DoorbellPollsTakeTheTails_5 : ∃ (s : State) (page : List Byte) (n : Nat),
    s.dev.hif.polling = true ∧ n < 8 ∧ (s.dev.sq n).st = .running ∧ min 4096 (sqSize s.dev n) ≤ leAt page (0x40 + 4 * n) 4 :=
  ⟨atd (({} : Device) |> (fun d => { d with hif := { d.hif with polling := true, sqs := [(0, { st := .running })] } }) |> wreg 0x2008 0x80000004), (pg [4] [2]), 0, ⟨by decide, by decide, by decide, by decide⟩⟩

theorem witness_EntriesAreFetchedInTurn_1 : ∃ (s : State),
    mayFetch s.dev = true ∧ wbit (s.dev.reg 0x2200) 31 = true ∧ sqReady s.dev (s.dev.regF 0x2200 2 0) = true :=
  ⟨atd (({} : Device) |> (fun d => { d with hif := { d.hif with lockOk := true, linkUp := true, bme := true, pollSeal := false, fetching := none, cmds := [], sqs := [], ready := [], ps := 0, transition := false } }) |> (fun d => { d with gen := { d.gen with chosen := true, mode := .undercoat } }) |> (updSq 7 fun x => { x with st := .running, fetch := 0, tail := 1 }) |> wreg 0x2200 0x80000007), ⟨by decide, by decide, by decide⟩⟩

theorem witness_EntriesAreFetchedInTurn_2 : ∃ (s : State),
    mayFetch s.dev = true ∧ wbit (s.dev.reg 0x2200) 31 = false ∧ sqReady s.dev s.dev.hif.turn = true ∧ s.dev.hif.turnUsed < s.dev.regF (0x2008 + 0x20 * s.dev.hif.turn) 27 24 + 1 :=
  ⟨atd (({} : Device) |> (fun d => { d with hif := { d.hif with lockOk := true, linkUp := true, bme := true, pollSeal := false, fetching := none, cmds := [], sqs := [], ready := [], ps := 0, transition := false } }) |> (fun d => { d with gen := { d.gen with chosen := true, mode := .undercoat } }) |> (updSq 7 fun x => { x with st := .running, fetch := 0, tail := 1 }) |> wreg 0x2200 0 |> (fun d => { d with hif := { d.hif with turn := 7, turnUsed := 0 } })), ⟨by decide, by decide, by decide, by decide⟩⟩

theorem witness_EntriesAreFetchedInTurn_3 : ∃ (s : State) (k : Nat),
    mayFetch s.dev = true ∧ wbit (s.dev.reg 0x2200) 31 = false ∧ k < 8 ∧ ((sqReady s.dev s.dev.hif.turn = true → s.dev.regF (0x2008 + 0x20 * s.dev.hif.turn) 27 24 + 1 ≤ s.dev.hif.turnUsed)) ∧ sqReady s.dev ((s.dev.hif.turn + 1 + k) % 8) = true ∧ ((∀ j, j < k → sqReady s.dev ((s.dev.hif.turn + 1 + j) % 8) = false)) :=
  ⟨atd (({} : Device) |> (fun d => { d with hif := { d.hif with lockOk := true, linkUp := true, bme := true, pollSeal := false, fetching := none, cmds := [], sqs := [], ready := [], ps := 0, transition := false } }) |> (fun d => { d with gen := { d.gen with chosen := true, mode := .undercoat } }) |> (updSq 7 fun x => { x with st := .running, fetch := 0, tail := 1 }) |> wreg 0x2200 0 |> (fun d => { d with hif := { d.hif with turn := 7, turnUsed := 300 } })), 7, ⟨by decide, by decide, by decide, by decide, by decide, by decide⟩⟩

theorem witness_EntriesAreFetchedInTurn_4 : ∃ (s : State),
    256 ≤ inFlight s.dev :=
  ⟨atd (({} : Device) |> (fun d => { d with hif := { d.hif with cmds := List.replicate 256 (cm []) } })), by decide⟩

theorem witness_EntriesAreFetchedInTurn_5 : ∃ (s : State) (n : Nat),
    s.dev.hif.fetching = some n ∧ (s.dev.sq n).st = .running ∧ n < 8 :=
  ⟨atd (({} : Device) |> (fun d => { d with hif := { d.hif with fetching := some 7 } }) |> (updSq 7 fun x => { x with st := .running })), 7, ⟨by decide, by decide, by decide⟩⟩

theorem witness_EntriesAreFetchedInTurn_6 : ∃ (s : State) (n : Nat) (e : List Byte),
    s.dev.hif.fetching = some n ∧ (∀ x ∈ s.dev.hif.cmds, x.tag ≠ s.dev.hif.nextTag) ∧ entryStatus n e = none ∧ eSgl e = false ∧ modeAccepts s.dev e = true ∧ ((isAdmin (eOpcode e) = true ∨ slotStatus s.dev (ringOwner s.dev n) = none)) ∧ ((needsMedium (newCmd n e s.dev) = true → s.dev.hif.ps = 0)) :=
  ⟨atd (({} : Device) |> (fun d => { d with hif := { d.hif with fetching := some 0, nextTag := 9, cmds := [] } }) |> (fun d => { d with gen := { d.gen with mode := .undercoat } })), 0, (ent 0x40 0 77 0x50000 4096 []), ⟨by decide, by decide, by decide, by decide, by decide, by decide, by decide⟩⟩

theorem witness_EntriesAreFetchedInTurn_7 : ∃ (s : State) (n : Nat) (st : Nat) (e : List Byte),
    s.dev.hif.fetching = some n ∧ (∀ x ∈ s.dev.hif.cmds, x.tag ≠ s.dev.hif.nextTag) ∧ entryStatus n e = some st :=
  ⟨atd (({} : Device) |> (fun d => { d with hif := { d.hif with fetching := some 0, nextTag := 9, cmds := [] } })), 0, stInvalidOpcode, (ent 0x7F 0 77 0 0 []), ⟨by decide, by decide, by decide⟩⟩

theorem witness_PayloadsComeAndCompletionsGo_1 : ∃ (s : State) (tag : Nat) (c : Cmd) (bytes : List Byte),
    s.dev.cmd tag = some c ∧ c.phase = .payload ∧ bytes.length = eDlen c.entry :=
  ⟨atd (({} : Device) |> (fun d => { d with hif := { d.hif with cmds := [cmP] } })), 0, cmP, (List.replicate 200 1), ⟨by decide, by decide, by decide⟩⟩

theorem witness_PayloadsComeAndCompletionsGo_2 : ∃ (s : State) (tag : Nat) (c : Cmd),
    s.dev.cmd tag = some c ∧ c.phase = .payload :=
  ⟨atd (({} : Device) |> (fun d => { d with hif := { d.hif with cmds := [cmP] } })), 0, cmP, ⟨by decide, by decide⟩⟩

theorem witness_PayloadsComeAndCompletionsGo_3 : ∃ (s : State) (tag : Nat) (c : Cmd),
    s.dev.cmd tag = some c ∧ c.phase = .scatter ∧ (s.dev.sq c.sq).st = .running :=
  ⟨atd (({} : Device) |> (fun d => { d with hif := { d.hif with cmds := [cmS] } }) |> (updSq 0 fun x => { x with st := .running })), 0, cmS, ⟨by decide, by decide, by decide⟩⟩

theorem witness_PayloadsComeAndCompletionsGo_4 : ∃ (s : State) (c : Completion) (n : Nat),
    busOpen s.dev = true ∧ s.dev.pwr.st ≠ .sealed ∧ s.dev.gen.enterTag = none ∧ n = cqOf s.dev c.sq ∧ n < 8 ∧ s.dev.hif.ready.find? (fun x => (s.dev.cq (cqOf s.dev x.sq)).st = .running && ringNext (cqSize s.dev (cqOf s.dev x.sq)) (s.dev.cq (cqOf s.dev x.sq)).tail != (s.dev.cq (cqOf s.dev x.sq)).head) = some c :=
  ⟨atd (({} : Device) |> (fun d => { d with hif := { d.hif with linkUp := true, bme := true, ready := [cpl], cqs := [(0, { st := .running, tail := 3, head := 1 })] } }) |> (fun d => { d with pwr := { d.pwr with st := .armed } }) |> (fun d => { d with gen := { d.gen with enterTag := none } }) |> wreg 0x2008 0x80000004 |> wreg 0x2108 0x80000004), cpl, 0, ⟨by decide, by decide, by decide, by decide, by decide, by decide⟩⟩

theorem witness_PayloadsComeAndCompletionsGo_5 : ∃ (s : State) (n : Nat) (t : Nat),
    n < 8 ∧ wbit (s.dev.reg (0x2108 + 0x20 * n)) 30 = true ∧ (s.dev.cq n).since = some t ∧ t + 25 * s.dev.regF (0x210C + 0x20 * n) 15 0 ≤ s.dev.now ∧ msixOpen s.dev (s.dev.regF (0x2108 + 0x20 * n) 20 16) = true :=
  ⟨atd (({} : Device) |> (fun d => { d with hif := { d.hif with linkUp := true, bme := true } }) |> (updCq 7 fun x => { x with since := some 0, count := 2 }) |> wreg 0x21E8 0xC0060004 |> wreg 0x21EC 4 |> wreg 0x186C 0 |> (fun d => { d with pacing := { d.pacing with now := 100 } })), 7, 0, ⟨by decide, by decide, by decide, by decide, by decide⟩⟩

theorem witness_PayloadsComeAndCompletionsGo_6 : ∃ (s : State) (n : Nat) (t : Nat),
    n < 8 ∧ wbit (s.dev.reg (0x2108 + 0x20 * n)) 30 = true ∧ (s.dev.cq n).since = some t ∧ t + 25 * s.dev.regF (0x210C + 0x20 * n) 15 0 ≤ s.dev.now ∧ msixOpen s.dev (s.dev.regF (0x2108 + 0x20 * n) 20 16) = false :=
  ⟨atd (({} : Device) |> (fun d => { d with hif := { d.hif with linkUp := true, bme := true } }) |> (updCq 7 fun x => { x with since := some 0, count := 2 }) |> wreg 0x21E8 0xC0060004 |> wreg 0x21EC 4 |> wreg 0x186C 1 |> (fun d => { d with pacing := { d.pacing with now := 100 } })), 7, 0, ⟨by decide, by decide, by decide, by decide, by decide⟩⟩

theorem witness_LinkResetAndLock_1 : ∃ (s : State),
    s.dev.hif.linkUp = true :=
  ⟨atd (({} : Device) |> (fun d => { d with hif := { d.hif with linkUp := true } })), by decide⟩

theorem witness_LinkResetAndLock_2 : ∃ (s : State) (width : Nat) (speed : Nat),
    s.dev.hif.linkUp = false ∧ s.dev.hif.bme = true ∧ s.dev.hif.lockOk = true :=
  ⟨atd (({} : Device) |> (fun d => { d with hif := { d.hif with linkUp := false, bme := true, lockOk := true } })), 4, 3, ⟨by decide, by decide, by decide⟩⟩

theorem witness_LinkResetAndLock_3 : ∃ (s : State),
    s.dev.hif.bme = false ∧ s.dev.hif.linkUp = true ∧ s.dev.hif.lockOk = true :=
  ⟨atd (({} : Device) |> (fun d => { d with hif := { d.hif with linkUp := true, bme := false, lockOk := true } }) |> (fun d => { d with bus := { d.bus with pba := 0x40 } }) |> wreg 0x186C 0), ⟨by decide, by decide, by decide⟩⟩

theorem witness_LinkResetAndLock_4 : ∃ (s : State),
    s.dev.hif.linkUp = true :=
  ⟨atd (({} : Device) |> (fun d => { d with hif := { d.hif with linkUp := true } })), by decide⟩

theorem witness_LinkResetAndLock_5 : ∃ (s : State),
    s.dev.hif.ready = [] ∧ s.dev.gen.enterTag = none :=
  ⟨atd (({} : Device) |> (fun d => { d with hif := { d.hif with ready := [] } }) |> (fun d => { d with gen := { d.gen with enterTag := none } })), ⟨by decide, by decide⟩⟩

theorem witness_LinkResetAndLock_6 : ∃ (s : State),
    s.dev.hif.lock = false ∧ lockConditions s.dev = true ∧ ((∀ n, n < 8 → sqEnabled s.dev n = true → sqContextOk s.dev n = true)) ∧ ((∀ n, n < 8 → cqEnabled s.dev n = true → cqContextOk s.dev n = true)) :=
  ⟨atd (({} : Device) |> (fun d => { d with hif := { d.hif with lock := false } }) |> wreg 0x2000 0x10000 |> wreg 0x2008 0x80000004 |> wreg 0x2100 0x20000 |> wreg 0x2108 0x80000004 |> wreg 0x1004 0x9000), ⟨by decide, by decide, by decide, by decide⟩⟩

theorem witness_LinkResetAndLock_7 : ∃ (s : State),
    s.dev.hif.lock = false ∧ lockConditions s.dev = false :=
  ⟨atd (({} : Device) |> (fun d => { d with hif := { d.hif with lock := false } }) |> wreg 0x2008 0x80000004 |> wreg 0x2108 0x00000004 |> wreg 0x1004 0x9000), ⟨by decide, by decide⟩⟩

theorem witness_LinkResetAndLock_8 : ∃ (s : State),
    s.dev.hif.lock = true :=
  ⟨atd (({} : Device) |> (fun d => { d with hif := { d.hif with lock := true } })), by decide⟩

theorem witness_RecordCommandsCompleteOrFailTheirChecks_1 : ∃ (s : State) (tag : Nat) (op : Nat) (st : Nat) (c : Cmd) (e : Device) (i : Instr),
    (op, i) ∈ [(0x01, Instr.append tag), (0x02, .readMark tag), (0x03, .readRange tag), (0x04, .hold tag), (0x05, .releaseHold tag), (0x10, .bootStage tag), (0x11, .bootActivate tag), (0x12, .bootRead tag), (0x20, .ownerCreate tag), (0x21, .ownerRetire tag), (0x22, .ownerExportKey tag .failed), (0x30, .streamOpen tag), (0x31, .streamClose tag), (0x41, .getLog tag), (0x42, .setFeature tag), (0x43, .getFeature tag)] ∧ Dispatched s.dev tag c ∧ eOpcode c.entry = op ∧ AtHand c s.dev e ∧ laterStatus e c = some st :=
  ⟨atd (({} : Device) |> (fun d => { d with gen := { d.gen with mode := .undercoat, chosen := true } }) |> (fun d => { d with cry := { d.cry with tagOk := true } }) |> (fun d => { d with gen := { d.gen with cart := some { k6 := true, format := 2, serial := 5, zoneDone := [] }, cartState := 2 } }) |> (fun d => { d with rdc := { d.rdc with clusters := [] } }) |> (fun d => { d with wrc := { d.wrc with ilk := true, ilkBlocked := false } }) |> (fun d => { d with lath := { d.lath with live := false, link := .down, detaching := none, peerHealthy := false } }) |> (fun d => { d with rcl := { d.rcl with rings := [], groups := [], tasks := [] } }) |> (fun d => { d with cry := { d.cry with slots := [(1, { st := .active, keygen := 1, flags := 0, quota := 2, key := some 7 })], ops := [] } }) |> (fun d => { d with pwr := { d.pwr with st := .armed, sealStep := 0, vinWarn := false, onHawk := false } }) |> (fun d => { d with pacing := { d.pacing with fault := false } }) |> (fun d => { d with lsk := { d.lsk with pair := .running } }) |> (fun d => { d with servo := { d.servo with mediumDead := false } }) |> (fun d => { d with hif := { d.hif with ps := 0, transition := false, cmds := [] } }) |> (fun d => { d with hif := { d.hif with cmds := [cmR] } })), 0, 0x02, stStreamClosed, cmR, (lineFor (cmR) (({} : Device) |> (fun d => { d with gen := { d.gen with mode := .undercoat, chosen := true } }) |> (fun d => { d with cry := { d.cry with tagOk := true } }) |> (fun d => { d with gen := { d.gen with cart := some { k6 := true, format := 2, serial := 5, zoneDone := [] }, cartState := 2 } }) |> (fun d => { d with rdc := { d.rdc with clusters := [] } }) |> (fun d => { d with wrc := { d.wrc with ilk := true, ilkBlocked := false } }) |> (fun d => { d with lath := { d.lath with live := false, link := .down, detaching := none, peerHealthy := false } }) |> (fun d => { d with rcl := { d.rcl with rings := [], groups := [], tasks := [] } }) |> (fun d => { d with cry := { d.cry with slots := [(1, { st := .active, keygen := 1, flags := 0, quota := 2, key := some 7 })], ops := [] } }) |> (fun d => { d with pwr := { d.pwr with st := .armed, sealStep := 0, vinWarn := false, onHawk := false } }) |> (fun d => { d with pacing := { d.pacing with fault := false } }) |> (fun d => { d with lsk := { d.lsk with pair := .running } }) |> (fun d => { d with servo := { d.servo with mediumDead := false } }) |> (fun d => { d with hif := { d.hif with ps := 0, transition := false, cmds := [] } }) |> (fun d => { d with hif := { d.hif with cmds := [cmR] } }))).2, (.readMark 0), ⟨by decide, ⟨rfl, rfl, rfl, by decide⟩, by decide, ⟨rfl, by decide, rfl⟩, by decide⟩⟩

theorem witness_RecordCommandsCompleteOrFailTheirChecks_2 : ∃ (s : State) (tag : Nat) (c : Cmd) (e : Device),
    Dispatched s.dev tag c ∧ eOpcode c.entry = 0x01 ∧ Cleared c s.dev e ∧ c.payload = [] :=
  ⟨atd (({} : Device) |> (fun d => { d with gen := { d.gen with mode := .undercoat, chosen := true } }) |> (fun d => { d with cry := { d.cry with tagOk := true } }) |> (fun d => { d with gen := { d.gen with cart := some { k6 := true, format := 2, serial := 5, zoneDone := [] }, cartState := 2 } }) |> (fun d => { d with rdc := { d.rdc with clusters := [] } }) |> (fun d => { d with wrc := { d.wrc with ilk := true, ilkBlocked := false } }) |> (fun d => { d with lath := { d.lath with live := false, link := .down, detaching := none, peerHealthy := false } }) |> (fun d => { d with rcl := { d.rcl with rings := [], groups := [], tasks := [] } }) |> (fun d => { d with cry := { d.cry with slots := [(1, { st := .active, keygen := 1, flags := 0, quota := 2, key := some 7 })], ops := [] } }) |> (fun d => { d with pwr := { d.pwr with st := .armed, sealStep := 0, vinWarn := false, onHawk := false } }) |> (fun d => { d with pacing := { d.pacing with fault := false } }) |> (fun d => { d with lsk := { d.lsk with pair := .running } }) |> (fun d => { d with servo := { d.servo with mediumDead := false } }) |> (fun d => { d with hif := { d.hif with ps := 0, transition := false, cmds := [] } }) |> (fun d => { d with cch := { d.cch with main := [(0, { valid := true, table := true, addr := 0, coh := .m, recs := [(5, { owner := 1, st := .open, issued := 4, head := 4, home := 0 }), (7, { owner := 1, st := .closed, issued := 4, head := 4 })] })], victim := [], range := none, requests := [], notices := [], deferred := [] } }) |> (fun d => { d with hif := { d.hif with cmds := [cmAp] } })), 0, cmAp, (lineFor (cmAp) (({} : Device) |> (fun d => { d with gen := { d.gen with mode := .undercoat, chosen := true } }) |> (fun d => { d with cry := { d.cry with tagOk := true } }) |> (fun d => { d with gen := { d.gen with cart := some { k6 := true, format := 2, serial := 5, zoneDone := [] }, cartState := 2 } }) |> (fun d => { d with rdc := { d.rdc with clusters := [] } }) |> (fun d => { d with wrc := { d.wrc with ilk := true, ilkBlocked := false } }) |> (fun d => { d with lath := { d.lath with live := false, link := .down, detaching := none, peerHealthy := false } }) |> (fun d => { d with rcl := { d.rcl with rings := [], groups := [], tasks := [] } }) |> (fun d => { d with cry := { d.cry with slots := [(1, { st := .active, keygen := 1, flags := 0, quota := 2, key := some 7 })], ops := [] } }) |> (fun d => { d with pwr := { d.pwr with st := .armed, sealStep := 0, vinWarn := false, onHawk := false } }) |> (fun d => { d with pacing := { d.pacing with fault := false } }) |> (fun d => { d with lsk := { d.lsk with pair := .running } }) |> (fun d => { d with servo := { d.servo with mediumDead := false } }) |> (fun d => { d with hif := { d.hif with ps := 0, transition := false, cmds := [] } }) |> (fun d => { d with cch := { d.cch with main := [(0, { valid := true, table := true, addr := 0, coh := .m, recs := [(5, { owner := 1, st := .open, issued := 4, head := 4, home := 0 }), (7, { owner := 1, st := .closed, issued := 4, head := 4 })] })], victim := [], range := none, requests := [], notices := [], deferred := [] } }) |> (fun d => { d with hif := { d.hif with cmds := [cmAp] } }))).2, ⟨⟨rfl, rfl, rfl, by decide⟩, by decide, ⟨⟨rfl, by decide, rfl⟩, by decide, by decide⟩, by decide⟩⟩

theorem witness_RecordCommandsCompleteOrFailTheirChecks_3 : ∃ (s : State) (tag : Nat) (c : Cmd) (e : Device) (rs : List (Nat × Nat)),
    Dispatched s.dev tag c ∧ eOpcode c.entry = 0x01 ∧ Cleared c s.dev e ∧ c.poisoned = false ∧ groupRecords c.payload = some rs ∧ ringOpen e c.owner = true ∧ eStream c.entry < 512 :=
  ⟨atd (({} : Device) |> (fun d => { d with gen := { d.gen with mode := .undercoat, chosen := true } }) |> (fun d => { d with cry := { d.cry with tagOk := true } }) |> (fun d => { d with gen := { d.gen with cart := some { k6 := true, format := 2, serial := 5, zoneDone := [] }, cartState := 2 } }) |> (fun d => { d with rdc := { d.rdc with clusters := [] } }) |> (fun d => { d with wrc := { d.wrc with ilk := true, ilkBlocked := false } }) |> (fun d => { d with lath := { d.lath with live := false, link := .down, detaching := none, peerHealthy := false } }) |> (fun d => { d with rcl := { d.rcl with rings := [], groups := [], tasks := [] } }) |> (fun d => { d with cry := { d.cry with slots := [(1, { st := .active, keygen := 1, flags := 0, quota := 2, key := some 7 })], ops := [] } }) |> (fun d => { d with pwr := { d.pwr with st := .armed, sealStep := 0, vinWarn := false, onHawk := false } }) |> (fun d => { d with pacing := { d.pacing with fault := false } }) |> (fun d => { d with lsk := { d.lsk with pair := .running } }) |> (fun d => { d with servo := { d.servo with mediumDead := false } }) |> (fun d => { d with hif := { d.hif with ps := 0, transition := false, cmds := [] } }) |> (fun d => { d with cch := { d.cch with main := [(0, { valid := true, table := true, addr := 0, coh := .m, recs := [(5, { owner := 1, st := .open, issued := 4, head := 4, home := 0 }), (7, { owner := 1, st := .closed, issued := 4, head := 4 })] })], victim := [], range := none, requests := [], notices := [], deferred := [] } }) |> (fun d => { d with hif := { d.hif with cmds := [cmApP] } }) |> (updRing 1 fun x => { x with zones := [zn 14], cur := some 0, pos := 100 })), 0, cmApP, (lineFor (cmApP) (({} : Device) |> (fun d => { d with gen := { d.gen with mode := .undercoat, chosen := true } }) |> (fun d => { d with cry := { d.cry with tagOk := true } }) |> (fun d => { d with gen := { d.gen with cart := some { k6 := true, format := 2, serial := 5, zoneDone := [] }, cartState := 2 } }) |> (fun d => { d with rdc := { d.rdc with clusters := [] } }) |> (fun d => { d with wrc := { d.wrc with ilk := true, ilkBlocked := false } }) |> (fun d => { d with lath := { d.lath with live := false, link := .down, detaching := none, peerHealthy := false } }) |> (fun d => { d with rcl := { d.rcl with rings := [], groups := [], tasks := [] } }) |> (fun d => { d with cry := { d.cry with slots := [(1, { st := .active, keygen := 1, flags := 0, quota := 2, key := some 7 })], ops := [] } }) |> (fun d => { d with pwr := { d.pwr with st := .armed, sealStep := 0, vinWarn := false, onHawk := false } }) |> (fun d => { d with pacing := { d.pacing with fault := false } }) |> (fun d => { d with lsk := { d.lsk with pair := .running } }) |> (fun d => { d with servo := { d.servo with mediumDead := false } }) |> (fun d => { d with hif := { d.hif with ps := 0, transition := false, cmds := [] } }) |> (fun d => { d with cch := { d.cch with main := [(0, { valid := true, table := true, addr := 0, coh := .m, recs := [(5, { owner := 1, st := .open, issued := 4, head := 4, home := 0 }), (7, { owner := 1, st := .closed, issued := 4, head := 4 })] })], victim := [], range := none, requests := [], notices := [], deferred := [] } }) |> (fun d => { d with hif := { d.hif with cmds := [cmApP] } }) |> (updRing 1 fun x => { x with zones := [zn 14], cur := some 0, pos := 100 }))).2, [(0, 128)], ⟨⟨rfl, rfl, rfl, by decide⟩, by decide, ⟨⟨rfl, by decide, rfl⟩, by decide, by decide⟩, by decide, by decide, by decide, by decide⟩⟩

theorem witness_RecordCommandsCompleteOrFailTheirChecks_4 : ∃ (s : State) (tag : Nat) (c : Cmd) (e : Device) (rs : List (Nat × Nat)),
    Dispatched s.dev tag c ∧ eOpcode c.entry = 0x01 ∧ Cleared c s.dev e ∧ c.poisoned = false ∧ groupRecords c.payload = some rs ∧ ringOpen e c.owner = false :=
  ⟨atd (({} : Device) |> (fun d => { d with gen := { d.gen with mode := .undercoat, chosen := true } }) |> (fun d => { d with cry := { d.cry with tagOk := true } }) |> (fun d => { d with gen := { d.gen with cart := some { k6 := true, format := 2, serial := 5, zoneDone := [] }, cartState := 2 } }) |> (fun d => { d with rdc := { d.rdc with clusters := [] } }) |> (fun d => { d with wrc := { d.wrc with ilk := true, ilkBlocked := false } }) |> (fun d => { d with lath := { d.lath with live := false, link := .down, detaching := none, peerHealthy := false } }) |> (fun d => { d with rcl := { d.rcl with rings := [], groups := [], tasks := [] } }) |> (fun d => { d with cry := { d.cry with slots := [(1, { st := .active, keygen := 1, flags := 0, quota := 2, key := some 7 })], ops := [] } }) |> (fun d => { d with pwr := { d.pwr with st := .armed, sealStep := 0, vinWarn := false, onHawk := false } }) |> (fun d => { d with pacing := { d.pacing with fault := false } }) |> (fun d => { d with lsk := { d.lsk with pair := .running } }) |> (fun d => { d with servo := { d.servo with mediumDead := false } }) |> (fun d => { d with hif := { d.hif with ps := 0, transition := false, cmds := [] } }) |> (fun d => { d with cch := { d.cch with main := [(0, { valid := true, table := true, addr := 0, coh := .m, recs := [(5, { owner := 1, st := .open, issued := 4, head := 4, home := 0 }), (7, { owner := 1, st := .closed, issued := 4, head := 4 })] })], victim := [], range := none, requests := [], notices := [], deferred := [] } }) |> (fun d => { d with hif := { d.hif with cmds := [cmApP] } }) |> (updRing 1 fun x => { x with zones := [], cur := none, next := none })), 0, cmApP, (lineFor (cmApP) (({} : Device) |> (fun d => { d with gen := { d.gen with mode := .undercoat, chosen := true } }) |> (fun d => { d with cry := { d.cry with tagOk := true } }) |> (fun d => { d with gen := { d.gen with cart := some { k6 := true, format := 2, serial := 5, zoneDone := [] }, cartState := 2 } }) |> (fun d => { d with rdc := { d.rdc with clusters := [] } }) |> (fun d => { d with wrc := { d.wrc with ilk := true, ilkBlocked := false } }) |> (fun d => { d with lath := { d.lath with live := false, link := .down, detaching := none, peerHealthy := false } }) |> (fun d => { d with rcl := { d.rcl with rings := [], groups := [], tasks := [] } }) |> (fun d => { d with cry := { d.cry with slots := [(1, { st := .active, keygen := 1, flags := 0, quota := 2, key := some 7 })], ops := [] } }) |> (fun d => { d with pwr := { d.pwr with st := .armed, sealStep := 0, vinWarn := false, onHawk := false } }) |> (fun d => { d with pacing := { d.pacing with fault := false } }) |> (fun d => { d with lsk := { d.lsk with pair := .running } }) |> (fun d => { d with servo := { d.servo with mediumDead := false } }) |> (fun d => { d with hif := { d.hif with ps := 0, transition := false, cmds := [] } }) |> (fun d => { d with cch := { d.cch with main := [(0, { valid := true, table := true, addr := 0, coh := .m, recs := [(5, { owner := 1, st := .open, issued := 4, head := 4, home := 0 }), (7, { owner := 1, st := .closed, issued := 4, head := 4 })] })], victim := [], range := none, requests := [], notices := [], deferred := [] } }) |> (fun d => { d with hif := { d.hif with cmds := [cmApP] } }) |> (updRing 1 fun x => { x with zones := [], cur := none, next := none }))).2, [(0, 128)], ⟨⟨rfl, rfl, rfl, by decide⟩, by decide, ⟨⟨rfl, by decide, rfl⟩, by decide, by decide⟩, by decide, by decide, by decide⟩⟩

theorem witness_RecordCommandsCompleteOrFailTheirChecks_5 : ∃ (s : State) (tag : Nat) (c : Cmd) (e : Device),
    Dispatched s.dev tag c ∧ eOpcode c.entry = 0x01 ∧ Cleared c s.dev e ∧ c.payload ≠ [] ∧ c.poisoned = true :=
  ⟨atd (({} : Device) |> (fun d => { d with gen := { d.gen with mode := .undercoat, chosen := true } }) |> (fun d => { d with cry := { d.cry with tagOk := true } }) |> (fun d => { d with gen := { d.gen with cart := some { k6 := true, format := 2, serial := 5, zoneDone := [] }, cartState := 2 } }) |> (fun d => { d with rdc := { d.rdc with clusters := [] } }) |> (fun d => { d with wrc := { d.wrc with ilk := true, ilkBlocked := false } }) |> (fun d => { d with lath := { d.lath with live := false, link := .down, detaching := none, peerHealthy := false } }) |> (fun d => { d with rcl := { d.rcl with rings := [], groups := [], tasks := [] } }) |> (fun d => { d with cry := { d.cry with slots := [(1, { st := .active, keygen := 1, flags := 0, quota := 2, key := some 7 })], ops := [] } }) |> (fun d => { d with pwr := { d.pwr with st := .armed, sealStep := 0, vinWarn := false, onHawk := false } }) |> (fun d => { d with pacing := { d.pacing with fault := false } }) |> (fun d => { d with lsk := { d.lsk with pair := .running } }) |> (fun d => { d with servo := { d.servo with mediumDead := false } }) |> (fun d => { d with hif := { d.hif with ps := 0, transition := false, cmds := [] } }) |> (fun d => { d with cch := { d.cch with main := [(0, { valid := true, table := true, addr := 0, coh := .m, recs := [(5, { owner := 1, st := .open, issued := 4, head := 4, home := 0 }), (7, { owner := 1, st := .closed, issued := 4, head := 4 })] })], victim := [], range := none, requests := [], notices := [], deferred := [] } }) |> (fun d => { d with hif := { d.hif with cmds := [cmApX] } })), 0, cmApX, (lineFor (cmApX) (({} : Device) |> (fun d => { d with gen := { d.gen with mode := .undercoat, chosen := true } }) |> (fun d => { d with cry := { d.cry with tagOk := true } }) |> (fun d => { d with gen := { d.gen with cart := some { k6 := true, format := 2, serial := 5, zoneDone := [] }, cartState := 2 } }) |> (fun d => { d with rdc := { d.rdc with clusters := [] } }) |> (fun d => { d with wrc := { d.wrc with ilk := true, ilkBlocked := false } }) |> (fun d => { d with lath := { d.lath with live := false, link := .down, detaching := none, peerHealthy := false } }) |> (fun d => { d with rcl := { d.rcl with rings := [], groups := [], tasks := [] } }) |> (fun d => { d with cry := { d.cry with slots := [(1, { st := .active, keygen := 1, flags := 0, quota := 2, key := some 7 })], ops := [] } }) |> (fun d => { d with pwr := { d.pwr with st := .armed, sealStep := 0, vinWarn := false, onHawk := false } }) |> (fun d => { d with pacing := { d.pacing with fault := false } }) |> (fun d => { d with lsk := { d.lsk with pair := .running } }) |> (fun d => { d with servo := { d.servo with mediumDead := false } }) |> (fun d => { d with hif := { d.hif with ps := 0, transition := false, cmds := [] } }) |> (fun d => { d with cch := { d.cch with main := [(0, { valid := true, table := true, addr := 0, coh := .m, recs := [(5, { owner := 1, st := .open, issued := 4, head := 4, home := 0 }), (7, { owner := 1, st := .closed, issued := 4, head := 4 })] })], victim := [], range := none, requests := [], notices := [], deferred := [] } }) |> (fun d => { d with hif := { d.hif with cmds := [cmApX] } }))).2, ⟨⟨rfl, rfl, rfl, by decide⟩, by decide, ⟨⟨rfl, by decide, rfl⟩, by decide, by decide⟩, by decide, by decide⟩⟩

theorem witness_RecordCommandsCompleteOrFailTheirChecks_6 : ∃ (s : State) (tag : Nat) (c : Cmd) (e : Device) (g : Machine.Group) (r : RecInfo) (p : Loc × Nat × Nat × Nat),
    Dispatched s.dev tag c ∧ eOpcode c.entry = 0x02 ∧ Cleared c s.dev e ∧ recordOf e (entryStream c.entry) (markSeq (eMark c.entry)) = some (g, r) ∧ eOffset c.entry < r.len ∧ groupParts g (r.off + eOffset c.entry) (min (eDlen c.entry) (r.len - eOffset c.entry)) 0 = [p] ∧ (∀ psa, findLine e (fun l => !l.table && l.addr = psa) = none) :=
  ⟨atd (({} : Device) |> (fun d => { d with gen := { d.gen with mode := .undercoat, chosen := true } }) |> (fun d => { d with cry := { d.cry with tagOk := true } }) |> (fun d => { d with gen := { d.gen with cart := some { k6 := true, format := 2, serial := 5, zoneDone := [] }, cartState := 2 } }) |> (fun d => { d with rdc := { d.rdc with clusters := [] } }) |> (fun d => { d with wrc := { d.wrc with ilk := true, ilkBlocked := false } }) |> (fun d => { d with lath := { d.lath with live := false, link := .down, detaching := none, peerHealthy := false } }) |> (fun d => { d with rcl := { d.rcl with rings := [], groups := [], tasks := [] } }) |> (fun d => { d with cry := { d.cry with slots := [(1, { st := .active, keygen := 1, flags := 0, quota := 2, key := some 7 })], ops := [] } }) |> (fun d => { d with pwr := { d.pwr with st := .armed, sealStep := 0, vinWarn := false, onHawk := false } }) |> (fun d => { d with pacing := { d.pacing with fault := false } }) |> (fun d => { d with lsk := { d.lsk with pair := .running } }) |> (fun d => { d with servo := { d.servo with mediumDead := false } }) |> (fun d => { d with hif := { d.hif with ps := 0, transition := false, cmds := [] } }) |> (fun d => { d with cch := { d.cch with main := [(0, { valid := true, table := true, addr := 0, coh := .m, recs := [(5, { owner := 1, st := .open, issued := 4, head := 4, home := 0 }), (7, { owner := 1, st := .closed, issued := 4, head := 4 })] })], victim := [], range := none, requests := [], notices := [], deferred := [] } }) |> (fun d => { d with hif := { d.hif with cmds := [cmR] } }) |> (fun d => { d with rcl := { d.rcl with groups := [grp] } })), 0, cmR, (lineFor (cmR) (({} : Device) |> (fun d => { d with gen := { d.gen with mode := .undercoat, chosen := true } }) |> (fun d => { d with cry := { d.cry with tagOk := true } }) |> (fun d => { d with gen := { d.gen with cart := some { k6 := true, format := 2, serial := 5, zoneDone := [] }, cartState := 2 } }) |> (fun d => { d with rdc := { d.rdc with clusters := [] } }) |> (fun d => { d with wrc := { d.wrc with ilk := true, ilkBlocked := false } }) |> (fun d => { d with lath := { d.lath with live := false, link := .down, detaching := none, peerHealthy := false } }) |> (fun d => { d with rcl := { d.rcl with rings := [], groups := [], tasks := [] } }) |> (fun d => { d with cry := { d.cry with slots := [(1, { st := .active, keygen := 1, flags := 0, quota := 2, key := some 7 })], ops := [] } }) |> (fun d => { d with pwr := { d.pwr with st := .armed, sealStep := 0, vinWarn := false, onHawk := false } }) |> (fun d => { d with pacing := { d.pacing with fault := false } }) |> (fun d => { d with lsk := { d.lsk with pair := .running } }) |> (fun d => { d with servo := { d.servo with mediumDead := false } }) |> (fun d => { d with hif := { d.hif with ps := 0, transition := false, cmds := [] } }) |> (fun d => { d with cch := { d.cch with main := [(0, { valid := true, table := true, addr := 0, coh := .m, recs := [(5, { owner := 1, st := .open, issued := 4, head := 4, home := 0 }), (7, { owner := 1, st := .closed, issued := 4, head := 4 })] })], victim := [], range := none, requests := [], notices := [], deferred := [] } }) |> (fun d => { d with hif := { d.hif with cmds := [cmR] } }) |> (fun d => { d with rcl := { d.rcl with groups := [grp] } }))).2, grp, ⟨2, 0, 64⟩, (⟨0, 14, 7⟩, 0, 0, 64), ⟨⟨rfl, rfl, rfl, by decide⟩, by decide, ⟨⟨rfl, by decide, rfl⟩, by decide, by decide⟩, by decide, by decide, by decide, fun _ => rfl⟩⟩

theorem witness_RecordCommandsCompleteOrFailTheirChecks_7 : ∃ (s : State) (tag : Nat) (c : Cmd) (e : Device) (g : Machine.Group) (r : RecInfo),
    Dispatched s.dev tag c ∧ eOpcode c.entry = 0x03 ∧ Cleared c s.dev e ∧ recordOf e (entryStream c.entry) (markSeq (eMark c.entry)) = some (g, r) ∧ eDlen c.entry < r.len ∧ markSeq (eMark c.entry) < (streamRec e (entryStream c.entry)).head :=
  ⟨atd (({} : Device) |> (fun d => { d with gen := { d.gen with mode := .undercoat, chosen := true } }) |> (fun d => { d with cry := { d.cry with tagOk := true } }) |> (fun d => { d with gen := { d.gen with cart := some { k6 := true, format := 2, serial := 5, zoneDone := [] }, cartState := 2 } }) |> (fun d => { d with rdc := { d.rdc with clusters := [] } }) |> (fun d => { d with wrc := { d.wrc with ilk := true, ilkBlocked := false } }) |> (fun d => { d with lath := { d.lath with live := false, link := .down, detaching := none, peerHealthy := false } }) |> (fun d => { d with rcl := { d.rcl with rings := [], groups := [], tasks := [] } }) |> (fun d => { d with cry := { d.cry with slots := [(1, { st := .active, keygen := 1, flags := 0, quota := 2, key := some 7 })], ops := [] } }) |> (fun d => { d with pwr := { d.pwr with st := .armed, sealStep := 0, vinWarn := false, onHawk := false } }) |> (fun d => { d with pacing := { d.pacing with fault := false } }) |> (fun d => { d with lsk := { d.lsk with pair := .running } }) |> (fun d => { d with servo := { d.servo with mediumDead := false } }) |> (fun d => { d with hif := { d.hif with ps := 0, transition := false, cmds := [] } }) |> (fun d => { d with cch := { d.cch with main := [(0, { valid := true, table := true, addr := 0, coh := .m, recs := [(5, { owner := 1, st := .open, issued := 4, head := 4, home := 0 }), (7, { owner := 1, st := .closed, issued := 4, head := 4 })] })], victim := [], range := none, requests := [], notices := [], deferred := [] } }) |> (fun d => { d with hif := { d.hif with cmds := [cmRB] } }) |> (fun d => { d with rcl := { d.rcl with groups := [grpB] } })), 0, cmRB, (lineFor (cmRB) (({} : Device) |> (fun d => { d with gen := { d.gen with mode := .undercoat, chosen := true } }) |> (fun d => { d with cry := { d.cry with tagOk := true } }) |> (fun d => { d with gen := { d.gen with cart := some { k6 := true, format := 2, serial := 5, zoneDone := [] }, cartState := 2 } }) |> (fun d => { d with rdc := { d.rdc with clusters := [] } }) |> (fun d => { d with wrc := { d.wrc with ilk := true, ilkBlocked := false } }) |> (fun d => { d with lath := { d.lath with live := false, link := .down, detaching := none, peerHealthy := false } }) |> (fun d => { d with rcl := { d.rcl with rings := [], groups := [], tasks := [] } }) |> (fun d => { d with cry := { d.cry with slots := [(1, { st := .active, keygen := 1, flags := 0, quota := 2, key := some 7 })], ops := [] } }) |> (fun d => { d with pwr := { d.pwr with st := .armed, sealStep := 0, vinWarn := false, onHawk := false } }) |> (fun d => { d with pacing := { d.pacing with fault := false } }) |> (fun d => { d with lsk := { d.lsk with pair := .running } }) |> (fun d => { d with servo := { d.servo with mediumDead := false } }) |> (fun d => { d with hif := { d.hif with ps := 0, transition := false, cmds := [] } }) |> (fun d => { d with cch := { d.cch with main := [(0, { valid := true, table := true, addr := 0, coh := .m, recs := [(5, { owner := 1, st := .open, issued := 4, head := 4, home := 0 }), (7, { owner := 1, st := .closed, issued := 4, head := 4 })] })], victim := [], range := none, requests := [], notices := [], deferred := [] } }) |> (fun d => { d with hif := { d.hif with cmds := [cmRB] } }) |> (fun d => { d with rcl := { d.rcl with groups := [grpB] } }))).2, grpB, ⟨2, 0, 128⟩, ⟨⟨rfl, rfl, rfl, by decide⟩, by decide, ⟨⟨rfl, by decide, rfl⟩, by decide, by decide⟩, by decide, by decide, by decide⟩⟩

theorem witness_RecordCommandsCompleteOrFailTheirChecks_8 : ∃ (s : State) (tag : Nat) (c : Cmd) (e : Device),
    Dispatched s.dev tag c ∧ eOpcode c.entry = 0x04 ∧ Cleared c s.dev e ∧ eStream c.entry < 512 :=
  ⟨atd (({} : Device) |> (fun d => { d with gen := { d.gen with mode := .undercoat, chosen := true } }) |> (fun d => { d with cry := { d.cry with tagOk := true } }) |> (fun d => { d with gen := { d.gen with cart := some { k6 := true, format := 2, serial := 5, zoneDone := [] }, cartState := 2 } }) |> (fun d => { d with rdc := { d.rdc with clusters := [] } }) |> (fun d => { d with wrc := { d.wrc with ilk := true, ilkBlocked := false } }) |> (fun d => { d with lath := { d.lath with live := false, link := .down, detaching := none, peerHealthy := false } }) |> (fun d => { d with rcl := { d.rcl with rings := [], groups := [], tasks := [] } }) |> (fun d => { d with cry := { d.cry with slots := [(1, { st := .active, keygen := 1, flags := 0, quota := 2, key := some 7 })], ops := [] } }) |> (fun d => { d with pwr := { d.pwr with st := .armed, sealStep := 0, vinWarn := false, onHawk := false } }) |> (fun d => { d with pacing := { d.pacing with fault := false } }) |> (fun d => { d with lsk := { d.lsk with pair := .running } }) |> (fun d => { d with servo := { d.servo with mediumDead := false } }) |> (fun d => { d with hif := { d.hif with ps := 0, transition := false, cmds := [] } }) |> (fun d => { d with cch := { d.cch with main := [(0, { valid := true, table := true, addr := 0, coh := .m, recs := [(5, { owner := 1, st := .open, issued := 4, head := 4, home := 0 }), (7, { owner := 1, st := .closed, issued := 4, head := 4 })] })], victim := [], range := none, requests := [], notices := [], deferred := [] } }) |> (fun d => { d with hif := { d.hif with cmds := [cm (ent 4 0 9 0 0 [5, 0, 0, 0, 0, 0, 0, 0, 2, 0, 0, 0, 0, 0, 0, 0, 3])] } })), 0, (cm (ent 4 0 9 0 0 [5, 0, 0, 0, 0, 0, 0, 0, 2, 0, 0, 0, 0, 0, 0, 0, 3])), (lineFor ((cm (ent 4 0 9 0 0 [5, 0, 0, 0, 0, 0, 0, 0, 2, 0, 0, 0, 0, 0, 0, 0, 3]))) (({} : Device) |> (fun d => { d with gen := { d.gen with mode := .undercoat, chosen := true } }) |> (fun d => { d with cry := { d.cry with tagOk := true } }) |> (fun d => { d with gen := { d.gen with cart := some { k6 := true, format := 2, serial := 5, zoneDone := [] }, cartState := 2 } }) |> (fun d => { d with rdc := { d.rdc with clusters := [] } }) |> (fun d => { d with wrc := { d.wrc with ilk := true, ilkBlocked := false } }) |> (fun d => { d with lath := { d.lath with live := false, link := .down, detaching := none, peerHealthy := false } }) |> (fun d => { d with rcl := { d.rcl with rings := [], groups := [], tasks := [] } }) |> (fun d => { d with cry := { d.cry with slots := [(1, { st := .active, keygen := 1, flags := 0, quota := 2, key := some 7 })], ops := [] } }) |> (fun d => { d with pwr := { d.pwr with st := .armed, sealStep := 0, vinWarn := false, onHawk := false } }) |> (fun d => { d with pacing := { d.pacing with fault := false } }) |> (fun d => { d with lsk := { d.lsk with pair := .running } }) |> (fun d => { d with servo := { d.servo with mediumDead := false } }) |> (fun d => { d with hif := { d.hif with ps := 0, transition := false, cmds := [] } }) |> (fun d => { d with cch := { d.cch with main := [(0, { valid := true, table := true, addr := 0, coh := .m, recs := [(5, { owner := 1, st := .open, issued := 4, head := 4, home := 0 }), (7, { owner := 1, st := .closed, issued := 4, head := 4 })] })], victim := [], range := none, requests := [], notices := [], deferred := [] } }) |> (fun d => { d with hif := { d.hif with cmds := [cm (ent 4 0 9 0 0 [5, 0, 0, 0, 0, 0, 0, 0, 2, 0, 0, 0, 0, 0, 0, 0, 3])] } }))).2, ⟨⟨rfl, rfl, rfl, by decide⟩, by decide, ⟨⟨rfl, by decide, rfl⟩, by decide, by decide⟩, by decide⟩⟩

theorem witness_RecordCommandsCompleteOrFailTheirChecks_9 : ∃ (s : State) (tag : Nat) (c : Cmd) (e : Device),
    Dispatched s.dev tag c ∧ eOpcode c.entry = 0x05 ∧ Cleared c s.dev e ∧ eStream c.entry < 512 :=
  ⟨atd (({} : Device) |> (fun d => { d with gen := { d.gen with mode := .undercoat, chosen := true } }) |> (fun d => { d with cry := { d.cry with tagOk := true } }) |> (fun d => { d with gen := { d.gen with cart := some { k6 := true, format := 2, serial := 5, zoneDone := [] }, cartState := 2 } }) |> (fun d => { d with rdc := { d.rdc with clusters := [] } }) |> (fun d => { d with wrc := { d.wrc with ilk := true, ilkBlocked := false } }) |> (fun d => { d with lath := { d.lath with live := false, link := .down, detaching := none, peerHealthy := false } }) |> (fun d => { d with rcl := { d.rcl with rings := [], groups := [], tasks := [] } }) |> (fun d => { d with cry := { d.cry with slots := [(1, { st := .active, keygen := 1, flags := 0, quota := 2, key := some 7 })], ops := [] } }) |> (fun d => { d with pwr := { d.pwr with st := .armed, sealStep := 0, vinWarn := false, onHawk := false } }) |> (fun d => { d with pacing := { d.pacing with fault := false } }) |> (fun d => { d with lsk := { d.lsk with pair := .running } }) |> (fun d => { d with servo := { d.servo with mediumDead := false } }) |> (fun d => { d with hif := { d.hif with ps := 0, transition := false, cmds := [] } }) |> (fun d => { d with cch := { d.cch with main := [(0, { valid := true, table := true, addr := 0, coh := .m, recs := [(5, { owner := 1, st := .open, issued := 4, head := 4, home := 0 }), (7, { owner := 1, st := .closed, issued := 4, head := 4 })] })], victim := [], range := none, requests := [], notices := [], deferred := [] } }) |> (fun d => { d with hif := { d.hif with cmds := [cm (ent 5 0 9 0 0 [5, 0])] } })), 0, (cm (ent 5 0 9 0 0 [5, 0])), (lineFor ((cm (ent 5 0 9 0 0 [5, 0]))) (({} : Device) |> (fun d => { d with gen := { d.gen with mode := .undercoat, chosen := true } }) |> (fun d => { d with cry := { d.cry with tagOk := true } }) |> (fun d => { d with gen := { d.gen with cart := some { k6 := true, format := 2, serial := 5, zoneDone := [] }, cartState := 2 } }) |> (fun d => { d with rdc := { d.rdc with clusters := [] } }) |> (fun d => { d with wrc := { d.wrc with ilk := true, ilkBlocked := false } }) |> (fun d => { d with lath := { d.lath with live := false, link := .down, detaching := none, peerHealthy := false } }) |> (fun d => { d with rcl := { d.rcl with rings := [], groups := [], tasks := [] } }) |> (fun d => { d with cry := { d.cry with slots := [(1, { st := .active, keygen := 1, flags := 0, quota := 2, key := some 7 })], ops := [] } }) |> (fun d => { d with pwr := { d.pwr with st := .armed, sealStep := 0, vinWarn := false, onHawk := false } }) |> (fun d => { d with pacing := { d.pacing with fault := false } }) |> (fun d => { d with lsk := { d.lsk with pair := .running } }) |> (fun d => { d with servo := { d.servo with mediumDead := false } }) |> (fun d => { d with hif := { d.hif with ps := 0, transition := false, cmds := [] } }) |> (fun d => { d with cch := { d.cch with main := [(0, { valid := true, table := true, addr := 0, coh := .m, recs := [(5, { owner := 1, st := .open, issued := 4, head := 4, home := 0 }), (7, { owner := 1, st := .closed, issued := 4, head := 4 })] })], victim := [], range := none, requests := [], notices := [], deferred := [] } }) |> (fun d => { d with hif := { d.hif with cmds := [cm (ent 5 0 9 0 0 [5, 0])] } }))).2, ⟨⟨rfl, rfl, rfl, by decide⟩, by decide, ⟨⟨rfl, by decide, rfl⟩, by decide, by decide⟩, by decide⟩⟩

theorem witness_RecordCommandsCompleteOrFailTheirChecks_10 : ∃ (s : State) (tag : Nat) (c : Cmd) (e : Device),
    Dispatched s.dev tag c ∧ eOpcode c.entry = 0x30 ∧ Cleared c s.dev e ∧ eStream c.entry < 512 ∧ (streamRec e (eStream c.entry)).st = .free :=
  ⟨atd (({} : Device) |> (fun d => { d with gen := { d.gen with mode := .undercoat, chosen := true } }) |> (fun d => { d with cry := { d.cry with tagOk := true } }) |> (fun d => { d with gen := { d.gen with cart := some { k6 := true, format := 2, serial := 5, zoneDone := [] }, cartState := 2 } }) |> (fun d => { d with rdc := { d.rdc with clusters := [] } }) |> (fun d => { d with wrc := { d.wrc with ilk := true, ilkBlocked := false } }) |> (fun d => { d with lath := { d.lath with live := false, link := .down, detaching := none, peerHealthy := false } }) |> (fun d => { d with rcl := { d.rcl with rings := [], groups := [], tasks := [] } }) |> (fun d => { d with cry := { d.cry with slots := [(1, { st := .active, keygen := 1, flags := 0, quota := 2, key := some 7 })], ops := [] } }) |> (fun d => { d with pwr := { d.pwr with st := .armed, sealStep := 0, vinWarn := false, onHawk := false } }) |> (fun d => { d with pacing := { d.pacing with fault := false } }) |> (fun d => { d with lsk := { d.lsk with pair := .running } }) |> (fun d => { d with servo := { d.servo with mediumDead := false } }) |> (fun d => { d with hif := { d.hif with ps := 0, transition := false, cmds := [] } }) |> (fun d => { d with cch := { d.cch with main := [(0, { valid := true, table := true, addr := 0, coh := .m, recs := [(5, { owner := 1, st := .open, issued := 4, head := 4, home := 0 }), (7, { owner := 1, st := .closed, issued := 4, head := 4 })] })], victim := [], range := none, requests := [], notices := [], deferred := [] } }) |> (fun d => { d with hif := { d.hif with cmds := [cm (ent 0x30 0 9 0 0 [6, 0, 0xFF])] } })), 0, (cm (ent 0x30 0 9 0 0 [6, 0, 0xFF])), (lineFor ((cm (ent 0x30 0 9 0 0 [6, 0, 0xFF]))) (({} : Device) |> (fun d => { d with gen := { d.gen with mode := .undercoat, chosen := true } }) |> (fun d => { d with cry := { d.cry with tagOk := true } }) |> (fun d => { d with gen := { d.gen with cart := some { k6 := true, format := 2, serial := 5, zoneDone := [] }, cartState := 2 } }) |> (fun d => { d with rdc := { d.rdc with clusters := [] } }) |> (fun d => { d with wrc := { d.wrc with ilk := true, ilkBlocked := false } }) |> (fun d => { d with lath := { d.lath with live := false, link := .down, detaching := none, peerHealthy := false } }) |> (fun d => { d with rcl := { d.rcl with rings := [], groups := [], tasks := [] } }) |> (fun d => { d with cry := { d.cry with slots := [(1, { st := .active, keygen := 1, flags := 0, quota := 2, key := some 7 })], ops := [] } }) |> (fun d => { d with pwr := { d.pwr with st := .armed, sealStep := 0, vinWarn := false, onHawk := false } }) |> (fun d => { d with pacing := { d.pacing with fault := false } }) |> (fun d => { d with lsk := { d.lsk with pair := .running } }) |> (fun d => { d with servo := { d.servo with mediumDead := false } }) |> (fun d => { d with hif := { d.hif with ps := 0, transition := false, cmds := [] } }) |> (fun d => { d with cch := { d.cch with main := [(0, { valid := true, table := true, addr := 0, coh := .m, recs := [(5, { owner := 1, st := .open, issued := 4, head := 4, home := 0 }), (7, { owner := 1, st := .closed, issued := 4, head := 4 })] })], victim := [], range := none, requests := [], notices := [], deferred := [] } }) |> (fun d => { d with hif := { d.hif with cmds := [cm (ent 0x30 0 9 0 0 [6, 0, 0xFF])] } }))).2, ⟨⟨rfl, rfl, rfl, by decide⟩, by decide, ⟨⟨rfl, by decide, rfl⟩, by decide, by decide⟩, by decide, by decide⟩⟩

theorem witness_RecordCommandsCompleteOrFailTheirChecks_11 : ∃ (s : State) (tag : Nat) (c : Cmd) (e : Device),
    Dispatched s.dev tag c ∧ eOpcode c.entry = 0x30 ∧ Cleared c s.dev e ∧ eStream c.entry < 512 ∧ (streamRec e (eStream c.entry)).st = .closed :=
  ⟨atd (({} : Device) |> (fun d => { d with gen := { d.gen with mode := .undercoat, chosen := true } }) |> (fun d => { d with cry := { d.cry with tagOk := true } }) |> (fun d => { d with gen := { d.gen with cart := some { k6 := true, format := 2, serial := 5, zoneDone := [] }, cartState := 2 } }) |> (fun d => { d with rdc := { d.rdc with clusters := [] } }) |> (fun d => { d with wrc := { d.wrc with ilk := true, ilkBlocked := false } }) |> (fun d => { d with lath := { d.lath with live := false, link := .down, detaching := none, peerHealthy := false } }) |> (fun d => { d with rcl := { d.rcl with rings := [], groups := [], tasks := [] } }) |> (fun d => { d with cry := { d.cry with slots := [(1, { st := .active, keygen := 1, flags := 0, quota := 2, key := some 7 })], ops := [] } }) |> (fun d => { d with pwr := { d.pwr with st := .armed, sealStep := 0, vinWarn := false, onHawk := false } }) |> (fun d => { d with pacing := { d.pacing with fault := false } }) |> (fun d => { d with lsk := { d.lsk with pair := .running } }) |> (fun d => { d with servo := { d.servo with mediumDead := false } }) |> (fun d => { d with hif := { d.hif with ps := 0, transition := false, cmds := [] } }) |> (fun d => { d with cch := { d.cch with main := [(0, { valid := true, table := true, addr := 0, coh := .m, recs := [(5, { owner := 1, st := .open, issued := 4, head := 4, home := 0 }), (7, { owner := 1, st := .closed, issued := 4, head := 4 })] })], victim := [], range := none, requests := [], notices := [], deferred := [] } }) |> (fun d => { d with hif := { d.hif with cmds := [cm (ent 0x30 0 9 0 0 [7, 0, 0xFF])] } })), 0, (cm (ent 0x30 0 9 0 0 [7, 0, 0xFF])), (lineFor ((cm (ent 0x30 0 9 0 0 [7, 0, 0xFF]))) (({} : Device) |> (fun d => { d with gen := { d.gen with mode := .undercoat, chosen := true } }) |> (fun d => { d with cry := { d.cry with tagOk := true } }) |> (fun d => { d with gen := { d.gen with cart := some { k6 := true, format := 2, serial := 5, zoneDone := [] }, cartState := 2 } }) |> (fun d => { d with rdc := { d.rdc with clusters := [] } }) |> (fun d => { d with wrc := { d.wrc with ilk := true, ilkBlocked := false } }) |> (fun d => { d with lath := { d.lath with live := false, link := .down, detaching := none, peerHealthy := false } }) |> (fun d => { d with rcl := { d.rcl with rings := [], groups := [], tasks := [] } }) |> (fun d => { d with cry := { d.cry with slots := [(1, { st := .active, keygen := 1, flags := 0, quota := 2, key := some 7 })], ops := [] } }) |> (fun d => { d with pwr := { d.pwr with st := .armed, sealStep := 0, vinWarn := false, onHawk := false } }) |> (fun d => { d with pacing := { d.pacing with fault := false } }) |> (fun d => { d with lsk := { d.lsk with pair := .running } }) |> (fun d => { d with servo := { d.servo with mediumDead := false } }) |> (fun d => { d with hif := { d.hif with ps := 0, transition := false, cmds := [] } }) |> (fun d => { d with cch := { d.cch with main := [(0, { valid := true, table := true, addr := 0, coh := .m, recs := [(5, { owner := 1, st := .open, issued := 4, head := 4, home := 0 }), (7, { owner := 1, st := .closed, issued := 4, head := 4 })] })], victim := [], range := none, requests := [], notices := [], deferred := [] } }) |> (fun d => { d with hif := { d.hif with cmds := [cm (ent 0x30 0 9 0 0 [7, 0, 0xFF])] } }))).2, ⟨⟨rfl, rfl, rfl, by decide⟩, by decide, ⟨⟨rfl, by decide, rfl⟩, by decide, by decide⟩, by decide, by decide⟩⟩

theorem witness_RecordCommandsCompleteOrFailTheirChecks_12 : ∃ (s : State) (tag : Nat) (c : Cmd) (e : Device),
    Dispatched s.dev tag c ∧ eOpcode c.entry = 0x31 ∧ Cleared c s.dev e ∧ eStream c.entry < 512 ∧ appendBefore e c = false :=
  ⟨atd (({} : Device) |> (fun d => { d with gen := { d.gen with mode := .undercoat, chosen := true } }) |> (fun d => { d with cry := { d.cry with tagOk := true } }) |> (fun d => { d with gen := { d.gen with cart := some { k6 := true, format := 2, serial := 5, zoneDone := [] }, cartState := 2 } }) |> (fun d => { d with rdc := { d.rdc with clusters := [] } }) |> (fun d => { d with wrc := { d.wrc with ilk := true, ilkBlocked := false } }) |> (fun d => { d with lath := { d.lath with live := false, link := .down, detaching := none, peerHealthy := false } }) |> (fun d => { d with rcl := { d.rcl with rings := [], groups := [], tasks := [] } }) |> (fun d => { d with cry := { d.cry with slots := [(1, { st := .active, keygen := 1, flags := 0, quota := 2, key := some 7 })], ops := [] } }) |> (fun d => { d with pwr := { d.pwr with st := .armed, sealStep := 0, vinWarn := false, onHawk := false } }) |> (fun d => { d with pacing := { d.pacing with fault := false } }) |> (fun d => { d with lsk := { d.lsk with pair := .running } }) |> (fun d => { d with servo := { d.servo with mediumDead := false } }) |> (fun d => { d with hif := { d.hif with ps := 0, transition := false, cmds := [] } }) |> (fun d => { d with cch := { d.cch with main := [(0, { valid := true, table := true, addr := 0, coh := .m, recs := [(5, { owner := 1, st := .open, issued := 4, head := 4, home := 0 }), (7, { owner := 1, st := .closed, issued := 4, head := 4 })] })], victim := [], range := none, requests := [], notices := [], deferred := [] } }) |> (fun d => { d with hif := { d.hif with cmds := [cm (ent 0x31 0 9 0 0 [5, 0, 1])] } })), 0, (cm (ent 0x31 0 9 0 0 [5, 0, 1])), (lineFor ((cm (ent 0x31 0 9 0 0 [5, 0, 1]))) (({} : Device) |> (fun d => { d with gen := { d.gen with mode := .undercoat, chosen := true } }) |> (fun d => { d with cry := { d.cry with tagOk := true } }) |> (fun d => { d with gen := { d.gen with cart := some { k6 := true, format := 2, serial := 5, zoneDone := [] }, cartState := 2 } }) |> (fun d => { d with rdc := { d.rdc with clusters := [] } }) |> (fun d => { d with wrc := { d.wrc with ilk := true, ilkBlocked := false } }) |> (fun d => { d with lath := { d.lath with live := false, link := .down, detaching := none, peerHealthy := false } }) |> (fun d => { d with rcl := { d.rcl with rings := [], groups := [], tasks := [] } }) |> (fun d => { d with cry := { d.cry with slots := [(1, { st := .active, keygen := 1, flags := 0, quota := 2, key := some 7 })], ops := [] } }) |> (fun d => { d with pwr := { d.pwr with st := .armed, sealStep := 0, vinWarn := false, onHawk := false } }) |> (fun d => { d with pacing := { d.pacing with fault := false } }) |> (fun d => { d with lsk := { d.lsk with pair := .running } }) |> (fun d => { d with servo := { d.servo with mediumDead := false } }) |> (fun d => { d with hif := { d.hif with ps := 0, transition := false, cmds := [] } }) |> (fun d => { d with cch := { d.cch with main := [(0, { valid := true, table := true, addr := 0, coh := .m, recs := [(5, { owner := 1, st := .open, issued := 4, head := 4, home := 0 }), (7, { owner := 1, st := .closed, issued := 4, head := 4 })] })], victim := [], range := none, requests := [], notices := [], deferred := [] } }) |> (fun d => { d with hif := { d.hif with cmds := [cm (ent 0x31 0 9 0 0 [5, 0, 1])] } }))).2, ⟨⟨rfl, rfl, rfl, by decide⟩, by decide, ⟨⟨rfl, by decide, rfl⟩, by decide, by decide⟩, by decide, by decide⟩⟩

theorem witness_BootAndOwnerCommandsTakeEffect_1 : ∃ (s : State) (tag : Nat) (c : Cmd),
    Dispatched s.dev tag c ∧ eOpcode c.entry = 0x10 ∧ Cleared c s.dev s.dev ∧ c.payload = [] :=
  ⟨atd (({} : Device) |> (fun d => { d with gen := { d.gen with mode := .undercoat, chosen := true } }) |> (fun d => { d with cry := { d.cry with tagOk := true } }) |> (fun d => { d with gen := { d.gen with cart := some { k6 := true, format := 2, serial := 5, zoneDone := [] }, cartState := 2 } }) |> (fun d => { d with rdc := { d.rdc with clusters := [] } }) |> (fun d => { d with wrc := { d.wrc with ilk := true, ilkBlocked := false } }) |> (fun d => { d with lath := { d.lath with live := false, link := .down, detaching := none, peerHealthy := false } }) |> (fun d => { d with rcl := { d.rcl with rings := [], groups := [], tasks := [] } }) |> (fun d => { d with cry := { d.cry with slots := [(1, { st := .active, keygen := 1, flags := 0, quota := 2, key := some 7 })], ops := [] } }) |> (fun d => { d with pwr := { d.pwr with st := .armed, sealStep := 0, vinWarn := false, onHawk := false } }) |> (fun d => { d with pacing := { d.pacing with fault := false } }) |> (fun d => { d with lsk := { d.lsk with pair := .running } }) |> (fun d => { d with servo := { d.servo with mediumDead := false } }) |> (fun d => { d with hif := { d.hif with ps := 0, transition := false, cmds := [] } }) |> (fun d => { d with cry := { d.cry with slots := [(0, { st := .active, keygen := 1, flags := 0, quota := 2, key := some 7 }), (1, { st := .active, keygen := 1, flags := 7, quota := 2, key := some 7 })] } }) |> (fun d => { d with gen := { d.gen with enterTag := none, leaveTag := none, ejectTag := none, fwState := 0 } }) |> (fun d => { d with cch := { d.cch with range := none } }) |> (fun d => { d with rcl := { d.rcl with actPending := none, staging := none, staged := [] } }) |> (fun d => { d with hif := { d.hif with cmds := [(cmN 0x10 128 [31, 1])] } })), 0, (cmN 0x10 128 [31, 1]), ⟨⟨rfl, rfl, rfl, by decide⟩, by decide, ⟨⟨rfl, by decide, rfl⟩, by decide, by decide⟩, by decide⟩⟩

theorem witness_BootAndOwnerCommandsTakeEffect_2 : ∃ (s : State) (tag : Nat) (c : Cmd),
    Dispatched s.dev tag c ∧ eOpcode c.entry = 0x10 ∧ Cleared c s.dev s.dev ∧ c.payload ≠ [] ∧ c.poisoned = false :=
  ⟨atd (({} : Device) |> (fun d => { d with gen := { d.gen with mode := .undercoat, chosen := true } }) |> (fun d => { d with cry := { d.cry with tagOk := true } }) |> (fun d => { d with gen := { d.gen with cart := some { k6 := true, format := 2, serial := 5, zoneDone := [] }, cartState := 2 } }) |> (fun d => { d with rdc := { d.rdc with clusters := [] } }) |> (fun d => { d with wrc := { d.wrc with ilk := true, ilkBlocked := false } }) |> (fun d => { d with lath := { d.lath with live := false, link := .down, detaching := none, peerHealthy := false } }) |> (fun d => { d with rcl := { d.rcl with rings := [], groups := [], tasks := [] } }) |> (fun d => { d with cry := { d.cry with slots := [(1, { st := .active, keygen := 1, flags := 0, quota := 2, key := some 7 })], ops := [] } }) |> (fun d => { d with pwr := { d.pwr with st := .armed, sealStep := 0, vinWarn := false, onHawk := false } }) |> (fun d => { d with pacing := { d.pacing with fault := false } }) |> (fun d => { d with lsk := { d.lsk with pair := .running } }) |> (fun d => { d with servo := { d.servo with mediumDead := false } }) |> (fun d => { d with hif := { d.hif with ps := 0, transition := false, cmds := [] } }) |> (fun d => { d with cry := { d.cry with slots := [(0, { st := .active, keygen := 1, flags := 0, quota := 2, key := some 7 }), (1, { st := .active, keygen := 1, flags := 7, quota := 2, key := some 7 })] } }) |> (fun d => { d with gen := { d.gen with enterTag := none, leaveTag := none, ejectTag := none, fwState := 0 } }) |> (fun d => { d with cch := { d.cch with range := none } }) |> (fun d => { d with rcl := { d.rcl with actPending := none, staging := none, staged := [] } }) |> (fun d => { d with hif := { d.hif with cmds := [{ cmN 0x10 128 [31, 1] with payload := bs8 (List.replicate 128 1), started := true }] } })), 0, { cmN 0x10 128 [31, 1] with payload := bs8 (List.replicate 128 1), started := true }, ⟨⟨rfl, rfl, rfl, by decide⟩, by decide, ⟨⟨rfl, by decide, rfl⟩, by decide, by decide⟩, by decide, by decide⟩⟩

theorem witness_BootAndOwnerCommandsTakeEffect_3 : ∃ (s : State) (tag : Nat) (c : Cmd),
    Dispatched s.dev tag c ∧ eOpcode c.entry = 0x11 ∧ Cleared c s.dev s.dev ∧ s.dev.rcl.actPending = none :=
  ⟨atd (({} : Device) |> (fun d => { d with gen := { d.gen with mode := .undercoat, chosen := true } }) |> (fun d => { d with cry := { d.cry with tagOk := true } }) |> (fun d => { d with gen := { d.gen with cart := some { k6 := true, format := 2, serial := 5, zoneDone := [] }, cartState := 2 } }) |> (fun d => { d with rdc := { d.rdc with clusters := [] } }) |> (fun d => { d with wrc := { d.wrc with ilk := true, ilkBlocked := false } }) |> (fun d => { d with lath := { d.lath with live := false, link := .down, detaching := none, peerHealthy := false } }) |> (fun d => { d with rcl := { d.rcl with rings := [], groups := [], tasks := [] } }) |> (fun d => { d with cry := { d.cry with slots := [(1, { st := .active, keygen := 1, flags := 0, quota := 2, key := some 7 })], ops := [] } }) |> (fun d => { d with pwr := { d.pwr with st := .armed, sealStep := 0, vinWarn := false, onHawk := false } }) |> (fun d => { d with pacing := { d.pacing with fault := false } }) |> (fun d => { d with lsk := { d.lsk with pair := .running } }) |> (fun d => { d with servo := { d.servo with mediumDead := false } }) |> (fun d => { d with hif := { d.hif with ps := 0, transition := false, cmds := [] } }) |> (fun d => { d with cry := { d.cry with slots := [(0, { st := .active, keygen := 1, flags := 0, quota := 2, key := some 7 }), (1, { st := .active, keygen := 1, flags := 7, quota := 2, key := some 7 })] } }) |> (fun d => { d with gen := { d.gen with enterTag := none, leaveTag := none, ejectTag := none, fwState := 0 } }) |> (fun d => { d with cch := { d.cch with range := none } }) |> (fun d => { d with rcl := { d.rcl with actPending := none, staging := none, staged := [] } }) |> (fun d => { d with hif := { d.hif with cmds := [(cmN 0x11 0 [31])] } }) |> (fun d => { d with rcl := { d.rcl with actA := some { generation := 1, active := 0, previous := 0, slots := [(0, { st := 1, length := 128, stageGen := 0, digest := 0 }), (31, { st := 1, length := 128, stageGen := 0, digest := 0 })] }, actB := none } }) |> (fun d => { d with rcl := { d.rcl with actPending := none } })), 0, (cmN 0x11 0 [31]), ⟨⟨rfl, rfl, rfl, by decide⟩, by decide, ⟨⟨rfl, by decide, rfl⟩, by decide, by decide⟩, by decide⟩⟩

theorem witness_BootAndOwnerCommandsTakeEffect_4 : ∃ (s : State) (tag : Nat) (c : Cmd),
    Dispatched s.dev tag c ∧ eOpcode c.entry = 0x12 ∧ Cleared c s.dev s.dev ∧ s.dev.rcl.digestOk = some false :=
  ⟨atd (({} : Device) |> (fun d => { d with gen := { d.gen with mode := .undercoat, chosen := true } }) |> (fun d => { d with cry := { d.cry with tagOk := true } }) |> (fun d => { d with gen := { d.gen with cart := some { k6 := true, format := 2, serial := 5, zoneDone := [] }, cartState := 2 } }) |> (fun d => { d with rdc := { d.rdc with clusters := [] } }) |> (fun d => { d with wrc := { d.wrc with ilk := true, ilkBlocked := false } }) |> (fun d => { d with lath := { d.lath with live := false, link := .down, detaching := none, peerHealthy := false } }) |> (fun d => { d with rcl := { d.rcl with rings := [], groups := [], tasks := [] } }) |> (fun d => { d with cry := { d.cry with slots := [(1, { st := .active, keygen := 1, flags := 0, quota := 2, key := some 7 })], ops := [] } }) |> (fun d => { d with pwr := { d.pwr with st := .armed, sealStep := 0, vinWarn := false, onHawk := false } }) |> (fun d => { d with pacing := { d.pacing with fault := false } }) |> (fun d => { d with lsk := { d.lsk with pair := .running } }) |> (fun d => { d with servo := { d.servo with mediumDead := false } }) |> (fun d => { d with hif := { d.hif with ps := 0, transition := false, cmds := [] } }) |> (fun d => { d with cry := { d.cry with slots := [(0, { st := .active, keygen := 1, flags := 0, quota := 2, key := some 7 }), (1, { st := .active, keygen := 1, flags := 7, quota := 2, key := some 7 })] } }) |> (fun d => { d with gen := { d.gen with enterTag := none, leaveTag := none, ejectTag := none, fwState := 0 } }) |> (fun d => { d with cch := { d.cch with range := none } }) |> (fun d => { d with rcl := { d.rcl with actPending := none, staging := none, staged := [] } }) |> (fun d => { d with hif := { d.hif with cmds := [(cmN 0x12 64 [0])] } }) |> (fun d => { d with rcl := { d.rcl with actA := some { generation := 1, active := 0, previous := 0, slots := [(0, { st := 1, length := 128, stageGen := 0, digest := 0 }), (31, { st := 1, length := 128, stageGen := 0, digest := 0 })] }, actB := none } }) |> (fun d => { d with rcl := { d.rcl with digestOk := some false } })), 0, (cmN 0x12 64 [0]), ⟨⟨rfl, rfl, rfl, by decide⟩, by decide, ⟨⟨rfl, by decide, rfl⟩, by decide, by decide⟩, by decide⟩⟩

theorem witness_BootAndOwnerCommandsTakeEffect_5 : ∃ (s : State) (tag : Nat) (c : Cmd),
    Dispatched s.dev tag c ∧ eOpcode c.entry = 0x12 ∧ Cleared c s.dev s.dev ∧ s.dev.rcl.digestOk = some true ∧ 0 < eDlen c.entry :=
  ⟨atd (({} : Device) |> (fun d => { d with gen := { d.gen with mode := .undercoat, chosen := true } }) |> (fun d => { d with cry := { d.cry with tagOk := true } }) |> (fun d => { d with gen := { d.gen with cart := some { k6 := true, format := 2, serial := 5, zoneDone := [] }, cartState := 2 } }) |> (fun d => { d with rdc := { d.rdc with clusters := [] } }) |> (fun d => { d with wrc := { d.wrc with ilk := true, ilkBlocked := false } }) |> (fun d => { d with lath := { d.lath with live := false, link := .down, detaching := none, peerHealthy := false } }) |> (fun d => { d with rcl := { d.rcl with rings := [], groups := [], tasks := [] } }) |> (fun d => { d with cry := { d.cry with slots := [(1, { st := .active, keygen := 1, flags := 0, quota := 2, key := some 7 })], ops := [] } }) |> (fun d => { d with pwr := { d.pwr with st := .armed, sealStep := 0, vinWarn := false, onHawk := false } }) |> (fun d => { d with pacing := { d.pacing with fault := false } }) |> (fun d => { d with lsk := { d.lsk with pair := .running } }) |> (fun d => { d with servo := { d.servo with mediumDead := false } }) |> (fun d => { d with hif := { d.hif with ps := 0, transition := false, cmds := [] } }) |> (fun d => { d with cry := { d.cry with slots := [(0, { st := .active, keygen := 1, flags := 0, quota := 2, key := some 7 }), (1, { st := .active, keygen := 1, flags := 7, quota := 2, key := some 7 })] } }) |> (fun d => { d with gen := { d.gen with enterTag := none, leaveTag := none, ejectTag := none, fwState := 0 } }) |> (fun d => { d with cch := { d.cch with range := none } }) |> (fun d => { d with rcl := { d.rcl with actPending := none, staging := none, staged := [] } }) |> (fun d => { d with hif := { d.hif with cmds := [(cmN 0x12 64 [0])] } }) |> (fun d => { d with rcl := { d.rcl with actA := some { generation := 1, active := 0, previous := 0, slots := [(0, { st := 1, length := 128, stageGen := 0, digest := 0 }), (31, { st := 1, length := 128, stageGen := 0, digest := 0 })] }, actB := none } }) |> (fun d => { d with rcl := { d.rcl with digestOk := some true } })), 0, (cmN 0x12 64 [0]), ⟨⟨rfl, rfl, rfl, by decide⟩, by decide, ⟨⟨rfl, by decide, rfl⟩, by decide, by decide⟩, by decide, by decide⟩⟩

theorem witness_BootAndOwnerCommandsTakeEffect_6 : ∃ (s : State) (tag : Nat) (c : Cmd),
    Dispatched s.dev tag c ∧ eOpcode c.entry = 0x20 ∧ Cleared c s.dev s.dev ∧ s.dev.rcl.freeZones.length < eQuota c.entry :=
  ⟨atd (({} : Device) |> (fun d => { d with gen := { d.gen with mode := .undercoat, chosen := true } }) |> (fun d => { d with cry := { d.cry with tagOk := true } }) |> (fun d => { d with gen := { d.gen with cart := some { k6 := true, format := 2, serial := 5, zoneDone := [] }, cartState := 2 } }) |> (fun d => { d with rdc := { d.rdc with clusters := [] } }) |> (fun d => { d with wrc := { d.wrc with ilk := true, ilkBlocked := false } }) |> (fun d => { d with lath := { d.lath with live := false, link := .down, detaching := none, peerHealthy := false } }) |> (fun d => { d with rcl := { d.rcl with rings := [], groups := [], tasks := [] } }) |> (fun d => { d with cry := { d.cry with slots := [(1, { st := .active, keygen := 1, flags := 0, quota := 2, key := some 7 })], ops := [] } }) |> (fun d => { d with pwr := { d.pwr with st := .armed, sealStep := 0, vinWarn := false, onHawk := false } }) |> (fun d => { d with pacing := { d.pacing with fault := false } }) |> (fun d => { d with lsk := { d.lsk with pair := .running } }) |> (fun d => { d with servo := { d.servo with mediumDead := false } }) |> (fun d => { d with hif := { d.hif with ps := 0, transition := false, cmds := [] } }) |> (fun d => { d with cry := { d.cry with slots := [(0, { st := .active, keygen := 1, flags := 0, quota := 2, key := some 7 }), (1, { st := .active, keygen := 1, flags := 7, quota := 2, key := some 7 })] } }) |> (fun d => { d with gen := { d.gen with enterTag := none, leaveTag := none, ejectTag := none, fwState := 0 } }) |> (fun d => { d with cch := { d.cch with range := none } }) |> (fun d => { d with rcl := { d.rcl with actPending := none, staging := none, staged := [] } }) |> (fun d => { d with hif := { d.hif with cmds := [(cmN 0x20 0 [15, 0, 2])] } }) |> (fun d => { d with rcl := { d.rcl with freeZones := [zn 14] } })), 0, (cmN 0x20 0 [15, 0, 2]), ⟨⟨rfl, rfl, rfl, by decide⟩, by decide, ⟨⟨rfl, by decide, rfl⟩, by decide, by decide⟩, by decide⟩⟩

theorem witness_BootAndOwnerCommandsTakeEffect_7 : ∃ (s : State) (tag : Nat) (c : Cmd),
    Dispatched s.dev tag c ∧ eOpcode c.entry = 0x20 ∧ Cleared c s.dev s.dev ∧ eQuota c.entry ≤ s.dev.rcl.freeZones.length ∧ s.dev.cch.range ≠ none :=
  ⟨atd (({} : Device) |> (fun d => { d with gen := { d.gen with mode := .undercoat, chosen := true } }) |> (fun d => { d with cry := { d.cry with tagOk := true } }) |> (fun d => { d with gen := { d.gen with cart := some { k6 := true, format := 2, serial := 5, zoneDone := [] }, cartState := 2 } }) |> (fun d => { d with rdc := { d.rdc with clusters := [] } }) |> (fun d => { d with wrc := { d.wrc with ilk := true, ilkBlocked := false } }) |> (fun d => { d with lath := { d.lath with live := false, link := .down, detaching := none, peerHealthy := false } }) |> (fun d => { d with rcl := { d.rcl with rings := [], groups := [], tasks := [] } }) |> (fun d => { d with cry := { d.cry with slots := [(1, { st := .active, keygen := 1, flags := 0, quota := 2, key := some 7 })], ops := [] } }) |> (fun d => { d with pwr := { d.pwr with st := .armed, sealStep := 0, vinWarn := false, onHawk := false } }) |> (fun d => { d with pacing := { d.pacing with fault := false } }) |> (fun d => { d with lsk := { d.lsk with pair := .running } }) |> (fun d => { d with servo := { d.servo with mediumDead := false } }) |> (fun d => { d with hif := { d.hif with ps := 0, transition := false, cmds := [] } }) |> (fun d => { d with cry := { d.cry with slots := [(0, { st := .active, keygen := 1, flags := 0, quota := 2, key := some 7 }), (1, { st := .active, keygen := 1, flags := 7, quota := 2, key := some 7 })] } }) |> (fun d => { d with gen := { d.gen with enterTag := none, leaveTag := none, ejectTag := none, fwState := 0 } }) |> (fun d => { d with cch := { d.cch with range := none } }) |> (fun d => { d with rcl := { d.rcl with actPending := none, staging := none, staged := [] } }) |> (fun d => { d with hif := { d.hif with cmds := [(cmN 0x20 0 [15, 0, 2])] } }) |> (fun d => { d with rcl := { d.rcl with freeZones := [zn 14, zn 15] } }) |> (fun d => { d with cch := { d.cch with range := some (.clean, []) } })), 0, (cmN 0x20 0 [15, 0, 2]), ⟨⟨rfl, rfl, rfl, by decide⟩, by decide, ⟨⟨rfl, by decide, rfl⟩, by decide, by decide⟩, by decide, by decide⟩⟩

theorem witness_BootAndOwnerCommandsTakeEffect_8 : ∃ (s : State) (tag : Nat) (c : Cmd),
    Dispatched s.dev tag c ∧ eOpcode c.entry = 0x21 ∧ Cleared c s.dev s.dev ∧ s.dev.cry.ops = [] ∧ ownerBusy s.dev (eSel c.entry) = true :=
  ⟨atd (({} : Device) |> (fun d => { d with gen := { d.gen with mode := .undercoat, chosen := true } }) |> (fun d => { d with cry := { d.cry with tagOk := true } }) |> (fun d => { d with gen := { d.gen with cart := some { k6 := true, format := 2, serial := 5, zoneDone := [] }, cartState := 2 } }) |> (fun d => { d with rdc := { d.rdc with clusters := [] } }) |> (fun d => { d with wrc := { d.wrc with ilk := true, ilkBlocked := false } }) |> (fun d => { d with lath := { d.lath with live := false, link := .down, detaching := none, peerHealthy := false } }) |> (fun d => { d with rcl := { d.rcl with rings := [], groups := [], tasks := [] } }) |> (fun d => { d with cry := { d.cry with slots := [(1, { st := .active, keygen := 1, flags := 0, quota := 2, key := some 7 })], ops := [] } }) |> (fun d => { d with pwr := { d.pwr with st := .armed, sealStep := 0, vinWarn := false, onHawk := false } }) |> (fun d => { d with pacing := { d.pacing with fault := false } }) |> (fun d => { d with lsk := { d.lsk with pair := .running } }) |> (fun d => { d with servo := { d.servo with mediumDead := false } }) |> (fun d => { d with hif := { d.hif with ps := 0, transition := false, cmds := [] } }) |> (fun d => { d with cry := { d.cry with slots := [(0, { st := .active, keygen := 1, flags := 0, quota := 2, key := some 7 }), (1, { st := .active, keygen := 1, flags := 7, quota := 2, key := some 7 })] } }) |> (fun d => { d with gen := { d.gen with enterTag := none, leaveTag := none, ejectTag := none, fwState := 0 } }) |> (fun d => { d with cch := { d.cch with range := none } }) |> (fun d => { d with rcl := { d.rcl with actPending := none, staging := none, staged := [] } }) |> (fun d => { d with hif := { d.hif with cmds := [(cmN 0x21 0 [1])] } }) |> (fun d => { d with rcl := { d.rcl with groups := [grpL] } }) |> (fun d => { d with cry := { d.cry with ops := [] } })), 0, (cmN 0x21 0 [1]), ⟨⟨rfl, rfl, rfl, by decide⟩, by decide, ⟨⟨rfl, by decide, rfl⟩, by decide, by decide⟩, by decide, by decide⟩⟩

theorem witness_BootAndOwnerCommandsTakeEffect_9 : ∃ (s : State) (tag : Nat) (c : Cmd) (bytes : List Byte) (key : BitVec 256),
    Dispatched s.dev tag c ∧ eOpcode c.entry = 0x22 ∧ Cleared c s.dev s.dev ∧ (s.dev.slot (eSel c.entry)).key = some key :=
  ⟨atd (({} : Device) |> (fun d => { d with gen := { d.gen with mode := .undercoat, chosen := true } }) |> (fun d => { d with cry := { d.cry with tagOk := true } }) |> (fun d => { d with gen := { d.gen with cart := some { k6 := true, format := 2, serial := 5, zoneDone := [] }, cartState := 2 } }) |> (fun d => { d with rdc := { d.rdc with clusters := [] } }) |> (fun d => { d with wrc := { d.wrc with ilk := true, ilkBlocked := false } }) |> (fun d => { d with lath := { d.lath with live := false, link := .down, detaching := none, peerHealthy := false } }) |> (fun d => { d with rcl := { d.rcl with rings := [], groups := [], tasks := [] } }) |> (fun d => { d with cry := { d.cry with slots := [(1, { st := .active, keygen := 1, flags := 0, quota := 2, key := some 7 })], ops := [] } }) |> (fun d => { d with pwr := { d.pwr with st := .armed, sealStep := 0, vinWarn := false, onHawk := false } }) |> (fun d => { d with pacing := { d.pacing with fault := false } }) |> (fun d => { d with lsk := { d.lsk with pair := .running } }) |> (fun d => { d with servo := { d.servo with mediumDead := false } }) |> (fun d => { d with hif := { d.hif with ps := 0, transition := false, cmds := [] } }) |> (fun d => { d with cry := { d.cry with slots := [(0, { st := .active, keygen := 1, flags := 0, quota := 2, key := some 7 }), (1, { st := .active, keygen := 1, flags := 7, quota := 2, key := some 7 })] } }) |> (fun d => { d with gen := { d.gen with enterTag := none, leaveTag := none, ejectTag := none, fwState := 0 } }) |> (fun d => { d with cch := { d.cch with range := none } }) |> (fun d => { d with rcl := { d.rcl with actPending := none, staging := none, staged := [] } }) |> (fun d => { d with gen := { d.gen with mode := .dustSheet } }) |> (fun d => { d with hif := { d.hif with cmds := [(cmN 0x22 136 [1])] } }) |> (updSlot 1 fun x => { x with flags := 7 })), 0, (cmN 0x22 136 [1]), [4], 7, ⟨⟨rfl, rfl, rfl, by decide⟩, by decide, ⟨⟨rfl, by decide, rfl⟩, by decide, by decide⟩, by decide⟩⟩

theorem witness_InformingCommandsAnswer_1 : ∃ (s : State) (tag : Nat) (c : Cmd),
    Dispatched s.dev tag c ∧ eOpcode c.entry = 0x40 ∧ Cleared c s.dev s.dev :=
  ⟨atd (({} : Device) |> (fun d => { d with gen := { d.gen with mode := .undercoat, chosen := true } }) |> (fun d => { d with cry := { d.cry with tagOk := true } }) |> (fun d => { d with gen := { d.gen with cart := some { k6 := true, format := 2, serial := 5, zoneDone := [] }, cartState := 2 } }) |> (fun d => { d with rdc := { d.rdc with clusters := [] } }) |> (fun d => { d with wrc := { d.wrc with ilk := true, ilkBlocked := false } }) |> (fun d => { d with lath := { d.lath with live := false, link := .down, detaching := none, peerHealthy := false } }) |> (fun d => { d with rcl := { d.rcl with rings := [], groups := [], tasks := [] } }) |> (fun d => { d with cry := { d.cry with slots := [(1, { st := .active, keygen := 1, flags := 0, quota := 2, key := some 7 })], ops := [] } }) |> (fun d => { d with pwr := { d.pwr with st := .armed, sealStep := 0, vinWarn := false, onHawk := false } }) |> (fun d => { d with pacing := { d.pacing with fault := false } }) |> (fun d => { d with lsk := { d.lsk with pair := .running } }) |> (fun d => { d with servo := { d.servo with mediumDead := false } }) |> (fun d => { d with hif := { d.hif with ps := 0, transition := false, cmds := [] } }) |> (fun d => { d with hif := { d.hif with cmds := [(cmN 0x40 4096 [])] } })), 0, (cmN 0x40 4096 []), ⟨⟨rfl, rfl, rfl, by decide⟩, by decide, ⟨⟨rfl, by decide, rfl⟩, by decide, by decide⟩⟩⟩

theorem witness_InformingCommandsAnswer_2 : ∃ (s : State) (tag : Nat) (c : Cmd),
    Dispatched s.dev tag c ∧ eOpcode c.entry = 0x41 ∧ Cleared c s.dev s.dev :=
  ⟨atd (({} : Device) |> (fun d => { d with gen := { d.gen with mode := .undercoat, chosen := true } }) |> (fun d => { d with cry := { d.cry with tagOk := true } }) |> (fun d => { d with gen := { d.gen with cart := some { k6 := true, format := 2, serial := 5, zoneDone := [] }, cartState := 2 } }) |> (fun d => { d with rdc := { d.rdc with clusters := [] } }) |> (fun d => { d with wrc := { d.wrc with ilk := true, ilkBlocked := false } }) |> (fun d => { d with lath := { d.lath with live := false, link := .down, detaching := none, peerHealthy := false } }) |> (fun d => { d with rcl := { d.rcl with rings := [], groups := [], tasks := [] } }) |> (fun d => { d with cry := { d.cry with slots := [(1, { st := .active, keygen := 1, flags := 0, quota := 2, key := some 7 })], ops := [] } }) |> (fun d => { d with pwr := { d.pwr with st := .armed, sealStep := 0, vinWarn := false, onHawk := false } }) |> (fun d => { d with pacing := { d.pacing with fault := false } }) |> (fun d => { d with lsk := { d.lsk with pair := .running } }) |> (fun d => { d with servo := { d.servo with mediumDead := false } }) |> (fun d => { d with hif := { d.hif with ps := 0, transition := false, cmds := [] } }) |> (fun d => { d with hif := { d.hif with cmds := [(cmN 0x41 512 [2])] } })), 0, (cmN 0x41 512 [2]), ⟨⟨rfl, rfl, rfl, by decide⟩, by decide, ⟨⟨rfl, by decide, rfl⟩, by decide, by decide⟩⟩⟩

theorem witness_InformingCommandsAnswer_3 : ∃ (s : State) (tag : Nat) (c : Cmd),
    Dispatched s.dev tag c ∧ eOpcode c.entry = 0x42 ∧ Cleared c s.dev s.dev :=
  ⟨atd (({} : Device) |> (fun d => { d with gen := { d.gen with mode := .undercoat, chosen := true } }) |> (fun d => { d with cry := { d.cry with tagOk := true } }) |> (fun d => { d with gen := { d.gen with cart := some { k6 := true, format := 2, serial := 5, zoneDone := [] }, cartState := 2 } }) |> (fun d => { d with rdc := { d.rdc with clusters := [] } }) |> (fun d => { d with wrc := { d.wrc with ilk := true, ilkBlocked := false } }) |> (fun d => { d with lath := { d.lath with live := false, link := .down, detaching := none, peerHealthy := false } }) |> (fun d => { d with rcl := { d.rcl with rings := [], groups := [], tasks := [] } }) |> (fun d => { d with cry := { d.cry with slots := [(1, { st := .active, keygen := 1, flags := 0, quota := 2, key := some 7 })], ops := [] } }) |> (fun d => { d with pwr := { d.pwr with st := .armed, sealStep := 0, vinWarn := false, onHawk := false } }) |> (fun d => { d with pacing := { d.pacing with fault := false } }) |> (fun d => { d with lsk := { d.lsk with pair := .running } }) |> (fun d => { d with servo := { d.servo with mediumDead := false } }) |> (fun d => { d with hif := { d.hif with ps := 0, transition := false, cmds := [] } }) |> (fun d => { d with hif := { d.hif with cmds := [(cmN 0x42 0 [1])] } })), 0, (cmN 0x42 0 [1]), ⟨⟨rfl, rfl, rfl, by decide⟩, by decide, ⟨⟨rfl, by decide, rfl⟩, by decide, by decide⟩⟩⟩

theorem witness_InformingCommandsAnswer_4 : ∃ (s : State) (tag : Nat) (c : Cmd),
    Dispatched s.dev tag c ∧ eOpcode c.entry = 0x43 ∧ Cleared c s.dev s.dev :=
  ⟨atd (({} : Device) |> (fun d => { d with gen := { d.gen with mode := .undercoat, chosen := true } }) |> (fun d => { d with cry := { d.cry with tagOk := true } }) |> (fun d => { d with gen := { d.gen with cart := some { k6 := true, format := 2, serial := 5, zoneDone := [] }, cartState := 2 } }) |> (fun d => { d with rdc := { d.rdc with clusters := [] } }) |> (fun d => { d with wrc := { d.wrc with ilk := true, ilkBlocked := false } }) |> (fun d => { d with lath := { d.lath with live := false, link := .down, detaching := none, peerHealthy := false } }) |> (fun d => { d with rcl := { d.rcl with rings := [], groups := [], tasks := [] } }) |> (fun d => { d with cry := { d.cry with slots := [(1, { st := .active, keygen := 1, flags := 0, quota := 2, key := some 7 })], ops := [] } }) |> (fun d => { d with pwr := { d.pwr with st := .armed, sealStep := 0, vinWarn := false, onHawk := false } }) |> (fun d => { d with pacing := { d.pacing with fault := false } }) |> (fun d => { d with lsk := { d.lsk with pair := .running } }) |> (fun d => { d with servo := { d.servo with mediumDead := false } }) |> (fun d => { d with hif := { d.hif with ps := 0, transition := false, cmds := [] } }) |> (fun d => { d with hif := { d.hif with cmds := [(cmN 0x43 16 [1])] } })), 0, (cmN 0x43 16 [1]), ⟨⟨rfl, rfl, rfl, by decide⟩, by decide, ⟨⟨rfl, by decide, rfl⟩, by decide, by decide⟩⟩⟩

theorem witness_InformingCommandsAnswer_5 : ∃ (s : State) (tag : Nat) (us : Nat) (c : Cmd),
    Dispatched s.dev tag c ∧ eOpcode c.entry = 0x60 ∧ eSel c.entry = 1 ∧ Cleared c s.dev s.dev :=
  ⟨atd (({} : Device) |> (fun d => { d with gen := { d.gen with mode := .undercoat, chosen := true } }) |> (fun d => { d with cry := { d.cry with tagOk := true } }) |> (fun d => { d with gen := { d.gen with cart := some { k6 := true, format := 2, serial := 5, zoneDone := [] }, cartState := 2 } }) |> (fun d => { d with rdc := { d.rdc with clusters := [] } }) |> (fun d => { d with wrc := { d.wrc with ilk := true, ilkBlocked := false } }) |> (fun d => { d with lath := { d.lath with live := false, link := .down, detaching := none, peerHealthy := false } }) |> (fun d => { d with rcl := { d.rcl with rings := [], groups := [], tasks := [] } }) |> (fun d => { d with cry := { d.cry with slots := [(1, { st := .active, keygen := 1, flags := 0, quota := 2, key := some 7 })], ops := [] } }) |> (fun d => { d with pwr := { d.pwr with st := .armed, sealStep := 0, vinWarn := false, onHawk := false } }) |> (fun d => { d with pacing := { d.pacing with fault := false } }) |> (fun d => { d with lsk := { d.lsk with pair := .running } }) |> (fun d => { d with servo := { d.servo with mediumDead := false } }) |> (fun d => { d with hif := { d.hif with ps := 0, transition := false, cmds := [] } }) |> (fun d => { d with gen := { d.gen with mode := .dustSheet } }) |> (fun d => { d with hif := { d.hif with cmds := [(cmN 0x60 0 [1])] } })), 0, 5, (cmN 0x60 0 [1]), ⟨⟨rfl, rfl, rfl, by decide⟩, by decide, by decide, ⟨⟨rfl, by decide, rfl⟩, by decide, by decide⟩⟩⟩

theorem witness_InformingCommandsAnswer_6 : ∃ (s : State) (tag : Nat) (us : Nat) (failMap : BitVec 16) (ok : Bool) (c : Cmd),
    Dispatched s.dev tag c ∧ eOpcode c.entry = 0x60 ∧ eSel c.entry = 1 ∧ Cleared c s.dev s.dev ∧ s.dev.gen.mode ≠ .primer ∧ ((failMap ≠ 0 ∨ ok = false)) :=
  ⟨atd (({} : Device) |> (fun d => { d with gen := { d.gen with mode := .undercoat, chosen := true } }) |> (fun d => { d with cry := { d.cry with tagOk := true } }) |> (fun d => { d with gen := { d.gen with cart := some { k6 := true, format := 2, serial := 5, zoneDone := [] }, cartState := 2 } }) |> (fun d => { d with rdc := { d.rdc with clusters := [] } }) |> (fun d => { d with wrc := { d.wrc with ilk := true, ilkBlocked := false } }) |> (fun d => { d with lath := { d.lath with live := false, link := .down, detaching := none, peerHealthy := false } }) |> (fun d => { d with rcl := { d.rcl with rings := [], groups := [], tasks := [] } }) |> (fun d => { d with cry := { d.cry with slots := [(1, { st := .active, keygen := 1, flags := 0, quota := 2, key := some 7 })], ops := [] } }) |> (fun d => { d with pwr := { d.pwr with st := .armed, sealStep := 0, vinWarn := false, onHawk := false } }) |> (fun d => { d with pacing := { d.pacing with fault := false } }) |> (fun d => { d with lsk := { d.lsk with pair := .running } }) |> (fun d => { d with servo := { d.servo with mediumDead := false } }) |> (fun d => { d with hif := { d.hif with ps := 0, transition := false, cmds := [] } }) |> (fun d => { d with gen := { d.gen with mode := .dustSheet } }) |> (fun d => { d with hif := { d.hif with cmds := [(cmN 0x60 0 [1])] } })), 0, 5, 0, false, (cmN 0x60 0 [1]), ⟨⟨rfl, rfl, rfl, by decide⟩, by decide, by decide, ⟨⟨rfl, by decide, rfl⟩, by decide, by decide⟩, by decide, by decide⟩⟩

theorem witness_InformingCommandsAnswer_7 : ∃ (s : State) (tag : Nat) (c : Cmd) (h : List Byte),
    Dispatched s.dev tag c ∧ eOpcode c.entry = 0x60 ∧ eSel c.entry = 2 ∧ Cleared c s.dev s.dev ∧ h.length = 32 :=
  ⟨atd (({} : Device) |> (fun d => { d with gen := { d.gen with mode := .undercoat, chosen := true } }) |> (fun d => { d with cry := { d.cry with tagOk := true } }) |> (fun d => { d with gen := { d.gen with cart := some { k6 := true, format := 2, serial := 5, zoneDone := [] }, cartState := 2 } }) |> (fun d => { d with rdc := { d.rdc with clusters := [] } }) |> (fun d => { d with wrc := { d.wrc with ilk := true, ilkBlocked := false } }) |> (fun d => { d with lath := { d.lath with live := false, link := .down, detaching := none, peerHealthy := false } }) |> (fun d => { d with rcl := { d.rcl with rings := [], groups := [], tasks := [] } }) |> (fun d => { d with cry := { d.cry with slots := [(1, { st := .active, keygen := 1, flags := 0, quota := 2, key := some 7 })], ops := [] } }) |> (fun d => { d with pwr := { d.pwr with st := .armed, sealStep := 0, vinWarn := false, onHawk := false } }) |> (fun d => { d with pacing := { d.pacing with fault := false } }) |> (fun d => { d with lsk := { d.lsk with pair := .running } }) |> (fun d => { d with servo := { d.servo with mediumDead := false } }) |> (fun d => { d with hif := { d.hif with ps := 0, transition := false, cmds := [] } }) |> (fun d => { d with gen := { d.gen with mode := .dustSheet } }) |> (fun d => { d with hif := { d.hif with cmds := [(cmN 0x60 32 [2])] } })), 0, (cmN 0x60 32 [2]), (List.replicate 32 1), ⟨⟨rfl, rfl, rfl, by decide⟩, by decide, by decide, ⟨⟨rfl, by decide, rfl⟩, by decide, by decide⟩, by decide⟩⟩

theorem witness_InformingCommandsAnswer_8 : ∃ (s : State) (tag : Nat) (c : Cmd),
    Dispatched s.dev tag c ∧ eOpcode c.entry = 0x60 ∧ eSel c.entry = 2 ∧ Cleared c s.dev s.dev :=
  ⟨atd (({} : Device) |> (fun d => { d with gen := { d.gen with mode := .undercoat, chosen := true } }) |> (fun d => { d with cry := { d.cry with tagOk := true } }) |> (fun d => { d with gen := { d.gen with cart := some { k6 := true, format := 2, serial := 5, zoneDone := [] }, cartState := 2 } }) |> (fun d => { d with rdc := { d.rdc with clusters := [] } }) |> (fun d => { d with wrc := { d.wrc with ilk := true, ilkBlocked := false } }) |> (fun d => { d with lath := { d.lath with live := false, link := .down, detaching := none, peerHealthy := false } }) |> (fun d => { d with rcl := { d.rcl with rings := [], groups := [], tasks := [] } }) |> (fun d => { d with cry := { d.cry with slots := [(1, { st := .active, keygen := 1, flags := 0, quota := 2, key := some 7 })], ops := [] } }) |> (fun d => { d with pwr := { d.pwr with st := .armed, sealStep := 0, vinWarn := false, onHawk := false } }) |> (fun d => { d with pacing := { d.pacing with fault := false } }) |> (fun d => { d with lsk := { d.lsk with pair := .running } }) |> (fun d => { d with servo := { d.servo with mediumDead := false } }) |> (fun d => { d with hif := { d.hif with ps := 0, transition := false, cmds := [] } }) |> (fun d => { d with gen := { d.gen with mode := .dustSheet } }) |> (fun d => { d with hif := { d.hif with cmds := [(cmN 0x60 32 [2])] } })), 0, (cmN 0x60 32 [2]), ⟨⟨rfl, rfl, rfl, by decide⟩, by decide, by decide, ⟨⟨rfl, by decide, rfl⟩, by decide, by decide⟩⟩⟩

theorem witness_InformingCommandsAnswer_9 : ∃ (s : State) (tag : Nat) (c : Cmd),
    Dispatched s.dev tag c ∧ eOpcode c.entry = 0x60 ∧ eSel c.entry = 3 ∧ Cleared c s.dev s.dev ∧ 2 ≤ (s.dev.src (eSource c.entry)).sense :=
  ⟨atd (({} : Device) |> (fun d => { d with gen := { d.gen with mode := .undercoat, chosen := true } }) |> (fun d => { d with cry := { d.cry with tagOk := true } }) |> (fun d => { d with gen := { d.gen with cart := some { k6 := true, format := 2, serial := 5, zoneDone := [] }, cartState := 2 } }) |> (fun d => { d with rdc := { d.rdc with clusters := [] } }) |> (fun d => { d with wrc := { d.wrc with ilk := true, ilkBlocked := false } }) |> (fun d => { d with lath := { d.lath with live := false, link := .down, detaching := none, peerHealthy := false } }) |> (fun d => { d with rcl := { d.rcl with rings := [], groups := [], tasks := [] } }) |> (fun d => { d with cry := { d.cry with slots := [(1, { st := .active, keygen := 1, flags := 0, quota := 2, key := some 7 })], ops := [] } }) |> (fun d => { d with pwr := { d.pwr with st := .armed, sealStep := 0, vinWarn := false, onHawk := false } }) |> (fun d => { d with pacing := { d.pacing with fault := false } }) |> (fun d => { d with lsk := { d.lsk with pair := .running } }) |> (fun d => { d with servo := { d.servo with mediumDead := false } }) |> (fun d => { d with hif := { d.hif with ps := 0, transition := false, cmds := [] } }) |> (fun d => { d with hif := { d.hif with cmds := [(cmN 0x60 0 [3, 0, 0, 0, 210])] } })), 0, (cmN 0x60 0 [3, 0, 0, 0, 210]), ⟨⟨rfl, rfl, rfl, by decide⟩, by decide, by decide, ⟨⟨rfl, by decide, rfl⟩, by decide, by decide⟩, by decide⟩⟩

theorem witness_ModeRequestsTakeEffect_1 : ∃ (s : State) (tag : Nat) (c : Cmd),
    Dispatched s.dev tag c ∧ eOpcode c.entry = 0x50 ∧ eSel c.entry = 1 ∧ Cleared c s.dev s.dev ∧ s.dev.hif.cmds = [c] :=
  ⟨atd (({} : Device) |> (fun d => { d with gen := { d.gen with mode := .undercoat, chosen := true } }) |> (fun d => { d with cry := { d.cry with tagOk := true } }) |> (fun d => { d with gen := { d.gen with cart := some { k6 := true, format := 2, serial := 5, zoneDone := [] }, cartState := 2 } }) |> (fun d => { d with rdc := { d.rdc with clusters := [] } }) |> (fun d => { d with wrc := { d.wrc with ilk := true, ilkBlocked := false } }) |> (fun d => { d with lath := { d.lath with live := false, link := .down, detaching := none, peerHealthy := false } }) |> (fun d => { d with rcl := { d.rcl with rings := [], groups := [], tasks := [] } }) |> (fun d => { d with cry := { d.cry with slots := [(1, { st := .active, keygen := 1, flags := 0, quota := 2, key := some 7 })], ops := [] } }) |> (fun d => { d with pwr := { d.pwr with st := .armed, sealStep := 0, vinWarn := false, onHawk := false } }) |> (fun d => { d with pacing := { d.pacing with fault := false } }) |> (fun d => { d with lsk := { d.lsk with pair := .running } }) |> (fun d => { d with servo := { d.servo with mediumDead := false } }) |> (fun d => { d with hif := { d.hif with ps := 0, transition := false, cmds := [] } }) |> (fun d => { d with cry := { d.cry with slots := [(0, { st := .active, keygen := 1, flags := 0, quota := 2, key := some 7 }), (1, { st := .active, keygen := 1, flags := 7, quota := 2, key := some 7 })] } }) |> (fun d => { d with gen := { d.gen with enterTag := none, leaveTag := none, ejectTag := none, fwState := 0 } }) |> (fun d => { d with cch := { d.cch with range := none } }) |> (fun d => { d with rcl := { d.rcl with actPending := none, staging := none, staged := [] } }) |> (fun d => { d with hif := { d.hif with cmds := [(cmN 0x50 0 [1])] } })), 0, (cmN 0x50 0 [1]), ⟨⟨rfl, rfl, rfl, by decide⟩, by decide, by decide, ⟨⟨rfl, by decide, rfl⟩, by decide, by decide⟩, by decide⟩⟩

theorem witness_ModeRequestsTakeEffect_2 : ∃ (s : State) (tag : Nat) (c : Cmd) (x : Cmd),
    Dispatched s.dev tag c ∧ eOpcode c.entry = 0x50 ∧ eSel c.entry = 1 ∧ Cleared c s.dev s.dev ∧ s.dev.hif.cmds = [x, c] ∧ x.started = true ∧ x.phase = .running ∧ x.tag ≠ tag :=
  ⟨atd (({} : Device) |> (fun d => { d with gen := { d.gen with mode := .undercoat, chosen := true } }) |> (fun d => { d with cry := { d.cry with tagOk := true } }) |> (fun d => { d with gen := { d.gen with cart := some { k6 := true, format := 2, serial := 5, zoneDone := [] }, cartState := 2 } }) |> (fun d => { d with rdc := { d.rdc with clusters := [] } }) |> (fun d => { d with wrc := { d.wrc with ilk := true, ilkBlocked := false } }) |> (fun d => { d with lath := { d.lath with live := false, link := .down, detaching := none, peerHealthy := false } }) |> (fun d => { d with rcl := { d.rcl with rings := [], groups := [], tasks := [] } }) |> (fun d => { d with cry := { d.cry with slots := [(1, { st := .active, keygen := 1, flags := 0, quota := 2, key := some 7 })], ops := [] } }) |> (fun d => { d with pwr := { d.pwr with st := .armed, sealStep := 0, vinWarn := false, onHawk := false } }) |> (fun d => { d with pacing := { d.pacing with fault := false } }) |> (fun d => { d with lsk := { d.lsk with pair := .running } }) |> (fun d => { d with servo := { d.servo with mediumDead := false } }) |> (fun d => { d with hif := { d.hif with ps := 0, transition := false, cmds := [] } }) |> (fun d => { d with cry := { d.cry with slots := [(0, { st := .active, keygen := 1, flags := 0, quota := 2, key := some 7 }), (1, { st := .active, keygen := 1, flags := 7, quota := 2, key := some 7 })] } }) |> (fun d => { d with gen := { d.gen with enterTag := none, leaveTag := none, ejectTag := none, fwState := 0 } }) |> (fun d => { d with cch := { d.cch with range := none } }) |> (fun d => { d with rcl := { d.rcl with actPending := none, staging := none, staged := [] } }) |> (fun d => { d with hif := { d.hif with cmds := [{ cmN 0x02 64 [] with tag := 1, phase := .running, started := true }, (cmN 0x50 0 [1])] } })), 0, (cmN 0x50 0 [1]), { cmN 0x02 64 [] with tag := 1, phase := .running, started := true }, ⟨⟨rfl, rfl, rfl, by decide⟩, by decide, by decide, ⟨⟨rfl, by decide, rfl⟩, by decide, by decide⟩, by decide, by decide, by decide, by decide⟩⟩

theorem witness_ModeRequestsTakeEffect_3 : ∃ (s : State) (tag : Nat) (c : Cmd) (measured : Option (List (Nat × Word32))),
    Dispatched s.dev tag c ∧ eOpcode c.entry = 0x50 ∧ eSel c.entry = 2 ∧ mustWait s.dev c = false ∧ modeAccepts s.dev c.entry = true ∧ s.dev.gen.leaveTag = none ∧ leaveCause s.dev ≠ 0 :=
  ⟨atd (({} : Device) |> (fun d => { d with gen := { d.gen with mode := .undercoat, chosen := true } }) |> (fun d => { d with cry := { d.cry with tagOk := true } }) |> (fun d => { d with gen := { d.gen with cart := some { k6 := true, format := 2, serial := 5, zoneDone := [] }, cartState := 2 } }) |> (fun d => { d with rdc := { d.rdc with clusters := [] } }) |> (fun d => { d with wrc := { d.wrc with ilk := true, ilkBlocked := false } }) |> (fun d => { d with lath := { d.lath with live := false, link := .down, detaching := none, peerHealthy := false } }) |> (fun d => { d with rcl := { d.rcl with rings := [], groups := [], tasks := [] } }) |> (fun d => { d with cry := { d.cry with slots := [(1, { st := .active, keygen := 1, flags := 0, quota := 2, key := some 7 })], ops := [] } }) |> (fun d => { d with pwr := { d.pwr with st := .armed, sealStep := 0, vinWarn := false, onHawk := false } }) |> (fun d => { d with pacing := { d.pacing with fault := false } }) |> (fun d => { d with lsk := { d.lsk with pair := .running } }) |> (fun d => { d with servo := { d.servo with mediumDead := false } }) |> (fun d => { d with hif := { d.hif with ps := 0, transition := false, cmds := [] } }) |> (fun d => { d with cry := { d.cry with slots := [(0, { st := .active, keygen := 1, flags := 0, quota := 2, key := some 7 }), (1, { st := .active, keygen := 1, flags := 7, quota := 2, key := some 7 })] } }) |> (fun d => { d with gen := { d.gen with enterTag := none, leaveTag := none, ejectTag := none, fwState := 0 } }) |> (fun d => { d with cch := { d.cch with range := none } }) |> (fun d => { d with rcl := { d.rcl with actPending := none, staging := none, staged := [] } }) |> (fun d => { d with gen := { d.gen with mode := .dustSheet, leaveTag := none } }) |> (fun d => { d with hif := { d.hif with cmds := [(cmN 0x50 0 [2])] } }) |> (fun d => { d with pacing := { d.pacing with fault := true } })), 0, (cmN 0x50 0 [2]), none, ⟨⟨rfl, rfl, rfl, by decide⟩, by decide, by decide, by decide, by decide, by decide, by decide⟩⟩

theorem witness_ModeRequestsTakeEffect_4 : ∃ (s : State) (tag : Nat) (c : Cmd) (k : Cartridge) (measured : Option (List (Nat × Word32))),
    Dispatched s.dev tag c ∧ eOpcode c.entry = 0x50 ∧ eSel c.entry = 2 ∧ Cleared c s.dev s.dev ∧ s.dev.gen.leaveTag = none ∧ leaveCause s.dev = 0 ∧ s.dev.gen.mode = .dustSheet ∧ s.dev.nv.pairRecord.isSome = true ∧ s.dev.nv.calibration.isSome = true ∧ s.dev.gen.cart = some k ∧ k.format = 2 :=
  ⟨atd (({} : Device) |> (fun d => { d with gen := { d.gen with mode := .undercoat, chosen := true } }) |> (fun d => { d with cry := { d.cry with tagOk := true } }) |> (fun d => { d with gen := { d.gen with cart := some { k6 := true, format := 2, serial := 5, zoneDone := [] }, cartState := 2 } }) |> (fun d => { d with rdc := { d.rdc with clusters := [] } }) |> (fun d => { d with wrc := { d.wrc with ilk := true, ilkBlocked := false } }) |> (fun d => { d with lath := { d.lath with live := false, link := .down, detaching := none, peerHealthy := false } }) |> (fun d => { d with rcl := { d.rcl with rings := [], groups := [], tasks := [] } }) |> (fun d => { d with cry := { d.cry with slots := [(1, { st := .active, keygen := 1, flags := 0, quota := 2, key := some 7 })], ops := [] } }) |> (fun d => { d with pwr := { d.pwr with st := .armed, sealStep := 0, vinWarn := false, onHawk := false } }) |> (fun d => { d with pacing := { d.pacing with fault := false } }) |> (fun d => { d with lsk := { d.lsk with pair := .running } }) |> (fun d => { d with servo := { d.servo with mediumDead := false } }) |> (fun d => { d with hif := { d.hif with ps := 0, transition := false, cmds := [] } }) |> (fun d => { d with cry := { d.cry with slots := [(0, { st := .active, keygen := 1, flags := 0, quota := 2, key := some 7 }), (1, { st := .active, keygen := 1, flags := 7, quota := 2, key := some 7 })] } }) |> (fun d => { d with gen := { d.gen with enterTag := none, leaveTag := none, ejectTag := none, fwState := 0 } }) |> (fun d => { d with cch := { d.cch with range := none } }) |> (fun d => { d with rcl := { d.rcl with actPending := none, staging := none, staged := [] } }) |> (fun d => { d with gen := { d.gen with mode := .dustSheet, leaveTag := none } }) |> (fun d => { d with hif := { d.hif with cmds := [(cmN 0x50 0 [2])] } }) |> (fun d => { d with nv := { d.nv with pairRecord := some 0, calibration := some cal } }) |> (fun d => { d with cry := { d.cry with commission := none, cartReg := [5] } })), 0, (cmN 0x50 0 [2]), cart2, (some [(0xB040, 9)]), ⟨⟨rfl, rfl, rfl, by decide⟩, by decide, by decide, ⟨⟨rfl, by decide, rfl⟩, by decide, by decide⟩, by decide, by decide, by decide, by decide, by decide, by decide, by decide⟩⟩

theorem witness_ModeRequestsTakeEffect_5 : ∃ (s : State) (tag : Nat) (c : Cmd),
    Dispatched s.dev tag c ∧ eOpcode c.entry = 0x50 ∧ eSel c.entry = 3 ∧ Cleared c s.dev s.dev ∧ s.dev.lath.live = true ∧ s.dev.gen.mode = .topcoat ∧ s.dev.lath.detaching = none ∧ exchangesDone s.dev = false ∧ s.dev.lath.detachClean = false :=
  ⟨atd (({} : Device) |> (fun d => { d with gen := { d.gen with mode := .undercoat, chosen := true } }) |> (fun d => { d with cry := { d.cry with tagOk := true } }) |> (fun d => { d with gen := { d.gen with cart := some { k6 := true, format := 2, serial := 5, zoneDone := [] }, cartState := 2 } }) |> (fun d => { d with rdc := { d.rdc with clusters := [] } }) |> (fun d => { d with wrc := { d.wrc with ilk := true, ilkBlocked := false } }) |> (fun d => { d with lath := { d.lath with live := false, link := .down, detaching := none, peerHealthy := false } }) |> (fun d => { d with rcl := { d.rcl with rings := [], groups := [], tasks := [] } }) |> (fun d => { d with cry := { d.cry with slots := [(1, { st := .active, keygen := 1, flags := 0, quota := 2, key := some 7 })], ops := [] } }) |> (fun d => { d with pwr := { d.pwr with st := .armed, sealStep := 0, vinWarn := false, onHawk := false } }) |> (fun d => { d with pacing := { d.pacing with fault := false } }) |> (fun d => { d with lsk := { d.lsk with pair := .running } }) |> (fun d => { d with servo := { d.servo with mediumDead := false } }) |> (fun d => { d with hif := { d.hif with ps := 0, transition := false, cmds := [] } }) |> (fun d => { d with cry := { d.cry with slots := [(0, { st := .active, keygen := 1, flags := 0, quota := 2, key := some 7 }), (1, { st := .active, keygen := 1, flags := 7, quota := 2, key := some 7 })] } }) |> (fun d => { d with gen := { d.gen with enterTag := none, leaveTag := none, ejectTag := none, fwState := 0 } }) |> (fun d => { d with cch := { d.cch with range := none } }) |> (fun d => { d with rcl := { d.rcl with actPending := none, staging := none, staged := [] } }) |> (fun d => { d with gen := { d.gen with mode := .topcoat } }) |> (fun d => { d with hif := { d.hif with cmds := [(cmN 0x50 0 [3, 1])] } }) |> (fun d => { d with lath := { d.lath with live := true, detaching := none, detachClean := false, openXids := [(1, 1)] } })), 0, (cmN 0x50 0 [3, 1]), ⟨⟨rfl, rfl, rfl, by decide⟩, by decide, by decide, ⟨⟨rfl, by decide, rfl⟩, by decide, by decide⟩, by decide, by decide, by decide, by decide, by decide⟩⟩

theorem witness_ModeRequestsTakeEffect_6 : ∃ (s : State) (tag : Nat) (c : Cmd),
    Dispatched s.dev tag c ∧ eOpcode c.entry = 0x50 ∧ eSel c.entry = 4 ∧ Cleared c s.dev s.dev ∧ s.dev.lath.live = true ∧ s.dev.cry.commission = none ∧ s.dev.cry.heldPoint = none :=
  ⟨atd (({} : Device) |> (fun d => { d with gen := { d.gen with mode := .undercoat, chosen := true } }) |> (fun d => { d with cry := { d.cry with tagOk := true } }) |> (fun d => { d with gen := { d.gen with cart := some { k6 := true, format := 2, serial := 5, zoneDone := [] }, cartState := 2 } }) |> (fun d => { d with rdc := { d.rdc with clusters := [] } }) |> (fun d => { d with wrc := { d.wrc with ilk := true, ilkBlocked := false } }) |> (fun d => { d with lath := { d.lath with live := false, link := .down, detaching := none, peerHealthy := false } }) |> (fun d => { d with rcl := { d.rcl with rings := [], groups := [], tasks := [] } }) |> (fun d => { d with cry := { d.cry with slots := [(1, { st := .active, keygen := 1, flags := 0, quota := 2, key := some 7 })], ops := [] } }) |> (fun d => { d with pwr := { d.pwr with st := .armed, sealStep := 0, vinWarn := false, onHawk := false } }) |> (fun d => { d with pacing := { d.pacing with fault := false } }) |> (fun d => { d with lsk := { d.lsk with pair := .running } }) |> (fun d => { d with servo := { d.servo with mediumDead := false } }) |> (fun d => { d with hif := { d.hif with ps := 0, transition := false, cmds := [] } }) |> (fun d => { d with cry := { d.cry with slots := [(0, { st := .active, keygen := 1, flags := 0, quota := 2, key := some 7 }), (1, { st := .active, keygen := 1, flags := 7, quota := 2, key := some 7 })] } }) |> (fun d => { d with gen := { d.gen with enterTag := none, leaveTag := none, ejectTag := none, fwState := 0 } }) |> (fun d => { d with cch := { d.cch with range := none } }) |> (fun d => { d with rcl := { d.rcl with actPending := none, staging := none, staged := [] } }) |> (fun d => { d with gen := { d.gen with mode := .dustSheet } }) |> (fun d => { d with hif := { d.hif with cmds := [(cmN 0x50 0 [4])] } }) |> (fun d => { d with lath := { d.lath with live := true } }) |> (fun d => { d with cry := { d.cry with commission := none, heldPoint := none } })), 0, (cmN 0x50 0 [4]), ⟨⟨rfl, rfl, rfl, by decide⟩, by decide, by decide, ⟨⟨rfl, by decide, rfl⟩, by decide, by decide⟩, by decide, by decide, by decide⟩⟩

theorem witness_ModeRequestsTakeEffect_7 : ∃ (s : State) (tag : Nat) (c : Cmd) (x : Commission),
    Dispatched s.dev tag c ∧ eOpcode c.entry = 0x50 ∧ eSel c.entry = 5 ∧ Cleared c s.dev s.dev ∧ s.dev.cry.commission = some x ∧ x.code = eWord28 c.entry ∧ x.peerConfirmed = false ∧ s.dev.lath.live = true :=
  ⟨atd (({} : Device) |> (fun d => { d with gen := { d.gen with mode := .undercoat, chosen := true } }) |> (fun d => { d with cry := { d.cry with tagOk := true } }) |> (fun d => { d with gen := { d.gen with cart := some { k6 := true, format := 2, serial := 5, zoneDone := [] }, cartState := 2 } }) |> (fun d => { d with rdc := { d.rdc with clusters := [] } }) |> (fun d => { d with wrc := { d.wrc with ilk := true, ilkBlocked := false } }) |> (fun d => { d with lath := { d.lath with live := false, link := .down, detaching := none, peerHealthy := false } }) |> (fun d => { d with rcl := { d.rcl with rings := [], groups := [], tasks := [] } }) |> (fun d => { d with cry := { d.cry with slots := [(1, { st := .active, keygen := 1, flags := 0, quota := 2, key := some 7 })], ops := [] } }) |> (fun d => { d with pwr := { d.pwr with st := .armed, sealStep := 0, vinWarn := false, onHawk := false } }) |> (fun d => { d with pacing := { d.pacing with fault := false } }) |> (fun d => { d with lsk := { d.lsk with pair := .running } }) |> (fun d => { d with servo := { d.servo with mediumDead := false } }) |> (fun d => { d with hif := { d.hif with ps := 0, transition := false, cmds := [] } }) |> (fun d => { d with cry := { d.cry with slots := [(0, { st := .active, keygen := 1, flags := 0, quota := 2, key := some 7 }), (1, { st := .active, keygen := 1, flags := 7, quota := 2, key := some 7 })] } }) |> (fun d => { d with gen := { d.gen with enterTag := none, leaveTag := none, ejectTag := none, fwState := 0 } }) |> (fun d => { d with cch := { d.cch with range := none } }) |> (fun d => { d with rcl := { d.rcl with actPending := none, staging := none, staged := [] } }) |> (fun d => { d with gen := { d.gen with mode := .dustSheet } }) |> (fun d => { d with hif := { d.hif with cmds := [(cmN 0x50 0 [5, 0, 0, 0, 7])] } }) |> (fun d => { d with lath := { d.lath with live := true } }) |> (fun d => { d with cry := { d.cry with commission := some commK, checkCode := some 7 } })), 0, (cmN 0x50 0 [5, 0, 0, 0, 7]), commK, ⟨⟨rfl, rfl, rfl, by decide⟩, by decide, by decide, ⟨⟨rfl, by decide, rfl⟩, by decide, by decide⟩, by decide, by decide, by decide, by decide⟩⟩

theorem witness_ModeRequestsTakeEffect_8 : ∃ (s : State) (tag : Nat) (c : Cmd) (x : Commission),
    Dispatched s.dev tag c ∧ eOpcode c.entry = 0x50 ∧ eSel c.entry = 5 ∧ Cleared c s.dev s.dev ∧ s.dev.cry.commission = some x ∧ x.tag = none ∧ x.code ≠ eWord28 c.entry :=
  ⟨atd (({} : Device) |> (fun d => { d with gen := { d.gen with mode := .undercoat, chosen := true } }) |> (fun d => { d with cry := { d.cry with tagOk := true } }) |> (fun d => { d with gen := { d.gen with cart := some { k6 := true, format := 2, serial := 5, zoneDone := [] }, cartState := 2 } }) |> (fun d => { d with rdc := { d.rdc with clusters := [] } }) |> (fun d => { d with wrc := { d.wrc with ilk := true, ilkBlocked := false } }) |> (fun d => { d with lath := { d.lath with live := false, link := .down, detaching := none, peerHealthy := false } }) |> (fun d => { d with rcl := { d.rcl with rings := [], groups := [], tasks := [] } }) |> (fun d => { d with cry := { d.cry with slots := [(1, { st := .active, keygen := 1, flags := 0, quota := 2, key := some 7 })], ops := [] } }) |> (fun d => { d with pwr := { d.pwr with st := .armed, sealStep := 0, vinWarn := false, onHawk := false } }) |> (fun d => { d with pacing := { d.pacing with fault := false } }) |> (fun d => { d with lsk := { d.lsk with pair := .running } }) |> (fun d => { d with servo := { d.servo with mediumDead := false } }) |> (fun d => { d with hif := { d.hif with ps := 0, transition := false, cmds := [] } }) |> (fun d => { d with cry := { d.cry with slots := [(0, { st := .active, keygen := 1, flags := 0, quota := 2, key := some 7 }), (1, { st := .active, keygen := 1, flags := 7, quota := 2, key := some 7 })] } }) |> (fun d => { d with gen := { d.gen with enterTag := none, leaveTag := none, ejectTag := none, fwState := 0 } }) |> (fun d => { d with cch := { d.cch with range := none } }) |> (fun d => { d with rcl := { d.rcl with actPending := none, staging := none, staged := [] } }) |> (fun d => { d with gen := { d.gen with mode := .dustSheet } }) |> (fun d => { d with hif := { d.hif with cmds := [(cmN 0x50 0 [5, 0, 0, 0, 8])] } }) |> (fun d => { d with lath := { d.lath with live := true } }) |> (fun d => { d with cry := { d.cry with commission := some commK, checkCode := some 7 } })), 0, (cmN 0x50 0 [5, 0, 0, 0, 8]), commK, ⟨⟨rfl, rfl, rfl, by decide⟩, by decide, by decide, ⟨⟨rfl, by decide, rfl⟩, by decide, by decide⟩, by decide, by decide, by decide⟩⟩

theorem witness_ModeRequestsTakeEffect_9 : ∃ (s : State) (tag : Nat) (c : Cmd),
    Dispatched s.dev tag c ∧ eOpcode c.entry = 0x51 ∧ Cleared c s.dev s.dev ∧ s.dev.gen.ejectTag = none ∧ s.dev.gen.formatting = false ∧ s.dev.rcl.sinceSeal = [] ∧ s.dev.wrc.clusters = [] :=
  ⟨atd (({} : Device) |> (fun d => { d with gen := { d.gen with mode := .undercoat, chosen := true } }) |> (fun d => { d with cry := { d.cry with tagOk := true } }) |> (fun d => { d with gen := { d.gen with cart := some { k6 := true, format := 2, serial := 5, zoneDone := [] }, cartState := 2 } }) |> (fun d => { d with rdc := { d.rdc with clusters := [] } }) |> (fun d => { d with wrc := { d.wrc with ilk := true, ilkBlocked := false } }) |> (fun d => { d with lath := { d.lath with live := false, link := .down, detaching := none, peerHealthy := false } }) |> (fun d => { d with rcl := { d.rcl with rings := [], groups := [], tasks := [] } }) |> (fun d => { d with cry := { d.cry with slots := [(1, { st := .active, keygen := 1, flags := 0, quota := 2, key := some 7 })], ops := [] } }) |> (fun d => { d with pwr := { d.pwr with st := .armed, sealStep := 0, vinWarn := false, onHawk := false } }) |> (fun d => { d with pacing := { d.pacing with fault := false } }) |> (fun d => { d with lsk := { d.lsk with pair := .running } }) |> (fun d => { d with servo := { d.servo with mediumDead := false } }) |> (fun d => { d with hif := { d.hif with ps := 0, transition := false, cmds := [] } }) |> (fun d => { d with cry := { d.cry with slots := [(0, { st := .active, keygen := 1, flags := 0, quota := 2, key := some 7 }), (1, { st := .active, keygen := 1, flags := 7, quota := 2, key := some 7 })] } }) |> (fun d => { d with gen := { d.gen with enterTag := none, leaveTag := none, ejectTag := none, fwState := 0 } }) |> (fun d => { d with cch := { d.cch with range := none } }) |> (fun d => { d with rcl := { d.rcl with actPending := none, staging := none, staged := [] } }) |> (fun d => { d with gen := { d.gen with mode := .dustSheet, ejectTag := none, formatting := false } }) |> (fun d => { d with hif := { d.hif with cmds := [(cmN 0x51 0 [])] } }) |> (fun d => { d with rcl := { d.rcl with sinceSeal := [] } }) |> (fun d => { d with wrc := { d.wrc with clusters := [] } })), 0, (cmN 0x51 0 []), ⟨⟨rfl, rfl, rfl, by decide⟩, by decide, ⟨⟨rfl, by decide, rfl⟩, by decide, by decide⟩, by decide, by decide, by decide, by decide⟩⟩

theorem witness_RegistersAreReadAndWritten_1 : ∃ (s : State),
    idleExpired s.dev = true :=
  ⟨atd (({} : Device) |> (fun d => { d with gen := { d.gen with mode := .undercoat, chosen := true } }) |> (fun d => { d with cry := { d.cry with tagOk := true } }) |> (fun d => { d with gen := { d.gen with cart := some { k6 := true, format := 2, serial := 5, zoneDone := [] }, cartState := 2 } }) |> (fun d => { d with rdc := { d.rdc with clusters := [] } }) |> (fun d => { d with wrc := { d.wrc with ilk := true, ilkBlocked := false } }) |> (fun d => { d with lath := { d.lath with live := false, link := .down, detaching := none, peerHealthy := false } }) |> (fun d => { d with rcl := { d.rcl with rings := [], groups := [], tasks := [] } }) |> (fun d => { d with cry := { d.cry with slots := [(1, { st := .active, keygen := 1, flags := 0, quota := 2, key := some 7 })], ops := [] } }) |> (fun d => { d with pwr := { d.pwr with st := .armed, sealStep := 0, vinWarn := false, onHawk := false } }) |> (fun d => { d with pacing := { d.pacing with fault := false } }) |> (fun d => { d with lsk := { d.lsk with pair := .running } }) |> (fun d => { d with servo := { d.servo with mediumDead := false } }) |> (fun d => { d with hif := { d.hif with ps := 0, transition := false, cmds := [] } }) |> (fun d => { d with hif := { d.hif with ps := 0, transition := false, idleSince := 0, cmds := [], ready := [] } }) |> (fun d => { d with wrc := { d.wrc with clusters := [] } }) |> wreg 0x1018 3 |> (fun d => { d with pacing := { d.pacing with now := 1000000000000 } })), by decide⟩

theorem witness_RegistersAreReadAndWritten_2 : ∃ (s : State),
    s.dev.hif.transition = true :=
  ⟨atd (({} : Device) |> (fun d => { d with hif := { d.hif with transition := true } })), by decide⟩

theorem witness_RegistersAreReadAndWritten_3 : ∃ (s : State) (o : Nat) (width : Nat),
    s.dev.icu.retention = true ∧ o % 4 = 0 ∧ o < 0x1000 ∧ o ≠ 0x40 :=
  ⟨atd (({} : Device) |> (fun d => { d with icu := { d.icu with retention := true } })), 0, 32, ⟨by decide, by decide, by decide, by decide⟩⟩

theorem witness_RegistersAreReadAndWritten_4 : ∃ (s : State) (who : Requester) (o : Nat),
    masterUp who s.dev = true ∧ o % 4 = 0 ∧ (¬ (who = .seq ∧ seqReaches o = false)) ∧ o ∉ [0x4504, 0x4514, 0x4524, 0x40, 0xB030] :=
  ⟨atd (({} : Device) |> (fun d => { d with servo := { d.servo with seqRun := true, seqHalted := false } })), .seq, 0x8804, ⟨by decide, by decide, by decide, by decide⟩⟩

theorem witness_RegistersAreReadAndWritten_5 : ∃ (s : State) (who : Requester) (width : Nat) (o : Nat),
    masterUp who s.dev = true ∧ ((width ≠ 32 ∨ o % 4 ≠ 0)) :=
  ⟨atd (({} : Device)), .host, 64, 0x1030, ⟨by decide, by decide⟩⟩

theorem witness_ClaimsAndCompletionsServeSources_1 : ∃ (s : State) (who : Requester) (t : Nat) (p : Nat × Src),
    SourcesCanonical s ∧ masterUp who s.dev = true ∧ t < 2 ∧ ((who = .seq → t = 1)) ∧ firstDeliverable s.dev t = some p :=
  ⟨atd (({} : Device) |> (fun d => { d with icu := { d.icu with srcs := [(64, { target := 1, sense := 2, priority := 15, pending := true, masked := false, maskedNow := false })], threshold := [], thresholdNow := [], slots := [] } })), .mgmt, 1, (64, { target := 1, sense := 2, priority := 15, pending := true, masked := false, maskedNow := false }), ⟨by unfold SourcesCanonical; decide, by decide, by decide, by decide, by decide⟩⟩

theorem witness_ClaimsAndCompletionsServeSources_2 : ∃ (s : State) (who : Requester) (t : Nat),
    masterUp who s.dev = true ∧ t < 2 ∧ ((who = .seq → t = 1)) ∧ firstDeliverable s.dev t = none :=
  ⟨atd (({} : Device) |> (fun d => { d with icu := { d.icu with srcs := [] } })), .mgmt, 1, ⟨by decide, by decide, by decide, by decide⟩⟩

theorem witness_ClaimsAndCompletionsServeSources_3 : ∃ (s : State) (p : Nat × Src),
    SourcesCanonical s ∧ firstSrc (activeAt s.dev 2) = some p :=
  ⟨atd (({} : Device) |> (fun d => { d with icu := { d.icu with srcs := [(64, { target := 2, sense := 2, priority := 15, active := true, masked := false, maskedNow := false })], slots := [] } })), (64, { target := 2, sense := 2, priority := 15, active := true, masked := false, maskedNow := false }), ⟨by unfold SourcesCanonical; decide, by decide⟩⟩

theorem witness_ClaimsAndCompletionsServeSources_4 : ∃ (s : State),
    firstSrc (activeAt s.dev 2) = none :=
  ⟨atd (({} : Device) |> (fun d => { d with icu := { d.icu with srcs := [] } })), by decide⟩

theorem witness_ClaimsAndCompletionsServeSources_5 : ∃ (s : State) (t : Nat) (v : Word32),
    pairRuns s.dev = true ∧ SourcesCanonical s ∧ t < 2 ∧ (s.dev.src (fld v 8 0)).active = true ∧ servedBy s.dev (fld v 8 0) (s.dev.src (fld v 8 0)) = t :=
  ⟨atd (({} : Device) |> (fun d => { d with icu := { d.icu with srcs := [(64, { target := 1, sense := 2, priority := 15, active := true })], slots := [] } })), 1, 64, ⟨by decide, by unfold SourcesCanonical; decide, by decide, by decide, by decide⟩⟩

theorem witness_ClaimsAndCompletionsServeSources_6 : ∃ (s : State) (t : Nat) (v : Word32),
    pairRuns s.dev = true ∧ t < 2 ∧ (s.dev.src (fld v 8 0)).active = false :=
  ⟨atd (({} : Device) |> (fun d => { d with icu := { d.icu with srcs := [] } })), 1, 64, ⟨by decide, by decide, by decide⟩⟩

theorem witness_ClaimsAndCompletionsServeSources_7 : ∃ (s : State) (t : Nat) (v : Word32),
    t < 2 ∧ s.dev.hif.lock = false :=
  ⟨atd (({} : Device) |> (fun d => { d with hif := { d.hif with lock := false } })), 1, 64, ⟨by decide, by decide⟩⟩

theorem witness_SourceControlsWakeAndMessages_1 : ∃ (s : State) (w : Nat) (v : Word32),
    pairRuns s.dev = true ∧ w < 8 :=
  ⟨atd (({} : Device)), 7, 0x80000001, ⟨by decide, by decide⟩⟩

theorem witness_SourceControlsWakeAndMessages_2 : ∃ (s : State) (w : Nat) (v : Word32),
    pairRuns s.dev = true ∧ w < 8 :=
  ⟨atd (({} : Device)), 7, 0x80000001, ⟨by decide, by decide⟩⟩

theorem witness_SourceControlsWakeAndMessages_3 : ∃ (s : State) (w : Nat) (v : Word32),
    pairRuns s.dev = true ∧ w < 8 :=
  ⟨atd (({} : Device)), 7, 0x80000001, ⟨by decide, by decide⟩⟩

theorem witness_SourceControlsWakeAndMessages_4 : ∃ (s : State) (w : Nat) (v : Word32),
    pairRuns s.dev = true ∧ w < 8 :=
  ⟨atd (({} : Device)), 7, 0x80000001, ⟨by decide, by decide⟩⟩

theorem witness_SourceControlsWakeAndMessages_5 : ∃ (s : State) (w : Nat) (n : Nat) (v : Word32),
    w < 8 ∧ s.dev.hif.lock = false ∧ n / 32 = w ∧ v.getLsbD (n % 32) = true ∧ (s.dev.src n).target ≠ 2 :=
  ⟨atd (({} : Device) |> (fun d => { d with hif := { d.hif with lock := false } }) |> (fun d => { d with icu := { d.icu with srcs := [] } })), 7, 224, 1, ⟨by decide, by decide, by decide, by decide, by decide⟩⟩

theorem witness_SourceControlsWakeAndMessages_6 : ∃ (s : State) (t : Nat) (v : Word32),
    pairRuns s.dev = true ∧ t < 3 :=
  ⟨atd (({} : Device)), 2, 0xF, ⟨by decide, by decide⟩⟩

theorem witness_SourceControlsWakeAndMessages_7 : ∃ (s : State) (n : Nat) (v : Word32),
    pairRuns s.dev = true ∧ n < 256 ∧ cfgBad s.dev n (s.dev.src n) (cfgAfter n v (s.dev.src n)) = false :=
  ⟨atd (({} : Device) |> (fun d => { d with icu := { d.icu with srcs := [], slots := [] } })), 64, 0xF8000F12, ⟨by decide, by decide, by decide⟩⟩

theorem witness_SourceControlsWakeAndMessages_8 : ∃ (s : State) (n : Nat) (v : Word32),
    pairRuns s.dev = true ∧ n < 256 ∧ cfgBad s.dev n (s.dev.src n) (cfgAfter n v (s.dev.src n)) = true :=
  ⟨atd (({} : Device) |> (fun d => { d with icu := { d.icu with srcs := [(64, { masked := false })], slots := [] } })), 64, 0xF8000F12, ⟨by decide, by decide, by decide⟩⟩

theorem witness_SourceControlsWakeAndMessages_9 : ∃ (s : State) (i : Nat) (v : Word32),
    pairRuns s.dev = true ∧ i < 16 ∧ fld v 9 8 < 3 ∧ wakeNameOk s.dev i (fld v 7 0) = true ∧ (¬ (fld v 9 8 = 2 ∧ (s.dev.src (fld v 7 0)).sense < 2)) ∧ (((wakeSlot s.dev i).en = true → (s.dev.src (wakeSlot s.dev i).source).target ≠ 3)) :=
  ⟨atd (({} : Device) |> (fun d => { d with icu := { d.icu with slots := [] } })), 15, 0x80000090, ⟨by decide, by decide, by decide, by decide, by decide, by decide⟩⟩

theorem witness_SourceControlsWakeAndMessages_10 : ∃ (s : State) (src : Nat) (level : Bool),
    s.dev.icu.retention = true ∧ wakeSees s.dev src level = true :=
  ⟨atd (({} : Device) |> (fun d => { d with icu := { d.icu with retention := true, slots := [(0, { en := true, fwd := 0, source := 144 })], srcs := [(144, { sense := 0, target := 3 })] } })), 144, true, ⟨by decide, by decide⟩⟩

theorem witness_SourceControlsWakeAndMessages_11 : ∃ (s : State),
    mayRetain s.dev = true :=
  ⟨atd (({} : Device) |> (fun d => { d with icu := { d.icu with retention := false, srcs := [], changes := [], quietSince := 0 } }) |> (fun d => { d with hif := { d.hif with ps := 3, transition := false, polling := false, cmds := [], ready := [], fetching := none } }) |> (fun d => { d with wrc := { d.wrc with clusters := [], writing := none } }) |> (fun d => { d with rdc := { d.rdc with clusters := [] } }) |> (fun d => { d with pacing := { d.pacing with now := 1000000 } })), by decide⟩

theorem witness_SourceControlsWakeAndMessages_12 : ∃ (s : State),
    s.dev.hif.polling = true :=
  ⟨atd (({} : Device) |> (fun d => { d with hif := { d.hif with polling := true } })), by decide⟩

theorem witness_SourceControlsWakeAndMessages_13 : ∃ (s : State) (o : Nat) (v : Word32),
    o < 512 ∧ o % 4 = 0 :=
  ⟨atd (({} : Device)), 508, 0xFFFFFFFF, ⟨by decide, by decide⟩⟩

theorem witness_SourceControlsWakeAndMessages_14 : ∃ (s : State) (vec : Nat) (v : Word32),
    vec < 32 ∧ wbit v 0 = false ∧ s.dev.bus.pba.getLsbD vec = true ∧ s.dev.hif.linkUp = true ∧ s.dev.hif.bme = true :=
  ⟨atd (({} : Device) |> (fun d => { d with bus := { d.bus with pba := 0x80000000 } }) |> (fun d => { d with hif := { d.hif with linkUp := true, bme := true } })), 31, 0, ⟨by decide, by decide, by decide, by decide, by decide⟩⟩

theorem witness_WarningsMoveTheSupplyState_1 : ∃ (s : State),
    s.dev.pwr.st = .armed ∧ warning s.dev = false ∧ s.dev.pwr.vinWarn = false ∧ s.dev.icu.retention = false :=
  ⟨atd (({} : Device) |> (fun d => { d with pwr := { d.pwr with st := .armed, vinWarn := false, pwrwarnOn := true } }) |> (fun d => { d with icu := { d.icu with retention := false } })), ⟨by decide, by decide, by decide, by decide⟩⟩

theorem witness_WarningsMoveTheSupplyState_2 : ∃ (s : State),
    s.dev.pwr.st = .reArming ∧ warning s.dev = false ∧ s.dev.pwr.vinWarn = false :=
  ⟨atd (({} : Device) |> (fun d => { d with pwr := { d.pwr with st := .reArming, vinWarn := false, pwrwarnOn := true } })), ⟨by decide, by decide, by decide⟩⟩

theorem witness_WarningsMoveTheSupplyState_3 : ∃ (s : State),
    s.dev.pwr.st = .unarmed ∧ warning s.dev = false ∧ s.dev.pwr.vinWarn = false ∧ s.dev.pwr.sealTripped = false :=
  ⟨atd (({} : Device) |> (fun d => { d with pwr := { d.pwr with st := .unarmed, vinWarn := false, pwrwarnOn := true, sealTripped := false } })), ⟨by decide, by decide, by decide, by decide⟩⟩

theorem witness_WarningsMoveTheSupplyState_4 : ∃ (s : State),
    s.dev.pwr.vinWarn = true ∧ s.dev.pwr.pwrwarnOn = true ∧ s.dev.icu.retention = false :=
  ⟨atd (({} : Device) |> (fun d => { d with pwr := { d.pwr with vinWarn := true, pwrwarnOn := true } }) |> (fun d => { d with icu := { d.icu with retention := false } })), ⟨by decide, by decide, by decide⟩⟩

theorem witness_WarningsMoveTheSupplyState_5 : ∃ (s : State) (held : Nat),
    s.dev.pwr.st = .armed ∧ warning s.dev = false ∧ wbit (s.dev.reg 0xF004) 8 = true ∧ s.dev.regF 0x12018 7 0 * 250 ≤ held :=
  ⟨atd (({} : Device) |> (fun d => { d with pwr := { d.pwr with st := .armed, vinWarn := false, pwrwarnOn := true } }) |> wreg 0xF004 0x114 |> wreg 0x12018 10), 2500, ⟨by decide, by decide, by decide, by decide⟩⟩

theorem witness_WarningsMoveTheSupplyState_6 : ∃ (s : State) (on : Bool) (held : Nat),
    held < s.dev.regF 0x12018 7 0 * 250 :=
  ⟨atd (({} : Device) |> wreg 0x12018 10), true, 2499, by decide⟩

theorem witness_WarningsMoveTheSupplyState_7 : ∃ (s : State),
    s.dev.pwr.st = .rideThrough ∧ returnHolds s.dev = true ∧ 12000 ≤ stackReading s.dev :=
  ⟨atd (({} : Device) |> (fun d => { d with pwr := { d.pwr with st := .rideThrough, vinWarn := false, pwrwarnOn := true, clearSince := 0, coarse := 12000, cellsValid := false } }) |> (fun d => { d with pacing := { d.pacing with now := 125000 } })), ⟨by decide, by decide, by decide⟩⟩

theorem witness_WarningsMoveTheSupplyState_8 : ∃ (s : State),
    s.dev.pwr.st = .sealed ∧ returnHolds s.dev = true :=
  ⟨atd (({} : Device) |> (fun d => { d with pwr := { d.pwr with st := .sealed, vinWarn := false, pwrwarnOn := true, clearSince := 0 } }) |> (fun d => { d with pacing := { d.pacing with now := 125000 } })), ⟨by decide, by decide⟩⟩

theorem witness_WarningsMoveTheSupplyState_9 : ∃ (s : State),
    s.dev.pwr.st = .sealing :=
  ⟨atd (({} : Device) |> (fun d => { d with pwr := { d.pwr with st := .sealing } })), by decide⟩

theorem witness_WarningsMoveTheSupplyState_10 : ∃ (s : State),
    s.dev.pwr.st = .rideThrough ∧ s.dev.pwr.windowStart + s.dev.pwr.windowMs * 25000 ≤ s.dev.now :=
  ⟨atd (({} : Device) |> (fun d => { d with pwr := { d.pwr with st := .rideThrough, windowStart := 0, windowMs := 20 } }) |> (fun d => { d with pacing := { d.pacing with now := 500000 } })), ⟨by decide, by decide⟩⟩

theorem witness_WarningsMoveTheSupplyState_11 : ∃ (s : State),
    s.dev.now < s.dev.pwr.windowStart + s.dev.pwr.windowMs * 25000 :=
  ⟨atd (({} : Device) |> (fun d => { d with pwr := { d.pwr with windowStart := 0, windowMs := 20 } }) |> (fun d => { d with pacing := { d.pacing with now := 499999 } })), by decide⟩

theorem witness_SealRunsItsSteps_1 : ∃ (s : State),
    ((s.dev.pwr.st = .armed ∨ s.dev.pwr.st = .rideThrough)) :=
  ⟨atd (({} : Device) |> (fun d => { d with pwr := { d.pwr with st := .rideThrough } })), by decide⟩

theorem witness_SealRunsItsSteps_2 : ∃ (s : State),
    s.dev.pwr.st = .unarmed ∧ s.dev.icu.retention = false :=
  ⟨atd (({} : Device) |> (fun d => { d with pwr := { d.pwr with st := .unarmed } }) |> (fun d => { d with icu := { d.icu with retention := false } })), ⟨by decide, by decide⟩⟩

theorem witness_SealRunsItsSteps_3 : ∃ (s : State) (o : Nat),
    s.dev.pwr.st = .sealing ∧ s.dev.pwr.sealStep = 1 ∧ s.dev.pwr.sealRing = some o :=
  ⟨atd (({} : Device) |> (fun d => { d with pwr := { d.pwr with st := .sealing, sealStep := 1, sealRing := some 1 } })), 1, ⟨by decide, by decide, by decide⟩⟩

theorem witness_SealRunsItsSteps_4 : ∃ (s : State),
    s.dev.pwr.st = .sealing ∧ s.dev.pwr.sealStep = 1 ∧ s.dev.pwr.sealRing = none ∧ s.dev.rcl.lastWritten = none :=
  ⟨atd (({} : Device) |> (fun d => { d with pwr := { d.pwr with st := .sealing, sealStep := 1, sealRing := none } }) |> (fun d => { d with rcl := { d.rcl with lastWritten := none } })), ⟨by decide, by decide, by decide, by decide⟩⟩

theorem witness_SealRunsItsSteps_5 : ∃ (s : State),
    s.dev.pwr.st = .sealing ∧ s.dev.pwr.sealStep = 2 ∧ s.dev.wrc.clusters = [] :=
  ⟨atd (({} : Device) |> (fun d => { d with pwr := { d.pwr with st := .sealing, sealStep := 2 } }) |> (fun d => { d with wrc := { d.wrc with clusters := [] } })), ⟨by decide, by decide, by decide⟩⟩

theorem witness_SealRunsItsSteps_6 : ∃ (s : State) (c : WriteCluster),
    s.dev.pwr.st = .sealing ∧ s.dev.wrc.clusters = [c] ∧ c.kind = .sealCheckpoint ∧ ((∀ i, i < 18 → (wsector c i).st = .due)) :=
  ⟨atd (({} : Device) |> (fun d => { d with pwr := { d.pwr with st := .sealing, sealStep := 2 } }) |> (fun d => { d with wrc := { d.wrc with clusters := [wcl] } })), wcl, ⟨by decide, by decide, by decide, by decide⟩⟩

theorem witness_SealRunsItsSteps_7 : ∃ (s : State),
    s.dev.pwr.st = .sealing ∧ s.dev.pwr.sealStep = 3 ∧ sledAtRest s.dev = true ∧ returnHolds s.dev = false :=
  ⟨atd (({} : Device) |> (fun d => { d with pwr := { d.pwr with st := .sealing, sealStep := 3, vinWarn := true } }) |> (fun d => { d with motion := { d.motion with parking := false, ramping := false } })), ⟨by decide, by decide, by decide, by decide⟩⟩

theorem witness_SealRunsItsSteps_8 : ∃ (s : State),
    s.dev.pwr.st = .sealing ∧ s.dev.pwr.sealStep = 3 ∧ sledAtRest s.dev = true ∧ returnHolds s.dev = true :=
  ⟨atd (({} : Device) |> (fun d => { d with pwr := { d.pwr with st := .sealing, sealStep := 3, vinWarn := false, pwrwarnOn := true, clearSince := 0 } }) |> (fun d => { d with motion := { d.motion with parking := false, ramping := false } }) |> (fun d => { d with pacing := { d.pacing with now := 125000 } })), ⟨by decide, by decide, by decide, by decide⟩⟩

theorem witness_StackMonitorReadsAndJudges_1 : ∃ (s : State) (cells : List Nat) (tapMoves : List Nat) (refB : Nat) (coarse : Nat) (current : Nat),
    s.dev.pwr.cycleAt + 250000 ≤ s.dev.now ∧ cells.length = 6 ∧ 1244 ≤ refB ∧ refB ≤ 1256 ∧ s.dev.pwr.st = .armed :=
  ⟨atd (({} : Device) |> (fun d => { d with pwr := { d.pwr with st := .armed, cycleAt := 0 } }) |> (fun d => { d with pacing := { d.pacing with now := 250000 } })), [2400, 2400, 2400, 2400, 2400, 2400], [51], 1244, 12000, 0, ⟨by decide, by decide, by decide, by decide, by decide⟩⟩

theorem witness_StackMonitorReadsAndJudges_2 : ∃ (s : State) (cells : List Nat) (tapMoves : List Nat) (refB : Nat) (coarse : Nat) (current : Nat),
    s.dev.pwr.cycleAt + 250000 ≤ s.dev.now ∧ cells.length = 6 ∧ ((refB < 1244 ∨ 1256 < refB)) ∧ s.dev.pwr.st = .armed :=
  ⟨atd (({} : Device) |> (fun d => { d with pwr := { d.pwr with st := .armed, cycleAt := 0 } }) |> (fun d => { d with pacing := { d.pacing with now := 250000 } })), [2400, 2400, 2400, 2400, 2400, 2400], [51], 1243, 12000, 0, ⟨by decide, by decide, by decide, by decide⟩⟩

theorem witness_StackMonitorReadsAndJudges_3 : ∃ (s : State) (cells : List Nat) (tapMoves : List Nat) (refB : Nat) (coarse : Nat) (current : Nat),
    s.dev.pwr.cycleAt + 250000 ≤ s.dev.now ∧ cells.length = 6 ∧ s.dev.pwr.st = .unarmed ∧ refB < 1244 ∧ 12000 ≤ coarse ∧ warning s.dev = false :=
  ⟨atd (({} : Device) |> (fun d => { d with pwr := { d.pwr with st := .unarmed, vinWarn := false, pwrwarnOn := true, cycleAt := 0 } }) |> (fun d => { d with pacing := { d.pacing with now := 250000 } })), [2400, 2400, 2400, 2400, 2400, 2400], [51], 1243, 12000, 0, ⟨by decide, by decide, by decide, by decide, by decide, by decide⟩⟩

theorem witness_StackMonitorReadsAndJudges_4 : ∃ (s : State) (cells : List Nat) (tapMoves : List Nat) (refB : Nat) (coarse : Nat) (current : Nat),
    s.dev.pwr.cycleAt + 250000 ≤ s.dev.now ∧ cells.length = 6 ∧ s.dev.pwr.st = .unarmed ∧ refB < 1244 ∧ coarse < 12000 ∧ s.dev.icu.retention = false :=
  ⟨atd (({} : Device) |> (fun d => { d with pwr := { d.pwr with st := .unarmed, cycleAt := 0 } }) |> (fun d => { d with icu := { d.icu with retention := false } }) |> (fun d => { d with pacing := { d.pacing with now := 250000 } })), [2400, 2400, 2400, 2400, 2400, 2400], [51], 1243, 9000, 0, ⟨by decide, by decide, by decide, by decide, by decide, by decide⟩⟩

theorem witness_StackMonitorReadsAndJudges_5 : ∃ (s : State) (cells : List Nat) (tapMoves : List Nat) (refB : Nat) (coarse : Nat) (current : Nat),
    s.dev.now < s.dev.pwr.cycleAt + 250000 :=
  ⟨atd (({} : Device) |> (fun d => { d with pwr := { d.pwr with cycleAt := 0 } }) |> (fun d => { d with pacing := { d.pacing with now := 249999 } })), [2400, 2400, 2400, 2400, 2400, 2400], [51], 1250, 12000, 0, by decide⟩

theorem witness_StackMonitorReadsAndJudges_6 : ∃ (s : State) (quiet : Nat),
    s.dev.pwr.chainLost = false ∧ 50000 ≤ quiet ∧ s.dev.icu.retention = false :=
  ⟨atd (({} : Device) |> (fun d => { d with pwr := { d.pwr with chainLost := false } }) |> (fun d => { d with icu := { d.icu with retention := false } })), 50000, ⟨by decide, by decide, by decide⟩⟩

theorem witness_StackMonitorReadsAndJudges_7 : ∃ (s : State) (quiet : Nat),
    quiet < 50000 :=
  ⟨atd (({} : Device)), 49999, by decide⟩

theorem witness_StackMonitorReadsAndJudges_8 : ∃ (s : State) (t : Nat) (present : Nat),
    s.dev.pwr.chainLost = true ∧ s.dev.pwr.beatSince = some t ∧ 500000 ≤ present ∧ s.dev.icu.retention = false :=
  ⟨atd (({} : Device) |> (fun d => { d with pwr := { d.pwr with chainLost := true, beatSince := some 0 } }) |> (fun d => { d with icu := { d.icu with retention := false } })), 0, 500000, ⟨by decide, by decide, by decide, by decide⟩⟩

theorem witness_StackMonitorReadsAndJudges_9 : ∃ (s : State) (present : Nat),
    ((s.dev.pwr.beatSince = none ∨ present < 500000)) :=
  ⟨atd (({} : Device)), 499999, by decide⟩

theorem witness_BalancingTestsAndMeasurements_1 : ∃ (s : State) (v : Word32),
    pairRuns s.dev = true ∧ s.dev.gen.mode ≠ .primer ∧ 0 < fld v 26 16 ∧ fld v 26 16 ≤ 2000 :=
  ⟨atd (({} : Device) |> (fun d => { d with gen := { d.gen with mode := .undercoat } })), 0x07D0003F, ⟨by decide, by decide, by decide, by decide⟩⟩

theorem witness_BalancingTestsAndMeasurements_2 : ∃ (s : State) (v : Word32),
    pairRuns s.dev = true ∧ s.dev.gen.mode ≠ .primer ∧ fld v 26 16 = 0 :=
  ⟨atd (({} : Device) |> (fun d => { d with gen := { d.gen with mode := .undercoat } })), 0x0000003F, ⟨by decide, by decide, by decide⟩⟩

theorem witness_BalancingTestsAndMeasurements_3 : ∃ (s : State) (v : Word32),
    pairRuns s.dev = true ∧ s.dev.gen.mode ≠ .primer ∧ 2000 < fld v 26 16 ∧ 0 < s.dev.pwr.balanceMs :=
  ⟨atd (({} : Device) |> (fun d => { d with gen := { d.gen with mode := .undercoat } }) |> (fun d => { d with pwr := { d.pwr with balanceMs := 7 } })), 0x07D1003F, ⟨by decide, by decide, by decide, by decide⟩⟩

theorem witness_BalancingTestsAndMeasurements_4 : ∃ (s : State),
    s.dev.pwr.bleed ≠ 0 ∧ s.dev.pwr.bleedEnd ≤ s.dev.now :=
  ⟨atd (({} : Device) |> (fun d => { d with pwr := { d.pwr with bleed := 5, bleedEnd := 0 } })), ⟨by decide, by decide⟩⟩

theorem witness_BalancingTestsAndMeasurements_5 : ∃ (s : State),
    s.dev.now < s.dev.pwr.bleedEnd :=
  ⟨atd (({} : Device) |> (fun d => { d with pwr := { d.pwr with bleed := 5, bleedEnd := 10 } }) |> (fun d => { d with pacing := { d.pacing with now := 9 } })), by decide⟩

theorem witness_BalancingTestsAndMeasurements_6 : ∃ (s : State),
    pairRuns s.dev = true ∧ s.dev.pwr.testRunning = false :=
  ⟨atd (({} : Device) |> (fun d => { d with pwr := { d.pwr with testRunning := false } })), ⟨by decide, by decide⟩⟩

theorem witness_BalancingTestsAndMeasurements_7 : ∃ (s : State),
    s.dev.gen.mode ≠ .primer ∧ s.dev.pwr.testRunning = false ∧ 0 < s.dev.regF 0x10030 7 0 ∧ s.dev.pwr.testTick + s.dev.regF 0x10030 7 0 * 86400 * 25000000 ≤ s.dev.now :=
  ⟨atd (({} : Device) |> (fun d => { d with pwr := { d.pwr with testRunning := false, testTick := 0 } }) |> (fun d => { d with gen := { d.gen with mode := .undercoat } }) |> wreg 0x10030 1 |> (fun d => { d with pacing := { d.pacing with now := 2160000000000 } })), ⟨by decide, by decide, by decide, by decide⟩⟩

theorem witness_BalancingTestsAndMeasurements_8 : ∃ (s : State),
    s.dev.pwr.testDue = true ∧ s.dev.gen.mode ≠ .primer ∧ s.dev.pwr.testRunning = false ∧ s.dev.pwr.st = .armed ∧ s.dev.pwr.charger = .float ∧ warning s.dev = false ∧ s.dev.pwr.bleed = 0 :=
  ⟨atd (({} : Device) |> (fun d => { d with pwr := { d.pwr with testDue := true, testRunning := false, st := .armed, charger := .float, vinWarn := false, pwrwarnOn := true, bleed := 0 } }) |> (fun d => { d with gen := { d.gen with mode := .undercoat } })), ⟨by decide, by decide, by decide, by decide, by decide, by decide, by decide⟩⟩

theorem witness_BalancingTestsAndMeasurements_9 : ∃ (s : State) (fall : Nat) (ticks : Nat),
    s.dev.pwr.testRunning = true ∧ s.dev.pwr.tested = false ∧ 0 ≤ usableEnergy (roundDiv (ticks : Int) 20000) (1000 * fall) :=
  ⟨atd (({} : Device) |> (fun d => { d with pwr := { d.pwr with testRunning := true, tested := false } })), 40, 50000000, ⟨by decide, by decide, by decide⟩⟩

theorem witness_BalancingTestsAndMeasurements_10 : ∃ (s : State) (fall : Nat) (ticks : Nat),
    s.dev.pwr.testRunning = false :=
  ⟨atd (({} : Device) |> (fun d => { d with pwr := { d.pwr with testRunning := false } })), 40, 5, by decide⟩

theorem witness_BalancingTestsAndMeasurements_11 : ∃ (s : State) (vin : Nat) (field : Nat),
    s.dev.pwr.adcAt + 25000 ≤ s.dev.now ∧ vin < 65536 ∧ field < 65536 ∧ s.dev.icu.retention = false :=
  ⟨atd (({} : Device) |> (fun d => { d with icu := { d.icu with retention := false } }) |> (fun d => { d with pwr := { d.pwr with adcAt := 0 } }) |> (fun d => { d with pacing := { d.pacing with now := 25000 } })), 19199, 24000, ⟨by decide, by decide, by decide, by decide⟩⟩

theorem witness_BalancingTestsAndMeasurements_12 : ∃ (s : State) (core : Int) (afe : Int),
    s.dev.icu.retention = false :=
  ⟨atd (({} : Device) |> (fun d => { d with icu := { d.icu with retention := false } })), 111, 0, by decide⟩

theorem witness_LockstepFaultsRestartOrHold_1 : ∃ (s : State) (lead : BusCopy) (trail : BusCopy),
    pairRuns s.dev = true ∧ lead ≠ trail ∧ (s.dev.lsk.mismatches.filter fun t => decide (s.dev.now ≤ t + 250000000)).length < 2 :=
  ⟨atd (({} : Device) |> (fun d => { d with lsk := { d.lsk with pair := .running, mismatches := [0] } })), { addr := 5, data := 1, enables := 15, kind := 1 }, { addr := 5, data := 2, enables := 15, kind := 1 }, ⟨by decide, by decide, by decide⟩⟩

theorem witness_LockstepFaultsRestartOrHold_2 : ∃ (s : State) (lead : BusCopy) (trail : BusCopy),
    pairRuns s.dev = true ∧ lead ≠ trail ∧ s.dev.gen.mode ≠ .primer ∧ 2 ≤ (s.dev.lsk.mismatches.filter fun t => decide (s.dev.now ≤ t + 250000000)).length :=
  ⟨atd (({} : Device) |> (fun d => { d with lsk := { d.lsk with pair := .running, mismatches := [0, 0] } }) |> (fun d => { d with gen := { d.gen with mode := .undercoat } }) |> (fun d => { d with pacing := { d.pacing with now := 250000000 } })), { addr := 5, data := 1, enables := 15, kind := 1 }, { addr := 5, data := 2, enables := 15, kind := 1 }, ⟨by decide, by decide, by decide, by decide⟩⟩

theorem witness_LockstepFaultsRestartOrHold_3 : ∃ (s : State) (x : BusCopy),
    pairRuns s.dev = true :=
  ⟨atd (({} : Device) |> (fun d => { d with lsk := { d.lsk with pair := .running } })), { addr := 5, data := 2, enables := 15, kind := 1 }, by decide⟩

theorem witness_LockstepFaultsRestartOrHold_4 : ∃ (s : State) (lead : BusCopy) (trail : BusCopy) (upset : BitVec 81),
    pairRuns s.dev = true ∧ upset ≠ 0 ∧ s.dev.gen.mode ≠ .primer :=
  ⟨atd (({} : Device) |> (fun d => { d with lsk := { d.lsk with pair := .running } }) |> (fun d => { d with gen := { d.gen with mode := .undercoat } })), { addr := 5, data := 1, enables := 15, kind := 1 }, { addr := 5, data := 2, enables := 15, kind := 1 }, 1, ⟨by decide, by decide, by decide⟩⟩

theorem witness_LockstepFaultsRestartOrHold_5 : ∃ (s : State) (x : BusCopy),
    pairRuns s.dev = true ∧ s.dev.lsk.testDue = true ∧ s.dev.lsk.nextBit < 72 :=
  ⟨atd (({} : Device) |> (fun d => { d with lsk := { d.lsk with pair := .running, testDue := true, nextBit := 71 } })), { addr := 5, data := 2, enables := 15, kind := 1 }, ⟨by decide, by decide, by decide⟩⟩

theorem witness_LockstepFaultsRestartOrHold_6 : ∃ (s : State),
    pairRuns s.dev = true ∧ s.dev.lsk.testDue = true ∧ s.dev.gen.mode ≠ .primer :=
  ⟨atd (({} : Device) |> (fun d => { d with lsk := { d.lsk with pair := .running, testDue := true } }) |> (fun d => { d with gen := { d.gen with mode := .undercoat } })), ⟨by decide, by decide, by decide⟩⟩

theorem witness_LockstepFaultsRestartOrHold_7 : ∃ (s : State) (r : DelayReg) (upsetA : BitVec 81) (upsetB : BitVec 81) (cause : Nat),
    pairRuns s.dev = true ∧ s.dev.lsk.cores.inputs.head? = some r ∧ delayFault { a := r.a ^^^ upsetA, b := r.b ^^^ upsetB } = some cause ∧ s.dev.gen.mode ≠ .primer :=
  ⟨atd (({} : Device) |> (fun d => { d with lsk := { d.lsk with pair := .running, cores := { inputs := [{ a := 0, b := 0 }] } } }) |> (fun d => { d with gen := { d.gen with mode := .undercoat } })), { a := 0, b := 0 }, 1, 1, 3, ⟨by decide, by decide, by decide, by decide⟩⟩

theorem witness_LockstepFaultsRestartOrHold_8 : ∃ (s : State) (other : Bool),
    s.dev.lsk.pair = .restarting :=
  ⟨atd (({} : Device) |> (fun d => { d with lsk := { d.lsk with pair := .restarting } })), false, by decide⟩

theorem witness_LockstepFaultsRestartOrHold_9 : ∃ (s : State),
    s.dev.lsk.pair = .restarting :=
  ⟨atd (({} : Device) |> (fun d => { d with lsk := { d.lsk with pair := .restarting } })), by decide⟩

theorem witness_LockstepFaultsRestartOrHold_10 : ∃ (s : State),
    s.dev.lsk.pair = .restarting ∧ s.dev.gen.mode ≠ .primer :=
  ⟨atd (({} : Device) |> (fun d => { d with lsk := { d.lsk with pair := .restarting } }) |> (fun d => { d with gen := { d.gen with mode := .undercoat } })), ⟨by decide, by decide⟩⟩

theorem witness_TestPulsesCheckTheOutputs_1 : ∃ (s : State) (i : Nat),
    i < 4 ∧ s.dev.fio.joint.getLsbD i = false ∧ groupMember s.dev i = false ∧ energised s.dev i = true ∧ pulseEnabled s.dev i = true ∧ s.dev.now = s.dev.fio.periodStart + (2 * i + twinId s.dev) * (fld s.dev.fio.cfgNow 9 0 * 25000 / 8) :=
  ⟨atd (({} : Device) |> (fun d => { d with fio := { d.fio with joint := 0, ext := 0, cross := 0, shutdown := 0, low := false, restorePending := false, cfgNow := 0x0F050064, groupNow := 0 } }) |> (fun d => { d with pacing := { d.pacing with fault := false } }) |> (fun d => { d with lsk := { d.lsk with pair := .running } }) |> (fun d => { d with gen := { d.gen with mode := .undercoat, selfTestOk := true, phase := 6, chosen := true } }) |> (fun d => { d with lath := { d.lath with live := false, peerHealthy := false } }) |> (fun d => { d with pwr := { d.pwr with st := .armed } }) |> (fun d => { d with fio := { d.fio with periodStart := 7 } }) |> (fun d => { d with lath := { d.lath with strap := 1 } }) |> (fun d => { d with pacing := { d.pacing with now := 312507 } })), 0, ⟨by decide, by decide, by decide, by decide, by decide, by decide⟩⟩

theorem witness_TestPulsesCheckTheOutputs_2 : ∃ (s : State) (i : Nat),
    ((4 ≤ i ∨ s.dev.now ≠ windowOpens s.dev i)) :=
  ⟨atd (({} : Device) |> (fun d => { d with fio := { d.fio with periodStart := 7 } }) |> (fun d => { d with lath := { d.lath with strap := 1 } }) |> (fun d => { d with pacing := { d.pacing with now := 312508 } })), 0, by decide⟩

theorem witness_TestPulsesCheckTheOutputs_3 : ∃ (s : State) (i : Nat) (pins : BitVec 4),
    i < 4 ∧ s.dev.fio.joint.getLsbD i = false ∧ groupMember s.dev i = false ∧ isLatched s.dev i = false ∧ energised s.dev i = true ∧ pulseEnabled s.dev i = true ∧ s.dev.now + 1250 = s.dev.fio.periodStart + (2 * i + twinId s.dev) * (fld s.dev.fio.cfgNow 9 0 * 25000 / 8) + fld s.dev.fio.cfgNow 19 16 * 2500 :=
  ⟨atd (({} : Device) |> (fun d => { d with fio := { d.fio with joint := 0, ext := 0, cross := 0, shutdown := 0, low := false, restorePending := false, cfgNow := 0x0F050064, groupNow := 0 } }) |> (fun d => { d with pacing := { d.pacing with fault := false } }) |> (fun d => { d with lsk := { d.lsk with pair := .running } }) |> (fun d => { d with gen := { d.gen with mode := .undercoat, selfTestOk := true, phase := 6, chosen := true } }) |> (fun d => { d with lath := { d.lath with live := false, peerHealthy := false } }) |> (fun d => { d with pwr := { d.pwr with st := .armed } }) |> (fun d => { d with fio := { d.fio with periodStart := 0 } }) |> (fun d => { d with lath := { d.lath with strap := 0 } }) |> (fun d => { d with pacing := { d.pacing with now := 11250 } })), 0, 1, ⟨by decide, by decide, by decide, by decide, by decide, by decide, by decide⟩⟩

theorem witness_TestPulsesCheckTheOutputs_4 : ∃ (s : State) (c : PulseCheck),
    s.dev.fio.periodStart + pulsePeriod s.dev ≤ s.dev.now ∧ s.dev.fio.checks = [c] ∧ c.out < 4 ∧ c.high = true ∧ isLatched s.dev c.out = false ∧ s.dev.fio.groupFailed = none :=
  ⟨atd (({} : Device) |> (fun d => { d with fio := { d.fio with periodStart := 0, checks := [{ out := 3, high := true, pins := 8, drivers := 8 }], ext := 0, cross := 0, groupFailed := none, cfgNow := 0x0F050064 } }) |> (fun d => { d with pacing := { d.pacing with now := 2500000 } })), { out := 3, high := true, pins := 8, drivers := 8 }, ⟨by decide, by decide, by decide, by decide, by decide, by decide⟩⟩

theorem witness_TestPulsesCheckTheOutputs_5 : ∃ (s : State) (c : PulseCheck),
    s.dev.fio.periodStart + pulsePeriod s.dev ≤ s.dev.now ∧ s.dev.fio.checks = [c] ∧ c.high = false ∧ s.dev.fio.groupFailed = none :=
  ⟨atd (({} : Device) |> (fun d => { d with fio := { d.fio with periodStart := 0, checks := [{ out := 3, high := false, pins := 0, drivers := 8 }], groupFailed := none, cfgNow := 0x0F050064 } }) |> (fun d => { d with pacing := { d.pacing with now := 2500000 } })), { out := 3, high := false, pins := 0, drivers := 8 }, ⟨by decide, by decide, by decide, by decide⟩⟩

theorem witness_TestPulsesCheckTheOutputs_6 : ∃ (s : State) (a : PulseCheck) (b : PulseCheck),
    s.dev.fio.periodStart + pulsePeriod s.dev ≤ s.dev.now ∧ s.dev.fio.checks = [a, b] ∧ a.out < 4 ∧ b.out < 4 ∧ a.out ≠ b.out ∧ a.high = true ∧ b.high = true ∧ a.drivers.getLsbD b.out = true ∧ b.pins.getLsbD a.out = false ∧ s.dev.fio.groupFailed = none :=
  ⟨atd (({} : Device) |> (fun d => { d with fio := { d.fio with periodStart := 0, checks := [{ out := 0, high := true, pins := 1, drivers := 2 }, { out := 1, high := true, pins := 2, drivers := 0 }], ext := 0, cross := 0, groupFailed := none, cfgNow := 0x0F050064 } }) |> (fun d => { d with pacing := { d.pacing with now := 2500000 } })), { out := 0, high := true, pins := 1, drivers := 2 }, { out := 1, high := true, pins := 2, drivers := 0 }, ⟨by decide, by decide, by decide, by decide, by decide, by decide, by decide, by decide, by decide, by decide⟩⟩

theorem witness_TestPulsesCheckTheOutputs_7 : ∃ (s : State),
    s.dev.now < s.dev.fio.periodStart + pulsePeriod s.dev :=
  ⟨atd (({} : Device) |> (fun d => { d with fio := { d.fio with periodStart := 0, cfgNow := 0x0F050064 } }) |> (fun d => { d with pacing := { d.pacing with now := 2499999 } })), by decide⟩

theorem witness_TestPulsesCheckTheOutputs_8 : ∃ (s : State) (cr : Credits) (ticks : Nat) (width : Nat) (l : Nat) (p : Nat),
    s.dev.lath.live = true ∧ twinId s.dev = 1 :=
  ⟨atd (({} : Device) |> (fun d => { d with lath := { d.lath with live := true, strap := 1 } })), crd, 3, 4, 5, 6, ⟨by decide, by decide⟩⟩

theorem witness_FieldFaultsAndInputs_1 : ∃ (s : State) (i : Nat),
    i < 4 ∧ s.dev.fio.gnd.getLsbD i = false :=
  ⟨atd (({} : Device) |> (fun d => { d with fio := { d.fio with gnd := 0 } })), 3, ⟨by decide, by decide⟩⟩

theorem witness_FieldFaultsAndInputs_2 : ∃ (s : State) (i : Nat),
    i < 4 ∧ s.dev.fio.gnd.getLsbD i = true :=
  ⟨atd (({} : Device) |> (fun d => { d with fio := { d.fio with gnd := 8 } })), 3, ⟨by decide, by decide⟩⟩

theorem witness_FieldFaultsAndInputs_3 : ∃ (s : State) (i : Nat),
    i < 4 ∧ s.dev.fio.gnd.getLsbD i = true ∧ ((s.dev.fio.shutdown.getLsbD i = true → outCondition s.dev i = true ∧ sget (fun _ => 0) s.dev.fio.retryAt i ≤ s.dev.now)) :=
  ⟨atd (({} : Device) |> (fun d => { d with fio := { d.fio with gnd := 8, shutdown := 0 } })), 3, ⟨by decide, by decide, by decide⟩⟩

theorem witness_FieldFaultsAndInputs_4 : ∃ (s : State) (i : Nat),
    i < 4 ∧ s.dev.fio.gnd.getLsbD i = true ∧ s.dev.fio.shutdown.getLsbD i = true ∧ outCondition s.dev i = true ∧ sget (fun _ => 0) s.dev.fio.retryAt i ≤ s.dev.now :=
  ⟨atd (({} : Device) |> (fun d => { d with fio := { d.fio with joint := 0, ext := 0, cross := 0, shutdown := 0, low := false, restorePending := false, cfgNow := 0x0F050064, groupNow := 0 } }) |> (fun d => { d with pacing := { d.pacing with fault := false } }) |> (fun d => { d with lsk := { d.lsk with pair := .running } }) |> (fun d => { d with gen := { d.gen with mode := .undercoat, selfTestOk := true, phase := 6, chosen := true } }) |> (fun d => { d with lath := { d.lath with live := false, peerHealthy := false } }) |> (fun d => { d with pwr := { d.pwr with st := .armed } }) |> (fun d => { d with fio := { d.fio with gnd := 1, shutdown := 1, retryAt := [(0, 5)] } }) |> (fun d => { d with pacing := { d.pacing with now := 5 } })), 0, ⟨by decide, by decide, by decide, by decide, by decide⟩⟩

theorem witness_FieldFaultsAndInputs_5 : ∃ (s : State) (i : Nat) (ended : Bool),
    s.dev.fio.shutdown.getLsbD i = true ∧ ((outCondition s.dev i = false ∨ s.dev.now < sget (fun _ => 0) s.dev.fio.retryAt i)) :=
  ⟨atd (({} : Device) |> (fun d => { d with fio := { d.fio with joint := 0, ext := 0, cross := 0, shutdown := 0, low := false, restorePending := false, cfgNow := 0x0F050064, groupNow := 0 } }) |> (fun d => { d with pacing := { d.pacing with fault := false } }) |> (fun d => { d with lsk := { d.lsk with pair := .running } }) |> (fun d => { d with gen := { d.gen with mode := .undercoat, selfTestOk := true, phase := 6, chosen := true } }) |> (fun d => { d with lath := { d.lath with live := false, peerHealthy := false } }) |> (fun d => { d with pwr := { d.pwr with st := .armed } }) |> (fun d => { d with fio := { d.fio with gnd := 1, shutdown := 1, retryAt := [(0, 5)] } }) |> (fun d => { d with pacing := { d.pacing with now := 4 } })), 0, true, ⟨by decide, by decide⟩⟩

theorem witness_FieldFaultsAndInputs_6 : ∃ (s : State) (v : Word32),
    s.dev.hif.lock = false ∧ s.dev.gen.mode ≠ .primer :=
  ⟨atd (({} : Device) |> (fun d => { d with hif := { d.hif with lock := false } }) |> (fun d => { d with gen := { d.gen with mode := .undercoat } }) |> (fun d => { d with fio := { d.fio with ext := 5, cross := 3, lowLast := 6 } })), 0xF, ⟨by decide, by decide⟩⟩

theorem witness_FieldFaultsAndInputs_7 : ∃ (s : State),
    s.dev.fio.low = false ∧ s.dev.icu.retention = false :=
  ⟨atd (({} : Device) |> (fun d => { d with fio := { d.fio with low := false } }) |> (fun d => { d with icu := { d.icu with retention := false } })), ⟨by decide, by decide⟩⟩

theorem witness_FieldFaultsAndInputs_8 : ∃ (s : State),
    s.dev.fio.low = true ∧ s.dev.icu.retention = false :=
  ⟨atd (({} : Device) |> (fun d => { d with fio := { d.fio with low := true } }) |> (fun d => { d with icu := { d.icu with retention := false } })), ⟨by decide, by decide⟩⟩

theorem witness_FieldFaultsAndInputs_9 : ∃ (s : State) (on : Bool) (held : Nat),
    s.dev.icu.retention = false :=
  ⟨atd (({} : Device) |> (fun d => { d with icu := { d.icu with retention := false } })), true, 0, by decide⟩

theorem witness_FieldFaultsAndInputs_10 : ∃ (s : State) (on : Bool) (held : Nat),
    s.dev.icu.retention = false :=
  ⟨atd (({} : Device) |> (fun d => { d with icu := { d.icu with retention := false } })), true, 0, by decide⟩

theorem witness_FieldFaultsAndInputs_11 : ∃ (s : State) (on : Bool) (held : Nat),
    s.dev.icu.retention = false ∧ s.dev.regF 0x12018 15 8 * 250 ≤ held :=
  ⟨atd (({} : Device) |> (fun d => { d with icu := { d.icu with retention := false } }) |> wreg 0x12018 0xA00), true, 2500, ⟨by decide, by decide⟩⟩

theorem witness_FieldFaultsAndInputs_12 : ∃ (s : State) (on : Bool) (held : Nat),
    held < s.dev.regF 0x12018 15 8 * 250 :=
  ⟨atd (({} : Device) |> wreg 0x12018 0xA00), false, 2499, by decide⟩

theorem witness_FlashOperationsChangeTheArray_1 : ∃ (s : State) (a : Nat),
    pairRuns s.dev = true ∧ s.dev.fls.op = none ∧ a = s.dev.regF 0x13004 22 0 ∧ flashErr s.dev .program a = 0 ∧ a < 0x5D0000 :=
  ⟨atd (({} : Device) |> (fun d => { d with fls := { d.fls with op := none, suspended := false, suspending := false, held := false, resumedAt := none, bytes := [], spare := [] } }) |> (fun d => { d with gen := { d.gen with mode := .undercoat } }) |> (fun d => { d with lsk := { d.lsk with imageB := true } }) |> wreg 0x13004 0x5CFF00), 0x5CFF00, ⟨by decide, by decide, by decide, by decide, by decide⟩⟩

theorem witness_FlashOperationsChangeTheArray_2 : ∃ (s : State) (a : Nat),
    pairRuns s.dev = true ∧ s.dev.fls.op = none ∧ a = s.dev.regF 0x13004 22 0 ∧ flashErr s.dev .eraseSector a = 0 :=
  ⟨atd (({} : Device) |> (fun d => { d with fls := { d.fls with op := none, suspended := false, suspending := false, held := false, resumedAt := none, bytes := [], spare := [] } }) |> (fun d => { d with gen := { d.gen with mode := .undercoat } }) |> (fun d => { d with lsk := { d.lsk with imageB := true } }) |> wreg 0x13004 0x5CF000 |> (fun d => { d with fls := { d.fls with bytes := [(0x5CF000, 3)] } })), 0x5CF000, ⟨by decide, by decide, by decide, by decide⟩⟩

theorem witness_FlashOperationsChangeTheArray_3 : ∃ (s : State) (a : Nat),
    pairRuns s.dev = true ∧ s.dev.fls.op = none ∧ a = s.dev.regF 0x13004 22 0 ∧ flashErr s.dev .eraseBlock a = 0 :=
  ⟨atd (({} : Device) |> (fun d => { d with fls := { d.fls with op := none, suspended := false, suspending := false, held := false, resumedAt := none, bytes := [], spare := [] } }) |> (fun d => { d with gen := { d.gen with mode := .undercoat } }) |> (fun d => { d with lsk := { d.lsk with imageB := true } }) |> wreg 0x13004 0x5C0000), 0x5C0000, ⟨by decide, by decide, by decide, by decide⟩⟩

theorem witness_FlashOperationsChangeTheArray_4 : ∃ (s : State) (a : Nat),
    pairRuns s.dev = true ∧ s.dev.fls.op = none ∧ a = s.dev.regF 0x13004 22 0 ∧ flashErr s.dev .bitClear a = 0 :=
  ⟨atd (({} : Device) |> (fun d => { d with fls := { d.fls with op := none, suspended := false, suspending := false, held := false, resumedAt := none, bytes := [], spare := [] } }) |> (fun d => { d with gen := { d.gen with mode := .undercoat } }) |> (fun d => { d with lsk := { d.lsk with imageB := true } }) |> wreg 0x13004 0x43F000 |> wreg 0x13104 0xFFFFFFFF), 0x43F000, ⟨by decide, by decide, by decide, by decide⟩⟩

theorem witness_FlashOperationsChangeTheArray_5 : ∃ (s : State),
    pairRuns s.dev = true ∧ s.dev.fls.op = none ∧ s.dev.gen.mode = .primer ∧ flashErr s.dev .eraseSector (s.dev.regF 0x13004 22 0) ≠ 0 :=
  ⟨atd (({} : Device) |> (fun d => { d with fls := { d.fls with op := none, suspended := false, suspending := false, held := false, resumedAt := none, bytes := [], spare := [] } }) |> (fun d => { d with gen := { d.gen with mode := .undercoat } }) |> (fun d => { d with lsk := { d.lsk with imageB := true } }) |> (fun d => { d with gen := { d.gen with mode := .primer } })), ⟨by decide, by decide, by decide, by decide⟩⟩

theorem witness_FlashOperationsChangeTheArray_6 : ∃ (s : State),
    pairRuns s.dev = true ∧ s.dev.fls.op ≠ none :=
  ⟨atd (({} : Device) |> (fun d => { d with fls := { d.fls with op := some (.program, 0) } })), ⟨by decide, by decide⟩⟩

theorem witness_FlashOperationsChangeTheArray_7 : ∃ (s : State),
    pairRuns s.dev = true ∧ s.dev.fls.op ≠ none ∧ s.dev.fls.suspended = false ∧ s.dev.fls.suspending = false ∧ s.dev.fls.held = false ∧ runLongEnough s.dev = true :=
  ⟨atd (({} : Device) |> (fun d => { d with fls := { d.fls with op := some (.program, 0), suspended := false, suspending := false, held := false, resumedAt := none } })), ⟨by decide, by decide, by decide, by decide, by decide, by decide⟩⟩

theorem witness_FlashOperationsChangeTheArray_8 : ∃ (s : State),
    pairRuns s.dev = true ∧ s.dev.fls.op ≠ none ∧ s.dev.fls.suspended = false ∧ s.dev.fls.suspending = false ∧ s.dev.fls.held = false ∧ runLongEnough s.dev = false :=
  ⟨atd (({} : Device) |> (fun d => { d with fls := { d.fls with op := some (.program, 0), suspended := false, suspending := false, held := false, resumedAt := some 0 } }) |> (fun d => { d with pacing := { d.pacing with now := 6249 } })), ⟨by decide, by decide, by decide, by decide, by decide, by decide⟩⟩

theorem witness_FlashOperationsChangeTheArray_9 : ∃ (s : State),
    pairRuns s.dev = true ∧ s.dev.fls.op ≠ none ∧ s.dev.fls.suspended = true :=
  ⟨atd (({} : Device) |> (fun d => { d with fls := { d.fls with op := some (.program, 0), suspended := true } })), ⟨by decide, by decide, by decide⟩⟩

theorem witness_FlashOperationsChangeTheArray_10 : ∃ (s : State),
    s.dev.fls.op ≠ none ∧ s.dev.fls.suspending = true ∧ s.dev.fls.waiting = [] :=
  ⟨atd (({} : Device) |> (fun d => { d with fls := { d.fls with op := some (.program, 0), suspending := true, waiting := [] } })), ⟨by decide, by decide, by decide⟩⟩

theorem witness_FlashOperationsChangeTheArray_11 : ∃ (s : State),
    s.dev.fls.op ≠ none ∧ s.dev.fls.held = true ∧ runLongEnough s.dev = true :=
  ⟨atd (({} : Device) |> (fun d => { d with fls := { d.fls with op := some (.program, 0), held := true, resumedAt := some 0 } }) |> (fun d => { d with pacing := { d.pacing with now := 6250 } })), ⟨by decide, by decide, by decide⟩⟩

theorem witness_FlashOperationsChangeTheArray_12 : ∃ (s : State),
    s.dev.fls.op ≠ none ∧ s.dev.fls.suspended = true ∧ s.dev.fls.auto = true ∧ s.dev.fls.suspendedAt + 2500 ≤ s.dev.now :=
  ⟨atd (({} : Device) |> (fun d => { d with fls := { d.fls with op := some (.program, 0), suspended := true, auto := true, suspendedAt := 0 } }) |> (fun d => { d with pacing := { d.pacing with now := 2500 } })), ⟨by decide, by decide, by decide, by decide⟩⟩

theorem witness_FlashOperationsChangeTheArray_13 : ∃ (s : State) (x : FlashOp × Nat),
    s.dev.fls.op = some x ∧ s.dev.fls.suspended = false ∧ s.dev.fls.waiting = [] :=
  ⟨atd (({} : Device) |> (fun d => { d with fls := { d.fls with op := some (.program, 0), suspended := false, waiting := [] } })), (.program, 0), ⟨by decide, by decide, by decide⟩⟩

theorem witness_FlashOperationsChangeTheArray_14 : ∃ (s : State) (x : FlashOp × Nat),
    s.dev.fls.op = some x ∧ s.dev.fls.suspended = false ∧ s.dev.fls.waiting = [] :=
  ⟨atd (({} : Device) |> (fun d => { d with fls := { d.fls with op := some (.program, 0), suspended := false, waiting := [] } })), (.program, 0), ⟨by decide, by decide, by decide⟩⟩

theorem witness_FlashOperationsChangeTheArray_15 : ∃ (s : State),
    s.dev.fls.op ≠ none ∧ s.dev.fls.suspended = true :=
  ⟨atd (({} : Device) |> (fun d => { d with fls := { d.fls with op := some (.program, 0), suspended := true } })), ⟨by decide, by decide⟩⟩

theorem witness_FlashReadsScrubsAndLogs_1 : ∃ (s : State) (k : Nat) (bs : List Byte),
    k < 262144 ∧ s.dev.fls.op = none ∧ readChunk (flashBytes s.dev (32 * k) 32) (s.dev.flashSpare k) = .coded bs 0 ∧ flipCheck [] (s.dev.flashSpare k) = s.dev.flashSpare k ∧ flipData [] (flashBytes s.dev (32 * k) 32) = flashBytes s.dev (32 * k) 32 :=
  ⟨atd (({} : Device) |> (fun d => { d with fls := { d.fls with op := none, suspended := false, suspending := false, held := false, resumedAt := none, bytes := [], spare := [] } }) |> (fun d => { d with gen := { d.gen with mode := .undercoat } }) |> (fun d => { d with lsk := { d.lsk with imageB := true } }) |> (fun d => { d with fls := { d.fls with bytes := (List.range 32).map (fun i => (32 * 262143 + i, 0)), spare := [(262143, chunkCheck (List.replicate 32 0))] } })), 262143, (List.replicate 32 0), ⟨by decide, by decide, by decide +kernel, by decide +kernel, by decide⟩⟩

theorem witness_FlashReadsScrubsAndLogs_2 : ∃ (s : State) (k : Nat) (flips : List Nat),
    k < 262144 ∧ s.dev.fls.op = none ∧ readChunk (flipData flips (flashBytes s.dev (32 * k) 32)) (flipCheck flips (s.dev.flashSpare k)) = .poison :=
  ⟨atd (({} : Device) |> (fun d => { d with fls := { d.fls with op := none, suspended := false, suspending := false, held := false, resumedAt := none, bytes := [], spare := [] } }) |> (fun d => { d with gen := { d.gen with mode := .undercoat } }) |> (fun d => { d with lsk := { d.lsk with imageB := true } }) |> (fun d => { d with fls := { d.fls with bytes := (List.range 32).map (fun i => (32 * 262143 + i, 0)), spare := [(262143, chunkCheck (List.replicate 32 0))] } })), 262143, [0, 1, 2, 3], ⟨by decide, by decide, by decide +kernel⟩⟩

theorem witness_FlashReadsScrubsAndLogs_3 : ∃ (s : State) (k : Nat) (flips : List Nat),
    k < 262144 ∧ sectorBusy s.dev (k / 128) = true :=
  ⟨atd (({} : Device) |> (fun d => { d with fls := { d.fls with op := some (.eraseSector, 0x7FF000) } })), 262143, [], ⟨by decide, by decide⟩⟩

theorem witness_FlashReadsScrubsAndLogs_4 : ∃ (s : State) (n : Nat) (k : Nat) (fl : List Nat),
    n < 2048 ∧ (¬ (0x4D0 ≤ n ∧ n < 0x5D0)) ∧ sectorBusy s.dev n = false ∧ k < 128 ∧ wasCorrected (sensed s.dev (128 * n + k) fl) = true :=
  ⟨atd (({} : Device) |> (fun d => { d with fls := { d.fls with op := none, suspended := false, suspending := false, held := false, resumedAt := none, bytes := [], spare := [] } }) |> (fun d => { d with gen := { d.gen with mode := .undercoat } }) |> (fun d => { d with lsk := { d.lsk with imageB := true } }) |> (fun d => { d with fls := { d.fls with bytes := [], spare := [] } })), 2047, 127, [3], ⟨by decide, by decide, by decide, by decide, by decide⟩⟩

theorem witness_FlashReadsScrubsAndLogs_6 : ∃ (s : State) (n : Nat),
    s.dev.fls.due = [n] ∧ s.dev.gen.mode ≠ .primer ∧ s.dev.fls.op = none ∧ refreshAllowed s.dev n = true ∧ sectorReads s.dev n = true :=
  ⟨atd (({} : Device) |> (fun d => { d with fls := { d.fls with op := none, suspended := false, suspending := false, held := false, resumedAt := none, bytes := [], spare := [] } }) |> (fun d => { d with gen := { d.gen with mode := .undercoat } }) |> (fun d => { d with lsk := { d.lsk with imageB := true } }) |> (fun d => { d with fls := { d.fls with due := [2047], bytes := [], spare := [] } }) |> (fun d => { d with gen := { d.gen with mode := .undercoat } })), 2047, ⟨by decide, by decide, by decide, by decide, by decide⟩⟩

theorem witness_FlashReadsScrubsAndLogs_7 : ∃ (s : State) (source : Nat) (code : Nat) (detail : List Byte),
    pairRuns s.dev = true ∧ s.dev.gen.mode ≠ .primer ∧ hourOf s.dev ≤ s.dev.evt.hour ∧ s.dev.evt.hourCount < 7200 ∧ s.dev.evt.next < 32768 :=
  ⟨atd (({} : Device) |> (fun d => { d with fls := { d.fls with op := none, suspended := false, suspending := false, held := false, resumedAt := none, bytes := [], spare := [] } }) |> (fun d => { d with gen := { d.gen with mode := .undercoat } }) |> (fun d => { d with lsk := { d.lsk with imageB := true } }) |> (fun d => { d with gen := { d.gen with mode := .undercoat } }) |> (fun d => { d with evt := { d.evt with hourCount := 7199, hour := 0, next := 3 } }) |> (fun d => { d with pacing := { d.pacing with now := 0 } })), 1, 2, [1], ⟨by decide, by decide, by decide, by decide, by decide⟩⟩

theorem witness_FlashReadsScrubsAndLogs_8 : ∃ (s : State) (source : Nat) (code : Nat) (detail : List Byte),
    pairRuns s.dev = true ∧ s.dev.gen.mode ≠ .primer ∧ hourOf s.dev ≤ s.dev.evt.hour ∧ 7200 ≤ s.dev.evt.hourCount :=
  ⟨atd (({} : Device) |> (fun d => { d with fls := { d.fls with op := none, suspended := false, suspending := false, held := false, resumedAt := none, bytes := [], spare := [] } }) |> (fun d => { d with gen := { d.gen with mode := .undercoat } }) |> (fun d => { d with lsk := { d.lsk with imageB := true } }) |> (fun d => { d with gen := { d.gen with mode := .undercoat } }) |> (fun d => { d with evt := { d.evt with hourCount := 7200, hour := 0 } }) |> (fun d => { d with pacing := { d.pacing with now := 0 } })), 1, 2, [1], ⟨by decide, by decide, by decide, by decide⟩⟩

theorem witness_FlashReadsScrubsAndLogs_9 : ∃ (s : State) (e : EventDue) (q : List EventDue) (source : Nat) (code : Nat) (detail : List Byte),
    s.dev.evt.queue = e :: q ∧ ((e.origin = 2 ∨ e.origin = 3)) ∧ pairRuns s.dev = true ∧ s.dev.gen.mode ≠ .primer ∧ hourOf s.dev ≤ s.dev.evt.hour ∧ s.dev.evt.hourCount < 7200 ∧ s.dev.evt.next < 32768 :=
  ⟨atd (({} : Device) |> (fun d => { d with fls := { d.fls with op := none, suspended := false, suspending := false, held := false, resumedAt := none, bytes := [], spare := [] } }) |> (fun d => { d with gen := { d.gen with mode := .undercoat } }) |> (fun d => { d with lsk := { d.lsk with imageB := true } }) |> (fun d => { d with gen := { d.gen with mode := .undercoat } }) |> (fun d => { d with evt := { d.evt with hourCount := 7199, hour := 0, next := 128, queue := [{ tick := 9, origin := 3, source := 1, code := 2, detail := [1] }] } }) |> (fun d => { d with pacing := { d.pacing with now := 0 } })), { tick := 9, origin := 3, source := 1, code := 2, detail := [1] }, [], 0, 0, [], ⟨by decide, by decide, by decide, by decide, by decide, by decide, by decide⟩⟩

theorem witness_FlashReadsScrubsAndLogs_10 : ∃ (s : State),
    s.dev.evt.hour < hourOf s.dev ∧ s.dev.evt.suppressed = 0 :=
  ⟨atd (({} : Device) |> (fun d => { d with evt := { d.evt with hour := 0, suppressed := 0 } }) |> (fun d => { d with pacing := { d.pacing with now := 90000000000 } })), ⟨by decide, by decide⟩⟩

theorem witness_FlashReadsScrubsAndLogs_11 : ∃ (s : State),
    s.dev.evt.hour < hourOf s.dev ∧ 0 < s.dev.evt.suppressed ∧ s.dev.gen.mode ≠ .primer :=
  ⟨atd (({} : Device) |> (fun d => { d with fls := { d.fls with op := none, suspended := false, suspending := false, held := false, resumedAt := none, bytes := [], spare := [] } }) |> (fun d => { d with gen := { d.gen with mode := .undercoat } }) |> (fun d => { d with lsk := { d.lsk with imageB := true } }) |> (fun d => { d with evt := { d.evt with hour := 0, suppressed := 5 } }) |> (fun d => { d with pacing := { d.pacing with now := 90000000000 } }) |> (fun d => { d with gen := { d.gen with mode := .undercoat } })), ⟨by decide, by decide, by decide⟩⟩

theorem witness_FlashReadsScrubsAndLogs_12 : ∃ (s : State),
    confirmDue s.dev = true :=
  ⟨atd (({} : Device) |> (fun d => { d with fls := { d.fls with op := none, suspended := false, suspending := false, held := false, resumedAt := none, bytes := [], spare := [] } }) |> (fun d => { d with gen := { d.gen with mode := .undercoat } }) |> (fun d => { d with lsk := { d.lsk with imageB := true } }) |> (fun d => { d with lsk := { d.lsk with pair := .running, imageB := false } }) |> (fun d => { d with gen := { d.gen with trialRun := 15000000000, mode := .undercoat } }) |> (fun d => { d with fls := { d.fls with bytes := (List.range 256).map (fun i => (i, 0)), spare := [] } })), by decide +kernel⟩

theorem witness_ProtectedMemoriesAreScrubbedAndTested_1 : ∃ (s : State) (mem : Nat) (word : Nat) (k : Nat) (data : BitVec 64) (fixed : BitVec 64) (check : BitVec 8) (written : Bool),
    word < eccWords mem ∧ secdedDecode data check = .corrected k fixed :=
  ⟨atd (({} : Device)), 9, 511, 5, 32, 0, 0, false, ⟨by decide, by decide⟩⟩

theorem witness_ProtectedMemoriesAreScrubbedAndTested_2 : ∃ (s : State) (word : Nat) (data : BitVec 64) (check : BitVec 8),
    word < 32768 ∧ secdedDecode data check = .uncorrectable :=
  ⟨atd (({} : Device)), 32767, 3, 0, ⟨by decide, by decide⟩⟩

theorem witness_ProtectedMemoriesAreScrubbedAndTested_3 : ∃ (s : State) (word : Nat) (data : BitVec 64) (check : BitVec 8),
    word < 32768 ∧ secdedDecode data check = .uncorrectable :=
  ⟨atd (({} : Device)), 32767, 3, 0, ⟨by decide, by decide⟩⟩

theorem witness_ProtectedMemoriesAreScrubbedAndTested_4 : ∃ (s : State) (mem : Nat) (word : Nat) (data : BitVec 64) (check : BitVec 8) (written : Bool),
    word < eccWords mem ∧ secdedDecode data check = .clean :=
  ⟨atd (({} : Device)), 9, 511, 0, 0, false, ⟨by decide, by decide⟩⟩

theorem witness_ProtectedMemoriesAreScrubbedAndTested_5 : ∃ (s : State) (mem : Nat) (addr : Word32) (fetch : Bool),
    pairRuns s.dev = true :=
  ⟨atd (({} : Device)), 9, 5, true, by decide⟩

theorem witness_ProtectedMemoriesAreScrubbedAndTested_6 : ∃ (s : State) (v : Word32),
    pairRuns s.dev = true ∧ s.dev.ecc.openedAt = none ∧ wbit v 31 = true ∧ fld v 12 8 < 10 ∧ s.dev.icu.retention = false :=
  ⟨atd (({} : Device) |> (fun d => { d with ecc := { d.ecc with openedAt := none } }) |> (fun d => { d with icu := { d.icu with retention := false } })), 0x80000903, ⟨by decide, by decide, by decide, by decide, by decide⟩⟩

theorem witness_ProtectedMemoriesAreScrubbedAndTested_7 : ∃ (s : State) (v : Word32),
    pairRuns s.dev = true ∧ s.dev.ecc.openedAt ≠ none :=
  ⟨atd (({} : Device) |> (fun d => { d with ecc := { d.ecc with openedAt := some 3 } })), 0x80000903, ⟨by decide, by decide⟩⟩

theorem witness_ProtectedMemoriesAreScrubbedAndTested_8 : ∃ (s : State),
    pairRuns s.dev = true ∧ s.dev.icu.retention = false :=
  ⟨atd (({} : Device) |> (fun d => { d with icu := { d.icu with retention := false } }) |> (fun d => { d with ecc := { d.ecc with openedAt := some 3 } })), ⟨by decide, by decide⟩⟩

theorem witness_ProtectedMemoriesAreScrubbedAndTested_9 : ∃ (s : State) (t : Nat),
    s.dev.ecc.openedAt = some t ∧ t + 25000 ≤ s.dev.now ∧ s.dev.icu.retention = false :=
  ⟨atd (({} : Device) |> (fun d => { d with ecc := { d.ecc with openedAt := some 0 } }) |> (fun d => { d with icu := { d.icu with retention := false } }) |> (fun d => { d with pacing := { d.pacing with now := 25000 } })), 0, ⟨by decide, by decide, by decide⟩⟩

theorem witness_ProtectedMemoriesAreScrubbedAndTested_10 : ∃ (s : State) (t : Nat),
    pairRuns s.dev = true ∧ s.dev.ecc.openedAt = some t :=
  ⟨atd (({} : Device) |> (fun d => { d with ecc := { d.ecc with openedAt := some 0 } })), 0, ⟨by decide, by decide⟩⟩

theorem witness_ProtectedMemoriesAreScrubbedAndTested_11 : ∃ (s : State) (t : Nat),
    pairRuns s.dev = true ∧ s.dev.ecc.openedAt = some t :=
  ⟨atd (({} : Device) |> (fun d => { d with ecc := { d.ecc with openedAt := some 0 } })), 0, ⟨by decide, by decide⟩⟩

theorem witness_ProtectedMemoriesAreScrubbedAndTested_12 : ∃ (s : State) (t : Nat) (w : BitVec 64) (c : BitVec 8),
    pairRuns s.dev = true ∧ s.dev.ecc.openedAt = some t ∧ sget (fun _ => (0, 0)) s.dev.ecc.rows (testRow s.dev) = (w, c) ∧ secdedDecode w c = .clean :=
  ⟨atd (({} : Device) |> (fun d => { d with ecc := { d.ecc with openedAt := some 0, rows := [] } })), 0, 0, 0, ⟨by decide, by decide, by decide, by decide⟩⟩

theorem witness_ProtectedMemoriesAreScrubbedAndTested_13 : ∃ (s : State) (t : Nat) (w : BitVec 64) (c : BitVec 8),
    pairRuns s.dev = true ∧ s.dev.ecc.openedAt = some t ∧ sget (fun _ => (0, 0)) s.dev.ecc.rows (testRow s.dev) = (w, c) ∧ secdedDecode w c = .uncorrectable :=
  ⟨atd (({} : Device) |> (fun d => { d with ecc := { d.ecc with openedAt := some 0, rows := [(0, (3, 0))] } }) |> wreg 0x14000 0), 0, 3, 0, ⟨by decide, by decide, by decide, by decide⟩⟩

theorem witness_ProtectedMemoriesAreScrubbedAndTested_14 : ∃ (s : State) (word : Nat),
    pairRuns s.dev = true ∧ word < 32768 ∧ s.dev.ecc.poison = [2 ^ 20 + word] :=
  ⟨atd (({} : Device) |> (fun d => { d with ecc := { d.ecc with poison := [2 ^ 20 + 32767] } })), 32767, ⟨by decide, by decide, by decide⟩⟩

theorem witness_StartUpCartridgeAndUpdate_2 : ∃ (s : State) (x : PowerOnInputs),
    x.checkerFail ≠ 0 :=
  ⟨atd (({} : Device)), { pwi with checkerFail := 1 }, by decide⟩

theorem witness_StartUpCartridgeAndUpdate_3 : ∃ (s : State) (c : Calibration),
    s.dev.nv.calibration = some c ∧ saveDue s.dev = true :=
  ⟨atd (({} : Device) |> (fun d => { d with nv := { d.nv with calibration := some cal } }) |> (fun d => { d with gen := { d.gen with mode := .undercoat, unsaved := true, savedAt := none } }) |> (fun d => { d with lsk := { d.lsk with pair := .running } })), cal, ⟨by decide, by decide⟩⟩

theorem witness_StartUpCartridgeAndUpdate_4 : ∃ (s : State) (m : List Byte) (y : SystemScan),
    s.dev.gen.cart = none ∧ s.dev.gen.mode = .dustSheet ∧ parseCartridge m = none :=
  ⟨atd (({} : Device) |> (fun d => { d with gen := { d.gen with cart := none, mode := .dustSheet } })), [], pwi.system, ⟨by decide, by decide, by decide⟩⟩

theorem witness_StartUpCartridgeAndUpdate_5 : ∃ (s : State) (m : List Byte) (y : SystemScan) (c : Cartridge),
    s.dev.gen.cart = none ∧ parseCartridge m = some c ∧ cartWritable s.dev c = true ∧ c.format = 0 :=
  ⟨atd (({} : Device) |> (fun d => { d with gen := { d.gen with cart := none, mode := .dustSheet } }) |> (fun d => { d with cry := { d.cry with cartReg := [] } }) |> (fun d => { d with nv := { d.nv with pairRecord := none } })), (k6mem 0), pwi.system, { k6 := true, format := 0, serial := 7, zoneDone := [] }, ⟨by decide, by decide +kernel, by decide, by decide⟩⟩

theorem witness_StartUpCartridgeAndUpdate_6 : ∃ (s : State) (c : Cartridge),
    s.dev.gen.cart = some c ∧ s.dev.gen.cartState = 5 :=
  ⟨atd (({} : Device) |> (fun d => { d with gen := { d.gen with cart := some cart2, cartState := 5 } })), cart2, ⟨by decide, by decide⟩⟩

theorem witness_StartUpCartridgeAndUpdate_7 : ∃ (s : State) (c : Cartridge),
    s.dev.gen.cart = some c ∧ s.dev.gen.cartState ≠ 5 ∧ s.dev.gen.mode = .undercoat :=
  ⟨atd (({} : Device) |> (fun d => { d with gen := { d.gen with cart := some cart2, cartState := 2, mode := .undercoat } })), cart2, ⟨by decide, by decide, by decide⟩⟩

theorem witness_StartUpCartridgeAndUpdate_8 : ∃ (s : State) (v : Word32),
    s.dev.hif.lock = false ∧ s.dev.gen.fwState ≠ 1 ∧ wbit v 31 = true ∧ s.dev.gen.mode = .dustSheet ∧ s.dev.pwr.st = .armed :=
  ⟨atd (({} : Device) |> (fun d => { d with hif := { d.hif with lock := false } }) |> (fun d => { d with gen := { d.gen with fwState := 0, mode := .dustSheet } }) |> (fun d => { d with pwr := { d.pwr with st := .armed } })), 0xC0000000, ⟨by decide, by decide, by decide, by decide, by decide⟩⟩

theorem witness_StartUpCartridgeAndUpdate_9 : ∃ (s : State) (v : Word32),
    s.dev.hif.lock = false ∧ ((s.dev.gen.fwState = 1 ∨ wbit v 31 = false)) :=
  ⟨atd (({} : Device) |> (fun d => { d with hif := { d.hif with lock := false } }) |> (fun d => { d with gen := { d.gen with fwState := 1 } })), 0xC0000003, ⟨by decide, by decide⟩⟩

theorem witness_StartUpCartridgeAndUpdate_10 : ∃ (s : State) (v : Word32),
    s.dev.hif.lock = false ∧ s.dev.gen.fwState ≠ 1 ∧ wbit v 31 = true ∧ s.dev.gen.mode ≠ .dustSheet :=
  ⟨atd (({} : Device) |> (fun d => { d with hif := { d.hif with lock := false } }) |> (fun d => { d with gen := { d.gen with fwState := 0, mode := .undercoat } })), 0xC0000000, ⟨by decide, by decide, by decide, by decide⟩⟩

theorem witness_StartUpCartridgeAndUpdate_11 : ∃ (s : State) (image : List Byte) (x : PowerOnInputs),
    s.dev.gen.fwState = 1 ∧ updateErr image true s.dev = 0 ∧ s.dev.gen.fwRestart = false :=
  ⟨atd (({} : Device) |> (fun d => { d with gen := { d.gen with fwState := 1, fwSource := 3, fwRestart := false, mode := .dustSheet } }) |> (fun d => { d with pwr := { d.pwr with st := .armed } }) |> (fun d => { d with rcl := { d.rcl with actB := none, actA := some { generation := 1, active := 0, previous := 0, slots := [(3, { st := 1, length := img.length, stageGen := 0, digest := Config.sha256 img })] } } })), img, pwi, ⟨by decide, updateErr_img _ rfl rfl rfl rfl, by decide⟩⟩

theorem witness_StartUpCartridgeAndUpdate_12 : ∃ (s : State) (image : List Byte) (ok : Bool) (x : PowerOnInputs),
    s.dev.gen.fwState = 1 ∧ updateErr image ok s.dev ≠ 0 ∧ updateErr image ok s.dev ≠ 5 :=
  ⟨atd (({} : Device) |> (fun d => { d with gen := { d.gen with fwState := 1, mode := .undercoat } })), [], true, pwi, ⟨by decide, by decide, by decide⟩⟩

theorem witness_RegistersAreReadAndWritten_6 : ∃ (s : State) (o : Nat) (v : Word32),
    pairRuns s.dev = true ∧ o ∈ [0x1008, 0x900C, 0x9034, 0x9038, 0xB0C8, 0xC014, 0xC01C] :=
  ⟨atd (({} : Device)), 0xC01C, 0xFFFFFFFF, ⟨by decide, by decide⟩⟩

theorem witness_RegistersAreReadAndWritten_7 : ∃ (s : State) (n : Nat) (v : Word32),
    n < 8 ∧ s.dev.hif.lock = false :=
  ⟨atd (({} : Device) |> (fun d => { d with hif := { d.hif with lock := false } })), 7, 0xFFFFFFFF, ⟨by decide, by decide⟩⟩

theorem witness_RegistersAreReadAndWritten_8 : ∃ (s : State) (v : Word32),
    pairRuns s.dev = true ∧ fld v 7 0 = 0 :=
  ⟨atd (({} : Device)), 0xFFFFFF00, ⟨by decide, by decide⟩⟩

theorem witness_RegistersAreReadAndWritten_9 : ∃ (s : State) (who : Requester) (width : Nat) (o : Nat) (v : Word32),
    ((width ≠ 32 ∨ o % 4 ≠ 0)) ∧ ((who = .host → s.dev.hif.lock = false)) :=
  ⟨atd (({} : Device) |> (fun d => { d with hif := { d.hif with lock := false } })), .mgmt, 16, 0x1008, 5, ⟨by decide, by decide⟩⟩

theorem witness_RegistersAreReadAndWritten_10 : ∃ (s : State) (o : Nat) (v : Word32),
    seqReaches o = false :=
  ⟨atd (({} : Device)), 0x1008, 5, by decide⟩

theorem witness_RegistersAreReadAndWritten_11 : ∃ (s : State) (width : Nat) (o : Nat) (v : Word32),
    s.dev.hif.lock = true ∧ ((o < 0x1800 ∨ 0x1A08 ≤ o)) :=
  ⟨atd (({} : Device) |> (fun d => { d with hif := { d.hif with lock := true } })), 32, 0x1A08, 5, ⟨by decide, by decide⟩⟩

theorem witness_HostWritesAfterTheLockAreIgnored_1 : ∃ (s : State) (c : Instr) (n : Nat) (k : Nat) (v : Word32) (b : Bool),
    s.dev.hif.lock = true ∧ n < 2 ∧ k < 8 ∧ c ∈ [Instr.loopOpen .host n, .loopHold .host n, .loopClose .host n, .loopAcquire .host n, .discardShadow .host n, .coefLiveWrite .host n k v, .coefShadowWrite .host n k v, .seqRun .host b, .seqKick .host, .move .host, .home .host, .park .host, .stop .host, .gearEngage .host, .gearDisengage .host, .clearFault .host, .gearArm .host, .gearCancel .host, .laserMaxWrite .host v, .laserOverClear .host, .opcTestStep .host v, .stratDataAccess .host (some v), .invalidate .host, .clean .host, .purgeOwner .host, .zeroLine .host, .setupLock, .maskSet .host k v, .maskClr .host k v, .pendSet .host k v, .pendClr .host k v, .thresholdWrite .host n v, .icuComplete .host n v, .srcCfgWrite .host n v, .wakeSlotWrite .host n v, .balanceCommand .host v, .dischargeTestRequest .host, .faultClr .host v, .program .host, .eraseSector .host, .eraseBlock .host, .bitClear .host, .suspend .host, .resume .host, .splitModeOpen .host v, .splitModeClose .host, .testWriteData .host, .testWriteCheck .host, .testRead .host, .zeroWord .host v, .fwUpdateStart .host v] :=
  ⟨atd (({} : Device) |> (fun d => { d with hif := { d.hif with lock := true } })), (.fwUpdateStart .host 0xC0000000), 1, 7, 0xC0000000, true, ⟨by decide, by decide, by decide, by decide⟩⟩

/-! ### Witnesses: the rules over every step -/

theorem witness_StepRunsTheCommandInFront_1 :
    ∃ (s : State) (c : Instr) (rest : List Instr), s.pending = c :: rest :=
  ⟨{ pending := [.defectBegin [], .defectEnd []], dev := {} }, _, _, rfl⟩

theorem witness_StepRunsTheCommandInFront_2 : ∃ s : State, s.pending = [] := ⟨atd {}, rfl⟩

theorem witness_PacingCounterCountsTicksAlone_1 :
    ∃ (s t : State) (c : Instr) (rest : List Instr), s.pending = c :: rest ∧ startsAnew c s.dev = false ∧ step s = .next t :=
  ⟨{ pending := [.lathDown], dev := {} }, _, _, _, rfl, rfl, rfl⟩

theorem witness_PacingCounterCountsTicksAlone_2 :
    ∃ (s t : State) (c : Instr) (rest : List Instr), s.pending = c :: rest ∧ startsAnew c s.dev = true ∧ step s = .next t :=
  ⟨{ pending := [.powerOnReset pwi, .defectEnd []], dev := {} }, _, _, _, rfl, rfl, rfl⟩

theorem witness_PacingCounterCountsTicksAlone_3 : ∃ s t : State, s.pending = [] ∧ step s = .next t :=
  ⟨atd {}, _, rfl, rfl⟩

theorem witness_EveryStepKeepsTheTablesCanonical_1 : ∃ s t : State, RegistersCanonical s ∧ step s = .next t :=
  ⟨{ pending := [.registerWrite .mgmt 32 0x1008 1], dev := {} }, _, rfl, rfl⟩

theorem witness_EveryStepKeepsTheTablesCanonical_2 : ∃ s t : State, SourcesCanonical s ∧ step s = .next t :=
  ⟨{ pending := [.preDriverFault], dev := {} }, _, rfl, rfl⟩

theorem witness_ConfigurationFollowsWritesAlone_1 :
    ∃ (s t : State) (c : Instr) (rest : List Instr) (o : Nat), s.pending = c :: rest ∧ startsAnew c s.dev = false ∧
      firstCalibrates c s.dev = false ∧ (∀ who width off v, c ≠ .registerWrite who width off v) ∧ (∀ tag, c ≠ .setFeature tag) ∧ c ≠ .conventionalReset ∧
      configuration o = true ∧ step s = .next t :=
  ⟨{ pending := [.defectEnd []], dev := {} }, _, _, _, 0x900C, rfl, rfl, rfl, nofun, nofun, nofun, by decide, rfl⟩

theorem witness_LockHoldsUntilAReset_1 :
    ∃ s t : State, s.dev.hif.lock = true ∧ (∀ c rest, s.pending = c :: rest → startsAnew c s.dev = false ∧ c ≠ .conventionalReset) ∧
      step s = .next t :=
  ⟨{ pending := [.linkDown], dev := ({} : Device) |> fun d => { d with hif := { d.hif with lock := true } } }, _, rfl,
    by intro c rest h; cases h; exact ⟨rfl, nofun⟩, rfl⟩

theorem witness_PrimerEndsAtAPowerOnReset_1 :
    ∃ s t : State, s.dev.gen.mode = .primer ∧ (∀ c rest, s.pending = c :: rest → startsAnew c s.dev = false) ∧ step s = .next t :=
  ⟨{ pending := [.lathDown], dev := ({} : Device) |> fun d => { d with gen := { d.gen with mode := .primer } } }, _, rfl,
    by intro c rest h; cases h; rfl, rfl⟩

theorem witness_LaserMaxIsNeverRaised_1 :
    ∃ s t : State, s.dev.wrc.maxWritten = true ∧ (∀ c rest, s.pending = c :: rest → startsAnew c s.dev = false) ∧ step s = .next t :=
  ⟨{ pending := [.laserMaxWrite .mgmt 1023],
     dev := ({} : Device) |> (fun d => { d with wrc := { d.wrc with maxWritten := true } }) |> wreg 0xB004 360 }, _, rfl,
    by intro c rest h; cases h; rfl, rfl⟩

end Sys2Proof.Tests
end

section
/-!
PROOFS. How a command changes the stored registers, the interrupt sources, the instant, the lock and Primer: `Evolves`, one lemma for each
operation of the model and one for each command, and the obligations that follow from them.

The lemmas `Evolves.f` say that the operation `f` goes on from whatever has evolved, so that a chain `h.f.g` follows the chain of operations
`g (f d)`. They are checked one after another: more than a thousand of them at once would each hold a thread.
-/

namespace Sys2Proof.Machine

set_option Elab.async false

/-- How the device changes: in any manner, or quietly, as it does all through a power-on. -/
inductive Manner where
  | any | quiet

/-- What no quiet change does: the lock, the supply's state, the modes and the tests stay as they are, no host command and no read of the
medium comes to be, and outside retention no detection is lost. -/
structure Quiet (d e : Device) : Prop where
  lock : e.hif.lock = d.hif.lock
  cmds : d.hif.cmds = [] → e.hif.cmds = []
  st : e.pwr.st = d.pwr.st
  chosen : e.gen.chosen = d.gen.chosen
  powerOns : e.gen.powerOns = d.gen.powerOns
  mode : e.gen.mode = d.gen.mode
  ecc : e.ecc = d.ecc
  reads : d.rdc.clusters = [] → e.rdc.clusters = []
  cause : e.lsk.cause = d.lsk.cause
  pair : e.lsk.pair = d.lsk.pair
  awake : d.icu.retention = false → e.icu.retention = false
  pending : d.icu.retention = false → ∀ n, (d.src n).pending = true → (e.src n).pending = true

/-- What no change of the device but a reset spoils, and no change but a tick of the pacing counter: `e` comes from `d` with the stored
registers and the interrupt sources still in canonical form, at the same instant, with the lock and Primer kept (R8, R32, R313, R349,
R405); and quietly, if that is the manner `μ`. -/
structure Evolves (μ : Manner) (d e : Device) : Prop where
  regs : swf regReset d.regs = true → swf regReset e.regs = true
  srcs : swf srcDefault d.icu.srcs = true → swf srcDefault e.icu.srcs = true
  now : e.pacing.now = d.pacing.now
  lock : d.hif.lock = true → e.hif.lock = true
  primer : d.gen.mode = .primer → e.gen.mode = .primer
  quiet : μ = .quiet → Quiet d e

section
variable {μ : Manner} {d₀ d e : Device}

protected theorem Quiet.refl : Quiet d d := ⟨rfl, id, rfl, rfl, rfl, rfl, rfl, id, rfl, rfl, id, fun _ _ => id⟩

protected theorem Quiet.trans (h : Quiet d₀ d) (g : Quiet d e) : Quiet d₀ e where
  lock := g.lock.trans h.lock
  cmds := g.cmds ∘ h.cmds
  st := g.st.trans h.st
  chosen := g.chosen.trans h.chosen
  powerOns := g.powerOns.trans h.powerOns
  mode := g.mode.trans h.mode
  ecc := g.ecc.trans h.ecc
  reads := g.reads ∘ h.reads
  cause := g.cause.trans h.cause
  pair := g.pair.trans h.pair
  awake := g.awake ∘ h.awake
  pending w n := g.pending (h.awake w) n ∘ h.pending w n

protected theorem Evolves.refl : Evolves μ d d := ⟨id, id, rfl, id, id, fun _ => .refl⟩

protected theorem Evolves.trans (h : Evolves μ d₀ d) (g : Evolves μ d e) : Evolves μ d₀ e :=
  ⟨g.regs ∘ h.regs, g.srcs ∘ h.srcs, g.now.trans h.now, g.lock ∘ h.lock, g.primer ∘ h.primer, fun w => (h.quiet w).trans (g.quiet w)⟩

/-- A change of other fields than the relation speaks of. -/
protected theorem Evolves.edit (h : Evolves μ d₀ d) (regs : e.regs = d.regs := by rfl) (srcs : e.icu.srcs = d.icu.srcs := by rfl)
    (now : e.pacing.now = d.pacing.now := by rfl) (lock : e.hif.lock = d.hif.lock := by rfl)
    (mode : e.gen.mode = d.gen.mode := by rfl)
    (quiet : μ = .quiet → Quiet d e := by exact fun _ => ⟨rfl, id, rfl, rfl, rfl, rfl, rfl, id, rfl, rfl, id, fun _ _ => id⟩) :
    Evolves μ d₀ e :=
  h.trans ⟨fun w => regs ▸ w, fun w => srcs ▸ w, now, fun w => lock ▸ w, fun w => mode ▸ w, quiet⟩

/-! ### Ways to go on -/

protected theorem Evolves.andThen (h : Evolves μ d₀ d) (g : Evolves μ d₀ d → Evolves μ d₀ e) : Evolves μ d₀ e := g h

protected theorem Evolves.ite {c : Prop} [Decidable c] (h : Evolves μ d₀ d) (g : Evolves μ d₀ e) : Evolves μ d₀ (if c then d else e) := by
  split
  · exact h
  · exact g

protected theorem Evolves.when {c : Prop} [Decidable c] (h : Evolves μ d₀ d) (g : Evolves μ d₀ d → Evolves μ d₀ e) :
    Evolves μ d₀ (if c then e else d) := (g h).ite h

protected theorem Evolves.unless {c : Prop} [Decidable c] (h : Evolves μ d₀ d) (g : Evolves μ d₀ d → Evolves μ d₀ e) :
    Evolves μ d₀ (if c then d else e) := h.ite (g h)

protected theorem Evolves.foldl {α : Type} {f : Device → α → Device} {l : List α} (h : Evolves μ d₀ d)
    (hf : ∀ {d a}, Evolves μ d₀ d → Evolves μ d₀ (f d a)) : Evolves μ d₀ (l.foldl f d) := by
  induction l generalizing d with
  | nil => exact h
  | cons a l ih => exact ih (hf h)

protected theorem Evolves.foldlPair {α β : Type} {f : β × Device → α → β × Device} {b : β} {l : List α} (h : Evolves μ d₀ d)
    (hf : ∀ {p a}, Evolves μ d₀ p.2 → Evolves μ d₀ (f p a).2) : Evolves μ d₀ (l.foldl f (b, d)).2 := by
  suffices g : ∀ p : β × Device, Evolves μ d₀ p.2 → Evolves μ d₀ (l.foldl f p).2 from g (b, d) h
  induction l with
  | nil => exact fun _ h => h
  | cons a l ih => exact fun p h => ih _ (hf h)

/-- What an operation answers beside a value has evolved. -/
protected theorem Evolves.ofPair {β : Type} {p : β × Device} {b : β} (h : Evolves μ d₀ p.2) (e : p = (b, d)) : Evolves μ d₀ d := by
  rwa [e] at h

/-! ### One block changes -/

protected theorem Evolves.pacing {x : Pacing} (h : Evolves μ d₀ d) (hx : x.now = d.pacing.now := by rfl) :
    Evolves μ d₀ { d with pacing := x } := h.edit (now := hx)
protected theorem Evolves.avs {x : Avs} (h : Evolves μ d₀ d) : Evolves μ d₀ { d with avs := x } := h.edit
protected theorem Evolves.exc {x : Excursions} (h : Evolves μ d₀ d) : Evolves μ d₀ { d with exc := x } := h.edit
protected theorem Evolves.servo {x : Servo} (h : Evolves μ d₀ d) : Evolves μ d₀ { d with servo := x } := h.edit
protected theorem Evolves.motion {x : Motion} (h : Evolves μ d₀ d) : Evolves μ d₀ { d with motion := x } := h.edit
protected theorem Evolves.rdc {x : ReadChannel} (h : Evolves .any d₀ d) : Evolves .any d₀ { d with rdc := x } := h.edit (quiet := nofun)
protected theorem Evolves.wrc {x : WriteChannel} (h : Evolves μ d₀ d) : Evolves μ d₀ { d with wrc := x } := h.edit
protected theorem Evolves.rcl {x : RecordLayer} (h : Evolves μ d₀ d) : Evolves μ d₀ { d with rcl := x } := h.edit
protected theorem Evolves.cry {x : Crypto} (h : Evolves μ d₀ d) : Evolves μ d₀ { d with cry := x } := h.edit
protected theorem Evolves.cch {x : Cache} (h : Evolves μ d₀ d) : Evolves μ d₀ { d with cch := x } := h.edit
protected theorem Evolves.lath {x : Lath} (h : Evolves μ d₀ d) : Evolves μ d₀ { d with lath := x } := h.edit
protected theorem Evolves.hif {x : HostIf} (h : Evolves .any d₀ d) (hx : x.lock = d.hif.lock := by rfl) :
    Evolves .any d₀ { d with hif := x } := h.edit (lock := hx) (quiet := nofun)
protected theorem Evolves.icu {x : Icu} (h : Evolves .any d₀ d) (hx : x.srcs = d.icu.srcs := by rfl) :
    Evolves .any d₀ { d with icu := x } := h.edit (srcs := hx) (quiet := nofun)
protected theorem Evolves.pwr {x : Supply} (h : Evolves .any d₀ d) : Evolves .any d₀ { d with pwr := x } := h.edit (quiet := nofun)
protected theorem Evolves.lsk {x : Lockstep} (h : Evolves .any d₀ d) : Evolves .any d₀ { d with lsk := x } := h.edit (quiet := nofun)
protected theorem Evolves.fio {x : Field} (h : Evolves μ d₀ d) : Evolves μ d₀ { d with fio := x } := h.edit
protected theorem Evolves.fls {x : Flash} (h : Evolves μ d₀ d) : Evolves μ d₀ { d with fls := x } := h.edit
protected theorem Evolves.evt {x : EventLog} (h : Evolves μ d₀ d) : Evolves μ d₀ { d with evt := x } := h.edit
protected theorem Evolves.ecc {x : Ecc} (h : Evolves .any d₀ d) : Evolves .any d₀ { d with ecc := x } := h.edit (quiet := nofun)
protected theorem Evolves.nv {x : Nonvolatile} (h : Evolves μ d₀ d) : Evolves μ d₀ { d with nv := x } := h.edit
protected theorem Evolves.gen {x : Startup} (h : Evolves μ d₀ d) (hm : x.mode = d.gen.mode := by rfl)
    (hc : x.chosen = d.gen.chosen := by rfl) (hp : x.powerOns = d.gen.powerOns := by rfl) : Evolves μ d₀ { d with gen := x } :=
  h.edit (mode := hm) (quiet := fun _ => ⟨rfl, id, rfl, hc, hp, hm, rfl, id, rfl, rfl, id, fun _ _ => id⟩)
protected theorem Evolves.bus {x : Bus} (h : Evolves μ d₀ d) : Evolves μ d₀ { d with bus := x } := h.edit
protected theorem Evolves.draws {x : Nat} (h : Evolves μ d₀ d) : Evolves μ d₀ { d with draws := x } := h.edit

/-- Reads of the medium may end quietly. -/
protected theorem Evolves.fewerReads {x : ReadChannel} (h : Evolves μ d₀ d) (hx : d.rdc.clusters = [] → x.clusters = [] := by exact id) :
    Evolves μ d₀ { d with rdc := x } :=
  h.edit (quiet := fun _ => ⟨rfl, id, rfl, rfl, rfl, rfl, rfl, hx, rfl, rfl, id, fun _ _ => id⟩)

/-- Host commands may end quietly. -/
protected theorem Evolves.fewerCmds {x : HostIf} (h : Evolves μ d₀ d) (hl : x.lock = d.hif.lock := by rfl)
    (hc : d.hif.cmds = [] → x.cmds = [] := by exact id) : Evolves μ d₀ { d with hif := x } :=
  h.edit (lock := hl) (quiet := fun _ => ⟨hl, hc, rfl, rfl, rfl, rfl, rfl, id, rfl, rfl, id, fun _ _ => id⟩)

/-! ### Registers and sources -/

protected theorem Evolves.setReg {o : Nat} {v : Word32} (h : Evolves μ d₀ d) : Evolves μ d₀ (setReg o v d) :=
  h.trans ⟨swf_sset _ _ _ _, id, rfl, id, id, fun _ => ⟨rfl, id, rfl, rfl, rfl, rfl, rfl, id, rfl, rfl, id, fun _ _ => id⟩⟩

protected theorem Evolves.updSrc {k : Nat} {f : Src → Src} (h : Evolves .any d₀ d) : Evolves .any d₀ (updSrc k f d) :=
  h.trans ⟨id, swf_supd _ _ _ _, rfl, id, id, nofun⟩

protected theorem Evolves.delivering (h : Evolves μ d₀ d) (g : Delivering d e) : Evolves μ d₀ e := by
  obtain ⟨⟨i, b, r, e0⟩, hp, -, hi, hr, hs, -⟩ := g
  have hq : Quiet d e := by
    have hn (n : Nat) : (e.src n).pending = (d.src n).pending := by rw [hp n]
    have ht : e.icu.retention = d.icu.retention := by rw [hi]
    subst e0
    exact ⟨rfl, id, rfl, rfl, rfl, rfl, rfl, id, rfl, rfl, fun w => ht.trans w, fun _ n w => (hn n).trans w⟩
  subst e0
  exact h.trans ⟨hr, hs, rfl, id, id, fun _ => hq⟩

/-! ### Commands -/

/-- The outcome of a command that completes in `s`: the queue is left as it was, and the device has evolved. -/
def Completing (s : State) (o : Host.Outcome State Fault Refusal) : Prop :=
  ∃ e, o = .next { s with dev := e } ∧ Evolves .any s.dev e

theorem Completing.effect {s : State} {f : Device → Device} (hf : ∀ {d₀ d}, Evolves .any d₀ d → Evolves .any d₀ (f d)) :
    Completing s (effect s f) :=
  ⟨_, rfl, hf .refl⟩

/-! ### The definitions of Sys2Proof/Machine/Ops.lean -/

protected theorem Evolves.onlyIf {b : Bool} {f : Device → Device} (h : Evolves μ d₀ d) (hf : ∀ {d}, Evolves μ d₀ d → Evolves μ d₀ (f d)) :
    Evolves μ d₀ (onlyIf b f d) := by
  unfold onlyIf
  exact (hf h).ite h

protected theorem Evolves.setRegF {o hi lo v : Nat} (h : Evolves μ d₀ d) : Evolves μ d₀ (setRegF o hi lo v d) :=
  h.setReg

protected theorem Evolves.countN {o n : Nat} (h : Evolves μ d₀ d) : Evolves μ d₀ (countN o n d) :=
  h.setReg

protected theorem Evolves.count {o : Nat} (h : Evolves μ d₀ d) : Evolves μ d₀ (count o d) :=
  h.countN

protected theorem Evolves.countF {o hi lo : Nat} (h : Evolves .any d₀ d) : Evolves .any d₀ (countF o hi lo d) :=
  h.setRegF

protected theorem Evolves.latchReg {o : Nat} {bits : Word32} (h : Evolves μ d₀ d) : Evolves μ d₀ (latchReg o bits d) :=
  h.setReg

protected theorem Evolves.msixSignal {v : Nat} (h : Evolves μ d₀ d) : Evolves μ d₀ (msixSignal v d) := by
  unfold msixSignal
  exact h.bus.ite h.bus

protected theorem Evolves.msixFlush1 {v : Nat} (h : Evolves .any d₀ d) : Evolves .any d₀ (msixFlush1 v d) := by
  unfold msixFlush1
  exact h.bus.ite h

protected theorem Evolves.msixFlush (h : Evolves .any d₀ d) : Evolves .any d₀ (msixFlush d) := by
  unfold msixFlush
  exact h.foldl .msixFlush1

protected theorem Evolves.lateCount {t : Nat} {x : Src} (h : Evolves μ d₀ d) : Evolves μ d₀ (lateCount t x d) := by
  unfold lateCount
  exact h.ite (h.count.ite h)

protected theorem Evolves.deliver (h : Evolves μ d₀ d) : Evolves μ d₀ (deliver d) :=
  h.delivering (deliver_delivering d)

/-- A source that is detected stays so. -/
protected theorem Evolves.detect {s : Nat} (h : Evolves μ d₀ d) : Evolves μ d₀ (updSrc s srcDetect d) := by
  have hp (n : Nat) (w : (d.src n).pending = true) : ((updSrc s srcDetect d).src n).pending = true := by
    rw [updSrc_src]
    split
    · rfl
    · exact w
  exact h.trans ⟨id, swf_supd _ _ _ _, rfl, id, id, fun _ => ⟨rfl, id, rfl, rfl, rfl, rfl, rfl, id, rfl, rfl, id, fun _ => hp⟩⟩

protected theorem Evolves.raise {s : Nat} (h : Evolves μ d₀ d) : Evolves μ d₀ (raise s d) := by
  rcases raise_spec s d with ⟨ht, e⟩ | ⟨-, g⟩
  · have asleep (p : Prop) (w : d.icu.retention = false) : p := by simp [ht] at w
    rw [e]
    exact h.edit (quiet := fun _ => ⟨rfl, id, rfl, rfl, rfl, rfl, rfl, id, rfl, rfl, asleep _, asleep _⟩)
  · exact h.detect.delivering g

protected theorem Evolves.setLevel {s : Nat} {v : Bool} (h : Evolves .any d₀ d) : Evolves .any d₀ (setLevel s v d) := by
  unfold setLevel
  exact h.icu.ite (h.ite h.updSrc.deliver)

protected theorem Evolves.unlatch {p : Nat × Option Bool} (h : Evolves .any d₀ d) : Evolves .any d₀ (unlatch p d) := by
  unfold unlatch
  split <;> exact h.updSrc

theorem foldl_unlatch_icu {l : List (Nat × Option Bool)} : ∃ i, l.foldl (fun d p => unlatch p d) d = { d with icu := i } := by
  induction l generalizing d with
  | nil => exact ⟨_, rfl⟩
  | cons p l ih =>
    obtain ⟨i, e⟩ := ih (d := unlatch p d)
    refine ⟨i, e.trans ?_⟩
    unfold unlatch
    split <;> rfl

/-- Leaving retention changes the interrupt controller, the bus and the register words alone. -/
theorem leaveRetention_frame : ∃ i b r, leaveRetention d = { d with icu := i, bus := b, regs := r } := by
  unfold leaveRetention
  split
  · dsimp only
    obtain ⟨i, e⟩ := foldl_unlatch_icu (d := { d with icu := { d.icu with retention := false, latched := [], quietSince := d.now } })
      (l := d.icu.latched)
    rw [e]
    obtain ⟨⟨j, b, r, e'⟩, -⟩ := deliver_delivering { d with icu := i }
    exact ⟨j, b, r, e'⟩
  · exact ⟨_, _, _, rfl⟩

theorem leaveRetention_awake (h : d.icu.retention = false) : leaveRetention d = d := by
  simp [leaveRetention, h]

theorem leaveRetention_quiet : Quiet d (leaveRetention d) := by
  cases h : d.icu.retention with
  | false =>
    rw [leaveRetention_awake h]
    exact .refl
  | true =>
    have asleep (p : Prop) (w : d.icu.retention = false) : p := by simp [h] at w
    obtain ⟨i, b, r, e⟩ := leaveRetention_frame (d := d)
    rw [e]
    exact ⟨rfl, id, rfl, rfl, rfl, rfl, rfl, id, rfl, rfl, asleep _, asleep _⟩

theorem leaveRetention_evolves : Evolves .any d (leaveRetention d) := by
  unfold leaveRetention
  exact (Evolves.refl.icu.foldl .unlatch).deliver |>.ite .refl

protected theorem Evolves.leaveRetention (h : Evolves μ d₀ d) : Evolves μ d₀ (leaveRetention d) :=
  h.trans { leaveRetention_evolves with quiet := fun _ => leaveRetention_quiet }

protected theorem Evolves.applyChange {c : MaskChange} (h : Evolves .any d₀ d) : Evolves .any d₀ (applyChange c d) := by
  unfold applyChange
  split
  · exact h.updSrc
  · exact h.icu

protected theorem Evolves.settleIcu (h : Evolves .any d₀ d) : Evolves .any d₀ (settleIcu d) := by
  unfold settleIcu
  exact h.ite ((h.icu.foldl .applyChange).deliver)

protected theorem Evolves.logExcursion_addEntry {l i : Nat} {v : Word32} (h : Evolves μ d₀ d) :
    Evolves μ d₀ (logExcursion.addEntry l i v d) := by
  unfold logExcursion.addEntry
  exact h.exc

protected theorem Evolves.logExcursion {l i : Nat} {v : Word32} (h : Evolves μ d₀ d) : Evolves μ d₀ (logExcursion l i v d) := by
  unfold logExcursion
  split
  · exact h.exc.ite h.logExcursion_addEntry
  · exact h.logExcursion_addEntry

protected theorem Evolves.markOverride (h : Evolves μ d₀ d) : Evolves μ d₀ (markOverride d) :=
  h.edit (quiet := fun _ =>
    ⟨rfl, fun w => by simp [Machine.markOverride, w], rfl, rfl, rfl, rfl, rfl, id, rfl, rfl, id, fun _ _ => id⟩)

protected theorem Evolves.excBegin {l i : Nat} {v : Word32} (h : Evolves μ d₀ d) : Evolves μ d₀ (excBegin l i v d) := by
  unfold excBegin
  exact h.ite h.exc.logExcursion.exc.markOverride.raise

protected theorem Evolves.excReach {l i : Nat} {v : Word32} (h : Evolves μ d₀ d) : Evolves μ d₀ (excReach l i v d) := by
  unfold excReach
  exact h.exc

protected theorem Evolves.logLater {tick origin source code : Nat} {detail : List Byte} (h : Evolves μ d₀ d) :
    Evolves μ d₀ (logLater tick origin source code detail d) := by
  unfold logLater
  exact h.ite h.evt

protected theorem Evolves.copyClosed {l i : Nat} (h : Evolves μ d₀ d) : Evolves μ d₀ (copyClosed l i d) := by
  unfold copyClosed
  split
  · exact h.ite h.logLater
  · exact h

protected theorem Evolves.excEnd {l i : Nat} (h : Evolves μ d₀ d) : Evolves μ d₀ (excEnd l i d) := by
  unfold excEnd
  exact h.exc.copyClosed.ite h

protected theorem Evolves.excFor {l op : Nat} (h : Evolves .any d₀ d) : Evolves .any d₀ (excFor l op d) := by
  unfold excFor
  exact h.ite h.exc

protected theorem Evolves.excTake {l i : Nat} {v : Word32} (h : Evolves μ d₀ d) : Evolves μ d₀ (excTake l i v d) := by
  unfold excTake
  exact h.excBegin.excReach

/-! ### The definitions of Sys2Proof/Machine/Completion.lean -/

protected theorem Evolves.updCmd {tag : Nat} {f : Cmd → Cmd} (h : Evolves μ d₀ d) : Evolves μ d₀ (updCmd tag f d) := by
  unfold updCmd
  exact h.fewerCmds (hc := fun w => by rw [w]; rfl)

protected theorem Evolves.startCmd {tag : Nat} (h : Evolves .any d₀ d) : Evolves .any d₀ (startCmd tag d) := by
  unfold startCmd
  exact h.updCmd

protected theorem Evolves.setPhase {tag : Nat} {p : CmdPhase} (h : Evolves μ d₀ d) : Evolves μ d₀ (setPhase tag p d) := by
  unfold setPhase
  exact h.updCmd

protected theorem Evolves.readOver (h : Evolves μ d₀ d) : Evolves μ d₀ (readOver d) := by
  unfold readOver
  exact (h.ite h.excEnd).when fun h => h.fewerReads.excEnd

protected theorem Evolves.dropReads {p : ReadFor → Bool} (h : Evolves μ d₀ d) : Evolves μ d₀ (dropReads p d) := by
  unfold dropReads
  exact (h.fewerReads fun w => by rw [w]; rfl).readOver.ite h

protected theorem Evolves.finishWith {tag st result : Nat} {single : Bool} {mark : Nat} (h : Evolves μ d₀ d) :
    Evolves μ d₀ (finishWith tag st result single mark d) := by
  unfold finishWith
  split
  · exact h
  · refine h.ite (.ite ?_ h.dropReads.setPhase.fewerCmds)
    exact (h.dropReads.fewerCmds (hc := fun w => by rw [w]; rfl)).count.raise

protected theorem Evolves.finish {tag st : Nat} (h : Evolves μ d₀ d) : Evolves μ d₀ (finish tag st d) :=
  h.finishWith

protected theorem Evolves.finishOk {tag result : Nat} (h : Evolves .any d₀ d) : Evolves .any d₀ (finishOk tag result d) :=
  h.finishWith

protected theorem Evolves.dropCmd {tag : Nat} (h : Evolves .any d₀ d) : Evolves .any d₀ (dropCmd tag d) := by
  unfold dropCmd
  exact h.hif

protected theorem Evolves.deliverData {tag off : Nat} {data : List Byte} (h : Evolves .any d₀ d) :
    Evolves .any d₀ (deliverData tag off data d) := by
  unfold deliverData
  split
  · exact h
  · exact h.ite h.bus.startCmd

protected theorem Evolves.updSq {n : Nat} {f : Sq → Sq} (h : Evolves .any d₀ d) : Evolves .any d₀ (updSq n f d) := by
  unfold updSq
  exact h.hif

protected theorem Evolves.updCq {n : Nat} {f : Cq → Cq} (h : Evolves .any d₀ d) : Evolves .any d₀ (updCq n f d) := by
  unfold updCq
  exact h.hif

protected theorem Evolves.sqError {n err : Nat} (h : Evolves .any d₀ d) : Evolves .any d₀ (sqError n err d) :=
  h.updSq.raise

protected theorem Evolves.cqError {n err : Nat} (h : Evolves .any d₀ d) : Evolves .any d₀ (cqError n err d) :=
  h.updCq.raise

protected theorem Evolves.finishAll {p : Cmd → Bool} {st : Nat} (h : Evolves μ d₀ d) : Evolves μ d₀ (finishAll p st d) := by
  unfold finishAll
  exact h.foldl .finish

protected theorem Evolves.failMedium (h : Evolves .any d₀ d) : Evolves .any d₀ (failMedium d) :=
  h.finishAll

/-! ### The definitions of Sys2Proof/Machine/Guards.lean -/

protected theorem Evolves.lockedWrite (h : Evolves .any d₀ d) : Evolves .any d₀ (lockedWrite d) :=
  h.hif.raise

protected theorem Evolves.onBus {who : Requester} {f : Device → Device} (h : Evolves .any d₀ d) (hf : ∀
    {d}, Evolves .any d₀ d → Evolves .any d₀ (f d)) :
    Evolves .any d₀ (onBus who f d) := by
  unfold onBus
  exact (hf h).ite h

protected theorem Evolves.gate {who : Requester} {o : Nat} {hostOk : Bool} {f : Device → Device} (h : Evolves .any d₀ d) (hf : ∀
    {d}, Evolves .any d₀ d → Evolves .any d₀ (f d)) :
    Evolves .any d₀ (gate who o hostOk f d) := by
  unfold gate
  split
  · exact h.lockedWrite.ite ((hf h).ite h)
  · exact (h.onBus hf).ite h
  · exact h.onBus hf

protected theorem Evolves.laserLevel {level : Nat} (h : Evolves μ d₀ d) : Evolves μ d₀ (laserLevel level d) := by
  unfold laserLevel
  exact h.wrc.ite h.wrc

protected theorem Evolves.laserOff (h : Evolves .any d₀ d) : Evolves .any d₀ (laserOff d) := by
  unfold laserOff
  exact h.wrc

protected theorem Evolves.laserToRead (h : Evolves μ d₀ d) : Evolves μ d₀ (laserToRead d) := by
  unfold laserToRead
  exact h.laserLevel.ite h

protected theorem Evolves.updLoop {n : Nat} {f : Machine.Loop → Machine.Loop} (h : Evolves μ d₀ d) : Evolves μ d₀ (updLoop n f d) := by
  unfold updLoop
  exact h.servo

protected theorem Evolves.endWriting (h : Evolves μ d₀ d) : Evolves μ d₀ (endWriting d) := by
  unfold endWriting
  split
  · exact h
  · dsimp only
    split
    · exact h.wrc
    · exact h.wrc.wrc

protected theorem Evolves.cutSector (h : Evolves μ d₀ d) : Evolves μ d₀ (cutSector d) := by
  unfold cutSector
  split
  · exact h
  · exact h.endWriting.wrc.count.raise

protected theorem Evolves.voidPending (h : Evolves μ d₀ d) : Evolves μ d₀ (voidPending d) := by
  unfold voidPending
  exact h.wrc

protected theorem Evolves.refreshInhibit (h : Evolves μ d₀ d) : Evolves μ d₀ (refreshInhibit d) := by
  unfold refreshInhibit
  exact h.ite (h.latchReg.wrc.unless (fun h => h.wrc.voidPending.cutSector.laserToRead))

protected theorem Evolves.updAvs {f : Avs → Avs} (h : Evolves μ d₀ d) : Evolves μ d₀ (updAvs f d) := by
  unfold updAvs
  exact h.avs

protected theorem Evolves.avsPut {code : Nat} (h : Evolves μ d₀ d) : Evolves μ d₀ (avsPut code d) := by
  unfold avsPut
  exact h.ite h.updAvs

protected theorem Evolves.clampAvs (h : Evolves μ d₀ d) : Evolves μ d₀ (clampAvs d) := by
  unfold clampAvs
  exact h.ite (h.avsPut.ite (h.avsPut.ite h))

protected theorem Evolves.drawnWide (h : Evolves .any d₀ d) : Evolves .any d₀ (drawnWide d) := by
  unfold drawnWide
  exact h.draws

protected theorem Evolves.drawn (h : Evolves .any d₀ d) : Evolves .any d₀ (drawn d) := by
  unfold drawn
  exact h.draws

/-! ### The definitions of Sys2Proof/Machine/Servo.lean -/

protected theorem Evolves.enginePick (h : Evolves .any d₀ d) : Evolves .any d₀ (enginePick d) := by
  unfold enginePick
  split
  · exact h
  · split
    · exact h
    · split
      · exact h
      · exact h.updLoop.servo

protected theorem Evolves.updEngine {n : Nat} {f : ServoJob → ServoJob} (h : Evolves .any d₀ d) : Evolves .any d₀ (updEngine n f d) := by
  unfold updEngine
  exact h.servo

protected theorem Evolves.voidJob {n : Nat} (h : Evolves .any d₀ d) : Evolves .any d₀ (voidJob n d) := by
  unfold voidJob
  exact h.updEngine

protected theorem Evolves.putLive {n : Nat} {ws : List Word32} (h : Evolves .any d₀ d) : Evolves .any d₀ (putLive n ws d) := by
  unfold putLive
  exact h.foldl .setReg

protected theorem Evolves.loadShadow {n : Nat} (h : Evolves .any d₀ d) : Evolves .any d₀ (loadShadow n d) := by
  unfold loadShadow
  exact h.putLive.updLoop.ite h

protected theorem Evolves.afterClose {n : Nat} (h : Evolves .any d₀ d) : Evolves .any d₀ (afterClose n d) := by
  unfold afterClose
  exact h.edit.clampAvs.ite (h.servo.ite h)

protected theorem Evolves.afterLeave {n : Nat} (h : Evolves .any d₀ d) : Evolves .any d₀ (afterLeave n d) := by
  unfold afterLeave
  exact h.servo.ite h

protected theorem Evolves.closeLoop {n : Nat} (h : Evolves .any d₀ d) : Evolves .any d₀ (closeLoop n d) :=
  h.loadShadow.updLoop.voidJob.afterClose

protected theorem Evolves.openLoop {n : Nat} (h : Evolves .any d₀ d) : Evolves .any d₀ (openLoop n d) :=
  h.updLoop.voidJob.afterLeave.refreshInhibit

protected theorem Evolves.acquireLoop {n : Nat} (h : Evolves .any d₀ d) : Evolves .any d₀ (acquireLoop n d) :=
  h.updLoop.voidJob.afterLeave.refreshInhibit

protected theorem Evolves.holdLoop {n : Nat} (h : Evolves .any d₀ d) : Evolves .any d₀ (holdLoop n d) :=
  h.updLoop.updEngine.afterLeave.refreshInhibit

protected theorem Evolves.recloseLoop {n : Nat} (h : Evolves .any d₀ d) : Evolves .any d₀ (recloseLoop n d) :=
  h.loadShadow.updLoop.afterClose.refreshInhibit

protected theorem Evolves.holdTimeoutLoop {n : Nat} (h : Evolves .any d₀ d) : Evolves .any d₀ (holdTimeoutLoop n d) :=
  h.putLive.updLoop.afterClose.refreshInhibit.countF.raise

protected theorem Evolves.applyLoopCmd {n : Nat} {c : LoopCmd} (h : Evolves .any d₀ d) : Evolves .any d₀ (applyLoopCmd n c d) := by
  unfold applyLoopCmd
  split
  · exact h
  · split
    · exact h.openLoop
    · exact h.acquireLoop
    · exact h.holdLoop
    · exact h.recloseLoop.ite h.closeLoop.refreshInhibit

protected theorem Evolves.dropTaken {n : Nat} (h : Evolves .any d₀ d) : Evolves .any d₀ (dropTaken n d) := by
  unfold dropTaken
  exact h.updLoop

protected theorem Evolves.putLoopCmd {n : Nat} {c : LoopCmd} (h : Evolves μ d₀ d) : Evolves μ d₀ (putLoopCmd n c d) := by
  unfold putLoopCmd
  exact h.updLoop

protected theorem Evolves.setSpeed {fast : Bool} (h : Evolves μ d₀ d) : Evolves μ d₀ (setSpeed fast d) := by
  unfold setSpeed
  exact h.ite (h.edit.when (fun h => h.putLoopCmd))

protected theorem Evolves.scriptTo {k : ScriptKind} {p : ScriptStep} (h : Evolves μ d₀ d) : Evolves μ d₀ (scriptTo k p d) := by
  unfold scriptTo
  exact h.servo

protected theorem Evolves.laserBegin (h : Evolves μ d₀ d) : Evolves μ d₀ (laserBegin d) :=
  h.scriptTo.laserLevel

protected theorem Evolves.startAcquisition {l : Nat} (h : Evolves μ d₀ d) : Evolves μ d₀ (startAcquisition l d) := by
  unfold startAcquisition
  exact h.edit.laserBegin.ite ((h.edit.unless (fun h => h.putLoopCmd)).scriptTo)

protected theorem Evolves.flipGear {l : Nat} (h : Evolves .any d₀ d) : Evolves .any d₀ (flipGear l d) := by
  unfold flipGear
  exact h.ite h.motion.setReg.setReg

protected theorem Evolves.startJump {l : Nat} (h : Evolves .any d₀ d) : Evolves .any d₀ (startJump l d) :=
  h.edit.scriptTo.putLoopCmd.flipGear

protected theorem Evolves.runScript (h : Evolves .any d₀ d) : Evolves .any d₀ (runScript d) := by
  unfold runScript
  split
  · exact h
  · split
    · exact h
    · split
      · exact h.laserBegin.ite h
      · exact h.scriptTo.putLoopCmd.ite h
      · exact h.scriptTo.ite h
      · exact h.scriptTo.putLoopCmd.ite h
      · exact h.scriptTo.putLoopCmd.ite h
      · exact h.scriptTo.ite h
      · exact h

protected theorem Evolves.acquisitionFailed (h : Evolves .any d₀ d) : Evolves .any d₀ (acquisitionFailed d) :=
  h.laserOff.openLoop.openLoop.openLoop.servo.failMedium

protected theorem Evolves.layerConfirmed {l : Nat} (h : Evolves .any d₀ d) : Evolves .any d₀ (layerConfirmed l d) := by
  unfold layerConfirmed
  exact h.servo

protected theorem Evolves.attemptFailed {l : Nat} {on : Option Nat} (h : Evolves .any d₀ d) : Evolves .any d₀ (attemptFailed l on d) := by
  unfold attemptFailed
  exact h.acquisitionFailed.ite (h.servo.startJump.ite h.servo.servo.scriptTo.openLoop.putLoopCmd)

protected theorem Evolves.acqTimeoutLoop {n : Nat} (h : Evolves .any d₀ d) : Evolves .any d₀ (acqTimeoutLoop n d) := by
  unfold acqTimeoutLoop
  dsimp only
  split
  · exact h.openLoop.raise.attemptFailed
  · exact h.openLoop.raise

protected theorem Evolves.focusLossLoop (h : Evolves .any d₀ d) : Evolves .any d₀ (focusLossLoop d) :=
  h.updLoop.servo.openLoop.raise

protected theorem Evolves.acquireSample {n : Nat} {x : ServoSample} (h : Evolves .any d₀ d) : Evolves .any d₀ (acquireSample n x d) := by
  unfold acquireSample
  exact h.updLoop

protected theorem Evolves.closedSample {n : Nat} {x : ServoSample} (h : Evolves .any d₀ d) : Evolves .any d₀ (closedSample n x d) := by
  unfold closedSample
  exact h.updLoop

protected theorem Evolves.beforeSample {n : Nat} (h : Evolves .any d₀ d) : Evolves .any d₀ (beforeSample n d) := by
  unfold beforeSample
  dsimp only
  split
  · exact h.dropTaken.applyLoopCmd
  · exact h.dropTaken.holdTimeoutLoop.ite (h.dropTaken.acqTimeoutLoop.ite (h.dropTaken.when .focusLossLoop))

protected theorem Evolves.afterSpindle {n : Nat} (h : Evolves .any d₀ d) : Evolves .any d₀ (afterSpindle n d) := by
  unfold afterSpindle
  exact (h.drawn.ite h).servo |>.ite h

protected theorem Evolves.sampleLoop {n : Nat} {x : ServoSample} (h : Evolves .any d₀ d) : Evolves .any d₀ (sampleLoop n x d) := by
  unfold sampleLoop
  dsimp only
  refine .andThen ?_ fun h => h.afterSpindle.runScript
  split
  · exact h.updLoop.beforeSample.when fun h => h.closeLoop.raise.refreshInhibit
  · exact (h.updLoop.beforeSample.when (fun h => h.closeLoop.raise.refreshInhibit)).acquireSample
  · exact (h.updLoop.beforeSample.when (fun h => h.closeLoop.raise.refreshInhibit)).closedSample
  · exact (h.updLoop.beforeSample.when (fun h => h.closeLoop.raise.refreshInhibit)).updLoop

theorem execLoopSample_completing {s : State} {n : Nat} {x : ServoSample} : Completing s (execLoopSample n x s) :=
  .effect fun h => h.onlyIf .sampleLoop

protected theorem Evolves.noteSlack {v : Int} (h : Evolves .any d₀ d) : Evolves .any d₀ (noteSlack v d) := by
  unfold noteSlack
  exact h.avs

protected theorem Evolves.finishJob {n eighths : Nat} {j : ServoJob} (h : Evolves .any d₀ d) :
    Evolves .any d₀ (finishJob n eighths j d) := by
  unfold finishJob
  exact h.servo.unless fun h => h.updLoop.when (fun h => h.noteSlack)

protected theorem Evolves.computeDone {n eighths : Nat} (h : Evolves .any d₀ d) : Evolves .any d₀ (computeDone n eighths d) := by
  unfold computeDone
  dsimp only
  split
  · exact h.enginePick.when fun h => h.finishJob.enginePick
  · exact h.enginePick

theorem execLoopComputeDone_completing {s : State} {n eighths : Nat} : Completing s (execLoopComputeDone n eighths s) :=
  .effect fun h => h.onlyIf .computeDone

protected theorem Evolves.loopCommand {who : Requester} {n : Nat} {c : LoopCmd} (h : Evolves .any d₀ d) :
    Evolves .any d₀ (loopCommand who n c d) :=
  h.onlyIf fun h => h.gate (fun h => h.putLoopCmd)

theorem execLoopOpen_completing {s : State} {who : Requester} {n : Nat} : Completing s (execLoopOpen who n s) :=
  .effect fun h => h.loopCommand

theorem execLoopHold_completing {s : State} {who : Requester} {n : Nat} : Completing s (execLoopHold who n s) :=
  .effect fun h => h.loopCommand

theorem execLoopClose_completing {s : State} {who : Requester} {n : Nat} : Completing s (execLoopClose who n s) :=
  .effect fun h => h.loopCommand

theorem execLoopAcquire_completing {s : State} {who : Requester} {n : Nat} : Completing s (execLoopAcquire who n s) :=
  .effect fun h => h.loopCommand

theorem execDiscardShadow_completing {s : State} {who : Requester} {n : Nat} : Completing s (execDiscardShadow who n s) :=
  .effect fun h => h.onlyIf fun h => h.gate (fun h => h.updLoop)

theorem execAcqTimeout_completing {s : State} {n : Nat} : Completing s (execAcqTimeout n s) :=
  .effect fun h => h.onlyIf .acqTimeoutLoop

theorem execHoldTimeout_completing {s : State} {n : Nat} : Completing s (execHoldTimeout n s) :=
  .effect fun h => h.onlyIf .holdTimeoutLoop

theorem execFocusLoss_completing {s : State} : Completing s (execFocusLoss s) :=
  .effect fun h => h.onlyIf .focusLossLoop

protected theorem Evolves.rejectCoef {n : Nat} (h : Evolves .any d₀ d) : Evolves .any d₀ (rejectCoef n d) :=
  h.countF.raise

theorem execCoefLiveWrite_completing {s : State} {who : Requester} {n k : Nat} {value : Word32} :
    Completing s (execCoefLiveWrite who n k value s) :=
  .effect fun h => h.onlyIf fun h => h.gate (fun h => h.rejectCoef.ite h.setReg)

theorem execCoefShadowWrite_completing {s : State} {who : Requester} {n k : Nat} {value : Word32} :
    Completing s (execCoefShadowWrite who n k value s) :=
  .effect fun h => h.onlyIf fun h => h.gate (fun h => h.rejectCoef.ite h.setReg.updLoop)

protected theorem Evolves.endActive {t : Nat} (h : Evolves .any d₀ d) : Evolves .any d₀ (endActive t d) := by
  unfold endActive
  exact (h.foldl .updSrc).deliver

theorem execSeqRun_completing {s : State} {who : Requester} {run : Bool} : Completing s (execSeqRun who run s) :=
  .effect fun h => h.gate fun h => (h.ite h.servo).ite (h.servo.endActive.ite h)

theorem execSeqKick_completing {s : State} {who : Requester} : Completing s (execSeqKick who s) :=
  .effect fun h => h.gate fun h => h.servo

protected theorem Evolves.openUnclosed (h : Evolves .any d₀ d) : Evolves .any d₀ (openUnclosed d) := by
  unfold openUnclosed
  exact h.foldl fun h => h.ite h.openLoop

theorem execSeqHalt_completing {s : State} : Completing s (execSeqHalt s) :=
  .effect fun h => h.onlyIf fun h => h.servo.raise

/-! ### The definitions of Sys2Proof/Machine/Sled.lean -/

protected theorem Evolves.updMotion {f : Motion → Motion} (h : Evolves μ d₀ d) : Evolves μ d₀ (updMotion f d) := by
  unfold updMotion
  exact h.motion

protected theorem Evolves.rejectMotion (h : Evolves .any d₀ d) : Evolves .any d₀ (rejectMotion d) :=
  h.countF.raise

protected theorem Evolves.withPlan {p : Plan} (h : Evolves μ d₀ d) : Evolves μ d₀ (withPlan p d) := by
  unfold withPlan
  exact h.updMotion

protected theorem Evolves.startRamp {cause : Nat} {after : MotionState} (h : Evolves .any d₀ d) :
    Evolves .any d₀ (startRamp cause after d) :=
  h.withPlan.updMotion.countF.raise

protected theorem Evolves.innerRamp (h : Evolves .any d₀ d) : Evolves .any d₀ (innerRamp d) :=
  h.withPlan.updMotion.countF.raise

protected theorem Evolves.startHome {after : AfterHome} (h : Evolves μ d₀ d) : Evolves μ d₀ (startHome after d) :=
  h.withPlan.updMotion.refreshInhibit

protected theorem Evolves.startMove {goal : Int} {park : Bool} (h : Evolves .any d₀ d) : Evolves .any d₀ (startMove goal park d) :=
  h.withPlan.updMotion.refreshInhibit

protected theorem Evolves.startUnhomedPark (h : Evolves .any d₀ d) : Evolves .any d₀ (startUnhomedPark d) := by
  unfold startUnhomedPark
  exact (h.ite h.withPlan).updMotion |>.refreshInhibit |>.when .innerRamp

protected theorem Evolves.doPark (h : Evolves .any d₀ d) : Evolves .any d₀ (doPark d) := by
  unfold doPark
  split
  · exact h.rejectMotion
  · exact h.updMotion
  · exact h.ite h.startUnhomedPark
  · exact h.startMove.ite h.startUnhomedPark
  · exact h.startHome.ite h.startMove
  · exact h.startMove
  · exact h.startMove

protected theorem Evolves.parkDrive (h : Evolves .any d₀ d) : Evolves .any d₀ (parkDrive d) := by
  unfold parkDrive
  exact h.ite h.updMotion.doPark

protected theorem Evolves.brakeDrive (h : Evolves .any d₀ d) : Evolves .any d₀ (brakeDrive d) := by
  unfold brakeDrive
  exact h.openLoop.openLoop.openLoop.openLoop.servo

protected theorem Evolves.parkStep (h : Evolves .any d₀ d) : Evolves .any d₀ (parkStep d) :=
  h.laserOff.brakeDrive.parkDrive

protected theorem Evolves.doMove (h : Evolves .any d₀ d) : Evolves .any d₀ (doMove d) := by
  unfold doMove
  exact h.rejectMotion.ite (h.startHome.ite ((h.openLoop.openLoop.ite h).startMove |>.updMotion))

theorem execMove_completing {s : State} {who : Requester} : Completing s (execMove who s) := by
  refine .effect fun h => ?_
  refine h.gate fun h => ?_
  split
  · exact h.doMove
  · exact h.doMove
  · exact h.doMove
  · exact h.rejectMotion
  · exact h.rejectMotion
  · exact h.rejectMotion
  · exact h.rejectMotion

theorem execHome_completing {s : State} {who : Requester} : Completing s (execHome who s) :=
  .effect fun h => h.gate fun h => h.startHome.ite h.rejectMotion

theorem execPark_completing {s : State} {who : Requester} : Completing s (execPark who s) :=
  .effect fun h => h.gate fun h => h.updMotion.doPark

theorem execStop_completing {s : State} {who : Requester} : Completing s (execStop who s) := by
  refine .effect fun h => ?_
  refine h.gate fun h => ?_
  split
  · exact h.startRamp.refreshInhibit
  · exact h.startRamp.refreshInhibit
  · exact h.startRamp.refreshInhibit
  · exact h.rejectMotion
  · exact h.rejectMotion
  · exact h.rejectMotion
  · exact h.rejectMotion

protected theorem Evolves.doEngage (h : Evolves .any d₀ d) : Evolves .any d₀ (doEngage d) :=
  h.updMotion.refreshInhibit

theorem execGearEngage_completing {s : State} {who : Requester} : Completing s (execGearEngage who s) :=
  .effect fun h => h.gate fun h => (h.startHome.ite h.doEngage).ite h.rejectMotion

protected theorem Evolves.disengage (h : Evolves .any d₀ d) : Evolves .any d₀ (disengage d) :=
  h.updMotion.refreshInhibit

theorem execGearDisengage_completing {s : State} {who : Requester} : Completing s (execGearDisengage who s) :=
  .effect fun h => h.gate fun h => h.disengage.ite h.rejectMotion

theorem execClearFault_completing {s : State} {who : Requester} : Completing s (execClearFault who s) :=
  .effect fun h => h.gate fun h => h.updMotion.refreshInhibit.ite h.rejectMotion

theorem execProfileReplan_completing {s : State} : Completing s (execProfileReplan s) :=
  .effect fun h => h.onlyIf fun h => h.updMotion.ite h.withPlan

protected theorem Evolves.softLimitStop (h : Evolves .any d₀ d) : Evolves .any d₀ (softLimitStop d) := by
  unfold softLimitStop
  exact h.updMotion.refreshInhibit.raise.ite h

theorem execMicrostepDue_completing {s : State} {src : StepSource} {outward : Bool} : Completing s (execMicrostepDue src outward s) :=
  .effect fun h => h.updMotion.softLimitStop

protected theorem Evolves.parkDone (h : Evolves .any d₀ d) : Evolves .any d₀ (parkDone d) :=
  h.updMotion.refreshInhibit.raise

protected theorem Evolves.seekDone (h : Evolves .any d₀ d) : Evolves .any d₀ (seekDone d) := by
  unfold seekDone
  split
  · exact h.scriptTo.putLoopCmd.ite h.startJump
  · exact h.scriptTo.putLoopCmd

protected theorem Evolves.moveDone (h : Evolves .any d₀ d) : Evolves .any d₀ (moveDone d) := by
  unfold moveDone
  exact h.parkDone.ite (h.updMotion.refreshInhibit.raise.when .seekDone)

theorem execMoveComplete_completing {s : State} : Completing s (execMoveComplete s) :=
  .effect fun h => h.onlyIf .moveDone

protected theorem Evolves.afterHoming (h : Evolves .any d₀ d) : Evolves .any d₀ (afterHoming d) := by
  unfold afterHoming
  dsimp only
  split
  · exact h.updMotion
  · exact h.updMotion.doMove
  · exact h.updMotion.startMove
  · exact h.updMotion.doEngage.ite h.updMotion.rejectMotion

protected theorem Evolves.pumpHoming (h : Evolves .any d₀ d) : Evolves .any d₀ (pumpHoming d) := by
  unfold pumpHoming
  split
  · exact h
  · split
    · exact h.updMotion.withPlan
    · exact h.updMotion.refreshInhibit.afterHoming
    · exact h

protected theorem Evolves.switchRest {src : Nat} (h : Evolves .any d₀ d) : Evolves .any d₀ (switchRest src d) :=
  h.updMotion.refreshInhibit.raise

protected theorem Evolves.parkNext (h : Evolves .any d₀ d) : Evolves .any d₀ (parkNext d) := by
  unfold parkNext
  exact h.updMotion.doPark.ite h

protected theorem Evolves.rampAtRest (h : Evolves .any d₀ d) : Evolves .any d₀ (rampAtRest d) := by
  unfold rampAtRest
  dsimp only
  split
  · exact h.updMotion.raise.updMotion.withPlan
  · exact h.updMotion.raise.when .parkDone
  · refine .parkNext ?_
    split
    · exact h.updMotion.raise.updMotion.switchRest
    · exact h.updMotion.raise.updMotion.updMotion.refreshInhibit

theorem execEmergencyRampAtRest_completing {s : State} : Completing s (execEmergencyRampAtRest s) :=
  .effect fun h => h.onlyIf .rampAtRest

theorem execPreDriverFault_completing {s : State} : Completing s (execPreDriverFault s) :=
  .effect fun h => h.updMotion.refreshInhibit.countF.raise

protected theorem Evolves.switchStop {outer : Bool} (h : Evolves .any d₀ d) : Evolves .any d₀ (switchStop outer d) := by
  unfold switchStop
  exact (h.ite h.startRamp.refreshInhibit.updMotion).ite h.updMotion.switchRest.parkNext

protected theorem Evolves.parkEdge (h : Evolves .any d₀ d) : Evolves .any d₀ (parkEdge d) := by
  unfold parkEdge
  exact h.updMotion.ite h.countF.raise.startRamp.refreshInhibit

protected theorem Evolves.homingEdge {on : Bool} (h : Evolves .any d₀ d) : Evolves .any d₀ (homingEdge on d) := by
  unfold homingEdge
  split
  · exact h.updMotion.innerRamp
  · exact h.updMotion.withPlan
  · exact h.withPlan.updMotion.raise
  · exact h

protected theorem Evolves.homeChange {act : Bool} (h : Evolves .any d₀ d) : Evolves .any d₀ (homeChange act d) := by
  unfold homeChange
  split
  · exact h.ite h.homingEdge
  · exact h.innerRamp.ite h
  · exact h.ite (h.parkEdge.ite h.switchStop)
  · exact h.switchStop.ite h
  · exact h.switchStop.ite h
  · exact h
  · exact h

protected theorem Evolves.switchChange {outer level : Bool} (h : Evolves .any d₀ d) : Evolves .any d₀ (switchChange outer level d) := by
  unfold switchChange
  exact h.ite ((h.updMotion.when .switchStop).ite h.updMotion.homeChange)

theorem execLimitSwitchChange_completing {s : State} {outer level : Bool} {held : Nat} :
    Completing s (execLimitSwitchChange outer level held s) :=
  .effect fun h => h.onlyIf .switchChange

theorem execHomingFailed_completing {s : State} : Completing s (execHomingFailed s) :=
  .effect fun h => h.onlyIf fun h => h.updMotion.refreshInhibit.raise

protected theorem Evolves.gearCount (h : Evolves .any d₀ d) : Evolves .any d₀ (gearCount d) := by
  unfold gearCount
  exact (h.setReg.raise.ite h).updMotion

protected theorem Evolves.measureEdge {t : Nat} (h : Evolves .any d₀ d) : Evolves .any d₀ (measureEdge t d) := by
  unfold measureEdge
  split <;> exact h.servo

protected theorem Evolves.encoderCount {t : Nat} (h : Evolves .any d₀ d) : Evolves .any d₀ (encoderCount t d) := by
  unfold encoderCount
  exact h.gen.measureEdge.updMotion.refreshInhibit.when fun h => h.gearCount.startRamp.refreshInhibit.raise.ite h.gearCount.softLimitStop

theorem execEncoderEdge_completing {s : State} {eighths : Nat} : Completing s (execEncoderEdge eighths s) :=
  .effect fun h => h.onlyIf .encoderCount

theorem execGearArm_completing {s : State} {who : Requester} : Completing s (execGearArm who s) :=
  .effect fun h => h.gate fun h => h.updMotion.when .raise

theorem execGearCancel_completing {s : State} {who : Requester} : Completing s (execGearCancel who s) :=
  .effect fun h => h.gate fun h => h.updMotion

protected theorem Evolves.setTrim {t : Int} (h : Evolves .any d₀ d) : Evolves .any d₀ (setTrim t d) := by
  unfold setTrim
  exact h.updMotion

protected theorem Evolves.clampTrim (h : Evolves .any d₀ d) : Evolves .any d₀ (clampTrim d) := by
  unfold clampTrim
  exact h.ite h.setTrim

protected theorem Evolves.liftTrim {want : Int} {b : Int × Int} (h : Evolves .any d₀ d) : Evolves .any d₀ (liftTrim want b d) := by
  unfold liftTrim
  exact (h.updMotion.foldl .excFor).excTake

protected theorem Evolves.trimUpdate (h : Evolves .any d₀ d) : Evolves .any d₀ (trimUpdate d) := by
  unfold trimUpdate
  exact (h.updMotion.setTrim.when .raise).andThen fun h => (h.liftTrim.ite (h.excTake.ite (h.excEnd.clampTrim.ite h))).softLimitStop

protected theorem Evolves.markLate {n t : Nat} (h : Evolves .any d₀ d) : Evolves .any d₀ (markLate n t d) := by
  unfold markLate
  exact h.updLoop.updEngine

protected theorem Evolves.missOutput {n t : Nat} {slack : Int} (h : Evolves .any d₀ d) : Evolves .any d₀ (missOutput n t slack d) := by
  unfold missOutput
  refine h.updLoop.markLate.countF.raise.noteSlack.andThen fun h => h.ite ?_
  dsimp only
  exact Evolves.ite (Evolves.refreshInhibit (.raise (.count (.edit h)))) (.servo (.servo h))

protected theorem Evolves.applyOutput {n : Nat} {r : ReadyOutput} (h : Evolves .any d₀ d) : Evolves .any d₀ (applyOutput n r d) := by
  unfold applyOutput
  exact h.updLoop.noteSlack.unless fun h => h.servo.refreshInhibit

protected theorem Evolves.dueOutput {n t : Nat} (h : Evolves .any d₀ d) : Evolves .any d₀ (dueOutput n t d) := by
  unfold dueOutput
  dsimp only
  split
  · exact h.updLoop.applyOutput.ite h.updLoop.missOutput
  · exact h.updLoop.missOutput

protected theorem Evolves.outputInstant {n : Nat} (h : Evolves .any d₀ d) : Evolves .any d₀ (outputInstant n d) := by
  unfold outputInstant
  dsimp only
  refine .andThen ?_ fun h => (h.servo.ite h).when .trimUpdate
  split
  · exact h.updLoop.dueOutput
  · exact h.updLoop

theorem execLoopOutputInstant_completing {s : State} {n : Nat} : Completing s (execLoopOutputInstant n s) :=
  .effect fun h => h.onlyIf .outputInstant

protected theorem Evolves.watchdogExpired (h : Evolves .any d₀ d) : Evolves .any d₀ (watchdogExpired d) := by
  unfold watchdogExpired
  exact h.servo.endActive.raise.openUnclosed.when fun h => h.servo.parkStep.failMedium

theorem execSeqWatchdogExpiry_completing {s : State} : Completing s (execSeqWatchdogExpiry s) :=
  .effect fun h => h.onlyIf .watchdogExpired

/-! ### The definitions of Sys2Proof/Machine/Link.lean -/

protected theorem Evolves.updLath {f : Lath → Lath} (h : Evolves μ d₀ d) : Evolves μ d₀ (updLath f d) := by
  unfold updLath
  exact h.lath

protected theorem Evolves.raiseArb (h : Evolves μ d₀ d) : Evolves μ d₀ (raiseArb d) := by
  unfold raiseArb
  exact h.ite h.updLath

protected theorem Evolves.sendMsg {m : LathMsg} (h : Evolves μ d₀ d) : Evolves μ d₀ (sendMsg m d) := by
  unfold sendMsg
  exact h.updLath.raiseArb.ite h

protected theorem Evolves.crossWires {m : LathMsg} {cr : Credits} (h : Evolves .any d₀ d) : Evolves .any d₀ (crossWires m cr d) := by
  unfold crossWires
  exact (h.drawn.ite h).updLath

protected theorem Evolves.sendOne {m : LathMsg} {rest : List LathMsg} (h : Evolves .any d₀ d) : Evolves .any d₀ (sendOne m rest d) := by
  unfold sendOne
  exact h.count.crossWires.updLath

protected theorem Evolves.sendTurn {n : Nat} {left : Option Nat} (h : Evolves .any d₀ d) : Evolves .any d₀ (sendTurn n left d) := by
  induction n generalizing left d with
  | zero => exact h
  | succ n ih =>
    unfold sendTurn
    split
    · exact h
    · exact ih h.sendOne

protected theorem Evolves.takeTurn {left : Option Nat} (h : Evolves .any d₀ d) : Evolves .any d₀ (takeTurn left d) := by
  unfold takeTurn
  exact h.updLath.sendTurn.updLath

protected theorem Evolves.freeSlot {isData : Bool} (h : Evolves .any d₀ d) : Evolves .any d₀ (freeSlot isData d) := by
  unfold freeSlot
  exact h.updLath.when .sendMsg

protected theorem Evolves.receive {cr : Credits} {m : LathMsg} {f : Device → Device} (h : Evolves .any d₀ d) (hf : ∀
    {d}, Evolves .any d₀ d → Evolves .any d₀ (f d)) :
    Evolves .any d₀ (receive cr m f d) := by
  unfold receive
  exact (hf (h.count.crossWires.updLath.unless .raiseArb)).freeSlot |>.ite h

theorem execDirectionTake_completing {s : State} {arbIn : Option Nat} : Completing s (execDirectionTake arbIn s) :=
  .effect fun h => h.onlyIf .takeTurn

theorem execArbCollision_completing {s : State} : Completing s (execArbCollision s) :=
  .effect fun h => h.onlyIf fun h => h.count.updLath

theorem execGuardTimeEnd_completing {s : State} : Completing s (execGuardTimeEnd s) :=
  .effect fun h => h.onlyIf fun h => h.updLath.unless .raiseArb

theorem execCredit_completing {s : State} {cr : Credits} : Completing s (execCredit cr s) :=
  .effect fun h => h.receive fun h => h

/-! ### The definitions of Sys2Proof/Machine/Cache.lean -/

protected theorem Evolves.updCache {f : Machine.Cache → Machine.Cache} (h : Evolves μ d₀ d) : Evolves μ d₀ (updCache f d) := by
  unfold updCache
  exact h.cch

protected theorem Evolves.putLine {i : Nat} {l : Line} (h : Evolves μ d₀ d) : Evolves μ d₀ (putLine i l d) := by
  unfold putLine
  exact h.updCache

protected theorem Evolves.mapLines {p : Line → Bool} {f : Line → Line} (h : Evolves μ d₀ d) : Evolves μ d₀ (mapLines p f d) := by
  unfold mapLines
  exact (h.foldl (fun h => h.putLine.ite h)).updCache

protected theorem Evolves.dropLines {p : Line → Bool} (h : Evolves μ d₀ d) : Evolves μ d₀ (dropLines p d) := by
  unfold dropLines
  exact (h.foldl (fun h => h.putLine.ite h)).updCache

protected theorem Evolves.storeTable {k : Nat} {recs : TableRecs} {poison : BitVec 32} (h : Evolves μ d₀ d) :
    Evolves μ d₀ (storeTable k recs poison d) := by
  unfold storeTable
  exact h.updCache

protected theorem Evolves.access (h : Evolves μ d₀ d) : Evolves μ d₀ (access d) := by
  unfold access
  exact h.updCache

protected theorem Evolves.ageAll (h : Evolves .any d₀ d) : Evolves .any d₀ (ageAll d) := by
  unfold ageAll
  exact (h.foldl (fun h => h.putLine.ite h)).updCache

protected theorem Evolves.chooseLine {cls : Nat} (h : Evolves μ d₀ d) : Evolves μ d₀ (chooseLine cls d).2 := by
  unfold chooseLine
  split
  · exact h
  · split
    · exact h
    · exact h.setRegF

protected theorem Evolves.leaveCache {l : Line} (h : Evolves μ d₀ d) : Evolves μ d₀ (leaveCache l d) := by
  unfold leaveCache
  exact h.count.when fun h => h.storeTable.when (fun h => h.updCache.sendMsg)

protected theorem Evolves.pushVictim {l : Line} (h : Evolves μ d₀ d) : Evolves μ d₀ (pushVictim l d) := by
  unfold pushVictim
  split
  · exact h
  · split
    · exact h.updCache
    · split
      · exact h
      · exact h.updCache.leaveCache

protected theorem Evolves.replaceLine {i : Nat} {l : Line} (h : Evolves μ d₀ d) : Evolves μ d₀ (replaceLine i l d) :=
  h.putLine.pushVictim

protected theorem Evolves.fillLine {l : Line} (h : Evolves μ d₀ d) : Evolves μ d₀ (fillLine l d) := by
  unfold fillLine
  dsimp only
  split
  · exact h.updCache
  · split
    · next e => exact (h.chooseLine.ofPair e).replaceLine
    · next e => exact (h.chooseLine.ofPair e).updCache |>.count |>.raise

protected theorem Evolves.swapBack {p : Line → Bool} {l : Line} (h : Evolves μ d₀ d) : Evolves μ d₀ (swapBack p l d) := by
  unfold swapBack
  split
  · next e => exact h.chooseLine.ofPair e
  · next e => exact (h.chooseLine.ofPair e).updCache |>.replaceLine

protected theorem Evolves.lookup {p : Line → Bool} (h : Evolves μ d₀ d) : Evolves μ d₀ (lookup p d).2 := by
  unfold lookup
  dsimp only
  split
  · exact h.access.putLine.count
  · split
    · exact h.access.count.swapBack
    · exact h.access.count

protected theorem Evolves.fillTable {k : Nat} {c : Coh} (h : Evolves μ d₀ d) : Evolves μ d₀ (fillTable k c d) :=
  h.fillLine

protected theorem Evolves.setCoh {k : Nat} {c : Coh} (h : Evolves μ d₀ d) : Evolves μ d₀ (setCoh k c d) := by
  unfold setCoh
  exact h.dropLines.ite h.mapLines

protected theorem Evolves.askLine {k : Nat} {exclusive : Bool} (h : Evolves μ d₀ d) : Evolves μ d₀ (askLine k exclusive d) := by
  unfold askLine
  exact h.ite h.updCache.sendMsg

protected theorem Evolves.obtainLine {k : Nat} {exclusive : Bool} (h : Evolves μ d₀ d) : Evolves μ d₀ (obtainLine k exclusive d).2 := by
  unfold obtainLine
  split
  next e =>
    replace h := h.lookup.ofPair e
    split
    · split
      · exact h.when .setCoh
      · split
        · exact h.askLine
        · dsimp only
          exact h.setCoh
    · split
      · exact h.askLine
      · exact h.fillTable

protected theorem Evolves.updStream {s : Nat} {f : StreamRec → StreamRec} (h : Evolves μ d₀ d) : Evolves μ d₀ (updStream s f d) := by
  unfold updStream
  exact h.mapLines.ite (h.updCache.ite h.updCache)

protected theorem Evolves.wakeLine {k : Nat} (h : Evolves .any d₀ d) : Evolves .any d₀ (wakeLine k d) := by
  unfold wakeLine
  exact h.hif

protected theorem Evolves.answerReq_exclusive {k : Nat} {c : Coh} {recs : TableRecs} {poison : BitVec 32} (h : Evolves .any d₀ d) :
    Evolves .any d₀ (answerReq.exclusive k d c recs poison) := by
  unfold answerReq.exclusive
  split
  · exact h.sendMsg.setCoh
  · exact h.sendMsg.setCoh
  · exact h.sendMsg.setCoh
  · exact h.sendMsg

protected theorem Evolves.answerReq {k : Nat} {r : CohReq} (h : Evolves .any d₀ d) : Evolves .any d₀ (answerReq k r d) := by
  unfold answerReq
  split
  · exact h.sendMsg.count.raise
  · dsimp only
    split
    · split
      · exact h.sendMsg.storeTable.setCoh
      · exact h.sendMsg.setCoh
      · exact h.sendMsg
      · exact h.sendMsg
    · exact h.answerReq_exclusive
    · exact h.answerReq_exclusive

protected theorem Evolves.takeRequest {k : Nat} {r : CohReq} (h : Evolves .any d₀ d) : Evolves .any d₀ (takeRequest k r d) := by
  unfold takeRequest
  exact h.ite (h.updCache.ite h.answerReq)

protected theorem Evolves.answerDeferred {k : Nat} (h : Evolves .any d₀ d) : Evolves .any d₀ (answerDeferred k d) := by
  unfold answerDeferred
  exact h.updCache.foldl .answerReq

protected theorem Evolves.grantLine {k : Nat} {c : Coh} {recs : TableRecs} {poison : BitVec 32} (h : Evolves .any d₀ d) :
    Evolves .any d₀ (grantLine k c recs poison d) := by
  unfold grantLine
  exact (h.updCache.mapLines.ite h.updCache.fillLine).wakeLine |>.answerDeferred

protected theorem Evolves.zeroTable {k : Nat} (h : Evolves μ d₀ d) : Evolves μ d₀ (zeroTable k d) := by
  unfold zeroTable
  exact h.mapLines.ite h.fillLine

protected theorem Evolves.rangeAlone (h : Evolves .any d₀ d) : Evolves .any d₀ (rangeAlone d) := by
  unfold rangeAlone
  split
  · exact (h.foldl (fun h => h.setCoh.ite h)).updCache
  · exact (h.foldl .zeroTable).updCache
  · exact h

protected theorem Evolves.abandonCoherence (h : Evolves .any d₀ d) : Evolves .any d₀ (abandonCoherence d) := by
  unfold abandonCoherence
  exact (h.updCache.rangeAlone.foldl (fun h => h.wakeLine)).when .raise

protected theorem Evolves.cleanLines (h : Evolves μ d₀ d) : Evolves μ d₀ (cleanLines d).1 := by
  unfold cleanLines
  exact h.foldl fun h => h.storeTable.updCache.sendMsg.ite h.storeTable.setCoh

protected theorem Evolves.startRange_purge {op : RangeOp} (h : Evolves μ d₀ d) : Evolves μ d₀ (startRange.purge op d) := by
  unfold startRange.purge
  exact h.dropLines.updCache

protected theorem Evolves.startRange {op : RangeOp} (h : Evolves μ d₀ d) : Evolves μ d₀ (startRange op d) := by
  unfold startRange
  split
  · exact h.startRange_purge
  · exact h.startRange_purge
  · exact h.cleanLines.updCache
  · exact h.askLine.updCache.ite h.zeroTable.updCache

protected theorem Evolves.rangeCommand {op : RangeOp} {code : Nat} (h : Evolves .any d₀ d) : Evolves .any d₀ (rangeCommand op code d) := by
  unfold rangeCommand
  exact h.updCache.raise.ite h.setRegF.startRange

theorem execInvalidate_completing {s : State} {who : Requester} : Completing s (execInvalidate who s) :=
  .effect fun h => h.gate .rangeCommand

theorem execClean_completing {s : State} {who : Requester} : Completing s (execClean who s) :=
  .effect fun h => h.gate .rangeCommand

theorem execPurgeOwner_completing {s : State} {who : Requester} : Completing s (execPurgeOwner who s) :=
  .effect fun h => h.gate .rangeCommand

theorem execZeroLine_completing {s : State} {who : Requester} : Completing s (execZeroLine who s) :=
  .effect fun h => h.gate .rangeCommand

theorem execAgeingTick_completing {s : State} : Completing s (execAgeingTick s) :=
  .effect fun h => h.onlyIf .ageAll

protected theorem Evolves.fillWaiting (h : Evolves .any d₀ d) : Evolves .any d₀ (fillWaiting d) := by
  unfold fillWaiting
  split
  · exact h
  · split
    · next e => exact h.chooseLine.ofPair e
    · next e => exact (h.chooseLine.ofPair e).updCache |>.replaceLine |>.when fun h => h.wakeLine

theorem execFillAfterWait_completing {s : State} : Completing s (execFillAfterWait s) :=
  .effect fun h => h.fillWaiting

theorem execTableLineBusyClear_completing {s : State} {k : Nat} : Completing s (execTableLineBusyClear k s) :=
  .effect fun h => h.mapLines.unless .answerDeferred

theorem execRd_completing {s : State} {cr : Credits} {k : Nat} : Completing s (execRd cr k s) :=
  .effect fun h => h.receive .takeRequest

theorem execOwn_completing {s : State} {cr : Credits} {k : Nat} : Completing s (execOwn cr k s) :=
  .effect fun h => h.receive .takeRequest

theorem execUpg_completing {s : State} {cr : Credits} {k : Nat} : Completing s (execUpg cr k s) :=
  .effect fun h => h.receive .takeRequest

theorem execEvicting_completing {s : State} {cr : Credits} {k : Nat} : Completing s (execEvicting cr k s) :=
  .effect fun h => h.receive fun h => h.onlyIf (fun h => h.count.raise)

/-! ### The definitions of Sys2Proof/Machine/Records.lean -/

protected theorem Evolves.updRcl {f : RecordLayer → RecordLayer} (h : Evolves μ d₀ d) : Evolves μ d₀ (updRcl f d) := by
  unfold updRcl
  exact h.rcl

protected theorem Evolves.updWrc {f : WriteChannel → WriteChannel} (h : Evolves μ d₀ d) : Evolves μ d₀ (updWrc f d) := by
  unfold updWrc
  exact h.wrc

protected theorem Evolves.updRing {o : Nat} {f : Machine.Ring → Machine.Ring} (h : Evolves μ d₀ d) : Evolves μ d₀ (updRing o f d) := by
  unfold updRing
  exact h.updRcl

protected theorem Evolves.updGroup {id : Nat} {f : Machine.Group → Machine.Group} (h : Evolves .any d₀ d) :
    Evolves .any d₀ (updGroup id f d) := by
  unfold updGroup
  exact h.updRcl

protected theorem Evolves.updSlot {n : Nat} {f : Slot → Slot} (h : Evolves μ d₀ d) : Evolves μ d₀ (updSlot n f d) := by
  unfold updSlot
  exact h.cry

protected theorem Evolves.changeStream {s : Nat} {f : StreamRec → StreamRec} (h : Evolves μ d₀ d) :
    Evolves μ d₀ (changeStream s f d).2 := by
  unfold changeStream
  split
  · next e => exact (h.obtainLine.ofPair e).updStream
  · next e => exact h.obtainLine.ofPair e

protected theorem Evolves.runTask {t : TableTask} (h : Evolves μ d₀ d) : Evolves μ d₀ (runTask t d) := by
  unfold runTask
  split
  · next e => exact h.changeStream.ofPair e
  · next e => exact (h.changeStream.ofPair e).updRcl

protected theorem Evolves.runTasks (h : Evolves .any d₀ d) : Evolves .any d₀ (runTasks d) := by
  unfold runTasks
  exact h.updRcl.foldl .runTask

protected theorem Evolves.nameNext {o : Nat} (h : Evolves μ d₀ d) : Evolves μ d₀ (nameNext o d) := by
  unfold nameNext
  split
  · exact h.updRing.raise
  · exact h.updRing.updRcl.excTake.ite (h.updRing.updRcl.when .excEnd)

protected theorem Evolves.useSpare {l : Loc} {p : Nat} (h : Evolves .any d₀ d) : Evolves .any d₀ (useSpare l p d) := by
  unfold useSpare
  exact h.updRcl

protected theorem Evolves.useSparesTo {layer zone e : Nat} (h : Evolves .any d₀ d) : Evolves .any d₀ (useSparesTo layer zone e d) := by
  unfold useSparesTo
  exact h.updRcl

protected theorem Evolves.noteMove {a b : Loc} (h : Evolves .any d₀ d) : Evolves .any d₀ (noteMove a b d) := by
  unfold noteMove
  exact h.updRcl

protected theorem Evolves.movePieces {a b : Loc} (h : Evolves .any d₀ d) : Evolves .any d₀ (movePieces a b d) := by
  unfold movePieces
  exact h.updRcl

protected theorem Evolves.takeId (h : Evolves μ d₀ d) : Evolves μ d₀ (takeId d) := by
  unfold takeId
  exact h.updWrc

protected theorem Evolves.queueCluster {c : WriteCluster} (h : Evolves μ d₀ d) : Evolves μ d₀ (queueCluster c d) := by
  unfold queueCluster
  exact h.updWrc

protected theorem Evolves.systemCluster {kind : ClusterKind} {data : List Byte} {dir : Sparse DirSlot} {rings : List DirRing}
    (h : Evolves μ d₀ d) :
    Evolves μ d₀ (systemCluster kind data dir rings d).2 := by
  unfold systemCluster
  exact h.updRing.takeId.queueCluster

protected theorem Evolves.writeDirectory (h : Evolves μ d₀ d) : Evolves μ d₀ (writeDirectory d).2 := by
  unfold writeDirectory
  exact h.systemCluster

protected theorem Evolves.locatePieces {id : Nat} {l : Loc} (h : Evolves .any d₀ d) : Evolves .any d₀ (locatePieces id l d) := by
  unfold locatePieces
  exact h.updRcl

protected theorem Evolves.placeCheckpoint {o : Nat} {z : Zone} (h : Evolves .any d₀ d) : Evolves .any d₀ (placeCheckpoint o z d) := by
  unfold placeCheckpoint
  exact h.updRing.takeId.queueCluster

protected theorem Evolves.placeData {o : Nat} {z : Zone} {c : WriteCluster} (h : Evolves .any d₀ d) :
    Evolves .any d₀ (placeData o z c d) := by
  unfold placeData
  exact h.updRing.updRcl.queueCluster.locatePieces

protected theorem Evolves.placeCluster {o : Nat} {c : WriteCluster} (h : Evolves .any d₀ d) : Evolves .any d₀ (placeCluster o c d) := by
  unfold placeCluster
  dsimp only
  split
  · exact h.updRing
  · exact h.updRing.ite ((h.placeCheckpoint.ite h).andThen (fun h => h.updRing.ite h.placeData))

protected theorem Evolves.placeWaiting {o : Nat} (h : Evolves .any d₀ d) : Evolves .any d₀ (placeWaiting o d) := by
  unfold placeWaiting
  exact h.updRing.foldl .placeCluster

protected theorem Evolves.closeAssembly {o : Nat} (h : Evolves .any d₀ d) : Evolves .any d₀ (closeAssembly o d) := by
  unfold closeAssembly
  split
  · exact h
  · exact h.updRing.updRcl.placeCluster

protected theorem Evolves.openAssembly {o : Nat} (h : Evolves .any d₀ d) : Evolves .any d₀ (openAssembly o d).2 := by
  unfold openAssembly
  split
  · exact h
  · exact h.updRing.takeId

protected theorem Evolves.layBytes {o gid stream seq n start : Nat} {first cont : Bool} {bs : List Byte} (h : Evolves .any d₀ d) :
    Evolves .any d₀ (layBytes o gid stream seq n first cont start bs d) := by
  induction n generalizing first cont start bs d with
  | zero => exact h
  | succ n ih =>
    unfold layBytes
    exact h.ite (h.openAssembly.andThen fun h => (ih h.closeAssembly).ite
      ((ih h.closeAssembly).ite (h.edit.andThen fun h => ih (h.closeAssembly.ite h))))

protected theorem Evolves.endGroup {o gid : Nat} (h : Evolves .any d₀ d) : Evolves .any d₀ (endGroup o gid d) := by
  unfold endGroup
  split
  · exact h
  · split
    · exact h
    · exact h.updRing.updWrc

protected theorem Evolves.closeIfDue {o : Nat} (h : Evolves .any d₀ d) : Evolves .any d₀ (closeIfDue o d) := by
  unfold closeIfDue
  split
  · exact h
  · exact h.closeAssembly.ite h

protected theorem Evolves.placeGroup {o gid : Nat} (h : Evolves .any d₀ d) : Evolves .any d₀ (placeGroup o gid d) := by
  unfold placeGroup
  split
  · exact h
  · exact (h.foldl .layBytes).endGroup |>.closeIfDue

protected theorem Evolves.rechain {stream : Nat} (h : Evolves .any d₀ d) : Evolves .any d₀ (rechain stream d) :=
  h.foldlPair fun h => h.edit

protected theorem Evolves.addGroup {stream owner first : Nat} {recs : List RecInfo} {bytes : List Byte} {role : GroupRole}
    (h : Evolves .any d₀ d) : Evolves .any d₀ (addGroup stream owner first recs bytes role d).2 := by
  unfold addGroup
  dsimp only
  exact h.updRcl

protected theorem Evolves.sendGroup {xid : Nat} {catching : Bool} {mark : Nat} {g : Machine.Group} {bs : List Byte} {poison : BitVec 32}
    (h : Evolves .any d₀ d) :
    Evolves .any d₀ (sendGroup xid catching mark g bs poison d) := by
  unfold sendGroup
  exact h.updGroup.updLath.sendMsg.foldl .sendMsg

protected theorem Evolves.pumpMirror {n : Nat} (h : Evolves .any d₀ d) : Evolves .any d₀ (pumpMirror n d) := by
  induction n generalizing d with
  | zero => exact h
  | succ n ih =>
    unfold pumpMirror
    split
    · exact (ih h.sendGroup).ite (ih h.edit.sendGroup)
    · exact h

protected theorem Evolves.closeXid {xid : Nat} (h : Evolves .any d₀ d) : Evolves .any d₀ (closeXid xid d) :=
  h.updLath.pumpMirror

protected theorem Evolves.voidGroup {id : Nat} (h : Evolves .any d₀ d) : Evolves .any d₀ (voidGroup id d) := by
  unfold voidGroup
  split
  · exact h
  · exact h.ite (h.updGroup.when (fun h => h.count.raise.rechain))

protected theorem Evolves.completeGroup {g : Machine.Group} (h : Evolves .any d₀ d) : Evolves .any d₀ (completeGroup g d) := by
  unfold completeGroup
  split
  · exact (h.updCmd.ite h).finishWith
  · exact h

protected theorem Evolves.notePeerHead {g : Machine.Group} (h : Evolves .any d₀ d) : Evolves .any d₀ (notePeerHead g d) := by
  unfold notePeerHead
  split
  · exact h.updLath
  · exact h

protected theorem Evolves.commitGroup {g : Machine.Group} (h : Evolves .any d₀ d) : Evolves .any d₀ (commitGroup g d).2 := by
  unfold commitGroup
  split
  · next e => exact (h.changeStream.ofPair e).updGroup |>.count |>.notePeerHead |>.completeGroup
  · next e => exact h.changeStream.ofPair e

protected theorem Evolves.payGroup {g : Machine.Group} (h : Evolves .any d₀ d) : Evolves .any d₀ (payGroup d g) := by
  unfold payGroup
  split
  · exact h.updGroup.finishWith
  · exact h

protected theorem Evolves.payOwed (h : Evolves .any d₀ d) : Evolves .any d₀ (payOwed d) := by
  unfold payOwed
  exact h.foldl .payGroup

protected theorem Evolves.commitReady {n : Nat} (h : Evolves .any d₀ d) : Evolves .any d₀ (commitReady n d) := by
  induction n generalizing d with
  | zero => exact h.payOwed
  | succ n ih =>
    unfold commitReady
    dsimp only
    split
    · exact h.payOwed
    · split
      · next e => exact ih (h.payOwed.commitGroup.ofPair e)
      · next e => exact h.payOwed.commitGroup.ofPair e

protected theorem Evolves.settleGroups (h : Evolves .any d₀ d) : Evolves .any d₀ (settleGroups d) :=
  h.commitReady

protected theorem Evolves.listGap {g : Machine.Group} {xid st : Nat} (h : Evolves .any d₀ d) : Evolves .any d₀ (listGap g xid st d) := by
  unfold listGap
  exact (h.updGroup.ite (h.updGroup.updLath.sendMsg.ite h)).sendMsg |>.raise

protected theorem Evolves.failLeader {g : Machine.Group} {t st : Nat} (h : Evolves .any d₀ d) : Evolves .any d₀ (failLeader g t st d) := by
  unfold failLeader
  exact (h.voidGroup.updGroup.ite h.voidGroup.finishWith).settleGroups

protected theorem Evolves.failGroup {id st : Nat} (h : Evolves .any d₀ d) : Evolves .any d₀ (failGroup id st d) := by
  unfold failGroup
  split
  · exact h
  · split
    · exact h
    · split
      · refine .andThen ?_ fun h => h.failLeader
        split
        · exact h.sendMsg.closeXid
        · exact h
      · exact h.sendMsg.voidGroup.settleGroups
      · exact h.listGap
      · exact h.voidGroup

protected theorem Evolves.failCluster {c : WriteCluster} {st : Nat} (h : Evolves .any d₀ d) : Evolves .any d₀ (failCluster c st d) := by
  unfold failCluster
  exact h.foldl .failGroup

protected theorem Evolves.groupVerified {g : Machine.Group} (h : Evolves .any d₀ d) : Evolves .any d₀ (groupVerified g d) := by
  unfold groupVerified
  dsimp only
  split
  · exact h.updGroup
  · exact h.updGroup.sendMsg
  · exact h.updGroup.updLath.sendMsg
  · exact h.updGroup

protected theorem Evolves.groupPassed {id gid : Nat} (h : Evolves .any d₀ d) : Evolves .any d₀ (groupPassed id gid d) := by
  unfold groupPassed
  dsimp only
  split
  · exact h.updGroup.when .groupVerified
  · exact h.updGroup

protected theorem Evolves.failWaiting {o : Nat} (h : Evolves .any d₀ d) : Evolves .any d₀ (failWaiting o d) := by
  unfold failWaiting
  exact h.ite (h.updRing.raise.foldl .failCluster)

protected theorem Evolves.pumpFull (h : Evolves .any d₀ d) : Evolves .any d₀ (pumpFull d) := by
  unfold pumpFull
  exact h.foldl .failWaiting

protected theorem Evolves.reclaimZone {o : Nat} {z : Zone} (h : Evolves .any d₀ d) : Evolves .any d₀ (reclaimZone o z d) := by
  unfold reclaimZone
  exact h.ite (h.foldl (fun h => h.runTask.ite h))

protected theorem Evolves.askGaps (h : Evolves .any d₀ d) : Evolves .any d₀ (askGaps d) := by
  unfold askGaps
  exact h.foldl fun h => h.updLath.sendMsg

protected theorem Evolves.enterZone {o : Nat} (h : Evolves .any d₀ d) : Evolves .any d₀ (enterZone o d) := by
  unfold enterZone
  split
  · exact h.updRing
  · exact h.reclaimZone.updRing.updRcl.updSlot.raise.placeWaiting.askGaps

protected theorem Evolves.beginEntry {o : Nat} (h : Evolves .any d₀ d) : Evolves .any d₀ (beginEntry o d) := by
  unfold beginEntry
  exact (h.ite (h.updRing.ite h.nameNext)).andThen fun h => h.updRing.failWaiting.ite h.writeDirectory.updRing

protected theorem Evolves.entryPassed {o : Nat} (h : Evolves .any d₀ d) : Evolves .any d₀ (entryPassed o d) := by
  unfold entryPassed
  exact h.enterZone.ite h.beginEntry

theorem execZoneEntry_completing {s : State} {owner : Nat} : Completing s (execZoneEntry owner s) :=
  .effect fun h => h.onlyIf .beginEntry

protected theorem Evolves.nameAfterEntry {o : Nat} (h : Evolves .any d₀ d) : Evolves .any d₀ (nameAfterEntry o d) :=
  h.updRing.nameNext.writeDirectory

theorem execNextZoneNaming_completing {s : State} {owner : Nat} : Completing s (execNextZoneNaming owner s) :=
  .effect fun h => h.onlyIf .nameAfterEntry

theorem execAssemblyDelayExpiry_completing {s : State} {owner : Nat} : Completing s (execAssemblyDelayExpiry owner s) :=
  .effect fun h => h.onlyIf .closeAssembly

/-! ### The definitions of Sys2Proof/Machine/FlashStore.lean -/

protected theorem Evolves.updFls {f : Flash → Flash} (h : Evolves μ d₀ d) : Evolves μ d₀ (updFls f d) := by
  unfold updFls
  exact h.fls

protected theorem Evolves.eraseSectorAt {n : Nat} (h : Evolves μ d₀ d) : Evolves μ d₀ (eraseSectorAt n d) := by
  unfold eraseSectorAt
  exact h.updFls

protected theorem Evolves.programAt {a : Nat} {bs : List Byte} (h : Evolves μ d₀ d) : Evolves μ d₀ (programAt a bs d) := by
  unfold programAt
  exact h.updFls

protected theorem Evolves.writeSlotCopy {copyB : Bool} {n : Nat} {bs : List Byte} (h : Evolves μ d₀ d) :
    Evolves μ d₀ (writeSlotCopy copyB n bs d) := by
  unfold writeSlotCopy
  exact h.eraseSectorAt.programAt

protected theorem Evolves.writeSlotRecord {n : Nat} {r : SlotRecord} (h : Evolves μ d₀ d) : Evolves μ d₀ (writeSlotRecord n r d) := by
  unfold writeSlotRecord
  exact h.writeSlotCopy.writeSlotCopy

protected theorem Evolves.clearSlotState {copyB : Bool} {n : Nat} (h : Evolves .any d₀ d) : Evolves .any d₀ (clearSlotState copyB n d) := by
  unfold clearSlotState
  exact h.updFls

protected theorem Evolves.destroySlotRecord {n : Nat} (h : Evolves μ d₀ d) : Evolves μ d₀ (destroySlotRecord n d) := by
  unfold destroySlotRecord
  exact h.writeSlotCopy.writeSlotCopy

/-! ### The definitions of Sys2Proof/Machine/Owners.lean -/

protected theorem Evolves.updCry {f : Crypto → Crypto} (h : Evolves μ d₀ d) : Evolves μ d₀ (updCry f d) := by
  unfold updCry
  exact h.cry

protected theorem Evolves.randomDraw (h : Evolves μ d₀ d) : Evolves μ d₀ (randomDraw d).2 := by
  unfold randomDraw
  dsimp only
  exact h.updCry

protected theorem Evolves.installSlot {n keygen quota tick : Nat} {flags : BitVec 8} {key : BitVec 256} {load : Bool} (h : Evolves μ d₀ d) :
    Evolves μ d₀ (installSlot n keygen quota tick flags key load d) := by
  unfold installSlot
  exact h.writeSlotRecord.updSlot

protected theorem Evolves.sendKey {n : Nat} (h : Evolves μ d₀ d) : Evolves μ d₀ (sendKey n d) := by
  unfold sendKey
  split
  · exact h
  · split
    · exact h
    · exact h.sendMsg

protected theorem Evolves.setOp {i : Nat} {o : OwnerOp} (h : Evolves μ d₀ d) : Evolves μ d₀ (setOp i o d) := by
  unfold setOp
  exact h.updCry

protected theorem Evolves.endOp {i n : Nat} (h : Evolves μ d₀ d) : Evolves μ d₀ (endOp i n d) := by
  unfold endOp
  exact h.updCry.updSlot

protected theorem Evolves.finishOp {o : OwnerOp} {st result : Nat} (h : Evolves μ d₀ d) : Evolves μ d₀ (finishOp o st result d) := by
  unfold finishOp
  split
  · exact h
  · exact h.finishWith

protected theorem Evolves.assignZones {n q : Nat} (h : Evolves μ d₀ d) : Evolves μ d₀ (assignZones n q d) :=
  h.updRcl.updRing.nameNext

protected theorem Evolves.freeRing {n : Nat} (h : Evolves .any d₀ d) : Evolves .any d₀ (freeRing n d) := by
  unfold freeRing
  exact h.updRing.updRcl

protected theorem Evolves.destroyOwner {n : Nat} (h : Evolves μ d₀ d) : Evolves μ d₀ (destroyOwner n d) := by
  unfold destroyOwner
  exact (h.foldl (fun h => h.runTask.ite h)).updSlot |>.destroySlotRecord |>.updSlot

protected theorem Evolves.retireMark {n : Nat} (h : Evolves .any d₀ d) : Evolves .any d₀ (retireMark n d) := by
  unfold retireMark
  exact h.clearSlotState.clearSlotState.updSlot

protected theorem Evolves.advanceOp {n i : Nat} (h : Evolves μ d₀ d) : Evolves μ d₀ (advanceOp n i d) := by
  induction n generalizing i d with
  | zero => exact h
  | succ n ih =>
    unfold advanceOp
    split
    · exact h
    · split
      · exact (h.ite h.setRegF.setRegF.startRange.setOp).ite (h.ite (h.randomDraw.installSlot.andThen fun h =>
          (ih h.sendKey.setOp).ite (ih h.setOp)))
      · exact h.assignZones.writeDirectory.setOp.ite h
      · exact h
      · exact h.ite h.destroyOwner.writeDirectory.setOp
      · exact h
      · exact ((h.ite h.updSlot.raise).finishOp.endOp).ite h
      · refine (h.ite h.setRegF.setRegF.startRange.setOp).ite (h.ite ?_)
        split
        · exact (h.sendMsg.ite h).endOp
        · exact h.installSlot.andThen fun h => (h.sendMsg.ite h).endOp.ite
            (h.assignZones.writeDirectory.setOp.ite (h.sendMsg.ite h).endOp)
      · exact h

protected theorem Evolves.pumpOps (h : Evolves μ d₀ d) : Evolves μ d₀ (pumpOps d) := by
  unfold pumpOps
  induction List.range d.cry.ops.length with
  | nil => exact h
  | cons i l ih => exact ih.advanceOp

protected theorem Evolves.opWritten {i : Nat} (h : Evolves .any d₀ d) : Evolves .any d₀ (opWritten i d) := by
  unfold opWritten
  split
  · exact h
  · split
    · exact h.updSlot.raise.finishOp.endOp
    · exact h.freeRing.raise.andThen fun h => h.sendMsg.endOp.ite h.setOp.advanceOp
    · exact h.sendMsg.endOp
    · exact h

protected theorem Evolves.opsWritten {id : Nat} (h : Evolves .any d₀ d) : Evolves .any d₀ (opsWritten id d) := by
  unfold opsWritten
  split
  · exact h.opWritten
  · exact h

protected theorem Evolves.startOp {step : OwnerStep} {tag : Option Nat} (h : Evolves μ d₀ d) : Evolves μ d₀ (startOp step tag d) :=
  h.updSlot.updCry.pumpOps

protected theorem Evolves.createOwner {tag n q : Nat} {flags : BitVec 8} (h : Evolves .any d₀ d) :
    Evolves .any d₀ (createOwner tag n q flags d) := by
  unfold createOwner
  exact h.raise.finish.ite h.startCmd.setPhase.startOp

protected theorem Evolves.retireOwner {tag : Option Nat} {n : Nat} (h : Evolves .any d₀ d) : Evolves .any d₀ (retireOwner tag n d) := by
  unfold retireOwner
  exact (h.retireMark.when .sendMsg).startOp

protected theorem Evolves.noteRetire {n : Nat} (h : Evolves .any d₀ d) : Evolves .any d₀ (noteRetire n d) := by
  unfold noteRetire
  exact h.retireOwner.ite (h.writeSlotRecord.retireOwner.ite (h.sendMsg.ite h))

theorem execOwnerNote_completing {s : State} {cr : Credits} {slot : Nat} : Completing s (execOwnerNote cr slot s) :=
  .effect fun h => h.receive fun h => h.onlyIf .noteRetire

protected theorem Evolves.peerDoneOp {n code : Nat} (h : Evolves .any d₀ d) : Evolves .any d₀ (peerDoneOp n code d) := by
  unfold peerDoneOp
  split
  · exact h.updSlot.ite (h.updSlot.ite h)
  · split
    · exact h
    · split
      · split
        · exact h.retireMark.setOp.advanceOp
        · exact h
      · exact h.setOp.advanceOp

theorem execOwnerDone_completing {s : State} {cr : Credits} {slot code : Nat} : Completing s (execOwnerDone cr slot code s) :=
  .effect fun h => h.receive fun h => h.onlyIf .peerDoneOp

protected theorem Evolves.ownersLeaveTopcoat (h : Evolves .any d₀ d) : Evolves .any d₀ (ownersLeaveTopcoat d) := by
  unfold ownersLeaveTopcoat
  refine .andThen ?_ fun h => h.pumpOps
  refine h.foldl fun h => ?_
  split
  · exact h
  · split
    · exact h
    · split
      · exact h.setOp.updSlot.raise
      · exact h.setOp.updSlot.raise
      · exact h.setOp.updSlot.raise
      · exact h.setOp

protected theorem Evolves.ownersAttach (h : Evolves .any d₀ d) : Evolves .any d₀ (ownersAttach d) := by
  unfold ownersAttach
  refine h.foldl fun h => ?_
  dsimp only
  split
  · exact (h.sendMsg.updSlot.ite h).sendKey |>.updSlot
  · exact (h.sendMsg.updSlot.ite h).sendMsg
  · exact (h.sendMsg.updSlot.ite h).sendMsg
  · exact h.sendMsg.updSlot.ite h

protected theorem Evolves.createOwner0 (h : Evolves .any d₀ d) : Evolves .any d₀ (createOwner0 d) := by
  unfold createOwner0
  exact h.dropLines.randomDraw.installSlot

protected theorem Evolves.setCartReg {l : List (BitVec 64)} (h : Evolves .any d₀ d) : Evolves .any d₀ (setCartReg l d) := by
  unfold setCartReg
  exact h.updCry.nv

protected theorem Evolves.enterSerial {serial : BitVec 64} (h : Evolves .any d₀ d) : Evolves .any d₀ (enterSerial serial d) := by
  unfold enterSerial
  exact h.ite h.setCartReg

protected theorem Evolves.rngFailed (h : Evolves .any d₀ d) : Evolves .any d₀ (rngFailed d) := by
  unfold rngFailed
  exact (h.updCry.foldl (fun h => h.finishOp.updSlot)).updCry |>.raise

theorem execRngHealthFail_completing {s : State} : Completing s (execRngHealthFail s) :=
  .effect fun h => h.rngFailed

protected theorem Evolves.abandonCommission (h : Evolves .any d₀ d) : Evolves .any d₀ (abandonCommission d) := by
  unfold abandonCommission
  dsimp only
  refine .raise ?_
  split
  · refine .finish ?_
    split
    · exact h.updCry.updLath.finish
    · exact h.updCry.updLath
  · split
    · exact h.updCry.updLath.finish
    · exact h.updCry.updLath

protected theorem Evolves.agreeKey {c : Commission} {point : List Byte} (h : Evolves .any d₀ d) : Evolves .any d₀ (agreeKey c point d) := by
  unfold agreeKey
  split
  · exact h.abandonCommission
  · dsimp only
    split
    · exact h.updCry.raise.finishOk
    · exact h.updCry.raise

protected theorem Evolves.beginCommission {tag : Nat} (h : Evolves .any d₀ d) : Evolves .any d₀ (beginCommission tag d) := by
  unfold beginCommission
  dsimp only
  split
  · exact h.updCry.updLath.startCmd.setPhase.sendMsg.agreeKey
  · exact h.updCry.updLath.startCmd.setPhase.sendMsg

theorem execPairPoint_completing {s : State} {cr : Credits} {point : List Byte} : Completing s (execPairPoint cr point s) := by
  refine .effect fun h => ?_
  refine h.receive fun h => ?_
  refine h.onlyIf fun h => ?_
  split
  · exact h.agreeKey.ite h
  · exact h.updCry

protected theorem Evolves.storePair {c : Commission} (h : Evolves .any d₀ d) : Evolves .any d₀ (storePair c d) := by
  unfold storePair
  split
  · exact h
  · split
    · exact h.abandonCommission
    · dsimp only
      refine .raise ?_
      split
      · exact (h.updCry.nv.when (fun h => h.createOwner0.setCartReg)).when (fun h => (h.foldl (fun h => h.sendKey.ite h)).sendMsg)
          |>.finishOk
      · exact (h.updCry.nv.when (fun h => h.createOwner0.setCartReg)).when fun h => (h.foldl (fun h => h.sendKey.ite h)).sendMsg

protected theorem Evolves.confirmCode {tag code : Nat} (h : Evolves .any d₀ d) : Evolves .any d₀ (confirmCode tag code d) := by
  unfold confirmCode
  split
  · exact h.finish
  · exact h.startCmd.setPhase.andThen fun h => h.updCry.abandonCommission.ite (h.updCry.sendMsg.when .storePair)

protected theorem Evolves.takeConfirm {code : Nat} {peerKeys : Bool} (h : Evolves .any d₀ d) :
    Evolves .any d₀ (takeConfirm code peerKeys d) := by
  unfold takeConfirm
  split
  · exact h.sendMsg
  · exact h.sendMsg.abandonCommission.ite (h.updCry.sendMsg.when .storePair)

theorem execPairConfirm_completing {s : State} {cr : Credits} {code : Nat} {peerKeys : Bool} :
    Completing s (execPairConfirm cr code peerKeys s) :=
  .effect fun h => h.receive fun h => h.onlyIf .takeConfirm

theorem execPairConfirmAck_completing {s : State} {cr : Credits} {equal : Bool} : Completing s (execPairConfirmAck cr equal s) :=
  .effect fun h => h.receive fun h => h.onlyIf .abandonCommission

theorem execCommissionTimeout_completing {s : State} : Completing s (execCommissionTimeout s) :=
  .effect fun h => h.onlyIf .abandonCommission

protected theorem Evolves.recallGenerations (h : Evolves μ d₀ d) : Evolves μ d₀ (recallGenerations d) := by
  unfold recallGenerations
  refine h.foldl fun h => ?_
  split
  · exact h.updSlot
  · exact h

protected theorem Evolves.restoreBare {n : Nat} {erased : Bool} (h : Evolves .any d₀ d) : Evolves .any d₀ (restoreBare n erased d) := by
  unfold restoreBare
  exact (h.eraseSectorAt.eraseSectorAt.ite h.destroySlotRecord).updSlot |>.recallGenerations

protected theorem Evolves.takeActive {n : Nat} {r : SlotRecord} (h : Evolves .any d₀ d) : Evolves .any d₀ (takeActive n r d) := by
  unfold takeActive
  exact h.startOp.ite (h.sendMsg.ite (h.sendMsg.ite h))

protected theorem Evolves.takeKey {n : Nat} {r : SlotRecord} (h : Evolves .any d₀ d) : Evolves .any d₀ (takeKey n r d) := by
  unfold takeKey
  exact (h.restoreBare.ite h).ite h.takeActive

theorem execKeyXfer_completing {s : State} {cr : Credits} {slot : Nat} {rec : SlotRecord} : Completing s (execKeyXfer cr slot rec s) :=
  .effect fun h => h.receive .takeKey

theorem execCartReg_completing {s : State} {cr : Credits} {serials : List (BitVec 64)} : Completing s (execCartReg cr serials s) :=
  .effect fun h => h.receive fun h => h.onlyIf (fun h => h.setCartReg)

protected theorem Evolves.exportKey {tag n : Nat} {point : List Byte} (h : Evolves .any d₀ d) :
    Evolves .any d₀ (exportKey tag n point d) := by
  unfold exportKey
  split
  · exact h.finish
  · exact h.finish.ite h.updCry.deliverData.finishOk.raise

/-! ### The definitions of Sys2Proof/Machine/Coherence.lean -/

protected theorem Evolves.pumpAll (h : Evolves .any d₀ d) : Evolves .any d₀ (pumpAll d) :=
  h.runTasks.settleGroups.pumpOps

protected theorem Evolves.zeroGranted {k : Nat} (h : Evolves .any d₀ d) : Evolves .any d₀ (zeroGranted k d) := by
  unfold zeroGranted
  split
  · exact h.ite (h.zeroTable.updCache.ite h.askLine)
  · exact h

protected theorem Evolves.lineArrives {k : Nat} {c : Coh} {recs : TableRecs} {poison : BitVec 32} (h : Evolves .any d₀ d) :
    Evolves .any d₀ (lineArrives k c recs poison d) :=
  h.grantLine.zeroGranted.pumpAll

protected theorem Evolves.takeData {k : Nat} {c : Coh} {recs : TableRecs} {poison : BitVec 32} (h : Evolves .any d₀ d) :
    Evolves .any d₀ (takeData k c recs poison d) := by
  unfold takeData
  exact h.storeTable.lineArrives.ite h

theorem execData_completing {s : State} {cr : Credits} {k : Nat} {granted : Coh} {recs : TableRecs} {poison : BitVec 32} :
    Completing s (execData cr k granted recs poison s) :=
  .effect fun h => h.receive .takeData

protected theorem Evolves.takeNone {k : Nat} {c : Coh} (h : Evolves .any d₀ d) : Evolves .any d₀ (takeNone k c d) := by
  unfold takeNone
  exact h.lineArrives.ite h

theorem execNone_completing {s : State} {cr : Credits} {k : Nat} {granted : Coh} : Completing s (execNone cr k granted s) :=
  .effect fun h => h.receive .takeNone

protected theorem Evolves.whileTopcoat {f : Device → Device} (h : Evolves .any d₀ d) (hf : ∀
    {d}, Evolves .any d₀ d → Evolves .any d₀ (f d)) :
    Evolves .any d₀ (whileTopcoat f d) := by
  unfold whileTopcoat
  exact (hf h).ite h

protected theorem Evolves.takeEvict {k : Nat} (h : Evolves .any d₀ d) : Evolves .any d₀ (takeEvict k d) := by
  unfold takeEvict
  exact h.lineArrives.sendMsg.ite h.sendMsg

theorem execEvict_completing {s : State} {cr : Credits} {k : Nat} : Completing s (execEvict cr k s) :=
  .effect fun h => h.receive fun h => h.whileTopcoat .takeEvict

protected theorem Evolves.takeEvictD {k : Nat} {recs : TableRecs} {poison : BitVec 32} (h : Evolves .any d₀ d) :
    Evolves .any d₀ (takeEvictD k recs poison d) := by
  unfold takeEvictD
  exact h.storeTable.lineArrives.sendMsg.ite h.storeTable.sendMsg

theorem execEvictD_completing {s : State} {cr : Credits} {k : Nat} {recs : TableRecs} {poison : BitVec 32} :
    Completing s (execEvictD cr k recs poison s) :=
  .effect fun h => h.receive fun h => h.whileTopcoat .takeEvictD

theorem execCleanD_completing {s : State} {cr : Credits} {k : Nat} {recs : TableRecs} {poison : BitVec 32} :
    Completing s (execCleanD cr k recs poison s) :=
  .effect fun h => h.receive fun h => h.whileTopcoat (fun h => h.storeTable.sendMsg)

protected theorem Evolves.cleanAcked {k : Nat} (h : Evolves .any d₀ d) : Evolves .any d₀ (cleanAcked k d) := by
  unfold cleanAcked
  split
  · exact (h.updCache.when .setCoh).ite h
  · exact h

protected theorem Evolves.takeEvictAck {k : Nat} (h : Evolves .any d₀ d) : Evolves .any d₀ (takeEvictAck k d) :=
  h.updCache.cleanAcked.zeroGranted.wakeLine.pumpAll

theorem execEvictAck_completing {s : State} {cr : Credits} {k : Nat} : Completing s (execEvictAck cr k s) :=
  .effect fun h => h.receive .takeEvictAck

protected theorem Evolves.rangeDone (h : Evolves .any d₀ d) : Evolves .any d₀ (rangeDone d) :=
  h.updCache.raise.pumpAll

theorem execRangeOpDone_completing {s : State} : Completing s (execRangeOpDone s) := by
  refine .effect fun h => ?_
  split
  · exact h.onlyIf .rangeDone
  · exact h

/-! ### The definitions of Sys2Proof/Machine/ReadChannel.lean -/

protected theorem Evolves.updRdc {f : ReadChannel → ReadChannel} (h : Evolves .any d₀ d) : Evolves .any d₀ (updRdc f d) := by
  unfold updRdc
  exact h.rdc

protected theorem Evolves.updRead {id : Nat} {f : LadderCluster → LadderCluster} (h : Evolves .any d₀ d) :
    Evolves .any d₀ (updRead id f d) := by
  unfold updRead
  exact h.updRdc

protected theorem Evolves.sectorLookup {psa : Nat} (h : Evolves .any d₀ d) : Evolves .any d₀ (sectorLookup psa d).2 := by
  unfold sectorLookup
  extract_lets p
  split
  · split
    · split
      · next e => exact h.lookup.ofPair e
      · next e => exact h.lookup.ofPair e
    · dsimp only
      exact h.dropLines.count.lookup
  · exact h.lookup

protected theorem Evolves.fillSector {c : LadderCluster} {i : Nat} {block : List Byte} (h : Evolves .any d₀ d) :
    Evolves .any d₀ (fillSector c i block d) := by
  unfold fillSector
  split
  · exact h
  · exact h.ite h.fillLine

protected theorem Evolves.lookupWanted {id : Nat} (h : Evolves .any d₀ d) : Evolves .any d₀ (lookupWanted id d) := by
  unfold lookupWanted
  split
  · exact h
  · refine h.foldl fun h => ?_
    split
    · next e => exact (h.sectorLookup.ofPair e).updRead
    · next e => exact h.sectorLookup.ofPair e

protected theorem Evolves.seekLayer {l : Nat} (h : Evolves .any d₀ d) : Evolves .any d₀ (seekLayer l d) := by
  unfold seekLayer
  exact h.ite (h.servo.ite (h.servo.startJump.ite h.startAcquisition))

protected theorem Evolves.addRead {purpose : ReadFor} {loc : Loc} {parts : List (Nat × Nat × Nat)} (h : Evolves .any d₀ d) :
    Evolves .any d₀ (addRead purpose loc parts d) := by
  unfold addRead
  dsimp only
  split
  · exact h.updRdc.lookupWanted
  · exact h.updRdc.lookupWanted.when fun h => h.updRead.seekLayer

protected theorem Evolves.startRead {purpose : ReadFor} {parts : List (Loc × Nat × Nat × Nat)} (h : Evolves .any d₀ d) :
    Evolves .any d₀ (startRead purpose parts d) := by
  unfold startRead
  exact h.foldl .addRead

protected theorem Evolves.sramError {i : Nat} {records : BitVec 32} (h : Evolves .any d₀ d) : Evolves .any d₀ (sramError i records d) := by
  unfold sramError
  extract_lets l e
  split
  · exact h
  · split
    · exact h.mapLines
    · split
      exact h.dropLines.count.raise.startRead

theorem execCacheSramError_completing {s : State} {line : Nat} {records : BitVec 32} : Completing s (execCacheSramError line records s) :=
  .effect fun h => h.sramError

protected theorem Evolves.finishHostRead {tag : Nat} {cs : List LadderCluster} (h : Evolves .any d₀ d) :
    Evolves .any d₀ (finishHostRead tag cs d) := by
  unfold finishHostRead
  exact h.deliverData.finishWith.raise.ite (h.deliverData.finishWith.when .raise)

protected theorem Evolves.answerRecov {xid unit : Nat} {cs : List LadderCluster} (h : Evolves .any d₀ d) :
    Evolves .any d₀ (answerRecov xid unit cs d) :=
  h.sendMsg

protected theorem Evolves.catchRead {mark : Nat} {cs : List LadderCluster} (h : Evolves .any d₀ d) :
    Evolves .any d₀ (catchRead mark cs d) := by
  unfold catchRead
  split
  · exact h.sendGroup.ite h.drawn.sendGroup
  · exact h

protected theorem Evolves.finishRead {p : ReadFor} (h : Evolves .any d₀ d) : Evolves .any d₀ (finishRead p d) := by
  unfold finishRead
  dsimp only
  split
  · exact h
  · split
    · exact h.finishHostRead
    · exact h.finishHostRead
    · exact h
    · exact h.dropReads
    · exact h.answerRecov.dropReads
    · exact h.catchRead.dropReads

protected theorem Evolves.freeStore {c : LadderCluster} (h : Evolves .any d₀ d) : Evolves .any d₀ (freeStore c d) := by
  unfold freeStore
  exact h.updRdc

protected theorem Evolves.restoreCluster {c : LadderCluster} (h : Evolves .any d₀ d) : Evolves .any d₀ (restoreCluster c d) := by
  unfold restoreCluster
  exact (h.foldl (fun h => h.updRead.fillSector)).raise

protected theorem Evolves.queueRefresh {c : LadderCluster} (h : Evolves .any d₀ d) : Evolves .any d₀ (queueRefresh c d) :=
  h.updRdc.raise

protected theorem Evolves.leaveLadder {c : LadderCluster} {lostNow : Nat} (h : Evolves .any d₀ d) :
    Evolves .any d₀ (leaveLadder c lostNow d) := by
  unfold leaveLadder
  dsimp only
  split
  · split
    · exact h.updRead.freeStore.queueRefresh
    · exact h.updRead.freeStore
  · exact h.updRead.freeStore

protected theorem Evolves.endLadder {c : LadderCluster} (h : Evolves .any d₀ d) : Evolves .any d₀ (endLadder c d) := by
  unfold endLadder
  exact (h.freeStore.updRead.unless .countN).raise

protected theorem Evolves.takePeer {c : LadderCluster} (h : Evolves .any d₀ d) : Evolves .any d₀ (takePeer c d) := by
  unfold takePeer
  exact (h.foldl (fun h => h.updRead)).when fun h => h.foldl (fun h => h.updRead.ite h)

protected theorem Evolves.askPeer {c : LadderCluster} (h : Evolves .any d₀ d) : Evolves .any d₀ (askPeer c d) := by
  unfold askPeer
  exact h.takePeer.ite ((h.drawn.ite h).foldl (fun h => h.updLath.updRead.sendMsg))

protected theorem Evolves.enterStep {c : LadderCluster} {k : Nat} (h : Evolves .any d₀ d) : Evolves .any d₀ (enterStep c k d) := by
  unfold enterStep
  dsimp only
  split
  · exact h.updRead.updRdc
  · exact h.updRead.updRdc
  · exact h.updRead.freeStore
  · exact h.updRead.freeStore.askPeer
  · exact h.updRead.endLadder

protected theorem Evolves.climb {c : LadderCluster} (h : Evolves .any d₀ d) : Evolves .any d₀ (climb c d) := by
  unfold climb
  exact h.leaveLadder.ite (h.restoreCluster.leaveLadder.ite h.enterStep)

protected theorem Evolves.climbOn {id n : Nat} (h : Evolves .any d₀ d) : Evolves .any d₀ (climbOn id n d) := by
  induction n generalizing d with
  | zero => exact h
  | succ n ih =>
    unfold climbOn
    split
    · exact h
    · exact h.ite (ih h.climb)

protected theorem Evolves.settleRead {id : Nat} (h : Evolves .any d₀ d) : Evolves .any d₀ (settleRead id d) := by
  unfold settleRead
  dsimp only
  split
  · exact h.climbOn
  · exact h.climbOn.when fun h => h.updRead.finishRead

protected theorem Evolves.beginDeep {c : LadderCluster} {i : Nat} (h : Evolves .any d₀ d) : Evolves .any d₀ (beginDeep c i d) := by
  unfold beginDeep
  exact (h.updRdc.when (fun h => h.count.raise)).when fun h => h.updRead.excTake

protected theorem Evolves.popDeep (h : Evolves .any d₀ d) : Evolves .any d₀ (popDeep d) := by
  unfold popDeep
  exact h.updRdc

protected theorem Evolves.deepNext {n : Nat} (h : Evolves .any d₀ d) : Evolves .any d₀ (deepNext n d) := by
  induction n generalizing d with
  | zero => exact h
  | succ n ih =>
    unfold deepNext
    refine h.ite ?_
    split
    · exact h
    · split
      · exact ih h.popDeep
      · exact h.beginDeep.ite (ih h.popDeep.settleRead)

protected theorem Evolves.pumpReads (h : Evolves .any d₀ d) : Evolves .any d₀ (pumpReads d) := by
  unfold pumpReads
  exact (h.foldl .settleRead).deepNext

protected theorem Evolves.dropFrame {psa : Nat} (h : Evolves .any d₀ d) : Evolves .any d₀ (dropFrame psa d) := by
  unfold dropFrame
  exact h.updRdc

protected theorem Evolves.loseSector {c : LadderCluster} {i : Nat} {attempted : Bool} (h : Evolves .any d₀ d) :
    Evolves .any d₀ (loseSector c i attempted d) := by
  unfold loseSector
  exact (h.count.updRead.unless (fun h => h.dropFrame)).settleRead

protected theorem Evolves.loadTaps {layer : Nat} (h : Evolves .any d₀ d) : Evolves .any d₀ (loadTaps layer d) := by
  unfold loadTaps
  exact h.ite h.updRdc

protected theorem Evolves.fifoPush {psa : Nat} {w : BitVec 64} (h : Evolves .any d₀ d) : Evolves .any d₀ (fifoPush psa w d) := by
  unfold fifoPush
  split
  · dsimp only
    split
    · exact h.raise.loseSector
    · exact h.raise.count.dropFrame
  · exact h.updRdc.when fun h => h.updAvs.raise

protected theorem Evolves.packBit {b : LineBit} (h : Evolves .any d₀ d) : Evolves .any d₀ (packBit b d) := by
  unfold packBit
  split
  · exact h
  · exact h.updRdc.ite h.updRdc.fifoPush

protected theorem Evolves.flywheel (h : Evolves .any d₀ d) : Evolves .any d₀ (flywheel d) := by
  unfold flywheel
  exact h.updRdc.raise.ite h

protected theorem Evolves.outsideBit {low : Bool} {env : Nat} (h : Evolves .any d₀ d) : Evolves .any d₀ (outsideBit low env d) := by
  unfold outsideBit
  exact h.updRdc.updRdc.ite (h.updRdc.updRdc.unless (fun h => h.updRdc.flywheel))

protected theorem Evolves.defectBit {low : Bool} {env : Nat} (h : Evolves .any d₀ d) : Evolves .any d₀ (defectBit low env d) := by
  unfold defectBit
  exact h.updRdc.flywheel.ite (h.updRdc.unless (fun h => h.updRdc))

protected theorem Evolves.takeBit {sample : BitVec 7} {env : Nat} (h : Evolves .any d₀ d) : Evolves .any d₀ (takeBit sample env d) := by
  unfold takeBit
  refine (h.updRdc.andThen fun h => h.defectBit.ite h.outsideBit).andThen fun h => h.ite ?_
  split
  · exact h.updRdc.packBit
  · exact h

protected theorem Evolves.takeEntryOf (h : Evolves .any d₀ d) : Evolves .any d₀ (takeEntryOf d) := by
  unfold takeEntryOf
  split
  · exact h
  · exact h.updRdc

protected theorem Evolves.takeTaps {taps : List Int} (h : Evolves .any d₀ d) : Evolves .any d₀ (takeTaps taps d) := by
  unfold takeTaps
  exact h.ite ((h.foldl (fun h => h.excReach.ite h)).updRdc)

protected theorem Evolves.flowStep {x1 : Sys2Proof.Flow} (h : Evolves .any d₀ d) : Evolves .any d₀ (flowStep d x1) := by
  unfold flowStep
  split
  · exact h.takeBit
  · exact h.takeTaps
  · exact h.takeEntryOf

protected theorem Evolves.flowIn {flow : List Sys2Proof.Flow} (h : Evolves .any d₀ d) : Evolves .any d₀ (flowIn flow d) := by
  unfold flowIn
  exact h.foldl .flowStep

protected theorem Evolves.sectorSync {psa : Nat} {locked : Bool} (h : Evolves .any d₀ d) : Evolves .any d₀ (sectorSync psa locked d) := by
  unfold sectorSync
  split
  · exact h
  · exact h.ite (h.updRdc.count.raise.ite (h.updRdc.loadTaps.andThen (fun h => h.updRdc.ite h.loseSector)))

theorem execSectorSync_completing {s : State} {psa : Nat} {locked : Bool} {flow : List Sys2Proof.Flow} :
    Completing s (execSectorSync psa locked flow s) :=
  .effect fun h => h.flowIn.sectorSync.pumpReads

theorem execReadFifoHighWater_completing {s : State} {flow : List Sys2Proof.Flow} : Completing s (execReadFifoHighWater flow s) :=
  .effect fun h => h.flowIn.pumpReads

theorem execReadFifoOverflow_completing {s : State} {flow : List Sys2Proof.Flow} : Completing s (execReadFifoOverflow flow s) :=
  .effect fun h => h.flowIn.pumpReads

theorem execTimingLockLost_completing {s : State} {flow : List Sys2Proof.Flow} : Completing s (execTimingLockLost flow s) :=
  .effect fun h => h.flowIn.pumpReads

theorem execDefectBegin_completing {s : State} {flow : List Sys2Proof.Flow} : Completing s (execDefectBegin flow s) :=
  .effect fun h => h.flowIn.pumpReads

theorem execDefectEnd_completing {s : State} {flow : List Sys2Proof.Flow} : Completing s (execDefectEnd flow s) :=
  .effect fun h => h.flowIn.pumpReads

protected theorem Evolves.noteBound {c : LadderCluster} {i : Nat} (h : Evolves .any d₀ d) : Evolves .any d₀ (noteBound c i d) := by
  unfold noteBound
  exact h.ite (h.updRead.unless (fun h => h.updRdc.raise))

protected theorem Evolves.dataFieldEnd {psa : Nat} (h : Evolves .any d₀ d) : Evolves .any d₀ (dataFieldEnd psa d) := by
  unfold dataFieldEnd
  split
  · exact h.ite (h.noteBound.loseSector.ite h.noteBound.updRead)
  · exact h

theorem execDataFieldEnd_completing {s : State} {psa : Nat} {flow : List Sys2Proof.Flow} : Completing s (execDataFieldEnd psa flow s) :=
  .effect fun h => h.flowIn.dataFieldEnd.pumpReads

protected theorem Evolves.headerSeen {block : List Byte} (h : Evolves .any d₀ d) : Evolves .any d₀ (headerSeen block d) := by
  unfold headerSeen
  split
  · exact h.layerConfirmed.ite h.attemptFailed
  · exact h

protected theorem Evolves.sectorDecoded {c : LadderCluster} {i : Nat} {block : List Byte} (h : Evolves .any d₀ d) :
    Evolves .any d₀ (sectorDecoded c i block d) :=
  h.updRead.fillSector.settleRead

protected theorem Evolves.freeStoreSlot {psa : Nat} (h : Evolves .any d₀ d) : Evolves .any d₀ (freeStoreSlot psa d) := by
  unfold freeStoreSlot
  exact h.updRdc

protected theorem Evolves.fastDone {psa word : Nat} (h : Evolves .any d₀ d) : Evolves .any d₀ (fastDone psa word d) := by
  unfold fastDone
  split
  · exact h
  · exact (h.count.freeStoreSlot.headerSeen.ite h.count.freeStoreSlot).sectorDecoded |>.ite h.loseSector

theorem execFastDecodeDone_completing {s : State} {psa : Nat} {word : BitVec 36992} : Completing s (execFastDecodeDone psa word s) :=
  .effect fun h => h.fastDone.pumpReads

protected theorem Evolves.deepEnds {run : DeepRun} {c : LadderCluster} {i inner word : Nat} (h : Evolves .any d₀ d) :
    Evolves .any d₀ (deepEnds run c i inner word d) := by
  unfold deepEnds
  exact (h.excReach.ite h).updRead |>.updRdc |>.andThen fun h => h.freeStoreSlot.popDeep.updRead.sectorDecoded.ite
    (h.freeStoreSlot.popDeep.settleRead.ite h)

protected theorem Evolves.deepDone {psa inner word : Nat} (h : Evolves .any d₀ d) : Evolves .any d₀ (deepDone psa inner word d) := by
  unfold deepDone
  split
  · exact h
  · split
    · exact h
    · exact h.deepEnds.ite h

theorem execDeepIterationDone_completing {s : State} {psa inner : Nat} {word : BitVec 36992} :
    Completing s (execDeepIterationDone psa inner word s) :=
  .effect fun h => h.deepDone.pumpReads

protected theorem Evolves.rereadCluster {c : LadderCluster} (h : Evolves .any d₀ d) : Evolves .any d₀ (rereadCluster c d) := by
  unfold rereadCluster
  dsimp only
  refine .andThen ?_ fun h => h.updRead
  split
  · exact h.updRdc.excTake
  · exact h.updRdc

theorem execClusterReread_completing {s : State} {cluster : Nat} : Completing s (execClusterReread cluster s) := by
  refine .effect fun h => ?_
  split
  · exact h
  · exact h.onlyIf .rereadCluster

protected theorem Evolves.tagFailed {c : LadderCluster} {i : Nat} (h : Evolves .any d₀ d) : Evolves .any d₀ (tagFailed c i d) := by
  unfold tagFailed
  dsimp only
  split
  · exact (h.count.count.raise.foldl (fun h => h.updRead.dropLines)).updRead
  · exact (h.count.count.raise.foldl (fun h => h.updRead.dropLines)).updRead |>.when .enterStep |>.seekLayer |>.settleRead

protected theorem Evolves.tagPassed {c : LadderCluster} {i : Nat} {block plain : List Byte} {poisoned : Bool} (h : Evolves .any d₀ d) :
    Evolves .any d₀ (tagPassed c i block plain poisoned d) := by
  unfold tagPassed
  exact h.count.updRead.ite ((h.count.updRead.when (fun h => h.updRead)).settleRead)

protected theorem Evolves.egressDone {psa : Nat} {tagOk : Bool} {plain : List Byte} {poisoned : Bool} (h : Evolves .any d₀ d) :
    Evolves .any d₀ (egressDone psa tagOk plain poisoned d) := by
  unfold egressDone
  split
  · exact h
  · dsimp only
    split
    · split
      · exact h.count.finish
      · exact h.count.updRead.settleRead
    · exact h.tagPassed.ite h.tagFailed

theorem execEgressDecryptDone_completing {s : State} {psa : Nat} {tagOk : Bool} {plain : List Byte} {poisoned : Bool} :
    Completing s (execEgressDecryptDone psa tagOk plain poisoned s) :=
  .effect fun h => h.egressDone.pumpReads

protected theorem Evolves.answerUnits {id : Nat} {f : PeerUnit → PeerUnit} (h : Evolves .any d₀ d) :
    Evolves .any d₀ (answerUnits id f d) := by
  unfold answerUnits
  dsimp only
  split
  · exact h.updRead
  · exact h.updRead.unless fun h => h.takePeer.settleRead

protected theorem Evolves.recovData {xid unit : Nat} {bytes : List Byte} {poison : BitVec 32} (h : Evolves .any d₀ d) :
    Evolves .any d₀ (recovData xid unit bytes poison d) := by
  unfold recovData
  dsimp only
  split
  · exact h
  · split
    · exact h
    · exact h.answerUnits

protected theorem Evolves.peerGone (h : Evolves .any d₀ d) : Evolves .any d₀ (peerGone d) := by
  unfold peerGone
  exact h.foldl .answerUnits

protected theorem Evolves.refreshNow {x : Refresh} (h : Evolves .any d₀ d) : Evolves .any d₀ (refreshNow x d) := by
  unfold refreshNow
  dsimp only
  split
  · exact h.updRdc.unless fun h => (h.drawn.ite h).useSpare |>.queueCluster |>.takeId
  · exact h.updRdc

theorem execClusterRefresh_completing {s : State} {cluster : Nat} : Completing s (execClusterRefresh cluster s) := by
  refine .effect fun h => ?_
  split
  · exact h
  · exact h.onlyIf .refreshNow

/-! ### The definitions of Sys2Proof/Machine/Boot.lean -/

protected theorem Evolves.queueActivation {id : Nat} {copyB : Bool} {r : Activation} {groups : List Nat} (h : Evolves .any d₀ d) :
    Evolves .any d₀ (queueActivation id copyB r groups d) := by
  unfold queueActivation
  exact h.updRing.queueCluster

protected theorem Evolves.startActivation {w : ActWrite} (h : Evolves .any d₀ d) : Evolves .any d₀ (startActivation w d) := by
  unfold startActivation
  exact h.updRcl.queueActivation

protected theorem Evolves.nextActivation (h : Evolves .any d₀ d) : Evolves .any d₀ (nextActivation d) := by
  unfold nextActivation
  dsimp only
  split
  · exact h.updRcl
  · exact h.updRcl.startActivation

protected theorem Evolves.writeActivation {r : Activation} {group : Option Nat} (h : Evolves .any d₀ d) :
    Evolves .any d₀ (writeActivation r group d) := by
  unfold writeActivation
  exact (h.takeId.takeId.foldl (fun h => h.updGroup)).andThen fun h => h.updRcl.ite h.startActivation

protected theorem Evolves.changeActivation {tag : Nat} {r : Activation} (h : Evolves .any d₀ d) :
    Evolves .any d₀ (changeActivation tag r d) :=
  h.addGroup.writeActivation.pumpMirror

protected theorem Evolves.activationWritten {id : Nat} {copyB : Bool} (h : Evolves .any d₀ d) :
    Evolves .any d₀ (activationWritten id copyB d) := by
  unfold activationWritten
  split
  · exact h
  · exact (h.updRcl.foldl .groupPassed).andThen fun h => (h.ite h.updRcl.raise).queueActivation |>.ite h.nextActivation

protected theorem Evolves.stagePart {slot base tag : Nat} {role : GroupRole} {bs : List Byte} (h : Evolves .any d₀ d) :
    Evolves .any d₀ (stagePart slot base tag role bs d) := by
  unfold stagePart
  exact h.addGroup.foldl fun h => h.updGroup.takeId.queueCluster

protected theorem Evolves.stageImage {tag slot off : Nat} {last : Bool} {bs : List Byte} (h : Evolves .any d₀ d) :
    Evolves .any d₀ (stageImage tag slot off last bs d) := by
  unfold stageImage
  exact ((h.updRcl.ite h).updRcl |>.when (fun h => h.updRcl)).foldl .stagePart |>.setPhase |>.startCmd |>.pumpMirror

protected theorem Evolves.dropBoot {tag : Nat} (h : Evolves .any d₀ d) : Evolves .any d₀ (dropBoot tag d) := by
  unfold dropBoot
  exact h.updRcl

protected theorem Evolves.bootStep {tag : Nat} (h : Evolves .any d₀ d) : Evolves .any d₀ (bootStep tag d) := by
  unfold bootStep
  split
  · exact h.dropBoot
  · dsimp only
    split
    · split
      · exact h.dropBoot.changeActivation
      · exact h.dropBoot.finish
    · exact (h.dropBoot.when (fun h => h.updRcl)).finishWith |>.ite h.dropBoot.finishWith

protected theorem Evolves.settleBoot (h : Evolves .any d₀ d) : Evolves .any d₀ (settleBoot d) := by
  unfold settleBoot
  exact h.foldl fun h => h.bootStep.ite h

protected theorem Evolves.takeBoot {xid : Nat} {bs : List Byte} (h : Evolves .any d₀ d) : Evolves .any d₀ (takeBoot xid bs d) := by
  unfold takeBoot
  exact h.addGroup.writeActivation.ite h.drawn.updRcl.stagePart

/-! ### The definitions of Sys2Proof/Machine/Scan.lean -/

protected theorem Evolves.indexGroup {o : Nat} {g : FoundGroup} {st : GroupState} {link : Option (BitVec 128)} (h : Evolves .any d₀ d) :
    Evolves .any d₀ (indexGroup o g st link d).2 := by
  unfold indexGroup
  exact (h.drawnWide.ite h).addGroup |>.updGroup

/-! ### The definitions of Sys2Proof/Machine/Modes.lean -/

protected theorem Evolves.updGen {f : Startup → Startup} (h : Evolves μ d₀ d)
    (hm : ∀ x, (f x).mode = x.mode := by exact fun _ => rfl) (hc : ∀ x, (f x).chosen = x.chosen := by exact fun _ => rfl)
    (hp : ∀ x, (f x).powerOns = x.powerOns := by exact fun _ => rfl) : Evolves μ d₀ (updGen f d) := h.gen (hm _) (hc _) (hp _)

protected theorem Evolves.updLsk {f : Lockstep → Lockstep} (h : Evolves .any d₀ d) : Evolves .any d₀ (updLsk f d) := by
  unfold updLsk
  exact h.lsk

protected theorem Evolves.updPwr {f : Supply → Supply} (h : Evolves .any d₀ d) : Evolves .any d₀ (updPwr f d) := by
  unfold updPwr
  exact h.pwr

protected theorem Evolves.updHif {f : HostIf → HostIf} (h : Evolves .any d₀ d) (hf : ∀ x, (f x).lock = x.lock := by intro; rfl) :
    Evolves .any d₀ (updHif f d) := h.hif (hf _)

protected theorem Evolves.updFio {f : Machine.Field → Machine.Field} (h : Evolves .any d₀ d) : Evolves .any d₀ (updFio f d) := by
  unfold updFio
  exact h.fio

protected theorem Evolves.logSafety {cls : Nat} {outputs : BitVec 4} {action : Nat} {detail : Word32} (h : Evolves .any d₀ d) :
    Evolves .any d₀ (logSafety cls outputs action detail d) := by
  unfold logSafety
  exact h.logLater.updLsk

protected theorem Evolves.tellMode (h : Evolves μ d₀ d) : Evolves μ d₀ (tellMode d) :=
  h.sendMsg

protected theorem Evolves.sendHello (h : Evolves .any d₀ d) : Evolves .any d₀ (sendHello d) := by
  unfold sendHello
  exact h.updLath.sendMsg.ite h

protected theorem Evolves.leaveTopcoat (h : Evolves .any d₀ d) : Evolves .any d₀ (leaveTopcoat d) := by
  unfold leaveTopcoat
  exact (h.updLath.foldl .voidGroup).abandonCoherence |>.settleGroups |>.ownersLeaveTopcoat |>.settleBoot |>.peerGone |>.raise

/-- Primer is left by no change of mode (R405). -/
protected theorem Evolves.setMode {m : Mode} (h : Evolves .any d₀ d) : Evolves .any d₀ (setMode m d) := by
  unfold setMode
  dsimp only
  split
  · exact h
  · next hm =>
    simp only [Bool.or_eq_true, decide_eq_true_eq, not_or] at hm
    have g : Evolves .any d₀ (updGen (fun g => { g with mode := m }) d) :=
      h.trans ⟨id, id, rfl, id, fun p => absurd p hm.2, nofun⟩
    exact ((g.raise.unless .tellMode).when .leaveTopcoat).when fun h => h.updGen.raise

protected theorem Evolves.toUndercoat (h : Evolves .any d₀ d) : Evolves .any d₀ (toUndercoat d) := by
  unfold toUndercoat
  exact h.setMode.ite h

protected theorem Evolves.abortWaiting (h : Evolves .any d₀ d) : Evolves .any d₀ (abortWaiting d) :=
  h.finishAll

protected theorem Evolves.standParked (h : Evolves .any d₀ d) : Evolves .any d₀ (standParked d) := by
  unfold standParked
  exact h.parkStep.updGen

protected theorem Evolves.noPower (h : Evolves μ d₀ d) : Evolves μ d₀ (noPower d) := by
  unfold noPower
  exact h.leaveRetention.fewerCmds.unless .raise

protected theorem Evolves.enterDust {cause : Nat} (h : Evolves .any d₀ d) : Evolves .any d₀ (enterDust cause d) := by
  unfold enterDust
  dsimp only
  split
  · exact h.setMode.abortWaiting.updGen.standParked.noPower.finishOk
  · exact h.setMode.abortWaiting.updGen.standParked.noPower

protected theorem Evolves.pumpDust (h : Evolves .any d₀ d) : Evolves .any d₀ (pumpDust d) := by
  unfold pumpDust
  split
  · exact h.ite h.enterDust
  · exact h

protected theorem Evolves.beginDust {tag : Option Nat} {cause : Nat} (h : Evolves .any d₀ d) : Evolves .any d₀ (beginDust tag cause d) :=
  h.updGen.abortWaiting.pumpDust

protected theorem Evolves.finishRetiring (h : Evolves μ d₀ d) : Evolves μ d₀ (finishRetiring d) := by
  unfold finishRetiring
  exact h.foldl fun h => h.startOp.ite h

protected theorem Evolves.enterUndercoat (h : Evolves .any d₀ d) : Evolves .any d₀ (enterUndercoat d) := by
  unfold enterUndercoat
  dsimp only
  split
  · exact h.updGen.setMode.updHif.sendHello.finishRetiring.finishOk
  · exact h.updGen.setMode.updHif.sendHello.finishRetiring

protected theorem Evolves.enterPrimer {cause : Nat} (h : Evolves .any d₀ d) : Evolves .any d₀ (enterPrimer cause d) := by
  unfold enterPrimer
  exact h.ite ((h.updLsk.raise.servo.when (fun h => h.setRegF.setSpeed)).updWrc |>.setMode |>.clampAvs |>.updCry |>.updGen |>.noPower
    |>.updPwr |>.finishAll)

protected theorem Evolves.loadRing {os : List ScannedOpening} {r : DirRing} (h : Evolves μ d₀ d) : Evolves μ d₀ (loadRing os r d) := by
  unfold loadRing
  exact h.updRcl.updRing

protected theorem Evolves.loadMedium {s : SystemScan} (h : Evolves μ d₀ d) : Evolves μ d₀ (loadMedium s d) := by
  unfold loadMedium
  exact (h.updRcl.foldl (fun h => h.loadRing)).updRing |>.recallGenerations

/-! ### The definitions of Sys2Proof/Machine/Format.lean -/

protected theorem Evolves.queueSeal {o : Nat} (h : Evolves .any d₀ d) : Evolves .any d₀ (queueSeal o d) := by
  suffices k : ∀ f, f = Machine.queueSeal → Evolves .any d₀ (f o d) from k _ rfl
  intro f hf
  delta Machine.queueSeal at hf
  obtain ⟨g, hg⟩ : ∃ g, g = groupOf := exists_eq
  obtain ⟨sg, hsg⟩ : ∃ sg, sg = sealGroups := exists_eq
  rw [← hg, ← hsg] at hf
  subst hf
  beta_reduce
  extract_lets r
  split
  · exact h
  · extract_lets z
    split
    split
    exact h.updRing.ite h.updRing.useSparesTo.takeId.queueCluster

protected theorem Evolves.queueFill {o : Nat} {z : Zone} {first n : Nat} {frames : List Nat} (h : Evolves .any d₀ d) :
    Evolves .any d₀ (queueFill o z first n frames d) := by
  unfold queueFill
  exact (h.ite h.useSparesTo).foldl fun h => h.ite h.takeId.queueCluster

protected theorem Evolves.updCart {f : Cartridge → Cartridge} (h : Evolves .any d₀ d) : Evolves .any d₀ (updCart f d) := by
  unfold updCart
  exact h.updGen

protected theorem Evolves.queueFormatGroup (h : Evolves .any d₀ d) : Evolves .any d₀ (queueFormatGroup d) := by
  suffices k : ∀ f, f = Machine.queueFormatGroup → Evolves .any d₀ (f d) from k _ rfl
  intro f hf
  delta Machine.queueFormatGroup at hf
  obtain ⟨g, hg⟩ : ∃ g, g = groupOf := exists_eq
  rw [← hg] at hf
  subst hf
  beta_reduce
  split
  · exact h
  · split
    split
    exact h.foldl fun h => h.ite h.takeId.queueCluster

protected theorem Evolves.startFormat (h : Evolves .any d₀ d) : Evolves .any d₀ (startFormat d) := by
  unfold startFormat
  exact h.enterSerial.updCart.updGen.updRcl.updCry.wrc.queueFormatGroup

protected theorem Evolves.writeDefects (h : Evolves .any d₀ d) : Evolves .any d₀ (writeDefects d) :=
  h.systemCluster

protected theorem Evolves.endFormatZones (h : Evolves .any d₀ d) : Evolves .any d₀ (endFormatZones d) := by
  unfold endFormatZones
  exact (h.updRcl.foldl (fun h => h.assignZones.ite h)).writeDirectory |>.writeDefects |>.writeActivation

protected theorem Evolves.leaveNow (h : Evolves .any d₀ d) : Evolves .any d₀ (leaveNow d) := by
  unfold leaveNow
  split
  · exact h.enterUndercoat.ite (h.ite (h.startFormat.ite h))
  · exact h

protected theorem Evolves.formatDone (h : Evolves .any d₀ d) : Evolves .any d₀ (formatDone d) :=
  h.updCart.updGen.leaveNow

protected theorem Evolves.ejectDone (h : Evolves .any d₀ d) : Evolves .any d₀ (ejectDone d) := by
  unfold ejectDone
  dsimp only
  split
  · exact h.updGen.standParked.raise.finishOk
  · exact h.updGen.standParked.raise

protected theorem Evolves.pumpEject (h : Evolves .any d₀ d) : Evolves .any d₀ (pumpEject d) := by
  unfold pumpEject
  exact h.ejectDone.ite h

protected theorem Evolves.startEject {tag : Nat} (h : Evolves .any d₀ d) : Evolves .any d₀ (startEject tag d) := by
  unfold startEject
  exact h.updGen.setPhase.startCmd.unless fun h => (h.updRcl.foldl .queueSeal).pumpEject

protected theorem Evolves.formatZoneDone {i : Nat} (h : Evolves .any d₀ d) : Evolves .any d₀ (formatZoneDone i d) := by
  unfold formatZoneDone
  dsimp only
  split
  · refine .andThen ?_ fun h => h.pumpEject
    split
    · exact h.updCart.updGen.updGen.finish
    · exact h.updCart.updGen.updGen
  · exact h.updCart.updGen.queueFormatGroup.ite h.updCart.updGen.endFormatZones

protected theorem Evolves.pumpFormat (h : Evolves .any d₀ d) : Evolves .any d₀ (pumpFormat d) := by
  suffices k : ∀ f, f = Machine.pumpFormat → Evolves .any d₀ (f d) from k _ rfl
  intro f hf
  delta Machine.pumpFormat at hf
  obtain ⟨g, hg⟩ : ∃ g, g = groupOf := exists_eq
  rw [← hg] at hf
  subst hf
  beta_reduce
  refine h.ite (h.ite ?_)
  split
  · exact h.formatDone.ite h
  · split
    split
    exact h.updGen.queueFormatGroup.ite h.formatZoneDone

/-! ### The definitions of Sys2Proof/Machine/WriteChannel.lean -/

protected theorem Evolves.updCluster {id : Nat} {f : WriteCluster → WriteCluster} (h : Evolves .any d₀ d) :
    Evolves .any d₀ (updCluster id f d) := by
  unfold updCluster
  exact h.updWrc

protected theorem Evolves.dropCluster {id : Nat} (h : Evolves .any d₀ d) : Evolves .any d₀ (dropCluster id d) := by
  unfold dropCluster
  exact h.updWrc

protected theorem Evolves.putWsector {id i : Nat} {f : WriteSector → WriteSector} (h : Evolves .any d₀ d) :
    Evolves .any d₀ (putWsector id i f d) := by
  unfold putWsector
  exact h.updCluster

protected theorem Evolves.trimExcursion {inv : Nat} {v : Word32} (h : Evolves μ d₀ d) : Evolves μ d₀ (trimExcursion inv v d) := by
  unfold trimExcursion
  exact (h.ite h.updWrc).excTake

protected theorem Evolves.clampTrims (h : Evolves .any d₀ d) : Evolves .any d₀ (clampTrims d) := by
  unfold clampTrims
  exact h.updWrc

protected theorem Evolves.ropcStep {l : Loc} {beta : Int} (h : Evolves .any d₀ d) : Evolves .any d₀ (ropcStep l beta d) := by
  unfold ropcStep
  exact h.ite (h.updWrc.when .raise)

protected theorem Evolves.excursionStep {c : WriteCluster} {psa : Nat} {before beta : Int} (h : Evolves .any d₀ d) :
    Evolves .any d₀ (excursionStep c psa before beta d) := by
  unfold excursionStep
  split
  · exact h
  · dsimp only
    split
    · exact h.updWrc.excReach
    · exact h.updWrc.trimExcursion.ite h

protected theorem Evolves.excursionOver {psa : Nat} (h : Evolves .any d₀ d) : Evolves .any d₀ (excursionOver psa d) := by
  unfold excursionOver
  exact h.ite (h.updWrc.when (fun h => h.excEnd.unless (fun h => h.clampTrims)))

protected theorem Evolves.pumpCeiling (h : Evolves μ d₀ d) : Evolves μ d₀ (pumpCeiling d) := by
  unfold pumpCeiling
  exact (h.excReach.ite h.trimExcursion).ite h

protected theorem Evolves.phaseBEnd {o : Nat} (h : Evolves .any d₀ d) : Evolves .any d₀ (phaseBEnd o d) := by
  unfold phaseBEnd
  exact (h.updRing.updRcl.raise.unless (fun h => h.updGen)).ite h

protected theorem Evolves.directoryWritten {c : WriteCluster} (h : Evolves .any d₀ d) : Evolves .any d₀ (directoryWritten c d) := by
  unfold directoryWritten
  dsimp only
  refine .andThen ?_ fun h => h.opsWritten.pumpOps
  split
  · exact h.updRcl.raise.entryPassed
  · exact h.updRcl.raise

protected theorem Evolves.kindPassed {c : WriteCluster} (h : Evolves .any d₀ d) : Evolves .any d₀ (kindPassed c d) := by
  unfold kindPassed
  split
  · exact (h.foldl .groupPassed).settleGroups
  · exact h.count
  · exact h.updRcl.count.raise
  · exact h.count.directoryWritten
  · exact (h.foldl .groupPassed).settleBoot
  · exact h.activationWritten.settleBoot
  · exact h
  · exact h
  · exact h

protected theorem Evolves.afterCluster {c : WriteCluster} (h : Evolves .any d₀ d) : Evolves .any d₀ (afterCluster c d) :=
  h.phaseBEnd.pumpFormat.pumpEject

protected theorem Evolves.clusterPassed {c : WriteCluster} (h : Evolves .any d₀ d) : Evolves .any d₀ (clusterPassed c d) := by
  unfold clusterPassed
  dsimp only
  refine .andThen ?_ fun h => h.kindPassed.afterCluster
  split
  · exact h.dropCluster.noteMove.movePieces.updRcl
  · exact h.dropCluster

protected theorem Evolves.rewriteDirectory {c : WriteCluster} (h : Evolves .any d₀ d) : Evolves .any d₀ (rewriteDirectory c d) := by
  unfold rewriteDirectory
  exact h.systemCluster.updRcl.updCry

protected theorem Evolves.clusterLost {c : WriteCluster} {st : Nat} (h : Evolves .any d₀ d) : Evolves .any d₀ (clusterLost c st d) := by
  unfold clusterLost
  dsimp only
  refine .andThen ?_ fun h => h.settleGroups.afterCluster
  split
  · exact (h.dropCluster.foldl .excursionOver).failCluster |>.rewriteDirectory
  · exact (h.dropCluster.foldl .excursionOver).failCluster |>.nextActivation
  · exact (h.dropCluster.foldl .excursionOver).failCluster

protected theorem Evolves.countShare (h : Evolves .any d₀ d) : Evolves .any d₀ (countShare d) := by
  unfold countShare
  exact h.updWrc.ite h

protected theorem Evolves.emitFrame {k psa : Nat} {block : List Byte} {trim : Int} (h : Evolves .any d₀ d) :
    Evolves .any d₀ (emitFrame k psa block trim d) :=
  h.updWrc.laserLevel

protected theorem Evolves.emitSector {c : WriteCluster} {i : Nat} (h : Evolves .any d₀ d) : Evolves .any d₀ (emitSector c i d) := by
  unfold emitSector
  exact (h.updCluster.updWrc.count.ite h).endWriting |>.putWsector |>.updWrc |>.emitFrame

protected theorem Evolves.sweepGroups (h : Evolves .any d₀ d) : Evolves .any d₀ (sweepGroups d) := by
  unfold sweepGroups
  exact h.foldl .failGroup

protected theorem Evolves.relocate {c : WriteCluster} {dst : Loc} (h : Evolves .any d₀ d) : Evolves .any d₀ (relocate c dst d) :=
  h.useSpare.noteMove.updRcl.updCluster.locatePieces.count.raise

protected theorem Evolves.exhaustSector {c : WriteCluster} (h : Evolves .any d₀ d) : Evolves .any d₀ (exhaustSector c d) := by
  unfold exhaustSector
  split
  · exact h
  · split
    · exact h.raise.clusterLost
    · split
      · exact h.raise.clusterLost
      · exact h.relocate

protected theorem Evolves.sectorPassed {c : WriteCluster} {i : Nat} (h : Evolves .any d₀ d) : Evolves .any d₀ (sectorPassed c i d) := by
  unfold sectorPassed
  dsimp only
  split
  · exact h.putWsector.count.excursionOver.when .clusterPassed
  · exact h.putWsector.count.excursionOver

protected theorem Evolves.refuseFrame {c : WriteCluster} {i : Nat} (h : Evolves .any d₀ d) : Evolves .any d₀ (refuseFrame c i d) := by
  unfold refuseFrame
  exact h.sectorPassed.ite h.putWsector.exhaustSector

protected theorem Evolves.writeSector {psa : Nat} {before : Option Nat} {poisoned : Bool} (h : Evolves .any d₀ d) :
    Evolves .any d₀ (writeSector psa before poisoned d) := by
  unfold writeSector
  split
  · exact h
  · exact h.ite (h.refuseFrame.ite (h.raise.clusterLost.ite h.dropLines.countShare.emitSector))

theorem execSectorWriteStart_completing {s : State} {psa : Nat} {before : Option Nat} {poisoned : Bool} :
    Completing s (execSectorWriteStart psa before poisoned s) :=
  .effect fun h => h.onlyIf fun h => h.sweepGroups.writeSector

protected theorem Evolves.retrySector {psa : Nat} {poisoned : Bool} (h : Evolves .any d₀ d) :
    Evolves .any d₀ (retrySector psa poisoned d) := by
  unfold retrySector
  split
  · exact h
  · exact h.ite (h.exhaustSector.ite (h.raise.clusterLost.ite (h.putWsector.raise.emitSector.updWrc.ite h.emitSector.updWrc)))

theorem execInPlaceRetry_completing {s : State} {psa : Nat} {poisoned : Bool} : Completing s (execInPlaceRetry psa poisoned s) :=
  .effect fun h => h.onlyIf .retrySector

protected theorem Evolves.sectorFailed {c : WriteCluster} {i : Nat} {before beta : Int} (h : Evolves .any d₀ d) :
    Evolves .any d₀ (sectorFailed c i before beta d) := by
  unfold sectorFailed
  exact h.count.putWsector.excursionStep.ite h.count.putWsector.excursionOver.exhaustSector

protected theorem Evolves.rawResult {psa errors : Nat} {beta : Int} {synced : Bool} (h : Evolves .any d₀ d) :
    Evolves .any d₀ (rawResult psa errors beta synced d) := by
  unfold rawResult
  split
  · exact h
  · exact (h.endWriting.laserToRead.ite h).andThen fun h => h.putWsector.count.ite
      ((h.ite h.ropcStep).andThen (fun h => h.sectorPassed.ite h.sectorFailed))

theorem execRawResult_completing {s : State} {psa errors : Nat} {beta : Int} {synced : Bool} :
    Completing s (execRawResult psa errors beta synced s) :=
  .effect fun h => h.sweepGroups.rawResult

protected theorem Evolves.assertInhibit {cause : Nat} (h : Evolves .any d₀ d) : Evolves .any d₀ (assertInhibit cause d) := by
  unfold assertInhibit
  exact (h.updWrc.ite h).when .raise |>.refreshInhibit

theorem execWriteInhibit_completing {s : State} {cause : Nat} : Completing s (execWriteInhibit cause s) :=
  .effect fun h => h.assertInhibit

theorem execWriteInhibitClear_completing {s : State} {cause : Nat} : Completing s (execWriteInhibitClear cause s) :=
  .effect fun h => (h.updWrc.ite h).refreshInhibit

theorem execWriteFifoUnderrun_completing {s : State} : Completing s (execWriteFifoUnderrun s) :=
  .effect fun h => h.onlyIf fun h => h.updWrc.count.raise.assertInhibit

theorem execWriteResume_completing {s : State} : Completing s (execWriteResume s) :=
  .effect fun h => h.onlyIf fun h => h.updWrc

protected theorem Evolves.writeLaserMax {v : Nat} (h : Evolves μ d₀ d) : Evolves μ d₀ (writeLaserMax v d) := by
  unfold writeLaserMax
  exact h.updWrc.setRegF.pumpCeiling.ite ((h.setRegF.updWrc.when .laserLevel).pumpCeiling |>.ite (h.ite h.count.raise))

theorem execLaserMaxWrite_completing {s : State} {who : Requester} {value : Word32} : Completing s (execLaserMaxWrite who value s) :=
  .effect fun h => h.gate .writeLaserMax

theorem execLaserOverPower_completing {s : State} : Completing s (execLaserOverPower s) :=
  .effect fun h => h.updWrc.laserOff.raise.refreshInhibit

theorem execLaserOverClear_completing {s : State} {who : Requester} : Completing s (execLaserOverClear who s) :=
  .effect fun h => h.gate fun h => h.onlyIf (fun h => h.updWrc.refreshInhibit)

theorem execLaserIlkLow_completing {s : State} : Completing s (execLaserIlkLow s) :=
  .effect fun h => h.updWrc.laserOff.servo.refreshInhibit.raise.failMedium.sweepGroups

theorem execLaserIlkRestored_completing {s : State} : Completing s (execLaserIlkRestored s) :=
  .effect fun h => h.updWrc.refreshInhibit

protected theorem Evolves.stratAdvance (h : Evolves .any d₀ d) : Evolves .any d₀ (stratAdvance d) := by
  unfold stratAdvance
  exact h.ite (h.setRegF.ite h.setRegF.drawn)

protected theorem Evolves.stratAccess {value : Option Word32} (h : Evolves .any d₀ d) : Evolves .any d₀ (stratAccess value d) := by
  unfold stratAccess
  dsimp only
  split
  · exact h.ite h.updWrc.stratAdvance
  · exact h.bus.stratAdvance

theorem execStratDataAccess_completing {s : State} {who : Requester} {value : Option Word32} :
    Completing s (execStratDataAccess who value s) := by
  refine .effect fun h => ?_
  split
  · exact h.gate .stratAccess
  · exact h.onBus .stratAccess

protected theorem Evolves.beginTest {layer band : Nat} (h : Evolves .any d₀ d) : Evolves .any d₀ (beginTest layer band d) := by
  unfold beginTest
  exact (h.updWrc.laserLevel.ite h.updWrc.laserToRead).ite h

protected theorem Evolves.writeOpcCmd {who : Requester} {v : Word32} (h : Evolves .any d₀ d) : Evolves .any d₀ (writeOpcCmd who v d) := by
  unfold writeOpcCmd
  exact (h.setRegF.ite h).setRegF |>.setRegF |>.when .beginTest

theorem execOpcTestStep_completing {s : State} {who : Requester} {value : Word32} : Completing s (execOpcTestStep who value s) :=
  .effect fun h => h.gate .writeOpcCmd

protected theorem Evolves.opcEnd {r : OpcRun} (h : Evolves .any d₀ d) : Evolves .any d₀ (opcEnd r d) := by
  unfold opcEnd
  dsimp only
  split
  · exact h.updWrc.logLater.raise
  · exact h.updWrc.setRegF.setRegF.updWrc.raise

protected theorem Evolves.opcNext {r : OpcRun} (h : Evolves .any d₀ d) : Evolves .any d₀ (opcNext r d) := by
  unfold opcNext
  exact h.updWrc.ite (h.opcEnd.ite h.setRegF.setRegF.setRegF.setReg.updWrc.beginTest)

protected theorem Evolves.testStepDone {x : OpcStep} {errors : Nat} {beta : Int} (h : Evolves .any d₀ d) :
    Evolves .any d₀ (testStepDone x errors beta d) := by
  unfold testStepDone
  dsimp only
  split
  · exact h.updWrc.laserToRead
  · exact h.updWrc.laserToRead.setReg.opcNext

theorem execOpcTestStepDone_completing {s : State} {errors : Nat} {beta : Int} : Completing s (execOpcTestStepDone errors beta s) := by
  refine .effect fun h => ?_
  split
  · exact h.testStepDone
  · exact h

theorem execStaticOpc_completing {s : State} {layer band : Nat} : Completing s (execStaticOpc layer band s) :=
  .effect fun h => h.onlyIf .opcNext

/-! ### The definitions of Sys2Proof/Machine/Timing.lean -/

protected theorem Evolves.noteWindow (h : Evolves .any d₀ d) : Evolves .any d₀ (noteWindow d) := by
  unfold noteWindow
  split
  · exact h
  · exact h.updAvs.when .setRegF

protected theorem Evolves.avsReached {b : Nat × Nat} (h : Evolves .any d₀ d) : Evolves .any d₀ (avsReached b d) := by
  unfold avsReached
  exact h.excEnd.excEnd.clampAvs.ite h

protected theorem Evolves.avsRaise {n i : Nat} {b : Nat × Nat} (h : Evolves .any d₀ d) : Evolves .any d₀ (avsRaise n i b d) := by
  unfold avsRaise
  exact h.ite ((h.ite h.updAvs).avsPut |>.when .excTake)

protected theorem Evolves.avsToward {b : Nat × Nat} (h : Evolves .any d₀ d) : Evolves .any d₀ (avsToward b d) := by
  unfold avsToward
  exact (h.avsPut.ite (h.avsPut.ite h)).avsReached

protected theorem Evolves.avsLower {b : Nat × Nat} (h : Evolves .any d₀ d) : Evolves .any d₀ (avsLower b d) := by
  unfold avsLower
  exact h.avsPut.avsReached.ite h

protected theorem Evolves.avsStep (h : Evolves .any d₀ d) : Evolves .any d₀ (avsStep d) := by
  unfold avsStep
  exact h.avsRaise.ite (h.avsToward.ite (h.avsLower.ite h))

protected theorem Evolves.avsWindowEnd (h : Evolves .any d₀ d) : Evolves .any d₀ (avsWindowEnd d) := by
  unfold avsWindowEnd
  exact (h.noteWindow.unless .avsStep).updAvs

theorem execAvsWindowEnd_completing {s : State} : Completing s (execAvsWindowEnd s) :=
  .effect fun h => h.onlyIf .avsWindowEnd

theorem execAvsRailSettled_completing {s : State} : Completing s (execAvsRailSettled s) :=
  .effect fun h => h.onlyIf fun h => h.updAvs

protected theorem Evolves.renameOutside (h : Evolves .any d₀ d) : Evolves .any d₀ (renameOutside d) := by
  unfold renameOutside
  refine h.foldl fun h => ?_
  dsimp only
  split
  · exact h.nameNext.ite h
  · exact h

protected theorem Evolves.clampPoll (h : Evolves .any d₀ d) : Evolves .any d₀ (clampPoll d) := by
  unfold clampPoll
  exact h.updHif.ite h

protected theorem Evolves.applyBounds {loop : Nat} (h : Evolves .any d₀ d) : Evolves .any d₀ (applyBounds loop d) := by
  unfold applyBounds
  split
  · exact h
  · split
    · exact h.clampAvs
    · exact h.clampTrims
    · exact h.updRdc
    · exact h.clampPoll
    · exact h.renameOutside
    · exact h.clampTrim
    · exact h

theorem execBoundsChange_completing {s : State} {loop : Nat} : Completing s (execBoundsChange loop s) :=
  .effect fun h => h.onlyIf .applyBounds

protected theorem Evolves.excReturn {loop : Nat} (h : Evolves .any d₀ d) : Evolves .any d₀ (excReturn loop d) := by
  unfold excReturn
  dsimp only
  split
  · exact h.avsReached
  · exact (h.updWrc.foldl .excEnd).applyBounds
  · exact h.updRdc.foldl .excEnd
  · exact (h.excReach.foldl .excEnd).updHif
  · exact (h.foldl .excEnd).applyBounds
  · exact h.foldl .excEnd

theorem execExcursionReturn_completing {s : State} {loop : Nat} : Completing s (execExcursionReturn loop s) :=
  .effect fun h => h.onlyIf .excReturn

protected theorem Evolves.pacingFault (h : Evolves .any d₀ d) : Evolves .any d₀ (pacingFault d) := by
  unfold pacingFault
  exact h.pacing.raise.refreshInhibit.laserToRead.failMedium.parkStep.unless fun h => h.ite h.beginDust

theorem execCrystalEdgeTimeout_completing {s : State} : Completing s (execCrystalEdgeTimeout s) :=
  .effect fun h => h.onlyIf .pacingFault

theorem execCountWindowEnd_completing {s : State} {periods : Nat} : Completing s (execCountWindowEnd periods s) :=
  .effect fun h => h.onlyIf .pacingFault

theorem execRefclkReturn_completing {s : State} : Completing s (execRefclkReturn s) :=
  .effect fun h => h.pacing

protected theorem Evolves.tickLoRead {who : Requester} (h : Evolves .any d₀ d) : Evolves .any d₀ (tickLoRead who d) := by
  cases who <;> exact h.edit

theorem execTickLoRead_completing {s : State} {who : Requester} : Completing s (execTickLoRead who s) :=
  .effect fun h => h.onBus fun h => h.tickLoRead

/-! ### The definitions of Sys2Proof/Machine/Power.lean -/

protected theorem Evolves.startDrive (h : Evolves μ d₀ d) : Evolves μ d₀ (startDrive d) := by
  unfold startDrive
  exact (h.startHome.ite h).updGen |>.startAcquisition

protected theorem Evolves.wakePower (h : Evolves .any d₀ d) : Evolves .any d₀ (wakePower d) := by
  unfold wakePower
  exact h.ite h.leaveRetention.updHif.clampPoll.startDrive

protected theorem Evolves.exitDone (h : Evolves .any d₀ d) : Evolves .any d₀ (exitDone d) := by
  unfold exitDone
  refine .andThen ?_ fun h => h.updHif.clampPoll.raise
  split
  · exact h.layerConfirmed
  · exact h

theorem execPowerStateExitDone_completing {s : State} : Completing s (execPowerStateExitDone s) :=
  .effect fun h => h.onlyIf .exitDone

protected theorem Evolves.enterPs {n : Nat} (h : Evolves .any d₀ d) : Evolves .any d₀ (enterPs n d) := by
  unfold enterPs
  refine .andThen ?_ fun h => h.updHif.clampPoll.raise
  split
  · exact h.laserOff.openLoop.openLoop.openLoop.servo
  · exact h.brakeDrive.when .disengage
  · exact h.parkDrive.updGen

theorem execIdleTimerExpiry_completing {s : State} : Completing s (execIdleTimerExpiry s) :=
  .effect fun h => h.onlyIf .enterPs

/-! ### The definitions of Sys2Proof/Machine/Search.lean -/

protected theorem Evolves.putSearch {x : Search} (h : Evolves .any d₀ d) : Evolves .any d₀ (putSearch x d) := by
  unfold putSearch
  exact h.updRcl

protected theorem Evolves.searchRead {x : Search} {ls : List Loc} {a n : Nat} (h : Evolves .any d₀ d) :
    Evolves .any d₀ (searchRead x ls a n d) :=
  h.putSearch.dropReads.startRead

protected theorem Evolves.toMaps {ls : List Loc} {x : Search} (h : Evolves .any d₀ d) : Evolves .any d₀ (toMaps ls x d) :=
  h.searchRead

protected theorem Evolves.toProbe {last pos : Nat} {x : Search} (h : Evolves .any d₀ d) : Evolves .any d₀ (toProbe last pos x d) := by
  unfold toProbe
  exact h.toMaps.ite h.searchRead

protected theorem Evolves.toBody {l : Loc} {x : Search} (h : Evolves .any d₀ d) : Evolves .any d₀ (toBody l x d) :=
  h.searchRead

protected theorem Evolves.startSearch {why : SearchFor} {s q : Nat} (h : Evolves .any d₀ d) : Evolves .any d₀ (startSearch why s q d) := by
  unfold startSearch
  split
  · exact h
  · dsimp only
    split
    · exact h.putSearch
    · exact h.toProbe.wakePower

protected theorem Evolves.stepProbe {last pos : Nat} {c : LadderCluster} {x : Search} (h : Evolves .any d₀ d) :
    Evolves .any d₀ (stepProbe last pos c x d) := by
  unfold stepProbe
  dsimp only
  split
  · exact h.toMaps.ite (h.toProbe.ite (h.toMaps.ite h.toProbe))
  · exact h.toProbe

protected theorem Evolves.stepMaps {ls : List Loc} {cs : List LadderCluster} {x : Search} (h : Evolves .any d₀ d) :
    Evolves .any d₀ (stepMaps ls cs x d).2 := by
  unfold stepMaps
  dsimp only
  split
  · exact h.toBody
  · split
    · exact h
    · exact h.toMaps

protected theorem Evolves.indexFound {read : List (Loc × Option (List Byte) × List (BitVec 128))} {gs : List FoundGroup}
    (h : Evolves .any d₀ d) :
    Evolves .any d₀ (indexFound read gs d) := by
  unfold indexFound
  exact h.foldl fun h => h.ite h.indexGroup

protected theorem Evolves.stepBody {l : Loc} {c : LadderCluster} {x : Search} (h : Evolves .any d₀ d) :
    Evolves .any d₀ (stepBody l c x d).2 := by
  unfold stepBody
  dsimp only
  split
  · exact h.toBody
  · exact h.indexFound
  · exact h

protected theorem Evolves.stepSearch {x : Search} (h : Evolves .any d₀ d) : Evolves .any d₀ (stepSearch x d).2 := by
  unfold stepSearch
  dsimp only
  split
  · exact h.stepProbe
  · exact h.stepMaps
  · exact h.stepBody
  · exact h

protected theorem Evolves.dropSearch {why : SearchFor} (h : Evolves .any d₀ d) : Evolves .any d₀ (dropSearch why d) :=
  h.updRcl.dropReads

protected theorem Evolves.noteAbsent {s q : Nat} (h : Evolves .any d₀ d) : Evolves .any d₀ (noteAbsent s q d) := by
  unfold noteAbsent
  exact h.addGroup.updGroup

/-! ### The definitions of Sys2Proof/Machine/Twin.lean -/

protected theorem Evolves.noteBacklog (h : Evolves .any d₀ d) : Evolves .any d₀ (noteBacklog d) := by
  unfold noteBacklog
  exact h.updLath.ite h.drawn.updLath

protected theorem Evolves.storeTables (h : Evolves .any d₀ d) : Evolves .any d₀ (storeTables d) := by
  unfold storeTables
  refine .andThen ?_ fun h => h.dropLines
  refine h.foldl fun h => ?_
  split
  · exact h.storeTable
  · exact h

protected theorem Evolves.tryTopcoat (h : Evolves .any d₀ d) : Evolves .any d₀ (tryTopcoat d) := by
  unfold tryTopcoat
  exact h.updLath.setMode.ite h

protected theorem Evolves.catchComplete (h : Evolves .any d₀ d) : Evolves .any d₀ (catchComplete d) :=
  h.raise.storeTables.sendMsg.updLath.tryTopcoat

protected theorem Evolves.catchProgress (h : Evolves .any d₀ d) : Evolves .any d₀ (catchProgress d) := by
  unfold catchProgress
  exact h.ite ((h.noteBacklog.when (fun h => h.updLath)).when .catchComplete)

protected theorem Evolves.startCatch {g : Machine.Group} (h : Evolves .any d₀ d) : Evolves .any d₀ (startCatch g d) :=
  h.startRead

protected theorem Evolves.pumpBootCatch (h : Evolves .any d₀ d) : Evolves .any d₀ (pumpBootCatch d) := by
  unfold pumpBootCatch
  dsimp only
  split
  · exact h
  · split
    · exact h
    · split
      · exact h.addGroup.drawn.sendGroup.updLath
      · exact h.addGroup
  · split
    · exact h
    · split
      · exact h.addGroup.updGroup.startCatch
      · exact h.addGroup.updGroup

protected theorem Evolves.stepIn {s : Nat} (h : Evolves .any d₀ d) : Evolves .any d₀ (stepIn s d) := by
  unfold stepIn
  exact h.updLath.ite h

protected theorem Evolves.pumpCatch (h : Evolves .any d₀ d) : Evolves .any d₀ (pumpCatch d) := by
  unfold pumpCatch
  split
  · exact h
  · refine .andThen ?_ fun h => h.pumpBootCatch.catchProgress
    refine h.foldl fun h => ?_
    dsimp only
    split
    · split
      · exact h.stepIn.startSearch
      · exact h.stepIn.startCatch
      · exact h.stepIn
    · exact h.stepIn

protected theorem Evolves.putSync {s : Nat} {x : StreamSync} (h : Evolves .any d₀ d) : Evolves .any d₀ (putSync s x d) := by
  unfold putSync
  exact h.updLath

protected theorem Evolves.chainAt {s seq : Nat} (h : Evolves .any d₀ d) : Evolves .any d₀ (chainAt d s seq).2 := by
  unfold chainAt
  split
  · exact h
  · split
    · exact h
    · exact h.drawnWide

protected theorem Evolves.askChain {s seq : Nat} {why : ChainAsk} (h : Evolves .any d₀ d) : Evolves .any d₀ (askChain s seq why d) :=
  h.updLath.sendMsg

protected theorem Evolves.setBehind {s : Nat} (h : Evolves .any d₀ d) : Evolves .any d₀ (setBehind s d) := by
  unfold setBehind
  exact h.putSync.runTask.when .askChain

protected theorem Evolves.setAhead {s : Nat} (h : Evolves .any d₀ d) : Evolves .any d₀ (setAhead s d) := by
  unfold setAhead
  exact h.updLath.putSync

protected theorem Evolves.setInStep {s : Nat} (h : Evolves .any d₀ d) : Evolves .any d₀ (setInStep s d) := by
  unfold setInStep
  exact h.updLath.putSync.andThen fun h => h.runTask.ite (h.runTask.ite h)

protected theorem Evolves.setFork {s c : Nat} (h : Evolves .any d₀ d) : Evolves .any d₀ (setFork s c d) := by
  unfold setFork
  exact h.chainAt.updLath.updRcl.putSync.runTask.count.raise

protected theorem Evolves.forkSearch {s lo hi : Nat} (h : Evolves .any d₀ d) : Evolves .any d₀ (forkSearch s lo hi d) := by
  unfold forkSearch
  split
  · exact h.startSearch
  · dsimp only
    split
    · exact h.askChain
    · exact h.setFork

protected theorem Evolves.compareStream {s : Nat} (h : Evolves .any d₀ d) : Evolves .any d₀ (compareStream s d) := by
  unfold compareStream
  exact h.putSync.ite ((h.setAhead.ite h.askChain).ite ((h.setBehind.ite h.askChain).ite (h.setInStep.ite h.forkSearch)))

protected theorem Evolves.reconciled (h : Evolves .any d₀ d) : Evolves .any d₀ (reconciled d) := by
  unfold reconciled
  exact h.drawn.updLath.raise.pumpCatch.ite h

protected theorem Evolves.takeTable {k : Nat} {recs : TableRecs} (h : Evolves .any d₀ d) : Evolves .any d₀ (takeTable k recs d) := by
  unfold takeTable
  exact h.ite (h.updLath.when (fun h => (h.foldl .compareStream).reconciled))

theorem execTableXfer_completing {s : State} {cr : Credits} {k : Nat} {recs : TableRecs} {poison : BitVec 32} :
    Completing s (execTableXfer cr k recs poison s) :=
  .effect fun h => h.receive .takeTable

protected theorem Evolves.answerChain {mark : Nat} (h : Evolves .any d₀ d) : Evolves .any d₀ (answerChain mark d) :=
  h.chainAt.sendMsg

protected theorem Evolves.takeChainReq {mark : Nat} (h : Evolves .any d₀ d) : Evolves .any d₀ (takeChainReq mark d) := by
  unfold takeChainReq
  split
  · exact h.startSearch
  · exact h.answerChain

theorem execChainReq_completing {s : State} {cr : Credits} {mark : Nat} : Completing s (execChainReq cr mark s) :=
  .effect fun h => h.receive .takeChainReq

protected theorem Evolves.useChain {mark : Nat} {hv : BitVec 128} (h : Evolves .any d₀ d) : Evolves .any d₀ (useChain mark hv d) := by
  unfold useChain
  split
  · exact h
  · dsimp only
    split
    · exact h.updLath.runTask.rechain.settleGroups.catchProgress
    · exact (h.updLath.chainAt.setAhead.ite h.updLath.chainAt.setBehind).reconciled |>.ite h.updLath.chainAt.forkSearch.reconciled
    · exact (h.updLath.chainAt.forkSearch.ite h.updLath.chainAt.forkSearch).reconciled

protected theorem Evolves.takeChain {mark : Nat} {hv : BitVec 128} (h : Evolves .any d₀ d) : Evolves .any d₀ (takeChain mark hv d) := by
  unfold takeChain
  split
  · exact h.startSearch
  · exact h.useChain

theorem execChainVal_completing {s : State} {cr : Credits} {mark : Nat} {hv : BitVec 128} : Completing s (execChainVal cr mark hv s) :=
  .effect fun h => h.receive .takeChain

protected theorem Evolves.renumberGroup {s first : Nat} {g : Machine.Group} (h : Evolves .any d₀ d) :
    Evolves .any d₀ (renumberGroup s first g d).2 := by
  unfold renumberGroup
  exact h.addGroup.placeGroup

protected theorem Evolves.pumpRenumber (h : Evolves .any d₀ d) : Evolves .any d₀ (pumpRenumber d) :=
  h.foldl fun h => .ite h.edit (.ite (h.edit.foldlPair fun h => h.renumberGroup) h)

protected theorem Evolves.attach (h : Evolves .any d₀ d) : Evolves .any d₀ (attach d) := by
  unfold attach
  exact (h.updLath.raise.abandonCoherence.foldl .sendMsg).ownersAttach |>.askGaps

protected theorem Evolves.refuseAttach {b : AttachBlock} (h : Evolves .any d₀ d) : Evolves .any d₀ (refuseAttach b d) := by
  unfold refuseAttach
  exact (h.logLater.ite h).updLath |>.raise

protected theorem Evolves.considerAttach (h : Evolves .any d₀ d) : Evolves .any d₀ (considerAttach d) := by
  unfold considerAttach
  split
  · exact h
  · exact h.ite (h.refuseAttach.ite (h.attach.ite h))

protected theorem Evolves.takeBlock {b : AttachBlock} (h : Evolves .any d₀ d) : Evolves .any d₀ (takeBlock b d) := by
  unfold takeBlock
  exact h.updLath

protected theorem Evolves.takeHello {b : AttachBlock} (h : Evolves .any d₀ d) : Evolves .any d₀ (takeHello b d) := by
  unfold takeHello
  exact h.takeBlock.unless fun h => (h.toUndercoat.ite h).when .sendHello |>.sendMsg |>.updLath |>.considerAttach

theorem execHello_completing {s : State} {cr : Credits} {blk : AttachBlock} : Completing s (execHello cr blk s) :=
  .effect fun h => h.receive .takeHello

theorem execHelloAck_completing {s : State} {cr : Credits} {blk : AttachBlock} : Completing s (execHelloAck cr blk s) :=
  .effect fun h => h.receive fun h => h.takeBlock.ite h.takeBlock.updLath.considerAttach

protected theorem Evolves.takeMode {m : Mode} {sealing : Bool} (h : Evolves .any d₀ d) : Evolves .any d₀ (takeMode m sealing d) := by
  unfold takeMode
  exact (h.updLath.when .raise).when .toUndercoat |>.andThen fun h => h.updLath.tryTopcoat.ite (h.updLath.when .sendHello)

theorem execModeNote_completing {s : State} {cr : Credits} {mode : Mode} {sealing : Bool} : Completing s (execModeNote cr mode sealing s) :=
  .effect fun h => h.receive .takeMode

protected theorem Evolves.lathLost (h : Evolves .any d₀ d) : Evolves .any d₀ (lathLost d) := by
  unfold lathLost
  exact h.updLath.dropReads.raise.toUndercoat.ite h.updLath.dropReads.raise.abandonCoherence.settleGroups.peerGone

theorem execLathDown_completing {s : State} : Completing s (execLathDown s) :=
  .effect fun h => h.onlyIf fun h => h.count.lathLost

theorem execLathLinkError_completing {s : State} : Completing s (execLathLinkError s) :=
  .effect fun h => h.onlyIf fun h => h.updLath.count.raise.lathLost

theorem execAlivePauseEnd_completing {s : State} : Completing s (execAlivePauseEnd s) :=
  .effect fun h => h.onlyIf fun h => h.updLath

theorem execAliveToggle_completing {s : State} : Completing s (execAliveToggle s) :=
  .effect fun h => h.onlyIf fun h => h.updLath

protected theorem Evolves.lathUp (h : Evolves .any d₀ d) : Evolves .any d₀ (lathUp d) :=
  h.updLath.sendHello

theorem execLathLive_completing {s : State} : Completing s (execLathLive s) :=
  .effect fun h => h.onlyIf .lathUp

protected theorem Evolves.notePulse (h : Evolves .any d₀ d) : Evolves .any d₀ (notePulse d) := by
  unfold notePulse
  exact h.updFio

theorem execInPeerPulse_completing {s : State} {low : Nat} : Completing s (execInPeerPulse low s) :=
  .effect fun h => h.onlyIf fun h => h.notePulse

theorem execInPeerFaulted_completing {s : State} : Completing s (execInPeerFaulted s) :=
  .effect fun h => h.onlyIf fun h => h.updLath.raise.toUndercoat

theorem execInPeerHealthy_completing {s : State} : Completing s (execInPeerHealthy s) :=
  .effect fun h => h.onlyIf fun h => h.updLath.raise.when .sendHello

protected theorem Evolves.openExchange {x : Exchange} (h : Evolves .any d₀ d) : Evolves .any d₀ (openExchange x d) :=
  h.updLath.wakePower

theorem execAppBegin_completing {s : State} {cr : Credits} {xid owner mark count : Nat} :
    Completing s (execAppBegin cr xid owner mark count s) :=
  .effect fun h => h.receive fun h => h.onlyIf .openExchange

theorem execCatchBegin_completing {s : State} {cr : Credits} {xid owner mark count : Nat} :
    Completing s (execCatchBegin cr xid owner mark count s) :=
  .effect fun h => h.receive fun h => h.onlyIf .openExchange

protected theorem Evolves.landGroup {x : Exchange} {rs : List (Nat × Nat)} {bs : List Byte} (h : Evolves .any d₀ d) :
    Evolves .any d₀ (landGroup x rs bs d) := by
  unfold landGroup
  dsimp only
  refine h.addGroup.raise.failGroup.ite (h.addGroup.raise.failGroup.ite (.ite ?_ h.addGroup.placeGroup))
  split
  · exact h.addGroup.updGroup.groupVerified
  · exact h.addGroup

protected theorem Evolves.exchangeWhole {x : Exchange} (h : Evolves .any d₀ d) : Evolves .any d₀ (exchangeWhole x d) := by
  unfold exchangeWhole
  dsimp only
  split
  · exact h.updLath.landGroup
  · exact h.updLath.takeBoot.ite h.updLath.landGroup

protected theorem Evolves.takeUnit {catching : Bool} {xid unit : Nat} {bytes : List Byte} {poison : BitVec 32} (h : Evolves .any d₀ d) :
    Evolves .any d₀ (takeUnit catching xid unit bytes poison d) := by
  unfold takeUnit
  split
  · exact h
  · exact h.updLath.when .exchangeWhole

theorem execAppData_completing {s : State} {cr : Credits} {xid unit : Nat} {bytes : List Byte} {poison : BitVec 32} :
    Completing s (execAppData cr xid unit bytes poison s) :=
  .effect fun h => h.receive .takeUnit

theorem execCatchData_completing {s : State} {cr : Credits} {xid unit : Nat} {bytes : List Byte} {poison : BitVec 32} :
    Completing s (execCatchData cr xid unit bytes poison s) :=
  .effect fun h => h.receive .takeUnit

protected theorem Evolves.takeVerified {xid mark : Nat} {ovr : Bool} (h : Evolves .any d₀ d) :
    Evolves .any d₀ (takeVerified xid mark ovr d) := by
  unfold takeVerified
  split
  · exact h
  · exact h.ite h.updGroup.closeXid.settleGroups.settleBoot

theorem execAppVerified_completing {s : State} {cr : Credits} {xid mark : Nat} {ovr : Bool} :
    Completing s (execAppVerified cr xid mark ovr s) :=
  .effect fun h => h.receive .takeVerified

protected theorem Evolves.takeFailed {xid mark status : Nat} (h : Evolves .any d₀ d) : Evolves .any d₀ (takeFailed xid mark status d) := by
  unfold takeFailed
  split
  · exact h
  · split
    · exact h
    · dsimp only
      split
      · exact (h.closeXid.raise.when .raise).failLeader
      · exact (h.closeXid.raise.when .raise).voidGroup |>.settleGroups

theorem execAppFailed_completing {s : State} {cr : Credits} {xid mark status : Nat} : Completing s (execAppFailed cr xid mark status s) :=
  .effect fun h => h.receive .takeFailed

protected theorem Evolves.takeAbort {xid mark : Nat} (h : Evolves .any d₀ d) : Evolves .any d₀ (takeAbort xid mark d) := by
  unfold takeAbort
  dsimp only
  split
  · exact h.updLath.voidGroup.settleGroups
  · exact h.updLath

theorem execAppAbort_completing {s : State} {cr : Credits} {xid mark : Nat} : Completing s (execAppAbort cr xid mark s) :=
  .effect fun h => h.receive .takeAbort

protected theorem Evolves.catchEnded {xid : Nat} {ok : Bool} (h : Evolves .any d₀ d) : Evolves .any d₀ (catchEnded xid ok d) := by
  unfold catchEnded
  split
  · exact h
  · dsimp only
    split
    · split
      · exact h.closeXid.updGroup.settleBoot
      · exact h.closeXid.updRcl.updLath.pumpCatch
    · exact h.closeXid.updLath.pumpCatch

theorem execCatchDone_completing {s : State} {cr : Credits} {xid mark : Nat} : Completing s (execCatchDone cr xid mark s) :=
  .effect fun h => h.receive .catchEnded

theorem execCatchFailed_completing {s : State} {cr : Credits} {xid mark status : Nat} :
    Completing s (execCatchFailed cr xid mark status s) :=
  .effect fun h => h.receive fun h => h.raise.catchEnded

protected theorem Evolves.answerPoison {xid unit : Nat} (h : Evolves .any d₀ d) : Evolves .any d₀ (answerPoison xid unit d) :=
  h.sendMsg

protected theorem Evolves.takeRecovReq {xid mark unit : Nat} (h : Evolves .any d₀ d) : Evolves .any d₀ (takeRecovReq xid mark unit d) := by
  unfold takeRecovReq
  dsimp only
  split
  · exact h.startSearch.ite h.answerPoison
  · split
    · exact h.startCatch.wakePower
    · split
      · exact h.answerPoison
      · exact h.sendMsg.ite h.startRead.wakePower

theorem execRecovReq_completing {s : State} {cr : Credits} {xid mark unit : Nat} : Completing s (execRecovReq cr xid mark unit s) :=
  .effect fun h => h.receive fun h => h.onlyIf .takeRecovReq

protected theorem Evolves.detachDone {leaving : Nat} {tag : Option Nat} (h : Evolves .any d₀ d) :
    Evolves .any d₀ (detachDone leaving tag d) := by
  unfold detachDone
  dsimp only
  split
  · exact h.updLath.beginDust
  · split
    · exact h.updLath.toUndercoat.finishOk
    · exact h.updLath.toUndercoat

protected theorem Evolves.pumpDetach (h : Evolves .any d₀ d) : Evolves .any d₀ (pumpDetach d) := by
  unfold pumpDetach
  split
  · exact h
  · exact h.detachDone.ite ((h.updLath.startRange.ite h).when (fun h => h.updLath.sendMsg) |>.when .detachDone)

protected theorem Evolves.beginDetach {leaving : Nat} {tag : Option Nat} (h : Evolves .any d₀ d) :
    Evolves .any d₀ (beginDetach leaving tag d) :=
  h.updLath.pumpDetach

theorem execDetach_completing {s : State} {cr : Credits} {leaving : Nat} : Completing s (execDetach cr leaving s) :=
  .effect fun h => h.receive fun h => h.onlyIf .beginDetach

theorem execDetachAck_completing {s : State} {cr : Credits} : Completing s (execDetachAck cr s) :=
  .effect fun h => h.receive fun h => h.onlyIf (fun h => h.updLath.pumpDetach)

protected theorem Evolves.pumpTwin (h : Evolves .any d₀ d) : Evolves .any d₀ (pumpTwin d) :=
  h.pumpDetach.pumpRenumber.pumpCatch

/-! ### The definitions of Sys2Proof/Machine/FlashCmd.lean -/

protected theorem Evolves.flashApply {op : FlashOp} {a : Nat} (h : Evolves .any d₀ d) : Evolves .any d₀ (flashApply op a d) := by
  unfold flashApply
  split
  · exact h.programAt
  · exact h.eraseSectorAt
  · exact h.foldl fun h => h.eraseSectorAt
  · exact h.updFls

protected theorem Evolves.startFlash {op : FlashOp} (h : Evolves .any d₀ d) : Evolves .any d₀ (startFlash op d) := by
  unfold startFlash
  exact h.setRegF.unless fun h => h.updFls.ite (h.updFls.ite h.flashApply.updFls)

theorem execProgram_completing {s : State} {who : Requester} : Completing s (execProgram who s) :=
  .effect fun h => h.gate .startFlash

theorem execEraseSector_completing {s : State} {who : Requester} : Completing s (execEraseSector who s) :=
  .effect fun h => h.gate .startFlash

theorem execEraseBlock_completing {s : State} {who : Requester} : Completing s (execEraseBlock who s) :=
  .effect fun h => h.gate .startFlash

theorem execBitClear_completing {s : State} {who : Requester} : Completing s (execBitClear who s) :=
  .effect fun h => h.gate .startFlash

protected theorem Evolves.noteDue {sector : Nat} (h : Evolves .any d₀ d) : Evolves .any d₀ (noteDue sector d) :=
  h.updFls.raise

protected theorem Evolves.deliverFlash {bs : List Byte} {poison : Bool} (h : Evolves .any d₀ d) :
    Evolves .any d₀ (deliverFlash bs poison d) := by
  unfold deliverFlash
  exact h.updFls

protected theorem Evolves.noteChunk {r : ChunkRead} (h : Evolves .any d₀ d) : Evolves .any d₀ (noteChunk r d) := by
  unfold noteChunk
  exact h.count.raise.ite (h.count.raise.ite h)

protected theorem Evolves.senseChunk {k : Nat} {flips : List Nat} (h : Evolves .any d₀ d) : Evolves .any d₀ (senseChunk k flips d) := by
  unfold senseChunk
  dsimp only
  split
  · exact h.noteChunk.deliverFlash
  · exact h.noteChunk.deliverFlash
  · exact h.noteChunk.deliverFlash.noteDue.ite h.noteChunk.deliverFlash
  · exact h.noteChunk.deliverFlash

protected theorem Evolves.askSuspend {auto : Bool} (h : Evolves .any d₀ d) : Evolves .any d₀ (askSuspend auto d) := by
  unfold askSuspend
  exact (h.ite h.updFls).ite (h.updFls.ite h.updFls.count.raise)

protected theorem Evolves.flashRead {k : Nat} {flips : List Nat} (h : Evolves .any d₀ d) : Evolves .any d₀ (flashRead k flips d) := by
  unfold flashRead
  exact h.deliverFlash.ite (h.senseChunk.ite (h.updFls.when .askSuspend))

theorem execFlashRead_completing {s : State} {chunk : Nat} {flips : List Nat} : Completing s (execFlashRead chunk flips s) :=
  .effect fun h => h.onlyIf .flashRead

protected theorem Evolves.serveWaiting (h : Evolves .any d₀ d) : Evolves .any d₀ (serveWaiting d) := by
  unfold serveWaiting
  exact h.updFls.foldl .senseChunk

theorem execSuspend_completing {s : State} {who : Requester} : Completing s (execSuspend who s) :=
  .effect fun h => h.gate fun h => h.setRegF.askSuspend

protected theorem Evolves.resumeFlash (h : Evolves .any d₀ d) : Evolves .any d₀ (resumeFlash d) := by
  unfold resumeFlash
  exact h.updFls.ite h

theorem execResume_completing {s : State} {who : Requester} : Completing s (execResume who s) :=
  .effect fun h => h.gate fun h => h.setRegF.resumeFlash

theorem execSuspendReached_completing {s : State} : Completing s (execSuspendReached s) :=
  .effect fun h => h.onlyIf fun h => h.updFls.serveWaiting

theorem execSuspendHoldExpiry_completing {s : State} : Completing s (execSuspendHoldExpiry s) :=
  .effect fun h => h.onlyIf fun h => h.updFls

theorem execAutoSuspendEnd_completing {s : State} : Completing s (execAutoSuspendEnd s) :=
  .effect fun h => h.onlyIf .resumeFlash

protected theorem Evolves.cutRange {lo n : Nat} (h : Evolves .any d₀ d) : Evolves .any d₀ (cutRange lo n d) := by
  unfold cutRange
  exact h.updFls

protected theorem Evolves.flashDone {verified : Bool} (h : Evolves .any d₀ d) : Evolves .any d₀ (flashDone verified d) := by
  unfold flashDone
  split
  · exact h
  · exact (h.updFls.raise.unless (fun h => h.updFls.cutRange.count.raise)).serveWaiting

theorem execFlashOpDone_completing {s : State} {verified : Bool} : Completing s (execFlashOpDone verified s) :=
  .effect fun h => h.onlyIf .flashDone

protected theorem Evolves.scrubSector {sector : Nat} {flips : List (Nat × List Nat)} (h : Evolves .any d₀ d) :
    Evolves .any d₀ (scrubSector sector flips d) := by
  unfold scrubSector
  exact (h.foldl .noteChunk).when .noteDue

theorem execFlashScrub_completing {s : State} {sector : Nat} {flips : List (Nat × List Nat)} :
    Completing s (execFlashScrub sector flips s) :=
  .effect fun h => h.onlyIf .scrubSector

protected theorem Evolves.programChunk {k : Nat} {raw : List Byte} {r : Option ChunkRead} (h : Evolves .any d₀ d) :
    Evolves .any d₀ (programChunk k raw r d) := by
  unfold programChunk
  split
  · exact h.programAt
  · exact h.updFls
  · exact h

protected theorem Evolves.rewriteSector {n m : Nat} (h : Evolves .any d₀ d) : Evolves .any d₀ (rewriteSector n m d) := by
  unfold rewriteSector
  exact (h.eraseSectorAt.foldl .programChunk).updFls

protected theorem Evolves.refreshFlash {n : Nat} (h : Evolves .any d₀ d) : Evolves .any d₀ (refreshFlash n d) := by
  unfold refreshFlash
  split
  · exact h.rewriteSector
  · split
    · exact h.rewriteSector.ite h
    · exact h

theorem execFlashRefresh_completing {s : State} {sector : Nat} : Completing s (execFlashRefresh sector s) :=
  .effect fun h => h.onlyIf .refreshFlash

protected theorem Evolves.updEvt {f : EventLog → EventLog} (h : Evolves .any d₀ d) : Evolves .any d₀ (updEvt f d) := by
  unfold updEvt
  exact h.evt

protected theorem Evolves.putEvent {tick origin source code : Nat} {detail : List Byte} (h : Evolves .any d₀ d) :
    Evolves .any d₀ (putEvent tick origin source code detail d) := by
  unfold putEvent
  exact (h.eraseSectorAt.ite h).programAt |>.updEvt |>.raise

protected theorem Evolves.rollHour (h : Evolves .any d₀ d) : Evolves .any d₀ (rollHour d) := by
  unfold rollHour
  exact (h.updEvt.when .putEvent).ite h

protected theorem Evolves.logEventAt {tick origin source code : Nat} {detail : List Byte} (h : Evolves .any d₀ d) :
    Evolves .any d₀ (logEventAt tick origin source code detail d) := by
  unfold logEventAt
  exact h.rollHour.unless fun h => h.updEvt.ite h.putEvent

protected theorem Evolves.logEvent {origin source code : Nat} {detail : List Byte} (h : Evolves .any d₀ d) :
    Evolves .any d₀ (logEvent origin source code detail d) :=
  h.logEventAt

protected theorem Evolves.writeQueued (h : Evolves .any d₀ d) : Evolves .any d₀ (writeQueued d) := by
  unfold writeQueued
  split
  · exact h
  · exact h.updEvt.logEventAt.ite h

theorem execEventLogWrite_completing {s : State} {origin source code : Nat} {detail : List Byte} :
    Completing s (execEventLogWrite origin source code detail s) :=
  .effect fun h => (h.onlyIf .logEvent).ite ((h.onlyIf .writeQueued).ite h)

theorem execEventLogHourEnd_completing {s : State} : Completing s (execEventLogHourEnd s) :=
  .effect fun h => h.rollHour

protected theorem Evolves.programMark {a : Nat} (h : Evolves μ d₀ d) : Evolves μ d₀ (programMark a d) := by
  unfold programMark
  exact h.updFls.programAt

protected theorem Evolves.imageStarts (h : Evolves μ d₀ d) : Evolves μ d₀ (imageStarts d) := by
  unfold imageStarts
  dsimp only
  split
  · split
    · exact h.gen.programMark
    · exact h.gen
  · exact h.gen

theorem execConfirmMark_completing {s : State} : Completing s (execConfirmMark s) :=
  .effect fun h => h.onlyIf fun h => h.programMark

/-! ### The definitions of Sys2Proof/Machine/Ecc.lean -/

protected theorem Evolves.updEcc {f : Ecc → Ecc} (h : Evolves .any d₀ d) : Evolves .any d₀ (updEcc f d) := by
  unfold updEcc
  exact h.ecc

protected theorem Evolves.noteEcc {mem kind word : Nat} (h : Evolves .any d₀ d) : Evolves .any d₀ (noteEcc mem kind word d) := by
  unfold noteEcc
  exact h.updEcc

protected theorem Evolves.dropLogEntry {n : Nat} (h : Evolves .any d₀ d) : Evolves .any d₀ (dropLogEntry n d) := by
  unfold dropLogEntry
  exact (h.exc.ite h).ite (h.updLsk.ite h)

protected theorem Evolves.poisonWord {mem word : Nat} (h : Evolves .any d₀ d) : Evolves .any d₀ (poisonWord mem word d) := by
  unfold poisonWord
  exact h.ite (h.updCache.ite (h.dropLogEntry.ite h.updEcc))

protected theorem Evolves.scrubWord {mem word : Nat} {data : BitVec 64} {check : BitVec 8} {written : Bool} (h : Evolves .any d₀ d) :
    Evolves .any d₀ (scrubWord mem word data check written d) := by
  unfold scrubWord
  split
  · exact h
  · exact h
  · exact h.count.noteEcc.raise
  · exact h.count.noteEcc.raise.unless .poisonWord

theorem execSramScrub_completing {s : State} {mem word : Nat} {data : BitVec 64} {check : BitVec 8} {last written : Bool} :
    Completing s (execSramScrub mem word data check last written s) :=
  .effect fun h => h.onlyIf fun h => h.scrubWord.when (fun h => h.updEcc)

theorem execPoisonConsumed_completing {s : State} {mem : Nat} {addr : Word32} {_fetch : Bool} :
    Completing s (execPoisonConsumed mem addr _fetch s) :=
  .effect fun h => h.onlyIf fun h => (h.count.when (fun h => h.noteEcc)).raise

protected theorem Evolves.splitOpen {v : Word32} (h : Evolves .any d₀ d) : Evolves .any d₀ (splitOpen v d) := by
  unfold splitOpen
  exact h.ite ((h.setRegF.ite h).setRegF |>.when (fun h => h.updEcc.setLevel))

protected theorem Evolves.splitClose (h : Evolves .any d₀ d) : Evolves .any d₀ (splitClose d) :=
  h.updEcc.setLevel

theorem execSplitModeOpen_completing {s : State} {who : Requester} {value : Word32} : Completing s (execSplitModeOpen who value s) :=
  .effect fun h => h.gate .splitOpen

theorem execSplitModeClose_completing {s : State} {who : Requester} : Completing s (execSplitModeClose who s) :=
  .effect fun h => h.gate .splitClose

theorem execSplitModeTimeout_completing {s : State} : Completing s (execSplitModeTimeout s) :=
  .effect fun h => h.onlyIf .splitClose

protected theorem Evolves.updRow {f : BitVec 64 × BitVec 8 → BitVec 64 × BitVec 8} (h : Evolves .any d₀ d) :
    Evolves .any d₀ (updRow f d) := by
  unfold updRow
  exact h.updEcc.ite h

theorem execTestWriteData_completing {s : State} {who : Requester} : Completing s (execTestWriteData who s) :=
  .effect fun h => h.gate fun h => h.updRow

theorem execTestWriteCheck_completing {s : State} {who : Requester} : Completing s (execTestWriteCheck who s) :=
  .effect fun h => h.gate fun h => h.updRow

protected theorem Evolves.readRow (h : Evolves .any d₀ d) : Evolves .any d₀ (readRow d) := by
  unfold readRow
  dsimp only
  split <;> exact h.updEcc

theorem execTestRead_completing {s : State} {who : Requester} : Completing s (execTestRead who s) :=
  .effect fun h => h.gate fun h => h.onlyIf .readRow

protected theorem Evolves.zeroData {addr : Word32} (h : Evolves .any d₀ d) : Evolves .any d₀ (zeroData addr d) := by
  unfold zeroData
  exact h.updEcc.ite h

theorem execZeroWord_completing {s : State} {who : Requester} {addr : Word32} : Completing s (execZeroWord who addr s) :=
  .effect fun h => h.gate .zeroData

/-! ### The definitions of Sys2Proof/Machine/Supply.lean -/

protected theorem Evolves.chargerOff (h : Evolves .any d₀ d) : Evolves .any d₀ (chargerOff d) := by
  unfold chargerOff
  exact h.updPwr

protected theorem Evolves.chargerOn (h : Evolves .any d₀ d) : Evolves .any d₀ (chargerOn d) := by
  unfold chargerOn
  exact h.updPwr.ite h

protected theorem Evolves.loadOnHawk (h : Evolves .any d₀ d) : Evolves .any d₀ (loadOnHawk d) := by
  unfold loadOnHawk
  exact h.updPwr.chargerOff

protected theorem Evolves.loadOnVin (h : Evolves .any d₀ d) : Evolves .any d₀ (loadOnVin d) :=
  h.updPwr.chargerOn

protected theorem Evolves.stopBleedAndTest (h : Evolves .any d₀ d) : Evolves .any d₀ (stopBleedAndTest d) := by
  unfold stopBleedAndTest
  exact h.updPwr

protected theorem Evolves.fillAfterSeal (h : Evolves .any d₀ d) : Evolves .any d₀ (fillAfterSeal d) := by
  unfold fillAfterSeal
  split
  · exact h
  · dsimp only
    split
    · exact h.updPwr.queueFill.queueFill
    · exact h.updPwr.queueFill

protected theorem Evolves.resumeFormat (h : Evolves .any d₀ d) : Evolves .any d₀ (resumeFormat d) := by
  unfold resumeFormat
  exact (h.queueFormatGroup.ite (h.ite h.writeDefects.writeActivation)).ite h

protected theorem Evolves.spinUp (h : Evolves μ d₀ d) : Evolves μ d₀ (spinUp d) :=
  h.leaveRetention.startDrive

protected theorem Evolves.armNow (h : Evolves .any d₀ d) : Evolves .any d₀ (armNow d) :=
  h.updPwr.fillAfterSeal.resumeFormat.leaveNow

protected theorem Evolves.reArmed (h : Evolves .any d₀ d) : Evolves .any d₀ (reArmed d) := by
  unfold reArmed
  exact (h.leaveRetention.armNow.raise.unless .spinUp).andThen fun h => h.tellMode.sendHello.ite (h.tellMode.ite h)

protected theorem Evolves.rideOver (h : Evolves .any d₀ d) : Evolves .any d₀ (rideOver d) :=
  h.updPwr.raise

protected theorem Evolves.supplyByStack (h : Evolves .any d₀ d) : Evolves .any d₀ (supplyByStack d) := by
  unfold supplyByStack
  split
  · exact h
  · split
    · exact h.ite h.armNow
    · exact h.reArmed
    · exact h.rideOver.ite h
    · exact h

protected theorem Evolves.abortReads (h : Evolves .any d₀ d) : Evolves .any d₀ (abortReads d) := by
  unfold abortReads
  exact (h.foldl .finish).dropReads

protected theorem Evolves.stopSled (h : Evolves .any d₀ d) : Evolves .any d₀ (stopSled d) := by
  unfold stopSled
  split
  · exact h.startRamp.refreshInhibit
  · exact h.startRamp.refreshInhibit
  · exact h.startRamp.refreshInhibit
  · exact h

protected theorem Evolves.warnUnarmed (h : Evolves .any d₀ d) : Evolves .any d₀ (warnUnarmed d) := by
  unfold warnUnarmed
  exact h.chargerOff.stopBleedAndTest.laserOff.abortReads.updGen.andThen fun h => h.brakeDrive.stopSled.ite
    h.loadOnHawk.brakeDrive.parkDrive

protected theorem Evolves.beginRide (h : Evolves .any d₀ d) : Evolves .any d₀ (beginRide d) := by
  unfold beginRide
  exact h.loadOnHawk.stopBleedAndTest.updPwr

protected theorem Evolves.warningBegins (h : Evolves .any d₀ d) : Evolves .any d₀ (warningBegins d) := by
  unfold warningBegins
  dsimp only
  split
  · exact h.updPwr.warnUnarmed
  · exact h.updPwr.beginRide
  · exact h.updPwr.loadOnHawk.stopBleedAndTest
  · exact h.updPwr.stopBleedAndTest
  · exact h.updPwr.stopBleedAndTest
  · exact h.updPwr.updPwr.loadOnHawk.stopBleedAndTest

protected theorem Evolves.withWarning {f : Device → Device} (h : Evolves .any d₀ d) (hf : ∀
    {d}, Evolves .any d₀ d → Evolves .any d₀ (f d)) :
    Evolves .any d₀ (withWarning f d) := by
  unfold withWarning
  exact (hf h).warningBegins |>.ite ((hf h).when (fun h => h.updPwr))

theorem execVinWarnAssert_completing {s : State} : Completing s (execVinWarnAssert s) :=
  .effect fun h => h.onlyIf fun h => h.withWarning (fun h => h.updPwr.setLevel)

theorem execVinWarnClear_completing {s : State} : Completing s (execVinWarnClear s) :=
  .effect fun h => h.onlyIf fun h => h.withWarning (fun h => h.updPwr.setLevel)

protected theorem Evolves.takePwrwarn {on : Bool} (h : Evolves .any d₀ d) : Evolves .any d₀ (takePwrwarn on d) :=
  h.withWarning fun h => h.updPwr.setLevel

theorem execPwrwarnInputChange_completing {s : State} {energised : Bool} {held : Nat} :
    Completing s (execPwrwarnInputChange energised held s) :=
  .effect fun h => h.onlyIf .takePwrwarn

protected theorem Evolves.beginReArm (h : Evolves .any d₀ d) : Evolves .any d₀ (beginReArm d) :=
  h.updPwr.loadOnVin

protected theorem Evolves.takeReturn (h : Evolves .any d₀ d) : Evolves .any d₀ (takeReturn d) := by
  unfold takeReturn
  split
  · exact h.updPwr.loadOnVin
  · exact h.updPwr.loadOnVin
  · exact h.updPwr.loadOnVin.supplyByStack
  · exact h
  · exact h.beginReArm
  · exact h

theorem execReturnCondition_completing {s : State} : Completing s (execReturnCondition s) :=
  .effect fun h => h.onlyIf .takeReturn

protected theorem Evolves.rewindRing {n : Nat} (h : Evolves .any d₀ d) : Evolves .any d₀ (rewindRing n d) := by
  unfold rewindRing
  dsimp only
  split
  · exact h
  · exact h.updSq

protected theorem Evolves.dropWaiting (h : Evolves .any d₀ d) : Evolves .any d₀ (dropWaiting d) := by
  unfold dropWaiting
  exact (h.foldl .rewindRing).updHif

protected theorem Evolves.stopCatchup (h : Evolves .any d₀ d) : Evolves .any d₀ (stopCatchup d) := by
  unfold stopCatchup
  exact (h.foldl .voidGroup).updLath |>.peerGone |>.ite h

protected theorem Evolves.beginSeal (h : Evolves .any d₀ d) : Evolves .any d₀ (beginSeal d) := by
  unfold beginSeal
  exact h.loadOnHawk.stopBleedAndTest.updPwr.andThen fun h => (h.raise.setMode.ite h.raise.tellMode).stopCatchup |>.excTake |>.updHif
    |>.dropWaiting |>.pumpTwin

theorem execRideThroughWindowExpiry_completing {s : State} : Completing s (execRideThroughWindowExpiry s) :=
  .effect fun h => h.onlyIf .beginSeal

theorem execSealLevelTrip_completing {s : State} : Completing s (execSealLevelTrip s) :=
  .effect fun h => h.updPwr.setLevel.onlyIf .beginSeal

protected theorem Evolves.rewindPlacement {o : Nat} (h : Evolves .any d₀ d) : Evolves .any d₀ (rewindPlacement o d) := by
  unfold rewindPlacement
  dsimp only
  split
  · exact h
  · exact h.updRing

protected theorem Evolves.noteFill {o : Nat} (h : Evolves .any d₀ d) : Evolves .any d₀ (noteFill o d) := by
  suffices k : ∀ f, f = Machine.noteFill → Evolves .any d₀ (f o d) from k _ rfl
  intro f hf
  delta Machine.noteFill at hf
  obtain ⟨g, hg⟩ : ∃ g, g = groupOf := exists_eq
  obtain ⟨sg, hsg⟩ : ∃ sg, sg = sealGroups := exists_eq
  rw [← hg, ← hsg] at hf
  subst hf
  beta_reduce
  extract_lets r
  split
  · exact h
  · extract_lets z
    split
    split
    exact h.updPwr

protected theorem Evolves.abandonCluster {c : WriteCluster} (h : Evolves .any d₀ d) : Evolves .any d₀ (abandonCluster c d) := by
  unfold abandonCluster
  dsimp only
  split
  · exact (h.dropCluster.foldl .excursionOver).failCluster |>.rewriteDirectory
  · exact (h.dropCluster.foldl .excursionOver).failCluster |>.updRcl
  · exact (h.dropCluster.foldl .excursionOver).failCluster

protected theorem Evolves.abandonAssemblies (h : Evolves .any d₀ d) : Evolves .any d₀ (abandonAssemblies d) := by
  unfold abandonAssemblies
  exact h.updRcl.foldl .failGroup

protected theorem Evolves.detachOwnerOps (h : Evolves .any d₀ d) : Evolves .any d₀ (detachOwnerOps d) := by
  unfold detachOwnerOps
  exact h.updCry

protected theorem Evolves.settleSeal {old : List WriteCluster} (h : Evolves .any d₀ d) : Evolves .any d₀ (settleSeal old d) := by
  unfold settleSeal
  exact (h.foldl .abandonCluster).abandonAssemblies |>.settleGroups |>.finishAll |>.dropReads |>.updRcl |>.detachOwnerOps |>.updLath
    |>.updGen

protected theorem Evolves.beginSealPark (h : Evolves .any d₀ d) : Evolves .any d₀ (beginSealPark d) :=
  h.updPwr.standParked.refreshInhibit

protected theorem Evolves.finishSealStep (h : Evolves .any d₀ d) : Evolves .any d₀ (finishSealStep d) := by
  unfold finishSealStep
  dsimp only
  split
  · exact h.updWrc.rewindPlacement.noteFill.queueSeal.updPwr.settleSeal
  · exact h.updWrc.settleSeal.beginSealPark

theorem execSealFinishEnd_completing {s : State} : Completing s (execSealFinishEnd s) :=
  .effect fun h => h.onlyIf .finishSealStep

protected theorem Evolves.dropCheckpoint {c : WriteCluster} (h : Evolves .any d₀ d) : Evolves .any d₀ (dropCheckpoint c d) := by
  unfold dropCheckpoint
  exact h.updPwr.dropCluster

theorem execSealCheckpointEnd_completing {s : State} : Completing s (execSealCheckpointEnd s) :=
  .effect fun h => h.onlyIf fun h => (h.foldl (fun h => h.dropCheckpoint)).beginSealPark

protected theorem Evolves.sealEntry (h : Evolves .any d₀ d) : Evolves .any d₀ (sealEntry d) := by
  unfold sealEntry
  exact h.logEvent.unless fun h => h.nv

protected theorem Evolves.sealDone (h : Evolves .any d₀ d) : Evolves .any d₀ (sealDone d) := by
  unfold sealDone
  exact h.updPwr.updRcl.raise.sealEntry.when .beginReArm

theorem execSealParkEnd_completing {s : State} : Completing s (execSealParkEnd s) :=
  .effect fun h => h.onlyIf .sealDone

protected theorem Evolves.refCheck {refB : Nat} (h : Evolves .any d₀ d) : Evolves .any d₀ (refCheck refB d) := by
  unfold refCheck
  exact h.updPwr.updPwr.raise.ite h.updPwr.updPwr

protected theorem Evolves.wireTest {moves : List Nat} (h : Evolves .any d₀ d) : Evolves .any d₀ (wireTest moves d) := by
  unfold wireTest
  exact h.updPwr.unless .raise

protected theorem Evolves.mismatchCheck (h : Evolves .any d₀ d) : Evolves .any d₀ (mismatchCheck d) := by
  unfold mismatchCheck
  exact h.updPwr.ite ((h.updPwr.when .raise).ite h.updPwr)

protected theorem Evolves.alarmCheck (h : Evolves .any d₀ d) : Evolves .any d₀ (alarmCheck d) :=
  h.updPwr.setLevel

protected theorem Evolves.stackLevels (h : Evolves .any d₀ d) : Evolves .any d₀ (stackLevels d) :=
  h.updPwr.setLevel.setLevel

protected theorem Evolves.chargerStep {current : Nat} (h : Evolves .any d₀ d) : Evolves .any d₀ (chargerStep current d) := by
  unfold chargerStep
  exact h.chargerOff.ite h.updPwr

protected theorem Evolves.restartMonitor (h : Evolves .any d₀ d) : Evolves .any d₀ (restartMonitor d) := by
  unfold restartMonitor
  exact h.updPwr.countF.ite h

protected theorem Evolves.takeCells {cells : List Nat} {refB : Nat} (h : Evolves .any d₀ d) : Evolves .any d₀ (takeCells cells refB d) := by
  unfold takeCells
  exact h.ite (h.updPwr.ite h.updPwr)

protected theorem Evolves.noteBeat (h : Evolves .any d₀ d) : Evolves .any d₀ (noteBeat d) := by
  unfold noteBeat
  exact h.updPwr.ite h

protected theorem Evolves.takeResults {cells : List Nat} {refB : Nat} {tapMoves : List Nat} (h : Evolves .any d₀ d) :
    Evolves .any d₀ (takeResults cells refB tapMoves d) := by
  unfold takeResults
  exact (h.takeCells.refCheck.when .wireTest).ite h.updPwr

protected theorem Evolves.monitorCycle {cells : List Nat} {refB coarse current : Nat} {tapMoves : List Nat} (h : Evolves .any d₀ d) :
    Evolves .any d₀ (monitorCycle cells refB coarse current tapMoves d) :=
  h.restartMonitor.updPwr.takeResults.noteBeat.mismatchCheck.alarmCheck.stackLevels.chargerStep.supplyByStack

theorem execStackMonitorCycle_completing {s : State} {cells : List Nat} {refB coarse current : Nat} {tapMoves : List Nat} :
    Completing s (execStackMonitorCycle cells refB coarse current tapMoves s) :=
  .effect fun h => h.onlyIf .monitorCycle

theorem execHeartbeatLoss_completing {s : State} {quiet : Nat} : Completing s (execHeartbeatLoss quiet s) :=
  .effect fun h => h.onlyIf fun h => h.updPwr.countF.setLevel

theorem execHeartbeatRestored_completing {s : State} {present : Nat} : Completing s (execHeartbeatRestored present s) :=
  .effect fun h => h.onlyIf fun h => h.updPwr.setLevel

protected theorem Evolves.balance {v : Word32} (h : Evolves .any d₀ d) : Evolves .any d₀ (balance v d) := by
  unfold balance
  exact h.updPwr.unless fun h => h.updPwr.ite h.updPwr

theorem execBalanceCommand_completing {s : State} {who : Requester} {value : Word32} : Completing s (execBalanceCommand who value s) :=
  .effect fun h => h.gate .balance

theorem execBalanceExpiry_completing {s : State} : Completing s (execBalanceExpiry s) :=
  .effect fun h => h.onlyIf fun h => h.updPwr.raise

theorem execDischargeTestRequest_completing {s : State} {who : Requester} : Completing s (execDischargeTestRequest who s) :=
  .effect fun h => h.gate fun h => h.updPwr

theorem execDischargeTestDue_completing {s : State} : Completing s (execDischargeTestDue s) :=
  .effect fun h => h.onlyIf fun h => h.updPwr

theorem execDischargeTestStart_completing {s : State} : Completing s (execDischargeTestStart s) :=
  .effect fun h => h.onlyIf fun h => h.updPwr.chargerOff

protected theorem Evolves.testDone {fallMv ticks : Nat} (h : Evolves .any d₀ d) : Evolves .any d₀ (testDone fallMv ticks d) := by
  unfold testDone
  exact (h.drawn.ite h).updPwr |>.chargerOn |>.raise |>.when .raise

theorem execDischargeTestDone_completing {s : State} {fallMv ticks : Nat} : Completing s (execDischargeTestDone fallMv ticks s) :=
  .effect fun h => h.onlyIf .testDone

theorem execVinAdcSample_completing {s : State} {vin field : Nat} : Completing s (execVinAdcSample vin field s) :=
  .effect fun h => h.onlyIf fun h => h.updPwr.setLevel

theorem execJunctionTemperatureLimit_completing {s : State} {core afe : Int} : Completing s (execJunctionTemperatureLimit core afe s) :=
  .effect fun h => h.updPwr.setLevel

/-! ### The definitions of Sys2Proof/Machine/Lockstep.lean -/

protected theorem Evolves.pairTick (h : Evolves .any d₀ d) : Evolves .any d₀ (pairTick d) := by
  unfold pairTick
  exact h.updLsk.ite h

protected theorem Evolves.freeOutput (h : Evolves .any d₀ d) : Evolves .any d₀ (freeOutput d) := by
  unfold freeOutput
  exact h.updLsk

protected theorem Evolves.issuePair {r : DelayReg} (h : Evolves .any d₀ d) : Evolves .any d₀ (issuePair r d) := by
  unfold issuePair
  exact h.updLsk

protected theorem Evolves.delayFaulted {cause : Nat} (h : Evolves .any d₀ d) : Evolves .any d₀ (delayFaulted cause d) :=
  h.raise.logSafety.enterPrimer

protected theorem Evolves.beginRestart (h : Evolves .any d₀ d) : Evolves .any d₀ (beginRestart d) :=
  h.updLsk.endActive

protected theorem Evolves.mismatchAt {addr : Word32} (h : Evolves .any d₀ d) : Evolves .any d₀ (mismatchAt addr d) := by
  unfold mismatchAt
  exact h.updLsk.raise.logSafety.enterPrimer.ite h.updLsk.raise.logSafety.beginRestart

protected theorem Evolves.coreMismatch {lead trail : BusCopy} {upsetA upsetB : BitVec 81} (h : Evolves .any d₀ d) :
    Evolves .any d₀ (coreMismatch lead trail upsetA upsetB d) := by
  unfold coreMismatch
  dsimp only
  split
  · exact h.issuePair.delayFaulted
  · exact h.issuePair.freeOutput.ite h.issuePair.mismatchAt

theorem execCoreMismatch_completing {s : State} {lead trail : BusCopy} {upsetA upsetB : BitVec 81} :
    Completing s (execCoreMismatch lead trail upsetA upsetB s) :=
  .effect fun h => h.onlyIf .coreMismatch

protected theorem Evolves.nextTest (h : Evolves .any d₀ d) : Evolves .any d₀ (nextTest d) := by
  unfold nextTest
  exact h.updLsk

protected theorem Evolves.selftestFailed (h : Evolves .any d₀ d) : Evolves .any d₀ (selftestFailed d) :=
  h.nextTest.raise.logSafety.enterPrimer

protected theorem Evolves.lockstepSelftest {lead trail : BusCopy} (h : Evolves .any d₀ d) :
    Evolves .any d₀ (lockstepSelftest lead trail d) := by
  unfold lockstepSelftest
  exact h.issuePair.selftestFailed.ite (h.issuePair.updLsk.nextTest.andThen (fun h => h.freeOutput.ite h.mismatchAt))

theorem execLockstepSelftest_completing {s : State} {lead trail : BusCopy} : Completing s (execLockstepSelftest lead trail s) :=
  .effect fun h => h.onlyIf .lockstepSelftest

theorem execLockstepSelftestFail_completing {s : State} : Completing s (execLockstepSelftestFail s) :=
  .effect fun h => h.onlyIf .selftestFailed

protected theorem Evolves.delayRegisterFault {upsetA upsetB : BitVec 81} (h : Evolves .any d₀ d) :
    Evolves .any d₀ (delayRegisterFault upsetA upsetB d) := by
  unfold delayRegisterFault
  dsimp only
  split
  · exact h.delayFaulted
  · exact h

theorem execDelayRegisterFault_completing {s : State} {upsetA upsetB : BitVec 81} : Completing s (execDelayRegisterFault upsetA upsetB s) :=
  .effect fun h => h.onlyIf .delayRegisterFault

protected theorem Evolves.restartDone (h : Evolves .any d₀ d) : Evolves .any d₀ (restartDone d) :=
  h.updLsk.imageStarts.raise

protected theorem Evolves.warmRestartDone {crcOk otherOk : Bool} (h : Evolves .any d₀ d) :
    Evolves .any d₀ (warmRestartDone crcOk otherOk d) := by
  unfold warmRestartDone
  exact h.restartDone.ite (h.raise.logSafety.updLsk.restartDone.ite h.raise.logSafety.enterPrimer)

theorem execWarmRestartDone_completing {s : State} {crcOk otherOk : Bool} : Completing s (execWarmRestartDone crcOk otherOk s) :=
  .effect fun h => h.onlyIf .warmRestartDone

/-! ### The definitions of Sys2Proof/Machine/FieldIo.lean -/

protected theorem Evolves.pulseWindow {i : Nat} (h : Evolves .any d₀ d) : Evolves .any d₀ (pulseWindow i d) := by
  unfold pulseWindow
  exact h.ite h.updFio

theorem execTestPulseWindow_completing {s : State} {out : Nat} : Completing s (execTestPulseWindow out s) :=
  .effect fun h => h.onlyIf .pulseWindow

protected theorem Evolves.latchOutputs {cross : Bool} {l : List Nat} (h : Evolves .any d₀ d) :
    Evolves .any d₀ (latchOutputs cross l d) := by
  unfold latchOutputs
  exact h.ite h.updFio.countN.logSafety.raise

protected theorem Evolves.settleJoint {pins : BitVec 4} (h : Evolves .any d₀ d) : Evolves .any d₀ (settleJoint pins d) := by
  unfold settleJoint
  exact h.updFio.countN.latchOutputs.when .latchOutputs

protected theorem Evolves.pulseSample {i : Nat} {pins : BitVec 4} (h : Evolves .any d₀ d) : Evolves .any d₀ (pulseSample i pins d) := by
  unfold pulseSample
  exact h.ite (h.updFio.settleJoint.ite (h.updFio.updFio.count.ite (h.updFio.when (fun h => h.updFio.count))))

theorem execPulseSampleInstant_completing {s : State} {out : Nat} {pins : BitVec 4} : Completing s (execPulseSampleInstant out pins s) :=
  .effect fun h => h.onlyIf .pulseSample

protected theorem Evolves.settleChecks (h : Evolves .any d₀ d) : Evolves .any d₀ (settleChecks d) := by
  unfold settleChecks
  exact (h.foldl (fun h => h.ite h.latchOutputs)).when .latchOutputs |>.when (fun h => h.updFio) |>.when .latchOutputs

protected theorem Evolves.noteSync (h : Evolves .any d₀ d) : Evolves .any d₀ (noteSync d) := by
  unfold noteSync
  exact h.ite h.updFio.logSafety

protected theorem Evolves.sendSync (h : Evolves .any d₀ d) : Evolves .any d₀ (sendSync d) := by
  unfold sendSync
  split
  · exact h.updFio.sendMsg.ite h
  · exact h

protected theorem Evolves.pulsePeriodEnd (h : Evolves .any d₀ d) : Evolves .any d₀ (pulsePeriodEnd d) :=
  h.updFio.settleChecks.updFio.sendSync.noteSync

theorem execPulsePeriodEnd_completing {s : State} : Completing s (execPulsePeriodEnd s) :=
  .effect fun h => h.onlyIf .pulsePeriodEnd

protected theorem Evolves.takeSync {ticks width localMask peerMask : Nat} (h : Evolves .any d₀ d) :
    Evolves .any d₀ (takeSync ticks width localMask peerMask d) := by
  unfold takeSync
  exact h.updFio.noteSync.ite h

theorem execPulseSync_completing {s : State} {cr : Credits} {ticks width localMask peerMask : Nat} :
    Completing s (execPulseSync cr ticks width localMask peerMask s) :=
  .effect fun h => h.receive .takeSync

protected theorem Evolves.shutDown {i : Nat} (h : Evolves .any d₀ d) : Evolves .any d₀ (shutDown i d) := by
  unfold shutDown
  exact h.updFio

protected theorem Evolves.overcurrent {i : Nat} {shutdown : Bool} (h : Evolves .any d₀ d) : Evolves .any d₀ (overcurrent i shutdown d) := by
  unfold overcurrent
  exact (h.updFio.when (fun h => h.shutDown)).when fun h => h.logSafety.raise

theorem execOutputOvercurrent_completing {s : State} {out : Nat} {shutdown : Bool} : Completing s (execOutputOvercurrent out shutdown s) :=
  .effect fun h => h.onlyIf .overcurrent

protected theorem Evolves.outputRetry {i : Nat} {ended : Bool} (h : Evolves .any d₀ d) : Evolves .any d₀ (outputRetry i ended d) := by
  unfold outputRetry
  exact h.updFio.ite (h.shutDown.ite h)

theorem execOutputRetry_completing {s : State} {out : Nat} {ended : Bool} : Completing s (execOutputRetry out ended s) :=
  .effect fun h => h.onlyIf .outputRetry

protected theorem Evolves.clearOutputs {v : Word32} (h : Evolves .any d₀ d) : Evolves .any d₀ (clearOutputs v d) := by
  unfold clearOutputs
  exact h.ite h.updFio.logSafety

theorem execFaultClr_completing {s : State} {who : Requester} {value : Word32} : Completing s (execFaultClr who value s) :=
  .effect fun h => (h.gate .clearOutputs).ite h

theorem execFieldSupplyLow_completing {s : State} : Completing s (execFieldSupplyLow s) :=
  .effect fun h => h.onlyIf fun h => h.updFio.logSafety.setLevel

theorem execFieldSupplyRestored_completing {s : State} : Completing s (execFieldSupplyRestored s) :=
  .effect fun h => h.onlyIf fun h => h.updFio.setLevel

protected theorem Evolves.putInput {j : Nat} {on : Bool} (h : Evolves .any d₀ d) : Evolves .any d₀ (putInput j on d) := by
  unfold putInput
  exact h.updFio

protected theorem Evolves.takePeerInput {on : Bool} (h : Evolves .any d₀ d) : Evolves .any d₀ (takePeerInput on d) := by
  unfold takePeerInput
  exact (h.notePulse.ite h).updFio |>.putInput |>.setLevel

protected theorem Evolves.takeInput {j : Nat} {on : Bool} (h : Evolves .any d₀ d) : Evolves .any d₀ (takeInput j on d) := by
  unfold takeInput
  split
  · exact h.takePwrwarn
  · exact h.takePeerInput
  · exact h.putInput.setLevel.updWrc.refreshInhibit
  · exact h.putInput.setLevel
  · exact h

theorem execFieldInputChange_completing {s : State} {input : Nat} {energised : Bool} {held : Nat} :
    Completing s (execFieldInputChange input energised held s) :=
  .effect fun h => h.onlyIf .takeInput

/-! ### The definitions of Sys2Proof/Machine/Interrupts.lean -/

protected theorem Evolves.updIcu {f : Icu → Icu} (h : Evolves .any d₀ d) (hf : ∀ x, (f x).srcs = x.srcs := by intro; rfl) :
    Evolves .any d₀ (updIcu f d) := h.icu (hf _)

protected theorem Evolves.putRead {v : Word32} (h : Evolves .any d₀ d) : Evolves .any d₀ (putRead v d) := by
  unfold putRead
  exact h.bus

protected theorem Evolves.icuClaim {t : Nat} (h : Evolves .any d₀ d) : Evolves .any d₀ (icuClaim t d) := by
  unfold icuClaim
  split
  · exact h.putRead
  · exact h.lateCount.updSrc.putRead

protected theorem Evolves.icuHostClaim (h : Evolves .any d₀ d) : Evolves .any d₀ (icuHostClaim d) := by
  unfold icuHostClaim
  split
  · exact h.putRead
  · exact h.updSrc.putRead.deliver

protected theorem Evolves.readClaim {who : Requester} {t : Nat} (h : Evolves .any d₀ d) : Evolves .any d₀ (readClaim who t d) := by
  unfold readClaim
  exact h.putRead.ite ((h.icuHostClaim.ite h.putRead).ite h.icuClaim)

theorem execIcuClaim_completing {s : State} {who : Requester} {t : Nat} : Completing s (execIcuClaim who t s) :=
  .effect fun h => h.onlyIf fun h => h.onBus .readClaim

theorem execIcuHostClaim_completing {s : State} {who : Requester} : Completing s (execIcuHostClaim who s) :=
  .effect fun h => h.onBus .readClaim

protected theorem Evolves.icuComplete {t n : Nat} (h : Evolves .any d₀ d) : Evolves .any d₀ (icuComplete t n d) := by
  unfold icuComplete
  exact h.updSrc.deliver.ite h.count.raise

protected theorem Evolves.cfgRefused (h : Evolves .any d₀ d) : Evolves .any d₀ (cfgRefused d) :=
  h.count.raise

protected theorem Evolves.icuGate {who : Requester} {o : Nat} {g f : Device → Device} (h : Evolves .any d₀ d) (hg : ∀
    {d}, Evolves .any d₀ d → Evolves .any d₀ (g d)) (hf : ∀ {d}, Evolves .any d₀ d → Evolves .any d₀ (f d)) :
    Evolves .any d₀ (icuGate who o g f d) := by
  unfold icuGate
  exact (hg h).ite (h.gate hf)

protected theorem Evolves.writeComplete {who : Requester} {t : Nat} {v : Word32} (h : Evolves .any d₀ d) :
    Evolves .any d₀ (writeComplete who t v d) :=
  h.icuGate .cfgRefused .icuComplete

theorem execIcuComplete_completing {s : State} {who : Requester} {t : Nat} {value : Word32} :
    Completing s (execIcuComplete who t value s) :=
  .effect fun h => h.onlyIf .writeComplete

protected theorem Evolves.bitArrayWrite {who : Requester} {o w : Nat} {v : Word32} {f : Nat → Device → Device} (h : Evolves .any d₀ d)
    (hf : ∀ {k d}, Evolves .any d₀ d → Evolves .any d₀ (f k d)) : Evolves .any d₀ (bitArrayWrite who o w v f d) := by
  unfold bitArrayWrite
  exact h.icuGate (fun h => ((h.foldl hf).unless .cfgRefused).deliver) fun h => (h.foldl hf).deliver

protected theorem Evolves.writeMask {on : Bool} {s : Nat} (h : Evolves .any d₀ d) : Evolves .any d₀ (writeMask on s d) := by
  unfold writeMask
  exact h.updSrc.updIcu

protected theorem Evolves.pendSet1 {s : Nat} (h : Evolves .any d₀ d) : Evolves .any d₀ (pendSet1 s d) := by
  unfold pendSet1
  exact h.ite h.updSrc

protected theorem Evolves.pendClr1 {s : Nat} (h : Evolves .any d₀ d) : Evolves .any d₀ (pendClr1 s d) := by
  unfold pendClr1
  exact h.ite h.updSrc

protected theorem Evolves.writeMaskSet {who : Requester} {w : Nat} {v : Word32} (h : Evolves .any d₀ d) :
    Evolves .any d₀ (writeMaskSet who w v d) :=
  h.bitArrayWrite .writeMask

protected theorem Evolves.writeMaskClr {who : Requester} {w : Nat} {v : Word32} (h : Evolves .any d₀ d) :
    Evolves .any d₀ (writeMaskClr who w v d) :=
  h.bitArrayWrite .writeMask

protected theorem Evolves.writePendSet {who : Requester} {w : Nat} {v : Word32} (h : Evolves .any d₀ d) :
    Evolves .any d₀ (writePendSet who w v d) :=
  h.bitArrayWrite .pendSet1

protected theorem Evolves.writePendClr {who : Requester} {w : Nat} {v : Word32} (h : Evolves .any d₀ d) :
    Evolves .any d₀ (writePendClr who w v d) :=
  h.bitArrayWrite .pendClr1

theorem execMaskSet_completing {s : State} {who : Requester} {w : Nat} {value : Word32} : Completing s (execMaskSet who w value s) :=
  .effect fun h => h.onlyIf .writeMaskSet

theorem execMaskClr_completing {s : State} {who : Requester} {w : Nat} {value : Word32} : Completing s (execMaskClr who w value s) :=
  .effect fun h => h.onlyIf .writeMaskClr

theorem execPendSet_completing {s : State} {who : Requester} {w : Nat} {value : Word32} : Completing s (execPendSet who w value s) :=
  .effect fun h => h.onlyIf .writePendSet

theorem execPendClr_completing {s : State} {who : Requester} {w : Nat} {value : Word32} : Completing s (execPendClr who w value s) :=
  .effect fun h => h.onlyIf .writePendClr

protected theorem Evolves.setThreshold {t : Nat} {v : Word32} (h : Evolves .any d₀ d) : Evolves .any d₀ (setThreshold t v d) := by
  unfold setThreshold
  exact h.updIcu

protected theorem Evolves.writeThreshold {who : Requester} {t : Nat} {v : Word32} (h : Evolves .any d₀ d) :
    Evolves .any d₀ (writeThreshold who t v d) := by
  unfold writeThreshold
  refine h.icuGate (fun h => ?_) fun h => h.setThreshold
  split
  · exact h.setThreshold
  · exact h.cfgRefused

theorem execThresholdWrite_completing {s : State} {who : Requester} {t : Nat} {value : Word32} :
    Completing s (execThresholdWrite who t value s) :=
  .effect fun h => h.onlyIf .writeThreshold

protected theorem Evolves.setCfg {s : Nat} {v : Word32} (h : Evolves .any d₀ d) : Evolves .any d₀ (setCfg s v d) := by
  unfold setCfg
  exact h.cfgRefused.ite h.updSrc.deliver

protected theorem Evolves.writeCfg {who : Requester} {s : Nat} {v : Word32} (h : Evolves .any d₀ d) :
    Evolves .any d₀ (writeCfg who s v d) := by
  unfold writeCfg
  refine h.icuGate (fun h => ?_) .setCfg
  split
  · exact h.setCfg
  · exact h.cfgRefused

theorem execSrcCfgWrite_completing {s : State} {who : Requester} {src : Nat} {value : Word32} :
    Completing s (execSrcCfgWrite who src value s) :=
  .effect fun h => h.onlyIf .writeCfg

protected theorem Evolves.setSlot {i : Nat} {v : Word32} (h : Evolves .any d₀ d) : Evolves .any d₀ (setSlot i v d) := by
  unfold setSlot
  exact h.cfgRefused.ite (h.ite h.updIcu.deliver)

protected theorem Evolves.writeSlot {who : Requester} {i : Nat} {v : Word32} (h : Evolves .any d₀ d) :
    Evolves .any d₀ (writeSlot who i v d) :=
  h.icuGate .cfgRefused .setSlot

theorem execWakeSlotWrite_completing {s : State} {who : Requester} {i : Nat} {value : Word32} :
    Completing s (execWakeSlotWrite who i value s) :=
  .effect fun h => h.onlyIf .writeSlot

protected theorem Evolves.latchWake {src : Nat} {level : Bool} (h : Evolves .any d₀ d) : Evolves .any d₀ (latchWake src level d) := by
  unfold latchWake
  exact h.ite h.updIcu

protected theorem Evolves.wake {src : Nat} {level : Bool} (h : Evolves .any d₀ d) : Evolves .any d₀ (wake src level d) :=
  h.latchWake.updIcu.countF.leaveRetention.raise

theorem execWakeDetect_completing {s : State} {src : Nat} {level : Bool} : Completing s (execWakeDetect src level s) :=
  .effect fun h => h.onlyIf .wake

protected theorem Evolves.noteQuiet (h : Evolves .any d₀ d) : Evolves .any d₀ (noteQuiet d) := by
  unfold noteQuiet
  exact h.updIcu.ite h

theorem execRetentionEntry_completing {s : State} : Completing s (execRetentionEntry s) :=
  .effect fun h => h.onlyIf fun h => h.updIcu

protected theorem Evolves.writeMsix {o : Nat} {v : Word32} (h : Evolves .any d₀ d) : Evolves .any d₀ (writeMsix o v d) :=
  h.setReg.msixFlush1

theorem execMsixTableWrite_completing {s : State} {offset : Nat} {value : Word32} : Completing s (execMsixTableWrite offset value s) :=
  .effect fun h => h.onlyIf .writeMsix

/-! ### The definitions of Sys2Proof/Machine/RegStore.lean -/

protected theorem Evolves.afterStore {o : Nat} (h : Evolves .any d₀ d) : Evolves .any d₀ (afterStore o d) := by
  unfold afterStore
  exact (h.applyBounds.when .pumpCeiling).when (fun h => (h.ite h.laserOff).refreshInhibit) |>.when .wakePower |>.when .setSpeed
    |>.when fun h => h.updGen

protected theorem Evolves.storeReg {o : Nat} {v : Word32} (h : Evolves .any d₀ d) : Evolves .any d₀ (storeReg o v d) := by
  unfold storeReg
  exact (h.withWarning .setReg).ite h.setReg.afterStore |>.ite h

protected theorem Evolves.setFeature {fid : Nat} {value : Nat → Word32} (h : Evolves .any d₀ d) :
    Evolves .any d₀ (setFeature fid value d) := by
  unfold setFeature
  exact (h.foldl .setReg).foldl .afterStore |>.when .clearOutputs

/-! ### The definitions of Sys2Proof/Machine/Startup.lean -/

protected theorem Evolves.repairCopy {may copyB : Bool} {n : Nat} {good : SlotState × List Byte} (h : Evolves μ d₀ d) :
    Evolves μ d₀ (repairCopy may copyB n good d) := by
  unfold repairCopy
  split
  · exact h
  · dsimp only
    refine .andThen ?_ fun h => h.latchReg.raise
    split
    · exact h.eraseSectorAt
    · exact h.writeSlotCopy
    · exact h.writeSlotCopy

protected theorem Evolves.takeCopy {n : Nat} {c : SlotState × List Byte} {key : Option (BitVec 256)} (h : Evolves μ d₀ d) :
    Evolves μ d₀ (takeCopy n c key d) := by
  unfold takeCopy
  dsimp only
  split <;> exact h.updSlot

protected theorem Evolves.slotUnavailable {n : Nat} (h : Evolves μ d₀ d) : Evolves μ d₀ (slotUnavailable n d) :=
  h.updSlot.raise

protected theorem Evolves.useCopy {may copyB : Bool} {n : Nat} {c : SlotState × List Byte} {other : Option (SlotState × List Byte)}
    (h : Evolves μ d₀ d) :
    Evolves μ d₀ (useCopy may copyB n c other d) := by
  unfold useCopy
  split
  · exact h.takeCopy
  · split
    · exact h.takeCopy
    · split
      · split
        · exact h.takeCopy.repairCopy
        · exact h.slotUnavailable
      · exact h.slotUnavailable

protected theorem Evolves.loadSlot {may : Bool} {n : Nat} (h : Evolves μ d₀ d) : Evolves μ d₀ (loadSlot may n d) := by
  unfold loadSlot
  split
  · exact h.slotUnavailable
  · exact h.repairCopy.useCopy
  · exact h.repairCopy.useCopy
  · exact (h.useCopy.ite h.repairCopy.useCopy).ite (h.useCopy.ite h.useCopy)

protected theorem Evolves.loadKeys {may : Bool} (h : Evolves μ d₀ d) : Evolves μ d₀ (loadKeys may d) := by
  unfold loadKeys
  exact (h.foldl .loadSlot).updCry

protected theorem Evolves.writeCalibration {c : Calibration} (h : Evolves .any d₀ d) : Evolves .any d₀ (writeCalibration c d) := by
  unfold writeCalibration
  exact h.nv.updGen

protected theorem Evolves.takeMeasured {p : Nat × Word32} (h : Evolves .any d₀ d) : Evolves .any d₀ (takeMeasured d p) := by
  unfold takeMeasured
  exact h.ite (h.setReg.ite (h.setReg.ite h))

protected theorem Evolves.opcEverywhere (h : Evolves .any d₀ d) : Evolves .any d₀ (opcEverywhere d) := by
  unfold opcEverywhere
  exact h.updWrc

protected theorem Evolves.firstCalibration (h : Evolves .any d₀ d) : Evolves .any d₀ (firstCalibration d) := by
  unfold firstCalibration
  exact h.writeCalibration

protected theorem Evolves.saveFeatures (h : Evolves .any d₀ d) : Evolves .any d₀ (saveFeatures d) := by
  unfold saveFeatures
  split
  · exact h
  · exact h.writeCalibration

theorem execCalibrationSave_completing {s : State} : Completing s (execCalibrationSave s) :=
  .effect fun h => h.onlyIf .saveFeatures

protected theorem Evolves.restoreCalibration (h : Evolves μ d₀ d) : Evolves μ d₀ (restoreCalibration d) := by
  unfold restoreCalibration
  dsimp only
  split
  · exact h.updGen.raise
  · exact (h.foldl .setReg).writeLaserMax |>.updWrc |>.updGen

protected theorem Evolves.identify {system : SystemScan} (h : Evolves μ d₀ d) : Evolves μ d₀ (identify system d) := by
  unfold identify
  split
  · exact h.updCry.updGen
  · exact (h.updCry.updGen.when .raise).when .loadMedium

protected theorem Evolves.cartSeated {memory : List Byte} {system : SystemScan} (h : Evolves .any d₀ d) :
    Evolves .any d₀ (cartSeated memory system d) := by
  unfold cartSeated
  exact h.updGen.identify.raise.when fun h => h.updGen

theorem execCartridgeSeated_completing {s : State} {memory : List Byte} {system : SystemScan} :
    Completing s (execCartridgeSeated memory system s) :=
  .effect fun h => h.onlyIf .cartSeated

protected theorem Evolves.clearMedium (h : Evolves .any d₀ d) : Evolves .any d₀ (clearMedium d) := by
  unfold clearMedium
  exact (h.dropReads.edit.updCry.foldl (fun h => h.updSlot)).updRcl

protected theorem Evolves.cartTorn (h : Evolves .any d₀ d) : Evolves .any d₀ (cartTorn d) := by
  unfold cartTorn
  exact (h.failMedium.laserOff.updGen.unless (fun h => h.updGen.ite h.enterDust)).clearMedium

protected theorem Evolves.cartRemoved (h : Evolves .any d₀ d) : Evolves .any d₀ (cartRemoved d) := by
  unfold cartRemoved
  exact (h.updGen.clearMedium.ite h.cartTorn).raise

theorem execCartridgeRemoved_completing {s : State} : Completing s (execCartridgeRemoved s) :=
  .effect fun h => h.onlyIf .cartRemoved

protected theorem Evolves.advancePhase (h : Evolves μ d₀ d) : Evolves μ d₀ (advancePhase d) := by
  unfold advancePhase
  exact h.ite h.updGen

protected theorem Evolves.checkDigest {digest : BitVec 256} (h : Evolves .any d₀ d) : Evolves .any d₀ (checkDigest digest d) := by
  unfold checkDigest
  exact (h.updRcl.when (fun h => h.updGen)).advancePhase

theorem execBootDigestCheck_completing {s : State} {digest : BitVec 256} : Completing s (execBootDigestCheck digest s) :=
  .effect fun h => h.onlyIf .checkDigest

protected theorem Evolves.noteTests {failMap : BitVec 16} {comparatorOk : Bool} {us : Nat} (h : Evolves .any d₀ d) :
    Evolves .any d₀ (noteTests failMap comparatorOk us d) := by
  unfold noteTests
  exact (h.updEcc.updGen.unless .raise).unless .raise |>.raise

protected theorem Evolves.judgeSlots (h : Evolves μ d₀ d) : Evolves μ d₀ (judgeSlots d) := by
  unfold judgeSlots
  exact h.ite (h.foldl (fun h => h.updSlot.ite h))

protected theorem Evolves.chooseMode {cause : Option Nat} (h : Evolves .any d₀ d) : Evolves .any d₀ (chooseMode cause d) := by
  unfold chooseMode
  have g : Evolves .any d₀ (updGen (fun g => { g with chosen := true }) d) := h.edit (quiet := nofun)
  dsimp only
  split
  · exact g.enterPrimer.when .spinUp
  · exact g.updGen.raise.ite g.setMode.finishRetiring.spinUp

/-- A power-on goes on from the reset state as everything else does. -/
theorem powerOn_evolves {x : PowerOnInputs} : Evolves .any (resetDevice d) (powerOn x d) := by
  unfold powerOn
  exact (Evolves.refl.noteTests.when fun h => h.pacing.raise) |>.updLsk.loadKeys.when .raise |>.restoreCalibration.updGen.identify
    |>.judgeSlots.chooseMode.when .imageStarts |>.updGen.advancePhase

protected theorem Evolves.recoverGroup {o : Nat} {g : FoundGroup} (h : Evolves .any d₀ d) : Evolves .any d₀ (recoverGroup o g d) := by
  unfold recoverGroup
  exact (h.indexGroup.ite h).ite ((h.indexGroup.ite h.indexGroup.voidGroup).runTask)

protected theorem Evolves.placeRing {o i p g : Nat} {hs : List (Nat × Nat)} {cs : List ScannedCluster} (h : Evolves .any d₀ d) :
    Evolves .any d₀ (placeRing o i p g hs cs d) := by
  suffices k : ∀ f, f = Machine.placeRing → Evolves .any d₀ (f o i p g hs cs d) from k _ rfl
  intro f hf
  delta Machine.placeRing at hf
  obtain ⟨rg, hrg⟩ : ∃ rg, rg = ringGroups := exists_eq
  rw [← hrg] at hf
  subst hf
  beta_reduce
  extract_lets r z gs
  split
  exact h.updRing.updRcl

protected theorem Evolves.phaseA {o : Nat} {x : RecoveryScan} (h : Evolves .any d₀ d) : Evolves .any d₀ (phaseA o x d) := by
  unfold phaseA
  dsimp only
  refine .andThen ?_ fun h => h.updRing
  split
  · exact h.updRcl.updRing
  · exact (h.updRcl.updRing.placeRing.foldl .runTask).foldl .recoverGroup |>.settleGroups

theorem execRecoveryPhaseA_completing {s : State} {owner : Nat} {scan : RecoveryScan} : Completing s (execRecoveryPhaseA owner scan s) :=
  .effect fun h => h.onlyIf .phaseA

protected theorem Evolves.phaseB {o : Nat} (h : Evolves .any d₀ d) : Evolves .any d₀ (phaseB o d) := by
  unfold phaseB
  dsimp only
  refine .andThen ?_ fun h => h.updRcl.updRing.phaseBEnd
  split
  · exact (h.foldl .queueFill).unless .queueSeal
  · exact h

theorem execRecoveryPhaseB_completing {s : State} {owner : Nat} : Completing s (execRecoveryPhaseB owner s) :=
  .effect fun h => h.onlyIf .phaseB

protected theorem Evolves.writeFwUpdate {v : Word32} (h : Evolves .any d₀ d) : Evolves .any d₀ (writeFwUpdate v d) := by
  unfold writeFwUpdate
  exact h.updGen.unless fun h => h.updGen

theorem execFwUpdateStart_completing {s : State} {who : Requester} {value : Word32} : Completing s (execFwUpdateStart who value s) :=
  .effect fun h => (h.gate .writeFwUpdate).ite h

protected theorem Evolves.programImage {image : List Byte} (h : Evolves .any d₀ d) : Evolves .any d₀ (programImage image d) := by
  unfold programImage
  exact (h.foldl (fun h => h.eraseSectorAt)).programAt |>.programAt

protected theorem Evolves.leaveAccepted {tag : Nat} {measured : Option (List (Nat × Word32))} (h : Evolves .any d₀ d) :
    Evolves .any d₀ (leaveAccepted tag measured d) := by
  unfold leaveAccepted
  exact (h.setPhase.startCmd.when .createOwner0).andThen fun h => h.finish.ite ((h.foldl .takeMeasured).opcEverywhere |>.firstCalibration
    |>.ite h |>.updGen |>.leaveNow |>.unless .spinUp)

protected theorem Evolves.leaveDust {tag : Nat} {measured : Option (List (Nat × Word32))} (h : Evolves .any d₀ d) :
    Evolves .any d₀ (leaveDust tag measured d) := by
  unfold leaveDust
  exact h.updGen.finish.ite (h.ite h.leaveAccepted)

/-! ### The definitions of Sys2Proof/Machine/RegRead.lean -/

protected theorem Evolves.clearOnRead {o : Nat} (h : Evolves .any d₀ d) : Evolves .any d₀ (clearOnRead o d) := by
  unfold clearOnRead
  exact h.setReg.ite (h.setRegF.ite (h.setRegF.ite (h.setReg.ite h)))

protected theorem Evolves.readReg {who : Requester} {o : Nat} (h : Evolves .any d₀ d) : Evolves .any d₀ (readReg who o d) := by
  unfold readReg
  exact h.putRead.ite (h.readClaim.ite (h.readClaim.ite (h.readClaim.ite (h.tickLoRead.ite (h.stratAccess.ite h.putRead.clearOnRead)))))

protected theorem Evolves.readBar0 {who : Requester} {width o : Nat} (h : Evolves .any d₀ d) :
    Evolves .any d₀ (readBar0 who width o d) := by
  unfold readBar0
  refine h.onBus fun h => ?_
  split
  · exact h.readReg
  · exact h.putRead

theorem execRcFieldRead_completing {s : State} {who : Requester} {width offset : Nat} : Completing s (execRcFieldRead who width offset s) :=
  .effect fun h => h.readBar0

theorem execBar0ReadInRetention_completing {s : State} {width offset : Nat} : Completing s (execBar0ReadInRetention width offset s) :=
  .effect fun h => h.onlyIf fun h => h.leaveRetention.readBar0

/-! ### The definitions of Sys2Proof/Machine/Checks.lean -/

protected theorem Evolves.lineFor {c : Cmd} (h : Evolves .any d₀ d) : Evolves .any d₀ (lineFor c d).2 := by
  unfold lineFor
  split
  · exact h.obtainLine
  · exact h

protected theorem Evolves.runCmd {tag : Nat} {p : Cmd → Bool} {f : Cmd → Device → Device} (h : Evolves .any d₀ d) (hf : ∀
    {x0 d}, Evolves .any d₀ d → Evolves .any d₀ (f x0 d)) :
    Evolves .any d₀ (runCmd tag p f d) := by
  unfold runCmd
  split
  · exact (hf h).ite h
  · exact h

protected theorem Evolves.checkThen {f : Cmd → Device → Device} {c : Cmd} (h : Evolves .any d₀ d) (hf : ∀
    {x0 d}, Evolves .any d₀ d → Evolves .any d₀ (f x0 d)) :
    Evolves .any d₀ (checkThen f c d) := by
  unfold checkThen
  split
  · exact h
  · split
    · exact h.finish
    · split
      · next e => exact (h.lineFor.ofPair e).setPhase
      · next e =>
          have h := h.lineFor.ofPair e
          split
          · exact (h.raise.ite h).finish
          · exact h.finish.ite ((hf h).ite h.wakePower)

protected theorem Evolves.runOp {tag op : Nat} {f : Cmd → Device → Device} (h : Evolves .any d₀ d) (hf : ∀
    {x0 d}, Evolves .any d₀ d → Evolves .any d₀ (f x0 d)) :
    Evolves .any d₀ (runOp tag op f d) :=
  h.runCmd fun h => h.checkThen hf

protected theorem Evolves.runSub {tag op sel : Nat} {f : Cmd → Device → Device} (h : Evolves .any d₀ d) (hf : ∀
    {x0 d}, Evolves .any d₀ d → Evolves .any d₀ (f x0 d)) :
    Evolves .any d₀ (runSub tag op sel f d) :=
  h.runCmd fun h => h.checkThen hf

protected theorem Evolves.dispatchCmd {tag : Nat} (h : Evolves .any d₀ d) : Evolves .any d₀ (dispatchCmd tag d) := by
  unfold dispatchCmd
  split
  · exact h
  · split
    · exact h.finish
    · split
      · exact h.finish
      · exact (h.wakePower.ite h).setPhase

protected theorem Evolves.takeCmd {c : Cmd} (h : Evolves .any d₀ d) : Evolves .any d₀ (takeCmd c d) := by
  unfold takeCmd
  split
  · exact h.finish
  · exact h.setPhase.ite h.dispatchCmd

theorem execAppendAdmission_completing {s : State} {tag : Nat} : Completing s (execAppendAdmission tag s) := by
  refine .effect fun h => ?_
  split
  · exact h.onlyIf fun h => h.setPhase
  · exact h

/-! ### The definitions of Sys2Proof/Machine/HostData.lean -/

protected theorem Evolves.goOn {tag : Nat} (h : Evolves .any d₀ d) : Evolves .any d₀ (goOn tag d) := by
  unfold goOn
  exact h.setPhase.startCmd

protected theorem Evolves.pullPayload {tag : Nat} (h : Evolves .any d₀ d) : Evolves .any d₀ (pullPayload tag d) := by
  unfold pullPayload
  exact h.setPhase.startCmd

protected theorem Evolves.issue {s n : Nat} (h : Evolves .any d₀ d) : Evolves .any d₀ (issue s n d) := by
  unfold issue
  exact h.updStream

protected theorem Evolves.withdrawAppend {c : Cmd} (h : Evolves .any d₀ d) : Evolves .any d₀ (withdrawAppend c d) :=
  h.drawn.issue.addGroup.raise.failGroup

protected theorem Evolves.placeAppend {c : Cmd} {rs : List (Nat × Nat)} (h : Evolves .any d₀ d) : Evolves .any d₀ (placeAppend c rs d) :=
  h.issue.addGroup.goOn.updCmd.placeGroup.pumpMirror

protected theorem Evolves.runAppend {c : Cmd} (h : Evolves .any d₀ d) : Evolves .any d₀ (runAppend c d) := by
  unfold runAppend
  split
  · exact h.pullPayload
  · split
    · exact h.withdrawAppend
    · split
      · exact h.finish
      · exact h.placeAppend.ite h.raise.finish

theorem execAppend_completing {s : State} {tag : Nat} : Completing s (execAppend tag s) :=
  .effect fun h => h.runOp .runAppend

protected theorem Evolves.addFar {tag : Nat} {x : Nat × Nat × List (List Byte × Bool)} (h : Evolves .any d₀ d) :
    Evolves .any d₀ (addFar tag x d) := by
  unfold addFar
  exact h.foldl fun h => h.updRdc

protected theorem Evolves.beginRead {c : Cmd} {n : Nat} {parts : List (Loc × Nat × Nat × Nat)}
    {far : List (Nat × Nat × List (List Byte × Bool))} (h : Evolves .any d₀ d) :
    Evolves .any d₀ (beginRead c n parts far d) := by
  unfold beginRead
  exact h.goOn.updCmd.andThen fun h => h.finishWith.ite ((h.foldl .addFar).startRead |>.finishRead)

protected theorem Evolves.askUnit {g : GapRead} (h : Evolves .any d₀ d) : Evolves .any d₀ (askUnit g d) :=
  h.goOn.updLath.sendMsg

protected theorem Evolves.endGap {tag : Nat} (h : Evolves .any d₀ d) : Evolves .any d₀ (endGap tag d) := by
  unfold endGap
  exact h.updLath

protected theorem Evolves.runReadMark {c : Cmd} (h : Evolves .any d₀ d) : Evolves .any d₀ (runReadMark c d) := by
  unfold runReadMark
  dsimp only
  split
  · exact h.finish.ite h.beginRead
  · exact h.askUnit.ite h.goOn.startSearch

theorem execReadMark_completing {s : State} {tag : Nat} : Completing s (execReadMark tag s) :=
  .effect fun h => h.runOp .runReadMark

protected theorem Evolves.goRange {got : List (Nat × List (List Byte × Bool))} {c : Cmd} (h : Evolves .any d₀ d) :
    Evolves .any d₀ (goRange got c d) := by
  unfold goRange
  dsimp only
  split
  · exact h.askUnit
  · exact h.goOn.startSearch
  · exact h.beginRead

theorem execReadRange_completing {s : State} {tag : Nat} : Completing s (execReadRange tag s) :=
  .effect fun h => h.runOp .goRange

protected theorem Evolves.gapLearnt {g : GapRead} (h : Evolves .any d₀ d) : Evolves .any d₀ (gapLearnt g d) := by
  unfold gapLearnt
  dsimp only
  split
  · exact h.endGap
  · exact h.endGap.goRange.ite (h.endGap.finish.ite h.endGap.beginRead)

protected theorem Evolves.gapUnit {g : GapRead} {bytes : List Byte} {poisoned : Bool} (h : Evolves .any d₀ d) :
    Evolves .any d₀ (gapUnit g bytes poisoned d) := by
  unfold gapUnit
  exact h.gapLearnt.ite h.askUnit

protected theorem Evolves.takeRecovData {xid unit : Nat} {bytes : List Byte} {poison : BitVec 32} (h : Evolves .any d₀ d) :
    Evolves .any d₀ (takeRecovData xid unit bytes poison d) := by
  unfold takeRecovData
  split
  · exact h.gapUnit
  · exact h.recovData

theorem execRecovData_completing {s : State} {cr : Credits} {xid unit : Nat} {bytes : List Byte} {poison : BitVec 32} :
    Completing s (execRecovData cr xid unit bytes poison s) :=
  .effect fun h => h.receive .takeRecovData

protected theorem Evolves.searchLost {tag s q : Nat} {got : List (Nat × List (List Byte × Bool))} {strict : Bool} (h : Evolves .any d₀ d) :
    Evolves .any d₀ (searchLost tag s q got strict d) := by
  unfold searchLost
  split
  · exact h
  · exact h.askUnit.ite h.finish.raise

protected theorem Evolves.searchAgain {tag : Nat} {got : List (Nat × List (List Byte × Bool))} (h : Evolves .any d₀ d) :
    Evolves .any d₀ (searchAgain tag got d) := by
  unfold searchAgain
  split
  · exact h
  · exact h.setPhase.ite h.goRange

protected theorem Evolves.noteEnd {x : Search} {e : SearchEnd} (h : Evolves .any d₀ d) : Evolves .any d₀ (noteEnd x e d) := by
  unfold noteEnd
  split
  · exact h
  · exact h.noteAbsent
  · exact h.updRcl

protected theorem Evolves.searchOver {x : Search} {e : SearchEnd} (h : Evolves .any d₀ d) : Evolves .any d₀ (searchOver x e d) := by
  unfold searchOver
  dsimp only
  split
  · exact h.dropSearch.searchLost
  · exact h.dropSearch.noteEnd.searchAgain
  · exact h.dropSearch.takeRecovReq
  · exact h.dropSearch.noteEnd.answerPoison
  · exact h.dropSearch.noteEnd
  · exact h.dropSearch.noteEnd.answerChain
  · exact h.dropSearch.noteEnd.useChain
  · exact h.dropSearch.noteEnd.forkSearch

protected theorem Evolves.pumpSearch {x : Search} (h : Evolves .any d₀ d) : Evolves .any d₀ (pumpSearch d x) := by
  unfold pumpSearch
  dsimp only
  split
  · exact h.dropSearch
  · split
    · split
      · exact h.dropSearch.searchAgain
      · exact h.dropSearch
    · split
      · exact h
      · split
        · next e => exact (h.stepSearch.ofPair e).searchOver
        · next e => exact h.stepSearch.ofPair e

protected theorem Evolves.pumpSearches (h : Evolves .any d₀ d) : Evolves .any d₀ (pumpSearches d) := by
  unfold pumpSearches
  exact h.foldl .pumpSearch

protected theorem Evolves.pumpGaps (h : Evolves .any d₀ d) : Evolves .any d₀ (pumpGaps d) := by
  unfold pumpGaps
  exact h.ite (h.foldl (fun h => h.endGap.finish))

protected theorem Evolves.runHold {c : Cmd} (h : Evolves .any d₀ d) : Evolves .any d₀ (runHold c d) :=
  h.updStream.finishOk

theorem execHold_completing {s : State} {tag : Nat} : Completing s (execHold tag s) :=
  .effect fun h => h.runOp .runHold

protected theorem Evolves.runRelease {c : Cmd} (h : Evolves .any d₀ d) : Evolves .any d₀ (runRelease c d) :=
  h.updStream.finishOk

theorem execReleaseHold_completing {s : State} {tag : Nat} : Completing s (execReleaseHold tag s) :=
  .effect fun h => h.runOp .runRelease

protected theorem Evolves.runOpen {c : Cmd} (h : Evolves .any d₀ d) : Evolves .any d₀ (runOpen c d) := by
  unfold runOpen
  exact (h.updRcl.ite h).updStream |>.finishOk

theorem execStreamOpen_completing {s : State} {tag : Nat} : Completing s (execStreamOpen tag s) :=
  .effect fun h => h.runOp .runOpen

protected theorem Evolves.pumpCloses (h : Evolves .any d₀ d) : Evolves .any d₀ (pumpCloses d) := by
  unfold pumpCloses
  exact h.foldl .finishOk

protected theorem Evolves.runClose {c : Cmd} (h : Evolves .any d₀ d) : Evolves .any d₀ (runClose c d) := by
  unfold runClose
  exact h.updStream.goOn.ite h.updStream.finishOk

theorem execStreamClose_completing {s : State} {tag : Nat} : Completing s (execStreamClose tag s) :=
  .effect fun h => h.runOp .runClose

/-! ### The definitions of Sys2Proof/Machine/HostBoot.lean -/

protected theorem Evolves.runStage {c : Cmd} (h : Evolves .any d₀ d) : Evolves .any d₀ (runStage c d) := by
  unfold runStage
  exact h.pullPayload.ite (h.raise.finish.ite h.stageImage)

theorem execBootStage_completing {s : State} {tag : Nat} : Completing s (execBootStage tag s) :=
  .effect fun h => h.runOp .runStage

protected theorem Evolves.runActivate {c : Cmd} (h : Evolves .any d₀ d) : Evolves .any d₀ (runActivate c d) := by
  unfold runActivate
  exact h.ite h.goOn.changeActivation

theorem execBootActivate_completing {s : State} {tag : Nat} : Completing s (execBootActivate tag s) :=
  .effect fun h => h.runOp .runActivate

protected theorem Evolves.runBootRead {c : Cmd} (h : Evolves .any d₀ d) : Evolves .any d₀ (runBootRead c d) := by
  unfold runBootRead
  dsimp only
  split
  · exact h
  · exact h.finish
  · exact h.goOn.startRead

theorem execBootRead_completing {s : State} {tag : Nat} : Completing s (execBootRead tag s) :=
  .effect fun h => h.runOp .runBootRead

protected theorem Evolves.runCreate {c : Cmd} (h : Evolves .any d₀ d) : Evolves .any d₀ (runCreate c d) :=
  h.createOwner

theorem execOwnerCreate_completing {s : State} {tag : Nat} : Completing s (execOwnerCreate tag s) :=
  .effect fun h => h.runOp .runCreate

protected theorem Evolves.runRetire {c : Cmd} (h : Evolves .any d₀ d) : Evolves .any d₀ (runRetire c d) :=
  h.goOn.retireOwner

theorem execOwnerRetire_completing {s : State} {tag : Nat} : Completing s (execOwnerRetire tag s) :=
  .effect fun h => h.runOp .runRetire

protected theorem Evolves.runExport {point : DmaResult} {c : Cmd} (h : Evolves .any d₀ d) : Evolves .any d₀ (runExport point c d) := by
  unfold runExport
  split
  · exact h.exportKey
  · exact h.finish

theorem execOwnerExportKey_completing {s : State} {tag : Nat} {point : DmaResult} : Completing s (execOwnerExportKey tag point s) :=
  .effect fun h => h.runOp .runExport

/-! ### The definitions of Sys2Proof/Machine/HostAdmin.lean -/

protected theorem Evolves.runIdentify {c : Cmd} (h : Evolves .any d₀ d) : Evolves .any d₀ (runIdentify c d) := by
  unfold runIdentify
  exact (h.ite h.draws).deliverData |>.finishOk

theorem execIdentify_completing {s : State} {tag : Nat} : Completing s (execIdentify tag s) :=
  .effect fun h => h.runOp .runIdentify

protected theorem Evolves.runGetLog {c : Cmd} (h : Evolves .any d₀ d) : Evolves .any d₀ (runGetLog c d) :=
  h.deliverData.finishOk

theorem execGetLog_completing {s : State} {tag : Nat} : Completing s (execGetLog tag s) :=
  .effect fun h => h.runOp .runGetLog

protected theorem Evolves.runSetFeature {c : Cmd} (h : Evolves .any d₀ d) : Evolves .any d₀ (runSetFeature c d) :=
  h.setFeature.finishOk

theorem execSetFeature_completing {s : State} {tag : Nat} : Completing s (execSetFeature tag s) :=
  .effect fun h => h.runOp .runSetFeature

protected theorem Evolves.runGetFeature {c : Cmd} (h : Evolves .any d₀ d) : Evolves .any d₀ (runGetFeature c d) :=
  h.deliverData.finishOk

theorem execGetFeature_completing {s : State} {tag : Nat} : Completing s (execGetFeature tag s) :=
  .effect fun h => h.runOp .runGetFeature

protected theorem Evolves.runEnter {c : Cmd} (h : Evolves .any d₀ d) : Evolves .any d₀ (runEnter c d) :=
  h.goOn.beginDust

theorem execEnterDustSheet_completing {s : State} {tag : Nat} : Completing s (execEnterDustSheet tag s) :=
  .effect fun h => h.runSub .runEnter

protected theorem Evolves.runLeave {measured : Option (List (Nat × Word32))} {c : Cmd} (h : Evolves .any d₀ d) :
    Evolves .any d₀ (runLeave measured c d) := by
  unfold runLeave
  exact h.ite (h.leaveDust.ite (h.checkThen .leaveDust))

theorem execLeaveDustSheet_completing {s : State} {tag : Nat} {measured : Option (List (Nat × Word32))} :
    Completing s (execLeaveDustSheet tag measured s) :=
  .effect fun h => h.runCmd .runLeave

protected theorem Evolves.runDetach {c : Cmd} (h : Evolves .any d₀ d) : Evolves .any d₀ (runDetach c d) := by
  unfold runDetach
  exact h.ite h.goOn.sendMsg.beginDetach

theorem execDetachRequest_completing {s : State} {tag : Nat} : Completing s (execDetachRequest tag s) :=
  .effect fun h => h.runSub .runDetach

protected theorem Evolves.runCommission {c : Cmd} (h : Evolves .any d₀ d) : Evolves .any d₀ (runCommission c d) := by
  unfold runCommission
  exact h.ite h.beginCommission

theorem execCommission_completing {s : State} {tag : Nat} : Completing s (execCommission tag s) :=
  .effect fun h => h.runSub .runCommission

protected theorem Evolves.runConfirm {c : Cmd} (h : Evolves .any d₀ d) : Evolves .any d₀ (runConfirm c d) :=
  h.confirmCode

theorem execConfirm_completing {s : State} {tag : Nat} : Completing s (execConfirm tag s) :=
  .effect fun h => h.runSub .runConfirm

protected theorem Evolves.runEject {c : Cmd} (h : Evolves .any d₀ d) : Evolves .any d₀ (runEject c d) := by
  unfold runEject
  exact h.ite h.startEject

theorem execCartridgeEjectPrep_completing {s : State} {tag : Nat} : Completing s (execCartridgeEjectPrep tag s) :=
  .effect fun h => h.runOp .runEject

protected theorem Evolves.runSelf {failMap : BitVec 16} {comparatorOk : Bool} {us : Nat} {c : Cmd} (h : Evolves .any d₀ d) :
    Evolves .any d₀ (runSelf failMap comparatorOk us c d) := by
  unfold runSelf
  dsimp only
  split
  · exact h.noteTests.enterPrimer
  · exact h.noteTests.finishOk

theorem execRunSelftest_completing {s : State} {tag : Nat} {failMap : BitVec 16} {comparatorOk : Bool} {us : Nat} :
    Completing s (execRunSelftest tag failMap comparatorOk us s) :=
  .effect fun h => h.runSub .runSelf

protected theorem Evolves.runHeader {header : Option (List Byte)} {c : Cmd} (h : Evolves .any d₀ d) :
    Evolves .any d₀ (runHeader header c d) := by
  unfold runHeader
  split
  · exact h.deliverData.finishOk
  · exact h.finish

theorem execReadHeader_completing {s : State} {tag : Nat} {header : Option (List Byte)} : Completing s (execReadHeader tag header s) :=
  .effect fun h => h.runSub .runHeader

protected theorem Evolves.runTrigger {c : Cmd} (h : Evolves .any d₀ d) : Evolves .any d₀ (runTrigger c d) :=
  h.pendSet1.deliver.finishOk

theorem execTrigger_completing {s : State} {tag : Nat} : Completing s (execTrigger tag s) :=
  .effect fun h => h.runSub .runTrigger

/-! ### The definitions of Sys2Proof/Machine/Rings.lean -/

protected theorem Evolves.lockSq {go : Bool} {n : Nat} (h : Evolves .any d₀ d) : Evolves .any d₀ (lockSq go n d) := by
  unfold lockSq
  exact h.ite (h.sqError.ite (h.updSq.ite h))

protected theorem Evolves.lockCq {go : Bool} {n : Nat} (h : Evolves .any d₀ d) : Evolves .any d₀ (lockCq go n d) := by
  unfold lockCq
  exact h.ite (h.cqError.ite (h.updCq.ite h))

protected theorem Evolves.setLock (h : Evolves .any d₀ d) : Evolves .any d₀ (setLock d) := by
  unfold setLock
  have g : Evolves .any d₀ (updHif (fun x => { x with lock := true, lockOk := lockConditions d }) d) :=
    h.trans ⟨id, id, rfl, fun _ => rfl, id, nofun⟩
  exact (g.unless fun h => h.sqError.cqError) |>.foldl (fun h => h.lockCq.lockSq) |>.when fun h => h.updHif

theorem execSetupLock_completing {s : State} : Completing s (execSetupLock s) :=
  .effect fun h => h.gate .setLock

protected theorem Evolves.startPoll (h : Evolves .any d₀ d) : Evolves .any d₀ (startPoll d) := by
  unfold startPoll
  exact h.leaveRetention.count.updHif

theorem execDoorbellPoll_completing {s : State} : Completing s (execDoorbellPoll s) :=
  .effect fun h => h.onlyIf .startPoll

protected theorem Evolves.takeTail {page : List Byte} {n : Nat} (h : Evolves .any d₀ d) : Evolves .any d₀ (takeTail page n d) := by
  unfold takeTail
  exact h.ite (h.updSq.ite h.sqError)

protected theorem Evolves.takeHead {page : List Byte} {n : Nat} (h : Evolves .any d₀ d) : Evolves .any d₀ (takeHead page n d) := by
  unfold takeHead
  exact h.ite (h.updCq.ite h.cqError)

protected theorem Evolves.takePage {page : List Byte} (h : Evolves .any d₀ d) : Evolves .any d₀ (takePage page d) := by
  unfold takePage
  exact (h.foldl (fun h => h.takeTail.takeHead)).updHif

theorem execDoorbellPollReturn_completing {s : State} {res : DmaResult} : Completing s (execDoorbellPollReturn res s) := by
  refine .effect fun h => ?_
  refine h.onlyIf fun h => ?_
  dsimp only
  split
  · exact h.updHif.count
  · exact h.updHif.takePage

protected theorem Evolves.notePeak (h : Evolves .any d₀ d) : Evolves .any d₀ (notePeak d) :=
  h.setRegF

protected theorem Evolves.beginFetch {n : Nat} (h : Evolves .any d₀ d) : Evolves .any d₀ (beginFetch n d) := by
  unfold beginFetch
  exact h.updHif.notePeak.when .raise

protected theorem Evolves.fetchNext (h : Evolves .any d₀ d) : Evolves .any d₀ (fetchNext d) := by
  unfold fetchNext
  split
  · exact h.beginFetch
  · split
    · exact h.updHif.beginFetch
    · split
      · exact h.updHif.beginFetch
      · exact h

theorem execFetchEntry_completing {s : State} : Completing s (execFetchEntry s) :=
  .effect fun h => h.onlyIf .fetchNext

protected theorem Evolves.fetchError {n : Nat} (h : Evolves .any d₀ d) : Evolves .any d₀ (fetchError n d) := by
  unfold fetchError
  exact (h.count.unless .sqError).raise

protected theorem Evolves.takeEntry {n : Nat} {e : List Byte} (h : Evolves .any d₀ d) : Evolves .any d₀ (takeEntry n e d) :=
  h.updHif.updSq.count.takeCmd

theorem execEntryFetched_completing {s : State} {res : DmaResult} : Completing s (execEntryFetched res s) := by
  refine .effect fun h => ?_
  split
  · exact h
  · dsimp only
    split
    · exact h.updHif.fetchError
    · exact h.updHif.takeEntry

protected theorem Evolves.takeScatter {c : Cmd} {bytes : List Byte} (h : Evolves .any d₀ d) : Evolves .any d₀ (takeScatter c bytes d) := by
  unfold takeScatter
  split
  · exact h.finish
  · exact h.updCmd.dispatchCmd.ite h.finish

protected theorem Evolves.loseScatter {c : Cmd} (h : Evolves .any d₀ d) : Evolves .any d₀ (loseScatter c d) :=
  h.setPhase.fetchError

protected theorem Evolves.takePayload {tag : Nat} {res : DmaResult} (h : Evolves .any d₀ d) : Evolves .any d₀ (takePayload tag res d) := by
  unfold takePayload
  exact h.updCmd

theorem execPayloadReadReturn_completing {s : State} {tag : Nat} {scatter : Bool} {res : DmaResult} :
    Completing s (execPayloadReadReturn tag scatter res s) := by
  refine .effect fun h => ?_
  split
  · exact h
  · split
    · refine h.onlyIf fun h => ?_
      split
      · exact h.takeScatter
      · exact h.loseScatter
    · exact h.onlyIf fun h => h.takePayload

protected theorem Evolves.signalCq {n : Nat} (h : Evolves .any d₀ d) : Evolves .any d₀ (signalCq n d) :=
  h.updCq.msixSignal

protected theorem Evolves.coalesce {n : Nat} {atOnce : Bool} (h : Evolves .any d₀ d) : Evolves .any d₀ (coalesce n atOnce d) := by
  unfold coalesce
  exact h.ite (h.updCq.when .signalCq)

protected theorem Evolves.logError {c : Completion} (h : Evolves .any d₀ d) : Evolves .any d₀ (logError c d) := by
  unfold logError
  exact h.ite h.updHif

protected theorem Evolves.postOne {c : Completion} (h : Evolves .any d₀ d) : Evolves .any d₀ (postOne c d) :=
  h.bus.updHif.updCq.count.logError.coalesce.pumpDust

theorem execPostCompletion_completing {s : State} : Completing s (execPostCompletion s) := by
  refine .effect fun h => ?_
  refine h.onlyIf fun h => ?_
  split
  · exact h.postOne
  · exact h

theorem execCoalesceTimerExpiry_completing {s : State} {cq : Nat} : Completing s (execCoalesceTimerExpiry cq s) :=
  .effect fun h => h.onlyIf .signalCq

protected theorem Evolves.resumeBus (h : Evolves .any d₀ d) : Evolves .any d₀ (resumeBus d) := by
  unfold resumeBus
  exact (h.updHif.ite h).msixFlush |>.ite h

protected theorem Evolves.dropLink (h : Evolves .any d₀ d) : Evolves .any d₀ (dropLink d) := by
  unfold dropLink
  exact h.updHif.raise.ite h

theorem execLinkDown_completing {s : State} : Completing s (execLinkDown s) :=
  .effect fun h => h.dropLink

theorem execLinkUp_completing {s : State} {width speed : Nat} : Completing s (execLinkUp width speed s) :=
  .effect fun h => h.onlyIf fun h => h.updHif.resumeBus.raise

theorem execBusMasterEnableChange_completing {s : State} {on : Bool} : Completing s (execBusMasterEnableChange on s) :=
  .effect fun h => h.onlyIf fun h => h.updHif.resumeBus

theorem execRefclkLoss_completing {s : State} : Completing s (execRefclkLoss s) :=
  .effect fun h => h.pacing.dropLink

protected theorem Evolves.resetHostSrc {s : Nat} (h : Evolves .any d₀ d) : Evolves .any d₀ (resetHostSrc d s) :=
  h.updSrc

protected theorem Evolves.resetHostIcu (h : Evolves .any d₀ d) : Evolves .any d₀ (resetHostIcu d) := by
  unfold resetHostIcu
  exact h.updIcu.foldl .resetHostSrc

protected theorem Evolves.orphanCmds (h : Evolves .any d₀ d) : Evolves .any d₀ (orphanCmds d) := by
  unfold orphanCmds
  exact h.updHif

protected theorem Evolves.discardOne {c : Completion} (h : Evolves .any d₀ d) : Evolves .any d₀ (discardOne c d) :=
  h.dropCmd.count.raise

protected theorem Evolves.discardReady (h : Evolves .any d₀ d) : Evolves .any d₀ (discardReady d) := by
  unfold discardReady
  exact h.updHif.foldl .discardOne

/-! ### The definitions of Sys2Proof/Machine/Registers.lean -/

protected theorem Evolves.viaRow {f : State → Host.Outcome State Fault Refusal} (h : Evolves .any d₀ d)
    (hf : ∀ {s}, Completing s (f s)) : Evolves .any d₀ (viaRow f d) := by
  obtain ⟨e, he, g⟩ := hf (s := { dev := d, pending := [] })
  rw [viaRow, he]
  exact h.trans g

protected theorem Evolves.whenBit {v : Word32} {i : Nat} {f : Device → Device} (h : Evolves .any d₀ d) (hf : ∀
    {d}, Evolves .any d₀ d → Evolves .any d₀ (f d)) :
    Evolves .any d₀ (whenBit v i f d) := by
  unfold whenBit
  exact (hf h).ite h

protected theorem Evolves.writeLoopCtrl {who : Requester} {n : Nat} {v : Word32} (h : Evolves .any d₀ d) :
    Evolves .any d₀ (writeLoopCtrl who n v d) := by
  unfold writeLoopCtrl
  split
  · exact h.viaRow execLoopOpen_completing
  · exact h.viaRow execLoopHold_completing
  · exact h.viaRow execLoopClose_completing
  · exact h.viaRow execLoopAcquire_completing
  · exact h.viaRow execDiscardShadow_completing
  · exact h

protected theorem Evolves.clearLoopStatus {n : Nat} {v : Word32} (h : Evolves .any d₀ d) : Evolves .any d₀ (clearLoopStatus n v d) := by
  unfold clearLoopStatus
  exact h.updLoop

protected theorem Evolves.writeSeqCtrl {who : Requester} {v : Word32} (h : Evolves .any d₀ d) : Evolves .any d₀ (writeSeqCtrl who v d) := by
  unfold writeSeqCtrl
  exact (h.viaRow execSeqRun_completing).whenBit fun h => h.viaRow execSeqKick_completing

protected theorem Evolves.writeSrv {who : Requester} {o : Nat} {v : Word32} (h : Evolves .any d₀ d) :
    Evolves .any d₀ (writeSrv who o v d) := by
  unfold writeSrv
  dsimp only
  split
  · exact h.viaRow execCoefLiveWrite_completing
  · split
    · exact h.viaRow execCoefShadowWrite_completing
    · split
      · exact h.writeLoopCtrl
      · split
        · exact h.gate fun h => h.clearLoopStatus
        · split
          · exact h.gate fun h => h.whenBit (fun h => h.servo)
          · exact h.writeSeqCtrl
          · exact h.gate fun h => h.whenBit (fun h => h.servo)
          · exact h

protected theorem Evolves.writeMotionCmd {who : Requester} {v : Word32} (h : Evolves .any d₀ d) :
    Evolves .any d₀ (writeMotionCmd who v d) := by
  unfold writeMotionCmd
  split
  · exact h.viaRow execMove_completing
  · exact h.viaRow execHome_completing
  · exact h.viaRow execPark_completing
  · exact h.viaRow execStop_completing
  · exact h.viaRow execGearEngage_completing
  · exact h.viaRow execGearDisengage_completing
  · exact h.viaRow execClearFault_completing
  · exact h

protected theorem Evolves.writeGearCtrl {who : Requester} {v : Word32} (h : Evolves .any d₀ d) :
    Evolves .any d₀ (writeGearCtrl who v d) := by
  unfold writeGearCtrl
  exact (h.gate (fun h => h.whenBit (fun h => h.updMotion))).whenBit (fun h => h.viaRow execGearCancel_completing)
    |>.whenBit fun h => h.viaRow execGearArm_completing

protected theorem Evolves.setRangeFields {v : Word32} (h : Evolves .any d₀ d) : Evolves .any d₀ (setRangeFields v d) :=
  h.setRegF.setRegF.setRegF

protected theorem Evolves.startRangeOp {who : Requester} (h : Evolves .any d₀ d) : Evolves .any d₀ (startRangeOp who d) := by
  unfold startRangeOp
  split
  · exact h.viaRow execInvalidate_completing
  · exact h.viaRow execClean_completing
  · exact h.viaRow execPurgeOwner_completing
  · exact h.viaRow execZeroLine_completing
  · exact h

protected theorem Evolves.writeRangeCmd {who : Requester} {v : Word32} (h : Evolves .any d₀ d) :
    Evolves .any d₀ (writeRangeCmd who v d) := by
  unfold writeRangeCmd
  exact (h.gate .setRangeFields).whenBit .startRangeOp

protected theorem Evolves.clearTablePoison {k : Nat} {v : Word32} (h : Evolves .any d₀ d) : Evolves .any d₀ (clearTablePoison k v d) := by
  unfold clearTablePoison
  exact h.mapLines.ite h.updCache

protected theorem Evolves.writeCch {who : Requester} {o : Nat} {v : Word32} (h : Evolves .any d₀ d) :
    Evolves .any d₀ (writeCch who o v d) := by
  unfold writeCch
  exact h.writeRangeCmd.ite ((h.gate (fun h => h.whenBit (fun h => h.updCache))).ite ((h.gate .clearTablePoison).ite h))

protected theorem Evolves.startFlashOp {who : Requester} (h : Evolves .any d₀ d) : Evolves .any d₀ (startFlashOp who d) := by
  unfold startFlashOp
  split
  · exact h.viaRow execProgram_completing
  · exact h.viaRow execEraseSector_completing
  · exact h.viaRow execEraseBlock_completing
  · exact h.viaRow execBitClear_completing
  · exact h.viaRow execSuspend_completing
  · exact h.viaRow execResume_completing
  · exact h

protected theorem Evolves.writeFlashCmd {who : Requester} {v : Word32} (h : Evolves .any d₀ d) :
    Evolves .any d₀ (writeFlashCmd who v d) := by
  unfold writeFlashCmd
  exact (h.gate .setRegF).whenBit .startFlashOp

protected theorem Evolves.writeEcc {who : Requester} {o : Nat} {v : Word32} (h : Evolves .any d₀ d) :
    Evolves .any d₀ (writeEcc who o v d) := by
  unfold writeEcc
  split
  · exact (h.whenBit (fun h => h.viaRow execSplitModeClose_completing)).viaRow execSplitModeOpen_completing
  · exact (h.whenBit (fun h => h.viaRow execTestWriteData_completing)).whenBit (fun h => h.viaRow execTestWriteCheck_completing)
      |>.whenBit fun h => h.viaRow execTestRead_completing
  · exact h.viaRow execZeroWord_completing
  · exact h

protected theorem Evolves.writeIcuOther {who : Requester} {o : Nat} (h : Evolves .any d₀ d) : Evolves .any d₀ (writeIcuOther who o d) :=
  h.icuGate .cfgRefused fun h => h

protected theorem Evolves.writeIcu {who : Requester} {o : Nat} {v : Word32} (h : Evolves .any d₀ d) :
    Evolves .any d₀ (writeIcu who o v d) := by
  unfold writeIcu
  exact h.ite ((h.viaRow execSrcCfgWrite_completing).ite ((h.viaRow execMaskSet_completing).ite ((h.viaRow execMaskClr_completing).ite
    ((h.viaRow execPendSet_completing).ite ((h.viaRow execPendClr_completing).ite ((h.viaRow execWakeSlotWrite_completing).ite
      ((h.viaRow execThresholdWrite_completing).ite ((h.viaRow execIcuComplete_completing).ite h.writeIcuOther))))))))

protected theorem Evolves.writeOther {who : Requester} {o : Nat} {v : Word32} (h : Evolves .any d₀ d) :
    Evolves .any d₀ (writeOther who o v d) := by
  unfold writeOther
  split
  · exact (h.whenBit (fun h => h.viaRow execSetupLock_completing)).ite h
  · exact h.viaRow execFwUpdateStart_completing
  · exact h.writeMotionCmd
  · exact h.writeGearCtrl
  · exact h.viaRow execLaserMaxWrite_completing
  · exact h.whenBit fun h => h.viaRow execLaserOverClear_completing
  · exact h.gate .setReg
  · exact h.viaRow execStratDataAccess_completing
  · exact h.viaRow execOpcTestStep_completing
  · exact h.gate .setReg
  · exact h.gate fun h => h.whenBit (fun h => h.updCry)
  · exact h.gate fun h => h.whenBit (fun h => h.updLath)
  · exact h.gate fun h => h.whenBit (fun h => h.updPwr)
  · exact h.viaRow execBalanceCommand_completing
  · exact (h.gate .storeReg).whenBit fun h => h.viaRow execDischargeTestRequest_completing
  · exact h.viaRow execFaultClr_completing
  · exact h.writeFlashCmd
  · exact (h.gate .storeReg).ite h

protected theorem Evolves.writeAt {who : Requester} {o : Nat} {v : Word32} (h : Evolves .any d₀ d) :
    Evolves .any d₀ (writeAt who o v d) := by
  unfold writeAt
  exact h.ite ((h.viaRow execMsixTableWrite_completing).ite (h.writeIcu.ite (h.writeOther.ite (h.writeSrv.ite (h.writeCch.ite
    (h.writeEcc.ite h.writeOther))))))

protected theorem Evolves.writeReg {who : Requester} {width o : Nat} {v : Word32} (h : Evolves .any d₀ d) :
    Evolves .any d₀ (writeReg who width o v d) := by
  unfold writeReg
  exact h.lockedWrite.ite ((h.onBus .writeAt).ite h)

theorem execRegisterWrite_completing {s : State} {who : Requester} {width offset : Nat} {value : Word32} :
    Completing s (execRegisterWrite who width offset value s) :=
  .effect fun h => h.writeReg

/-! ### The definitions of Sys2Proof/Machine/Tick.lean -/

protected theorem Evolves.countLaser (h : Evolves .any d₀ d) : Evolves .any d₀ (countLaser d) := by
  unfold countLaser
  exact h.ite (h.updGen.ite h.updGen)

protected theorem Evolves.countTrial (h : Evolves .any d₀ d) : Evolves .any d₀ (countTrial d) := by
  unfold countTrial
  exact h.updGen.ite h

protected theorem Evolves.countIdle (h : Evolves .any d₀ d) : Evolves .any d₀ (countIdle d) := by
  unfold countIdle
  exact h.ite h.updHif

protected theorem Evolves.linkRest (h : Evolves .any d₀ d) : Evolves .any d₀ (linkRest d) := by
  unfold linkRest
  exact h.updHif

protected theorem Evolves.pumpDrive (h : Evolves .any d₀ d) : Evolves .any d₀ (pumpDrive d) :=
  h.enginePick.pumpHoming.runScript

protected theorem Evolves.pumpSeek (h : Evolves .any d₀ d) : Evolves .any d₀ (pumpSeek d) := by
  unfold pumpSeek
  split
  · exact h
  · split
    · exact h.seekLayer
    · exact h

protected theorem Evolves.pumpPark (h : Evolves .any d₀ d) : Evolves .any d₀ (pumpPark d) := by
  unfold pumpPark
  exact h.ite ((h.spinUp.ite h).ite (h.ite h.standParked))

protected theorem Evolves.tickPumps (h : Evolves .any d₀ d) : Evolves .any d₀ (tickPumps d) :=
  h.pumpDrive.pumpPark.pumpSeek.pumpReads.noteSync.pumpDust
    |>.pumpTwin.pumpCloses.pumpGaps.pumpSearches.pumpFull.sweepGroups.pumpCeiling.writeQueued

/-! ### A firmware update ends -/

theorem foldl_eraseSectorAt_gen {b : Nat} {l : List Nat} : (l.foldl (fun d k => eraseSectorAt (b + k) d) d).gen = d.gen := by
  induction l generalizing d with
  | nil => rfl
  | cons k l ih => exact ih

theorem programImage_gen {image : List Byte} : (programImage image d).gen = d.gen := by
  unfold programImage programAt updFls
  dsimp only
  exact foldl_eraseSectorAt_gen

/-- FW_UPDATE_DONE without the restart that was asked for. -/
theorem Evolves.updateDone {image : List Byte} {verified : Bool} {x : PowerOnInputs}
    (hr : (updateErr image verified d = 0 && d.gen.fwRestart) = false) : Evolves .any d (updateDone image verified x d) := by
  unfold Machine.updateDone
  extract_lets err d₁ d₂
  have h₁ : Evolves .any d d₁ := Evolves.refl.programImage.ite (Evolves.refl.cutRange.ite .refl)
  have h₂ : Evolves .any d d₂ := h₁.updGen
  have g : err = 0 → d₂.gen.fwRestart = d.gen.fwRestart := by
    intro he
    simp only [d₂, d₁, he, updGen, if_true, programImage_gen]
  rw [if_neg]
  · exact h₂
  · intro hc
    obtain ⟨he, hw⟩ := Bool.and_eq_true_iff.1 hc
    have he := of_decide_eq_true he
    simp [err, he, ← g he, hw] at hr

/-- FW_UPDATE_DONE with the restart that was asked for ends in a power-on. -/
theorem updateDone_restarts {image : List Byte} {verified : Bool} {x : PowerOnInputs} (he : updateErr image verified d = 0)
    (hr : d.gen.fwRestart = true) : ∃ e, updateDone image verified x d = powerOn x e := by
  simp only [updateDone, he, updGen, programImage_gen, hr, decide_true, if_true, Bool.and_self]
  exact ⟨_, rfl⟩

theorem execFwUpdateDone_completing {s : State} {image : List Byte} {verified : Bool} {x : PowerOnInputs}
    (hc : startsAnew (.fwUpdateDone image verified x) s.dev = false) : Completing s (execFwUpdateDone image verified x s) := by
  refine ⟨_, rfl, ?_⟩
  beta_reduce
  unfold onlyIf
  split
  case isTrue hs =>
    refine .updateDone ?_
    simpa [startsAnew, hs] using hc
  case isFalse => exact .refl

/-! ### What starts from another state -/

/-- After a conventional reset's return to the reset values everything goes on as after any command. -/
theorem resetFunction_evolves : Evolves .any (resetHostRegs (resetHostIcu (dropLink d))) (resetFunction d) :=
  Evolves.refl.orphanCmds.discardReady.pumpDust

/-- A tick of the pacing counter, before what the tick brings. -/
def counted (d : Device) : Device := { d with pacing := { d.pacing with now := d.pacing.now + 1 } }

theorem tick_evolves : Evolves .any (counted d) (tick d) :=
  Evolves.refl.updPwr.countLaser.countTrial.countIdle.linkRest.pairTick.settleIcu.noteQuiet.refreshInhibit.tickPumps

/-! ### Every command and every step -/

/-- What starts anew ends in a power-on. -/
theorem exec_startsAnew {s : State} {c : Instr} (hc : startsAnew c s.dev = true) :
    ∃ x d, exec c s = .next { s with dev := powerOn x d } := by
  cases c with
  | powerOnReset x => exact ⟨x, s.dev, rfl⟩
  | resetLevelTrip x => exact ⟨x, s.dev, rfl⟩
  | fwUpdateDone image verified x =>
    simp only [startsAnew, Bool.and_eq_true, decide_eq_true_eq] at hc
    obtain ⟨⟨hs, he⟩, hr⟩ := hc
    obtain ⟨e, h⟩ := updateDone_restarts (x := x) he hr
    refine ⟨x, e, ?_⟩
    rw [← h]
    change execFwUpdateDone image verified x s = _
    simp only [execFwUpdateDone, effect, onlyIf, hs, decide_true, if_true]
  | _ => cases hc

/-- Every command but what starts anew and a conventional reset completes, and the device evolves. -/
theorem exec_completing {s : State} {c : Instr} (hc : startsAnew c s.dev = false) (hr : c ≠ .conventionalReset) :
    Completing s (exec c s) := by
  cases c with
  | append => exact execAppend_completing
  | readMark => exact execReadMark_completing
  | readRange => exact execReadRange_completing
  | hold => exact execHold_completing
  | releaseHold => exact execReleaseHold_completing
  | bootStage => exact execBootStage_completing
  | bootActivate => exact execBootActivate_completing
  | bootRead => exact execBootRead_completing
  | ownerCreate => exact execOwnerCreate_completing
  | ownerRetire => exact execOwnerRetire_completing
  | ownerExportKey => exact execOwnerExportKey_completing
  | streamOpen => exact execStreamOpen_completing
  | streamClose => exact execStreamClose_completing
  | identify => exact execIdentify_completing
  | getLog => exact execGetLog_completing
  | setFeature => exact execSetFeature_completing
  | getFeature => exact execGetFeature_completing
  | enterDustSheet => exact execEnterDustSheet_completing
  | leaveDustSheet => exact execLeaveDustSheet_completing
  | detachRequest => exact execDetachRequest_completing
  | commission => exact execCommission_completing
  | confirm => exact execConfirm_completing
  | cartridgeEjectPrep => exact execCartridgeEjectPrep_completing
  | runSelftest => exact execRunSelftest_completing
  | readHeader => exact execReadHeader_completing
  | trigger => exact execTrigger_completing
  | doorbellPoll => exact execDoorbellPoll_completing
  | doorbellPollReturn => exact execDoorbellPollReturn_completing
  | fetchEntry => exact execFetchEntry_completing
  | entryFetched => exact execEntryFetched_completing
  | postCompletion => exact execPostCompletion_completing
  | coalesceTimerExpiry => exact execCoalesceTimerExpiry_completing
  | conventionalReset => exact absurd rfl hr
  | linkDown => exact execLinkDown_completing
  | linkUp => exact execLinkUp_completing
  | busMasterEnableChange => exact execBusMasterEnableChange_completing
  | setupLock => exact execSetupLock_completing
  | registerWrite => exact execRegisterWrite_completing
  | rcFieldRead => exact execRcFieldRead_completing
  | tickLoRead => exact execTickLoRead_completing
  | bar0ReadInRetention => exact execBar0ReadInRetention_completing
  | boundsChange => exact execBoundsChange_completing
  | excursionReturn => exact execExcursionReturn_completing
  | countWindowEnd => exact execCountWindowEnd_completing
  | loopSample => exact execLoopSample_completing
  | loopComputeDone => exact execLoopComputeDone_completing
  | loopOutputInstant => exact execLoopOutputInstant_completing
  | loopOpen => exact execLoopOpen_completing
  | loopHold => exact execLoopHold_completing
  | loopClose => exact execLoopClose_completing
  | loopAcquire => exact execLoopAcquire_completing
  | discardShadow => exact execDiscardShadow_completing
  | acqTimeout => exact execAcqTimeout_completing
  | holdTimeout => exact execHoldTimeout_completing
  | coefLiveWrite => exact execCoefLiveWrite_completing
  | coefShadowWrite => exact execCoefShadowWrite_completing
  | seqRun => exact execSeqRun_completing
  | seqKick => exact execSeqKick_completing
  | move => exact execMove_completing
  | home => exact execHome_completing
  | park => exact execPark_completing
  | stop => exact execStop_completing
  | gearEngage => exact execGearEngage_completing
  | gearDisengage => exact execGearDisengage_completing
  | clearFault => exact execClearFault_completing
  | microstepDue => exact execMicrostepDue_completing
  | limitSwitchChange => exact execLimitSwitchChange_completing
  | encoderEdge => exact execEncoderEdge_completing
  | gearArm => exact execGearArm_completing
  | gearCancel => exact execGearCancel_completing
  | sectorSync => exact execSectorSync_completing
  | fastDecodeDone => exact execFastDecodeDone_completing
  | deepIterationDone => exact execDeepIterationDone_completing
  | clusterReread => exact execClusterReread_completing
  | egressDecryptDone => exact execEgressDecryptDone_completing
  | rawResult => exact execRawResult_completing
  | inPlaceRetry => exact execInPlaceRetry_completing
  | laserMaxWrite => exact execLaserMaxWrite_completing
  | writeInhibit => exact execWriteInhibit_completing
  | opcTestStep => exact execOpcTestStep_completing
  | opcTestStepDone => exact execOpcTestStepDone_completing
  | staticOpc => exact execStaticOpc_completing
  | stratDataAccess => exact execStratDataAccess_completing
  | assemblyDelayExpiry => exact execAssemblyDelayExpiry_completing
  | zoneEntry => exact execZoneEntry_completing
  | nextZoneNaming => exact execNextZoneNaming_completing
  | bootDigestCheck => exact execBootDigestCheck_completing
  | recoveryPhaseA => exact execRecoveryPhaseA_completing
  | recoveryPhaseB => exact execRecoveryPhaseB_completing
  | appendAdmission => exact execAppendAdmission_completing
  | rngHealthFail => exact execRngHealthFail_completing
  | commissionTimeout => exact execCommissionTimeout_completing
  | ageingTick => exact execAgeingTick_completing
  | fillAfterWait => exact execFillAfterWait_completing
  | cacheSramError => exact execCacheSramError_completing
  | invalidate => exact execInvalidate_completing
  | clean => exact execClean_completing
  | purgeOwner => exact execPurgeOwner_completing
  | zeroLine => exact execZeroLine_completing
  | rangeOpDone => exact execRangeOpDone_completing
  | tableLineBusyClear => exact execTableLineBusyClear_completing
  | rd => exact execRd_completing
  | own => exact execOwn_completing
  | upg => exact execUpg_completing
  | data => exact execData_completing
  | none => exact execNone_completing
  | evicting => exact execEvicting_completing
  | evict => exact execEvict_completing
  | evictD => exact execEvictD_completing
  | cleanD => exact execCleanD_completing
  | evictAck => exact execEvictAck_completing
  | credit => exact execCredit_completing
  | detach => exact execDetach_completing
  | detachAck => exact execDetachAck_completing
  | modeNote => exact execModeNote_completing
  | appBegin => exact execAppBegin_completing
  | appData => exact execAppData_completing
  | appVerified => exact execAppVerified_completing
  | appFailed => exact execAppFailed_completing
  | appAbort => exact execAppAbort_completing
  | recovReq => exact execRecovReq_completing
  | recovData => exact execRecovData_completing
  | ownerNote => exact execOwnerNote_completing
  | ownerDone => exact execOwnerDone_completing
  | catchBegin => exact execCatchBegin_completing
  | catchData => exact execCatchData_completing
  | catchDone => exact execCatchDone_completing
  | catchFailed => exact execCatchFailed_completing
  | chainReq => exact execChainReq_completing
  | chainVal => exact execChainVal_completing
  | pulseSync => exact execPulseSync_completing
  | pairPoint => exact execPairPoint_completing
  | pairConfirm => exact execPairConfirm_completing
  | pairConfirmAck => exact execPairConfirmAck_completing
  | hello => exact execHello_completing
  | helloAck => exact execHelloAck_completing
  | tableXfer => exact execTableXfer_completing
  | keyXfer => exact execKeyXfer_completing
  | cartReg => exact execCartReg_completing
  | lathLinkError => exact execLathLinkError_completing
  | aliveToggle => exact execAliveToggle_completing
  | alivePauseEnd => exact execAlivePauseEnd_completing
  | lathDown => exact execLathDown_completing
  | lathLive => exact execLathLive_completing
  | directionTake => exact execDirectionTake_completing
  | arbCollision => exact execArbCollision_completing
  | guardTimeEnd => exact execGuardTimeEnd_completing
  | inPeerPulse => exact execInPeerPulse_completing
  | inPeerFaulted => exact execInPeerFaulted_completing
  | inPeerHealthy => exact execInPeerHealthy_completing
  | vinWarnAssert => exact execVinWarnAssert_completing
  | vinWarnClear => exact execVinWarnClear_completing
  | returnCondition => exact execReturnCondition_completing
  | pwrwarnInputChange => exact execPwrwarnInputChange_completing
  | rideThroughWindowExpiry => exact execRideThroughWindowExpiry_completing
  | sealLevelTrip => exact execSealLevelTrip_completing
  | sealFinishEnd => exact execSealFinishEnd_completing
  | sealCheckpointEnd => exact execSealCheckpointEnd_completing
  | sealParkEnd => exact execSealParkEnd_completing
  | resetLevelTrip => cases hc
  | stackMonitorCycle => exact execStackMonitorCycle_completing
  | heartbeatLoss => exact execHeartbeatLoss_completing
  | balanceCommand => exact execBalanceCommand_completing
  | balanceExpiry => exact execBalanceExpiry_completing
  | dischargeTestRequest => exact execDischargeTestRequest_completing
  | dischargeTestDue => exact execDischargeTestDue_completing
  | dischargeTestStart => exact execDischargeTestStart_completing
  | dischargeTestDone => exact execDischargeTestDone_completing
  | coreMismatch => exact execCoreMismatch_completing
  | lockstepSelftest => exact execLockstepSelftest_completing
  | lockstepSelftestFail => exact execLockstepSelftestFail_completing
  | delayRegisterFault => exact execDelayRegisterFault_completing
  | warmRestartDone => exact execWarmRestartDone_completing
  | testPulseWindow => exact execTestPulseWindow_completing
  | pulseSampleInstant => exact execPulseSampleInstant_completing
  | pulsePeriodEnd => exact execPulsePeriodEnd_completing
  | outputOvercurrent => exact execOutputOvercurrent_completing
  | outputRetry => exact execOutputRetry_completing
  | faultClr => exact execFaultClr_completing
  | fieldSupplyLow => exact execFieldSupplyLow_completing
  | fieldSupplyRestored => exact execFieldSupplyRestored_completing
  | fieldInputChange => exact execFieldInputChange_completing
  | program => exact execProgram_completing
  | eraseSector => exact execEraseSector_completing
  | eraseBlock => exact execEraseBlock_completing
  | bitClear => exact execBitClear_completing
  | suspend => exact execSuspend_completing
  | resume => exact execResume_completing
  | flashOpDone => exact execFlashOpDone_completing
  | flashRead => exact execFlashRead_completing
  | suspendReached => exact execSuspendReached_completing
  | suspendHoldExpiry => exact execSuspendHoldExpiry_completing
  | autoSuspendEnd => exact execAutoSuspendEnd_completing
  | flashScrub => exact execFlashScrub_completing
  | flashRefresh => exact execFlashRefresh_completing
  | eventLogWrite => exact execEventLogWrite_completing
  | eventLogHourEnd => exact execEventLogHourEnd_completing
  | sramScrub => exact execSramScrub_completing
  | poisonConsumed _ _ fetch => exact execPoisonConsumed_completing (_fetch := fetch)
  | splitModeOpen => exact execSplitModeOpen_completing
  | splitModeClose => exact execSplitModeClose_completing
  | splitModeTimeout => exact execSplitModeTimeout_completing
  | testWriteData => exact execTestWriteData_completing
  | testWriteCheck => exact execTestWriteCheck_completing
  | testRead => exact execTestRead_completing
  | zeroWord => exact execZeroWord_completing
  | icuClaim => exact execIcuClaim_completing
  | icuHostClaim => exact execIcuHostClaim_completing
  | icuComplete => exact execIcuComplete_completing
  | maskSet => exact execMaskSet_completing
  | maskClr => exact execMaskClr_completing
  | pendSet => exact execPendSet_completing
  | pendClr => exact execPendClr_completing
  | thresholdWrite => exact execThresholdWrite_completing
  | srcCfgWrite => exact execSrcCfgWrite_completing
  | wakeSlotWrite => exact execWakeSlotWrite_completing
  | wakeDetect => exact execWakeDetect_completing
  | retentionEntry => exact execRetentionEntry_completing
  | idleTimerExpiry => exact execIdleTimerExpiry_completing
  | powerStateExitDone => exact execPowerStateExitDone_completing
  | powerOnReset => cases hc
  | calibrationSave => exact execCalibrationSave_completing
  | cartridgeSeated => exact execCartridgeSeated_completing
  | cartridgeRemoved => exact execCartridgeRemoved_completing
  | fwUpdateStart => exact execFwUpdateStart_completing
  | fwUpdateDone => exact execFwUpdateDone_completing hc
  | confirmMark => exact execConfirmMark_completing
  | heartbeatRestored => exact execHeartbeatRestored_completing
  | readFifoHighWater => exact execReadFifoHighWater_completing
  | defectBegin => exact execDefectBegin_completing
  | defectEnd => exact execDefectEnd_completing
  | readFifoOverflow => exact execReadFifoOverflow_completing
  | timingLockLost => exact execTimingLockLost_completing
  | dataFieldEnd => exact execDataFieldEnd_completing
  | sectorWriteStart => exact execSectorWriteStart_completing
  | payloadReadReturn => exact execPayloadReadReturn_completing
  | clusterRefresh => exact execClusterRefresh_completing
  | vinAdcSample => exact execVinAdcSample_completing
  | junctionTemperatureLimit => exact execJunctionTemperatureLimit_completing
  | refclkLoss => exact execRefclkLoss_completing
  | refclkReturn => exact execRefclkReturn_completing
  | msixTableWrite => exact execMsixTableWrite_completing
  | laserOverClear => exact execLaserOverClear_completing
  | writeInhibitClear => exact execWriteInhibitClear_completing
  | avsRailSettled => exact execAvsRailSettled_completing
  | avsWindowEnd => exact execAvsWindowEnd_completing
  | crystalEdgeTimeout => exact execCrystalEdgeTimeout_completing
  | focusLoss => exact execFocusLoss_completing
  | seqWatchdogExpiry => exact execSeqWatchdogExpiry_completing
  | seqHalt => exact execSeqHalt_completing
  | profileReplan => exact execProfileReplan_completing
  | moveComplete => exact execMoveComplete_completing
  | emergencyRampAtRest => exact execEmergencyRampAtRest_completing
  | preDriverFault => exact execPreDriverFault_completing
  | homingFailed => exact execHomingFailed_completing
  | writeFifoUnderrun => exact execWriteFifoUnderrun_completing
  | laserOverPower => exact execLaserOverPower_completing
  | laserIlkLow => exact execLaserIlkLow_completing
  | laserIlkRestored => exact execLaserIlkRestored_completing
  | writeResume => exact execWriteResume_completing

/-- Where a step's device comes from: the device before it, that device one tick later, a reset device, or the host's side reset. -/
theorem step_origin {s t : State} (h : step s = .next t) : ∃ d, Evolves .any d t.dev ∧
    (d = s.dev ∨ d = counted s.dev ∨ (∃ e, d = resetDevice e) ∨ ∃ e, d = resetHostRegs e ∧ Evolves .any s.dev e) := by
  unfold step at h
  split at h
  · obtain rfl := Host.Outcome.next.inj h
    refine ⟨counted s.dev, ?_, .inr (.inl rfl)⟩
    dsimp only
    exact tick_evolves
  next c rest _ =>
    cases hc : startsAnew c s.dev with
    | true =>
      obtain ⟨x, d, he⟩ := exec_startsAnew (s := { s with pending := rest }) hc
      obtain rfl := Host.Outcome.next.inj (he.symm.trans h)
      refine ⟨resetDevice d, ?_, .inr (.inr (.inl ⟨d, rfl⟩))⟩
      dsimp only
      exact powerOn_evolves
    | false =>
      by_cases hr : c = .conventionalReset
      · subst hr
        obtain rfl := Host.Outcome.next.inj h
        exact ⟨_, resetFunction_evolves, .inr (.inr (.inr ⟨_, rfl, Evolves.refl.dropLink.resetHostIcu⟩))⟩
      · obtain ⟨e, he, hd⟩ := exec_completing (s := { s with pending := rest }) hc hr
        obtain rfl := Host.Outcome.next.inj (he.symm.trans h)
        exact ⟨s.dev, hd, .inl rfl⟩

/-! ### The tables stay canonical -/

theorem step_keeps_registersCanonical {s t : State} (hs : RegistersCanonical s) (h : step s = .next t) : RegistersCanonical t := by
  obtain ⟨d, hd, rfl | rfl | ⟨e, rfl⟩ | ⟨e, rfl, he⟩⟩ := step_origin h
  · exact hd.regs hs
  · exact hd.regs hs
  · exact hd.regs rfl
  · exact hd.regs (swf_filter _ _ _ (he.regs hs))

theorem step_keeps_sourcesCanonical {s t : State} (hs : SourcesCanonical s) (h : step s = .next t) : SourcesCanonical t := by
  obtain ⟨d, hd, rfl | rfl | ⟨e, rfl⟩ | ⟨e, rfl, he⟩⟩ := step_origin h
  · exact hd.srcs hs
  · exact hd.srcs hs
  · exact hd.srcs rfl
  · exact hd.srcs (he.srcs hs)

end

/-- Settles O56: a step's device evolves, which keeps both tables canonical, from a device whose tables are canonical. -/
theorem everyStepKeepsTheTablesCanonical : Obligations.EveryStepKeepsTheTablesCanonical :=
  ⟨fun _ _ => step_keeps_registersCanonical, fun _ _ => step_keeps_sourcesCanonical⟩

end Sys2Proof.Machine
end

section
/-!
PROOFS. Power-on, the calibration record, the cartridge in its seat and firmware updates: what a power-on does quietly, what each of the
other commands comes to, and what a command leaves as it was.
-/

namespace Sys2Proof.Machine

section
variable {d e : Device}

/-! ### What a command leaves as it was -/

/-- A command whose meaning takes the device to `e` completes with it. -/
theorem completes_to {c : Instr} {s : State} {P : Device → Prop} {f : Device → Device} (h : exec c s = effect s f) (he : f s.dev = e)
    (p : P e) : Completes c s P := completes_effect f h (he ▸ p)

/-- A detection changes the interrupt controller, the bus and the register words alone. -/
theorem raise_frame {k : Nat} : ∃ i b r, raise k d = { d with icu := i, bus := b, regs := r } := by
  rcases raise_spec k d with ⟨-, e⟩ | ⟨-, ⟨i, b, r, e⟩, -⟩
  · exact ⟨_, _, _, e⟩
  · exact ⟨i, b, r, e⟩

theorem raise_gen {k : Nat} : (raise k d).gen = d.gen := by
  obtain ⟨i, b, r, e⟩ := raise_frame (k := k) (d := d)
  rw [e]

theorem raise_cry {k : Nat} : (raise k d).cry = d.cry := by
  obtain ⟨i, b, r, e⟩ := raise_frame (k := k) (d := d)
  rw [e]

protected theorem OnlyIn.refl {bs : List Block} {os : List Nat} : OnlyIn bs os d d :=
  ⟨fun b _ => by cases b <;> rfl, fun _ _ => rfl⟩

protected theorem OnlyIn.trans {bs : List Block} {os : List Nat} {d₀ : Device} (h : OnlyIn bs os d₀ d) (g : OnlyIn bs os d e) :
    OnlyIn bs os d₀ e := by
  refine ⟨fun b hb => ?_, fun o ho => (g.2 o ho).trans (h.2 o ho)⟩
  have hk := h.1 b hb
  have gk := g.1 b hb
  cases b <;> exact Eq.trans gk hk

protected theorem OnlyIn.mono {bs bs' : List Block} {os os' : List Nat} (h : OnlyIn bs os d e) (hb : bs ⊆ bs') (ho : os ⊆ os') :
    OnlyIn bs' os' d e := ⟨fun b n => h.1 b fun m => n (hb m), fun o n => h.2 o fun m => n (ho m)⟩

theorem raise_onlyIn {k : Nat} : OnlyIn interruptParts [0x4540] d (raise k d) := by
  obtain ⟨i, b, r, e⟩ := raise_frame (k := k) (d := d)
  refine ⟨fun p hp => ?_, fun o ho => raise_reg k d o (by simpa using ho)⟩
  rw [e]
  cases p with
  | icu => simp [interruptParts] at hp
  | bus => simp [interruptParts] at hp
  | _ => rfl

theorem updGen_onlyIn {f : Startup → Startup} : OnlyIn [.gen] [] d (updGen f d) := by
  refine ⟨fun p hp => ?_, fun _ _ => rfl⟩
  cases p with
  | gen => simp at hp
  | _ => rfl

theorem updCry_onlyIn {f : Crypto → Crypto} : OnlyIn [.cry] [] d (updCry f d) := by
  refine ⟨fun p hp => ?_, fun _ _ => rfl⟩
  cases p with
  | cry => simp at hp
  | _ => rfl

theorem updFls_onlyIn {f : Flash → Flash} : OnlyIn [.fls] [] d (updFls f d) := by
  refine ⟨fun p hp => ?_, fun _ _ => rfl⟩
  cases p with
  | fls => simp at hp
  | _ => rfl

/-! ### The calibration record -/

theorem writeCalibration_onlyIn {c : Calibration} : OnlyIn [.nv, .gen] [] d (writeCalibration c d) := by
  refine ⟨fun p hp => ?_, fun _ _ => rfl⟩
  cases p with
  | nv => simp at hp
  | gen => simp at hp
  | _ => rfl

/-- The record that a save writes over `c` (R456, R506). -/
def savedOver (c : Calibration) (d : Device) : Calibration :=
  { c with
    saved := c.saved.filter (fun p => !featureRegs.contains p.1) ++ regsNow d (fun o => featureRegs.contains o)
    laserSeconds := d.gen.laserSeconds, revolutions := revolutions d }

theorem onlyIf_saveDue {c : Calibration} (h : d.nv.calibration = some c) (hd : saveDue d = true) :
    onlyIf (saveDue d) saveFeatures d = writeCalibration (savedOver c d) d := by
  rw [hd, onlyIf_true]
  simp only [saveFeatures, h, savedOver]

theorem exec_calibrationSave {s : State} : exec .calibrationSave s = effect s fun d => onlyIf (saveDue d) saveFeatures d := rfl

theorem calibrationSave_saves (s : State) (c : Calibration) (hc : s.dev.nv.calibration = some c) (hd : saveDue s.dev = true) :
    Completes .calibrationSave s fun d =>
      (∃ r, d.nv.calibration = some r ∧ r.laserSeconds = s.dev.gen.laserSeconds ∧ r.revolutions = s.dev.gen.edges / 1152 ∧
        r.strat = c.strat ∧ r.laserMax = c.laserMax) ∧
      d.nv.calGeneration = s.dev.nv.calGeneration + 1 ∧ d.gen.unsaved = false ∧ d.gen.savedAt = some s.dev.now ∧
      OnlyIn [.nv, .gen] [] s.dev d :=
  completes_to exec_calibrationSave (onlyIf_saveDue hc hd)
    ⟨⟨_, rfl, rfl, rfl, rfl, rfl⟩, rfl, rfl, rfl, writeCalibration_onlyIn⟩

/-! ### A cartridge seated -/

/-- The cartridge is in the seat, and CART_STATE and TAG_OK tell how it was found (R461). -/
def seated (c : Cartridge) (ok : Bool) (d : Device) : Device :=
  updGen (fun g => { g with cartState := if ok then 2 else 3 }) (updCry (fun x => { x with tagOk := ok }) (updGen (fun g =>
    { g with cart := some c }) d))

theorem seated_onlyIn {c : Cartridge} {ok : Bool} : OnlyIn ([.gen, .cry] ++ interruptParts) [0x4540] d (seated c ok d) := by
  have hg : OnlyIn ([.gen, .cry] ++ interruptParts) [0x4540] d (updGen (fun g => { g with cart := some c }) d) :=
    updGen_onlyIn.mono (by decide) (by decide)
  exact (hg.trans (updCry_onlyIn.mono (by decide) (by decide))).trans (updGen_onlyIn.mono (by decide) (by decide))

theorem identify_refused {y : SystemScan} :
    identify y (updGen (fun g => { g with cart := some notK6 }) d) = seated notK6 false d := by
  simp [identify, updGen, updCry, seated, cartWritable, cartForeign, notK6]

/-- A cartridge that may be written is K6, admitted and not foreign (R211, R212). -/
theorem cartWritable_spec {c : Cartridge} (h : cartWritable d c = true) :
    c.k6 = true ∧ cartAdmitted d c.serial = true ∧ cartForeign d c = false := by
  simp only [cartWritable, Bool.and_eq_true, Bool.not_eq_true'] at h
  obtain ⟨⟨⟨hk, ha⟩, hf⟩, -⟩ := h
  exact ⟨hk, ha, hf⟩

theorem identify_blank {y : SystemScan} {c : Cartridge} (hw : cartWritable d c = true) (hf : c.format = 0) :
    identify y (updGen (fun g => { g with cart := some c }) d) = seated c true d := by
  obtain ⟨-, ha, -⟩ := cartWritable_spec hw
  have hw' : cartWritable (updGen (fun g => { g with cart := some c }) d) c = true := hw
  have ha' (f : Crypto → Crypto) (g : Startup → Startup) (hc : (f d.cry).cartReg = d.cry.cartReg) :
      cartAdmitted (updGen g (updCry f (updGen (fun g => { g with cart := some c }) d))) c.serial = true := by
    simpa [cartAdmitted, updGen, updCry, hc] using ha
  simp only [identify, updGen_gen, hw', ha' (fun x => { x with tagOk := true }) _ rfl, hf, Bool.true_or, if_true, Bool.not_true,
    Bool.and_false, Bool.false_eq_true, if_false, reduceCtorEq, decide_false, seated]

/-- What a refused cartridge shows of its cause: nothing outside Dust Sheet or with another cause (R475). -/
theorem cartSeated_eq {m : List Byte} {y : SystemScan} {c : Cartridge} {ok : Bool} (hc : (parseCartridge m).getD notK6 = c)
    (hi : identify y (updGen (fun g => { g with cart := some c }) d) = seated c ok d) :
    cartSeated m y d = if (seated c ok d).gen.mode = .dustSheet && (cartCause (seated c ok d) = 3 || cartCause (seated c ok d) = 6) then
      updGen (fun g => { g with dustCause := cartCause (seated c ok d) }) (raise 21 (seated c ok d)) else raise 21 (seated c ok d) := by
  have hcause : cartCause (raise 21 (seated c ok d)) = cartCause (seated c ok d) := by
    obtain ⟨i, b, r, e⟩ := raise_frame (k := 21) (d := seated c ok d)
    rw [e]
    rfl
  simp only [cartSeated, hc, hi, hcause, raise_gen]

theorem exec_cartridgeSeated {s : State} {m : List Byte} {y : SystemScan} :
    exec (.cartridgeSeated m y) s = effect s fun d => onlyIf d.gen.cart.isNone (cartSeated m y) d := rfl

theorem cartridgeSeated_refused (s : State) (m : List Byte) (y : SystemScan) (hn : s.dev.gen.cart = none)
    (hm : s.dev.gen.mode = .dustSheet) (hp : parseCartridge m = none) :
    Completes (.cartridgeSeated m y) s fun d =>
      d.gen = { s.dev.gen with cart := some notK6, cartState := 3, dustCause := 3 } ∧ d.cry.tagOk = false ∧ Raised 21 d ∧
      OnlyIn ([.gen, .cry] ++ interruptParts) [0x4540] s.dev d := by
  have he : onlyIf s.dev.gen.cart.isNone (cartSeated m y) s.dev = updGen (fun g =>
    { g with dustCause := 3 }) (raise 21 (seated notK6 false s.dev)) := by
    rw [hn, Option.isNone_none, onlyIf_true, cartSeated_eq (by rw [hp]; rfl) identify_refused, if_pos]
    · rfl
    · simp [seated, updGen, updCry, hm, cartCause, notK6]
  refine completes_to exec_cartridgeSeated he ⟨?_, ?_, ?_, ?_⟩
  · simp only [updGen_gen, raise_gen]
    rfl
  · simp only [updGen_cry, raise_cry]
    rfl
  · exact (raised_raise 21 _).of_icu rfl
  · exact (seated_onlyIn.trans (raise_onlyIn.mono (by decide) (by decide))).trans (updGen_onlyIn.mono (by decide) (by decide))

theorem cartridgeSeated_blank (s : State) (m : List Byte) (y : SystemScan) (c : Cartridge) (hn : s.dev.gen.cart = none)
    (hp : parseCartridge m = some c) (hw : cartWritable s.dev c = true) (hf : c.format = 0) :
    Completes (.cartridgeSeated m y) s fun d =>
      d.gen = { s.dev.gen with cart := some c, cartState := 2 } ∧ d.cry = { s.dev.cry with tagOk := true } ∧ Raised 21 d ∧
      OnlyIn ([.gen, .cry] ++ interruptParts) [0x4540] s.dev d := by
  obtain ⟨hk, ha, hff⟩ := cartWritable_spec hw
  have hcause : cartCause (seated c true s.dev) = 4 := by
    have hff' : cartForeign (seated c true s.dev) c = false := hff
    have hw' : cartWritable (seated c true s.dev) c = true := hw
    have hg : (seated c true s.dev).gen.cart = some c := rfl
    simp [cartCause, hg, hk, hff', hw', hf]
  have he : onlyIf s.dev.gen.cart.isNone (cartSeated m y) s.dev = raise 21 (seated c true s.dev) := by
    rw [hn, Option.isNone_none, onlyIf_true, cartSeated_eq (by rw [hp]; rfl) (identify_blank hw hf), if_neg]
    simp [hcause]
  refine completes_to exec_cartridgeSeated he ⟨raise_gen, raise_cry, raised_raise 21 _, ?_⟩
  exact seated_onlyIn.trans (raise_onlyIn.mono (by decide) (by decide))

/-! ### Firmware updates -/

theorem exec_fwUpdateStart {s : State} {v : Word32} :
    exec (.fwUpdateStart .host v) s = effect s fun d => if Requester.host = .host then gate .host 0x68 true (writeFwUpdate v) d else d :=
      rfl

/-- Before the lock the host's write of GEN.FW_UPDATE has its effect (R474). -/
theorem gate_host_unlocked {o : Nat} {f : Device → Device} (h : d.hif.lock = false) : gate .host o true f d = f d := by
  simp [gate, h]

theorem fwUpdateStart_completes {s : State} {v : Word32} {P : Device → Prop} (hl : s.dev.hif.lock = false) (p : P (writeFwUpdate v s.dev)) :
    Completes (.fwUpdateStart .host v) s P :=
  completes_to exec_fwUpdateStart (by rw [if_pos rfl, gate_host_unlocked hl]) p

theorem writeFwUpdate_onlyIn {v : Word32} : OnlyIn [.gen] [] d (writeFwUpdate v d) := by
  unfold writeFwUpdate
  dsimp only
  split
  · exact updGen_onlyIn
  · exact updGen_onlyIn.trans updGen_onlyIn

theorem writeFwUpdate_idle {v : Word32} (h : d.gen.fwState = 1 ∨ wbit v 31 = false) :
    (writeFwUpdate v d).gen = { d.gen with fwSlot := fld v 4 0, fwRestart := wbit v 30 } := by
  unfold writeFwUpdate
  rw [if_pos]
  · rfl
  · rcases h with h | h
    · simp [updGen, h]
    · simp [h]

theorem writeFwUpdate_started {v : Word32} {err : Nat} (hf : d.gen.fwState ≠ 1) (hv : wbit v 31 = true)
    (he : (if d.gen.mode != .dustSheet then 1 else if d.pwr.st != .armed then 6 else 0) = err) :
    (writeFwUpdate v d).gen = { d.gen with fwSlot := fld v 4 0, fwRestart := wbit v 30, fwState := if err = 0 then 1 else 3, fwErr := err,
                                           fwSource := fld v 4 0 } := by
  unfold writeFwUpdate
  rw [if_neg]
  · subst he
    rfl
  · simp [updGen, hf, hv]

/-! ### The end of a firmware update -/

theorem exec_fwUpdateDone {s : State} {image : List Byte} {ok : Bool} {x : PowerOnInputs} :
    exec (.fwUpdateDone image ok x) s = effect s fun d => onlyIf (d.gen.fwState = 1) (updateDone image ok x) d := rfl

theorem fwUpdateDone_fails (s : State) (image : List Byte) (ok : Bool) (x : PowerOnInputs) (hs : s.dev.gen.fwState = 1)
    (h0 : updateErr image ok s.dev ≠ 0) (h5 : updateErr image ok s.dev ≠ 5) :
    Completes (.fwUpdateDone image ok x) s fun d =>
      d.gen = { s.dev.gen with fwState := 3, fwErr := updateErr image ok s.dev } ∧ OnlyIn [.gen] [] s.dev d := by
  have he : onlyIf (s.dev.gen.fwState = 1) (updateDone image ok x) s.dev =
      updGen (fun g => { g with fwState := 3, fwErr := updateErr image ok s.dev }) s.dev := by
    simp only [hs, decide_true, onlyIf_true, updateDone, h0, h5, if_false, decide_false, Bool.false_and, Bool.false_eq_true]
  exact completes_to exec_fwUpdateDone he ⟨rfl, updGen_onlyIn⟩

/-! ### The image that an update programs -/

theorem sget_filter_of_kept {α : Type} {z : Nat → α} {p : Nat × α → Bool} {m : Sparse α} {i : Nat} (h : ∀ a, p (i, a) = true) :
    sget z (m.filter p) i = sget z m i := by
  induction m with
  | nil => rfl
  | cons q m ih =>
    obtain ⟨j, a⟩ := q
    by_cases hj : j = i
    · subst hj
      simp [h, sget]
    · by_cases hp : p (j, a) = true <;> simp [hp, sget, hj, ih]

/-- Erasing a sector leaves the bytes outside it. -/
theorem eraseSectorAt_flashByte {k i : Nat} (h : i < 4096 * k ∨ 4096 * (k + 1) ≤ i) : (eraseSectorAt k d).flashByte i = d.flashByte i := by
  refine sget_filter_of_kept fun a => ?_
  simp only [Bool.not_eq_true', Bool.and_eq_false_iff, decide_eq_false_iff_not]
  omega

theorem foldl_eraseSectorAt_flashByte {b n i : Nat} (h : i < 4096 * b ∨ 4096 * (b + n) ≤ i) :
    ((List.range n).foldl (fun d k => eraseSectorAt (b + k) d) d).flashByte i = d.flashByte i := by
  induction n with
  | zero => rfl
  | succ n ih =>
    rw [List.range_succ, List.foldl_append]
    exact (eraseSectorAt_flashByte (by omega)).trans (ih (by omega))

theorem foldl_sset_other {α : Type} [DecidableEq α] {z : Nat → α} {a i : Nat} {l : List (Nat × α)} {m : Sparse α}
    (h : ∀ p ∈ l, a + p.1 ≠ i) : sget z (l.foldl (fun m p => sset z (a + p.1) p.2 m) m) i = sget z m i := by
  induction l generalizing m with
  | nil => rfl
  | cons p l ih =>
    rw [List.foldl_cons, ih fun q hq => h q (List.mem_cons_of_mem _ hq), sget_sset_ne]
    exact (h p List.mem_cons_self).symm

/-- Programming leaves the bytes outside what it writes. -/
theorem programAt_flashByte {a i : Nat} {bs : List Byte} (h : i < a ∨ a + bs.length ≤ i) :
    (programAt a bs d).flashByte i = d.flashByte i := by
  refine foldl_sset_other fun p hp => ?_
  have := List.mem_range.1 (List.of_mem_zip hp).1
  omega

theorem slice_length_le {o n : Nat} {bs : List Byte} : (slice o n bs).length ≤ n := by
  simp [slice]

theorem headerPage_length_le {b : List Byte} : (headerPage d b).length ≤ 256 := by
  have h₁ := slice_length_le (o := 0) (n := 16) (bs := b)
  have h₂ := slice_length_le (o := 24) (n := 36) (bs := b)
  have h₃ := slice_length_le (o := 64) (n := 192) (bs := b)
  simp only [headerPage, List.length_append, leBytes, List.length_map, List.length_range]
  omega

/-- The body of a good image fits its region (R472). -/
theorem imageGood_length {b : List Byte} (h : imageGood b = true) : leAt b 4 4 ≤ 2095872 := by
  simp only [imageGood, Bool.and_eq_true, decide_eq_true_eq] at h
  omega

theorem imageGood_of_updateErr {b : List Byte} {ok : Bool} (h : updateErr b ok d = 0) : imageGood b = true := by
  by_contra hg
  rw [Bool.not_eq_true] at hg
  simp only [updateErr, hg, Bool.not_false, if_true] at h
  split_ifs at h

theorem imageBase_aligned {b : Bool} : 4096 * (imageBase b / 4096) = imageBase b := by
  cases b <;> rfl

theorem programImage_flashByte {b : List Byte} {i : Nat} (hg : imageGood b = true)
    (h : i < imageBase (!d.lsk.imageB) ∨ imageBase (!d.lsk.imageB) + 0x200000 ≤ i) : (programImage b d).flashByte i = d.flashByte i := by
  have hl := imageGood_length hg
  unfold programImage
  extract_lets base c
  have ha : 4096 * (base / 4096) = base := imageBase_aligned
  replace h : i < base ∨ base + 0x200000 ≤ i := h
  have hc : c.flashByte i = d.flashByte i := foldl_eraseSectorAt_flashByte (by omega)
  have hh := headerPage_length_le (d := c) (b := b)
  have hs := slice_length_le (o := 0x500) (n := leAt b 4 4) (bs := b)
  rw [programAt_flashByte (by omega), programAt_flashByte (by omega), hc]

theorem eraseSectorAt_onlyIn {k : Nat} : OnlyIn [.fls] [] d (eraseSectorAt k d) := updFls_onlyIn

theorem programAt_onlyIn {a : Nat} {bs : List Byte} : OnlyIn [.fls] [] d (programAt a bs d) := updFls_onlyIn

theorem foldl_eraseSectorAt_onlyIn {b : Nat} {l : List Nat} : OnlyIn [.fls] [] d (l.foldl (fun d k => eraseSectorAt (b + k) d) d) := by
  induction l generalizing d with
  | nil => exact .refl
  | cons k l ih => exact eraseSectorAt_onlyIn.trans ih

theorem programImage_onlyIn {b : List Byte} : OnlyIn [.fls] [] d (programImage b d) := by
  unfold programImage
  extract_lets base c
  have hc : OnlyIn [.fls] [] d c := foldl_eraseSectorAt_onlyIn
  exact (hc.trans programAt_onlyIn).trans programAt_onlyIn

theorem updGen_flashByte {f : Startup → Startup} {i : Nat} : (updGen f d).flashByte i = d.flashByte i := rfl

theorem fwUpdateDone_succeeds (s : State) (image : List Byte) (x : PowerOnInputs) (hs : s.dev.gen.fwState = 1)
    (h0 : updateErr image true s.dev = 0) (hr : s.dev.gen.fwRestart = false) :
    Completes (.fwUpdateDone image true x) s fun d =>
      d.gen = { s.dev.gen with fwState := 2, fwErr := 0 } ∧
      (∀ i, i < imageBase (!s.dev.lsk.imageB) ∨ imageBase (!s.dev.lsk.imageB) + 0x200000 ≤ i → d.flashByte i = s.dev.flashByte i) ∧
      OnlyIn [.gen, .fls] [] s.dev d := by
  have he : onlyIf (s.dev.gen.fwState = 1) (updateDone image true x) s.dev =
      updGen (fun g => { g with fwState := 2, fwErr := 0 }) (programImage image s.dev) := by
    simp only [hs, decide_true, onlyIf_true, updateDone, h0, if_true, updGen_gen, programImage_gen, hr, Bool.and_false, Bool.false_eq_true,
      if_false]
  refine completes_to exec_fwUpdateDone he ⟨?_, fun i hi => ?_, ?_⟩
  · rw [updGen_gen, programImage_gen]
  · rw [updGen_flashByte]
    exact programImage_flashByte (imageGood_of_updateErr h0) hi
  · exact (programImage_onlyIn.mono (by decide) (by decide)).trans (updGen_onlyIn.mono (by decide) (by decide))

/-! ### A power-on, quietly -/

/-- The reset device once the start-up tests have been noted (R449). -/
def tested (x : PowerOnInputs) (d : Device) : Device :=
  updEcc (fun c => { c with testDone := true, failMap := x.checkerFail, testUs := x.selfTestUs }) (resetDevice d)

/-- What a power-on has come to when it chooses the mode (R452, Table 17-1). -/
def readied (x : PowerOnInputs) (cause : Option Nat) (d : Device) : Device :=
  let d := noteTests x.checkerFail x.comparatorOk x.selfTestUs (resetDevice d)
  let d := if x.pacingFault then raise 20 { d with pacing := { d.pacing with fault := true, backup := true } } else d
  let d := updLsk (fun l => { l with imageB := chooseImage d x }) d
  let d := loadKeys cause.isNone d
  let d := restoreCalibration (if d.nv.pairing.isNone then raise 186 d else d)
  let d := updGen (fun g => { g with cart := x.cartMemory.map fun m => (parseCartridge m).getD notK6, phase := 1 }) d
  judgeSlots (identify x.system d)

/-- What follows the choice of the mode. -/
def settled (cause : Option Nat) (d : Device) : Device :=
  let d := if cause.isNone then imageStarts d else d
  advancePhase (updGen (fun g => { g with phase := if mediumReady d then 3 else 6 }) d)

theorem primerCause_of_fail {f : BitVec 16} {c i : Bool} (h : f ≠ 0) : primerCause f c i = some 6 := if_pos (bne_iff_ne.2 h)

/-- The image chosen is no matter of the pair's supervision. -/
protected theorem Evolves.chooseImage {μ : Manner} {d₀ : Device} {b : Bool} (h : Evolves μ d₀ d) :
    Evolves μ d₀ (updLsk (fun l => { l with imageB := b }) d) := h.edit

theorem powerOn_eq {x : PowerOnInputs} : ∃ cause, (x.checkerFail ≠ 0 → cause = some 6) ∧
    powerOn x d = settled cause (chooseMode cause (readied x cause d)) :=
  ⟨_, primerCause_of_fail, rfl⟩

theorem noteTests_quiet {x : PowerOnInputs} :
    Evolves .quiet (tested x d) (noteTests x.checkerFail x.comparatorOk x.selfTestUs (resetDevice d)) := by
  unfold noteTests
  exact ((Evolves.refl.updGen).unless .raise).unless .raise |>.raise

theorem readied_quiet {x : PowerOnInputs} {cause : Option Nat} :
    Evolves .quiet (noteTests x.checkerFail x.comparatorOk x.selfTestUs (resetDevice d)) (readied x cause d) := by
  unfold readied
  exact (Evolves.refl.when fun h => h.pacing.raise).chooseImage.loadKeys.when .raise |>.restoreCalibration.updGen.identify.judgeSlots

theorem settled_quiet {cause : Option Nat} : Evolves .quiet d (settled cause d) := by
  unfold settled
  exact (Evolves.refl.when .imageStarts).updGen.advancePhase

/-- A change of mode outside Topcoat and Primer, to neither of them. -/
theorem setMode_eq {m : Mode} (hm : d.gen.mode ≠ m) (hp : d.gen.mode ≠ .primer) (ht : d.gen.mode ≠ .topcoat) (hn : m ≠ .topcoat) :
    setMode m d = tellMode (raise 18 (updGen (fun g => { g with mode := m }) d)) := by
  simp only [setMode, hm, hp, ht, hn, decide_false, Bool.or_self, Bool.false_eq_true, if_false]

theorem setMode_quiet {m : Mode} (hm : d.gen.mode ≠ m) (hp : d.gen.mode ≠ .primer) (ht : d.gen.mode ≠ .topcoat) (hn : m ≠ .topcoat) :
    Evolves .quiet (updGen (fun g => { g with mode := m }) d) (setMode m d) := by
  rw [setMode_eq hm hp ht hn]
  exact Evolves.refl.raise.tellMode

/-- The pair is held for a cause of Primer (R403). -/
def heldFor (cause : Nat) : Device → Device := updLsk fun l => { l with cause := cause, pair := .held, testDue := false }

/-- The balancing that Primer drops is no matter of the supply's state. -/
protected theorem Evolves.dropBalance {μ : Manner} {d₀ : Device} (h : Evolves μ d₀ d) :
    Evolves μ d₀ (updPwr (fun p => { p with bleed := 0, testRunning := false }) d) := h.edit

/-- The way into Primer: the pair is held, then quietly to the change of mode, then quietly on. -/
theorem enterPrimer_quiet {cause : Nat} (hp : d.gen.mode ≠ .primer) (ht : d.gen.mode ≠ .topcoat) :
    ∃ e, Evolves .quiet (raise 162 (heldFor cause d)) e ∧ Evolves .quiet (updGen (fun g =>
      { g with mode := .primer }) e) (enterPrimer cause d) := by
  unfold enterPrimer
  rw [if_neg hp]
  extract_lets d₁ s d₂ d₃ d₄
  have h₂ : Evolves .quiet d₁ d₂ := Evolves.refl.servo
  have h₄ : Evolves .quiet d₁ d₄ := (h₂.when fun h => h.setRegF.setSpeed).updWrc
  have hm : d₄.gen.mode = d.gen.mode := ((Evolves.refl.raise.trans h₄).quiet rfl).mode
  have g := setMode_quiet (hm ▸ hp : d₄.gen.mode ≠ .primer) (hm ▸ hp) (hm ▸ ht) nofun
  exact ⟨d₄, h₄, g.clampAvs.updCry.updGen.noPower.dropBalance.finishAll⟩

/-! ### What stands through a power-on -/

/-- What stands from the start-up tests to the end of a power-on: `n` power-ons counted, the tests' outcome `f`, and whether the mode has
been chosen. -/
structure Started (n : Nat) (f : BitVec 16) (chosen : Bool) (d : Device) : Prop where
  lock : d.hif.lock = false
  cmds : d.hif.cmds = []
  st : d.pwr.st = .unarmed
  powerOns : d.gen.powerOns = n
  testDone : d.ecc.testDone = true
  failMap : d.ecc.failMap = f
  reads : d.rdc.clusters = []
  awake : d.icu.retention = false
  isChosen : d.gen.chosen = chosen

section
variable {n : Nat} {f : BitVec 16} {b : Bool}

protected theorem Started.quietly (h : Started n f b d) (g : Evolves .quiet d e) : Started n f b e := by
  have q := g.quiet rfl
  exact ⟨q.lock.trans h.lock, q.cmds h.cmds, q.st.trans h.st, q.powerOns.trans h.powerOns, q.ecc ▸ h.testDone, q.ecc ▸ h.failMap,
    q.reads h.reads, q.awake h.awake, q.chosen.trans h.isChosen⟩

protected theorem Started.heldFor {cause : Nat} (h : Started n f b d) : Started n f b (heldFor cause d) := { h with }

protected theorem Started.choose (h : Started n f b d) : Started n f true (updGen (fun g => { g with chosen := true }) d) :=
  { h with isChosen := rfl }

protected theorem Started.inMode {m : Mode} (h : Started n f b d) : Started n f b (updGen (fun g => { g with mode := m }) d) := { h with }

theorem started_tested {x : PowerOnInputs} : Started (min 0xFFFFFFFF (d.gen.powerOns + 1)) x.checkerFail false (tested x d) := by
  have hp : (resetDevice d).gen.powerOns = min 0xFFFFFFFF (d.gen.powerOns + 1) := by
    unfold resetDevice
    split <;> rfl
  exact ⟨rfl, rfl, rfl, hp, rfl, rfl, rfl, rfl, rfl⟩

/-- The mode chosen, the power-on stands as it did. -/
theorem Started.chooseMode {cause : Option Nat} (h : Started n f b d) (hm : d.gen.mode = .dustSheet) :
    Started n f true (chooseMode cause d) := by
  unfold Machine.chooseMode
  extract_lets c
  have hc : Started n f true c := h.choose
  have hcm : c.gen.mode = .dustSheet := hm
  split
  next k =>
    obtain ⟨e, he, hk⟩ := enterPrimer_quiet (d := c) (cause := k) (by simp [hcm]) (by simp [hcm])
    have hk' := ((hc.heldFor.quietly (Evolves.refl.raise.trans he)).inMode).quietly hk
    exact hk'.quietly (Evolves.refl.when .spinUp)
  next =>
    split
    · exact hc.quietly Evolves.refl.updGen.raise
    · have hu := setMode_quiet (d := c) (m := .undercoat) (by simp [hcm]) (by simp [hcm]) (by simp [hcm]) nofun
      exact hc.inMode.quietly hu.finishRetiring.spinUp

theorem readied_mode {x : PowerOnInputs} {cause : Option Nat} : (readied x cause d).gen.mode = .dustSheet :=
  ((noteTests_quiet.trans readied_quiet).quiet rfl).mode

/-- Where a power-on ends. -/
theorem started_powerOn {x : PowerOnInputs} : Started (min 0xFFFFFFFF (d.gen.powerOns + 1)) x.checkerFail true (powerOn x d) := by
  obtain ⟨cause, -, e⟩ := powerOn_eq (x := x) (d := d)
  have h := started_tested.quietly (noteTests_quiet.trans (readied_quiet (x := x) (cause := cause) (d := d)))
  rw [e]
  exact (h.chooseMode readied_mode).quietly settled_quiet

end

/-! ### A power-on whose start-up tests fail -/

theorem raise_pending {k : Nat} (h : d.icu.retention = false) : ((raise k d).src k).pending = true := by
  rcases raise_spec k d with ⟨ht, -⟩ | ⟨-, g⟩
  · simp [h] at ht
  · rw [g.2.1 k]
    simp [srcDetect]

/-- A failed test of the memory checker raises source 186 (R449). -/
theorem noteTests_raises {x : PowerOnInputs} (h : x.checkerFail ≠ 0) :
    ((noteTests x.checkerFail x.comparatorOk x.selfTestUs (resetDevice d)).src 186).pending = true := by
  unfold noteTests
  extract_lets d₁ d₂ d₃ d₄
  have h₃ : (d₃.src 186).pending = true := by
    simp only [d₃, if_neg h]
    exact raise_pending rfl
  have a₃ : d₃.icu.retention = false := by
    simp only [d₃, if_neg h]
    exact ((Evolves.refl (μ := .quiet) (d := d₂)).raise (s := 186) |>.quiet rfl).awake rfl
  have g : Evolves .quiet d₃ (raise 24 d₄) := (Evolves.refl.unless .raise).raise
  exact (g.quiet rfl).pending a₃ _ h₃

/-- How a power-on into Primer ends. -/
structure InPrimer (cause : Nat) (d : Device) : Prop where
  mode : d.gen.mode = .primer
  cause : d.lsk.cause = cause
  pair : d.lsk.pair = .held
  awake : d.icu.retention = false
  checker : (d.src 186).pending = true
  held : (d.src 162).pending = true

protected theorem InPrimer.quietly {cause : Nat} (h : InPrimer cause d) (g : Evolves .quiet d e) : InPrimer cause e := by
  have q := g.quiet rfl
  exact ⟨q.mode.trans h.mode, q.cause.trans h.cause, q.pair.trans h.pair, q.awake h.awake, q.pending h.awake _ h.checker,
    q.pending h.awake _ h.held⟩

theorem enterPrimer_inPrimer {cause : Nat} (hp : d.gen.mode ≠ .primer) (ht : d.gen.mode ≠ .topcoat) (ha : d.icu.retention = false)
    (h : (d.src 186).pending = true) : InPrimer cause (enterPrimer cause d) := by
  obtain ⟨e, he, hk⟩ := enterPrimer_quiet (cause := cause) hp ht
  have q := he.quiet rfl
  have r := (Evolves.refl (μ := .quiet) (d := heldFor cause d)).raise (s := 162) |>.quiet rfl
  have begun : InPrimer cause (updGen (fun g => { g with mode := .primer }) e) :=
    ⟨rfl, q.cause.trans r.cause, q.pair.trans r.pair, q.awake (r.awake ha), q.pending (r.awake ha) _ (r.pending ha _ h),
      q.pending (r.awake ha) _ (raise_pending ha)⟩
  exact begun.quietly hk

theorem powerOn_inPrimer {x : PowerOnInputs} (h : x.checkerFail ≠ 0) : InPrimer 6 (powerOn x d) := by
  obtain ⟨cause, hc, e⟩ := powerOn_eq (x := x) (d := d)
  obtain rfl := hc h
  have hm := readied_mode (x := x) (cause := some 6) (d := d)
  have q := (readied_quiet (x := x) (cause := some 6) (d := d)).quiet rfl
  have a : (noteTests x.checkerFail x.comparatorOk x.selfTestUs (resetDevice d)).icu.retention = false := (noteTests_quiet.quiet
    rfl).awake rfl
  rw [e]
  refine .quietly ?_ settled_quiet
  unfold chooseMode
  extract_lets c
  have hp : InPrimer 6 (enterPrimer 6 c) :=
    enterPrimer_inPrimer (by simp [c, hm]) (by simp [c, hm]) (q.awake a) (q.pending a _ (noteTests_raises h))
  exact hp.quietly (Evolves.refl.when .spinUp)

/-! ### The mode, the cartridge and a dark laser -/

/-- Start-up, with the mode and the cartridge, is in `e` as in `d`, and a dark laser has stayed dark. -/
structure Dims (d e : Device) : Prop where
  gen : e.gen = d.gen
  dark : d.wrc.laserOn = false → e.wrc.laserOn = false

section
variable {d₀ : Device}

protected theorem Dims.refl : Dims d d := ⟨rfl, id⟩

protected theorem Dims.trans (h : Dims d₀ d) (g : Dims d e) : Dims d₀ e := ⟨g.gen.trans h.gen, g.dark ∘ h.dark⟩

/-- A change beside start-up and the laser. -/
protected theorem Dims.beside (h : Dims d₀ d) (gen : e.gen = d.gen := by rfl) (laser : e.wrc.laserOn = d.wrc.laserOn := by rfl) :
    Dims d₀ e := h.trans ⟨gen, fun w => laser.trans w⟩

protected theorem Dims.ite {c : Prop} [Decidable c] (h : Dims d₀ d) (g : Dims d₀ e) : Dims d₀ (if c then d else e) := by
  split
  · exact h
  · exact g

protected theorem Dims.when {c : Prop} [Decidable c] (h : Dims d₀ d) (g : Dims d₀ d → Dims d₀ e) : Dims d₀ (if c then e else d) :=
  (g h).ite h

protected theorem Dims.unless {c : Prop} [Decidable c] (h : Dims d₀ d) (g : Dims d₀ d → Dims d₀ e) : Dims d₀ (if c then d else e) :=
  h.ite (g h)

protected theorem Dims.foldl {α : Type} {f : Device → α → Device} {l : List α} (h : Dims d₀ d)
    (hf : ∀ {d a}, Dims d₀ d → Dims d₀ (f d a)) : Dims d₀ (l.foldl f d) := by
  induction l generalizing d with
  | nil => exact h
  | cons a l ih => exact ih (hf h)

protected theorem Dims.exc {x : Excursions} (h : Dims d₀ d) : Dims d₀ { d with exc := x } := h.beside
protected theorem Dims.servo {x : Servo} (h : Dims d₀ d) : Dims d₀ { d with servo := x } := h.beside
protected theorem Dims.motion {x : Motion} (h : Dims d₀ d) : Dims d₀ { d with motion := x } := h.beside
protected theorem Dims.rdc {x : ReadChannel} (h : Dims d₀ d) : Dims d₀ { d with rdc := x } := h.beside
protected theorem Dims.wrc {x : WriteChannel} (h : Dims d₀ d) (hx : x.laserOn = d.wrc.laserOn := by rfl) : Dims d₀ { d with wrc := x } :=
  h.beside (laser := hx)
protected theorem Dims.cry {x : Crypto} (h : Dims d₀ d) : Dims d₀ { d with cry := x } := h.beside
protected theorem Dims.hif {x : HostIf} (h : Dims d₀ d) : Dims d₀ { d with hif := x } := h.beside
protected theorem Dims.lath {x : Lath} (h : Dims d₀ d) : Dims d₀ { d with lath := x } := h.beside
protected theorem Dims.rcl {x : RecordLayer} (h : Dims d₀ d) : Dims d₀ { d with rcl := x } := h.beside
protected theorem Dims.evt {x : EventLog} (h : Dims d₀ d) : Dims d₀ { d with evt := x } := h.beside

protected theorem Dims.setReg {o : Nat} {v : Word32} (h : Dims d₀ d) : Dims d₀ (setReg o v d) := h.beside

protected theorem Dims.setRegF {o hi lo v : Nat} (h : Dims d₀ d) : Dims d₀ (setRegF o hi lo v d) :=
  h.setReg

protected theorem Dims.countN {o n : Nat} (h : Dims d₀ d) : Dims d₀ (countN o n d) :=
  h.setReg

protected theorem Dims.count {o : Nat} (h : Dims d₀ d) : Dims d₀ (count o d) :=
  h.countN

protected theorem Dims.countF {o hi lo : Nat} (h : Dims d₀ d) : Dims d₀ (countF o hi lo d) :=
  h.setRegF

protected theorem Dims.latchReg {o : Nat} {bits : Word32} (h : Dims d₀ d) : Dims d₀ (latchReg o bits d) :=
  h.setReg

protected theorem Dims.raise {s : Nat} (h : Dims d₀ d) : Dims d₀ (raise s d) := by
  obtain ⟨i, b, r, e⟩ := raise_frame (k := s) (d := d)
  rw [e]
  exact h.beside

protected theorem Dims.leaveRetention (h : Dims d₀ d) : Dims d₀ (leaveRetention d) := by
  obtain ⟨i, b, r, e⟩ := leaveRetention_frame (d := d)
  rw [e]
  exact h.beside

protected theorem Dims.logLater {tick origin source code : Nat} {detail : List Byte} (h : Dims d₀ d) :
    Dims d₀ (logLater tick origin source code detail d) := by
  unfold logLater
  exact h.ite h.evt

protected theorem Dims.copyClosed {l i : Nat} (h : Dims d₀ d) : Dims d₀ (copyClosed l i d) := by
  unfold copyClosed
  split
  · exact h.ite h.logLater
  · exact h

protected theorem Dims.excEnd {l i : Nat} (h : Dims d₀ d) : Dims d₀ (excEnd l i d) := by
  unfold excEnd
  exact h.exc.copyClosed.ite h

protected theorem Dims.updCmd {tag : Nat} {f : Cmd → Cmd} (h : Dims d₀ d) : Dims d₀ (updCmd tag f d) := by
  unfold updCmd
  exact h.hif

protected theorem Dims.setPhase {tag : Nat} {p : CmdPhase} (h : Dims d₀ d) : Dims d₀ (setPhase tag p d) := by
  unfold setPhase
  exact h.updCmd

protected theorem Dims.readOver (h : Dims d₀ d) : Dims d₀ (readOver d) := by
  unfold readOver
  exact (h.ite h.excEnd).when (fun h => h.rdc.excEnd)

protected theorem Dims.dropReads {p : ReadFor → Bool} (h : Dims d₀ d) : Dims d₀ (dropReads p d) := by
  unfold dropReads
  exact h.rdc.readOver.ite h

protected theorem Dims.finishWith {tag st result : Nat} {single : Bool} {mark : Nat} (h : Dims d₀ d) :
    Dims d₀ (finishWith tag st result single mark d) := by
  unfold finishWith
  split
  · exact h
  · refine h.ite (.ite ?_ h.dropReads.setPhase.hif)
    exact h.dropReads.hif.count.raise

protected theorem Dims.finish {tag st : Nat} (h : Dims d₀ d) : Dims d₀ (finish tag st d) :=
  h.finishWith

protected theorem Dims.finishOk {tag result : Nat} (h : Dims d₀ d) : Dims d₀ (finishOk tag result d) :=
  h.finishWith

protected theorem Dims.finishAll {p : Cmd → Bool} {st : Nat} (h : Dims d₀ d) : Dims d₀ (finishAll p st d) := by
  unfold finishAll
  exact h.foldl .finish

protected theorem Dims.laserOff (h : Dims d₀ d) : Dims d₀ (laserOff d) := ⟨h.gen, fun _ => rfl⟩

/-- A dark laser is not taken to read power. -/
protected theorem Dims.laserToRead (h : Dims d₀ d) : Dims d₀ (laserToRead d) := by
  refine ⟨?_, fun w => ?_⟩
  · unfold Machine.laserToRead laserLevel
    split
    · split <;> exact h.gen
    · exact h.gen
  · simp [Machine.laserToRead, h.dark w]

protected theorem Dims.updLoop {n : Nat} {f : Machine.Loop → Machine.Loop} (h : Dims d₀ d) : Dims d₀ (updLoop n f d) := by
  unfold updLoop
  exact h.servo

protected theorem Dims.endWriting (h : Dims d₀ d) : Dims d₀ (endWriting d) := by
  unfold endWriting
  split
  · exact h
  · dsimp only
    split
    · exact h.wrc
    · exact h.wrc.wrc

protected theorem Dims.cutSector (h : Dims d₀ d) : Dims d₀ (cutSector d) := by
  unfold cutSector
  split
  · exact h
  · exact h.endWriting.wrc.count.raise

protected theorem Dims.voidPending (h : Dims d₀ d) : Dims d₀ (voidPending d) := by
  unfold voidPending
  exact h.wrc

protected theorem Dims.refreshInhibit (h : Dims d₀ d) : Dims d₀ (refreshInhibit d) := by
  unfold refreshInhibit
  exact h.ite (h.latchReg.wrc.unless (fun h => h.wrc.voidPending.cutSector.laserToRead))

protected theorem Dims.updEngine {n : Nat} {f : ServoJob → ServoJob} (h : Dims d₀ d) : Dims d₀ (updEngine n f d) := by
  unfold updEngine
  exact h.servo

protected theorem Dims.voidJob {n : Nat} (h : Dims d₀ d) : Dims d₀ (voidJob n d) := by
  unfold voidJob
  exact h.updEngine

protected theorem Dims.afterLeave {n : Nat} (h : Dims d₀ d) : Dims d₀ (afterLeave n d) := by
  unfold afterLeave
  exact h.servo.ite h

protected theorem Dims.openLoop {n : Nat} (h : Dims d₀ d) : Dims d₀ (openLoop n d) :=
  h.updLoop.voidJob.afterLeave.refreshInhibit

protected theorem Dims.updMotion {f : Motion → Motion} (h : Dims d₀ d) : Dims d₀ (updMotion f d) := by
  unfold updMotion
  exact h.motion

protected theorem Dims.rejectMotion (h : Dims d₀ d) : Dims d₀ (rejectMotion d) :=
  h.countF.raise

protected theorem Dims.withPlan {p : Plan} (h : Dims d₀ d) : Dims d₀ (withPlan p d) := by
  unfold withPlan
  exact h.updMotion

protected theorem Dims.innerRamp (h : Dims d₀ d) : Dims d₀ (innerRamp d) :=
  h.withPlan.updMotion.countF.raise

protected theorem Dims.startHome {after : AfterHome} (h : Dims d₀ d) : Dims d₀ (startHome after d) :=
  h.withPlan.updMotion.refreshInhibit

protected theorem Dims.startMove {goal : Int} {park : Bool} (h : Dims d₀ d) : Dims d₀ (startMove goal park d) :=
  h.withPlan.updMotion.refreshInhibit

protected theorem Dims.startUnhomedPark (h : Dims d₀ d) : Dims d₀ (startUnhomedPark d) := by
  unfold startUnhomedPark
  exact (h.ite h.withPlan).updMotion |>.refreshInhibit |>.when .innerRamp

protected theorem Dims.doPark (h : Dims d₀ d) : Dims d₀ (doPark d) := by
  unfold doPark
  split
  · exact h.rejectMotion
  · exact h.updMotion
  · exact h.ite h.startUnhomedPark
  · exact h.startMove.ite h.startUnhomedPark
  · exact h.startHome.ite h.startMove
  · exact h.startMove
  · exact h.startMove

protected theorem Dims.parkDrive (h : Dims d₀ d) : Dims d₀ (parkDrive d) := by
  unfold parkDrive
  exact h.ite h.updMotion.doPark

protected theorem Dims.brakeDrive (h : Dims d₀ d) : Dims d₀ (brakeDrive d) := by
  unfold brakeDrive
  exact h.openLoop.openLoop.openLoop.openLoop.servo

protected theorem Dims.parkStep (h : Dims d₀ d) : Dims d₀ (parkStep d) :=
  h.laserOff.brakeDrive.parkDrive

protected theorem Dims.updSlot {n : Nat} {f : Slot → Slot} (h : Dims d₀ d) : Dims d₀ (updSlot n f d) := by
  unfold updSlot
  exact h.cry

protected theorem Dims.noPower (h : Dims d₀ d) : Dims d₀ (noPower d) := by
  unfold noPower
  exact h.leaveRetention.hif.unless .raise

protected theorem Dims.sendMsg {m : LathMsg} (h : Dims d₀ d) : Dims d₀ (sendMsg m d) := by
  unfold sendMsg raiseArb
  exact (h.lath.ite h.lath.lath).ite h

protected theorem Dims.clearMedium (h : Dims d₀ d) : Dims d₀ (clearMedium d) := by
  unfold clearMedium
  exact (h.dropReads.beside.cry.foldl .updSlot).rcl

end

/-! ### The cartridge leaves the seat -/

theorem foldl_updSlot_frame {f : Slot → Slot} {l : List Nat} :
    ∃ x, l.foldl (fun d n => updSlot n f d) d = { d with cry := { d.cry with slots := x } } := by
  induction l generalizing d with
  | nil => exact ⟨_, rfl⟩
  | cons n l ih =>
    obtain ⟨x, e⟩ := ih (d := updSlot n f d)
    exact ⟨x, e⟩

theorem dropReads_all : (dropReads (fun _ => true) d).rdc.clusters = [] := by
  unfold dropReads
  split
  next => exact ((Evolves.refl (μ := .quiet)).readOver.quiet rfl).reads (by simp)
  next h => exact List.eq_nil_iff_forall_not_mem.2 (by simpa using h)

/-- Nothing of the medium is at hand (R464, R465). -/
theorem clearMedium_spec :
    (clearMedium d).rdc.clusters = [] ∧ (clearMedium d).wrc.clusters = [] ∧ (clearMedium d).cry.tagOk = false := by
  unfold clearMedium
  extract_lets d₁ rdc wrc d₂ d₃ d₄
  have h₁ : d₁.rdc.clusters = [] := dropReads_all
  obtain ⟨x, e⟩ := foldl_updSlot_frame (f := fun s => { s with busy := false }) (l := List.range 16) (d := d₃)
  simp only [d₄, e]
  exact ⟨h₁, rfl, rfl⟩

/-- The entry to Dust Sheet but for the answer to the request that waited. -/
def dustEntered (cause : Nat) (d : Device) : Device :=
  noPower (standParked (updGen (fun g => { g with dustCause := cause, enterTag := none }) (abortWaiting (setMode .dustSheet d))))

theorem enterDust_dims {cause : Nat} : Dims (dustEntered cause d) (enterDust cause d) := by
  unfold enterDust
  dsimp only
  split
  · exact Dims.refl.finishOk
  · exact .refl

theorem setMode_dustSheet_dims (hm : d.gen.mode = .undercoat) :
    Dims (updGen (fun g => { g with mode := .dustSheet }) d) (abortWaiting (setMode .dustSheet d)) := by
  rw [setMode_eq (m := .dustSheet) (by simp [hm]) (by simp [hm]) (by simp [hm]) nofun]
  exact Dims.refl.raise.sendMsg.finishAll

theorem standParked_gen : (standParked d).gen = { d.gen with parked := true } := by
  have h : (parkStep d).gen = d.gen := Dims.refl.parkStep.gen
  rw [← h]
  rfl

theorem standParked_dark : (standParked d).wrc.laserOn = false :=
  (Dims.refl (d := laserOff d)).brakeDrive.parkDrive.dark rfl

/-- Dust Sheet entered from Undercoat: start-up, and the laser off (R335, R460). -/
theorem enterDust_spec {cause : Nat} (hm : d.gen.mode = .undercoat) :
    (enterDust cause d).gen = { d.gen with mode := .dustSheet, dustCause := cause, enterTag := none, parked := true } ∧
    (enterDust cause d).wrc.laserOn = false := by
  have h : Dims (standParked (updGen (fun g => { g with dustCause := cause, enterTag := none }) (abortWaiting (setMode .dustSheet d))))
      (enterDust cause d) := Dims.refl.noPower.trans enterDust_dims
  refine ⟨?_, h.dark standParked_dark⟩
  rw [h.gen, standParked_gen, updGen_gen, (setMode_dustSheet_dims hm).gen, updGen_gen]

theorem cartTorn_spec (hm : d.gen.mode = .undercoat) :
    (cartTorn d).gen = { d.gen with mode := .dustSheet, dustCause := 11, enterTag := none, parked := true, formatting := false, leaveTag
      := none,
                                    ejectTag := none, cart := none, cartState := 0 } ∧
    (cartTorn d).wrc.laserOn = false := by
  have hf : (laserOff (failMedium d)).gen = d.gen := (Dims.refl (d := d)).finishAll.laserOff.gen
  unfold cartTorn
  extract_lets a b c
  have hb : b.gen = { d.gen with formatting := false, leaveTag := none, ejectTag := none, cart := none, cartState := 0 } := by
    simp only [b, updGen_gen, a, hf]
  have hbm : b.gen.mode = .undercoat := by rw [hb, hm]
  have hc : c = enterDust 11 b := by
    simp [c, hbm]
  have g : Dims c (clearMedium c) := Dims.refl.clearMedium
  obtain ⟨eg, el⟩ := enterDust_spec (cause := 11) hbm
  rw [← hc] at eg el
  exact ⟨by rw [g.gen, eg, hb], g.dark el⟩

theorem exec_cartridgeRemoved {s : State} : exec .cartridgeRemoved s = effect s fun d => onlyIf d.gen.cart.isSome cartRemoved d := rfl

theorem cartridgeRemoved_prepared (s : State) (c : Cartridge) (hc : s.dev.gen.cart = some c) (hs : s.dev.gen.cartState = 5) :
    Completes .cartridgeRemoved s fun d =>
      d.gen = { s.dev.gen with cart := none, cartState := 0 } ∧ d.rdc.clusters = [] ∧ d.wrc.clusters = [] ∧ d.cry.tagOk = false ∧
      Raised 22 d := by
  have he : onlyIf s.dev.gen.cart.isSome cartRemoved s.dev =
      raise 22 (clearMedium (updGen (fun g => { g with cart := none, cartState := 0 }) s.dev)) := by
    simp only [hc, Option.isSome_some, onlyIf_true, cartRemoved, hs, if_true]
  refine completes_to exec_cartridgeRemoved he ?_
  obtain ⟨hr, hw, ht⟩ := clearMedium_spec (d := updGen (fun g => { g with cart := none, cartState := 0 }) s.dev)
  obtain ⟨i, b, r, e⟩ := raise_frame (k := 22) (d := clearMedium (updGen (fun g => { g with cart := none, cartState := 0 }) s.dev))
  refine ⟨?_, ?_, ?_, ?_, raised_raise 22 _⟩
  · rw [raise_gen]
    exact (Dims.refl.clearMedium).gen
  · rw [e]
    exact hr
  · rw [e]
    exact hw
  · rw [e]
    exact ht

theorem cartridgeRemoved_torn (s : State) (c : Cartridge) (hc : s.dev.gen.cart = some c) (hs : s.dev.gen.cartState ≠ 5)
    (hm : s.dev.gen.mode = .undercoat) :
    Completes .cartridgeRemoved s fun d =>
      d.gen.mode = .dustSheet ∧ d.gen.dustCause = 11 ∧ d.gen.cart = none ∧ d.gen.cartState = 0 ∧ d.gen.parked = true ∧
      d.wrc.laserOn = false ∧ Raised 22 d := by
  have he : onlyIf s.dev.gen.cart.isSome cartRemoved s.dev = raise 22 (cartTorn s.dev) := by
    simp only [hc, Option.isSome_some, onlyIf_true, cartRemoved, hs, if_false]
  refine completes_to exec_cartridgeRemoved he ?_
  obtain ⟨hg, hl⟩ := cartTorn_spec hm
  obtain ⟨i, b, r, e⟩ := raise_frame (k := 22) (d := cartTorn s.dev)
  have hr := raised_raise 22 (cartTorn s.dev)
  rw [e] at hr ⊢
  exact ⟨by rw [hg], by rw [hg], by rw [hg], by rw [hg], by rw [hg], hl, hr⟩

theorem exec_powerOnReset {s : State} {x : PowerOnInputs} : exec (.powerOnReset x) s = effect s (powerOn x) := rfl

theorem powerOnReset_starts (s : State) (x : PowerOnInputs) :
    Completes (.powerOnReset x) s fun d =>
      d.pacing.now = 0 ∧ d.hif.lock = false ∧ d.hif.cmds = [] ∧ d.pwr.st = .unarmed ∧ d.gen.chosen = true ∧
      d.gen.powerOns = min 0xFFFFFFFF (s.dev.gen.powerOns + 1) ∧ d.ecc.testDone = true ∧ d.ecc.failMap = x.checkerFail ∧
      d.rdc.clusters = [] := by
  have h := started_powerOn (x := x) (d := s.dev)
  exact completes_to exec_powerOnReset rfl
    ⟨powerOn_evolves.now, h.lock, h.cmds, h.st, h.isChosen, h.powerOns, h.testDone, h.failMap, h.reads⟩

theorem powerOnReset_primer (s : State) (x : PowerOnInputs) (hx : x.checkerFail ≠ 0) :
    Completes (.powerOnReset x) s fun d => d.gen.mode = .primer ∧ d.lsk.cause = 6 ∧ d.lsk.pair = .held ∧ Raised 186 d ∧ Raised 162 d := by
  have h := powerOn_inPrimer (d := s.dev) hx
  exact completes_to exec_powerOnReset rfl ⟨h.mode, h.cause, h.pair, .inl h.checker, .inl h.held⟩

end

/-- Settles O51, clause by clause: a power-on changes quietly what the clauses speak of, and the other commands have a closed form. -/
theorem startUpCartridgeAndUpdate : Obligations.StartUpCartridgeAndUpdate := by
  refine ⟨powerOnReset_starts, powerOnReset_primer, calibrationSave_saves, cartridgeSeated_refused, cartridgeSeated_blank,
    cartridgeRemoved_prepared, cartridgeRemoved_torn, fun s v hl hf hv hm ha => ?_, fun s v hl h => ?_, fun s v hl hf hv hm => ?_,
    fwUpdateDone_succeeds, fwUpdateDone_fails⟩
  · exact fwUpdateStart_completes hl ⟨writeFwUpdate_started (err := 0) hf hv (by simp [hm, ha]), writeFwUpdate_onlyIn⟩
  · exact fwUpdateStart_completes hl ⟨writeFwUpdate_idle h, writeFwUpdate_onlyIn⟩
  · exact fwUpdateStart_completes hl ⟨writeFwUpdate_started (err := 1) hf hv (by simp [hm]), writeFwUpdate_onlyIn⟩

end Sys2Proof.Machine
end

section
/-!
PROOFS. The power states.
-/

namespace Sys2Proof.Machine

/-! ### An exit from a power state before its script is ready -/

/-- POWER_STATE_EXIT_DONE has no effect while a script has more to do than to read the first header (log entry 1). -/
theorem powerStateExitDone_early {s : State} (h : scriptReady s.dev = false) : exec .powerStateExitDone s = .next s := by
  change effect s (fun d => onlyIf (d.hif.transition && scriptReady d) exitDone d) = .next s
  rw [effect_next, h, Bool.and_false, onlyIf_false]

/-- PS1 is being left, and the acquisition is still closing focus. -/
def leavingPs1 : State :=
  { pending := []
    dev := { hif := { ps := 1, transition := true }, servo := { script := some { kind := .acquisition, step := .focus, since := 0 } } } }

/-- Refutes O38: its second clause has POWER_STATE_EXIT_DONE end every transition, but while the acquisition's script still runs, as in
`leavingPs1`, the command comes untimely and the transition goes on. -/
theorem not_registersAreReadAndWritten : ¬ Obligations.RegistersAreReadAndWritten := by
  rintro ⟨⟨-, hexit, -⟩, -⟩
  obtain ⟨t, ht, -, -, hdone, -⟩ := hexit leavingPs1 rfl
  rw [powerStateExitDone_early rfl] at ht
  obtain rfl := Host.Outcome.next.inj ht
  cases hdone

end Sys2Proof.Machine
end

section
/-!
PROOFS. The peer's health, its mode and the attach.
-/

namespace Sys2Proof.Machine

/-! ### An attach while a ZERO_LINE waits -/

/-- The records of table line `k` that the TABLE_XFER messages of a queue carry. -/
def recordsSent (k : Nat) (q : List LathMsg) : List TableRecs :=
  q.filterMap fun m => match m with
    | .tableXfer j recs _ => if j = k then some recs else none
    | _ => none

theorem mem_recordsSent {k : Nat} {recs : TableRecs} {poison : BitVec 32} {q : List LathMsg} (h : LathMsg.tableXfer k recs poison ∈ q) :
    recs ∈ recordsSent k q :=
  List.mem_filterMap.2 ⟨_, h, if_pos rfl⟩

/-- A paired twin in Undercoat has answered a HELLO; a ZERO_LINE still waits for table line 0, whose first record is of an open stream in
the table store. -/
def zeroing : State :=
  { pending := []
    dev := { gen := { mode := .undercoat }
             nv := { pairRecord := some 0 }
             lath := { live := true, ackSent := true }
             cch := { store := [(0, [(0, { st := .open })])], range := some (.zeroLine, [0]) } } }

/-- The attach block of the other twin of the pair, in Undercoat too. -/
def otherTwin : AttachBlock := { myBlock zeroing.dev with twinId := 1 }

/-- What HELLO_ACK does once it has arrived on the Lath (R278), outside Primer. -/
theorem exec_helloAck {s : State} {cr : Credits} {b : AttachBlock} :
    exec (.helloAck cr b) s = effect s (receive cr (.helloAck b) fun d =>
      if d.gen.mode = .primer then takeBlock b d
      else considerAttach (updLath (fun l => { l with ackSeen := true }) (takeBlock b d))) := rfl

theorem tableOf_zeroing : tableOf zeroing.dev 0 = [(0, { st := .open })] := by decide

/-- The attach abandons the coherence first, which zeroes the line that the ZERO_LINE waits for (R243, R250), and sends the lines then. -/
theorem helloAck_zeroing {t : State} (h : exec (.helloAck {} otherTwin) zeroing = .next t) : recordsSent 0 t.dev.lath.queue = [[]] := by
  rw [exec_helloAck] at h
  obtain rfl := Host.Outcome.next.inj h
  decide +kernel

/-- Refutes O27: its tenth clause has an attach send every table line as it stood before HELLO_ACK came, whatever the range engine does; but
a ZERO_LINE that waits, as in `zeroing`, takes its line when the attach begins, and table line 0 crosses with all its records zero. -/
theorem not_peerHealthModeAndAttach : ¬ Obligations.PeerHealthModeAndAttach := by
  rintro ⟨-, -, -, -, -, -, -, -, -, hattach, -⟩
  obtain ⟨t, ht, -, -, -, -, -, hsent⟩ := hattach zeroing {} otherTwin rfl rfl rfl (by decide) rfl rfl rfl rfl rfl rfl
  have hmem := mem_recordsSent (hsent 0 (by decide))
  rw [helloAck_zeroing ht, tableOf_zeroing, List.mem_singleton] at hmem
  cases hmem

end Sys2Proof.Machine
end

section
/-!
PROOFS. Steps, the pacing counter and the reset state: what a step runs, what each command leaves of the counter, and what reset holds.
-/

namespace Sys2Proof.Machine

section
variable {s : State} {c : Instr} {rest : List Instr} {d e : Device}

/-! ### What a step runs -/

theorem step_of_waiting (h : s.pending = c :: rest) : step s = exec c { s with pending := rest } := by
  simp only [step, h]

theorem step_of_idle (h : s.pending = []) : step s = .next { s with dev := tick s.dev } := by
  simp only [step, h]

/-! ### The pacing counter -/

/-- A tick counts once, whatever it brings (R32). -/
theorem tick_now : (tick d).pacing.now = d.pacing.now + 1 := tick_evolves.now

/-- A power-on starts the counter at 0, and its tests take no ticks (R32). -/
theorem powerOn_now {x : PowerOnInputs} : (powerOn x d).pacing.now = 0 := powerOn_evolves.now

theorem resetHostIcu_now : (resetHostIcu (dropLink d)).pacing.now = d.pacing.now := Evolves.refl.dropLink.resetHostIcu.now

/-- A conventional reset is a reset of the host's side, which keeps the counter (R315). -/
theorem resetFunction_now : (resetFunction d).pacing.now = d.pacing.now := resetFunction_evolves.now.trans resetHostIcu_now

/-- Every command completes; what starts the FX880 anew returns the counter to 0, and every other command leaves it. -/
theorem exec_now (c : Instr) (s : State) :
    ∃ e, exec c s = .next { s with dev := e } ∧ e.pacing.now = if startsAnew c s.dev then 0 else s.dev.pacing.now := by
  cases hc : startsAnew c s.dev with
  | true =>
    obtain ⟨x, d, h⟩ := exec_startsAnew hc
    exact ⟨_, h, powerOn_now⟩
  | false =>
    by_cases hr : c = .conventionalReset
    · subst hr
      exact ⟨_, rfl, resetFunction_now⟩
    · obtain ⟨e, h, he⟩ := exec_completing hc hr
      exact ⟨e, h, he.now⟩

/-- The next state of a step that runs a command. -/
theorem step_now_of_waiting {t : State} (h : s.pending = c :: rest) (hs : step s = .next t) :
    t.pending = rest ∧ t.dev.pacing.now = if startsAnew c s.dev then 0 else s.dev.pacing.now := by
  obtain ⟨e, he, hn⟩ := exec_now c { s with pending := rest }
  rw [step_of_waiting h, he] at hs
  obtain rfl := Host.Outcome.next.inj hs
  exact ⟨rfl, hn⟩

/-- The next state of a step on an empty queue. -/
theorem step_now_of_idle {t : State} (h : s.pending = []) (hs : step s = .next t) : t.dev.pacing.now = s.dev.pacing.now + 1 := by
  rw [step_of_idle h] at hs
  obtain rfl := Host.Outcome.next.inj hs
  dsimp only
  exact tick_now

end

/-- Settles O55: a command in front of the queue runs as `exec_now` says, and an empty queue is one tick. -/
theorem pacingCounterCountsTicksAlone : Obligations.PacingCounterCountsTicksAlone := by
  refine ⟨fun s t c rest h ha hs => ?_, fun s t c rest h ha hs => ?_, fun s t h hs => step_now_of_idle h hs⟩
  · rw [(step_now_of_waiting h hs).2, ha, if_neg Bool.false_ne_true]
  · rw [(step_now_of_waiting h hs).2, ha, if_pos rfl]

/-- Settles O53: a step unfolds to the command in front, and every command completes. -/
theorem stepRunsTheCommandInFront : Obligations.StepRunsTheCommandInFront := by
  refine ⟨fun s c rest h => step_of_waiting h, fun s c rest h => ?_, fun s h => ⟨_, step_of_idle h, h, step_now_of_idle h (step_of_idle h)⟩⟩
  obtain ⟨e, he, -⟩ := exec_now c { s with pending := rest }
  exact ⟨_, (step_of_waiting h).trans he, rfl⟩

/-- Settles O54: no register word and no source is listed at reset, so each reads as its reset word and its default. -/
theorem resetStateHoldsItsValues : Obligations.ResetStateHoldsItsValues :=
  ⟨rfl, rfl, fun _ => rfl, rfl, rfl, rfl, rfl, fun _ => ⟨rfl, rfl⟩, rfl, rfl⟩

end Sys2Proof.Machine
end

section
/-!
PROOFS. A pacing fault while an owner is being retired for the peer.
-/

namespace Sys2Proof.Machine

/-- A READ_MARK of owner 1, fetched and not started. -/
def readOfOwner1 : Cmd :=
  { tag := 0, sq := 1, index := 0, entry := 0x02 :: List.replicate 63 0, phase := .dispatched, started := false, ovr := false, owner := 1
    sgl := [], group := none, payload := [], poisoned := false, records := 0, discard := false }

/-- A twin in Topcoat retires owner 1 for its peer (R216): the destruction waits for a command of that owner. -/
def retiringForPeer : State :=
  { pending := []
    dev := { gen := { mode := .topcoat, chosen := true }
             hif := { cmds := [readOfOwner1] }
             cry := { ops := [{ step := .retireDrain 1, tag := none, single := false, failed := false, cluster := 0, purging := false
                                peerOk := false }] } } }

theorem exec_crystalEdgeTimeout {s : State} :
    exec .crystalEdgeTimeout s = effect s fun d => onlyIf (!d.pacing.fault) pacingFault d := rfl

/-- The first pacing fault is declared (R56). -/
theorem crystalEdgeTimeout_faults {s : State} (h : s.dev.pacing.fault = false) :
    exec .crystalEdgeTimeout s = .next { s with dev := pacingFault s.dev } := by
  rw [exec_crystalEdgeTimeout, effect_next, h, Bool.not_false, onlyIf_true]

set_option maxRecDepth 2000 in
/-- The fault ends the command and the twin leaves Topcoat, so that the retire goes on: both copies of the slot's record are erased to be
destroyed (R216, step 5). -/
theorem pacingFault_erases_slot : (pacingFault retiringForPeer.dev).fls.erases = [(1025, 1), (1057, 1)] := by
  decide +kernel

/-- Refutes O1: its third part has the pacing fault leave the flash as it was in every state, but the end of Topcoat that the fault brings
lets an owner's retire go on, as in `retiringForPeer`, which erases the slot's sectors. -/
theorem not_avsAndPacingFollowTheirBounds : ¬ Obligations.AvsAndPacingFollowTheirBounds := by
  rintro ⟨-, -, hfault, -⟩
  obtain ⟨t, ht, -, -, hflash, -⟩ := hfault retiringForPeer rfl
  rw [crystalEdgeTimeout_faults rfl] at ht
  obtain rfl := Host.Outcome.next.inj ht
  have herases := congrArg Flash.erases hflash
  dsimp only at herases
  rw [pacingFault_erases_slot] at herases
  cases herases

end Sys2Proof.Machine
end

section
/-!
PROOFS. The link, Bus Master Enable, the reference clock, the conventional reset and the set-up lock: what each operation of the host
interface changes, and what it leaves.
-/

namespace Sys2Proof.Machine

section
variable {d e : Device}

/-! ### What an operation changes -/

/-- What follows stays within the same parts and offsets. -/
protected theorem OnlyIn.andThen {bs bs' : List Block} {os os' : List Nat} {d₀ : Device} (h : OnlyIn bs os d₀ d) (g : OnlyIn bs' os' d e)
    (hb : bs' ⊆ bs := by decide) (ho : os' ⊆ os := by decide) : OnlyIn bs os d₀ e := h.trans (g.mono hb ho)

theorem updHif_onlyIn {f : HostIf → HostIf} : OnlyIn [.hif] [] d (updHif f d) := by
  refine ⟨fun p hp => ?_, fun _ _ => rfl⟩
  cases p with
  | hif => simp at hp
  | _ => rfl

theorem setBus_onlyIn {b : Bus} : OnlyIn [.bus] [] d { d with bus := b } := by
  refine ⟨fun p hp => ?_, fun _ _ => rfl⟩
  cases p with
  | bus => simp at hp
  | _ => rfl

theorem setPacing_onlyIn {x : Pacing} : OnlyIn [.pacing] [] d { d with pacing := x } := by
  refine ⟨fun p hp => ?_, fun _ _ => rfl⟩
  cases p with
  | pacing => simp at hp
  | _ => rfl

theorem setIcu_onlyIn {x : Icu} : OnlyIn [.icu] [] d { d with icu := x } := by
  refine ⟨fun p hp => ?_, fun _ _ => rfl⟩
  cases p with
  | icu => simp at hp
  | _ => rfl

theorem raise_hif {k : Nat} : (raise k d).hif = d.hif := raise_onlyIn.1 .hif (by decide)

/-- A change of the host interface and then a detection. -/
theorem raise_updHif_onlyIn {k : Nat} {f : HostIf → HostIf} :
    OnlyIn (.hif :: interruptParts) [0x4540] d (raise k (updHif f d)) :=
  OnlyIn.refl.andThen updHif_onlyIn |>.andThen raise_onlyIn

protected theorem OnlyParts.trans {bs : List Block} {d₀ : Device} (h : OnlyParts bs d₀ d) (g : OnlyParts bs d e) : OnlyParts bs d₀ e := by
  intro b hb
  have hk := h b hb
  have gk := g b hb
  cases b <;> exact Eq.trans gk hk

protected theorem OnlyParts.mono {bs bs' : List Block} (h : OnlyParts bs d e) (hb : bs ⊆ bs') : OnlyParts bs' d e :=
  fun b n => h b fun m => n (hb m)

/-! ### The link goes down -/

theorem dropLink_up (h : d.hif.linkUp = true) :
    dropLink d = raise 11 (updHif (fun x => { x with linkUp := false, inL1 := false, width := 0, speed := 0 }) d) := if_pos h

/-- The link was up: it is down, and source 11 tells so (R306). -/
theorem dropLink_spec (h : d.hif.linkUp = true) :
    (dropLink d).hif = { d.hif with linkUp := false, inL1 := false, width := 0, speed := 0 } ∧ Raised 11 (dropLink d) ∧
      OnlyIn (.hif :: interruptParts) [0x4540] d (dropLink d) := by
  rw [dropLink_up h]
  exact ⟨raise_hif, raised_raise 11 _, raise_updHif_onlyIn⟩

theorem dropLink_onlyIn : OnlyIn (.hif :: interruptParts) [0x4540] d (dropLink d) := by
  unfold dropLink
  split
  · exact raise_updHif_onlyIn
  · exact .refl

/-- Of the host interface a drop of the link changes the link alone. -/
theorem dropLink_hif : ∃ w v l, (dropLink d).hif = { d.hif with linkUp := false, inL1 := l, width := w, speed := v } := by
  cases h : d.hif.linkUp with
  | true => exact ⟨_, _, _, (dropLink_spec h).1⟩
  | false =>
    refine ⟨d.hif.width, d.hif.speed, d.hif.inL1, ?_⟩
    rw [dropLink, if_neg (by simp [h]), ← h]

theorem linkDown_completes (s : State) (h : s.dev.hif.linkUp = true) :
    Completes .linkDown s fun d =>
      d.hif = { s.dev.hif with linkUp := false, inL1 := false, width := 0, speed := 0 } ∧ Raised 11 d ∧
      OnlyIn (.hif :: interruptParts) [0x4540] s.dev d :=
  completes_effect dropLink rfl (dropLink_spec h)

theorem exec_refclkLoss {s : State} :
    exec .refclkLoss s = effect s fun d => dropLink { d with pacing := { d.pacing with refclk := false } } := rfl

theorem refclkLoss_completes (s : State) (h : s.dev.hif.linkUp = true) :
    Completes .refclkLoss s fun d =>
      d.pacing = { s.dev.pacing with refclk := false } ∧ d.hif.linkUp = false ∧ Raised 11 d ∧
      OnlyIn ([.pacing, .hif] ++ interruptParts) [0x4540] s.dev d := by
  obtain ⟨hhif, hraised, hframe⟩ := dropLink_spec (d := { s.dev with pacing := { s.dev.pacing with refclk := false } }) h
  refine completes_effect _ exec_refclkLoss ⟨hframe.1 .pacing (by decide), by rw [hhif], hraised, ?_⟩
  exact OnlyIn.refl.andThen setPacing_onlyIn |>.andThen hframe

/-! ### Pending messages leave -/

/-- The message of vector `v` has left, and its pending bit is clear. -/
def MsixSent (v : Nat) (d : Device) : Prop := HostWrite.msix v ∈ d.bus.out ∧ d.bus.pba.getLsbD v = false

theorem msixFlush1_onlyIn {w : Nat} : OnlyIn [.bus] [] d (msixFlush1 w d) := by
  unfold msixFlush1
  split
  · exact setBus_onlyIn
  · exact .refl

theorem foldl_msixFlush1_onlyIn {l : List Nat} : OnlyIn [.bus] [] d (l.foldl (fun d v => msixFlush1 v d) d) := by
  induction l generalizing d with
  | nil => exact .refl
  | cons w l ih => exact msixFlush1_onlyIn.trans ih

theorem msixFlush_onlyIn : OnlyIn [.bus] [] d (msixFlush d) := foldl_msixFlush1_onlyIn

/-- Whether a message can leave does not rest on the bus. -/
theorem msixOpen_of_onlyIn {v : Nat} (h : OnlyIn [.bus] [] d e) : msixOpen e v = msixOpen d v := by
  have hhif : e.hif = d.hif := h.1 .hif (by decide)
  simp only [msixOpen, hhif, h.2 _ List.not_mem_nil]

/-- A flush clears no pending bit but that of its vector. -/
theorem msixFlush1_pba {v w : Nat} (h : v ≠ w) : (msixFlush1 w d).bus.pba.getLsbD v = d.bus.pba.getLsbD v := by
  unfold msixFlush1
  split
  · simp only [BitVec.getLsbD_and, BitVec.getLsbD_not, BitVec.getLsbD_ofNat, Nat.testBit_two_pow_of_ne h.symm, Bool.and_false,
      Bool.not_false, Bool.and_true]
    cases hp : d.bus.pba.getLsbD v with
    | false => rfl
    | true => simpa using BitVec.lt_of_getLsbD hp
  · rfl

theorem msixFlush1_sends {v : Nat} (hp : d.bus.pba.getLsbD v = true) (ho : msixOpen d v = true) :
    MsixSent v (msixFlush1 v d) := by
  rw [msixFlush1, hp, ho, Bool.and_self, if_pos rfl]
  refine ⟨List.mem_cons_self, ?_⟩
  simp only [BitVec.getLsbD_and, BitVec.getLsbD_not, BitVec.getLsbD_ofNat, Nat.testBit_two_pow_self, BitVec.lt_of_getLsbD hp,
    decide_true, Bool.and_self, Bool.not_true, Bool.and_false]

protected theorem MsixSent.msixFlush1 {v w : Nat} (h : MsixSent v d) : MsixSent v (msixFlush1 w d) := by
  unfold Machine.msixFlush1
  split
  · refine ⟨List.mem_cons_of_mem _ h.1, ?_⟩
    simp only [BitVec.getLsbD_and, h.2, Bool.false_and]
  · exact h

protected theorem MsixSent.foldl_msixFlush1 {v : Nat} {l : List Nat} (h : MsixSent v d) :
    MsixSent v (l.foldl (fun d v => msixFlush1 v d) d) := by
  induction l generalizing d with
  | nil => exact h
  | cons w l ih => exact ih h.msixFlush1

/-- Every vector of the list that is pending and can leave has left at the end of the flush (R311). -/
theorem foldl_msixFlush1_sends {v : Nat} {l : List Nat} (hl : v ∈ l) (hp : d.bus.pba.getLsbD v = true) (ho : msixOpen d v = true) :
    MsixSent v (l.foldl (fun d v => msixFlush1 v d) d) := by
  induction l generalizing d with
  | nil => cases hl
  | cons w l ih =>
    by_cases hw : v = w
    · subst hw
      exact (msixFlush1_sends hp ho).foldl_msixFlush1
    · exact ih ((List.mem_cons.1 hl).resolve_left hw) ((msixFlush1_pba hw).trans hp) ((msixOpen_of_onlyIn msixFlush1_onlyIn).trans ho)

theorem msixFlush_sends {v : Nat} (hp : d.bus.pba.getLsbD v = true) (ho : msixOpen d v = true) : MsixSent v (msixFlush d) :=
  foldl_msixFlush1_sends (List.mem_range.2 (BitVec.lt_of_getLsbD hp)) hp ho

/-! ### The link or Bus Master Enable comes back -/

/-- The host's memory can be reached again: polling is due at once, at the lower bound, and what was held leaves (R306, R311). -/
theorem resumeBus_spec (hb : busOpen d = true) (hl : d.hif.lockOk = true) :
    (resumeBus d).hif = { d.hif with pollNow := true, interval := (pollBounds d).1 } ∧
      (∀ v, d.bus.pba.getLsbD v = true → msixOpen (resumeBus d) v = true → MsixSent v (resumeBus d)) ∧
      OnlyIn [.hif, .bus] [] d (resumeBus d) := by
  rw [resumeBus, if_pos hb, if_pos hl]
  refine ⟨msixFlush_onlyIn.1 .hif (by decide), fun v hp ho => ?_, ?_⟩
  · exact msixFlush_sends hp ((msixOpen_of_onlyIn msixFlush_onlyIn).symm.trans ho)
  · exact OnlyIn.refl.andThen updHif_onlyIn |>.andThen msixFlush_onlyIn

theorem exec_linkUp {s : State} {width speed : Nat} :
    exec (.linkUp width speed) s = effect s fun d => onlyIf (!d.hif.linkUp)
      (fun d => raise 12 (resumeBus (updHif (fun h => { h with linkUp := true, width := width, speed := speed }) d))) d := rfl

theorem linkUp_completes (s : State) (width speed : Nat) (hu : s.dev.hif.linkUp = false) (hb : s.dev.hif.bme = true)
    (hl : s.dev.hif.lockOk = true) :
    Completes (.linkUp width speed) s fun d =>
      d.hif = { s.dev.hif with linkUp := true, width := width, speed := speed, pollNow := true, interval := (pollBounds s.dev).1 } ∧
      Raised 12 d ∧ OnlyIn (.hif :: interruptParts) [0x4540] s.dev d := by
  have hspec := resumeBus_spec (d := updHif (fun h => { h with linkUp := true, width := width, speed := speed }) s.dev) hb hl
  obtain ⟨hhif, -, hframe⟩ := hspec
  refine completes_to exec_linkUp (by rw [hu, Bool.not_false, onlyIf_true]) ⟨raise_hif.trans hhif, raised_raise 12 _, ?_⟩
  exact OnlyIn.refl.andThen updHif_onlyIn |>.andThen hframe |>.andThen raise_onlyIn

theorem exec_busMasterEnableChange {s : State} {on : Bool} :
    exec (.busMasterEnableChange on) s = effect s fun d =>
      onlyIf (d.hif.bme != on) (fun d => resumeBus (updHif (fun h => { h with bme := on }) d)) d := rfl

theorem busMasterEnableSet_completes (s : State) (hb : s.dev.hif.bme = false) (hu : s.dev.hif.linkUp = true)
    (hl : s.dev.hif.lockOk = true) :
    Completes (.busMasterEnableChange true) s fun d =>
      d.hif = { s.dev.hif with bme := true, pollNow := true, interval := (pollBounds s.dev).1 } ∧
      (∀ v, v < 32 → s.dev.bus.pba.getLsbD v = true → msixOpen d v = true → HostWrite.msix v ∈ d.bus.out ∧ d.bus.pba.getLsbD v = false) ∧
      OnlyIn [.hif, .bus] [] s.dev d := by
  have hopen : busOpen (updHif (fun h => { h with bme := true }) s.dev) = true := by simp [busOpen, updHif, hu]
  obtain ⟨hhif, hsends, hframe⟩ := resumeBus_spec hopen hl
  exact completes_to exec_busMasterEnableChange (by rw [hb, Bool.false_bne, onlyIf_true])
    ⟨hhif, fun v _ => hsends v, OnlyIn.refl.andThen updHif_onlyIn |>.andThen hframe⟩

/-! ### Conventional reset -/

theorem resetHostIcu_onlyIn : OnlyIn [.icu] [] d (resetHostIcu d) := by
  have hfold {l : List Nat} {d : Device} : OnlyIn [.icu] [] d (l.foldl resetHostSrc d) := by
    induction l generalizing d with
    | nil => exact .refl
    | cons k l ih => exact OnlyIn.trans setIcu_onlyIn ih
  exact OnlyIn.trans setIcu_onlyIn hfold

theorem sget_filter_of_dropped {α : Type} {z : Nat → α} {p : Nat × α → Bool} {m : Sparse α} {i : Nat} (h : ∀ a, p (i, a) = false) :
    sget z (m.filter p) i = z i := by
  induction m with
  | nil => rfl
  | cons q m ih =>
    obtain ⟨j, a⟩ := q
    rw [List.filter_cons]
    split
    · rename_i hk
      have hj : j ≠ i := by
        rintro rfl
        rw [h a] at hk
        cases hk
      rw [sget, if_neg hj, ih]
    · exact ih

/-- The HIF and RNG registers read their reset words (R315). -/
theorem resetHostRegs_reg_host {o : Nat} (hlo : 0x1000 ≤ o) (hhi : o < 0x4000) : (resetHostRegs d).reg o = regReset o :=
  sget_filter_of_dropped fun _ => by simp only [Bool.or_eq_false_iff, decide_eq_false_iff_not]; omega

theorem resetHostRegs_reg_other {o : Nat} (h : o < 0x1000 ∨ 0x4000 ≤ o) : (resetHostRegs d).reg o = d.reg o :=
  sget_filter_of_kept fun _ => by simp only [Bool.or_eq_true, decide_eq_true_eq]; exact h

theorem resetHostRegs_onlyParts : OnlyParts [.hif, .bus] d (resetHostRegs d) := by
  intro p hp
  cases p with
  | hif => simp at hp
  | bus => simp at hp
  | _ => rfl

/-- With no completion ready and no entry to Dust Sheet waiting a conventional reset is done with the host's side. -/
theorem resetFunction_eq (hr : d.hif.ready = []) (ht : d.gen.enterTag = none) :
    resetFunction d = updHif (fun h => { h with ready := [] }) (orphanCmds (resetHostRegs (resetHostIcu (dropLink d)))) := by
  have hready : (resetHostIcu (dropLink d)).hif.ready = [] := by
    obtain ⟨w, v, l, hhif⟩ := dropLink_hif (d := d)
    have hicu : (resetHostIcu (dropLink d)).hif = (dropLink d).hif := resetHostIcu_onlyIn.1 .hif (by decide)
    rw [hicu, hhif, hr]
  have hgen : (resetHostIcu (dropLink d)).gen = d.gen :=
    Eq.trans (resetHostIcu_onlyIn.1 .gen (by decide)) (dropLink_onlyIn.1 .gen (by decide))
  have hdiscard : discardReady (orphanCmds (resetHostRegs (resetHostIcu (dropLink d)))) =
      updHif (fun h => { h with ready := [] }) (orphanCmds (resetHostRegs (resetHostIcu (dropLink d)))) := by
    simp only [discardReady, orphanCmds, resetHostRegs, updHif, hready, List.foldl_nil]
  have hdust {e : Device} (h : e.gen.enterTag = none) : pumpDust e = e := by simp only [pumpDust, h]
  rw [resetFunction, hdiscard]
  exact hdust ((congrArg Startup.enterTag hgen).trans ht)

/-- What is left of the commands in flight has started, and its completions will be discarded (R315). -/
theorem orphanCmds_cmds {x : Cmd} (h : x ∈ (orphanCmds d).hif.cmds) : x.discard = true ∧ isWaiting x = false := by
  obtain ⟨c, hc, rfl⟩ := List.mem_map.1 h
  have hw : isWaiting c = false := by simpa using (List.mem_filter.1 hc).2
  exact ⟨rfl, hw⟩

theorem conventionalReset_completes (s : State) (hr : s.dev.hif.ready = []) (ht : s.dev.gen.enterTag = none) :
    Completes .conventionalReset s fun d =>
      d.hif.sqs = [] ∧ d.hif.cqs = [] ∧ d.hif.lock = false ∧ d.hif.lockOk = false ∧ d.hif.linkUp = false ∧ d.hif.fetching = none ∧
      (∀ x ∈ d.hif.cmds, x.discard = true ∧ isWaiting x = false) ∧
      (∀ o, 0x1000 ≤ o → o < 0x4000 → d.reg o = regReset o) ∧
      OnlyParts ([.hif] ++ interruptParts) s.dev d ∧ ∀ o, (o < 0x1000 ∨ 0x4000 ≤ o) → o ≠ 0x4540 → d.reg o = s.dev.reg o := by
  have hlink : (resetHostIcu (dropLink s.dev)).hif.linkUp = false := by
    obtain ⟨w, v, l, hhif⟩ := dropLink_hif (d := s.dev)
    have hicu : (resetHostIcu (dropLink s.dev)).hif = (dropLink s.dev).hif := resetHostIcu_onlyIn.1 .hif (by decide)
    rw [hicu, hhif]
  have hbefore : OnlyIn (.hif :: interruptParts) [0x4540] s.dev (resetHostIcu (dropLink s.dev)) :=
    dropLink_onlyIn.andThen resetHostIcu_onlyIn
  have hregs : OnlyParts (.hif :: interruptParts) s.dev (resetHostRegs (resetHostIcu (dropLink s.dev))) :=
    OnlyParts.trans hbefore.1 (resetHostRegs_onlyParts.mono (by decide))
  refine completes_to (f := resetFunction) rfl (resetFunction_eq hr ht) ⟨rfl, rfl, rfl, rfl, hlink, rfl, fun x hx => orphanCmds_cmds hx,
    fun o hlo hhi => resetHostRegs_reg_host hlo hhi, ?_, fun o ho hn => ?_⟩
  · exact hregs.trans (OnlyParts.mono (updHif_onlyIn.trans updHif_onlyIn).1 (by decide))
  · exact (resetHostRegs_reg_other ho).trans (hbefore.2 o (by simpa using hn))

/-! ### The set-up lock -/

theorem exec_setupLock {s : State} : exec .setupLock s = effect s (gate .host 0x20 true setLock) := rfl

/-- Before the lock the host's write sets it (R313). -/
theorem setupLock_unlocked {s : State} (h : s.dev.hif.lock = false) : exec .setupLock s = .next { s with dev := setLock s.dev } := by
  rw [exec_setupLock, effect_next, gate_host_unlocked h]

/-- After the lock it is a locked write (R314). -/
theorem setupLock_locked (s : State) (h : s.dev.hif.lock = true) :
    Completes .setupLock s fun d =>
      d.hif = { s.dev.hif with lockedWrites := min 0xFFFFFFFF (s.dev.hif.lockedWrites + 1) } ∧ Raised 10 d ∧
      OnlyIn (.hif :: interruptParts) [0x4540] s.dev d := by
  refine completes_to (e := lockedWrite s.dev) exec_setupLock (by rw [gate, if_pos h]) ⟨raise_hif, raised_raise 10 _, ?_⟩
  exact raise_updHif_onlyIn (f := fun h => { h with lockedWrites := min 0xFFFFFFFF (h.lockedWrites + 1) })

/-- The contexts of the enabled rings are good (R313). -/
def ContextsGood (d : Device) : Prop :=
  (∀ n, n < 8 → sqEnabled d n = true → sqContextOk d n = true) ∧ ∀ n, n < 8 → cqEnabled d n = true → cqContextOk d n = true

/-- The submission rings `l` and the completion rings `k` run, those of them that are enabled, and nothing else changes. -/
structure RingsRun (l k : List Nat) (d e : Device) : Prop where
  sq : ∀ n, e.sq n = if n ∈ l ∧ sqEnabled d n = true then { d.sq n with st := .running } else d.sq n
  cq : ∀ n, e.cq n = if n ∈ k ∧ cqEnabled d n = true then { d.cq n with st := .running } else d.cq n
  rest : ∃ a b, e = updHif (fun h => { h with sqs := a, cqs := b }) d

protected theorem RingsRun.refl : RingsRun [] [] d d := ⟨fun _ => by simp, fun _ => by simp, _, _, rfl⟩

/-- A ring of a good context runs if it is enabled. -/
theorem lockSq_run {n : Nat} (h : sqEnabled d n = true → sqContextOk d n = true) : RingsRun [n] [] d (lockSq true n d) := by
  unfold lockSq
  cases he : sqEnabled d n with
  | false =>
    refine ⟨fun m => ?_, fun m => by simp, _, _, rfl⟩
    by_cases hm : m = n
    · simp [hm, he]
    · simp [hm]
  | true =>
    simp only [h he, Bool.not_true, Bool.false_eq_true, if_false, if_true]
    refine ⟨fun m => ?_, fun m => by simp, _, _, rfl⟩
    rw [updSq_sq]
    by_cases hm : m = n
    · simp [hm, he]
    · simp [hm]

theorem lockCq_run {n : Nat} (h : cqEnabled d n = true → cqContextOk d n = true) : RingsRun [] [n] d (lockCq true n d) := by
  unfold lockCq
  cases he : cqEnabled d n with
  | false =>
    refine ⟨fun m => by simp, fun m => ?_, _, _, rfl⟩
    by_cases hm : m = n
    · simp [hm, he]
    · simp [hm]
  | true =>
    simp only [h he, Bool.not_true, Bool.false_eq_true, if_false, if_true]
    refine ⟨fun m => by simp, fun m => ?_, _, _, rfl⟩
    rw [updCq_cq]
    by_cases hm : m = n
    · simp [hm, he]
    · simp [hm]

protected theorem RingsRun.trans {l k l' k' : List Nat} {d₀ : Device} (h : RingsRun l k d₀ d) (g : RingsRun l' k' d e) :
    RingsRun (l ++ l') (k ++ k') d₀ e := by
  obtain ⟨gs, gc, a', b', hg⟩ := g
  obtain ⟨hs, hc, a, b, hh⟩ := h
  have hsq (n : Nat) : sqEnabled d n = sqEnabled d₀ n := by rw [hh]; rfl
  have hcq (n : Nat) : cqEnabled d n = cqEnabled d₀ n := by rw [hh]; rfl
  refine ⟨fun n => ?_, fun n => ?_, a', b', by rw [hg, hh]; rfl⟩
  · rw [gs n, hs n, hsq n]
    grind
  · rw [gc n, hc n, hcq n]
    grind

/-- The contexts of enabled rings do not change as rings run. -/
theorem RingsRun.contextsGood {l k : List Nat} (g : RingsRun l k d e) (h : ContextsGood d) : ContextsGood e := by
  obtain ⟨a, b, rfl⟩ := g.rest
  exact h

/-- Both rings of each number run at a good lock, if they are enabled. -/
theorem foldl_lock_run {l : List Nat} (hl : ∀ n ∈ l, n < 8) (h : ContextsGood d) :
    RingsRun l l d (l.foldl (fun d n => lockSq true n (lockCq true n d)) d) := by
  induction l generalizing d with
  | nil => exact .refl
  | cons n l ih =>
    have hn := hl n List.mem_cons_self
    have hcq : RingsRun [] [n] d (lockCq true n d) := lockCq_run (h.2 n hn)
    have hboth : RingsRun [n] [n] d (lockSq true n (lockCq true n d)) := hcq.trans (lockSq_run ((hcq.contextsGood h).1 n hn))
    exact hboth.trans (ih (fun m hm => hl m (List.mem_cons_of_mem n hm)) (hboth.contextsGood h))

theorem setupLock_good (s : State) (hl : s.dev.hif.lock = false) (hc : lockConditions s.dev = true) (hg : ContextsGood s.dev) :
    Completes .setupLock s fun d =>
      d.hif.lock = true ∧ d.hif.lockOk = true ∧ d.hif.pollNow = true ∧ d.hif.interval = (pollBounds s.dev).1 ∧
      (∀ n, n < 8 → d.sq n = if sqEnabled s.dev n then { s.dev.sq n with st := .running } else s.dev.sq n) ∧
      (∀ n, n < 8 → d.cq n = if cqEnabled s.dev n then { s.dev.cq n with st := .running } else s.dev.cq n) ∧ OnlyIn [.hif] [] s.dev d := by
  obtain ⟨hsq, hcq, a, b, he⟩ := foldl_lock_run (d := updHif (fun h => { h with lock := true, lockOk := true }) s.dev)
    (l := List.range 8) (fun n => List.mem_range.1) hg
  have hset : setLock s.dev = updHif (fun h => { h with pollNow := true, interval := (pollBounds s.dev).1 })
      ((List.range 8).foldl (fun d n => lockSq true n (lockCq true n d)) (updHif (fun h => { h with lock := true, lockOk := true }) s.dev)) := by
    rw [setLock, hc]
    simp only [if_true]
    rw [he]
    rfl
  refine ⟨_, setupLock_unlocked hl, rfl, ?_⟩
  dsimp only
  rw [hset]
  refine ⟨by rw [he]; rfl, by rw [he]; rfl, rfl, rfl, fun n hn => (hsq n).trans ?_, fun n hn => (hcq n).trans ?_, ?_⟩
  · simp only [List.mem_range, hn, true_and]
    rfl
  · simp only [List.mem_range, hn, true_and]
    rfl
  · rw [he]
    exact updHif_onlyIn.trans (updHif_onlyIn.trans updHif_onlyIn)

/-! ### A lock that fails -/

theorem raise_sq {k n : Nat} : (raise k d).sq n = d.sq n := by rw [Device.sq, raise_hif, Device.sq]

theorem raise_cq {k n : Nat} : (raise k d).cq n = d.cq n := by rw [Device.cq, raise_hif, Device.cq]

/-- What a lock whose conditions fail leaves: SQ0 and CQ0 are in ERROR with ERR 3, and their sources are detected (R313). -/
structure LockFailed (d : Device) : Prop where
  lock : d.hif.lock = true
  lockOk : d.hif.lockOk = false
  sq : (d.sq 0).st = .error ∧ (d.sq 0).err = 3
  cq : (d.cq 0).st = .error ∧ (d.cq 0).err = 3
  raised : Raised 0 d ∧ Raised 8 d

/-- Another submission ring in ERROR changes none of it. -/
protected theorem LockFailed.sqError {n err : Nat} (h : LockFailed d) (hn : n ≠ 0) : LockFailed (sqError n err d) := by
  have hsq : (sqError n err d).sq 0 = d.sq 0 := by rw [Machine.sqError, raise_sq, updSq_sq, if_neg hn.symm]
  have hcq : (sqError n err d).cq 0 = d.cq 0 := by rw [Machine.sqError, raise_cq, updSq_cq]
  refine ⟨?_, ?_, hsq ▸ h.sq, hcq ▸ h.cq, ?_, ?_⟩
  · rw [Machine.sqError, raise_hif]
    exact h.lock
  · rw [Machine.sqError, raise_hif]
    exact h.lockOk
  · exact (h.raised.1.of_icu (e := updSq n _ d) rfl).raise n
  · exact (h.raised.2.of_icu (e := updSq n _ d) rfl).raise n

protected theorem LockFailed.cqError {n err : Nat} (h : LockFailed d) (hn : n ≠ 0) : LockFailed (cqError n err d) := by
  have hsq : (cqError n err d).sq 0 = d.sq 0 := by rw [Machine.cqError, raise_sq, updCq_sq]
  have hcq : (cqError n err d).cq 0 = d.cq 0 := by rw [Machine.cqError, raise_cq, updCq_cq, if_neg hn.symm]
  refine ⟨?_, ?_, hsq ▸ h.sq, hcq ▸ h.cq, ?_, ?_⟩
  · rw [Machine.cqError, raise_hif]
    exact h.lock
  · rw [Machine.cqError, raise_hif]
    exact h.lockOk
  · exact (h.raised.1.of_icu (e := updCq n _ d) rfl).raise 8
  · exact (h.raised.2.of_icu (e := updCq n _ d) rfl).raise 8

protected theorem LockFailed.lockSq {n : Nat} (h : LockFailed d) (hn : n ≠ 0) : LockFailed (lockSq false n d) := by
  unfold Machine.lockSq
  split
  · exact h
  · split
    · exact h.sqError hn
    · exact h

protected theorem LockFailed.lockCq {n : Nat} (h : LockFailed d) (hn : n ≠ 0) : LockFailed (lockCq false n d) := by
  unfold Machine.lockCq
  split
  · exact h
  · split
    · exact h.cqError hn
    · exact h

protected theorem LockFailed.foldl {l : List Nat} (h : LockFailed d) (hl : ∀ n ∈ l, n ≠ 0) :
    LockFailed (l.foldl (fun d n => lockSq false n (lockCq false n d)) d) := by
  induction l generalizing d with
  | nil => exact h
  | cons n l ih =>
    have hn := hl n List.mem_cons_self
    exact ih ((h.lockCq hn).lockSq hn) fun m hm => hl m (List.mem_cons_of_mem n hm)

/-- SQ0 and CQ0 enter ERROR first. -/
theorem lockFailed_errors (hl : d.hif.lock = true) (ho : d.hif.lockOk = false) : LockFailed (cqError 0 3 (sqError 0 3 d)) := by
  refine ⟨?_, ?_, ?_, ?_, ?_, raised_raise 8 _⟩
  · rw [cqError, raise_hif, updCq, sqError, raise_hif]
    exact hl
  · rw [cqError, raise_hif, updCq, sqError, raise_hif]
    exact ho
  · simp [cqError, sqError, raise_sq]
  · simp [cqError, raise_cq]
  · exact ((raised_raise 0 _).of_icu (e := updCq 0 _ (sqError 0 3 d)) rfl).raise 8

theorem setLock_fails (h : lockConditions d = false) : LockFailed (setLock d) := by
  have hl : ∀ n ∈ (List.range 7).map (· + 1), n ≠ 0 := by decide
  have herr := lockFailed_errors (d := updHif (fun h => { h with lock := true, lockOk := false }) d) rfl rfl
  rw [setLock, h]
  simp only [Bool.false_eq_true, if_false]
  exact herr.foldl hl

theorem setupLock_fails (s : State) (hl : s.dev.hif.lock = false) (hc : lockConditions s.dev = false) :
    Completes .setupLock s fun d =>
      d.hif.lock = true ∧ d.hif.lockOk = false ∧ (d.sq 0).st = .error ∧ (d.sq 0).err = 3 ∧ (d.cq 0).st = .error ∧ (d.cq 0).err = 3 ∧
      Raised 0 d ∧ Raised 8 d := by
  obtain ⟨hlock, hok, ⟨hst, herr⟩, ⟨hcst, hcerr⟩, h0, h8⟩ := setLock_fails hc
  exact ⟨_, setupLock_unlocked hl, rfl, hlock, hok, hst, herr, hcst, hcerr, h0, h8⟩

end

/-- Settles O33, clause by clause: each command of the host interface has a closed form, and a detection changes no more than the interrupt
controller and the bus. -/
theorem linkResetAndLock : Obligations.LinkResetAndLock :=
  ⟨linkDown_completes, linkUp_completes, busMasterEnableSet_completes, refclkLoss_completes, conventionalReset_completes,
    fun s hl hc hs hq => setupLock_good s hl hc ⟨hs, hq⟩, setupLock_fails, setupLock_locked⟩

end Sys2Proof.Machine
end

section
/-!
PROOFS. A loop's sampling instant, the end of its computation, and its output instant: what each leaves of the loops, the engine and the
live coefficients.
-/

namespace Sys2Proof.Machine

section
variable {d e : Device}

/-! ### What an operation changes -/

theorem setServo_onlyIn {x : Servo} : OnlyIn [.servo] [] d { d with servo := x } := by
  refine ⟨fun p hp => ?_, fun _ _ => rfl⟩
  cases p with
  | servo => simp at hp
  | _ => rfl

theorem setAvs_onlyIn {x : Avs} : OnlyIn [.avs] [] d { d with avs := x } := by
  refine ⟨fun p hp => ?_, fun _ _ => rfl⟩
  cases p with
  | avs => simp at hp
  | _ => rfl

theorem setDrive_onlyIn {x : Servo} {y : Avs} : OnlyIn [.servo, .avs] [] d { d with servo := x, avs := y } := by
  refine ⟨fun p hp => ?_, fun _ _ => rfl⟩
  cases p with
  | servo => simp at hp
  | avs => simp at hp
  | _ => rfl

theorem setWrc_onlyIn {x : WriteChannel} : OnlyIn [.wrc] [] d { d with wrc := x } := by
  refine ⟨fun p hp => ?_, fun _ _ => rfl⟩
  cases p with
  | wrc => simp at hp
  | _ => rfl

theorem setDraws_onlyIn {x : Nat} : OnlyIn [.draws] [] d { d with draws := x } := by
  refine ⟨fun p hp => ?_, fun _ _ => rfl⟩
  cases p with
  | draws => simp at hp
  | _ => rfl

theorem setReg_onlyIn {o : Nat} {v : Word32} : OnlyIn [] [o] d (setReg o v d) :=
  ⟨fun p _ => by cases p <;> rfl, fun j hj => setReg_reg_ne o v d j (by simpa using hj)⟩

theorem updLoop_onlyIn {n : Nat} {f : Machine.Loop → Machine.Loop} : OnlyIn [.servo] [] d (updLoop n f d) := setServo_onlyIn

@[simp] theorem updLoop_reg {n : Nat} {f : Machine.Loop → Machine.Loop} {o : Nat} : (updLoop n f d).reg o = d.reg o := rfl

@[simp] theorem updEngine_loop {n m : Nat} {f : ServoJob → ServoJob} : (updEngine n f d).loop m = d.loop m := rfl

/-- The loops are the drive's alone. -/
theorem OnlyIn.loop_eq {bs : List Block} {os : List Nat} (h : OnlyIn bs os d e) (hb : Block.servo ∉ bs) (n : Nat) :
    e.loop n = d.loop n := by
  have hs : e.servo = d.servo := h.1 .servo hb
  rw [Device.loop, hs, Device.loop]

theorem OnlyIn.now_eq {bs : List Block} {os : List Nat} (h : OnlyIn bs os d e) (hb : Block.pacing ∉ bs) : e.now = d.now := by
  have hp : e.pacing = d.pacing := h.1 .pacing hb
  rw [Device.now, hp, Device.now]

/-! ### The write inhibit -/

theorem laserToRead_onlyIn : OnlyIn [.wrc] [] d (laserToRead d) := by
  unfold laserToRead laserLevel
  split
  · split <;> exact setWrc_onlyIn
  · exact .refl

theorem endWriting_onlyIn : OnlyIn [.wrc] [] d (endWriting d) := by
  unfold endWriting
  split
  · exact .refl
  · dsimp only
    split
    · exact setWrc_onlyIn
    · exact setWrc_onlyIn

theorem cutSector_onlyIn : OnlyIn (.wrc :: interruptParts) [0xB0DC, 0x4540] d (cutSector d) := by
  unfold cutSector
  split
  · exact .refl
  · exact OnlyIn.refl.andThen endWriting_onlyIn |>.andThen setWrc_onlyIn |>.andThen setReg_onlyIn |>.andThen raise_onlyIn

/-- Of the state the write-inhibit conditions change the write channel, and what the interruption of a sector raises (R157 to R159). -/
theorem refreshInhibit_onlyIn : OnlyIn (.wrc :: interruptParts) [0xB01C, 0xB0DC, 0x4540] d (refreshInhibit d) := by
  unfold refreshInhibit
  dsimp only
  split
  · exact .refl
  · split
    · exact OnlyIn.refl.andThen setReg_onlyIn |>.andThen setWrc_onlyIn
    · exact OnlyIn.refl.andThen setReg_onlyIn |>.andThen setWrc_onlyIn |>.andThen setWrc_onlyIn |>.andThen setWrc_onlyIn
        |>.andThen cutSector_onlyIn |>.andThen laserToRead_onlyIn

/-- What leaves the interrupt controller alone takes no detection back. -/
protected theorem Raised.andThen {k : Nat} {bs : List Block} {os : List Nat} (h : Raised k d) (g : OnlyIn bs os d e)
    (hb : Block.icu ∉ bs := by decide) : Raised k e := h.of_icu (g.1 .icu hb)

protected theorem Raised.cutSector {k : Nat} (h : Raised k d) : Raised k (cutSector d) := by
  unfold Machine.cutSector
  split
  · exact h
  · exact (h.andThen endWriting_onlyIn |>.andThen setWrc_onlyIn |>.andThen setReg_onlyIn).raise 99

protected theorem Raised.refreshInhibit {k : Nat} (h : Raised k d) : Raised k (refreshInhibit d) := by
  unfold Machine.refreshInhibit
  dsimp only
  split
  · exact h
  · split
    · exact h.of_icu rfl
    · exact h.andThen setReg_onlyIn |>.andThen setWrc_onlyIn |>.andThen setWrc_onlyIn |>.andThen setWrc_onlyIn |>.cutSector
        |>.andThen laserToRead_onlyIn

/-! ### The live set -/

/-- Offsets of the live set of loop `n` (Table 03-2). -/
def liveOffsets (n : Nat) : List Nat := (List.range 19).map fun k => 0x8000 + 0x200 * n + 4 * k

theorem mem_liveOffsets {n o : Nat} (h : o ∈ liveOffsets n) : 0x8000 + 0x200 * n ≤ o ∧ o < 0x804C + 0x200 * n := by
  obtain ⟨k, hk, rfl⟩ := List.mem_map.1 h
  have := List.mem_range.1 hk
  omega

theorem putLive_onlyIn {n : Nat} {ws : List Word32} : OnlyIn [] (liveOffsets n) d (putLive n ws d) := by
  have hfold {l : List Nat} {d : Device} (hl : ∀ k ∈ l, k < 19) : OnlyIn [] (liveOffsets n) d
      (l.foldl (fun d k => setReg (0x8000 + 0x200 * n + 4 * k) (ws.getD k 0) d) d) := by
    induction l generalizing d with
    | nil => exact .refl
    | cons k l ih =>
      have hk : 0x8000 + 0x200 * n + 4 * k ∈ liveOffsets n := List.mem_map_of_mem (List.mem_range.2 (hl k List.mem_cons_self))
      exact (OnlyIn.refl.andThen setReg_onlyIn (by decide) (List.cons_subset.2 ⟨hk, List.nil_subset _⟩)).trans
        (ih fun m hm => hl m (List.mem_cons_of_mem k hm))
  exact hfold fun _ => List.mem_range.1

theorem putLive_reg {n k : Nat} {ws : List Word32} (hk : k < 19) :
    (putLive n ws d).reg (0x8000 + 0x200 * n + 4 * k) = ws.getD k 0 := by
  have hfold {m : Nat} (hm : k < m) :
      ((List.range m).foldl (fun d k => setReg (0x8000 + 0x200 * n + 4 * k) (ws.getD k 0) d) d).reg (0x8000 + 0x200 * n + 4 * k) =
        ws.getD k 0 := by
    induction m with
    | zero => omega
    | succ m ih =>
      rw [List.range_succ, List.foldl_append, List.foldl_cons, List.foldl_nil, setReg_reg]
      by_cases he : k = m
      · rw [he, if_pos rfl]
      · rw [if_neg (by omega), ih (by omega)]
  exact hfold hk

theorem coefSet_getD {n base k : Nat} (hk : k < 19) : (coefSet d n base).getD k 0 = d.reg (0x8000 + 0x200 * n + base + 4 * k) := by
  simp [coefSet, List.getD_eq_getElem?_getD, List.getElem?_range hk]

theorem loadShadow_onlyIn {n : Nat} : OnlyIn [.servo] (liveOffsets n) d (loadShadow n d) := by
  unfold loadShadow
  split
  · exact (OnlyIn.refl.andThen putLive_onlyIn (by decide) (List.Subset.refl _)).andThen updLoop_onlyIn (by decide) (List.nil_subset _)
  · exact .refl

/-- The shadow set is loaded whole, if it is valid (R70). -/
theorem loadShadow_reg {n k : Nat} (hk : k < 19) (h : (d.loop n).shadowValid = true) :
    (loadShadow n d).reg (0x8000 + 0x200 * n + 4 * k) = d.reg (0x8080 + 0x200 * n + 4 * k) := by
  rw [loadShadow, if_pos h, updLoop_reg, putLive_reg hk, coefSet_getD hk]
  congr 1
  omega

/-- A load takes the shadow set's validity, and nothing else of the drive. -/
theorem loadShadow_servo {n : Nat} : ∃ l, (loadShadow n d).servo = { d.servo with loops := l } := by
  unfold loadShadow
  split
  · have hp : (putLive n (coefSet d n 0x80) d).servo = d.servo := putLive_onlyIn.1 .servo (by decide)
    exact ⟨_, by rw [updLoop, hp]⟩
  · exact ⟨_, rfl⟩

theorem loadShadow_loop {n : Nat} : (loadShadow n d).loop n = { d.loop n with shadowValid := false } := by
  unfold loadShadow
  split
  · rw [updLoop_loop_self, putLive_onlyIn.loop_eq (by decide)]
  · rename_i h
    rw [← Bool.eq_false_of_not_eq_true h]

/-! ### A loop closes -/

theorem clampAvs_onlyIn : OnlyIn [.avs] [] d (clampAvs d) := by
  have hput {c : Nat} : OnlyIn [.avs] [] d (avsPut c d) := by
    unfold avsPut
    split
    · exact .refl
    · exact setAvs_onlyIn
  unfold clampAvs
  dsimp only
  split
  · exact .refl
  · split
    · exact hput
    · split
      · exact hput
      · exact .refl

theorem afterClose_onlyIn {n : Nat} : OnlyIn [.servo, .avs] [] d (afterClose n d) := by
  unfold afterClose
  split
  · exact OnlyIn.refl.andThen setDrive_onlyIn |>.andThen clampAvs_onlyIn
  · split
    · exact OnlyIn.refl.andThen setServo_onlyIn
    · exact .refl

/-- What closing a loop changes of the drive beside the loops and the engine. -/
theorem afterClose_servo {n : Nat} :
    ∃ k i b, (afterClose n d).servo = { d.servo with onTimeRun := k, lossInhibit := i, braked := b } := by
  unfold afterClose
  split
  · exact ⟨_, _, _, clampAvs_onlyIn.1 .servo (by decide)⟩
  · split
    · exact ⟨_, _, _, rfl⟩
    · exact ⟨_, _, _, rfl⟩

theorem voidJob_onlyIn {n : Nat} : OnlyIn [.servo] [] d (voidJob n d) := setServo_onlyIn

theorem closeLoop_onlyIn {n : Nat} : OnlyIn [.servo, .avs] (liveOffsets n) d (closeLoop n d) :=
  (((OnlyIn.refl.andThen loadShadow_onlyIn (by decide) (List.Subset.refl _)).andThen updLoop_onlyIn (by decide)
    (List.nil_subset _)).andThen voidJob_onlyIn (by decide) (List.nil_subset _)).andThen afterClose_onlyIn (by decide) (List.nil_subset _)

theorem closeLoop_servo {n : Nat} : ∃ l g k i b, (closeLoop n d).servo =
    { d.servo with loops := l, engine := g, onTimeRun := k, lossInhibit := i, braked := b } := by
  obtain ⟨l, hl⟩ := loadShadow_servo (d := d) (n := n)
  obtain ⟨k, i, b, ha⟩ := afterClose_servo (n := n) (d := voidJob n (updLoop n (fun l =>
    { clearLoop l with st := .closed, holdSamples := 0, captured := false, lossRun := 0 }) (loadShadow n d)))
  exact ⟨_, _, k, i, b, by rw [closeLoop, ha, voidJob, updEngine, updLoop, hl]⟩

/-- The loop is CLOSED with its state cleared, and the shadow set is no longer valid (Table 03-4). -/
theorem closeLoop_loop {n : Nat} : (closeLoop n d).loop n =
    { clearLoop (d.loop n) with st := .closed, holdSamples := 0, captured := false, lossRun := 0, shadowValid := false } := by
  have hafter {d : Device} : (afterClose n d).loop n = d.loop n := by
    obtain ⟨k, i, b, h⟩ := afterClose_servo (d := d) (n := n)
    rw [Device.loop, h, Device.loop]
  rw [closeLoop, hafter, voidJob, updEngine_loop, updLoop_loop_self, loadShadow_loop]
  rfl

theorem closeLoop_reg {n o : Nat} : (closeLoop n d).reg o = (loadShadow n d).reg o :=
  (afterClose_onlyIn.2 o List.not_mem_nil).trans rfl

/-! ### A CLOSE at the sampling instant -/

/-- A loop in OPEN_ZERO at the sampling instant at which a CLOSE takes effect, before the sample (R66). -/
def closedAtSample (n : Nat) (d : Device) : Device :=
  refreshInhibit (closeLoop n (dropTaken n (updLoop n (fun l => { l with sampledAt := some d.now }) d)))

theorem closedAtSample_onlyIn {n : Nat} : OnlyIn (.servo :: .avs :: .wrc :: interruptParts)
    (liveOffsets n ++ [0xB01C, 0xB0DC, 0x4540]) d (closedAtSample n d) := by
  have hclose : OnlyIn (.servo :: .avs :: .wrc :: interruptParts) (liveOffsets n ++ [0xB01C, 0xB0DC, 0x4540]) d
      (closeLoop n (dropTaken n (updLoop n (fun l => { l with sampledAt := some d.now }) d))) :=
    ((OnlyIn.refl.andThen updLoop_onlyIn (by decide) (List.nil_subset _)).andThen updLoop_onlyIn (by decide)
      (List.nil_subset _)).andThen closeLoop_onlyIn (by decide) (List.subset_append_left _ _)
  exact hclose.andThen refreshInhibit_onlyIn (by decide) (List.subset_append_right _ _)

theorem closedAtSample_servo {n : Nat} : ∃ l g k i b, (closedAtSample n d).servo =
    { d.servo with loops := l, engine := g, onTimeRun := k, lossInhibit := i, braked := b } := by
  obtain ⟨l, g, k, i, b, h⟩ := closeLoop_servo (n := n) (d := dropTaken n (updLoop n (fun l => { l with sampledAt := some d.now }) d))
  refine ⟨l, g, k, i, b, ?_⟩
  rw [closedAtSample, refreshInhibit_onlyIn.1 .servo (by decide), h]
  rfl

/-- The error of a sample rests on the edge intervals, the tracking outputs, the target and the next draw. -/
theorem loopError_congr {n : Nat} {x : ServoSample} (hedges : e.servo.edges = d.servo.edges)
    (htrack : e.servo.trackOuts = d.servo.trackOuts) (hdraws : e.draws = d.draws) (hspindle : e.reg 0x8508 = d.reg 0x8508)
    (htarget : e.reg (0x8000 + 0x200 * n + 0x108) = d.reg (0x8000 + 0x200 * n + 0x108)) : loopError e n x = loopError d n x := by
  simp only [loopError, spindleOpen, freeDraw, meanTrack, Device.regF, hedges, htrack, hdraws, hspindle, htarget]
  rfl

/-- Closing leaves what the sample's error rests on. -/
theorem loopError_closedAtSample {n : Nat} {x : ServoSample} : loopError (closedAtSample n d) n x = loopError d n x := by
  obtain ⟨l, g, k, i, b, hs⟩ := closedAtSample_servo (d := d) (n := n)
  have hreg {o : Nat} (hlive : o ∉ liveOffsets n) (hinh : o ∉ [0xB01C, 0xB0DC, 0x4540]) : (closedAtSample n d).reg o = d.reg o :=
    closedAtSample_onlyIn.2 o fun h => (List.mem_append.1 h).elim hlive hinh
  refine loopError_congr (by rw [hs]) (by rw [hs]) (closedAtSample_onlyIn.1 .draws (by decide)) (hreg ?_ (by decide)) (hreg ?_ ?_)
  · intro h
    have := mem_liveOffsets h
    omega
  · intro h
    have := mem_liveOffsets h
    omega
  · simp only [List.mem_cons, List.not_mem_nil, or_false]
    omega

/-- The loop is CLOSED with its state cleared and no command waiting. -/
theorem closedAtSample_loop {n t : Nat} {c : LoopCmd} (hc : (d.loop n).cmd = some (c, t)) (ht : t + 1 ≤ d.now) :
    (closedAtSample n d).loop n = { clearLoop (d.loop n) with
      st := .closed, holdSamples := 0, captured := false, lossRun := 0, shadowValid := false, sampledAt := some d.now, cmd := none } := by
  have htaken : (dropTaken n (updLoop n (fun l => { l with sampledAt := some d.now }) d)).loop n =
      { d.loop n with sampledAt := some d.now, cmd := none } := by
    have hnow : (updLoop n (fun l => { l with sampledAt := some d.now }) d).now = d.now := rfl
    rw [dropTaken, updLoop_loop_self, updLoop_loop_self, hc]
    simp only [hnow, ht, if_true]
  rw [closedAtSample, refreshInhibit_onlyIn.loop_eq (by decide), closeLoop_loop, htaken]
  rfl

/-- A valid shadow set is in force as the loop closes (R70). -/
theorem closedAtSample_live {n k : Nat} (hn : n < 4) (hk : k < 19) (hv : (d.loop n).shadowValid = true) :
    (closedAtSample n d).reg (0x8000 + 0x200 * n + 4 * k) = d.reg (0x8080 + 0x200 * n + 4 * k) := by
  have hvalid : ((dropTaken n (updLoop n (fun l => { l with sampledAt := some d.now }) d)).loop n).shadowValid = true := by
    rw [dropTaken, updLoop_loop_self, updLoop_loop_self]
    exact hv
  rw [closedAtSample, refreshInhibit_onlyIn.2, closeLoop_reg, loadShadow_reg hk hvalid]
  · rfl
  · simp only [List.mem_cons, List.not_mem_nil, or_false]
    omega

theorem afterSpindle_onlyIn {n : Nat} : OnlyIn [.servo, .draws] [] d (afterSpindle n d) := by
  unfold afterSpindle
  split
  · dsimp only
    split
    · exact OnlyIn.refl.andThen setDraws_onlyIn |>.andThen setServo_onlyIn
    · exact OnlyIn.refl.andThen setServo_onlyIn
  · exact .refl

/-- Of the drive a spindle sample uses up the edge intervals alone. -/
theorem afterSpindle_servo {n : Nat} : ∃ p, (afterSpindle n d).servo = { d.servo with edges := p } := by
  unfold afterSpindle
  split
  · dsimp only
    split <;> exact ⟨_, rfl⟩
  · exact ⟨_, rfl⟩

theorem afterSpindle_loop {n m : Nat} : (afterSpindle n d).loop m = d.loop m := by
  obtain ⟨p, h⟩ := afterSpindle_servo (d := d) (n := n)
  rw [Device.loop, h, Device.loop]

theorem runScript_none (h : d.servo.script = none) : runScript d = d := by
  simp only [runScript, h]

/-- The sample waits for the engine behind those that wait, with the live set as it stands (R59, R64). -/
theorem closedSample_loop {n : Nat} {x : ServoSample} : ∃ r, (closedSample n x d).loop n = { d.loop n with
    jobs := (d.loop n).jobs ++ [{ err := toQ (loopError d n x), aCmd := x.aCmd, vMeas := x.vMeas, t0 := d.now, late := false
                                  cleared := false, coefs := coefSet d n 0 }]
    due := some d.now, ready := none, lossRun := r } := ⟨_, updLoop_loop_self _ _ _⟩

/-- The command takes effect, and then the sample waits for the engine. -/
theorem sampleLoop_closing {n t : Nat} {x : ServoSample} (hst : (d.loop n).st = .openZero) (hc : (d.loop n).cmd = some (.close, t))
    (ht : t + 1 ≤ d.now) (hscript : d.servo.script = none) :
    sampleLoop n x d = afterSpindle n (closedSample n x (closedAtSample n d)) := by
  have hdue : dueCmd (updLoop n (fun l => { l with sampledAt := some d.now }) d) n = some .close := by
    have hnow : (updLoop n (fun l => { l with sampledAt := some d.now }) d).now = d.now := rfl
    simp [dueCmd, updLoop_loop_self, hc, hst, hnow, ht, hasRow]
  have hst' : ((dropTaken n (updLoop n (fun l => { l with sampledAt := some d.now }) d)).loop n).st = .openZero := by
    rw [dropTaken, updLoop_loop_self, updLoop_loop_self]
    exact hst
  have hbefore : beforeSample n (updLoop n (fun l => { l with sampledAt := some d.now }) d) = closedAtSample n d := by
    simp only [beforeSample, hdue, applyLoopCmd, hst', hasRow, closedAtSample]
    rfl
  have hclosed : ((closedAtSample n d).loop n).st = .closed := by rw [closedAtSample_loop hc ht]
  have hscript' : (afterSpindle n (closedSample n x (closedAtSample n d))).servo.script = none := by
    obtain ⟨p, hp⟩ := afterSpindle_servo (n := n) (d := closedSample n x (closedAtSample n d))
    obtain ⟨l, g, k, i, b, hs⟩ := closedAtSample_servo (d := d) (n := n)
    rw [hp, closedSample, updLoop, hs]
    exact hscript
  simp only [sampleLoop, hbefore, hclosed, reduceCtorEq, decide_false, Bool.false_and, Bool.false_eq_true, if_false]
  exact runScript_none hscript'

theorem exec_loopSample {s : State} {n : Nat} {x : ServoSample} :
    exec (.loopSample n x) s = effect s fun d => onlyIf (n < 4 && sampleInstant d n) (sampleLoop n x) d := rfl

theorem loopSample_closes (s : State) (n : Nat) (x : ServoSample) (t : Nat) (hn : n < 4) (hi : sampleInstant s.dev n = true)
    (hst : (s.dev.loop n).st = .openZero) (hc : (s.dev.loop n).cmd = some (.close, t)) (ht : t + 1 ≤ s.dev.now)
    (hscript : s.dev.servo.script = none) :
    Completes (.loopSample n x) s fun d =>
      (d.loop n).st = .closed ∧ (d.loop n).cmd = none ∧ (d.loop n).due = some s.dev.now ∧ (d.loop n).sampledAt = some s.dev.now ∧
      (d.loop n).jobs = [{ err := toQ (loopError s.dev n x), aCmd := x.aCmd, vMeas := x.vMeas, t0 := s.dev.now, late := false, cleared := false, coefs := (List.range 19).map fun k => d.reg (0x8000 + 0x200 * n + 4 * k) }] ∧
      (d.loop n).shadowValid = false ∧
      ((s.dev.loop n).shadowValid = true →
        ∀ k, k < 19 → d.reg (0x8000 + 0x200 * n + 4 * k) = s.dev.reg (0x8080 + 0x200 * n + 4 * k)) := by
  have hnow : (closedAtSample n s.dev).now = s.dev.now := closedAtSample_onlyIn.now_eq (by decide)
  have hreg (o : Nat) : (afterSpindle n (closedSample n x (closedAtSample n s.dev))).reg o = (closedAtSample n s.dev).reg o :=
    afterSpindle_onlyIn.2 o List.not_mem_nil
  have hcoefs : coefSet (closedAtSample n s.dev) n 0 =
      (List.range 19).map fun k => (afterSpindle n (closedSample n x (closedAtSample n s.dev))).reg (0x8000 + 0x200 * n + 4 * k) := by
    simp only [coefSet, hreg, Nat.add_zero]
  refine completes_to exec_loopSample (by rw [hi, decide_eq_true hn, Bool.and_self, onlyIf_true, sampleLoop_closing hst hc ht hscript]) ?_
  obtain ⟨r, hloop⟩ := closedSample_loop (d := closedAtSample n s.dev) (n := n) (x := x)
  rw [← hcoefs, afterSpindle_loop, hloop, closedAtSample_loop hc ht, hnow, loopError_closedAtSample]
  exact ⟨rfl, rfl, rfl, rfl, rfl, rfl, fun hv k hk => (hreg _).trans (closedAtSample_live hn hk hv)⟩

/-! ### The end of a computation -/

theorem enginePick_onlyIn : OnlyIn [.servo] [] d (enginePick d) := by
  unfold enginePick
  split
  · exact .refl
  · split
    · exact .refl
    · split
      · exact .refl
      · exact OnlyIn.refl.andThen updLoop_onlyIn |>.andThen setServo_onlyIn

/-- The engine takes a sample, and leaves the rest of every loop (R59). -/
theorem enginePick_loop {m : Nat} : ∃ js, (enginePick d).loop m = { d.loop m with jobs := js } := by
  unfold enginePick
  split
  · exact ⟨_, rfl⟩
  · split
    · exact ⟨_, rfl⟩
    · split
      · exact ⟨_, rfl⟩
      · rename_i n _ _ j js _
        show ∃ js', (updLoop n (fun l => { l with jobs := js }) d).loop m = { d.loop m with jobs := js' }
        rw [updLoop_loop]
        by_cases h : m = n
        · rw [if_pos h, h]
          exact ⟨js, rfl⟩
        · rw [if_neg h]
          exact ⟨_, rfl⟩

theorem enginePick_busy (h : d.servo.engine.isSome = true) : enginePick d = d := if_pos h

/-- With no sample waiting an idle engine stays idle. -/
theorem enginePick_idle (he : d.servo.engine = none) (h : (List.range 4).all (fun m => (d.loop m).jobs.isEmpty) = true) :
    enginePick d = d := by
  have hnone : (List.range 4).find? (fun n => !(d.loop n).jobs.isEmpty) = none := by
    rw [List.find?_eq_none]
    intro n hn
    simpa using List.all_eq_true.1 h n hn
  rw [enginePick, he, if_neg (by simp), hnone]

/-- The device as the engine's result of a sample taken in time is held for its output instant (R36, R64). -/
def resultHeld (n eighths : Nat) (j : ServoJob) (d : Device) : Device :=
  updLoop n (fun _ => { (computeLoop n j (d.loop n)).1 with
    ready := some { y := toQ (computeLoop n j (d.loop n)).2.1, sat := (computeLoop n j (d.loop n)).2.2
                    slack := ((j.t0 + loopDeadline n) * 8 : Nat) - (d.now * 8 + eighths : Nat) } })
    { d with servo := { d.servo with engine := none } }

theorem finishJob_held {n eighths : Nat} {j : ServoJob} (hl : j.late = false) (hc : j.cleared = false) :
    finishJob n eighths j d = resultHeld n eighths j d := by
  simp only [finishJob, hl, hc, Bool.false_eq_true, if_false, Bool.false_and]
  rfl

theorem computeLoop_jobs {n : Nat} {j : ServoJob} {l : Loop} : (computeLoop n j l).1.jobs = l.jobs := rfl

theorem resultHeld_other {n m eighths : Nat} {j : ServoJob} (h : m ≠ n) : (resultHeld n eighths j d).loop m = d.loop m :=
  (updLoop_loop n _ _ m).trans (if_neg h)

theorem resultHeld_jobs {n m eighths : Nat} {j : ServoJob} : ((resultHeld n eighths j d).loop m).jobs = (d.loop m).jobs := by
  by_cases h : m = n
  · subst h
    rw [resultHeld, updLoop_loop_self]
    exact computeLoop_jobs (n := m) (j := j)
  · rw [resultHeld_other h]

theorem exec_loopComputeDone {s : State} {n eighths : Nat} :
    exec (.loopComputeDone n eighths) s = effect s (onlyIf (n < 4 && eighths < 8) (computeDone n eighths)) := rfl

theorem computeDone_held {n eighths : Nat} {j : ServoJob} (he : d.servo.engine = some (n, j)) (hl : j.late = false)
    (hc : j.cleared = false) : computeDone n eighths d = enginePick (resultHeld n eighths j d) := by
  have hbusy : enginePick d = d := enginePick_busy (by rw [he]; rfl)
  simp only [computeDone, hbusy, he, if_true, finishJob_held hl hc]

theorem loopComputeDone_completes (s : State) (n eighths : Nat) (j : ServoJob) (hn : n < 4) (h8 : eighths < 8)
    (he : s.dev.servo.engine = some (n, j)) (hl : j.late = false) (hc : j.cleared = false) :
    Completes (.loopComputeDone n eighths) s fun d =>
      (d.loop n).ready = some { y := toQ (computeLoop n j (s.dev.loop n)).2.1, sat := (computeLoop n j (s.dev.loop n)).2.2, slack := ((j.t0 + loopDeadline n) * 8 : Nat) - (s.dev.now * 8 + eighths : Nat) } ∧
      ((List.range 4).all (fun m => (s.dev.loop m).jobs.isEmpty) = true → d.servo.engine = none) ∧
      (∀ m, m ≠ n → (d.loop m).output = (s.dev.loop m).output ∧ (d.loop m).ready = (s.dev.loop m).ready) ∧
      OnlyIn [.servo] [] s.dev d := by
  refine completes_to exec_loopComputeDone
    (by rw [decide_eq_true hn, decide_eq_true h8, Bool.and_self, onlyIf_true, computeDone_held he hl hc]) ⟨?_, fun h => ?_, fun m hm => ?_, ?_⟩
  · obtain ⟨js, hjs⟩ := enginePick_loop (d := resultHeld n eighths j s.dev) (m := n)
    rw [hjs, resultHeld, updLoop_loop_self]
  · rw [enginePick_idle rfl (by simpa only [resultHeld_jobs] using h)]
    rfl
  · obtain ⟨js, hjs⟩ := enginePick_loop (d := resultHeld n eighths j s.dev) (m := m)
    rw [hjs, resultHeld_other hm]
    exact ⟨rfl, rfl⟩
  · exact OnlyIn.refl.andThen setServo_onlyIn |>.andThen updLoop_onlyIn |>.andThen enginePick_onlyIn

/-! ### Counter fields -/

/-- A field reads what is put in it. -/
theorem fld_wput {w : Word32} {hi lo v : Nat} (hlo : lo ≤ hi) (hhi : hi < 32) (hv : v < 2 ^ (hi + 1 - lo)) :
    fld (wput w hi lo v) hi lo = v := by
  apply Nat.eq_of_testBit_eq
  intro i
  simp only [fld, field, wput, Nat.testBit_mod_two_pow, Nat.testBit_div_two_pow, BitVec.testBit_toNat, BitVec.getLsbD_or,
    BitVec.getLsbD_and, BitVec.getLsbD_not, BitVec.getLsbD_ofNat, Nat.testBit_mul_two_pow, Nat.testBit_two_pow_sub_one]
  by_cases hi' : i < hi + 1 - lo
  · have h32 : i + lo < 32 := by omega
    simp [hi', h32]
  · have hz : v.testBit i = false := Nat.testBit_lt_two_pow (lt_of_lt_of_le hv (Nat.pow_le_pow_right (by decide) (by omega)))
    simp [hi', hz]

theorem countF_onlyIn {o hi lo : Nat} : OnlyIn [] [o] d (countF o hi lo d) := setReg_onlyIn

/-- A counter field counts, to its largest value. -/
theorem countF_regF {o hi lo : Nat} (hlo : lo ≤ hi) (hhi : hi < 32) :
    (countF o hi lo d).regF o hi lo = min (2 ^ (hi + 1 - lo) - 1) (d.regF o hi lo + 1) := by
  have hpos : 0 < 2 ^ (hi + 1 - lo) := Nat.two_pow_pos _
  rw [countF, Device.regF, setRegF_reg, if_pos rfl, fld_wput hlo hhi (by omega)]

/-! ### The output instant -/

theorem noteSlack_onlyIn {v : Int} : OnlyIn [.avs] [] d (noteSlack v d) := setAvs_onlyIn

/-- The last tracking outputs are kept for sled centering (Table 03-1). -/
def noteTrack (n : Nat) (d : Device) : Device :=
  if n = 1 then { d with servo := { d.servo with trackOuts := (loopOut d 1 :: d.servo.trackOuts).take 20 } } else d

theorem noteTrack_onlyIn {n : Nat} : OnlyIn [.servo] [] d (noteTrack n d) := by
  unfold noteTrack
  split
  · exact setServo_onlyIn
  · exact .refl

theorem noteTrack_servo {n : Nat} : ∃ l, (noteTrack n d).servo = { d.servo with trackOuts := l } := by
  unfold noteTrack
  split <;> exact ⟨_, rfl⟩

theorem noteTrack_loop {n m : Nat} : (noteTrack n d).loop m = d.loop m := by
  obtain ⟨l, h⟩ := noteTrack_servo (d := d) (n := n)
  rw [Device.loop, h, Device.loop]

/-- The loop as its output instant finds it: the instant is taken, and the output that was due is no longer. -/
def outputTaken (n : Nat) (d : Device) : Device :=
  updLoop n (fun l => { l with due := none }) (updLoop n (fun l => { l with outputAt := some d.now }) d)

theorem outputTaken_onlyIn {n : Nat} : OnlyIn [.servo] [] d (outputTaken n d) := updLoop_onlyIn.trans updLoop_onlyIn

theorem outputTaken_loop {n : Nat} : (outputTaken n d).loop n = { d.loop n with due := none, outputAt := some d.now } := by
  rw [outputTaken, updLoop_loop_self, updLoop_loop_self]

theorem outputInstant_ready {n t : Nat} {y : ReadyOutput} (hn : n < 3) (hst : (d.loop n).st = .closed) (hdue : (d.loop n).due = some t)
    (hy : (d.loop n).ready = some y) (hs : 0 ≤ y.slack) : outputInstant n d = noteTrack n (applyOutput n y (outputTaken n d)) := by
  simp only [outputInstant, updLoop_loop_self, hst, hdue, dueOutput, hy, hs, if_true, noteTrack, outputTaken, Nat.ne_of_lt hn,
    decide_false, Bool.false_and, Bool.false_eq_true, if_false]

theorem outputInstant_miss {n t : Nat} (hn : n < 3) (hst : (d.loop n).st = .closed) (hdue : (d.loop n).due = some t)
    (hy : (d.loop n).ready = none) : outputInstant n d = noteTrack n (missOutput n t (-1) (outputTaken n d)) := by
  simp only [outputInstant, updLoop_loop_self, hst, hdue, dueOutput, hy, noteTrack, outputTaken, Nat.ne_of_lt hn,
    decide_false, Bool.false_and, Bool.false_eq_true, if_false]

theorem exec_loopOutputInstant {s : State} {n : Nat} :
    exec (.loopOutputInstant n) s = effect s fun d => onlyIf (n < 4 && outputTick d n) (outputInstant n) d := rfl

/-- At an output tick not yet taken the output instant is. -/
theorem loopOutputInstant_runs {s : State} {n : Nat} (hn : n < 3) (ho : outputTick s.dev n = true) :
    exec (.loopOutputInstant n) s = .next { s with dev := outputInstant n s.dev } := by
  rw [exec_loopOutputInstant, effect_next, ho, decide_eq_true (show n < 4 by omega), Bool.and_self, onlyIf_true]

/-! ### An output in time -/

theorem applyOutput_onlyIn_of_ne {n : Nat} {y : ReadyOutput} (hn : n ≠ 0) : OnlyIn [.servo, .avs] [] d (applyOutput n y d) := by
  rw [applyOutput, if_pos (by simpa using hn)]
  exact OnlyIn.refl.andThen updLoop_onlyIn |>.andThen noteSlack_onlyIn

/-- The output is in force (R58). -/
theorem applyOutput_loop {n : Nat} {y : ReadyOutput} :
    (applyOutput n y d).loop n = { d.loop n with output := y.y, outSat := y.sat, ready := none } := by
  have hnoted : (noteSlack y.slack (updLoop n (fun l => { l with output := y.y, outSat := y.sat, ready := none }) d)).loop n =
      { d.loop n with output := y.y, outSat := y.sat, ready := none } := by
    rw [noteSlack_onlyIn.loop_eq (by decide), updLoop_loop_self]
  unfold applyOutput
  dsimp only
  split
  · exact hnoted
  · rw [refreshInhibit_onlyIn.loop_eq (by decide)]
    exact hnoted

theorem loopOutputInstant_applies (s : State) (n : Nat) (y : ReadyOutput) (t : Nat) (hn : n < 3) (h0 : n ≠ 0)
    (ho : outputTick s.dev n = true) (hst : (s.dev.loop n).st = .closed) (hdue : (s.dev.loop n).due = some t)
    (hy : (s.dev.loop n).ready = some y) (hs : 0 ≤ y.slack) :
    Completes (.loopOutputInstant n) s fun d =>
      (d.loop n).output = y.y ∧ (d.loop n).outSat = y.sat ∧ (d.loop n).ready = none ∧ (d.loop n).due = none ∧
      OnlyIn [.servo, .avs] [] s.dev d := by
  refine ⟨_, loopOutputInstant_runs hn ho, rfl, ?_⟩
  dsimp only
  rw [outputInstant_ready hn hst hdue hy hs, noteTrack_loop, applyOutput_loop, outputTaken_loop]
  exact ⟨rfl, rfl, rfl, rfl, OnlyIn.refl.andThen outputTaken_onlyIn |>.andThen (applyOutput_onlyIn_of_ne h0) |>.andThen noteTrack_onlyIn⟩

/-- What an output in time changes of focus's drive (R72). -/
theorem applyOutput_focus {y : ReadyOutput} : ∃ l, (applyOutput 0 y d).servo = { d.servo with
    loops := l, onTimeRun := min 255 (d.servo.onTimeRun + 1), focusMissed := false
    faultInhibit := d.servo.faultInhibit && decide (min 255 (d.servo.onTimeRun + 1) < 100) } :=
  ⟨_, refreshInhibit_onlyIn.1 .servo (by decide)⟩

theorem outputTaken_servo {n : Nat} : ∃ l, (outputTaken n d).servo = { d.servo with loops := l } := ⟨_, rfl⟩

theorem loopOutputInstant_focusApplies (s : State) (y : ReadyOutput) (t : Nat) (ho : outputTick s.dev 0 = true)
    (hst : (s.dev.loop 0).st = .closed) (hdue : (s.dev.loop 0).due = some t) (hy : (s.dev.loop 0).ready = some y) (hs : 0 ≤ y.slack) :
    Completes (.loopOutputInstant 0) s fun d =>
      (d.loop 0).output = y.y ∧ d.servo.onTimeRun = min 255 (s.dev.servo.onTimeRun + 1) ∧ d.servo.focusMissed = false ∧
      (100 ≤ s.dev.servo.onTimeRun + 1 → d.servo.faultInhibit = false) := by
  refine ⟨_, loopOutputInstant_runs (by decide) ho, rfl, ?_⟩
  dsimp only
  obtain ⟨l, hl⟩ := applyOutput_focus (d := outputTaken 0 s.dev) (y := y)
  obtain ⟨l', hl'⟩ := outputTaken_servo (d := s.dev) (n := 0)
  obtain ⟨k, hk⟩ := noteTrack_servo (d := applyOutput 0 y (outputTaken 0 s.dev)) (n := 0)
  rw [outputInstant_ready (by decide) hst hdue hy hs, noteTrack_loop, applyOutput_loop, hk, hl, hl']
  refine ⟨rfl, rfl, rfl, fun h => ?_⟩
  have hrun : ¬ min 255 (s.dev.servo.onTimeRun + 1) < 100 := by omega
  dsimp only
  rw [decide_eq_false hrun, Bool.and_false]

/-! ### A missed output -/

/-- What every miss of loop `n` does for the sample taken at `t`: its computation is late, the miss is counted, and its source is
detected (R71). -/
def missCounted (n t : Nat) (d : Device) : Device :=
  raise (32 + n) (countF (0x8118 + 0x200 * n) 31 16 (markLate n t (updLoop n (fun l => { l with ready := none }) d)))

/-- The engine's computation is late when it is the one that was due. -/
def lateIf (n t : Nat) (p : Nat × ServoJob) : Nat × ServoJob := if p.1 = n ∧ p.2.t0 = t then (p.1, { p.2 with late := true }) else p

theorem lateIf_eq {n t : Nat} {p : Nat × ServoJob} :
    lateIf n t p = if p.1 = n then (p.1, if p.2.t0 = t then { p.2 with late := true } else p.2) else p := by
  unfold lateIf
  by_cases hp : p.1 = n
  · by_cases ht : p.2.t0 = t
    · rw [if_pos ⟨hp, ht⟩, if_pos hp, if_pos ht]
    · rw [if_neg (fun h => ht h.2), if_pos hp, if_neg ht]
  · rw [if_neg (fun h => hp h.1), if_neg hp]

theorem markLate_servo {n t : Nat} :
    ∃ l, (markLate n t d).servo = { d.servo with loops := l, engine := d.servo.engine.map (lateIf n t) } := by
  have hlate : (fun p : Nat × ServoJob => if p.1 = n then (p.1, if p.2.t0 = t then { p.2 with late := true } else p.2) else p) =
      lateIf n t := funext fun p => lateIf_eq.symm
  rw [← hlate]
  exact ⟨_, rfl⟩

theorem markLate_onlyIn {n t : Nat} : OnlyIn [.servo] [] d (markLate n t d) := updLoop_onlyIn.trans setServo_onlyIn

theorem markLate_loop {n t : Nat} : ∃ js, (markLate n t d).loop n = { d.loop n with jobs := js } :=
  ⟨_, (updEngine_loop ..).trans (updLoop_loop_self ..)⟩

theorem missCounted_onlyIn {n t : Nat} :
    OnlyIn (.servo :: interruptParts) [0x8118 + 0x200 * n, 0x4540] d (missCounted n t d) := by
  have hlate : OnlyIn (.servo :: interruptParts) [0x8118 + 0x200 * n, 0x4540] d
      (markLate n t (updLoop n (fun l => { l with ready := none }) d)) :=
    (OnlyIn.refl.andThen updLoop_onlyIn (by decide) (List.nil_subset _)).andThen markLate_onlyIn (by decide) (List.nil_subset _)
  exact (hlate.andThen countF_onlyIn (by decide) (by simp)).andThen raise_onlyIn (by decide) (by simp)

/-- What a miss changes of the drive: the loops, and the engine's computation. -/
theorem missCounted_servo {n t : Nat} :
    ∃ l, (missCounted n t d).servo = { d.servo with loops := l, engine := d.servo.engine.map (lateIf n t) } := by
  obtain ⟨l, h⟩ := markLate_servo (n := n) (t := t) (d := updLoop n (fun l => { l with ready := none }) d)
  have hkept : (missCounted n t d).servo = (markLate n t (updLoop n (fun l => { l with ready := none }) d)).servo :=
    Eq.trans (raise_onlyIn.1 .servo (by decide)) (countF_onlyIn.1 .servo (by decide))
  exact ⟨l, by rw [hkept, h]; rfl⟩

theorem missCounted_loop {n t : Nat} : ∃ js, (missCounted n t d).loop n = { d.loop n with ready := none, jobs := js } := by
  obtain ⟨js, h⟩ := markLate_loop (n := n) (t := t) (d := updLoop n (fun l => { l with ready := none }) d)
  refine ⟨js, ?_⟩
  rw [missCounted, raise_onlyIn.loop_eq (by decide), countF_onlyIn.loop_eq (by decide), h, updLoop_loop_self]

/-- DEADLINE_MISS of the loop counts. -/
theorem missCounted_regF {n t : Nat} :
    (missCounted n t d).regF (0x8118 + 0x200 * n) 31 16 = min 65535 (d.regF (0x8118 + 0x200 * n) 31 16 + 1) := by
  have hreg {e : Device} : (raise (32 + n) e).regF (0x8118 + 0x200 * n) 31 16 = e.regF (0x8118 + 0x200 * n) 31 16 := by
    rw [Device.regF, raise_reg _ _ _ (by omega), Device.regF]
  rw [missCounted, hreg, countF_regF (by decide) (by decide)]
  rfl

theorem missCounted_raised {n t : Nat} : Raised (32 + n) (missCounted n t d) := raised_raise (32 + n) _

theorem missOutput_other {n t : Nat} {v : Int} (hn : n ≠ 0) : missOutput n t v d = noteSlack v (missCounted n t d) := by
  rw [missOutput, if_pos (by simpa using hn)]
  rfl

theorem loopOutputInstant_misses (s : State) (n t : Nat) (hn : n < 3) (h0 : n ≠ 0) (ho : outputTick s.dev n = true)
    (hst : (s.dev.loop n).st = .closed) (hdue : (s.dev.loop n).due = some t) (hy : (s.dev.loop n).ready = none) :
    Completes (.loopOutputInstant n) s fun d =>
      (d.loop n).output = (s.dev.loop n).output ∧ (d.loop n).due = none ∧
      d.servo.engine = s.dev.servo.engine.map (fun p => if p.1 = n ∧ p.2.t0 = t then (p.1, { p.2 with late := true }) else p) ∧
      d.regF (0x8118 + 0x200 * n) 31 16 = min 65535 (s.dev.regF (0x8118 + 0x200 * n) 31 16 + 1) ∧ Raised (32 + n) d ∧
      OnlyIn ([.servo, .avs] ++ interruptParts) [0x8118 + 0x200 * n, 0x4540] s.dev d := by
  have hafter {e : Device} : OnlyIn [.servo, .avs] [] e (noteTrack n (noteSlack (-1) e)) :=
    OnlyIn.refl.andThen noteSlack_onlyIn |>.andThen noteTrack_onlyIn
  obtain ⟨js, hloop⟩ := missCounted_loop (d := outputTaken n s.dev) (n := n) (t := t)
  obtain ⟨l, hservo⟩ := missCounted_servo (d := outputTaken n s.dev) (n := n) (t := t)
  obtain ⟨k, htrack⟩ := noteTrack_servo (d := noteSlack (-1) (missCounted n t (outputTaken n s.dev))) (n := n)
  have hslack : (noteSlack (-1) (missCounted n t (outputTaken n s.dev))).servo = (missCounted n t (outputTaken n s.dev)).servo :=
    noteSlack_onlyIn.1 .servo (by decide)
  refine ⟨_, loopOutputInstant_runs hn ho, rfl, ?_⟩
  dsimp only
  rw [outputInstant_miss hn hst hdue hy, missOutput_other h0, noteTrack_loop, noteSlack_onlyIn.loop_eq (by decide), hloop, outputTaken_loop]
  refine ⟨rfl, rfl, ?_, ?_, missCounted_raised.andThen hafter, ?_⟩
  · rw [htrack, hslack, hservo]
    rfl
  · rw [Device.regF, hafter.2 _ List.not_mem_nil]
    exact missCounted_regF
  · exact ((OnlyIn.refl.andThen outputTaken_onlyIn (by decide) (List.nil_subset _)).andThen missCounted_onlyIn (by decide)
      (List.Subset.refl _)).andThen hafter (by decide) (List.nil_subset _)

/-! ### Focus misses -/

/-- A first miss of focus (R72). -/
def focusMissNoted (d : Device) : Device := { d with servo := { d.servo with onTimeRun := 0, focusMissed := true } }

/-- A second miss of focus in a row is a servo fault (R72). -/
def focusFault (d : Device) : Device :=
  refreshInhibit (raise 36 (count 0x8804 { d with
    servo := { d.servo with onTimeRun := 0, focusMissed := false, servoFault := true, faultInhibit := true }
    avs := { d.avs with servoFault := true } }))

theorem missOutput_focus {t : Nat} {v : Int} : missOutput 0 t v d =
    if d.servo.focusMissed then focusFault (noteSlack v (missCounted 0 t d)) else focusMissNoted (noteSlack v (missCounted 0 t d)) := by
  have hmissed : (missCounted 0 t d).servo.focusMissed = d.servo.focusMissed := by
    obtain ⟨l, h⟩ := missCounted_servo (d := d) (n := 0) (t := t)
    rw [h]
  rw [← hmissed]
  rfl

theorem focusFault_servo : (focusFault d).servo =
    { d.servo with onTimeRun := 0, focusMissed := false, servoFault := true, faultInhibit := true } :=
  Eq.trans (refreshInhibit_onlyIn.1 .servo (by decide)) (raise_onlyIn.1 .servo (by decide))

theorem focusFault_loop {n : Nat} : (focusFault d).loop n = d.loop n := by rw [Device.loop, focusFault_servo, Device.loop]

theorem focusFault_avs : (focusFault d).avs = { d.avs with servoFault := true } :=
  Eq.trans (refreshInhibit_onlyIn.1 .avs (by decide)) (raise_onlyIn.1 .avs (by decide))

theorem focusFault_raised : Raised 36 (focusFault d) := (raised_raise 36 _).refreshInhibit

/-- A servo fault takes no detection back. -/
protected theorem Raised.focusFault {k : Nat} (h : Raised k d) : Raised k (focusFault d) :=
  (h.andThen setDrive_onlyIn |>.andThen setReg_onlyIn |>.raise 36).refreshInhibit

theorem loopOutputInstant_focusMisses (s : State) (t : Nat) (ho : outputTick s.dev 0 = true) (hst : (s.dev.loop 0).st = .closed)
    (hdue : (s.dev.loop 0).due = some t) (hy : (s.dev.loop 0).ready = none) :
    Completes (.loopOutputInstant 0) s fun d =>
      (d.loop 0).output = (s.dev.loop 0).output ∧ d.servo.onTimeRun = 0 ∧ Raised 32 d ∧
      (s.dev.servo.focusMissed = false → d.servo.focusMissed = true ∧ d.servo.servoFault = s.dev.servo.servoFault) ∧
      (s.dev.servo.focusMissed = true → d.servo.servoFault = true ∧ d.servo.faultInhibit = true ∧ d.avs.servoFault = true ∧
        Raised 36 d) := by
  obtain ⟨js, hloop⟩ := missCounted_loop (d := outputTaken 0 s.dev) (n := 0) (t := t)
  obtain ⟨l, hservo⟩ := missCounted_servo (d := outputTaken 0 s.dev) (n := 0) (t := t)
  have hraised : Raised 32 (noteSlack (-1) (missCounted 0 t (outputTaken 0 s.dev))) := missCounted_raised.andThen noteSlack_onlyIn
  have houtput : ((noteSlack (-1) (missCounted 0 t (outputTaken 0 s.dev))).loop 0).output = (s.dev.loop 0).output := by
    rw [noteSlack_onlyIn.loop_eq (by decide), hloop, outputTaken_loop]
  have hfault : (noteSlack (-1) (missCounted 0 t (outputTaken 0 s.dev))).servo.servoFault = s.dev.servo.servoFault := by
    rw [noteSlack_onlyIn.1 .servo (by decide), hservo]
    rfl
  have hmissed : (outputTaken 0 s.dev).servo.focusMissed = s.dev.servo.focusMissed := rfl
  refine ⟨_, loopOutputInstant_runs (by decide) ho, rfl, ?_⟩
  dsimp only
  rw [outputInstant_miss (by decide) hst hdue hy, missOutput_focus, noteTrack, if_neg (by decide), hmissed]
  cases hf : s.dev.servo.focusMissed with
  | false =>
    rw [if_neg Bool.false_ne_true]
    exact ⟨houtput, rfl, hraised.andThen setServo_onlyIn, fun _ => ⟨rfl, hfault⟩, nofun⟩
  | true =>
    rw [if_pos rfl, focusFault_loop, focusFault_servo, focusFault_avs]
    exact ⟨houtput, rfl, hraised.focusFault, nofun, fun _ => ⟨rfl, rfl, rfl, focusFault_raised⟩⟩

end

/-- Settles O6, clause by clause: the operations of an instant change the drive's block, and what follows them leaves it as it is. -/
theorem loopsSampleComputeAndOutput : Obligations.LoopsSampleComputeAndOutput :=
  ⟨loopSample_closes, loopComputeDone_completes, loopOutputInstant_applies, loopOutputInstant_misses, loopOutputInstant_focusApplies,
    loopOutputInstant_focusMisses⟩

end Sys2Proof.Machine
end

section
/-!
PROOFS. Accesses that a requester may make, and what a delivery leaves of a source: the rules that the servo's and the interrupt
controller's registers share.
-/

namespace Sys2Proof.Machine

section
variable {d e : Device}

/-! ### Writes that have their effect -/

/-- The sequencer writes the SRV and MPG blocks (R80). -/
theorem seqWrites_of_range {o : Nat} (hlo : 0x8000 ≤ o) (hhi : o < 0xA000) : seqWrites o = true := by
  have h : o < 0xC000 := by omega
  simp [seqWrites, seqReaches, hlo, hhi, h]

/-- A write has its effect when its requester runs, the sequencer's bus reaches it, and the host may make it before the lock (R80, R314,
R477). -/
theorem gate_open {who : Requester} {o : Nat} {hostOk : Bool} {f : Device → Device} (hseq : seqWrites o = true)
    (hup : masterUp who d = true) (hhost : who = .host → d.hif.lock = false ∧ hostOk = true) : gate who o hostOk f d = f d := by
  cases who with
  | host =>
    obtain ⟨hlock, rfl⟩ := hhost rfl
    exact gate_host_unlocked hlock
  | seq => rw [gate, if_pos hseq, onBus, if_pos hup]
  | mgmt => rw [gate, onBus, if_pos hup]

/-! ### What an operation changes -/

theorem updSrc_onlyIn {k : Nat} {f : Src → Src} : OnlyIn [.icu] [] d (updSrc k f d) := setIcu_onlyIn

theorem putRead_onlyIn {v : Word32} : OnlyIn [.bus] [] d (putRead v d) := setBus_onlyIn

theorem count_onlyIn {o : Nat} : OnlyIn [] [o] d (count o d) := setReg_onlyIn

theorem lateCount_onlyIn {t : Nat} {x : Src} : OnlyIn [] [0x4540] d (lateCount t x d) := by
  unfold lateCount
  split
  · exact .refl
  · split
    · exact count_onlyIn
    · exact .refl

/-- The sources are the interrupt controller's alone. -/
theorem OnlyIn.src_eq {bs : List Block} {os : List Nat} (h : OnlyIn bs os d e) (hb : Block.icu ∉ bs) (n : Nat) : e.src n = d.src n := by
  have hi : e.icu = d.icu := h.1 .icu hb
  rw [Device.src, hi, Device.src]

theorem Delivering.onlyIn (h : Delivering d e) : OnlyIn interruptParts [0x4540] d e := by
  obtain ⟨⟨i, b, r, he⟩, -, hreg, -⟩ := h
  refine ⟨fun p hp => ?_, fun o ho => hreg o (by simpa using ho)⟩
  rw [he]
  cases p with
  | icu => simp [interruptParts] at hp
  | bus => simp [interruptParts] at hp
  | _ => rfl

theorem deliver_onlyIn : OnlyIn interruptParts [0x4540] d (deliver d) := (deliver_delivering d).onlyIn

/-- A fold changes no more than each of its steps may. -/
protected theorem OnlyIn.foldl {α : Type} {bs : List Block} {os : List Nat} {f : Device → α → Device} {l : List α}
    (h : ∀ d a, OnlyIn bs os d (f d a)) : OnlyIn bs os d (l.foldl f d) := by
  induction l generalizing d with
  | nil => exact .refl
  | cons a l ih => exact (h d a).trans ih

theorem endActive_onlyIn {t : Nat} : OnlyIn interruptParts [0x4540] d (endActive t d) := by
  have hfold : OnlyIn [.icu] [] d ((d.icu.srcs.filter fun p => p.2.active && servedBy d p.1 p.2 = t).foldl
      (fun d p => updSrc p.1 (fun x => { x with active := false, forwarded := false }) d) d) := .foldl fun _ _ => updSrc_onlyIn
  exact OnlyIn.refl.andThen hfold |>.andThen deliver_onlyIn

/-! ### What a delivery leaves of a source -/

/-- A delivery changes neither the slots nor the thresholds in force. -/
theorem Delivering.deliverableTo_eq (h : Delivering d e) (t n : Nat) (x : Src) : deliverableTo e t n x = deliverableTo d t n x := by
  obtain ⟨-, -, -, hicu, -⟩ := h
  have hserved : servedBy e n x = servedBy d n x := by rw [servedBy, slotOf, hicu, servedBy, slotOf]
  have hthreshold : thresholdOf e t = thresholdOf d t := by rw [thresholdOf, hicu, thresholdOf]
  rw [deliverableTo, hserved, hthreshold, deliverableTo]

protected theorem Delivering.canonical (h : Delivering d e) (hc : swf srcDefault d.icu.srcs = true) : swf srcDefault e.icu.srcs = true := by
  obtain ⟨-, -, -, -, -, hcanonical, -⟩ := h
  exact hcanonical hc

theorem updSrc_canonical {k : Nat} {f : Src → Src} (hc : swf srcDefault d.icu.srcs = true) :
    swf srcDefault (updSrc k f d).icu.srcs = true := swf_supd _ _ _ _ hc

theorem mem_of_firstSrc {l : List (Nat × Src)} {p : Nat × Src} (h : firstSrc l = some p) : p ∈ l := by
  induction l generalizing p with
  | nil => cases h
  | cons a l ih =>
    rw [firstSrc] at h
    split at h
    · cases h
      exact List.mem_cons_self
    · next b hb =>
      split at h <;> cases h
      · exact List.mem_cons_of_mem a (ih hb)
      · exact List.mem_cons_self

/-- In a canonical table the first deliverable source is deliverable as it stands. -/
theorem deliverableTo_of_first {t : Nat} {p : Nat × Src} (hc : swf srcDefault d.icu.srcs = true) (h : firstDeliverable d t = some p) :
    deliverableTo d t p.1 (d.src p.1) = true := by
  obtain ⟨hmem, hdeliverable⟩ := List.mem_filter.1 (mem_of_firstSrc h)
  rw [Device.src, sget_of_mem srcDefault _ hc p.1 p.2 hmem]
  exact hdeliverable

theorem msixSignal_src {v n : Nat} : (msixSignal v d).src n = d.src n := by
  unfold msixSignal
  split <;> rfl

/-- A launch makes its own source active, and leaves every other. -/
theorem launchHost_src_ne {k n : Nat} (h : n ≠ k) : (launchHost k d).src n = d.src n := by
  rw [launchHost, msixSignal_src, lateCount_onlyIn.src_eq List.not_mem_nil, updSrc_src, if_neg h]

/-- Host deliveries leave a source that cannot be delivered to the host. -/
theorem hostDeliver_src {k n : Nat} (hc : swf srcDefault d.icu.srcs = true) (h : deliverableTo d 2 n (d.src n) = false) :
    (hostDeliver k d).src n = d.src n := by
  induction k generalizing d with
  | zero => rfl
  | succ k ih =>
    rw [hostDeliver]
    split
    · rfl
    · next i x hfirst =>
      have hne : n ≠ i := by
        rintro rfl
        exact Bool.false_ne_true (h.symm.trans (deliverableTo_of_first hc hfirst))
      have hdel := launchHost_delivering i d
      have hsrc : (launchHost i d).src n = d.src n := launchHost_src_ne hne
      rw [ih (hdel.canonical hc) (by rw [hdel.deliverableTo_eq, hsrc, h]), hsrc]

/-- The sources of target 3 that have become deliverable (R363). -/
def toForward (d : Device) : List (Nat × Src) :=
  d.icu.srcs.filter fun p => p.2.target = 3 && p.2.pending && !p.2.maskedNow && !p.2.active && !p.2.forwarded && p.2.priority > 0
    && (slotOf d p.1).isSome

/-- One of them is forwarded. -/
def forwardOne (d : Device) (p : Nat × Src) : Device :=
  updSrc p.1 (fun x => { x with forwarded := true }) (if p.2.masked then count 0x4540 d else d)

theorem forwardAll_eq : forwardAll d = (toForward d).foldl forwardOne d := rfl

theorem forwardOne_src {p : Nat × Src} {n : Nat} :
    (forwardOne d p).src n = if n = p.1 then { d.src p.1 with forwarded := true } else d.src n := by
  have hsrc (m : Nat) : (if p.2.masked then count 0x4540 d else d).src m = d.src m := by split <;> rfl
  rw [forwardOne, updSrc_src, hsrc, hsrc]

/-- Forwarding changes of a source no more than that it is forwarded. -/
theorem forwardAll_src {n : Nat} : ∃ b, (forwardAll d).src n = { d.src n with forwarded := b } := by
  rw [forwardAll_eq]
  generalize toForward d = l
  induction l generalizing d with
  | nil => exact ⟨_, rfl⟩
  | cons p l ih =>
    obtain ⟨b, hb⟩ := ih (d := forwardOne d p)
    refine ⟨b, ?_⟩
    rw [List.foldl_cons, hb, forwardOne_src]
    split
    · next h => rw [h]
    · rfl

/-- A source that is not pending is not forwarded. -/
theorem forwardAll_src_of_not_pending {n : Nat} (hc : swf srcDefault d.icu.srcs = true) (hp : (d.src n).pending = false) :
    (forwardAll d).src n = d.src n := by
  have hfold {l : List (Nat × Src)} {d : Device} (hl : ∀ p ∈ l, n ≠ p.1) : (l.foldl forwardOne d).src n = d.src n := by
    induction l generalizing d with
    | nil => rfl
    | cons p l ih =>
      rw [List.foldl_cons, ih fun q hq => hl q (List.mem_cons_of_mem p hq), forwardOne_src, if_neg (hl p List.mem_cons_self)]
  refine hfold fun p hmem hn => ?_
  obtain ⟨hsrcs, hforward⟩ := List.mem_filter.1 hmem
  have hsrc : d.src n = p.2 := hn ▸ sget_of_mem srcDefault _ hc p.1 p.2 hsrcs
  simp [← hsrc, hp] at hforward

/-- A delivery leaves a source that is not pending. -/
theorem deliver_src_of_not_pending {n : Nat} (hc : swf srcDefault d.icu.srcs = true) (hp : (d.src n).pending = false) :
    (deliver d).src n = d.src n := by
  unfold deliver
  split
  · rfl
  · have hsrc := forwardAll_src_of_not_pending hc hp
    dsimp only
    rw [hostDeliver_src ((forwardAll_delivering d).canonical hc) (by rw [hsrc, deliverableTo, hp]; rfl), hsrc]

/-- A source that the host does not serve, forwarded or not, does not become active by a delivery: T0 and T1 claim their own (R354). -/
theorem deliver_active {n : Nat} (hc : swf srcDefault d.icu.srcs = true) (h : ∀ b, servedBy d n { d.src n with forwarded := b } ≠ 2) :
    ((deliver d).src n).active = (d.src n).active := by
  unfold deliver
  split
  · rfl
  · obtain ⟨b, hsrc⟩ := forwardAll_src (d := d) (n := n)
    have hdel := forwardAll_delivering d
    have hnot : deliverableTo (forwardAll d) 2 n ((forwardAll d).src n) = false := by
      rw [hdel.deliverableTo_eq, hsrc, deliverableTo, decide_eq_false (h b)]
      simp only [Bool.and_false, Bool.false_and]
    dsimp only
    rw [hostDeliver_src (hdel.canonical hc) hnot, hsrc]

end

end Sys2Proof.Machine
end

section
/-!
PROOFS. Loop commands and the ends of a loop's states, coefficient writes, and the sequencer: what each leaves of the loops.
-/

namespace Sys2Proof.Machine

section
variable {d e : Device}

/-! ### A loop opens -/

theorem afterLeave_onlyIn {n : Nat} : OnlyIn [.servo] [] d (afterLeave n d) := by
  unfold afterLeave
  split
  · exact setServo_onlyIn
  · exact .refl

/-- Leaving CLOSED changes of the drive the on-time run alone. -/
theorem afterLeave_servo {n : Nat} : ∃ k, (afterLeave n d).servo = { d.servo with onTimeRun := k } := by
  unfold afterLeave
  split <;> exact ⟨_, rfl⟩

theorem afterLeave_loop {n m : Nat} : (afterLeave n d).loop m = d.loop m := by
  obtain ⟨k, h⟩ := afterLeave_servo (d := d) (n := n)
  rw [Device.loop, h, Device.loop]

theorem openLoop_onlyIn {n : Nat} : OnlyIn (.servo :: .wrc :: interruptParts) [0xB01C, 0xB0DC, 0x4540] d (openLoop n d) :=
  OnlyIn.refl.andThen updLoop_onlyIn |>.andThen voidJob_onlyIn |>.andThen afterLeave_onlyIn |>.andThen refreshInhibit_onlyIn

/-- Opening a loop changes of the drive the loops, the engine's sample and the on-time run. -/
theorem openLoop_servo {n : Nat} : ∃ l g k, (openLoop n d).servo = { d.servo with loops := l, engine := g, onTimeRun := k } := by
  obtain ⟨k, h⟩ := afterLeave_servo (n := n) (d := voidJob n (updLoop n (fun l => { clearLoop l with
    st := .openZero, output := toQ (coef d n 17), holdSamples := 0, outSat := false, captured := false }) d))
  exact ⟨_, _, k, by rw [openLoop, refreshInhibit_onlyIn.1 .servo (by decide), h, voidJob, updEngine, updLoop]⟩

/-- The loop is in OPEN_ZERO with its output at OFFSET and its state cleared (Table 03-3), and every other loop is as it was. -/
theorem openLoop_loop {n m : Nat} : (openLoop n d).loop m = if m = n then
    { clearLoop (d.loop n) with st := .openZero, output := toQ (coef d n 17), holdSamples := 0, outSat := false, captured := false }
    else d.loop m := by
  rw [openLoop, refreshInhibit_onlyIn.loop_eq (by decide), afterLeave_loop, voidJob, updEngine_loop, updLoop_loop]

theorem openLoop_st {n m : Nat} : ((openLoop n d).loop m).st = if m = n then .openZero else (d.loop m).st := by
  rw [openLoop_loop]
  split <;> rfl

/-! ### Commands of LOOP_CTRL -/

/-- A write of LOOP_CTRL whose effect is a change of its loop (R66, R70, R80). -/
theorem loopCtrl_completes {c : Instr} {s : State} {who : Requester} {n : Nat} {g : Device → Device} {f : Machine.Loop → Machine.Loop}
    (hc : exec c s = effect s (onlyIf (n < 4) (gate who (0x8100 + 0x200 * n) false g))) (hg : g s.dev = updLoop n f s.dev)
    (hwho : who ≠ .host) (hup : masterUp who s.dev = true) (hn : n < 4) :
    Completes c s fun d => d.loop n = f (s.dev.loop n) ∧ (∀ m, m ≠ n → d.loop m = s.dev.loop m) ∧ OnlyIn [.servo] [] s.dev d := by
  have hrun : onlyIf (n < 4) (gate who (0x8100 + 0x200 * n) false g) s.dev = updLoop n f s.dev := by
    rw [decide_eq_true hn, onlyIf_true, gate_open (seqWrites_of_range (by omega) (by omega)) hup fun h => absurd h hwho, hg]
  refine completes_to hc hrun ⟨updLoop_loop_self n f s.dev, fun m hm => ?_, updLoop_onlyIn⟩
  rw [updLoop_loop, if_neg hm]

/-! ### The ends of ACQUIRE, HOLD and CLOSED -/

/-- Where no attempt of the sequencer's is under way on focus, the loop opens and the failure is detected (R76). -/
theorem acqTimeoutLoop_opens {n : Nat} (h : n = 0 → d.servo.targetLayer = none) : acqTimeoutLoop n d = raise 46 (openLoop n d) := by
  have htarget : (raise 46 (openLoop n d)).servo.targetLayer = d.servo.targetLayer := by
    obtain ⟨l, g, k, hs⟩ := openLoop_servo (d := d) (n := n)
    have hr : (raise 46 (openLoop n d)).servo = (openLoop n d).servo := raise_onlyIn.1 .servo (by decide)
    rw [hr, hs]
  cases n with
  | zero => simp only [acqTimeoutLoop, htarget, h rfl]
  | succ n => rfl

theorem exec_acqTimeout {s : State} {n : Nat} :
    exec (.acqTimeout n) s = effect s fun d => onlyIf (n < 4 && acqExpired d n) (acqTimeoutLoop n) d := rfl

theorem acqTimeout_completes (s : State) (n : Nat) (hn : n < 4) (hexp : acqExpired s.dev n = true)
    (htarget : n = 0 → s.dev.servo.targetLayer = none) :
    Completes (.acqTimeout n) s fun d =>
      (d.loop n).st = .openZero ∧ (∀ m, m ≠ n → (d.loop m).st = (s.dev.loop m).st) ∧ Raised 46 d := by
  have hst (m : Nat) : ((raise 46 (openLoop n s.dev)).loop m).st = if m = n then .openZero else (s.dev.loop m).st := by
    rw [raise_onlyIn.loop_eq (by decide), openLoop_st]
  refine completes_to exec_acqTimeout
    (by rw [hexp, decide_eq_true hn, Bool.and_self, onlyIf_true, acqTimeoutLoop_opens htarget]) ⟨?_, fun m hm => ?_, raised_raise 46 _⟩
  · rw [hst, if_pos rfl]
  · rw [hst, if_neg hm]

theorem afterClose_loop {n m : Nat} : (afterClose n d).loop m = d.loop m := by
  obtain ⟨k, i, b, h⟩ := afterClose_servo (d := d) (n := n)
  rw [Device.loop, h, Device.loop]

/-- The loop CLOSED again at the HOLD limit, with the snapshot restored and the shadow discarded (Table 03-4, R84). -/
def restored (n : Nat) (d : Device) : Device :=
  updLoop n (fun l => { l with st := .closed, holdSamples := 0, shadowValid := false, holdTimeout := true, lossRun := 0 })
    (putLive n (d.loop n).snapshot d)

theorem restored_loop {n : Nat} : (restored n d).loop n =
    { d.loop n with st := .closed, holdSamples := 0, shadowValid := false, holdTimeout := true, lossRun := 0 } := by
  rw [restored, updLoop_loop_self, putLive_onlyIn.loop_eq (by decide)]

theorem restored_reg {n k : Nat} (hk : k < 19) : (restored n d).reg (0x8000 + 0x200 * n + 4 * k) = (d.loop n).snapshot.getD k 0 := by
  rw [restored, updLoop_reg, putLive_reg hk]

theorem holdTimeoutLoop_eq {n : Nat} : holdTimeoutLoop n d =
    raise (37 + n) (countF (0x8000 + 0x200 * n + 0x118) 7 0 (refreshInhibit (afterClose n (restored n d)))) := rfl

theorem holdTimeoutLoop_loop {n m : Nat} : (holdTimeoutLoop n d).loop m = (restored n d).loop m := by
  rw [holdTimeoutLoop_eq, raise_onlyIn.loop_eq (by decide), countF_onlyIn.loop_eq (by decide), refreshInhibit_onlyIn.loop_eq (by decide),
    afterClose_loop]

/-- What follows the restoring leaves the live set. -/
theorem holdTimeoutLoop_live {n k : Nat} (hn : n < 4) (hk : k < 19) :
    (holdTimeoutLoop n d).reg (0x8000 + 0x200 * n + 4 * k) = (d.loop n).snapshot.getD k 0 := by
  have hinhibit : 0x8000 + 0x200 * n + 4 * k ∉ [0xB01C, 0xB0DC, 0x4540] := by
    simp only [List.mem_cons, List.not_mem_nil, or_false]
    omega
  have hcount : 0x8000 + 0x200 * n + 4 * k ∉ [0x8000 + 0x200 * n + 0x118] := by
    rw [List.mem_singleton]
    omega
  rw [holdTimeoutLoop_eq, raise_reg _ _ _ (by omega), countF_onlyIn.2 _ hcount, refreshInhibit_onlyIn.2 _ hinhibit,
    afterClose_onlyIn.2 _ List.not_mem_nil, restored_reg hk]

theorem exec_holdTimeout {s : State} {n : Nat} : exec (.holdTimeout n) s =
    effect s fun d => onlyIf (n < 4 && sampleInstant d n && holdExpired d n) (holdTimeoutLoop n) d := rfl

theorem holdTimeout_completes (s : State) (n : Nat) (hn : n < 4) (hi : sampleInstant s.dev n = true) (hexp : holdExpired s.dev n = true) :
    Completes (.holdTimeout n) s fun d =>
      (d.loop n).st = .closed ∧ (d.loop n).holdTimeout = true ∧ (d.loop n).shadowValid = false ∧
      (∀ k, k < 19 → d.reg (0x8000 + 0x200 * n + 4 * k) = (s.dev.loop n).snapshot.getD k 0) ∧ Raised (37 + n) d := by
  refine completes_to (e := holdTimeoutLoop n s.dev) exec_holdTimeout
    (by rw [hi, hexp, decide_eq_true hn, Bool.and_self, Bool.and_self, onlyIf_true]) ?_
  rw [holdTimeoutLoop_loop, restored_loop]
  exact ⟨rfl, rfl, rfl, fun k hk => holdTimeoutLoop_live hn hk, raised_raise (37 + n) _⟩

/-- Focus as its loss finds it: FOCUS_LOST is set, and writing inhibited until focus is CLOSED again (R68, R73). -/
def focusLost (d : Device) : Device :=
  { updLoop 0 (fun l => { l with focusLost := true, lossRun := 0 }) d with
    servo := { (updLoop 0 (fun l => { l with focusLost := true, lossRun := 0 }) d).servo with lossInhibit := true, layer := none } }

theorem focusLost_loop : (focusLost d).loop 0 = { d.loop 0 with focusLost := true, lossRun := 0 } :=
  updLoop_loop_self 0 (fun l => { l with focusLost := true, lossRun := 0 }) d

theorem focusLossLoop_eq : focusLossLoop d = raise 49 (openLoop 0 (focusLost d)) := rfl

theorem exec_focusLoss {s : State} : exec .focusLoss s = effect s fun d => onlyIf (lossDue d) focusLossLoop d := rfl

theorem focusLoss_completes (s : State) (h : lossDue s.dev = true) :
    Completes .focusLoss s fun d =>
      (d.loop 0).st = .openZero ∧ (d.loop 0).focusLost = true ∧ d.servo.lossInhibit = true ∧ Raised 49 d := by
  obtain ⟨l, g, k, hs⟩ := openLoop_servo (d := focusLost s.dev) (n := 0)
  have hservo : (raise 49 (openLoop 0 (focusLost s.dev))).servo = (openLoop 0 (focusLost s.dev)).servo := raise_onlyIn.1 .servo (by decide)
  refine completes_to exec_focusLoss (by rw [h, onlyIf_true, focusLossLoop_eq]) ?_
  rw [raise_onlyIn.loop_eq (by decide), openLoop_loop, if_pos rfl, focusLost_loop, hservo, hs]
  exact ⟨rfl, rfl, rfl, raised_raise 49 _⟩

/-! ### Coefficient writes -/

/-- A rejected write counts in REJECT, raises source 41, and changes no coefficient (R69). -/
theorem rejectCoef_spec {n : Nat} (hn : n < 4) :
    (rejectCoef n d).regF (0x8118 + 0x200 * n) 15 8 = min 255 (d.regF (0x8118 + 0x200 * n) 15 8 + 1) ∧ Raised 41 (rejectCoef n d) ∧
      OnlyIn interruptParts [0x8118 + 0x200 * n, 0x4540] d (rejectCoef n d) := by
  have hoff : 0x8000 + 0x200 * n + 0x118 = 0x8118 + 0x200 * n := by omega
  rw [rejectCoef, hoff]
  refine ⟨?_, raised_raise 41 _, ?_⟩
  · rw [Device.regF, raise_reg _ _ _ (by omega)]
    exact countF_regF (by decide) (by decide)
  · exact (OnlyIn.refl.andThen countF_onlyIn (by decide) (by simp)).andThen raise_onlyIn (by decide) (by simp)

/-- What a write of a live coefficient does once its requester may make it (R69, R79). -/
def liveWritten (n k : Nat) (v : Word32) (d : Device) : Device :=
  if d.gen.mode = .primer || (d.loop n).st = .closed then rejectCoef n d
  else setReg (0x8000 + 0x200 * n + 4 * k) (v &&& 0x00FFFFFF) d

/-- What a write of a shadow coefficient does once its requester may make it (R70, R79). -/
def shadowWritten (n k : Nat) (v : Word32) (d : Device) : Device :=
  if d.gen.mode = .primer then rejectCoef n d
  else updLoop n (fun l => { l with shadowValid := true }) (setReg (0x8080 + 0x200 * n + 4 * k) (v &&& 0x00FFFFFF) d)

theorem liveWritten_taken {n k : Nat} {v : Word32} (hm : d.gen.mode ≠ .primer) (hst : (d.loop n).st ≠ .closed) :
    liveWritten n k v d = setReg (0x8000 + 0x200 * n + 4 * k) (v &&& 0x00FFFFFF) d := by
  rw [liveWritten, decide_eq_false hm, decide_eq_false hst]
  rfl

theorem liveWritten_rejected {n k : Nat} {v : Word32} (h : d.gen.mode = .primer ∨ (d.loop n).st = .closed) :
    liveWritten n k v d = rejectCoef n d := by
  rw [liveWritten, if_pos]
  simpa using h

theorem shadowWritten_taken {n k : Nat} {v : Word32} (hm : d.gen.mode ≠ .primer) : shadowWritten n k v d =
    updLoop n (fun l => { l with shadowValid := true }) (setReg (0x8080 + 0x200 * n + 4 * k) (v &&& 0x00FFFFFF) d) := if_neg hm

theorem shadowWritten_rejected {n k : Nat} {v : Word32} (hm : d.gen.mode = .primer) : shadowWritten n k v d = rejectCoef n d := if_pos hm

/-- A write that its requester may make of a coefficient, live or shadow (R80, R477). -/
theorem coefWrite_completes {c : Instr} {s : State} {who : Requester} {n k base : Nat} {f : Device → Device} {P : Device → Prop}
    (hc : exec c s = effect s (onlyIf (n < 4 && k < 19) (gate who (base + 0x200 * n + 4 * k) true f)))
    (hhost : who = .host → s.dev.hif.lock = false) (hup : masterUp who s.dev = true) (hn : n < 4) (hk : k < 19)
    (hlo : 0x8000 ≤ base) (hhi : base ≤ 0x8080) (p : P (f s.dev)) : Completes c s P := by
  refine completes_to hc ?_ p
  rw [decide_eq_true hn, decide_eq_true hk, Bool.and_self, onlyIf_true,
    gate_open (seqWrites_of_range (by omega) (by omega)) hup fun h => ⟨hhost h, rfl⟩]

theorem exec_coefLiveWrite {s : State} {who : Requester} {n k : Nat} {v : Word32} : exec (.coefLiveWrite who n k v) s =
    effect s (onlyIf (n < 4 && k < 19) (gate who (0x8000 + 0x200 * n + 4 * k) true (liveWritten n k v))) := rfl

theorem exec_coefShadowWrite {s : State} {who : Requester} {n k : Nat} {v : Word32} : exec (.coefShadowWrite who n k v) s =
    effect s (onlyIf (n < 4 && k < 19) (gate who (0x8080 + 0x200 * n + 4 * k) true (shadowWritten n k v))) := rfl

/-! ### The sequencer -/

/-- A write of SEQ_CTRL that its requester may make (R80, R81, R477). -/
theorem seqCtrl_completes {c : Instr} {s : State} {who : Requester} {hostOk : Bool} {f : Device → Device} {P : Device → Prop}
    (hc : exec c s = effect s (gate who 0x8900 hostOk f)) (hhost : who = .host → s.dev.hif.lock = false ∧ hostOk = true)
    (hup : masterUp who s.dev = true) (p : P (f s.dev)) : Completes c s P :=
  completes_to hc (gate_open (seqWrites_of_range (by decide) (by decide)) hup hhost) p

/-- RUN set on a sequencer in reset starts it, and RUN clear on one that runs holds it in reset (R81). -/
def runWritten (run : Bool) (d : Device) : Device :=
  if run then
    if d.servo.seqRun then d
    else { d with servo := { d.servo with
      seqRun := true, seqHalted := false, seqKick := d.now, seqPrimer := decide (d.gen.mode = .primer) } }
  else if d.servo.seqRun then endActive 1 { d with servo := { d.servo with seqRun := false, script := none } } else d

theorem exec_seqRun {s : State} {who : Requester} {run : Bool} :
    exec (.seqRun who run) s = effect s (gate who 0x8900 true (runWritten run)) := rfl

theorem runWritten_starts (h : d.servo.seqRun = false) : runWritten true d =
    { d with servo := { d.servo with
      seqRun := true, seqHalted := false, seqKick := d.now, seqPrimer := decide (d.gen.mode = .primer) } } := by
  rw [runWritten, if_pos rfl, h, if_neg Bool.false_ne_true]

theorem runWritten_stops (h : d.servo.seqRun = true) : runWritten false d =
    endActive 1 { d with servo := { d.servo with seqRun := false, script := none } } := by
  rw [runWritten, if_neg Bool.false_ne_true, if_pos h]

theorem seqRun_starts (s : State) (who : Requester) (hhost : who = .host → s.dev.hif.lock = false) (hup : masterUp who s.dev = true)
    (h : s.dev.servo.seqRun = false) :
    Completes (.seqRun who true) s fun d =>
      d.servo.seqRun = true ∧ d.servo.seqHalted = false ∧ d.servo.seqKick = s.dev.now ∧
      d.servo.seqPrimer = decide (s.dev.gen.mode = .primer) ∧ d.servo.loops = s.dev.servo.loops ∧ OnlyIn [.servo] [] s.dev d := by
  refine seqCtrl_completes exec_seqRun (fun hw => ⟨hhost hw, rfl⟩) hup ?_
  rw [runWritten_starts h]
  exact ⟨rfl, rfl, rfl, rfl, rfl, setServo_onlyIn⟩

theorem seqRun_stops (s : State) (who : Requester) (hhost : who = .host → s.dev.hif.lock = false) (hup : masterUp who s.dev = true)
    (h : s.dev.servo.seqRun = true) :
    Completes (.seqRun who false) s fun d =>
      d.servo.seqRun = false ∧ d.servo.loops = s.dev.servo.loops ∧ OnlyIn (.servo :: interruptParts) [0x4540] s.dev d := by
  refine seqCtrl_completes exec_seqRun (fun hw => ⟨hhost hw, rfl⟩) hup ?_
  rw [runWritten_stops h, endActive_onlyIn.1 .servo (by decide)]
  exact ⟨rfl, rfl, OnlyIn.refl.andThen setServo_onlyIn |>.andThen endActive_onlyIn⟩

theorem exec_seqKick {s : State} {who : Requester} : exec (.seqKick who) s =
    effect s (gate who 0x8900 false fun d => { d with servo := { d.servo with seqKick := d.now } }) := rfl

theorem seqKick_completes (s : State) (who : Requester) (hwho : who ≠ .host) (hup : masterUp who s.dev = true) :
    Completes (.seqKick who) s fun d =>
      d.servo = { s.dev.servo with seqKick := s.dev.now } ∧ OnlyIn [.servo] [] s.dev d :=
  seqCtrl_completes exec_seqKick (fun h => absurd h hwho) hup ⟨rfl, setServo_onlyIn⟩

theorem exec_seqHalt {s : State} : exec .seqHalt s = effect s fun d =>
    onlyIf d.servo.seqRun (fun d => raise 48 { d with servo := { d.servo with seqHalted := true } }) d := rfl

theorem seqHalt_completes (s : State) (h : s.dev.servo.seqRun = true) :
    Completes .seqHalt s fun d => d.servo.seqHalted = true ∧ Raised 48 d ∧ OnlyIn (.servo :: interruptParts) [0x4540] s.dev d := by
  refine completes_to exec_seqHalt (by rw [h, onlyIf_true]) ⟨?_, raised_raise 48 _, ?_⟩
  · rw [raise_onlyIn.1 .servo (by decide)]
  · exact OnlyIn.refl.andThen setServo_onlyIn |>.andThen raise_onlyIn

/-! ### The sequencer's watchdog -/

/-- A loop that is not CLOSED opens. -/
def openIfUnclosed (d : Device) (n : Nat) : Device := if (d.loop n).st = .closed then d else openLoop n d

theorem openUnclosed_eq : openUnclosed d = (List.range 4).foldl openIfUnclosed d := rfl

theorem openIfUnclosed_onlyIn {n : Nat} :
    OnlyIn (.servo :: .wrc :: interruptParts) [0xB01C, 0xB0DC, 0x4540] d (openIfUnclosed d n) := by
  unfold openIfUnclosed
  split
  · exact .refl
  · exact openLoop_onlyIn

theorem openIfUnclosed_servo {n : Nat} :
    ∃ l g k, (openIfUnclosed d n).servo = { d.servo with loops := l, engine := g, onTimeRun := k } := by
  unfold openIfUnclosed
  split
  · exact ⟨_, _, _, rfl⟩
  · exact openLoop_servo

theorem openIfUnclosed_st {m n : Nat} : ((openIfUnclosed d m).loop n).st =
    if n = m then (if (d.loop n).st = .closed then .closed else .openZero) else (d.loop n).st := by
  by_cases hn : n = m
  · subst hn
    rw [openIfUnclosed, if_pos rfl]
    split
    · assumption
    · rw [openLoop_st, if_pos rfl]
  · rw [openIfUnclosed, if_neg hn]
    split
    · rfl
    · rw [openLoop_st, if_neg hn]

theorem openUnclosed_onlyIn : OnlyIn (.servo :: .wrc :: interruptParts) [0xB01C, 0xB0DC, 0x4540] d (openUnclosed d) :=
  .foldl fun _ _ => openIfUnclosed_onlyIn

theorem openUnclosed_servo : ∃ l g k, (openUnclosed d).servo = { d.servo with loops := l, engine := g, onTimeRun := k } := by
  rw [openUnclosed_eq]
  generalize List.range 4 = ns
  induction ns generalizing d with
  | nil => exact ⟨_, _, _, rfl⟩
  | cons n ns ih =>
    obtain ⟨l, g, k, h⟩ := openIfUnclosed_servo (d := d) (n := n)
    obtain ⟨l', g', k', h'⟩ := ih (d := openIfUnclosed d n)
    exact ⟨l', g', k', by rw [List.foldl_cons, h', h]⟩

/-- Of the loops listed those not CLOSED go to OPEN_ZERO. -/
theorem foldl_openIfUnclosed_st {ns : List Nat} {n : Nat} : ((ns.foldl openIfUnclosed d).loop n).st =
    if n ∈ ns then (if (d.loop n).st = .closed then .closed else .openZero) else (d.loop n).st := by
  induction ns generalizing d with
  | nil => rfl
  | cons m ns ih =>
    rw [List.foldl_cons, ih, openIfUnclosed_st]
    by_cases hm : n = m
    · by_cases hc : (d.loop n).st = .closed <;> simp [hm ▸ hc, hm]
    · simp [hm]

/-- The sequencer held in reset by its watchdog: what it had active has ended, and source 47 tells so (R81, R360). -/
def watchdogReset (d : Device) : Device :=
  raise 47 (endActive 1 { d with servo := { d.servo with seqRun := false, seqExpired := true, script := none } })

theorem watchdogReset_onlyIn : OnlyIn (.servo :: interruptParts) [0x4540] d (watchdogReset d) :=
  OnlyIn.refl.andThen setServo_onlyIn |>.andThen endActive_onlyIn |>.andThen raise_onlyIn

theorem watchdogReset_servo : (watchdogReset d).servo = { d.servo with seqRun := false, seqExpired := true, script := none } :=
  Eq.trans (raise_onlyIn.1 .servo (by decide)) (endActive_onlyIn.1 .servo (by decide))

theorem watchdogReset_loop {n : Nat} : (watchdogReset d).loop n = d.loop n := by rw [Device.loop, watchdogReset_servo, Device.loop]

/-- Outside Primer no more happens than that the unclosed loops open (R81, R82). -/
theorem watchdogExpired_eq (hm : d.gen.mode ≠ .primer) : watchdogExpired d = openUnclosed (watchdogReset d) := by
  have hgen : (openUnclosed (watchdogReset d)).gen = d.gen :=
    Eq.trans (openUnclosed_onlyIn.1 .gen (by decide)) (watchdogReset_onlyIn.1 .gen (by decide))
  unfold watchdogExpired
  extract_lets _ d₁ d₂
  have hd₂ : d₂ = openUnclosed (watchdogReset d) := rfl
  rw [hd₂, hgen, if_neg hm]

theorem exec_seqWatchdogExpiry {s : State} : exec .seqWatchdogExpiry s = effect s fun d =>
    onlyIf (d.servo.seqRun && decide (d.servo.seqKick + 250000 ≤ d.now)) watchdogExpired d := rfl

theorem seqWatchdogExpiry_completes (s : State) (hrun : s.dev.servo.seqRun = true) (hkick : s.dev.servo.seqKick + 250000 ≤ s.dev.now)
    (hm : s.dev.gen.mode ≠ .primer) :
    Completes .seqWatchdogExpiry s fun d =>
      d.servo.seqRun = false ∧ d.servo.seqExpired = true ∧
      ∀ n, n < 4 → (d.loop n).st = if (s.dev.loop n).st = .closed then .closed else .openZero := by
  obtain ⟨l, g, k, hs⟩ := openUnclosed_servo (d := watchdogReset s.dev)
  refine completes_to exec_seqWatchdogExpiry
    (by rw [hrun, decide_eq_true hkick, Bool.and_self, onlyIf_true, watchdogExpired_eq hm]) ⟨?_, ?_, fun n hn => ?_⟩
  · rw [hs, watchdogReset_servo]
  · rw [hs, watchdogReset_servo]
  · rw [openUnclosed_eq, foldl_openIfUnclosed_st, if_pos (List.mem_range.2 hn), watchdogReset_loop]

end

/-- Settles O3: a write of LOOP_CTRL changes its loop alone, and the end of each state has a closed form. -/
theorem loopsAwaitCommandsAndLeaveInTime : Obligations.LoopsAwaitCommandsAndLeaveInTime := by
  refine ⟨fun s who n hwho hup hn => ⟨?_, ?_, ?_, ?_, ?_⟩, acqTimeout_completes, holdTimeout_completes, focusLoss_completes⟩
  · exact loopCtrl_completes (g := putLoopCmd n .open) rfl rfl hwho hup hn
  · exact loopCtrl_completes (g := putLoopCmd n .hold) rfl rfl hwho hup hn
  · exact loopCtrl_completes (g := putLoopCmd n .close) rfl rfl hwho hup hn
  · exact loopCtrl_completes (g := putLoopCmd n .acquire) rfl rfl hwho hup hn
  · exact loopCtrl_completes (g := updLoop n fun l => { l with shadowValid := false }) rfl rfl hwho hup hn

/-- Settles O4: past the requester's gate a coefficient write is taken or rejected by the mode and the loop's state. -/
theorem coefficientWritesFollowTheLoopState : Obligations.CoefficientWritesFollowTheLoopState := by
  intro s who n k v hhost hup hn hk
  have live {P : Device → Prop} : P (liveWritten n k v s.dev) → Completes (.coefLiveWrite who n k v) s P :=
    coefWrite_completes exec_coefLiveWrite hhost hup hn hk (by decide) (by decide)
  have shadow {P : Device → Prop} : P (shadowWritten n k v s.dev) → Completes (.coefShadowWrite who n k v) s P :=
    coefWrite_completes exec_coefShadowWrite hhost hup hn hk (by decide) (by decide)
  refine ⟨fun hm hst => live ?_, fun hm => shadow ?_, fun h => live ?_, fun hm => shadow ?_⟩
  · rw [liveWritten_taken hm hst]
    exact ⟨setReg_reg_self _ _ _, setReg_onlyIn⟩
  · rw [shadowWritten_taken hm]
    refine ⟨setReg_reg_self _ _ _, by rw [updLoop_loop_self], ?_⟩
    exact (OnlyIn.refl.andThen setReg_onlyIn (by decide) (List.Subset.refl _)).andThen updLoop_onlyIn (by decide) (List.nil_subset _)
  · rw [liveWritten_rejected h]
    exact rejectCoef_spec hn
  · rw [shadowWritten_rejected hm]
    exact rejectCoef_spec hn

/-- Settles O5, clause by clause: RUN and KICK pass the requester's gate, and what stops the sequencer leaves the CLOSED loops. -/
theorem sequencerRunsUnderItsWatchdog : Obligations.SequencerRunsUnderItsWatchdog :=
  ⟨seqRun_starts, seqRun_stops, seqKick_completes, seqHalt_completes, seqWatchdogExpiry_completes⟩

end Sys2Proof.Machine
end

section
/-!
PROOFS. Claims and completions.
-/

namespace Sys2Proof.Machine

section
variable {d e : Device}

/-! ### Claims at T0 and T1 -/

theorem exec_icuClaim {s : State} {who : Requester} {t : Nat} :
    exec (.icuClaim who t) s = effect s fun d => onlyIf (t < 2) (onBus who (readClaim who t)) d := rfl

/-- A requester that runs claims at T0 and T1, the sequencer at T1 alone (R80, R354). -/
theorem icuClaim_runs {s : State} {who : Requester} {t : Nat} (hup : masterUp who s.dev = true) (ht : t < 2)
    (hseq : who = .seq → t = 1) : exec (.icuClaim who t) s = .next { s with dev := icuClaim t s.dev } := by
  have hown : ¬ (who = .seq && t != 1) = true := by simpa using hseq
  rw [exec_icuClaim, effect_next, decide_eq_true ht, onlyIf_true, onBus, if_pos hup, readClaim, if_neg hown, if_neg (by omega)]

theorem icuClaim_first {t : Nat} {p : Nat × Src} (h : firstDeliverable d t = some p) :
    icuClaim t d = putRead (claimWord p) (updSrc p.1 claimSource (lateCount t p.2 d)) := by rw [icuClaim, h]

theorem icuClaim_none {t : Nat} (h : firstDeliverable d t = none) : icuClaim t d = putRead claimNone d := by rw [icuClaim, h]

theorem icuClaim_takes (s : State) (who : Requester) (t : Nat) (p : Nat × Src) (hup : masterUp who s.dev = true)
    (ht : t < 2) (hseq : who = .seq → t = 1) (h : firstDeliverable s.dev t = some p) :
    Completes (.icuClaim who t) s fun d =>
      d.bus = { s.dev.bus with readData := BitVec.ofNat 32 (p.2.counter * 2 ^ 24 + p.1) } ∧
      d.src p.1 = { s.dev.src p.1 with active := true, pending := (s.dev.src p.1).pending && decide ((s.dev.src p.1).sense < 2), counter := 0 } ∧
      (∀ n, n ≠ p.1 → d.src n = s.dev.src n) ∧ OnlyIn [.icu, .bus] [0x4540] s.dev d := by
  have hlate (n : Nat) : (lateCount t p.2 s.dev).src n = s.dev.src n := lateCount_onlyIn.src_eq List.not_mem_nil n
  have hsrc (n : Nat) : (putRead (claimWord p) (updSrc p.1 claimSource (lateCount t p.2 s.dev))).src n =
      if n = p.1 then claimSource (s.dev.src p.1) else s.dev.src n := by
    rw [putRead_onlyIn.src_eq (by decide), updSrc_src, hlate, hlate]
  have hbus : (lateCount t p.2 s.dev).bus = s.dev.bus := lateCount_onlyIn.1 .bus List.not_mem_nil
  refine ⟨_, icuClaim_runs hup ht hseq, rfl, ?_⟩
  dsimp only
  rw [icuClaim_first h]
  refine ⟨?_, by rw [hsrc, if_pos rfl]; rfl, fun n hn => by rw [hsrc, if_neg hn], ?_⟩
  · show { (lateCount t p.2 s.dev).bus with readData := claimWord p } = _
    rw [hbus]
    rfl
  · exact OnlyIn.refl.andThen lateCount_onlyIn |>.andThen updSrc_onlyIn |>.andThen putRead_onlyIn

theorem icuClaim_finds_none (s : State) (who : Requester) (t : Nat) (hup : masterUp who s.dev = true) (ht : t < 2)
    (hseq : who = .seq → t = 1) (h : firstDeliverable s.dev t = none) :
    Completes (.icuClaim who t) s fun d => d.bus = { s.dev.bus with readData := 0x100 } ∧ OnlyIn [.bus] [] s.dev d := by
  refine ⟨_, icuClaim_runs hup ht hseq, rfl, ?_⟩
  dsimp only
  rw [icuClaim_none h]
  exact ⟨rfl, putRead_onlyIn⟩

/-! ### Claims at T2 -/

theorem exec_icuHostClaim {s : State} : exec (.icuHostClaim .host) s = effect s icuHostClaim := rfl

theorem icuHostClaim_first {p : Nat × Src} (h : firstSrc (activeAt d 2) = some p) :
    icuHostClaim d = deliver (putRead (claimWord p) (updSrc p.1 hostClaimSource d)) := by rw [icuHostClaim, h]

theorem icuHostClaim_none (h : firstSrc (activeAt d 2) = none) : icuHostClaim d = putRead claimNone d := by rw [icuHostClaim, h]

/-- The source claimed is no longer pending, and so the delivery that follows leaves it (R356). -/
theorem icuHostClaim_takes (s : State) (p : Nat × Src) (hc : SourcesCanonical s) (h : firstSrc (activeAt s.dev 2) = some p) :
    Completes (.icuHostClaim .host) s fun d =>
      d.bus.readData = BitVec.ofNat 32 (p.2.counter * 2 ^ 24 + p.1) ∧
      d.src p.1 = { s.dev.src p.1 with active := false, forwarded := false, pending := false, counter := 0 } ∧
      OnlyIn interruptParts [0x4540] s.dev d := by
  have hsrc : (putRead (claimWord p) (updSrc p.1 hostClaimSource s.dev)).src p.1 = hostClaimSource (s.dev.src p.1) := by
    rw [putRead_onlyIn.src_eq (by decide), updSrc_src_self]
  have hcanonical : swf srcDefault (putRead (claimWord p) (updSrc p.1 hostClaimSource s.dev)).icu.srcs = true := updSrc_canonical hc
  obtain ⟨-, -, -, -, -, -, -, -, hread⟩ := deliver_delivering (putRead (claimWord p) (updSrc p.1 hostClaimSource s.dev))
  refine completes_to exec_icuHostClaim (icuHostClaim_first h) ⟨hread, ?_, ?_⟩
  · rw [deliver_src_of_not_pending hcanonical (by rw [hsrc]; rfl), hsrc]
    rfl
  · exact OnlyIn.refl.andThen updSrc_onlyIn |>.andThen putRead_onlyIn |>.andThen deliver_onlyIn

theorem icuHostClaim_finds_none (s : State) (h : firstSrc (activeAt s.dev 2) = none) :
    Completes (.icuHostClaim .host) s fun d => d.bus = { s.dev.bus with readData := 0x100 } ∧ OnlyIn [.bus] [] s.dev d :=
  completes_to exec_icuHostClaim (icuHostClaim_none h) ⟨rfl, putRead_onlyIn⟩

/-! ### Completions -/

theorem exec_icuComplete {s : State} {who : Requester} {t : Nat} {v : Word32} :
    exec (.icuComplete who t v) s = effect s fun d => onlyIf (t < 2) (writeComplete who t v) d := rfl

/-- The management pair completes at T0 and T1. -/
theorem icuComplete_runs {s : State} {t : Nat} {v : Word32} (hup : pairRuns s.dev = true) (ht : t < 2) :
    exec (.icuComplete .mgmt t v) s = .next { s with dev := icuComplete t (fld v 8 0) s.dev } := by
  have hup' : masterUp .mgmt s.dev = true := hup
  rw [exec_icuComplete, effect_next, decide_eq_true ht, onlyIf_true, writeComplete, icuGate, if_neg (by simp), gate, onBus, if_pos hup']

theorem icuComplete_active {t n : Nat} (ha : (d.src n).active = true) (hs : servedBy d n (d.src n) = t) :
    icuComplete t n d = deliver (updSrc n (fun x => { x with active := false, forwarded := false }) d) := by
  rw [icuComplete, ha, decide_eq_true hs, Bool.and_self, if_pos rfl]

theorem icuComplete_stray {t n : Nat} (ha : (d.src n).active = false) : icuComplete t n d = raise 17 (count (0x450C + 0x10 * t) d) := by
  rw [icuComplete, ha, Bool.false_and, if_neg Bool.false_ne_true]

/-- A source served at T0 or T1 is not the host's, whether it is forwarded or waits to be (R363). -/
theorem servedBy_ne_host {t n : Nat} {x : Src} (ht : t < 2) (hs : servedBy d n x = t) (b : Bool) :
    servedBy d n { x with forwarded := b } ≠ 2 := by
  unfold servedBy at hs ⊢
  dsimp only
  by_cases h3 : x.target = 3
  · rw [if_pos h3] at hs ⊢
    cases b with
    | false =>
      rw [if_neg Bool.false_ne_true]
      decide
    | true =>
      have hf : x.forwarded = true := by
        by_contra hf
        rw [if_neg hf] at hs
        omega
      rw [if_pos hf] at hs
      rw [if_pos rfl]
      omega
  · rw [if_neg h3] at hs ⊢
    omega

/-- The delivery that follows a completion makes the source active for the host alone, which does not serve it (R354). -/
theorem icuComplete_completes (s : State) (t : Nat) (v : Word32) (hup : pairRuns s.dev = true) (hc : SourcesCanonical s) (ht : t < 2)
    (ha : (s.dev.src (fld v 8 0)).active = true) (hs : servedBy s.dev (fld v 8 0) (s.dev.src (fld v 8 0)) = t) :
    Completes (.icuComplete .mgmt t v) s fun d => (d.src (fld v 8 0)).active = false ∧ OnlyIn interruptParts [0x4540] s.dev d := by
  refine ⟨_, icuComplete_runs hup ht, rfl, ?_⟩
  dsimp only
  rw [icuComplete_active ha hs]
  refine ⟨?_, OnlyIn.refl.andThen updSrc_onlyIn |>.andThen deliver_onlyIn⟩
  rw [deliver_active (updSrc_canonical hc) fun b => ?_, updSrc_src_self]
  rw [updSrc_src_self]
  exact servedBy_ne_host ht hs b

/-- A count in a statistics register and then a detection. -/
theorem raise_count_spec {k o : Nat} (ho : o ≠ 0x4540) :
    Raised k (raise k (count o d)) ∧ (raise k (count o d)).reg o = BitVec.ofNat 32 (min 0xFFFFFFFF ((d.reg o).toNat + 1)) ∧
      OnlyIn interruptParts [o, 0x4540] d (raise k (count o d)) := by
  refine ⟨raised_raise k _, ?_, (OnlyIn.refl.andThen count_onlyIn (by decide) (by simp)).andThen raise_onlyIn (by decide) (by simp)⟩
  rw [raise_reg k _ o ho, count_reg, if_pos rfl]

theorem icuComplete_counts_stray (s : State) (t : Nat) (v : Word32) (hup : pairRuns s.dev = true) (ht : t < 2)
    (ha : (s.dev.src (fld v 8 0)).active = false) :
    Completes (.icuComplete .mgmt t v) s fun d =>
      Raised 17 d ∧ d.reg (0x450C + 0x10 * t) = BitVec.ofNat 32 (min 0xFFFFFFFF ((s.dev.reg (0x450C + 0x10 * t)).toNat + 1)) ∧
      OnlyIn interruptParts [0x450C + 0x10 * t, 0x4540] s.dev d := by
  refine ⟨_, icuComplete_runs hup ht, rfl, ?_⟩
  dsimp only
  rw [icuComplete_stray ha]
  exact raise_count_spec (by omega)

/-- The host may complete nothing before the lock (R359). -/
theorem icuComplete_refuses_host (s : State) (t : Nat) (v : Word32) (ht : t < 2) (hl : s.dev.hif.lock = false) :
    Completes (.icuComplete .host t v) s fun d =>
      Raised 16 d ∧ d.reg 0x4544 = BitVec.ofNat 32 (min 0xFFFFFFFF ((s.dev.reg 0x4544).toNat + 1)) ∧
      OnlyIn interruptParts [0x4540, 0x4544] s.dev d := by
  obtain ⟨hraised, hreg, hframe⟩ := raise_count_spec (d := s.dev) (k := 16) (o := 0x4544) (by decide)
  have hrefused : onlyIf (t < 2) (writeComplete .host t v) s.dev = raise 16 (count 0x4544 s.dev) := by
    rw [decide_eq_true ht, onlyIf_true, writeComplete, icuGate, hl]
    rfl
  exact completes_to exec_icuComplete hrefused ⟨hraised, hreg, hframe.mono (List.Subset.refl _) (by decide)⟩

end

/-- Settles O39, clause by clause: the delivery that follows a claim or a completion leaves the source that it serves. -/
theorem claimsAndCompletionsServeSources : Obligations.ClaimsAndCompletionsServeSources :=
  ⟨fun s who t p _ => icuClaim_takes s who t p, icuClaim_finds_none, icuHostClaim_takes, icuHostClaim_finds_none,
    icuComplete_completes, icuComplete_counts_stray, icuComplete_refuses_host⟩

end Sys2Proof.Machine
end

section
/-!
PROOFS. The sled and its gearing: what a motion command, an encoder edge, a microstep and the end of a motion change of the motion
generator, and what they leave.
-/

namespace Sys2Proof.Machine

section
variable {d : Device}

/-! ### What an operation changes -/

theorem updMotion_onlyIn {f : Motion → Motion} : OnlyIn [.motion] [] d (updMotion f d) := by
  refine ⟨fun p hp => ?_, fun _ _ => rfl⟩
  cases p with
  | motion => simp at hp
  | _ => rfl

theorem withPlan_onlyIn {p : Plan} : OnlyIn [.motion] [] d (withPlan p d) := updMotion_onlyIn

@[simp] theorem withPlan_motion {p : Plan} :
    (withPlan p d).motion = { d.motion with plan := some p, plannedAt := d.now, current := .run } := rfl

@[simp] theorem raise_motion {k : Nat} : (raise k d).motion = d.motion := raise_onlyIn.1 .motion (by decide)

@[simp] theorem countF_motion {o hi lo : Nat} : (countF o hi lo d).motion = d.motion := rfl

@[simp] theorem refreshInhibit_motion : (refreshInhibit d).motion = d.motion := refreshInhibit_onlyIn.1 .motion (by decide)

/-- What an emergency ramp that starts makes of the motion generator (R95). -/
theorem startRamp_motion {cause : Nat} {after : MotionState} : (startRamp cause after d).motion = { d.motion with
    plan := some (planRamp d), plannedAt := d.now, current := .run, st := .emergency, ramping := true, afterRamp := after
    stopCause := cause, armed := false, armedLate := false, engaging := false, gearDue := 0, seeking := false, parking := false
    edgePos := none, offAtPark := false } := raise_motion

theorem startRamp_onlyIn {cause : Nat} {after : MotionState} :
    OnlyIn (.motion :: interruptParts) [0x9050, 0x4540] d (startRamp cause after d) :=
  OnlyIn.refl.andThen withPlan_onlyIn |>.andThen updMotion_onlyIn |>.andThen countF_onlyIn |>.andThen raise_onlyIn

/-- A ramp that starts takes no detection back. -/
protected theorem Raised.startRamp {k cause : Nat} {after : MotionState} (h : Raised k d) : Raised k (startRamp cause after d) :=
  (h.andThen withPlan_onlyIn |>.andThen updMotion_onlyIn |>.andThen countF_onlyIn).raise 69

/-- A ramp inside an unhomed park changes of the motion generator its plan alone (R102). -/
theorem innerRamp_motion : (innerRamp d).motion =
    { d.motion with plan := some (planRamp d), plannedAt := d.now, current := .run, ramping := true } := raise_motion

theorem innerRamp_onlyIn : OnlyIn (.motion :: interruptParts) [0x9050, 0x4540] d (innerRamp d) :=
  OnlyIn.refl.andThen withPlan_onlyIn |>.andThen updMotion_onlyIn |>.andThen countF_onlyIn |>.andThen raise_onlyIn

protected theorem Raised.innerRamp {k : Nat} (h : Raised k d) : Raised k (innerRamp d) :=
  (h.andThen withPlan_onlyIn |>.andThen updMotion_onlyIn |>.andThen countF_onlyIn).raise 69

/-! ### The soft limits -/

/-- The motion generator as a soft limit stops it (R99). -/
def haltedAtLimit (m : Motion) : Motion :=
  { m with
    st := .idle, current := .hold, clamped := true, armed := false, armedLate := false, engaging := false, gearDue := 0, trimDue := 0 }

/-- The sled goes on, or a soft limit stops it and source 73 tells so (R99). -/
theorem softLimitStop_cases : softLimitStop d = d ∨ softLimitStop d = raise 73 (refreshInhibit (updMotion haltedAtLimit d)) := by
  cases h : atSoftLimit (softLimits d).1 (softLimits d).2 d.motion with
  | false => exact .inl (if_neg (ne_true_of_eq_false h))
  | true => exact .inr (if_pos h)

/-- The soft limits stop geared motion alone. -/
theorem softLimitStop_of_not_geared (h : d.motion.st ≠ .geared) : softLimitStop d = d := if_neg (by simp [atSoftLimit, h])

theorem softLimitStop_motion : (softLimitStop d).motion = d.motion ∨ (softLimitStop d).motion = haltedAtLimit d.motion := by
  rcases softLimitStop_cases (d := d) with h | h
  · exact .inl (by rw [h])
  · exact .inr (by rw [h, raise_motion, refreshInhibit_motion, updMotion_motion])

theorem softLimitStop_onlyIn : OnlyIn (.motion :: .wrc :: interruptParts) [0xB01C, 0xB0DC, 0x4540] d (softLimitStop d) := by
  rcases softLimitStop_cases (d := d) with h | h
  · rw [h]
    exact .refl
  · rw [h]
    exact OnlyIn.refl.andThen updMotion_onlyIn |>.andThen refreshInhibit_onlyIn |>.andThen raise_onlyIn

/-- A stop at a soft limit takes no detection back. -/
protected theorem Raised.softLimitStop {k : Nat} (h : Raised k d) : Raised k (softLimitStop d) := by
  rcases softLimitStop_cases (d := d) with hs | hs
  · rw [hs]
    exact h
  · rw [hs]
    exact (h.andThen updMotion_onlyIn).refreshInhibit.raise 73

/-- A stop at a soft limit leaves POS and the geared target; a sled that no clamp holds afterwards was not stopped. -/
theorem softLimitStop_spec {m : Motion} (hm : d.motion = m) : (softLimitStop d).motion.pos = m.pos ∧
    (softLimitStop d).motion.acc = m.acc ∧ ((softLimitStop d).motion.clamped = false → (softLimitStop d).motion = m) := by
  subst hm
  rcases softLimitStop_motion (d := d) with h | h
  · rw [h]
    exact ⟨rfl, rfl, fun _ => rfl⟩
  · rw [h]
    exact ⟨rfl, rfl, nofun⟩

/-! ### Motion commands -/

/-- A write of the motion generator's block by a requester other than the host (R80, R477). -/
theorem mpgWrite_completes {c : Instr} {s : State} {who : Requester} {o : Nat} {f : Device → Device} {P : Device → Prop}
    (hc : exec c s = effect s (gate who o false f)) (hwho : who ≠ .host) (hup : masterUp who s.dev = true)
    (p : P (f s.dev)) (hlo : 0x8000 ≤ o := by decide) (hhi : o < 0xA000 := by decide) : Completes c s P :=
  completes_to hc (gate_open (seqWrites_of_range hlo hhi) hup fun h => absurd h hwho) p

/-! ### Gearing -/

theorem exec_gearEngage {s : State} {who : Requester} : exec (.gearEngage who) s = effect s (gate who 0x9000 false fun d =>
    if d.motion.st = .idle && (d.loop 2).st = .closed then
      (if d.motion.needHome then startHome .gear d else doEngage d)
    else rejectMotion d) := rfl

/-- Gearing engages at POS, with the target's fraction at 0 (R104). -/
theorem gearEngage_completes (s : State) (who : Requester) (hwho : who ≠ .host) (hup : masterUp who s.dev = true)
    (hidle : s.dev.motion.st = .idle) (hclosed : (s.dev.loop 2).st = .closed) (hhome : s.dev.motion.needHome = false) :
    Completes (.gearEngage who) s fun d =>
      d.motion.engaging = true ∧ d.motion.base = s.dev.motion.pos ∧ d.motion.acc = 0 ∧ d.motion.pos = s.dev.motion.pos := by
  refine mpgWrite_completes exec_gearEngage hwho hup ?_
  rw [if_pos (by simp [hidle, hclosed]), if_neg (by simp [hhome]), doEngage, refreshInhibit_motion]
  exact ⟨rfl, rfl, rfl, rfl⟩

theorem exec_gearDisengage {s : State} {who : Requester} : exec (.gearDisengage who) s =
    effect s (gate who 0x9000 false fun d => if d.motion.st = .geared then disengage d else rejectMotion d) := rfl

theorem gearDisengage_completes (s : State) (who : Requester) (hwho : who ≠ .host) (hup : masterUp who s.dev = true)
    (hgeared : s.dev.motion.st = .geared) :
    Completes (.gearDisengage who) s fun d => d.motion.st = .idle ∧ d.motion.armed = false ∧ d.motion.pos = s.dev.motion.pos := by
  refine mpgWrite_completes exec_gearDisengage hwho hup ?_
  rw [if_pos hgeared, disengage, refreshInhibit_motion]
  exact ⟨rfl, rfl, rfl⟩

/-! ### A ratio change is armed and cancelled -/

/-- The trigger in GEAR_TRIGGER lies at the count that MASTER_POS has reached, or behind it (R105). -/
def triggerPassed (d : Device) : Bool := (d.reg 0x9038 - d.motion.masterPos).toInt ≤ 0

/-- The values in GEAR_NEXT and GEAR_TRIGGER are armed as they stand (R105). -/
def changeArmed (late : Bool) (d : Device) : Device :=
  updMotion (fun m => { m with
    armed := true, armedLate := late, late := m.late || late, armedNext := d.reg 0x9034, armedTrigger := d.reg 0x9038 }) d

theorem exec_gearArm {s : State} {who : Requester} : exec (.gearArm who) s = effect s (gate who 0x903C false fun d =>
    if triggerPassed d then raise 72 (changeArmed (triggerPassed d) d) else changeArmed (triggerPassed d) d) := rfl

theorem gearArm_arms (s : State) (who : Requester) (hwho : who ≠ .host) (hup : masterUp who s.dev = true)
    (hahead : 0 < (s.dev.reg 0x9038 - s.dev.motion.masterPos).toInt) :
    Completes (.gearArm who) s fun d =>
      d.motion = { s.dev.motion with
        armed := true, armedLate := false, armedNext := s.dev.reg 0x9034, armedTrigger := s.dev.reg 0x9038 } ∧
      OnlyIn [.motion] [] s.dev d := by
  have hpassed : triggerPassed s.dev = false := decide_eq_false (Int.not_le.2 hahead)
  refine mpgWrite_completes exec_gearArm hwho hup ?_
  rw [hpassed, if_neg Bool.false_ne_true]
  refine ⟨?_, updMotion_onlyIn⟩
  rw [changeArmed, updMotion_motion, Bool.or_false]

theorem gearArm_arms_late (s : State) (who : Requester) (hwho : who ≠ .host) (hup : masterUp who s.dev = true)
    (hpast : (s.dev.reg 0x9038 - s.dev.motion.masterPos).toInt ≤ 0) :
    Completes (.gearArm who) s fun d =>
      d.motion = { s.dev.motion with
        armed := true, armedLate := true, late := true, armedNext := s.dev.reg 0x9034, armedTrigger := s.dev.reg 0x9038 } ∧
      Raised 72 d ∧ OnlyIn (.motion :: interruptParts) [0x4540] s.dev d := by
  have hpassed : triggerPassed s.dev = true := decide_eq_true hpast
  refine mpgWrite_completes exec_gearArm hwho hup ?_
  rw [hpassed, if_pos rfl]
  refine ⟨?_, raised_raise 72 _, OnlyIn.refl.andThen updMotion_onlyIn |>.andThen raise_onlyIn⟩
  rw [raise_motion, changeArmed, updMotion_motion, Bool.or_true]

theorem exec_gearCancel {s : State} {who : Requester} : exec (.gearCancel who) s =
    effect s (gate who 0x903C false (updMotion fun m => { m with armed := false, armedLate := false })) := rfl

theorem gearCancel_completes (s : State) (who : Requester) (hwho : who ≠ .host) (hup : masterUp who s.dev = true) :
    Completes (.gearCancel who) s fun d =>
      d.motion = { s.dev.motion with armed := false, armedLate := false } ∧ OnlyIn [.motion] [] s.dev d :=
  mpgWrite_completes exec_gearCancel hwho hup ⟨rfl, updMotion_onlyIn⟩

/-! ### An encoder edge is counted -/

/-- The edge at time `t` comes after the last one (R104). -/
def edgeFollows (t : Nat) (d : Device) : Bool :=
  match d.servo.edgeAt with
  | some p => decide (p < t)
  | none => true

theorem edgeFollows_of {t : Nat} (h : ∀ p, d.servo.edgeAt = some p → p < t) : edgeFollows t d = true := by
  unfold edgeFollows
  split
  · next p hp => exact decide_eq_true (h p hp)
  · rfl

theorem exec_encoderEdge {s : State} {eighths : Nat} : exec (.encoderEdge eighths) s = effect s fun d =>
    onlyIf (eighths < 8 && edgeFollows (8 * d.now + eighths) d) (encoderCount (8 * d.now + eighths)) d := rfl

/-- An edge that comes after the last one is counted. -/
theorem encoderEdge_completes {s : State} {eighths : Nat} {P : Device → Prop} (h8 : eighths < 8)
    (hafter : ∀ p, s.dev.servo.edgeAt = some p → p < 8 * s.dev.now + eighths) (p : P (encoderCount (8 * s.dev.now + eighths) s.dev)) :
    Completes (.encoderEdge eighths) s P :=
  completes_to exec_encoderEdge (by rw [decide_eq_true h8, edgeFollows_of hafter, Bool.and_self, onlyIf_true]) p

/-- The motion generator after an edge: MASTER_POS has counted it, and gearing that awaited it is engaged (R104). -/
def edgeTaken (m : Motion) : Motion :=
  { m with masterPos := m.masterPos + 1, st := if m.engaging && m.st = .idle then .geared else m.st, engaging := false }

theorem edgeTaken_of_not_engaging {m : Motion} (h : m.engaging = false) : edgeTaken m = { m with masterPos := m.masterPos + 1 } := by
  cases m
  cases h
  rfl

theorem edgeTaken_of_geared {m : Motion} (h : m.st = .geared) :
    edgeTaken m = { m with masterPos := m.masterPos + 1, engaging := false } := by
  simp [edgeTaken, h]

theorem measureEdge_onlyIn {t : Nat} : OnlyIn [.servo] [] d (measureEdge t d) := by
  unfold measureEdge
  split <;> exact setServo_onlyIn

theorem measureEdge_edgeAt {t : Nat} : (measureEdge t d).servo.edgeAt = some t := by
  unfold measureEdge
  split <;> rfl

theorem measureEdge_first {t : Nat} (h : d.servo.edgeAt = none) : (measureEdge t d).servo.edgeInterval = d.servo.edgeInterval := by
  unfold measureEdge
  rw [h]

/-- The edge at time `t` is measured and counted, before gearing follows it. -/
def edgeCounted (t : Nat) (d : Device) : Device :=
  refreshInhibit (updMotion edgeTaken (measureEdge t { d with gen := { d.gen with edges := d.gen.edges + 1 } }))

theorem setGen_onlyIn {x : Startup} : OnlyIn [.gen] [] d { d with gen := x } := updGen_onlyIn (f := fun _ => x)

theorem edgeCounted_onlyIn {t : Nat} :
    OnlyIn ([.gen, .servo, .motion, .wrc] ++ interruptParts) [0xB01C, 0xB0DC, 0x4540] d (edgeCounted t d) :=
  OnlyIn.refl.andThen setGen_onlyIn |>.andThen measureEdge_onlyIn |>.andThen updMotion_onlyIn |>.andThen refreshInhibit_onlyIn

theorem edgeCounted_motion {t : Nat} : (edgeCounted t d).motion = edgeTaken d.motion := by
  rw [edgeCounted, refreshInhibit_motion, updMotion_motion, measureEdge_onlyIn.1 .motion (by decide)]

theorem edgeCounted_gen {t : Nat} : (edgeCounted t d).gen = { d.gen with edges := d.gen.edges + 1 } := by
  rw [edgeCounted, refreshInhibit_onlyIn.1 .gen (by decide), updMotion_gen, measureEdge_onlyIn.1 .gen (by decide)]

theorem edgeCounted_servo {t : Nat} :
    (edgeCounted t d).servo = (measureEdge t { d with gen := { d.gen with edges := d.gen.edges + 1 } }).servo := by
  rw [edgeCounted, refreshInhibit_onlyIn.1 .servo (by decide), updMotion_servo]

/-- The first edge gives no interval. -/
theorem edgeCounted_first {t : Nat} (h : d.servo.edgeAt = none) :
    (edgeCounted t d).servo.edgeInterval = d.servo.edgeInterval := by
  rw [edgeCounted_servo, measureEdge_first]
  exact h

/-! ### Gearing follows the edge -/

/-- The live ratio would need more than VMAX at the measured count rate (R107). -/
def tooFast (d : Device) : Bool :=
  match d.servo.edgeInterval with
  | some i => overspeed (d.reg 0x9030).toInt i (d.regF 0x9010 15 0)
  | none => false

/-- The ramp of an overspeed, or the stop at a soft limit, where one of them is due (R99, R107). -/
def gearChecked (d : Device) : Device := if tooFast d then raise 74 (refreshInhibit (startRamp 5 .idle d)) else softLimitStop d

theorem encoderCount_eq {t : Nat} : encoderCount t d =
    if (edgeCounted t d).motion.st = .geared then gearChecked (gearCount (edgeCounted t d)) else edgeCounted t d := rfl

theorem gearChecked_onlyIn :
    OnlyIn (.motion :: .wrc :: interruptParts) [0x9050, 0xB01C, 0xB0DC, 0x4540] d (gearChecked d) := by
  unfold gearChecked
  split
  · exact OnlyIn.refl.andThen startRamp_onlyIn |>.andThen refreshInhibit_onlyIn |>.andThen raise_onlyIn
  · exact OnlyIn.refl.andThen softLimitStop_onlyIn

/-- Neither the ramp nor the stop takes a detection back. -/
protected theorem Raised.gearChecked {k : Nat} (h : Raised k d) : Raised k (gearChecked d) := by
  unfold Machine.gearChecked
  split
  · exact h.startRamp.refreshInhibit.raise 74
  · exact h.softLimitStop

/-- The ramp and the stop leave the encoder's count and the geared target, and arm no change. -/
theorem gearChecked_motion (h : d.motion.armed = false) : (gearChecked d).motion.masterPos = d.motion.masterPos ∧
    (gearChecked d).motion.armed = false ∧ (gearChecked d).motion.acc = d.motion.acc := by
  unfold gearChecked
  split
  · rw [raise_motion, refreshInhibit_motion, startRamp_motion]
    exact ⟨rfl, rfl, rfl⟩
  · rcases softLimitStop_motion (d := d) with hs | hs
    · rw [hs]
      exact ⟨rfl, h, rfl⟩
    · rw [hs]
      exact ⟨rfl, rfl, rfl⟩

/-- Without an interval between edges there is no count rate that could be too high. -/
theorem gearChecked_of_no_interval (h : d.servo.edgeInterval = none) : gearChecked d = softLimitStop d := by
  rw [gearChecked, tooFast, h]
  exact if_neg Bool.false_ne_true

/-- A ratio change applies at this count (R105). -/
def changeDue (m : Motion) : Bool := m.armedLate || (m.armed && m.masterPos = m.armedTrigger)

theorem changeDue_at_trigger {m : Motion} (harmed : m.armed = true) (htrigger : m.masterPos = m.armedTrigger) : changeDue m = true := by
  rw [changeDue, harmed, decide_eq_true htrigger, Bool.and_self, Bool.or_true]

theorem changeDue_unarmed {m : Motion} (harmed : m.armed = false) (hlate : m.armedLate = false) : changeDue m = false := by
  rw [changeDue, harmed, hlate, Bool.false_and, Bool.or_self]

/-- The geared target advances by the ratio, and the microsteps that it passes become due (R104). -/
def targetAdvanced (ratio : Int) (hit : Bool) (m : Motion) : Motion :=
  { m with
    armed := m.armed && !hit, armedLate := false, engaging := false, acc := m.acc + ratio
    gearDue := m.gearDue + ((m.acc + ratio).fdiv 16777216 - m.acc.fdiv 16777216) }

/-- The ratio of a due change comes into force (R105). -/
def ratioApplied (d : Device) : Device := if changeDue d.motion then raise 71 (setReg 0x9030 d.motion.armedNext d) else d

theorem gearCount_eq : gearCount d =
    updMotion (targetAdvanced ((ratioApplied d).reg 0x9030).toInt (changeDue d.motion)) (ratioApplied d) := rfl

/-- At the armed count the new ratio is in force for the target's advance. -/
theorem gearCount_changes (h : changeDue d.motion = true) : gearCount d =
    updMotion (targetAdvanced d.motion.armedNext.toInt true) (raise 71 (setReg 0x9030 d.motion.armedNext d)) := by
  rw [gearCount_eq, ratioApplied, h, if_pos rfl, raise_reg _ _ _ (by decide), setReg_reg_self]

theorem gearCount_counts (h : changeDue d.motion = false) :
    gearCount d = updMotion (targetAdvanced (d.reg 0x9030).toInt false) d := by
  rw [gearCount_eq, ratioApplied, h, if_neg Bool.false_ne_true]

/-- An edge outside GEARED that engages nothing is no more than counted. -/
theorem encoderEdge_counts (s : State) (eighths : Nat) (h8 : eighths < 8)
    (hafter : ∀ p, s.dev.servo.edgeAt = some p → p < 8 * s.dev.now + eighths) (hst : s.dev.motion.st ≠ .geared)
    (hengaging : s.dev.motion.engaging = false) :
    Completes (.encoderEdge eighths) s fun d =>
      d.motion.masterPos = s.dev.motion.masterPos + 1 ∧ d.motion.pos = s.dev.motion.pos ∧ d.motion.acc = s.dev.motion.acc ∧
      d.servo.edgeAt = some (8 * s.dev.now + eighths) ∧ d.gen.edges = s.dev.gen.edges + 1 := by
  refine encoderEdge_completes h8 hafter ?_
  have hmotion := edgeCounted_motion (d := s.dev) (t := 8 * s.dev.now + eighths)
  rw [edgeTaken_of_not_engaging hengaging] at hmotion
  rw [encoderCount_eq, if_neg (by rw [hmotion]; exact hst), hmotion, edgeCounted_servo, edgeCounted_gen, measureEdge_edgeAt]
  exact ⟨rfl, rfl, rfl, rfl, rfl⟩

/-- In GEARED an edge advances the target, and the checks follow. -/
theorem encoderCount_geared {t : Nat} (h : d.motion.st = .geared) : encoderCount t d = gearChecked (gearCount (edgeCounted t d)) := by
  rw [encoderCount_eq, edgeCounted_motion, edgeTaken_of_geared h, if_pos h]

/-- The edge that brings the count to the armed trigger applies the change (R105). -/
theorem encoderEdge_changes_ratio (s : State) (eighths : Nat) (h8 : eighths < 8)
    (hafter : ∀ p, s.dev.servo.edgeAt = some p → p < 8 * s.dev.now + eighths) (hst : s.dev.motion.st = .geared)
    (harmed : s.dev.motion.armed = true)
    (htrigger : s.dev.motion.masterPos + 1 = s.dev.motion.armedTrigger) :
    Completes (.encoderEdge eighths) s fun d =>
      d.motion.masterPos = s.dev.motion.masterPos + 1 ∧ d.reg 0x9030 = s.dev.motion.armedNext ∧ d.motion.armed = false ∧
      d.motion.acc = s.dev.motion.acc + s.dev.motion.armedNext.toInt ∧ Raised 71 d := by
  refine encoderEdge_completes h8 hafter ?_
  have hmotion := edgeCounted_motion (d := s.dev) (t := 8 * s.dev.now + eighths)
  rw [edgeTaken_of_geared hst] at hmotion
  have hdue : changeDue (edgeCounted (8 * s.dev.now + eighths) s.dev).motion = true := by
    rw [hmotion]
    exact changeDue_at_trigger harmed htrigger
  rw [encoderCount_geared hst, gearCount_changes hdue, hmotion]
  obtain ⟨hmaster, hnone, hacc⟩ := gearChecked_motion (d := updMotion (targetAdvanced s.dev.motion.armedNext.toInt true)
    (raise 71 (setReg 0x9030 s.dev.motion.armedNext (edgeCounted (8 * s.dev.now + eighths) s.dev)))) (Bool.and_false _)
  rw [updMotion_motion, raise_motion, setReg_motion, hmotion] at hmaster hacc
  refine ⟨hmaster, ?_, hnone, hacc, ((raised_raise 71 _).andThen updMotion_onlyIn).gearChecked⟩
  rw [gearChecked_onlyIn.2 _ (by decide), updMotion_onlyIn.2 _ List.not_mem_nil, raise_reg _ _ _ (by decide), setReg_reg_self]

/-- An edge with no change pending advances the target by the live ratio (R104). -/
theorem encoderEdge_advances (s : State) (eighths : Nat) (h8 : eighths < 8) (hfirst : s.dev.servo.edgeAt = none)
    (hinterval : s.dev.servo.edgeInterval = none) (hst : s.dev.motion.st = .geared) (harmed : s.dev.motion.armed = false)
    (hlate : s.dev.motion.armedLate = false) :
    Completes (.encoderEdge eighths) s fun d =>
      d.motion.acc = s.dev.motion.acc + (s.dev.reg 0x9030).toInt ∧ d.motion.pos = s.dev.motion.pos ∧
      (d.motion.clamped = false → d.motion.st = .geared ∧ d.motion.gearDue = s.dev.motion.gearDue +
        ((s.dev.motion.acc + (s.dev.reg 0x9030).toInt).fdiv 16777216 - s.dev.motion.acc.fdiv 16777216)) := by
  refine encoderEdge_completes h8 (fun p hp => absurd (hfirst.symm.trans hp) nofun) ?_
  generalize 8 * s.dev.now + eighths = t
  have hmotion := edgeCounted_motion (d := s.dev) (t := t)
  rw [edgeTaken_of_geared hst] at hmotion
  have hdue : changeDue (edgeCounted t s.dev).motion = false := by
    rw [hmotion]
    exact changeDue_unarmed harmed hlate
  have hnorate : (gearCount (edgeCounted t s.dev)).servo.edgeInterval = none := by
    rw [gearCount_counts hdue, updMotion_servo, edgeCounted_first hfirst, hinterval]
  rw [encoderCount_geared hst, gearChecked_of_no_interval hnorate, gearCount_counts hdue, edgeCounted_onlyIn.2 0x9030 (by decide)]
  obtain ⟨hpos, hacc, hfree⟩ := softLimitStop_spec (d := updMotion (targetAdvanced (s.dev.reg 0x9030).toInt false) (edgeCounted t s.dev))
    (congrArg (targetAdvanced (s.dev.reg 0x9030).toInt false) hmotion)
  refine ⟨hacc, hpos, fun hc => ?_⟩
  rw [hfree hc]
  exact ⟨hst, rfl⟩

/-! ### Microsteps -/

/-- The motion generator as a due microstep leaves it (R93, R104). -/
def stepped (src : StepSource) (outward : Bool) (d : Device) : Motion :=
  emitStep d.now (softLimits d).1 (softLimits d).2 (d.regF 0x9010 15 0) src outward d.motion

theorem exec_microstepDue {s : State} {src : StepSource} {outward : Bool} : exec (.microstepDue src outward) s =
    effect s fun d => softLimitStop (updMotion (fun _ => stepped src outward d) d) := rfl

/-- A due microstep of a move is emitted. -/
theorem stepped_profile {outward : Bool} (hst : d.motion.st = .moving) (hdue : planDue d.now d.motion outward = true) :
    stepped .profile outward d = microstep d.now outward d.motion := by
  simp [stepped, emitStep, hst, hdue]

/-- A microstep of a move moves POS by one, and no soft limit of geared motion stops it. -/
theorem microstepDue_profile {s : State} {outward : Bool} (hst : s.dev.motion.st = .moving)
    (hdue : planDue s.dev.now s.dev.motion outward = true) :
    Completes (.microstepDue .profile outward) s fun d =>
      d.motion = microstep s.dev.now outward s.dev.motion ∧ OnlyIn [.motion] [] s.dev d := by
  have hmoving : (microstep s.dev.now outward s.dev.motion).st = .moving := by cases outward <;> exact hst
  refine completes_to exec_microstepDue rfl ?_
  rw [softLimitStop_of_not_geared (by rw [updMotion_motion, stepped_profile hst hdue, hmoving]; nofun)]
  exact ⟨stepped_profile hst hdue, updMotion_onlyIn⟩

/-- A due microstep of gearing is emitted, and is no longer due. -/
theorem stepped_gear (hst : d.motion.st = .geared) (hdue : 0 < d.motion.gearDue) :
    stepped .gear true d = { microstep d.now true d.motion with gearDue := d.motion.gearDue - 1 } := by
  simp [stepped, emitStep, hst, hdue, hdue.ne']

theorem microstepDue_gear (s : State) (hst : s.dev.motion.st = .geared) (hdue : 0 < s.dev.motion.gearDue) :
    Completes (.microstepDue .gear true) s fun d =>
      d.motion.pos = s.dev.motion.pos + 1 ∧
      (d.motion.clamped = false → d.motion.st = .geared ∧ d.motion.gearDue = s.dev.motion.gearDue - 1) := by
  refine completes_to exec_microstepDue rfl ?_
  obtain ⟨hpos, -, hfree⟩ := softLimitStop_spec (d := updMotion (fun _ => stepped .gear true s.dev) s.dev) (stepped_gear hst hdue)
  refine ⟨hpos, fun hc => ?_⟩
  rw [hfree hc]
  exact ⟨hst, rfl⟩

/-! ### A move is planned anew, and ends -/

/-- The plan under way ends at the target (R93). -/
def planStands (m : Motion) : Bool :=
  match m.plan with
  | some p => p.rest = some (m.goal * unitsPerStep)
  | none => false

theorem exec_profileReplan {s : State} : exec .profileReplan s = effect s fun d =>
    onlyIf (d.motion.st = .moving && decide (d.motion.plannedAt + 250 ≤ d.now)) (fun d =>
      if planStands d.motion then updMotion (fun m => { m with plannedAt := d.now }) d else withPlan (planTo d.motion.goal d) d) d := rfl

theorem profileReplan_completes (s : State) (hst : s.dev.motion.st = .moving) (hdue : s.dev.motion.plannedAt + 250 ≤ s.dev.now)
    (hplan : s.dev.motion.plan = none) :
    Completes .profileReplan s fun d =>
      d.motion = { s.dev.motion with plan := some (planTo s.dev.motion.goal s.dev), plannedAt := s.dev.now, current := .run } ∧
      OnlyIn [.motion] [] s.dev d := by
  have hnew : planStands s.dev.motion = false := by rw [planStands, hplan]
  refine completes_to exec_profileReplan
    (by rw [decide_eq_true hst, decide_eq_true hdue, Bool.and_self, onlyIf_true, hnew, if_neg Bool.false_ne_true])
    ⟨withPlan_motion, withPlan_onlyIn⟩

theorem exec_moveComplete {s : State} : exec .moveComplete s = effect s fun d =>
    onlyIf (d.motion.st = .moving && planOver d.now d.motion && d.motion.pos = d.motion.goal) moveDone d := rfl

/-- A move whose profile is over at its target is done. -/
theorem moveComplete_runs {s : State} {P : Device → Prop} (hst : s.dev.motion.st = .moving) (hgoal : s.dev.motion.pos = s.dev.motion.goal)
    (hover : planOver s.dev.now s.dev.motion = true) (p : P (moveDone s.dev)) : Completes .moveComplete s P :=
  completes_to exec_moveComplete
    (by rw [decide_eq_true hst, hover, decide_eq_true hgoal, Bool.and_self, Bool.and_self, onlyIf_true]) p

theorem moveDone_move (hpark : d.motion.parking = false) (hseek : d.motion.seeking = false) : moveDone d =
    raise 64 (refreshInhibit (updMotion (fun m => { m with st := .idle, current := .hold, plan := none, seeking := false }) d)) := by
  rw [moveDone, hpark, if_neg Bool.false_ne_true, hseek]
  exact if_neg Bool.false_ne_true

theorem moveComplete_move (s : State) (hst : s.dev.motion.st = .moving) (hgoal : s.dev.motion.pos = s.dev.motion.goal)
    (hover : planOver s.dev.now s.dev.motion = true) (hpark : s.dev.motion.parking = false) (hseek : s.dev.motion.seeking = false) :
    Completes .moveComplete s fun d => d.motion.st = .idle ∧ d.motion.pos = s.dev.motion.pos ∧ Raised 64 d := by
  refine moveComplete_runs hst hgoal hover ?_
  rw [moveDone_move hpark hseek, raise_motion, refreshInhibit_motion]
  exact ⟨rfl, rfl, raised_raise 64 _⟩

theorem moveDone_park (hpark : d.motion.parking = true) : moveDone d = parkDone d := if_pos hpark

theorem parkDone_raised : Raised 64 (parkDone d) := raised_raise 64 _

/-- A park that a move made ends in IDLE, with POS corrected by what the edge recorded (R101, R103). -/
theorem parkDone_motion (hst : d.motion.st = .moving) : (parkDone d).motion.st = .idle ∧ (parkDone d).motion.atPark = true ∧
    (parkDone d).motion.pos = d.motion.pos - d.motion.edgePos.getD 0 := by
  rw [parkDone, raise_motion, refreshInhibit_motion]
  exact ⟨if_pos hst, rfl, rfl⟩

theorem moveComplete_park (s : State) (hst : s.dev.motion.st = .moving) (hgoal : s.dev.motion.pos = s.dev.motion.goal)
    (hover : planOver s.dev.now s.dev.motion = true) (hpark : s.dev.motion.parking = true) :
    Completes .moveComplete s fun d =>
      d.motion.st = .idle ∧ d.motion.atPark = true ∧ d.motion.pos = s.dev.motion.pos - s.dev.motion.edgePos.getD 0 ∧ Raised 64 d := by
  refine moveComplete_runs hst hgoal hover ?_
  rw [moveDone_park hpark]
  obtain ⟨hidle, hat, hpos⟩ := parkDone_motion hst
  exact ⟨hidle, hat, hpos, parkDone_raised⟩

/-! ### The emergency ramp at rest, and the pre-driver -/

theorem exec_emergencyRampAtRest {s : State} : exec .emergencyRampAtRest s = effect s fun d =>
    onlyIf (d.motion.ramping && planOver d.now d.motion) rampAtRest d := rfl

theorem parkNext_of_not (h : d.motion.parkAfterRamp = false) : parkNext d = d := if_neg (by simp [h])

/-- The sled at rest after the ramp, with source 70 and the current of the state to follow (R95). -/
def rampOver (d : Device) : Device :=
  updMotion (fun m => { m with current := if m.afterRamp = .idle then .hold else .off })
    (raise 70 (updMotion (fun m => { m with ramping := false, plan := none }) d))

theorem rampOver_motion : (rampOver d).motion =
    { d.motion with ramping := false, plan := none, current := if d.motion.afterRamp = .idle then .hold else .off } := by
  rw [rampOver, updMotion_motion, raise_motion, updMotion_motion]

/-- The state that was to follow the ramp. -/
def afterRampEntered (d : Device) : Device :=
  refreshInhibit (updMotion (fun m => { m with st := m.afterRamp, posValid := m.posValid && m.afterRamp = .idle }) d)

theorem afterRampEntered_motion : (afterRampEntered d).motion =
    { d.motion with st := d.motion.afterRamp, posValid := d.motion.posValid && d.motion.afterRamp = .idle } := refreshInhibit_motion

/-- A ramp in EMERGENCY that no switch began, with no park waiting, leads to the state that was to follow it. -/
theorem rampAtRest_plain (hst : d.motion.st = .emergency) (hsrc : d.motion.rampSource = none) (hpark : d.motion.parkAfterRamp = false) :
    rampAtRest d = afterRampEntered (rampOver d) := by
  have hst' : (raise 70 (updMotion (fun m => { m with ramping := false, plan := none }) d)).motion.st = .emergency := by
    rw [raise_motion]
    exact hst
  have hsrc' : (rampOver d).motion.rampSource = none := by rw [rampOver_motion, hsrc]
  have hpark' : (afterRampEntered (rampOver d)).motion.parkAfterRamp = false := by rw [afterRampEntered_motion, rampOver_motion, hpark]
  rw [← parkNext_of_not hpark', rampAtRest]
  simp only [hst']
  rw [← rampOver, hsrc']
  rfl

theorem emergencyRampAtRest_completes (s : State) (hst : s.dev.motion.st = .emergency) (hramp : s.dev.motion.ramping = true)
    (hsrc : s.dev.motion.rampSource = none) (hpark : s.dev.motion.parkAfterRamp = false)
    (hover : planOver s.dev.now s.dev.motion = true) :
    Completes .emergencyRampAtRest s fun d =>
      d.motion.st = s.dev.motion.afterRamp ∧ d.motion.ramping = false ∧ d.motion.pos = s.dev.motion.pos ∧ Raised 70 d := by
  refine completes_to exec_emergencyRampAtRest
    (by rw [hramp, hover, Bool.and_self, onlyIf_true, rampAtRest_plain hst hsrc hpark]) ?_
  rw [afterRampEntered_motion, rampOver_motion]
  exact ⟨rfl, rfl, rfl, ((raised_raise 70 _).andThen updMotion_onlyIn |>.andThen updMotion_onlyIn).refreshInhibit⟩

/-- The motion generator after a fault of the pre-driver (R96). -/
def preDriverFaulted (m : Motion) : Motion :=
  { m with
    st := .fault, posValid := false, current := .off, atPark := false, ramping := false, parking := false, armed := false
    armedLate := false, engaging := false, gearDue := 0, stopCause := 4, rampSource := none, parkAfterRamp := false
    seeking := false, plan := none, edgePos := none, offAtPark := false, afterHome := .nothing }

theorem exec_preDriverFault {s : State} : exec .preDriverFault s = effect s fun d =>
    raise 76 (countF 0x9050 7 0 (refreshInhibit (updMotion preDriverFaulted d))) := rfl

theorem preDriverFault_completes (s : State) :
    Completes .preDriverFault s fun d =>
      d.motion.st = .fault ∧ d.motion.current = .off ∧ d.motion.posValid = false ∧ d.motion.ramping = false ∧
      d.motion.stopCause = 4 ∧ Raised 76 d := by
  refine completes_to exec_preDriverFault rfl ?_
  rw [raise_motion, countF_motion, refreshInhibit_motion]
  exact ⟨rfl, rfl, rfl, rfl, rfl, raised_raise 76 _⟩

/-! ### Limit switches -/

theorem exec_limitSwitchChange {s : State} {outer level : Bool} {held : Nat} :
    exec (.limitSwitchChange outer level held) s = effect s (onlyIf (25 ≤ held) (switchChange outer level)) := rfl

/-- A level that has not held long enough is not accepted (R89). -/
theorem limitSwitchChange_early (s : State) (outer level : Bool) (held : Nat) (h : held < 25) :
    Completes (.limitSwitchChange outer level held) s fun d => d = s.dev :=
  completes_to exec_limitSwitchChange (by rw [decide_eq_false (Nat.not_le.2 h), onlyIf_false]) rfl

/-- The sled stopped by the home switch: in UNHOMED, the position lost, the switch asserted, and source 67 detected (R97). -/
def HomeStopped (d : Device) : Prop :=
  d.motion.st = .unhomed ∧ d.motion.posValid = false ∧ homeSw d = true ∧ d.motion.stopCause = 2 ∧ Raised 67 d

theorem updMotion_homeSw {f : Motion → Motion} (h : (f d.motion).homeLevel = d.motion.homeLevel) :
    homeSw (updMotion f d) = homeSw d := by
  rw [homeSw, updMotion_motion, h, updMotion_onlyIn.2 _ List.not_mem_nil, homeSw]

theorem refreshInhibit_homeSw : homeSw (refreshInhibit d) = homeSw d := by
  rw [homeSw, refreshInhibit_motion, refreshInhibit_onlyIn.2 _ (by decide), homeSw]

theorem raise_homeSw {k : Nat} : homeSw (raise k d) = homeSw d := by
  rw [homeSw, raise_motion, raise_reg _ _ _ (by decide), homeSw]

/-- A change of the motion generator that leaves what the stop set. -/
protected theorem HomeStopped.updMotion {f : Motion → Motion} (h : HomeStopped d) (hst : (f d.motion).st = d.motion.st)
    (hvalid : (f d.motion).posValid = d.motion.posValid) (hlevel : (f d.motion).homeLevel = d.motion.homeLevel)
    (hcause : (f d.motion).stopCause = d.motion.stopCause) : HomeStopped (updMotion f d) := by
  obtain ⟨h1, h2, h3, h4, h5⟩ := h
  exact ⟨hst.trans h1, hvalid.trans h2, (updMotion_homeSw hlevel).trans h3, hcause.trans h4, h5.andThen updMotion_onlyIn⟩

protected theorem HomeStopped.refreshInhibit (h : HomeStopped d) : HomeStopped (refreshInhibit d) := by
  obtain ⟨h1, h2, h3, h4, h5⟩ := h
  rw [HomeStopped, refreshInhibit_homeSw, refreshInhibit_motion]
  exact ⟨h1, h2, h3, h4, h5.refreshInhibit⟩

protected theorem HomeStopped.innerRamp (h : HomeStopped d) : HomeStopped (innerRamp d) := by
  obtain ⟨h1, h2, h3, h4, h5⟩ := h
  have hhome : homeSw (innerRamp d) = homeSw d := by
    rw [homeSw, innerRamp_motion, innerRamp_onlyIn.2 _ (by decide), homeSw]
  rw [HomeStopped, hhome, innerRamp_motion]
  exact ⟨h1, h2, h3, h4, h5.innerRamp⟩

/-- The sled on its way inward for the home switch, unless its ramp still runs. -/
def inwardPlanned (d : Device) : Device := if d.motion.ramping then d else withPlan (planSpeed (-(speedMax d)) d) d

/-- The unhomed park under way (R102). -/
def unhomedParking (d : Device) : Device :=
  refreshInhibit (updMotion (fun m => { m with
    st := .unhomed, atPark := false, parking := true, posValid := false, afterHome := .nothing }) (inwardPlanned d))

theorem startUnhomedPark_eq : startUnhomedPark d =
    if homeSw (unhomedParking d) && !d.motion.ramping then innerRamp (unhomedParking d) else unhomedParking d := rfl

protected theorem HomeStopped.unhomedParking (h : HomeStopped d) : HomeStopped (unhomedParking d) := by
  have hinward : HomeStopped (inwardPlanned d) := by
    unfold inwardPlanned
    split
    · exact h
    · exact h.updMotion rfl rfl rfl rfl
  have ⟨hst, hvalid, _⟩ := hinward
  exact (hinward.updMotion hst.symm hvalid.symm rfl rfl).refreshInhibit

/-- PARK without a valid position moves the sled, and leaves what the stop set (R102). -/
protected theorem HomeStopped.startUnhomedPark (h : HomeStopped d) : HomeStopped (startUnhomedPark d) := by
  rw [startUnhomedPark_eq]
  split
  · exact h.unhomedParking.innerRamp
  · exact h.unhomedParking

/-- A PARK that waited starts in UNHOMED (Table 04-3). -/
protected theorem HomeStopped.parkNext (h : HomeStopped d) : HomeStopped (parkNext d) := by
  have hnext : HomeStopped (updMotion (fun m => { m with parkAfterRamp := false }) d) := h.updMotion rfl rfl rfl rfl
  have ⟨hst, _⟩ := hnext
  unfold Machine.parkNext
  split
  · unfold doPark
    rw [hst]
    dsimp only
    split
    · exact hnext
    · exact hnext.startUnhomedPark
  · exact h

/-- The motion generator as the home switch set to HARD stops it (R97). -/
def hardStopped (m : Motion) : Motion :=
  { m with
    ramping := false, plan := none, current := .run, stopCause := 2, armed := false, armedLate := false, engaging := false
    gearDue := 0, trimDue := 0, edgePos := none, offAtPark := m.offAtPark && m.parkAfterRamp }

theorem switchStop_hard (h : wbit (d.reg 0x9024) 0 = false) :
    switchStop false d = parkNext (switchRest 67 (updMotion hardStopped d)) := if_neg (ne_true_of_eq_false h)

theorem switchStop_homeStopped (hhard : wbit (d.reg 0x9024) 0 = false) (hon : homeSw d = true) : HomeStopped (switchStop false d) := by
  rw [switchStop_hard hhard]
  refine HomeStopped.parkNext ?_
  rw [HomeStopped, switchRest, raise_homeSw, refreshInhibit_homeSw, updMotion_homeSw rfl, updMotion_homeSw rfl, raise_motion,
    refreshInhibit_motion]
  exact ⟨rfl, rfl, hon, rfl, raised_raise 67 _⟩

/-- The home switch's new level is accepted (R89). -/
def homeAccepted (level : Bool) (d : Device) : Device := updMotion (fun m => { m with homeLevel := level }) d

theorem switchChange_home {level : Bool} (h : level ≠ d.motion.homeLevel) :
    switchChange false level d = homeChange (homeSw (homeAccepted level d)) (homeAccepted level d) := if_neg h

/-- The home switch asserted during a move that is no park stops the sled (R97). -/
theorem homeChange_moving (hst : d.motion.st = .moving) (hpark : d.motion.parking = false) : homeChange true d = switchStop false d := by
  rw [homeChange, hst]
  exact if_neg (ne_true_of_eq_false hpark)

theorem limitSwitchChange_stops_hard (s : State) (held : Nat) (hst : s.dev.motion.st = .moving) (hpark : s.dev.motion.parking = false)
    (hoff : homeSw s.dev = false) (hhard : (s.dev.reg 0x9024).getLsbD 0 = false) (hheld : 25 ≤ held) :
    Completes (.limitSwitchChange false ((s.dev.reg 0x9024).getLsbD 4) held) s HomeStopped := by
  have hnew : (s.dev.reg 0x9024).getLsbD 4 ≠ s.dev.motion.homeLevel := fun h => of_decide_eq_false hoff h.symm
  have hon : homeSw (homeAccepted ((s.dev.reg 0x9024).getLsbD 4) s.dev) = true := decide_eq_true rfl
  refine completes_to exec_limitSwitchChange (by rw [decide_eq_true hheld, onlyIf_true, switchChange_home hnew, hon]) ?_
  rw [homeChange_moving]
  · exact switchStop_homeStopped hhard hon
  · exact hst
  · exact hpark

/-! ### Homing overruns -/

theorem exec_homingFailed {s : State} : exec .homingFailed s = effect s fun d => onlyIf (homingOverrun d.motion) (fun d =>
    raise 66 (refreshInhibit (updMotion (fun m => { m with
      st := .unhomed, current := .off, posValid := false, afterHome := .nothing, plan := none }) d))) d := rfl

theorem homingFailed_completes (s : State) (h : homingOverrun s.dev.motion = true) :
    Completes .homingFailed s fun d =>
      d.motion.st = .unhomed ∧ d.motion.current = .off ∧ d.motion.posValid = false ∧ Raised 66 d := by
  refine completes_to exec_homingFailed (by rw [h, onlyIf_true]) ?_
  rw [raise_motion, refreshInhibit_motion]
  exact ⟨rfl, rfl, rfl, raised_raise 66 _⟩

/-! ### A PARK in FAULT -/

/-- A PARK as it arrives: the phase current goes off at its end only where a park that waits for the ramp already asked for that (R103). -/
def parkAsked (d : Device) : Device := updMotion (fun m => { m with offAtPark := m.offAtPark && m.parkAfterRamp }) d

theorem exec_park {s : State} {who : Requester} :
    exec (.park who) s = effect s (gate who 0x9000 false fun d => doPark (parkAsked d)) := rfl

/-- A PARK in FAULT is rejected, after it has changed what the park is to do with the phase current (R91). -/
theorem park_in_fault {s : State} {who : Requester} (hwho : who ≠ .host) (hup : masterUp who s.dev = true)
    (hst : s.dev.motion.st = .fault) : exec (.park who) s = .next { s with dev := rejectMotion (parkAsked s.dev) } := by
  have hasked : (parkAsked s.dev).motion.st = .fault := hst
  have hreject : doPark (parkAsked s.dev) = rejectMotion (parkAsked s.dev) := by rw [doPark, hasked]
  rw [exec_park, effect_next, gate_open (seqWrites_of_range (by decide) (by decide)) hup fun h => absurd h hwho, hreject]

theorem rejectMotion_motion : (rejectMotion d).motion = d.motion := raise_motion

end

/-- A sled in FAULT whose phase current was to go off at the end of a park. -/
def faultBeforePowerOff : State := { pending := [], dev := { motion := { st := .fault, offAtPark := true } } }

/-- Refutes O7: a PARK in FAULT is to leave all but the interrupt controller, the bus and two registers, but PARK clears offAtPark before
the state is looked at, so that in `faultBeforePowerOff` the motion generator changes. -/
theorem not_motionCommandsFollowTheirStates : ¬ Obligations.MotionCommandsFollowTheirStates := by
  rintro ⟨-, hreject⟩
  obtain ⟨-, -, hpark, -⟩ := hreject faultBeforePowerOff .mgmt (by decide) rfl
  obtain ⟨t, ht, -, -, -, hframe⟩ := hpark rfl
  rw [park_in_fault (by decide) rfl rfl] at ht
  obtain rfl := Host.Outcome.next.inj ht
  have hkept : (rejectMotion (parkAsked faultBeforePowerOff.dev)).motion = faultBeforePowerOff.dev.motion := hframe.1 .motion (by decide)
  rw [rejectMotion_motion] at hkept
  cases congrArg Motion.offAtPark hkept

/-- Settles O8, clause by clause: an edge is counted first, and in GEARED the target's advance and the checks on it follow. -/
theorem gearingFollowsTheEncoder : Obligations.GearingFollowsTheEncoder :=
  ⟨gearEngage_completes, gearDisengage_completes, gearArm_arms, gearArm_arms_late, gearCancel_completes, encoderEdge_counts,
    fun s eighths h8 hafter hst harmed _ => encoderEdge_changes_ratio s eighths h8 hafter hst harmed,
    fun s eighths h8 hfirst hinterval hst harmed hlate _ => encoderEdge_advances s eighths h8 hfirst hinterval hst harmed hlate⟩

/-- Settles O9, clause by clause: a due microstep is emitted, the soft limits stop geared motion alone, and a move ends at its goal. -/
theorem movesAdvanceByMicrosteps : Obligations.MovesAdvanceByMicrosteps :=
  ⟨fun _ => microstepDue_profile, fun _ => microstepDue_profile, fun s hst hdue _ => microstepDue_gear s hst hdue, profileReplan_completes,
    moveComplete_move, moveComplete_park⟩

/-- Settles O10, clause by clause: after a hard stop by the home switch, a PARK that waited starts too, and leaves what the stop set. -/
theorem abnormalStopsEndMotion : Obligations.AbnormalStopsEndMotion :=
  ⟨emergencyRampAtRest_completes, preDriverFault_completes, limitSwitchChange_early, limitSwitchChange_stops_hard, homingFailed_completes⟩

end Sys2Proof.Machine
end

section
/-!
PROOFS. The read channel: two clusters that bear one number.

`LadderRests` asks of each cluster on the ladder that its own step goes on, but `pumpReads` settles a cluster by its number, and so the first
one that bears it. `addRead` gives each cluster a number of its own; the statements O11 and O12 do not ask for that.
-/

namespace Sys2Proof.Machine

section
variable {s : State} {d : Device} {c : LadderCluster}

/-! ### What a settlement of a number does -/

/-- What a command completes with holds of the device that its meaning leaves. -/
theorem holds_of_completes {i : Instr} {f : Device → Device} {P : Device → Prop} (h : exec i s = effect s f) (hp : Completes i s P) :
    P (f s.dev) := by
  obtain ⟨t, ht, -, hp⟩ := hp
  rw [h, effect_next] at ht
  obtain rfl := Host.Outcome.next.inj ht
  exact hp

theorem exec_readFifoHighWater_nil : exec (.readFifoHighWater []) s = effect s pumpReads := rfl

theorem exec_dataFieldEnd_nil {psa : Nat} : exec (.dataFieldEnd psa []) s = effect s fun d => pumpReads (dataFieldEnd psa d) := rfl

/-- A cluster that is off the ladder does not climb. -/
theorem climbOn_of_not_reading {id : Nat} (hfirst : d.reads id = some c) (hoff : c.reading = false) (n : Nat) : climbOn id n d = d := by
  cases n with
  | zero => rfl
  | succ n => simp [climbOn, hfirst, hoff]

/-- A number is settled by the first cluster that bears it: where that one is off the ladder with its wanted sectors settled, its read
ends. -/
theorem settleRead_of_settled {id : Nat} (hfirst : d.reads id = some c) (hoff : c.reading = false) (hopen : c.done = false)
    (hsettled : wantedSettled c = true) :
    settleRead id d = finishRead c.purpose (updRead id (fun c => { c with done := true }) d) := by
  simp [settleRead, climbOn_of_not_reading hfirst hoff, hfirst, hoff, hopen, hsettled]

/-- Deep has nothing to begin while no request waits. -/
theorem deepNext_of_no_request (hqueue : d.rdc.deepQueue = []) (n : Nat) : deepNext n d = d := by
  cases n with
  | zero => rfl
  | succ n => simp [deepNext, hqueue]

/-- One cluster is on the ladder, and another one that bears its number comes first, with its wanted sectors settled: the other one's read
ends. -/
theorem pumpReads_of_settled {w : LadderCluster} (hladder : d.rdc.clusters.filter (·.reading) = [w]) (hfirst : d.reads w.id = some c)
    (hoff : c.reading = false) (hopen : c.done = false) (hsettled : wantedSettled c = true)
    (hqueue : (finishRead c.purpose (updRead w.id (fun c => { c with done := true }) d)).rdc.deepQueue = []) :
    pumpReads d = finishRead c.purpose (updRead w.id (fun c => { c with done := true }) d) := by
  rw [pumpReads, hladder, List.foldl_cons, List.foldl_nil, settleRead_of_settled hfirst hoff hopen hsettled]
  exact deepNext_of_no_request hqueue _

theorem noteBound_of_none {i : Nat} (h : tapsAtBound d d.rdc.taps = []) : noteBound c i d = d := by
  simp [noteBound, h]

/-- A whole data field without too many erasures goes to the Fast path (R121): the sector is stored in the first cluster that bears the
number. -/
theorem dataFieldEnd_stores {psa i : Nat} {x : StoreSlot}
    (hframe : frameRead d psa (fun c i => c.reading && sectorAt c i = .unread) = some (c, i))
    (hslot : d.rdc.store.find? (fun x => x.psa = psa) = some x) (hwhole : 55488 ≤ 8 * x.entries.length)
    (herased : erasedCode (erasedBits x.entries) ≤ d.regF 0xA004 29 16) (htaps : tapsAtBound d d.rdc.taps = []) :
    dataFieldEnd psa d = updRead c.id (putSector i .stored) d := by
  have hin : ¬ 8 * x.entries.length < fieldBits := Nat.not_lt.2 hwhole
  simp only [dataFieldEnd, hframe, hslot, if_neg hin, noteBound_of_none htaps, if_neg (Nat.not_lt.2 herased)]

end

/-! ### A refill that is served and a read that waits, both numbered 0 -/

/-- A cluster read to refill a cache line: its one wanted sector is verified, and nothing has ended the read yet. -/
def servedRefill : LadderCluster :=
  { id := 0, loc := ⟨0, 0, 0⟩, purpose := .refill (psaOf ⟨0, 0, 0⟩ 0) 0, parts := [(0, 0, 4096)]
    psas := (List.range 18).map (psaOf ⟨0, 0, 0⟩), sectors := [(0, .verified [] [])] }

/-- A cluster on the ladder for a host command, all its sectors still to be read. -/
def waitingRead : LadderCluster :=
  { id := 0, loc := ⟨0, 0, 1⟩, purpose := .host 0, parts := [(0, 4096, 4096)], psas := (List.range 18).map (psaOf ⟨0, 0, 1⟩)
    reading := true }

/-- The frame of sector 1 of `waitingRead`. -/
def waitingPsa : Nat := psaOf ⟨0, 0, 1⟩ 1

/-- `n` entries of the data field of frame `psa`, without erasures. -/
def blankField (psa n : Nat) : StoreSlot := { psa := psa, entries := List.replicate n 0 }

@[simp] theorem blankField_psa {psa n : Nat} : (blankField psa n).psa = psa := rfl

@[simp] theorem blankField_length {psa n : Nat} : (blankField psa n).entries.length = n := List.length_replicate

/-- The whole data field of that frame. -/
def wholeField : StoreSlot := blankField waitingPsa 6936

/-- The two clusters bear one number, and the data field of the second has come. -/
def oneNumber : State :=
  { pending := [], dev := { rdc := { clusters := [servedRefill, waitingRead], store := [wholeField] } } }

theorem oneNumber_rests : LadderRests oneNumber.dev := by
  unfold LadderRests
  decide

/-- The number of the cluster that waits is settled, and with it the refill ends. -/
theorem pumpReads_ends_refill : (pumpReads oneNumber.dev).rdc.clusters = [waitingRead] := by
  rw [pumpReads_of_settled (c := servedRefill) (w := waitingRead) rfl rfl rfl rfl (by decide) (by decide +kernel)]
  decide +kernel

/-- A sector that is noted as stored is noted on the refill, which then ends. -/
theorem pumpReads_loses_note : (pumpReads (updRead 0 (putSector 1 .stored) oneNumber.dev)).reads 0 = some waitingRead := by
  rw [pumpReads_of_settled (c := putSector 1 .stored servedRefill) (w := waitingRead) rfl rfl rfl rfl (by decide) (by decide +kernel)]
  decide +kernel

theorem frameRead_oneNumber :
    frameRead oneNumber.dev waitingPsa (fun c i => c.reading && sectorAt c i = .unread) = some (waitingRead, 1) := by
  decide +kernel

theorem wholeField_psa : wholeField.psa = waitingPsa := blankField_psa

theorem wholeField_length : 55488 ≤ 8 * wholeField.entries.length := by
  rw [wholeField, blankField_length]

theorem wholeField_unerased : erasedCode (erasedBits wholeField.entries) ≤ oneNumber.dev.regF 0xA004 29 16 := by
  decide +kernel

/-- Refutes O11: its fourth clause has READ_FIFO_HIGH_WATER leave a read channel at rest as its flow does, but in `oneNumber`, where two
clusters bear one number, it ends the refill. -/
theorem not_readSamplesArriveOrAreLost : ¬ Obligations.ReadSamplesArriveOrAreLost := by
  rintro ⟨-, -, -, hflow, -⟩
  have hkept : pumpReads oneNumber.dev = oneNumber.dev :=
    holds_of_completes exec_readFifoHighWater_nil (hflow oneNumber [] oneNumber.dev rfl oneNumber_rests)
  have hclusters := pumpReads_ends_refill
  rw [hkept] at hclusters
  cases hclusters

/-- Refutes O12: its first clause has every sector whose data field is whole stored in its cluster, but in `oneNumber`, where two clusters
bear one number, the other one takes the note and leaves, and the sector is still unread. -/
theorem not_recoveryLadderAndDeepDecoding : ¬ Obligations.RecoveryLadderAndDeepDecoding := by
  rintro ⟨⟨hstore, -⟩, -⟩
  have htaps : tapsAtBound oneNumber.dev oneNumber.dev.rdc.taps = [] := by decide
  have hslot : oneNumber.dev.rdc.store.find? (fun x => x.psa = waitingPsa) = some wholeField := by
    simp [oneNumber, wholeField_psa]
  have hfield : dataFieldEnd waitingPsa oneNumber.dev = updRead 0 (putSector 1 .stored) oneNumber.dev :=
    dataFieldEnd_stores frameRead_oneNumber hslot wholeField_length wholeField_unerased htaps
  obtain ⟨hstored, -⟩ := holds_of_completes exec_dataFieldEnd_nil (hstore oneNumber waitingPsa [] oneNumber.dev waitingRead 1 wholeField rfl
    frameRead_oneNumber hslot wholeField_length wholeField_unerased htaps oneNumber_rests)
  rw [hfield] at hstored
  cases hstored waitingRead pumpReads_loses_note

end Sys2Proof.Machine
end

section
/-!
PROOFS. LASER_MAX after its first write: what R143 keeps of it, which every operation of the model but a write of LASER_MAX leaves as it is,
and the obligation that follows.

The lemmas `ceiling_f` say it of the operation `f`, for `simp`; the operations of a power-on, which starts anew, have none.
-/

namespace Sys2Proof.Machine

set_option Elab.async false

/-! ### What R143 keeps -/

/-- What R143 keeps of LASER_MAX: whether it has been written, and its value. -/
def ceiling (d : Device) : Bool × Nat := (d.wrc.maxWritten, laserMax d)

@[simp] theorem ceiling_mk {pacing avs exc servo motion rdc wrc rcl cry cch lath hif icu pwr lsk fio fls evt ecc nv gen bus regs draws} :
    ceiling ⟨pacing, avs, exc, servo, motion, rdc, wrc, rcl, cry, cch, lath, hif, icu, pwr, lsk, fio, fls, evt, ecc, nv, gen, bus, regs,
      draws⟩ =
      (wrc.maxWritten, fld (sget regReset regs 0xB004) 9 0) := rfl

@[simp] theorem ceiling_fold {d : Device} : (d.wrc.maxWritten, fld (sget regReset d.regs 0xB004) 9 0) = ceiling d := rfl

@[simp] theorem ceiling_ite {c : Prop} [Decidable c] {d e : Device} : ceiling (if c then d else e) = if c then ceiling d else ceiling e :=
  apply_ite ceiling c d e

@[simp] theorem ceiling_foldl {α : Type} {f : Device → α → Device} {l : List α} {d : Device} (hf : ∀ d a, ceiling (f d a) = ceiling d) :
    ceiling (l.foldl f d) = ceiling d := by
  induction l generalizing d with
  | nil => rfl
  | cons a l ih => exact ih.trans (hf d a)

@[simp] theorem ceiling_foldlPair {α β : Type} {f : β × Device → α → β × Device} {l : List α} {p : β × Device}
    (hf : ∀ p a, ceiling (f p a).2 = ceiling p.2) : ceiling (l.foldl f p).2 = ceiling p.2 := by
  induction l generalizing p with
  | nil => rfl
  | cons a l ih => exact ih.trans (hf p a)

theorem ceiling_foldl_mem {α : Type} {f : Device → α → Device} {l : List α} {d : Device} (hf : ∀ a ∈ l, ∀ d, ceiling (f d a) = ceiling d) :
    ceiling (l.foldl f d) = ceiling d := by
  induction l generalizing d with
  | nil => rfl
  | cons a l ih => exact (ih fun b hb => hf b (List.mem_cons_of_mem a hb)).trans (hf a List.mem_cons_self d)

/-- What an operation answers beside a value. -/
theorem ceiling_snd {β : Type} {p : β × Device} {b : β} {d e : Device} (h : p = (b, e)) (hp : ceiling p.2 = ceiling d) :
    ceiling e = ceiling d := by
  rw [← hp, h]

theorem ceiling_if {c : Prop} [Decidable c] {d e f : Device} (hd : ceiling d = ceiling f) (he : ceiling e = ceiling f) :
    ceiling (if c then d else e) = ceiling f := by
  split
  · exact hd
  · exact he

@[simp] theorem ceiling_setReg {o : Nat} {v : Word32} {d : Device} (h : o ≠ 0xB004) : ceiling (setReg o v d) = ceiling d := by
  simp only [ceiling, laserMax, Device.regF, setReg_reg_ne o v d 0xB004 h.symm]
  rfl

@[simp] theorem ceiling_setRegF {o hi lo v : Nat} {d : Device} (h : o ≠ 0xB004) : ceiling (setRegF o hi lo v d) = ceiling d :=
  ceiling_setReg h

@[simp] theorem ceiling_countN {o n : Nat} {d : Device} (h : o ≠ 0xB004) : ceiling (countN o n d) = ceiling d := ceiling_setReg h

@[simp] theorem ceiling_count {o : Nat} {d : Device} (h : o ≠ 0xB004) : ceiling (count o d) = ceiling d := ceiling_setReg h

@[simp] theorem ceiling_countF {o hi lo : Nat} {d : Device} (h : o ≠ 0xB004) : ceiling (countF o hi lo d) = ceiling d := ceiling_setReg h

@[simp] theorem ceiling_latchReg {o : Nat} {w : Word32} {d : Device} (h : o ≠ 0xB004) : ceiling (latchReg o w d) = ceiling d :=
  ceiling_setReg h

@[simp] theorem ceiling_updWrc {f : WriteChannel → WriteChannel} {d : Device} (h : ∀ w, (f w).maxWritten = w.maxWritten) :
    ceiling (updWrc f d) = ceiling d := by
  simp only [ceiling, updWrc, h]
  rfl

theorem ceiling_delivering {d e : Device} (h : Delivering d e) : ceiling e = ceiling d := by
  obtain ⟨⟨i, b, r, rfl⟩, -, hr, -⟩ := h
  simp only [ceiling, laserMax, Device.regF, hr 0xB004 (by decide)]

@[simp] theorem ceiling_updSrc {k : Nat} {f : Src → Src} {d : Device} : ceiling (updSrc k f d) = ceiling d := rfl

@[simp] theorem ceiling_deliver {d : Device} : ceiling (deliver d) = ceiling d := ceiling_delivering (deliver_delivering d)

@[simp] theorem ceiling_hostDeliver {n : Nat} {d : Device} : ceiling (hostDeliver n d) = ceiling d :=
  ceiling_delivering (hostDeliver_delivering n d)

@[simp] theorem ceiling_raise {s : Nat} {d : Device} : ceiling (raise s d) = ceiling d := by
  rcases raise_spec s d with ⟨-, e⟩ | ⟨-, g⟩
  · rw [e]
    rfl
  · exact (ceiling_delivering g).trans ceiling_updSrc

@[simp] theorem ceiling_setLevel {s : Nat} {v : Bool} {d : Device} : ceiling (setLevel s v d) = ceiling d := by
  rcases setLevel_spec s v d with ⟨-, e⟩ | ⟨-, -, e⟩ | ⟨-, -, g⟩
  · rw [e]
    rfl
  · rw [e]
  · exact (ceiling_delivering g).trans ceiling_updSrc

@[simp] theorem ceiling_leaveRetention {d : Device} : ceiling (leaveRetention d) = ceiling d := by
  unfold leaveRetention
  split
  · have h {p} {d : Device} : ceiling (unlatch p d) = ceiling d := by
      unfold unlatch
      split <;> rfl
    simp [h]
  · rfl

section
variable {d e : Device}

/-! ### The definitions of Sys2Proof/Machine/Ops.lean -/

@[simp] theorem ceiling_onlyIf {b : Bool} {f : Device → Device} (hf : b = true → ceiling (f d) = ceiling d) :
    ceiling (onlyIf b f d) = ceiling d := by
  unfold onlyIf
  split
  · exact hf ‹_›
  · rfl

@[simp] theorem ceiling_msixSignal {v : Nat} : ceiling (msixSignal v d) = ceiling d := by simp [msixSignal]

@[simp] theorem ceiling_msixFlush1 {v : Nat} : ceiling (msixFlush1 v d) = ceiling d := by simp [msixFlush1]

@[simp] theorem ceiling_msixFlush : ceiling (msixFlush d) = ceiling d := by simp [msixFlush]

@[simp] theorem ceiling_lateCount {t : Nat} {x : Src} : ceiling (lateCount t x d) = ceiling d := by simp [lateCount]

@[simp] theorem ceiling_applyChange {c : MaskChange} : ceiling (applyChange c d) = ceiling d := by
  unfold applyChange
  split <;> simp

@[simp] theorem ceiling_settleIcu : ceiling (settleIcu d) = ceiling d := by simp [settleIcu]

@[simp] theorem ceiling_logExcursion_addEntry {l i : Nat} {v : Word32} : ceiling (logExcursion.addEntry l i v d) = ceiling d := rfl

@[simp] theorem ceiling_logExcursion {l i : Nat} {v : Word32} : ceiling (logExcursion l i v d) = ceiling d := by
  unfold logExcursion
  split
  · split <;> simp
  · simp

@[simp] theorem ceiling_markOverride : ceiling (markOverride d) = ceiling d := by simp [markOverride]

@[simp] theorem ceiling_excBegin {l i : Nat} {v : Word32} : ceiling (excBegin l i v d) = ceiling d := by simp [excBegin]

@[simp] theorem ceiling_excReach {l i : Nat} {v : Word32} : ceiling (excReach l i v d) = ceiling d := by simp [excReach]

@[simp] theorem ceiling_logLater {tick origin source code : Nat} {detail : List Byte} :
    ceiling (logLater tick origin source code detail d) = ceiling d := by
  simp [logLater]

@[simp] theorem ceiling_copyClosed {l i : Nat} : ceiling (copyClosed l i d) = ceiling d := by
  unfold copyClosed
  split <;> simp

@[simp] theorem ceiling_excEnd {l i : Nat} : ceiling (excEnd l i d) = ceiling d := by simp [excEnd]

@[simp] theorem ceiling_excFor {l op : Nat} : ceiling (excFor l op d) = ceiling d := by simp [excFor]

@[simp] theorem ceiling_excTake {l i : Nat} {v : Word32} : ceiling (excTake l i v d) = ceiling d := by simp [excTake]

/-! ### The definitions of Sys2Proof/Machine/Completion.lean -/

@[simp] theorem ceiling_updCmd {tag : Nat} {f : Cmd → Cmd} : ceiling (updCmd tag f d) = ceiling d := by simp [updCmd]

@[simp] theorem ceiling_startCmd {tag : Nat} : ceiling (startCmd tag d) = ceiling d := rfl

@[simp] theorem ceiling_setPhase {tag : Nat} {p : CmdPhase} : ceiling (setPhase tag p d) = ceiling d := rfl

@[simp] theorem ceiling_readOver : ceiling (readOver d) = ceiling d := by simp [readOver]

@[simp] theorem ceiling_dropReads {p : ReadFor → Bool} : ceiling (dropReads p d) = ceiling d := by simp [dropReads]

@[simp] theorem ceiling_finishWith {tag st result : Nat} {single : Bool} {mark : Nat} :
    ceiling (finishWith tag st result single mark d) = ceiling d := by
  unfold finishWith
  split <;> simp

@[simp] theorem ceiling_finish {tag st : Nat} : ceiling (finish tag st d) = ceiling d := by simp [finish]

@[simp] theorem ceiling_finishOk {tag result : Nat} : ceiling (finishOk tag result d) = ceiling d := by simp [finishOk]

@[simp] theorem ceiling_dropCmd {tag : Nat} : ceiling (dropCmd tag d) = ceiling d := by simp [dropCmd]

@[simp] theorem ceiling_deliverData {tag off : Nat} {data : List Byte} : ceiling (deliverData tag off data d) = ceiling d := by
  unfold deliverData
  split <;> simp

@[simp] theorem ceiling_updSq {n : Nat} {f : Sq → Sq} : ceiling (updSq n f d) = ceiling d := by simp [updSq]

@[simp] theorem ceiling_updCq {n : Nat} {f : Cq → Cq} : ceiling (updCq n f d) = ceiling d := by simp [updCq]

@[simp] theorem ceiling_sqError {n err : Nat} : ceiling (sqError n err d) = ceiling d := by simp [sqError]

@[simp] theorem ceiling_cqError {n err : Nat} : ceiling (cqError n err d) = ceiling d := by simp [cqError]

@[simp] theorem ceiling_finishAll {p : Cmd → Bool} {st : Nat} : ceiling (finishAll p st d) = ceiling d := by simp [finishAll]

@[simp] theorem ceiling_failMedium : ceiling (failMedium d) = ceiling d := by simp [failMedium]

/-! ### The definitions of Sys2Proof/Machine/Guards.lean -/

@[simp] theorem ceiling_lockedWrite : ceiling (lockedWrite d) = ceiling d := by simp [lockedWrite]

@[simp] theorem ceiling_onBus {who : Requester} {f : Device → Device} (hf : ∀ e, ceiling (f e) = ceiling e) :
    ceiling (onBus who f d) = ceiling d := by
  simp [onBus, hf]

@[simp] theorem ceiling_gate {who : Requester} {o : Nat} {hostOk : Bool} {f : Device → Device} (hf : ∀ e, ceiling (f e) = ceiling e) :
    ceiling (gate who o hostOk f d) = ceiling d := by
  unfold gate
  split <;> simp [hf]

@[simp] theorem ceiling_laserLevel {level : Nat} : ceiling (laserLevel level d) = ceiling d := by simp [laserLevel]

@[simp] theorem ceiling_laserOff : ceiling (laserOff d) = ceiling d := by simp [laserOff]

@[simp] theorem ceiling_laserToRead : ceiling (laserToRead d) = ceiling d := by simp [laserToRead]

@[simp] theorem ceiling_updLoop {n : Nat} {f : Machine.Loop → Machine.Loop} : ceiling (updLoop n f d) = ceiling d := by simp [updLoop]

@[simp] theorem ceiling_endWriting : ceiling (endWriting d) = ceiling d := by
  simp only [endWriting]
  repeat' split
  all_goals simp

@[simp] theorem ceiling_cutSector : ceiling (cutSector d) = ceiling d := by
  unfold cutSector
  split <;> simp

@[simp] theorem ceiling_voidPending : ceiling (voidPending d) = ceiling d := by simp [voidPending]

@[simp] theorem ceiling_refreshInhibit : ceiling (refreshInhibit d) = ceiling d := by simp [refreshInhibit]

@[simp] theorem ceiling_updAvs {f : Avs → Avs} : ceiling (updAvs f d) = ceiling d := by simp [updAvs]

@[simp] theorem ceiling_avsPut {code : Nat} : ceiling (avsPut code d) = ceiling d := by simp [avsPut]

@[simp] theorem ceiling_clampAvs : ceiling (clampAvs d) = ceiling d := by simp [clampAvs]

@[simp] theorem ceiling_drawnWide : ceiling (drawnWide d) = ceiling d := by simp [drawnWide]

@[simp] theorem ceiling_drawn : ceiling (drawn d) = ceiling d := by simp [drawn]

/-! ### The definitions of Sys2Proof/Machine/Servo.lean -/

@[simp] theorem ceiling_enginePick : ceiling (enginePick d) = ceiling d := by
  unfold enginePick
  repeat' split
  all_goals simp

@[simp] theorem ceiling_updEngine {n : Nat} {f : ServoJob → ServoJob} : ceiling (updEngine n f d) = ceiling d := by simp [updEngine]

@[simp] theorem ceiling_voidJob {n : Nat} : ceiling (voidJob n d) = ceiling d := rfl

@[simp] theorem ceiling_putLive {n : Nat} {ws : List Word32} (h : n < 4) : ceiling (putLive n ws d) = ceiling d := by
  have hne : ∀ k ∈ List.range 19, 0x8000 + 0x200 * n + 4 * k ≠ 0xB004 := by
    intro k hk
    have := List.mem_range.1 hk
    omega
  unfold putLive
  generalize List.range 19 = l at hne
  induction l generalizing d with
  | nil => rfl
  | cons k l ih =>
    exact (ih fun j hj => hne j (List.mem_cons_of_mem k hj)).trans (ceiling_setReg (hne k List.mem_cons_self))

@[simp] theorem ceiling_loadShadow {n : Nat} (h : n < 4) : ceiling (loadShadow n d) = ceiling d := by simp [loadShadow, h]

@[simp] theorem ceiling_afterClose {n : Nat} : ceiling (afterClose n d) = ceiling d := by simp [afterClose]

@[simp] theorem ceiling_afterLeave {n : Nat} : ceiling (afterLeave n d) = ceiling d := by simp [afterLeave]

@[simp] theorem ceiling_closeLoop {n : Nat} (h : n < 4) : ceiling (closeLoop n d) = ceiling d := by simp [closeLoop, h]

@[simp] theorem ceiling_openLoop {n : Nat} : ceiling (openLoop n d) = ceiling d := by simp [openLoop]

@[simp] theorem ceiling_acquireLoop {n : Nat} : ceiling (acquireLoop n d) = ceiling d := by simp [acquireLoop]

@[simp] theorem ceiling_holdLoop {n : Nat} : ceiling (holdLoop n d) = ceiling d := by simp [holdLoop]

@[simp] theorem ceiling_recloseLoop {n : Nat} (h : n < 4) : ceiling (recloseLoop n d) = ceiling d := by simp [recloseLoop, h]

@[simp] theorem ceiling_holdTimeoutLoop {n : Nat} (h : n < 4) : ceiling (holdTimeoutLoop n d) = ceiling d := by
  have : 0x8000 + 0x200 * n + 0x118 ≠ 0xB004 := by omega
  simp [holdTimeoutLoop, h, this]

@[simp] theorem ceiling_applyLoopCmd {n : Nat} {c : LoopCmd} (h : n < 4) : ceiling (applyLoopCmd n c d) = ceiling d := by
  unfold applyLoopCmd
  split
  · rfl
  · split <;> simp [h]

@[simp] theorem ceiling_dropTaken {n : Nat} : ceiling (dropTaken n d) = ceiling d := by simp [dropTaken]

@[simp] theorem ceiling_putLoopCmd {n : Nat} {c : LoopCmd} : ceiling (putLoopCmd n c d) = ceiling d := by simp [putLoopCmd]

@[simp] theorem ceiling_setSpeed {fast : Bool} : ceiling (setSpeed fast d) = ceiling d := by simp [setSpeed]

@[simp] theorem ceiling_scriptTo {k : ScriptKind} {p : ScriptStep} : ceiling (scriptTo k p d) = ceiling d := by simp [scriptTo]

@[simp] theorem ceiling_laserBegin : ceiling (laserBegin d) = ceiling d := by simp [laserBegin]

@[simp] theorem ceiling_startAcquisition {l : Nat} : ceiling (startAcquisition l d) = ceiling d := by simp [startAcquisition]

@[simp] theorem ceiling_flipGear {l : Nat} : ceiling (flipGear l d) = ceiling d := by simp [flipGear]

@[simp] theorem ceiling_startJump {l : Nat} : ceiling (startJump l d) = ceiling d := by simp [startJump]

@[simp] theorem ceiling_runScript : ceiling (runScript d) = ceiling d := by
  unfold runScript
  repeat' split
  all_goals simp

@[simp] theorem ceiling_acquisitionFailed : ceiling (acquisitionFailed d) = ceiling d := by simp [acquisitionFailed]

@[simp] theorem ceiling_layerConfirmed {l : Nat} : ceiling (layerConfirmed l d) = ceiling d := by simp [layerConfirmed]

@[simp] theorem ceiling_attemptFailed {l : Nat} {on : Option Nat} : ceiling (attemptFailed l on d) = ceiling d := by simp [attemptFailed]

@[simp] theorem ceiling_acqTimeoutLoop {n : Nat} : ceiling (acqTimeoutLoop n d) = ceiling d := by
  simp only [acqTimeoutLoop]
  repeat' split
  all_goals simp

@[simp] theorem ceiling_focusLossLoop : ceiling (focusLossLoop d) = ceiling d := by simp [focusLossLoop]

@[simp] theorem ceiling_acquireSample {n : Nat} {x : ServoSample} : ceiling (acquireSample n x d) = ceiling d := by simp [acquireSample]

@[simp] theorem ceiling_closedSample {n : Nat} {x : ServoSample} : ceiling (closedSample n x d) = ceiling d := by simp [closedSample]

@[simp] theorem ceiling_beforeSample {n : Nat} (h : n < 4) : ceiling (beforeSample n d) = ceiling d := by
  simp only [beforeSample]
  split <;> simp [h]

@[simp] theorem ceiling_afterSpindle {n : Nat} : ceiling (afterSpindle n d) = ceiling d := by simp [afterSpindle]

@[simp] theorem ceiling_sampleLoop {n : Nat} {x : ServoSample} (h : n < 4) : ceiling (sampleLoop n x d) = ceiling d := by
  unfold sampleLoop
  extract_lets d₁ d₂ d₃
  have h₂ : ceiling d₂ = ceiling d := by simp [d₂, d₁, h]
  have h₃ : ceiling d₃ = ceiling d₂ := by
    simp only [d₃]
    split <;> simp
  simp [h₃, h₂]

@[simp] theorem ceiling_noteSlack {v : Int} : ceiling (noteSlack v d) = ceiling d := by simp [noteSlack]

@[simp] theorem ceiling_finishJob {n eighths : Nat} {j : ServoJob} : ceiling (finishJob n eighths j d) = ceiling d := by simp [finishJob]

@[simp] theorem ceiling_computeDone {n eighths : Nat} : ceiling (computeDone n eighths d) = ceiling d := by
  simp only [computeDone]
  repeat' split
  all_goals simp

@[simp] theorem ceiling_loopCommand {who : Requester} {n : Nat} {c : LoopCmd} : ceiling (loopCommand who n c d) = ceiling d := by
  simp [loopCommand]

@[simp] theorem ceiling_rejectCoef {n : Nat} : ceiling (rejectCoef n d) = ceiling d := by
  have : 0x8000 + 0x200 * n + 0x118 ≠ 0xB004 := by omega
  simp [rejectCoef, this]

@[simp] theorem ceiling_endActive {t : Nat} :
    ceiling (endActive t d) = ceiling d := ceiling_deliver.trans (ceiling_foldl fun _ _ => ceiling_updSrc)

@[simp] theorem ceiling_openUnclosed : ceiling (openUnclosed d) = ceiling d := by simp [openUnclosed]

/-! ### The definitions of Sys2Proof/Machine/Sled.lean -/

@[simp] theorem ceiling_updMotion {f : Motion → Motion} : ceiling (updMotion f d) = ceiling d := by simp [updMotion]

@[simp] theorem ceiling_rejectMotion : ceiling (rejectMotion d) = ceiling d := by simp [rejectMotion]

@[simp] theorem ceiling_withPlan {p : Plan} : ceiling (withPlan p d) = ceiling d := by simp [withPlan]

@[simp] theorem ceiling_startRamp {cause : Nat} {after : MotionState} : ceiling (startRamp cause after d) = ceiling d := by simp [startRamp]

@[simp] theorem ceiling_innerRamp : ceiling (innerRamp d) = ceiling d := by simp [innerRamp]

@[simp] theorem ceiling_startHome {after : AfterHome} : ceiling (startHome after d) = ceiling d := by simp [startHome]

@[simp] theorem ceiling_startMove {goal : Int} {park : Bool} : ceiling (startMove goal park d) = ceiling d := by simp [startMove]

@[simp] theorem ceiling_startUnhomedPark : ceiling (startUnhomedPark d) = ceiling d := by simp [startUnhomedPark]

@[simp] theorem ceiling_doPark : ceiling (doPark d) = ceiling d := by
  unfold doPark
  split <;> simp

@[simp] theorem ceiling_parkDrive : ceiling (parkDrive d) = ceiling d := by simp [parkDrive]

@[simp] theorem ceiling_brakeDrive : ceiling (brakeDrive d) = ceiling d := by simp [brakeDrive]

@[simp] theorem ceiling_parkStep : ceiling (parkStep d) = ceiling d := by simp [parkStep]

@[simp] theorem ceiling_doMove : ceiling (doMove d) = ceiling d := by simp [doMove]

@[simp] theorem ceiling_doEngage : ceiling (doEngage d) = ceiling d := by simp [doEngage]

@[simp] theorem ceiling_disengage : ceiling (disengage d) = ceiling d := by simp [disengage]

@[simp] theorem ceiling_softLimitStop : ceiling (softLimitStop d) = ceiling d := by simp [softLimitStop]

@[simp] theorem ceiling_parkDone : ceiling (parkDone d) = ceiling d := by simp [parkDone]

@[simp] theorem ceiling_seekDone : ceiling (seekDone d) = ceiling d := by
  unfold seekDone
  split <;> simp

@[simp] theorem ceiling_moveDone : ceiling (moveDone d) = ceiling d := by simp [moveDone]

@[simp] theorem ceiling_afterHoming : ceiling (afterHoming d) = ceiling d := by
  simp only [afterHoming]
  repeat' split
  all_goals simp

@[simp] theorem ceiling_pumpHoming : ceiling (pumpHoming d) = ceiling d := by
  unfold pumpHoming
  split
  · simp
  · split <;> simp

@[simp] theorem ceiling_switchRest {src : Nat} : ceiling (switchRest src d) = ceiling d := by simp [switchRest]

@[simp] theorem ceiling_parkNext : ceiling (parkNext d) = ceiling d := by simp [parkNext]

@[simp] theorem ceiling_rampAtRest : ceiling (rampAtRest d) = ceiling d := by
  simp only [rampAtRest]
  repeat' split
  all_goals simp

@[simp] theorem ceiling_switchStop {outer : Bool} : ceiling (switchStop outer d) = ceiling d := by simp [switchStop]

@[simp] theorem ceiling_parkEdge : ceiling (parkEdge d) = ceiling d := by simp [parkEdge]

@[simp] theorem ceiling_homingEdge {on : Bool} : ceiling (homingEdge on d) = ceiling d := by
  unfold homingEdge
  split <;> simp

@[simp] theorem ceiling_homeChange {act : Bool} : ceiling (homeChange act d) = ceiling d := by
  unfold homeChange
  split <;> simp

@[simp] theorem ceiling_switchChange {outer level : Bool} : ceiling (switchChange outer level d) = ceiling d := by simp [switchChange]

@[simp] theorem ceiling_gearCount : ceiling (gearCount d) = ceiling d := by simp [gearCount]

@[simp] theorem ceiling_measureEdge {t : Nat} : ceiling (measureEdge t d) = ceiling d := by
  unfold measureEdge
  split <;> simp

@[simp] theorem ceiling_encoderCount {t : Nat} : ceiling (encoderCount t d) = ceiling d := by simp [encoderCount]

@[simp] theorem ceiling_setTrim {t : Int} : ceiling (setTrim t d) = ceiling d := by simp [setTrim]

@[simp] theorem ceiling_clampTrim : ceiling (clampTrim d) = ceiling d := by simp [clampTrim]

@[simp] theorem ceiling_liftTrim {want : Int} {b : Int × Int} : ceiling (liftTrim want b d) = ceiling d := by simp [liftTrim]

@[simp] theorem ceiling_trimUpdate : ceiling (trimUpdate d) = ceiling d := by simp [trimUpdate]

@[simp] theorem ceiling_markLate {n t : Nat} : ceiling (markLate n t d) = ceiling d := by simp [markLate]

@[simp] theorem ceiling_missOutput {n t : Nat} {slack : Int} : ceiling (missOutput n t slack d) = ceiling d := by
  have : 0x8118 + 0x200 * n ≠ 0xB004 := by omega
  simp [missOutput, this]

@[simp] theorem ceiling_applyOutput {n : Nat} {r : ReadyOutput} : ceiling (applyOutput n r d) = ceiling d := by simp [applyOutput]

@[simp] theorem ceiling_dueOutput {n t : Nat} : ceiling (dueOutput n t d) = ceiling d := by
  unfold dueOutput
  split <;> simp

@[simp] theorem ceiling_outputInstant {n : Nat} : ceiling (outputInstant n d) = ceiling d := by
  simp only [outputInstant]
  repeat' split
  all_goals simp

@[simp] theorem ceiling_watchdogExpired : ceiling (watchdogExpired d) = ceiling d := by simp [watchdogExpired]

/-! ### The definitions of Sys2Proof/Machine/Link.lean -/

@[simp] theorem ceiling_updLath {f : Lath → Lath} : ceiling (updLath f d) = ceiling d := by simp [updLath]

@[simp] theorem ceiling_raiseArb : ceiling (raiseArb d) = ceiling d := by simp [raiseArb]

@[simp] theorem ceiling_sendMsg {m : LathMsg} : ceiling (sendMsg m d) = ceiling d := by simp [sendMsg]

@[simp] theorem ceiling_crossWires {m : LathMsg} {cr : Credits} : ceiling (crossWires m cr d) = ceiling d := by simp [crossWires]

@[simp] theorem ceiling_sendOne {m : LathMsg} {rest : List LathMsg} : ceiling (sendOne m rest d) = ceiling d := by simp [sendOne]

@[simp] theorem ceiling_sendTurn {n : Nat} {left : Option Nat} : ceiling (sendTurn n left d) = ceiling d := by
  induction n generalizing left d with
  | zero => rfl
  | succ n ih =>
    unfold sendTurn
    split <;> simp [ih]

@[simp] theorem ceiling_takeTurn {left : Option Nat} : ceiling (takeTurn left d) = ceiling d := by simp [takeTurn]

@[simp] theorem ceiling_freeSlot {isData : Bool} : ceiling (freeSlot isData d) = ceiling d := by simp [freeSlot]

@[simp] theorem ceiling_receive {cr : Credits} {m : LathMsg} {f : Device → Device} (hf : ∀ e, ceiling (f e) = ceiling e) :
    ceiling (receive cr m f d) = ceiling d := by
  simp [receive, hf]

/-! ### The definitions of Sys2Proof/Machine/Cache.lean -/

@[simp] theorem ceiling_updCache {f : Machine.Cache → Machine.Cache} : ceiling (updCache f d) = ceiling d := by simp [updCache]

@[simp] theorem ceiling_putLine {i : Nat} {l : Line} : ceiling (putLine i l d) = ceiling d := by simp [putLine]

@[simp] theorem ceiling_mapLines {p : Line → Bool} {f : Line → Line} : ceiling (mapLines p f d) = ceiling d := by simp [mapLines]

@[simp] theorem ceiling_dropLines {p : Line → Bool} : ceiling (dropLines p d) = ceiling d := by simp [dropLines]

@[simp] theorem ceiling_storeTable {k : Nat} {recs : TableRecs} {poison : BitVec 32} :
    ceiling (storeTable k recs poison d) = ceiling d := by
  simp [storeTable]

@[simp] theorem ceiling_access : ceiling (access d) = ceiling d := rfl

@[simp] theorem ceiling_ageAll : ceiling (ageAll d) = ceiling d := by simp [ageAll]

@[simp] theorem ceiling_chooseLine {cls : Nat} : ceiling (chooseLine cls d).2 = ceiling d := by
  unfold chooseLine
  split
  · simp
  · split <;> simp

@[simp] theorem ceiling_leaveCache {l : Line} : ceiling (leaveCache l d) = ceiling d := by simp [leaveCache]

@[simp] theorem ceiling_pushVictim {l : Line} : ceiling (pushVictim l d) = ceiling d := by
  unfold pushVictim
  repeat' split
  all_goals simp

@[simp] theorem ceiling_replaceLine {i : Nat} {l : Line} : ceiling (replaceLine i l d) = ceiling d := by simp [replaceLine]

@[simp] theorem ceiling_fillLine {l : Line} : ceiling (fillLine l d) = ceiling d := by
  unfold fillLine
  dsimp only
  split
  · simp
  · split <;> rename_i h <;> simp [ceiling_snd h ceiling_chooseLine]

@[simp] theorem ceiling_swapBack {p : Line → Bool} {l : Line} : ceiling (swapBack p l d) = ceiling d := by
  unfold swapBack
  split <;> rename_i h <;> simp [ceiling_snd h ceiling_chooseLine]

@[simp] theorem ceiling_lookup {p : Line → Bool} : ceiling (lookup p d).2 = ceiling d := by
  simp only [lookup]
  repeat' split
  all_goals simp

@[simp] theorem ceiling_fillTable {k : Nat} {c : Coh} : ceiling (fillTable k c d) = ceiling d := by simp [fillTable]

@[simp] theorem ceiling_setCoh {k : Nat} {c : Coh} : ceiling (setCoh k c d) = ceiling d := by simp [setCoh]

@[simp] theorem ceiling_askLine {k : Nat} {exclusive : Bool} : ceiling (askLine k exclusive d) = ceiling d := by simp [askLine]

@[simp] theorem ceiling_obtainLine {k : Nat} {exclusive : Bool} : ceiling (obtainLine k exclusive d).2 = ceiling d := by
  simp only [obtainLine]
  repeat' split
  all_goals simp

@[simp] theorem ceiling_updStream {s : Nat} {f : StreamRec → StreamRec} : ceiling (updStream s f d) = ceiling d := by simp [updStream]

@[simp] theorem ceiling_wakeLine {k : Nat} : ceiling (wakeLine k d) = ceiling d := by simp [wakeLine]

@[simp] theorem ceiling_answerReq_exclusive {k : Nat} {c : Coh} {recs : TableRecs} {poison : BitVec 32} :
    ceiling (answerReq.exclusive k d c recs poison) = ceiling d := by
  unfold answerReq.exclusive
  split <;> simp

@[simp] theorem ceiling_answerReq {k : Nat} {r : CohReq} : ceiling (answerReq k r d) = ceiling d := by
  unfold answerReq
  split
  · simp
  · dsimp only
    split
    · split <;> simp
    · simp
    · simp

@[simp] theorem ceiling_takeRequest {k : Nat} {r : CohReq} : ceiling (takeRequest k r d) = ceiling d := by simp [takeRequest]

@[simp] theorem ceiling_answerDeferred {k : Nat} : ceiling (answerDeferred k d) = ceiling d := by simp [answerDeferred]

@[simp] theorem ceiling_grantLine {k : Nat} {c : Coh} {recs : TableRecs} {poison : BitVec 32} :
    ceiling (grantLine k c recs poison d) = ceiling d := by
  simp [grantLine]

@[simp] theorem ceiling_zeroTable {k : Nat} : ceiling (zeroTable k d) = ceiling d := by simp [zeroTable]

@[simp] theorem ceiling_rangeAlone : ceiling (rangeAlone d) = ceiling d := by
  unfold rangeAlone
  split <;> simp

@[simp] theorem ceiling_abandonCoherence : ceiling (abandonCoherence d) = ceiling d := by simp [abandonCoherence]

@[simp] theorem ceiling_cleanLines : ceiling (cleanLines d).1 = ceiling d := by simp [cleanLines]

@[simp] theorem ceiling_startRange_purge {op : RangeOp} : ceiling (startRange.purge op d) = ceiling d := by simp [startRange.purge]

@[simp] theorem ceiling_startRange {op : RangeOp} : ceiling (startRange op d) = ceiling d := by
  unfold startRange
  split
  · simp
  · simp
  · exact ceiling_updCache.trans ceiling_cleanLines
  · simp

@[simp] theorem ceiling_rangeCommand {op : RangeOp} {code : Nat} : ceiling (rangeCommand op code d) = ceiling d := by simp [rangeCommand]

@[simp] theorem ceiling_fillWaiting : ceiling (fillWaiting d) = ceiling d := by
  unfold fillWaiting
  split
  · rfl
  · split <;> rename_i h <;> simp [ceiling_snd h ceiling_chooseLine]

/-! ### The definitions of Sys2Proof/Machine/Records.lean -/

@[simp] theorem ceiling_updRcl {f : RecordLayer → RecordLayer} : ceiling (updRcl f d) = ceiling d := by simp [updRcl]

@[simp] theorem ceiling_updRing {o : Nat} {f : Machine.Ring → Machine.Ring} : ceiling (updRing o f d) = ceiling d := by simp [updRing]

@[simp] theorem ceiling_updGroup {id : Nat} {f : Machine.Group → Machine.Group} : ceiling (updGroup id f d) = ceiling d := by
  simp [updGroup]

@[simp] theorem ceiling_updSlot {n : Nat} {f : Slot → Slot} : ceiling (updSlot n f d) = ceiling d := by simp [updSlot]

@[simp] theorem ceiling_changeStream {s : Nat} {f : StreamRec → StreamRec} : ceiling (changeStream s f d).2 = ceiling d := by
  unfold changeStream
  split <;> rename_i h <;> simp [ceiling_snd h ceiling_obtainLine]

@[simp] theorem ceiling_runTask {t : TableTask} : ceiling (runTask t d) = ceiling d := by
  unfold runTask
  split <;> rename_i h <;> simp [ceiling_snd h ceiling_changeStream]

@[simp] theorem ceiling_runTasks : ceiling (runTasks d) = ceiling d := by simp [runTasks]

@[simp] theorem ceiling_nameNext {o : Nat} : ceiling (nameNext o d) = ceiling d := by
  simp only [nameNext]
  repeat' split
  all_goals simp

@[simp] theorem ceiling_useSpare {l : Loc} {p : Nat} : ceiling (useSpare l p d) = ceiling d := by simp [useSpare]

@[simp] theorem ceiling_useSparesTo {layer zone e : Nat} : ceiling (useSparesTo layer zone e d) = ceiling d := by simp [useSparesTo]

@[simp] theorem ceiling_noteMove {a b : Loc} : ceiling (noteMove a b d) = ceiling d := by simp [noteMove]

@[simp] theorem ceiling_movePieces {a b : Loc} : ceiling (movePieces a b d) = ceiling d := by simp [movePieces]

@[simp] theorem ceiling_takeId : ceiling (takeId d) = ceiling d := by simp [takeId]

@[simp] theorem ceiling_queueCluster {c : WriteCluster} : ceiling (queueCluster c d) = ceiling d := by simp [queueCluster]

@[simp] theorem ceiling_systemCluster {kind : ClusterKind} {data : List Byte} {dir : Sparse DirSlot} {rings : List DirRing} :
    ceiling (systemCluster kind data dir rings d).2 = ceiling d := by
  simp [systemCluster]

@[simp] theorem ceiling_writeDirectory : ceiling (writeDirectory d).2 = ceiling d := rfl

@[simp] theorem ceiling_locatePieces {id : Nat} {l : Loc} : ceiling (locatePieces id l d) = ceiling d := by simp [locatePieces]

@[simp] theorem ceiling_placeCheckpoint {o : Nat} {z : Zone} : ceiling (placeCheckpoint o z d) = ceiling d := by simp [placeCheckpoint]

@[simp] theorem ceiling_placeData {o : Nat} {z : Zone} {c : WriteCluster} : ceiling (placeData o z c d) = ceiling d := by simp [placeData]

@[simp] theorem ceiling_placeCluster {o : Nat} {c : WriteCluster} : ceiling (placeCluster o c d) = ceiling d := by
  simp only [placeCluster]
  repeat' split
  all_goals simp

@[simp] theorem ceiling_placeWaiting {o : Nat} : ceiling (placeWaiting o d) = ceiling d := by simp [placeWaiting]

@[simp] theorem ceiling_closeAssembly {o : Nat} : ceiling (closeAssembly o d) = ceiling d := by
  unfold closeAssembly
  split <;> simp

@[simp] theorem ceiling_openAssembly {o : Nat} : ceiling (openAssembly o d).2 = ceiling d := by
  unfold openAssembly
  split <;> simp

@[simp] theorem ceiling_layBytes {o gid stream seq n : Nat} {first cont : Bool} {start : Nat} {bs : List Byte} :
    ceiling (layBytes o gid stream seq n first cont start bs d) = ceiling d := by
  induction n generalizing first cont start bs d with
  | zero => rfl
  | succ n ih =>
    unfold layBytes
    split
    · rfl
    · split
      rename_i h
      have he := ceiling_snd h ceiling_openAssembly
      simp [ih, he]

@[simp] theorem ceiling_endGroup {o gid : Nat} : ceiling (endGroup o gid d) = ceiling d := by
  unfold endGroup
  split
  · simp
  · split <;> simp

@[simp] theorem ceiling_closeIfDue {o : Nat} : ceiling (closeIfDue o d) = ceiling d := by
  unfold closeIfDue
  split <;> simp

@[simp] theorem ceiling_placeGroup {o gid : Nat} : ceiling (placeGroup o gid d) = ceiling d := by
  unfold placeGroup
  split <;> simp

@[simp] theorem ceiling_rechain {stream : Nat} : ceiling (rechain stream d) = ceiling d := ceiling_foldlPair fun _ _ => ceiling_updGroup

@[simp] theorem ceiling_addGroup {stream owner first : Nat} {recs : List RecInfo} {bytes : List Byte} {role : GroupRole} :
    ceiling (addGroup stream owner first recs bytes role d).2 = ceiling d := by
  simp [addGroup]

@[simp] theorem ceiling_sendGroup {xid : Nat} {catching : Bool} {mark : Nat} {g : Machine.Group} {bs : List Byte} {poison : BitVec 32} :
    ceiling (sendGroup xid catching mark g bs poison d) = ceiling d := by
  simp [sendGroup]

@[simp] theorem ceiling_pumpMirror {n : Nat} : ceiling (pumpMirror n d) = ceiling d := by
  induction n generalizing d with
  | zero => rfl
  | succ n ih =>
    unfold pumpMirror
    split <;> simp [ih]

@[simp] theorem ceiling_closeXid {xid : Nat} : ceiling (closeXid xid d) = ceiling d := by simp [closeXid]

@[simp] theorem ceiling_voidGroup {id : Nat} : ceiling (voidGroup id d) = ceiling d := by
  unfold voidGroup
  split <;> simp

@[simp] theorem ceiling_completeGroup {g : Machine.Group} : ceiling (completeGroup g d) = ceiling d := by
  unfold completeGroup
  split <;> simp

@[simp] theorem ceiling_notePeerHead {g : Machine.Group} : ceiling (notePeerHead g d) = ceiling d := by
  unfold notePeerHead
  split <;> simp

@[simp] theorem ceiling_commitGroup {g : Group} : ceiling (commitGroup g d).2 = ceiling d := by
  unfold commitGroup
  split <;> rename_i h <;> simp [ceiling_snd h ceiling_changeStream]

@[simp] theorem ceiling_payGroup {g : Machine.Group} : ceiling (payGroup d g) = ceiling d := by
  unfold payGroup
  split <;> simp

@[simp] theorem ceiling_payOwed : ceiling (payOwed d) = ceiling d := by simp [payOwed]

@[simp] theorem ceiling_commitReady {n : Nat} : ceiling (commitReady n d) = ceiling d := by
  induction n generalizing d with
  | zero => simp [commitReady]
  | succ n ih =>
    unfold commitReady
    dsimp only
    split
    · simp
    · split <;> rename_i h <;> simp [ih, ceiling_snd h ceiling_commitGroup]

@[simp] theorem ceiling_settleGroups : ceiling (settleGroups d) = ceiling d := by simp [settleGroups]

@[simp] theorem ceiling_listGap {g : Machine.Group} {xid st : Nat} : ceiling (listGap g xid st d) = ceiling d := by simp [listGap]

@[simp] theorem ceiling_failLeader {g : Machine.Group} {t st : Nat} : ceiling (failLeader g t st d) = ceiling d := by simp [failLeader]

@[simp] theorem ceiling_failGroup {id st : Nat} : ceiling (failGroup id st d) = ceiling d := by
  unfold failGroup
  repeat' split
  all_goals simp

@[simp] theorem ceiling_failCluster {c : WriteCluster} {st : Nat} : ceiling (failCluster c st d) = ceiling d := by simp [failCluster]

@[simp] theorem ceiling_groupVerified {g : Machine.Group} : ceiling (groupVerified g d) = ceiling d := by
  unfold groupVerified
  split <;> simp

@[simp] theorem ceiling_groupPassed {id gid : Nat} : ceiling (groupPassed id gid d) = ceiling d := by
  simp only [groupPassed]
  repeat' split
  all_goals simp

@[simp] theorem ceiling_failWaiting {o : Nat} : ceiling (failWaiting o d) = ceiling d := by simp [failWaiting]

@[simp] theorem ceiling_pumpFull : ceiling (pumpFull d) = ceiling d := by simp [pumpFull]

@[simp] theorem ceiling_reclaimZone {o : Nat} {z : Zone} : ceiling (reclaimZone o z d) = ceiling d := by simp [reclaimZone]

@[simp] theorem ceiling_askGaps : ceiling (askGaps d) = ceiling d := by simp [askGaps]

@[simp] theorem ceiling_enterZone {o : Nat} : ceiling (enterZone o d) = ceiling d := by
  unfold enterZone
  split <;> simp

@[simp] theorem ceiling_beginEntry {o : Nat} : ceiling (beginEntry o d) = ceiling d := by simp [beginEntry]

@[simp] theorem ceiling_entryPassed {o : Nat} : ceiling (entryPassed o d) = ceiling d := by simp [entryPassed]

@[simp] theorem ceiling_nameAfterEntry {o : Nat} : ceiling (nameAfterEntry o d) = ceiling d := by simp [nameAfterEntry]

/-! ### The definitions of Sys2Proof/Machine/FlashStore.lean -/

@[simp] theorem ceiling_updFls {f : Flash → Flash} : ceiling (updFls f d) = ceiling d := by simp [updFls]

@[simp] theorem ceiling_eraseSectorAt {n : Nat} : ceiling (eraseSectorAt n d) = ceiling d := by simp [eraseSectorAt]

@[simp] theorem ceiling_programAt {a : Nat} {bs : List Byte} : ceiling (programAt a bs d) = ceiling d := by simp [programAt]

@[simp] theorem ceiling_writeSlotCopy {copyB : Bool} {n : Nat} {bs : List Byte} : ceiling (writeSlotCopy copyB n bs d) = ceiling d := rfl

@[simp] theorem ceiling_writeSlotRecord {n : Nat} {r : SlotRecord} : ceiling (writeSlotRecord n r d) = ceiling d := by
  simp [writeSlotRecord]

@[simp] theorem ceiling_clearSlotState {copyB : Bool} {n : Nat} : ceiling (clearSlotState copyB n d) = ceiling d := by simp [clearSlotState]

@[simp] theorem ceiling_destroySlotRecord {n : Nat} :
    ceiling (destroySlotRecord n d) = ceiling d := ceiling_writeSlotCopy.trans ceiling_writeSlotCopy

/-! ### The definitions of Sys2Proof/Machine/Owners.lean -/

@[simp] theorem ceiling_updCry {f : Crypto → Crypto} : ceiling (updCry f d) = ceiling d := by simp [updCry]

@[simp] theorem ceiling_randomDraw : ceiling (randomDraw d).2 = ceiling d := by simp [randomDraw]

@[simp] theorem ceiling_installSlot {n keygen quota tick : Nat} {flags : BitVec 8} {key : BitVec 256} {load : Bool} :
    ceiling (installSlot n keygen quota tick flags key load d) = ceiling d := by
  simp [installSlot]

@[simp] theorem ceiling_sendKey {n : Nat} : ceiling (sendKey n d) = ceiling d := by
  unfold sendKey
  split
  · simp
  · split <;> simp

@[simp] theorem ceiling_setOp {i : Nat} {o : OwnerOp} : ceiling (setOp i o d) = ceiling d := rfl

@[simp] theorem ceiling_endOp {i n : Nat} : ceiling (endOp i n d) = ceiling d := by simp [endOp]

@[simp] theorem ceiling_finishOp {o : OwnerOp} {st result : Nat} : ceiling (finishOp o st result d) = ceiling d := by
  unfold finishOp
  split <;> simp

@[simp] theorem ceiling_assignZones {n q : Nat} : ceiling (assignZones n q d) = ceiling d := by simp [assignZones]

@[simp] theorem ceiling_freeRing {n : Nat} : ceiling (freeRing n d) = ceiling d := by simp [freeRing]

@[simp] theorem ceiling_destroyOwner {n : Nat} : ceiling (destroyOwner n d) = ceiling d := by simp [destroyOwner]

@[simp] theorem ceiling_retireMark {n : Nat} : ceiling (retireMark n d) = ceiling d := rfl

@[simp] theorem ceiling_advanceOp {f i : Nat} : ceiling (advanceOp f i d) = ceiling d := by
  induction f generalizing d with
  | zero => rfl
  | succ f ih =>
    unfold advanceOp
    split
    · rfl
    · split
      · refine ceiling_if (ceiling_if rfl (by simp)) (ceiling_if rfl ?_)
        split
        rename_i hd
        have he := ceiling_snd hd ceiling_randomDraw
        exact ceiling_if (ih.trans (by simp [he])) (ih.trans (by simp [he]))
      · exact ceiling_if (ceiling_setOp.trans (ceiling_writeDirectory.trans ceiling_assignZones)) rfl
      · rfl
      · exact ceiling_if rfl (ceiling_setOp.trans (ceiling_writeDirectory.trans ceiling_destroyOwner))
      · rfl
      · simp
      · refine ceiling_if (ceiling_if rfl (by simp)) (ceiling_if rfl ?_)
        split
        · simp
        · exact ceiling_if (by simp) (ceiling_if (by simp) (by simp))
      · rfl

@[simp] theorem ceiling_pumpOps : ceiling (pumpOps d) = ceiling d := by
  unfold pumpOps
  induction List.range d.cry.ops.length with
  | nil => rfl
  | cons i l ih => exact ceiling_advanceOp.trans ih

@[simp] theorem ceiling_opWritten {i : Nat} : ceiling (opWritten i d) = ceiling d := by
  unfold opWritten
  split
  · simp
  · split <;> simp

@[simp] theorem ceiling_opsWritten {id : Nat} : ceiling (opsWritten id d) = ceiling d := by
  unfold opsWritten
  split <;> simp

@[simp] theorem ceiling_startOp {step : OwnerStep} {tag : Option Nat} : ceiling (startOp step tag d) = ceiling d := by simp [startOp]

@[simp] theorem ceiling_createOwner {tag n q : Nat} {flags : BitVec 8} : ceiling (createOwner tag n q flags d) = ceiling d := by
  simp [createOwner]

@[simp] theorem ceiling_retireOwner {tag : Option Nat} {n : Nat} : ceiling (retireOwner tag n d) = ceiling d := by simp [retireOwner]

@[simp] theorem ceiling_noteRetire {n : Nat} : ceiling (noteRetire n d) = ceiling d := by simp [noteRetire]

@[simp] theorem ceiling_peerDoneOp {n code : Nat} : ceiling (peerDoneOp n code d) = ceiling d := by
  unfold peerDoneOp
  repeat' split
  all_goals simp

@[simp] theorem ceiling_ownersLeaveTopcoat : ceiling (ownersLeaveTopcoat d) = ceiling d := by
  refine ceiling_pumpOps.trans (ceiling_foldl fun d i => ?_)
  split
  · rfl
  · split
    · rfl
    · split <;> simp

@[simp] theorem ceiling_ownersAttach : ceiling (ownersAttach d) = ceiling d := by
  refine ceiling_foldl fun d n => ?_
  dsimp only
  split <;> simp

@[simp] theorem ceiling_createOwner0 : ceiling (createOwner0 d) = ceiling d := by simp [createOwner0]

@[simp] theorem ceiling_setCartReg {l : List (BitVec 64)} : ceiling (setCartReg l d) = ceiling d := by simp [setCartReg]

@[simp] theorem ceiling_enterSerial {serial : BitVec 64} : ceiling (enterSerial serial d) = ceiling d := by simp [enterSerial]

@[simp] theorem ceiling_rngFailed : ceiling (rngFailed d) = ceiling d := by simp [rngFailed]

@[simp] theorem ceiling_abandonCommission : ceiling (abandonCommission d) = ceiling d := by
  simp only [abandonCommission]
  repeat' split
  all_goals simp

@[simp] theorem ceiling_agreeKey {c : Commission} {point : List Byte} : ceiling (agreeKey c point d) = ceiling d := by
  unfold agreeKey
  repeat' split
  all_goals simp

@[simp] theorem ceiling_beginCommission {tag : Nat} : ceiling (beginCommission tag d) = ceiling d := by
  simp only [beginCommission]
  repeat' split
  all_goals simp

@[simp] theorem ceiling_storePair {c : Commission} : ceiling (storePair c d) = ceiling d := by
  unfold storePair
  repeat' split
  all_goals simp

@[simp] theorem ceiling_confirmCode {tag code : Nat} : ceiling (confirmCode tag code d) = ceiling d := by
  unfold confirmCode
  split <;> simp

@[simp] theorem ceiling_takeConfirm {code : Nat} {peerKeys : Bool} : ceiling (takeConfirm code peerKeys d) = ceiling d := by
  unfold takeConfirm
  split <;> simp

@[simp] theorem ceiling_recallGenerations : ceiling (recallGenerations d) = ceiling d := by
  refine ceiling_foldl fun d n => ?_
  split <;> simp

@[simp] theorem ceiling_restoreBare {n : Nat} {erased : Bool} : ceiling (restoreBare n erased d) = ceiling d := by simp [restoreBare]

@[simp] theorem ceiling_takeActive {n : Nat} {r : SlotRecord} : ceiling (takeActive n r d) = ceiling d := by simp [takeActive]

@[simp] theorem ceiling_takeKey {n : Nat} {r : SlotRecord} : ceiling (takeKey n r d) = ceiling d := by simp [takeKey]

@[simp] theorem ceiling_exportKey {tag n : Nat} {point : List Byte} : ceiling (exportKey tag n point d) = ceiling d := by
  unfold exportKey
  split <;> simp

/-! ### The definitions of Sys2Proof/Machine/Coherence.lean -/

@[simp] theorem ceiling_pumpAll : ceiling (pumpAll d) = ceiling d := by simp [pumpAll]

@[simp] theorem ceiling_zeroGranted {k : Nat} : ceiling (zeroGranted k d) = ceiling d := by
  unfold zeroGranted
  split <;> simp

@[simp] theorem ceiling_lineArrives {k : Nat} {c : Coh} {recs : TableRecs} {poison : BitVec 32} :
    ceiling (lineArrives k c recs poison d) = ceiling d := by
  simp [lineArrives]

@[simp] theorem ceiling_takeData {k : Nat} {c : Coh} {recs : TableRecs} {poison : BitVec 32} :
    ceiling (takeData k c recs poison d) = ceiling d := by
  simp [takeData]

@[simp] theorem ceiling_takeNone {k : Nat} {c : Coh} : ceiling (takeNone k c d) = ceiling d := by simp [takeNone]

@[simp] theorem ceiling_whileTopcoat {f : Device → Device} (hf : ∀ e, ceiling (f e) = ceiling e) :
    ceiling (whileTopcoat f d) = ceiling d := by
  simp [whileTopcoat, hf]

@[simp] theorem ceiling_takeEvict {k : Nat} : ceiling (takeEvict k d) = ceiling d := by simp [takeEvict]

@[simp] theorem ceiling_takeEvictD {k : Nat} {recs : TableRecs} {poison : BitVec 32} :
    ceiling (takeEvictD k recs poison d) = ceiling d := by
  simp [takeEvictD]

@[simp] theorem ceiling_cleanAcked {k : Nat} : ceiling (cleanAcked k d) = ceiling d := by
  unfold cleanAcked
  split <;> simp

@[simp] theorem ceiling_takeEvictAck {k : Nat} : ceiling (takeEvictAck k d) = ceiling d := by simp [takeEvictAck]

@[simp] theorem ceiling_rangeDone : ceiling (rangeDone d) = ceiling d := by simp [rangeDone]

/-! ### The definitions of Sys2Proof/Machine/ReadChannel.lean -/

@[simp] theorem ceiling_updRdc {f : ReadChannel → ReadChannel} : ceiling (updRdc f d) = ceiling d := by simp [updRdc]

@[simp] theorem ceiling_updRead {id : Nat} {f : LadderCluster → LadderCluster} : ceiling (updRead id f d) = ceiling d := by simp [updRead]

@[simp] theorem ceiling_sectorLookup {psa : Nat} : ceiling (sectorLookup psa d).2 = ceiling d := by
  unfold sectorLookup
  dsimp only
  split
  · split
    · split <;> rename_i h <;> simp [ceiling_snd h ceiling_lookup]
    · simp
  · simp

@[simp] theorem ceiling_fillSector {c : LadderCluster} {i : Nat} {block : List Byte} : ceiling (fillSector c i block d) = ceiling d := by
  unfold fillSector
  split <;> simp

@[simp] theorem ceiling_lookupWanted {id : Nat} : ceiling (lookupWanted id d) = ceiling d := by
  unfold lookupWanted
  split
  · rfl
  · refine ceiling_foldl fun d i => ?_
    split <;> rename_i h <;> simp [ceiling_snd h ceiling_sectorLookup]

@[simp] theorem ceiling_seekLayer {l : Nat} : ceiling (seekLayer l d) = ceiling d := by simp [seekLayer]

@[simp] theorem ceiling_addRead {purpose : ReadFor} {loc : Loc} {parts : List (Nat × Nat × Nat)} :
    ceiling (addRead purpose loc parts d) = ceiling d := by
  simp only [addRead]
  repeat' split
  all_goals simp

@[simp] theorem ceiling_startRead {purpose : ReadFor} {parts : List (Loc × Nat × Nat × Nat)} :
    ceiling (startRead purpose parts d) = ceiling d := by
  simp [startRead]

@[simp] theorem ceiling_sramError {i : Nat} {records : BitVec 32} : ceiling (sramError i records d) = ceiling d := by
  unfold sramError
  extract_lets l e
  have he : ceiling e = ceiling d := by simp [e]
  split
  · rfl
  · split
    · simp
    · split
      exact ceiling_startRead.trans he

@[simp] theorem ceiling_finishHostRead {tag : Nat} {cs : List LadderCluster} : ceiling (finishHostRead tag cs d) = ceiling d := by
  simp [finishHostRead]

@[simp] theorem ceiling_answerRecov {xid unit : Nat} {cs : List LadderCluster} : ceiling (answerRecov xid unit cs d) = ceiling d := by
  simp [answerRecov]

@[simp] theorem ceiling_catchRead {mark : Nat} {cs : List LadderCluster} : ceiling (catchRead mark cs d) = ceiling d := by
  unfold catchRead
  split <;> simp

@[simp] theorem ceiling_finishRead {p : ReadFor} : ceiling (finishRead p d) = ceiling d := by
  unfold finishRead
  split <;> simp

@[simp] theorem ceiling_freeStore {c : LadderCluster} : ceiling (freeStore c d) = ceiling d := by simp [freeStore]

@[simp] theorem ceiling_restoreCluster {c : LadderCluster} : ceiling (restoreCluster c d) = ceiling d := by
  refine ceiling_raise.trans (ceiling_foldl fun d i => ?_)
  exact ceiling_fillSector.trans ceiling_updRead

@[simp] theorem ceiling_queueRefresh {c : LadderCluster} : ceiling (queueRefresh c d) = ceiling d := by simp [queueRefresh]

@[simp] theorem ceiling_leaveLadder {c : LadderCluster} {lostNow : Nat} : ceiling (leaveLadder c lostNow d) = ceiling d := by
  simp only [leaveLadder]
  repeat' split
  all_goals simp

@[simp] theorem ceiling_endLadder {c : LadderCluster} : ceiling (endLadder c d) = ceiling d := by simp [endLadder]

@[simp] theorem ceiling_takePeer {c : LadderCluster} : ceiling (takePeer c d) = ceiling d := by simp [takePeer]

@[simp] theorem ceiling_askPeer {c : LadderCluster} : ceiling (askPeer c d) = ceiling d := by simp [askPeer]

@[simp] theorem ceiling_enterStep {c : LadderCluster} {k : Nat} : ceiling (enterStep c k d) = ceiling d := by
  unfold enterStep
  split <;> simp

@[simp] theorem ceiling_climb {c : LadderCluster} : ceiling (climb c d) = ceiling d := by simp [climb]

@[simp] theorem ceiling_climbOn {id n : Nat} : ceiling (climbOn id n d) = ceiling d := by
  induction n generalizing d with
  | zero => rfl
  | succ n ih =>
    unfold climbOn
    split <;> simp [ih]

@[simp] theorem ceiling_settleRead {id : Nat} : ceiling (settleRead id d) = ceiling d := by
  simp only [settleRead]
  repeat' split
  all_goals simp

@[simp] theorem ceiling_beginDeep {c : LadderCluster} {i : Nat} : ceiling (beginDeep c i d) = ceiling d := by simp [beginDeep]

@[simp] theorem ceiling_popDeep : ceiling (popDeep d) = ceiling d := by simp [popDeep]

@[simp] theorem ceiling_deepNext {n : Nat} : ceiling (deepNext n d) = ceiling d := by
  induction n generalizing d with
  | zero => rfl
  | succ n ih =>
    unfold deepNext
    split
    · rfl
    · split
      · rfl
      · split <;> simp [ih]

@[simp] theorem ceiling_pumpReads : ceiling (pumpReads d) = ceiling d := by simp [pumpReads]

@[simp] theorem ceiling_dropFrame {psa : Nat} : ceiling (dropFrame psa d) = ceiling d := by simp [dropFrame]

@[simp] theorem ceiling_loseSector {c : LadderCluster} {i : Nat} {attempted : Bool} : ceiling (loseSector c i attempted d) = ceiling d := by
  simp [loseSector]

@[simp] theorem ceiling_loadTaps {layer : Nat} : ceiling (loadTaps layer d) = ceiling d := by simp [loadTaps]

@[simp] theorem ceiling_fifoPush {psa : Nat} {w : BitVec 64} : ceiling (fifoPush psa w d) = ceiling d := by
  simp only [fifoPush]
  repeat' split
  all_goals simp

@[simp] theorem ceiling_packBit {b : LineBit} : ceiling (packBit b d) = ceiling d := by
  unfold packBit
  split <;> simp

@[simp] theorem ceiling_flywheel : ceiling (flywheel d) = ceiling d := by simp [flywheel]

@[simp] theorem ceiling_outsideBit {low : Bool} {env : Nat} : ceiling (outsideBit low env d) = ceiling d := by
  simp only [outsideBit]
  repeat' split
  all_goals simp

@[simp] theorem ceiling_defectBit {low : Bool} {env : Nat} : ceiling (defectBit low env d) = ceiling d := by
  simp only [defectBit]
  repeat' split
  all_goals simp

@[simp] theorem ceiling_takeBit {sample : BitVec 7} {env : Nat} : ceiling (takeBit sample env d) = ceiling d := by
  simp only [takeBit]
  repeat' split
  all_goals simp

@[simp] theorem ceiling_takeEntryOf : ceiling (takeEntryOf d) = ceiling d := by
  unfold takeEntryOf
  split <;> simp

@[simp] theorem ceiling_takeTaps {taps : List Int} : ceiling (takeTaps taps d) = ceiling d := by simp [takeTaps]

@[simp] theorem ceiling_flowStep {x1 : Flow} : ceiling (flowStep d x1) = ceiling d := by
  unfold flowStep
  split <;> simp

@[simp] theorem ceiling_flowIn {flow : List Flow} : ceiling (flowIn flow d) = ceiling d := by simp [flowIn]

@[simp] theorem ceiling_sectorSync {psa : Nat} {locked : Bool} : ceiling (sectorSync psa locked d) = ceiling d := by
  unfold sectorSync
  split <;> simp

@[simp] theorem ceiling_noteBound {c : LadderCluster} {i : Nat} : ceiling (noteBound c i d) = ceiling d := by simp [noteBound]

@[simp] theorem ceiling_dataFieldEnd {psa : Nat} : ceiling (dataFieldEnd psa d) = ceiling d := by
  unfold dataFieldEnd
  split <;> simp

@[simp] theorem ceiling_headerSeen {block : List Byte} : ceiling (headerSeen block d) = ceiling d := by
  unfold headerSeen
  split <;> simp

@[simp] theorem ceiling_sectorDecoded {c : LadderCluster} {i : Nat} {block : List Byte} :
    ceiling (sectorDecoded c i block d) = ceiling d := by
  simp [sectorDecoded]

@[simp] theorem ceiling_freeStoreSlot {psa : Nat} : ceiling (freeStoreSlot psa d) = ceiling d := by simp [freeStoreSlot]

@[simp] theorem ceiling_fastDone {psa word : Nat} : ceiling (fastDone psa word d) = ceiling d := by
  unfold fastDone
  split <;> simp

@[simp] theorem ceiling_deepEnds {run : DeepRun} {c : LadderCluster} {i inner word : Nat} :
    ceiling (deepEnds run c i inner word d) = ceiling d := by
  simp [deepEnds]

@[simp] theorem ceiling_deepDone {psa inner word : Nat} : ceiling (deepDone psa inner word d) = ceiling d := by
  unfold deepDone
  split
  · simp
  · split <;> simp

@[simp] theorem ceiling_rereadCluster {c : LadderCluster} : ceiling (rereadCluster c d) = ceiling d := by
  simp only [rereadCluster]
  repeat' split
  all_goals simp

@[simp] theorem ceiling_tagFailed {c : LadderCluster} {i : Nat} : ceiling (tagFailed c i d) = ceiling d := by
  simp only [tagFailed]
  repeat' split
  all_goals simp

@[simp] theorem ceiling_tagPassed {c : LadderCluster} {i : Nat} {block plain : List Byte} {poisoned : Bool} :
    ceiling (tagPassed c i block plain poisoned d) = ceiling d := by
  simp [tagPassed]

@[simp] theorem ceiling_egressDone {psa : Nat} {tagOk : Bool} {plain : List Byte} {poisoned : Bool} :
    ceiling (egressDone psa tagOk plain poisoned d) = ceiling d := by
  unfold egressDone
  split
  · simp
  · split <;> simp

@[simp] theorem ceiling_answerUnits {id : Nat} {f : PeerUnit → PeerUnit} : ceiling (answerUnits id f d) = ceiling d := by
  simp only [answerUnits]
  repeat' split
  all_goals simp

@[simp] theorem ceiling_recovData {xid unit : Nat} {bytes : List Byte} {poison : BitVec 32} :
    ceiling (recovData xid unit bytes poison d) = ceiling d := by
  simp only [recovData]
  repeat' split
  all_goals simp

@[simp] theorem ceiling_peerGone : ceiling (peerGone d) = ceiling d := by simp [peerGone]

@[simp] theorem ceiling_refreshNow {x : Refresh} : ceiling (refreshNow x d) = ceiling d := by
  simp only [refreshNow]
  repeat' split
  all_goals simp

/-! ### The definitions of Sys2Proof/Machine/Boot.lean -/

@[simp] theorem ceiling_queueActivation {id : Nat} {copyB : Bool} {r : Activation} {groups : List Nat} :
    ceiling (queueActivation id copyB r groups d) = ceiling d := by
  simp [queueActivation]

@[simp] theorem ceiling_startActivation {w : ActWrite} : ceiling (startActivation w d) = ceiling d := by simp [startActivation]

@[simp] theorem ceiling_nextActivation : ceiling (nextActivation d) = ceiling d := by
  unfold nextActivation
  split <;> simp

@[simp] theorem ceiling_writeActivation {r : Activation} {group : Option Nat} : ceiling (writeActivation r group d) = ceiling d := by
  unfold writeActivation
  extract_lets a w e
  have he : ceiling e = ceiling d := (ceiling_foldl fun _ _ => ceiling_updGroup).trans (by simp)
  simp [he]

@[simp] theorem ceiling_changeActivation {tag : Nat} {r : Activation} : ceiling (changeActivation tag r d) = ceiling d := by
  simp [changeActivation]

@[simp] theorem ceiling_activationWritten {id : Nat} {copyB : Bool} : ceiling (activationWritten id copyB d) = ceiling d := by
  unfold activationWritten
  split
  · rfl
  · extract_lets before d₁ d₂ d₃
    have h₂ : ceiling d₂ = ceiling d := (ceiling_foldl fun _ _ => ceiling_groupPassed).trans ceiling_updRcl
    have h₃ : ceiling d₃ = ceiling d := ceiling_if h₂ (ceiling_raise.trans (ceiling_updRcl.trans h₂))
    exact ceiling_if (ceiling_queueActivation.trans h₃) (ceiling_nextActivation.trans h₂)

@[simp] theorem ceiling_stagePart {slot base tag : Nat} {role : GroupRole} {bs : List Byte} :
    ceiling (stagePart slot base tag role bs d) = ceiling d := by
  simp [stagePart]

@[simp] theorem ceiling_stageImage {tag slot off : Nat} {last : Bool} {bs : List Byte} :
    ceiling (stageImage tag slot off last bs d) = ceiling d := by
  unfold stageImage
  extract_lets d₁ d₂ x d₃ d₄
  have h₃ : ceiling d₃ = ceiling d := by simp [d₃, d₂, d₁]
  have h₄ : ceiling d₄ = ceiling d₃ := ceiling_foldl fun _ _ => ceiling_stagePart
  exact ceiling_pumpMirror.trans (ceiling_startCmd.trans (ceiling_setPhase.trans (h₄.trans h₃)))

@[simp] theorem ceiling_dropBoot {tag : Nat} : ceiling (dropBoot tag d) = ceiling d := by simp [dropBoot]

@[simp] theorem ceiling_bootStep {tag : Nat} : ceiling (bootStep tag d) = ceiling d := by
  simp only [bootStep]
  repeat' split
  all_goals simp

@[simp] theorem ceiling_settleBoot : ceiling (settleBoot d) = ceiling d := by simp [settleBoot]

@[simp] theorem ceiling_takeBoot {xid : Nat} {bs : List Byte} : ceiling (takeBoot xid bs d) = ceiling d := by simp [takeBoot]

/-! ### The definitions of Sys2Proof/Machine/Scan.lean -/

@[simp] theorem ceiling_indexGroup {o : Nat} {g : FoundGroup} {st : GroupState} {link : Option (BitVec 128)} :
    ceiling (indexGroup o g st link d).2 = ceiling d := by
  simp [indexGroup]

/-! ### The definitions of Sys2Proof/Machine/Modes.lean -/

@[simp] theorem ceiling_updGen {f : Startup → Startup} : ceiling (updGen f d) = ceiling d := by simp [updGen]

@[simp] theorem ceiling_updLsk {f : Lockstep → Lockstep} : ceiling (updLsk f d) = ceiling d := by simp [updLsk]

@[simp] theorem ceiling_updPwr {f : Supply → Supply} : ceiling (updPwr f d) = ceiling d := by simp [updPwr]

@[simp] theorem ceiling_updHif {f : HostIf → HostIf} : ceiling (updHif f d) = ceiling d := by simp [updHif]

@[simp] theorem ceiling_updFio {f : Machine.Field → Machine.Field} : ceiling (updFio f d) = ceiling d := by simp [updFio]

@[simp] theorem ceiling_logSafety {cls : Nat} {outputs : BitVec 4} {action : Nat} {detail : Word32} :
    ceiling (logSafety cls outputs action detail d) = ceiling d := by
  simp [logSafety]

@[simp] theorem ceiling_tellMode : ceiling (tellMode d) = ceiling d := by simp [tellMode]

@[simp] theorem ceiling_sendHello : ceiling (sendHello d) = ceiling d := by simp [sendHello]

@[simp] theorem ceiling_leaveTopcoat : ceiling (leaveTopcoat d) = ceiling d := by simp [leaveTopcoat]

@[simp] theorem ceiling_setMode {m : Mode} : ceiling (setMode m d) = ceiling d := by simp [setMode]

@[simp] theorem ceiling_toUndercoat : ceiling (toUndercoat d) = ceiling d := by simp [toUndercoat]

@[simp] theorem ceiling_abortWaiting : ceiling (abortWaiting d) = ceiling d := by simp [abortWaiting]

@[simp] theorem ceiling_standParked : ceiling (standParked d) = ceiling d := by simp [standParked]

@[simp] theorem ceiling_noPower : ceiling (noPower d) = ceiling d := by simp [noPower]

@[simp] theorem ceiling_enterDust {cause : Nat} : ceiling (enterDust cause d) = ceiling d := by
  simp only [enterDust]
  repeat' split
  all_goals simp

@[simp] theorem ceiling_pumpDust : ceiling (pumpDust d) = ceiling d := by
  unfold pumpDust
  split <;> simp

@[simp] theorem ceiling_beginDust {tag : Option Nat} {cause : Nat} : ceiling (beginDust tag cause d) = ceiling d := by simp [beginDust]

@[simp] theorem ceiling_finishRetiring : ceiling (finishRetiring d) = ceiling d := by simp [finishRetiring]

@[simp] theorem ceiling_enterUndercoat : ceiling (enterUndercoat d) = ceiling d := by
  simp only [enterUndercoat]
  repeat' split
  all_goals simp

@[simp] theorem ceiling_enterPrimer {cause : Nat} : ceiling (enterPrimer cause d) = ceiling d := by simp [enterPrimer]

@[simp] theorem ceiling_loadRing {os : List ScannedOpening} {r : DirRing} : ceiling (loadRing os r d) = ceiling d := by simp [loadRing]

@[simp] theorem ceiling_loadMedium {s : SystemScan} : ceiling (loadMedium s d) = ceiling d := by simp [loadMedium]

/-! ### The definitions of Sys2Proof/Machine/Format.lean -/

@[simp] theorem ceiling_queueSeal {o : Nat} : ceiling (queueSeal o d) = ceiling d := by
  suffices k : ∀ f, f = queueSeal → ceiling (f o d) = ceiling d from k _ rfl
  intro f hf
  delta queueSeal at hf
  obtain ⟨g, hg⟩ : ∃ g, g = groupOf := exists_eq
  obtain ⟨sg, hsg⟩ : ∃ sg, sg = sealGroups := exists_eq
  rw [← hg, ← hsg] at hf
  subst hf
  beta_reduce
  extract_lets r
  split
  · rfl
  · extract_lets z
    split
    split
    exact ceiling_if ceiling_updRing (ceiling_queueCluster.trans (ceiling_takeId.trans (ceiling_useSparesTo.trans ceiling_updRing)))

@[simp] theorem ceiling_queueFill {o : Nat} {z : Zone} {first n : Nat} {frames : List Nat} :
    ceiling (queueFill o z first n frames d) = ceiling d := by
  simp [queueFill]

@[simp] theorem ceiling_updCart {f : Cartridge → Cartridge} : ceiling (updCart f d) = ceiling d := by simp [updCart]

@[simp] theorem ceiling_queueFormatGroup : ceiling (queueFormatGroup d) = ceiling d := by
  suffices k : ∀ f, f = queueFormatGroup → ceiling (f d) = ceiling d from k _ rfl
  intro f hf
  delta queueFormatGroup at hf
  obtain ⟨g, hg⟩ : ∃ g, g = groupOf := exists_eq
  rw [← hg] at hf
  subst hf
  beta_reduce
  split
  · rfl
  · split
    split
    exact ceiling_foldl fun d k => ceiling_if rfl (ceiling_queueCluster.trans ceiling_takeId)

@[simp] theorem ceiling_startFormat : ceiling (startFormat d) = ceiling d := by simp [startFormat]

@[simp] theorem ceiling_writeDefects : ceiling (writeDefects d) = ceiling d := by simp [writeDefects]

@[simp] theorem ceiling_endFormatZones : ceiling (endFormatZones d) = ceiling d := by simp [endFormatZones]

@[simp] theorem ceiling_leaveNow : ceiling (leaveNow d) = ceiling d := by
  unfold leaveNow
  split <;> simp

@[simp] theorem ceiling_formatDone : ceiling (formatDone d) = ceiling d := by simp [formatDone]

@[simp] theorem ceiling_ejectDone : ceiling (ejectDone d) = ceiling d := by
  simp only [ejectDone]
  repeat' split
  all_goals simp

@[simp] theorem ceiling_pumpEject : ceiling (pumpEject d) = ceiling d := by simp [pumpEject]

@[simp] theorem ceiling_startEject {tag : Nat} : ceiling (startEject tag d) = ceiling d := by simp [startEject]

@[simp] theorem ceiling_formatZoneDone {i : Nat} : ceiling (formatZoneDone i d) = ceiling d := by
  simp only [formatZoneDone]
  repeat' split
  all_goals simp

@[simp] theorem ceiling_pumpFormat : ceiling (pumpFormat d) = ceiling d := by
  suffices k : ∀ f, f = pumpFormat → ceiling (f d) = ceiling d from k _ rfl
  intro f hf
  delta pumpFormat at hf
  obtain ⟨g, hg⟩ : ∃ g, g = groupOf := exists_eq
  rw [← hg] at hf
  subst hf
  beta_reduce
  refine ceiling_if rfl (ceiling_if rfl ?_)
  split
  · exact ceiling_if ceiling_formatDone rfl
  · split
    split
    exact ceiling_if (ceiling_queueFormatGroup.trans ceiling_updGen) ceiling_formatZoneDone

/-! ### The definitions of Sys2Proof/Machine/WriteChannel.lean -/

@[simp] theorem ceiling_updCluster {id : Nat} {f : WriteCluster → WriteCluster} : ceiling (updCluster id f d) = ceiling d := by
  simp [updCluster]

@[simp] theorem ceiling_dropCluster {id : Nat} : ceiling (dropCluster id d) = ceiling d := by simp [dropCluster]

@[simp] theorem ceiling_putWsector {id i : Nat} {f : WriteSector → WriteSector} : ceiling (putWsector id i f d) = ceiling d := by
  simp [putWsector]

@[simp] theorem ceiling_trimExcursion {inv : Nat} {v : Word32} : ceiling (trimExcursion inv v d) = ceiling d := by simp [trimExcursion]

@[simp] theorem ceiling_clampTrims : ceiling (clampTrims d) = ceiling d := by simp [clampTrims]

@[simp] theorem ceiling_ropcStep {l : Loc} {beta : Int} : ceiling (ropcStep l beta d) = ceiling d := by simp [ropcStep]

@[simp] theorem ceiling_excursionStep {c : WriteCluster} {psa : Nat} {before beta : Int} :
    ceiling (excursionStep c psa before beta d) = ceiling d := by
  unfold excursionStep
  split
  · simp
  · split <;> simp

@[simp] theorem ceiling_excursionOver {psa : Nat} : ceiling (excursionOver psa d) = ceiling d := by simp [excursionOver]

@[simp] theorem ceiling_pumpCeiling : ceiling (pumpCeiling d) = ceiling d := by simp [pumpCeiling]

@[simp] theorem ceiling_phaseBEnd {o : Nat} : ceiling (phaseBEnd o d) = ceiling d := by simp [phaseBEnd]

@[simp] theorem ceiling_directoryWritten {c : WriteCluster} : ceiling (directoryWritten c d) = ceiling d := by
  simp only [directoryWritten]
  repeat' split
  all_goals simp

@[simp] theorem ceiling_kindPassed {c : WriteCluster} : ceiling (kindPassed c d) = ceiling d := by
  unfold kindPassed
  split <;> simp

@[simp] theorem ceiling_afterCluster {c : WriteCluster} : ceiling (afterCluster c d) = ceiling d := by simp [afterCluster]

@[simp] theorem ceiling_clusterPassed {c : WriteCluster} : ceiling (clusterPassed c d) = ceiling d := by
  unfold clusterPassed
  split <;> simp

@[simp] theorem ceiling_rewriteDirectory {c : WriteCluster} : ceiling (rewriteDirectory c d) = ceiling d := by simp [rewriteDirectory]

@[simp] theorem ceiling_clusterLost {c : WriteCluster} {st : Nat} : ceiling (clusterLost c st d) = ceiling d := by
  unfold clusterLost
  split <;> simp

@[simp] theorem ceiling_countShare : ceiling (countShare d) = ceiling d := by simp [countShare]

@[simp] theorem ceiling_emitFrame {k psa : Nat} {block : List Byte} {trim : Int} : ceiling (emitFrame k psa block trim d) = ceiling d := by
  simp [emitFrame]

@[simp] theorem ceiling_emitSector {c : WriteCluster} {i : Nat} : ceiling (emitSector c i d) = ceiling d := by simp [emitSector]

@[simp] theorem ceiling_sweepGroups : ceiling (sweepGroups d) = ceiling d := by simp [sweepGroups]

@[simp] theorem ceiling_relocate {c : WriteCluster} {dst : Loc} : ceiling (relocate c dst d) = ceiling d := by simp [relocate]

@[simp] theorem ceiling_exhaustSector {c : WriteCluster} : ceiling (exhaustSector c d) = ceiling d := by
  unfold exhaustSector
  repeat' split
  all_goals simp

@[simp] theorem ceiling_sectorPassed {c : WriteCluster} {i : Nat} : ceiling (sectorPassed c i d) = ceiling d := by
  simp only [sectorPassed]
  repeat' split
  all_goals simp

@[simp] theorem ceiling_refuseFrame {c : WriteCluster} {i : Nat} : ceiling (refuseFrame c i d) = ceiling d := by simp [refuseFrame]

@[simp] theorem ceiling_writeSector {psa : Nat} {before : Option Nat} {poisoned : Bool} :
    ceiling (writeSector psa before poisoned d) = ceiling d := by
  unfold writeSector
  split <;> simp

@[simp] theorem ceiling_retrySector {psa : Nat} {poisoned : Bool} : ceiling (retrySector psa poisoned d) = ceiling d := by
  unfold retrySector
  split <;> simp

@[simp] theorem ceiling_sectorFailed {c : WriteCluster} {i : Nat} {before beta : Int} :
    ceiling (sectorFailed c i before beta d) = ceiling d := by
  simp [sectorFailed]

@[simp] theorem ceiling_rawResult {psa errors : Nat} {beta : Int} {synced : Bool} :
    ceiling (rawResult psa errors beta synced d) = ceiling d := by
  unfold rawResult
  split <;> simp

@[simp] theorem ceiling_assertInhibit {cause : Nat} : ceiling (assertInhibit cause d) = ceiling d := by simp [assertInhibit]

@[simp] theorem ceiling_stratAdvance : ceiling (stratAdvance d) = ceiling d := by simp [stratAdvance]

@[simp] theorem ceiling_stratAccess {value : Option Word32} : ceiling (stratAccess value d) = ceiling d := by
  unfold stratAccess
  split <;> simp

@[simp] theorem ceiling_beginTest {layer band : Nat} : ceiling (beginTest layer band d) = ceiling d := by simp [beginTest]

@[simp] theorem ceiling_writeOpcCmd {who : Requester} {v : Word32} : ceiling (writeOpcCmd who v d) = ceiling d := by simp [writeOpcCmd]

@[simp] theorem ceiling_opcEnd {r : OpcRun} : ceiling (opcEnd r d) = ceiling d := by
  have hp : 0xB040 + 4 * (4 * r.layer + r.band) ≠ 0xB004 := by omega
  have hl : 0xB0A0 + 4 * r.layer ≠ 0xB004 := by omega
  simp only [opcEnd]
  split <;> simp [hp, hl]

@[simp] theorem ceiling_opcNext {r : OpcRun} : ceiling (opcNext r d) = ceiling d := by simp [opcNext]

@[simp] theorem ceiling_testStepDone {x : OpcStep} {errors : Nat} {beta : Int} : ceiling (testStepDone x errors beta d) = ceiling d := by
  simp only [testStepDone]
  repeat' split
  all_goals simp

/-! ### The definitions of Sys2Proof/Machine/Timing.lean -/

@[simp] theorem ceiling_noteWindow : ceiling (noteWindow d) = ceiling d := by
  unfold noteWindow
  split <;> simp

@[simp] theorem ceiling_avsReached {b : Nat × Nat} : ceiling (avsReached b d) = ceiling d := by simp [avsReached]

@[simp] theorem ceiling_avsRaise {n i : Nat} {b : Nat × Nat} : ceiling (avsRaise n i b d) = ceiling d := by simp [avsRaise]

@[simp] theorem ceiling_avsToward {b : Nat × Nat} : ceiling (avsToward b d) = ceiling d := by simp [avsToward]

@[simp] theorem ceiling_avsLower {b : Nat × Nat} : ceiling (avsLower b d) = ceiling d := by simp [avsLower]

@[simp] theorem ceiling_avsStep : ceiling (avsStep d) = ceiling d := by simp [avsStep]

@[simp] theorem ceiling_avsWindowEnd : ceiling (avsWindowEnd d) = ceiling d := by simp [avsWindowEnd]

@[simp] theorem ceiling_renameOutside : ceiling (renameOutside d) = ceiling d := by
  refine ceiling_foldl fun d o => ?_
  dsimp only
  split <;> simp

@[simp] theorem ceiling_clampPoll : ceiling (clampPoll d) = ceiling d := by simp [clampPoll]

@[simp] theorem ceiling_applyBounds {loop : Nat} : ceiling (applyBounds loop d) = ceiling d := by
  unfold applyBounds
  split
  · simp
  · split <;> simp

@[simp] theorem ceiling_excReturn {loop : Nat} : ceiling (excReturn loop d) = ceiling d := by
  unfold excReturn
  split <;> simp

@[simp] theorem ceiling_pacingFault : ceiling (pacingFault d) = ceiling d := by simp [pacingFault]

@[simp] theorem ceiling_tickLoRead {who : Requester} : ceiling (tickLoRead who d) = ceiling d := by simp [tickLoRead]

/-! ### The definitions of Sys2Proof/Machine/Power.lean -/

@[simp] theorem ceiling_startDrive : ceiling (startDrive d) = ceiling d := by simp [startDrive]

@[simp] theorem ceiling_wakePower : ceiling (wakePower d) = ceiling d := by simp [wakePower]

@[simp] theorem ceiling_exitDone : ceiling (exitDone d) = ceiling d := by
  unfold exitDone
  split <;> simp

@[simp] theorem ceiling_enterPs {n : Nat} : ceiling (enterPs n d) = ceiling d := by
  unfold enterPs
  split <;> simp

/-! ### The definitions of Sys2Proof/Machine/Search.lean -/

@[simp] theorem ceiling_putSearch {x : Search} : ceiling (putSearch x d) = ceiling d := by simp [putSearch]

@[simp] theorem ceiling_searchRead {x : Search} {ls : List Loc} {a n : Nat} : ceiling (searchRead x ls a n d) = ceiling d := by
  simp [searchRead]

@[simp] theorem ceiling_toMaps {ls : List Loc} {x : Search} : ceiling (toMaps ls x d) = ceiling d := by simp [toMaps]

@[simp] theorem ceiling_toProbe {last pos : Nat} {x : Search} : ceiling (toProbe last pos x d) = ceiling d := by simp [toProbe]

@[simp] theorem ceiling_toBody {l : Loc} {x : Search} : ceiling (toBody l x d) = ceiling d := by simp [toBody]

@[simp] theorem ceiling_startSearch {why : SearchFor} {s q : Nat} : ceiling (startSearch why s q d) = ceiling d := by
  simp only [startSearch]
  repeat' split
  all_goals simp

@[simp] theorem ceiling_stepProbe {last pos : Nat} {c : LadderCluster} {x : Search} : ceiling (stepProbe last pos c x d) = ceiling d := by
  unfold stepProbe
  split <;> simp

@[simp] theorem ceiling_stepMaps {ls : List Loc} {cs : List LadderCluster} {x : Search} : ceiling (stepMaps ls cs x d).2 = ceiling d := by
  simp only [stepMaps]
  repeat' split
  all_goals simp

@[simp] theorem ceiling_indexFound {read : List (Loc × Option (List Byte) × List (BitVec 128))} {gs : List FoundGroup} :
    ceiling (indexFound read gs d) = ceiling d := by
  simp [indexFound]

@[simp] theorem ceiling_stepBody {l : Loc} {c : LadderCluster} {x : Search} : ceiling (stepBody l c x d).2 = ceiling d := by
  simp only [stepBody]
  repeat' split
  all_goals simp

@[simp] theorem ceiling_stepSearch {x : Search} : ceiling (stepSearch x d).2 = ceiling d := by
  simp only [stepSearch]
  repeat' split
  all_goals simp

@[simp] theorem ceiling_dropSearch {why : SearchFor} : ceiling (dropSearch why d) = ceiling d := by simp [dropSearch]

@[simp] theorem ceiling_noteAbsent {s q : Nat} : ceiling (noteAbsent s q d) = ceiling d := by simp [noteAbsent]

/-! ### The definitions of Sys2Proof/Machine/Twin.lean -/

@[simp] theorem ceiling_noteBacklog : ceiling (noteBacklog d) = ceiling d := by simp [noteBacklog]

@[simp] theorem ceiling_storeTables : ceiling (storeTables d) = ceiling d := by
  refine ceiling_dropLines.trans (ceiling_foldl fun d k => ?_)
  split <;> simp

@[simp] theorem ceiling_tryTopcoat : ceiling (tryTopcoat d) = ceiling d := by simp [tryTopcoat]

@[simp] theorem ceiling_catchComplete : ceiling (catchComplete d) = ceiling d := by simp [catchComplete]

@[simp] theorem ceiling_catchProgress : ceiling (catchProgress d) = ceiling d := by simp [catchProgress]

@[simp] theorem ceiling_startCatch {g : Machine.Group} : ceiling (startCatch g d) = ceiling d := by simp [startCatch]

@[simp] theorem ceiling_pumpBootCatch : ceiling (pumpBootCatch d) = ceiling d := by
  unfold pumpBootCatch
  split
  · rfl
  · split
    · rfl
    · split
      rename_i h
      split <;> simp [ceiling_snd h ceiling_addGroup]
  · split
    · rfl
    · extract_lets n ps
      split
      rename_i h
      extract_lets e
      have he : ceiling e = ceiling d := ceiling_updGroup.trans (ceiling_snd h ceiling_addGroup)
      split <;> simp [he]

@[simp] theorem ceiling_stepIn {s : Nat} : ceiling (stepIn s d) = ceiling d := by simp [stepIn]

@[simp] theorem ceiling_pumpCatch : ceiling (pumpCatch d) = ceiling d := by
  unfold pumpCatch
  split
  · rfl
  · refine ceiling_catchProgress.trans (ceiling_pumpBootCatch.trans (ceiling_foldl fun d s => ?_))
    extract_lets e
    have he : ceiling e = ceiling d := ceiling_stepIn
    split
    · split <;> simp [he]
    · exact he

@[simp] theorem ceiling_putSync {s : Nat} {x : StreamSync} : ceiling (putSync s x d) = ceiling d := by simp [putSync]

@[simp] theorem ceiling_chainAt {s seq : Nat} : ceiling (chainAt d s seq).2 = ceiling d := by
  unfold chainAt
  split
  · simp
  · split <;> simp

@[simp] theorem ceiling_askChain {s seq : Nat} {why : ChainAsk} : ceiling (askChain s seq why d) = ceiling d := by simp [askChain]

@[simp] theorem ceiling_setBehind {s : Nat} : ceiling (setBehind s d) = ceiling d := by simp [setBehind]

@[simp] theorem ceiling_setAhead {s : Nat} : ceiling (setAhead s d) = ceiling d := by simp [setAhead]

@[simp] theorem ceiling_setInStep {s : Nat} : ceiling (setInStep s d) = ceiling d := by simp [setInStep]

@[simp] theorem ceiling_setFork {s c : Nat} : ceiling (setFork s c d) = ceiling d := by simp [setFork]

@[simp] theorem ceiling_forkSearch {s lo hi : Nat} : ceiling (forkSearch s lo hi d) = ceiling d := by
  simp only [forkSearch]
  repeat' split
  all_goals simp

@[simp] theorem ceiling_compareStream {s : Nat} : ceiling (compareStream s d) = ceiling d := by simp [compareStream]

@[simp] theorem ceiling_reconciled : ceiling (reconciled d) = ceiling d := by simp [reconciled]

@[simp] theorem ceiling_takeTable {k : Nat} {recs : TableRecs} : ceiling (takeTable k recs d) = ceiling d := by simp [takeTable]

@[simp] theorem ceiling_answerChain {mark : Nat} : ceiling (answerChain mark d) = ceiling d := by simp [answerChain]

@[simp] theorem ceiling_takeChainReq {mark : Nat} : ceiling (takeChainReq mark d) = ceiling d := by
  unfold takeChainReq
  split <;> simp

@[simp] theorem ceiling_useChain {mark : Nat} {h : BitVec 128} : ceiling (useChain mark h d) = ceiling d := by
  unfold useChain
  split
  · simp
  · split <;> simp

@[simp] theorem ceiling_takeChain {mark : Nat} {h : BitVec 128} : ceiling (takeChain mark h d) = ceiling d := by
  unfold takeChain
  split <;> simp

@[simp] theorem ceiling_renumberGroup {s first : Nat} {g : Machine.Group} : ceiling (renumberGroup s first g d).2 = ceiling d := by
  simp [renumberGroup]

@[simp] theorem ceiling_pumpRenumber : ceiling (pumpRenumber d) = ceiling d := by
  refine ceiling_foldl fun d r => ?_
  dsimp only
  split
  · simp
  · split
    · exact (ceiling_foldlPair fun _ _ => ceiling_renumberGroup).trans ceiling_updLath
    · rfl

@[simp] theorem ceiling_attach : ceiling (attach d) = ceiling d := by simp [attach]

@[simp] theorem ceiling_refuseAttach {b : AttachBlock} : ceiling (refuseAttach b d) = ceiling d := by simp [refuseAttach]

@[simp] theorem ceiling_considerAttach : ceiling (considerAttach d) = ceiling d := by
  unfold considerAttach
  split <;> simp

@[simp] theorem ceiling_takeBlock {b : AttachBlock} : ceiling (takeBlock b d) = ceiling d := by simp [takeBlock]

@[simp] theorem ceiling_takeHello {b : AttachBlock} : ceiling (takeHello b d) = ceiling d := by simp [takeHello]

@[simp] theorem ceiling_takeMode {m : Mode} {sealing : Bool} : ceiling (takeMode m sealing d) = ceiling d := by simp [takeMode]

@[simp] theorem ceiling_lathLost : ceiling (lathLost d) = ceiling d := by simp [lathLost]

@[simp] theorem ceiling_lathUp : ceiling (lathUp d) = ceiling d := by simp [lathUp]

@[simp] theorem ceiling_notePulse : ceiling (notePulse d) = ceiling d := by simp [notePulse]

@[simp] theorem ceiling_openExchange {x : Exchange} : ceiling (openExchange x d) = ceiling d := by simp [openExchange]

@[simp] theorem ceiling_landGroup {x : Exchange} {rs : List (Nat × Nat)} {bs : List Byte} : ceiling (landGroup x rs bs d) = ceiling d := by
  simp only [landGroup]
  repeat' split
  all_goals simp

@[simp] theorem ceiling_exchangeWhole {x : Exchange} : ceiling (exchangeWhole x d) = ceiling d := by
  simp only [exchangeWhole]
  repeat' split
  all_goals simp

@[simp] theorem ceiling_takeUnit {catching : Bool} {xid unit : Nat} {bytes : List Byte} {poison : BitVec 32} :
    ceiling (takeUnit catching xid unit bytes poison d) = ceiling d := by
  unfold takeUnit
  split <;> simp

@[simp] theorem ceiling_takeVerified {xid mark : Nat} {ovr : Bool} : ceiling (takeVerified xid mark ovr d) = ceiling d := by
  unfold takeVerified
  split <;> simp

@[simp] theorem ceiling_takeFailed {xid mark status : Nat} : ceiling (takeFailed xid mark status d) = ceiling d := by
  unfold takeFailed
  repeat' split
  all_goals simp

@[simp] theorem ceiling_takeAbort {xid mark : Nat} : ceiling (takeAbort xid mark d) = ceiling d := by
  simp only [takeAbort]
  repeat' split
  all_goals simp

@[simp] theorem ceiling_catchEnded {xid : Nat} {ok : Bool} : ceiling (catchEnded xid ok d) = ceiling d := by
  unfold catchEnded
  repeat' split
  all_goals simp

@[simp] theorem ceiling_answerPoison {xid unit : Nat} : ceiling (answerPoison xid unit d) = ceiling d := by simp [answerPoison]

@[simp] theorem ceiling_takeRecovReq {xid mark unit : Nat} : ceiling (takeRecovReq xid mark unit d) = ceiling d := by
  simp only [takeRecovReq]
  repeat' split
  all_goals simp

@[simp] theorem ceiling_detachDone {leaving : Nat} {tag : Option Nat} : ceiling (detachDone leaving tag d) = ceiling d := by
  unfold detachDone
  split <;> simp

@[simp] theorem ceiling_pumpDetach : ceiling (pumpDetach d) = ceiling d := by
  unfold pumpDetach
  split <;> simp

@[simp] theorem ceiling_beginDetach {leaving : Nat} {tag : Option Nat} : ceiling (beginDetach leaving tag d) = ceiling d := by
  simp [beginDetach]

@[simp] theorem ceiling_pumpTwin : ceiling (pumpTwin d) = ceiling d := by simp [pumpTwin]

/-! ### The definitions of Sys2Proof/Machine/FlashCmd.lean -/

@[simp] theorem ceiling_flashApply {op : FlashOp} {a : Nat} : ceiling (flashApply op a d) = ceiling d := by
  unfold flashApply
  split <;> simp

@[simp] theorem ceiling_startFlash {op : FlashOp} : ceiling (startFlash op d) = ceiling d := by simp [startFlash]

@[simp] theorem ceiling_noteDue {sector : Nat} : ceiling (noteDue sector d) = ceiling d := by simp [noteDue]

@[simp] theorem ceiling_deliverFlash {bs : List Byte} {poison : Bool} : ceiling (deliverFlash bs poison d) = ceiling d := by
  simp [deliverFlash]

@[simp] theorem ceiling_noteChunk {r : ChunkRead} : ceiling (noteChunk r d) = ceiling d := by simp [noteChunk]

@[simp] theorem ceiling_senseChunk {k : Nat} {flips : List Nat} : ceiling (senseChunk k flips d) = ceiling d := by
  simp only [senseChunk]
  repeat' split
  all_goals simp

@[simp] theorem ceiling_askSuspend {auto : Bool} : ceiling (askSuspend auto d) = ceiling d := by simp [askSuspend]

@[simp] theorem ceiling_flashRead {k : Nat} {flips : List Nat} : ceiling (flashRead k flips d) = ceiling d := by simp [flashRead]

@[simp] theorem ceiling_serveWaiting : ceiling (serveWaiting d) = ceiling d := by simp [serveWaiting]

@[simp] theorem ceiling_resumeFlash : ceiling (resumeFlash d) = ceiling d := by simp [resumeFlash]

@[simp] theorem ceiling_cutRange {lo n : Nat} : ceiling (cutRange lo n d) = ceiling d := by simp [cutRange]

@[simp] theorem ceiling_flashDone {verified : Bool} : ceiling (flashDone verified d) = ceiling d := by
  unfold flashDone
  split <;> simp

@[simp] theorem ceiling_scrubSector {sector : Nat} {flips : List (Nat × List Nat)} : ceiling (scrubSector sector flips d) = ceiling d := by
  simp [scrubSector]

@[simp] theorem ceiling_programChunk {k : Nat} {raw : List Byte} {r : Option ChunkRead} : ceiling (programChunk k raw r d) = ceiling d := by
  unfold programChunk
  split <;> simp

@[simp] theorem ceiling_rewriteSector {n m : Nat} : ceiling (rewriteSector n m d) = ceiling d := by simp [rewriteSector]

@[simp] theorem ceiling_refreshFlash {n : Nat} : ceiling (refreshFlash n d) = ceiling d := by
  unfold refreshFlash
  split
  · simp
  · split <;> simp

@[simp] theorem ceiling_updEvt {f : EventLog → EventLog} : ceiling (updEvt f d) = ceiling d := by simp [updEvt]

@[simp] theorem ceiling_putEvent {tick origin source code : Nat} {detail : List Byte} :
    ceiling (putEvent tick origin source code detail d) = ceiling d := by
  simp [putEvent]

@[simp] theorem ceiling_rollHour : ceiling (rollHour d) = ceiling d := by simp [rollHour]

@[simp] theorem ceiling_logEventAt {tick origin source code : Nat} {detail : List Byte} :
    ceiling (logEventAt tick origin source code detail d) = ceiling d := by
  simp [logEventAt]

@[simp] theorem ceiling_logEvent {origin source code : Nat} {detail : List Byte} :
    ceiling (logEvent origin source code detail d) = ceiling d := by
  simp [logEvent]

@[simp] theorem ceiling_writeQueued : ceiling (writeQueued d) = ceiling d := by
  unfold writeQueued
  split <;> simp

@[simp] theorem ceiling_programMark {a : Nat} : ceiling (programMark a d) = ceiling d := by simp [programMark]

@[simp] theorem ceiling_imageStarts : ceiling (imageStarts d) = ceiling d := by
  simp only [imageStarts]
  repeat' split
  all_goals simp

/-! ### The definitions of Sys2Proof/Machine/Ecc.lean -/

@[simp] theorem ceiling_updEcc {f : Ecc → Ecc} : ceiling (updEcc f d) = ceiling d := by simp [updEcc]

@[simp] theorem ceiling_noteEcc {mem kind word : Nat} : ceiling (noteEcc mem kind word d) = ceiling d := by simp [noteEcc]

@[simp] theorem ceiling_dropLogEntry {n : Nat} : ceiling (dropLogEntry n d) = ceiling d := by simp [dropLogEntry]

@[simp] theorem ceiling_poisonWord {mem word : Nat} : ceiling (poisonWord mem word d) = ceiling d := by simp [poisonWord]

@[simp] theorem ceiling_scrubWord {mem word : Nat} {data : BitVec 64} {check : BitVec 8} {written : Bool} :
    ceiling (scrubWord mem word data check written d) = ceiling d := by
  unfold scrubWord
  split <;> simp

@[simp] theorem ceiling_splitOpen {v : Word32} : ceiling (splitOpen v d) = ceiling d := by simp [splitOpen]

@[simp] theorem ceiling_splitClose : ceiling (splitClose d) = ceiling d := by simp [splitClose]

@[simp] theorem ceiling_updRow {f : BitVec 64 × BitVec 8 → BitVec 64 × BitVec 8} : ceiling (updRow f d) = ceiling d := by simp [updRow]

@[simp] theorem ceiling_readRow : ceiling (readRow d) = ceiling d := by
  unfold readRow
  repeat' split
  all_goals simp

@[simp] theorem ceiling_zeroData {addr : Word32} : ceiling (zeroData addr d) = ceiling d := by simp [zeroData]

/-! ### The definitions of Sys2Proof/Machine/Supply.lean -/

@[simp] theorem ceiling_chargerOff : ceiling (chargerOff d) = ceiling d := by simp [chargerOff]

@[simp] theorem ceiling_chargerOn : ceiling (chargerOn d) = ceiling d := by simp [chargerOn]

@[simp] theorem ceiling_loadOnHawk : ceiling (loadOnHawk d) = ceiling d := by simp [loadOnHawk]

@[simp] theorem ceiling_loadOnVin : ceiling (loadOnVin d) = ceiling d := by simp [loadOnVin]

@[simp] theorem ceiling_stopBleedAndTest : ceiling (stopBleedAndTest d) = ceiling d := by simp [stopBleedAndTest]

@[simp] theorem ceiling_fillAfterSeal : ceiling (fillAfterSeal d) = ceiling d := by
  unfold fillAfterSeal
  split
  · simp
  · split <;> simp

@[simp] theorem ceiling_resumeFormat : ceiling (resumeFormat d) = ceiling d := by simp [resumeFormat]

@[simp] theorem ceiling_spinUp : ceiling (spinUp d) = ceiling d := by simp [spinUp]

@[simp] theorem ceiling_armNow : ceiling (armNow d) = ceiling d := by simp [armNow]

@[simp] theorem ceiling_reArmed : ceiling (reArmed d) = ceiling d := by simp [reArmed]

@[simp] theorem ceiling_rideOver : ceiling (rideOver d) = ceiling d := by simp [rideOver]

@[simp] theorem ceiling_supplyByStack : ceiling (supplyByStack d) = ceiling d := by
  unfold supplyByStack
  split
  · simp
  · split <;> simp

@[simp] theorem ceiling_abortReads : ceiling (abortReads d) = ceiling d := by simp [abortReads]

@[simp] theorem ceiling_stopSled : ceiling (stopSled d) = ceiling d := by
  unfold stopSled
  split <;> simp

@[simp] theorem ceiling_warnUnarmed : ceiling (warnUnarmed d) = ceiling d := by
  simp only [warnUnarmed]
  repeat' split
  all_goals simp

@[simp] theorem ceiling_beginRide : ceiling (beginRide d) = ceiling d := by simp [beginRide]

@[simp] theorem ceiling_warningBegins : ceiling (warningBegins d) = ceiling d := by
  simp only [warningBegins]
  repeat' split
  all_goals simp

@[simp] theorem ceiling_withWarning {f : Device → Device} (hf : ∀ e, ceiling (f e) = ceiling e) :
    ceiling (withWarning f d) = ceiling d := by
  simp [withWarning, hf]

@[simp] theorem ceiling_takePwrwarn {on : Bool} : ceiling (takePwrwarn on d) = ceiling d := by simp [takePwrwarn]

@[simp] theorem ceiling_beginReArm : ceiling (beginReArm d) = ceiling d := by simp [beginReArm]

@[simp] theorem ceiling_takeReturn : ceiling (takeReturn d) = ceiling d := by
  unfold takeReturn
  split <;> simp

@[simp] theorem ceiling_rewindRing {n : Nat} : ceiling (rewindRing n d) = ceiling d := by
  simp only [rewindRing]
  repeat' split
  all_goals simp

@[simp] theorem ceiling_dropWaiting : ceiling (dropWaiting d) = ceiling d := by simp [dropWaiting]

@[simp] theorem ceiling_stopCatchup : ceiling (stopCatchup d) = ceiling d := by simp [stopCatchup]

@[simp] theorem ceiling_beginSeal : ceiling (beginSeal d) = ceiling d := by simp [beginSeal]

@[simp] theorem ceiling_rewindPlacement {o : Nat} : ceiling (rewindPlacement o d) = ceiling d := by
  simp only [rewindPlacement]
  repeat' split
  all_goals simp

@[simp] theorem ceiling_noteFill {o : Nat} : ceiling (noteFill o d) = ceiling d := by
  suffices k : ∀ f, f = noteFill → ceiling (f o d) = ceiling d from k _ rfl
  intro f hf
  delta noteFill at hf
  obtain ⟨g, hg⟩ : ∃ g, g = groupOf := exists_eq
  obtain ⟨sg, hsg⟩ : ∃ sg, sg = sealGroups := exists_eq
  rw [← hg, ← hsg] at hf
  subst hf
  beta_reduce
  extract_lets r
  split
  · rfl
  · extract_lets z
    split
    split
    rfl

@[simp] theorem ceiling_abandonCluster {c : WriteCluster} : ceiling (abandonCluster c d) = ceiling d := by
  unfold abandonCluster
  split <;> simp

@[simp] theorem ceiling_abandonAssemblies : ceiling (abandonAssemblies d) = ceiling d := by simp [abandonAssemblies]

@[simp] theorem ceiling_detachOwnerOps : ceiling (detachOwnerOps d) = ceiling d := by simp [detachOwnerOps]

@[simp] theorem ceiling_settleSeal {old : List WriteCluster} : ceiling (settleSeal old d) = ceiling d := by simp [settleSeal]

@[simp] theorem ceiling_beginSealPark : ceiling (beginSealPark d) = ceiling d := by simp [beginSealPark]

@[simp] theorem ceiling_finishSealStep : ceiling (finishSealStep d) = ceiling d := by
  simp only [finishSealStep]
  repeat' split
  all_goals simp

@[simp] theorem ceiling_dropCheckpoint {c : WriteCluster} : ceiling (dropCheckpoint c d) = ceiling d := by simp [dropCheckpoint]

@[simp] theorem ceiling_sealEntry : ceiling (sealEntry d) = ceiling d := by simp [sealEntry]

@[simp] theorem ceiling_sealDone : ceiling (sealDone d) = ceiling d := by simp [sealDone]

@[simp] theorem ceiling_refCheck {refB : Nat} : ceiling (refCheck refB d) = ceiling d := by simp [refCheck]

@[simp] theorem ceiling_wireTest {moves : List Nat} : ceiling (wireTest moves d) = ceiling d := by simp [wireTest]

@[simp] theorem ceiling_mismatchCheck : ceiling (mismatchCheck d) = ceiling d := by simp [mismatchCheck]

@[simp] theorem ceiling_alarmCheck : ceiling (alarmCheck d) = ceiling d := by simp [alarmCheck]

@[simp] theorem ceiling_stackLevels : ceiling (stackLevels d) = ceiling d := by simp [stackLevels]

@[simp] theorem ceiling_chargerStep {current : Nat} : ceiling (chargerStep current d) = ceiling d := by simp [chargerStep]

@[simp] theorem ceiling_restartMonitor : ceiling (restartMonitor d) = ceiling d := by simp [restartMonitor]

@[simp] theorem ceiling_takeCells {cells : List Nat} {refB : Nat} : ceiling (takeCells cells refB d) = ceiling d := by simp [takeCells]

@[simp] theorem ceiling_noteBeat : ceiling (noteBeat d) = ceiling d := by simp [noteBeat]

@[simp] theorem ceiling_takeResults {cells : List Nat} {refB : Nat} {tapMoves : List Nat} :
    ceiling (takeResults cells refB tapMoves d) = ceiling d := by
  simp [takeResults]

@[simp] theorem ceiling_monitorCycle {cells : List Nat} {refB coarse current : Nat} {tapMoves : List Nat} :
    ceiling (monitorCycle cells refB coarse current tapMoves d) = ceiling d := by
  simp [monitorCycle]

@[simp] theorem ceiling_balance {v : Word32} : ceiling (balance v d) = ceiling d := by simp [balance]

@[simp] theorem ceiling_testDone {fallMv ticks : Nat} : ceiling (testDone fallMv ticks d) = ceiling d := by simp [testDone]

/-! ### The definitions of Sys2Proof/Machine/Lockstep.lean -/

@[simp] theorem ceiling_pairTick : ceiling (pairTick d) = ceiling d := by simp [pairTick]

@[simp] theorem ceiling_freeOutput : ceiling (freeOutput d) = ceiling d := by simp [freeOutput]

@[simp] theorem ceiling_issuePair {r : DelayReg} : ceiling (issuePair r d) = ceiling d := by simp [issuePair]

@[simp] theorem ceiling_delayFaulted {cause : Nat} : ceiling (delayFaulted cause d) = ceiling d := by simp [delayFaulted]

@[simp] theorem ceiling_beginRestart : ceiling (beginRestart d) = ceiling d := by simp [beginRestart]

@[simp] theorem ceiling_mismatchAt {addr : Word32} : ceiling (mismatchAt addr d) = ceiling d := by simp [mismatchAt]

@[simp] theorem ceiling_coreMismatch {lead trail : BusCopy} {upsetA upsetB : BitVec 81} :
    ceiling (coreMismatch lead trail upsetA upsetB d) = ceiling d := by
  simp only [coreMismatch]
  repeat' split
  all_goals simp

@[simp] theorem ceiling_nextTest : ceiling (nextTest d) = ceiling d := by simp [nextTest]

@[simp] theorem ceiling_selftestFailed : ceiling (selftestFailed d) = ceiling d := by simp [selftestFailed]

@[simp] theorem ceiling_lockstepSelftest {lead trail : BusCopy} : ceiling (lockstepSelftest lead trail d) = ceiling d := by
  simp [lockstepSelftest]

@[simp] theorem ceiling_delayRegisterFault {upsetA upsetB : BitVec 81} : ceiling (delayRegisterFault upsetA upsetB d) = ceiling d := by
  simp only [delayRegisterFault]
  repeat' split
  all_goals simp

@[simp] theorem ceiling_restartDone : ceiling (restartDone d) = ceiling d := by simp [restartDone]

@[simp] theorem ceiling_warmRestartDone {crcOk otherOk : Bool} : ceiling (warmRestartDone crcOk otherOk d) = ceiling d := by
  simp [warmRestartDone]

/-! ### The definitions of Sys2Proof/Machine/FieldIo.lean -/

@[simp] theorem ceiling_pulseWindow {i : Nat} : ceiling (pulseWindow i d) = ceiling d := by simp [pulseWindow]

@[simp] theorem ceiling_latchOutputs {cross : Bool} {l : List Nat} : ceiling (latchOutputs cross l d) = ceiling d := by simp [latchOutputs]

@[simp] theorem ceiling_settleJoint {pins : BitVec 4} : ceiling (settleJoint pins d) = ceiling d := by simp [settleJoint]

@[simp] theorem ceiling_pulseSample {i : Nat} {pins : BitVec 4} : ceiling (pulseSample i pins d) = ceiling d := by simp [pulseSample]

@[simp] theorem ceiling_settleChecks : ceiling (settleChecks d) = ceiling d := by simp [settleChecks]

@[simp] theorem ceiling_noteSync : ceiling (noteSync d) = ceiling d := by simp [noteSync]

@[simp] theorem ceiling_sendSync : ceiling (sendSync d) = ceiling d := by
  unfold sendSync
  split <;> simp

@[simp] theorem ceiling_pulsePeriodEnd : ceiling (pulsePeriodEnd d) = ceiling d := by simp [pulsePeriodEnd]

@[simp] theorem ceiling_takeSync {ticks width localMask peerMask : Nat} :
    ceiling (takeSync ticks width localMask peerMask d) = ceiling d := by
  simp [takeSync]

@[simp] theorem ceiling_shutDown {i : Nat} : ceiling (shutDown i d) = ceiling d := by simp [shutDown]

@[simp] theorem ceiling_overcurrent {i : Nat} {shutdown : Bool} : ceiling (overcurrent i shutdown d) = ceiling d := by simp [overcurrent]

@[simp] theorem ceiling_outputRetry {i : Nat} {ended : Bool} : ceiling (outputRetry i ended d) = ceiling d := by simp [outputRetry]

@[simp] theorem ceiling_clearOutputs {v : Word32} : ceiling (clearOutputs v d) = ceiling d := by simp [clearOutputs]

@[simp] theorem ceiling_putInput {j : Nat} {on : Bool} : ceiling (putInput j on d) = ceiling d := by simp [putInput]

@[simp] theorem ceiling_takePeerInput {on : Bool} : ceiling (takePeerInput on d) = ceiling d := by simp [takePeerInput]

@[simp] theorem ceiling_takeInput {j : Nat} {on : Bool} : ceiling (takeInput j on d) = ceiling d := by
  unfold takeInput
  split <;> simp

/-! ### The definitions of Sys2Proof/Machine/Interrupts.lean -/

@[simp] theorem ceiling_updIcu {f : Icu → Icu} : ceiling (updIcu f d) = ceiling d := by simp [updIcu]

@[simp] theorem ceiling_putRead {v : Word32} : ceiling (putRead v d) = ceiling d := by simp [putRead]

@[simp] theorem ceiling_icuClaim {t : Nat} : ceiling (icuClaim t d) = ceiling d := by
  unfold icuClaim
  split <;> simp

@[simp] theorem ceiling_icuHostClaim : ceiling (icuHostClaim d) = ceiling d := by
  unfold icuHostClaim
  split <;> simp

@[simp] theorem ceiling_readClaim {who : Requester} {t : Nat} : ceiling (readClaim who t d) = ceiling d := by simp [readClaim]

@[simp] theorem ceiling_icuComplete {t n : Nat} : ceiling (icuComplete t n d) = ceiling d := by
  have : 0x450C + 0x10 * t ≠ 0xB004 := by omega
  simp [icuComplete, this]

@[simp] theorem ceiling_cfgRefused : ceiling (cfgRefused d) = ceiling d := by simp [cfgRefused]

@[simp] theorem ceiling_icuGate {who : Requester} {o : Nat} {g f : Device → Device} (hg : ∀ e, ceiling (g e) = ceiling e)
    (hf : ∀ e, ceiling (f e) = ceiling e) :
    ceiling (icuGate who o g f d) = ceiling d := by
  simp [icuGate, hg, hf]

@[simp] theorem ceiling_writeComplete {who : Requester} {t : Nat} {v : Word32} : ceiling (writeComplete who t v d) = ceiling d := by
  simp [writeComplete]

@[simp] theorem ceiling_bitArrayWrite {who : Requester} {o w : Nat} {v : Word32} {f : Nat → Device → Device}
    (hf : ∀ k e, ceiling (f k e) = ceiling e) :
    ceiling (bitArrayWrite who o w v f d) = ceiling d := by
  simp [bitArrayWrite, hf]

@[simp] theorem ceiling_writeMask {on : Bool} {s : Nat} : ceiling (writeMask on s d) = ceiling d := by simp [writeMask]

@[simp] theorem ceiling_pendSet1 {s : Nat} : ceiling (pendSet1 s d) = ceiling d := by simp [pendSet1]

@[simp] theorem ceiling_pendClr1 {s : Nat} : ceiling (pendClr1 s d) = ceiling d := by simp [pendClr1]

@[simp] theorem ceiling_writeMaskSet {who : Requester} {w : Nat} {v : Word32} : ceiling (writeMaskSet who w v d) = ceiling d := by
  simp [writeMaskSet]

@[simp] theorem ceiling_writeMaskClr {who : Requester} {w : Nat} {v : Word32} : ceiling (writeMaskClr who w v d) = ceiling d := by
  simp [writeMaskClr]

@[simp] theorem ceiling_writePendSet {who : Requester} {w : Nat} {v : Word32} : ceiling (writePendSet who w v d) = ceiling d := by
  simp [writePendSet]

@[simp] theorem ceiling_writePendClr {who : Requester} {w : Nat} {v : Word32} : ceiling (writePendClr who w v d) = ceiling d := by
  simp [writePendClr]

@[simp] theorem ceiling_setThreshold {t : Nat} {v : Word32} : ceiling (setThreshold t v d) = ceiling d := by simp [setThreshold]

@[simp] theorem ceiling_writeThreshold {who : Requester} {t : Nat} {v : Word32} : ceiling (writeThreshold who t v d) = ceiling d := by
  unfold writeThreshold
  split <;> simp

@[simp] theorem ceiling_setCfg {s : Nat} {v : Word32} : ceiling (setCfg s v d) = ceiling d := by simp [setCfg]

@[simp] theorem ceiling_writeCfg {who : Requester} {s : Nat} {v : Word32} : ceiling (writeCfg who s v d) = ceiling d := by
  unfold writeCfg
  split <;> simp

@[simp] theorem ceiling_setSlot {i : Nat} {v : Word32} : ceiling (setSlot i v d) = ceiling d := by simp [setSlot]

@[simp] theorem ceiling_writeSlot {who : Requester} {i : Nat} {v : Word32} : ceiling (writeSlot who i v d) = ceiling d := by
  simp [writeSlot]

@[simp] theorem ceiling_latchWake {src : Nat} {level : Bool} : ceiling (latchWake src level d) = ceiling d := by simp [latchWake]

@[simp] theorem ceiling_wake {src : Nat} {level : Bool} : ceiling (wake src level d) = ceiling d := by simp [wake]

@[simp] theorem ceiling_noteQuiet : ceiling (noteQuiet d) = ceiling d := by simp [noteQuiet]

@[simp] theorem ceiling_writeMsix {o : Nat} {v : Word32} (h : o < 512) : ceiling (writeMsix o v d) = ceiling d := by
  have : 0x1800 + o ≠ 0xB004 := by omega
  simp [writeMsix, this]

/-! ### The definitions of Sys2Proof/Machine/RegStore.lean -/

@[simp] theorem ceiling_afterStore {o : Nat} : ceiling (afterStore o d) = ceiling d := by simp [afterStore]

@[simp] theorem ceiling_storeReg {o : Nat} {v : Word32} (h : o ≠ 0xB004) : ceiling (storeReg o v d) = ceiling d := by simp [storeReg, h]

theorem featureWords_ne {fid o : Nat} (h : o ∈ featureWords fid) : o ≠ 0xB004 := by
  unfold featureWords at h
  rintro rfl
  split at h <;> simp at h

@[simp] theorem ceiling_setFeature {fid : Nat} {value : Nat → Word32} {d : Device} : ceiling (setFeature fid value d) = ceiling d := by
  have hne : ∀ p ∈ (featurePairs fid value).filter heldPair, p.1 ≠ 0xB004 := by
    intro p hp
    obtain ⟨q, hq, rfl⟩ := List.mem_map.1 (List.mem_of_mem_filter hp)
    exact featureWords_ne (List.of_mem_zip hq).2
  unfold setFeature
  extract_lets plain d₁ d₂
  have h₁ : ceiling d₁ = ceiling d := ceiling_foldl_mem fun p hp d => ceiling_setReg (hne p hp)
  have h₂ : ceiling d₂ = ceiling d₁ := ceiling_foldl fun _ _ => ceiling_afterStore
  simp [h₂, h₁]

/-! ### The definitions of Sys2Proof/Machine/Startup.lean -/

@[simp] theorem ceiling_writeCalibration {c : Calibration} : ceiling (writeCalibration c d) = ceiling d := by simp [writeCalibration]

@[simp] theorem ceiling_takeMeasured {p : Nat × Word32} : ceiling (takeMeasured d p) = ceiling d := by
  unfold takeMeasured
  split
  · rfl
  · rename_i h
    have hne : p.1 ≠ 0xB004 := by
      intro e
      simp [e, calibrationReg] at h
    simp [hne]

@[simp] theorem ceiling_opcEverywhere : ceiling (opcEverywhere d) = ceiling d := by simp [opcEverywhere]

@[simp] theorem ceiling_firstCalibration : ceiling (firstCalibration d) = ceiling d := rfl

@[simp] theorem ceiling_saveFeatures : ceiling (saveFeatures d) = ceiling d := by
  unfold saveFeatures
  split <;> simp

@[simp] theorem ceiling_identify {system : SystemScan} : ceiling (identify system d) = ceiling d := by
  unfold identify
  split <;> simp

@[simp] theorem ceiling_cartSeated {memory : List Byte} {system : SystemScan} : ceiling (cartSeated memory system d) = ceiling d := by
  simp [cartSeated]

@[simp] theorem ceiling_clearMedium : ceiling (clearMedium d) = ceiling d := by simp [clearMedium]

@[simp] theorem ceiling_cartTorn : ceiling (cartTorn d) = ceiling d := by
  simp only [cartTorn]
  repeat' split
  all_goals simp

@[simp] theorem ceiling_cartRemoved : ceiling (cartRemoved d) = ceiling d := by simp [cartRemoved]

@[simp] theorem ceiling_advancePhase : ceiling (advancePhase d) = ceiling d := by simp [advancePhase]

@[simp] theorem ceiling_checkDigest {digest : BitVec 256} : ceiling (checkDigest digest d) = ceiling d := by simp [checkDigest]

@[simp] theorem ceiling_noteTests {failMap : BitVec 16} {comparatorOk : Bool} {us : Nat} :
    ceiling (noteTests failMap comparatorOk us d) = ceiling d := by
  simp [noteTests]

@[simp] theorem ceiling_recoverGroup {o : Nat} {g : FoundGroup} : ceiling (recoverGroup o g d) = ceiling d := by simp [recoverGroup]

@[simp] theorem ceiling_placeRing {o i p g : Nat} {hs : List (Nat × Nat)} {cs : List ScannedCluster} :
    ceiling (placeRing o i p g hs cs d) = ceiling d := by
  suffices k : ∀ f, f = placeRing → ceiling (f o i p g hs cs d) = ceiling d from k _ rfl
  intro f hf
  delta placeRing at hf
  obtain ⟨rg, hrg⟩ : ∃ rg, rg = ringGroups := exists_eq
  rw [← hrg] at hf
  subst hf
  beta_reduce
  extract_lets r z gs
  split
  exact ceiling_updRcl.trans ceiling_updRing

@[simp] theorem ceiling_phaseA {o : Nat} {x : RecoveryScan} : ceiling (phaseA o x d) = ceiling d := by
  simp only [phaseA]
  repeat' split
  all_goals simp

@[simp] theorem ceiling_phaseB {o : Nat} : ceiling (phaseB o d) = ceiling d := by
  simp only [phaseB]
  repeat' split
  all_goals simp

@[simp] theorem ceiling_writeFwUpdate {v : Word32} : ceiling (writeFwUpdate v d) = ceiling d := by simp [writeFwUpdate]

@[simp] theorem ceiling_programImage {image : List Byte} : ceiling (programImage image d) = ceiling d := by simp [programImage]

theorem ceiling_updateDone {image : List Byte} {verified : Bool} {x : PowerOnInputs} {d : Device}
    (hr : (updateErr image verified d = 0 && d.gen.fwRestart) = false) : ceiling (updateDone image verified x d) = ceiling d := by
  unfold updateDone
  extract_lets err d₁ d₂
  have h₂ : ceiling d₂ = ceiling d := by simp [d₂, d₁]
  have hg : err = 0 → d₂.gen.fwRestart = d.gen.fwRestart := by
    intro he
    simp only [d₂, d₁, he, updGen, if_true, programImage_gen]
  rw [if_neg]
  · exact h₂
  · intro hc
    obtain ⟨he, hw⟩ := Bool.and_eq_true_iff.1 hc
    have he := of_decide_eq_true he
    simp [err, he, ← hg he, hw] at hr

@[simp] theorem ceiling_leaveAccepted {tag : Nat} {measured : Option (List (Nat × Word32))} :
    ceiling (leaveAccepted tag measured d) = ceiling d := by
  simp [leaveAccepted]

@[simp] theorem ceiling_leaveDust {tag : Nat} {measured : Option (List (Nat × Word32))} :
    ceiling (leaveDust tag measured d) = ceiling d := by
  simp [leaveDust]

/-! ### The definitions of Sys2Proof/Machine/RegRead.lean -/

@[simp] theorem ceiling_clearOnRead {o : Nat} : ceiling (clearOnRead o d) = ceiling d := by
  unfold clearOnRead
  split
  · rename_i h
    have hne : o ≠ 0xB004 := by
      rintro rfl
      exact absurd h (by decide)
    simp [hne]
  · simp

@[simp] theorem ceiling_readReg {who : Requester} {o : Nat} : ceiling (readReg who o d) = ceiling d := by simp [readReg]

@[simp] theorem ceiling_readBar0 {who : Requester} {width o : Nat} : ceiling (readBar0 who width o d) = ceiling d := by
  unfold readBar0
  split <;> simp

/-! ### The definitions of Sys2Proof/Machine/Checks.lean -/

@[simp] theorem ceiling_lineFor {c : Cmd} : ceiling (lineFor c d).2 = ceiling d := by
  unfold lineFor
  split <;> simp

@[simp] theorem ceiling_runCmd {tag : Nat} {p : Cmd → Bool} {f : Cmd → Device → Device} (hf : ∀ y0 e, ceiling (f y0 e) = ceiling e) :
    ceiling (runCmd tag p f d) = ceiling d := by
  unfold runCmd
  split <;> simp [hf]

@[simp] theorem ceiling_checkThen {f : Cmd → Device → Device} {c : Cmd} (hf : ∀ d, ceiling (f c d) = ceiling d) :
    ceiling (checkThen f c d) = ceiling d := by
  unfold checkThen
  split
  · rfl
  · split
    · simp
    · split <;> rename_i h
      · simp [ceiling_snd h ceiling_lineFor]
      · split <;> simp [hf, ceiling_snd h ceiling_lineFor]

@[simp] theorem ceiling_runOp {tag op : Nat} {f : Cmd → Device → Device} (hf : ∀ y0 e, ceiling (f y0 e) = ceiling e) :
    ceiling (runOp tag op f d) = ceiling d := by
  simp [runOp, hf]

@[simp] theorem ceiling_runSub {tag op sel : Nat} {f : Cmd → Device → Device} (hf : ∀ y0 e, ceiling (f y0 e) = ceiling e) :
    ceiling (runSub tag op sel f d) = ceiling d := by
  simp [runSub, hf]

@[simp] theorem ceiling_dispatchCmd {tag : Nat} : ceiling (dispatchCmd tag d) = ceiling d := by
  unfold dispatchCmd
  repeat' split
  all_goals simp

@[simp] theorem ceiling_takeCmd {c : Cmd} : ceiling (takeCmd c d) = ceiling d := by
  unfold takeCmd
  split <;> simp

/-! ### The definitions of Sys2Proof/Machine/HostData.lean -/

@[simp] theorem ceiling_goOn {tag : Nat} : ceiling (goOn tag d) = ceiling d := rfl

@[simp] theorem ceiling_pullPayload {tag : Nat} : ceiling (pullPayload tag d) = ceiling d := rfl

@[simp] theorem ceiling_issue {s n : Nat} : ceiling (issue s n d) = ceiling d := by simp [issue]

@[simp] theorem ceiling_withdrawAppend {c : Cmd} : ceiling (withdrawAppend c d) = ceiling d := by simp [withdrawAppend]

@[simp] theorem ceiling_placeAppend {c : Cmd} {rs : List (Nat × Nat)} : ceiling (placeAppend c rs d) = ceiling d := by simp [placeAppend]

@[simp] theorem ceiling_runAppend {c : Cmd} : ceiling (runAppend c d) = ceiling d := by
  unfold runAppend
  repeat' split
  all_goals simp

@[simp] theorem ceiling_addFar {tag : Nat} {x : Nat × Nat × List (List Byte × Bool)} : ceiling (addFar tag x d) = ceiling d := by
  simp [addFar]

@[simp] theorem ceiling_beginRead {c : Cmd} {n : Nat} {parts : List (Loc × Nat × Nat × Nat)}
    {far : List (Nat × Nat × List (List Byte × Bool))} :
    ceiling (beginRead c n parts far d) = ceiling d := by
  simp [beginRead]

@[simp] theorem ceiling_askUnit {g : GapRead} : ceiling (askUnit g d) = ceiling d := by simp [askUnit]

@[simp] theorem ceiling_endGap {tag : Nat} : ceiling (endGap tag d) = ceiling d := by simp [endGap]

@[simp] theorem ceiling_runReadMark {c : Cmd} : ceiling (runReadMark c d) = ceiling d := by
  simp only [runReadMark]
  repeat' split
  all_goals simp

@[simp] theorem ceiling_goRange {got : List (Nat × List (List Byte × Bool))} {c : Cmd} : ceiling (goRange got c d) = ceiling d := by
  simp only [goRange]
  repeat' split
  all_goals simp

@[simp] theorem ceiling_gapLearnt {g : GapRead} : ceiling (gapLearnt g d) = ceiling d := by
  simp only [gapLearnt]
  repeat' split
  all_goals simp

@[simp] theorem ceiling_gapUnit {g : GapRead} {bytes : List Byte} {poisoned : Bool} : ceiling (gapUnit g bytes poisoned d) = ceiling d := by
  simp [gapUnit]

@[simp] theorem ceiling_takeRecovData {xid unit : Nat} {bytes : List Byte} {poison : BitVec 32} :
    ceiling (takeRecovData xid unit bytes poison d) = ceiling d := by
  unfold takeRecovData
  split <;> simp

@[simp] theorem ceiling_searchLost {tag s q : Nat} {got : List (Nat × List (List Byte × Bool))} {strict : Bool} :
    ceiling (searchLost tag s q got strict d) = ceiling d := by
  unfold searchLost
  split <;> simp

@[simp] theorem ceiling_searchAgain {tag : Nat} {got : List (Nat × List (List Byte × Bool))} :
    ceiling (searchAgain tag got d) = ceiling d := by
  unfold searchAgain
  split <;> simp

@[simp] theorem ceiling_noteEnd {x : Search} {e : SearchEnd} : ceiling (noteEnd x e d) = ceiling d := by
  unfold noteEnd
  split <;> simp

@[simp] theorem ceiling_searchOver {x : Search} {e : SearchEnd} : ceiling (searchOver x e d) = ceiling d := by
  unfold searchOver
  split <;> simp

@[simp] theorem ceiling_pumpSearch {x : Search} : ceiling (pumpSearch d x) = ceiling d := by
  unfold pumpSearch
  dsimp only
  split
  · simp
  · split
    · split <;> simp
    · split
      · rfl
      · split <;> rename_i h <;> simp [ceiling_snd h ceiling_stepSearch]

@[simp] theorem ceiling_pumpSearches : ceiling (pumpSearches d) = ceiling d := by simp [pumpSearches]

@[simp] theorem ceiling_pumpGaps : ceiling (pumpGaps d) = ceiling d := by simp [pumpGaps]

@[simp] theorem ceiling_runHold {c : Cmd} : ceiling (runHold c d) = ceiling d := by simp [runHold]

@[simp] theorem ceiling_runRelease {c : Cmd} : ceiling (runRelease c d) = ceiling d := by simp [runRelease]

@[simp] theorem ceiling_runOpen {c : Cmd} : ceiling (runOpen c d) = ceiling d := by simp [runOpen]

@[simp] theorem ceiling_pumpCloses : ceiling (pumpCloses d) = ceiling d := by simp [pumpCloses]

@[simp] theorem ceiling_runClose {c : Cmd} : ceiling (runClose c d) = ceiling d := by simp [runClose]

/-! ### The definitions of Sys2Proof/Machine/HostBoot.lean -/

@[simp] theorem ceiling_runStage {c : Cmd} : ceiling (runStage c d) = ceiling d := by simp [runStage]

@[simp] theorem ceiling_runActivate {c : Cmd} : ceiling (runActivate c d) = ceiling d := by simp [runActivate]

@[simp] theorem ceiling_runBootRead {c : Cmd} : ceiling (runBootRead c d) = ceiling d := by
  unfold runBootRead
  split <;> simp

@[simp] theorem ceiling_runCreate {c : Cmd} : ceiling (runCreate c d) = ceiling d := by simp [runCreate]

@[simp] theorem ceiling_runRetire {c : Cmd} : ceiling (runRetire c d) = ceiling d := by simp [runRetire]

@[simp] theorem ceiling_runExport {point : DmaResult} {c : Cmd} : ceiling (runExport point c d) = ceiling d := by
  unfold runExport
  split <;> simp

/-! ### The definitions of Sys2Proof/Machine/HostAdmin.lean -/

@[simp] theorem ceiling_runIdentify {c : Cmd} : ceiling (runIdentify c d) = ceiling d := by simp [runIdentify]

@[simp] theorem ceiling_runGetLog {c : Cmd} : ceiling (runGetLog c d) = ceiling d := by simp [runGetLog]

@[simp] theorem ceiling_runSetFeature {c : Cmd} : ceiling (runSetFeature c d) = ceiling d := by simp [runSetFeature]

@[simp] theorem ceiling_runGetFeature {c : Cmd} : ceiling (runGetFeature c d) = ceiling d := by simp [runGetFeature]

@[simp] theorem ceiling_runEnter {c : Cmd} : ceiling (runEnter c d) = ceiling d := by simp [runEnter]

@[simp] theorem ceiling_runLeave {measured : Option (List (Nat × Word32))} {c : Cmd} : ceiling (runLeave measured c d) = ceiling d := by
  simp [runLeave]

@[simp] theorem ceiling_runDetach {c : Cmd} : ceiling (runDetach c d) = ceiling d := by simp [runDetach]

@[simp] theorem ceiling_runCommission {c : Cmd} : ceiling (runCommission c d) = ceiling d := by simp [runCommission]

@[simp] theorem ceiling_runConfirm {c : Cmd} : ceiling (runConfirm c d) = ceiling d := by simp [runConfirm]

@[simp] theorem ceiling_runEject {c : Cmd} : ceiling (runEject c d) = ceiling d := by simp [runEject]

@[simp] theorem ceiling_runSelf {failMap : BitVec 16} {comparatorOk : Bool} {us : Nat} {c : Cmd} :
    ceiling (runSelf failMap comparatorOk us c d) = ceiling d := by
  unfold runSelf
  split <;> simp

@[simp] theorem ceiling_runHeader {header : Option (List Byte)} {c : Cmd} : ceiling (runHeader header c d) = ceiling d := by
  unfold runHeader
  split <;> simp

@[simp] theorem ceiling_runTrigger {c : Cmd} : ceiling (runTrigger c d) = ceiling d := by simp [runTrigger]

/-! ### The definitions of Sys2Proof/Machine/Rings.lean -/

@[simp] theorem ceiling_lockSq {go : Bool} {n : Nat} : ceiling (lockSq go n d) = ceiling d := by simp [lockSq]

@[simp] theorem ceiling_lockCq {go : Bool} {n : Nat} : ceiling (lockCq go n d) = ceiling d := by simp [lockCq]

@[simp] theorem ceiling_setLock : ceiling (setLock d) = ceiling d := by simp [setLock]

@[simp] theorem ceiling_startPoll : ceiling (startPoll d) = ceiling d := by simp [startPoll]

@[simp] theorem ceiling_takeTail {page : List Byte} {n : Nat} : ceiling (takeTail page n d) = ceiling d := by simp [takeTail]

@[simp] theorem ceiling_takeHead {page : List Byte} {n : Nat} : ceiling (takeHead page n d) = ceiling d := by simp [takeHead]

@[simp] theorem ceiling_takePage {page : List Byte} : ceiling (takePage page d) = ceiling d := by simp [takePage]

@[simp] theorem ceiling_notePeak : ceiling (notePeak d) = ceiling d := by simp [notePeak]

@[simp] theorem ceiling_beginFetch {n : Nat} : ceiling (beginFetch n d) = ceiling d := by simp [beginFetch]

@[simp] theorem ceiling_fetchNext : ceiling (fetchNext d) = ceiling d := by
  unfold fetchNext
  repeat' split
  all_goals simp

@[simp] theorem ceiling_fetchError {n : Nat} : ceiling (fetchError n d) = ceiling d := by simp [fetchError]

@[simp] theorem ceiling_takeEntry {n : Nat} {e : List Byte} : ceiling (takeEntry n e d) = ceiling d := by simp [takeEntry]

@[simp] theorem ceiling_takeScatter {c : Cmd} {bytes : List Byte} : ceiling (takeScatter c bytes d) = ceiling d := by
  unfold takeScatter
  split <;> simp

@[simp] theorem ceiling_loseScatter {c : Cmd} : ceiling (loseScatter c d) = ceiling d := by simp [loseScatter]

@[simp] theorem ceiling_takePayload {tag : Nat} {res : DmaResult} : ceiling (takePayload tag res d) = ceiling d := by simp [takePayload]

@[simp] theorem ceiling_signalCq {n : Nat} : ceiling (signalCq n d) = ceiling d := by simp [signalCq]

@[simp] theorem ceiling_coalesce {n : Nat} {atOnce : Bool} : ceiling (coalesce n atOnce d) = ceiling d := by simp [coalesce]

@[simp] theorem ceiling_logError {c : Completion} : ceiling (logError c d) = ceiling d := by simp [logError]

@[simp] theorem ceiling_postOne {c : Completion} : ceiling (postOne c d) = ceiling d := by simp [postOne]

@[simp] theorem ceiling_resumeBus : ceiling (resumeBus d) = ceiling d := by simp [resumeBus]

@[simp] theorem ceiling_dropLink : ceiling (dropLink d) = ceiling d := by simp [dropLink]

@[simp] theorem ceiling_resetHostSrc {s : Nat} : ceiling (resetHostSrc d s) = ceiling d := by simp [resetHostSrc]

@[simp] theorem ceiling_resetHostIcu : ceiling (resetHostIcu d) = ceiling d := by simp [resetHostIcu]

@[simp] theorem ceiling_resetHostRegs : ceiling (resetHostRegs d) = ceiling d := by
  have hw : (resetHostRegs d).wrc = d.wrc := rfl
  simp only [ceiling, laserMax, Device.regF, hw, resetHostRegs_reg_other (d := d) (o := 0xB004) (.inr (by decide))]

@[simp] theorem ceiling_orphanCmds : ceiling (orphanCmds d) = ceiling d := by simp [orphanCmds]

@[simp] theorem ceiling_discardOne {c : Completion} : ceiling (discardOne c d) = ceiling d := by simp [discardOne]

@[simp] theorem ceiling_discardReady : ceiling (discardReady d) = ceiling d := by simp [discardReady]

@[simp] theorem ceiling_resetFunction : ceiling (resetFunction d) = ceiling d := by simp [resetFunction]

/-! ### The definitions of Sys2Proof/Machine/Registers.lean -/

@[simp] theorem ceiling_clearTablePoison {k : Nat} {v : Word32} : ceiling (clearTablePoison k v d) = ceiling d := by simp [clearTablePoison]

/-! ### The definitions of Sys2Proof/Machine/Tick.lean -/

@[simp] theorem ceiling_countLaser : ceiling (countLaser d) = ceiling d := by simp [countLaser]

@[simp] theorem ceiling_countTrial : ceiling (countTrial d) = ceiling d := by simp [countTrial]

@[simp] theorem ceiling_countIdle : ceiling (countIdle d) = ceiling d := by simp [countIdle]

@[simp] theorem ceiling_linkRest : ceiling (linkRest d) = ceiling d := by simp [linkRest]

@[simp] theorem ceiling_tickCounters : ceiling (tickCounters d) = ceiling d := by simp [tickCounters]

@[simp] theorem ceiling_pumpDrive : ceiling (pumpDrive d) = ceiling d := by simp [pumpDrive]

@[simp] theorem ceiling_pumpSeek : ceiling (pumpSeek d) = ceiling d := by
  unfold pumpSeek
  split
  · simp
  · split <;> simp

@[simp] theorem ceiling_pumpPark : ceiling (pumpPark d) = ceiling d := by simp [pumpPark]

@[simp] theorem ceiling_tickPumps : ceiling (tickPumps d) = ceiling d := by simp [tickPumps]

@[simp] theorem ceiling_tick : ceiling (tick d) = ceiling d := by simp [tick]

/-! ### Every command -/

/-- LASER_MAX, once written, stays so and is not raised (R143). -/
def Capped (d e : Device) : Prop := d.wrc.maxWritten = true → e.wrc.maxWritten = true ∧ laserMax e ≤ laserMax d

theorem Capped.of_ceiling (h : ceiling e = ceiling d) : Capped d e := by
  obtain ⟨hw, hm⟩ := Prod.mk.inj h
  exact fun w => ⟨hw.trans w, hm.le⟩

protected theorem Capped.refl : Capped d d := .of_ceiling rfl

protected theorem Capped.trans {d e f : Device} (h : Capped d e) (g : Capped e f) : Capped d f := fun w =>
  have ⟨he, hm⟩ := h w
  have ⟨hf, hn⟩ := g he
  ⟨hf, hn.trans hm⟩

/-- A write whose effect raises no ceiling raises none, whoever makes it. -/
protected theorem Capped.gate {who : Requester} {o : Nat} {hostOk : Bool} {f : Device → Device} (hf : ∀ d, Capped d (f d)) :
    Capped d (gate who o hostOk f d) := by
  unfold Machine.gate
  split
  · split
    · exact .of_ceiling ceiling_lockedWrite
    · split
      · exact hf d
      · exact .refl
  · split
    · unfold onBus
      split
      · exact hf d
      · exact .refl
    · exact .refl
  · unfold onBus
    split
    · exact hf d
    · exact .refl

theorem laserMax_setRegF {v : Nat} (h : v < 1024) : laserMax (setRegF 0xB004 9 0 v d) = v := by
  rw [laserMax, Device.regF, setRegF_reg, if_pos rfl, fld_wput (by decide) (by decide) h]

/-- A write after the first one only lowers LASER_MAX (R143). -/
theorem writeLaserMax_capped {v : Nat} : Capped d (writeLaserMax v d) := by
  intro hw
  have hlt : laserMax d < 1024 := Nat.mod_lt _ (by decide)
  unfold writeLaserMax
  rw [if_neg (by simp [hw])]
  split
  · rename_i hv
    extract_lets d₁ d₂
    have h₂ : ceiling d₂ = ceiling d₁ := ceiling_updWrc fun _ => rfl
    have h : ceiling (pumpCeiling (if d₂.wrc.laserOn then laserLevel d₂.wrc.level d₂ else d₂)) = ceiling d₁ := by simp [h₂]
    obtain ⟨hm, hx⟩ := Prod.mk.inj h
    exact ⟨hm.trans hw, hx.le.trans ((laserMax_setRegF (hv.trans hlt)).le.trans hv.le)⟩
  · split
    · exact ⟨hw, le_rfl⟩
    · exact Capped.of_ceiling (by simp) hw

/-- The command completes in `s`, and no ceiling is raised. -/
def CapsIn (s : State) (o : Host.Outcome State Fault Refusal) : Prop := ∃ e, o = .next { s with dev := e } ∧ Capped s.dev e

theorem CapsIn.effect {s : State} {f : Device → Device} (h : ceiling (f s.dev) = ceiling s.dev) : CapsIn s (effect s f) :=
  ⟨_, rfl, .of_ceiling h⟩

theorem exec_capped {s : State} {c : Instr} (hc : startsAnew c s.dev = false) (hw : ∀ who w o v, c ≠ .registerWrite who w o v) :
   CapsIn s (exec c s) := by
  cases c with
  | append => exact ⟨_, rfl, .of_ceiling (by simp)⟩
  | readMark => exact ⟨_, rfl, .of_ceiling (by simp)⟩
  | readRange => exact ⟨_, rfl, .of_ceiling (by simp)⟩
  | hold => exact ⟨_, rfl, .of_ceiling (by simp)⟩
  | releaseHold => exact ⟨_, rfl, .of_ceiling (by simp)⟩
  | bootStage => exact ⟨_, rfl, .of_ceiling (by simp)⟩
  | bootActivate => exact ⟨_, rfl, .of_ceiling (by simp)⟩
  | bootRead => exact ⟨_, rfl, .of_ceiling (by simp)⟩
  | ownerCreate => exact ⟨_, rfl, .of_ceiling (by simp)⟩
  | ownerRetire => exact ⟨_, rfl, .of_ceiling (by simp)⟩
  | ownerExportKey => exact ⟨_, rfl, .of_ceiling (by simp)⟩
  | streamOpen => exact ⟨_, rfl, .of_ceiling (by simp)⟩
  | streamClose => exact ⟨_, rfl, .of_ceiling (by simp)⟩
  | identify => exact ⟨_, rfl, .of_ceiling (by simp)⟩
  | getLog => exact ⟨_, rfl, .of_ceiling (by simp)⟩
  | setFeature => exact ⟨_, rfl, .of_ceiling (by simp)⟩
  | getFeature => exact ⟨_, rfl, .of_ceiling (by simp)⟩
  | enterDustSheet => exact ⟨_, rfl, .of_ceiling (by simp)⟩
  | leaveDustSheet => exact ⟨_, rfl, .of_ceiling (by simp)⟩
  | detachRequest => exact ⟨_, rfl, .of_ceiling (by simp)⟩
  | commission => exact ⟨_, rfl, .of_ceiling (by simp)⟩
  | confirm => exact ⟨_, rfl, .of_ceiling (by simp)⟩
  | cartridgeEjectPrep => exact ⟨_, rfl, .of_ceiling (by simp)⟩
  | runSelftest => exact ⟨_, rfl, .of_ceiling (by simp)⟩
  | readHeader => exact ⟨_, rfl, .of_ceiling (by simp)⟩
  | trigger => exact ⟨_, rfl, .of_ceiling (by simp)⟩
  | doorbellPoll => exact ⟨_, rfl, .of_ceiling (by simp)⟩
  | doorbellPollReturn =>
    refine ⟨_, rfl, .of_ceiling (ceiling_onlyIf fun _ => ?_)⟩
    split <;> simp
  | fetchEntry => exact ⟨_, rfl, .of_ceiling (by simp)⟩
  | entryFetched =>
    refine ⟨_, rfl, .of_ceiling ?_⟩
    dsimp only
    split
    · rfl
    · split <;> simp
  | postCompletion =>
    refine ⟨_, rfl, .of_ceiling (ceiling_onlyIf fun _ => ?_)⟩
    split <;> simp
  | coalesceTimerExpiry => exact ⟨_, rfl, .of_ceiling (by simp)⟩
  | conventionalReset => exact ⟨_, rfl, .of_ceiling (by simp)⟩
  | linkDown => exact ⟨_, rfl, .of_ceiling (by simp)⟩
  | linkUp => exact ⟨_, rfl, .of_ceiling (by simp)⟩
  | busMasterEnableChange => exact ⟨_, rfl, .of_ceiling (by simp)⟩
  | setupLock => exact ⟨_, rfl, .of_ceiling (by simp)⟩
  | registerWrite => exact absurd rfl (hw _ _ _ _)
  | rcFieldRead => exact ⟨_, rfl, .of_ceiling (by simp)⟩
  | tickLoRead => exact ⟨_, rfl, .of_ceiling (by simp)⟩
  | bar0ReadInRetention => exact ⟨_, rfl, .of_ceiling (by simp)⟩
  | boundsChange => exact ⟨_, rfl, .of_ceiling (by simp)⟩
  | excursionReturn => exact ⟨_, rfl, .of_ceiling (by simp)⟩
  | countWindowEnd => exact ⟨_, rfl, .of_ceiling (by simp)⟩
  | loopSample =>
    exact ⟨_, rfl, .of_ceiling (ceiling_onlyIf fun h => ceiling_sampleLoop (of_decide_eq_true (Bool.and_eq_true_iff.1 h).1))⟩
  | loopComputeDone => exact ⟨_, rfl, .of_ceiling (by simp)⟩
  | loopOutputInstant => exact ⟨_, rfl, .of_ceiling (by simp)⟩
  | loopOpen => exact ⟨_, rfl, .of_ceiling (by simp)⟩
  | loopHold => exact ⟨_, rfl, .of_ceiling (by simp)⟩
  | loopClose => exact ⟨_, rfl, .of_ceiling (by simp)⟩
  | loopAcquire => exact ⟨_, rfl, .of_ceiling (by simp)⟩
  | discardShadow => exact ⟨_, rfl, .of_ceiling (by simp)⟩
  | acqTimeout => exact ⟨_, rfl, .of_ceiling (by simp)⟩
  | holdTimeout =>
    refine ⟨_, rfl, .of_ceiling (ceiling_onlyIf fun h => ceiling_holdTimeoutLoop ?_)⟩
    simp only [Bool.and_eq_true, decide_eq_true_eq] at h
    exact h.1.1
  | coefLiveWrite =>
    refine ⟨_, rfl, .of_ceiling (ceiling_onlyIf fun h => ceiling_gate fun d => ceiling_if ceiling_rejectCoef (ceiling_setReg ?_))⟩
    simp only [Bool.and_eq_true, decide_eq_true_eq] at h
    omega
  | coefShadowWrite =>
    refine ⟨_, rfl, .of_ceiling (ceiling_onlyIf fun h => ceiling_gate fun d => ceiling_if ceiling_rejectCoef
      (ceiling_updLoop.trans (ceiling_setReg ?_)))⟩
    simp only [Bool.and_eq_true, decide_eq_true_eq] at h
    omega
  | seqRun => exact ⟨_, rfl, .of_ceiling (by simp)⟩
  | seqKick => exact ⟨_, rfl, .of_ceiling (ceiling_gate fun _ => rfl)⟩
  | move => exact ⟨_, rfl, .of_ceiling (ceiling_gate fun d => by split <;> simp)⟩
  | home => exact ⟨_, rfl, .of_ceiling (by simp)⟩
  | park => exact ⟨_, rfl, .of_ceiling (by simp)⟩
  | stop => exact ⟨_, rfl, .of_ceiling (ceiling_gate fun d => by split <;> simp)⟩
  | gearEngage => exact ⟨_, rfl, .of_ceiling (by simp)⟩
  | gearDisengage => exact ⟨_, rfl, .of_ceiling (by simp)⟩
  | clearFault => exact ⟨_, rfl, .of_ceiling (by simp)⟩
  | microstepDue => exact ⟨_, rfl, .of_ceiling (by simp)⟩
  | limitSwitchChange => exact ⟨_, rfl, .of_ceiling (by simp)⟩
  | encoderEdge => exact ⟨_, rfl, .of_ceiling (by simp)⟩
  | gearArm => exact ⟨_, rfl, .of_ceiling (by simp)⟩
  | gearCancel => exact ⟨_, rfl, .of_ceiling (by simp)⟩
  | sectorSync => exact ⟨_, rfl, .of_ceiling (by simp)⟩
  | fastDecodeDone => exact ⟨_, rfl, .of_ceiling (by simp)⟩
  | deepIterationDone => exact ⟨_, rfl, .of_ceiling (by simp)⟩
  | clusterReread =>
    refine ⟨_, rfl, .of_ceiling ?_⟩
    dsimp only
    split <;> simp
  | egressDecryptDone => exact ⟨_, rfl, .of_ceiling (by simp)⟩
  | rawResult => exact ⟨_, rfl, .of_ceiling (by simp)⟩
  | inPlaceRetry => exact ⟨_, rfl, .of_ceiling (by simp)⟩
  | laserMaxWrite => exact ⟨_, rfl, .gate fun _ => writeLaserMax_capped⟩
  | writeInhibit => exact ⟨_, rfl, .of_ceiling (by simp)⟩
  | opcTestStep => exact ⟨_, rfl, .of_ceiling (by simp)⟩
  | opcTestStepDone =>
    refine ⟨_, rfl, .of_ceiling ?_⟩
    dsimp only
    split <;> simp
  | staticOpc => exact ⟨_, rfl, .of_ceiling (by simp)⟩
  | stratDataAccess =>
    refine ⟨_, rfl, .of_ceiling ?_⟩
    split
    · exact ceiling_gate fun _ => ceiling_stratAccess
    · exact ceiling_onBus fun _ => ceiling_stratAccess
  | assemblyDelayExpiry => exact ⟨_, rfl, .of_ceiling (by simp)⟩
  | zoneEntry => exact ⟨_, rfl, .of_ceiling (by simp)⟩
  | nextZoneNaming => exact ⟨_, rfl, .of_ceiling (by simp)⟩
  | bootDigestCheck => exact ⟨_, rfl, .of_ceiling (by simp)⟩
  | recoveryPhaseA => exact ⟨_, rfl, .of_ceiling (by simp)⟩
  | recoveryPhaseB => exact ⟨_, rfl, .of_ceiling (by simp)⟩
  | appendAdmission =>
    refine ⟨_, rfl, .of_ceiling ?_⟩
    dsimp only
    split
    · exact ceiling_onlyIf fun _ => ceiling_setPhase
    · rfl
  | rngHealthFail => exact ⟨_, rfl, .of_ceiling (by simp)⟩
  | commissionTimeout => exact ⟨_, rfl, .of_ceiling (by simp)⟩
  | ageingTick => exact ⟨_, rfl, .of_ceiling (by simp)⟩
  | fillAfterWait => exact ⟨_, rfl, .of_ceiling (by simp)⟩
  | cacheSramError => exact ⟨_, rfl, .of_ceiling (by simp)⟩
  | invalidate => exact ⟨_, rfl, .of_ceiling (by simp)⟩
  | clean => exact ⟨_, rfl, .of_ceiling (by simp)⟩
  | purgeOwner => exact ⟨_, rfl, .of_ceiling (by simp)⟩
  | zeroLine => exact ⟨_, rfl, .of_ceiling (by simp)⟩
  | rangeOpDone =>
    refine ⟨_, rfl, .of_ceiling ?_⟩
    dsimp only
    split <;> simp
  | tableLineBusyClear => exact ⟨_, rfl, .of_ceiling (by simp)⟩
  | rd => exact ⟨_, rfl, .of_ceiling (by simp)⟩
  | own => exact ⟨_, rfl, .of_ceiling (by simp)⟩
  | upg => exact ⟨_, rfl, .of_ceiling (by simp)⟩
  | data => exact ⟨_, rfl, .of_ceiling (by simp)⟩
  | none => exact ⟨_, rfl, .of_ceiling (by simp)⟩
  | evicting => exact ⟨_, rfl, .of_ceiling (ceiling_receive fun d => ceiling_onlyIf fun _ => by simp)⟩
  | evict => exact ⟨_, rfl, .of_ceiling (by simp)⟩
  | evictD => exact ⟨_, rfl, .of_ceiling (by simp)⟩
  | cleanD => exact ⟨_, rfl, .of_ceiling (by simp)⟩
  | evictAck => exact ⟨_, rfl, .of_ceiling (by simp)⟩
  | credit => exact ⟨_, rfl, .of_ceiling (by simp)⟩
  | detach => exact ⟨_, rfl, .of_ceiling (by simp)⟩
  | detachAck => exact ⟨_, rfl, .of_ceiling (by simp)⟩
  | modeNote => exact ⟨_, rfl, .of_ceiling (by simp)⟩
  | appBegin => exact ⟨_, rfl, .of_ceiling (by simp)⟩
  | appData => exact ⟨_, rfl, .of_ceiling (by simp)⟩
  | appVerified => exact ⟨_, rfl, .of_ceiling (by simp)⟩
  | appFailed => exact ⟨_, rfl, .of_ceiling (by simp)⟩
  | appAbort => exact ⟨_, rfl, .of_ceiling (by simp)⟩
  | recovReq => exact ⟨_, rfl, .of_ceiling (by simp)⟩
  | recovData => exact ⟨_, rfl, .of_ceiling (by simp)⟩
  | ownerNote => exact ⟨_, rfl, .of_ceiling (by simp)⟩
  | ownerDone => exact ⟨_, rfl, .of_ceiling (by simp)⟩
  | catchBegin => exact ⟨_, rfl, .of_ceiling (by simp)⟩
  | catchData => exact ⟨_, rfl, .of_ceiling (by simp)⟩
  | catchDone => exact ⟨_, rfl, .of_ceiling (by simp)⟩
  | catchFailed => exact ⟨_, rfl, .of_ceiling (by simp)⟩
  | chainReq => exact ⟨_, rfl, .of_ceiling (by simp)⟩
  | chainVal => exact ⟨_, rfl, .of_ceiling (by simp)⟩
  | pulseSync => exact ⟨_, rfl, .of_ceiling (by simp)⟩
  | pairPoint =>
    refine ⟨_, rfl, .of_ceiling (ceiling_receive fun d => ceiling_onlyIf fun _ => ?_)⟩
    split <;> simp
  | pairConfirm => exact ⟨_, rfl, .of_ceiling (by simp)⟩
  | pairConfirmAck => exact ⟨_, rfl, .of_ceiling (by simp)⟩
  | hello => exact ⟨_, rfl, .of_ceiling (by simp)⟩
  | helloAck => exact ⟨_, rfl, .of_ceiling (by simp)⟩
  | tableXfer => exact ⟨_, rfl, .of_ceiling (by simp)⟩
  | keyXfer => exact ⟨_, rfl, .of_ceiling (by simp)⟩
  | cartReg => exact ⟨_, rfl, .of_ceiling (by simp)⟩
  | lathLinkError => exact ⟨_, rfl, .of_ceiling (by simp)⟩
  | aliveToggle => exact ⟨_, rfl, .of_ceiling (by simp)⟩
  | alivePauseEnd => exact ⟨_, rfl, .of_ceiling (by simp)⟩
  | lathDown => exact ⟨_, rfl, .of_ceiling (by simp)⟩
  | lathLive => exact ⟨_, rfl, .of_ceiling (by simp)⟩
  | directionTake => exact ⟨_, rfl, .of_ceiling (by simp)⟩
  | arbCollision => exact ⟨_, rfl, .of_ceiling (by simp)⟩
  | guardTimeEnd => exact ⟨_, rfl, .of_ceiling (by simp)⟩
  | inPeerPulse => exact ⟨_, rfl, .of_ceiling (by simp)⟩
  | inPeerFaulted => exact ⟨_, rfl, .of_ceiling (by simp)⟩
  | inPeerHealthy => exact ⟨_, rfl, .of_ceiling (by simp)⟩
  | vinWarnAssert => exact ⟨_, rfl, .of_ceiling (by simp)⟩
  | vinWarnClear => exact ⟨_, rfl, .of_ceiling (by simp)⟩
  | returnCondition => exact ⟨_, rfl, .of_ceiling (by simp)⟩
  | pwrwarnInputChange => exact ⟨_, rfl, .of_ceiling (by simp)⟩
  | rideThroughWindowExpiry => exact ⟨_, rfl, .of_ceiling (by simp)⟩
  | sealLevelTrip => exact ⟨_, rfl, .of_ceiling (by simp)⟩
  | sealFinishEnd => exact ⟨_, rfl, .of_ceiling (by simp)⟩
  | sealCheckpointEnd => exact ⟨_, rfl, .of_ceiling (by simp)⟩
  | sealParkEnd => exact ⟨_, rfl, .of_ceiling (by simp)⟩
  | resetLevelTrip => cases hc
  | stackMonitorCycle => exact ⟨_, rfl, .of_ceiling (by simp)⟩
  | heartbeatLoss => exact ⟨_, rfl, .of_ceiling (by simp)⟩
  | balanceCommand => exact ⟨_, rfl, .of_ceiling (by simp)⟩
  | balanceExpiry => exact ⟨_, rfl, .of_ceiling (by simp)⟩
  | dischargeTestRequest => exact ⟨_, rfl, .of_ceiling (by simp)⟩
  | dischargeTestDue => exact ⟨_, rfl, .of_ceiling (by simp)⟩
  | dischargeTestStart => exact ⟨_, rfl, .of_ceiling (by simp)⟩
  | dischargeTestDone => exact ⟨_, rfl, .of_ceiling (by simp)⟩
  | coreMismatch => exact ⟨_, rfl, .of_ceiling (by simp)⟩
  | lockstepSelftest => exact ⟨_, rfl, .of_ceiling (by simp)⟩
  | lockstepSelftestFail => exact ⟨_, rfl, .of_ceiling (by simp)⟩
  | delayRegisterFault => exact ⟨_, rfl, .of_ceiling (by simp)⟩
  | warmRestartDone => exact ⟨_, rfl, .of_ceiling (by simp)⟩
  | testPulseWindow => exact ⟨_, rfl, .of_ceiling (by simp)⟩
  | pulseSampleInstant => exact ⟨_, rfl, .of_ceiling (by simp)⟩
  | pulsePeriodEnd => exact ⟨_, rfl, .of_ceiling (by simp)⟩
  | outputOvercurrent => exact ⟨_, rfl, .of_ceiling (by simp)⟩
  | outputRetry => exact ⟨_, rfl, .of_ceiling (by simp)⟩
  | faultClr => exact ⟨_, rfl, .of_ceiling (by simp)⟩
  | fieldSupplyLow => exact ⟨_, rfl, .of_ceiling (by simp)⟩
  | fieldSupplyRestored => exact ⟨_, rfl, .of_ceiling (by simp)⟩
  | fieldInputChange => exact ⟨_, rfl, .of_ceiling (by simp)⟩
  | program => exact ⟨_, rfl, .of_ceiling (by simp)⟩
  | eraseSector => exact ⟨_, rfl, .of_ceiling (by simp)⟩
  | eraseBlock => exact ⟨_, rfl, .of_ceiling (by simp)⟩
  | bitClear => exact ⟨_, rfl, .of_ceiling (by simp)⟩
  | suspend => exact ⟨_, rfl, .of_ceiling (by simp)⟩
  | resume => exact ⟨_, rfl, .of_ceiling (by simp)⟩
  | flashOpDone => exact ⟨_, rfl, .of_ceiling (by simp)⟩
  | flashRead => exact ⟨_, rfl, .of_ceiling (by simp)⟩
  | suspendReached => exact ⟨_, rfl, .of_ceiling (by simp)⟩
  | suspendHoldExpiry => exact ⟨_, rfl, .of_ceiling (by simp)⟩
  | autoSuspendEnd => exact ⟨_, rfl, .of_ceiling (by simp)⟩
  | flashScrub => exact ⟨_, rfl, .of_ceiling (by simp)⟩
  | flashRefresh => exact ⟨_, rfl, .of_ceiling (by simp)⟩
  | eventLogWrite => exact ⟨_, rfl, .of_ceiling (by simp)⟩
  | eventLogHourEnd => exact ⟨_, rfl, .of_ceiling (by simp)⟩
  | sramScrub => exact ⟨_, rfl, .of_ceiling (by simp)⟩
  | poisonConsumed => exact ⟨_, rfl, .of_ceiling (by simp)⟩
  | splitModeOpen => exact ⟨_, rfl, .of_ceiling (by simp)⟩
  | splitModeClose => exact ⟨_, rfl, .of_ceiling (by simp)⟩
  | splitModeTimeout => exact ⟨_, rfl, .of_ceiling (by simp)⟩
  | testWriteData => exact ⟨_, rfl, .of_ceiling (by simp)⟩
  | testWriteCheck => exact ⟨_, rfl, .of_ceiling (by simp)⟩
  | testRead => exact ⟨_, rfl, .of_ceiling (by simp)⟩
  | zeroWord => exact ⟨_, rfl, .of_ceiling (by simp)⟩
  | icuClaim => exact ⟨_, rfl, .of_ceiling (by simp)⟩
  | icuHostClaim => exact ⟨_, rfl, .of_ceiling (by simp)⟩
  | icuComplete => exact ⟨_, rfl, .of_ceiling (by simp)⟩
  | maskSet => exact ⟨_, rfl, .of_ceiling (by simp)⟩
  | maskClr => exact ⟨_, rfl, .of_ceiling (by simp)⟩
  | pendSet => exact ⟨_, rfl, .of_ceiling (by simp)⟩
  | pendClr => exact ⟨_, rfl, .of_ceiling (by simp)⟩
  | thresholdWrite => exact ⟨_, rfl, .of_ceiling (by simp)⟩
  | srcCfgWrite => exact ⟨_, rfl, .of_ceiling (by simp)⟩
  | wakeSlotWrite => exact ⟨_, rfl, .of_ceiling (by simp)⟩
  | wakeDetect => exact ⟨_, rfl, .of_ceiling (by simp)⟩
  | retentionEntry => exact ⟨_, rfl, .of_ceiling (by simp)⟩
  | idleTimerExpiry => exact ⟨_, rfl, .of_ceiling (by simp)⟩
  | powerStateExitDone => exact ⟨_, rfl, .of_ceiling (by simp)⟩
  | powerOnReset => cases hc
  | calibrationSave => exact ⟨_, rfl, .of_ceiling (by simp)⟩
  | cartridgeSeated => exact ⟨_, rfl, .of_ceiling (by simp)⟩
  | cartridgeRemoved => exact ⟨_, rfl, .of_ceiling (by simp)⟩
  | fwUpdateStart => exact ⟨_, rfl, .of_ceiling (by simp)⟩
  | fwUpdateDone =>
    refine ⟨_, rfl, .of_ceiling (ceiling_onlyIf fun h => ceiling_updateDone ?_)⟩
    simpa [startsAnew, h] using hc
  | confirmMark => exact ⟨_, rfl, .of_ceiling (by simp)⟩
  | heartbeatRestored => exact ⟨_, rfl, .of_ceiling (by simp)⟩
  | readFifoHighWater => exact ⟨_, rfl, .of_ceiling (by simp)⟩
  | defectBegin => exact ⟨_, rfl, .of_ceiling (by simp)⟩
  | defectEnd => exact ⟨_, rfl, .of_ceiling (by simp)⟩
  | readFifoOverflow => exact ⟨_, rfl, .of_ceiling (by simp)⟩
  | timingLockLost => exact ⟨_, rfl, .of_ceiling (by simp)⟩
  | dataFieldEnd => exact ⟨_, rfl, .of_ceiling (by simp)⟩
  | sectorWriteStart => exact ⟨_, rfl, .of_ceiling (by simp)⟩
  | payloadReadReturn =>
    refine ⟨_, rfl, .of_ceiling ?_⟩
    dsimp only
    split
    · rfl
    · refine ceiling_if (ceiling_onlyIf fun _ => ?_) (by simp)
      split <;> simp
  | clusterRefresh =>
    refine ⟨_, rfl, .of_ceiling ?_⟩
    dsimp only
    split <;> simp
  | vinAdcSample => exact ⟨_, rfl, .of_ceiling (by simp)⟩
  | junctionTemperatureLimit => exact ⟨_, rfl, .of_ceiling (by simp)⟩
  | refclkLoss => exact ⟨_, rfl, .of_ceiling (by simp)⟩
  | refclkReturn => exact ⟨_, rfl, .of_ceiling (by simp)⟩
  | msixTableWrite =>
    refine ⟨_, rfl, .of_ceiling (ceiling_onlyIf fun h => ceiling_writeMsix ?_)⟩
    simp only [Bool.and_eq_true, decide_eq_true_eq] at h
    exact h.1
  | laserOverClear => exact ⟨_, rfl, .of_ceiling (ceiling_gate fun d => by simp)⟩
  | writeInhibitClear => exact ⟨_, rfl, .of_ceiling (by simp)⟩
  | avsRailSettled => exact ⟨_, rfl, .of_ceiling (by simp)⟩
  | avsWindowEnd => exact ⟨_, rfl, .of_ceiling (by simp)⟩
  | crystalEdgeTimeout => exact ⟨_, rfl, .of_ceiling (by simp)⟩
  | focusLoss => exact ⟨_, rfl, .of_ceiling (by simp)⟩
  | seqWatchdogExpiry => exact ⟨_, rfl, .of_ceiling (by simp)⟩
  | seqHalt => exact ⟨_, rfl, .of_ceiling (by simp)⟩
  | profileReplan => exact ⟨_, rfl, .of_ceiling (by simp)⟩
  | moveComplete => exact ⟨_, rfl, .of_ceiling (by simp)⟩
  | emergencyRampAtRest => exact ⟨_, rfl, .of_ceiling (by simp)⟩
  | preDriverFault => exact ⟨_, rfl, .of_ceiling (by simp)⟩
  | homingFailed => exact ⟨_, rfl, .of_ceiling (by simp)⟩
  | writeFifoUnderrun => exact ⟨_, rfl, .of_ceiling (by simp)⟩
  | laserOverPower => exact ⟨_, rfl, .of_ceiling (by simp)⟩
  | laserIlkLow => exact ⟨_, rfl, .of_ceiling (by simp)⟩
  | laserIlkRestored => exact ⟨_, rfl, .of_ceiling (by simp)⟩
  | writeResume => exact ⟨_, rfl, .of_ceiling (by simp)⟩

@[simp] theorem ceiling_whenBit {v : Word32} {i : Nat} {f : Device → Device} (hf : ∀ e, ceiling (f e) = ceiling e) :
    ceiling (whenBit v i f d) = ceiling d := by simp [whenBit, hf]

/-! ### Register writes -/

/-- A write that reaches the command `c` of another row raises no ceiling. -/
theorem viaRow_capped (c : Instr) (hc : startsAnew c d = false := by rfl)
    (hw : ∀ who w o v, c ≠ .registerWrite who w o v := by exact nofun) : Capped d (viaRow (exec c) d) := by
  obtain ⟨e, he, h⟩ := exec_capped (s := { dev := d, pending := [] }) hc hw
  unfold viaRow
  rw [he]
  exact h

theorem Capped.whenBit {v : Word32} {i : Nat} {f : Device → Device}  (h : Capped d e) (hf : Capped e (f e)) :
    Capped d (whenBit v i f e) := by
  unfold Machine.whenBit
  split
  · exact h.trans hf
  · exact h

theorem Capped.if {c : Prop} [Decidable c] {d e f : Device} (he : c → Capped d e) (hf : ¬c → Capped d f) :
    Capped d (if c then e else f) := by
  split
  · exact he ‹_›
  · exact hf ‹_›

/-- A write whose effect leaves LASER_MAX as it is. -/
theorem Capped.gate_keeps {who : Requester} {o : Nat} {hostOk : Bool} {f : Device → Device}
    (hf : ∀ e, ceiling (f e) = ceiling e) : Capped d (Machine.gate who o hostOk f d) := .of_ceiling (ceiling_gate hf)

theorem writeLoopCtrl_capped {who : Requester} {n : Nat} {v : Word32} : Capped d (writeLoopCtrl who n v d) := by
  unfold writeLoopCtrl
  split
  · exact viaRow_capped (.loopOpen who n)
  · exact viaRow_capped (.loopHold who n)
  · exact viaRow_capped (.loopClose who n)
  · exact viaRow_capped (.loopAcquire who n)
  · exact viaRow_capped (.discardShadow who n)
  · exact .refl

theorem writeSeqCtrl_capped {who : Requester} {v : Word32} : Capped d (writeSeqCtrl who v d) :=
  (viaRow_capped (.seqRun who (wbit v 0))).whenBit (viaRow_capped (.seqKick who))

theorem writeSrv_capped {who : Requester} {o : Nat} {v : Word32} : Capped d (writeSrv who o v d) := by
  unfold writeSrv
  extract_lets n r
  refine .if (fun _ => viaRow_capped (.coefLiveWrite who n (r / 4) v)) fun _ =>
    .if (fun _ => viaRow_capped (.coefShadowWrite who n (r % 0x80 / 4) v)) fun _ =>
    .if (fun _ => writeLoopCtrl_capped) fun _ => .if (fun _ => .gate_keeps fun _ => ceiling_updLoop) fun _ => ?_
  split
  · exact .gate_keeps fun _ => ceiling_whenBit fun _ => rfl
  · exact writeSeqCtrl_capped
  · exact .gate_keeps fun _ => ceiling_whenBit fun _ => rfl
  · exact .refl

theorem writeMotionCmd_capped {who : Requester} {v : Word32} : Capped d (writeMotionCmd who v d) := by
  unfold writeMotionCmd
  split
  · exact viaRow_capped (.move who)
  · exact viaRow_capped (.home who)
  · exact viaRow_capped (.park who)
  · exact viaRow_capped (.stop who)
  · exact viaRow_capped (.gearEngage who)
  · exact viaRow_capped (.gearDisengage who)
  · exact viaRow_capped (.clearFault who)
  · exact .refl

theorem writeGearCtrl_capped {who : Requester} {v : Word32} : Capped d (writeGearCtrl who v d) := by
  unfold writeGearCtrl
  extract_lets e
  have he : Capped d e := .gate_keeps fun _ => ceiling_whenBit fun _ => ceiling_updMotion
  exact (he.whenBit (viaRow_capped (.gearCancel who))).whenBit (viaRow_capped (.gearArm who))

theorem startRangeOp_capped {who : Requester} : Capped d (startRangeOp who d) := by
  unfold startRangeOp
  split
  · exact viaRow_capped (.invalidate who)
  · exact viaRow_capped (.clean who)
  · exact viaRow_capped (.purgeOwner who)
  · exact viaRow_capped (.zeroLine who)
  · exact .refl

theorem writeCch_capped {who : Requester} {o : Nat} {v : Word32} : Capped d (writeCch who o v d) := by
  unfold writeCch
  refine .if (fun _ => (Capped.gate_keeps fun e => ?_).whenBit startRangeOp_capped) fun _ =>
    .if (fun _ => .gate_keeps fun _ => ceiling_whenBit fun _ => rfl) fun _ =>
    .if (fun _ => .gate_keeps fun _ => ceiling_clearTablePoison) fun _ => .refl
  simp [setRangeFields]

theorem startFlashOp_capped {who : Requester} : Capped d (startFlashOp who d) := by
  unfold startFlashOp
  split
  · exact viaRow_capped (.program who)
  · exact viaRow_capped (.eraseSector who)
  · exact viaRow_capped (.eraseBlock who)
  · exact viaRow_capped (.bitClear who)
  · exact viaRow_capped (.suspend who)
  · exact viaRow_capped (.resume who)
  · exact .refl

theorem writeFlashCmd_capped {who : Requester} {v : Word32} : Capped d (writeFlashCmd who v d) :=
  (Capped.gate_keeps fun _ => ceiling_setRegF (by decide)).whenBit startFlashOp_capped

theorem writeEcc_capped {who : Requester} {o : Nat} {v : Word32} : Capped d (writeEcc who o v d) := by
  unfold writeEcc
  split
  · exact (Capped.refl.whenBit (viaRow_capped (.splitModeClose who))).trans (viaRow_capped (.splitModeOpen who v))
  · exact ((Capped.refl.whenBit (viaRow_capped (.testWriteData who))).whenBit (viaRow_capped (.testWriteCheck who))).whenBit
      (viaRow_capped (.testRead who))
  · exact viaRow_capped (.zeroWord who v)
  · exact .refl

theorem writeIcu_capped {who : Requester} {o : Nat} {v : Word32} : Capped d (writeIcu who o v d) := by
  unfold writeIcu
  extract_lets w
  refine .if (fun _ => .refl) fun _ => .if (fun _ => viaRow_capped (.srcCfgWrite who ((o - 0x4000) / 4) v)) fun _ =>
    .if (fun _ => viaRow_capped (.maskSet who w v)) fun _ => .if (fun _ => viaRow_capped (.maskClr who w v)) fun _ =>
    .if (fun _ => viaRow_capped (.pendSet who w v)) fun _ => .if (fun _ => viaRow_capped (.pendClr who w v)) fun _ =>
    .if (fun _ => viaRow_capped (.wakeSlotWrite who ((o - 0x4600) / 4) v)) fun _ =>
    .if (fun _ => viaRow_capped (.thresholdWrite who ((o - 0x4500) / 0x10) v)) fun _ =>
    .if (fun _ => viaRow_capped (.icuComplete who ((o - 0x4508) / 0x10) v)) fun _ => .of_ceiling ?_
  simp [writeIcuOther]

theorem writeOther_capped {who : Requester} {o : Nat} {v : Word32} : Capped d (writeOther who o v d) := by
  unfold writeOther
  split
  · exact .if (fun _ => Capped.refl.whenBit (viaRow_capped .setupLock)) fun _ => .refl
  · exact viaRow_capped (.fwUpdateStart who v)
  · exact writeMotionCmd_capped
  · exact writeGearCtrl_capped
  · exact viaRow_capped (.laserMaxWrite who v)
  · exact Capped.refl.whenBit (viaRow_capped (.laserOverClear who))
  · exact .gate_keeps fun _ => ceiling_setReg (by decide)
  · exact viaRow_capped (.stratDataAccess who (some v))
  · exact viaRow_capped (.opcTestStep who v)
  · exact .gate_keeps fun _ => ceiling_setReg (by decide)
  · exact .gate_keeps fun _ => ceiling_whenBit fun _ => rfl
  · exact .gate_keeps fun _ => ceiling_whenBit fun _ => rfl
  · exact .gate_keeps fun _ => ceiling_whenBit fun _ => rfl
  · exact viaRow_capped (.balanceCommand who v)
  · exact (Capped.gate_keeps fun _ => ceiling_storeReg (by decide)).whenBit (viaRow_capped (.dischargeTestRequest who))
  · exact viaRow_capped (.faultClr who v)
  · exact writeFlashCmd_capped
  · exact .if (fun _ => .gate_keeps fun _ => ceiling_storeReg ‹_›) fun _ => .refl

theorem writeAt_capped {who : Requester} {o : Nat} {v : Word32} : Capped d (writeAt who o v d) := by
  unfold writeAt
  refine .if (fun _ => .refl) fun _ => .if (fun _ => ?_) fun _ => .if (fun _ => writeIcu_capped) fun _ =>
    .if (fun _ => writeOther_capped) fun _ => .if (fun _ => writeSrv_capped) fun _ => .if (fun _ => writeCch_capped) fun _ =>
    .if (fun _ => writeEcc_capped) fun _ => writeOther_capped
  exact viaRow_capped (.msixTableWrite (o - 0x1800) v)

theorem writeReg_capped {who : Requester} {width o : Nat} {v : Word32} : Capped d (writeReg who width o v d) := by
  unfold writeReg onBus
  exact .if (fun _ => .of_ceiling ceiling_lockedWrite) fun _ => .if (fun _ => .if (fun _ => writeAt_capped) fun _ => .refl) fun _ => .refl

/-! ### Every step -/

/-- No step but one that starts anew raises LASER_MAX (R143). -/
theorem step_capped {s t : State} (hc : ∀ c rest, s.pending = c :: rest → startsAnew c s.dev = false) (h : step s = .next t) :
    Capped s.dev t.dev := by
  unfold step at h
  split at h
  · obtain rfl := Host.Outcome.next.inj h
    dsimp only
    exact .of_ceiling ceiling_tick
  next c rest hp =>
    by_cases hw : ∃ who w o v, c = .registerWrite who w o v
    · obtain ⟨who, w, o, v, rfl⟩ := hw
      obtain rfl := Host.Outcome.next.inj h
      exact writeReg_capped (d := s.dev)
    · obtain ⟨e, he, hcap⟩ := exec_capped (s := { s with pending := rest }) (hc c rest hp) fun who w o v hx => hw ⟨who, w, o, v, hx⟩
      obtain rfl := Host.Outcome.next.inj (he.symm.trans h)
      exact hcap

end

/-- Settles O60: of all that a step runs, only a write of LASER_MAX and a power-on change it, and a write after the first only lowers it. -/
theorem laserMaxIsNeverRaised : Obligations.LaserMaxIsNeverRaised := fun _ _ hw hc h => step_capped hc h hw

end Sys2Proof.Machine
end

section
/-!
PROOFS. The write inhibit: what a new condition cuts and leaves, and when writing goes on.
-/

namespace Sys2Proof.Machine

set_option Elab.async false

section
variable {d e : Device}

/-! ### The conditions that hold (R157) -/

/-- The conditions of Table 06-5 that the core itself asserts: servo, motion, laser and pacing. -/
def coreCauses (d : Device) : BitVec 10 :=
  BitVec.ofNat 10 (16 * b2n (servoInhibit d) + 32 * b2n (motionInhibit d) + 256 * b2n (!d.wrc.ilk || d.wrc.overTrip)
    + 512 * b2n (d.pacing.fault || d.pwr.sealStep = 3))

/-- The conditions that the comparators and the medium report and that CTRL lets through: all, or all but bit 3. -/
def reportMask (d : Device) : BitVec 10 := BitVec.ofNat 10 (if wbit (d.reg 0xB000) 2 then 0xFFF else 0x3F7)

theorem inhibitNow_eq : inhibitNow d = (d.wrc.analog &&& reportMask d) ||| coreCauses d := rfl

/-- A reported condition other than bit 3 is always let through, and is none of the core's own. -/
theorem coreCauses_reported {k : Nat} (hk : k ∈ [0, 1, 2, 6, 7]) :
    (coreCauses d).getLsbD k = false ∧ (reportMask d).getLsbD k = true := by
  have core : ∀ a b c e : Bool, ∀ k ∈ [0, 1, 2, 6, 7],
      (BitVec.ofNat 10 (16 * b2n a + 32 * b2n b + 256 * b2n c + 512 * b2n e)).getLsbD k = false := by decide
  have mask : ∀ a : Bool, ∀ k ∈ [0, 1, 2, 6, 7], (BitVec.ofNat 10 (if a = true then 0xFFF else 0x3F7)).getLsbD k = true := by decide
  exact ⟨core _ _ _ _ k hk, mask _ k hk⟩

/-- A comparator's report shows among the conditions. -/
theorem inhibitNow_getLsbD {k : Nat} (hk : k ∈ [0, 1, 2, 6, 7]) : (inhibitNow d).getLsbD k = d.wrc.analog.getLsbD k := by
  obtain ⟨hcore, hmask⟩ := coreCauses_reported (d := d) hk
  simp [inhibitNow_eq, hcore, hmask]

/-- The core's own conditions do not follow from what else the write channel holds, nor from an interrupt. -/
theorem coreCauses_congr {os : List Nat} (h : OnlyIn (.wrc :: interruptParts) os d e) (hilk : e.wrc.ilk = d.wrc.ilk)
    (hover : e.wrc.overTrip = d.wrc.overTrip) : coreCauses e = coreCauses d := by
  have hservo : e.servo = d.servo := h.1 .servo (by decide)
  have hmotion : e.motion = d.motion := h.1 .motion (by decide)
  have hpacing : e.pacing = d.pacing := h.1 .pacing (by decide)
  have hpwr : e.pwr = d.pwr := h.1 .pwr (by decide)
  simp only [coreCauses, servoInhibit, motionInhibit, Device.loop, hservo, hmotion, hpacing, hpwr, hilk, hover]

theorem reportMask_congr {bs : List Block} {os : List Nat} (h : OnlyIn bs os d e) (hos : 0xB000 ∉ os) : reportMask e = reportMask d := by
  rw [reportMask, reportMask, h.2 0xB000 hos]

/-- A report that comes in adds its condition to those that hold. -/
theorem inhibitNow_reported {os : List Nat} {k : Nat} (hk : k ∈ [0, 1, 2, 6, 7]) (h : OnlyIn (.wrc :: interruptParts) os d e)
    (hos : 0xB000 ∉ os) (hilk : e.wrc.ilk = d.wrc.ilk) (hover : e.wrc.overTrip = d.wrc.overTrip)
    (hanalog : e.wrc.analog = d.wrc.analog ||| BitVec.ofNat 10 (2 ^ k)) : inhibitNow e = inhibitNow d ||| BitVec.ofNat 10 (2 ^ k) := by
  have hmask : BitVec.ofNat 10 (2 ^ k) &&& reportMask d = BitVec.ofNat 10 (2 ^ k) := by
    have closed : ∀ a : Bool, ∀ k ∈ [0, 1, 2, 6, 7],
        BitVec.ofNat 10 (2 ^ k) &&& BitVec.ofNat 10 (if a = true then 0xFFF else 0x3F7) = BitVec.ofNat 10 (2 ^ k) := by decide
    exact closed _ k hk
  rw [inhibitNow_eq, inhibitNow_eq, coreCauses_congr h hilk hover, reportMask_congr h hos, hanalog]
  generalize BitVec.ofNat 10 (2 ^ k) = m at *
  generalize d.wrc.analog = a, reportMask d = r, coreCauses d = c at *
  calc (a ||| m) &&& r ||| c = (a &&& r ||| m &&& r) ||| c := by rw [BitVec.and_or_distrib_right]
    _ = (a &&& r ||| c) ||| m := by rw [hmask, BitVec.or_assoc, BitVec.or_comm m, BitVec.or_assoc]

/-! ### What a cut leaves -/

/-- The write channel but for what a write-inhibit condition changes: the sector under way, the clusters' sector records, the laser's
level, the write times of the calibrations, and the inhibit itself. -/
def WriteChannel.settled (w : WriteChannel) : WriteChannel :=
  { w with clusters := [], writing := none, fifo := [], unsent := [], train := [], jumpedBack := false, opcDone := [], laserOn := false
           level := 0, inhibit := 0, clearSince := 0, held := false }

theorem laserToRead_wrc : ∃ on level, (laserToRead d).wrc = { d.wrc with laserOn := on, level := level } := by
  unfold laserToRead laserLevel
  split
  · split <;> exact ⟨_, _, rfl⟩
  · exact ⟨d.wrc.laserOn, d.wrc.level, rfl⟩

theorem endWriting_wrc (h : d.wrc.writing ≠ none) : ∃ opc, (endWriting d).wrc =
    { d.wrc with writing := none, fifo := [], unsent := [], train := [], jumpedBack := false, opcDone := opc } := by
  unfold endWriting
  split
  · contradiction
  · dsimp only
    split <;> exact ⟨_, rfl⟩

@[simp] theorem raise_wrc {k : Nat} : (raise k d).wrc = d.wrc := raise_onlyIn.1 .wrc (by decide)

@[simp] theorem count_wrc {o : Nat} : (count o d).wrc = d.wrc := rfl

theorem cutSector_none (h : d.wrc.writing = none) : cutSector d = d := by
  unfold cutSector
  rw [h]

theorem cutSector_some_eq {x : Nat × Nat} (h : d.wrc.writing = some x) : ∃ clusters, cutSector d =
    raise 99 (count 0xB0DC { endWriting d with wrc := { (endWriting d).wrc with clusters := clusters } }) := by
  unfold cutSector
  rw [h]
  exact ⟨_, rfl⟩

/-- A sector that is cut short is counted, source 99 is raised, and the write channel writes none (R159). -/
theorem cutSector_some {x : Nat × Nat} (h : d.wrc.writing = some x) :
    Raised 99 (cutSector d) ∧ (cutSector d).reg 0xB0DC = BitVec.ofNat 32 (min 0xFFFFFFFF ((d.reg 0xB0DC).toNat + 1)) ∧
      ∃ clusters opc, (cutSector d).wrc = { d.wrc with
        clusters := clusters, writing := none, fifo := [], unsent := [], train := [], jumpedBack := false, opcDone := opc } := by
  obtain ⟨opc, hend⟩ := endWriting_wrc (d := d) (by rw [h]; simp)
  have hreg : (endWriting d).reg 0xB0DC = d.reg 0xB0DC := endWriting_onlyIn.2 _ (by simp)
  obtain ⟨clusters, he⟩ := cutSector_some_eq h
  rw [he]
  refine ⟨raised_raise _ _, ?_, clusters, opc, ?_⟩
  · rw [raise_reg _ _ _ (by decide), count_reg, if_pos rfl, ← hreg]
    rfl
  · rw [raise_wrc, count_wrc, hend]

theorem cutSector_settled : (cutSector d).wrc.settled = d.wrc.settled := by
  cases h : d.wrc.writing with
  | none => rw [cutSector_none h]
  | some x =>
    obtain ⟨-, -, clusters, opc, he⟩ := cutSector_some h
    rw [he]
    rfl

/-- A write-inhibit change leaves the rest of the write channel. -/
theorem refreshInhibit_settled : (refreshInhibit d).wrc.settled = d.wrc.settled := by
  unfold refreshInhibit
  dsimp only
  split
  · rfl
  · split
    · rfl
    · next he h0 =>
      obtain ⟨on, level, hread⟩ := laserToRead_wrc (d := cutSector (voidPending _))
      rw [hread]
      exact (cutSector_settled (d := voidPending _)).trans rfl

/-- What the comparators report stays (R157). -/
theorem refreshInhibit_analog : (refreshInhibit d).wrc.analog = d.wrc.analog :=
  (congrArg WriteChannel.analog (refreshInhibit_settled (d := d)) :)

theorem raise_level {k n : Nat} : ((raise k d).src n).level = (d.src n).level := by
  rcases raise_spec k d with ⟨-, he⟩ | ⟨-, hdel⟩
  · rw [he]
    rfl
  · rw [hdel.2.1 n, updSrc_src]
    split
    · next h => rw [h]; rfl
    · rfl

theorem cutSector_level {n : Nat} : ((cutSector d).src n).level = (d.src n).level := by
  cases h : d.wrc.writing with
  | none => rw [cutSector_none h]
  | some x =>
    obtain ⟨clusters, he⟩ := cutSector_some_eq h
    rw [he, raise_level]
    exact congrArg Src.level (endWriting_onlyIn.src_eq (by decide) n)

/-- The write inhibit raises or lowers no source's level. -/
theorem refreshInhibit_level {n : Nat} : ((refreshInhibit d).src n).level = (d.src n).level := by
  unfold refreshInhibit
  dsimp only
  split
  · rfl
  · split
    · rfl
    · rw [laserToRead_onlyIn.src_eq (by decide)]
      exact (cutSector_level (d := voidPending _)).trans rfl

/-! ### A condition that begins -/

/-- What a new condition leaves before the sector under way is cut: it is latched, writing is held, and results that are awaited are
void (R157, R152). -/
def holdWriting (d : Device) : Device :=
  let d' := latchReg 0xB01C ((inhibitNow d).setWidth 32 &&& ~~~ (d.wrc.inhibit.setWidth 32)) d
  voidPending { d' with wrc := { d'.wrc with inhibit := inhibitNow d, clearSince := d.now, held := true } }

theorem refreshInhibit_holds (hnew : inhibitNow d ≠ d.wrc.inhibit) (hnow : inhibitNow d ≠ 0) :
    refreshInhibit d = laserToRead (cutSector (holdWriting d)) := by
  unfold refreshInhibit
  exact (if_neg hnew).trans (if_neg hnow)

theorem holdWriting_onlyIn : OnlyIn [.wrc] [0xB01C] d (holdWriting d) :=
  OnlyIn.refl.andThen setReg_onlyIn |>.andThen setWrc_onlyIn |>.andThen setWrc_onlyIn

/-- A condition that begins while a sector is being written cuts it (R157, R159). -/
theorem refreshInhibit_cuts {x : Nat × Nat} (hnew : inhibitNow d ≠ d.wrc.inhibit) (hnow : inhibitNow d ≠ 0)
    (hw : d.wrc.writing = some x) :
    let r := refreshInhibit d
    r.wrc.inhibit = inhibitNow d ∧ r.wrc.held = true ∧ r.wrc.writing = none ∧ Raised 99 r ∧
      r.reg 0xB01C = d.reg 0xB01C ||| ((inhibitNow d).setWidth 32 &&& ~~~ (d.wrc.inhibit.setWidth 32)) ∧
      r.reg 0xB0DC = BitVec.ofNat 32 (min 0xFFFFFFFF ((d.reg 0xB0DC).toNat + 1)) := by
  obtain ⟨hraised, hcount, clusters, opc, hcut⟩ := cutSector_some (d := holdWriting d) hw
  obtain ⟨on, level, hread⟩ := laserToRead_wrc (d := cutSector (holdWriting d))
  dsimp only
  rw [refreshInhibit_holds hnew hnow, hread, hcut, laserToRead_onlyIn.2 _ (by simp), laserToRead_onlyIn.2 _ (by simp), hcount,
    cutSector_onlyIn.2 _ (by decide), holdWriting_onlyIn.2 0xB0DC (by decide)]
  exact ⟨rfl, rfl, rfl, hraised.andThen laserToRead_onlyIn, setReg_reg_self _ _ _, rfl⟩

/-- A condition that begins while no sector is being written holds what follows (R157). -/
theorem refreshInhibit_idle (hnew : inhibitNow d ≠ d.wrc.inhibit) (hnow : inhibitNow d ≠ 0) (hw : d.wrc.writing = none) :
    let r := refreshInhibit d
    r.wrc.inhibit = inhibitNow d ∧ r.wrc.held = true ∧ OnlyIn [.wrc] [0xB01C] d r := by
  obtain ⟨on, level, hread⟩ := laserToRead_wrc (d := holdWriting d)
  dsimp only
  rw [refreshInhibit_holds hnew hnow, cutSector_none (d := holdWriting d) hw, hread]
  exact ⟨rfl, rfl, holdWriting_onlyIn.andThen laserToRead_onlyIn⟩

/-- The last condition ends: the hold time begins (R159). -/
theorem refreshInhibit_clears (hwas : d.wrc.inhibit ≠ 0) (hnow : inhibitNow d = 0) :
    (refreshInhibit d).wrc = { d.wrc with inhibit := 0, clearSince := d.now } ∧ OnlyIn [.wrc] [] d (refreshInhibit d) := by
  have he : refreshInhibit d = { latchReg 0xB01C (0 &&& ~~~ (d.wrc.inhibit.setWidth 32)) d with
      wrc := { d.wrc with inhibit := 0, clearSince := d.now } } := by
    unfold refreshInhibit
    rw [hnow]
    exact (if_neg hwas.symm).trans (if_pos rfl)
  rw [he]
  refine ⟨rfl, OnlyIn.trans ⟨fun p _ => by cases p <;> rfl, fun o _ => ?_⟩ setWrc_onlyIn⟩
  rw [latchReg, setReg_reg]
  split
  · next ho => simp [ho]
  · rfl

/-! ### The conditions that O14 names -/

theorem assertInhibit_reported {k : Nat} (hk : k ∈ [0, 1, 2, 3, 7]) :
    assertInhibit k d = refreshInhibit (updWrc (fun w => { w with analog := w.analog ||| BitVec.ofNat 10 (2 ^ k) }) d) := by
  have hcause : analogCause k = true ∧ k ≠ 6 := by
    have closed : ∀ k ∈ [0, 1, 2, 3, 7], analogCause k = true ∧ k ≠ 6 := by decide
    exact closed k hk
  simp [assertInhibit, hcause]

theorem updWrc_onlyIn {f : WriteChannel → WriteChannel} : OnlyIn [.wrc] [] d (updWrc f d) := setWrc_onlyIn

/-- A report that comes in while the conditions latched are those that hold is a new condition. -/
theorem reported_new {os : List Nat} {k : Nat} (hk : k ∈ [0, 1, 2, 6, 7]) (h : OnlyIn (.wrc :: interruptParts) os d e) (hos : 0xB000 ∉ os)
    (hilk : e.wrc.ilk = d.wrc.ilk) (hover : e.wrc.overTrip = d.wrc.overTrip)
    (hanalog : e.wrc.analog = d.wrc.analog ||| BitVec.ofNat 10 (2 ^ k)) (hclear : d.wrc.analog.getLsbD k = false) :
    inhibitNow e = inhibitNow d ||| BitVec.ofNat 10 (2 ^ k) ∧ inhibitNow e ≠ inhibitNow d ∧ inhibitNow e ≠ 0 := by
  have hself : (BitVec.ofNat 10 (2 ^ k)).getLsbD k = true := by
    have closed : ∀ k ∈ [0, 1, 2, 6, 7], (BitVec.ofNat 10 (2 ^ k)).getLsbD k = true := by decide
    exact closed k hk
  have hbit : (inhibitNow e).getLsbD k = true := by
    rw [inhibitNow_getLsbD hk, hanalog, BitVec.getLsbD_or, hself, Bool.or_true]
  refine ⟨inhibitNow_reported hk h hos hilk hover hanalog, fun he => ?_, fun he => ?_⟩
  · rw [he, inhibitNow_getLsbD hk, hclear] at hbit
    cases hbit
  · rw [he] at hbit
    simp at hbit

/-- Of the conditions latched, one that begins adds its own bit alone. -/
theorem latched_one {w : BitVec 10} (h : w.getLsbD 0 = false) :
    (w ||| BitVec.ofNat 10 (2 ^ 0)).setWidth 32 &&& ~~~ (w.setWidth 32) = 1 := by
  ext j hj
  by_cases hj0 : j = 0
  · simp [hj0] at h ⊢
    exact h
  · simp [hj0]

theorem writeInhibit_cuts (s : State) (cl i : Nat) (hin : s.dev.wrc.inhibit = inhibitNow s.dev)
    (hclear : s.dev.wrc.analog.getLsbD 0 = false) (hw : s.dev.wrc.writing = some (cl, i)) :
    Completes (.writeInhibit 0) s fun d =>
      d.wrc.analog = s.dev.wrc.analog ||| 1 ∧ d.wrc.inhibit = s.dev.wrc.inhibit ||| 1 ∧ d.wrc.held = true ∧ d.wrc.writing = none ∧
      d.reg 0xB01C = s.dev.reg 0xB01C ||| 1 ∧
      d.reg 0xB0DC = BitVec.ofNat 32 (min 0xFFFFFFFF ((s.dev.reg 0xB0DC).toNat + 1)) ∧ Raised 99 d ∧
      OnlyIn (.wrc :: interruptParts) [0xB01C, 0xB0DC, 0x4540] s.dev d := by
  refine completes_to rfl (assertInhibit_reported (by decide)) ?_
  obtain ⟨e, he⟩ : ∃ e, e = updWrc (fun w => { w with analog := w.analog ||| BitVec.ofNat 10 (2 ^ 0) }) s.dev := ⟨_, rfl⟩
  have honly : OnlyIn [.wrc] [] s.dev e := he ▸ updWrc_onlyIn
  have hwrc : e.wrc = { s.dev.wrc with analog := s.dev.wrc.analog ||| 1 } := by rw [he]; rfl
  obtain ⟨hnow, hne, hnz⟩ := reported_new (k := 0) (by decide) (honly.mono (by decide) (by decide) : OnlyIn _ [] _ _) (by decide)
    (by rw [hwrc]) (by rw [hwrc]) (by rw [hwrc]; rfl) hclear
  obtain ⟨hinhibit, hheld, hwriting, hraised, hlatch, hcount⟩ := refreshInhibit_cuts (d := e) (x := (cl, i))
    (by rw [hwrc]; exact hin ▸ hne) hnz (by rw [hwrc]; exact hw)
  rw [← he]
  refine ⟨?_, ?_, hheld, hwriting, ?_, ?_, hraised, honly.mono (by decide) (by decide) |>.trans refreshInhibit_onlyIn⟩
  · rw [refreshInhibit_analog, hwrc]
  · rw [hinhibit, hnow, hin]
    rfl
  · have hbit : (inhibitNow s.dev).getLsbD 0 = false := by rw [inhibitNow_getLsbD (by decide), hclear]
    rw [hlatch, hnow, hwrc, hin, honly.2 _ (by decide)]
    exact congrArg _ (latched_one hbit)
  · rw [hcount, honly.2 _ (by decide)]

theorem writeInhibit_wobble (s : State) (hin : s.dev.wrc.inhibit = inhibitNow s.dev) (hclear : s.dev.wrc.analog.getLsbD 6 = false)
    (hw : s.dev.wrc.writing = none) :
    Completes (.writeInhibit 6) s fun d =>
      d.wrc.inhibit = s.dev.wrc.inhibit ||| 0x40 ∧ d.wrc.held = true ∧ Raised 106 d ∧
      OnlyIn (.wrc :: interruptParts) [0xB01C, 0x4540] s.dev d := by
  obtain ⟨e, he⟩ : ∃ e, e = raise 106 (updWrc (fun w => { w with analog := w.analog ||| BitVec.ofNat 10 (2 ^ 6) }) s.dev) := ⟨_, rfl⟩
  refine completes_to rfl (e := refreshInhibit e) ?_ ?_
  · rw [he]
    rfl
  have honly : OnlyIn (.wrc :: interruptParts) [0x4540] s.dev e := by
    rw [he]
    exact OnlyIn.refl.andThen updWrc_onlyIn |>.andThen raise_onlyIn
  have hwrc : e.wrc = { s.dev.wrc with analog := s.dev.wrc.analog ||| BitVec.ofNat 10 (2 ^ 6) } := by rw [he, raise_wrc]; rfl
  obtain ⟨hnow, hne, hnz⟩ := reported_new (k := 6) (by decide) honly (by decide) (by rw [hwrc]) (by rw [hwrc]) (by rw [hwrc]) hclear
  obtain ⟨hinhibit, hheld, hidle⟩ := refreshInhibit_idle (d := e) (by rw [hwrc]; exact hin ▸ hne) hnz (by rw [hwrc]; exact hw)
  refine ⟨?_, hheld, ?_, honly.mono (by decide) (by decide) |>.andThen hidle⟩
  · rw [hinhibit, hnow, hin]
    rfl
  · exact (he ▸ raised_raise 106 _ : Raised 106 e).andThen hidle

theorem writeInhibitClear_last (s : State) (hin : s.dev.wrc.inhibit = 1) (hnow : inhibitNow s.dev = 1) (hanalog : s.dev.wrc.analog = 1) :
    Completes (.writeInhibitClear 0) s fun d =>
      d.wrc = { s.dev.wrc with analog := 0, inhibit := 0, clearSince := s.dev.now } ∧ OnlyIn [.wrc] [] s.dev d := by
  obtain ⟨e, he⟩ : ∃ e, e = updWrc (fun w => { w with analog := w.analog &&& ~~~ (BitVec.ofNat 10 (2 ^ 0)) }) s.dev := ⟨_, rfl⟩
  have hx : exec (.writeInhibitClear 0) s = effect s fun _ => refreshInhibit e := by
    rw [he]
    rfl
  refine completes_to hx rfl ?_
  have honly : OnlyIn [.wrc] [] s.dev e := he ▸ updWrc_onlyIn
  have hwrc : e.wrc = { s.dev.wrc with analog := 0 } := by
    rw [he]
    simp [updWrc, hanalog]
  have hcore : coreCauses e = 0 := by
    have hbit := (coreCauses_reported (d := s.dev) (k := 0) (by decide)).1
    rw [coreCauses_congr (honly.mono (by decide) (by decide) : OnlyIn _ [] _ _) (by rw [hwrc]) (by rw [hwrc])]
    refine BitVec.eq_of_getLsbD_eq fun j hj => ?_
    have hj1 : (inhibitNow s.dev).getLsbD j = (1 : BitVec 10).getLsbD j := by rw [hnow]
    by_cases hj0 : j = 0
    · rw [hj0, hbit]
      rfl
    · simp [inhibitNow_eq, hj0] at hj1
      simp [hj1]
  have hclear : inhibitNow e = 0 := by rw [inhibitNow_eq, hcore, hwrc]; simp
  obtain ⟨hr, hro⟩ := refreshInhibit_clears (d := e) (by rw [hwrc]; simp [hin]) hclear
  refine ⟨?_, honly.trans hro⟩
  rw [hr, hwrc, honly.now_eq (by decide)]

theorem writeResume_over (s : State) (hheld : s.dev.wrc.held = true) (hin : s.dev.wrc.inhibit = 0)
    (hover : s.dev.wrc.clearSince + s.dev.regF 0xB014 15 0 ≤ s.dev.now) :
    Completes .writeResume s fun d => d.wrc = { s.dev.wrc with held := false } ∧ OnlyIn [.wrc] [] s.dev d := by
  have h : holdOver s.dev = true := by simp [holdOver, hheld, hin, hover]
  refine completes_to (e := updWrc (fun w => { w with held := false }) s.dev) rfl ?_ ⟨rfl, updWrc_onlyIn⟩
  rw [h, onlyIf_true]

theorem writeResume_early (s : State)
    (h : s.dev.wrc.held = false ∨ s.dev.wrc.inhibit ≠ 0 ∨ s.dev.now < s.dev.wrc.clearSince + s.dev.regF 0xB014 15 0) :
    Completes .writeResume s fun d => d = s.dev := by
  have hno : holdOver s.dev = false := by
    rcases h with h | h | h
    · simp [holdOver, h]
    · rw [holdOver, decide_eq_false h]
      simp
    · simp [holdOver, h]
  refine completes_to (e := s.dev) rfl ?_ rfl
  rw [hno, onlyIf_false]

theorem writeFifoUnderrun_cuts (s : State) (cl i : Nat) (hin : s.dev.wrc.inhibit = 0) (hnow : inhibitNow s.dev = 0)
    (hw : s.dev.wrc.writing = some (cl, i)) :
    Completes .writeFifoUnderrun s fun d =>
      d.wrc.inhibit = 0x80 ∧ d.wrc.held = true ∧ d.wrc.writing = none ∧ Raised 100 d ∧ Raised 99 d ∧
      d.reg 0xB0E0 = BitVec.ofNat 32 (min 0xFFFFFFFF ((s.dev.reg 0xB0E0).toNat + 1)) ∧
      OnlyIn (.wrc :: interruptParts) [0xB01C, 0xB0DC, 0xB0E0, 0x4540] s.dev d := by
  obtain ⟨b, hb⟩ : ∃ b, b = raise 100 (count 0xB0E0 (updWrc (fun w => { w with fifo := [] }) s.dev)) := ⟨_, rfl⟩
  obtain ⟨e, he⟩ : ∃ e, e = updWrc (fun w => { w with analog := w.analog ||| BitVec.ofNat 10 (2 ^ 7) }) b := ⟨_, rfl⟩
  refine completes_to rfl (e := refreshInhibit e) ?_ ?_
  · rw [he, hb, ← assertInhibit_reported (by decide), hw]
    rfl
  obtain ⟨hraised, hcount, hbo⟩ := raise_count_spec (k := 100) (o := 0xB0E0) (d := updWrc (fun w => { w with fifo := [] }) s.dev)
    (by decide)
  rw [← hb] at hraised hcount hbo
  have hbonly : OnlyIn (.wrc :: interruptParts) [0xB0E0, 0x4540] s.dev b :=
    OnlyIn.refl.andThen (updWrc_onlyIn (f := fun w => { w with fifo := [] })) |>.andThen hbo
  have honly : OnlyIn (.wrc :: interruptParts) [0xB0E0, 0x4540] s.dev e := hbonly.andThen (he ▸ updWrc_onlyIn : OnlyIn [.wrc] [] b e)
  have hwrc : e.wrc = { s.dev.wrc with analog := s.dev.wrc.analog ||| BitVec.ofNat 10 (2 ^ 7), fifo := [] } := by
    rw [he, hb, updWrc_wrc, raise_wrc, count_wrc]
    rfl
  have hclear : s.dev.wrc.analog.getLsbD 7 = false := by rw [← inhibitNow_getLsbD (by decide), hnow]; rfl
  obtain ⟨hnew, -, hnz⟩ := reported_new (k := 7) (by decide) honly (by decide) (by rw [hwrc]) (by rw [hwrc]) (by rw [hwrc]) hclear
  obtain ⟨hinhibit, hheld, hwriting, hcut, -⟩ := refreshInhibit_cuts (d := e) (x := (cl, i)) (by rw [hwrc, hin]; exact hnz) hnz
    (by rw [hwrc]; exact hw)
  refine ⟨?_, hheld, hwriting, ?_, hcut, ?_, honly.mono (by decide) (by decide) |>.andThen refreshInhibit_onlyIn⟩
  · rw [hinhibit, hnew, hnow]
    rfl
  · exact (hraised.andThen (he ▸ updWrc_onlyIn : OnlyIn [.wrc] [] b e)).refreshInhibit
  · rw [refreshInhibit_onlyIn.2 _ (by decide), he]
    exact hcount

end

/-- Settles O14: a new condition is latched and cuts the sector under way; HOLD ticks after the last one clears, writing resumes. -/
theorem inhibitCutsAndWritingResumes : Obligations.InhibitCutsAndWritingResumes :=
  ⟨writeInhibit_cuts, writeInhibit_wobble, writeInhibitClear_last, writeResume_over, writeResume_early, writeFifoUnderrun_cuts⟩

end Sys2Proof.Machine
end

section
/-!
PROOFS. The field outputs and inputs: overloads and their retries, the field supply, the clearing of latched outputs, and what a change of
an input reads.
-/

namespace Sys2Proof.Machine

set_option Elab.async false

section
variable {d e : Device}

/-! ### What an operation changes -/

theorem updFio_onlyIn {f : Machine.Field → Machine.Field} : OnlyIn [.fio] [] d (updFio f d) := by
  refine ⟨fun p hp => ?_, fun _ _ => rfl⟩
  cases p with
  | fio => simp at hp
  | _ => rfl

theorem updLsk_onlyIn {f : Lockstep → Lockstep} : OnlyIn [.lsk] [] d (updLsk f d) := by
  refine ⟨fun p hp => ?_, fun _ _ => rfl⟩
  cases p with
  | lsk => simp at hp
  | _ => rfl

theorem logLater_onlyIn {tick origin source code : Nat} {detail : List Byte} :
    OnlyIn [.evt] [] d (logLater tick origin source code detail d) := by
  unfold logLater
  split
  · exact .refl
  · refine ⟨fun p hp => ?_, fun _ _ => rfl⟩
    cases p with
    | evt => simp at hp
    | _ => rfl

theorem logSafety_onlyIn {cls action : Nat} {outputs : BitVec 4} {detail : Word32} :
    OnlyIn [.lsk, .evt] [] d (logSafety cls outputs action detail d) :=
  OnlyIn.refl.andThen logLater_onlyIn |>.andThen updLsk_onlyIn

theorem setLevel_onlyIn {k : Nat} {v : Bool} : OnlyIn interruptParts [0x4540] d (setLevel k v d) := by
  rcases setLevel_spec k v d with ⟨-, he⟩ | ⟨-, -, he⟩ | ⟨-, -, hdel⟩
  · rw [he]
    exact OnlyIn.refl.andThen setIcu_onlyIn
  · rw [he]
    exact .refl
  · exact OnlyIn.refl.andThen updSrc_onlyIn |>.andThen hdel.onlyIn

/-- The safety fault log's newest entry tells of class and outputs, at its instant (R420). -/
theorem logSafety_head {cls action : Nat} {outputs : BitVec 4} {detail : Word32} :
    ((logSafety cls outputs action detail d).lsk.log.head?).map (fun x => (x.tick, x.cls, x.outputs)) = some (d.now, cls, outputs) := rfl

/-! ### Outputs named by a mask (R408, R414) -/

/-- A mask of four outputs holds those it was made of. -/
theorem maskOf_getLsbD {l : List Nat} {i : Nat} (hi : i < 4) : (maskOf l).getLsbD i = l.contains i := by
  have closed : ∀ b₀ b₁ b₂ b₃ : Bool, ∀ k < 4, (BitVec.ofNat 4 (((List.range 4).filter
      fun k => [b₀, b₁, b₂, b₃].getD k false).foldl (fun m i => m + 2 ^ i) 0)).getLsbD k = [b₀, b₁, b₂, b₃].getD k false := by decide
  have hget : ∀ k < 4, l.contains k = [l.contains 0, l.contains 1, l.contains 2, l.contains 3].getD k false := by
    intro k hk
    obtain rfl | rfl | rfl | rfl : k = 0 ∨ k = 1 ∨ k = 2 ∨ k = 3 := by omega
    all_goals rfl
  have hfilter := List.filter_congr (l := List.range 4) fun k hk => hget k (List.mem_range.1 hk)
  rw [maskOf, hfilter, closed _ _ _ _ i hi, ← hget i hi]

theorem clearOutputs_onlyIn {v : Word32} : OnlyIn [.fio, .lsk, .evt] [] d (clearOutputs v d) := by
  unfold clearOutputs
  dsimp only
  split
  · exact .refl
  · exact OnlyIn.refl.andThen updFio_onlyIn |>.andThen logSafety_onlyIn

/-- The host's clear takes the latch of the outputs it names whose pins read low over the last period (R414). -/
theorem clearOutputs_isLatched {v : Word32} {i : Nat} (hi : i < 4) (hm : d.gen.mode ≠ .primer) :
    isLatched (clearOutputs v d) i = (isLatched d i && !(wbit v i && d.fio.lowLast.getLsbD i)) := by
  have hmem : ((List.range 4).filter fun i => wbit v i && isLatched d i && clearable d i).contains i =
      (wbit v i && isLatched d i && d.fio.lowLast.getLsbD i) := by
    rw [Bool.eq_iff_iff]
    simp [hi, clearable]
  unfold clearOutputs
  dsimp only
  split
  · next h =>
    have hnil : ((List.range 4).filter fun i => wbit v i && isLatched d i && clearable d i) = [] := by simpa [hm] using h
    rw [hnil] at hmem
    have hcases : wbit v i = false ∨ isLatched d i = false ∨ d.fio.lowLast.getLsbD i = false := by
      revert hmem; cases wbit v i <;> cases isLatched d i <;> simp
    rcases hcases with h | h | h <;> simp [h]
  · have hbit := (maskOf_getLsbD hi).trans hmem
    generalize maskOf _ = m at hbit ⊢
    have hstep : isLatched (logSafety 10 m 0 0 (updFio (fun f => { f with ext := f.ext &&& ~~~ m, cross := f.cross &&& ~~~ m }) d)) i =
        (isLatched d i && !m.getLsbD i) := by
      rw [isLatched, logSafety_onlyIn.1 .fio (by decide)]
      simp [isLatched, updFio, hi, Bool.and_or_distrib_right]
    rw [hstep, hbit]
    cases wbit v i <;> cases isLatched d i <;> simp

/-! ### Overloads (R408) -/

/-- The driver of output `i` is retried one second on, when it has shut down. -/
theorem shutDown_retryAt {i : Nat} : sget (fun _ => 0) (shutDown i d).fio.retryAt i = d.now + 25000000 := by
  simp [shutDown, updFio, ticksPerS]

theorem shutDown_onlyIn {i : Nat} : OnlyIn [.fio] [] d (shutDown i d) := updFio_onlyIn

/-- The first overload of an output is raised and logged (R408). -/
theorem overcurrent_first {i : Nat} (h : d.fio.gnd.getLsbD i = false) :
    overcurrent i false d = raise 167 (logSafety 8 (maskOf [i]) 0 0 (updFio (fun f => { f with gnd := f.gnd ||| maskOf [i] }) d)) := by
  simp [overcurrent, h]

/-- A further overload of an output that shuts its driver down is not raised again (R408). -/
theorem overcurrent_shutDown {i : Nat} (h : d.fio.gnd.getLsbD i = true) :
    overcurrent i true d = shutDown i (updFio (fun f => { f with gnd := f.gnd ||| maskOf [i] }) d) := by
  simp [overcurrent, h]

/-- A mask takes in nothing where its output is in it already. -/
theorem or_maskOf_single {b : BitVec 4} {i : Nat} (h : b.getLsbD i = true) : b ||| maskOf [i] = b := by
  ext k hk
  rw [← BitVec.getLsbD_eq_getElem, ← BitVec.getLsbD_eq_getElem, BitVec.getLsbD_or, maskOf_getLsbD hk]
  by_cases hki : k = i
  · simp [hki, h]
  · simp [hki]

/-! ### The inputs (R157, R419) -/

theorem putInput_onlyIn {j : Nat} {on : Bool} : OnlyIn [.fio] [] d (putInput j on d) := updFio_onlyIn

/-- An input's level after its change. -/
theorem putInput_level {j : Nat} {on : Bool} (hj : j < 4) : (putInput j on d).fio.levels.getLsbD j = on := by
  have hself : (BitVec.ofNat 4 (2 ^ j)).getLsbD j = true := by
    have closed : ∀ j < 4, (BitVec.ofNat 4 (2 ^ j)).getLsbD j = true := by decide
    exact closed j hj
  simp only [putInput, updFio, BitVec.getLsbD_or, BitVec.getLsbD_and, BitVec.getLsbD_not, hself]
  cases on
  · simp
  · exact Bool.or_eq_true_iff.2 (.inr hself)

theorem notePulse_onlyIn : OnlyIn [.fio] [] d (notePulse d) := updFio_onlyIn

theorem takePeerInput_onlyIn {on : Bool} : OnlyIn (.fio :: interruptParts) [0x4540] d (takePeerInput on d) := by
  unfold takePeerInput
  extract_lets since low long d₁ d₂
  have h₁ : OnlyIn [.fio] [] d d₁ := by
    dsimp only [d₁]
    split
    · exact notePulse_onlyIn
    · exact .refl
  exact OnlyIn.refl.andThen h₁ |>.andThen updFio_onlyIn |>.andThen putInput_onlyIn |>.andThen setLevel_onlyIn

/-- IN_PEER's level, the beginning of its low interval and source 171 follow the input (R419). -/
theorem takePeerInput_reads {on : Bool} (hr : d.icu.retention = false) :
    (takePeerInput on d).fio.levels.getLsbD 1 = on ∧ ((takePeerInput on d).fio.peerLowSince = none ↔ on = true) ∧
      ((takePeerInput on d).src 171).level = on := by
  unfold takePeerInput
  extract_lets since low long d₁ d₂
  have hfio := (setLevel_onlyIn (d := putInput 1 on d₂) (k := 171) (v := on)).1 .fio (by decide)
  have h₂ : OnlyIn [.fio] [] d d₂ := by
    refine OnlyIn.trans ?_ updFio_onlyIn
    dsimp only [d₁]
    split
    · exact notePulse_onlyIn
    · exact .refl
  have hicu : (putInput 1 on d₂).icu = d.icu := (h₂.andThen putInput_onlyIn).1 .icu (by decide)
  refine ⟨?_, ?_, setLevel_level _ _ _ (by rw [hicu]; exact hr)⟩
  · rw [hfio]
    exact putInput_level (by decide)
  · rw [hfio]
    cases on <;> simp [putInput, updFio, d₂]

/-! ### The conditions that O47 names -/

theorem execOutputOvercurrent_out {i : Nat} {shutdown : Bool} (hi : i < 4) :
    onlyIf (decide (i < 4)) (overcurrent i shutdown) d = overcurrent i shutdown d := by
  rw [decide_eq_true hi, onlyIf_true]

theorem outputOvercurrent_begins (s : State) (i : Nat) (hi : i < 4) (h : s.dev.fio.gnd.getLsbD i = false) :
    Completes (.outputOvercurrent i false) s fun d =>
      d.fio = { s.dev.fio with gnd := s.dev.fio.gnd ||| maskOf [i] } ∧ Raised 167 d ∧
      (d.lsk.log.head?).map (fun e => (e.tick, e.cls, e.outputs)) = some (s.dev.now, 8, maskOf [i]) ∧
      OnlyIn ([.fio, .lsk, .evt] ++ interruptParts) [0x4540] s.dev d := by
  have he := execOutputOvercurrent_out (d := s.dev) (shutdown := false) hi
  refine completes_to rfl (he.trans (overcurrent_first h))
    ⟨?_, raised_raise _ _, ?_, OnlyIn.refl.andThen updFio_onlyIn |>.andThen logSafety_onlyIn |>.andThen raise_onlyIn⟩
  · rw [raise_onlyIn.1 .fio (by decide), logSafety_onlyIn.1 .fio (by decide)]
    rfl
  · rw [raise_onlyIn.1 .lsk (by decide)]
    exact logSafety_head

theorem outputOvercurrent_shutsDown (s : State) (i : Nat) (hi : i < 4) (h : s.dev.fio.gnd.getLsbD i = true) :
    Completes (.outputOvercurrent i true) s fun d =>
      d.fio.gnd = s.dev.fio.gnd ∧ d.fio.shutdown = s.dev.fio.shutdown ||| maskOf [i] ∧
      sget (fun _ => 0) d.fio.retryAt i = s.dev.now + 25000000 ∧ OnlyIn [.fio] [] s.dev d := by
  have he := execOutputOvercurrent_out (d := s.dev) (shutdown := true) hi
  exact completes_to rfl (he.trans (overcurrent_shutDown h))
    ⟨or_maskOf_single h, rfl, shutDown_retryAt, updFio_onlyIn.trans shutDown_onlyIn⟩

/-- OUTPUT_RETRY has its effect on an overloaded output whose retry is due (R408). -/
theorem execOutputRetry_due {s : State} {i : Nat} {ended : Bool} (hi : i < 4) (hg : s.dev.fio.gnd.getLsbD i = true)
    (hdue : retryDue s.dev i = true) :
    (onlyIf (decide (i < 4) && s.dev.fio.gnd.getLsbD i && retryDue s.dev i) (outputRetry i ended) s.dev) = outputRetry i ended s.dev := by
  rw [decide_eq_true hi, hg, hdue]
  rfl

theorem outputRetry_ends (s : State) (i : Nat) (hi : i < 4) (hg : s.dev.fio.gnd.getLsbD i = true)
    (hdue : s.dev.fio.shutdown.getLsbD i = true → outCondition s.dev i = true ∧ sget (fun _ => 0) s.dev.fio.retryAt i ≤ s.dev.now) :
    Completes (.outputRetry i true) s fun d =>
      d.fio = { s.dev.fio with gnd := s.dev.fio.gnd &&& ~~~ (maskOf [i]), shutdown := s.dev.fio.shutdown &&& ~~~ (maskOf [i]) } ∧
      OnlyIn [.fio] [] s.dev d := by
  have hretry : retryDue s.dev i = true := by
    cases hs : s.dev.fio.shutdown.getLsbD i with
    | false => simp [retryDue, hs]
    | true => simp [retryDue, hdue hs]
  exact completes_to rfl (execOutputRetry_due hi hg hretry) ⟨rfl, updFio_onlyIn⟩

theorem outputRetry_again (s : State) (i : Nat) (hi : i < 4) (hg : s.dev.fio.gnd.getLsbD i = true)
    (hs : s.dev.fio.shutdown.getLsbD i = true) (hc : outCondition s.dev i = true)
    (ht : sget (fun _ => 0) s.dev.fio.retryAt i ≤ s.dev.now) :
    Completes (.outputRetry i false) s fun d =>
      d.fio.gnd = s.dev.fio.gnd ∧ d.fio.shutdown.getLsbD i = true ∧ sget (fun _ => 0) d.fio.retryAt i = s.dev.now + 25000000 ∧
      OnlyIn [.fio] [] s.dev d := by
  have hretry : retryDue s.dev i = true := by simp [retryDue, hc, ht]
  have he : outputRetry i false s.dev = shutDown i s.dev := by simp [outputRetry, hs]
  refine completes_to rfl ((execOutputRetry_due hi hg hretry).trans he) ⟨rfl, ?_, shutDown_retryAt, shutDown_onlyIn⟩
  simp [shutDown, updFio, hs]

theorem outputRetry_early (s : State) (i : Nat) (ended : Bool) (hs : s.dev.fio.shutdown.getLsbD i = true)
    (h : outCondition s.dev i = false ∨ s.dev.now < sget (fun _ => 0) s.dev.fio.retryAt i) :
    Completes (.outputRetry i ended) s fun d => d = s.dev := by
  have hretry : retryDue s.dev i = false := by
    rcases h with h | h
    · simp [retryDue, hs, h]
    · simp [retryDue, hs, h]
  refine completes_to (e := s.dev) rfl ?_ rfl
  rw [hretry, Bool.and_false, onlyIf_false]

theorem faultClr_clears (s : State) (v : Word32) (hlock : s.dev.hif.lock = false) (hm : s.dev.gen.mode ≠ .primer) :
    Completes (.faultClr .host v) s fun d =>
      (∀ i, i < 4 → isLatched d i = (isLatched s.dev i && !(wbit v i && s.dev.fio.lowLast.getLsbD i))) ∧
      OnlyIn [.fio, .lsk, .evt] [] s.dev d := by
  refine completes_to (e := clearOutputs v s.dev) rfl ?_ ⟨fun i hi => clearOutputs_isLatched hi hm, clearOutputs_onlyIn⟩
  rw [if_pos rfl, gate_host_unlocked hlock]

theorem fieldSupplyLow_latches (s : State) (hlow : s.dev.fio.low = false) (hr : s.dev.icu.retention = false) :
    Completes .fieldSupplyLow s fun d =>
      d.fio = { s.dev.fio with low := true } ∧ (d.src 169).level = true ∧
      (d.lsk.log.head?).map (fun e => (e.tick, e.cls, e.outputs)) = some (s.dev.now, 9, 0xF) ∧
      OnlyIn ([.fio, .lsk, .evt] ++ interruptParts) [0x4540] s.dev d := by
  obtain ⟨b, hb⟩ : ∃ b, b = logSafety 9 0xF 0 0 (updFio (fun f => { f with low := true }) s.dev) := ⟨_, rfl⟩
  have hbonly : OnlyIn [.fio, .lsk, .evt] [] s.dev b := by
    rw [hb]
    exact OnlyIn.refl.andThen updFio_onlyIn |>.andThen logSafety_onlyIn
  refine completes_to (e := setLevel 169 true b) rfl ?_
    ⟨?_, setLevel_level _ _ _ ?_, ?_, hbonly.mono (by decide) (by decide) |>.andThen setLevel_onlyIn⟩
  · rw [hlow, hb]
    rfl
  · rw [setLevel_onlyIn.1 .fio (by decide), hb, logSafety_onlyIn.1 .fio (by decide)]
    rfl
  · rw [hbonly.1 .icu (by decide)]
    exact hr
  · rw [setLevel_onlyIn.1 .lsk (by decide), hb]
    exact logSafety_head

theorem fieldSupplyRestored_returns (s : State) (hlow : s.dev.fio.low = true) (hr : s.dev.icu.retention = false) :
    Completes .fieldSupplyRestored s fun d =>
      d.fio = { s.dev.fio with low := false, restorePending := true } ∧ (d.src 169).level = false ∧
      OnlyIn (.fio :: interruptParts) [0x4540] s.dev d := by
  refine completes_to (e := setLevel 169 false (updFio (fun f => { f with low := false, restorePending := true }) s.dev)) rfl ?_
    ⟨?_, setLevel_level _ _ _ hr, OnlyIn.refl.andThen updFio_onlyIn |>.andThen setLevel_onlyIn⟩
  · rw [hlow]
    rfl
  · rw [setLevel_onlyIn.1 .fio (by decide)]
    rfl

theorem fieldInputChange_peer (s : State) (on : Bool) (held : Nat) (hr : s.dev.icu.retention = false) :
    Completes (.fieldInputChange 1 on held) s fun d =>
      d.fio.levels.getLsbD 1 = on ∧ (d.fio.peerLowSince = none ↔ on = true) ∧ (d.src 171).level = on ∧
      OnlyIn (.fio :: interruptParts) [0x4540] s.dev d := by
  obtain ⟨hlevel, hsince, hsrc⟩ := takePeerInput_reads (on := on) hr
  exact completes_to (e := takePeerInput on s.dev) rfl rfl ⟨hlevel, hsince, hsrc, takePeerInput_onlyIn⟩

theorem fieldInputChange_shock (s : State) (on : Bool) (held : Nat) (hr : s.dev.icu.retention = false) :
    Completes (.fieldInputChange 2 on held) s fun d =>
      d.fio.levels.getLsbD 2 = on ∧ d.wrc.analog.getLsbD 3 = on ∧ (d.src 172).level = on := by
  obtain ⟨b, hb⟩ : ∃ b, b = setLevel 172 on (putInput 2 on s.dev) := ⟨_, rfl⟩
  obtain ⟨e, he⟩ : ∃ e, e = updWrc (fun w => { w with
    analog := if on then w.analog ||| 8 else w.analog &&& ~~~ (8 : BitVec 10) }) b := ⟨_, rfl⟩
  refine completes_to (e := refreshInhibit e) rfl (by rw [he, hb]; rfl) ⟨?_, ?_, ?_⟩
  · rw [refreshInhibit_onlyIn.1 .fio (by decide), he, updWrc_onlyIn.1 .fio (by decide), hb, setLevel_onlyIn.1 .fio (by decide)]
    exact putInput_level (by decide)
  · rw [refreshInhibit_analog, he]
    cases on <;> simp [updWrc]
  · rw [refreshInhibit_level, he, hb]
    exact setLevel_level _ _ _ hr

theorem fieldInputChange_aux (s : State) (on : Bool) (held : Nat) (hr : s.dev.icu.retention = false)
    (hheld : s.dev.regF 0x12018 15 8 * 250 ≤ held) :
    Completes (.fieldInputChange 3 on held) s fun d =>
      d.fio = { s.dev.fio with levels := (s.dev.fio.levels &&& 7) ||| (if on then 8 else 0) } ∧ (d.src 173).level = on ∧
      OnlyIn (.fio :: interruptParts) [0x4540] s.dev d := by
  refine completes_to (e := setLevel 173 on (putInput 3 on s.dev)) rfl ?_
    ⟨?_, setLevel_level _ _ _ hr, OnlyIn.refl.andThen putInput_onlyIn |>.andThen setLevel_onlyIn⟩
  · have hdue : decide (inputFilter s.dev 3 ≤ held) = true := decide_eq_true hheld
    rw [hdue]
    rfl
  · rw [setLevel_onlyIn.1 .fio (by decide)]
    cases on <;> rfl

theorem fieldInputChange_bounce (s : State) (on : Bool) (held : Nat) (hheld : held < s.dev.regF 0x12018 15 8 * 250) :
    Completes (.fieldInputChange 3 on held) s fun d => d = s.dev := by
  refine completes_to (e := s.dev) rfl ?_ rfl
  have hearly : decide (inputFilter s.dev 3 ≤ held) = false := decide_eq_false (Nat.not_le.2 hheld)
  rw [hearly, onlyIf_false]

end

/-- Settles O47: an overload is latched and its driver retried, the host clears what reads low, the field supply holds the outputs off, and
an input is read once its level has held. -/
theorem fieldFaultsAndInputs : Obligations.FieldFaultsAndInputs :=
  ⟨outputOvercurrent_begins, outputOvercurrent_shutsDown, outputRetry_ends, outputRetry_again, outputRetry_early, faultClr_clears,
    fieldSupplyLow_latches, fieldSupplyRestored_returns, fieldInputChange_peer, fieldInputChange_shock, fieldInputChange_aux,
    fieldInputChange_bounce⟩

end Sys2Proof.Machine
end

section
/-!
PROOFS. The laser's ceiling and its guards: what LASER_MAX bounds, what the over-power trip and the interlock put out, and that the failing
of commands and groups that follows leaves the write channel and takes no detection back.
-/

namespace Sys2Proof.Machine

set_option Elab.async false

/-- From `d` to `e` the write channel stands as it was, and no detection is taken back. -/
structure Spares (d e : Device) : Prop where
  wrc : e.wrc = d.wrc
  raised : ∀ n, Raised n d → Raised n e

section
variable {d₀ d e : Device}

protected theorem Spares.refl : Spares d d := ⟨rfl, fun _ h => h⟩

protected theorem Spares.trans (h : Spares d₀ d) (g : Spares d e) : Spares d₀ e := ⟨g.wrc.trans h.wrc, fun n w => g.raised n (h.raised n w)⟩

/-- A change beside the write channel and the interrupt controller. -/
protected theorem Spares.edit (h : Spares d₀ d) (wrc : e.wrc = d.wrc := by rfl) (icu : e.icu = d.icu := by rfl) : Spares d₀ e :=
  h.trans ⟨wrc, fun _ w => w.of_icu icu⟩

protected theorem Spares.raise {k : Nat} (h : Spares d₀ d) : Spares d₀ (raise k d) :=
  h.trans ⟨raise_wrc, fun _ w => w.raise k⟩

/-! ### Ways to go on -/

protected theorem Spares.andThen (h : Spares d₀ d) (g : Spares d₀ d → Spares d₀ e) : Spares d₀ e := g h

protected theorem Spares.ite {c : Prop} [Decidable c] (h : Spares d₀ d) (g : Spares d₀ e) : Spares d₀ (if c then d else e) := by
  split
  · exact h
  · exact g

protected theorem Spares.when {c : Prop} [Decidable c] (h : Spares d₀ d) (g : Spares d₀ d → Spares d₀ e) :
    Spares d₀ (if c then e else d) := (g h).ite h

protected theorem Spares.foldl {α : Type} {f : Device → α → Device} {l : List α} (h : Spares d₀ d)
    (hf : ∀ {d a}, Spares d₀ d → Spares d₀ (f d a)) : Spares d₀ (l.foldl f d) := by
  induction l generalizing d with
  | nil => exact h
  | cons a l ih => exact ih (hf h)

protected theorem Spares.foldlPair {α β : Type} {f : β × Device → α → β × Device} {b : β} {l : List α} (h : Spares d₀ d)
    (hf : ∀ {p a}, Spares d₀ p.2 → Spares d₀ (f p a).2) : Spares d₀ (l.foldl f (b, d)).2 := by
  suffices g : ∀ p : β × Device, Spares d₀ p.2 → Spares d₀ (l.foldl f p).2 from g (b, d) h
  induction l with
  | nil => exact fun _ h => h
  | cons a l ih => exact fun p h => ih _ (hf h)

/-- What an operation answers beside a value spares what the operation spares. -/
protected theorem Spares.ofPair {β : Type} {p : β × Device} {b : β} (h : Spares d₀ p.2) (e : p = (b, d)) : Spares d₀ d := by
  rwa [e] at h

/-! ### One block changes -/

protected theorem Spares.exc {x : Excursions} (h : Spares d₀ d) : Spares d₀ { d with exc := x } := h.edit
protected theorem Spares.rdc {x : ReadChannel} (h : Spares d₀ d) : Spares d₀ { d with rdc := x } := h.edit
protected theorem Spares.rcl {x : RecordLayer} (h : Spares d₀ d) : Spares d₀ { d with rcl := x } := h.edit
protected theorem Spares.cch {x : Machine.Cache} (h : Spares d₀ d) : Spares d₀ { d with cch := x } := h.edit
protected theorem Spares.lath {x : Lath} (h : Spares d₀ d) : Spares d₀ { d with lath := x } := h.edit
protected theorem Spares.hif {x : HostIf} (h : Spares d₀ d) : Spares d₀ { d with hif := x } := h.edit
protected theorem Spares.evt {x : EventLog} (h : Spares d₀ d) : Spares d₀ { d with evt := x } := h.edit

/-! ### Registers, commands, messages and the cache -/

protected theorem Spares.setReg {o : Nat} {v : Word32} (h : Spares d₀ d) : Spares d₀ (setReg o v d) := h.edit
protected theorem Spares.setRegF {o hi lo v : Nat} (h : Spares d₀ d) : Spares d₀ (setRegF o hi lo v d) := h.setReg
protected theorem Spares.countN {o n : Nat} (h : Spares d₀ d) : Spares d₀ (countN o n d) := h.setReg
protected theorem Spares.count {o : Nat} (h : Spares d₀ d) : Spares d₀ (count o d) := h.countN

protected theorem Spares.logLater {tick origin source code : Nat} {detail : List Byte} (h : Spares d₀ d) :
    Spares d₀ (logLater tick origin source code detail d) := by
  unfold logLater
  exact h.ite h.evt

protected theorem Spares.copyClosed {l i : Nat} (h : Spares d₀ d) : Spares d₀ (copyClosed l i d) := by
  unfold copyClosed
  split
  · exact h.ite h.logLater
  · exact h

protected theorem Spares.excEnd {l i : Nat} (h : Spares d₀ d) : Spares d₀ (excEnd l i d) := by
  unfold excEnd
  exact h.exc.copyClosed.ite h

protected theorem Spares.updCmd {tag : Nat} {f : Cmd → Cmd} (h : Spares d₀ d) : Spares d₀ (updCmd tag f d) := by
  unfold updCmd
  exact h.hif

protected theorem Spares.setPhase {tag : Nat} {p : CmdPhase} (h : Spares d₀ d) : Spares d₀ (setPhase tag p d) := by
  unfold setPhase
  exact h.updCmd

protected theorem Spares.readOver (h : Spares d₀ d) : Spares d₀ (readOver d) := by
  unfold readOver
  exact (h.ite h.excEnd).when fun h => h.rdc.excEnd

protected theorem Spares.dropReads {p : ReadFor → Bool} (h : Spares d₀ d) : Spares d₀ (dropReads p d) := by
  unfold dropReads
  exact h.rdc.readOver.ite h

protected theorem Spares.finishWith {tag st result : Nat} {single : Bool} {mark : Nat} (h : Spares d₀ d) :
    Spares d₀ (finishWith tag st result single mark d) := by
  unfold finishWith
  split
  · exact h
  · refine h.ite (.ite ?_ h.dropReads.setPhase.hif)
    exact h.dropReads.hif.count.raise

protected theorem Spares.finish {tag st : Nat} (h : Spares d₀ d) : Spares d₀ (finish tag st d) :=
  h.finishWith

protected theorem Spares.finishAll {p : Cmd → Bool} {st : Nat} (h : Spares d₀ d) : Spares d₀ (finishAll p st d) := by
  unfold finishAll
  exact h.foldl .finish

protected theorem Spares.failMedium (h : Spares d₀ d) : Spares d₀ (failMedium d) :=
  h.finishAll

protected theorem Spares.updLath {f : Lath → Lath} (h : Spares d₀ d) : Spares d₀ (updLath f d) := by
  unfold updLath
  exact h.lath

protected theorem Spares.raiseArb (h : Spares d₀ d) : Spares d₀ (raiseArb d) := by
  unfold raiseArb
  exact h.ite h.updLath

protected theorem Spares.sendMsg {m : LathMsg} (h : Spares d₀ d) : Spares d₀ (sendMsg m d) := by
  unfold sendMsg
  exact h.updLath.raiseArb.ite h

protected theorem Spares.updCache {f : Machine.Cache → Machine.Cache} (h : Spares d₀ d) : Spares d₀ (updCache f d) := by
  unfold updCache
  exact h.cch

protected theorem Spares.putLine {i : Nat} {l : Line} (h : Spares d₀ d) : Spares d₀ (putLine i l d) := by
  unfold putLine
  exact h.updCache

protected theorem Spares.mapLines {p : Line → Bool} {f : Line → Line} (h : Spares d₀ d) : Spares d₀ (mapLines p f d) := by
  unfold mapLines
  exact (h.foldl (fun h => h.putLine.ite h)).updCache

protected theorem Spares.dropLines {p : Line → Bool} (h : Spares d₀ d) : Spares d₀ (dropLines p d) := by
  unfold dropLines
  exact (h.foldl (fun h => h.putLine.ite h)).updCache

protected theorem Spares.storeTable {k : Nat} {recs : TableRecs} {poison : BitVec 32} (h : Spares d₀ d) :
    Spares d₀ (storeTable k recs poison d) := by
  unfold storeTable
  exact h.updCache

protected theorem Spares.access (h : Spares d₀ d) : Spares d₀ (access d) := by
  unfold access
  exact h.updCache

protected theorem Spares.chooseLine {cls : Nat} (h : Spares d₀ d) : Spares d₀ (chooseLine cls d).2 := by
  unfold chooseLine
  split
  · exact h
  · split
    · exact h
    · exact h.setRegF

protected theorem Spares.leaveCache {l : Line} (h : Spares d₀ d) : Spares d₀ (leaveCache l d) := by
  unfold leaveCache
  exact h.count.when fun h => h.storeTable.when (fun h => h.updCache.sendMsg)

protected theorem Spares.pushVictim {l : Line} (h : Spares d₀ d) : Spares d₀ (pushVictim l d) := by
  unfold pushVictim
  split
  · exact h
  · split
    · exact h.updCache
    · split
      · exact h
      · exact h.updCache.leaveCache

protected theorem Spares.replaceLine {i : Nat} {l : Line} (h : Spares d₀ d) : Spares d₀ (replaceLine i l d) :=
  h.putLine.pushVictim

protected theorem Spares.fillLine {l : Line} (h : Spares d₀ d) : Spares d₀ (fillLine l d) := by
  unfold fillLine
  dsimp only
  split
  · exact h.updCache
  · split
    · next e => exact (h.chooseLine.ofPair e).replaceLine
    · next e => exact (h.chooseLine.ofPair e).updCache |>.count |>.raise

protected theorem Spares.swapBack {p : Line → Bool} {l : Line} (h : Spares d₀ d) : Spares d₀ (swapBack p l d) := by
  unfold swapBack
  split
  · next e => exact h.chooseLine.ofPair e
  · next e => exact (h.chooseLine.ofPair e).updCache |>.replaceLine

protected theorem Spares.lookup {p : Line → Bool} (h : Spares d₀ d) : Spares d₀ (lookup p d).2 := by
  unfold lookup
  dsimp only
  split
  · exact h.access.putLine.count
  · split
    · exact h.access.count.swapBack
    · exact h.access.count

protected theorem Spares.fillTable {k : Nat} {c : Coh} (h : Spares d₀ d) : Spares d₀ (fillTable k c d) :=
  h.fillLine

protected theorem Spares.setCoh {k : Nat} {c : Coh} (h : Spares d₀ d) : Spares d₀ (setCoh k c d) := by
  unfold setCoh
  exact h.dropLines.ite h.mapLines

protected theorem Spares.askLine {k : Nat} {exclusive : Bool} (h : Spares d₀ d) : Spares d₀ (askLine k exclusive d) := by
  unfold askLine
  exact h.ite h.updCache.sendMsg

protected theorem Spares.obtainLine {k : Nat} {exclusive : Bool} (h : Spares d₀ d) : Spares d₀ (obtainLine k exclusive d).2 := by
  unfold obtainLine
  split
  next e =>
    replace h := h.lookup.ofPair e
    split
    · split
      · exact h.when .setCoh
      · split
        · exact h.askLine
        · dsimp only
          exact h.setCoh
    · split
      · exact h.askLine
      · exact h.fillTable

protected theorem Spares.updStream {s : Nat} {f : StreamRec → StreamRec} (h : Spares d₀ d) : Spares d₀ (updStream s f d) := by
  unfold updStream
  exact h.mapLines.ite (h.updCache.ite h.updCache)

protected theorem Spares.updRcl {f : RecordLayer → RecordLayer} (h : Spares d₀ d) : Spares d₀ (updRcl f d) := by
  unfold updRcl
  exact h.rcl

protected theorem Spares.updGroup {id : Nat} {f : Machine.Group → Machine.Group} (h : Spares d₀ d) :
    Spares d₀ (updGroup id f d) := by
  unfold updGroup
  exact h.updRcl

protected theorem Spares.changeStream {s : Nat} {f : StreamRec → StreamRec} (h : Spares d₀ d) :
    Spares d₀ (changeStream s f d).2 := by
  unfold changeStream
  split
  · next e => exact (h.obtainLine.ofPair e).updStream
  · next e => exact h.obtainLine.ofPair e

protected theorem Spares.rechain {stream : Nat} (h : Spares d₀ d) : Spares d₀ (rechain stream d) :=
  h.foldlPair fun h => h.edit

protected theorem Spares.sendGroup {xid : Nat} {catching : Bool} {mark : Nat} {g : Machine.Group} {bs : List Byte} {poison : BitVec 32}
    (h : Spares d₀ d) :
    Spares d₀ (sendGroup xid catching mark g bs poison d) := by
  unfold sendGroup
  exact h.updGroup.updLath.sendMsg.foldl .sendMsg

protected theorem Spares.pumpMirror {n : Nat} (h : Spares d₀ d) : Spares d₀ (pumpMirror n d) := by
  induction n generalizing d with
  | zero => exact h
  | succ n ih =>
    unfold pumpMirror
    split
    · exact (ih h.sendGroup).ite (ih h.edit.sendGroup)
    · exact h

protected theorem Spares.closeXid {xid : Nat} (h : Spares d₀ d) : Spares d₀ (closeXid xid d) :=
  h.updLath.pumpMirror

protected theorem Spares.voidGroup {id : Nat} (h : Spares d₀ d) : Spares d₀ (voidGroup id d) := by
  unfold voidGroup
  split
  · exact h
  · exact h.ite (h.updGroup.when (fun h => h.count.raise.rechain))

protected theorem Spares.completeGroup {g : Machine.Group} (h : Spares d₀ d) : Spares d₀ (completeGroup g d) := by
  unfold completeGroup
  split
  · exact (h.updCmd.ite h).finishWith
  · exact h

protected theorem Spares.notePeerHead {g : Machine.Group} (h : Spares d₀ d) : Spares d₀ (notePeerHead g d) := by
  unfold notePeerHead
  split
  · exact h.updLath
  · exact h

protected theorem Spares.commitGroup {g : Machine.Group} (h : Spares d₀ d) : Spares d₀ (commitGroup g d).2 := by
  unfold commitGroup
  split
  · next e => exact (h.changeStream.ofPair e).updGroup |>.count |>.notePeerHead |>.completeGroup
  · next e => exact h.changeStream.ofPair e

protected theorem Spares.payGroup {g : Machine.Group} (h : Spares d₀ d) : Spares d₀ (payGroup d g) := by
  unfold payGroup
  split
  · exact h.updGroup.finishWith
  · exact h

protected theorem Spares.payOwed (h : Spares d₀ d) : Spares d₀ (payOwed d) := by
  unfold payOwed
  exact h.foldl .payGroup

protected theorem Spares.commitReady {n : Nat} (h : Spares d₀ d) : Spares d₀ (commitReady n d) := by
  induction n generalizing d with
  | zero => exact h.payOwed
  | succ n ih =>
    unfold commitReady
    dsimp only
    split
    · exact h.payOwed
    · split
      · next e => exact ih (h.payOwed.commitGroup.ofPair e)
      · next e => exact h.payOwed.commitGroup.ofPair e

protected theorem Spares.settleGroups (h : Spares d₀ d) : Spares d₀ (settleGroups d) :=
  h.commitReady

protected theorem Spares.listGap {g : Machine.Group} {xid st : Nat} (h : Spares d₀ d) : Spares d₀ (listGap g xid st d) := by
  unfold listGap
  exact (h.updGroup.ite (h.updGroup.updLath.sendMsg.ite h)).sendMsg |>.raise

protected theorem Spares.failLeader {g : Machine.Group} {t st : Nat} (h : Spares d₀ d) : Spares d₀ (failLeader g t st d) := by
  unfold failLeader
  exact (h.voidGroup.updGroup.ite h.voidGroup.finishWith).settleGroups

protected theorem Spares.failGroup {id st : Nat} (h : Spares d₀ d) : Spares d₀ (failGroup id st d) := by
  unfold failGroup
  split
  · exact h
  · split
    · exact h
    · split
      · refine .andThen ?_ fun h => h.failLeader
        split
        · exact h.sendMsg.closeXid
        · exact h
      · exact h.sendMsg.voidGroup.settleGroups
      · exact h.listGap
      · exact h.voidGroup

protected theorem Spares.sweepGroups (h : Spares d₀ d) : Spares d₀ (sweepGroups d) := by
  unfold sweepGroups
  exact h.foldl .failGroup

/-! ### The laser's ceiling (R43, R44, R143) -/

theorem laserMax_eq_of_ceiling (h : ceiling e = ceiling d) : laserMax e = laserMax d := congrArg Prod.snd h

theorem laserMax_lt : laserMax d < 1024 := Nat.mod_lt _ (by decide)

theorem excReach_onlyIn {l i : Nat} {v : Word32} : OnlyIn [.exc] [] d (excReach l i v d) := by
  refine ⟨fun p hp => ?_, fun _ _ => rfl⟩
  cases p with
  | exc => simp at hp
  | _ => rfl

theorem setExc_onlyIn {x : Excursions} : OnlyIn [.exc] [] d { d with exc := x } := by
  refine ⟨fun p hp => ?_, fun _ _ => rfl⟩
  cases p with
  | exc => simp at hp
  | _ => rfl

theorem logExcursion_onlyIn {l i : Nat} {v : Word32} : OnlyIn [.exc] [] d (logExcursion l i v d) := by
  unfold logExcursion
  split
  · dsimp only
    split
    · exact setExc_onlyIn
    · exact setExc_onlyIn
  · exact setExc_onlyIn

theorem markOverride_onlyIn : OnlyIn [.hif, .rcl] [] d (markOverride d) := by
  refine ⟨fun p hp => ?_, fun _ _ => rfl⟩
  cases p with
  | hif => simp at hp
  | rcl => simp at hp
  | _ => rfl

/-- The parts that an excursion that begins changes: its log, the commands and groups that it marks, and source 19 (R46, R47). -/
theorem excBegin_onlyIn {l i : Nat} {v : Word32} : OnlyIn ([.exc, .hif, .rcl] ++ interruptParts) [0x4540] d (excBegin l i v d) := by
  unfold excBegin
  split
  · exact .refl
  · exact OnlyIn.refl.andThen setExc_onlyIn |>.andThen logExcursion_onlyIn |>.andThen setExc_onlyIn |>.andThen markOverride_onlyIn
      |>.andThen raise_onlyIn

theorem excTake_onlyIn {l i : Nat} {v : Word32} : OnlyIn ([.exc, .hif, .rcl] ++ interruptParts) [0x4540] d (excTake l i v d) :=
  excBegin_onlyIn.andThen excReach_onlyIn

/-- The laser ceiling's excursion keeps the trims' bounds of its beginning, and changes nothing else of the write channel (R44). -/
theorem pumpCeiling_spec : OnlyIn ([.wrc, .exc, .hif, .rcl] ++ interruptParts) [0x4540] d (pumpCeiling d) ∧
    ∃ held, (pumpCeiling d).wrc = { d.wrc with boundsHeld := held } := by
  unfold pumpCeiling
  split
  · dsimp only
    split
    · exact ⟨OnlyIn.refl.andThen excReach_onlyIn, d.wrc.boundsHeld, rfl⟩
    · unfold trimExcursion
      rw [excTake_onlyIn.1 .wrc (by decide)]
      split
      · exact ⟨OnlyIn.refl.andThen excTake_onlyIn, d.wrc.boundsHeld, rfl⟩
      · exact ⟨OnlyIn.refl.andThen updWrc_onlyIn |>.andThen excTake_onlyIn, _, rfl⟩
  · exact ⟨.refl, d.wrc.boundsHeld, rfl⟩

theorem setRegF_onlyIn {o hi lo v : Nat} : OnlyIn [] [o] d (setRegF o hi lo v d) := setReg_onlyIn

/-- A write by another than the sequencer, that Table 18-1 lets the host make before the lock, has its effect (R314). -/
theorem gate_notSeq {who : Requester} {o : Nat} {f : Device → Device} (hseq : who ≠ .seq) (hlock : who = .host → d.hif.lock = false)
    (hup : masterUp who d = true) : gate who o true f d = f d := by
  cases who with
  | host => exact gate_host_unlocked (hlock rfl)
  | seq => exact absurd rfl hseq
  | mgmt => exact if_pos hup

theorem laserMaxWrite_first (s : State) (who : Requester) (v : Word32) (hseq : who ≠ .seq) (hlock : who = .host → s.dev.hif.lock = false)
    (hup : masterUp who s.dev = true) (hw : s.dev.wrc.maxWritten = false) :
    Completes (.laserMaxWrite who v) s fun d =>
      d.wrc.maxWritten = true ∧ laserMax d = fld v 9 0 ∧ d.wrc.laserOn = s.dev.wrc.laserOn ∧ d.wrc.level = s.dev.wrc.level ∧
      OnlyIn ([.wrc, .exc, .hif, .rcl, .evt] ++ interruptParts) [0xB004, 0x4540] s.dev d := by
  obtain ⟨b, hb⟩ : ∃ b, b = setRegF 0xB004 9 0 (fld v 9 0) (updWrc (fun w => { w with maxWritten := true }) s.dev) := ⟨_, rfl⟩
  have he : writeLaserMax (fld v 9 0) s.dev = pumpCeiling b := by simp [writeLaserMax, hw, hb]
  have hbonly : OnlyIn [.wrc] [0xB004] s.dev b := by
    rw [hb]
    exact OnlyIn.refl.andThen updWrc_onlyIn |>.andThen setRegF_onlyIn
  have hmax : laserMax b = fld v 9 0 := hb ▸ laserMax_setRegF (Nat.mod_lt _ (by decide))
  obtain ⟨honly, held, hwrc⟩ := pumpCeiling_spec (d := b)
  have hbwrc : b.wrc = { s.dev.wrc with maxWritten := true } := by rw [hb]; rfl
  refine completes_to rfl ((gate_notSeq hseq hlock hup).trans he) ⟨?_, ?_, ?_, ?_, hbonly.mono (by decide) (by decide) |>.andThen honly⟩
  · rw [hwrc, hbwrc]
  · rw [laserMax_eq_of_ceiling ceiling_pumpCeiling, hmax]
  · rw [hwrc, hbwrc]
  · rw [hwrc, hbwrc]

theorem laserLevel_level_le {n : Nat} : (laserLevel n d).wrc.level ≤ laserMax d := by
  unfold laserLevel
  split
  · exact Nat.min_le_right _ _
  · exact Nat.zero_le _

theorem laserMaxWrite_lowers (s : State) (v : Word32) (hup : pairRuns s.dev = true) (hw : s.dev.wrc.maxWritten = true)
    (hv : fld v 9 0 < laserMax s.dev) :
    Completes (.laserMaxWrite .mgmt v) s fun d => laserMax d = fld v 9 0 ∧
      d.wrc.level ≤ max (fld v 9 0) (if s.dev.wrc.laserOn then 0 else s.dev.wrc.level) := by
  obtain ⟨b, hb⟩ : ∃ b, b = updWrc (fun w => { w with
    powers := (min w.powers.1 (fld v 9 0), min w.powers.2.1 (fld v 9 0), min w.powers.2.2 (fld v 9 0)) })
      (setRegF 0xB004 9 0 (fld v 9 0) s.dev) := ⟨_, rfl⟩
  have he : writeLaserMax (fld v 9 0) s.dev = pumpCeiling (if b.wrc.laserOn then laserLevel b.wrc.level b else b) := by
    simp only [writeLaserMax, hw, hv, hb, Bool.not_true, Bool.false_eq_true, if_false, if_true]
  have hmax : laserMax b = fld v 9 0 := hb ▸ laserMax_setRegF (Nat.mod_lt _ (by decide))
  have hbwrc : b.wrc.laserOn = s.dev.wrc.laserOn ∧ b.wrc.level = s.dev.wrc.level := by
    rw [hb]
    exact ⟨rfl, rfl⟩
  refine completes_to rfl ((if_pos hup).trans he) ⟨?_, ?_⟩
  · rw [laserMax_eq_of_ceiling ceiling_pumpCeiling, ← hmax]
    split
    · exact laserMax_eq_of_ceiling ceiling_laserLevel
    · rfl
  · obtain ⟨-, held, hwrc⟩ := pumpCeiling_spec (d := if b.wrc.laserOn then laserLevel b.wrc.level b else b)
    rw [hwrc, hbwrc.1]
    split
    · exact Nat.le_trans (Nat.le_trans laserLevel_level_le (Nat.le_of_eq hmax)) (Nat.le_max_left _ _)
    · exact Nat.le_trans (Nat.le_of_eq hbwrc.2) (Nat.le_max_right _ _)

theorem laserMaxWrite_refused (s : State) (v : Word32) (hup : pairRuns s.dev = true) (hw : s.dev.wrc.maxWritten = true)
    (hv : laserMax s.dev < fld v 9 0) :
    Completes (.laserMaxWrite .mgmt v) s fun d =>
      laserMax d = laserMax s.dev ∧ Raised 107 d ∧
      d.reg 0xB0E4 = BitVec.ofNat 32 (min 0xFFFFFFFF ((s.dev.reg 0xB0E4).toNat + 1)) ∧
      OnlyIn interruptParts [0xB0E4, 0x4540] s.dev d := by
  have he : writeLaserMax (fld v 9 0) s.dev = raise 107 (count 0xB0E4 s.dev) := by
    simp [writeLaserMax, hw, Nat.not_lt.2 (Nat.le_of_lt hv), Nat.ne_of_gt hv]
  obtain ⟨hraised, hcount, honly⟩ := raise_count_spec (k := 107) (o := 0xB0E4) (d := s.dev) (by decide)
  exact completes_to rfl ((if_pos hup).trans he)
    ⟨laserMax_eq_of_ceiling (ceiling_raise.trans (ceiling_count (by decide))), hraised, hcount, honly⟩

/-! ### The over-power trip and the interlock (R144, R145) -/

/-- With the laser off, the write inhibit leaves it off. -/
theorem refreshInhibit_dark (h : d.wrc.laserOn = false) :
    (refreshInhibit d).wrc.laserOn = false ∧ (refreshInhibit d).wrc.level = d.wrc.level := by
  have hcut : ∀ {d : Device}, (cutSector d).wrc.laserOn = d.wrc.laserOn ∧ (cutSector d).wrc.level = d.wrc.level := by
    intro d
    cases hw : d.wrc.writing with
    | none => rw [cutSector_none hw]; exact ⟨rfl, rfl⟩
    | some x =>
      obtain ⟨-, -, clusters, opc, he⟩ := cutSector_some hw
      rw [he]
      exact ⟨rfl, rfl⟩
  unfold refreshInhibit
  dsimp only
  split
  · exact ⟨h, rfl⟩
  · split
    · exact ⟨h, rfl⟩
    · rw [laserToRead, if_neg (by rw [(hcut (d := voidPending _)).1]; exact fun w => Bool.noConfusion (h.symm.trans w))]
      exact ⟨hcut.1.trans h, hcut.2⟩

theorem laserOverPower_trips (s : State) :
    Completes .laserOverPower s fun d =>
      d.wrc.overTrip = true ∧ d.wrc.laserOn = false ∧ d.wrc.level = 0 ∧ Raised 104 d ∧
      OnlyIn (.wrc :: interruptParts) [0xB01C, 0xB0DC, 0x4540] s.dev d := by
  obtain ⟨b, hb⟩ : ∃ b, b = raise 104 (laserOff (updWrc (fun w => { w with overTrip := true }) s.dev)) := ⟨_, rfl⟩
  have hwrc : b.wrc = { s.dev.wrc with overTrip := true, laserOn := false, level := 0 } := by rw [hb, raise_wrc]; rfl
  have hbonly : OnlyIn (.wrc :: interruptParts) [0x4540] s.dev b := by
    rw [hb]
    exact OnlyIn.refl.andThen updWrc_onlyIn |>.andThen setWrc_onlyIn |>.andThen raise_onlyIn
  have hraised : Raised 104 b := hb ▸ raised_raise 104 _
  obtain ⟨hon, hlevel⟩ := refreshInhibit_dark (d := b) (by rw [hwrc])
  have hover : (refreshInhibit b).wrc.overTrip = b.wrc.overTrip :=
    (congrArg WriteChannel.overTrip (refreshInhibit_settled (d := b)) :)
  have hx : exec .laserOverPower s = effect s fun _ => refreshInhibit b := by
    rw [hb]
    rfl
  refine completes_to hx rfl
    ⟨?_, hon, ?_, hraised.refreshInhibit, hbonly.mono (by decide) (by decide) |>.trans refreshInhibit_onlyIn⟩
  · rw [hover, hwrc]
  · rw [hlevel, hwrc]

theorem laserOverClear_clears (s : State) (hup : pairRuns s.dev = true) (hm : s.dev.gen.mode ≠ .primer) :
    Completes (.laserOverClear .mgmt) s fun d => d.wrc.overTrip = false := by
  refine completes_to (e := refreshInhibit (updWrc (fun w => { w with overTrip := false }) s.dev)) rfl ((if_pos hup).trans ?_) ?_
  · have hopen : (s.dev.gen.mode != .primer) = true := by simpa using hm
    rw [hopen, onlyIf_true]
  · exact (congrArg WriteChannel.overTrip (refreshInhibit_settled (d := updWrc _ s.dev)) :)

theorem laserOverClear_primer (s : State) (hm : s.dev.gen.mode = .primer) :
    Completes (.laserOverClear .mgmt) s fun d => d = s.dev := by
  refine completes_to (e := s.dev) rfl ?_ rfl
  have hshut : (s.dev.gen.mode != .primer) = false := by simp [hm]
  simp [gate, onBus, hshut]

theorem laserIlkLow_putsOut (s : State) :
    Completes .laserIlkLow s fun d =>
      d.wrc.ilk = false ∧ d.wrc.laserOn = false ∧ d.wrc.ilkBlocked = true ∧ Raised 105 d := by
  obtain ⟨a, ha⟩ : ∃ a, a = laserOff (updWrc (fun w => { w with ilk := false, ilkBlocked := true }) s.dev) := ⟨_, rfl⟩
  obtain ⟨b, hb⟩ : ∃ b, b = { a with servo := { a.servo with layer := none, targetLayer := none, script := none } } := ⟨_, rfl⟩
  have hwrc : b.wrc = { s.dev.wrc with ilk := false, ilkBlocked := true, laserOn := false, level := 0 } := by rw [hb, ha]; rfl
  have hsettled := refreshInhibit_settled (d := b)
  have hilk : (refreshInhibit b).wrc.ilk = b.wrc.ilk := (congrArg WriteChannel.ilk hsettled :)
  have hblocked : (refreshInhibit b).wrc.ilkBlocked = b.wrc.ilkBlocked := (congrArg WriteChannel.ilkBlocked hsettled :)
  have hdark := (refreshInhibit_dark (d := b) (by rw [hwrc])).1
  have hspares : Spares (raise 105 (refreshInhibit b)) (sweepGroups (failMedium (raise 105 (refreshInhibit b)))) :=
    Spares.refl.failMedium.sweepGroups
  have hx : exec .laserIlkLow s = effect s fun _ => sweepGroups (failMedium (raise 105 (refreshInhibit b))) := by
    rw [hb, ha]
    rfl
  refine completes_to hx rfl ?_
  rw [hspares.wrc, raise_wrc, hilk, hblocked, hwrc]
  exact ⟨rfl, hdark, rfl, hspares.raised _ (raised_raise _ _)⟩

theorem laserIlkRestored_serves (s : State) :
    Completes .laserIlkRestored s fun d => d.wrc.ilk = true ∧ d.wrc.ilkBlocked = false ∧ d.wrc.ilkSince = s.dev.now := by
  have hsettled := refreshInhibit_settled (d := updWrc (fun w => { w with ilk := true, ilkBlocked := false, ilkSince := s.dev.now }) s.dev)
  refine completes_to (f := fun d => refreshInhibit (updWrc (fun w => { w with ilk := true, ilkBlocked := false, ilkSince := d.now }) d))
    rfl rfl ⟨(congrArg WriteChannel.ilk hsettled :), (congrArg WriteChannel.ilkBlocked hsettled :),
    (congrArg WriteChannel.ilkSince hsettled :)⟩

end

/-- Settles O15: LASER_MAX is taken once and only lowered afterwards; an over-power trip and a low interlock put the laser out. -/
theorem laserCeilingAndGuards : Obligations.LaserCeilingAndGuards :=
  ⟨laserMaxWrite_first, laserMaxWrite_lowers, laserMaxWrite_refused, laserOverPower_trips, laserOverClear_clears, laserOverClear_primer,
    laserIlkLow_putsOut, laserIlkRestored_serves⟩

end Sys2Proof.Machine
end

section
/-!
PROOFS. The strategy tables: the word that STRAT_ADDR names, written and read through STRAT_DATA.
-/

namespace Sys2Proof.Machine

set_option Elab.async false

section
variable {d : Device}

theorem regF_setRegF_self {o hi lo v : Nat} (hlo : lo ≤ hi) (hhi : hi < 32) (hv : v < 2 ^ (hi + 1 - lo)) :
    (setRegF o hi lo v d).regF o hi lo = v := by
  rw [Device.regF, setRegF_reg, if_pos rfl, fld_wput hlo hhi hv]

theorem stratAdvance_onlyIn : OnlyIn [.draws] [0xB02C] d (stratAdvance d) := by
  unfold stratAdvance
  dsimp only
  split
  · exact .refl
  · split
    · exact OnlyIn.refl.andThen setRegF_onlyIn
    · exact OnlyIn.refl.andThen setRegF_onlyIn |>.andThen setDraws_onlyIn

/-- With AUTO_INC the index goes on to the next word; without it STRAT_ADDR stays; and no draw is used but past the last word (R146). -/
theorem stratAdvance_index :
    ((d.reg 0xB02C).getLsbD 31 = true → d.regF 0xB02C 8 0 < 383 → (stratAdvance d).regF 0xB02C 8 0 = d.regF 0xB02C 8 0 + 1) ∧
    ((d.reg 0xB02C).getLsbD 31 = false → (stratAdvance d).reg 0xB02C = d.reg 0xB02C) ∧
    (d.regF 0xB02C 8 0 < 383 → (stratAdvance d).draws = d.draws) := by
  unfold stratAdvance wbit
  dsimp only
  split
  · next h =>
    have hauto : (d.reg 0xB02C).getLsbD 31 = false := by simpa using h
    exact ⟨fun h1 => absurd (hauto.symm.trans h1) Bool.noConfusion, fun _ => rfl, fun _ => rfl⟩
  · next h =>
    have hauto : (d.reg 0xB02C).getLsbD 31 = true := by simpa using h
    refine ⟨fun _ hlast => ?_, fun h0 => absurd (hauto.symm.trans h0) Bool.noConfusion, fun hlast => ?_⟩
    · rw [if_pos (by omega)]
      exact regF_setRegF_self (by decide) (by decide) (by omega)
    · rw [if_pos (by omega)]
      rfl

theorem stratDataAccess_writes (s : State) (who : Requester) (v : Word32) (hseq : who ≠ .seq)
    (hlock : who = .host → s.dev.hif.lock = false) (hup : masterUp who s.dev = true) (hw : s.dev.wrc.writing = none) :
    Completes (.stratDataAccess who (some v)) s fun d =>
      sget (fun _ => 0) d.wrc.strat (s.dev.regF 0xB02C 8 0) = v ∧
      (∀ k, k ≠ s.dev.regF 0xB02C 8 0 → sget (fun _ => 0) d.wrc.strat k = sget (fun _ => 0) s.dev.wrc.strat k) ∧
      ((s.dev.reg 0xB02C).getLsbD 31 = true → s.dev.regF 0xB02C 8 0 < 383 → d.regF 0xB02C 8 0 = s.dev.regF 0xB02C 8 0 + 1) ∧
      ((s.dev.reg 0xB02C).getLsbD 31 = false → d.reg 0xB02C = s.dev.reg 0xB02C) ∧
      (s.dev.regF 0xB02C 8 0 < 383 → d.draws = s.dev.draws) ∧ OnlyIn [.wrc, .draws] [0xB02C] s.dev d := by
  obtain ⟨b, hb⟩ : ∃ b, b = updWrc (fun w => { w with strat := sset (fun _ => 0) (s.dev.regF 0xB02C 8 0) v w.strat }) s.dev := ⟨_, rfl⟩
  have he : stratAccess (some v) s.dev = stratAdvance b := by simp [stratAccess, hw, hb]
  have hbonly : OnlyIn [.wrc] [] s.dev b := hb ▸ updWrc_onlyIn
  have hreg : b.reg 0xB02C = s.dev.reg 0xB02C := hbonly.2 _ (by simp)
  have hregF : b.regF 0xB02C 8 0 = s.dev.regF 0xB02C 8 0 := by rw [Device.regF, hreg, Device.regF]
  have hdraws : b.draws = s.dev.draws := hbonly.1 .draws (by decide)
  have hindex := stratAdvance_index (d := b)
  rw [hreg, hregF, hdraws] at hindex
  obtain ⟨hauto, hstay, hdrawn⟩ := hindex
  refine completes_to rfl ((gate_notSeq hseq hlock hup).trans he) ⟨?_, fun k hk => ?_, hauto, hstay, hdrawn,
    hbonly.mono (by decide) (by decide) |>.andThen stratAdvance_onlyIn⟩
  · rw [stratAdvance_wrc, hb]
    exact sget_sset_self _ _ _ _
  · rw [stratAdvance_wrc, hb]
    exact sget_sset_ne _ _ _ _ _ hk

theorem stratDataAccess_whileWriting (s : State) (who : Requester) (v : Word32) (hseq : who ≠ .seq)
    (hlock : who = .host → s.dev.hif.lock = false) (hw : s.dev.wrc.writing ≠ none) :
    Completes (.stratDataAccess who (some v)) s fun d => d = s.dev := by
  have he : stratAccess (some v) s.dev = s.dev := if_pos (Option.isSome_iff_ne_none.2 hw)
  refine completes_to (e := s.dev) rfl ?_ rfl
  cases who with
  | host => exact (gate_host_unlocked (o := 0xB030) (hlock rfl)).trans he
  | seq => exact absurd rfl hseq
  | mgmt =>
    cases hup : masterUp .mgmt s.dev with
    | true => exact (if_pos hup).trans he
    | false => exact if_neg (by rw [hup]; exact Bool.noConfusion)

theorem stratDataAccess_reads (s : State) (who : Requester) (hup : masterUp who s.dev = true) :
    Completes (.stratDataAccess who none) s fun d =>
      d.bus.readData = sget (fun _ => 0) s.dev.wrc.strat (s.dev.regF 0xB02C 8 0) ∧
      ((s.dev.reg 0xB02C).getLsbD 31 = true → s.dev.regF 0xB02C 8 0 < 383 → d.regF 0xB02C 8 0 = s.dev.regF 0xB02C 8 0 + 1) ∧
      (s.dev.regF 0xB02C 8 0 < 383 → d.draws = s.dev.draws) ∧ OnlyIn [.bus, .draws] [0xB02C] s.dev d := by
  obtain ⟨b, hb⟩ : ∃ b, b = putRead (sget (fun _ => 0) s.dev.wrc.strat (s.dev.regF 0xB02C 8 0)) s.dev := ⟨_, rfl⟩
  have hbonly : OnlyIn [.bus] [] s.dev b := hb ▸ putRead_onlyIn
  have hreg : b.reg 0xB02C = s.dev.reg 0xB02C := hbonly.2 _ (by simp)
  have hregF : b.regF 0xB02C 8 0 = s.dev.regF 0xB02C 8 0 := by rw [Device.regF, hreg, Device.regF]
  have hdraws : b.draws = s.dev.draws := hbonly.1 .draws (by decide)
  have hindex := stratAdvance_index (d := b)
  rw [hreg, hregF, hdraws] at hindex
  obtain ⟨hauto, -, hdrawn⟩ := hindex
  refine completes_to (e := stratAdvance b) rfl ((if_pos hup).trans (by rw [hb]; rfl)) ⟨?_, hauto, hdrawn,
    hbonly.mono (by decide) (by decide) |>.andThen stratAdvance_onlyIn⟩
  rw [stratAdvance_onlyIn.1 .bus (by decide), hb]
  rfl

end

/-- Settles O17: STRAT_DATA reaches the word that STRAT_ADDR.INDEX names, and a write waits for no sector's being written. -/
theorem strategyTablesAreReached : Obligations.StrategyTablesAreReached :=
  ⟨stratDataAccess_writes, stratDataAccess_whileWriting, stratDataAccess_reads⟩

end Sys2Proof.Machine
end

section
/-!
PROOFS. The calibration of the write power: test steps on the host's or the firmware's word, and static OPC step after step to its end.
-/

namespace Sys2Proof.Machine

set_option Elab.async false

section
variable {d e : Device}

/-! ### Fields of one register -/

/-- A field keeps its value when another field of its word is put. -/
theorem fld_wput_apart {w : Word32} {hi lo hi' lo' v : Nat} (h : hi < lo' ∨ hi' < lo) (hlo : lo' ≤ hi') (hhi : hi' < 32) :
    fld (wput w hi lo v) hi' lo' = fld w hi' lo' := by
  apply Nat.eq_of_testBit_eq
  intro i
  simp only [fld, field, wput, Nat.testBit_mod_two_pow, Nat.testBit_div_two_pow, BitVec.testBit_toNat, BitVec.getLsbD_or,
    BitVec.getLsbD_and, BitVec.getLsbD_not, BitVec.getLsbD_ofNat, Nat.testBit_mul_two_pow, Nat.testBit_two_pow_sub_one]
  by_cases hi' : i < hi' + 1 - lo'
  · have h32 : i + lo' < 32 := by omega
    have hout : ¬ (lo ≤ i + lo' ∧ i + lo' - lo < hi + 1 - lo) := by omega
    simp only [hi', h32, decide_true, Bool.true_and]
    have hmask : (decide (lo ≤ i + lo') && decide (i + lo' - lo < hi + 1 - lo)) = false := by
      rw [← Bool.decide_and]
      exact decide_eq_false hout
    simp [hmask]
  · simp [hi']

theorem regF_setRegF_apart {o hi lo hi' lo' v : Nat} (h : hi < lo' ∨ hi' < lo) (hlo : lo' ≤ hi') (hhi : hi' < 32) :
    (setRegF o hi lo v d).regF o hi' lo' = d.regF o hi' lo' := by
  rw [Device.regF, setRegF_reg, if_pos rfl, fld_wput_apart h hlo hhi, Device.regF]

theorem regF_eq_of_onlyIn {bs : List Block} {os : List Nat} {o hi lo : Nat} (h : OnlyIn bs os d e) (ho : o ∉ os) :
    e.regF o hi lo = d.regF o hi lo := by
  rw [Device.regF, h.2 o ho, Device.regF]

theorem laserMax_eq_of_onlyIn {bs : List Block} {os : List Nat} (h : OnlyIn bs os d e) (ho : 0xB004 ∉ os) : laserMax e = laserMax d :=
  regF_eq_of_onlyIn h ho

/-- The three fields of OPC_CMD stand at `layer`, `band` and `power`. -/
def OpcFields (layer band power : Nat) (d : Device) : Prop :=
  d.regF 0xB0C0 26 24 = layer ∧ d.regF 0xB0C0 21 20 = band ∧ d.regF 0xB0C0 9 0 = power

theorem OpcFields.of_onlyIn {layer band power : Nat} {bs : List Block} {os : List Nat} (h : OpcFields layer band power d)
    (g : OnlyIn bs os d e) (ho : 0xB0C0 ∉ os) : OpcFields layer band power e := by
  unfold OpcFields
  rw [regF_eq_of_onlyIn g ho, regF_eq_of_onlyIn g ho, regF_eq_of_onlyIn g ho]
  exact h

/-- The fields of OPC_CMD in the order in which static OPC puts them. -/
theorem opcFields_put {layer band power : Nat} (hl : layer < 8) (hb : band < 4) (hp : power < 1024) :
    OpcFields layer band power (setRegF 0xB0C0 26 24 layer (setRegF 0xB0C0 21 20 band (setRegF 0xB0C0 9 0 power d))) := by
  refine ⟨regF_setRegF_self (by decide) (by decide) hl, ?_, ?_⟩
  · rw [regF_setRegF_apart (by decide) (by decide) (by decide), regF_setRegF_self (by decide) (by decide) hb]
  · rw [regF_setRegF_apart (by decide) (by decide) (by decide), regF_setRegF_apart (by decide) (by decide) (by decide),
      regF_setRegF_self (by decide) (by decide) hp]

/-- The fields of OPC_CMD in the order in which a write puts them. -/
theorem opcFields_written {layer band power : Nat} (hl : layer < 8) (hb : band < 4) (hp : power < 1024) :
    OpcFields layer band power (setRegF 0xB0C0 21 20 band (setRegF 0xB0C0 9 0 power (setRegF 0xB0C0 26 24 layer d))) := by
  refine ⟨?_, regF_setRegF_self (by decide) (by decide) hb, ?_⟩
  · rw [regF_setRegF_apart (by decide) (by decide) (by decide), regF_setRegF_apart (by decide) (by decide) (by decide),
      regF_setRegF_self (by decide) (by decide) hl]
  · rw [regF_setRegF_apart (by decide) (by decide) (by decide), regF_setRegF_self (by decide) (by decide) hp]

/-! ### A test step (R148) -/

theorem laserLevel_onlyIn {n : Nat} : OnlyIn [.wrc] [] d (laserLevel n d) := by
  unfold laserLevel
  split <;> exact setWrc_onlyIn

theorem laserLevel_wrc {n : Nat} : ∃ on level, (laserLevel n d).wrc = { d.wrc with laserOn := on, level := level } := by
  unfold laserLevel
  split <;> exact ⟨_, _, rfl⟩

theorem beginTest_onlyIn {layer band : Nat} : OnlyIn [.wrc] [] d (beginTest layer band d) := by
  unfold beginTest
  dsimp only
  split
  · split
    · exact updWrc_onlyIn.trans laserLevel_onlyIn
    · exact updWrc_onlyIn.trans laserToRead_onlyIn
  · exact .refl

/-- A test step that begins changes of the write channel the step and the laser alone. -/
theorem beginTest_wrc {layer band : Nat} : ∃ x on level, (beginTest layer band d).wrc =
    { d.wrc with opcStep := x, laserOn := on, level := level } := by
  unfold beginTest
  generalize testSectorsOk layer band _ = ok
  extract_lets x b
  split
  · split
    · obtain ⟨on, level, he⟩ := laserLevel_wrc (n := x.power) (d := b)
      exact ⟨_, on, level, he⟩
    · obtain ⟨on, level, he⟩ := laserToRead_wrc (d := b)
      exact ⟨_, on, level, he⟩
  · exact ⟨_, _, _, rfl⟩

/-- A test step in the test area begins, at its power after the clamp while no inhibit holds (R143, R148, R157). -/
theorem beginTest_begins {layer band : Nat} (h : testSectorsOk layer band (d.reg 0xB0C8).toNat = true) :
    (beginTest layer band d).wrc.opcStep =
      some { layer := layer, band := band, power := d.regF 0xB0C0 9 0, pos := (d.reg 0xB0C8).toNat } ∧
    (d.wrc.inhibit = 0 → d.wrc.held = false → laserMayEmit d = true →
      (beginTest layer band d).wrc.laserOn = true ∧ (beginTest layer band d).wrc.level = min (d.regF 0xB0C0 9 0) (laserMax d)) := by
  obtain ⟨x, hx⟩ : ∃ x, x = OpcStep.mk layer band (d.regF 0xB0C0 9 0) (d.reg 0xB0C8).toNat := ⟨_, rfl⟩
  obtain ⟨b, hb⟩ : ∃ b, b = updWrc (fun w => { w with opcStep := some x }) d := ⟨_, rfl⟩
  have he : beginTest layer band d = if b.wrc.inhibit = 0 && !b.wrc.held then laserLevel x.power b else laserToRead b := by
    rw [hb, hx]
    exact if_pos h
  have hstep : b.wrc.opcStep = some x := by rw [hb]; rfl
  rw [he, ← hx]
  refine ⟨?_, fun hin hheld hemit => ?_⟩
  · split
    · obtain ⟨on, level, hl⟩ := laserLevel_wrc (n := x.power) (d := b)
      rw [hl, hstep]
    · obtain ⟨on, level, hl⟩ := laserToRead_wrc (d := b)
      rw [hl, hstep]
  · have hopen : (decide (b.wrc.inhibit = 0) && !b.wrc.held) = true := by simp [hb, updWrc, hin, hheld]
    have hmay : laserMayEmit b = true := hb ▸ hemit
    rw [if_pos hopen, laserLevel, if_pos hmay, hb, hx]
    exact ⟨rfl, rfl⟩

/-- The fields that a write of OPC_CMD puts, whether or not a step begins. -/
def opcWritten (v : Word32) (d : Device) : Device :=
  setRegF 0xB0C0 21 20 (fld v 21 20) (setRegF 0xB0C0 9 0 (fld v 9 0) (setRegF 0xB0C0 26 24 (fld v 26 24) d))

theorem opcWritten_onlyIn {v : Word32} : OnlyIn [] [0xB0C0] d (opcWritten v d) :=
  setRegF_onlyIn.trans (setRegF_onlyIn.trans setRegF_onlyIn)

theorem opcWritten_fields {v : Word32} (hl : fld v 26 24 < 6) :
    OpcFields (fld v 26 24) (fld v 21 20) (fld v 9 0) (opcWritten v d) :=
  opcFields_written (by omega) (Nat.mod_lt _ (by decide)) (Nat.mod_lt _ (by decide))

/-- A write of OPC_CMD: its fields, and a step where START is the firmware's or the sequencer's and none runs (R148, R477). -/
theorem writeOpcCmd_eq {who : Requester} {v : Word32} (hl : fld v 26 24 < 6) : writeOpcCmd who v d =
    if wbit v 31 && who != .host && (opcWritten v d).wrc.opcStep.isNone && (opcWritten v d).pwr.st = .armed then
      beginTest ((opcWritten v d).regF 0xB0C0 26 24) ((opcWritten v d).regF 0xB0C0 21 20) (opcWritten v d)
    else opcWritten v d := by
  unfold writeOpcCmd
  rw [if_pos hl]
  rfl

theorem gate_opcCmd {who : Requester} {f : Device → Device} (hlock : who = .host → d.hif.lock = false) (hup : masterUp who d = true) :
    gate who 0xB0C0 true f d = f d := gate_open (by decide) hup fun h => ⟨hlock h, rfl⟩

theorem opcTestStep_writes (s : State) (who : Requester) (v : Word32) (hlock : who = .host → s.dev.hif.lock = false)
    (hup : masterUp who s.dev = true) (hl : fld v 26 24 < 6) (hno : who = .host ∨ v.getLsbD 31 = false) :
    Completes (.opcTestStep who v) s fun d =>
      d.regF 0xB0C0 26 24 = fld v 26 24 ∧ d.regF 0xB0C0 21 20 = fld v 21 20 ∧ d.regF 0xB0C0 9 0 = fld v 9 0 ∧
      OnlyIn [] [0xB0C0] s.dev d := by
  have he : writeOpcCmd who v s.dev = opcWritten v s.dev := by
    rw [writeOpcCmd_eq hl]
    refine if_neg ?_
    rcases hno with rfl | hv
    · simp
    · rw [wbit, hv]
      simp
  obtain ⟨h₁, h₂, h₃⟩ := opcWritten_fields (d := s.dev) hl
  exact completes_to rfl ((gate_opcCmd hlock hup).trans he) ⟨h₁, h₂, h₃, opcWritten_onlyIn⟩

theorem opcTestStep_begins (s : State) (who : Requester) (v : Word32) (hhost : who ≠ .host) (hup : masterUp who s.dev = true)
    (hl : fld v 26 24 < 6) (hstart : v.getLsbD 31 = true) (hnone : s.dev.wrc.opcStep = none) (harmed : s.dev.pwr.st = .armed)
    (harea : testSectorsOk (fld v 26 24) (fld v 21 20) (s.dev.reg 0xB0C8).toNat = true) :
    Completes (.opcTestStep who v) s fun d =>
      d.wrc.opcStep = some { layer := fld v 26 24, band := fld v 21 20, power := fld v 9 0, pos := (s.dev.reg 0xB0C8).toNat } ∧
      (s.dev.wrc.inhibit = 0 → s.dev.wrc.held = false → laserMayEmit s.dev = true →
        d.wrc.laserOn = true ∧ d.wrc.level = min (fld v 9 0) (laserMax s.dev)) ∧
      d.regF 0xB0C0 26 24 = fld v 26 24 ∧ d.regF 0xB0C0 21 20 = fld v 21 20 ∧ d.regF 0xB0C0 9 0 = fld v 9 0 ∧
      OnlyIn [.wrc] [0xB0C0] s.dev d := by
  obtain ⟨b, hb⟩ : ∃ b, b = opcWritten v s.dev := ⟨_, rfl⟩
  have hbonly : OnlyIn [] [0xB0C0] s.dev b := hb ▸ opcWritten_onlyIn
  have hfields : OpcFields (fld v 26 24) (fld v 21 20) (fld v 9 0) b := hb ▸ opcWritten_fields hl
  have hwrc : b.wrc = s.dev.wrc := hbonly.1 .wrc (by decide)
  have hpos : b.reg 0xB0C8 = s.dev.reg 0xB0C8 := hbonly.2 _ (by decide)
  have hmay : laserMayEmit b = laserMayEmit s.dev := by simp only [laserMayEmit, hwrc, hbonly.2 0xB000 (by decide)]
  have he : writeOpcCmd who v s.dev = beginTest (fld v 26 24) (fld v 21 20) b := by
    obtain ⟨h₁, h₂, -⟩ := hfields
    have hgo : (wbit v 31 && who != .host && b.wrc.opcStep.isNone && decide (b.pwr.st = .armed)) = true := by
      rw [hwrc, hnone, hbonly.1 .pwr (by decide), harmed]
      simpa [wbit, hstart] using hhost
    rw [writeOpcCmd_eq hl, ← hb, if_pos hgo, h₁, h₂]
  obtain ⟨hstep, hlaser⟩ := beginTest_begins (d := b) (layer := fld v 26 24) (band := fld v 21 20) (by rw [hpos]; exact harea)
  obtain ⟨h₁, h₂, h₃⟩ := hfields.of_onlyIn (beginTest_onlyIn (layer := fld v 26 24) (band := fld v 21 20)) (by simp)
  have hpower : b.regF 0xB0C0 9 0 = fld v 9 0 := hfields.2.2
  rw [hpos, hpower] at hstep
  rw [hwrc, hmay, hpower, laserMax_eq_of_onlyIn hbonly (by decide)] at hlaser
  exact completes_to rfl ((gate_opcCmd (fun h => absurd h hhost) hup).trans he)
    ⟨hstep, hlaser, h₁, h₂, h₃, hbonly.mono (by decide) (by decide) |>.andThen beginTest_onlyIn⟩

/-! ### The end of a test step -/

/-- A test step's results are there and the laser is at read power (R148). -/
def stepEnded (errors : Nat) (beta : Int) (d : Device) : Device :=
  laserToRead (updWrc (fun w => { w with opcStep := none, opcErrors := min 0xFFFF errors, opcBeta := clampInt (-512) 511 beta }) d)

theorem stepEnded_onlyIn {errors : Nat} {beta : Int} : OnlyIn [.wrc] [] d (stepEnded errors beta d) :=
  updWrc_onlyIn.trans laserToRead_onlyIn

theorem stepEnded_wrc {errors : Nat} {beta : Int} : ∃ on level, (stepEnded errors beta d).wrc =
    { d.wrc with opcStep := none, opcErrors := min 0xFFFF errors, opcBeta := clampInt (-512) 511 beta, laserOn := on, level := level } :=
  laserToRead_wrc

/-- The first power whose errors meet the target stays the best (R148). -/
def bestAfter (r : OpcRun) (x : OpcStep) (errors : Nat) (beta : Int) : Option (Nat × Int) :=
  if r.best.isNone && errors * 4000 < 147968 then some (x.power, clampInt (-512) 511 beta) else r.best

theorem testStepDone_alone {x : OpcStep} {errors : Nat} {beta : Int} (h : d.wrc.opcRun = none) :
    testStepDone x errors beta d = stepEnded errors beta d := by
  obtain ⟨on, level, he⟩ := stepEnded_wrc (errors := errors) (beta := beta) (d := d)
  have hrun : (stepEnded errors beta d).wrc.opcRun = none := by rw [he]; exact h
  unfold testStepDone
  change (match (stepEnded errors beta d).wrc.opcRun with | none => _ | some r => _) = _
  rw [hrun]
  rfl

theorem testStepDone_run {x : OpcStep} {r : OpcRun} {errors : Nat} {beta : Int} (h : d.wrc.opcRun = some r) :
    testStepDone x errors beta d = opcNext { r with best := bestAfter r x errors beta, k := r.k + 1 }
      (setReg 0xB0C8 (BitVec.ofNat 32 (x.pos + 4)) (stepEnded errors beta d)) := by
  obtain ⟨on, level, he⟩ := stepEnded_wrc (errors := errors) (beta := beta) (d := d)
  have hrun : (stepEnded errors beta d).wrc.opcRun = some r := by rw [he]; exact h
  unfold testStepDone
  change (match (stepEnded errors beta d).wrc.opcRun with | none => _ | some r => _) = _
  rw [hrun]
  rfl

/-- The results of the step that is in progress end it. -/
theorem completes_testStepDone {s : State} {errors : Nat} {beta : Int} {x : OpcStep} {P : Device → Prop} (hx : s.dev.wrc.opcStep = some x)
    (he : testStepDone x errors beta s.dev = e) (p : P e) : Completes (.opcTestStepDone errors beta) s P := by
  refine completes_effect (fun d => match d.wrc.opcStep with | some x => testStepDone x errors beta d | none => d) rfl ?_
  rw [hx]
  subst he
  exact p

theorem opcTestStepDone_alone (s : State) (errors : Nat) (beta : Int) (x : OpcStep) (hx : s.dev.wrc.opcStep = some x)
    (hr : s.dev.wrc.opcRun = none) :
    Completes (.opcTestStepDone errors beta) s fun d =>
      d.wrc.opcStep = none ∧ d.wrc.opcErrors = min 0xFFFF errors ∧ d.wrc.opcBeta = clampInt (-512) 511 beta ∧
      OnlyIn [.wrc] [] s.dev d := by
  obtain ⟨on, level, he⟩ := stepEnded_wrc (errors := errors) (beta := beta) (d := s.dev)
  refine completes_testStepDone hx (testStepDone_alone hr) ?_
  rw [he]
  exact ⟨rfl, rfl, rfl, stepEnded_onlyIn⟩

/-! ### Static OPC (R147, R148) -/

/-- Power of step `k` of static OPC, of the calibrated power `p0`. -/
def opcPower (p0 k : Nat) : Nat := (roundDiv ((p0 * (85 + 3 * k) : Nat) : Int) 100).toNat

/-- While steps remain below the ceiling, the next begins from OPC_POS or from the area's first frame (R148). -/
theorem opcNext_goesOn {r : OpcRun} (harmed : d.pwr.st = .armed) (hk : r.k ≤ 10) (hl : r.layer < 6) (hb : r.band < 4)
    (hp : opcPower r.p0 r.k ≤ laserMax d) :
    (opcNext r d).wrc.opcRun = some r ∧ OpcFields r.layer r.band (opcPower r.p0 r.k) (opcNext r d) ∧
      OnlyIn [.wrc] [0xB0C0, 0xB0C8] d (opcNext r d) := by
  obtain ⟨a, ha⟩ : ∃ a, a = setRegF 0xB0C0 26 24 r.layer (setRegF 0xB0C0 21 20 r.band (setRegF 0xB0C0 9 0 (opcPower r.p0 r.k) d)) :=
    ⟨_, rfl⟩
  obtain ⟨b, hbd⟩ : ∃ b, b = updWrc (fun w => { w with opcRun := some r })
    (setReg 0xB0C8 (BitVec.ofNat 32 (opcPlace r.layer r.band a)) a) := ⟨_, rfl⟩
  have he : opcNext r d = beginTest r.layer r.band b := by
    have hstand : ¬ (d.pwr.st != .armed) = true := by simp [harmed]
    have hmore : ¬ (decide (10 < r.k) || decide (laserMax d < opcPower r.p0 r.k)) = true := by
      simp only [Bool.or_eq_true, decide_eq_true_eq]
      omega
    rw [hbd, ha]
    exact (if_neg hstand).trans (if_neg hmore)
  have hfields : OpcFields r.layer r.band (opcPower r.p0 r.k) a :=
    ha ▸ opcFields_put (by omega) hb (Nat.lt_of_le_of_lt hp laserMax_lt)
  have haonly : OnlyIn [] [0xB0C0] d a := ha ▸ setRegF_onlyIn.trans (setRegF_onlyIn.trans setRegF_onlyIn)
  have hbonly : OnlyIn [.wrc] [0xB0C8] a b := by
    rw [hbd]
    exact OnlyIn.refl.andThen setReg_onlyIn |>.andThen updWrc_onlyIn
  obtain ⟨x, on, level, hw⟩ := beginTest_wrc (d := b) (layer := r.layer) (band := r.band)
  rw [he]
  refine ⟨?_, (hfields.of_onlyIn hbonly (by decide)).of_onlyIn beginTest_onlyIn (by simp),
    haonly.mono (by decide) (by decide) |>.andThen hbonly |>.andThen beginTest_onlyIn⟩
  rw [hw, hbd]
  rfl

theorem opcTestStepDone_goesOn (s : State) (errors : Nat) (beta : Int) (x : OpcStep) (r : OpcRun) (hx : s.dev.wrc.opcStep = some x)
    (hr : s.dev.wrc.opcRun = some r) (hk : r.k < 10) (hl : r.layer < 6) (hb : r.band < 4) (harmed : s.dev.pwr.st = .armed)
    (hp : (roundDiv ((r.p0 * (85 + 3 * (r.k + 1)) : Nat) : Int) 100).toNat ≤ laserMax s.dev) :
    Completes (.opcTestStepDone errors beta) s fun d =>
      d.wrc.opcRun.map (fun y => (y.layer, y.band, y.k, y.p0)) = some (r.layer, r.band, r.k + 1, r.p0) ∧
      d.regF 0xB0C0 9 0 = (roundDiv ((r.p0 * (85 + 3 * (r.k + 1)) : Nat) : Int) 100).toNat ∧
      OnlyIn [.wrc] [0xB0C0, 0xB0C8] s.dev d := by
  obtain ⟨b, hbd⟩ : ∃ b, b = setReg 0xB0C8 (BitVec.ofNat 32 (x.pos + 4)) (stepEnded errors beta s.dev) := ⟨_, rfl⟩
  have hbonly : OnlyIn [.wrc] [0xB0C8] s.dev b := by
    rw [hbd]
    exact OnlyIn.refl.andThen stepEnded_onlyIn |>.andThen setReg_onlyIn
  obtain ⟨hrun, ⟨-, -, hpower⟩, honly⟩ := opcNext_goesOn (d := b) (r := { r with best := bestAfter r x errors beta, k := r.k + 1 })
    (by rw [hbonly.1 .pwr (by decide)]; exact harmed) (by exact hk) hl hb
    (by rw [laserMax_eq_of_onlyIn hbonly (by decide)]; exact hp)
  refine completes_testStepDone hx ((testStepDone_run hr).trans (by rw [hbd]))
    ⟨?_, hpower, hbonly.mono (by decide) (by decide) |>.trans honly⟩
  rw [hrun]
  rfl

/-- After step 10 static OPC ends (R148). -/
theorem opcNext_ends {r : OpcRun} (harmed : d.pwr.st = .armed) (hk : 10 < r.k) : opcNext r d = opcEnd r d := by
  have hstand : ¬ (d.pwr.st != .armed) = true := by simp [harmed]
  have hover : (decide (10 < r.k) || decide (laserMax d < opcPower r.p0 r.k)) = true := by simp [hk]
  exact (if_neg hstand).trans (if_pos hover)

/-- The run has ended, and its layer and band count as calibrated from now (R147). -/
def runEnded (r : OpcRun) (d : Device) : Device :=
  updWrc (fun w => { w with
    opcRun := none
    opcDone := sset (fun _ => {}) (4 * r.layer + r.band) { done := true, temp := d.pwr.tempAfe, writtenTicks := 0 } w.opcDone }) d

theorem opcEnd_none {r : OpcRun} (h : r.best = none) :
    opcEnd r d = raise 103 (logLater d.now 1 103 0 (leBytes 1 r.layer ++ leBytes 1 r.band) (runEnded r d)) := by
  unfold opcEnd
  rw [h]
  rfl

theorem opcTestStepDone_noneFound (s : State) (errors : Nat) (beta : Int) (x : OpcStep) (r : OpcRun) (hx : s.dev.wrc.opcStep = some x)
    (hr : s.dev.wrc.opcRun = some r) (hk : 10 ≤ r.k) (hbest : r.best = none) (herrors : 147968 ≤ errors * 4000)
    (harmed : s.dev.pwr.st = .armed) :
    Completes (.opcTestStepDone errors beta) s fun d =>
      d.wrc.opcRun = none ∧ d.wrc.opcStep = none ∧ Raised 103 d ∧
      OnlyIn ([.wrc, .evt] ++ interruptParts) [0xB0C8, 0x4540] s.dev d := by
  obtain ⟨b, hbd⟩ : ∃ b, b = setReg 0xB0C8 (BitVec.ofNat 32 (x.pos + 4)) (stepEnded errors beta s.dev) := ⟨_, rfl⟩
  have hbonly : OnlyIn [.wrc] [0xB0C8] s.dev b := by
    rw [hbd]
    exact OnlyIn.refl.andThen stepEnded_onlyIn |>.andThen setReg_onlyIn
  have hnone : bestAfter r x errors beta = none := by simp [bestAfter, hbest, Nat.not_lt.2 herrors]
  obtain ⟨r', hr'⟩ : ∃ r', r' = { r with best := bestAfter r x errors beta, k := r.k + 1 } := ⟨_, rfl⟩
  have he : testStepDone x errors beta s.dev =
      raise 103 (logLater b.now 1 103 0 (leBytes 1 r'.layer ++ leBytes 1 r'.band) (runEnded r' b)) := by
    rw [testStepDone_run hr, ← hbd, ← hr', opcNext_ends (by rw [hbonly.1 .pwr (by decide)]; exact harmed)
        (by rw [hr']; exact Nat.lt_succ_of_le hk),
      opcEnd_none (by rw [hr']; exact hnone)]
  have hended : OnlyIn [.wrc, .evt] [0xB0C8] s.dev (logLater b.now 1 103 0 (leBytes 1 r'.layer ++ leBytes 1 r'.band) (runEnded r' b)) :=
    hbonly.mono (by decide) (by decide) |>.andThen updWrc_onlyIn |>.andThen logLater_onlyIn
  obtain ⟨on, level, hw⟩ := stepEnded_wrc (errors := errors) (beta := beta) (d := s.dev)
  refine completes_testStepDone hx he ⟨?_, ?_, raised_raise _ _, hended.mono (by decide) (by decide) |>.andThen raise_onlyIn⟩
  · rw [raise_wrc, logLater_onlyIn.1 .wrc (by decide)]
    rfl
  · rw [raise_wrc, logLater_onlyIn.1 .wrc (by decide), runEnded, updWrc_wrc, hbd, setReg_wrc, hw]

/-- The calibration takes the power found, 1.12 times the first that met the target, within the ceiling, and the β found (R148). -/
theorem opcEnd_some {r : OpcRun} {p : Nat} {b : Int} (h : r.best = some (p, b)) :
    opcEnd r d = raise 102 (updWrc (fun w => { w with trims := sset (fun _ => 0) (4 * r.layer + r.band) 0 w.trims, trim := 0 })
      (setRegF (0xB0A0 + 4 * r.layer) 25 16 (ofSigned 10 b)
        (setRegF (0xB040 + 4 * (4 * r.layer + r.band)) 9 0 (min (roundDiv ((p * 112 : Nat) : Int) 100).toNat (laserMax (runEnded r d)))
          (runEnded r d)))) := by
  unfold opcEnd
  rw [h]
  rfl

theorem ofSigned_lt {n : Nat} {v : Int} : ofSigned n v < 2 ^ n := by
  have hpos : (0 : Int) < (2 ^ n : Nat) := Int.natCast_pos.2 (Nat.two_pow_pos n)
  have hlt := Int.emod_lt_of_pos v hpos
  have hnonneg := Int.emod_nonneg v (Int.ne_of_gt hpos)
  unfold ofSigned
  omega

theorem opcTestStepDone_calibrates (s : State) (errors : Nat) (beta : Int) (x : OpcStep) (r : OpcRun) (p : Nat) (b : Int)
    (hx : s.dev.wrc.opcStep = some x) (hr : s.dev.wrc.opcRun = some r) (hk : 10 ≤ r.k) (hl : r.layer < 6) (hb : r.band < 4)
    (hbest : r.best = some (p, b)) (harmed : s.dev.pwr.st = .armed) :
    Completes (.opcTestStepDone errors beta) s fun d =>
      d.wrc.opcRun = none ∧ Raised 102 d ∧
      d.regF (0xB040 + 4 * (4 * r.layer + r.band)) 9 0 = min (roundDiv ((p * 112 : Nat) : Int) 100).toNat (laserMax s.dev) ∧
      d.regF (0xB0A0 + 4 * r.layer) 25 16 = ofSigned 10 b ∧ trimAt d (4 * r.layer + r.band) = 0 := by
  obtain ⟨r', hr'⟩ : ∃ r', r' = { r with best := bestAfter r x errors beta, k := r.k + 1 } := ⟨_, rfl⟩
  obtain ⟨a, ha⟩ : ∃ a, a = setReg 0xB0C8 (BitVec.ofNat 32 (x.pos + 4)) (stepEnded errors beta s.dev) := ⟨_, rfl⟩
  have haonly : OnlyIn [.wrc] [0xB0C8] s.dev a := by
    rw [ha]
    exact OnlyIn.refl.andThen stepEnded_onlyIn |>.andThen setReg_onlyIn
  have hsome : r'.best = some (p, b) := by simp [hr', bestAfter, hbest]
  have hlayer : r'.layer = r.layer ∧ r'.band = r.band := by
    rw [hr']
    exact ⟨rfl, rfl⟩
  obtain ⟨e, he⟩ : ∃ e, e = runEnded r' a := ⟨_, rfl⟩
  have hmax : laserMax e = laserMax s.dev := by
    rw [he]
    exact (laserMax_eq_of_onlyIn updWrc_onlyIn (by simp)).trans (laserMax_eq_of_onlyIn haonly (by decide))
  have hend : testStepDone x errors beta s.dev = opcEnd r' a := by
    rw [testStepDone_run hr, ← ha, ← hr', opcNext_ends (by rw [haonly.1 .pwr (by decide)]; exact harmed)
      (by rw [hr']; exact Nat.lt_succ_of_le hk)]
  rw [opcEnd_some hsome, hlayer.1, hlayer.2, ← he, hmax] at hend
  have hpower : min (roundDiv ((p * 112 : Nat) : Int) 100).toNat (laserMax s.dev) < 1024 :=
    Nat.lt_of_le_of_lt (Nat.min_le_right _ _) laserMax_lt
  generalize hq : min (roundDiv ((p * 112 : Nat) : Int) 100).toNat (laserMax s.dev) = q at hend hpower ⊢
  refine completes_testStepDone hx hend ⟨?_, raised_raise _ _, ?_, ?_, ?_⟩
  · rw [raise_wrc, he]
    rfl
  · rw [Device.regF, raise_reg _ _ _ (by omega), updWrc_onlyIn.2 _ (by simp), setRegF_reg, if_neg (by omega)]
    exact regF_setRegF_self (by decide) (by decide) hpower
  · rw [Device.regF, raise_reg _ _ _ (by omega), updWrc_onlyIn.2 _ (by simp)]
    exact regF_setRegF_self (by decide) (by decide) ofSigned_lt
  · rw [trimAt, raise_wrc, updWrc_wrc]
    dsimp only
    rw [sget_sset_self]

theorem exec_staticOpc {s : State} {layer band : Nat} : exec (.staticOpc layer band) s = effect s fun d =>
    onlyIf (layer < 6 && band < 4 && d.gen.mode != .primer && !opcCurrent d (4 * layer + band) && d.pwr.st = .armed
        && d.wrc.opcRun.isNone && d.wrc.opcStep.isNone)
      (opcNext { layer := layer, band := band, k := 0, p0 := fld (powerWord d (4 * layer + band)) 9 0, best := none }) d := rfl

theorem staticOpc_begins (s : State) (layer band : Nat) (hl : layer < 6) (hb : band < 4) (hm : s.dev.gen.mode ≠ .primer)
    (hdue : opcCurrent s.dev (4 * layer + band) = false) (harmed : s.dev.pwr.st = .armed) (hr : s.dev.wrc.opcRun = none)
    (hx : s.dev.wrc.opcStep = none)
    (hp : (roundDiv ((fld (powerWord s.dev (4 * layer + band)) 9 0 * 85 : Nat) : Int) 100).toNat ≤ laserMax s.dev) :
    Completes (.staticOpc layer band) s fun d =>
      d.wrc.opcRun = some { layer := layer, band := band, k := 0, p0 := fld (powerWord s.dev (4 * layer + band)) 9 0, best := none } ∧
      d.regF 0xB0C0 26 24 = layer ∧ d.regF 0xB0C0 21 20 = band ∧
      d.regF 0xB0C0 9 0 = (roundDiv ((fld (powerWord s.dev (4 * layer + band)) 9 0 * 85 : Nat) : Int) 100).toNat ∧
      OnlyIn [.wrc] [0xB0C0, 0xB0C8] s.dev d := by
  generalize hcal : fld (powerWord s.dev (4 * layer + band)) 9 0 = p₀ at hp ⊢
  obtain ⟨hrun, ⟨h₁, h₂, h₃⟩, honly⟩ := opcNext_goesOn (d := s.dev)
    (r := { layer := layer, band := band, k := 0, p0 := p₀, best := none }) harmed (Nat.zero_le _) hl hb hp
  refine completes_to exec_staticOpc ?_ ⟨hrun, h₁, h₂, h₃, honly⟩
  have hgo : (decide (layer < 6) && decide (band < 4) && s.dev.gen.mode != .primer && !opcCurrent s.dev (4 * layer + band)
      && decide (s.dev.pwr.st = .armed) && s.dev.wrc.opcRun.isNone && s.dev.wrc.opcStep.isNone) = true := by
    simp [hl, hb, hm, hdue, harmed, hr, hx]
  rw [hgo, onlyIf_true, hcal]

end

/-- Settles O16: OPC_CMD begins a test step at the clamped power, and static OPC takes eleven of them and the first power that met the
target. -/
theorem opcCalibratesWritePower : Obligations.OpcCalibratesWritePower :=
  ⟨opcTestStep_writes, opcTestStep_begins, opcTestStepDone_alone, opcTestStepDone_goesOn, opcTestStepDone_noneFound,
    opcTestStepDone_calibrates, staticOpc_begins⟩

end Sys2Proof.Machine
end

section
/-!
PROOFS. The writing of sectors: a poisoned sector and an ejection that waits.

A poisoned sector abandons its cluster. When that cluster is the last one of the write queue and a CARTRIDGE_EJECT_PREP waits for the queue
to empty, the ejection goes on at once: the drive is parked, the servo loops open, and the write-inhibit condition that this is cuts the
sector of which the data field is being written. O13 asks that `writing` stay.
-/

namespace Sys2Proof.Machine

set_option Elab.async false

/-- The cluster that is written last before an ejection: its first sector waits for its RAW result, its second is due. -/
def lastCluster : WriteCluster :=
  { mkCluster 0 0 0 .fill ⟨0, 0, 0⟩ 1 0 [] with sectors := [(0, { st := .written })] }

/-- Writing goes on with no inhibit condition, `lastCluster` is all that is left to write, and an ejection waits for it. -/
def ejectionWaits : State :=
  { pending := []
    dev := {
      servo := { loops := [(0, { st := .closed }), (1, { st := .closed })] }
      motion := { st := .geared }
      pwr := { st := .armed }
      gen := { ejectTag := some 0 }
      wrc := { clusters := [lastCluster], writing := some (0, 0), maxWritten := true, ilk := true, opcDone := [(0, { done := true })] }
      regs := [(0xB000, 1)] } }

/-- No condition of Table 06-5 holds before the command. -/
theorem ejectionWaits_uninhibited : inhibitNow ejectionWaits.dev = 0 ∧ mayWrite ejectionWaits.dev = true := by decide

theorem ejectionWaits_due : frameWrite ejectionWaits.dev (clusterPsa lastCluster 1) (fun x => x.st = .due) = some (lastCluster, 1) := by
  decide +kernel

theorem ejectionWaits_passAllowed : passAllowed ejectionWaits.dev lastCluster 1 (clusterPsa lastCluster 1) (some 0) = true := by decide

/-- What SECTOR_WRITE_START leaves when the second sector's data carry poison: no sector is being written. -/
theorem poisonedLast_cuts : (writeSector (clusterPsa lastCluster 1) (some 0) true (sweepGroups ejectionWaits.dev)).wrc.writing = none := by
  decide +kernel

/-- Refutes O13: a poisoned sector is to leave the sector that is being written, but in `ejectionWaits` its cluster is the last that an
ejection waits for, and the park that follows cuts that sector. -/
theorem not_sectorsAreWrittenJudgedAndRewritten : ¬ Obligations.SectorsAreWrittenJudgedAndRewritten := by
  rintro ⟨-, hpoison, -⟩
  obtain ⟨-, hmay⟩ := ejectionWaits_uninhibited
  obtain ⟨t, ht, -, -, hwriting, -⟩ := hpoison ejectionWaits (clusterPsa lastCluster 1) (some 0) lastCluster 1 rfl hmay ejectionWaits_due
    (by decide) (by decide) (by decide) ejectionWaits_passAllowed
  obtain rfl := Host.Outcome.next.inj ht
  dsimp only at hwriting
  rw [hmay, onlyIf_true, poisonedLast_cuts] at hwriting
  cases hwriting

end Sys2Proof.Machine
end


section
/-!
PROOFS. The rings of the record layer: how a ring enters a zone and names the next one, and how an assembled cluster takes its place.
-/

namespace Sys2Proof.Machine

section
variable {s : State} {d : Device} {o i : Nat}

/-! ### What an operation changes -/

theorem updRcl_onlyIn {f : RecordLayer → RecordLayer} : OnlyIn [.rcl] [] d (updRcl f d) := by
  refine ⟨fun p hp => ?_, fun _ _ => rfl⟩
  cases p with
  | rcl => simp at hp
  | _ => rfl

theorem updRing_onlyIn {f : Ring → Ring} : OnlyIn [.rcl] [] d (updRing o f d) := updRcl_onlyIn

theorem takeId_onlyIn : OnlyIn [.wrc] [] d (takeId d) := updWrc_onlyIn

theorem queueCluster_onlyIn {c : WriteCluster} : OnlyIn [.wrc] [] d (queueCluster c d) := updWrc_onlyIn

theorem updCmd_onlyIn {tag : Nat} {f : Cmd → Cmd} : OnlyIn [.hif] [] d (updCmd tag f d) :=
  updHif_onlyIn (f := fun h => { h with cmds := updateFirst (fun c => c.tag = tag) f h.cmds })

theorem updRing_ring_ne {f : Ring → Ring} {n : Nat} (h : n ≠ o) : (updRing o f d).ring n = d.ring n := by
  rw [updRing_ring, if_neg h]

/-! ### A directory checkpoint is queued (R175) -/

theorem systemCluster_onlyIn {kind : ClusterKind} {data : List Byte} {dir : Sparse DirSlot} {rings : List DirRing} :
    OnlyIn [.wrc, .rcl] [] d (systemCluster kind data dir rings d).2 :=
  OnlyIn.refl.andThen updRing_onlyIn |>.andThen takeId_onlyIn |>.andThen queueCluster_onlyIn

theorem writeDirectory_onlyIn : OnlyIn [.wrc, .rcl] [] d (writeDirectory d).2 := systemCluster_onlyIn

/-- The checkpoint lies behind what was queued before it, and holds the slots and the rings as they stand. -/
theorem writeDirectory_clusters :
    ∃ c, (writeDirectory d).2.wrc.clusters = d.wrc.clusters ++ [c] ∧ c.kind = .directory ∧ c.id = d.wrc.nextId ∧
      c.dir = dirSnapshot d ∧ c.dirRings = ringSnapshot d :=
  ⟨_, rfl, rfl, rfl, rfl, rfl⟩

/-- No owner's ring changes: the checkpoint counts in the system area's ring. -/
theorem writeDirectory_ring (ho : 1 ≤ o) : (writeDirectory d).2.ring o = d.ring o :=
  updRing_ring_ne (Nat.ne_of_gt ho)

theorem writeDirectory_lastChoice : (writeDirectory d).2.rcl.lastChoice = d.rcl.lastChoice := rfl

/-! ### The entry into a zone (R178) -/

theorem exec_zoneEntry :
    exec (.zoneEntry o) s = effect s fun d => onlyIf (1 ≤ o && o < 16 && entryDue d o) (beginEntry o) d := rfl

/-- An eligible next zone is entered as it was named: the directory checkpoint of the entry is written. -/
theorem beginEntry_of_eligible (hn : (d.ring o).next = some i) (he : zoneEligible d o (d.ring o) i = true) :
    beginEntry o d = updRing o (fun r => { r with entry := some d.wrc.nextId }) (writeDirectory d).2 := by
  have hnamed : namedEligible d o = true := by rw [namedEligible, hn]; exact he
  rw [beginEntry, if_pos hnamed, if_neg (by simp [hn])]
  rfl

theorem zoneEntry_completes (s : State) (o i : Nat) (ho : 1 ≤ o) (ho' : o < 16) (hdue : entryDue s.dev o = true)
    (hn : (s.dev.ring o).next = some i) (he : zoneEligible s.dev o (s.dev.ring o) i = true) :
    Completes (.zoneEntry o) s fun d =>
      (d.ring o).entry = some s.dev.wrc.nextId ∧ (d.ring o).next = some i ∧
      (∃ c, d.wrc.clusters = s.dev.wrc.clusters ++ [c] ∧ c.kind = .directory ∧ c.id = s.dev.wrc.nextId ∧ c.dir = dirSnapshot s.dev ∧
        c.dirRings = ringSnapshot s.dev) ∧
      OnlyIn [.wrc, .rcl] [] s.dev d := by
  have hentry := beginEntry_of_eligible hn he
  refine completes_to (e := beginEntry o s.dev) exec_zoneEntry (by rw [hdue, decide_eq_true ho, decide_eq_true ho']; rfl) ?_
  rw [hentry]
  refine ⟨?_, ?_, writeDirectory_clusters, writeDirectory_onlyIn.andThen updRing_onlyIn⟩
  · rw [updRing_ring_self]
  · rw [updRing_ring_self, writeDirectory_ring ho, hn]

/-! ### The naming of the next zone (R176) -/

theorem exec_nextZoneNaming :
    exec (.nextZoneNaming o) s = effect s fun d =>
      onlyIf (1 ≤ o && o < 16 && (d.ring o).naming && d.gen.mode != .primer) (nameAfterEntry o) d := rfl

theorem insertOldest_naming {r : Ring} {b : Bool} {l : List Nat} :
    insertOldest { r with naming := b } i l = insertOldest r i l := by
  induction l with
  | nil => rfl
  | cons j l ih => rw [insertOldest, insertOldest, ih]; rfl

/-- No naming is due for the ring any more. -/
def namingTaken (o : Nat) (d : Device) : Device := updRing o (fun r => { r with naming := false }) d

theorem namingTaken_ring : (namingTaken o d).ring o = { d.ring o with naming := false } := updRing_ring_self ..

/-- The choice does not rest on whether a naming is due. -/
theorem chooseNext_namingTaken : chooseNext (namingTaken o d) o = chooseNext d o := by
  simp only [chooseNext, eligibleZones, namingTaken_ring, insertOldest_naming]
  rfl

/-- The ring's next zone is `i`, within the window. -/
def namedWithin (o i : Nat) (d : Device) : Device :=
  updRcl (fun r => { r with lastChoice := zoneNumber (ringZone (d.ring o) i).layer (ringZone (d.ring o) i).zone })
    (updRing o (fun r => { r with next := some i, excursion := false }) d)

theorem namedWithin_ring : (namedWithin o i d).ring o = { d.ring o with next := some i, excursion := false } := by
  change (updRing o (fun r => { r with next := some i, excursion := false }) d).ring o = _
  rw [updRing_ring_self]

theorem namedWithin_onlyIn : OnlyIn [.rcl] [] d (namedWithin o i d) := updRing_onlyIn.trans updRcl_onlyIn

/-- A zone within the window is named while no excursion of the ring's lasts: none begins and none ends. -/
theorem nameNext_within (hx : (d.ring o).excursion = false) (hc : chooseNext d o = some (i, false)) :
    nameNext o d = namedWithin o i d := by
  simp only [nameNext, hc, hx, Bool.false_and, Bool.false_eq_true, if_false]
  rfl

theorem nameAfterEntry_within (hx : (d.ring o).excursion = false) (hc : chooseNext d o = some (i, false)) :
    nameAfterEntry o d = (writeDirectory (namedWithin o i (namingTaken o d))).2 := by
  rw [nameAfterEntry, ← namingTaken, nameNext_within (by rw [namingTaken_ring]; exact hx) (chooseNext_namingTaken.trans hc)]

theorem nextZoneNaming_completes (s : State) (o i : Nat) (ho : 1 ≤ o) (ho' : o < 16) (hdue : (s.dev.ring o).naming = true)
    (hm : s.dev.gen.mode ≠ .primer) (hx : (s.dev.ring o).excursion = false) (hc : chooseNext s.dev o = some (i, false)) :
    Completes (.nextZoneNaming o) s fun d =>
      (d.ring o).next = some i ∧ (d.ring o).naming = false ∧
      d.rcl.lastChoice = zoneNumber (ringZone (s.dev.ring o) i).layer (ringZone (s.dev.ring o) i).zone ∧
      (∃ c, d.wrc.clusters = s.dev.wrc.clusters ++ [c] ∧ c.kind = .directory) ∧ OnlyIn [.wrc, .rcl] [] s.dev d := by
  refine completes_to (e := nameAfterEntry o s.dev) exec_nextZoneNaming
    (by rw [hdue, decide_eq_true ho, decide_eq_true ho', bne_iff_ne.2 hm]; rfl) ?_
  rw [nameAfterEntry_within hx hc]
  obtain ⟨c, hclusters, hkind, -⟩ := writeDirectory_clusters (d := namedWithin o i (namingTaken o s.dev))
  refine ⟨?_, ?_, ?_, ⟨c, hclusters, hkind⟩,
    OnlyIn.refl.andThen updRing_onlyIn |>.andThen namedWithin_onlyIn |>.andThen writeDirectory_onlyIn⟩
  · rw [writeDirectory_ring ho, namedWithin_ring]
  · rw [writeDirectory_ring ho, namedWithin_ring, namingTaken_ring]
  · rw [writeDirectory_lastChoice, namedWithin, namingTaken_ring]
    rfl

/-! ### An assembled cluster takes its place (R175, R182) -/

theorem exec_assemblyDelayExpiry :
    exec (.assemblyDelayExpiry o) s = effect s fun d => onlyIf (delayExpired d o) (closeAssembly o) d := rfl

theorem placeData_onlyIn {z : Zone} {c : WriteCluster} : OnlyIn [.wrc, .rcl] [] d (placeData o z c d) :=
  OnlyIn.refl.andThen updRing_onlyIn |>.andThen updRcl_onlyIn |>.andThen queueCluster_onlyIn |>.andThen updRcl_onlyIn

theorem placeData_clusters {z : Zone} {c : WriteCluster} :
    (placeData o z c d).wrc.clusters =
      d.wrc.clusters ++ [{ c with loc := ⟨z.layer, z.zone, (d.ring o).pos⟩, pass := z.pass, ringCtr := (d.ring o).ctr }] := rfl

theorem placeData_ring {z : Zone} {c : WriteCluster} :
    (placeData o z c d).ring o =
      { d.ring o with pos := (d.ring o).pos + 1, ctr := (d.ring o).ctr + 1, sinceCkpt := (d.ring o).sinceCkpt + 1 } := by
  change (updRing o (fun r => { r with pos := r.pos + 1, ctr := r.ctr + 1, sinceCkpt := r.sinceCkpt + 1 }) d).ring o = _
  rw [updRing_ring_self]

/-- With a position to take and no checkpoint due, a cluster that nothing waits before is placed. -/
theorem placeCluster_placed {c : WriteCluster} (hcur : (d.ring o).cur = some i) (hw : (d.ring o).waiting = [])
    (hpos : (d.ring o).pos < dataPositions) (hck : checkpointDue (d.ring o) = false) :
    placeCluster o c d = placeData o (ringZone (d.ring o) i) c d := by
  simp [placeCluster, hcur, hw, hck, Nat.not_le.2 hpos]

/-- The cluster that ring `o` assembles, as it closes (R182). -/
def closedCluster (o : Nat) (a : Assembly) : WriteCluster :=
  { mkCluster a.id o o .ownerData ⟨0, 0, 0⟩ 0 0 (clusterBytes a) with
    groups := a.groups, begins := clusterBegins a, ends := a.ends.map fun e => (e.1 + mapLength a.entries.length, some e.2, 0) }

/-- What closing does before the cluster is placed: the ring assembles none, and the pieces in it lie behind its map. -/
def assemblyTaken (o : Nat) (a : Assembly) (d : Device) : Device :=
  updRcl (fun r => { r with groups := r.groups.map fun g => { g with
      pieces := g.pieces.map fun p => if p.cluster = a.id then { p with off := p.off + mapLength a.entries.length } else p } })
    (updRing o (fun r => { r with assembly := none }) d)

theorem closeAssembly_of_some {a : Assembly} (ha : (d.ring o).assembly = some a) :
    closeAssembly o d = placeCluster o (closedCluster o a) (assemblyTaken o a d) := by
  rw [closeAssembly, ha]
  rfl

theorem assemblyTaken_onlyIn {a : Assembly} : OnlyIn [.rcl] [] d (assemblyTaken o a d) := updRing_onlyIn.trans updRcl_onlyIn

theorem assemblyTaken_ring {a : Assembly} : (assemblyTaken o a d).ring o = { d.ring o with assembly := none } := by
  change (updRing o (fun r => { r with assembly := none }) d).ring o = _
  rw [updRing_ring_self]

/-- The ring's place and counter at the close go to the closed cluster. -/
theorem closeAssembly_placed {a : Assembly} (ha : (d.ring o).assembly = some a) (hcur : (d.ring o).cur = some i)
    (hw : (d.ring o).waiting = []) (hpos : (d.ring o).pos < dataPositions) (hck : checkpointDue (d.ring o) = false) :
    closeAssembly o d = placeData o (ringZone (d.ring o) i) (closedCluster o a) (assemblyTaken o a d) := by
  have hring := assemblyTaken_ring (d := d) (o := o) (a := a)
  rw [closeAssembly_of_some ha, placeCluster_placed (i := i)] <;> rw [hring]
  · rfl
  all_goals assumption

theorem assemblyDelayExpiry_completes (s : State) (o i : Nat) (a : Assembly) (ha : (s.dev.ring o).assembly = some a)
    (hdue : delayExpired s.dev o = true) (hcur : (s.dev.ring o).cur = some i) (hw : (s.dev.ring o).waiting = [])
    (hpos : (s.dev.ring o).pos < dataPositions) (hck : checkpointDue (s.dev.ring o) = false) :
    Completes (.assemblyDelayExpiry o) s fun d =>
      (d.ring o).assembly = none ∧ (d.ring o).pos = (s.dev.ring o).pos + 1 ∧ (d.ring o).ctr = (s.dev.ring o).ctr + 1 ∧
      (∃ c, d.wrc.clusters = s.dev.wrc.clusters ++ [c] ∧ c.id = a.id ∧ c.kind = .ownerData ∧ c.data = clusterBytes a ∧
        c.pass = (ringZone (s.dev.ring o) i).pass ∧ c.ringCtr = (s.dev.ring o).ctr ∧
        c.loc = ⟨(ringZone (s.dev.ring o) i).layer, (ringZone (s.dev.ring o) i).zone, (s.dev.ring o).pos⟩) ∧
      OnlyIn [.wrc, .rcl] [] s.dev d := by
  have hplaced := closeAssembly_placed ha hcur hw hpos hck
  have hring := assemblyTaken_ring (d := s.dev) (o := o) (a := a)
  have hframe : OnlyIn [.wrc, .rcl] [] s.dev (placeData o (ringZone (s.dev.ring o) i) (closedCluster o a) (assemblyTaken o a s.dev)) :=
    OnlyIn.refl.andThen assemblyTaken_onlyIn |>.andThen placeData_onlyIn
  refine completes_to (e := closeAssembly o s.dev) exec_assemblyDelayExpiry (by rw [hdue, onlyIf_true]) ?_
  rw [hplaced]
  refine ⟨?_, ?_, ?_, ⟨_, placeData_clusters, rfl, rfl, rfl, rfl, ?_, ?_⟩, hframe⟩
  all_goals simp only [placeData_ring, hring]

end

/-- Settles O18, clause by clause: an entry writes its directory checkpoint, a naming its choice and a checkpoint, and a cluster that closes
takes the ring's next position. -/
theorem ringsAdvanceThroughTheirZones : Obligations.RingsAdvanceThroughTheirZones :=
  ⟨zoneEntry_completes, nextZoneNaming_completes, assemblyDelayExpiry_completes⟩

end Sys2Proof.Machine
end


section
/-!
PROOFS. End-of-log recovery from ring to ring with its seal checkpoints, the check of the boot digest, and the admission of an APPEND.
-/

namespace Sys2Proof.Machine

section
variable {s : State} {d : Device} {o i : Nat}

/-! ### Phase A of a ring's recovery (R193) -/

theorem exec_recoveryPhaseA {x : RecoveryScan} :
    exec (.recoveryPhaseA o x) s = effect s fun d =>
      onlyIf (recoveryMay d && !digestDue d && nextRecovery d .waiting = some o) (phaseA o x) d := rfl

theorem phaseA_recovery {x : RecoveryScan} : ((phaseA o x d).ring o).recovery = .phaseADone := by
  simp only [phaseA, updRing_ring_self]

theorem recoveryPhaseA_completes (s : State) (o : Nat) (x : RecoveryScan) (hm : recoveryMay s.dev = true) (hd : digestDue s.dev = false)
    (hn : nextRecovery s.dev .waiting = some o) :
    Completes (.recoveryPhaseA o x) s fun d => (d.ring o).recovery = .phaseADone :=
  completes_to exec_recoveryPhaseA (by rw [hm, hd, decide_eq_true hn]; rfl) phaseA_recovery

theorem recoveryPhaseA_untimely (s : State) (o : Nat) (x : RecoveryScan) (hn : nextRecovery s.dev .waiting ≠ some o) :
    Completes (.recoveryPhaseA o x) s fun d => d = s.dev :=
  completes_to exec_recoveryPhaseA (by rw [decide_eq_false hn, Bool.and_false, onlyIf_false]) rfl

/-! ### The seal checkpoint of phase B (R191) -/

theorem le_depthFrom {n b k : Nat} : k ≤ depthFrom b n k := by
  induction n generalizing k with
  | zero => exact Nat.le_refl k
  | succ n ih =>
    rw [depthFrom]
    split
    · exact Nat.le_refl k
    · exact Nat.le_of_succ_le ih

/-- An interleave group holds at least one position (R168). -/
theorem interleaveDepth_pos {layer zone first : Nat} : 0 < interleaveDepth layer zone first :=
  Nat.lt_of_lt_of_le (Nat.le_max_left ..) le_depthFrom

theorem groupFrom_depth_pos {layer zone pos n g first : Nat} : 0 < (groupFrom layer zone pos n g first).2.2 := by
  induction n generalizing g first with
  | zero => exact interleaveDepth_pos
  | succ n ih =>
    simp only [groupFrom]
    split
    · exact interleaveDepth_pos
    · exact ih

theorem groupOf_depth_pos {l : Loc} : 0 < (groupOf l).2.2 := groupFrom_depth_pos

/-- A ring that stands at the beginning of a group is sealed there. The kernel would compute `groupOf` for a `match` on its value, so a
variable stands for it. -/
theorem sealGroups_of_begins {r : Ring} {z : Zone} {k n : Nat} (hg : groupOf ⟨z.layer, z.zone, r.pos⟩ = (k, r.pos, n)) :
    ∃ before, sealGroups r z = (before, r.pos) := by
  suffices h : ∀ f g, f = sealGroups → g = groupOf → g ⟨z.layer, z.zone, r.pos⟩ = (k, r.pos, n) →
      ∃ before, f r z = (before, r.pos) from h _ _ rfl rfl hg
  intro f g hf hgroup hg
  delta sealGroups at hf
  rw [← hgroup] at hf
  subst hf
  beta_reduce
  rw [hg]
  dsimp only
  rw [if_pos rfl, if_pos rfl]
  split
  · exact ⟨_, rfl⟩
  · exact ⟨_, rfl⟩

theorem sealFits_of_le {z : Zone} {p m : Nat} (hm : 0 < m) (h : p + m ≤ dataPositions) : sealFits d z p m = true := by
  have hp : p < dataPositions := by omega
  rw [sealFits, decide_eq_true hp, decide_eq_true h, Bool.true_or, Bool.and_self]

theorem useSparesTo_onlyIn {layer zone e : Nat} : OnlyIn [.rcl] [] d (useSparesTo layer zone e d) := updRcl_onlyIn

/-- The cluster `c` is a seal checkpoint of ring `o` at a pass: the stream table as it stands in `d`. -/
def SealsRing (o pass : Nat) (d : Device) (c : WriteCluster) : Prop :=
  c.kind = .sealCheckpoint ∧ c.data = tableBytes d ∧ c.ring = o ∧ c.pass = pass

/-- Where a group begins and fits in front of the spares, the seal checkpoint is queued. -/
theorem queueSeal_queued {z : Zone} {k n : Nat} (hcur : (d.ring o).cur = some i) (hz : ringZone (d.ring o) i = z)
    (hg : groupOf ⟨z.layer, z.zone, (d.ring o).pos⟩ = (k, (d.ring o).pos, n)) (hn : 0 < n) (hfits : (d.ring o).pos + n ≤ dataPositions) :
    (∃ c, (queueSeal o d).wrc.clusters = d.wrc.clusters ++ [c] ∧ SealsRing o z.pass d c) ∧ OnlyIn [.wrc, .rcl] [] d (queueSeal o d) := by
  obtain ⟨before, hs⟩ := sealGroups_of_begins hg
  suffices h : ∀ f sg g, f = queueSeal → sg = sealGroups → g = groupOf → sg (d.ring o) z = (before, (d.ring o).pos) →
      g ⟨z.layer, z.zone, (d.ring o).pos⟩ = (k, (d.ring o).pos, n) →
      (∃ c, (f o d).wrc.clusters = d.wrc.clusters ++ [c] ∧ SealsRing o z.pass d c) ∧ OnlyIn [.wrc, .rcl] [] d (f o d)
    from h _ _ _ rfl rfl rfl hs hg
  intro f sg g hf hseal hgroup hs hg
  delta queueSeal at hf
  rw [← hseal, ← hgroup] at hf
  subst hf
  simp only [hcur, hz, hs, hg, sealFits_of_le hn hfits, Bool.not_true, Bool.false_eq_true, if_false]
  refine ⟨⟨_, rfl, rfl, ?_, rfl, rfl⟩, ?_⟩
  · dsimp only [mkCluster]
  · exact OnlyIn.refl.andThen updRing_onlyIn |>.andThen useSparesTo_onlyIn |>.andThen takeId_onlyIn |>.andThen queueCluster_onlyIn

/-! ### Phase B of a ring's recovery (R192, R193, R452) -/

theorem exec_recoveryPhaseB :
    exec (.recoveryPhaseB o) s = effect s fun d =>
      onlyIf (recoveryMay d && d.pwr.st = .armed && nextRecovery d .phaseADone = some o && (nextRecovery d .phaseB).isNone) (phaseB o) d :=
  rfl

/-- The command runs phase B when the ring is the next one. -/
theorem recoveryPhaseB_completes {P : Device → Prop} (hm : recoveryMay s.dev = true) (ha : s.dev.pwr.st = .armed)
    (hn : nextRecovery s.dev .phaseADone = some o) (hb : nextRecovery s.dev .phaseB = none) (h : P (phaseB o s.dev)) :
    Completes (.recoveryPhaseB o) s P :=
  completes_to exec_recoveryPhaseB (by rw [hm, hb, decide_eq_true ha, decide_eq_true hn]; rfl) h

/-- Ring `o` is in phase B. -/
def inPhaseB (o : Nat) (d : Device) : Device :=
  updRing o (fun r => { r with recovery := .phaseB }) (updRcl (fun r => { r with recovering := some o }) d)

theorem inPhaseB_onlyIn : OnlyIn [.rcl] [] d (inPhaseB o d) := updRcl_onlyIn.trans updRing_onlyIn

theorem inPhaseB_recovery : ((inPhaseB o d).ring o).recovery = .phaseB := by rw [inPhaseB, updRing_ring_self]

/-- While fill or a seal checkpoint of the ring is to be written, its phase B goes on. -/
theorem phaseBEnd_waiting {c : WriteCluster} (hc : c ∈ d.wrc.clusters) (hr : c.ring = o) (hk : c.kind = .sealCheckpoint) :
    phaseBEnd o d = d := by
  have hany : d.wrc.clusters.any (fun c => c.ring = o && (c.kind = .fill || c.kind = .sealCheckpoint)) = true :=
    List.any_eq_true.2 ⟨c, hc, by simp [hr, hk]⟩
  rw [phaseBEnd, hany, Bool.not_true, Bool.and_false, if_neg Bool.false_ne_true]

theorem raise_rcl {k : Nat} : (raise k d).rcl = d.rcl := raise_onlyIn.1 .rcl (by decide)

/-- Ring `o` is recovered, and source 204 tells so. -/
def markRecovered (o : Nat) (d : Device) : Device :=
  raise 204 (updRcl (fun r => { r with recovering := none, recoveryTicks := min 0xFFFFFFFF (d.now - (d.ring o).recoveryStart) })
    (updRing o (fun r => { r with recovery := .recovered, found := none }) d))

theorem markRecovered_spec :
    ((markRecovered o d).ring o).recovery = .recovered ∧ Raised 204 (markRecovered o d) ∧ (markRecovered o d).rcl.recovering = none := by
  refine ⟨?_, raised_raise 204 _, ?_⟩
  · rw [markRecovered, Device.ring, raise_rcl]
    change ((updRing o (fun r => { r with recovery := .recovered, found := none }) d).ring o).recovery = _
    rw [updRing_ring_self]
  · rw [markRecovered, raise_rcl]
    rfl

/-- With nothing of the ring to be written, its phase B ends. -/
theorem phaseBEnd_over (hr : (d.ring o).recovery = .phaseB) (hw : d.wrc.clusters = []) :
    ((phaseBEnd o d).ring o).recovery = .recovered ∧ Raised 204 (phaseBEnd o d) ∧ (phaseBEnd o d).rcl.recovering = none := by
  obtain ⟨hring, hraised, hrecovering⟩ := markRecovered_spec (o := o) (d := d)
  have hover : ((d.ring o).recovery = .phaseB
      && !d.wrc.clusters.any fun c => c.ring = o && (c.kind = .fill || c.kind = .sealCheckpoint)) = true := by rw [hr, hw]; rfl
  have hend : phaseBEnd o d = markRecovered o d ∨ ∃ f, phaseBEnd o d = updGen f (markRecovered o d) := by
    rw [phaseBEnd, if_pos hover]
    dsimp only
    split
    · exact .inl rfl
    · exact .inr ⟨_, rfl⟩
  obtain hend | ⟨f, hend⟩ := hend <;> rw [hend]
  · exact ⟨hring, hraised, hrecovering⟩
  · exact ⟨hring, hraised.of_icu rfl, hrecovering⟩

theorem recoveryPhaseB_seals (s : State) (o i : Nat) (x : RingEnd) (hm : recoveryMay s.dev = true) (ha : s.dev.pwr.st = .armed)
    (hn : nextRecovery s.dev .phaseADone = some o) (hb : nextRecovery s.dev .phaseB = none) (hcur : (s.dev.ring o).cur = some i)
    (hx : (s.dev.ring o).found = some x) (hf : x.fills = []) (hs : x.sealFound = false) :
    Completes (.recoveryPhaseB o) s fun d =>
      (groupOf ⟨(ringZone (s.dev.ring o) i).layer, (ringZone (s.dev.ring o) i).zone, (s.dev.ring o).pos⟩).2.1 = (s.dev.ring o).pos →
      (s.dev.ring o).pos + (groupOf ⟨(ringZone (s.dev.ring o) i).layer, (ringZone (s.dev.ring o) i).zone, (s.dev.ring o).pos⟩).2.2
        ≤ dataPositions →
      (d.ring o).recovery = .phaseB ∧ d.rcl.recovering = some o ∧
      (∃ c, d.wrc.clusters = s.dev.wrc.clusters ++ [c] ∧ c.kind = .sealCheckpoint ∧ c.data = tableBytes s.dev ∧ c.ring = o ∧
        c.pass = (ringZone (s.dev.ring o) i).pass) ∧
      OnlyIn [.wrc, .rcl] [] s.dev d := by
  refine recoveryPhaseB_completes hm ha hn hb fun hbegins hfits => ?_
  have hdepth := groupOf_depth_pos (l := ⟨(ringZone (s.dev.ring o) i).layer, (ringZone (s.dev.ring o) i).zone, (s.dev.ring o).pos⟩)
  generalize hg : groupOf _ = g at hbegins hfits hdepth
  obtain ⟨k, first, n⟩ := g
  obtain rfl : first = (s.dev.ring o).pos := hbegins
  obtain ⟨⟨c, hclusters, hseals⟩, hframe⟩ := queueSeal_queued hcur rfl hg hdepth hfits
  obtain ⟨hkind, -, hring, -⟩ := id hseals
  have hsealed : phaseB o s.dev = inPhaseB o (queueSeal o s.dev) := by
    have hmem : c ∈ (inPhaseB o (queueSeal o s.dev)).wrc.clusters := by
      change c ∈ (queueSeal o s.dev).wrc.clusters
      rw [hclusters]
      exact List.mem_append_right _ (List.mem_singleton_self c)
    rw [← phaseBEnd_waiting hmem hring hkind]
    simp only [phaseB, hcur, hx, hf, hs, List.foldl_nil, Bool.false_eq_true, if_false]
    rfl
  rw [hsealed]
  exact ⟨inPhaseB_recovery, rfl, ⟨c, hclusters, hseals⟩, hframe.andThen inPhaseB_onlyIn⟩

/-- Without a zone that the ring has entered there is nothing to fill or to seal. -/
theorem phaseB_of_unentered (hcur : (d.ring o).cur = none) : phaseB o d = phaseBEnd o (inPhaseB o d) := by
  simp only [phaseB, hcur]
  rfl

theorem recoveryPhaseB_recovers (s : State) (o : Nat) (hm : recoveryMay s.dev = true) (ha : s.dev.pwr.st = .armed)
    (hn : nextRecovery s.dev .phaseADone = some o) (hb : nextRecovery s.dev .phaseB = none) (hcur : (s.dev.ring o).cur = none)
    (hw : s.dev.wrc.clusters = []) :
    Completes (.recoveryPhaseB o) s fun d => (d.ring o).recovery = .recovered ∧ Raised 204 d ∧ d.rcl.recovering = none :=
  recoveryPhaseB_completes hm ha hn hb (by rw [phaseB_of_unentered hcur]; exact phaseBEnd_over inPhaseB_recovery hw)

/-! ### The boot digest (R190) -/

theorem exec_bootDigestCheck {digest : BitVec 256} :
    exec (.bootDigestCheck digest) s = effect s fun d => onlyIf (digestDue d && d.gen.mode != .dustSheet) (checkDigest digest) d := rfl

theorem advancePhase_onlyIn : OnlyIn [.gen] [] d (advancePhase d) := by
  unfold advancePhase
  split
  · exact .refl
  · exact updGen_onlyIn

/-- The result of the check is kept (R190). -/
def digestNoted (digest : BitVec 256) (d : Device) : Device :=
  updRcl (fun r => { r with digestOk := some (decide ((bootSlot d (activationNow d).active).digest = digest)) }) d

/-- The rest of the check is the start-up's account of it. -/
theorem checkDigest_eq {digest : BitVec 256} : ∃ f, checkDigest digest d = advancePhase (updGen f (digestNoted digest d)) := by
  unfold checkDigest
  dsimp only
  split
  · exact ⟨_, rfl⟩
  · exact ⟨id, rfl⟩

theorem checkDigest_spec {digest : BitVec 256} :
    (checkDigest digest d).rcl = { d.rcl with digestOk := some (decide ((bootSlot d (activationNow d).active).digest = digest)) } ∧
      OnlyIn [.rcl, .gen] [] d (checkDigest digest d) := by
  obtain ⟨f, hf⟩ := checkDigest_eq (d := d) (digest := digest)
  have hframe : OnlyIn [.gen] [] (digestNoted digest d) (advancePhase (updGen f (digestNoted digest d))) :=
    updGen_onlyIn.trans advancePhase_onlyIn
  have hnoted : OnlyIn [.rcl] [] d (digestNoted digest d) := updRcl_onlyIn
  rw [hf]
  exact ⟨hframe.1 .rcl (by decide), OnlyIn.refl.andThen hnoted |>.andThen hframe⟩

theorem bootDigestCheck_completes (s : State) (digest : BitVec 256) (hd : digestDue s.dev = true) (hm : s.dev.gen.mode ≠ .dustSheet) :
    Completes (.bootDigestCheck digest) s fun d =>
      d.rcl = { s.dev.rcl with digestOk := some (decide ((bootSlot s.dev (activationNow s.dev).active).digest = digest)) } ∧
      OnlyIn [.rcl, .gen] [] s.dev d :=
  completes_to exec_bootDigestCheck (by rw [hd, bne_iff_ne.2 hm]; rfl) checkDigest_spec

/-! ### The admission of an APPEND (R326) -/

theorem exec_appendAdmission {tag : Nat} {c : Cmd} (hc : s.dev.cmd tag = some c) :
    exec (.appendAdmission tag) s =
      .next { s with dev := onlyIf (c.phase = .admission && admissionOpen s.dev c) (setPhase tag .dispatched) s.dev } := by
  change execAppendAdmission tag s = _
  simp only [execAppendAdmission, effect_next, hc]

theorem setPhase_cmd {tag : Nat} {p : CmdPhase} : (setPhase tag p d).cmd tag = (d.cmd tag).map fun c => { c with phase := p } :=
  updCmd_cmd tag _ d fun _ => rfl

theorem setPhase_onlyIn {tag : Nat} {p : CmdPhase} : OnlyIn [.hif] [] d (setPhase tag p d) := updCmd_onlyIn

theorem appendAdmission_completes (s : State) (tag : Nat) (c : Cmd) (hc : s.dev.cmd tag = some c) (hp : c.phase = .admission)
    (ho : admissionOpen s.dev c = true) :
    Completes (.appendAdmission tag) s fun d =>
      (d.cmd tag).map (fun x => x.phase) = some .dispatched ∧ OnlyIn [.hif] [] s.dev d := by
  refine ⟨_, exec_appendAdmission hc, rfl, ?_⟩
  rw [decide_eq_true hp, ho, Bool.and_self, onlyIf_true]
  exact ⟨by rw [setPhase_cmd, hc]; rfl, setPhase_onlyIn⟩

theorem appendAdmission_closed (s : State) (tag : Nat) (c : Cmd) (hc : s.dev.cmd tag = some c) (ho : admissionOpen s.dev c = false) :
    Completes (.appendAdmission tag) s fun d => d = s.dev :=
  ⟨_, exec_appendAdmission hc, rfl, by rw [ho, Bool.and_false, onlyIf_false]⟩

end

/-- Settles O19, clause by clause: each phase of a ring's recovery in its turn, the digest check, and the admission of an APPEND. -/
theorem recoveryRunsRingByRing : Obligations.RecoveryRunsRingByRing :=
  ⟨recoveryPhaseA_completes, recoveryPhaseA_untimely, recoveryPhaseB_seals, recoveryPhaseB_recovers, bootDigestCheck_completes,
    appendAdmission_completes, appendAdmission_closed⟩

end Sys2Proof.Machine
end


section
/-!
PROOFS. A group that crosses to the peer while a status is owed to its command.

`payOwed` completes the command of every group to which a status is owed, and takes the status off the group, whatever the group's state. The
fifth clause of O28 leaves the group of an APP_VERIFIED as it was but for the peer's copy.
-/

namespace Sys2Proof.Machine

/-- A leader's group that has crossed and is still open, while a status is owed to its command. -/
def owedGroup : Machine.Group :=
  { id := 0, stream := 0, owner := 1, first := 0, count := 0, recs := [], bytes := [], pieces := [], left := [], role := .leader 0
    st := .open, peerDone := false, peerOvr := false, chain := 0, sent := true, owed := some stMediumFull }

/-- `owedGroup` is open toward the peer under exchange number 0. -/
def crossingOwed : State :=
  { pending := [], dev := { lath := { live := true, openXids := [(0, 0)] }, rcl := { groups := [owedGroup] } } }

theorem exec_appVerified {s : State} {cr : Credits} {xid mark : Nat} {ovr : Bool} :
    exec (.appVerified cr xid mark ovr) s = effect s (receive cr (.appVerified xid mark ovr) (takeVerified xid mark ovr)) := rfl

/-- The peer's confirmation has the owed status paid, and none is owed any more (R332). -/
theorem appVerified_pays :
    (receive ⟨0, 0⟩ (.appVerified 0 (groupMark owedGroup) false) (takeVerified 0 (groupMark owedGroup) false) crossingOwed.dev).rcl.groups.map
      (·.owed) = [none] := by
  decide +kernel

/-- Refutes O28: APP_VERIFIED for a group still open is to change the group's account of the peer's copy alone, but in `crossingOwed` a status
is owed to the group's command, and settling the groups pays it. -/
theorem not_mirroredGroupsCross : ¬ Obligations.MirroredGroupsCross := by
  rintro ⟨-, -, -, -, hverified, -⟩
  obtain ⟨t, ht, -, hgroups, -⟩ := hverified crossingOwed ⟨0, 0⟩ 0 0 false owedGroup rfl rfl rfl rfl (by decide) rfl rfl
  rw [exec_appVerified, effect_next] at ht
  obtain rfl := Host.Outcome.next.inj ht
  have howed := congrArg (List.map (·.owed)) hgroups
  dsimp only at howed
  rw [appVerified_pays] at howed
  cases howed

end Sys2Proof.Machine
end

section
/-!
PROOFS. The creation of an owner while the retire of its slot ends.
-/

namespace Sys2Proof.Machine

/-- OWNER_CREATE of slot 15 with a quota of two zones, as the host interface has dispatched it. -/
def createOwner15 : Cmd :=
  { tag := 0, sq := 0, index := 0, entry := 0x20 :: List.replicate 23 0 ++ [15, 0, 2] ++ List.replicate 37 0, phase := .dispatched
    started := false, ovr := false, owner := 0, sgl := [], group := none, payload := [], poisoned := false, records := 0, discard := false }

/-- A retire of slot 15 that the peer has confirmed (R216, R217). -/
def retired15 : OwnerOp :=
  { step := .retirePeer 15, tag := none, single := false, failed := false, cluster := 0, purging := false, peerOk := true }

/-- The range engine is busy, and the end of `retired15` has not been taken when slot 15 is to be created. -/
def createWhileRetiring : State :=
  { pending := []
    dev := {
      gen := { mode := .undercoat, chosen := true }
      pwr := { st := .armed }
      lsk := { pair := .running }
      wrc := { ilk := true, ilkBlocked := false }
      hif := { cmds := [createOwner15] }
      cch := { range := some (.clean, []) }
      rcl := { freeZones := [{ layer := 1, zone := 0, pass := 0, entered := 0, openHeads := [] },
                             { layer := 1, zone := 1, pass := 0, entered := 0, openHeads := [] }] }
      cry := { ops := [retired15] } } }

theorem createWhileRetiring_dispatched : Dispatched createWhileRetiring.dev 0 createOwner15 := ⟨rfl, rfl, rfl, by decide⟩

theorem createWhileRetiring_cleared : Cleared createOwner15 createWhileRetiring.dev createWhileRetiring.dev :=
  ⟨⟨by decide, by decide, rfl⟩, by decide, by decide⟩

theorem exec_ownerCreate {s : State} {tag : Nat} : exec (.ownerCreate tag) s = effect s (runOp tag 0x20 runCreate) := rfl

/-- The start of the creation has the retire end too, and with it the slot is no longer busy. -/
theorem ownerCreate_frees : ((runOp 0 0x20 runCreate createWhileRetiring.dev).slot 15).busy = false := by decide +kernel

/-- Refutes O35: OWNER_CREATE with the range engine busy is to leave its slot busy, but in `createWhileRetiring` the retire of that slot ends
with the creation's first step, and frees it. -/
theorem not_bootAndOwnerCommandsTakeEffect : ¬ Obligations.BootAndOwnerCommandsTakeEffect := by
  rintro ⟨-, -, -, -, -, -, hcreate, -⟩
  obtain ⟨t, ht, -, hbusy, -⟩ := hcreate createWhileRetiring 0 createOwner15 createWhileRetiring_dispatched rfl createWhileRetiring_cleared
    (by decide) (by decide)
  rw [exec_ownerCreate, effect_next] at ht
  obtain rfl := Host.Outcome.next.inj ht
  exact Bool.noConfusion (ownerCreate_frees.symm.trans hbusy)

end Sys2Proof.Machine
end

section
/-!
PROOFS. Commissioning a pair: what a message does beside its own meaning, the code that two points give, the peer's confirmation, and the ways
in which commissioning is abandoned.
-/

namespace Sys2Proof.Machine

section
variable {s : State} {d : Device} {cr : Credits} {m : LathMsg} {c : Commission}

/-! ### A message is queued (R260) -/

theorem updLath_onlyIn {f : Lath → Lath} : OnlyIn [.lath] [] d (updLath f d) := by
  refine ⟨fun p hp => ?_, fun _ _ => rfl⟩
  cases p with
  | lath => simp at hp
  | _ => rfl

theorem raiseArb_onlyIn : OnlyIn [.lath] [] d (raiseArb d) := by
  unfold raiseArb
  split
  · exact .refl
  · exact updLath_onlyIn

@[simp] theorem raiseArb_queue : (raiseArb d).lath.queue = d.lath.queue := by
  unfold raiseArb
  split <;> rfl

@[simp] theorem raiseArb_live : (raiseArb d).lath.live = d.lath.live := by
  unfold raiseArb
  split <;> rfl

@[simp] theorem raiseArb_commissionFailed : (raiseArb d).lath.commissionFailed = d.lath.commissionFailed := by
  unfold raiseArb
  split <;> rfl

theorem sendMsg_live (h : d.lath.live = true) : sendMsg m d = raiseArb (updLath (fun l => { l with queue := l.queue ++ [m] }) d) := if_pos h

theorem sendMsg_onlyIn : OnlyIn [.lath] [] d (sendMsg m d) := by
  unfold sendMsg
  split
  · exact updLath_onlyIn.trans raiseArb_onlyIn
  · exact .refl

@[simp] theorem sendMsg_cry : (sendMsg m d).cry = d.cry := sendMsg_onlyIn.1 .cry (by decide)

theorem sendMsg_queue (h : d.lath.live = true) : (sendMsg m d).lath.queue = d.lath.queue ++ [m] := by
  rw [sendMsg_live h, raiseArb_queue, updLath_lath]

theorem queue_subset_sendMsg : d.lath.queue ⊆ (sendMsg m d).lath.queue := by
  cases h : d.lath.live with
  | true => simp [sendMsg_queue h]
  | false => simp [sendMsg, h]

@[simp] theorem sendMsg_commissionFailed : (sendMsg m d).lath.commissionFailed = d.lath.commissionFailed := by
  cases h : d.lath.live with
  | true => rw [sendMsg_live h, raiseArb_commissionFailed, updLath_lath]
  | false => simp [sendMsg, h]

/-! ### A message arrives (R264) -/

/-- The slot of a message has been counted as freed, before a CREDIT message may report it. -/
def slotFreed (isData : Bool) (d : Device) : Device :=
  updLath (fun l => if isData then { l with freedD := l.freedD + 1 } else { l with freedC := l.freedC + 1 }) d

theorem freeSlot_eq {b : Bool} : freeSlot b d =
    if (slotFreed b d).lath.queue.isEmpty && (1 ≤ (slotFreed b d).lath.freedD || 8 ≤ (slotFreed b d).lath.freedC) then
      sendMsg .credit (slotFreed b d) else slotFreed b d := rfl

theorem freeSlot_cases (b : Bool) (d : Device) : freeSlot b d = slotFreed b d ∨ freeSlot b d = sendMsg .credit (slotFreed b d) := by
  rw [freeSlot_eq]
  split
  · exact .inr rfl
  · exact .inl rfl

theorem freeSlot_onlyIn {b : Bool} : OnlyIn [.lath] [] d (freeSlot b d) := by
  rcases freeSlot_cases b d with h | h
  · exact h ▸ updLath_onlyIn
  · exact h ▸ updLath_onlyIn.trans sendMsg_onlyIn

@[simp] theorem freeSlot_cry {b : Bool} : (freeSlot b d).cry = d.cry := freeSlot_onlyIn.1 .cry (by decide)

theorem queue_subset_freeSlot {b : Bool} : d.lath.queue ⊆ (freeSlot b d).lath.queue := by
  have hq : (slotFreed b d).lath.queue = d.lath.queue := by cases b <;> rfl
  rcases freeSlot_cases b d with h | h
  · rw [h, hq]
    exact List.Subset.refl _
  · rw [h, ← hq]
    exact queue_subset_sendMsg

@[simp] theorem freeSlot_commissionFailed {b : Bool} : (freeSlot b d).lath.commissionFailed = d.lath.commissionFailed := by
  have hf : (slotFreed b d).lath.commissionFailed = d.lath.commissionFailed := by cases b <;> rfl
  rcases freeSlot_cases b d with h | h
  · rw [h, hf]
  · rw [h, sendMsg_commissionFailed, hf]

/-- A message with its credits has been counted and taken from the wires, before its meaning follows. -/
def credited (cr : Credits) (m : LathMsg) (d : Device) : Device :=
  updLath (fun l => { l with
    dir := .receiving, creditC := min 32 (l.creditC + cr.control), creditD := min 8 (l.creditD + cr.data) }) (crossWires m cr (count 0xE028 d))

/-- `credited`, with the direction requested where messages wait. -/
def arrived (cr : Credits) (m : LathMsg) (d : Device) : Device :=
  if (credited cr m d).lath.queue.isEmpty then credited cr m d else raiseArb (credited cr m d)

theorem receive_live {f : Device → Device} (h : d.lath.live = true) :
    receive cr m f d = freeSlot (isDataMsg m) (f (arrived cr m d)) := if_pos h

theorem crossWires_onlyIn : OnlyIn [.lath, .draws] [] d (crossWires m cr d) := by
  unfold crossWires
  dsimp only
  split
  · exact OnlyIn.refl.andThen setDraws_onlyIn |>.andThen updLath_onlyIn
  · exact OnlyIn.refl.andThen updLath_onlyIn

/-- Only a payload of an odd number of bytes is padded. -/
theorem crossWires_onlyIn_of_even (h : (msgPayload m).length % 2 = 0) : OnlyIn [.lath] [] d (crossWires m cr d) := by
  unfold crossWires
  rw [if_neg (by omega)]
  exact updLath_onlyIn

theorem arrived_onlyIn_credited : OnlyIn [.lath] [] (credited cr m d) (arrived cr m d) := by
  unfold arrived
  split
  · exact .refl
  · exact raiseArb_onlyIn

theorem arrived_onlyIn : OnlyIn [.lath, .draws] [0xE028] d (arrived cr m d) :=
  OnlyIn.refl.andThen count_onlyIn |>.andThen crossWires_onlyIn |>.andThen updLath_onlyIn |>.andThen arrived_onlyIn_credited

theorem arrived_onlyIn_of_even (h : (msgPayload m).length % 2 = 0) : OnlyIn [.lath] [0xE028] d (arrived cr m d) :=
  OnlyIn.refl.andThen count_onlyIn |>.andThen (crossWires_onlyIn_of_even h) |>.andThen updLath_onlyIn |>.andThen arrived_onlyIn_credited

@[simp] theorem arrived_cry : (arrived cr m d).cry = d.cry := arrived_onlyIn.1 .cry (by decide)

@[simp] theorem arrived_gen : (arrived cr m d).gen = d.gen := arrived_onlyIn.1 .gen (by decide)

@[simp] theorem crossWires_live : (crossWires m cr d).lath.live = d.lath.live := by
  unfold crossWires
  dsimp only
  split <;> rfl

@[simp] theorem arrived_live : (arrived cr m d).lath.live = d.lath.live := by
  have hc : (credited cr m d).lath.live = d.lath.live := by
    rw [credited, updLath_lath, crossWires_live]
    rfl
  unfold arrived
  split
  · exact hc
  · rw [raiseArb_live, hc]

/-- A command that receives a message on a live Lath completes with the message's meaning and its slot freed. -/
theorem completes_receive {i : Instr} {f : Device → Device} {P : Device → Prop} (h : exec i s = effect s (receive cr m f))
    (hl : s.dev.lath.live = true) (p : P (freeSlot (isDataMsg m) (f (arrived cr m s.dev)))) : Completes i s P :=
  completes_to h (receive_live hl) p

theorem onlyIf_dustSheet {f : Device → Device} (h : d.gen.mode = .dustSheet) : onlyIf (d.gen.mode = .dustSheet) f d = f d := by
  rw [decide_eq_true h, onlyIf_true]

/-! ### Commissioning abandoned (R289) -/

/-- No commissioning is in progress, no check code is shown, and the failure is told and detected. -/
structure CommissionAbandoned (d : Device) : Prop where
  commission : d.cry.commission = none
  checkCode : d.cry.checkCode = none
  failed : d.lath.commissionFailed = true
  raised : Raised 140 d

/-- The keys and the code of a commissioning are discarded, and its failure told. -/
def discarded (d : Device) : Device :=
  updLath (fun l => { l with commissionFailed := true })
    (updCry (fun x => { x with commission := none, checkCode := none, heldPoint := none }) d)

theorem discarded_onlyIn : OnlyIn [.lath, .cry] [] d (discarded d) :=
  OnlyIn.refl.andThen updCry_onlyIn |>.andThen updLath_onlyIn

/-- Commissioning that no local command awaits is abandoned with a detection alone. -/
theorem abandonCommission_unawaited (h : d.cry.commission = some c) (htag : c.tag = none) (hloc : c.localConfirmed = none) :
    abandonCommission d = raise 140 (discarded d) := by
  simp [abandonCommission, discarded, h, htag, hloc]

theorem raise_lath {k : Nat} : (raise k d).lath = d.lath := raise_onlyIn.1 .lath (by decide)

theorem raise_discarded_abandoned : CommissionAbandoned (raise 140 (discarded d)) where
  commission := by rw [raise_cry]; rfl
  checkCode := by rw [raise_cry]; rfl
  failed := by rw [raise_lath]; rfl
  raised := raised_raise 140 _

theorem raise_discarded_onlyIn : OnlyIn ([.lath, .cry] ++ interruptParts) [0x4540] d (raise 140 (discarded d)) :=
  OnlyIn.refl.andThen discarded_onlyIn |>.andThen raise_onlyIn

theorem raise_discarded_queue : (raise 140 (discarded d)).lath.queue = d.lath.queue := by
  rw [raise_lath]
  rfl

protected theorem CommissionAbandoned.freeSlot {b : Bool} (h : CommissionAbandoned d) : CommissionAbandoned (freeSlot b d) where
  commission := by rw [freeSlot_cry, h.commission]
  checkCode := by rw [freeSlot_cry, h.checkCode]
  failed := by rw [freeSlot_commissionFailed, h.failed]
  raised := h.raised.andThen freeSlot_onlyIn

/-! ### The points (R220) -/

theorem pairPoint_isHeld (s : State) (cr : Credits) (p : List Byte) (hl : s.dev.lath.live = true) (hmode : s.dev.gen.mode = .dustSheet)
    (hc : s.dev.cry.commission = none) :
    Completes (.pairPoint cr p) s fun d =>
      d.cry = { s.dev.cry with heldPoint := some p } ∧ OnlyIn [.lath, .cry, .draws] [0xE028] s.dev d := by
  refine completes_receive rfl hl ?_
  rw [onlyIf_dustSheet (by rw [arrived_gen, hmode]), arrived_cry, hc]
  refine ⟨?_, OnlyIn.refl.andThen arrived_onlyIn |>.andThen updCry_onlyIn |>.andThen freeSlot_onlyIn⟩
  rw [freeSlot_cry, updCry_cry, arrived_cry]

/-- The bytes that a commissioning derives from its own key and the peer's point: the pair key, then the check code's word. -/
def derivedBytes (c : Commission) (p : List Byte) (d : Device) : List Byte :=
  let mine := Config.p256Public c.scalar
  Config.hkdf (Config.p256Shared c.scalar p) (if twinId d = 0 then mine ++ p else p ++ mine) pairInfo 36

/-- A commissioning whose key and code are agreed, and whose local command has been answered. -/
def agreed (c : Commission) (p : List Byte) (d : Device) : Commission :=
  { c with peerPoint := some p, pairKey := some (BitVec.ofNat 256 (beNat ((derivedBytes c p d).take 32)))
           code := leNat (slice 32 4 (derivedBytes c p d)) % 1000000, readyAt := d.now, tag := none }

theorem agreed_code_lt {p : List Byte} : (agreed c p d).code < 1000000 := Nat.mod_lt _ (by decide)

/-- A valid point gives a pair key and a check code, which is shown and detected; no local command waits for it. -/
theorem agreeKey_valid {p : List Byte} (hp : Config.p256Valid p = true) (htag : c.tag = none) :
    agreeKey c p d = raise 139 (updCry (fun x =>
      { x with commission := some (agreed c p d), checkCode := some (agreed c p d).code, heldPoint := none }) d) := by
  simp [agreeKey, agreed, derivedBytes, hp, htag]

theorem pairPoint_agrees (s : State) (cr : Credits) (p : List Byte) (c : Commission) (hl : s.dev.lath.live = true)
    (hmode : s.dev.gen.mode = .dustSheet) (hc : s.dev.cry.commission = some c) (hpoint : c.peerPoint = none) (htag : c.tag = none) :
    Completes (.pairPoint cr p) s fun d =>
      Config.p256Valid p = true →
      (d.cry.commission.bind (·.peerPoint)) = some p ∧ (d.cry.commission.map (·.code)) = d.cry.checkCode ∧
      (d.cry.checkCode.map fun n => decide (n < 1000000)) = some true ∧ Raised 139 d := by
  refine completes_receive rfl hl fun hvalid => ?_
  rw [onlyIf_dustSheet (by rw [arrived_gen, hmode]), arrived_cry, hc]
  dsimp only
  rw [hpoint, Option.isNone_none, if_pos rfl, agreeKey_valid hvalid htag, freeSlot_cry, raise_cry, updCry_cry]
  exact ⟨rfl, rfl, by simpa using agreed_code_lt, (raised_raise 139 _).andThen freeSlot_onlyIn⟩

/-! ### The confirmations (R288) -/

/-- The confirmation that arrives first waits for the other. -/
theorem takeConfirm_first {code : Nat} {peerKeys : Bool} (h : d.cry.commission = some c) (hkey : c.pairKey ≠ none) (hcode : c.code = code)
    (hloc : c.localConfirmed = none) :
    takeConfirm code peerKeys d = sendMsg (.pairConfirmAck true)
      (updCry (fun x => { x with commission := some { c with peerConfirmed := true, peerKeys := peerKeys } }) d) := by
  simp [takeConfirm, h, hkey, hcode, hloc]

theorem takeConfirm_unequal {code : Nat} {peerKeys : Bool} (h : d.cry.commission = some c) (hcode : c.code ≠ code) :
    takeConfirm code peerKeys d = abandonCommission (sendMsg (.pairConfirmAck false) d) := by
  simp [takeConfirm, h, hcode]

theorem pairConfirm_isTaken (s : State) (cr : Credits) (code : Nat) (peerKeys : Bool) (c : Commission) (hl : s.dev.lath.live = true)
    (hmode : s.dev.gen.mode = .dustSheet) (hc : s.dev.cry.commission = some c) (hkey : c.pairKey ≠ none) (hcode : c.code = code)
    (hloc : c.localConfirmed = none) :
    Completes (.pairConfirm cr code peerKeys) s fun d =>
      d.cry.commission = some { c with peerConfirmed := true, peerKeys := peerKeys } ∧
      LathMsg.pairConfirmAck true ∈ d.lath.queue ∧ OnlyIn [.lath, .cry] [0xE028] s.dev d := by
  refine completes_receive rfl hl ?_
  rw [onlyIf_dustSheet (by rw [arrived_gen, hmode]), takeConfirm_first (by rw [arrived_cry, hc]) hkey hcode hloc]
  refine ⟨?_, queue_subset_freeSlot ?_, ?_⟩
  · rw [freeSlot_cry, sendMsg_cry, updCry_cry]
  · rw [sendMsg_queue (by rw [updCry_lath, arrived_live, hl])]
    exact List.mem_append_right _ List.mem_cons_self
  · exact OnlyIn.refl.andThen (arrived_onlyIn_of_even rfl) |>.andThen updCry_onlyIn |>.andThen sendMsg_onlyIn |>.andThen freeSlot_onlyIn

theorem pairConfirm_unequal (s : State) (cr : Credits) (code : Nat) (peerKeys : Bool) (c : Commission) (hl : s.dev.lath.live = true)
    (hmode : s.dev.gen.mode = .dustSheet) (hc : s.dev.cry.commission = some c) (hcode : c.code ≠ code) (htag : c.tag = none)
    (hloc : c.localConfirmed = none) :
    Completes (.pairConfirm cr code peerKeys) s fun d =>
      d.cry.commission = none ∧ d.cry.checkCode = none ∧ LathMsg.pairConfirmAck false ∈ d.lath.queue ∧
      d.lath.commissionFailed = true ∧ Raised 140 d := by
  refine completes_receive rfl hl ?_
  have hca : (arrived cr (.pairConfirm code) s.dev).cry.commission = some c := by rw [arrived_cry, hc]
  rw [onlyIf_dustSheet (by rw [arrived_gen, hmode]), takeConfirm_unequal hca hcode,
    abandonCommission_unawaited (by rw [sendMsg_cry, hca]) htag hloc]
  obtain ⟨hnone, hshown, hfailed, hraised⟩ := raise_discarded_abandoned.freeSlot (b := isDataMsg (.pairConfirm code))
    (d := raise 140 (discarded (sendMsg (.pairConfirmAck false) (arrived cr (.pairConfirm code) s.dev))))
  refine ⟨hnone, hshown, queue_subset_freeSlot ?_, hfailed, hraised⟩
  rw [raise_discarded_queue, sendMsg_queue (by rw [arrived_live, hl])]
  exact List.mem_append_right _ List.mem_cons_self

theorem pairConfirmAck_unequal (s : State) (cr : Credits) (c : Commission) (hl : s.dev.lath.live = true)
    (hc : s.dev.cry.commission = some c) (htag : c.tag = none) (hloc : c.localConfirmed = none) :
    Completes (.pairConfirmAck cr false) s fun d =>
      d.cry.commission = none ∧ d.lath.commissionFailed = true ∧ Raised 140 d ∧
      OnlyIn ([.lath, .cry] ++ interruptParts) [0xE028, 0x4540] s.dev d := by
  refine completes_receive rfl hl ?_
  have hca : (arrived cr (.pairConfirmAck false) s.dev).cry.commission = some c := by rw [arrived_cry, hc]
  rw [hca, Bool.not_false, Option.isSome_some, Bool.and_self, onlyIf_true, abandonCommission_unawaited hca htag hloc]
  obtain ⟨hnone, -, hfailed, hraised⟩ := raise_discarded_abandoned.freeSlot (b := isDataMsg (.pairConfirmAck false))
    (d := raise 140 (discarded (arrived cr (.pairConfirmAck false) s.dev)))
  exact ⟨hnone, hfailed, hraised,
    OnlyIn.refl.andThen (arrived_onlyIn_of_even rfl) |>.andThen raise_discarded_onlyIn |>.andThen freeSlot_onlyIn⟩

/-! ### The timeout (R289) -/

theorem exec_commissionTimeout : exec .commissionTimeout s = effect s fun d => onlyIf (commissionLate d) abandonCommission d := rfl

theorem commissionLate_of_commission (h : d.cry.commission = some c) :
    commissionLate d = (c.pairKey.isSome && decide (c.readyAt + 600 * ticksPerS ≤ d.now)) := by
  rw [commissionLate, h]

theorem commissionTimeout_abandons (s : State) (c : Commission) (hc : s.dev.cry.commission = some c) (hkey : c.pairKey ≠ none)
    (hlate : c.readyAt + 600 * ticksPerS ≤ s.dev.now) (htag : c.tag = none) (hloc : c.localConfirmed = none) :
    Completes .commissionTimeout s fun d =>
      d.cry.commission = none ∧ d.cry.checkCode = none ∧ d.lath.commissionFailed = true ∧ Raised 140 d ∧
      OnlyIn ([.lath, .cry] ++ interruptParts) [0x4540] s.dev d := by
  have hdue : commissionLate s.dev = true := by
    rw [commissionLate_of_commission hc, Option.isSome_iff_ne_none.2 hkey, decide_eq_true hlate, Bool.and_self]
  have he : onlyIf (commissionLate s.dev) abandonCommission s.dev = raise 140 (discarded s.dev) := by
    rw [hdue, onlyIf_true, abandonCommission_unawaited hc htag hloc]
  obtain ⟨hnone, hshown, hfailed, hraised⟩ := raise_discarded_abandoned (d := s.dev)
  exact completes_to exec_commissionTimeout he ⟨hnone, hshown, hfailed, hraised, raise_discarded_onlyIn⟩

theorem commissionTimeout_early (s : State) (c : Commission) (hc : s.dev.cry.commission = some c)
    (hearly : s.dev.now < c.readyAt + 600 * ticksPerS) : Completes .commissionTimeout s fun d => d = s.dev := by
  have hdue : commissionLate s.dev = false := by
    rw [commissionLate_of_commission hc, decide_eq_false (Nat.not_le.2 hearly), Bool.and_false]
  exact completes_to exec_commissionTimeout (by rw [hdue, onlyIf_false]) rfl

end

/-- Settles O21: points agree on a code, the peer's confirmation waits for the local one, and a commissioning that no local command awaits is
abandoned at an unequal code, at the peer's refusal or after 600 s. -/
theorem commissioningAgreesOrIsAbandoned : Obligations.CommissioningAgreesOrIsAbandoned :=
  ⟨pairPoint_isHeld, pairPoint_agrees, pairConfirm_isTaken, pairConfirm_unequal, pairConfirmAck_unequal, commissionTimeout_abandons,
    commissionTimeout_early⟩

end Sys2Proof.Machine
end

section
/-!
PROOFS. The lines of the sector cache and the table store: what a change of lines leaves, how a table line is found after it, and what of
the cache another operation leaves.
-/

namespace Sys2Proof.Machine

section
variable {d e : Device} {i j k n : Nat} {l : Line} {p q : Line → Bool} {f : Line → Line} {c : Coh}

/-! ### What leaves the cache -/

theorem updCache_onlyIn {g : Machine.Cache → Machine.Cache} : OnlyIn [.cch] [] d (updCache g d) := by
  refine ⟨fun b hb => ?_, fun _ _ => rfl⟩
  cases b with
  | cch => simp at hb
  | _ => rfl

@[simp] theorem raise_cch : (raise n d).cch = d.cch := raise_onlyIn.1 .cch (by decide)

@[simp] theorem count_cch : (count n d).cch = d.cch := rfl

@[simp] theorem sendMsg_cch {m : LathMsg} : (sendMsg m d).cch = d.cch := sendMsg_onlyIn.1 .cch (by decide)

@[simp] theorem freeSlot_cch {b : Bool} : (freeSlot b d).cch = d.cch := freeSlot_onlyIn.1 .cch (by decide)

@[simp] theorem arrived_cch {cr : Credits} {m : LathMsg} : (arrived cr m d).cch = d.cch := arrived_onlyIn.1 .cch (by decide)

@[simp] theorem wakeLine_cch : (wakeLine k d).cch = d.cch := rfl

theorem wakeLine_onlyIn : OnlyIn [.hif] [] d (wakeLine k d) := updHif_onlyIn (f := fun h => { h with cmds := (wakeLine k d).hif.cmds })

/-! ### What is read of the cache alone -/

/-- Lines are found by the two arrays alone. -/
theorem findLine_congr (hm : e.cch.main = d.cch.main) (hv : e.cch.victim = d.cch.victim) : findLine e p = findLine d p := by
  simp only [findLine, findMain, findVictim, Device.line, hm, hv]

theorem cohOf_congr (hm : e.cch.main = d.cch.main) (hv : e.cch.victim = d.cch.victim) : cohOf e k = cohOf d k := by
  rw [cohOf, findLine_congr hm hv, cohOf]

theorem countLines_congr (hm : e.cch.main = d.cch.main) (hv : e.cch.victim = d.cch.victim) : countLines e p = countLines d p := by
  simp only [countLines, Device.line, hm, hv]

theorem tableOf_congr (h : e.cch = d.cch) : tableOf e k = tableOf d k := by
  simp only [tableOf, findLine_congr (congrArg _ h) (congrArg _ h), h]

theorem tablePoison_congr (h : e.cch = d.cch) : tablePoison e k = tablePoison d k := by
  simp only [tablePoison, findLine_congr (congrArg _ h) (congrArg _ h), h]

theorem tableBusy_congr (h : e.cch = d.cch) : tableBusy e k = tableBusy d k := by
  rw [tableBusy, findLine_congr (congrArg _ h) (congrArg _ h), tableBusy]

theorem requestOut_congr (h : e.cch = d.cch) : requestOut e k = requestOut d k := by
  rw [requestOut, h, requestOut]

theorem evictOut_congr (h : e.cch = d.cch) : evictOut e k = evictOut d k := by
  simp only [evictOut, noticeOut, h]

theorem inTopcoat_congr (h : e.gen = d.gen) : inTopcoat e = inTopcoat d := by
  rw [inTopcoat, h, inTopcoat]

theorem inTopcoat_of_mode (h : d.gen.mode = .topcoat) : inTopcoat d = true := decide_eq_true h

theorem inTopcoat_of_not (h : d.gen.mode ≠ .topcoat) : inTopcoat d = false := decide_eq_false h

/-! ### A change of lines -/

theorem line_congr (h : e.cch.main = d.cch.main) : e.line j = d.line j := by
  rw [Device.line, h, Device.line]

theorem line_putLine : (putLine i l d).line j = if j = i then l else d.line j := sget_sset _ _ _ _ _

/-- `e` is `d` but for the lines of the two arrays. -/
def LinesChanged (d e : Device) : Prop := ∃ m v, e = updCache (fun c => { c with main := m, victim := v }) d

theorem LinesChanged.onlyIn (h : LinesChanged d e) : OnlyIn [.cch] [] d e := by
  obtain ⟨m, v, rfl⟩ := h
  exact updCache_onlyIn

/-- Of the cache nothing else changed. -/
theorem LinesChanged.cch (h : LinesChanged d e) : e.cch = { d.cch with main := e.cch.main, victim := e.cch.victim } := by
  obtain ⟨m, v, rfl⟩ := h
  rfl

theorem LinesChanged.range (h : LinesChanged d e) : e.cch.range = d.cch.range := by rw [h.cch]

theorem LinesChanged.deferred (h : LinesChanged d e) : e.cch.deferred = d.cch.deferred := by rw [h.cch]

theorem LinesChanged.requests (h : LinesChanged d e) : e.cch.requests = d.cch.requests := by rw [h.cch]

theorem LinesChanged.store (h : LinesChanged d e) : e.cch.store = d.cch.store := by rw [h.cch]

/-- The first `n` lines of the main array change by `f` where `q` holds. -/
def changeMain (n : Nat) (q : Line → Bool) (f : Line → Line) (d : Device) : Device :=
  (List.range n).foldl (fun d i => if q (d.line i) then putLine i (f (d.line i)) d else d) d

theorem changeMain_succ : changeMain (n + 1) q f d =
    if q ((changeMain n q f d).line n) then putLine n (f ((changeMain n q f d).line n)) (changeMain n q f d) else changeMain n q f d := by
  rw [changeMain, List.range_succ, List.foldl_append]
  rfl

theorem changeMain_main : ∃ m, changeMain n q f d = updCache (fun c => { c with main := m }) d := by
  induction n with
  | zero => exact ⟨_, rfl⟩
  | succ n ih =>
    obtain ⟨m, hm⟩ := ih
    rw [changeMain_succ]
    split
    · exact ⟨_, by rw [hm]; rfl⟩
    · exact ⟨m, hm⟩

theorem changeMain_line : (changeMain n q f d).line j = if j < n ∧ q (d.line j) = true then f (d.line j) else d.line j := by
  induction n generalizing j with
  | zero => simp [changeMain]
  | succ n ih =>
    have hn : (changeMain n q f d).line n = d.line n := by rw [ih, if_neg fun h => Nat.lt_irrefl _ h.1]
    rw [changeMain_succ, hn]
    by_cases hjn : j = n
    · subst hjn
      by_cases hq : q (d.line j) = true
      · rw [if_pos hq, line_putLine, if_pos rfl, if_pos ⟨Nat.lt_succ_self _, hq⟩]
      · rw [if_neg hq, hn, if_neg fun h => hq h.2]
    · have hlt : j < n + 1 ↔ j < n := by omega
      simp only [hlt]
      rw [← ih]
      split
      · rw [line_putLine, if_neg hjn]
      · rfl

theorem mapLines_eq : mapLines p f d =
    updCache (fun c => { c with victim := c.victim.map fun l => if isValid p l then f l else l }) (changeMain 64 (isValid p) f d) := rfl

theorem dropLines_eq : dropLines p d =
    updCache (fun c => { c with victim := c.victim.filter fun l => !isValid p l }) (changeMain 64 (isValid p) (fun _ => {}) d) := rfl

theorem mapLines_lines : LinesChanged d (mapLines p f d) := by
  obtain ⟨m, hm⟩ := changeMain_main (n := 64) (q := isValid p) (f := f) (d := d)
  exact ⟨_, _, by rw [mapLines_eq, hm]; rfl⟩

theorem dropLines_lines : LinesChanged d (dropLines p d) := by
  obtain ⟨m, hm⟩ := changeMain_main (n := 64) (q := isValid p) (f := fun _ => {}) (d := d)
  exact ⟨_, _, by rw [dropLines_eq, hm]; rfl⟩

theorem mapLines_line : (mapLines p f d).line j = if j < 64 ∧ isValid p (d.line j) = true then f (d.line j) else d.line j := by
  have hmain : (mapLines p f d).cch.main = (changeMain 64 (isValid p) f d).cch.main := by rw [mapLines_eq, updCache_cch]
  rw [line_congr hmain, changeMain_line]

theorem dropLines_line : (dropLines p d).line j = if j < 64 ∧ isValid p (d.line j) = true then {} else d.line j := by
  have hmain : (dropLines p d).cch.main = (changeMain 64 (isValid p) (fun _ => {}) d).cch.main := by rw [dropLines_eq, updCache_cch]
  rw [line_congr hmain, changeMain_line]

theorem mapLines_victim : (mapLines p f d).cch.victim = d.cch.victim.map fun l => if isValid p l then f l else l := by
  obtain ⟨m, hm⟩ := changeMain_main (n := 64) (q := isValid p) (f := f) (d := d)
  rw [mapLines_eq, hm]
  rfl

theorem dropLines_victim : (dropLines p d).cch.victim = d.cch.victim.filter fun l => !isValid p l := by
  obtain ⟨m, hm⟩ := changeMain_main (n := 64) (q := isValid p) (f := fun _ => {}) (d := d)
  rw [dropLines_eq, hm]
  rfl

theorem isValid_empty : isValid p {} = false := rfl

/-- No line that was dropped is left. -/
theorem dropLines_line_not (hj : j < 64) : isValid p ((dropLines p d).line j) = false := by
  rw [dropLines_line]
  split
  · exact isValid_empty
  · next h => exact Bool.eq_false_iff.2 fun hv => h ⟨hj, hv⟩

theorem countLines_dropLines : countLines (dropLines p d) p = 0 := by
  have hmain : (List.range 64).filter (fun i => isValid p ((dropLines p d).line i)) = [] :=
    List.filter_eq_nil_iff.2 fun i hi => Bool.eq_false_iff.1 (dropLines_line_not (List.mem_range.1 hi))
  have hvictim : (dropLines p d).cch.victim.filter (isValid p) = [] := by
    rw [dropLines_victim, List.filter_filter]
    simp
  rw [countLines, hmain, hvictim]
  rfl

theorem findLine_dropLines : findLine (dropLines p d) p = none := by
  have hmain : findMain (dropLines p d) p = none :=
    List.find?_eq_none.2 fun i hi => Bool.eq_false_iff.1 (dropLines_line_not (List.mem_range.1 hi))
  have hvictim : findVictim (dropLines p d) p = none := by
    rw [findVictim, dropLines_victim]
    exact List.find?_eq_none.2 fun l hl => by simpa using (List.mem_filter.1 hl).2
  rw [findLine, hmain, hvictim]

/-! ### A table line after a change of lines -/

theorem findMain_some (h : findMain d p = some i) : i < 64 ∧ isValid p (d.line i) = true :=
  ⟨List.mem_range.1 (List.mem_of_find?_eq_some h), List.find?_some (p := fun i => isValid p (d.line i)) h⟩

theorem isValid_of_findLine (h : findLine d p = some l) : isValid p l = true := by
  unfold findLine at h
  split at h
  · next i hi =>
    obtain rfl := Option.some.inj h
    exact (findMain_some hi).2
  · exact List.find?_some h

/-- A search finds the changed line in the place of the line that it found, when the change neither makes nor spoils what is searched
for. -/
theorem findLine_mapLines (h : ∀ l, isValid p l = true → isValid q (f l) = isValid q l) :
    findLine (mapLines p f d) q = (findLine d q).map fun l => if isValid p l then f l else l := by
  have hkeep (l : Line) : isValid q (if isValid p l then f l else l) = isValid q l := by
    split
    · next hp => exact h l hp
    · rfl
  have hline {j : Nat} (hj : j < 64) : (mapLines p f d).line j = if isValid p (d.line j) then f (d.line j) else d.line j := by
    rw [mapLines_line]
    simp only [hj, true_and]
  have hmain : findMain (mapLines p f d) q = findMain d q :=
    List.find?_congr fun i hi => by rw [hline (List.mem_range.1 hi), hkeep]
  cases hi : findMain d q with
  | some i => simp only [findLine, hmain, hi, hline (findMain_some hi).1, Option.map_some]
  | none =>
    have hvictim : isValid q ∘ (fun l => if isValid p l then f l else l) = isValid q := funext hkeep
    simp only [findLine, hmain, hi, findVictim, mapLines_victim, List.find?_map, hvictim]

/-- A change of table line `k` that keeps it table line `k`. -/
theorem findLine_mapTable (h : ∀ l, isValid (isTable k) (f l) = isValid (isTable k) l) :
    findLine (mapLines (isTable k) f d) (isTable k) = (findLine d (isTable k)).map f := by
  rw [findLine_mapLines fun l _ => h l]
  cases hl : findLine d (isTable k) with
  | none => rfl
  | some l => rw [Option.map_some, Option.map_some, if_pos (isValid_of_findLine hl)]

theorem isTable_apart (h : j ≠ k) (hl : isValid (isTable j) l = true) : isValid (isTable k) l = false := by
  simp only [isValid, isTable, Bool.and_eq_true, decide_eq_true_eq] at hl
  simp [isValid, isTable, hl.2.2, h]

/-- A change of table line `j` that keeps it table line `j` is none of another table line. -/
theorem findLine_mapTable_ne (hjk : j ≠ k) (h : ∀ l, isValid (isTable j) (f l) = isValid (isTable j) l) :
    findLine (mapLines (isTable j) f d) (isTable k) = findLine d (isTable k) := by
  rw [findLine_mapLines fun l hl => by rw [isTable_apart hjk hl, isTable_apart hjk ((h l).trans hl)]]
  cases hl : findLine d (isTable k) with
  | none => rfl
  | some l => rw [Option.map_some, if_neg (Bool.eq_false_iff.1 (isTable_apart (Ne.symm hjk) (isValid_of_findLine hl)))]

theorem cohOf_of_findLine (h : findLine d (isTable k) = some l) : cohOf d k = l.coh := by rw [cohOf, h]; rfl

theorem tableOf_of_findLine (h : findLine d (isTable k) = some l) : tableOf d k = l.recs := by rw [tableOf, h]

theorem tablePoison_of_findLine (h : findLine d (isTable k) = some l) : tablePoison d k = l.poison := by rw [tablePoison, h]

/-- A line in another state than I is held. -/
theorem held_of_cohOf (h : cohOf d k ≠ .i) : (findLine d (isTable k)).isSome = true := by
  cases hl : findLine d (isTable k) with
  | none => exact absurd (by rw [cohOf, hl]; rfl) h
  | some l => rfl

/-! ### The state of a table line (Table 09-4) -/

theorem setCoh_lines : LinesChanged d (setCoh k c d) := by
  unfold setCoh
  split
  · exact dropLines_lines
  · exact mapLines_lines

theorem cohOf_setCoh_i : cohOf (setCoh k .i d) k = .i := by
  rw [setCoh, if_pos rfl, cohOf, findLine_dropLines]
  rfl

theorem cohOf_setCoh (hc : c ≠ .i) (hl : (findLine d (isTable k)).isSome = true) : cohOf (setCoh k c d) k = c := by
  obtain ⟨l, hl⟩ := Option.isSome_iff_exists.1 hl
  rw [setCoh, if_neg hc, cohOf, findLine_mapTable (f := fun l => { l with coh := c }) fun _ => rfl, hl]
  rfl

theorem cohOf_setCoh_ne (hc : c ≠ .i) (h : j ≠ k) : cohOf (setCoh j c d) k = cohOf d k := by
  rw [setCoh, if_neg hc, cohOf, findLine_mapTable_ne (f := fun l => { l with coh := c }) h fun _ => rfl, cohOf]

/-! ### The table store -/

theorem storeTable_onlyIn {recs : TableRecs} {poison : BitVec 32} : OnlyIn [.cch] [] d (storeTable k recs poison d) := updCache_onlyIn

@[simp] theorem storeTable_store {recs : TableRecs} {poison : BitVec 32} :
    sget (fun _ => []) (storeTable k recs poison d).cch.store k = recs := sget_sset_self _ _ _ _

@[simp] theorem storeTable_storePoison {recs : TableRecs} {poison : BitVec 32} :
    sget (fun _ => 0) (storeTable k recs poison d).cch.storePoison k = poison := sget_sset_self _ _ _ _

theorem findLine_storeTable {recs : TableRecs} {poison : BitVec 32} : findLine (storeTable k recs poison d) p = findLine d p :=
  findLine_congr rfl rfl

end

end Sys2Proof.Machine
end

section
/-!
PROOFS. The range engine: what each of its operations does to the lines that it affects, a START while it is busy, and its end.
-/

namespace Sys2Proof.Machine

section
variable {s : State} {d e : Device} {i : Instr} {j k : Nat} {ks : List Nat} {op : RangeOp}

/-! ### A write of RANGE_CMD.START (R244, R245) -/

theorem gate_mgmt {o : Nat} {hostOk : Bool} {f : Device → Device} (h : pairRuns d = true) : gate .mgmt o hostOk f d = f d := if_pos h

/-- With the engine idle the operation starts. -/
theorem completes_start {code : Nat} {o : Device → RangeOp} {P : Device → Prop}
    (h : exec i s = effect s (gate .mgmt 0xC010 false fun d => rangeCommand (o d) code d)) (hp : pairRuns s.dev = true)
    (hr : s.dev.cch.range = none) (p : P (startRange (o s.dev) (setRegF 0xC010 2 0 code s.dev))) : Completes i s P :=
  completes_to h (by rw [gate_mgmt hp, rangeCommand, hr, Option.isSome_none, if_neg Bool.false_ne_true]) p

/-- While the engine is busy the START is ignored, latched and told. -/
theorem completes_ignored {code : Nat} {o : Device → RangeOp}
    (h : exec i s = effect s (gate .mgmt 0xC010 false fun d => rangeCommand (o d) code d)) (hp : pairRuns s.dev = true)
    (hr : s.dev.cch.range ≠ none) :
    Completes i s fun d =>
      d.cch = { s.dev.cch with ignored := true } ∧ Raised 113 d ∧ OnlyIn (.cch :: interruptParts) [0x4540] s.dev d :=
  completes_to h (by rw [gate_mgmt hp, rangeCommand, if_pos (Option.isSome_iff_ne_none.2 hr)])
    ⟨raise_cch, raised_raise 113 _, OnlyIn.refl.andThen updCache_onlyIn |>.andThen raise_onlyIn⟩

theorem exec_invalidate : exec (.invalidate .mgmt) s = effect s (gate .mgmt 0xC010 false fun d =>
    rangeCommand (.invalidate (rangeBounds d).1 (rangeBounds d).2) 1 d) := rfl

theorem exec_clean : exec (.clean .mgmt) s = effect s (gate .mgmt 0xC010 false fun d => rangeCommand .clean 2 d) := rfl

theorem exec_purgeOwner : exec (.purgeOwner .mgmt) s = effect s (gate .mgmt 0xC010 false fun d =>
    rangeCommand (.purgeOwner (d.regF 0xC010 11 8)) 3 d) := rfl

theorem exec_zeroLine : exec (.zeroLine .mgmt) s = effect s (gate .mgmt 0xC010 false fun d => rangeCommand .zeroLine 4 d) := rfl

theorem rangeOp_ignored (s : State) (c : Instr) (hp : pairRuns s.dev = true) (hr : s.dev.cch.range ≠ none)
    (hc : c ∈ [Instr.invalidate .mgmt, .clean .mgmt, .purgeOwner .mgmt, .zeroLine .mgmt]) :
    Completes c s fun d =>
      d.cch = { s.dev.cch with ignored := true } ∧ Raised 113 d ∧ OnlyIn (.cch :: interruptParts) [0x4540] s.dev d := by
  simp only [List.mem_cons, List.not_mem_nil, or_false] at hc
  obtain rfl | rfl | rfl | rfl := hc
  · exact completes_ignored exec_invalidate hp hr
  · exact completes_ignored exec_clean hp hr
  · exact completes_ignored exec_purgeOwner hp hr
  · exact completes_ignored exec_zeroLine hp hr

/-! ### INVALIDATE and PURGE_OWNER (Table 09-3) -/

/-- The operation that invalidates the sector lines which `op` matches has taken the device from `d` to `e`. -/
structure Purged (op : RangeOp) (d e : Device) : Prop where
  range : e.cch.range = some (op, [])
  affected : e.cch.affected = countLines d (rangeMatches op)
  none_left : countLines e (rangeMatches op) = 0
  others_kept : ∀ i, isValid (rangeMatches op) (d.line i) = false → e.line i = d.line i
  onlyIn : OnlyIn [.cch] [] d e

theorem purge_eq : startRange.purge op d =
    updCache (fun c => { c with range := some (op, []), affected := countLines d (rangeMatches op) }) (dropLines (rangeMatches op) d) := rfl

theorem purge_purged : Purged op d (startRange.purge op d) := by
  rw [purge_eq]
  refine ⟨rfl, rfl, ?_, fun i hi => ?_, OnlyIn.refl.andThen dropLines_lines.onlyIn |>.andThen updCache_onlyIn⟩
  · rw [countLines_congr (d := dropLines (rangeMatches op) d) (by rw [updCache_cch]) (by rw [updCache_cch]), countLines_dropLines]
  · rw [line_congr (d := dropLines (rangeMatches op) d) (by rw [updCache_cch]), dropLines_line,
      if_neg fun h => Bool.false_ne_true (hi.symm.trans h.2)]

/-- A purge is started from RANGE_CMD, whose OP it keeps. -/
theorem completes_purge {code : Nat} {o : Device → RangeOp} (hcode : code < 8)
    (h : exec i s = effect s (gate .mgmt 0xC010 false fun d => rangeCommand (o d) code d))
    (ho : ∀ d, startRange (o s.dev) d = startRange.purge (o s.dev) d) (hp : pairRuns s.dev = true) (hr : s.dev.cch.range = none) :
    Completes i s fun d =>
      d.cch.range = some (o s.dev, []) ∧ d.cch.affected = countLines s.dev (rangeMatches (o s.dev)) ∧
      countLines d (rangeMatches (o s.dev)) = 0 ∧
      (∀ i, isValid (rangeMatches (o s.dev)) (s.dev.line i) = false → d.line i = s.dev.line i) ∧
      d.regF 0xC010 2 0 = code ∧ OnlyIn [.cch] [0xC010] s.dev d := by
  refine completes_start h hp hr ?_
  rw [ho]
  obtain ⟨hrange, haffected, hnone, hothers, hframe⟩ := purge_purged (op := o s.dev) (d := setRegF 0xC010 2 0 code s.dev)
  refine ⟨hrange, haffected, hnone, hothers, ?_, OnlyIn.refl.andThen setRegF_onlyIn |>.andThen hframe⟩
  rw [regF_eq_of_onlyIn hframe (by decide), regF_setRegF_self (by decide) (by decide) hcode]

/-! ### CLEAN (Table 09-3) -/

/-- The table lines held in M. -/
def modifiedLines (d : Device) : List Nat := (List.range 16).filter fun k => cohOf d k = .m

theorem mem_modifiedLines (hk : k < 16) (h : cohOf d k = .m) : k ∈ modifiedLines d :=
  List.mem_filter.2 ⟨List.mem_range.2 hk, decide_eq_true h⟩

/-- Table line `k`, as it is held, goes to the table store. -/
def storeLine (k : Nat) (d : Device) : Device :=
  storeTable k ((findLine d (isTable k)).getD {}).recs ((findLine d (isTable k)).getD {}).poison d

/-- CLEAN outside Topcoat: table line `k` is stored and goes to E. -/
def cleanAlone (k : Nat) (d : Device) : Device := setCoh k .e (storeLine k d)

/-- CLEAN in Topcoat: table line `k` is stored and sent to the peer. -/
def cleanSent (k : Nat) (d : Device) : Device :=
  sendMsg (.cleanD k ((findLine d (isTable k)).getD {}).recs ((findLine d (isTable k)).getD {}).poison)
    (updCache (fun c => { c with notices := c.notices ++ [k] }) (storeLine k d))

theorem storeLine_onlyIn : OnlyIn [.cch] [] d (storeLine k d) := storeTable_onlyIn

theorem cleanAlone_onlyIn : OnlyIn [.cch] [] d (cleanAlone k d) := storeLine_onlyIn.trans setCoh_lines.onlyIn

theorem cleanSent_onlyIn : OnlyIn [.cch, .lath] [] d (cleanSent k d) :=
  OnlyIn.refl.andThen storeLine_onlyIn |>.andThen updCache_onlyIn |>.andThen sendMsg_onlyIn

/-- What CLEAN does to one line. -/
def cleanLine (k : Nat) (d : Device) : Device := if inTopcoat d then cleanSent k d else cleanAlone k d

theorem cleanLines_eq : cleanLines d = ((modifiedLines d).foldl (fun d k => cleanLine k d) d,
    if inTopcoat ((modifiedLines d).foldl (fun d k => cleanLine k d) d) then modifiedLines d else []) := by
  rw [cleanLines, modifiedLines]
  generalize (List.range 16).filter (fun k => decide (cohOf d k = .m)) = ks
  rfl

theorem inTopcoat_foldl {f : Nat → Device → Device} {bs : List Block} (hf : ∀ k d, OnlyIn bs [] d (f k d)) (hb : Block.gen ∉ bs) :
    inTopcoat (ks.foldl (fun d k => f k d) d) = inTopcoat d :=
  inTopcoat_congr ((OnlyIn.foldl fun d k => hf k d).1 .gen hb)

/-- Outside Topcoat every line of a CLEAN is cleaned alone. -/
theorem foldl_cleanLine_alone (h : inTopcoat d = false) :
    ks.foldl (fun d k => cleanLine k d) d = ks.foldl (fun d k => cleanAlone k d) d := by
  induction ks generalizing d with
  | nil => rw [List.foldl_nil, List.foldl_nil]
  | cons k ks ih =>
    have hk : cleanLine k d = cleanAlone k d := if_neg (Bool.eq_false_iff.1 h)
    have hmode : inTopcoat (cleanAlone k d) = false := by rw [inTopcoat_congr (cleanAlone_onlyIn.1 .gen (by decide)), h]
    rw [List.foldl_cons, hk, ih hmode, List.foldl_cons]

/-- In Topcoat every line of a CLEAN is sent. -/
theorem foldl_cleanLine_sent (h : inTopcoat d = true) :
    ks.foldl (fun d k => cleanLine k d) d = ks.foldl (fun d k => cleanSent k d) d := by
  induction ks generalizing d with
  | nil => rw [List.foldl_nil, List.foldl_nil]
  | cons k ks ih =>
    have hk : cleanLine k d = cleanSent k d := if_pos h
    have hmode : inTopcoat (cleanSent k d) = true := by rw [inTopcoat_congr (cleanSent_onlyIn.1 .gen (by decide)), h]
    rw [List.foldl_cons, hk, ih hmode, List.foldl_cons]

theorem cleanLines_alone (h : inTopcoat d = false) : cleanLines d = ((modifiedLines d).foldl (fun d k => cleanAlone k d) d, []) := by
  rw [cleanLines_eq, foldl_cleanLine_alone h, inTopcoat_foldl (fun _ _ => cleanAlone_onlyIn) (by decide), h, if_neg Bool.false_ne_true]

theorem cleanLines_sent (h : inTopcoat d = true) :
    cleanLines d = ((modifiedLines d).foldl (fun d k => cleanSent k d) d, modifiedLines d) := by
  rw [cleanLines_eq, foldl_cleanLine_sent h, inTopcoat_foldl (fun _ _ => cleanSent_onlyIn) (by decide), h, if_pos rfl]

theorem cohOf_cleanAlone (h : cohOf d k ≠ .i) : cohOf (cleanAlone j d) k = if k = j then .e else cohOf d k := by
  have hl : (findLine (storeLine k d) (isTable k)).isSome = true := by rw [storeLine, findLine_storeTable, held_of_cohOf h]
  split
  · next hkj => rw [hkj] at hl ⊢; exact cohOf_setCoh (by decide) hl
  · next hkj => exact (cohOf_setCoh_ne (by decide) (Ne.symm hkj)).trans (cohOf_congr rfl rfl)

/-- The lines that were cleaned alone are in E, and the others in the state in which they were held. -/
theorem cohOf_foldl_cleanAlone (h : cohOf d k ≠ .i) :
    cohOf (ks.foldl (fun d k => cleanAlone k d) d) k = if k ∈ ks then .e else cohOf d k := by
  induction ks generalizing d with
  | nil => simp
  | cons j ks ih =>
    have hj := cohOf_cleanAlone (j := j) h
    have hheld : cohOf (cleanAlone j d) k ≠ .i := by
      rw [hj]
      split
      · decide
      · exact h
    rw [List.foldl_cons, ih hheld, hj]
    by_cases hkj : k = j <;> simp [hkj]

theorem notices_foldl_cleanSent : (ks.foldl (fun d k => cleanSent k d) d).cch.notices = d.cch.notices ++ ks := by
  induction ks generalizing d with
  | nil => simp
  | cons k ks ih =>
    have hk : (cleanSent k d).cch.notices = d.cch.notices ++ [k] := by rw [cleanSent, sendMsg_cch]; rfl
    rw [List.foldl_cons, ih, hk, List.append_assoc, List.singleton_append]

theorem startRange_clean : startRange .clean d = updCache (fun c => { c with
    range := some (.clean, (cleanLines d).2), affected := countLines d fun l => l.table && l.coh = .m }) (cleanLines d).1 := rfl

/-! ### ZERO_LINE (R243) -/

theorem startRange_zeroLine (h : inTopcoat d = false) : startRange .zeroLine d =
    updCache (fun c => { c with range := some (.zeroLine, []), affected := 1 }) (zeroTable (d.regF 0xC010 19 16) d) := by
  simp only [startRange, h, Bool.false_and, Bool.false_eq_true, if_false]

/-- A held line that is zeroed is in M, its records zero and its poison clear. -/
theorem findLine_zeroTable (h : (findLine d (isTable k)).isSome = true) :
    (findLine (zeroTable k d) (isTable k)) =
      (findLine d (isTable k)).map fun l => { l with coh := .m, recs := [], poison := 0 } := by
  rw [zeroTable, if_pos h]
  exact findLine_mapTable fun _ => rfl

theorem zeroTable_onlyIn (h : (findLine d (isTable k)).isSome = true) : OnlyIn [.cch] [] d (zeroTable k d) := by
  rw [zeroTable, if_pos h]
  exact mapLines_lines.onlyIn

/-! ### The end of an operation (R244) -/

/-- With no change of a stream record, no record group and no owner operation waiting, nothing goes on. -/
theorem pumpAll_idle (ht : d.rcl.tasks = []) (hg : d.rcl.groups = []) (ho : d.cry.ops = []) : pumpAll d = d := by
  have htasks : runTasks d = d := by
    rw [runTasks, ht, List.foldl_nil, updRcl, ← ht]
  have hgroups : settleGroups d = d := by
    rw [settleGroups, hg, List.length_nil, commitReady, payOwed, hg, List.filter_nil, List.foldl_nil]
  have hops : pumpOps d = d := by rw [pumpOps, ho]; rfl
  rw [pumpAll, htasks, hgroups, hops]

theorem exec_rangeOpDone {ks : List Nat} (h : s.dev.cch.range = some (op, ks)) :
    exec .rangeOpDone s = .next { s with dev := onlyIf ks.isEmpty rangeDone s.dev } := by
  change execRangeOpDone s = _
  simp only [execRangeOpDone, effect_next, h]

theorem rangeOpDone_ends (s : State) (op : RangeOp) (hr : s.dev.cch.range = some (op, [])) (ht : s.dev.rcl.tasks = [])
    (hg : s.dev.rcl.groups = []) (ho : s.dev.cry.ops = []) :
    Completes .rangeOpDone s fun d =>
      d.cch = { s.dev.cch with range := none } ∧ Raised 112 d ∧ OnlyIn (.cch :: interruptParts) [0x4540] s.dev d := by
  refine ⟨_, exec_rangeOpDone hr, rfl, ?_⟩
  rw [List.isEmpty_nil, onlyIf_true, rangeDone, pumpAll_idle (by rw [raise_rcl]; exact ht) (by rw [raise_rcl]; exact hg)
    (by rw [raise_cry]; exact ho)]
  exact ⟨raise_cch, raised_raise 112 _, OnlyIn.refl.andThen updCache_onlyIn |>.andThen raise_onlyIn⟩

theorem rangeOpDone_early (s : State) (op : RangeOp) (k : Nat) (ks : List Nat) (hr : s.dev.cch.range = some (op, k :: ks)) :
    Completes .rangeOpDone s fun d => d = s.dev :=
  ⟨_, exec_rangeOpDone hr, rfl, rfl⟩

/-! ### The clauses -/

theorem clean_alone (s : State) (hp : pairRuns s.dev = true) (hr : s.dev.cch.range = none) (hmode : s.dev.gen.mode ≠ .topcoat) :
    Completes (.clean .mgmt) s fun d =>
      d.cch.range = some (.clean, []) ∧ (∀ k, k < 16 → cohOf s.dev k = .m → cohOf d k = .e) ∧ OnlyIn [.cch] [0xC010] s.dev d := by
  refine completes_start (o := fun _ => .clean) exec_clean hp hr ?_
  rw [startRange_clean, cleanLines_alone (d := setRegF 0xC010 2 0 2 s.dev) (inTopcoat_of_not hmode)]
  refine ⟨rfl, fun k hk hm => ?_, OnlyIn.refl.andThen setRegF_onlyIn |>.andThen (OnlyIn.foldl fun _ _ => cleanAlone_onlyIn)
    |>.andThen updCache_onlyIn⟩
  have hset : cohOf (setRegF 0xC010 2 0 2 s.dev) k = .m := hm
  calc cohOf (updCache _ _) k
    _ = cohOf (List.foldl (fun d k => cleanAlone k d) (setRegF 0xC010 2 0 2 s.dev) _) k := cohOf_congr rfl rfl
    _ = .e := by rw [cohOf_foldl_cleanAlone (by rw [hset]; decide), if_pos (mem_modifiedLines hk hset)]

theorem clean_sent (s : State) (hp : pairRuns s.dev = true) (hr : s.dev.cch.range = none) (hmode : s.dev.gen.mode = .topcoat) :
    Completes (.clean .mgmt) s fun d =>
      d.cch.range = some (.clean, (List.range 16).filter fun k => cohOf s.dev k = .m) ∧
      d.cch.notices = s.dev.cch.notices ++ (List.range 16).filter (fun k => cohOf s.dev k = .m) ∧
      OnlyIn [.cch, .lath] [0xC010] s.dev d := by
  refine completes_start (o := fun _ => .clean) exec_clean hp hr ?_
  rw [startRange_clean, cleanLines_sent (d := setRegF 0xC010 2 0 2 s.dev) (inTopcoat_of_mode hmode)]
  exact ⟨rfl, notices_foldl_cleanSent, OnlyIn.refl.andThen setRegF_onlyIn |>.andThen (OnlyIn.foldl fun _ _ => cleanSent_onlyIn)
    |>.andThen updCache_onlyIn⟩

theorem zeroLine_alone (s : State) (hp : pairRuns s.dev = true) (hr : s.dev.cch.range = none) (hmode : s.dev.gen.mode ≠ .topcoat)
    (hl : (findLine s.dev (isTable (s.dev.regF 0xC010 19 16))).isSome = true) :
    Completes (.zeroLine .mgmt) s fun d =>
      cohOf d (s.dev.regF 0xC010 19 16) = .m ∧ tableOf d (s.dev.regF 0xC010 19 16) = [] ∧
      tablePoison d (s.dev.regF 0xC010 19 16) = 0 ∧ OnlyIn [.cch] [0xC010] s.dev d := by
  refine completes_start (o := fun _ => .zeroLine) exec_zeroLine hp hr ?_
  rw [startRange_zeroLine (d := setRegF 0xC010 2 0 4 s.dev) (inTopcoat_of_not hmode),
    regF_setRegF_apart (by decide) (by decide) (by decide)]
  generalize s.dev.regF 0xC010 19 16 = k at hl ⊢
  obtain ⟨l, hl⟩ := Option.isSome_iff_exists.1 hl
  have hset : findLine (setRegF 0xC010 2 0 4 s.dev) (isTable k) = some l := (findLine_congr (d := s.dev) rfl rfl).trans hl
  have hheld : (findLine (setRegF 0xC010 2 0 4 s.dev) (isTable k)).isSome = true := Option.isSome_of_eq_some hset
  have hfound : findLine (updCache (fun c => { c with range := some (.zeroLine, []), affected := 1 })
      (zeroTable k (setRegF 0xC010 2 0 4 s.dev))) (isTable k) = some { l with coh := .m, recs := [], poison := 0 } :=
    (findLine_congr (d := zeroTable k (setRegF 0xC010 2 0 4 s.dev)) rfl rfl).trans
      (by rw [findLine_zeroTable hheld, hset, Option.map_some])
  exact ⟨cohOf_of_findLine hfound, tableOf_of_findLine hfound, tablePoison_of_findLine hfound,
    OnlyIn.refl.andThen setRegF_onlyIn |>.andThen (zeroTable_onlyIn hheld) |>.andThen updCache_onlyIn⟩

end

/-- Settles O22, operation by operation: what INVALIDATE, PURGE_OWNER, CLEAN and ZERO_LINE do with the engine idle, that a START while it is
busy is ignored, and when an operation ends. -/
theorem rangeEngineRunsOneOperation : Obligations.RangeEngineRunsOneOperation :=
  ⟨fun _ => completes_purge (o := fun d => .invalidate (rangeBounds d).1 (rangeBounds d).2) (by decide) exec_invalidate fun _ => rfl,
    fun _ => completes_purge (o := fun d => .purgeOwner (d.regF 0xC010 11 8)) (by decide) exec_purgeOwner fun _ => rfl,
    clean_alone, clean_sent, zeroLine_alone, rangeOp_ignored, rangeOpDone_ends, rangeOpDone_early⟩

end Sys2Proof.Machine
end

section
/-!
PROOFS. The peer's requests for table lines: each answer of Table 09-6, and EVICTING while a notice is out.
-/

namespace Sys2Proof.Machine

section
variable {s : State} {d e : Device} {cr : Credits} {i : Instr} {k : Nat} {c : Coh} {m : LathMsg} {r : CohReq}

/-! ### What a reply leaves -/

theorem setCoh_lath : (setCoh k c d).lath = d.lath := setCoh_lines.onlyIn.1 .lath (by decide)

theorem cohOf_freeSlot {b : Bool} : cohOf (freeSlot b d) k = cohOf d k :=
  cohOf_congr (congrArg _ freeSlot_cch) (congrArg _ freeSlot_cch)

theorem cohOf_arrived : cohOf (arrived cr m d) k = cohOf d k := cohOf_congr (congrArg _ arrived_cch) (congrArg _ arrived_cch)

theorem mem_sendMsg (h : d.lath.live = true) : m ∈ (sendMsg m d).lath.queue := by
  rw [sendMsg_queue h]
  exact List.mem_append_right _ List.mem_cons_self

/-- `e` is `d` with the reply `m` queued and table line `k` in state `c`. -/
structure Replied (m : LathMsg) (k : Nat) (c : Coh) (d e : Device) : Prop where
  queued : m ∈ e.lath.queue
  coh : cohOf e k = c
  onlyIn : OnlyIn [.lath, .cch] [] d e

theorem replied_sendMsg (h : d.lath.live = true) (hl : cohOf d k = c) : Replied m k c d (sendMsg m d) where
  queued := mem_sendMsg h
  coh := (cohOf_congr (congrArg _ sendMsg_cch) (congrArg _ sendMsg_cch)).trans hl
  onlyIn := OnlyIn.refl.andThen sendMsg_onlyIn

protected theorem Replied.storeTable {recs : TableRecs} {poison : BitVec 32} (h : Replied m k c d e) :
    Replied m k c d (storeTable k recs poison e) where
  queued := h.queued
  coh := (cohOf_congr rfl rfl).trans h.coh
  onlyIn := h.onlyIn.andThen storeTable_onlyIn

/-- A held line goes to another state than I. -/
theorem Replied.moved {c' : Coh} (h : Replied m k c d e) (hc : c ≠ .i) (hc' : c' ≠ .i) : Replied m k c' d (setCoh k c' e) where
  queued := by rw [setCoh_lath]; exact h.queued
  coh := cohOf_setCoh hc' (held_of_cohOf (h.coh.trans_ne hc))
  onlyIn := h.onlyIn.andThen setCoh_lines.onlyIn

theorem Replied.givenUp (h : Replied m k c d e) : Replied m k .i d (setCoh k .i e) where
  queued := by rw [setCoh_lath]; exact h.queued
  coh := cohOf_setCoh_i
  onlyIn := h.onlyIn.andThen setCoh_lines.onlyIn

/-! ### The answers (Table 09-6) -/

theorem recs_of_held (h : cohOf d k ≠ .i) : ((findLine d (isTable k)).map (·.recs)).getD [] = tableOf d k := by
  obtain ⟨l, hl⟩ := Option.isSome_iff_exists.1 (held_of_cohOf h)
  rw [tableOf_of_findLine hl, hl]
  rfl

theorem poison_of_held (h : cohOf d k ≠ .i) : ((findLine d (isTable k)).map (·.poison)).getD 0 = tablePoison d k := by
  obtain ⟨l, hl⟩ := Option.isSome_iff_exists.1 (held_of_cohOf h)
  rw [tablePoison_of_findLine hl, hl]
  rfl

theorem answerReq_evictOut (h : evictOut d k = true) : answerReq k r d = raise 116 (count 0xC110 (sendMsg (.evicting k) d)) := if_pos h

/-- The DATA message of table line `k` as it is held. -/
def dataOf (d : Device) (k : Nat) (c : Coh) : LathMsg := .data k c (tableOf d k) (tablePoison d k)

theorem answerReq_rd_m (hev : evictOut d k = false) (h : cohOf d k = .m) :
    answerReq k .rd d = setCoh k .s (storeTable k (tableOf d k) (tablePoison d k) (sendMsg (dataOf d k .s) d)) := by
  have hm : cohOf d k ≠ .i := by rw [h]; decide
  simp only [answerReq, hev, Bool.false_eq_true, if_false, recs_of_held hm, poison_of_held hm, h, dataOf]

theorem answerReq_rd_e (hev : evictOut d k = false) (h : cohOf d k = .e) :
    answerReq k .rd d = setCoh k .s (sendMsg (.none k .s) d) := by
  simp only [answerReq, hev, Bool.false_eq_true, if_false, h]

theorem answerReq_rd_i (hev : evictOut d k = false) (h : cohOf d k = .i) : answerReq k .rd d = sendMsg (.none k .e) d := by
  simp only [answerReq, hev, Bool.false_eq_true, if_false, h]

/-- OWN and UPG are answered alike. -/
theorem answerReq_exclusive (hr : r ≠ .rd) (hev : evictOut d k = false) :
    answerReq k r d = answerReq.exclusive k d (cohOf d k) (((findLine d (isTable k)).map (·.recs)).getD [])
      (((findLine d (isTable k)).map (·.poison)).getD 0) := by
  cases r with
  | rd => exact absurd rfl hr
  | own => simp only [answerReq, hev, Bool.false_eq_true, if_false]
  | upg => simp only [answerReq, hev, Bool.false_eq_true, if_false]

theorem answerReq_exclusive_m (hr : r ≠ .rd) (hev : evictOut d k = false) (h : cohOf d k = .m) :
    answerReq k r d = setCoh k .i (sendMsg (dataOf d k .m) d) := by
  have hm : cohOf d k ≠ .i := by rw [h]; decide
  rw [answerReq_exclusive hr hev, recs_of_held hm, poison_of_held hm, h]
  rfl

/-- An exclusive request for a line that is not in M is answered with NONE, and the line is given up. -/
theorem answerReq_exclusive_replied (hr : r ≠ .rd) (hlive : d.lath.live = true) (hev : evictOut d k = false) (h : cohOf d k ≠ .m) :
    Replied (.none k .m) k .i d (answerReq k r d) := by
  rw [answerReq_exclusive hr hev]
  cases hc : cohOf d k with
  | m => exact absurd hc h
  | e => exact (replied_sendMsg hlive hc).givenUp
  | s => exact (replied_sendMsg hlive hc).givenUp
  | i => exact replied_sendMsg hlive hc

/-! ### A request arrives -/

/-- A request of the peer for table line `k` is answered at once (R248, R249, R255). -/
structure AnsweredAtOnce (k : Nat) (d : Device) : Prop where
  live : d.lath.live = true
  mode : d.gen.mode = .topcoat
  lt : k < 16
  idle : tableBusy d k = false
  first : requestOut d k = false ∨ twinId d = 1

theorem takeRequest_answers (hmode : d.gen.mode = .topcoat) (hk : k < 16) (hb : tableBusy d k = false)
    (hfirst : requestOut d k = false ∨ twinId d = 1) : takeRequest k r d = answerReq k r d := by
  have hnow : (requestOut d k && decide (twinId d = 0)) = false := by
    obtain h | h := hfirst
    · rw [h, Bool.false_and]
    · rw [h]; simp
  have hin : (!inTopcoat d || decide (16 ≤ k)) = false := by
    rw [inTopcoat_of_mode hmode, decide_eq_false (Nat.not_le.2 hk)]
    rfl
  rw [takeRequest, hin, hb, hnow]
  rfl

theorem crossWires_strap : (crossWires m cr d).lath.strap = d.lath.strap := by
  unfold crossWires
  dsimp only
  split <;> rfl

theorem raiseArb_strap : (raiseArb d).lath.strap = d.lath.strap := by
  unfold raiseArb
  split <;> rfl

theorem twinId_arrived : twinId (arrived cr m d) = twinId d := by
  have hc : (credited cr m d).lath.strap = d.lath.strap := crossWires_strap (cr := cr)
  have ha : (arrived cr m d).lath.strap = d.lath.strap := by
    unfold arrived
    split
    · exact hc
    · rw [raiseArb_strap, hc]
  rw [twinId, ha, twinId]

/-- A request that is answered at once completes with the answer and its slot freed. -/
theorem completes_request {P : Device → Prop} (h : AnsweredAtOnce k s.dev) (he : exec i s = effect s (receive cr m (takeRequest k r)))
    (p : P (freeSlot (isDataMsg m) (answerReq k r (arrived cr m s.dev)))) : Completes i s P := by
  refine completes_receive he h.live ?_
  rw [takeRequest_answers (by rw [arrived_gen, h.mode]) h.lt (by rw [tableBusy_congr arrived_cch, h.idle])
    (by rw [requestOut_congr arrived_cch, twinId_arrived]; exact h.first)]
  exact p

theorem exec_rd : exec (.rd cr k) s = effect s (receive cr (.rd k) (takeRequest k .rd)) := rfl

theorem exec_own : exec (.own cr k) s = effect s (receive cr (.own k) (takeRequest k .own)) := rfl

theorem exec_upg : exec (.upg cr k) s = effect s (receive cr (.upg k) (takeRequest k .upg)) := rfl

/-- An answer to a message without a payload, by which `Replied` holds. -/
theorem replied_received {m' : LathMsg} (hm : msgPayload m = []) (h : Replied m' k c (arrived cr m d) e) :
    m' ∈ (freeSlot (isDataMsg m) e).lath.queue ∧ cohOf (freeSlot (isDataMsg m) e) k = c ∧
      OnlyIn [.lath, .cch] [0xE028] d (freeSlot (isDataMsg m) e) :=
  ⟨queue_subset_freeSlot h.queued, cohOf_freeSlot.trans h.coh,
    OnlyIn.refl.andThen (arrived_onlyIn_of_even (by rw [hm]; rfl)) |>.andThen h.onlyIn |>.andThen freeSlot_onlyIn⟩

theorem dataOf_arrived : dataOf (arrived cr m d) k c = dataOf d k c := by
  rw [dataOf, tableOf_congr arrived_cch, tablePoison_congr arrived_cch, dataOf]

/-! ### The clauses -/

theorem rd_modified (h : AnsweredAtOnce k s.dev) (hev : evictOut s.dev k = false) (hc : cohOf s.dev k = .m) :
    Completes (.rd cr k) s fun d =>
      dataOf s.dev k .s ∈ d.lath.queue ∧ cohOf d k = .s ∧ sget (fun _ => []) d.cch.store k = tableOf s.dev k ∧
      OnlyIn [.lath, .cch] [0xE028] s.dev d := by
  refine completes_request h exec_rd ?_
  have hca : cohOf (arrived cr (.rd k) s.dev) k = .m := cohOf_arrived.trans hc
  have hlive : (arrived cr (.rd k) s.dev).lath.live = true := arrived_live.trans h.live
  rw [answerReq_rd_m (by rw [evictOut_congr arrived_cch, hev]) hca, dataOf_arrived, tableOf_congr arrived_cch]
  obtain ⟨hqueue, hcoh, hframe⟩ :=
    replied_received rfl ((replied_sendMsg hlive hca).storeTable.moved (c' := .s) (by decide) (by decide))
  refine ⟨hqueue, hcoh, ?_, hframe⟩
  rw [freeSlot_cch, setCoh_lines.store, storeTable_store]

theorem rd_exclusive (h : AnsweredAtOnce k s.dev) (hev : evictOut s.dev k = false) (hc : cohOf s.dev k = .e) :
    Completes (.rd cr k) s fun d => LathMsg.none k .s ∈ d.lath.queue ∧ cohOf d k = .s ∧ OnlyIn [.lath, .cch] [0xE028] s.dev d := by
  refine completes_request h exec_rd ?_
  have hca : cohOf (arrived cr (.rd k) s.dev) k = .e := cohOf_arrived.trans hc
  rw [answerReq_rd_e (by rw [evictOut_congr arrived_cch, hev]) hca]
  exact replied_received rfl ((replied_sendMsg (arrived_live.trans h.live) hca).moved (by decide) (by decide))

theorem rd_notHeld (h : AnsweredAtOnce k s.dev) (hev : evictOut s.dev k = false) (hc : cohOf s.dev k = .i) :
    Completes (.rd cr k) s fun d => LathMsg.none k .e ∈ d.lath.queue ∧ OnlyIn [.lath] [0xE028] s.dev d := by
  refine completes_request h exec_rd ?_
  rw [answerReq_rd_i (by rw [evictOut_congr arrived_cch, hev]) (cohOf_arrived.trans hc)]
  exact ⟨queue_subset_freeSlot (mem_sendMsg (arrived_live.trans h.live)),
    OnlyIn.refl.andThen (arrived_onlyIn_of_even rfl) |>.andThen sendMsg_onlyIn |>.andThen freeSlot_onlyIn⟩

theorem own_modified (h : AnsweredAtOnce k s.dev) (hev : evictOut s.dev k = false) (hc : cohOf s.dev k = .m) :
    Completes (.own cr k) s fun d => dataOf s.dev k .m ∈ d.lath.queue ∧ cohOf d k = .i ∧ OnlyIn [.lath, .cch] [0xE028] s.dev d := by
  refine completes_request h exec_own ?_
  have hca : cohOf (arrived cr (.own k) s.dev) k = .m := cohOf_arrived.trans hc
  rw [answerReq_exclusive_m (by decide) (by rw [evictOut_congr arrived_cch, hev]) hca, dataOf_arrived]
  exact replied_received rfl (replied_sendMsg (arrived_live.trans h.live) hca).givenUp

/-- OWN and UPG for a line that is not in M. -/
theorem exclusive_notModified (hr : r ≠ .rd) (hm : msgPayload m = []) (he : exec i s = effect s (receive cr m (takeRequest k r)))
    (h : AnsweredAtOnce k s.dev) (hev : evictOut s.dev k = false) (hc : cohOf s.dev k ≠ .m) :
    Completes i s fun d => LathMsg.none k .m ∈ d.lath.queue ∧ cohOf d k = .i ∧ OnlyIn [.lath, .cch] [0xE028] s.dev d :=
  completes_request h he (replied_received hm (answerReq_exclusive_replied hr (arrived_live.trans h.live)
    (by rw [evictOut_congr arrived_cch, hev]) (cohOf_arrived.trans_ne hc)))

/-- A notice that crosses a request for its line is counted and told (R254). -/
theorem crossing_told {b : Bool} (h : OnlyIn [.lath] [0xE028] d e) :
    Raised 116 (freeSlot b (raise 116 (count 0xC110 e))) ∧
      (freeSlot b (raise 116 (count 0xC110 e))).reg 0xC110 = BitVec.ofNat 32 (min 0xFFFFFFFF ((d.reg 0xC110).toNat + 1)) ∧
      OnlyIn (.lath :: interruptParts) [0xE028, 0xC110, 0x4540] d (freeSlot b (raise 116 (count 0xC110 e))) := by
  refine ⟨(raised_raise 116 _).andThen freeSlot_onlyIn, ?_,
    OnlyIn.refl.andThen h |>.andThen count_onlyIn |>.andThen raise_onlyIn |>.andThen freeSlot_onlyIn⟩
  rw [freeSlot_onlyIn.2 _ (by decide), raise_reg _ _ _ (by decide), count_reg, if_pos rfl, h.2 _ (by decide)]

/-- While a notice is out for the line, any request for it is answered with EVICTING (R254). -/
theorem request_evicting (hm : msgPayload m = []) (he : exec i s = effect s (receive cr m (takeRequest k r)))
    (h : AnsweredAtOnce k s.dev) (hev : evictOut s.dev k = true) :
    Completes i s fun d =>
      LathMsg.evicting k ∈ d.lath.queue ∧ Raised 116 d ∧
      d.reg 0xC110 = BitVec.ofNat 32 (min 0xFFFFFFFF ((s.dev.reg 0xC110).toNat + 1)) ∧
      OnlyIn (.lath :: interruptParts) [0xE028, 0xC110, 0x4540] s.dev d := by
  refine completes_request h he ?_
  rw [answerReq_evictOut (by rw [evictOut_congr arrived_cch, hev])]
  refine ⟨queue_subset_freeSlot ?_, crossing_told ((arrived_onlyIn_of_even (by rw [hm]; rfl)).andThen sendMsg_onlyIn)⟩
  rw [raise_lath]
  exact mem_sendMsg (arrived_live.trans h.live)

theorem requests_evicting (h : AnsweredAtOnce k s.dev) (c : Instr) (hc : c ∈ [Instr.rd cr k, .own cr k, .upg cr k])
    (hev : evictOut s.dev k = true) :
    Completes c s fun d =>
      LathMsg.evicting k ∈ d.lath.queue ∧ Raised 116 d ∧
      d.reg 0xC110 = BitVec.ofNat 32 (min 0xFFFFFFFF ((s.dev.reg 0xC110).toNat + 1)) ∧
      OnlyIn (.lath :: interruptParts) [0xE028, 0xC110, 0x4540] s.dev d := by
  simp only [List.mem_cons, List.not_mem_nil, or_false] at hc
  obtain rfl | rfl | rfl := hc
  · exact request_evicting rfl exec_rd h hev
  · exact request_evicting rfl exec_own h hev
  · exact request_evicting rfl exec_upg h hev

end

/-- Settles O23, answer by answer of Table 09-6 for a request that is answered at once. -/
theorem peerRequestsAreAnswered : Obligations.PeerRequestsAreAnswered := by
  intro s cr k hlive hmode hk hbusy hfirst
  have h : AnsweredAtOnce k s.dev := ⟨hlive, hmode, hk, hbusy, hfirst⟩
  exact ⟨rd_modified h, rd_exclusive h, rd_notHeld h, own_modified h, exclusive_notModified (by decide) rfl exec_own h,
    exclusive_notModified (by decide) rfl exec_upg h, requests_evicting h⟩

end Sys2Proof.Machine
end

section
/-!
PROOFS. The peer's answers and notices for table lines: a granted line, EVICTING, and what a notice or a write-back leaves.
-/

namespace Sys2Proof.Machine

section
variable {s : State} {d e : Device} {cr : Credits} {i : Instr} {k : Nat} {c : Coh} {m : LathMsg} {recs : TableRecs} {poison : BitVec 32}

/-! ### The payload of a table line (R185) -/

theorem length_leBytes {n v : Nat} : (leBytes n v).length = n := by rw [leBytes, List.length_map, List.length_range]

theorem length_beBytes {n v : Nat} : (beBytes n v).length = n := by rw [beBytes, List.length_reverse, length_leBytes]

theorem length_streamBytes {r : StreamRec} : (streamBytes r).length = 128 := by
  simp only [streamBytes, List.length_append, length_leBytes, length_beBytes, List.length_replicate]

theorem length_lineBytes : (lineBytes recs).length = 4096 := by
  simp only [lineBytes, List.length_flatMap, length_streamBytes, List.map_const', List.length_range, List.sum_replicate_nat]

/-- The payload of a table line fills whole tokens. -/
theorem even_lineBytes : (lineBytes recs).length % 2 = 0 := by rw [length_lineBytes]

/-! ### A granted line (R248) -/

/-- What waits does so in the record layer, the owner operations and the cache alone. -/
theorem NothingWaits.of_parts (h : NothingWaits d) (hrcl : e.rcl = d.rcl) (hcry : e.cry = d.cry) (hrange : e.cch.range = d.cch.range)
    (hdeferred : e.cch.deferred = d.cch.deferred) : NothingWaits e := by
  rw [NothingWaits, hrcl, hcry, hrange, hdeferred]
  exact h

theorem pumpAll_of_nothingWaits (h : NothingWaits d) : pumpAll d = d := by
  obtain ⟨ht, hg, ho, -, -⟩ := h
  exact pumpAll_idle ht hg ho

theorem zeroGranted_of_idle (h : d.cch.range = none) : zeroGranted k d = d := by rw [zeroGranted, h]

theorem cleanAcked_of_idle (h : d.cch.range = none) : cleanAcked k d = d := by rw [cleanAcked, h]

theorem answerDeferred_of_none (h : d.cch.deferred = []) : answerDeferred k d = d := by
  rw [answerDeferred, h, List.filter_nil, List.foldl_nil, updCache, h, List.filter_nil, ← h]

/-- The request for table line `k` is no longer outstanding. -/
def answered (k : Nat) (d : Device) : Device := updCache (fun x => { x with requests := sset (fun _ => none) k none x.requests }) d

/-- The request for table line `k` is answered, and the held line takes the state and the records that came. -/
def granted (k : Nat) (c : Coh) (recs : TableRecs) (poison : BitVec 32) (d : Device) : Device :=
  mapLines (isTable k) (fun l => { l with coh := c, recs := recs, poison := poison }) (answered k d)

theorem granted_lines : LinesChanged (answered k d) (granted k c recs poison d) := mapLines_lines

theorem granted_onlyIn : OnlyIn [.cch] [] d (granted k c recs poison d) := updCache_onlyIn.trans granted_lines.onlyIn

theorem findLine_answered : findLine (answered k d) (isTable k) = findLine d (isTable k) := findLine_congr rfl rfl

theorem findLine_granted {l : Line} (h : findLine d (isTable k) = some l) :
    findLine (granted k c recs poison d) (isTable k) = some { l with coh := c, recs := recs, poison := poison } := by
  rw [granted, findLine_mapTable (f := fun l => { l with coh := c, recs := recs, poison := poison }) fun _ => rfl,
    findLine_answered, h, Option.map_some]

/-- With nothing else waiting, a line that is held is granted, and the commands that waited for it run again. -/
theorem lineArrives_held (hw : NothingWaits d) (hl : (findLine d (isTable k)).isSome = true) :
    lineArrives k c recs poison d = wakeLine k (granted k c recs poison d) := by
  have hframe : OnlyIn [.cch, .hif] [] d (wakeLine k (granted k c recs poison d)) :=
    OnlyIn.refl.andThen granted_onlyIn |>.andThen wakeLine_onlyIn
  have hgranted : NothingWaits (wakeLine k (granted k c recs poison d)) :=
    hw.of_parts (hframe.1 .rcl (by decide)) (hframe.1 .cry (by decide)) (by rw [wakeLine_cch, granted_lines.range]; rfl)
      (by rw [wakeLine_cch, granted_lines.deferred]; rfl)
  have hgrant : grantLine k c recs poison d = answerDeferred k (wakeLine k (granted k c recs poison d)) := by
    have hla : (findLine (answered k d) (isTable k)).isSome = true := by rw [findLine_answered, hl]
    rw [grantLine]
    exact congrArg (fun e => answerDeferred k (wakeLine k e)) (if_pos hla)
  obtain ⟨-, -, -, hrange, hdeferred⟩ := id hgranted
  rw [lineArrives, hgrant, answerDeferred_of_none hdeferred, zeroGranted_of_idle hrange, pumpAll_of_nothingWaits hgranted]

/-- Table line `k` is held in state `c` with the records and the poison given, and no request for it is outstanding. -/
structure HeldAs (k : Nat) (c : Coh) (recs : TableRecs) (poison : BitVec 32) (d : Device) : Prop where
  request : requestOut d k = false
  coh : cohOf d k = c
  recs : tableOf d k = recs
  poison : tablePoison d k = poison

theorem HeldAs.of_cch (h : HeldAs k c recs poison d) (g : e.cch = d.cch) : HeldAs k c recs poison e where
  request := (requestOut_congr g).trans h.request
  coh := (cohOf_congr (congrArg _ g) (congrArg _ g)).trans h.coh
  recs := (tableOf_congr g).trans h.recs
  poison := (tablePoison_congr g).trans h.poison

theorem granted_heldAs (hl : (findLine d (isTable k)).isSome = true) : HeldAs k c recs poison (granted k c recs poison d) := by
  obtain ⟨l, hl⟩ := Option.isSome_iff_exists.1 hl
  have hfound := findLine_granted (c := c) (recs := recs) (poison := poison) hl
  refine ⟨?_, cohOf_of_findLine hfound, tableOf_of_findLine hfound, tablePoison_of_findLine hfound⟩
  rw [requestOut, granted_lines.requests, answered, updCache_cch, sget_sset_self]
  rfl

theorem NothingWaits.arrived (h : NothingWaits d) : NothingWaits (arrived cr m d) :=
  h.of_parts (arrived_onlyIn.1 .rcl (by decide)) arrived_cry (by rw [arrived_cch]) (by rw [arrived_cch])

theorem NothingWaits.storeTable (h : NothingWaits d) : NothingWaits (storeTable k recs poison d) := h.of_parts rfl rfl rfl rfl

theorem exec_data : exec (.data cr k c recs poison) s = effect s (receive cr (.data k c recs poison) (takeData k c recs poison)) := rfl

theorem exec_none : exec (.none cr k c) s = effect s (receive cr (.none k c) (takeNone k c)) := rfl

theorem data_grants (hlive : s.dev.lath.live = true) (hreq : requestOut s.dev k = true) (hw : NothingWaits s.dev)
    (hl : (findLine s.dev (isTable k)).isSome = true) :
    Completes (.data cr k c recs poison) s fun d =>
      requestOut d k = false ∧ cohOf d k = c ∧ tableOf d k = recs ∧ tablePoison d k = poison ∧
      sget (fun _ => []) d.cch.store k = recs := by
  refine completes_receive exec_data hlive ?_
  generalize ha : arrived cr (.data k c recs poison) s.dev = a
  have hcch : a.cch = s.dev.cch := by rw [← ha, arrived_cch]
  have hwa : NothingWaits (storeTable k recs poison a) := by rw [← ha]; exact hw.arrived.storeTable
  have hla : (findLine (storeTable k recs poison a) (isTable k)).isSome = true := by
    rw [findLine_storeTable, findLine_congr (congrArg _ hcch) (congrArg _ hcch), hl]
  rw [takeData, requestOut_congr hcch, hreq, if_pos rfl, lineArrives_held hwa hla]
  obtain ⟨hrequest, hcoh, hrecs, hpoison⟩ := (granted_heldAs (c := c) (recs := recs) (poison := poison) hla).of_cch
    (freeSlot_cch.trans wakeLine_cch)
  refine ⟨hrequest, hcoh, hrecs, hpoison, ?_⟩
  rw [freeSlot_cch, wakeLine_cch, granted_lines.store, answered, updCache_cch, storeTable_store]

theorem none_grants (hlive : s.dev.lath.live = true) (hreq : requestOut s.dev k = true) (hw : NothingWaits s.dev)
    (hl : (findLine s.dev (isTable k)).isSome = true) :
    Completes (.none cr k c) s fun d =>
      requestOut d k = false ∧ cohOf d k = c ∧ tableOf d k = tableOf s.dev k ∧ tablePoison d k = tablePoison s.dev k := by
  refine completes_receive exec_none hlive ?_
  generalize ha : arrived cr (.none k c) s.dev = a
  have hcch : a.cch = s.dev.cch := by rw [← ha, arrived_cch]
  have hwa : NothingWaits a := by rw [← ha]; exact hw.arrived
  have hla : (findLine a (isTable k)).isSome = true := by rw [findLine_congr (congrArg _ hcch) (congrArg _ hcch), hl]
  rw [takeNone, requestOut_congr hcch, hreq, if_pos rfl, tableOf_congr hcch, tablePoison_congr hcch, lineArrives_held hwa hla]
  obtain ⟨hrequest, hcoh, hrecs, hpoison⟩ :=
    (granted_heldAs (c := c) (recs := tableOf s.dev k) (poison := tablePoison s.dev k) hla).of_cch (freeSlot_cch.trans wakeLine_cch)
  exact ⟨hrequest, hcoh, hrecs, hpoison⟩

/-! ### Messages without an effect (R250; log entry 1) -/

/-- A message whose meaning changes nothing is counted and its credits taken, and no more. -/
theorem completes_received {f : Device → Device} (he : exec i s = effect s (receive cr m f)) (hlive : s.dev.lath.live = true)
    (hm : (msgPayload m).length % 2 = 0) (hf : f (arrived cr m s.dev) = arrived cr m s.dev) :
    Completes i s fun d => OnlyIn [.lath] [0xE028] s.dev d :=
  completes_receive he hlive (hf.symm ▸ OnlyIn.refl.andThen (arrived_onlyIn_of_even hm) |>.andThen freeSlot_onlyIn)

theorem data_unasked (hlive : s.dev.lath.live = true) (hreq : requestOut s.dev k = false) :
    Completes (.data cr k c recs poison) s fun d => OnlyIn [.lath] [0xE028] s.dev d :=
  completes_received exec_data hlive even_lineBytes
    (by rw [takeData, requestOut_congr arrived_cch, hreq, if_neg Bool.false_ne_true])

theorem exec_evict : exec (.evict cr k) s = effect s (receive cr (.evict k) (whileTopcoat (takeEvict k))) := rfl

theorem exec_evictD : exec (.evictD cr k recs poison) s =
    effect s (receive cr (.evictD k recs poison) (whileTopcoat (takeEvictD k recs poison))) := rfl

theorem exec_cleanD : exec (.cleanD cr k recs poison) s = effect s (receive cr (.cleanD k recs poison)
    (whileTopcoat fun d => sendMsg (.evictAck k) (storeTable k recs poison d))) := rfl

theorem whileTopcoat_on {f : Device → Device} (h : d.gen.mode = .topcoat) : whileTopcoat f d = f d := if_pos (inTopcoat_of_mode h)

theorem whileTopcoat_off {f : Device → Device} (h : d.gen.mode ≠ .topcoat) : whileTopcoat f d = d :=
  if_neg (Bool.eq_false_iff.1 (inTopcoat_of_not h))

/-- A notice outside Topcoat. -/
theorem notice_ignored {f : Device → Device} (he : exec i s = effect s (receive cr m (whileTopcoat f))) (hlive : s.dev.lath.live = true)
    (hm : (msgPayload m).length % 2 = 0) (hmode : s.dev.gen.mode ≠ .topcoat) :
    Completes i s fun d => OnlyIn [.lath] [0xE028] s.dev d :=
  completes_received he hlive hm (whileTopcoat_off (by rwa [arrived_gen]))

theorem notices_ignored (hlive : s.dev.lath.live = true) (i : Instr)
    (hi : i ∈ [Instr.evict cr k, .evictD cr k recs poison, .cleanD cr k recs poison]) (hmode : s.dev.gen.mode ≠ .topcoat) :
    Completes i s fun d => OnlyIn [.lath] [0xE028] s.dev d := by
  simp only [List.mem_cons, List.not_mem_nil, or_false] at hi
  obtain rfl | rfl | rfl := hi
  · exact notice_ignored exec_evict hlive rfl hmode
  · exact notice_ignored exec_evictD hlive even_lineBytes hmode
  · exact notice_ignored exec_cleanD hlive even_lineBytes hmode

/-! ### Notices and write-backs in Topcoat (R240, R248) -/

theorem evict_acknowledged (hlive : s.dev.lath.live = true) (hreq : requestOut s.dev k = false) (hmode : s.dev.gen.mode = .topcoat) :
    Completes (.evict cr k) s fun d => LathMsg.evictAck k ∈ d.lath.queue ∧ OnlyIn [.lath] [0xE028] s.dev d := by
  refine completes_receive exec_evict hlive ?_
  rw [whileTopcoat_on (by rwa [arrived_gen]), takeEvict, requestOut_congr arrived_cch, hreq, if_neg Bool.false_ne_true]
  exact ⟨queue_subset_freeSlot (mem_sendMsg (arrived_live.trans hlive)),
    OnlyIn.refl.andThen (arrived_onlyIn_of_even rfl) |>.andThen sendMsg_onlyIn |>.andThen freeSlot_onlyIn⟩

/-- Lines that come with a notice or a write-back go to the table store alone, and are acknowledged. -/
theorem completes_stored {f : Device → Device} (he : exec i s = effect s (receive cr m (whileTopcoat f)))
    (hm : (msgPayload m).length % 2 = 0) (hlive : s.dev.lath.live = true) (hmode : s.dev.gen.mode = .topcoat)
    (hf : f (arrived cr m s.dev) = sendMsg (.evictAck k) (storeTable k recs poison (arrived cr m s.dev))) :
    Completes i s fun d =>
      LathMsg.evictAck k ∈ d.lath.queue ∧ sget (fun _ => []) d.cch.store k = recs ∧
      sget (fun _ => 0) d.cch.storePoison k = poison ∧ d.cch.main = s.dev.cch.main ∧ d.cch.victim = s.dev.cch.victim ∧
      OnlyIn [.lath, .cch] [0xE028] s.dev d := by
  refine completes_receive he hlive ?_
  rw [whileTopcoat_on (by rwa [arrived_gen]), hf]
  refine ⟨queue_subset_freeSlot (mem_sendMsg (arrived_live.trans hlive)), ?_, ?_, ?_, ?_, OnlyIn.refl.andThen (arrived_onlyIn_of_even hm)
    |>.andThen storeTable_onlyIn |>.andThen sendMsg_onlyIn |>.andThen freeSlot_onlyIn⟩
  · rw [freeSlot_cch, sendMsg_cch, storeTable_store]
  · rw [freeSlot_cch, sendMsg_cch, storeTable_storePoison]
  · rw [freeSlot_cch, sendMsg_cch, storeTable, updCache_cch, arrived_cch]
  · rw [freeSlot_cch, sendMsg_cch, storeTable, updCache_cch, arrived_cch]

theorem takeEvictD_unasked (h : requestOut d k = false) :
    takeEvictD k recs poison d = sendMsg (.evictAck k) (storeTable k recs poison d) := by
  rw [takeEvictD, h, if_neg Bool.false_ne_true]

/-! ### EVICTING and EVICT_ACK (R240, R254) -/

theorem exec_evicting : exec (.evicting cr k) s = effect s (receive cr (.evicting k) fun d =>
    onlyIf (requestOut d k) (fun d => raise 116 (count 0xC110 d)) d) := rfl

theorem evicting_counted (hlive : s.dev.lath.live = true) (hreq : requestOut s.dev k = true) :
    Completes (.evicting cr k) s fun d =>
      requestOut d k = true ∧ Raised 116 d ∧
      d.reg 0xC110 = BitVec.ofNat 32 (min 0xFFFFFFFF ((s.dev.reg 0xC110).toNat + 1)) ∧
      OnlyIn (.lath :: interruptParts) [0xE028, 0xC110, 0x4540] s.dev d := by
  refine completes_receive exec_evicting hlive ?_
  rw [requestOut_congr arrived_cch, hreq, onlyIf_true]
  refine ⟨?_, crossing_told (arrived_onlyIn_of_even rfl)⟩
  rw [requestOut_congr (d := s.dev) (by rw [freeSlot_cch, raise_cch, count_cch, arrived_cch]), hreq]

theorem exec_evictAck : exec (.evictAck cr k) s = effect s (receive cr (.evictAck k) (takeEvictAck k)) := rfl

/-- With nothing else waiting, the notice is no longer outstanding, and the commands that waited for the line run again. -/
theorem takeEvictAck_of_nothingWaits (h : NothingWaits d) :
    takeEvictAck k d = wakeLine k (updCache (fun c => { c with notices := c.notices.erase k }) d) := by
  obtain ⟨-, -, -, hrange, -⟩ := id h
  have hr : (updCache (fun c => { c with notices := c.notices.erase k }) d).cch.range = none := hrange
  rw [takeEvictAck, cleanAcked_of_idle hr, zeroGranted_of_idle hr]
  exact pumpAll_of_nothingWaits (h.of_parts rfl rfl rfl rfl)

theorem evictAck_completes (hlive : s.dev.lath.live = true) (hw : NothingWaits s.dev) :
    Completes (.evictAck cr k) s fun d =>
      d.cch = { s.dev.cch with notices := s.dev.cch.notices.erase k } ∧ OnlyIn [.lath, .cch, .hif] [0xE028] s.dev d := by
  refine completes_receive exec_evictAck hlive ?_
  rw [takeEvictAck_of_nothingWaits hw.arrived]
  refine ⟨?_, OnlyIn.refl.andThen (arrived_onlyIn_of_even rfl) |>.andThen updCache_onlyIn |>.andThen wakeLine_onlyIn
    |>.andThen freeSlot_onlyIn⟩
  rw [freeSlot_cch, wakeLine_cch, updCache_cch, arrived_cch]

end

/-- Settles O24: EVICTING, the answers DATA and NONE, the peer's notices and write-backs in Topcoat and outside it, and EVICT_ACK. -/
theorem peerAnswersAndNoticesTakeEffect : Obligations.PeerAnswersAndNoticesTakeEffect := fun _ _ _ _ _ _ hlive =>
  ⟨evicting_counted hlive, data_grants hlive, none_grants hlive, data_unasked hlive, evict_acknowledged hlive,
    fun hreq hmode => completes_stored exec_evictD even_lineBytes hlive hmode
      (takeEvictD_unasked ((requestOut_congr arrived_cch).trans hreq)),
    fun hmode => completes_stored exec_cleanD even_lineBytes hlive hmode rfl, notices_ignored hlive, evictAck_completes hlive⟩

end Sys2Proof.Machine
end

section
/-!
PROOFS. An error in a sector line whose sector the cache holds at an older pass too.

The error drops the lines of the sector at the line's own pass, and the refill looks the sector up. A line at another pass is still there;
its slot is not ACTIVE, so the lookup invalidates it as stale and counts it in STATS_STALE, at 0xD05C (R214). The fifth clause of O25 holds
that register among those that stay as they were. A write at a new pass would have dropped the older line (R233), but the clause asks this of
no state.
-/

namespace Sys2Proof.Machine

/-- A line of the first sector of layer 0, read at pass `n` for slot 0. -/
def firstSectorLine (n : Nat) : Line := { valid := true, pass := n }

/-- Slot 0 is EMPTY, as at reset, and the cache holds the first sector at two passes. -/
def twoPassesHeld : State := { pending := [], dev := { cch := { main := [(0, firstSectorLine 2), (1, firstSectorLine 1)] } } }

theorem exec_cacheSramError {s : State} {i : Nat} {records : BitVec 32} :
    exec (.cacheSramError i records) s = effect s (sramError i records) := rfl

/-- The refill of line 0 finds line 1 stale, and counts it. -/
theorem sramError_countsStale : (sramError 0 0 twoPassesHeld.dev).reg 0xD05C = 1 := by decide +kernel

/-- Refutes O25: an error in line 0 of `twoPassesHeld` counts the stale line 1 in STATS_STALE, which its clause on a sector line
does not let change. -/
theorem not_cacheLinesAgeFillAndFail : ¬ Obligations.CacheLinesAgeFillAndFail := by
  rintro ⟨-, -, -, -, hsector, -⟩
  obtain ⟨t, ht, -, -, -, -, -, hregs⟩ := hsector twoPassesHeld 0 0 (by decide) rfl rfl
  rw [exec_cacheSramError, effect_next] at ht
  obtain rfl := Host.Outcome.next.inj ht
  have hkept := hregs 0xD05C (by decide)
  dsimp only at hkept
  rw [sramError_countsStale] at hkept
  exact absurd hkept (by decide)

end Sys2Proof.Machine
end

section
/-!
PROOFS. A KEY_XFER whose record is that of an EMPTY or DESTROYED slot.
-/

namespace Sys2Proof.Machine

section
variable {s : State} {d : Device} {cr : Credits} {n : Nat} {erased : Bool}

/-- A record of an EMPTY or DESTROYED slot concerns an UNAVAILABLE slot alone (R207). -/
theorem takeKey_bare (h : (d.slot n).st ≠ .unavailable) : takeKey n (bareRecord erased) d = d := by
  have hbare : (bareRecord erased).state = 0xFFFFFFFF ∨ (bareRecord erased).state = 0 := by cases erased <;> simp [bareRecord]
  simp only [takeKey, Bool.or_eq_true, decide_eq_true_eq, hbare, if_true, h, decide_false, Bool.and_false, Bool.false_and,
    Bool.false_eq_true, if_false]

theorem exec_keyXfer {r : SlotRecord} : exec (.keyXfer cr n r) s = effect s (receive cr (.keyXfer n r) (takeKey n r)) := rfl

theorem slot_congr {e : Device} (h : e.cry = d.cry) : e.slot n = d.slot n := by rw [Device.slot, h, Device.slot]

/-- At a twin whose slot is not UNAVAILABLE, such a record starts no operation. -/
theorem keyXfer_bare (hlive : s.dev.lath.live = true) (h : (s.dev.slot n).st ≠ .unavailable) :
    Completes (.keyXfer cr n (bareRecord erased)) s fun d => d.cry = s.dev.cry := by
  refine completes_receive exec_keyXfer hlive ?_
  rw [takeKey_bare (by rwa [slot_congr arrived_cry]), freeSlot_cry, arrived_cry]

end

/-- A live twin in Dust Sheet with a pair key, whose slots are all EMPTY. -/
def slotsEmpty : State :=
  { pending := [], dev := { lath := { live := true }, gen := { mode := .dustSheet }, cry := { pairKey := some 0 } } }

/-- Refutes O20: every KEY_XFER to an EMPTY slot is to begin its installation, but the peer also tells of its own EMPTY slots by KEY_XFER,
and the record of one leaves slot 1 of `slotsEmpty` idle. -/
theorem not_messagesCountAndOwnerExchangesActOnce : ¬ Obligations.MessagesCountAndOwnerExchangesActOnce := by
  rintro ⟨-, -, -, -, hkey, -⟩
  obtain ⟨t, ht, -, hbusy, -⟩ :=
    hkey slotsEmpty ⟨0, 0⟩ 1 (bareRecord true) rfl (by decide) rfl rfl (by decide) rfl rfl rfl
  obtain ⟨u, hu, -, hcry⟩ := keyXfer_bare (s := slotsEmpty) (cr := ⟨0, 0⟩) (n := 1) (erased := true) rfl (by decide)
  obtain rfl := Host.Outcome.next.inj (ht.symm.trans hu)
  rw [slot_congr hcry] at hbusy
  exact Bool.noConfusion hbusy

end Sys2Proof.Machine
end

section
/-!
PROOFS. A chain value that was asked for twice: once to take it over, and once to compare it.
-/

namespace Sys2Proof.Machine

theorem exec_chainVal {s : State} {cr : Credits} {mark : Nat} {h : BitVec 128} :
    exec (.chainVal cr mark h) s = effect s (receive cr (.chainVal mark h) (takeChain mark h)) := rfl

/-- Stream 0 with records 0 and 1 committed, of which the index does not tell; the peer's chain value at its record 1 has been asked for
twice. -/
def askedTwice : State :=
  { pending := []
    dev := {
      gen := { mode := .undercoat }
      lath := { live := true, chainAsked := [(markOf 0 1, .adopt), (markOf 0 1, .compare)] }
      cch := { main := [(0, { valid := true, table := true, coh := .m, recs := [(0, { st := .open, head := 2 })] })] } } }

/-- The device that the value 1 leaves. -/
def afterChainVal : Device := receive ⟨0, 0⟩ (.chainVal (markOf 0 1) 1) (takeChain (markOf 0 1) 1) askedTwice.dev

/-- The comparison begins a search, and the stream's chain is as it was. -/
theorem afterChainVal_searches :
    afterChainVal.rcl.searches.map (·.why) = [.chainVal (markOf 0 1) 1] ∧ (streamRec afterChainVal 0).chain = 0 := by
  decide +kernel

/-- Refutes O29: the peer's chain value is to be taken over at once when the first to ask for it took it over, but in `askedTwice` a
comparison asks for it too, and the value waits for a search. -/
theorem not_catchUpRecoveryAndDetach : ¬ Obligations.CatchUpRecoveryAndDetach := by
  rintro ⟨-, -, -, -, hadopt, -⟩
  obtain ⟨t, ht, -, hchain, -⟩ :=
    hadopt askedTwice ⟨0, 0⟩ (markOf 0 1) 1 rfl (by decide) rfl rfl (by decide) (by decide)
  rw [exec_chainVal, effect_next] at ht
  obtain rfl := Host.Outcome.next.inj ht
  have hkept : (streamRec afterChainVal (markStream (markOf 0 1))).chain = 0 := afterChainVal_searches.2
  exact absurd (hkept.symm.trans hchain) (by decide)

end Sys2Proof.Machine
end

section
/-!
PROOFS. ENTER_DUST_SHEET in Primer, which a power-on reset alone leaves.
-/

namespace Sys2Proof.Machine

/-- ENTER_DUST_SHEET, dispatched and already started, so that the mode is not asked again (R335). -/
def enterStarted : Cmd :=
  { tag := 0, sq := 0, index := 0, entry := 0x50 :: List.replicate 23 0 ++ [1] ++ List.replicate 39 0, phase := .dispatched
    started := true, ovr := false, owner := 0, sgl := [], group := none, payload := [], poisoned := false, records := 0, discard := false }

/-- Primer with its medium served, and `enterStarted` in flight. -/
def enterInPrimer : State :=
  { pending := []
    dev := {
      gen := { mode := .primer }
      wrc := { ilk := true, ilkBlocked := false }
      nv := { calibration := some { saved := [], strat := [], laserMax := 0, laserSeconds := 0, revolutions := 0 } }
      hif := { cmds := [enterStarted] } } }

theorem enterInPrimer_dispatched : Dispatched enterInPrimer.dev 0 enterStarted := ⟨rfl, rfl, rfl, by decide⟩

theorem enterInPrimer_cleared : Cleared enterStarted enterInPrimer.dev enterInPrimer.dev :=
  ⟨⟨by decide, .inl rfl, rfl⟩, by decide, by decide⟩

theorem exec_enterDustSheet {s : State} {tag : Nat} : exec (.enterDustSheet tag) s = effect s (runSub tag 0x50 1 runEnter) := rfl

/-- The command runs, and Primer stays (R405). -/
theorem enterInPrimer_stays : (runSub 0 0x50 1 runEnter enterInPrimer.dev).gen.mode = .primer := by decide +kernel

/-- Refutes O37: ENTER_DUST_SHEET that passes its checks is to enter Dust Sheet, but a started command passes them in any mode, and
`enterInPrimer` stays in Primer. -/
theorem not_modeRequestsTakeEffect : ¬ Obligations.ModeRequestsTakeEffect := by
  rintro ⟨henter, -⟩
  obtain ⟨t, ht, -, hmode, -⟩ := henter enterInPrimer 0 enterStarted enterInPrimer_dispatched rfl rfl enterInPrimer_cleared rfl
  rw [exec_enterDustSheet, effect_next] at ht
  obtain rfl := Host.Outcome.next.inj ht
  exact Mode.noConfusion (enterInPrimer_stays.symm.trans hmode)

end Sys2Proof.Machine
end

section
/-!
PROOFS. What the settling of groups, reads, owner operations and boot commands leaves of the Lath as it was, when Topcoat or the Lath is
lost: whether it is live, its pause, the mode, the counters of lost links, and every detection.

The lemmas `Stands.f` say that the Lath still stands so after the operation `f`, so that a chain `h.f.g` follows the operations `g (f d)`.
-/

namespace Sys2Proof.Machine

set_option Elab.async false

/-- LATH_LINK_ERROR's counter and LATH_DOWN's (R258, R269). -/
def lossCounters : List Nat := [0xE02C, 0xE030]

/-- From `d` to `e` the Lath is as live and as paused as it was, the mode and the counters of its losses stand, and no detection is taken
back. -/
structure Stands (d e : Device) : Prop where
  live : e.lath.live = d.lath.live
  pause : e.lath.pauseUntil = d.lath.pauseUntil
  mode : e.gen.mode = d.gen.mode
  losses : ∀ o ∈ lossCounters, e.reg o = d.reg o
  raised : ∀ n, Raised n d → Raised n e

section
variable {d₀ d e : Device}

protected theorem Stands.refl : Stands d d := ⟨rfl, rfl, rfl, fun _ _ => rfl, fun _ h => h⟩

protected theorem Stands.trans (h : Stands d₀ d) (g : Stands d e) : Stands d₀ e where
  live := g.live.trans h.live
  pause := g.pause.trans h.pause
  mode := g.mode.trans h.mode
  losses o ho := (g.losses o ho).trans (h.losses o ho)
  raised n := g.raised n ∘ h.raised n

/-- A change of other fields than the relation speaks of. -/
protected theorem Stands.edit (h : Stands d₀ d) (live : e.lath.live = d.lath.live := by rfl)
    (pause : e.lath.pauseUntil = d.lath.pauseUntil := by rfl) (mode : e.gen.mode = d.gen.mode := by rfl)
    (regs : e.regs = d.regs := by rfl) (icu : e.icu = d.icu := by rfl) : Stands d₀ e :=
  h.trans ⟨live, pause, mode, fun _ _ => by rw [Device.reg, regs, Device.reg], fun _ w => w.of_icu icu⟩

protected theorem Stands.raise {k : Nat} (h : Stands d₀ d) : Stands d₀ (raise k d) where
  live := by rw [raise_lath, h.live]
  pause := by rw [raise_lath, h.pause]
  mode := by rw [raise_gen, h.mode]
  losses o ho := by rw [raise_reg k d o (by rintro rfl; revert ho; decide), h.losses o ho]
  raised n w := (h.raised n w).raise k

/-! ### Ways to go on -/

protected theorem Stands.andThen (h : Stands d₀ d) (g : Stands d₀ d → Stands d₀ e) : Stands d₀ e := g h

protected theorem Stands.ite {c : Prop} [Decidable c] (h : Stands d₀ d) (g : Stands d₀ e) : Stands d₀ (if c then d else e) := by
  split
  · exact h
  · exact g

protected theorem Stands.when {c : Prop} [Decidable c] (h : Stands d₀ d) (g : Stands d₀ d → Stands d₀ e) :
    Stands d₀ (if c then e else d) := (g h).ite h

protected theorem Stands.unless {c : Prop} [Decidable c] (h : Stands d₀ d) (g : Stands d₀ d → Stands d₀ e) :
    Stands d₀ (if c then d else e) := h.ite (g h)

protected theorem Stands.foldl {α : Type} {f : Device → α → Device} {l : List α} (h : Stands d₀ d)
    (hf : ∀ {d a}, Stands d₀ d → Stands d₀ (f d a)) : Stands d₀ (l.foldl f d) := by
  induction l generalizing d with
  | nil => exact h
  | cons a l ih => exact ih (hf h)

protected theorem Stands.foldlPair {α β : Type} {f : β × Device → α → β × Device} {b : β} {l : List α} (h : Stands d₀ d)
    (hf : ∀ {p a}, Stands d₀ p.2 → Stands d₀ (f p a).2) : Stands d₀ (l.foldl f (b, d)).2 := by
  suffices g : ∀ p : β × Device, Stands d₀ p.2 → Stands d₀ (l.foldl f p).2 from g (b, d) h
  induction l with
  | nil => exact fun _ h => h
  | cons a l ih => exact fun p h => ih _ (hf h)

/-- After what an operation answers beside a value the Lath stands as after the operation. -/
protected theorem Stands.ofPair {β : Type} {p : β × Device} {b : β} (h : Stands d₀ p.2) (e : p = (b, d)) : Stands d₀ d := by
  rwa [e] at h

/-! ### One block changes -/

protected theorem Stands.exc {x : Excursions} (h : Stands d₀ d) : Stands d₀ { d with exc := x } := h.edit
protected theorem Stands.rdc {x : ReadChannel} (h : Stands d₀ d) : Stands d₀ { d with rdc := x } := h.edit
protected theorem Stands.wrc {x : WriteChannel} (h : Stands d₀ d) : Stands d₀ { d with wrc := x } := h.edit
protected theorem Stands.rcl {x : RecordLayer} (h : Stands d₀ d) : Stands d₀ { d with rcl := x } := h.edit
protected theorem Stands.cry {x : Crypto} (h : Stands d₀ d) : Stands d₀ { d with cry := x } := h.edit
protected theorem Stands.cch {x : Machine.Cache} (h : Stands d₀ d) : Stands d₀ { d with cch := x } := h.edit
protected theorem Stands.hif {x : HostIf} (h : Stands d₀ d) : Stands d₀ { d with hif := x } := h.edit
protected theorem Stands.fls {x : Flash} (h : Stands d₀ d) : Stands d₀ { d with fls := x } := h.edit
protected theorem Stands.evt {x : EventLog} (h : Stands d₀ d) : Stands d₀ { d with evt := x } := h.edit
protected theorem Stands.bus {x : Bus} (h : Stands d₀ d) : Stands d₀ { d with bus := x } := h.edit
protected theorem Stands.draws {x : Nat} (h : Stands d₀ d) : Stands d₀ { d with draws := x } := h.edit

protected theorem Stands.updLath {f : Lath → Lath} (h : Stands d₀ d) (live : (f d.lath).live = d.lath.live := by rfl)
    (pause : (f d.lath).pauseUntil = d.lath.pauseUntil := by rfl) : Stands d₀ (updLath f d) := h.edit live pause

protected theorem Stands.setReg {o : Nat} {v : Word32} (h : Stands d₀ d) (ho : o ∉ lossCounters := by decide) :
    Stands d₀ (setReg o v d) :=
  h.trans ⟨rfl, rfl, rfl, fun j hj => setReg_reg_ne o v d j (ne_of_mem_of_not_mem hj ho), fun _ w => w.of_icu rfl⟩

protected theorem Stands.setRegF {o hi lo v : Nat} (h : Stands d₀ d) (ho : o ∉ lossCounters := by decide) :
    Stands d₀ (setRegF o hi lo v d) := h.setReg ho

protected theorem Stands.countN {o n : Nat} (h : Stands d₀ d) (ho : o ∉ lossCounters := by decide) : Stands d₀ (countN o n d) := h.setReg ho

protected theorem Stands.count {o : Nat} (h : Stands d₀ d) (ho : o ∉ lossCounters := by decide) : Stands d₀ (count o d) := h.countN ho

/-! ### Excursions and their log (R46, R51, R52) -/

protected theorem Stands.logExcursion_addEntry {l i : Nat} {v : Word32} (h : Stands d₀ d) :
    Stands d₀ (logExcursion.addEntry l i v d) := by
  unfold logExcursion.addEntry
  exact h.exc

protected theorem Stands.logExcursion {l i : Nat} {v : Word32} (h : Stands d₀ d) : Stands d₀ (logExcursion l i v d) := by
  unfold logExcursion
  split
  · exact h.exc.ite h.logExcursion_addEntry
  · exact h.logExcursion_addEntry

protected theorem Stands.markOverride (h : Stands d₀ d) : Stands d₀ (markOverride d) := h.edit

protected theorem Stands.excBegin {l i : Nat} {v : Word32} (h : Stands d₀ d) : Stands d₀ (excBegin l i v d) := by
  unfold excBegin
  exact h.ite h.exc.logExcursion.exc.markOverride.raise

protected theorem Stands.excReach {l i : Nat} {v : Word32} (h : Stands d₀ d) : Stands d₀ (excReach l i v d) := by
  unfold excReach
  exact h.exc

protected theorem Stands.logLater {tick origin source code : Nat} {detail : List Byte} (h : Stands d₀ d) :
    Stands d₀ (logLater tick origin source code detail d) := by
  unfold logLater
  exact h.ite h.evt

protected theorem Stands.copyClosed {l i : Nat} (h : Stands d₀ d) : Stands d₀ (copyClosed l i d) := by
  unfold copyClosed
  split
  · exact h.ite h.logLater
  · exact h

protected theorem Stands.excEnd {l i : Nat} (h : Stands d₀ d) : Stands d₀ (excEnd l i d) := by
  unfold excEnd
  exact h.exc.copyClosed.ite h

protected theorem Stands.excTake {l i : Nat} {v : Word32} (h : Stands d₀ d) : Stands d₀ (excTake l i v d) := by
  unfold excTake
  exact h.excBegin.excReach

/-! ### Commands and the reads made for them (R310, R315) -/

protected theorem Stands.updCmd {tag : Nat} {f : Cmd → Cmd} (h : Stands d₀ d) : Stands d₀ (updCmd tag f d) := by
  unfold updCmd
  exact h.hif

protected theorem Stands.startCmd {tag : Nat} (h : Stands d₀ d) : Stands d₀ (startCmd tag d) := by
  unfold startCmd
  exact h.updCmd

protected theorem Stands.setPhase {tag : Nat} {p : CmdPhase} (h : Stands d₀ d) : Stands d₀ (setPhase tag p d) := by
  unfold setPhase
  exact h.updCmd

protected theorem Stands.readOver (h : Stands d₀ d) : Stands d₀ (readOver d) := by
  unfold readOver
  exact (h.ite h.excEnd).when fun h => h.rdc.excEnd

protected theorem Stands.dropReads {p : ReadFor → Bool} (h : Stands d₀ d) : Stands d₀ (dropReads p d) := by
  unfold dropReads
  exact h.rdc.readOver.ite h

protected theorem Stands.finishWith {tag st result : Nat} {single : Bool} {mark : Nat} (h : Stands d₀ d) :
    Stands d₀ (finishWith tag st result single mark d) := by
  unfold finishWith
  split
  · exact h
  · refine h.ite (.ite ?_ h.dropReads.setPhase.hif)
    exact h.dropReads.hif.count.raise

protected theorem Stands.finish {tag st : Nat} (h : Stands d₀ d) : Stands d₀ (finish tag st d) :=
  h.finishWith

protected theorem Stands.deliverData {tag off : Nat} {data : List Byte} (h : Stands d₀ d) :
    Stands d₀ (deliverData tag off data d) := by
  unfold deliverData
  split
  · exact h
  · exact h.ite h.bus.startCmd

protected theorem Stands.drawn (h : Stands d₀ d) : Stands d₀ (drawn d) := by
  unfold drawn
  exact h.draws

/-! ### Messages (R260) -/

protected theorem Stands.raiseArb (h : Stands d₀ d) : Stands d₀ (raiseArb d) := by
  unfold raiseArb
  exact h.ite h.updLath

protected theorem Stands.sendMsg {m : LathMsg} (h : Stands d₀ d) : Stands d₀ (sendMsg m d) := by
  unfold sendMsg
  exact h.updLath.raiseArb.ite h

/-! ### The cache and its table lines (R230 to R250) -/

protected theorem Stands.updCache {f : Machine.Cache → Machine.Cache} (h : Stands d₀ d) : Stands d₀ (updCache f d) := by
  unfold updCache
  exact h.cch

protected theorem Stands.putLine {i : Nat} {l : Line} (h : Stands d₀ d) : Stands d₀ (putLine i l d) := by
  unfold putLine
  exact h.updCache

protected theorem Stands.mapLines {p : Line → Bool} {f : Line → Line} (h : Stands d₀ d) : Stands d₀ (mapLines p f d) := by
  unfold mapLines
  exact (h.foldl (fun h => h.putLine.ite h)).updCache

protected theorem Stands.dropLines {p : Line → Bool} (h : Stands d₀ d) : Stands d₀ (dropLines p d) := by
  unfold dropLines
  exact (h.foldl (fun h => h.putLine.ite h)).updCache

protected theorem Stands.storeTable {k : Nat} {recs : TableRecs} {poison : BitVec 32} (h : Stands d₀ d) :
    Stands d₀ (storeTable k recs poison d) := by
  unfold storeTable
  exact h.updCache

protected theorem Stands.access (h : Stands d₀ d) : Stands d₀ (access d) := by
  unfold access
  exact h.updCache

protected theorem Stands.chooseLine {cls : Nat} (h : Stands d₀ d) : Stands d₀ (chooseLine cls d).2 := by
  unfold chooseLine
  split
  · exact h
  · split
    · exact h
    · exact h.setRegF

protected theorem Stands.leaveCache {l : Line} (h : Stands d₀ d) : Stands d₀ (leaveCache l d) := by
  unfold leaveCache
  exact h.count.when fun h => h.storeTable.when (fun h => h.updCache.sendMsg)

protected theorem Stands.pushVictim {l : Line} (h : Stands d₀ d) : Stands d₀ (pushVictim l d) := by
  unfold pushVictim
  split
  · exact h
  · split
    · exact h.updCache
    · split
      · exact h
      · exact h.updCache.leaveCache

protected theorem Stands.replaceLine {i : Nat} {l : Line} (h : Stands d₀ d) : Stands d₀ (replaceLine i l d) :=
  h.putLine.pushVictim

protected theorem Stands.fillLine {l : Line} (h : Stands d₀ d) : Stands d₀ (fillLine l d) := by
  unfold fillLine
  dsimp only
  split
  · exact h.updCache
  · split
    · next e => exact (h.chooseLine.ofPair e).replaceLine
    · next e => exact (h.chooseLine.ofPair e).updCache |>.count |>.raise

protected theorem Stands.swapBack {p : Line → Bool} {l : Line} (h : Stands d₀ d) : Stands d₀ (swapBack p l d) := by
  unfold swapBack
  split
  · next e => exact h.chooseLine.ofPair e
  · next e => exact (h.chooseLine.ofPair e).updCache |>.replaceLine

protected theorem Stands.lookup {p : Line → Bool} (h : Stands d₀ d) : Stands d₀ (lookup p d).2 := by
  unfold lookup
  dsimp only
  split
  · exact h.access.putLine.count
  · split
    · exact h.access.count.swapBack
    · exact h.access.count

protected theorem Stands.fillTable {k : Nat} {c : Coh} (h : Stands d₀ d) : Stands d₀ (fillTable k c d) :=
  h.fillLine

protected theorem Stands.setCoh {k : Nat} {c : Coh} (h : Stands d₀ d) : Stands d₀ (setCoh k c d) := by
  unfold setCoh
  exact h.dropLines.ite h.mapLines

protected theorem Stands.askLine {k : Nat} {exclusive : Bool} (h : Stands d₀ d) : Stands d₀ (askLine k exclusive d) := by
  unfold askLine
  exact h.ite h.updCache.sendMsg

protected theorem Stands.obtainLine {k : Nat} {exclusive : Bool} (h : Stands d₀ d) : Stands d₀ (obtainLine k exclusive d).2 := by
  unfold obtainLine
  split
  next e =>
    replace h := h.lookup.ofPair e
    split
    · split
      · exact h.when .setCoh
      · split
        · exact h.askLine
        · dsimp only
          exact h.setCoh
    · split
      · exact h.askLine
      · exact h.fillTable

protected theorem Stands.updStream {s : Nat} {f : StreamRec → StreamRec} (h : Stands d₀ d) : Stands d₀ (updStream s f d) := by
  unfold updStream
  exact h.mapLines.ite (h.updCache.ite h.updCache)

protected theorem Stands.wakeLine {k : Nat} (h : Stands d₀ d) : Stands d₀ (wakeLine k d) := by
  unfold wakeLine
  exact h.hif

protected theorem Stands.zeroTable {k : Nat} (h : Stands d₀ d) : Stands d₀ (zeroTable k d) := by
  unfold zeroTable
  exact h.mapLines.ite h.fillLine

protected theorem Stands.rangeAlone (h : Stands d₀ d) : Stands d₀ (rangeAlone d) := by
  unfold rangeAlone
  split
  · exact (h.foldl (fun h => h.setCoh.ite h)).updCache
  · exact (h.foldl .zeroTable).updCache
  · exact h

protected theorem Stands.abandonCoherence (h : Stands d₀ d) : Stands d₀ (abandonCoherence d) := by
  unfold abandonCoherence
  exact (h.updCache.rangeAlone.foldl (fun h => h.wakeLine)).when .raise

protected theorem Stands.cleanLines (h : Stands d₀ d) : Stands d₀ (cleanLines d).1 := by
  unfold cleanLines
  exact h.foldl fun h => h.storeTable.updCache.sendMsg.ite h.storeTable.setCoh

protected theorem Stands.startRange_purge {op : RangeOp} (h : Stands d₀ d) : Stands d₀ (startRange.purge op d) := by
  unfold startRange.purge
  exact h.dropLines.updCache

protected theorem Stands.startRange {op : RangeOp} (h : Stands d₀ d) : Stands d₀ (startRange op d) := by
  unfold startRange
  split
  · exact h.startRange_purge
  · exact h.startRange_purge
  · exact h.cleanLines.updCache
  · exact h.askLine.updCache.ite h.zeroTable.updCache

/-! ### The record layer (R173 to R186) -/

protected theorem Stands.updRcl {f : RecordLayer → RecordLayer} (h : Stands d₀ d) : Stands d₀ (updRcl f d) := by
  unfold updRcl
  exact h.rcl

protected theorem Stands.updWrc {f : WriteChannel → WriteChannel} (h : Stands d₀ d) : Stands d₀ (updWrc f d) := by
  unfold updWrc
  exact h.wrc

protected theorem Stands.updRing {o : Nat} {f : Machine.Ring → Machine.Ring} (h : Stands d₀ d) : Stands d₀ (updRing o f d) := by
  unfold updRing
  exact h.updRcl

protected theorem Stands.updGroup {id : Nat} {f : Machine.Group → Machine.Group} (h : Stands d₀ d) :
    Stands d₀ (updGroup id f d) := by
  unfold updGroup
  exact h.updRcl

protected theorem Stands.updSlot {n : Nat} {f : Slot → Slot} (h : Stands d₀ d) : Stands d₀ (updSlot n f d) := by
  unfold updSlot
  exact h.cry

protected theorem Stands.changeStream {s : Nat} {f : StreamRec → StreamRec} (h : Stands d₀ d) :
    Stands d₀ (changeStream s f d).2 := by
  unfold changeStream
  split
  · next e => exact (h.obtainLine.ofPair e).updStream
  · next e => exact h.obtainLine.ofPair e

protected theorem Stands.runTask {t : TableTask} (h : Stands d₀ d) : Stands d₀ (runTask t d) := by
  unfold runTask
  split
  · next e => exact h.changeStream.ofPair e
  · next e => exact (h.changeStream.ofPair e).updRcl

protected theorem Stands.nameNext {o : Nat} (h : Stands d₀ d) : Stands d₀ (nameNext o d) := by
  unfold nameNext
  split
  · exact h.updRing.raise
  · exact h.updRing.updRcl.excTake.ite (h.updRing.updRcl.when .excEnd)

protected theorem Stands.takeId (h : Stands d₀ d) : Stands d₀ (takeId d) := by
  unfold takeId
  exact h.updWrc

protected theorem Stands.queueCluster {c : WriteCluster} (h : Stands d₀ d) : Stands d₀ (queueCluster c d) := by
  unfold queueCluster
  exact h.updWrc

protected theorem Stands.systemCluster {kind : ClusterKind} {data : List Byte} {dir : Sparse DirSlot} {rings : List DirRing}
    (h : Stands d₀ d) :
    Stands d₀ (systemCluster kind data dir rings d).2 := by
  unfold systemCluster
  exact h.updRing.takeId.queueCluster

protected theorem Stands.writeDirectory (h : Stands d₀ d) : Stands d₀ (writeDirectory d).2 := by
  unfold writeDirectory
  exact h.systemCluster

/-! ### Record groups (R180 to R184, R274 to R276) -/

protected theorem Stands.rechain {stream : Nat} (h : Stands d₀ d) : Stands d₀ (rechain stream d) :=
  h.foldlPair fun h => h.edit

protected theorem Stands.addGroup {stream owner first : Nat} {recs : List RecInfo} {bytes : List Byte} {role : GroupRole}
    (h : Stands d₀ d) : Stands d₀ (addGroup stream owner first recs bytes role d).2 := by
  unfold addGroup
  dsimp only
  exact h.updRcl

protected theorem Stands.sendGroup {xid : Nat} {catching : Bool} {mark : Nat} {g : Machine.Group} {bs : List Byte} {poison : BitVec 32}
    (h : Stands d₀ d) :
    Stands d₀ (sendGroup xid catching mark g bs poison d) := by
  unfold sendGroup
  exact h.updGroup.updLath.sendMsg.foldl .sendMsg

protected theorem Stands.pumpMirror {n : Nat} (h : Stands d₀ d) : Stands d₀ (pumpMirror n d) := by
  induction n generalizing d with
  | zero => exact h
  | succ n ih =>
    unfold pumpMirror
    split
    · exact (ih h.sendGroup).ite (ih h.edit.sendGroup)
    · exact h

protected theorem Stands.voidGroup {id : Nat} (h : Stands d₀ d) : Stands d₀ (voidGroup id d) := by
  unfold voidGroup
  split
  · exact h
  · exact h.ite (h.updGroup.when (fun h => h.count.raise.rechain))

protected theorem Stands.completeGroup {g : Machine.Group} (h : Stands d₀ d) : Stands d₀ (completeGroup g d) := by
  unfold completeGroup
  split
  · exact (h.updCmd.ite h).finishWith
  · exact h

protected theorem Stands.notePeerHead {g : Machine.Group} (h : Stands d₀ d) : Stands d₀ (notePeerHead g d) := by
  unfold notePeerHead
  split
  · exact h.updLath
  · exact h

protected theorem Stands.commitGroup {g : Machine.Group} (h : Stands d₀ d) : Stands d₀ (commitGroup g d).2 := by
  unfold commitGroup
  split
  · next e => exact (h.changeStream.ofPair e).updGroup |>.count |>.notePeerHead |>.completeGroup
  · next e => exact h.changeStream.ofPair e

protected theorem Stands.payGroup {g : Machine.Group} (h : Stands d₀ d) : Stands d₀ (payGroup d g) := by
  unfold payGroup
  split
  · exact h.updGroup.finishWith
  · exact h

protected theorem Stands.payOwed (h : Stands d₀ d) : Stands d₀ (payOwed d) := by
  unfold payOwed
  exact h.foldl .payGroup

protected theorem Stands.commitReady {n : Nat} (h : Stands d₀ d) : Stands d₀ (commitReady n d) := by
  induction n generalizing d with
  | zero => exact h.payOwed
  | succ n ih =>
    unfold commitReady
    dsimp only
    split
    · exact h.payOwed
    · split
      · next e => exact ih (h.payOwed.commitGroup.ofPair e)
      · next e => exact h.payOwed.commitGroup.ofPair e

protected theorem Stands.settleGroups (h : Stands d₀ d) : Stands d₀ (settleGroups d) :=
  h.commitReady

/-! ### The key store (R205 to R208) -/

protected theorem Stands.updFls {f : Flash → Flash} (h : Stands d₀ d) : Stands d₀ (updFls f d) := by
  unfold updFls
  exact h.fls

protected theorem Stands.eraseSectorAt {n : Nat} (h : Stands d₀ d) : Stands d₀ (eraseSectorAt n d) := by
  unfold eraseSectorAt
  exact h.updFls

protected theorem Stands.programAt {a : Nat} {bs : List Byte} (h : Stands d₀ d) : Stands d₀ (programAt a bs d) := by
  unfold programAt
  exact h.updFls

protected theorem Stands.writeSlotCopy {copyB : Bool} {n : Nat} {bs : List Byte} (h : Stands d₀ d) :
    Stands d₀ (writeSlotCopy copyB n bs d) := by
  unfold writeSlotCopy
  exact h.eraseSectorAt.programAt

protected theorem Stands.writeSlotRecord {n : Nat} {r : SlotRecord} (h : Stands d₀ d) : Stands d₀ (writeSlotRecord n r d) := by
  unfold writeSlotRecord
  exact h.writeSlotCopy.writeSlotCopy

protected theorem Stands.destroySlotRecord {n : Nat} (h : Stands d₀ d) : Stands d₀ (destroySlotRecord n d) := by
  unfold destroySlotRecord
  exact h.writeSlotCopy.writeSlotCopy

/-! ### Owner operations (R215 to R217) -/

protected theorem Stands.updCry {f : Crypto → Crypto} (h : Stands d₀ d) : Stands d₀ (updCry f d) := by
  unfold updCry
  exact h.cry

protected theorem Stands.randomDraw (h : Stands d₀ d) : Stands d₀ (randomDraw d).2 := by
  unfold randomDraw
  dsimp only
  exact h.updCry

protected theorem Stands.installSlot {n keygen quota tick : Nat} {flags : BitVec 8} {key : BitVec 256} {load : Bool} (h : Stands d₀ d) :
    Stands d₀ (installSlot n keygen quota tick flags key load d) := by
  unfold installSlot
  exact h.writeSlotRecord.updSlot

protected theorem Stands.sendKey {n : Nat} (h : Stands d₀ d) : Stands d₀ (sendKey n d) := by
  unfold sendKey
  split
  · exact h
  · split
    · exact h
    · exact h.sendMsg

protected theorem Stands.setOp {i : Nat} {o : OwnerOp} (h : Stands d₀ d) : Stands d₀ (setOp i o d) := by
  unfold setOp
  exact h.updCry

protected theorem Stands.endOp {i n : Nat} (h : Stands d₀ d) : Stands d₀ (endOp i n d) := by
  unfold endOp
  exact h.updCry.updSlot

protected theorem Stands.finishOp {o : OwnerOp} {st result : Nat} (h : Stands d₀ d) : Stands d₀ (finishOp o st result d) := by
  unfold finishOp
  split
  · exact h
  · exact h.finishWith

protected theorem Stands.assignZones {n q : Nat} (h : Stands d₀ d) : Stands d₀ (assignZones n q d) :=
  h.updRcl.updRing.nameNext

protected theorem Stands.destroyOwner {n : Nat} (h : Stands d₀ d) : Stands d₀ (destroyOwner n d) := by
  unfold destroyOwner
  exact (h.foldl (fun h => h.runTask.ite h)).updSlot |>.destroySlotRecord |>.updSlot

protected theorem Stands.advanceOp {n i : Nat} (h : Stands d₀ d) : Stands d₀ (advanceOp n i d) := by
  induction n generalizing i d with
  | zero => exact h
  | succ n ih =>
    unfold advanceOp
    split
    · exact h
    · split
      · exact (h.ite h.setRegF.setRegF.startRange.setOp).ite (h.ite (h.randomDraw.installSlot.andThen fun h =>
          (ih h.sendKey.setOp).ite (ih h.setOp)))
      · exact h.assignZones.writeDirectory.setOp.ite h
      · exact h
      · exact h.ite h.destroyOwner.writeDirectory.setOp
      · exact h
      · exact ((h.ite h.updSlot.raise).finishOp.endOp).ite h
      · refine (h.ite h.setRegF.setRegF.startRange.setOp).ite (h.ite ?_)
        split
        · exact (h.sendMsg.ite h).endOp
        · exact h.installSlot.andThen fun h => (h.sendMsg.ite h).endOp.ite
            (h.assignZones.writeDirectory.setOp.ite (h.sendMsg.ite h).endOp)
      · exact h

protected theorem Stands.pumpOps (h : Stands d₀ d) : Stands d₀ (pumpOps d) := by
  unfold pumpOps
  induction List.range d.cry.ops.length with
  | nil => exact h
  | cons i l ih => exact ih.advanceOp

protected theorem Stands.ownersLeaveTopcoat (h : Stands d₀ d) : Stands d₀ (ownersLeaveTopcoat d) := by
  unfold ownersLeaveTopcoat
  refine .andThen ?_ fun h => h.pumpOps
  refine h.foldl fun h => ?_
  split
  · exact h
  · split
    · exact h
    · split
      · exact h.setOp.updSlot.raise
      · exact h.setOp.updSlot.raise
      · exact h.setOp.updSlot.raise
      · exact h.setOp

/-! ### Reads of the medium (R24, R124 to R133) -/

protected theorem Stands.updRdc {f : ReadChannel → ReadChannel} (h : Stands d₀ d) : Stands d₀ (updRdc f d) := by
  unfold updRdc
  exact h.rdc

protected theorem Stands.updRead {id : Nat} {f : LadderCluster → LadderCluster} (h : Stands d₀ d) :
    Stands d₀ (updRead id f d) := by
  unfold updRead
  exact h.updRdc

protected theorem Stands.fillSector {c : LadderCluster} {i : Nat} {block : List Byte} (h : Stands d₀ d) :
    Stands d₀ (fillSector c i block d) := by
  unfold fillSector
  split
  · exact h
  · exact h.ite h.fillLine

protected theorem Stands.finishHostRead {tag : Nat} {cs : List LadderCluster} (h : Stands d₀ d) :
    Stands d₀ (finishHostRead tag cs d) := by
  unfold finishHostRead
  exact h.deliverData.finishWith.raise.ite (h.deliverData.finishWith.when .raise)

protected theorem Stands.answerRecov {xid unit : Nat} {cs : List LadderCluster} (h : Stands d₀ d) :
    Stands d₀ (answerRecov xid unit cs d) :=
  h.sendMsg

protected theorem Stands.catchRead {mark : Nat} {cs : List LadderCluster} (h : Stands d₀ d) :
    Stands d₀ (catchRead mark cs d) := by
  unfold catchRead
  split
  · exact h.sendGroup.ite h.drawn.sendGroup
  · exact h

protected theorem Stands.finishRead {p : ReadFor} (h : Stands d₀ d) : Stands d₀ (finishRead p d) := by
  unfold finishRead
  dsimp only
  split
  · exact h
  · split
    · exact h.finishHostRead
    · exact h.finishHostRead
    · exact h
    · exact h.dropReads
    · exact h.answerRecov.dropReads
    · exact h.catchRead.dropReads

protected theorem Stands.freeStore {c : LadderCluster} (h : Stands d₀ d) : Stands d₀ (freeStore c d) := by
  unfold freeStore
  exact h.updRdc

protected theorem Stands.restoreCluster {c : LadderCluster} (h : Stands d₀ d) : Stands d₀ (restoreCluster c d) := by
  unfold restoreCluster
  exact (h.foldl (fun h => h.updRead.fillSector)).raise

protected theorem Stands.queueRefresh {c : LadderCluster} (h : Stands d₀ d) : Stands d₀ (queueRefresh c d) :=
  h.updRdc.raise

protected theorem Stands.leaveLadder {c : LadderCluster} {lostNow : Nat} (h : Stands d₀ d) :
    Stands d₀ (leaveLadder c lostNow d) := by
  unfold leaveLadder
  dsimp only
  split
  · split
    · exact h.updRead.freeStore.queueRefresh
    · exact h.updRead.freeStore
  · exact h.updRead.freeStore

protected theorem Stands.endLadder {c : LadderCluster} (h : Stands d₀ d) : Stands d₀ (endLadder c d) := by
  unfold endLadder
  exact (h.freeStore.updRead.unless fun h => h.countN).raise

protected theorem Stands.takePeer {c : LadderCluster} (h : Stands d₀ d) : Stands d₀ (takePeer c d) := by
  unfold takePeer
  exact (h.foldl (fun h => h.updRead)).when fun h => h.foldl (fun h => h.updRead.ite h)

protected theorem Stands.askPeer {c : LadderCluster} (h : Stands d₀ d) : Stands d₀ (askPeer c d) := by
  unfold askPeer
  exact h.takePeer.ite ((h.drawn.ite h).foldl (fun h => h.updLath.updRead.sendMsg))

protected theorem Stands.enterStep {c : LadderCluster} {k : Nat} (h : Stands d₀ d) : Stands d₀ (enterStep c k d) := by
  unfold enterStep
  dsimp only
  split
  · exact h.updRead.updRdc
  · exact h.updRead.updRdc
  · exact h.updRead.freeStore
  · exact h.updRead.freeStore.askPeer
  · exact h.updRead.endLadder

protected theorem Stands.climb {c : LadderCluster} (h : Stands d₀ d) : Stands d₀ (climb c d) := by
  unfold climb
  exact h.leaveLadder.ite (h.restoreCluster.leaveLadder.ite h.enterStep)

protected theorem Stands.climbOn {id n : Nat} (h : Stands d₀ d) : Stands d₀ (climbOn id n d) := by
  induction n generalizing d with
  | zero => exact h
  | succ n ih =>
    unfold climbOn
    split
    · exact h
    · exact h.ite (ih h.climb)

protected theorem Stands.settleRead {id : Nat} (h : Stands d₀ d) : Stands d₀ (settleRead id d) := by
  unfold settleRead
  dsimp only
  split
  · exact h.climbOn
  · exact h.climbOn.when fun h => h.updRead.finishRead

protected theorem Stands.answerUnits {id : Nat} {f : PeerUnit → PeerUnit} (h : Stands d₀ d) :
    Stands d₀ (answerUnits id f d) := by
  unfold answerUnits
  dsimp only
  split
  · exact h.updRead
  · exact h.updRead.unless fun h => h.takePeer.settleRead

protected theorem Stands.peerGone (h : Stands d₀ d) : Stands d₀ (peerGone d) := by
  unfold peerGone
  exact h.foldl .answerUnits

/-! ### Boot images (R188, R189) -/

protected theorem Stands.queueActivation {id : Nat} {copyB : Bool} {r : Activation} {groups : List Nat} (h : Stands d₀ d) :
    Stands d₀ (queueActivation id copyB r groups d) := by
  unfold queueActivation
  exact h.updRing.queueCluster

protected theorem Stands.startActivation {w : ActWrite} (h : Stands d₀ d) : Stands d₀ (startActivation w d) := by
  unfold startActivation
  exact h.updRcl.queueActivation

protected theorem Stands.writeActivation {r : Activation} {group : Option Nat} (h : Stands d₀ d) :
    Stands d₀ (writeActivation r group d) := by
  unfold writeActivation
  exact (h.takeId.takeId.foldl (fun h => h.updGroup)).andThen fun h => h.updRcl.ite h.startActivation

protected theorem Stands.changeActivation {tag : Nat} {r : Activation} (h : Stands d₀ d) :
    Stands d₀ (changeActivation tag r d) :=
  h.addGroup.writeActivation.pumpMirror

protected theorem Stands.dropBoot {tag : Nat} (h : Stands d₀ d) : Stands d₀ (dropBoot tag d) := by
  unfold dropBoot
  exact h.updRcl

protected theorem Stands.bootStep {tag : Nat} (h : Stands d₀ d) : Stands d₀ (bootStep tag d) := by
  unfold bootStep
  split
  · exact h.dropBoot
  · dsimp only
    split
    · split
      · exact h.dropBoot.changeActivation
      · exact h.dropBoot.finish
    · exact (h.dropBoot.when (fun h => h.updRcl)).finishWith |>.ite h.dropBoot.finishWith

protected theorem Stands.settleBoot (h : Stands d₀ d) : Stands d₀ (settleBoot d) := by
  unfold settleBoot
  exact h.foldl fun h => h.bootStep.ite h

protected theorem Stands.tellMode (h : Stands d₀ d) : Stands d₀ (tellMode d) :=
  h.sendMsg

/-! ### Topcoat is lost (R276) -/

protected theorem Stands.leaveTopcoat (h : Stands d₀ d) : Stands d₀ (leaveTopcoat d) := by
  unfold leaveTopcoat
  exact (h.updLath.foldl fun h => h.voidGroup).abandonCoherence |>.settleGroups |>.ownersLeaveTopcoat |>.settleBoot |>.peerGone |>.raise

end

end Sys2Proof.Machine
end

section
/-!
PROOFS. The Lath's turns: what the holder sends in its turn, who gives way in a collision, and how the Lath goes live and down.
-/

namespace Sys2Proof.Machine

section
variable {s : State} {d e e' : Device} {m : LathMsg} {left : Option Nat} {l : Lath} {cr : Credits} {rest : List LathMsg}

/-! ### The message that is sent next (R262) -/

theorem nextReply_single (hq : l.queue = [m]) : nextReply l = if msgClass m = 0 && hasCredit l m then some (m, []) else none := by
  simp [nextReply, hq, takeMsg]

/-- With credit, the only message queued is sent next, whatever its class. -/
theorem nextMsg_single (hq : l.queue = [m]) (hc : hasCredit l m = true) : nextMsg l = some (m, []) := by
  rw [nextMsg, nextReply_single hq, hc, Bool.and_true]
  by_cases hm : msgClass m = 0
  · simp [hm]
  · cases hd : isDataMsg m with
    | true => simp [hm, hd, hq, hc, takeMsg]
    | false => simp [hm, hd, hq, hc, takeMsg]

/-! ### One message leaves (R264, R266) -/

theorem crossWires_lath : (crossWires m cr d).lath = { d.lath with wires := messageWires ((freeDraw d).setWidth 8) m cr } := by
  unfold crossWires
  dsimp only
  split <;> rfl

/-- The credits that the next message reports as freed. -/
def freedCredits (l : Lath) : Credits := { control := min 32 l.freedC, data := min 8 l.freedD }

theorem sendOne_lath : (sendOne m rest d).lath =
    { d.lath with
      wires := messageWires ((freeDraw d).setWidth 8) m (freedCredits d.lath)
      queue := rest, sent := (m, freedCredits d.lath) :: d.lath.sent
      freedC := d.lath.freedC - 32, freedD := d.lath.freedD - 8
      creditC := if isDataMsg m then d.lath.creditC else d.lath.creditC - 1
      creditD := if isDataMsg m then d.lath.creditD - 1 else d.lath.creditD } := by
  rw [sendOne, updLath_lath, crossWires_lath]
  rfl

theorem sendOne_onlyIn : OnlyIn [.lath, .draws] [0xE024] d (sendOne m rest d) :=
  OnlyIn.refl.andThen count_onlyIn |>.andThen crossWires_onlyIn |>.andThen updLath_onlyIn

theorem crossWires_reg {o : Nat} : (crossWires m cr d).reg o = d.reg o := crossWires_onlyIn.2 o (by simp)

theorem sendOne_reg : (sendOne m rest d).reg 0xE024 = BitVec.ofNat 32 (min 0xFFFFFFFF ((d.reg 0xE024).toNat + 1)) := by
  have h : (sendOne m rest d).reg 0xE024 = (crossWires m (freedCredits d.lath) (count 0xE024 d)).reg 0xE024 := rfl
  rw [h, crossWires_reg, count_reg, if_pos rfl]

/-- A message that has credit costs one. -/
theorem sendOne_credit (hc : hasCredit d.lath m = true) :
    (sendOne m rest d).lath.creditC + (sendOne m rest d).lath.creditD + 1 = d.lath.creditC + d.lath.creditD := by
  have hneed : 1 ≤ if isDataMsg m then d.lath.creditD else d.lath.creditC := by
    unfold hasCredit at hc
    refine le_trans ?_ (of_decide_eq_true hc)
    split
    · exact le_rfl
    · split <;> decide
  rw [sendOne_lath]
  cases hd : isDataMsg m <;> simp only [hd, Bool.false_eq_true, if_false, if_true] at hneed ⊢ <;> omega

/-! ### The turn (R260, R262) -/

/-- The direction has been taken. -/
def holding (d : Device) : Device := updLath (fun l => { l with dir := .sending }) d

/-- The direction is released into the guard time. -/
def released (d : Device) : Device :=
  updLath (fun l => { l with dir := .idle, arbOut := false, guard := true, guardEnd := d.now + 12 }) d

theorem takeTurn_eq : takeTurn left d = released (sendTurn d.lath.queue.length left (holding d)) := rfl

theorem takeTurn_sends (hq : d.lath.queue = [m]) (hc : hasCredit d.lath m = true) (ha : left ≠ some 0 ∨ msgClass m = 0) :
    takeTurn left d = released (sendOne m [] (holding d)) := by
  have hnext : (if left = some 0 then nextReply (holding d).lath else nextMsg (holding d).lath) = some (m, []) := by
    have hqh : (holding d).lath.queue = [m] := hq
    have hch : hasCredit (holding d).lath m = true := hc
    split
    · next h0 => simp [nextReply_single hqh, hch, ha.resolve_left (not_not_intro h0)]
    · exact nextMsg_single hqh hch
  rw [takeTurn_eq, hq, List.length_singleton, sendTurn, hnext]
  rfl

/-- Once LATH_ARB_IN is seen high, a message that is no reply stays queued. -/
theorem takeTurn_yields (hq : d.lath.queue = [m]) (hm : msgClass m ≠ 0) : takeTurn (some 0) d = released (holding d) := by
  have hnext : nextReply (holding d).lath = none := by
    rw [nextReply_single (l := (holding d).lath) hq, decide_eq_false hm, Bool.false_and, if_neg Bool.false_ne_true]
  rw [takeTurn_eq, hq, List.length_singleton, sendTurn, if_pos rfl, hnext]

theorem exec_directionTake : exec (.directionTake left) s = effect s fun d =>
    onlyIf (d.lath.live && d.lath.arbOut && !d.lath.guard && decide (d.lath.arbSince + 5 ≤ d.now)) (takeTurn left) d := rfl

/-- The direction may be taken (R260). -/
structure TurnDue (d : Device) : Prop where
  live : d.lath.live = true
  arbOut : d.lath.arbOut = true
  guard : d.lath.guard = false
  waited : d.lath.arbSince + 5 ≤ d.now

/-- A turn that is due is taken. -/
theorem completes_turn {P : Device → Prop} (h : TurnDue s.dev) (he : takeTurn left s.dev = e) (p : P e) :
    Completes (.directionTake left) s P := by
  refine completes_to exec_directionTake ?_ p
  rw [h.live, h.arbOut, h.guard, decide_eq_true h.waited]
  exact he

theorem directionTake_sends (s : State) (m : LathMsg) (arbIn : Option Nat) (hlive : s.dev.lath.live = true)
    (harb : s.dev.lath.arbOut = true) (hguard : s.dev.lath.guard = false) (hwait : s.dev.lath.arbSince + 5 ≤ s.dev.now)
    (hq : s.dev.lath.queue = [m]) (hc : hasCredit s.dev.lath m = true) (ha : arbIn ≠ some 0 ∨ msgClass m = 0) :
    Completes (.directionTake arbIn) s fun d =>
      d.lath.queue = [] ∧ d.lath.sent = (m, { control := min 32 s.dev.lath.freedC, data := min 8 s.dev.lath.freedD }) :: s.dev.lath.sent ∧
      d.lath.dir = .idle ∧ d.lath.arbOut = false ∧ d.lath.guard = true ∧ d.lath.guardEnd = s.dev.now + 12 ∧
      d.lath.wires = messageWires ((freeDraw s.dev).setWidth 8) m
        { control := min 32 s.dev.lath.freedC, data := min 8 s.dev.lath.freedD } ∧
      d.lath.creditC + d.lath.creditD + 1 = s.dev.lath.creditC + s.dev.lath.creditD ∧
      d.reg 0xE024 = BitVec.ofNat 32 (min 0xFFFFFFFF ((s.dev.reg 0xE024).toNat + 1)) ∧ OnlyIn [.lath, .draws] [0xE024] s.dev d := by
  refine completes_turn ⟨hlive, harb, hguard, hwait⟩ (takeTurn_sends hq hc ha) ?_
  have hnow : (sendOne m [] (holding s.dev)).now = s.dev.now := sendOne_onlyIn.now_eq (by decide)
  refine ⟨?_, ?_, rfl, rfl, rfl, congrArg (· + 12) hnow, ?_, sendOne_credit (d := holding s.dev) (rest := []) hc,
    sendOne_reg (d := holding s.dev) (rest := []),
    OnlyIn.refl.andThen updLath_onlyIn |>.andThen sendOne_onlyIn |>.andThen updLath_onlyIn⟩
  · rw [released, updLath_lath, sendOne_lath]
  · rw [released, updLath_lath, sendOne_lath]
    rfl
  · rw [released, updLath_lath, sendOne_lath]
    rfl

theorem directionTake_yields (s : State) (m : LathMsg) (hlive : s.dev.lath.live = true) (harb : s.dev.lath.arbOut = true)
    (hguard : s.dev.lath.guard = false) (hwait : s.dev.lath.arbSince + 5 ≤ s.dev.now) (hq : s.dev.lath.queue = [m])
    (hm : msgClass m ≠ 0) :
    Completes (.directionTake (some 0)) s fun d =>
      d.lath = { s.dev.lath with dir := .idle, arbOut := false, guard := true, guardEnd := s.dev.now + 12 } ∧ OnlyIn [.lath] [] s.dev d :=
  completes_turn ⟨hlive, harb, hguard, hwait⟩ (takeTurn_yields hq hm) ⟨rfl, updLath_onlyIn.trans updLath_onlyIn⟩

theorem directionTake_early (s : State) (arbIn : Option Nat) (h : s.dev.lath.guard = true ∨ s.dev.now < s.dev.lath.arbSince + 5) :
    Completes (.directionTake arbIn) s fun d => d = s.dev := by
  refine completes_to exec_directionTake (e := s.dev) ?_ rfl
  obtain hg | hn := h
  · rw [hg, Bool.not_true, Bool.and_false, Bool.false_and, onlyIf_false]
  · rw [decide_eq_false (Nat.not_le.2 hn), Bool.and_false, onlyIf_false]

/-! ### Collisions and the guard time (R261, R262) -/

/-- A collision is counted, and TWIN_ID 1 gives way. -/
def collided (d : Device) : Device :=
  updLath (fun l => if twinId d = 1 then { l with arbOut := false, dir := .receiving } else l) (count 0xE020 d)

theorem exec_arbCollision : exec .arbCollision s = effect s fun d => onlyIf (d.lath.live && d.lath.arbOut) collided d := rfl

theorem completes_collision {P : Device → Prop} (hlive : s.dev.lath.live = true) (harb : s.dev.lath.arbOut = true)
    (p : P (collided s.dev)) : Completes .arbCollision s P :=
  completes_to exec_arbCollision (by rw [hlive, harb]; rfl) p

theorem collided_reg : (collided d).reg 0xE020 = BitVec.ofNat 32 (min 0xFFFFFFFF ((d.reg 0xE020).toNat + 1)) := by
  have h : (collided d).reg 0xE020 = (count 0xE020 d).reg 0xE020 := rfl
  rw [h, count_reg, if_pos rfl]

theorem arbCollision_standsFirm (s : State) (hlive : s.dev.lath.live = true) (harb : s.dev.lath.arbOut = true) (hid : twinId s.dev = 0) :
    Completes .arbCollision s fun d =>
      d.reg 0xE020 = BitVec.ofNat 32 (min 0xFFFFFFFF ((s.dev.reg 0xE020).toNat + 1)) ∧ OnlyIn [] [0xE020] s.dev d := by
  refine completes_collision hlive harb ⟨collided_reg, ?_⟩
  have hc : collided s.dev = count 0xE020 s.dev := by
    rw [collided, hid]
    rfl
  rw [hc]
  exact count_onlyIn

theorem arbCollision_givesWay (s : State) (hlive : s.dev.lath.live = true) (harb : s.dev.lath.arbOut = true) (hid : twinId s.dev = 1) :
    Completes .arbCollision s fun d =>
      d.lath = { s.dev.lath with arbOut := false, dir := .receiving } ∧
      d.reg 0xE020 = BitVec.ofNat 32 (min 0xFFFFFFFF ((s.dev.reg 0xE020).toNat + 1)) ∧ OnlyIn [.lath] [0xE020] s.dev d := by
  refine completes_collision hlive harb ⟨?_, collided_reg, OnlyIn.refl.andThen count_onlyIn |>.andThen updLath_onlyIn⟩
  rw [collided, hid, updLath_lath, if_pos rfl]
  rfl

/-- The guard time is over. -/
def guardOver (d : Device) : Device := updLath (fun l => { l with guard := false }) d

theorem exec_guardTimeEnd : exec .guardTimeEnd s = effect s fun d => onlyIf (d.lath.guard && decide (d.lath.guardEnd ≤ d.now))
    (fun d => if (guardOver d).lath.queue.isEmpty then guardOver d else raiseArb (guardOver d)) d := rfl

theorem raiseArb_guard : (raiseArb d).lath.guard = d.lath.guard := by
  unfold raiseArb
  split <;> rfl

/-- Without a guard time the request stands from then on. -/
theorem raiseArb_arbOut (h : d.lath.guard = false) : (raiseArb d).lath.arbOut = true := by
  unfold raiseArb
  split
  · next hc => simpa [h] using hc
  · rfl

theorem guardTimeEnd_requests (s : State) (hg : s.dev.lath.guard = true) (ht : s.dev.lath.guardEnd ≤ s.dev.now) :
    Completes .guardTimeEnd s fun d =>
      d.lath.guard = false ∧ d.lath.arbOut = (s.dev.lath.arbOut || !s.dev.lath.queue.isEmpty) ∧ d.lath.queue = s.dev.lath.queue ∧
      OnlyIn [.lath] [] s.dev d := by
  refine completes_to (e := if s.dev.lath.queue.isEmpty then guardOver s.dev else raiseArb (guardOver s.dev)) exec_guardTimeEnd
    (by rw [hg, decide_eq_true ht]; rfl) ?_
  cases he : s.dev.lath.queue.isEmpty with
  | true =>
    rw [if_pos rfl]
    exact ⟨rfl, (Bool.or_false _).symm, rfl, updLath_onlyIn⟩
  | false =>
    rw [if_neg Bool.false_ne_true]
    exact ⟨raiseArb_guard, (raiseArb_arbOut rfl).trans (Bool.or_true _).symm, raiseArb_queue, updLath_onlyIn.trans raiseArb_onlyIn⟩

theorem guardTimeEnd_early (s : State) (h : s.dev.now < s.dev.lath.guardEnd) : Completes .guardTimeEnd s fun d => d = s.dev :=
  completes_to exec_guardTimeEnd (by rw [decide_eq_false (Nat.not_le.2 h), Bool.and_false, onlyIf_false]) rfl

/-! ### The toggling of LATH_ALIVE (R258, R269) -/

/-- LATH_ALIVE changes. -/
def toggled (d : Device) : Device := updLath (fun l => { l with aliveOut := !l.aliveOut, aliveAt := d.now }) d

theorem exec_aliveToggle : exec .aliveToggle s = effect s fun d =>
    onlyIf (d.lath.pauseUntil.isNone && decide (d.lath.aliveAt + 2500 ≤ d.now)) toggled d := rfl

theorem aliveToggle_toggles (s : State) (hp : s.dev.lath.pauseUntil = none) (ht : s.dev.lath.aliveAt + 2500 ≤ s.dev.now) :
    Completes .aliveToggle s fun d =>
      d.lath = { s.dev.lath with aliveOut := !s.dev.lath.aliveOut, aliveAt := s.dev.now } ∧ OnlyIn [.lath] [] s.dev d :=
  completes_to (e := toggled s.dev) exec_aliveToggle (by rw [hp, decide_eq_true ht]; rfl) ⟨rfl, updLath_onlyIn⟩

theorem aliveToggle_waits (s : State) (h : s.dev.lath.pauseUntil ≠ none ∨ s.dev.now < s.dev.lath.aliveAt + 2500) :
    Completes .aliveToggle s fun d => d = s.dev := by
  refine completes_to exec_aliveToggle (e := s.dev) ?_ rfl
  obtain hp | ht := h
  · rw [Option.isNone_eq_false_iff.2 (Option.isSome_iff_ne_none.2 hp), Bool.false_and, onlyIf_false]
  · rw [decide_eq_false (Nat.not_le.2 ht), Bool.and_false, onlyIf_false]

/-- The pause of R258 is over. -/
def pauseOver (d : Device) : Bool := match d.lath.pauseUntil with | some t => decide (t ≤ d.now) | none => false

theorem exec_alivePauseEnd : exec .alivePauseEnd s = effect s fun d =>
    onlyIf (pauseOver d) (updLath fun l => { l with pauseUntil := none }) d := rfl

theorem alivePauseEnd_resumes (s : State) (t : Nat) (hp : s.dev.lath.pauseUntil = some t) (ht : t ≤ s.dev.now) :
    Completes .alivePauseEnd s fun d => d.lath = { s.dev.lath with pauseUntil := none } ∧ OnlyIn [.lath] [] s.dev d := by
  have hover : pauseOver s.dev = true := by
    rw [pauseOver, hp]
    exact decide_eq_true ht
  exact completes_to exec_alivePauseEnd (by rw [hover, onlyIf_true]) ⟨rfl, updLath_onlyIn⟩

/-! ### The Lath is lost (R258, R269, R276) -/

/-- What the Lath forgets at once when it is lost. -/
def linkCleared (d : Device) : Device :=
  updLath (fun l => { l with
    live := false, link := .down, queue := [], dir := .idle, arbOut := false, guard := false, creditC := 0, creditD := 0, freedC := 0
    freedD := 0, peerMode := none, peerSealing := false, ackSent := false, ackSeen := false, admissionHold := false, sentTopcoat := false
    seenTopcoat := false, chainAsked := [], bootQueue := none, openXids := if l.live then [] else l.openXids, exchanges := [] }) d

/-- The reads for the peer are dropped, and the loss is detected. -/
def lossTold (d : Device) : Device :=
  raise 129 (dropReads (fun p => match p with | .catchUp _ => true | .recov _ _ _ => true | _ => false) (linkCleared d))

theorem lathLost_eq : lathLost d =
    if inTopcoat (lossTold d) then toUndercoat (lossTold d) else peerGone (settleGroups (abandonCoherence (lossTold d))) := rfl

/-- In `e` the Lath is lost as it stood in `d`. -/
structure LinkLost (d e : Device) : Prop where
  live : e.lath.live = false
  told : Raised 129 e
  pause : e.lath.pauseUntil = d.lath.pauseUntil
  losses : ∀ o ∈ lossCounters, e.reg o = d.reg o
  raised : ∀ n, Raised n d → Raised n e

protected theorem LinkLost.andThen (h : LinkLost d e) (g : Stands e e') : LinkLost d e' where
  live := g.live.trans h.live
  told := g.raised _ h.told
  pause := g.pause.trans h.pause
  losses o ho := (g.losses o ho).trans (h.losses o ho)
  raised n := g.raised n ∘ h.raised n

theorem lossTold_linkLost : LinkLost d (lossTold d) := by
  have h : Stands (linkCleared d) (lossTold d) := Stands.refl.dropReads.raise
  exact ⟨h.live, raised_raise 129 _, h.pause, h.losses, fun n w => h.raised n (w.of_icu rfl)⟩

/-- From Topcoat the pair goes to Undercoat. -/
theorem toUndercoat_stands (h : d.gen.mode = .topcoat) : Stands (updGen (fun g => { g with mode := .undercoat }) d) (toUndercoat d) := by
  have he : toUndercoat d = leaveTopcoat (tellMode (raise 18 (updGen (fun g => { g with mode := .undercoat }) d))) := by
    simp [toUndercoat, setMode, h]
  rw [he]
  exact Stands.refl.raise.tellMode.leaveTopcoat

theorem lathLost_linkLost : LinkLost d (lathLost d) ∧ (lathLost d).gen.mode ≠ .topcoat := by
  have hlost := lossTold_linkLost (d := d)
  rw [lathLost_eq]
  by_cases hm : (lossTold d).gen.mode = .topcoat
  · rw [if_pos (inTopcoat_of_mode hm)]
    have h := toUndercoat_stands hm
    have hmoved : LinkLost d (updGen (fun g => { g with mode := .undercoat }) (lossTold d)) :=
      ⟨hlost.live, hlost.told.of_icu rfl, hlost.pause, hlost.losses, fun n w => (hlost.raised n w).of_icu rfl⟩
    refine ⟨hmoved.andThen h, ?_⟩
    rw [h.mode]
    exact Mode.noConfusion
  · rw [inTopcoat_of_not hm, if_neg Bool.false_ne_true]
    have h : Stands (lossTold d) (peerGone (settleGroups (abandonCoherence (lossTold d)))) :=
      Stands.refl.abandonCoherence.settleGroups.peerGone
    exact ⟨hlost.andThen h, by rwa [h.mode]⟩

theorem exec_lathDown : exec .lathDown s = effect s fun d => onlyIf d.lath.live (fun d => lathLost (count 0xE030 d)) d := rfl

theorem lathDown_loses (s : State) (hlive : s.dev.lath.live = true) :
    Completes .lathDown s fun d =>
      d.lath.live = false ∧ d.gen.mode ≠ .topcoat ∧ Raised 129 d ∧
      d.reg 0xE030 = BitVec.ofNat 32 (min 0xFFFFFFFF ((s.dev.reg 0xE030).toNat + 1)) := by
  obtain ⟨h, hmode⟩ := lathLost_linkLost (d := count 0xE030 s.dev)
  refine completes_to exec_lathDown (by rw [hlive, onlyIf_true]) ⟨h.live, hmode, h.told, ?_⟩
  rw [h.losses _ (by decide), count_reg, if_pos rfl]

/-- A token error is counted and told, and the toggling of LATH_ALIVE pauses for 10 ms. -/
def linkFaulted (d : Device) : Device :=
  raise 137 (count 0xE02C (updLath (fun l => { l with pauseUntil := some (d.now + 250000) }) d))

theorem linkFaulted_reg : (linkFaulted d).reg 0xE02C = BitVec.ofNat 32 (min 0xFFFFFFFF ((d.reg 0xE02C).toNat + 1)) := by
  rw [linkFaulted, raise_reg _ _ _ (by decide), count_reg, if_pos rfl]
  rfl

theorem exec_lathLinkError : exec .lathLinkError s = effect s fun d => onlyIf d.lath.live (fun d => lathLost (linkFaulted d)) d := rfl

theorem lathLinkError_loses (s : State) (hlive : s.dev.lath.live = true) :
    Completes .lathLinkError s fun d =>
      d.lath.live = false ∧ d.lath.pauseUntil = some (s.dev.now + 250000) ∧ d.gen.mode ≠ .topcoat ∧ Raised 137 d ∧ Raised 129 d ∧
      d.reg 0xE02C = BitVec.ofNat 32 (min 0xFFFFFFFF ((s.dev.reg 0xE02C).toNat + 1)) := by
  obtain ⟨h, hmode⟩ := lathLost_linkLost (d := linkFaulted s.dev)
  refine completes_to exec_lathLinkError (by rw [hlive, onlyIf_true])
    ⟨h.live, h.pause.trans ?_, hmode, h.raised 137 (raised_raise 137 _), h.told, (h.losses _ (by decide)).trans linkFaulted_reg⟩
  rw [linkFaulted, raise_lath]
  rfl

/-! ### The Lath goes live (R264, R269, R278) -/

theorem exec_lathLive : exec .lathLive s = effect s fun d => onlyIf (!d.lath.live && d.lath.pauseUntil.isNone) lathUp d := rfl

/-- The Lath as it goes live, before HELLO. -/
def attaching (d : Device) : Device :=
  updLath (fun l => { l with
    live := true, link := .attaching, creditC := 32, creditD := 8, freedC := 0, freedD := 0, queue := [], dir := .idle, arbOut := false
    guard := false, refused := false, ackSent := false, ackSeen := false }) d

theorem lathUp_eq : lathUp d = sendHello (attaching d) := rfl

/-- HELLO goes out on a live Lath outside Primer (R278). -/
theorem sendHello_sends (hlive : d.lath.live = true) (hmode : d.gen.mode ≠ .primer) :
    sendHello d = sendMsg (.hello (myBlock d)) (updLath (fun l => { l with link := .attaching, ackSent := false, ackSeen := false }) d) := by
  simp [sendHello, hlive, hmode]

theorem sendMsg_idle (hlive : d.lath.live = true) (harb : d.lath.arbOut = false) (hguard : d.lath.guard = false) :
    (sendMsg m d).lath = { d.lath with queue := d.lath.queue ++ [m], arbOut := true, arbSince := d.now } := by
  rw [sendMsg_live hlive, raiseArb, updLath_lath, harb, hguard]
  rfl

theorem lathLive_attaches (s : State) (hdown : s.dev.lath.live = false) (hp : s.dev.lath.pauseUntil = none)
    (hmode : s.dev.gen.mode ≠ .primer) :
    Completes .lathLive s fun d =>
      d.lath.live = true ∧ d.lath.creditC = 32 ∧ d.lath.creditD = 8 ∧ d.lath.link = .attaching ∧
      d.lath.queue = [.hello (myBlock s.dev)] ∧ OnlyIn [.lath] [] s.dev d := by
  refine completes_to (e := lathUp s.dev) exec_lathLive (by rw [hdown, hp]; rfl) ?_
  rw [lathUp_eq, sendHello_sends (d := attaching s.dev) rfl hmode]
  refine ⟨?_, ?_, ?_, ?_, ?_, updLath_onlyIn.trans updLath_onlyIn |>.trans sendMsg_onlyIn⟩
  all_goals rw [sendMsg_idle rfl rfl rfl]; rfl

end

/-- Settles O26: the turns, a collision, the guard time, and the Lath's liveness. -/
theorem lathTurnsAndLiveness : Obligations.LathTurnsAndLiveness :=
  ⟨directionTake_sends, directionTake_yields, directionTake_early, arbCollision_standsFirm, arbCollision_givesWay, guardTimeEnd_requests,
    guardTimeEnd_early, aliveToggle_toggles, aliveToggle_waits, alivePauseEnd_resumes, lathDown_loses, lathLinkError_loses,
    lathLive_attaches⟩

end Sys2Proof.Machine
end

section
/-!
PROOFS. The set-up lock and Primer over every step: what a step's device comes from keeps both.
-/

namespace Sys2Proof.Machine

/-- The command in front of the queue, or a tick: the device evolves, but for what starts the FX880 anew and a conventional reset. -/
theorem step_evolves {s t : State} (hc : ∀ c rest, s.pending = c :: rest → startsAnew c s.dev = false ∧ c ≠ .conventionalReset)
    (h : step s = .next t) : Evolves .any s.dev t.dev ∨ Evolves .any (counted s.dev) t.dev := by
  cases hp : s.pending with
  | nil =>
    rw [step_of_idle hp] at h
    obtain rfl := Host.Outcome.next.inj h
    refine .inr ?_
    dsimp only
    exact tick_evolves
  | cons c rest =>
    obtain ⟨ha, hr⟩ := hc c rest hp
    obtain ⟨e, he, hd⟩ := exec_completing (s := { s with pending := rest }) ha hr
    rw [step_of_waiting hp, he] at h
    obtain rfl := Host.Outcome.next.inj h
    exact .inl hd

/-- A conventional reset leaves the mode Primer (R315, R405). -/
theorem resetFunction_primer {d : Device} (h : d.gen.mode = .primer) : (resetFunction d).gen.mode = .primer :=
  resetFunction_evolves.primer (Evolves.refl.dropLink.resetHostIcu.primer h)

/-- Settles O58: the lock holds through everything that evolves, and through a tick's count. -/
theorem lockHoldsUntilAReset : Obligations.LockHoldsUntilAReset := by
  intro s t hl hc h
  rcases step_evolves hc h with hd | hd
  · exact hd.lock hl
  · exact hd.lock hl

/-- Settles O59: Primer holds through everything that evolves, through a tick's count, and through a conventional reset. -/
theorem primerEndsAtAPowerOnReset : Obligations.PrimerEndsAtAPowerOnReset := by
  intro s t hm hc h
  by_cases hr : ∃ rest, s.pending = .conventionalReset :: rest
  · obtain ⟨rest, hp⟩ := hr
    rw [step_of_waiting hp] at h
    obtain rfl := Host.Outcome.next.inj h
    exact resetFunction_primer hm
  · have hc' : ∀ c rest, s.pending = c :: rest → startsAnew c s.dev = false ∧ c ≠ .conventionalReset :=
      fun c rest hp => ⟨hc c rest hp, fun e => hr ⟨rest, e ▸ hp⟩⟩
    rcases step_evolves hc' h with hd | hd
    · exact hd.primer hm
    · exact hd.primer hm

end Sys2Proof.Machine
end

section
/-!
PROOFS. The free-running counter's two halves: what each reader's own latch holds.
-/

namespace Sys2Proof.Machine

/-- A read of TICK_LO changes the latches and the word read. -/
theorem tickLoRead_onlyIn {d : Device} {who : Requester} : OnlyIn [.pacing, .bus] [] d (tickLoRead who d) :=
  OnlyIn.refl.andThen setPacing_onlyIn |>.andThen setBus_onlyIn

/-- A read of TICK_HI puts the reader's own latch on the bus, and does nothing else. -/
theorem readReg_tickHi (who : Requester) (d : Device) : readReg who 0x44 d = putRead (genWord who d 0x44) d := by
  cases who <;> rfl

/-- Settles O2: the read of TICK_LO latches, and the read of TICK_HI answers the reader's own latch. -/
theorem tickLoLatchesTheUpperHalf : Obligations.TickLoLatchesTheUpperHalf := by
  refine ⟨fun s who h => ?_, fun s who h => ?_⟩
  · refine completes_to (f := onBus who (tickLoRead who)) rfl (if_pos h) ⟨rfl, ?_, rfl, rfl, tickLoRead_onlyIn⟩
    cases who <;> rfl
  · have he : readBar0 who 32 0x44 s.dev = putRead (genWord who s.dev 0x44) s.dev :=
      (if_pos h).trans (readReg_tickHi who s.dev)
    exact completes_to (f := readBar0 who 32 0x44) rfl he ⟨rfl, rfl, rfl, putRead_onlyIn⟩

end Sys2Proof.Machine
end

section
/-!
PROOFS. The doorbell page: a poll begins, its words are taken in ring by ring, and a failed poll is counted.
-/

namespace Sys2Proof.Machine

section
variable {d e : Device}

/-! ### A ring in error -/

theorem sqError_sq {n err m : Nat} : (sqError n err d).sq m = if m = n then { d.sq n with st := .error, err := err } else d.sq m := by
  rw [sqError, raise_sq, updSq_sq]

theorem updSq_onlyIn {n : Nat} {f : Sq → Sq} : OnlyIn [.hif] [] d (updSq n f d) :=
  updHif_onlyIn (f := fun h => { h with sqs := supd (fun _ => {}) n f h.sqs })

theorem updCq_onlyIn {n : Nat} {f : Cq → Cq} : OnlyIn [.hif] [] d (updCq n f d) :=
  updHif_onlyIn (f := fun h => { h with cqs := supd (fun _ => {}) n f h.cqs })

theorem sqError_onlyIn {n err : Nat} : OnlyIn (.hif :: interruptParts) [0x4540] d (sqError n err d) := by
  rw [sqError]
  exact OnlyIn.refl.andThen updSq_onlyIn |>.andThen raise_onlyIn

theorem cqError_sq {n err m : Nat} : (cqError n err d).sq m = d.sq m := by rw [cqError, raise_sq, updCq_sq]

theorem cqError_onlyIn {n err : Nat} : OnlyIn (.hif :: interruptParts) [0x4540] d (cqError n err d) := by
  rw [cqError]
  exact OnlyIn.refl.andThen updCq_onlyIn |>.andThen raise_onlyIn

/-- A change of a submission ring takes no detection back. -/
protected theorem Raised.updSq {k n : Nat} {f : Sq → Sq} (h : Raised k d) : Raised k (updSq n f d) := h.of_icu rfl

protected theorem Raised.updCq {k n : Nat} {f : Cq → Cq} (h : Raised k d) : Raised k (updCq n f d) := h.of_icu rfl

protected theorem Raised.sqError {k n err : Nat} (h : Raised k d) : Raised k (sqError n err d) := h.updSq.raise n

protected theorem Raised.cqError {k n err : Nat} (h : Raised k d) : Raised k (cqError n err d) := h.updCq.raise 8

/-! ### A poll begins -/

theorem startPoll_awake (h : d.icu.retention = false) :
    startPoll d = updHif (fun h => { h with polling := true, pollNow := false, lastPoll := d.now }) (count 0x1030 d) := by
  rw [startPoll, leaveRetention_awake h]
  rfl

theorem doorbellPoll_begins (s : State) (hd : pollDue s.dev = true) (hr : s.dev.icu.retention = false) :
    Completes .doorbellPoll s fun d =>
      d.hif = { s.dev.hif with polling := true, pollNow := false, lastPoll := s.dev.now } ∧
      d.reg 0x1030 = BitVec.ofNat 32 (min 0xFFFFFFFF ((s.dev.reg 0x1030).toNat + 1)) ∧ OnlyIn [.hif] [0x1030] s.dev d := by
  refine completes_to (f := fun d => onlyIf (pollDue d) startPoll d) rfl (by rw [hd, onlyIf_true, startPoll_awake hr]) ⟨rfl, ?_, ?_⟩
  · exact (count_reg 0x1030 s.dev 0x1030).trans (if_pos rfl)
  · exact OnlyIn.refl.andThen count_onlyIn |>.andThen updHif_onlyIn

theorem doorbellPoll_early (s : State) (hn : s.dev.hif.pollNow = false) (hl : s.dev.now < s.dev.hif.lastPoll + s.dev.hif.interval) :
    Completes .doorbellPoll s fun d => d = s.dev := by
  have hd : pollDue s.dev = false := by
    rw [pollDue, hn, decide_eq_false (Nat.not_le.mpr hl), Bool.or_self, Bool.and_false]
  exact completes_to (f := fun d => onlyIf (pollDue d) startPoll d) rfl (by rw [hd, onlyIf_false]) rfl

/-! ### A poll returns -/

/-- The poll under way has ended. -/
def pollOver (d : Device) : Device := updHif (fun h => { h with polling := false }) d

theorem doorbellPollReturn_failed {s : State} {P : Device → Prop} (hp : s.dev.hif.polling = true)
    (p : P (count 0x1038 (pollOver s.dev))) : Completes (.doorbellPollReturn .failed) s P := by
  refine ⟨_, rfl, rfl, ?_⟩
  dsimp only
  rw [hp, onlyIf_true]
  exact p

theorem doorbellPollReturn_ok {s : State} {page : List Byte} {P : Device → Prop} (hp : s.dev.hif.polling = true)
    (p : P (takePage page (pollOver s.dev))) : Completes (.doorbellPollReturn (.ok page)) s P := by
  refine ⟨_, rfl, rfl, ?_⟩
  dsimp only
  rw [hp, onlyIf_true]
  exact p

theorem doorbellPollReturn_fails (s : State) (hp : s.dev.hif.polling = true) :
    Completes (.doorbellPollReturn .failed) s fun d =>
      d.hif = { s.dev.hif with polling := false } ∧
      d.reg 0x1038 = BitVec.ofNat 32 (min 0xFFFFFFFF ((s.dev.reg 0x1038).toNat + 1)) ∧ OnlyIn [.hif] [0x1038] s.dev d := by
  refine doorbellPollReturn_failed hp ⟨rfl, ?_, ?_⟩
  · exact (count_reg 0x1038 (pollOver s.dev) 0x1038).trans (if_pos rfl)
  · exact OnlyIn.refl.andThen updHif_onlyIn |>.andThen count_onlyIn

/-! ### A page of good words -/

/-- Every running ring has a word below its size in the page (R302). -/
structure PageGood (page : List Byte) (d : Device) : Prop where
  tails : ∀ n, n < 8 → (d.sq n).st = .running → tailWord page n < min 4096 (sqSize d n)
  heads : ∀ n, n < 8 → (d.cq n).st = .running → headWord page n < min 4096 (cqSize d n)

/-- The words of the rings below `k` have been taken from a good page: `e` comes from `d` so. -/
structure PageTaken (page : List Byte) (k : Nat) (d e : Device) : Prop where
  sq : ∀ n, e.sq n = if n < k ∧ (d.sq n).st = .running then { d.sq n with tail := tailWord page n } else d.sq n
  cq : ∀ n, e.cq n = if n < k ∧ (d.cq n).st = .running then { d.cq n with head := headWord page n } else d.cq n
  rest : ∃ q c, e = updHif (fun h => { h with sqs := q, cqs := c }) d

theorem takeTail_good {page : List Byte} {n : Nat} (hr : (d.sq n).st = .running) (hw : tailWord page n < min 4096 (sqSize d n)) :
    takeTail page n d = updSq n (fun q => { q with tail := tailWord page n }) d := by
  have hok : doorbellOk (sqSize d n) (tailWord page n) = true := by simp [doorbellOk]; omega
  rw [takeTail, hr, hok]
  rfl

theorem takeTail_notRunning {page : List Byte} {n : Nat} (hr : (d.sq n).st ≠ .running) : takeTail page n d = d := by
  rw [takeTail, if_pos (by simpa using hr)]

theorem takeHead_good {page : List Byte} {n : Nat} (hr : (d.cq n).st = .running) (hw : headWord page n < min 4096 (cqSize d n)) :
    takeHead page n d = updCq n (fun q => { q with head := headWord page n }) d := by
  have hok : doorbellOk (cqSize d n) (headWord page n) = true := by simp [doorbellOk]; omega
  rw [takeHead, hr, hok]
  rfl

theorem takeHead_notRunning {page : List Byte} {n : Nat} (hr : (d.cq n).st ≠ .running) : takeHead page n d = d := by
  rw [takeHead, if_pos (by simpa using hr)]

/-- The tail of one ring, from a good word. -/
theorem takeTail_sq {page : List Byte} {n m : Nat} (h : (d.sq n).st = .running → tailWord page n < min 4096 (sqSize d n)) :
    (takeTail page n d).sq m = if m = n ∧ (d.sq n).st = .running then { d.sq n with tail := tailWord page n } else d.sq m := by
  by_cases hr : (d.sq n).st = .running
  · simp [takeTail_good hr (h hr), updSq_sq, hr]
  · simp [takeTail_notRunning hr, hr]

theorem takeHead_cq {page : List Byte} {n m : Nat} (h : (d.cq n).st = .running → headWord page n < min 4096 (cqSize d n)) :
    (takeHead page n d).cq m = if m = n ∧ (d.cq n).st = .running then { d.cq n with head := headWord page n } else d.cq m := by
  by_cases hr : (d.cq n).st = .running
  · simp [takeHead_good hr (h hr), updCq_cq, hr]
  · simp [takeHead_notRunning hr, hr]

/-- A good word changes the table of its rings alone. -/
theorem takeTail_rest {page : List Byte} {n : Nat} (h : (d.sq n).st = .running → tailWord page n < min 4096 (sqSize d n)) :
    ∃ q, takeTail page n d = updHif (fun h => { h with sqs := q }) d := by
  by_cases hr : (d.sq n).st = .running
  · exact ⟨_, takeTail_good hr (h hr)⟩
  · exact ⟨d.hif.sqs, takeTail_notRunning hr⟩

theorem takeHead_rest {page : List Byte} {n : Nat} (h : (d.cq n).st = .running → headWord page n < min 4096 (cqSize d n)) :
    ∃ c, takeHead page n d = updHif (fun h => { h with cqs := c }) d := by
  by_cases hr : (d.cq n).st = .running
  · exact ⟨_, takeHead_good hr (h hr)⟩
  · exact ⟨d.hif.cqs, takeHead_notRunning hr⟩

/-- One ring more. -/
theorem PageTaken.next {page : List Byte} {k : Nat} (h : PageTaken page k d e) (hg : PageGood page d) (hk : k < 8) :
    PageTaken page (k + 1) d (takeHead page k (takeTail page k e)) := by
  obtain ⟨hsq, hcq, q, c, rfl⟩ := h
  have hs : (updHif (fun h => { h with sqs := q, cqs := c }) d).sq k = d.sq k := (hsq k).trans (if_neg (by omega))
  have hc : (updHif (fun h => { h with sqs := q, cqs := c }) d).cq k = d.cq k := (hcq k).trans (if_neg (by omega))
  generalize he : updHif (fun h => { h with sqs := q, cqs := c }) d = e at hsq hcq hs hc
  have htw : (e.sq k).st = .running → tailWord page k < min 4096 (sqSize e k) := by
    rw [hs, ← he]
    exact hg.tails k hk
  obtain ⟨q', ht⟩ := takeTail_rest htw
  have hc' : (takeTail page k e).cq k = d.cq k := by
    rw [ht]
    exact hc
  have hhw : ((takeTail page k e).cq k).st = .running → headWord page k < min 4096 (cqSize (takeTail page k e) k) := by
    rw [hc', ht, ← he]
    exact hg.heads k hk
  obtain ⟨c', hh⟩ := takeHead_rest hhw
  refine ⟨fun n => ?_, fun n => ?_, q', c', ?_⟩
  · have hkeep : (takeHead page k (takeTail page k e)).sq n = (takeTail page k e).sq n := by
      rw [hh]
      rfl
    rw [hkeep, takeTail_sq htw, hs, hsq n]
    grind
  · have hkeep : (takeTail page k e).cq n = e.cq n := by
      rw [ht]
      rfl
    rw [takeHead_cq hhw, hc', hkeep, hcq n]
    grind
  · rw [hh, ht, ← he]
    rfl

/-- The words of the first `k` rings of a good page. -/
theorem pageTaken_foldl {page : List Byte} (hg : PageGood page d) (k : Nat) (hk : k ≤ 8) :
    PageTaken page k d ((List.range k).foldl (fun d n => takeHead page n (takeTail page n d)) d) := by
  induction k with
  | zero => exact ⟨fun n => rfl, fun n => rfl, d.hif.sqs, d.hif.cqs, rfl⟩
  | succ k ih =>
    rw [List.range_succ, List.foldl_append]
    exact (ih (by omega)).next hg (by omega)

/-- A tail moved when a running ring's word is another than its tail. -/
theorem PageTaken.tailsMoved {page : List Byte} (h : PageTaken page 8 d e) :
    tailsMoved d e = (List.range 8).any fun n => (d.sq n).st = .running && tailWord page n != (d.sq n).tail := by
  have hat : ∀ n ∈ List.range 8, ((e.sq n).st = .running && (e.sq n).tail != (d.sq n).tail) =
      ((d.sq n).st = .running && tailWord page n != (d.sq n).tail) := by
    intro n hn
    rw [h.sq n]
    by_cases hr : (d.sq n).st = .running
    · simp [hr, List.mem_range.mp hn]
    · simp [hr]
  rw [Machine.tailsMoved, Bool.eq_iff_iff, List.any_eq_true, List.any_eq_true]
  exact exists_congr fun n => and_congr_right fun hn => Bool.eq_iff_iff.mp (hat n hn)

theorem doorbellPollReturn_takes (s : State) (page : List Byte) (hp : s.dev.hif.polling = true)
    (ht : ∀ n, n < 8 → (s.dev.sq n).st = .running → leAt page (0x40 + 4 * n) 4 < min 4096 (sqSize s.dev n))
    (hh : ∀ n, n < 8 → (s.dev.cq n).st = .running → leAt page (0x60 + 4 * n) 4 < min 4096 (cqSize s.dev n)) :
    Completes (.doorbellPollReturn (.ok page)) s fun d =>
      (∀ n, n < 8 → d.sq n = if (s.dev.sq n).st = .running then { s.dev.sq n with tail := leAt page (0x40 + 4 * n) 4 } else s.dev.sq n) ∧
      (∀ n, n < 8 → d.cq n = if (s.dev.cq n).st = .running then { s.dev.cq n with head := leAt page (0x60 + 4 * n) 4 } else s.dev.cq n) ∧
      d.hif.polling = false ∧ d.hif.posted = false ∧ d.hif.cmds = s.dev.hif.cmds ∧
      d.hif.interval = (
        let b := pollBounds s.dev
        let hint := leAt page 0 4
        if hint.testBit 31 || ((List.range 8).any fun n => (s.dev.sq n).st = .running && leAt page (0x40 + 4 * n) 4 != (s.dev.sq n).tail) ||
            s.dev.hif.posted then b.1
        else if hint.testBit 30 then b.2
        else max b.1 (min b.2 (2 * s.dev.hif.interval))) ∧
      OnlyIn [.hif] [] s.dev d := by
  have hg : PageGood page (pollOver s.dev) := ⟨ht, hh⟩
  have htaken := pageTaken_foldl hg 8 (Nat.le_refl 8)
  have hmoved := htaken.tailsMoved
  refine doorbellPollReturn_ok hp ?_
  rw [takePage]
  generalize (List.range 8).foldl (fun d n => takeHead page n (takeTail page n d)) (pollOver s.dev) = e at htaken hmoved
  dsimp only
  rw [hmoved]
  obtain ⟨hsq, hcq, q, c, rfl⟩ := htaken
  refine ⟨fun n hn => (hsq n).trans ?_, fun n hn => (hcq n).trans ?_, rfl, rfl, rfl, rfl, ?_⟩
  · simp only [hn, true_and]
    rfl
  · simp only [hn, true_and]
    rfl
  · exact updHif_onlyIn.trans (updHif_onlyIn.trans updHif_onlyIn)

/-! ### A word that is not good -/

/-- Ring `n` has entered ERROR with ERR 1 for its doorbell word, and its tail stays. -/
structure TailRefused (n tail : Nat) (d : Device) : Prop where
  st : (d.sq n).st = .error
  err : (d.sq n).err = 1
  tail_eq : (d.sq n).tail = tail
  raised : Raised n d

theorem takeHead_sq {page : List Byte} {n m : Nat} : (takeHead page n d).sq m = d.sq m := by
  unfold takeHead
  split
  · rfl
  · split
    · rfl
    · exact cqError_sq

theorem takeHead_reg {page : List Byte} {n o : Nat} (h : o ≠ 0x4540) : (takeHead page n d).reg o = d.reg o := by
  unfold takeHead
  split
  · rfl
  · split
    · rfl
    · exact cqError_onlyIn.2 o (by simpa using h)

theorem takeTail_sq_other {page : List Byte} {n m : Nat} (h : m ≠ n) : (takeTail page n d).sq m = d.sq m := by
  unfold takeTail
  split
  · rfl
  · split
    · rw [updSq_sq, if_neg h]
    · rw [sqError_sq, if_neg h]

theorem takeTail_reg {page : List Byte} {n o : Nat} (h : o ≠ 0x4540) : (takeTail page n d).reg o = d.reg o := by
  unfold takeTail
  split
  · rfl
  · split
    · rfl
    · exact sqError_onlyIn.2 o (by simpa using h)

protected theorem Raised.takeTail {k n : Nat} {page : List Byte} (h : Raised k d) : Raised k (takeTail page n d) := by
  unfold Machine.takeTail
  split
  · exact h
  · split
    · exact h.updSq
    · exact h.sqError

protected theorem Raised.takeHead {k n : Nat} {page : List Byte} (h : Raised k d) : Raised k (takeHead page n d) := by
  unfold Machine.takeHead
  split
  · exact h
  · split
    · exact h.updCq
    · exact h.cqError

/-- A ring refused stays so while the other words are taken. -/
theorem TailRefused.next {page : List Byte} {n t m : Nat} (h : TailRefused n t d) : TailRefused n t (takeHead page m (takeTail page m d)) := by
  have hsq : (takeHead page m (takeTail page m d)).sq n = d.sq n := by
    rw [takeHead_sq]
    by_cases hm : n = m
    · subst hm
      rw [takeTail_notRunning (by rw [h.st]; decide)]
    · exact takeTail_sq_other hm
  exact ⟨hsq ▸ h.st, hsq ▸ h.err, hsq ▸ h.tail_eq, h.raised.takeTail.takeHead⟩

/-- The word of ring `n` is at or above the ring's size: it is refused at its turn. -/
theorem takeTail_refuses {page : List Byte} {n : Nat} (hr : (d.sq n).st = .running) (hw : min 4096 (sqSize d n) ≤ tailWord page n) :
    TailRefused n (d.sq n).tail (takeHead page n (takeTail page n d)) := by
  have hbad : doorbellOk (sqSize d n) (tailWord page n) = false := by simp [doorbellOk]; omega
  have he : takeTail page n d = sqError n 1 d := by
    rw [takeTail, hr, hbad]
    rfl
  have hsq : (takeHead page n (takeTail page n d)).sq n = { d.sq n with st := .error, err := 1 } := by
    rw [takeHead_sq, he, sqError_sq, if_pos rfl]
  have hraised : Raised n (takeTail page n d) := he ▸ raised_raise n _
  exact ⟨by rw [hsq], by rw [hsq], by rw [hsq], hraised.takeHead⟩

/-- A ring already refused stays so while a list of words is taken. -/
theorem TailRefused.foldl {page : List Byte} {n t : Nat} {l : List Nat} (h : TailRefused n t d) :
    TailRefused n t (l.foldl (fun d n => takeHead page n (takeTail page n d)) d) := by
  induction l generalizing d with
  | nil => exact h
  | cons m l ih => exact ih h.next

/-- A list of words among which a running ring's own is not good. -/
theorem tailRefused_foldl {page : List Byte} {n : Nat} {l : List Nat} (hn : n ∈ l) (hr : (d.sq n).st = .running)
    (hw : min 4096 (sqSize d n) ≤ tailWord page n) :
    TailRefused n (d.sq n).tail (l.foldl (fun d n => takeHead page n (takeTail page n d)) d) := by
  induction l generalizing d with
  | nil => cases hn
  | cons m l ih =>
    by_cases hm : n = m
    · subst hm
      exact (takeTail_refuses hr hw).foldl
    · have hsq : (takeHead page m (takeTail page m d)).sq n = d.sq n := takeHead_sq.trans (takeTail_sq_other hm)
      by_cases ho : 0x2008 + 0x20 * n = 0x4540
      · omega
      · have hsize : sqSize (takeHead page m (takeTail page m d)) n = sqSize d n := by
          rw [sqSize, Device.regF, takeHead_reg ho, takeTail_reg ho, sqSize, Device.regF]
        have hgoal := ih (List.mem_of_ne_of_mem hm hn) (hsq ▸ hr) (hsize ▸ hw)
        rwa [hsq] at hgoal

theorem doorbellPollReturn_refuses (s : State) (page : List Byte) (n : Nat) (hp : s.dev.hif.polling = true) (hn : n < 8)
    (hr : (s.dev.sq n).st = .running) (hw : min 4096 (sqSize s.dev n) ≤ leAt page (0x40 + 4 * n) 4) :
    Completes (.doorbellPollReturn (.ok page)) s fun d =>
      (d.sq n).st = .error ∧ (d.sq n).err = 1 ∧ (d.sq n).tail = (s.dev.sq n).tail ∧ Raised n d := by
  have h := tailRefused_foldl (d := pollOver s.dev) (page := page) (List.mem_range.mpr hn) hr hw
  refine doorbellPollReturn_ok hp ?_
  rw [takePage]
  generalize (List.range 8).foldl (fun d n => takeHead page n (takeTail page n d)) (pollOver s.dev) = e at h
  exact ⟨h.st, h.err, h.tail_eq, h.raised.of_icu rfl⟩

end

/-- Settles O30, clause by clause: the words are taken ring by ring, and a ring's word refused is not taken back. -/
theorem doorbellPollsTakeTheTails : Obligations.DoorbellPollsTakeTheTails :=
  ⟨doorbellPoll_begins, doorbellPoll_early, doorbellPollReturn_fails, doorbellPollReturn_takes, doorbellPollReturn_refuses⟩

end Sys2Proof.Machine
end

section
/-!
PROOFS. Arbitration and fetch: which ring the next entry comes from, what a fetch changes, and the command that an entry makes.
-/

namespace Sys2Proof.Machine

section
variable {d e : Device}

/-! ### One fetch begins -/

theorem notePeak_onlyIn : OnlyIn [] [0x2204] d (notePeak d) := setRegF_onlyIn

theorem beginFetch_hif {n : Nat} : (beginFetch n d).hif = { d.hif with fetching := some n } := by
  unfold beginFetch
  dsimp only
  split
  · rw [raise_hif]
    rfl
  · rfl

theorem beginFetch_onlyIn {n : Nat} : OnlyIn (.hif :: interruptParts) [0x2204, 0x4540] d (beginFetch n d) := by
  have hpeak : OnlyIn (.hif :: interruptParts) [0x2204, 0x4540] d (notePeak (updHif (fun h => { h with fetching := some n }) d)) :=
    OnlyIn.refl.andThen updHif_onlyIn |>.andThen notePeak_onlyIn
  unfold beginFetch
  dsimp only
  split
  · exact hpeak.andThen raise_onlyIn
  · exact hpeak

/-- A fetch from ring `n`, after the arbiter noted its turn. -/
theorem beginFetch_updHif {n : Nat} {f : HostIf → HostIf} :
    (beginFetch n (updHif f d)).hif = { f d.hif with fetching := some n } ∧
      OnlyIn (.hif :: interruptParts) [0x2204, 0x4540] d (beginFetch n (updHif f d)) :=
  ⟨beginFetch_hif, (OnlyIn.refl.andThen updHif_onlyIn).trans beginFetch_onlyIn⟩

/-! ### The arbiter's choice -/

theorem fetchEntry_to {s : State} {P : Device → Prop} (hm : mayFetch s.dev = true) (he : fetchNext s.dev = e) (p : P e) :
    Completes .fetchEntry s P :=
  completes_to (f := fun d => onlyIf (mayFetch d) fetchNext d) rfl (by rw [hm, onlyIf_true, he]) p

theorem fetchEntry_bursts (s : State) (hm : mayFetch s.dev = true) (hb : wbit (s.dev.reg 0x2200) 31 = true)
    (hr : sqReady s.dev (s.dev.regF 0x2200 2 0) = true) :
    Completes .fetchEntry s fun d =>
      d.hif = { s.dev.hif with fetching := some (s.dev.regF 0x2200 2 0) } ∧ OnlyIn (.hif :: interruptParts) [0x2204, 0x4540] s.dev d := by
  have hu : urgentReady s.dev = true := by rw [urgentReady, hb, hr, Bool.and_self]
  exact fetchEntry_to hm (if_pos hu) ⟨beginFetch_hif, beginFetch_onlyIn⟩

theorem urgentReady_false (hb : wbit (d.reg 0x2200) 31 = false) : urgentReady d = false := by rw [urgentReady, hb, Bool.false_and]

theorem fetchEntry_goesOn (s : State) (hm : mayFetch s.dev = true) (hb : wbit (s.dev.reg 0x2200) 31 = false)
    (hr : sqReady s.dev s.dev.hif.turn = true) (hw : s.dev.hif.turnUsed < s.dev.regF (0x2008 + 0x20 * s.dev.hif.turn) 27 24 + 1) :
    Completes .fetchEntry s fun d =>
      d.hif = { s.dev.hif with fetching := some s.dev.hif.turn, turnUsed := s.dev.hif.turnUsed + 1 } ∧
      OnlyIn (.hif :: interruptParts) [0x2204, 0x4540] s.dev d := by
  have ht : turnGoesOn s.dev = true := by rw [turnGoesOn, hr, sqWeight, decide_eq_true hw, Bool.and_self]
  exact fetchEntry_to hm ((if_neg (by rw [urgentReady_false hb]; decide)).trans (if_pos ht)) beginFetch_updHif

/-- The turn passes to the first ready ring after the current one. -/
theorem fetchNext_passes {n : Nat} (hb : wbit (d.reg 0x2200) 31 = false) (ht : turnGoesOn d = false) (hn : nextReady d = some n) :
    fetchNext d = beginFetch n (updHif (fun h => { h with turn := n, turnUsed := 1 }) d) := by
  rw [fetchNext, if_neg (by rw [urgentReady_false hb]; decide), if_neg (by rw [ht]; decide), hn]

theorem nextReady_some {k : Nat} (hk : k < 8) (hr : sqReady d ((d.hif.turn + 1 + k) % 8) = true)
    (hf : ∀ j, j < k → sqReady d ((d.hif.turn + 1 + j) % 8) = false) : nextReady d = some ((d.hif.turn + 1 + k) % 8) := by
  rw [nextReady, List.find?_map, Option.map_eq_some_iff]
  refine ⟨k, List.find?_range_eq_some.mpr ⟨hr, List.mem_range.mpr hk, fun j hj => ?_⟩, rfl⟩
  rw [Function.comp_apply, hf j hj]
  rfl

theorem fetchEntry_passes (s : State) (k : Nat) (hm : mayFetch s.dev = true) (hb : wbit (s.dev.reg 0x2200) 31 = false) (hk : k < 8)
    (ht : sqReady s.dev s.dev.hif.turn = true → s.dev.regF (0x2008 + 0x20 * s.dev.hif.turn) 27 24 + 1 ≤ s.dev.hif.turnUsed)
    (hr : sqReady s.dev ((s.dev.hif.turn + 1 + k) % 8) = true)
    (hf : ∀ j, j < k → sqReady s.dev ((s.dev.hif.turn + 1 + j) % 8) = false) :
    Completes .fetchEntry s fun d =>
      d.hif = { s.dev.hif with fetching := some ((s.dev.hif.turn + 1 + k) % 8), turn := (s.dev.hif.turn + 1 + k) % 8, turnUsed := 1 } ∧
      OnlyIn (.hif :: interruptParts) [0x2204, 0x4540] s.dev d := by
  have hover : turnGoesOn s.dev = false := by
    cases hq : sqReady s.dev s.dev.hif.turn with
    | false => rw [turnGoesOn, hq, Bool.false_and]
    | true => rw [turnGoesOn, hq, Bool.true_and, sqWeight, decide_eq_false (Nat.not_lt.mpr (ht hq))]
  exact fetchEntry_to hm (fetchNext_passes hb hover (nextReady_some hk hr hf)) beginFetch_updHif

/-- No ring is ready while all the commands are in flight (R308). -/
theorem sqReady_full (h : 256 ≤ inFlight d) (n : Nat) : sqReady d n = false := by simp [sqReady, barred, h]

theorem fetchEntry_full (s : State) (h : 256 ≤ inFlight s.dev) : Completes .fetchEntry s fun d => d = s.dev := by
  have hu : urgentReady s.dev = false := by rw [urgentReady, sqReady_full h, Bool.and_false]
  have ht : turnGoesOn s.dev = false := by rw [turnGoesOn, sqReady_full h, Bool.false_and]
  have hn : nextReady s.dev = none := List.find?_eq_none.mpr fun n _ => by rw [sqReady_full h]; decide
  have hnone : fetchNext s.dev = s.dev := by
    rw [fetchNext, if_neg (by rw [hu]; decide), if_neg (by rw [ht]; decide), hn]
  refine completes_to (f := fun d => onlyIf (mayFetch d) fetchNext d) rfl ?_ rfl
  cases mayFetch s.dev with
  | false => rfl
  | true => exact hnone

/-! ### The entry comes -/

/-- The fetch under way has ended. -/
def fetchOver (d : Device) : Device := updHif (fun h => { h with fetching := none }) d

theorem entryFetched_failed {s : State} {n : Nat} {P : Device → Prop} (hn : s.dev.hif.fetching = some n)
    (p : P (fetchError n (fetchOver s.dev))) : Completes (.entryFetched .failed) s P := by
  refine ⟨_, rfl, rfl, ?_⟩
  dsimp only
  rw [hn]
  exact p

theorem entryFetched_ok {s : State} {n : Nat} {e : List Byte} {P : Device → Prop} (hn : s.dev.hif.fetching = some n)
    (p : P (takeEntry n e (fetchOver s.dev))) : Completes (.entryFetched (.ok e)) s P := by
  refine ⟨_, rfl, rfl, ?_⟩
  dsimp only
  rw [hn]
  exact p

/-- A read for a running ring failed (R317). -/
theorem fetchError_running {n : Nat} (h : (d.sq n).st = .running) : fetchError n d = raise 13 (sqError n 2 (count 0x1038 d)) := by
  have hst : ((count 0x1038 d).sq n).st ≠ .error := by
    show (d.sq n).st ≠ .error
    rw [h]
    decide
  rw [fetchError, if_neg hst]

theorem fetchError_sq {n : Nat} (h : (d.sq n).st = .running) : (fetchError n d).sq n = { d.sq n with st := .error, err := 2 } := by
  rw [fetchError_running h, raise_sq, sqError_sq, if_pos rfl]
  rfl

theorem fetchError_onlyIn {n : Nat} : OnlyIn (.hif :: interruptParts) [0x1038, 0x4540] d (fetchError n d) := by
  have hc : OnlyIn (.hif :: interruptParts) [0x1038, 0x4540] d (count 0x1038 d) := OnlyIn.refl.andThen count_onlyIn
  unfold fetchError
  dsimp only
  split
  · exact hc.andThen raise_onlyIn
  · exact hc.andThen sqError_onlyIn |>.andThen raise_onlyIn

theorem fetchError_reg {n : Nat} (h : (d.sq n).st = .running) :
    (fetchError n d).reg 0x1038 = BitVec.ofNat 32 (min 0xFFFFFFFF ((d.reg 0x1038).toNat + 1)) := by
  rw [fetchError_running h, raise_onlyIn.2 0x1038 (by decide), sqError_onlyIn.2 0x1038 (by decide), count_reg, if_pos rfl]

theorem fetchError_raised {n : Nat} (h : (d.sq n).st = .running) : Raised n (fetchError n d) ∧ Raised 13 (fetchError n d) := by
  rw [fetchError_running h]
  exact ⟨Raised.raise (raised_raise n _) 13, raised_raise 13 _⟩

/-- Of the host interface a failed read changes the ring's table alone. -/
theorem fetchError_hif {n : Nat} (h : (d.sq n).st = .running) : ∃ q, (fetchError n d).hif = { d.hif with sqs := q } := by
  rw [fetchError_running h, raise_hif, sqError, raise_hif]
  exact ⟨_, rfl⟩

theorem entryFetched_fails (s : State) (n : Nat) (hn : s.dev.hif.fetching = some n) (hr : (s.dev.sq n).st = .running) (_hlt : n < 8) :
    Completes (.entryFetched .failed) s fun d =>
      d.hif.fetching = none ∧ d.hif.cmds = s.dev.hif.cmds ∧ d.sq n = { s.dev.sq n with st := .error, err := 2 } ∧ Raised n d ∧ Raised 13 d ∧
      d.reg 0x1038 = BitVec.ofNat 32 (min 0xFFFFFFFF ((s.dev.reg 0x1038).toNat + 1)) ∧
      OnlyIn (.hif :: interruptParts) [0x1038, 0x4540] s.dev d := by
  have hover : ((fetchOver s.dev).sq n).st = .running := hr
  obtain ⟨q, hq⟩ := fetchError_hif hover
  obtain ⟨hraised, hraised13⟩ := fetchError_raised hover
  refine entryFetched_failed hn ⟨by rw [hq]; rfl, by rw [hq]; rfl, fetchError_sq hover, hraised, hraised13, fetchError_reg hover, ?_⟩
  exact (OnlyIn.refl.andThen updHif_onlyIn).trans fetchError_onlyIn

/-- The device in which the entry `e` of ring `n` has become a command, before its checks. -/
def entered (n : Nat) (e : List Byte) (d : Device) : Device :=
  let d' := updHif (fun h => { h with cmds := h.cmds ++ [newCmd n e d], nextTag := h.nextTag + 1 }) d
  count 0x2208 (updSq n (passEntry (sqSize d' n)) d')

theorem takeEntry_eq {n : Nat} {e : List Byte} : takeEntry n e d = takeCmd (newCmd n e d) (entered n e d) := rfl

/-- The new command is found under its number. -/
theorem entered_cmd {n : Nat} {e : List Byte} (h : ∀ x ∈ d.hif.cmds, x.tag ≠ d.hif.nextTag) :
    (entered n e d).cmd d.hif.nextTag = some (newCmd n e d) := by
  show (d.hif.cmds ++ [newCmd n e d]).find? (fun c => c.tag = d.hif.nextTag) = some (newCmd n e d)
  rw [List.find?_append, List.find?_eq_none.mpr fun x hx => by simpa using h x hx]
  simp [newCmd]

/-- A command's number is found nowhere before it: changing it changes the last command. -/
theorem updateFirst_last {c : Cmd} {l : List Cmd} {t : Nat} {f : Cmd → Cmd} (h : ∀ x ∈ l, x.tag ≠ t) (hc : c.tag = t) :
    updateFirst (fun c => c.tag = t) f (l ++ [c]) = l ++ [f c] := by
  induction l with
  | nil => simp [updateFirst, hc]
  | cons x l ih =>
    have hx : x.tag ≠ t := h x List.mem_cons_self
    rw [List.cons_append, updateFirst, if_neg (by simpa using hx), ih fun y hy => h y (List.mem_cons_of_mem x hy)]
    rfl

/-- The mode's acceptance looks at no ring and no command. -/
theorem entered_modeAccepts {n : Nat} {e b : List Byte} : modeAccepts (entered n e d) b = modeAccepts d b := by
  have hreg : (entered n e d).reg 0x15000 = d.reg 0x15000 := (count_reg _ _ _).trans (if_neg (by decide))
  simp only [modeAccepts, isSafety, safetyOwner, Device.regF, hreg]
  rfl

/-- A command that the mode takes and whose slot is good is dispatched, or waits for admission (R309, R326). -/
theorem dispatchCmd_accepted {tag : Nat} {c : Cmd} (hc : d.cmd tag = some c) (hm : modeAccepts d c.entry = true) (hs : c.slotSt = none)
    (hw : needsMedium c = true → d.hif.ps = 0) :
    dispatchCmd tag d = setPhase tag (if eOpcode c.entry = 0x01 then .admission else .dispatched) d := by
  have hwake : (if needsMedium c then wakePower d else d) = d := by
    split
    next hn => rw [wakePower, hw hn]; rfl
    next => rfl
  rw [dispatchCmd, hc]
  dsimp only
  rw [hm, hs]
  dsimp only
  rw [hwake]
  rfl

theorem entered_onlyIn {n : Nat} {e : List Byte} : OnlyIn [.hif] [0x2208] d (entered n e d) :=
  OnlyIn.refl.andThen updHif_onlyIn |>.andThen updSq_onlyIn |>.andThen count_onlyIn

/-- A good entry that the mode and its owner's slot let pass becomes a command (R309). -/
theorem takeEntry_accepted {n : Nat} {e : List Byte} (ht : ∀ x ∈ d.hif.cmds, x.tag ≠ d.hif.nextTag) (he : entryStatus n e = none)
    (hl : eSgl e = false) (hm : modeAccepts d e = true) (hs : (newCmd n e d).slotSt = none)
    (hw : needsMedium (newCmd n e d) = true → d.hif.ps = 0) :
    takeEntry n e d = setPhase d.hif.nextTag (if eOpcode e = 0x01 then .admission else .dispatched) (entered n e d) := by
  have hgood : entryStatus (newCmd n e d).sq (newCmd n e d).entry = none := he
  have hlist : eSgl (newCmd n e d).entry = false := hl
  rw [takeEntry_eq, takeCmd, hgood]
  dsimp only
  rw [hlist]
  exact dispatchCmd_accepted (entered_cmd ht) (entered_modeAccepts.trans hm) hs hw

/-- A command taken in: the list of those in flight, the ring's position, and the count. -/
theorem setPhase_entered {n : Nat} {e : List Byte} {p : CmdPhase} (ht : ∀ x ∈ d.hif.cmds, x.tag ≠ d.hif.nextTag) :
    (setPhase d.hif.nextTag p (entered n e d)).hif.cmds = d.hif.cmds ++ [{ newCmd n e d with phase := p }] ∧
      (setPhase d.hif.nextTag p (entered n e d)).sq n = passEntry (sqSize d n) (d.sq n) ∧
      (setPhase d.hif.nextTag p (entered n e d)).reg 0x2208 = BitVec.ofNat 32 (min 0xFFFFFFFF ((d.reg 0x2208).toNat + 1)) ∧
      (setPhase d.hif.nextTag p (entered n e d)).hif.fetching = d.hif.fetching ∧
      OnlyIn [.hif] [0x2208] d (setPhase d.hif.nextTag p (entered n e d)) :=
  ⟨updateFirst_last ht rfl, updSq_sq_self n _ _, (count_reg _ _ _).trans (if_pos rfl), rfl, entered_onlyIn.andThen setPhase_onlyIn⟩

theorem entryFetched_enters (s : State) (n : Nat) (e : List Byte) (hn : s.dev.hif.fetching = some n)
    (ht : ∀ x ∈ s.dev.hif.cmds, x.tag ≠ s.dev.hif.nextTag) (he : entryStatus n e = none) (hl : eSgl e = false)
    (hm : modeAccepts s.dev e = true) (hs : isAdmin (eOpcode e) = true ∨ slotStatus s.dev (ringOwner s.dev n) = none)
    (hw : needsMedium (newCmd n e s.dev) = true → s.dev.hif.ps = 0) :
    Completes (.entryFetched (.ok e)) s fun d =>
      d.hif.fetching = none ∧
      d.hif.cmds = s.dev.hif.cmds ++ [{ newCmd n e s.dev with phase := if eOpcode e = 0x01 then .admission else .dispatched }] ∧
      d.sq n = passEntry (sqSize s.dev n) (s.dev.sq n) ∧
      d.reg 0x2208 = BitVec.ofNat 32 (min 0xFFFFFFFF ((s.dev.reg 0x2208).toNat + 1)) ∧ OnlyIn [.hif] [0x2208] s.dev d := by
  have hslot : (newCmd n e s.dev).slotSt = none := by
    rcases hs with ha | hs
    · exact if_pos ha
    · exact (congrArg (fun x => if isAdmin (eOpcode e) then none else x) hs).trans (ite_self none)
  have hover : OnlyIn [.hif] [0x2208] s.dev (fetchOver s.dev) := OnlyIn.refl.andThen updHif_onlyIn
  have htaken : takeEntry n e (fetchOver s.dev) = _ := takeEntry_accepted ht he hl hm hslot hw
  obtain ⟨hcmds, hsq, hreg, hfetch, honly⟩ := setPhase_entered (d := fetchOver s.dev) (n := n) (e := e)
    (p := if eOpcode e = 0x01 then .admission else .dispatched) ht
  refine entryFetched_ok hn ?_
  rw [htaken]
  exact ⟨hfetch, hcmds, hsq, hreg, hover.trans honly⟩

theorem copyClosed_onlyIn {l i : Nat} : OnlyIn [.evt] [] d (copyClosed l i d) := by
  unfold copyClosed
  split
  · split
    · exact .refl
    · exact logLater_onlyIn
  · exact .refl

/-- The end of an excursion changes the excursions and the event log's queue. -/
theorem excEnd_onlyIn {l i : Nat} : OnlyIn [.exc, .evt] [] d (excEnd l i d) := by
  unfold excEnd
  split
  · exact setExc_onlyIn.mono (by decide) (by decide) |>.andThen copyClosed_onlyIn
  · exact .refl

theorem setRdc_onlyIn {x : ReadChannel} : OnlyIn [.rdc] [] d { d with rdc := x } := by
  refine ⟨fun p hp => ?_, fun _ _ => rfl⟩
  cases p with
  | rdc => simp at hp
  | _ => rfl

/-- The end of a read changes the read channel, the excursions and the event log's queue. -/
theorem readOver_onlyIn : OnlyIn [.rdc, .exc, .evt] [] d (readOver d) := by
  have hfirst : OnlyIn [.rdc, .exc, .evt] [] d (if d.rdc.clusters.any (·.held.isSome) then d else excEnd 3 3 d) := by
    split
    · exact .refl
    · exact OnlyIn.refl.andThen excEnd_onlyIn
  unfold readOver
  dsimp only
  generalize (if d.rdc.clusters.any (·.held.isSome) then d else excEnd 3 3 d) = e at hfirst
  split
  · exact (hfirst.trans (setRdc_onlyIn.mono (by decide) (by decide))).andThen excEnd_onlyIn
  · exact hfirst

theorem dropReads_onlyIn {p : ReadFor → Bool} : OnlyIn [.rdc, .exc, .evt] [] d (dropReads p d) := by
  unfold dropReads
  split
  · exact (setRdc_onlyIn.mono (by decide) (by decide)).trans readOver_onlyIn
  · exact .refl

/-- A command that runs, and is not to be discarded, ends with a completion ready behind the others (R310). -/
theorem finishWith_ready {tag st result mark : Nat} {single : Bool} {c : Cmd} (hc : d.cmd tag = some c) (hp : c.phase ≠ .done)
    (hd : c.discard = false) :
    (finishWith tag st result single mark d).hif.ready = d.hif.ready ++ [completionOf c st result single mark] := by
  have hready : (dropReads (readsFor tag) d).hif.ready = d.hif.ready := by rw [dropReads_onlyIn.1 .hif (by decide)]
  rw [finishWith, hc]
  dsimp only
  rw [if_neg hp, hd]
  exact congrArg (· ++ [completionOf c st result single mark]) hready

/-- An entry that fails its first checks completes with their status (R309). -/
theorem takeEntry_refused {n st : Nat} {e : List Byte} (ht : ∀ x ∈ d.hif.cmds, x.tag ≠ d.hif.nextTag) (he : entryStatus n e = some st) :
    ∃ x ∈ (takeEntry n e d).hif.ready, x.tag = d.hif.nextTag ∧ x.sq = n ∧ x.status = st := by
  have hbad : entryStatus (newCmd n e d).sq (newCmd n e d).entry = some st := he
  have hcmd : (entered n e d).cmd (newCmd n e d).tag = some (newCmd n e d) := entered_cmd ht
  have hready := finishWith_ready (st := st) (result := 0) (single := false)
    (mark := ((entered n e d).cmd (newCmd n e d).tag).elim 0 fun c => entryMark c.entry) hcmd nofun rfl
  rw [takeEntry_eq, takeCmd, hbad]
  dsimp only
  rw [finish, hready]
  exact ⟨_, List.mem_append_right _ (List.mem_singleton.mpr rfl), rfl, rfl, rfl⟩

theorem entryFetched_refuses (s : State) (n st : Nat) (e : List Byte) (hn : s.dev.hif.fetching = some n)
    (ht : ∀ x ∈ s.dev.hif.cmds, x.tag ≠ s.dev.hif.nextTag) (he : entryStatus n e = some st) :
    Completes (.entryFetched (.ok e)) s fun d => ∃ x ∈ d.hif.ready, x.tag = s.dev.hif.nextTag ∧ x.sq = n ∧ x.status = st :=
  entryFetched_ok hn (takeEntry_refused (d := fetchOver s.dev) ht he)

end

/-- Settles O31, clause by clause: the arbiter's choice and its fetch, and what becomes of the entry. -/
theorem entriesAreFetchedInTurn : Obligations.EntriesAreFetchedInTurn :=
  ⟨fetchEntry_bursts, fetchEntry_goesOn, fetchEntry_passes, fetchEntry_full, entryFetched_fails, entryFetched_enters,
    entryFetched_refuses⟩

end Sys2Proof.Machine
end

section
/-!
PROOFS. Payloads, scatter lists, completions and their signals.
-/

namespace Sys2Proof.Machine

section
variable {d e : Device}

/-! ### Payloads and scatter lists -/

theorem payloadReadReturn_to {s : State} {tag : Nat} {c : Cmd} {res : DmaResult} {P : Device → Prop} (hc : s.dev.cmd tag = some c)
    (hp : c.phase = .payload) (p : P (takePayload tag res s.dev)) : Completes (.payloadReadReturn tag false res) s P := by
  refine ⟨_, rfl, rfl, ?_⟩
  dsimp only
  rw [hc]
  simp only [Bool.false_eq_true, if_false, hp, decide_true, onlyIf_true]
  exact p

theorem takePayload_onlyIn {tag : Nat} {res : DmaResult} : OnlyIn [.hif] [] d (takePayload tag res d) := updCmd_onlyIn

/-- The command's payload is taken: the bytes, or poison in their place. -/
theorem takePayload_ok {tag : Nat} {c : Cmd} {bytes : List Byte} (hc : d.cmd tag = some c) (hl : bytes.length = eDlen c.entry) :
    (takePayload tag (.ok bytes) d).cmd tag = some { c with phase := .dispatched, payload := bytes } := by
  have hbytes : (padTo (eDlen c.entry) 0 bytes).take (eDlen c.entry) = bytes := by simp [padTo, ← hl]
  have hf : takePayload tag (.ok bytes) d = updCmd tag (fun c => { c with
      phase := .dispatched, payload := (padTo (eDlen c.entry) 0 bytes).take (eDlen c.entry) }) d := rfl
  rw [hf, updCmd_cmd, hc, Option.map_some, hbytes]
  exact fun _ => rfl

theorem takePayload_failed {tag : Nat} {c : Cmd} (hc : d.cmd tag = some c) :
    (takePayload tag .failed d).cmd tag =
      some { c with phase := .dispatched, payload := List.replicate (eDlen c.entry) 0, poisoned := true } := by
  have hf : takePayload tag .failed d = updCmd tag (fun c => { c with
      phase := .dispatched, payload := List.replicate (eDlen c.entry) 0, poisoned := true }) d := rfl
  rw [hf, updCmd_cmd, hc, Option.map_some]
  exact fun _ => rfl

theorem payloadReadReturn_takes (s : State) (tag : Nat) (c : Cmd) (bytes : List Byte) (hc : s.dev.cmd tag = some c)
    (hp : c.phase = .payload) (hl : bytes.length = eDlen c.entry) :
    Completes (.payloadReadReturn tag false (.ok bytes)) s fun d =>
      d.cmd tag = some { c with phase := .dispatched, payload := bytes } ∧ OnlyIn [.hif] [] s.dev d :=
  payloadReadReturn_to hc hp ⟨takePayload_ok hc hl, takePayload_onlyIn⟩

theorem payloadReadReturn_poisons (s : State) (tag : Nat) (c : Cmd) (hc : s.dev.cmd tag = some c) (hp : c.phase = .payload) :
    Completes (.payloadReadReturn tag false .failed) s fun d =>
      d.cmd tag = some { c with phase := .dispatched, payload := List.replicate (eDlen c.entry) 0, poisoned := true } ∧
      OnlyIn [.hif] [] s.dev d :=
  payloadReadReturn_to hc hp ⟨takePayload_failed hc, takePayload_onlyIn⟩

theorem payloadReadReturn_losesScatter (s : State) (tag : Nat) (c : Cmd) (hc : s.dev.cmd tag = some c) (hp : c.phase = .scatter)
    (hr : (s.dev.sq c.sq).st = .running) :
    Completes (.payloadReadReturn tag true .failed) s fun d =>
      d.cmd tag = some { c with phase := .dead } ∧ (d.sq c.sq).st = .error ∧ (d.sq c.sq).err = 2 ∧ Raised 13 d ∧
      OnlyIn (.hif :: interruptParts) [0x1038, 0x4540] s.dev d := by
  obtain rfl : c.tag = tag := by simpa using List.find?_some hc
  have hrun : ((setPhase c.tag .dead s.dev).sq c.sq).st = .running := hr
  have hlost : loseScatter c s.dev = fetchError c.sq (setPhase c.tag .dead s.dev) := rfl
  refine ⟨_, rfl, rfl, ?_⟩
  dsimp only
  rw [hc]
  simp only [if_true, hp, decide_true, onlyIf_true]
  rw [hlost]
  obtain ⟨q, hq⟩ := fetchError_hif hrun
  refine ⟨?_, by rw [fetchError_sq hrun], by rw [fetchError_sq hrun], (fetchError_raised hrun).2, ?_⟩
  · have hcmds : (fetchError c.sq (setPhase c.tag .dead s.dev)).cmd c.tag = (setPhase c.tag .dead s.dev).cmd c.tag := by
      rw [Device.cmd, hq]
      rfl
    rw [hcmds, setPhase_cmd, hc, Option.map_some]
  · exact (OnlyIn.refl.andThen setPhase_onlyIn).trans fetchError_onlyIn

/-! ### A signal of a completion ring -/

/-- A signal leaves, or its pending bit is set (R311). -/
theorem msixSignal_onlyIn {v : Nat} : OnlyIn [.bus] [] d (msixSignal v d) := by
  unfold msixSignal
  split <;> exact setBus_onlyIn

/-- A signal takes back nothing that has left. -/
theorem msixSignal_out {v : Nat} {w : HostWrite} (h : w ∈ d.bus.out) : w ∈ (msixSignal v d).bus.out := by
  unfold msixSignal
  split
  · exact List.mem_cons_of_mem _ h
  · exact h

theorem signalCq_onlyIn {n : Nat} : OnlyIn [.hif, .bus] [] d (signalCq n d) :=
  (updCq_onlyIn.mono (by decide) (by decide)).andThen msixSignal_onlyIn

theorem signalCq_hif {n : Nat} : (signalCq n d).hif = (updCq n (fun q => { q with count := 0, since := none }) d).hif :=
  msixSignal_onlyIn.1 .hif (by decide)

theorem signalCq_cq {n m : Nat} :
    (signalCq n d).cq m = if m = n then { d.cq n with count := 0, since := none } else d.cq m := by
  rw [Device.cq, signalCq_hif]
  exact updCq_cq n _ d m

/-- The vector of completion ring `n`. -/
def cqVector (d : Device) (n : Nat) : Nat := d.regF (0x2108 + 0x20 * n) 20 16

/-- The signal of completion ring `n`, as its vector may leave or not. -/
theorem signalCq_bus {n : Nat} : (signalCq n d).bus =
    if msixOpen d (cqVector d n) then { d.bus with out := .msix (cqVector d n) :: d.bus.out }
    else { d.bus with pba := d.bus.pba ||| BitVec.ofNat 32 (2 ^ cqVector d n) } := by
  show (if msixOpen d (cqVector d n) then _ else _ : Device).bus = _
  split <;> rfl

theorem coalesceDue_true {n t : Nat} (hw : wbit (d.reg (0x2108 + 0x20 * n)) 30 = true) (hs : (d.cq n).since = some t)
    (ht : t + 25 * d.regF (0x210C + 0x20 * n) 15 0 ≤ d.now) : coalesceDue d n = true := by
  rw [coalesceDue, hw, hs]
  exact decide_eq_true ht

theorem coalesceTimerExpiry_to {s : State} {n t : Nat} {P : Device → Prop} (hn : n < 8)
    (hw : wbit (s.dev.reg (0x2108 + 0x20 * n)) 30 = true) (hs : (s.dev.cq n).since = some t)
    (ht : t + 25 * s.dev.regF (0x210C + 0x20 * n) 15 0 ≤ s.dev.now) (p : P (signalCq n s.dev)) :
    Completes (.coalesceTimerExpiry n) s P := by
  refine completes_to (f := fun d => onlyIf (n < 8 && coalesceDue d n) (signalCq n) d) rfl ?_ p
  rw [decide_eq_true hn, coalesceDue_true hw hs ht, Bool.and_self, onlyIf_true]

theorem coalesceTimerExpiry_sends (s : State) (n t : Nat) (hn : n < 8) (hw : wbit (s.dev.reg (0x2108 + 0x20 * n)) 30 = true)
    (hs : (s.dev.cq n).since = some t) (ht : t + 25 * s.dev.regF (0x210C + 0x20 * n) 15 0 ≤ s.dev.now)
    (ho : msixOpen s.dev (s.dev.regF (0x2108 + 0x20 * n) 20 16) = true) :
    Completes (.coalesceTimerExpiry n) s fun d =>
      d.cq n = { s.dev.cq n with count := 0, since := none } ∧
      d.bus = { s.dev.bus with out := .msix (s.dev.regF (0x2108 + 0x20 * n) 20 16) :: s.dev.bus.out } ∧
      OnlyIn [.hif, .bus] [] s.dev d :=
  coalesceTimerExpiry_to hn hw hs ht ⟨signalCq_cq.trans (if_pos rfl), signalCq_bus.trans (if_pos ho), signalCq_onlyIn⟩

theorem coalesceTimerExpiry_pends (s : State) (n t : Nat) (hn : n < 8) (hw : wbit (s.dev.reg (0x2108 + 0x20 * n)) 30 = true)
    (hs : (s.dev.cq n).since = some t) (ht : t + 25 * s.dev.regF (0x210C + 0x20 * n) 15 0 ≤ s.dev.now)
    (ho : msixOpen s.dev (s.dev.regF (0x2108 + 0x20 * n) 20 16) = false) :
    Completes (.coalesceTimerExpiry n) s fun d =>
      d.cq n = { s.dev.cq n with count := 0, since := none } ∧
      d.bus = { s.dev.bus with pba := s.dev.bus.pba ||| BitVec.ofNat 32 (2 ^ s.dev.regF (0x2108 + 0x20 * n) 20 16) } ∧
      OnlyIn [.hif, .bus] [] s.dev d :=
  coalesceTimerExpiry_to hn hw hs ht
    ⟨signalCq_cq.trans (if_pos rfl), signalCq_bus.trans (if_neg (by rw [cqVector, ho]; decide)), signalCq_onlyIn⟩

/-! ### A completion is posted -/

/-- What the count and the signal of a posted completion, and its entry in the log of errors, leave as they find it. -/
structure PostKept (n : Nat) (d e : Device) : Prop where
  tail : (e.cq n).tail = (d.cq n).tail
  phase : (e.cq n).phase = (d.cq n).phase
  cmds : e.hif.cmds = d.hif.cmds
  ready : e.hif.ready = d.hif.ready
  posted : e.hif.posted = d.hif.posted
  out : ∀ w ∈ d.bus.out, w ∈ e.bus.out
  frame : OnlyIn [.hif, .bus] [] d e

theorem PostKept.trans {n : Nat} {d₀ : Device} (h : PostKept n d₀ d) (g : PostKept n d e) : PostKept n d₀ e :=
  ⟨g.tail.trans h.tail, g.phase.trans h.phase, g.cmds.trans h.cmds, g.ready.trans h.ready, g.posted.trans h.posted,
    fun w hw => g.out w (h.out w hw), h.frame.trans g.frame⟩

theorem PostKept.refl {n : Nat} : PostKept n d d := ⟨rfl, rfl, rfl, rfl, rfl, fun _ h => h, .refl⟩

theorem logError_kept {n : Nat} {c : Completion} : PostKept n d (logError c d) := by
  unfold logError
  split
  · exact .refl
  · exact ⟨rfl, rfl, rfl, rfl, rfl, fun _ h => h, updHif_onlyIn.mono (by decide) (by decide)⟩

theorem signalCq_kept {n : Nat} : PostKept n d (signalCq n d) :=
  ⟨by rw [signalCq_cq, if_pos rfl], by rw [signalCq_cq, if_pos rfl], by rw [signalCq_hif]; rfl, by rw [signalCq_hif]; rfl,
    by rw [signalCq_hif]; rfl, fun _ h => msixSignal_out h, signalCq_onlyIn⟩

theorem coalesce_kept {n : Nat} {b : Bool} : PostKept n d (coalesce n b d) := by
  unfold coalesce
  split
  · exact .refl
  · have hcounted : PostKept n d (updCq n (fun q => { q with count := q.count + 1, since := some (q.since.getD d.now) }) d) :=
      ⟨by rw [updCq_cq_self], by rw [updCq_cq_self], rfl, rfl, rfl, fun _ h => h, updCq_onlyIn.mono (by decide) (by decide)⟩
    dsimp only
    split
    · exact hcounted.trans signalCq_kept
    · exact hcounted

/-- The bytes of a completion go out to their place in ring `n`. -/
def completionWrite (c : Completion) (n : Nat) (d : Device) : HostWrite :=
  .bytes (hostAddr d (0x2100 + 0x20 * n) + 16 * (d.cq n).tail) (completionBytes c (sqHead d c.sq) (d.cq n).phase)

/-- The completion has left the list of those ready, and its command those in flight. -/
def handedOver (c : Completion) (d : Device) : Device :=
  updHif (fun h => { h with
    ready := h.ready.filter fun x => x.tag != c.tag, cmds := h.cmds.filter fun x => x.tag != c.tag, posted := true })
    { d with bus := { d.bus with out := completionWrite c (cqOf d c.sq) d :: d.bus.out } }

/-- The completion has been written: its ring's tail goes on, and it is counted. -/
def written (c : Completion) (d : Device) : Device :=
  count 0x220C (updCq (cqOf d c.sq) (passCompletion (cqSize d (cqOf d c.sq))) (handedOver c d))

theorem postOne_eq {c : Completion} (h : d.gen.enterTag = none) :
    postOne c d = coalesce (cqOf d c.sq) c.noCoalesce (logError c (written c d)) := by
  have hgen : (coalesce (cqOf d c.sq) c.noCoalesce (logError c (written c d))).gen.enterTag = none := by
    rw [(logError_kept.trans coalesce_kept).frame.1 .gen (by decide)]
    exact h
  have hpump : pumpDust (coalesce (cqOf d c.sq) c.noCoalesce (logError c (written c d))) =
      coalesce (cqOf d c.sq) c.noCoalesce (logError c (written c d)) := by
    rw [pumpDust, hgen]
  exact hpump

theorem written_cq {c : Completion} :
    (written c d).cq (cqOf d c.sq) = passCompletion (cqSize d (cqOf d c.sq)) (d.cq (cqOf d c.sq)) := updCq_cq_self _ _ _

theorem written_onlyIn {c : Completion} : OnlyIn [.hif, .bus] [0x220C] d (written c d) := by
  have hbus : OnlyIn [.hif, .bus] [0x220C] d { d with bus := { d.bus with out := completionWrite c (cqOf d c.sq) d :: d.bus.out } } :=
    setBus_onlyIn.mono (by decide) (by decide)
  exact (hbus.andThen updHif_onlyIn).andThen updCq_onlyIn |>.andThen count_onlyIn

theorem written_reg {c : Completion} : (written c d).reg 0x220C = BitVec.ofNat 32 (min 0xFFFFFFFF ((d.reg 0x220C).toNat + 1)) :=
  (count_reg _ _ _).trans (if_pos rfl)

/-- The completion's command is in flight no longer, and the completion is not ready again. -/
theorem written_lists {c : Completion} :
    (∀ x ∈ (written c d).hif.cmds, x.tag ≠ c.tag) ∧ ∀ x ∈ (written c d).hif.ready, x.tag ≠ c.tag := by
  constructor
  · intro x hx
    have hx : x ∈ d.hif.cmds.filter fun x => x.tag != c.tag := hx
    simpa using (List.mem_filter.mp hx).2
  · intro x hx
    have hx : x ∈ d.hif.ready.filter fun x => x.tag != c.tag := hx
    simpa using (List.mem_filter.mp hx).2

/-- What a completion posted to ring `n` leaves (R298, R310). -/
theorem postOne_posts {c : Completion} {n : Nat} (hn : n = cqOf d c.sq) (he : d.gen.enterTag = none) :
    completionWrite c n d ∈ (postOne c d).bus.out ∧ ((postOne c d).cq n).tail = ringNext (cqSize d n) (d.cq n).tail ∧
      ((postOne c d).cq n).phase = (if ringNext (cqSize d n) (d.cq n).tail = 0 then !(d.cq n).phase else (d.cq n).phase) ∧
      (∀ x ∈ (postOne c d).hif.cmds, x.tag ≠ c.tag) ∧ (∀ x ∈ (postOne c d).hif.ready, x.tag ≠ c.tag) ∧ (postOne c d).hif.posted = true ∧
      (postOne c d).reg 0x220C = BitVec.ofNat 32 (min 0xFFFFFFFF ((d.reg 0x220C).toNat + 1)) ∧
      OnlyIn [.hif, .bus] [0x220C] d (postOne c d) := by
  subst hn
  have h : PostKept (cqOf d c.sq) (written c d) (postOne c d) := by
    rw [postOne_eq he]
    exact logError_kept.trans coalesce_kept
  generalize postOne c d = e at h
  obtain ⟨hcmds, hready⟩ := written_lists (c := c) (d := d)
  refine ⟨h.out _ List.mem_cons_self, ?_, ?_, h.cmds ▸ hcmds, h.ready ▸ hready, h.posted, ?_, ?_⟩
  · rw [h.tail, written_cq]
    rfl
  · rw [h.phase, written_cq]
    rfl
  · exact (h.frame.2 0x220C List.not_mem_nil).trans written_reg
  · exact written_onlyIn.trans (h.frame.mono (List.Subset.refl _) (by decide))

theorem postCompletion_posts (s : State) (c : Completion) (n : Nat) (hb : busOpen s.dev = true) (hp : s.dev.pwr.st ≠ .sealed)
    (he : s.dev.gen.enterTag = none) (hn : n = cqOf s.dev c.sq) (_hlt : n < 8)
    (hf : s.dev.hif.ready.find? (fun x => (s.dev.cq (cqOf s.dev x.sq)).st = .running &&
        ringNext (cqSize s.dev (cqOf s.dev x.sq)) (s.dev.cq (cqOf s.dev x.sq)).tail != (s.dev.cq (cqOf s.dev x.sq)).head) = some c) :
    Completes .postCompletion s fun d =>
      HostWrite.bytes (hostAddr s.dev (0x2100 + 0x20 * n) + 16 * (s.dev.cq n).tail)
        (leBytes 8 c.result.toNat ++ leBytes 2 (sqHead s.dev c.sq) ++ leBytes 1 c.sq ++
          leBytes 1 (flagByte c.single c.ovr (c.status = stPoisoned) (s.dev.cq n).phase) ++ leBytes 2 c.cid ++ leBytes 2 c.status)
        ∈ d.bus.out ∧
      (d.cq n).tail = ringNext (cqSize s.dev n) (s.dev.cq n).tail ∧
      (d.cq n).phase = (if ringNext (cqSize s.dev n) (s.dev.cq n).tail = 0 then !(s.dev.cq n).phase else (s.dev.cq n).phase) ∧
      (∀ x ∈ d.hif.cmds, x.tag ≠ c.tag) ∧ (∀ x ∈ d.hif.ready, x.tag ≠ c.tag) ∧ d.hif.posted = true ∧
      d.reg 0x220C = BitVec.ofNat 32 (min 0xFFFFFFFF ((s.dev.reg 0x220C).toNat + 1)) ∧ OnlyIn [.hif, .bus] [0x220C] s.dev d := by
  have hmay : mayPost s.dev = true := by rw [mayPost, hb, bne_iff_ne.mpr hp, Bool.and_self]
  have hnext : nextPosted s.dev = some c := hf
  refine completes_to (e := postOne c s.dev) (f := fun d => onlyIf (mayPost d)
    (fun d => match nextPosted d with | some c => postOne c d | none => d) d) rfl ?_ (postOne_posts hn he)
  rw [hmay, onlyIf_true, hnext]

end

/-- Settles O32, clause by clause: what comes in for a command, and what a posted completion and a coalesced signal change. -/
theorem payloadsComeAndCompletionsGo : Obligations.PayloadsComeAndCompletionsGo :=
  ⟨payloadReadReturn_takes, payloadReadReturn_poisons, payloadReadReturn_losesScatter, postCompletion_posts, coalesceTimerExpiry_sends,
    coalesceTimerExpiry_pends⟩

end Sys2Proof.Machine
end

section
/-!
PROOFS. Host writes after the set-up lock: each command of the host that writes a register is a locked write, and nothing else.
-/

namespace Sys2Proof.Machine

section
variable {d : Device}

/-- The command, made in the state `s`, is a locked write (R314). -/
def IsLockedWrite (c : Instr) (s : State) : Prop := exec c s = effect s lockedWrite

/-- What a locked write leaves (R314). -/
theorem IsLockedWrite.completes {c : Instr} {s : State} (h : IsLockedWrite c s) :
    Completes c s fun d =>
      d.hif = { s.dev.hif with lockedWrites := min 0xFFFFFFFF (s.dev.hif.lockedWrites + 1) } ∧ Raised 10 d ∧
      OnlyIn (.hif :: interruptParts) [0x4540] s.dev d := by
  refine completes_to h rfl ⟨raise_hif, raised_raise 10 _, ?_⟩
  exact raise_updHif_onlyIn (f := fun h => { h with lockedWrites := min 0xFFFFFFFF (h.lockedWrites + 1) })

/-- After the lock the gate lets no write of the host through. -/
theorem gate_locked {o : Nat} {ok : Bool} {f : Device → Device} (h : d.hif.lock = true) : gate .host o ok f d = lockedWrite d := if_pos h

theorem icuGate_locked {o : Nat} {g f : Device → Device} (h : d.hif.lock = true) : icuGate .host o g f d = lockedWrite d := by
  rw [icuGate, h]
  exact gate_locked (o := o) h

theorem isLockedWrite_of_gate {c : Instr} {s : State} {o : Nat} {ok : Bool} {f : Device → Device} (h : s.dev.hif.lock = true)
    (he : exec c s = effect s (gate .host o ok f)) : IsLockedWrite c s := by
  rw [IsLockedWrite, he, effect_next, effect_next, gate_locked h]

/-- A write whose index is in its range, and whose gate is the host's. -/
theorem isLockedWrite_of_index {c : Instr} {s : State} {b : Bool} {f : Device → Device} (hb : b = true)
    (hf : f s.dev = lockedWrite s.dev) (he : exec c s = effect s (onlyIf b f)) : IsLockedWrite c s := by
  rw [IsLockedWrite, he, effect_next, effect_next, hb, onlyIf_true, hf]

/-- The commands of the servo and of the motion processor. -/
theorem servo_isLockedWrite {s : State} {n k : Nat} {v : Word32} {b : Bool} (h : s.dev.hif.lock = true) (hn : n < 2) (hk : k < 8) :
    ∀ c ∈ [Instr.loopOpen .host n, .loopHold .host n, .loopClose .host n, .loopAcquire .host n, .discardShadow .host n,
        .coefLiveWrite .host n k v, .coefShadowWrite .host n k v, .seqRun .host b, .seqKick .host, .move .host, .home .host,
        .park .host, .stop .host, .gearEngage .host, .gearDisengage .host, .clearFault .host, .gearArm .host, .gearCancel .host],
      IsLockedWrite c s := by
  have hloop : decide (n < 4) = true := decide_eq_true (by omega)
  have hcoef : (decide (n < 4) && decide (k < 19)) = true := by rw [hloop, decide_eq_true (by omega), Bool.and_self]
  simp only [List.forall_mem_cons, List.not_mem_nil, false_imp_iff, implies_true, and_true]
  exact ⟨isLockedWrite_of_index hloop (gate_locked h) rfl, isLockedWrite_of_index hloop (gate_locked h) rfl,
    isLockedWrite_of_index hloop (gate_locked h) rfl, isLockedWrite_of_index hloop (gate_locked h) rfl,
    isLockedWrite_of_index hloop (gate_locked h) rfl, isLockedWrite_of_index hcoef (gate_locked h) rfl,
    isLockedWrite_of_index hcoef (gate_locked h) rfl, isLockedWrite_of_gate h rfl, isLockedWrite_of_gate h rfl,
    isLockedWrite_of_gate h rfl, isLockedWrite_of_gate h rfl, isLockedWrite_of_gate h rfl, isLockedWrite_of_gate h rfl,
    isLockedWrite_of_gate h rfl, isLockedWrite_of_gate h rfl, isLockedWrite_of_gate h rfl, isLockedWrite_of_gate h rfl,
    isLockedWrite_of_gate h rfl⟩

/-- The commands of the write channel, the cache and the set-up lock itself. -/
theorem writeChannel_isLockedWrite {s : State} {v : Word32} (h : s.dev.hif.lock = true) :
    ∀ c ∈ [Instr.laserMaxWrite .host v, .laserOverClear .host, .opcTestStep .host v, .stratDataAccess .host (some v), .invalidate .host,
        .clean .host, .purgeOwner .host, .zeroLine .host, .setupLock], IsLockedWrite c s := by
  simp only [List.forall_mem_cons, List.not_mem_nil, false_imp_iff, implies_true, and_true]
  exact ⟨isLockedWrite_of_gate h rfl, isLockedWrite_of_gate h rfl, isLockedWrite_of_gate h rfl,
    isLockedWrite_of_gate (o := 0xB030) h rfl, isLockedWrite_of_gate h rfl, isLockedWrite_of_gate h rfl, isLockedWrite_of_gate h rfl,
    isLockedWrite_of_gate h rfl, isLockedWrite_of_gate h rfl⟩

/-- The commands of the interrupt controller. -/
theorem icu_isLockedWrite {s : State} {n k : Nat} {v : Word32} (h : s.dev.hif.lock = true) (hn : n < 2) (hk : k < 8) :
    ∀ c ∈ [Instr.maskSet .host k v, .maskClr .host k v, .pendSet .host k v, .pendClr .host k v, .thresholdWrite .host n v,
        .icuComplete .host n v, .srcCfgWrite .host n v, .wakeSlotWrite .host n v], IsLockedWrite c s := by
  have hword : decide (k < 8) = true := decide_eq_true hk
  have hthreshold : decide (n < 3) = true := decide_eq_true (by omega)
  have htarget : decide (n < 2) = true := decide_eq_true hn
  have hsource : decide (n < 256) = true := decide_eq_true (by omega)
  have hslot : decide (n < 16) = true := decide_eq_true (by omega)
  simp only [List.forall_mem_cons, List.not_mem_nil, false_imp_iff, implies_true, and_true]
  exact ⟨isLockedWrite_of_index hword (icuGate_locked h) rfl, isLockedWrite_of_index hword (icuGate_locked h) rfl,
    isLockedWrite_of_index hword (icuGate_locked h) rfl, isLockedWrite_of_index hword (icuGate_locked h) rfl,
    isLockedWrite_of_index hthreshold (icuGate_locked h) rfl, isLockedWrite_of_index htarget (icuGate_locked h) rfl,
    isLockedWrite_of_index hsource (icuGate_locked h) rfl, isLockedWrite_of_index hslot (icuGate_locked h) rfl⟩

/-- The commands of the supply, the outputs, the flash, the memories' tests and the firmware update. -/
theorem supply_isLockedWrite {s : State} {v : Word32} (h : s.dev.hif.lock = true) :
    ∀ c ∈ [Instr.balanceCommand .host v, .dischargeTestRequest .host, .faultClr .host v, .program .host, .eraseSector .host,
        .eraseBlock .host, .bitClear .host, .suspend .host, .resume .host, .splitModeOpen .host v, .splitModeClose .host,
        .testWriteData .host, .testWriteCheck .host, .testRead .host, .zeroWord .host v, .fwUpdateStart .host v], IsLockedWrite c s := by
  simp only [List.forall_mem_cons, List.not_mem_nil, false_imp_iff, implies_true, and_true]
  exact ⟨isLockedWrite_of_gate h rfl, isLockedWrite_of_gate h rfl, isLockedWrite_of_gate (o := 0x1200C) h rfl,
    isLockedWrite_of_gate h rfl, isLockedWrite_of_gate h rfl, isLockedWrite_of_gate h rfl, isLockedWrite_of_gate h rfl,
    isLockedWrite_of_gate h rfl, isLockedWrite_of_gate h rfl, isLockedWrite_of_gate h rfl, isLockedWrite_of_gate h rfl,
    isLockedWrite_of_gate h rfl, isLockedWrite_of_gate h rfl, isLockedWrite_of_gate h rfl, isLockedWrite_of_gate h rfl,
    isLockedWrite_of_gate (o := 0x68) h rfl⟩

end

/-- Settles O52: every one of the commands passes its block's gate, which is shut. -/
theorem hostWritesAfterTheLockAreIgnored : Obligations.HostWritesAfterTheLockAreIgnored := by
  intro s c n k v b hl hn hk hc
  have hall := List.forall_mem_append.mpr ⟨servo_isLockedWrite (v := v) (b := b) hl hn hk, List.forall_mem_append.mpr
    ⟨writeChannel_isLockedWrite (v := v) hl, List.forall_mem_append.mpr
      ⟨icu_isLockedWrite (v := v) hl hn hk, supply_isLockedWrite (v := v) hl⟩⟩⟩
  exact (hall c hc).completes

end Sys2Proof.Machine
end

section
/-!
PROOFS. The protected memories: what a scrub leaves by the decoder's outcome, and the checker test window.
-/

namespace Sys2Proof.Machine

section
variable {d e : Device}

/-! ### Writes by the management pair, and the block of the memories -/

theorem mgmtWrite_to {c : Instr} {s : State} {o : Nat} {ok : Bool} {f : Device → Device} {P : Device → Prop} (hup : pairRuns s.dev = true)
    (h : exec c s = effect s (gate .mgmt o ok f)) (he : f s.dev = e) (p : P e) : Completes c s P :=
  completes_to h ((gate_mgmt hup).trans he) p

theorem updEcc_onlyIn {f : Ecc → Ecc} : OnlyIn [.ecc] [] d (updEcc f d) := by
  refine ⟨fun p hp => ?_, fun _ _ => rfl⟩
  cases p with
  | ecc => simp at hp
  | _ => rfl

theorem noteEcc_onlyIn {mem kind word : Nat} : OnlyIn [.ecc] [] d (noteEcc mem kind word d) := updEcc_onlyIn

theorem raise_ecc {k : Nat} : (raise k d).ecc = d.ecc := raise_onlyIn.1 .ecc (by decide)

/-- An error is counted, noted in LAST_ERROR, and raises its source. -/
def eccError (o k mem kind word : Nat) (d : Device) : Device := raise k (noteEcc mem kind word (count o d))

theorem eccError_reg {o k mem kind word : Nat} (ho : o ≠ 0x4540) :
    (eccError o k mem kind word d).reg o = BitVec.ofNat 32 (min 0xFFFFFFFF ((d.reg o).toNat + 1)) := by
  rw [eccError, raise_reg k _ o ho, noteEcc_onlyIn.2 o List.not_mem_nil, count_reg, if_pos rfl]

theorem eccError_raised {o k mem kind word : Nat} : Raised k (eccError o k mem kind word d) := raised_raise k _

/-- A note changes LAST_ERROR alone. -/
theorem noteEcc_eq {mem kind word : Nat} : ∃ w, noteEcc mem kind word d = updEcc (fun e => { e with last := w }) d := ⟨_, rfl⟩

theorem noteEcc_poison {mem kind word : Nat} : (noteEcc mem kind word d).ecc.poison = d.ecc.poison := by
  obtain ⟨w, h⟩ := noteEcc_eq (d := d) (mem := mem) (kind := kind) (word := word)
  rw [h]
  rfl

theorem eccError_poison {o k mem kind word : Nat} : (eccError o k mem kind word d).ecc.poison = d.ecc.poison := by
  rw [eccError, raise_ecc, noteEcc_poison, count_onlyIn.1 .ecc (by decide)]

theorem eccError_onlyIn {o k mem kind word : Nat} : OnlyIn (.ecc :: interruptParts) [o, 0x4540] d (eccError o k mem kind word d) :=
  OnlyIn.refl.andThen count_onlyIn (by decide) (by simp) |>.andThen noteEcc_onlyIn (by decide) (by simp)
    |>.andThen raise_onlyIn (by decide) (by simp)

/-! ### A scrub -/

theorem sramScrub_to {s : State} {mem word : Nat} {data : BitVec 64} {check : BitVec 8} {written : Bool} {P : Device → Prop}
    (hw : word < eccWords mem) (p : P (scrubWord mem word data check written s.dev)) :
    Completes (.sramScrub mem word data check false written) s P := by
  refine ⟨_, rfl, rfl, ?_⟩
  dsimp only
  rw [decide_eq_true hw, onlyIf_true]
  exact p

theorem scrubWord_corrected {mem word k : Nat} {data fixed : BitVec 64} {check : BitVec 8} {written : Bool}
    (h : secdedDecode data check = .corrected k fixed) :
    scrubWord mem word data check written d = eccError 0x14028 182 mem 1 word d := by
  rw [scrubWord, h]
  rfl

theorem scrubWord_uncorrectable {mem word : Nat} {data : BitVec 64} {check : BitVec 8} {written : Bool}
    (h : secdedDecode data check = .uncorrectable) :
    scrubWord mem word data check written d =
      if written then eccError 0x1402C 183 mem 2 word d else poisonWord mem word (eccError 0x1402C 183 mem 2 word d) := by
  rw [scrubWord, h]
  rfl

theorem scrubWord_clean {mem word : Nat} {data : BitVec 64} {check : BitVec 8} {written : Bool}
    (h : secdedDecode data check = .clean) : scrubWord mem word data check written d = d := by
  rw [scrubWord, h]

theorem sramScrub_corrects (s : State) (mem word k : Nat) (data fixed : BitVec 64) (check : BitVec 8) (written : Bool)
    (hw : word < eccWords mem) (h : secdedDecode data check = .corrected k fixed) :
    Completes (.sramScrub mem word data check false written) s fun d =>
      d.reg 0x14028 = BitVec.ofNat 32 (min 0xFFFFFFFF ((s.dev.reg 0x14028).toNat + 1)) ∧ Raised 182 d ∧ d.ecc.poison = s.dev.ecc.poison ∧
      OnlyIn (.ecc :: interruptParts) [0x14028, 0x4540] s.dev d := by
  refine sramScrub_to hw ?_
  rw [scrubWord_corrected h]
  exact ⟨eccError_reg (by decide), eccError_raised, eccError_poison, eccError_onlyIn⟩

theorem mem_insertNat {n : Nat} {l : List Nat} : n ∈ insertNat n l := by
  induction l with
  | nil => exact List.mem_singleton.mpr rfl
  | cons a l ih =>
    rw [insertNat]
    split
    · exact List.mem_cons_self
    · split
      next h => exact h ▸ List.mem_cons_self
      next => exact List.mem_cons_of_mem a ih

/-- A word of the data SRAM made poison enters the list of poisoned words. -/
theorem poisonWord_dataSram {word : Nat} :
    poisonWord 1 word d = updEcc (fun e => { e with poison := insertNat (poisonIndex 1 word) e.poison }) d := rfl

theorem sramScrub_poisons (s : State) (word : Nat) (data : BitVec 64) (check : BitVec 8) (hw : word < 32768)
    (h : secdedDecode data check = .uncorrectable) :
    Completes (.sramScrub 1 word data check false false) s fun d =>
      2 ^ 20 + word ∈ d.ecc.poison ∧ d.reg 0x1402C = BitVec.ofNat 32 (min 0xFFFFFFFF ((s.dev.reg 0x1402C).toNat + 1)) ∧ Raised 183 d ∧
      OnlyIn (.ecc :: interruptParts) [0x1402C, 0x4540] s.dev d := by
  refine sramScrub_to hw ?_
  rw [scrubWord_uncorrectable h, if_neg Bool.false_ne_true, poisonWord_dataSram]
  refine ⟨?_, eccError_reg (by decide), eccError_raised.of_icu rfl, eccError_onlyIn.andThen updEcc_onlyIn⟩
  rw [← Nat.one_mul (2 ^ 20)]
  exact mem_insertNat

theorem sramScrub_written (s : State) (word : Nat) (data : BitVec 64) (check : BitVec 8) (hw : word < 32768)
    (h : secdedDecode data check = .uncorrectable) :
    Completes (.sramScrub 1 word data check false true) s fun d => d.ecc.poison = s.dev.ecc.poison ∧ Raised 183 d := by
  refine sramScrub_to hw ?_
  rw [scrubWord_uncorrectable h, if_pos rfl]
  exact ⟨eccError_poison, eccError_raised⟩

theorem sramScrub_passes (s : State) (mem word : Nat) (data : BitVec 64) (check : BitVec 8) (written : Bool) (hw : word < eccWords mem)
    (h : secdedDecode data check = .clean) :
    Completes (.sramScrub mem word data check true written) s fun d =>
      d.ecc = { s.dev.ecc with passes := min 0xFFFFFFFF (s.dev.ecc.passes + 1) } ∧ OnlyIn [.ecc] [] s.dev d := by
  refine ⟨_, rfl, rfl, ?_⟩
  dsimp only
  rw [decide_eq_true hw, onlyIf_true, scrubWord_clean h]
  exact ⟨rfl, updEcc_onlyIn⟩

/-- A trap of the pair on poison is counted and raises its source, and LAST_ERROR names a memory other than the flash. -/
theorem poisonConsumed_traps (s : State) (mem : Nat) (addr : Word32) (fetch : Bool) (hup : pairRuns s.dev = true) :
    Completes (.poisonConsumed mem addr fetch) s fun d =>
      d.reg 0x14030 = BitVec.ofNat 32 (min 0xFFFFFFFF ((s.dev.reg 0x14030).toNat + 1)) ∧ Raised 184 d ∧
      OnlyIn (.ecc :: interruptParts) [0x14030, 0x4540] s.dev d := by
  refine ⟨_, rfl, rfl, ?_⟩
  dsimp only
  rw [hup, onlyIf_true]
  split
  · exact ⟨eccError_reg (by decide), eccError_raised, eccError_onlyIn⟩
  · obtain ⟨hraised, hreg, hframe⟩ := raise_count_spec (d := s.dev) (k := 184) (o := 0x14030) (by decide)
    exact ⟨hreg, hraised, hframe.mono (by decide) (by decide)⟩

/-! ### The checker test window -/

theorem setLevel_ecc {k : Nat} {b : Bool} : (setLevel k b d).ecc = d.ecc := setLevel_onlyIn.1 .ecc (by decide)

/-- SPLIT_MODE names the memory and the row. -/
def rowNamed (v : Word32) (d : Device) : Device := setRegF 0x14000 1 0 (fld v 1 0) (setRegF 0x14000 12 8 (fld v 12 8) d)

/-- The window opens. -/
def windowOpened (d : Device) : Device := setLevel 187 true (updEcc (fun e => { e with openedAt := some d.now }) d)

theorem splitOpen_opens {v : Word32} (hc : d.ecc.openedAt = none) (ho : wbit v 31 = true) (hm : fld v 12 8 < 10) :
    splitOpen v d = windowOpened (rowNamed v d) := by
  rw [splitOpen, hc]
  simp only [Option.isSome_none, Bool.false_eq_true, if_false, hm, if_true, ho]
  rfl

theorem fld_lt {w : Word32} {hi lo : Nat} : fld w hi lo < 2 ^ (hi + 1 - lo) := Nat.mod_lt _ (by positivity)

theorem rowNamed_fields {v : Word32} :
    (rowNamed v d).regF 0x14000 12 8 = fld v 12 8 ∧ (rowNamed v d).regF 0x14000 1 0 = fld v 1 0 := by
  have hreg : (rowNamed v d).reg 0x14000 = wput (wput (d.reg 0x14000) 12 8 (fld v 12 8)) 1 0 (fld v 1 0) := by
    rw [rowNamed, setRegF_reg, if_pos rfl, setRegF_reg, if_pos rfl]
  rw [Device.regF, Device.regF, hreg]
  exact ⟨(fld_wput_apart (.inl (by decide)) (by decide) (by decide)).trans (fld_wput (by decide) (by decide) fld_lt),
    fld_wput (by decide) (by decide) fld_lt⟩

theorem splitModeOpen_opens (s : State) (v : Word32) (hup : pairRuns s.dev = true) (hc : s.dev.ecc.openedAt = none)
    (ho : wbit v 31 = true) (hm : fld v 12 8 < 10) (hr : s.dev.icu.retention = false) :
    Completes (.splitModeOpen .mgmt v) s fun d =>
      d.ecc = { s.dev.ecc with openedAt := some s.dev.now } ∧ d.regF 0x14000 12 8 = fld v 12 8 ∧ d.regF 0x14000 1 0 = fld v 1 0 ∧
      (d.src 187).level = true ∧ OnlyIn (.ecc :: interruptParts) [0x14000, 0x4540] s.dev d := by
  have hreg : (windowOpened (rowNamed v s.dev)).reg 0x14000 = (rowNamed v s.dev).reg 0x14000 := setLevel_onlyIn.2 0x14000 (by decide)
  obtain ⟨hmem, hrow⟩ := rowNamed_fields (v := v) (d := s.dev)
  refine mgmtWrite_to hup rfl (splitOpen_opens hc ho hm) ⟨setLevel_ecc, ?_, ?_, setLevel_level 187 true _ hr, ?_⟩
  · rw [Device.regF, hreg]
    exact hmem
  · rw [Device.regF, hreg]
    exact hrow
  · exact OnlyIn.refl.andThen setRegF_onlyIn |>.andThen setRegF_onlyIn |>.andThen updEcc_onlyIn |>.andThen setLevel_onlyIn

theorem splitModeOpen_again (s : State) (v : Word32) (hup : pairRuns s.dev = true) (ho : s.dev.ecc.openedAt ≠ none) :
    Completes (.splitModeOpen .mgmt v) s fun d => d = s.dev :=
  mgmtWrite_to hup rfl (if_pos (Option.isSome_iff_ne_none.mpr ho)) rfl

/-- A window that closes changes its source's level (R448). -/
theorem splitClose_spec (hr : d.icu.retention = false) :
    (splitClose d).ecc = { d.ecc with openedAt := none } ∧ ((splitClose d).src 187).level = false ∧
      OnlyIn (.ecc :: interruptParts) [0x4540] d (splitClose d) :=
  ⟨setLevel_ecc, setLevel_level 187 false _ hr, OnlyIn.refl.andThen updEcc_onlyIn |>.andThen setLevel_onlyIn⟩

theorem splitModeClose_closes (s : State) (hup : pairRuns s.dev = true) (hr : s.dev.icu.retention = false) :
    Completes (.splitModeClose .mgmt) s fun d =>
      d.ecc = { s.dev.ecc with openedAt := none } ∧ (d.src 187).level = false ∧ OnlyIn (.ecc :: interruptParts) [0x4540] s.dev d :=
  mgmtWrite_to hup rfl rfl (splitClose_spec hr)

theorem splitModeTimeout_closes (s : State) (t : Nat) (ho : s.dev.ecc.openedAt = some t) (ht : t + 25000 ≤ s.dev.now)
    (hr : s.dev.icu.retention = false) :
    Completes .splitModeTimeout s fun d =>
      d.ecc = { s.dev.ecc with openedAt := none } ∧ (d.src 187).level = false ∧ OnlyIn (.ecc :: interruptParts) [0x4540] s.dev d := by
  refine ⟨_, rfl, rfl, ?_⟩
  dsimp only
  rw [ho, onlyIf, if_pos (decide_eq_true ht)]
  exact splitClose_spec hr

/-! ### Test rows -/

/-- The words of the test rows that no write has changed are 0. -/
def rowOf (d : Device) (r : Nat) : BitVec 64 × BitVec 8 := sget (fun _ => (0, 0)) d.ecc.rows r

theorem updRow_open {f : BitVec 64 × BitVec 8 → BitVec 64 × BitVec 8} (h : d.ecc.openedAt.isSome = true) :
    updRow f d = updEcc (fun e => { e with rows := supd (fun _ => (0, 0)) (testRow d) f e.rows }) d := if_pos h

theorem updRow_row {f : BitVec 64 × BitVec 8 → BitVec 64 × BitVec 8} (h : d.ecc.openedAt.isSome = true) (r : Nat) :
    rowOf (updRow f d) r = if r = testRow d then f (rowOf d (testRow d)) else rowOf d r := by
  rw [updRow_open h]
  exact sget_supd _ _ _ _ _

theorem updRow_onlyIn {f : BitVec 64 × BitVec 8 → BitVec 64 × BitVec 8} : OnlyIn [.ecc] [] d (updRow f d) := by
  unfold updRow
  split
  · exact updEcc_onlyIn
  · exact .refl

theorem testWriteData_writes (s : State) (t : Nat) (hup : pairRuns s.dev = true) (ho : s.dev.ecc.openedAt = some t) :
    Completes (.testWriteData .mgmt) s fun d =>
      sget (fun _ => (0, 0)) d.ecc.rows (testRow s.dev) = (testData s.dev, (sget (fun _ => (0, 0)) s.dev.ecc.rows (testRow s.dev)).2) ∧
      (∀ r, r ≠ testRow s.dev → sget (fun _ => (0, 0)) d.ecc.rows r = sget (fun _ => (0, 0)) s.dev.ecc.rows r) ∧
      OnlyIn [.ecc] [] s.dev d := by
  have hopen : s.dev.ecc.openedAt.isSome = true := by rw [ho, Option.isSome_some]
  exact mgmtWrite_to hup rfl rfl
    ⟨(updRow_row hopen _).trans (if_pos rfl), fun r hr => (updRow_row hopen r).trans (if_neg hr), updRow_onlyIn⟩

theorem testWriteCheck_writes (s : State) (t : Nat) (hup : pairRuns s.dev = true) (ho : s.dev.ecc.openedAt = some t) :
    Completes (.testWriteCheck .mgmt) s fun d =>
      sget (fun _ => (0, 0)) d.ecc.rows (testRow s.dev) =
        ((sget (fun _ => (0, 0)) s.dev.ecc.rows (testRow s.dev)).1, BitVec.ofNat 8 (s.dev.regF 0x1400C 7 0)) ∧
      OnlyIn [.ecc] [] s.dev d := by
  have hopen : s.dev.ecc.openedAt.isSome = true := by rw [ho, Option.isSome_some]
  exact mgmtWrite_to hup rfl rfl ⟨(updRow_row hopen _).trans (if_pos rfl), updRow_onlyIn⟩

/-- The result of a test read that leaves the data as they are. -/
def rowResult (outcome : Nat) (w : BitVec 64) (c : BitVec 8) (d : Device) : Device :=
  updEcc (fun e => { e with outcome := outcome, bit := 127, syndrome := secdedSyndrome w c, read := w }) d

theorem readRow_clean {w : BitVec 64} {c : BitVec 8} (hrow : sget (fun _ => (0, 0)) d.ecc.rows (testRow d) = (w, c))
    (h : secdedDecode w c = .clean) : readRow d = rowResult 0 w c d := by
  rw [readRow, hrow]
  dsimp only
  rw [h]
  rfl

theorem readRow_uncorrectable {w : BitVec 64} {c : BitVec 8} (hrow : sget (fun _ => (0, 0)) d.ecc.rows (testRow d) = (w, c))
    (h : secdedDecode w c = .uncorrectable) : readRow d = rowResult 2 w c d := by
  rw [readRow, hrow]
  dsimp only
  rw [h]
  rfl

theorem testRead_to {s : State} {t : Nat} {P : Device → Prop} (hup : pairRuns s.dev = true) (ho : s.dev.ecc.openedAt = some t)
    (he : readRow s.dev = e) (p : P e) : Completes (.testRead .mgmt) s P :=
  mgmtWrite_to (f := fun d => onlyIf d.ecc.openedAt.isSome readRow d) hup rfl
    (by rw [ho, Option.isSome_some, onlyIf_true, he]) p

theorem testRead_clean (s : State) (t : Nat) (w : BitVec 64) (c : BitVec 8) (hup : pairRuns s.dev = true)
    (ho : s.dev.ecc.openedAt = some t) (hrow : sget (fun _ => (0, 0)) s.dev.ecc.rows (testRow s.dev) = (w, c))
    (h : secdedDecode w c = .clean) :
    Completes (.testRead .mgmt) s fun d =>
      d.ecc = { s.dev.ecc with outcome := 0, bit := 127, syndrome := secdedSyndrome w c, read := w } ∧ OnlyIn [.ecc] [] s.dev d :=
  testRead_to hup ho (readRow_clean hrow h) ⟨rfl, updEcc_onlyIn⟩

theorem testRead_uncorrectable (s : State) (t : Nat) (w : BitVec 64) (c : BitVec 8) (hup : pairRuns s.dev = true)
    (ho : s.dev.ecc.openedAt = some t) (hrow : sget (fun _ => (0, 0)) s.dev.ecc.rows (testRow s.dev) = (w, c))
    (h : secdedDecode w c = .uncorrectable) :
    Completes (.testRead .mgmt) s fun d =>
      d.ecc = { s.dev.ecc with outcome := 2, bit := 127, syndrome := secdedSyndrome w c, read := w } ∧ OnlyIn [.ecc] [] s.dev d :=
  testRead_to hup ho (readRow_uncorrectable hrow h) ⟨rfl, updEcc_onlyIn⟩

/-! ### A word zeroed -/

theorem zeroWord_heals (s : State) (word : Nat) (hup : pairRuns s.dev = true) (hw : word < 32768)
    (hp : s.dev.ecc.poison = [2 ^ 20 + word]) :
    Completes (.zeroWord .mgmt (BitVec.ofNat 32 (8 * word))) s fun d => d.ecc = { s.dev.ecc with poison := [] } ∧ OnlyIn [.ecc] [] s.dev d := by
  have haddr : (BitVec.ofNat 32 (8 * word)).toNat = 8 * word := by
    rw [BitVec.toNat_ofNat]
    omega
  have hindex : poisonIndex 1 (8 * word / 8 % 32768) = 2 ^ 20 + word := by
    rw [poisonIndex]
    omega
  have hgone : s.dev.ecc.poison.erase (2 ^ 20 + word) = [] := by rw [hp, List.erase_cons_head]
  have he : zeroData (BitVec.ofNat 32 (8 * word)) s.dev = updEcc (fun e => { e with poison := [] }) s.dev := by
    rw [zeroData, haddr, if_pos (Nat.mul_mod_right 8 word), hindex, updEcc, hgone]
    rfl
  exact mgmtWrite_to hup rfl he ⟨rfl, updEcc_onlyIn⟩

end

/-- Settles O50, clause by clause: a scrub by the decoder's outcome, and the window's registers. -/
theorem protectedMemoriesAreScrubbedAndTested : Obligations.ProtectedMemoriesAreScrubbedAndTested :=
  ⟨sramScrub_corrects, sramScrub_poisons, sramScrub_written, sramScrub_passes, poisonConsumed_traps, splitModeOpen_opens,
    splitModeOpen_again, splitModeClose_closes, splitModeTimeout_closes, testWriteData_writes, testWriteCheck_writes, testRead_clean,
    testRead_uncorrectable, zeroWord_heals⟩

end Sys2Proof.Machine
end

section
/-!
PROOFS. Flash operations: the bytes that an erase, a program and a bit clear leave, and the states of an operation under way.
-/

namespace Sys2Proof.Machine

section
variable {d e : Device}

/-! ### Bytes of the array -/

/-- An erased sector reads 1 in every bit. -/
theorem eraseSectorAt_erases {k i : Nat} (h : 4096 * k ≤ i) (h' : i < 4096 * (k + 1)) : (eraseSectorAt k d).flashByte i = 0xFF := by
  refine sget_filter_of_dropped (z := fun _ => 0xFF) fun a => ?_
  simp [h, h']

/-- Sectors erased in a row read 1 in every bit. -/
theorem foldl_eraseSectorAt_erases {b n i : Nat} (h : 4096 * b ≤ i) (h' : i < 4096 * (b + n)) :
    ((List.range n).foldl (fun d k => eraseSectorAt (b + k) d) d).flashByte i = 0xFF := by
  induction n with
  | zero => omega
  | succ n ih =>
    rw [List.range_succ, List.foldl_append]
    by_cases hi : 4096 * (b + n) ≤ i
    · exact eraseSectorAt_erases hi (by omega)
    · exact (eraseSectorAt_flashByte (.inl (by omega))).trans (ih (by omega))

theorem putBytes_concat {a : Nat} {bs : List Byte} {b : Byte} {m : Sparse Byte} :
    putBytes a (bs ++ [b]) m = sset (fun _ => 0xFF) (a + bs.length) b (putBytes a bs m) := by
  simp [putBytes, List.range_succ, List.zip_append]

/-- A byte written reads back. -/
theorem putBytes_inside {a i : Nat} {bs : List Byte} {m : Sparse Byte} (h : i < bs.length) :
    sget (fun _ => 0xFF) (putBytes a bs m) (a + i) = bs.getD i 0xFF := by
  induction bs using List.reverseRecOn with
  | nil => exact absurd h (Nat.not_lt_zero i)
  | append_singleton bs b ih =>
    rw [putBytes_concat, sget_sset]
    by_cases hi : i = bs.length
    · simp [hi]
    · have hlt : i < bs.length := by
        rw [List.length_append, List.length_singleton] at h
        omega
      rw [if_neg (by omega), ih hlt, List.getD_append _ _ _ _ hlt]

theorem putBytes_outside {a i : Nat} {bs : List Byte} {m : Sparse Byte} (h : i < a ∨ a + bs.length ≤ i) :
    sget (fun _ => 0xFF) (putBytes a bs m) i = sget (fun _ => 0xFF) m i := by
  refine foldl_sset_other fun p hp => ?_
  have := List.mem_range.1 (List.of_mem_zip hp).1
  omega

theorem programAt_programs {a i : Nat} {bs : List Byte} (h : i < bs.length) : (programAt a bs d).flashByte (a + i) = bs.getD i 0xFF :=
  putBytes_inside h

/-! ### An operation starts -/

theorem progBuf_length : (progBuf d).length = 256 := by
  simp [progBuf, leBytes, List.length_flatMap]

/-- SUSPEND, RESUME and the operations are written to the CMD field. -/
def commandNamed (code : Nat) (d : Device) : Device := setRegF 0x13000 2 0 code d

theorem commandNamed_onlyIn {code : Nat} : OnlyIn [] [0x13000] d (commandNamed code d) := setRegF_onlyIn

theorem commandNamed_progBuf {code : Nat} : progBuf (commandNamed code d) = progBuf d := by
  have hword : ∀ w, (commandNamed code d).reg (0x13100 + 4 * w) = d.reg (0x13100 + 4 * w) := fun w =>
    commandNamed_onlyIn.2 _ (by rw [List.mem_singleton]; omega)
  simp only [progBuf, hword]

theorem commandNamed_flashErr {code a : Nat} {op : FlashOp} : flashErr (commandNamed code d) op a = flashErr d op a := by
  simp only [flashErr, bitClearOk, commandNamed_progBuf]
  rfl

/-- The operation is under way. -/
def underWay (op : FlashOp) (a : Nat) (d : Device) : Device :=
  updFls (fun f => { f with
    err := 0, op := some (op, a), suspended := false, suspending := false, held := false, auto := false, resumedAt := none }) d

/-- An operation that passes its checks, and does not program the reserved range, begins (R429, R430). -/
theorem startFlash_begins {op : FlashOp} {a : Nat} (hop : d.fls.op = none) (ha : a = d.regF 0x13004 22 0) (he : flashErr d op a = 0)
    (hr : op = .program ∨ op = .bitClear → a < 0x5D0000) :
    startFlash op d = underWay op a (flashApply op a (commandNamed (flashCode op) d)) := by
  have haddr : (commandNamed (flashCode op) d).regF 0x13004 22 0 = a := by
    rw [Device.regF, commandNamed_onlyIn.2 _ (by decide), ha, Device.regF]
  have hidle : (commandNamed (flashCode op) d).fls.op.isSome = false := by
    rw [commandNamed_onlyIn.1 .fls (by decide), hop]
    rfl
  have hreserved : ((op = .program || op = .bitClear) && decide (0x5D0000 ≤ a)) = false := by
    rw [Bool.and_eq_false_imp]
    intro h
    rw [Bool.or_eq_true, decide_eq_true_eq, decide_eq_true_eq] at h
    exact decide_eq_false (Nat.not_le.mpr (hr h))
  rw [commandNamed] at haddr hidle
  rw [startFlash, hidle]
  simp only [Bool.false_eq_true, if_false, haddr]
  rw [show flashErr (setRegF 0x13000 2 0 (flashCode op) d) op a = 0 from commandNamed_flashErr.trans he, hreserved]
  rfl

/-- An operation that is not refused stands at a multiple of what it covers (R430). -/
theorem aligned_of_flashErr {op : FlashOp} {a : Nat} (h : flashErr d op a = 0) : a % (flashSpan op a).2 = 0 := by
  by_contra hn
  simp only [flashErr, bne_iff_ne.mpr hn, Bool.or_true, if_true] at h
  split_ifs at h

/-- A bit clear that is not refused stands in the key store (R427). -/
theorem bitClearOk_of_flashErr {a : Nat} (h : flashErr d .bitClear a = 0) : bitClearOk d a = true := by
  by_contra hn
  rw [Bool.not_eq_true] at hn
  simp [flashErr, hn] at h

theorem flashApply_onlyIn {op : FlashOp} {a : Nat} : OnlyIn [.fls] [] d (flashApply op a d) := by
  cases op with
  | program => exact programAt_onlyIn
  | eraseSector => exact eraseSectorAt_onlyIn
  | eraseBlock => exact foldl_eraseSectorAt_onlyIn
  | bitClear => exact updFls_onlyIn

theorem underWay_onlyIn {op : FlashOp} {a code : Nat} :
    OnlyIn [.fls] [0x13000] d (underWay op a (flashApply op a (commandNamed code d))) :=
  (commandNamed_onlyIn.mono (by decide) (by decide)).andThen flashApply_onlyIn |>.andThen updFls_onlyIn

/-- Bytes that an operation under way has left. -/
theorem underWay_flashByte {op : FlashOp} {a i : Nat} : (underWay op a d).flashByte i = d.flashByte i := rfl

theorem commandNamed_flashByte {code i : Nat} : (commandNamed code d).flashByte i = d.flashByte i := rfl

theorem program_starts (s : State) (a : Nat) (hup : pairRuns s.dev = true) (hop : s.dev.fls.op = none) (ha : a = s.dev.regF 0x13004 22 0)
    (he : flashErr s.dev .program a = 0) (hr : a < 0x5D0000) :
    Completes (.program .mgmt) s fun d =>
      d.fls.op = some (.program, a) ∧ d.fls.err = 0 ∧
      (∀ i, i < 256 → d.flashByte (a + i) = (progBuf s.dev).getD i 0xFF) ∧
      (∀ i, i < a ∨ a + 256 ≤ i → d.flashByte i = s.dev.flashByte i) ∧ OnlyIn [.fls] [0x13000] s.dev d := by
  refine mgmtWrite_to hup rfl (startFlash_begins hop ha he fun _ => hr) ⟨rfl, rfl, fun i hi => ?_, fun i hi => ?_, underWay_onlyIn⟩
  · rw [underWay_flashByte, flashApply, commandNamed_progBuf]
    exact programAt_programs (progBuf_length.symm ▸ hi)
  · rw [underWay_flashByte, flashApply, programAt_flashByte (by rw [progBuf_length]; exact hi), commandNamed_flashByte]

theorem eraseSector_starts (s : State) (a : Nat) (hup : pairRuns s.dev = true) (hop : s.dev.fls.op = none)
    (ha : a = s.dev.regF 0x13004 22 0) (he : flashErr s.dev .eraseSector a = 0) :
    Completes (.eraseSector .mgmt) s fun d =>
      d.fls.op = some (.eraseSector, a) ∧ d.fls.err = 0 ∧
      (∀ i, i < 4096 → d.flashByte (a + i) = 0xFF) ∧
      (∀ i, i < a ∨ a + 4096 ≤ i → d.flashByte i = s.dev.flashByte i) ∧
      sget (fun _ => 0) d.fls.erases (a / 4096) = sget (fun _ => 0) s.dev.fls.erases (a / 4096) + 1 ∧ OnlyIn [.fls] [0x13000] s.dev d := by
  have haligned : a % 4096 = 0 := aligned_of_flashErr he
  refine mgmtWrite_to hup rfl (startFlash_begins hop ha he nofun) ⟨rfl, rfl, fun i hi => ?_, fun i hi => ?_, ?_, underWay_onlyIn⟩
  · rw [underWay_flashByte, flashApply]
    exact eraseSectorAt_erases (by omega) (by omega)
  · rw [underWay_flashByte, flashApply, eraseSectorAt_flashByte (by omega), commandNamed_flashByte]
  · exact sget_supd_self (fun _ => 0) (a / 4096) (· + 1) s.dev.fls.erases

theorem eraseBlock_starts (s : State) (a : Nat) (hup : pairRuns s.dev = true) (hop : s.dev.fls.op = none)
    (ha : a = s.dev.regF 0x13004 22 0) (he : flashErr s.dev .eraseBlock a = 0) :
    Completes (.eraseBlock .mgmt) s fun d =>
      d.fls.op = some (.eraseBlock, a) ∧ d.fls.err = 0 ∧
      (∀ i, i < 65536 → d.flashByte (a + i) = 0xFF) ∧
      (∀ i, i < a ∨ a + 65536 ≤ i → d.flashByte i = s.dev.flashByte i) ∧ OnlyIn [.fls] [0x13000] s.dev d := by
  have haligned : a % 65536 = 0 := aligned_of_flashErr he
  refine mgmtWrite_to hup rfl (startFlash_begins hop ha he nofun) ⟨rfl, rfl, fun i hi => ?_, fun i hi => ?_, underWay_onlyIn⟩
  · rw [underWay_flashByte, flashApply]
    exact foldl_eraseSectorAt_erases (by omega) (by omega)
  · rw [underWay_flashByte, flashApply, foldl_eraseSectorAt_flashByte (by omega), commandNamed_flashByte]

/-- The bytes that a bit clear leaves (R427). -/
def clearedBytes (a : Nat) (d : Device) : List Byte := (List.range 4).map fun i => d.flashByte (a + i) &&& (progBuf d).getD i 0

theorem clearedBytes_getD {a i : Nat} (h : i < 4) :
    (clearedBytes a d).getD i 0xFF = d.flashByte (a + i) &&& (progBuf d).getD i 0 := by
  rw [clearedBytes, List.getD_eq_getElem?_getD, List.getElem?_map, List.getElem?_range h]
  rfl

theorem bitClear_starts (s : State) (a : Nat) (hup : pairRuns s.dev = true) (hop : s.dev.fls.op = none) (ha : a = s.dev.regF 0x13004 22 0)
    (he : flashErr s.dev .bitClear a = 0) :
    Completes (.bitClear .mgmt) s fun d =>
      d.fls.op = some (.bitClear, a) ∧ d.fls.err = 0 ∧
      (∀ i, i < 4 → d.flashByte (a + i) = s.dev.flashByte (a + i) &&& (progBuf s.dev).getD i 0) ∧
      (∀ i, i < a ∨ a + 4 ≤ i → d.flashByte i = s.dev.flashByte i) ∧ OnlyIn [.fls] [0x13000] s.dev d := by
  have hlow : a < 0x5D0000 := by
    have hok := bitClearOk_of_flashErr he
    simp only [bitClearOk, Bool.and_eq_true, decide_eq_true_eq] at hok
    omega
  have hlength : (clearedBytes a (commandNamed 4 s.dev)).length = 4 := by rw [clearedBytes, List.length_map, List.length_range]
  refine mgmtWrite_to hup rfl (startFlash_begins hop ha he fun _ => hlow) ⟨rfl, rfl, fun i hi => ?_, fun i hi => ?_, underWay_onlyIn⟩
  · refine Eq.trans (putBytes_inside (bs := clearedBytes a (commandNamed 4 s.dev)) (by rw [hlength]; exact hi)) ?_
    rw [clearedBytes_getD hi, commandNamed_progBuf, commandNamed_flashByte]
  · exact putBytes_outside (bs := clearedBytes a (commandNamed 4 s.dev)) (by rw [hlength]; exact hi)

theorem eraseSector_refused (s : State) (hup : pairRuns s.dev = true) (hop : s.dev.fls.op = none) (_hm : s.dev.gen.mode = .primer)
    (he : flashErr s.dev .eraseSector (s.dev.regF 0x13004 22 0) ≠ 0) :
    Completes (.eraseSector .mgmt) s fun d =>
      d.fls = { s.dev.fls with err := flashErr s.dev .eraseSector (s.dev.regF 0x13004 22 0) } ∧ OnlyIn [.fls] [0x13000] s.dev d := by
  have haddr : (setRegF 0x13000 2 0 2 s.dev).regF 0x13004 22 0 = s.dev.regF 0x13004 22 0 := by
    rw [Device.regF, setRegF_onlyIn.2 _ (by decide), Device.regF]
  have herr : flashErr (setRegF 0x13000 2 0 2 s.dev) .eraseSector (s.dev.regF 0x13004 22 0) =
      flashErr s.dev .eraseSector (s.dev.regF 0x13004 22 0) := commandNamed_flashErr
  have hidle : (setRegF 0x13000 2 0 2 s.dev).fls.op.isSome = false := (congrArg Option.isSome hop).trans rfl
  have hrefused : startFlash .eraseSector s.dev =
      updFls (fun f => { f with err := flashErr s.dev .eraseSector (s.dev.regF 0x13004 22 0) }) (commandNamed 2 s.dev) := by
    rw [startFlash, flashCode, hidle]
    simp only [Bool.false_eq_true, if_false, haddr, herr, bne_iff_ne.mpr he, if_true]
    rfl
  exact mgmtWrite_to hup rfl hrefused ⟨rfl, (commandNamed_onlyIn.mono (by decide) (by decide)).andThen updFls_onlyIn⟩

theorem program_busy (s : State) (hup : pairRuns s.dev = true) (hop : s.dev.fls.op ≠ none) :
    Completes (.program .mgmt) s fun d => OnlyIn [] [0x13000] s.dev d := by
  have hbusy : (setRegF 0x13000 2 0 1 s.dev).fls.op.isSome = true := Option.isSome_iff_ne_none.mpr hop
  exact mgmtWrite_to hup rfl (if_pos hbusy) commandNamed_onlyIn

/-! ### Suspend and resume -/

/-- An operation runs, and no suspend of it is asked for. -/
structure Running (d : Device) : Prop where
  op : d.fls.op ≠ none
  suspended : d.fls.suspended = false
  suspending : d.fls.suspending = false
  held : d.fls.held = false

theorem askSuspend_running {auto : Bool} (h : Running d) :
    askSuspend auto d =
      if runLongEnough d then updFls (fun f => { f with suspending := true, auto := auto }) d
      else raise 178 (count 0x13058 (updFls (fun f => { f with held := true, auto := auto }) d)) := by
  have hop : d.fls.op.isNone = false := by
    rw [Option.isNone_eq_false_iff, Option.isSome_iff_ne_none]
    exact h.op
  rw [askSuspend, hop, h.suspended, h.suspending, h.held]
  rfl

theorem commandNamed_running {code : Nat} (h : Running d) : Running (commandNamed code d) := ⟨h.op, h.suspended, h.suspending, h.held⟩

theorem suspend_asks (s : State) (hup : pairRuns s.dev = true) (hop : s.dev.fls.op ≠ none) (hs : s.dev.fls.suspended = false)
    (hg : s.dev.fls.suspending = false) (hh : s.dev.fls.held = false) (hl : runLongEnough s.dev = true) :
    Completes (.suspend .mgmt) s fun d => d.fls = { s.dev.fls with suspending := true, auto := false } ∧ OnlyIn [.fls] [0x13000] s.dev d := by
  have hrun : Running (commandNamed 5 s.dev) := commandNamed_running ⟨hop, hs, hg, hh⟩
  exact mgmtWrite_to hup rfl ((askSuspend_running hrun).trans (if_pos hl))
    ⟨rfl, (commandNamed_onlyIn.mono (by decide) (by decide)).andThen updFls_onlyIn⟩

theorem suspend_holds (s : State) (hup : pairRuns s.dev = true) (hop : s.dev.fls.op ≠ none) (hs : s.dev.fls.suspended = false)
    (hg : s.dev.fls.suspending = false) (hh : s.dev.fls.held = false) (hl : runLongEnough s.dev = false) :
    Completes (.suspend .mgmt) s fun d =>
      d.fls = { s.dev.fls with held := true, auto := false } ∧ Raised 178 d ∧
      d.reg 0x13058 = BitVec.ofNat 32 (min 0xFFFFFFFF ((s.dev.reg 0x13058).toNat + 1)) ∧
      OnlyIn (.fls :: interruptParts) [0x13000, 0x13058, 0x4540] s.dev d := by
  have hrun : Running (commandNamed 5 s.dev) := commandNamed_running ⟨hop, hs, hg, hh⟩
  have hlong : ¬ runLongEnough (commandNamed 5 s.dev) = true := ne_true_of_eq_false hl
  obtain ⟨hraised, hreg, hframe⟩ := raise_count_spec (k := 178) (o := 0x13058)
    (d := updFls (fun f => { f with held := true, auto := false }) (commandNamed 5 s.dev)) (by decide)
  refine mgmtWrite_to hup rfl ((askSuspend_running hrun).trans (if_neg hlong)) ⟨hframe.1 .fls (by decide), hraised, ?_, ?_⟩
  · rw [hreg, updFls_onlyIn.2 _ (by decide), commandNamed_onlyIn.2 _ (by decide)]
  · exact ((commandNamed_onlyIn.mono (by decide) (by decide)).andThen updFls_onlyIn).andThen hframe

theorem resumeFlash_suspended (hop : d.fls.op ≠ none) (hs : d.fls.suspended = true) :
    resumeFlash d = updFls (fun f => { f with
      suspended := false, suspending := false, held := false, auto := false, resumedAt := some d.now }) d := by
  simp only [resumeFlash, Option.isSome_iff_ne_none.mpr hop, hs, Bool.true_or, Bool.and_self, if_true, updFls]

theorem resume_resumes (s : State) (hup : pairRuns s.dev = true) (hop : s.dev.fls.op ≠ none) (hs : s.dev.fls.suspended = true) :
    Completes (.resume .mgmt) s fun d =>
      d.fls = { s.dev.fls with suspended := false, suspending := false, held := false, auto := false, resumedAt := some s.dev.now } ∧
      OnlyIn [.fls] [0x13000] s.dev d :=
  mgmtWrite_to hup rfl (resumeFlash_suspended (d := commandNamed 6 s.dev) hop hs)
    ⟨rfl, (commandNamed_onlyIn.mono (by decide) (by decide)).andThen updFls_onlyIn⟩

/-- No read waits: none is served. -/
theorem serveWaiting_none (h : d.fls.waiting = []) : serveWaiting d = updFls (fun f => { f with waiting := [] }) d := by
  rw [serveWaiting, h]
  rfl

theorem suspendReached_suspends (s : State) (hop : s.dev.fls.op ≠ none) (hg : s.dev.fls.suspending = true) (hw : s.dev.fls.waiting = []) :
    Completes .suspendReached s fun d =>
      d.fls = { s.dev.fls with suspended := true, suspending := false, suspendedAt := s.dev.now, waiting := [] } ∧
      OnlyIn [.fls] [] s.dev d := by
  refine ⟨_, rfl, rfl, ?_⟩
  dsimp only
  rw [Option.isSome_iff_ne_none.mpr hop, hg, Bool.and_self, onlyIf_true, serveWaiting_none]
  · exact ⟨rfl, updFls_onlyIn.trans updFls_onlyIn⟩
  · exact hw

theorem suspendHoldExpiry_suspends (s : State) (hop : s.dev.fls.op ≠ none) (hh : s.dev.fls.held = true) (hl : runLongEnough s.dev = true) :
    Completes .suspendHoldExpiry s fun d => d.fls = { s.dev.fls with held := false, suspending := true } ∧ OnlyIn [.fls] [] s.dev d := by
  refine ⟨_, rfl, rfl, ?_⟩
  dsimp only
  rw [Option.isSome_iff_ne_none.mpr hop, hh, hl, Bool.and_self, Bool.and_self, onlyIf_true]
  exact ⟨rfl, updFls_onlyIn⟩

theorem autoSuspendEnd_resumes (s : State) (hop : s.dev.fls.op ≠ none) (hs : s.dev.fls.suspended = true) (ha : s.dev.fls.auto = true)
    (ht : s.dev.fls.suspendedAt + 2500 ≤ s.dev.now) :
    Completes .autoSuspendEnd s fun d =>
      d.fls = { s.dev.fls with suspended := false, suspending := false, held := false, auto := false, resumedAt := some s.dev.now } ∧
      OnlyIn [.fls] [] s.dev d := by
  refine ⟨_, rfl, rfl, ?_⟩
  dsimp only
  rw [hs, ha, decide_eq_true ht, Bool.or_true, Bool.and_self, Bool.and_self, onlyIf_true, resumeFlash_suspended hop hs]
  exact ⟨rfl, updFls_onlyIn⟩

/-! ### The end of an operation -/

/-- The operation is under way no longer: source 176 (R430). -/
def operationOver (d : Device) : Device :=
  raise 176 (updFls (fun f => { f with op := none, suspending := false, held := false, auto := false, resumedAt := none }) d)

theorem operationOver_fls :
    (operationOver d).fls = { d.fls with op := none, suspending := false, held := false, auto := false, resumedAt := none } :=
  raise_onlyIn.1 .fls (by decide)

theorem operationOver_onlyIn : OnlyIn (.fls :: interruptParts) [0x4540] d (operationOver d) :=
  (updFls_onlyIn.mono (by decide) (by decide)).andThen raise_onlyIn

theorem cutRange_onlyIn {lo n : Nat} : OnlyIn [.fls] [] d (cutRange lo n d) := updFls_onlyIn

/-- The verify failed: ERR 3, and the range is left in a state that the manual does not state (R430). -/
def verifyFailed (lo n : Nat) (d : Device) : Device :=
  raise 177 (count 0x1305C (cutRange lo n (updFls (fun f => { f with err := 3 }) d)))

theorem verifyFailed_fls {lo n : Nat} : ∃ b m c, (verifyFailed lo n d).fls = { d.fls with err := 3, bytes := b, spare := m, cuts := c } :=
  ⟨_, _, _, raise_onlyIn.1 .fls (by decide)⟩

theorem flashDone_verified {x : FlashOp × Nat} (hop : d.fls.op = some x) : flashDone true d = serveWaiting (operationOver d) := by
  rw [flashDone, hop]
  rfl

theorem flashDone_failed {x : FlashOp × Nat} (hop : d.fls.op = some x) :
    flashDone false d = serveWaiting (verifyFailed (flashSpan x.1 x.2).1 (flashSpan x.1 x.2).2 (operationOver d)) := by
  rw [flashDone, hop]
  rfl

theorem flashOpDone_to {s : State} {ok : Bool} {P : Device → Prop} (hs : s.dev.fls.suspended = false) (p : P (flashDone ok s.dev)) :
    Completes (.flashOpDone ok) s P := by
  refine ⟨_, rfl, rfl, ?_⟩
  dsimp only
  rw [hs, Bool.not_false, onlyIf_true]
  exact p

theorem flashOpDone_ends (s : State) (x : FlashOp × Nat) (hop : s.dev.fls.op = some x) (hs : s.dev.fls.suspended = false)
    (hw : s.dev.fls.waiting = []) :
    Completes (.flashOpDone true) s fun d =>
      d.fls = { s.dev.fls with op := none, suspending := false, held := false, auto := false, resumedAt := none, waiting := [] } ∧
      Raised 176 d ∧ OnlyIn (.fls :: interruptParts) [0x4540] s.dev d := by
  have hwait : (operationOver s.dev).fls.waiting = [] := by rw [operationOver_fls]; exact hw
  refine flashOpDone_to hs ?_
  rw [flashDone_verified hop, serveWaiting_none hwait]
  refine ⟨?_, (raised_raise 176 _).of_icu rfl, operationOver_onlyIn.andThen updFls_onlyIn⟩
  exact congrArg (fun f : Flash => { f with waiting := [] }) operationOver_fls

theorem flashOpDone_fails (s : State) (x : FlashOp × Nat) (hop : s.dev.fls.op = some x) (hs : s.dev.fls.suspended = false)
    (hw : s.dev.fls.waiting = []) :
    Completes (.flashOpDone false) s fun d =>
      d.fls.op = none ∧ d.fls.err = 3 ∧ Raised 176 d ∧ Raised 177 d ∧
      d.reg 0x1305C = BitVec.ofNat 32 (min 0xFFFFFFFF ((s.dev.reg 0x1305C).toNat + 1)) ∧
      OnlyIn (.fls :: interruptParts) [0x1305C, 0x4540] s.dev d := by
  obtain ⟨b, m, c, hfls⟩ := verifyFailed_fls (d := operationOver s.dev) (lo := (flashSpan x.1 x.2).1) (n := (flashSpan x.1 x.2).2)
  have hover : OnlyIn (.fls :: interruptParts) [0x1305C, 0x4540] s.dev (operationOver s.dev) :=
    operationOver_onlyIn.mono (List.Subset.refl _) (by decide)
  have hcut : OnlyIn [.fls] [] (operationOver s.dev)
      (cutRange (flashSpan x.1 x.2).1 (flashSpan x.1 x.2).2 (updFls (fun f => { f with err := 3 }) (operationOver s.dev))) :=
    updFls_onlyIn.trans cutRange_onlyIn
  obtain ⟨hraised, hreg, hframe⟩ := raise_count_spec (k := 177) (o := 0x1305C)
    (d := cutRange (flashSpan x.1 x.2).1 (flashSpan x.1 x.2).2 (updFls (fun f => { f with err := 3 }) (operationOver s.dev))) (by decide)
  have hraised176 : Raised 176 (verifyFailed (flashSpan x.1 x.2).1 (flashSpan x.1 x.2).2 (operationOver s.dev)) :=
    (((raised_raise 176 _).andThen hcut).andThen count_onlyIn).raise 177
  rw [operationOver_fls] at hfls
  have hwait : (verifyFailed (flashSpan x.1 x.2).1 (flashSpan x.1 x.2).2 (operationOver s.dev)).fls.waiting = [] := by
    rw [hfls]
    exact hw
  refine flashOpDone_to hs ?_
  rw [flashDone_failed hop, serveWaiting_none hwait]
  refine ⟨?_, ?_, hraised176.of_icu rfl, hraised.of_icu rfl, ?_, (hover.andThen hcut).andThen hframe |>.andThen updFls_onlyIn⟩
  · exact congrArg Flash.op hfls
  · exact congrArg Flash.err hfls
  · refine (updFls_onlyIn.2 _ (by decide)).trans (hreg.trans ?_)
    rw [hcut.2 _ (by decide), operationOver_onlyIn.2 _ (by decide)]

theorem flashOpDone_suspended (s : State) (_hop : s.dev.fls.op ≠ none) (hs : s.dev.fls.suspended = true) :
    Completes (.flashOpDone true) s fun d => d = s.dev := by
  refine ⟨_, rfl, rfl, ?_⟩
  dsimp only
  rw [hs, Bool.not_true, onlyIf_false]

end

/-- Settles O48, clause by clause: the start of each operation, its refusals, suspend and resume, and its end. -/
theorem flashOperationsChangeTheArray : Obligations.FlashOperationsChangeTheArray :=
  ⟨program_starts, eraseSector_starts, eraseBlock_starts, bitClear_starts, eraseSector_refused, program_busy, suspend_asks, suspend_holds,
    resume_resumes, suspendReached_suspends, suspendHoldExpiry_suspends, autoSuspendEnd_resumes, flashOpDone_ends, flashOpDone_fails,
    flashOpDone_suspended⟩

end Sys2Proof.Machine
end

section
/-!
PROOFS. Flash reads, scrubs and refreshes, the event log ring, and the confirm mark.
-/

namespace Sys2Proof.Machine

section
variable {d e : Device}

/-! ### Reads -/

theorem flashRead_to {s : State} {k : Nat} {flips : List Nat} {P : Device → Prop} (hk : k < 262144) (he : flashRead k flips s.dev = e)
    (p : P e) : Completes (.flashRead k flips) s P :=
  completes_to (f := onlyIf (decide (k < 262144)) (flashRead k flips)) rfl (by rw [decide_eq_true hk, onlyIf_true, he]) p

/-- The array is free: the chunk is sensed at once (R431). -/
theorem flashRead_free {k : Nat} {flips : List Nat} (h : d.fls.op = none) : flashRead k flips d = senseChunk k flips d := by
  have hbusy : sectorBusy d (k / 128) = false := by rw [sectorBusy, h]
  rw [flashRead, hbusy, h]
  rfl

/-- A chunk that reads clean is delivered as it is. -/
theorem senseChunk_clean {k : Nat} {flips : List Nat} {bs : List Byte} (h : sensed d k flips = .coded bs 0) :
    senseChunk k flips d = deliverFlash bs false d := by
  rw [senseChunk, h]
  rfl

/-- A chunk beyond correction is delivered poison-marked, counted, and raises source 180 (R426). -/
theorem senseChunk_poison {k : Nat} {flips : List Nat} (h : sensed d k flips = .poison) :
    senseChunk k flips d = deliverFlash (flipData flips (flashBytes d (32 * k) 32)) true (raise 180 (count 0x13054 d)) := by
  rw [senseChunk, h]
  rfl

theorem flashRead_clean (s : State) (k : Nat) (bs : List Byte) (hk : k < 262144) (ho : s.dev.fls.op = none)
    (hr : readChunk (flashBytes s.dev (32 * k) 32) (s.dev.flashSpare k) = .coded bs 0)
    (hc : flipCheck [] (s.dev.flashSpare k) = s.dev.flashSpare k)
    (hd : flipData [] (flashBytes s.dev (32 * k) 32) = flashBytes s.dev (32 * k) 32) :
    Completes (.flashRead k []) s fun d => d.fls = { s.dev.fls with delivered := some (bs, false) } ∧ OnlyIn [.fls] [] s.dev d := by
  have hsensed : sensed s.dev k [] = .coded bs 0 := by rw [sensed, hc, hd, hr]
  exact flashRead_to hk ((flashRead_free ho).trans (senseChunk_clean hsensed)) ⟨rfl, updFls_onlyIn⟩

theorem flashRead_poison (s : State) (k : Nat) (flips : List Nat) (hk : k < 262144) (ho : s.dev.fls.op = none)
    (hr : readChunk (flipData flips (flashBytes s.dev (32 * k) 32)) (flipCheck flips (s.dev.flashSpare k)) = .poison) :
    Completes (.flashRead k flips) s fun d =>
      d.fls.delivered = some (flipData flips (flashBytes s.dev (32 * k) 32), true) ∧ Raised 180 d ∧
      d.reg 0x13054 = BitVec.ofNat 32 (min 0xFFFFFFFF ((s.dev.reg 0x13054).toNat + 1)) ∧
      OnlyIn (.fls :: interruptParts) [0x13054, 0x4540] s.dev d := by
  obtain ⟨hraised, hreg, hframe⟩ := raise_count_spec (d := s.dev) (k := 180) (o := 0x13054) (by decide)
  exact flashRead_to hk ((flashRead_free ho).trans (senseChunk_poison hr))
    ⟨rfl, hraised.of_icu rfl, hreg, (hframe.mono (by decide) (List.Subset.refl _)).andThen updFls_onlyIn⟩

theorem flashRead_busy (s : State) (k : Nat) (flips : List Nat) (hk : k < 262144) (hb : sectorBusy s.dev (k / 128) = true) :
    Completes (.flashRead k flips) s fun d => d.fls = { s.dev.fls with delivered := some ([], true) } ∧ OnlyIn [.fls] [] s.dev d :=
  flashRead_to hk (if_pos hb) ⟨rfl, updFls_onlyIn⟩

/-! ### Scrubs -/

theorem noteDue_spec {n : Nat} : n ∈ (noteDue n d).fls.due ∧ Raised 181 (noteDue n d) ∧
    OnlyIn (.fls :: interruptParts) [0x4540] d (noteDue n d) := by
  have hfls : (noteDue n d).fls = { d.fls with due := insertNat n d.fls.due } := raise_onlyIn.1 .fls (by decide)
  refine ⟨?_, raised_raise 181 _, (updFls_onlyIn.mono (by decide) (by decide)).andThen raise_onlyIn⟩
  rw [hfls]
  exact mem_insertNat

theorem flashScrub_to {s : State} {n : Nat} {flips : List (Nat × List Nat)} {P : Device → Prop}
    (ho : (decide (n < 2048) && !eventSector n && !sectorBusy s.dev n) = true) (p : P (scrubSector n flips s.dev)) :
    Completes (.flashScrub n flips) s P := by
  refine ⟨_, rfl, rfl, ?_⟩
  dsimp only
  rw [ho, onlyIf_true]
  exact p

/-- One chunk corrected makes the sector refresh-due (R440). -/
theorem scrubSector_corrected {n k : Nat} {fl : List Nat} (hk : k < 128) (hc : wasCorrected (sensed d (128 * n + k) fl) = true) :
    scrubSector n [(k, fl)] d = noteDue n (raise 179 (count 0x13050 d)) := by
  rw [scrubSector, List.filter_cons_of_pos (by simpa using hk)]
  simp only [List.filter_nil, List.map_cons, List.map_nil, List.foldl_cons, List.foldl_nil, List.any_cons, hc, Bool.true_or, if_true,
    noteChunk]

theorem flashScrub_marks (s : State) (n k : Nat) (fl : List Nat) (hn : n < 2048) (he : ¬ (0x4D0 ≤ n ∧ n < 0x5D0))
    (hb : sectorBusy s.dev n = false) (hk : k < 128) (hc : wasCorrected (sensed s.dev (128 * n + k) fl) = true) :
    Completes (.flashScrub n [(k, fl)]) s fun d =>
      n ∈ d.fls.due ∧ Raised 181 d ∧ OnlyIn (.fls :: interruptParts) [0x13050, 0x4540] s.dev d := by
  have hevent : eventSector n = false := by simpa [eventSector] using he
  obtain ⟨-, -, hframe⟩ := raise_count_spec (d := s.dev) (k := 179) (o := 0x13050) (by decide)
  obtain ⟨hdue, hraised, hnoted⟩ := noteDue_spec (d := raise 179 (count 0x13050 s.dev)) (n := n)
  refine flashScrub_to (by rw [hevent, hb, decide_eq_true hn]; rfl) ?_
  rw [scrubSector_corrected hk hc]
  exact ⟨hdue, hraised, (hframe.mono (by decide) (List.Subset.refl _)).andThen hnoted⟩

theorem flashScrub_nothing (s : State) (n : Nat) : Completes (.flashScrub n []) s fun d => d = s.dev := by
  refine ⟨_, rfl, rfl, ?_⟩
  dsimp only
  cases decide (n < 2048) && !eventSector n && !sectorBusy s.dev n <;> rfl

/-! ### A refresh -/

theorem flipData_length {flips : List Nat} {bs : List Byte} : (flipData flips bs).length = bs.length := by simp [flipData]

/-- A chunk's corrected bytes are as many as its stored ones. -/
theorem readChunk_length {bytes bs : List Byte} {check : BitVec 24} {n : Nat} (h : readChunk bytes check = .coded bs n) :
    bs.length = bytes.length := by
  unfold readChunk at h
  dsimp only at h
  split at h
  · cases h
  · split at h
    · cases h
    · split at h
      · cases h
      · split at h
        · cases h
          exact flipData_length
        · cases h

theorem flashBytes_length {a n : Nat} : (flashBytes d a n).length = n := by simp [flashBytes]

/-- What a chunk holds, as a refresh programs it again, is no longer than the chunk. -/
structure ChunkSized (p : Nat × List Byte × Option ChunkRead) : Prop where
  index : p.1 < 128
  raw : p.2.1.length ≤ 32
  coded : ∀ bs n, p.2.2 = some (.coded bs n) → bs.length ≤ 32

theorem chunkContents_sized {i k : Nat} (hi : i < 128) : ChunkSized (i, flashBytes d (32 * k) 32, chunkContents d k) := by
  refine ⟨hi, by rw [flashBytes_length], fun bs n h => ?_⟩
  have hread : readChunk (flashBytes d (32 * k) 32) (d.flashSpare k) = .coded bs n := by
    unfold chunkContents at h
    dsimp only at h
    split at h
    · cases h
    · exact Option.some.inj h
  rw [readChunk_length hread, flashBytes_length]

/-- A chunk programmed again changes its own bytes (R440). -/
theorem programChunk_flashByte {n i : Nat} {p : Nat × List Byte × Option ChunkRead} (hp : ChunkSized p)
    (hi : i < 4096 * n ∨ 4096 * (n + 1) ≤ i) : (programChunk (128 * n + p.1) p.2.1 p.2.2 d).flashByte i = d.flashByte i := by
  obtain ⟨hindex, hraw, hcoded⟩ := hp
  unfold programChunk
  split
  next bs m h =>
    have := hcoded bs m h
    exact programAt_flashByte (by omega)
  next => exact putBytes_outside (by omega)
  next => rfl

theorem programChunk_erases {k : Nat} {raw : List Byte} {r : Option ChunkRead} :
    (programChunk k raw r d).fls.erases = d.fls.erases ∧ (programChunk k raw r d).fls.due = d.fls.due := by
  unfold programChunk
  split <;> exact ⟨rfl, rfl⟩

theorem programChunk_onlyIn {k : Nat} {raw : List Byte} {r : Option ChunkRead} : OnlyIn [.fls] [] d (programChunk k raw r d) := by
  unfold programChunk
  split
  · exact programAt_onlyIn
  · exact updFls_onlyIn
  · exact .refl

/-- The chunks of sector `n` programmed one after another: bytes outside the sector, the erase counts and the due list stay. -/
theorem foldl_programChunk {n : Nat} {l : List (Nat × List Byte × Option ChunkRead)} (hl : ∀ p ∈ l, ChunkSized p) :
    (∀ i, i < 4096 * n ∨ 4096 * (n + 1) ≤ i →
      (l.foldl (fun d p => programChunk (128 * n + p.1) p.2.1 p.2.2 d) d).flashByte i = d.flashByte i) ∧
    (l.foldl (fun d p => programChunk (128 * n + p.1) p.2.1 p.2.2 d) d).fls.erases = d.fls.erases ∧
    (l.foldl (fun d p => programChunk (128 * n + p.1) p.2.1 p.2.2 d) d).fls.due = d.fls.due ∧
    OnlyIn [.fls] [] d (l.foldl (fun d p => programChunk (128 * n + p.1) p.2.1 p.2.2 d) d) := by
  induction l generalizing d with
  | nil => exact ⟨fun _ _ => rfl, rfl, rfl, .refl⟩
  | cons p l ih =>
    obtain ⟨hbytes, herases, hdue, honly⟩ := ih (d := programChunk (128 * n + p.1) p.2.1 p.2.2 d) fun q hq =>
      hl q (List.mem_cons_of_mem p hq)
    exact ⟨fun i hi => (hbytes i hi).trans (programChunk_flashByte (hl p List.mem_cons_self) hi),
      herases.trans programChunk_erases.1, hdue.trans programChunk_erases.2, programChunk_onlyIn.trans honly⟩

/-- A sector programmed again from what `m` reads (R440). -/
theorem rewriteSector_spec {n m : Nat} :
    (rewriteSector n m d).fls.due = d.fls.due.erase n ∧
      sget (fun _ => none) (rewriteSector n m d).fls.refreshedAt n = some d.now ∧
      sget (fun _ => 0) (rewriteSector n m d).fls.erases n = sget (fun _ => 0) d.fls.erases n + 1 ∧
      (∀ i, i < 4096 * n ∨ 4096 * (n + 1) ≤ i → (rewriteSector n m d).flashByte i = d.flashByte i) ∧
      OnlyIn [.fls] [] d (rewriteSector n m d) := by
  have hl : ∀ p ∈ (List.range 128).map fun i => (i, flashBytes d (32 * (128 * m + i)) 32, chunkContents d (128 * m + i)),
      ChunkSized p := by
    intro p hp
    obtain ⟨i, hi, rfl⟩ := List.mem_map.mp hp
    exact chunkContents_sized (List.mem_range.mp hi)
  obtain ⟨hbytes, herases, hdue, honly⟩ := foldl_programChunk (d := eraseSectorAt n d) (n := n) hl
  unfold rewriteSector
  dsimp only
  generalize List.foldl (fun (d : Device) (p : Nat × List Byte × Option ChunkRead) => programChunk (128 * n + p.1) p.2.1 p.2.2 d)
    (eraseSectorAt n d) _ = e at hbytes herases hdue honly
  have hframe : OnlyIn [.fls] [] d e := eraseSectorAt_onlyIn.trans honly
  have hnow : e.now = d.now := hframe.now_eq (by decide)
  refine ⟨?_, ?_, ?_, fun i hi => ?_, hframe.trans updFls_onlyIn⟩
  · exact congrArg (fun l => l.erase n) hdue
  · rw [← hnow]
    exact sget_sset_self (fun _ => none) n (some e.now) e.fls.refreshedAt
  · refine (congrArg (fun m => sget (fun _ => 0) m n) herases).trans ?_
    exact sget_supd_self (fun _ => 0) n (· + 1) d.fls.erases
  · exact (hbytes i hi).trans (eraseSectorAt_flashByte hi)

theorem flashRefresh_rewrites (s : State) (n : Nat) (hd : s.dev.fls.due = [n]) (hm : s.dev.gen.mode ≠ .primer) (ho : s.dev.fls.op = none)
    (ha : refreshAllowed s.dev n = true) (hr : sectorReads s.dev n = true) :
    Completes (.flashRefresh n) s fun d =>
      d.fls.due = [] ∧ sget (fun _ => none) d.fls.refreshedAt n = some s.dev.now ∧
      sget (fun _ => 0) d.fls.erases n = sget (fun _ => 0) s.dev.fls.erases n + 1 ∧
      (∀ i, i < 4096 * n ∨ 4096 * (n + 1) ≤ i → d.flashByte i = s.dev.flashByte i) ∧ OnlyIn [.fls] [] s.dev d := by
  have hready : (s.dev.fls.due.contains n && s.dev.gen.mode != .primer && s.dev.fls.op.isNone && refreshAllowed s.dev n) = true := by
    rw [hd, ho, ha, bne_iff_ne.mpr hm]
    simp
  have hrefresh : refreshFlash n s.dev = rewriteSector n n s.dev := if_pos hr
  obtain ⟨hdue, hat, herases, hbytes, honly⟩ := rewriteSector_spec (d := s.dev) (n := n) (m := n)
  refine ⟨_, rfl, rfl, ?_⟩
  dsimp only
  rw [hready, onlyIf_true, hrefresh]
  refine ⟨?_, hat, herases, hbytes, honly⟩
  rw [hdue, hd, List.erase_cons_head]

/-! ### The event log ring -/

theorem updEvt_onlyIn {f : EventLog → EventLog} : OnlyIn [.evt] [] d (updEvt f d) := by
  refine ⟨fun p hp => ?_, fun _ _ => rfl⟩
  cases p with
  | evt => simp at hp
  | _ => rfl

theorem eventBody_length {tick seq origin source code : Nat} {detail : List Byte} :
    (eventBody tick seq origin source code detail).length = 28 := by
  simp only [eventBody, leBytes, padTo, List.length_append, List.length_map, List.length_range, List.length_take, List.length_replicate]
  omega

/-- The 32 bytes of an entry (Table 16-5). -/
def eventEntry (tick seq origin source code : Nat) (detail : List Byte) : List Byte :=
  eventBody tick seq origin source code detail ++ leBytes 4 (crc32c (eventBody tick seq origin source code detail)).toNat

theorem eventEntry_length {tick seq origin source code : Nat} {detail : List Byte} :
    (eventEntry tick seq origin source code detail).length = 32 := by
  rw [eventEntry, List.length_append, eventBody_length]
  simp [leBytes]

/-- What was programmed reads back whole. -/
theorem flashBytes_programAt {a n : Nat} {bs : List Byte} (h : bs.length = n) : flashBytes (programAt a bs d) a n = bs := by
  refine List.ext_getElem (by rw [flashBytes_length, h]) fun i h₁ h₂ => ?_
  have hbyte := programAt_programs (d := d) (a := a) h₂
  simp only [flashBytes, List.getElem_map, List.getElem_range]
  rw [hbyte, List.getD_eq_getElem _ _ h₂]

/-- The sector that the ring goes on to is erased before the first entry of a sector (R437). -/
def ringErased (i : Nat) (d : Device) : Device := if i % 128 = 0 then eraseSectorAt (0x4D0 + (i / 128 + 1) % 256) d else d

theorem ringErased_onlyIn {i : Nat} : OnlyIn [.fls] [] d (ringErased i d) := by
  unfold ringErased
  split
  · exact eraseSectorAt_onlyIn
  · exact .refl

/-- The entry stands in the ring. -/
def entryPut (tick origin source code : Nat) (detail : List Byte) (d : Device) : Device :=
  programAt (eventAddr d.evt.next) (eventEntry tick d.evt.seq origin source code detail) (ringErased d.evt.next d)

/-- The ring goes on past its place `i`. -/
def ringAdvanced (i : Nat) (d : Device) : Device :=
  updEvt (fun e => { e with next := (i + 1) % 32768, seq := (e.seq + 1) % 4294967296, hourCount := e.hourCount + 1 }) d

theorem putEvent_eq {tick origin source code : Nat} {detail : List Byte} :
    putEvent tick origin source code detail d =
      raise 27 (ringAdvanced d.evt.next (entryPut tick origin source code detail d)) := by
  have hevt : (ringErased d.evt.next d).evt.seq = d.evt.seq := by rw [ringErased_onlyIn.1 .evt (by decide)]
  rw [entryPut, ← hevt]
  rfl

theorem entryPut_onlyIn {tick origin source code : Nat} {detail : List Byte} :
    OnlyIn [.fls] [] d (entryPut tick origin source code detail d) := ringErased_onlyIn.trans programAt_onlyIn

/-- An entry written to the ring (R437). -/
theorem putEvent_spec {tick origin source code : Nat} {detail : List Byte} :
    flashBytes (putEvent tick origin source code detail d) (0x4D0000 + 32 * d.evt.next) 32 =
        eventEntry tick d.evt.seq origin source code detail ∧
      (putEvent tick origin source code detail d).evt = { d.evt with
        next := (d.evt.next + 1) % 32768, seq := (d.evt.seq + 1) % 4294967296, hourCount := d.evt.hourCount + 1 } ∧
      Raised 27 (putEvent tick origin source code detail d) ∧
      OnlyIn ([.fls, .evt] ++ interruptParts) [0x4540] d (putEvent tick origin source code detail d) := by
  have hput : flashBytes (entryPut tick origin source code detail d) (0x4D0000 + 32 * d.evt.next) 32 =
      eventEntry tick d.evt.seq origin source code detail := flashBytes_programAt eventEntry_length
  have hevt : (entryPut tick origin source code detail d).evt = d.evt := entryPut_onlyIn.1 .evt (by decide)
  rw [putEvent_eq]
  refine ⟨?_, ?_, raised_raise 27 _, ?_⟩
  · rw [← hput, flashBytes, flashBytes]
    have hfls : (raise 27 (ringAdvanced d.evt.next (entryPut tick origin source code detail d))).fls =
        (entryPut tick origin source code detail d).fls := raise_onlyIn.1 .fls (by decide)
    simp only [Device.flashByte, hfls]
  · rw [raise_onlyIn.1 .evt (by decide), ringAdvanced, updEvt, hevt]
  · exact ((entryPut_onlyIn.mono (by decide) (by decide)).andThen updEvt_onlyIn).andThen raise_onlyIn

/-- Within the hour nothing rolls over (R438). -/
theorem rollHour_within (h : hourOf d ≤ d.evt.hour) : rollHour d = d := if_neg (Nat.not_lt.mpr h)

/-- An entry within the hour's limit is written, while the flash may be programmed (R430, R438). -/
theorem logEventAt_writes {tick origin source code : Nat} {detail : List Byte} (hm : d.gen.mode ≠ .primer) (hh : hourOf d ≤ d.evt.hour)
    (hc : d.evt.hourCount < 7200) : logEventAt tick origin source code detail d = putEvent tick origin source code detail d := by
  rw [logEventAt, rollHour_within hh, if_neg hm, if_neg (Nat.not_le.mpr hc)]

theorem eventLogWrite_firmware {s : State} {source code : Nat} {detail : List Byte} {P : Device → Prop} (hup : pairRuns s.dev = true)
    (he : logEvent 1 source code detail s.dev = e) (p : P e) : Completes (.eventLogWrite 1 source code detail) s P := by
  have hrun : decide (s.dev.lsk.pair = .running) = true := hup
  refine ⟨_, rfl, rfl, ?_⟩
  dsimp only
  rw [if_pos rfl, hrun, onlyIf_true, he]
  exact p

theorem eventLogWrite_writes (s : State) (source code : Nat) (detail : List Byte) (hup : pairRuns s.dev = true)
    (hm : s.dev.gen.mode ≠ .primer) (hh : hourOf s.dev ≤ s.dev.evt.hour) (hc : s.dev.evt.hourCount < 7200)
    (_hn : s.dev.evt.next < 32768) :
    Completes (.eventLogWrite 1 source code detail) s fun d =>
      (let b := eventBody s.dev.now s.dev.evt.seq 1 source code detail
       flashBytes d (0x4D0000 + 32 * s.dev.evt.next) 32 = b ++ leBytes 4 (crc32c b).toNat) ∧
      d.evt = { s.dev.evt with
        next := (s.dev.evt.next + 1) % 32768, seq := (s.dev.evt.seq + 1) % 4294967296, hourCount := s.dev.evt.hourCount + 1 } ∧
      Raised 27 d ∧ OnlyIn ([.fls, .evt] ++ interruptParts) [0x4540] s.dev d :=
  eventLogWrite_firmware hup (logEventAt_writes hm hh hc) putEvent_spec

theorem eventLogWrite_suppresses (s : State) (source code : Nat) (detail : List Byte) (hup : pairRuns s.dev = true)
    (hm : s.dev.gen.mode ≠ .primer) (hh : hourOf s.dev ≤ s.dev.evt.hour) (hc : 7200 ≤ s.dev.evt.hourCount) :
    Completes (.eventLogWrite 1 source code detail) s fun d =>
      d.evt = { s.dev.evt with suppressed := s.dev.evt.suppressed + 1, lost := s.dev.evt.lost + 1 } ∧ OnlyIn [.evt] [] s.dev d := by
  have he : logEvent 1 source code detail s.dev =
      updEvt (fun e => { e with suppressed := e.suppressed + 1, lost := e.lost + 1 }) s.dev := by
    rw [logEvent, logEventAt, rollHour_within hh, if_neg hm, if_pos hc]
  exact eventLogWrite_firmware hup he ⟨rfl, updEvt_onlyIn⟩

/-- The oldest queued copy is written, and leaves the queue (R15, R51, R420). -/
theorem writeQueued_writes {x : EventDue} {q : List EventDue} (hq : d.evt.queue = x :: q) (hup : pairRuns d = true)
    (hm : d.gen.mode ≠ .primer) (hh : hourOf d ≤ d.evt.hour) (hc : d.evt.hourCount < 7200) :
    writeQueued d = putEvent x.tick x.origin x.source x.code x.detail (updEvt (fun v => { v with queue := q }) d) := by
  have hready : (decide (d.lsk.pair = .running) && d.gen.mode != .primer) = true := by
    rw [bne_iff_ne.mpr hm, Bool.and_true]
    exact hup
  rw [writeQueued, hq]
  dsimp only
  rw [if_pos hready]
  exact logEventAt_writes (d := updEvt (fun v => { v with queue := q }) d) hm hh hc

theorem eventLogWrite_copies (s : State) (x : EventDue) (q : List EventDue) (source code : Nat) (detail : List Byte)
    (hq : s.dev.evt.queue = x :: q) (ho : x.origin = 2 ∨ x.origin = 3) (hup : pairRuns s.dev = true) (hm : s.dev.gen.mode ≠ .primer)
    (hh : hourOf s.dev ≤ s.dev.evt.hour) (hc : s.dev.evt.hourCount < 7200) (_hn : s.dev.evt.next < 32768) :
    Completes (.eventLogWrite x.origin source code detail) s fun d =>
      (let b := eventBody x.tick s.dev.evt.seq x.origin x.source x.code x.detail
       flashBytes d (0x4D0000 + 32 * s.dev.evt.next) 32 = b ++ leBytes 4 (crc32c b).toNat) ∧
      d.evt = { s.dev.evt with
        queue := q, next := (s.dev.evt.next + 1) % 32768, seq := (s.dev.evt.seq + 1) % 4294967296,
        hourCount := s.dev.evt.hourCount + 1 } ∧
      Raised 27 d ∧ OnlyIn ([.fls, .evt] ++ interruptParts) [0x4540] s.dev d := by
  have hfirst : x.origin ≠ 1 := by omega
  have hcopy : (decide (x.origin = 2) || decide (x.origin = 3)) = true := by simpa using ho
  obtain ⟨hbytes, hevt, hraised, honly⟩ := putEvent_spec (d := updEvt (fun v => { v with queue := q }) s.dev) (tick := x.tick)
    (origin := x.origin) (source := x.source) (code := x.code) (detail := x.detail)
  refine ⟨_, rfl, rfl, ?_⟩
  dsimp only
  rw [if_neg hfirst, if_pos hcopy, hq]
  dsimp only
  rw [decide_eq_true rfl, onlyIf_true, writeQueued_writes hq hup hm hh hc]
  exact ⟨hbytes, hevt, hraised, (updEvt_onlyIn.mono (by decide) (by decide)).trans honly⟩

/-- The hour begins with no entry counted. -/
def hourBegun (d : Device) : Device := updEvt (fun e => { e with hour := hourOf d, hourCount := 0, suppressed := 0 }) d

theorem eventLogHourEnd_rolls (s : State) (hh : s.dev.evt.hour < hourOf s.dev) (hs : s.dev.evt.suppressed = 0) :
    Completes .eventLogHourEnd s fun d =>
      d.evt = { s.dev.evt with hour := hourOf s.dev, hourCount := 0, suppressed := 0 } ∧ OnlyIn [.evt] [] s.dev d := by
  have he : rollHour s.dev = hourBegun s.dev := by
    rw [rollHour, if_pos hh, hs]
    rfl
  exact completes_to (f := rollHour) rfl he ⟨rfl, updEvt_onlyIn⟩

theorem eventLogHourEnd_tells (s : State) (hh : s.dev.evt.hour < hourOf s.dev) (hs : 0 < s.dev.evt.suppressed)
    (hm : s.dev.gen.mode ≠ .primer) :
    Completes .eventLogHourEnd s fun d =>
      d.evt = { s.dev.evt with
        hour := hourOf s.dev, hourCount := 1, suppressed := 0, next := (s.dev.evt.next + 1) % 32768,
        seq := (s.dev.evt.seq + 1) % 4294967296 } ∧ Raised 27 d := by
  have htell : (decide (0 < s.dev.evt.suppressed) && (hourBegun s.dev).gen.mode != .primer) = true := by
    rw [decide_eq_true hs, Bool.true_and]
    exact bne_iff_ne.mpr hm
  have he : rollHour s.dev = putEvent s.dev.now 5 0 0 (leBytes 4 s.dev.evt.suppressed) (hourBegun s.dev) := by
    rw [rollHour, if_pos hh]
    exact if_pos htell
  obtain ⟨-, hevt, hraised, -⟩ := putEvent_spec (d := hourBegun s.dev) (tick := s.dev.now) (origin := 5) (source := 0) (code := 0)
    (detail := leBytes 4 s.dev.evt.suppressed)
  exact completes_to (f := rollHour) rfl he ⟨hevt, hraised⟩

/-! ### The confirm mark -/

theorem confirmMark_marks (s : State) (h : confirmDue s.dev = true) :
    Completes .confirmMark s fun d =>
      (∀ i, i < imageBase s.dev.lsk.imageB + 0x400 ∨ imageBase s.dev.lsk.imageB + 0x500 ≤ i → d.flashByte i = s.dev.flashByte i) ∧
      d.fls.cuts = s.dev.fls.cuts + 1 ∧ OnlyIn [.fls] [] s.dev d := by
  refine ⟨_, rfl, rfl, ?_⟩
  dsimp only
  rw [h, onlyIf_true]
  refine ⟨fun i hi => ?_, rfl, updFls_onlyIn.trans programAt_onlyIn⟩
  refine programAt_flashByte ?_
  rw [List.length_map, List.length_range]
  omega

end

/-- Settles O49, clause by clause: what a chunk reads, what a scrub and a refresh leave, and the entries of the ring. -/
theorem flashReadsScrubsAndLogs : Obligations.FlashReadsScrubsAndLogs :=
  ⟨flashRead_clean, flashRead_poison, flashRead_busy, flashScrub_marks, flashScrub_nothing, flashRefresh_rewrites, eventLogWrite_writes,
    eventLogWrite_suppresses, eventLogWrite_copies, eventLogHourEnd_rolls, eventLogHourEnd_tells, confirmMark_marks⟩

end Sys2Proof.Machine
end


section
/-!
PROOFS. HOLD of a stream whose TAIL a waiting change will raise.
-/

namespace Sys2Proof.Machine

/-- HOLD of stream 0 from sequence 0 to 9 for owner 1, as the host interface has dispatched it. -/
def holdToNine : Cmd :=
  { tag := 0, sq := 1, index := 0, entry := 0x04 :: List.replicate 31 0 ++ [9] ++ List.replicate 31 0, phase := .dispatched
    started := false, ovr := false, owner := 1, sgl := [], group := none, payload := [], poisoned := false, records := 0, discard := false }

/-- Stream 0 of owner 1 stands in the table store with TAIL 0, and a change of its TAIL to 5 waits for its table line (R178). -/
def tailWaits : State :=
  { pending := []
    dev := {
      gen := { mode := .undercoat }
      pwr := { st := .armed }
      hif := { cmds := [holdToNine] }
      cch := { store := [(0, [(0, { owner := 1, st := .open })])] }
      rcl := { tasks := [.tail 0 5] } } }

/-- The same with the table line of stream 0 in the cache. -/
def tailWaitsHeld : Device := (lineFor holdToNine tailWaits.dev).2

theorem tailWaits_dispatched : Dispatched tailWaits.dev 0 holdToNine := ⟨rfl, rfl, rfl, by decide⟩

theorem tailWaits_cleared : Cleared holdToNine tailWaits.dev tailWaitsHeld :=
  ⟨⟨by decide +kernel, by decide +kernel, by decide +kernel⟩, by decide +kernel, by decide +kernel⟩

theorem exec_hold {s : State} {tag : Nat} : exec (.hold tag) s = effect s (runOp tag 0x04 runHold) := rfl

/-- The record shows no hold and TAIL 0 yet. -/
theorem tailWaitsHeld_record : streamRec tailWaitsHeld 0 = { owner := 1, st := .open } := by decide +kernel

/-- The held range begins at the entry that the waiting change gives. -/
theorem hold_fromWaitingTail : (streamRec (runOp 0 0x04 runHold tailWaits.dev) 0).holdFirst = 5 := by decide +kernel

/-- Refutes O34: HOLD is to hold from the larger of FIRST and the record's TAIL, but in `tailWaits` it counts from the TAIL that a waiting
change will give. -/
theorem not_recordCommandsCompleteOrFailTheirChecks : ¬ Obligations.RecordCommandsCompleteOrFailTheirChecks := by
  rintro ⟨-, -, -, -, -, -, -, hhold, -⟩
  obtain ⟨t, ht, -, hrec, -⟩ := hhold tailWaits 0 holdToNine tailWaitsHeld tailWaits_dispatched rfl tailWaits_cleared (by decide)
  rw [exec_hold, effect_next] at ht
  obtain rfl := Host.Outcome.next.inj ht
  have hstream : eStream holdToNine.entry = 0 := by decide
  dsimp only at hrec
  rw [hstream, tailWaitsHeld_record] at hrec
  have hfirst := hold_fromWaitingTail
  rw [hrec] at hfirst
  revert hfirst
  decide

end Sys2Proof.Machine
end


section
/-!
PROOFS. A self-test that fails in Topcoat while a status is owed to its command.

Primer ends the pair's Topcoat first, which settles the groups and pays what they owe, and completes the commands in flight only then.
-/

namespace Sys2Proof.Machine

/-- RUN_SELFTEST, dispatched and already started, so that the mode is not asked again (R335). -/
def selfTestCommand : Cmd :=
  { tag := 0, sq := 0, index := 0, entry := 0x60 :: List.replicate 23 0 ++ [1] ++ List.replicate 39 0, phase := .dispatched
    started := true, ovr := false, owner := 0, sgl := [], group := none, payload := [], poisoned := false, records := 0, discard := false }

/-- Topcoat, with `selfTestCommand` in flight and `owedGroup` owing a status to it. -/
def selfTestOwed : State :=
  { pending := []
    dev := {
      gen := { mode := .topcoat }
      lsk := { pair := .running }
      pwr := { st := .armed }
      hif := { cmds := [selfTestCommand] }
      rcl := { groups := [owedGroup] } } }

theorem selfTestOwed_dispatched : Dispatched selfTestOwed.dev 0 selfTestCommand := ⟨rfl, rfl, rfl, by decide⟩

theorem selfTestOwed_cleared : Cleared selfTestCommand selfTestOwed.dev selfTestOwed.dev :=
  ⟨⟨by decide, .inl rfl, rfl⟩, by decide, by decide⟩

theorem exec_runSelftest {s : State} {tag us : Nat} {failMap : BitVec 16} {ok : Bool} :
    exec (.runSelftest tag failMap ok us) s = effect s (runSub tag 0x60 1 (runSelf failMap ok us)) := rfl

/-- The command completes once, with the owed status. -/
theorem selfTestFailure_paysOwed :
    (runSub 0 0x60 1 (runSelf 1 true 0) selfTestOwed.dev).hif.ready.map (·.status) = [stMediumFull] := by
  decide +kernel

/-- Refutes O36: a self-test that fails is to complete with ABORTED_MODE, but in `selfTestOwed` the end of Topcoat pays the status that a group
owes to the command before Primer ends what is in flight. -/
theorem not_informingCommandsAnswer : ¬ Obligations.InformingCommandsAnswer := by
  rintro ⟨-, -, -, -, -, hfails, -⟩
  obtain ⟨t, ht, -, -, -, -, -, x, hx, -, hstatus⟩ := hfails selfTestOwed 0 0 1 true selfTestCommand selfTestOwed_dispatched rfl rfl
    selfTestOwed_cleared (by decide) (.inl (by decide))
  rw [exec_runSelftest, effect_next] at ht
  obtain rfl := Host.Outcome.next.inj ht
  have hpaid : x.status ∈ [stMediumFull] := selfTestFailure_paysOwed ▸ List.mem_map_of_mem hx
  rw [hstatus] at hpaid
  revert hpaid
  decide

end Sys2Proof.Machine
end


section
/-!
PROOFS. The supply: what its operations leave, and balancing, the health test and the measurements.
-/

namespace Sys2Proof.Machine

section
variable {s : State} {d e : Device}

/-! ### The supply's own state -/

theorem updPwr_onlyIn {f : Supply → Supply} : OnlyIn [.pwr] [] d (updPwr f d) := by
  refine ⟨fun p hp => ?_, fun _ _ => rfl⟩
  cases p with
  | pwr => simp at hp
  | _ => rfl

@[simp] theorem raise_pwr {k : Nat} : (raise k d).pwr = d.pwr := raise_onlyIn.1 .pwr (by decide)

@[simp] theorem setLevel_pwr {k : Nat} {v : Bool} : (setLevel k v d).pwr = d.pwr := setLevel_onlyIn.1 .pwr (by decide)

theorem raise_updPwr_onlyIn {k : Nat} {f : Supply → Supply} : OnlyIn (.pwr :: interruptParts) [0x4540] d (raise k (updPwr f d)) :=
  OnlyIn.refl.andThen updPwr_onlyIn (by simp) (by simp) |>.andThen raise_onlyIn (by simp) (by simp)

theorem setLevel_updPwr_onlyIn {k : Nat} {v : Bool} {f : Supply → Supply} :
    OnlyIn (.pwr :: interruptParts) [0x4540] d (setLevel k v (updPwr f d)) :=
  OnlyIn.refl.andThen updPwr_onlyIn (by simp) (by simp) |>.andThen setLevel_onlyIn (by simp) (by simp)

/-! ### Balancing (R393) -/

theorem exec_balanceCommand {v : Word32} : exec (.balanceCommand .mgmt v) s = effect s (gate .mgmt 0x10028 false (balance v)) := rfl

theorem balance_start {v : Word32} (hm : d.gen.mode ≠ .primer) (h0 : 0 < fld v 26 16) (hms : fld v 26 16 ≤ 2000) :
    balance v d = updPwr (fun p => { p with
      balanceMs := fld v 26 16, bleed := BitVec.ofNat 6 (fld v 5 0), bleedEnd := d.now + fld v 26 16 * 25000 }) d := by
  unfold balance
  rw [if_pos hms, if_neg (by exact hm), if_neg h0.ne']
  rfl

theorem balance_stop {v : Word32} (hm : d.gen.mode ≠ .primer) (h0 : fld v 26 16 = 0) :
    balance v d = updPwr (fun p => { p with balanceMs := 0, bleed := 0 }) d := by
  unfold balance
  have hms : fld v 26 16 ≤ 2000 := by omega
  rw [if_pos hms, if_neg (by exact hm), if_pos h0, h0]
  rfl

/-- A reserved DURATION keeps its previous value (R10). -/
theorem balance_reserved {v : Word32} (hm : d.gen.mode ≠ .primer) (hv : 2000 < fld v 26 16) (h0 : 0 < d.pwr.balanceMs) :
    balance v d = updPwr (fun p => { p with bleed := BitVec.ofNat 6 (fld v 5 0), bleedEnd := d.now + d.pwr.balanceMs * 25000 }) d := by
  unfold balance
  rw [if_neg hv.not_ge, if_neg (by exact hm), if_neg h0.ne']
  rfl

theorem balanceExpiry_due (hb : s.dev.pwr.bleed ≠ 0) (he : s.dev.pwr.bleedEnd ≤ s.dev.now) :
    Completes .balanceExpiry s fun d =>
      d.pwr = { s.dev.pwr with bleed := 0 } ∧ Raised 154 d ∧ OnlyIn (.pwr :: interruptParts) [0x4540] s.dev d := by
  refine completes_to (e := raise 154 (updPwr (fun p => { p with bleed := 0 }) s.dev)) rfl ?_
    ⟨raise_pwr, raised_raise 154 _, raise_updPwr_onlyIn⟩
  rw [decide_eq_true he, bne_iff_ne.mpr hb, Bool.true_and, onlyIf_true]

theorem balanceExpiry_early (h : s.dev.now < s.dev.pwr.bleedEnd) : Completes .balanceExpiry s fun d => d = s.dev := by
  refine completes_to rfl ?_ rfl
  rw [decide_eq_false h.not_ge, Bool.and_false, onlyIf_false]

/-! ### The health test (R394, R395) -/

theorem dischargeTestRequest_marks (hup : pairRuns s.dev = true) (ht : s.dev.pwr.testRunning = false) :
    Completes (.dischargeTestRequest .mgmt) s fun d => d.pwr = { s.dev.pwr with testDue := true } ∧ OnlyIn [.pwr] [] s.dev d := by
  refine mgmtWrite_to hup rfl rfl ⟨?_, updPwr_onlyIn⟩
  simp [ht]

theorem dischargeTestDue_marks (hm : s.dev.gen.mode ≠ .primer) (ht : s.dev.pwr.testRunning = false) (h0 : 0 < s.dev.regF 0x10030 7 0)
    (hover : s.dev.pwr.testTick + s.dev.regF 0x10030 7 0 * 86400 * 25000000 ≤ s.dev.now) :
    Completes .dischargeTestDue s fun d => d.pwr = { s.dev.pwr with testDue := true } ∧ OnlyIn [.pwr] [] s.dev d := by
  have hdue : testIntervalOver s.dev = true := by
    simp only [testIntervalOver, Bool.and_eq_true, decide_eq_true_eq]
    exact ⟨h0, hover⟩
  refine completes_to (e := updPwr (fun p => { p with testDue := p.testDue || !p.testRunning }) s.dev) rfl ?_ ⟨?_, updPwr_onlyIn⟩
  · rw [hdue, bne_iff_ne.mpr hm, Bool.true_and, onlyIf_true]
  · simp [ht]

theorem dischargeTestStart_starts (hd : s.dev.pwr.testDue = true) (hm : s.dev.gen.mode ≠ .primer) (ht : s.dev.pwr.testRunning = false)
    (hst : s.dev.pwr.st = .armed) (hc : s.dev.pwr.charger = .float) (hw : warning s.dev = false) (hb : s.dev.pwr.bleed = 0) :
    Completes .dischargeTestStart s fun d =>
      d.pwr = { s.dev.pwr with testRunning := true, charger := .off, pause := false } ∧ OnlyIn [.pwr] [] s.dev d := by
  refine completes_to (e := chargerOff (updPwr (fun p => { p with testRunning := true }) s.dev)) rfl ?_
    ⟨rfl, updPwr_onlyIn.trans updPwr_onlyIn⟩
  simp [hd, bne_iff_ne.mpr hm, ht, hst, hc, hw, hb]

/-- The charger's start changes its phase alone. -/
theorem chargerOn_eq : ∃ c, chargerOn d = updPwr (fun p => { p with charger := c }) d := by
  unfold chargerOn
  split
  · exact ⟨.current, rfl⟩
  · exact ⟨d.pwr.charger, rfl⟩

/-- What a first test measures, from capacitance `c` in mF and the ESR, with a usable energy `u` that is not negative. -/
def measured (now : Nat) (c u : Int) (esr : Nat) (p : Supply) : Supply :=
  { p with cap := c.toNat, esr := esr, usable := u.toNat, testTick := now, tested := true, testDue := false, testRunning := false
           eol := u < 25000 }

/-- The end of a first test whose predicted energy is not negative. -/
theorem testDone_first {fall ticks : Nat} (ht : d.pwr.tested = false) {c u : Int} (hc : roundDiv (ticks : Int) 20000 = c)
    (hu : usableEnergy c (1000 * fall) = u) (h0 : 0 ≤ u) :
    testDone fall ticks d =
      if u < 25000 then raise 156 (raise 155 (chargerOn (updPwr (measured d.now c u (1000 * fall)) d)))
      else raise 155 (chargerOn (updPwr (measured d.now c u (1000 * fall)) d)) := by
  unfold testDone
  simp only [ht, hc, hu, if_neg h0.not_gt, Bool.false_eq_true, if_false]
  rfl

theorem testDone_measures {fall ticks : Nat} (hrun : s.dev.pwr.testRunning = true) (ht : s.dev.pwr.tested = false)
    (h0 : 0 ≤ usableEnergy (roundDiv (ticks : Int) 20000) (1000 * fall)) :
    Completes (.dischargeTestDone fall ticks) s fun d =>
      d.pwr.cap = (roundDiv (ticks : Int) 20000).toNat ∧ d.pwr.esr = 1000 * fall ∧
      (d.pwr.usable : Int) = usableEnergy (roundDiv (ticks : Int) 20000) (1000 * fall) ∧ d.pwr.testTick = s.dev.now ∧
      d.pwr.tested = true ∧ d.pwr.testDue = false ∧ d.pwr.testRunning = false ∧
      (d.pwr.eol = true ↔ usableEnergy (roundDiv (ticks : Int) 20000) (1000 * fall) < 25000) ∧ Raised 155 d ∧
      (d.pwr.eol = true → Raised 156 d) ∧ OnlyIn (.pwr :: interruptParts) [0x4540] s.dev d := by
  generalize hc : roundDiv (ticks : Int) 20000 = c at h0 ⊢
  generalize hu : usableEnergy c (1000 * fall) = u at h0 ⊢
  refine completes_effect _ rfl ?_
  rw [hrun, onlyIf_true, testDone_first ht hc hu h0]
  obtain ⟨ch, hon⟩ := chargerOn_eq (d := updPwr (measured s.dev.now c u (1000 * fall)) s.dev)
  rw [hon]
  have hpwr : (updPwr (fun p => { p with charger := ch }) (updPwr (measured s.dev.now c u (1000 * fall)) s.dev)).pwr =
      { measured s.dev.now c u (1000 * fall) s.dev.pwr with charger := ch } := rfl
  have honly : OnlyIn (.pwr :: interruptParts) [0x4540] s.dev
      (updPwr (fun p => { p with charger := ch }) (updPwr (measured s.dev.now c u (1000 * fall)) s.dev)) :=
    OnlyIn.refl.andThen updPwr_onlyIn (by simp) (by simp) |>.andThen updPwr_onlyIn (by simp) (by simp)
  generalize updPwr (fun p => { p with charger := ch }) (updPwr (measured s.dev.now c u (1000 * fall)) s.dev) = e at hpwr honly ⊢
  have husable : ((u.toNat : Nat) : Int) = u := Int.toNat_of_nonneg h0
  have h155 := honly.andThen (raise_onlyIn (k := 155)) (by simp) (by simp)
  split
  case isTrue hlow =>
    have h156 := h155.andThen (raise_onlyIn (k := 156)) (by simp) (by simp)
    simpa [hpwr, measured, hlow, husable, raised_raise] using ⟨(raised_raise 155 e).raise 156, h156⟩
  case isFalse hhigh => simpa [hpwr, measured, hhigh, husable, raised_raise] using h155

theorem testDone_untimely {fall ticks : Nat} (hrun : s.dev.pwr.testRunning = false) :
    Completes (.dischargeTestDone fall ticks) s fun d => d = s.dev := by
  refine completes_to rfl ?_ rfl
  rw [hrun, onlyIf_false]

/-! ### Measurements (R371, R503) -/

/-- A measurement changes the supply's state and sets the level of its source. -/
theorem setLevel_updPwr_spec {k : Nat} {v : Bool} {f : Supply → Supply} (h : d.icu.retention = false) :
    (setLevel k v (updPwr f d)).pwr = f d.pwr ∧ ((setLevel k v (updPwr f d)).src k).level = v ∧
    OnlyIn (.pwr :: interruptParts) [0x4540] d (setLevel k v (updPwr f d)) :=
  ⟨setLevel_pwr, setLevel_level k v _ h, setLevel_updPwr_onlyIn⟩

/-- What a sample of VIN does, when it is due (R371). -/
def sampleVin (vin field : Nat) (d : Device) : Device :=
  setLevel 157 (decide (vin < 19200) || decide (30000 < vin))
    (updPwr (fun p => { p with vin := min 0xFFFF vin, field := min 0xFFFF field, adcAt := d.now }) d)

theorem execVinAdcSample_eq {vin field : Nat} :
    execVinAdcSample vin field s = effect s fun d => onlyIf (decide (d.pwr.adcAt + ticksPerMs ≤ d.now)) (sampleVin vin field) d := by
  unfold execVinAdcSample
  rfl

theorem exec_vinAdcSample {vin field : Nat} : exec (.vinAdcSample vin field) s = execVinAdcSample vin field s := rfl

/-- What a sample of the temperatures does (R503). -/
def sampleTemperatures (core afe : Int) (d : Device) : Device :=
  setLevel 26 (decide (110 < core) || decide (110 < afe)) (updPwr (fun p => { p with tempCore := core, tempAfe := afe }) d)

theorem exec_junctionTemperatureLimit {core afe : Int} :
    exec (.junctionTemperatureLimit core afe) s = execJunctionTemperatureLimit core afe s := rfl

theorem execJunctionTemperatureLimit_eq {core afe : Int} :
    execJunctionTemperatureLimit core afe s = effect s (sampleTemperatures core afe) := by
  unfold execJunctionTemperatureLimit
  rfl

theorem vinAdcSample_takes {vin field : Nat} (hat : s.dev.pwr.adcAt + 25000 ≤ s.dev.now) (hv : vin < 65536) (hf : field < 65536)
    (hr : s.dev.icu.retention = false) :
    Completes (.vinAdcSample vin field) s fun d =>
      d.pwr = { s.dev.pwr with vin := vin, field := field, adcAt := s.dev.now } ∧
      ((d.src 157).level = true ↔ vin < 19200 ∨ 30000 < vin) ∧ OnlyIn (.pwr :: interruptParts) [0x4540] s.dev d := by
  have hdue : s.dev.pwr.adcAt + ticksPerMs ≤ s.dev.now := by simpa [ticksPerMs] using hat
  refine completes_effect _ (exec_vinAdcSample.trans execVinAdcSample_eq) ?_
  rw [decide_eq_true hdue, onlyIf_true]
  obtain ⟨hp, hl, ho⟩ := setLevel_updPwr_spec (k := 157) (v := decide (vin < 19200) || decide (30000 < vin))
    (f := fun p => { p with vin := min 0xFFFF vin, field := min 0xFFFF field, adcAt := s.dev.now }) hr
  refine ⟨?_, by rw [sampleVin, hl]; simp, ho⟩
  rw [sampleVin, hp, Nat.min_eq_right (by omega), Nat.min_eq_right (by omega)]

theorem junctionTemperatureLimit_takes {core afe : Int} (hr : s.dev.icu.retention = false) :
    Completes (.junctionTemperatureLimit core afe) s fun d =>
      d.pwr = { s.dev.pwr with tempCore := core, tempAfe := afe } ∧ ((d.src 26).level = true ↔ 110 < core ∨ 110 < afe) ∧
      OnlyIn (.pwr :: interruptParts) [0x4540] s.dev d := by
  refine completes_effect _ (exec_junctionTemperatureLimit.trans execJunctionTemperatureLimit_eq) ?_
  obtain ⟨hp, hl, ho⟩ := setLevel_updPwr_spec (k := 26) (v := decide (110 < core) || decide (110 < afe))
    (f := fun p => { p with tempCore := core, tempAfe := afe }) hr
  exact ⟨hp, by rw [sampleTemperatures, hl]; simp, ho⟩

end

/-- Settles O44: each clause from the equation of its operation on the supply's own state. -/
theorem balancingTestsAndMeasurements : Obligations.BalancingTestsAndMeasurements :=
  ⟨fun _ _ hup hm h0 hms => mgmtWrite_to hup exec_balanceCommand (balance_start hm h0 hms) ⟨rfl, updPwr_onlyIn⟩,
    fun _ _ hup hm h0 => mgmtWrite_to hup exec_balanceCommand (balance_stop hm h0) ⟨rfl, updPwr_onlyIn⟩,
    fun _ _ hup hm hv h0 => mgmtWrite_to hup exec_balanceCommand (balance_reserved hm hv h0) ⟨rfl, updPwr_onlyIn⟩,
    fun _ => balanceExpiry_due, fun _ => balanceExpiry_early, fun _ => dischargeTestRequest_marks, fun _ => dischargeTestDue_marks,
    fun _ => dischargeTestStart_starts, fun _ _ _ => testDone_measures, fun _ _ _ => testDone_untimely, fun _ _ _ => vinAdcSample_takes,
    fun _ _ _ => junctionTemperatureLimit_takes⟩

end Sys2Proof.Machine
end


section
/-!
PROOFS. What the steps of the other units leave of the supply: the parts of the device that a seal, a re-arm and Primer set, and that nothing
they call sets again.

The lemmas `Steady.f` say that the operation `f` leaves these parts, so that a chain `h.f.g` follows the operations `g (f d)`.
-/

namespace Sys2Proof.Machine

set_option Elab.async false

/-- Source `n` is detected for good, whether or not the controller leaves retention: it is pending outside retention, or latched with no
change of its level after it (R349, R364). -/
def Detected (n : Nat) (d : Device) : Prop :=
  (d.icu.retention = false ∧ (d.src n).pending = true) ∨
    ∃ before after, d.icu.latched = before ++ (n, none) :: after ∧ ∀ v, (n, some v) ∉ after

/-- From `d` to `e` the supply and the management pair stand as they were, the polling is as stopped as it was, no command has become one
that a seal drops, no sector has begun to be written, and no detection is taken back. -/
structure Steady (d e : Device) : Prop where
  pwr : e.pwr = d.pwr
  lsk : e.lsk = d.lsk
  pollSeal : e.hif.pollSeal = d.hif.pollSeal
  polling : e.hif.polling = d.hif.polling
  kept : (∀ x ∈ d.hif.cmds, sealDrops x = false) → ∀ x ∈ e.hif.cmds, sealDrops x = false
  writing : d.wrc.writing = none → e.wrc.writing = none
  detected : ∀ n, Detected n d → Detected n e

section
variable {d₀ d e : Device}

/-! ### Detections -/

theorem Detected.raised {n : Nat} (h : Detected n d) : Raised n d := by
  rcases h with ⟨-, h⟩ | ⟨_, _, h, -⟩
  · exact .inl h
  · exact .inr (by simp [h])

/-- `Detected` looks at the interrupt controller alone. -/
theorem Detected.of_icu {n : Nat} (h : Detected n d) (i : e.icu = d.icu) : Detected n e := by
  unfold Detected Device.src at *
  rwa [i]

theorem detected_raise {n : Nat} : Detected n (raise n d) := by
  rcases raise_spec n d with ⟨_, e⟩ | ⟨ht, ⟨i, b, r, e⟩, hp, -, hi, -⟩
  · exact .inr ⟨d.icu.latched, [], by rw [e], by simp⟩
  · exact .inl ⟨by rw [hi]; exact ht, by rw [hp n]; simp [srcDetect]⟩

protected theorem Detected.raise {n k : Nat} (h : Detected n d) : Detected n (raise k d) := by
  rcases raise_spec k d with ⟨ht, e⟩ | ⟨ht, -, hp, -, hi, -⟩
  · rcases h with ⟨hf, -⟩ | ⟨before, after, hl, hn⟩
    · rw [ht] at hf
      cases hf
    · exact .inr ⟨before, after ++ [(k, none)], by rw [e]; simp [hl], by simpa using hn⟩
  · rcases h with ⟨-, h⟩ | ⟨before, after, hl, hn⟩
    · refine .inl ⟨by rw [hi]; exact ht, ?_⟩
      rw [hp n, updSrc_src]
      split
      · rfl
      · exact h
    · exact .inr ⟨before, after, by rw [hi]; exact hl, hn⟩

theorem unlatch_detects {n : Nat} : ((unlatch (n, none) d).src n).pending = true := by
  simp [unlatch, srcDetect]

theorem unlatch_pending {n : Nat} {p : Nat × Option Bool} (h : (d.src n).pending = true) (hp : ∀ v, p ≠ (n, some v)) :
    ((unlatch p d).src n).pending = true := by
  obtain ⟨k, v⟩ := p
  unfold unlatch
  cases v with
  | none =>
    dsimp only
    rw [updSrc_src]
    split
    · rfl
    · exact h
  | some v =>
    dsimp only
    rw [updSrc_src, if_neg fun (hk : n = k) => hp v (by rw [hk])]
    exact h

theorem foldl_unlatch_pending {n : Nat} {l : List (Nat × Option Bool)} (h : (d.src n).pending = true) (hl : ∀ v, (n, some v) ∉ l) :
    ((l.foldl (fun d p => unlatch p d) d).src n).pending = true := by
  induction l generalizing d with
  | nil => exact h
  | cons p l ih =>
    refine ih (unlatch_pending h fun v hp => hl v ?_) fun v hv => hl v (List.mem_cons_of_mem _ hv)
    rw [hp]
    exact List.mem_cons_self

theorem foldl_unlatch_retention {l : List (Nat × Option Bool)} :
    (l.foldl (fun d p => unlatch p d) d).icu.retention = d.icu.retention := by
  induction l generalizing d with
  | nil => rfl
  | cons p l ih =>
    obtain ⟨k, _ | v⟩ := p
    · exact ih
    · exact ih

/-- What is latched at the end of retention is evaluated in order, so a detection with no change of its level after it is pending (R364). -/
protected theorem Detected.leaveRetention {n : Nat} (h : Detected n d) : Detected n (leaveRetention d) := by
  cases ht : d.icu.retention with
  | false => rwa [leaveRetention_awake ht]
  | true =>
    rcases h with ⟨hf, -⟩ | ⟨before, after, hl, hn⟩
    · rw [ht] at hf
      cases hf
    · unfold leaveRetention
      simp only [ht, if_true, hl, List.foldl_append, List.foldl_cons]
      generalize hm : before.foldl _ _ = m
      have hret : m.icu.retention = false := by rw [← hm, foldl_unlatch_retention]
      obtain ⟨-, hp, -, hi, -⟩ := deliver_delivering (after.foldl (fun d p => unlatch p d) (unlatch (n, none) m))
      refine .inl ⟨?_, ?_⟩
      · rw [hi, foldl_unlatch_retention]
        exact hret
      · rw [hp n]
        exact foldl_unlatch_pending unlatch_detects hn

/-! ### Ways to go on -/

protected theorem Steady.refl : Steady d d := ⟨rfl, rfl, rfl, rfl, id, id, fun _ => id⟩

protected theorem Steady.trans (h : Steady d₀ d) (g : Steady d e) : Steady d₀ e where
  pwr := g.pwr.trans h.pwr
  lsk := g.lsk.trans h.lsk
  pollSeal := g.pollSeal.trans h.pollSeal
  polling := g.polling.trans h.polling
  kept := g.kept ∘ h.kept
  writing := g.writing ∘ h.writing
  detected n := g.detected n ∘ h.detected n

/-- A change of other fields than the relation speaks of. -/
protected theorem Steady.edit (h : Steady d₀ d) (pwr : e.pwr = d.pwr := by rfl) (lsk : e.lsk = d.lsk := by rfl)
    (hif : e.hif = d.hif := by rfl) (wrc : e.wrc.writing = d.wrc.writing := by rfl) (icu : e.icu = d.icu := by rfl) : Steady d₀ e :=
  h.trans ⟨pwr, lsk, by rw [hif], by rw [hif], by rw [hif]; exact id, by rw [wrc]; exact id, fun _ w => w.of_icu icu⟩

protected theorem Steady.andThen (h : Steady d₀ d) (g : Steady d₀ d → Steady d₀ e) : Steady d₀ e := g h

protected theorem Steady.ite {c : Prop} [Decidable c] (h : Steady d₀ d) (g : Steady d₀ e) : Steady d₀ (if c then d else e) := by
  split
  · exact h
  · exact g

protected theorem Steady.when {c : Prop} [Decidable c] (h : Steady d₀ d) (g : Steady d₀ d → Steady d₀ e) :
    Steady d₀ (if c then e else d) := (g h).ite h

protected theorem Steady.unless {c : Prop} [Decidable c] (h : Steady d₀ d) (g : Steady d₀ d → Steady d₀ e) :
    Steady d₀ (if c then d else e) := h.ite (g h)

protected theorem Steady.foldl {α : Type} {f : Device → α → Device} {l : List α} (h : Steady d₀ d)
    (hf : ∀ {d a}, Steady d₀ d → Steady d₀ (f d a)) : Steady d₀ (l.foldl f d) := by
  induction l generalizing d with
  | nil => exact h
  | cons a l ih => exact ih (hf h)

protected theorem Steady.foldlPair {α β : Type} {f : β × Device → α → β × Device} {b : β} {l : List α} (h : Steady d₀ d)
    (hf : ∀ {p a}, Steady d₀ p.2 → Steady d₀ (f p a).2) : Steady d₀ (l.foldl f (b, d)).2 := by
  suffices g : ∀ p : β × Device, Steady d₀ p.2 → Steady d₀ (l.foldl f p).2 from g (b, d) h
  induction l with
  | nil => exact fun _ h => h
  | cons a l ih => exact fun p h => ih _ (hf h)

/-- What an operation answers beside a value stands as after the operation. -/
protected theorem Steady.ofPair {β : Type} {p : β × Device} {b : β} (h : Steady d₀ p.2) (e : p = (b, d)) : Steady d₀ d := by
  rwa [e] at h

/-! ### One block changes -/

protected theorem Steady.pacing {x : Pacing} (h : Steady d₀ d) : Steady d₀ { d with pacing := x } := h.edit
protected theorem Steady.avs {x : Avs} (h : Steady d₀ d) : Steady d₀ { d with avs := x } := h.edit
protected theorem Steady.exc {x : Excursions} (h : Steady d₀ d) : Steady d₀ { d with exc := x } := h.edit
protected theorem Steady.servo {x : Servo} (h : Steady d₀ d) : Steady d₀ { d with servo := x } := h.edit
protected theorem Steady.motion {x : Motion} (h : Steady d₀ d) : Steady d₀ { d with motion := x } := h.edit
protected theorem Steady.rdc {x : ReadChannel} (h : Steady d₀ d) : Steady d₀ { d with rdc := x } := h.edit
protected theorem Steady.fewerReads {x : ReadChannel} (h : Steady d₀ d) : Steady d₀ { d with rdc := x } := h.edit
protected theorem Steady.rcl {x : RecordLayer} (h : Steady d₀ d) : Steady d₀ { d with rcl := x } := h.edit
protected theorem Steady.cry {x : Crypto} (h : Steady d₀ d) : Steady d₀ { d with cry := x } := h.edit
protected theorem Steady.cch {x : Machine.Cache} (h : Steady d₀ d) : Steady d₀ { d with cch := x } := h.edit
protected theorem Steady.lath {x : Lath} (h : Steady d₀ d) : Steady d₀ { d with lath := x } := h.edit
protected theorem Steady.fio {x : Field} (h : Steady d₀ d) : Steady d₀ { d with fio := x } := h.edit
protected theorem Steady.fls {x : Flash} (h : Steady d₀ d) : Steady d₀ { d with fls := x } := h.edit
protected theorem Steady.evt {x : EventLog} (h : Steady d₀ d) : Steady d₀ { d with evt := x } := h.edit
protected theorem Steady.nv {x : Nonvolatile} (h : Steady d₀ d) : Steady d₀ { d with nv := x } := h.edit
protected theorem Steady.gen {x : Startup} (h : Steady d₀ d) : Steady d₀ { d with gen := x } := h.edit
protected theorem Steady.bus {x : Bus} (h : Steady d₀ d) : Steady d₀ { d with bus := x } := h.edit
protected theorem Steady.draws {x : Nat} (h : Steady d₀ d) : Steady d₀ { d with draws := x } := h.edit

protected theorem Steady.wrc {x : WriteChannel} (h : Steady d₀ d) (hx : x.writing = d.wrc.writing := by rfl) :
    Steady d₀ { d with wrc := x } := h.edit (wrc := hx)

protected theorem Steady.hif {x : HostIf} (h : Steady d₀ d) (hp : x.pollSeal = d.hif.pollSeal := by rfl)
    (ho : x.polling = d.hif.polling := by rfl)
    (hk : (∀ c ∈ d.hif.cmds, sealDrops c = false) → ∀ c ∈ x.cmds, sealDrops c = false := by exact id) :
    Steady d₀ { d with hif := x } :=
  h.trans ⟨rfl, rfl, hp, ho, hk, id, fun _ w => w.of_icu rfl⟩

theorem forall_mem_updateFirst {α : Type} {p : α → Bool} {f : α → α} {P : α → Prop} {l : List α} (hf : ∀ a, P a → P (f a))
    (hl : ∀ a ∈ l, P a) : ∀ a ∈ updateFirst p f l, P a := by
  induction l with
  | nil => exact hl
  | cons b l ih =>
    obtain ⟨hb, hl⟩ := List.forall_mem_cons.mp hl
    unfold updateFirst
    split
    · exact List.forall_mem_cons.mpr ⟨hf b hb, hl⟩
    · exact List.forall_mem_cons.mpr ⟨hb, ih hl⟩

/-! ### Registers and sources -/

protected theorem Steady.setReg {o : Nat} {v : Word32} (h : Steady d₀ d) : Steady d₀ (setReg o v d) := h.edit

protected theorem Steady.setRegF {o hi lo v : Nat} (h : Steady d₀ d) : Steady d₀ (setRegF o hi lo v d) := h.setReg

protected theorem Steady.countN {o n : Nat} (h : Steady d₀ d) : Steady d₀ (countN o n d) := h.setReg

protected theorem Steady.count {o : Nat} (h : Steady d₀ d) : Steady d₀ (count o d) := h.countN

protected theorem Steady.countF {o hi lo : Nat} (h : Steady d₀ d) : Steady d₀ (countF o hi lo d) := h.setRegF

protected theorem Steady.latchReg {o : Nat} {bits : Word32} (h : Steady d₀ d) : Steady d₀ (latchReg o bits d) := h.setReg

/-- A change of the interrupt controller, the bus and the register words that takes no detection back. -/
theorem Steady.interrupts {i : Icu} {b : Bus} {r : Sparse Word32} (h : Steady d₀ d) (he : e = { d with icu := i, bus := b, regs := r })
    (hd : ∀ n, Detected n d → Detected n e) : Steady d₀ e := by
  refine h.trans ⟨?_, ?_, ?_, ?_, ?_, ?_, hd⟩ <;> rw [he]
  · exact id
  · exact id

protected theorem Steady.raise {k : Nat} (h : Steady d₀ d) : Steady d₀ (raise k d) := by
  obtain ⟨i, b, r, he⟩ := raise_frame (k := k) (d := d)
  exact h.interrupts he fun _ w => w.raise

protected theorem Steady.leaveRetention (h : Steady d₀ d) : Steady d₀ (leaveRetention d) := by
  obtain ⟨i, b, r, he⟩ := leaveRetention_frame (d := d)
  exact h.interrupts he fun _ w => w.leaveRetention

/-! ### The operations, in the order of the model -/

protected theorem Steady.onlyIf {b : Bool} {f : Device → Device} (h : Steady d₀ d) (hf : ∀ {d}, Steady d₀ d → Steady d₀ (f d)) :
    Steady d₀ (onlyIf b f d) := by
  unfold onlyIf
  exact (hf h).ite h

protected theorem Steady.logExcursion_addEntry {l i : Nat} {v : Word32} (h : Steady d₀ d) :
    Steady d₀ (logExcursion.addEntry l i v d) := by
  unfold logExcursion.addEntry
  exact h.exc

protected theorem Steady.logExcursion {l i : Nat} {v : Word32} (h : Steady d₀ d) : Steady d₀ (logExcursion l i v d) := by
  unfold logExcursion
  split
  · exact h.exc.ite h.logExcursion_addEntry
  · exact h.logExcursion_addEntry

protected theorem Steady.markOverride (h : Steady d₀ d) : Steady d₀ (markOverride d) := by
  refine h.trans ⟨rfl, rfl, rfl, rfl, fun hk x hx => ?_, id, fun _ w => w.of_icu rfl⟩
  obtain ⟨c, hc, rfl⟩ := List.mem_map.mp hx
  exact hk c hc

protected theorem Steady.excBegin {l i : Nat} {v : Word32} (h : Steady d₀ d) : Steady d₀ (excBegin l i v d) := by
  unfold excBegin
  exact h.ite h.exc.logExcursion.exc.markOverride.raise

protected theorem Steady.excReach {l i : Nat} {v : Word32} (h : Steady d₀ d) : Steady d₀ (excReach l i v d) := by
  unfold excReach
  exact h.exc

protected theorem Steady.logLater {tick origin source code : Nat} {detail : List Byte} (h : Steady d₀ d) :
    Steady d₀ (logLater tick origin source code detail d) := by
  unfold logLater
  exact h.ite h.evt

protected theorem Steady.copyClosed {l i : Nat} (h : Steady d₀ d) : Steady d₀ (copyClosed l i d) := by
  unfold copyClosed
  split
  · exact h.ite h.logLater
  · exact h

protected theorem Steady.excEnd {l i : Nat} (h : Steady d₀ d) : Steady d₀ (excEnd l i d) := by
  unfold excEnd
  exact h.exc.copyClosed.ite h

protected theorem Steady.excTake {l i : Nat} {v : Word32} (h : Steady d₀ d) : Steady d₀ (excTake l i v d) := by
  unfold excTake
  exact h.excBegin.excReach

/-- A change of one command that leaves it kept by a seal, if it was. -/
protected theorem Steady.updCmd {tag : Nat} {f : Cmd → Cmd} (h : Steady d₀ d)
    (hf : ∀ c, sealDrops c = false → sealDrops (f c) = false := by exact fun _ => id) : Steady d₀ (updCmd tag f d) :=
  h.hif (hk := fun hk => forall_mem_updateFirst hf hk)

protected theorem Steady.startCmd {tag : Nat} (h : Steady d₀ d) : Steady d₀ (startCmd tag d) :=
  h.updCmd fun _ _ => rfl

/-- A command that has completed is not dropped. -/
theorem Steady.setDone {tag : Nat} (h : Steady d₀ d) : Steady d₀ (setPhase tag .done d) :=
  h.updCmd fun c _ => by simp [sealDrops, isWaiting]

protected theorem Steady.readOver (h : Steady d₀ d) : Steady d₀ (readOver d) := by
  unfold readOver
  exact (h.ite h.excEnd).when fun h => h.fewerReads.excEnd

protected theorem Steady.dropReads {p : ReadFor → Bool} (h : Steady d₀ d) : Steady d₀ (dropReads p d) := by
  unfold dropReads
  exact h.rdc.readOver.ite h

protected theorem Steady.finishWith {tag st result : Nat} {single : Bool} {mark : Nat} (h : Steady d₀ d) :
    Steady d₀ (finishWith tag st result single mark d) := by
  unfold finishWith
  split
  · exact h
  · refine h.ite (.ite ?_ h.dropReads.setDone.hif)
    exact (h.dropReads.hif (hk := fun hk c hc => hk c (List.mem_of_mem_filter hc))).count.raise

protected theorem Steady.finish {tag st : Nat} (h : Steady d₀ d) : Steady d₀ (finish tag st d) :=
  h.finishWith

protected theorem Steady.finishOk {tag result : Nat} (h : Steady d₀ d) : Steady d₀ (finishOk tag result d) :=
  h.finishWith

protected theorem Steady.deliverData {tag off : Nat} {data : List Byte} (h : Steady d₀ d) :
    Steady d₀ (deliverData tag off data d) := by
  unfold deliverData
  split
  · exact h
  · exact h.ite h.bus.startCmd

protected theorem Steady.finishAll {p : Cmd → Bool} {st : Nat} (h : Steady d₀ d) : Steady d₀ (finishAll p st d) := by
  unfold finishAll
  exact h.foldl .finish

protected theorem Steady.laserLevel {level : Nat} (h : Steady d₀ d) : Steady d₀ (laserLevel level d) := by
  unfold laserLevel
  exact h.wrc.ite h.wrc

protected theorem Steady.laserOff (h : Steady d₀ d) : Steady d₀ (laserOff d) := by
  unfold laserOff
  exact h.wrc

protected theorem Steady.laserToRead (h : Steady d₀ d) : Steady d₀ (laserToRead d) := by
  unfold laserToRead
  exact h.laserLevel.ite h

protected theorem Steady.updLoop {n : Nat} {f : Machine.Loop → Machine.Loop} (h : Steady d₀ d) : Steady d₀ (updLoop n f d) := by
  unfold updLoop
  exact h.servo

protected theorem Steady.endWriting (h : Steady d₀ d) : Steady d₀ (endWriting d) := by
  have unwritten (x : WriteChannel) (hx : x.writing = none) : Steady d₀ { d with wrc := x } :=
    h.trans ⟨rfl, rfl, rfl, rfl, id, fun _ => hx, fun _ w => w.of_icu rfl⟩
  unfold endWriting
  split
  · exact h
  · dsimp only
    split
    · exact unwritten _ rfl
    · exact unwritten _ rfl

protected theorem Steady.cutSector (h : Steady d₀ d) : Steady d₀ (cutSector d) := by
  unfold cutSector
  split
  · exact h
  · exact h.endWriting.wrc.count.raise

protected theorem Steady.voidPending (h : Steady d₀ d) : Steady d₀ (voidPending d) := by
  unfold voidPending
  exact h.wrc

protected theorem Steady.refreshInhibit (h : Steady d₀ d) : Steady d₀ (refreshInhibit d) := by
  unfold refreshInhibit
  exact h.ite (h.latchReg.wrc.unless (fun h => h.wrc.voidPending.cutSector.laserToRead))

protected theorem Steady.drawn (h : Steady d₀ d) : Steady d₀ (drawn d) := by
  unfold drawn
  exact h.draws

protected theorem Steady.updEngine {n : Nat} {f : ServoJob → ServoJob} (h : Steady d₀ d) : Steady d₀ (updEngine n f d) := by
  unfold updEngine
  exact h.servo

protected theorem Steady.voidJob {n : Nat} (h : Steady d₀ d) : Steady d₀ (voidJob n d) := by
  unfold voidJob
  exact h.updEngine

protected theorem Steady.afterLeave {n : Nat} (h : Steady d₀ d) : Steady d₀ (afterLeave n d) := by
  unfold afterLeave
  exact h.servo.ite h

protected theorem Steady.openLoop {n : Nat} (h : Steady d₀ d) : Steady d₀ (openLoop n d) :=
  h.updLoop.voidJob.afterLeave.refreshInhibit

protected theorem Steady.putLoopCmd {n : Nat} {c : LoopCmd} (h : Steady d₀ d) : Steady d₀ (putLoopCmd n c d) := by
  unfold putLoopCmd
  exact h.updLoop

protected theorem Steady.scriptTo {k : ScriptKind} {p : ScriptStep} (h : Steady d₀ d) : Steady d₀ (scriptTo k p d) := by
  unfold scriptTo
  exact h.servo

protected theorem Steady.laserBegin (h : Steady d₀ d) : Steady d₀ (laserBegin d) :=
  h.scriptTo.laserLevel

protected theorem Steady.startAcquisition {l : Nat} (h : Steady d₀ d) : Steady d₀ (startAcquisition l d) := by
  unfold startAcquisition
  exact h.edit.laserBegin.ite ((h.edit.unless (fun h => h.putLoopCmd)).scriptTo)

protected theorem Steady.flipGear {l : Nat} (h : Steady d₀ d) : Steady d₀ (flipGear l d) := by
  unfold flipGear
  exact h.ite h.motion.setReg.setReg

protected theorem Steady.startJump {l : Nat} (h : Steady d₀ d) : Steady d₀ (startJump l d) :=
  h.edit.scriptTo.putLoopCmd.flipGear

protected theorem Steady.updMotion {f : Motion → Motion} (h : Steady d₀ d) : Steady d₀ (updMotion f d) := by
  unfold updMotion
  exact h.motion

protected theorem Steady.rejectMotion (h : Steady d₀ d) : Steady d₀ (rejectMotion d) :=
  h.countF.raise

protected theorem Steady.withPlan {p : Plan} (h : Steady d₀ d) : Steady d₀ (withPlan p d) := by
  unfold withPlan
  exact h.updMotion

protected theorem Steady.innerRamp (h : Steady d₀ d) : Steady d₀ (innerRamp d) :=
  h.withPlan.updMotion.countF.raise

protected theorem Steady.startHome {after : AfterHome} (h : Steady d₀ d) : Steady d₀ (startHome after d) :=
  h.withPlan.updMotion.refreshInhibit

protected theorem Steady.startMove {goal : Int} {park : Bool} (h : Steady d₀ d) : Steady d₀ (startMove goal park d) :=
  h.withPlan.updMotion.refreshInhibit

protected theorem Steady.startUnhomedPark (h : Steady d₀ d) : Steady d₀ (startUnhomedPark d) := by
  unfold startUnhomedPark
  exact (h.ite h.withPlan).updMotion |>.refreshInhibit |>.when .innerRamp

protected theorem Steady.doPark (h : Steady d₀ d) : Steady d₀ (doPark d) := by
  unfold doPark
  split
  · exact h.rejectMotion
  · exact h.updMotion
  · exact h.ite h.startUnhomedPark
  · exact h.startMove.ite h.startUnhomedPark
  · exact h.startHome.ite h.startMove
  · exact h.startMove
  · exact h.startMove

protected theorem Steady.parkDrive (h : Steady d₀ d) : Steady d₀ (parkDrive d) := by
  unfold parkDrive
  exact h.ite h.updMotion.doPark

protected theorem Steady.brakeDrive (h : Steady d₀ d) : Steady d₀ (brakeDrive d) := by
  unfold brakeDrive
  exact h.openLoop.openLoop.openLoop.openLoop.servo

protected theorem Steady.parkStep (h : Steady d₀ d) : Steady d₀ (parkStep d) :=
  h.laserOff.brakeDrive.parkDrive

protected theorem Steady.updLath {f : Lath → Lath} (h : Steady d₀ d) : Steady d₀ (updLath f d) := by
  unfold updLath
  exact h.lath

protected theorem Steady.raiseArb (h : Steady d₀ d) : Steady d₀ (raiseArb d) := by
  unfold raiseArb
  exact h.ite h.updLath

protected theorem Steady.sendMsg {m : LathMsg} (h : Steady d₀ d) : Steady d₀ (sendMsg m d) := by
  unfold sendMsg
  exact h.updLath.raiseArb.ite h

protected theorem Steady.updCache {f : Machine.Cache → Machine.Cache} (h : Steady d₀ d) : Steady d₀ (updCache f d) := by
  unfold updCache
  exact h.cch

protected theorem Steady.putLine {i : Nat} {l : Line} (h : Steady d₀ d) : Steady d₀ (putLine i l d) := by
  unfold putLine
  exact h.updCache

protected theorem Steady.mapLines {p : Line → Bool} {f : Line → Line} (h : Steady d₀ d) : Steady d₀ (mapLines p f d) := by
  unfold mapLines
  exact (h.foldl (fun h => h.putLine.ite h)).updCache

protected theorem Steady.dropLines {p : Line → Bool} (h : Steady d₀ d) : Steady d₀ (dropLines p d) := by
  unfold dropLines
  exact (h.foldl (fun h => h.putLine.ite h)).updCache

protected theorem Steady.storeTable {k : Nat} {recs : TableRecs} {poison : BitVec 32} (h : Steady d₀ d) :
    Steady d₀ (storeTable k recs poison d) := by
  unfold storeTable
  exact h.updCache

protected theorem Steady.access (h : Steady d₀ d) : Steady d₀ (access d) := by
  unfold access
  exact h.updCache

protected theorem Steady.chooseLine {cls : Nat} (h : Steady d₀ d) : Steady d₀ (chooseLine cls d).2 := by
  unfold chooseLine
  split
  · exact h
  · split
    · exact h
    · exact h.setRegF

protected theorem Steady.leaveCache {l : Line} (h : Steady d₀ d) : Steady d₀ (leaveCache l d) := by
  unfold leaveCache
  exact h.count.when fun h => h.storeTable.when (fun h => h.updCache.sendMsg)

protected theorem Steady.pushVictim {l : Line} (h : Steady d₀ d) : Steady d₀ (pushVictim l d) := by
  unfold pushVictim
  split
  · exact h
  · split
    · exact h.updCache
    · split
      · exact h
      · exact h.updCache.leaveCache

protected theorem Steady.replaceLine {i : Nat} {l : Line} (h : Steady d₀ d) : Steady d₀ (replaceLine i l d) :=
  h.putLine.pushVictim

protected theorem Steady.fillLine {l : Line} (h : Steady d₀ d) : Steady d₀ (fillLine l d) := by
  unfold fillLine
  dsimp only
  split
  · exact h.updCache
  · split
    · next e => exact (h.chooseLine.ofPair e).replaceLine
    · next e => exact (h.chooseLine.ofPair e).updCache |>.count |>.raise

protected theorem Steady.swapBack {p : Line → Bool} {l : Line} (h : Steady d₀ d) : Steady d₀ (swapBack p l d) := by
  unfold swapBack
  split
  · next e => exact h.chooseLine.ofPair e
  · next e => exact (h.chooseLine.ofPair e).updCache |>.replaceLine

protected theorem Steady.lookup {p : Line → Bool} (h : Steady d₀ d) : Steady d₀ (lookup p d).2 := by
  unfold lookup
  dsimp only
  split
  · exact h.access.putLine.count
  · split
    · exact h.access.count.swapBack
    · exact h.access.count

protected theorem Steady.fillTable {k : Nat} {c : Coh} (h : Steady d₀ d) : Steady d₀ (fillTable k c d) :=
  h.fillLine

protected theorem Steady.setCoh {k : Nat} {c : Coh} (h : Steady d₀ d) : Steady d₀ (setCoh k c d) := by
  unfold setCoh
  exact h.dropLines.ite h.mapLines

protected theorem Steady.askLine {k : Nat} {exclusive : Bool} (h : Steady d₀ d) : Steady d₀ (askLine k exclusive d) := by
  unfold askLine
  exact h.ite h.updCache.sendMsg

protected theorem Steady.obtainLine {k : Nat} {exclusive : Bool} (h : Steady d₀ d) : Steady d₀ (obtainLine k exclusive d).2 := by
  unfold obtainLine
  split
  next e =>
    replace h := h.lookup.ofPair e
    split
    · split
      · exact h.when .setCoh
      · split
        · exact h.askLine
        · dsimp only
          exact h.setCoh
    · split
      · exact h.askLine
      · exact h.fillTable

protected theorem Steady.updStream {s : Nat} {f : StreamRec → StreamRec} (h : Steady d₀ d) : Steady d₀ (updStream s f d) := by
  unfold updStream
  exact h.mapLines.ite (h.updCache.ite h.updCache)

/-- A command that waited for a table line is waiting again: it was one that a seal drops before, if it is now. -/
protected theorem Steady.wakeLine {k : Nat} (h : Steady d₀ d) : Steady d₀ (wakeLine k d) := by
  refine h.hif (hk := fun hk x hx => ?_)
  obtain ⟨c, hc, rfl⟩ := List.mem_map.mp hx
  have hkept := hk c hc
  split
  case h_1 j b hp =>
    have hs : c.started = true := by simpa [sealDrops, isWaiting, hp] using hkept
    split
    · simp [sealDrops, isWaiting, hs]
    · exact hkept
  case h_2 => exact hkept

protected theorem Steady.zeroTable {k : Nat} (h : Steady d₀ d) : Steady d₀ (zeroTable k d) := by
  unfold zeroTable
  exact h.mapLines.ite h.fillLine

protected theorem Steady.rangeAlone (h : Steady d₀ d) : Steady d₀ (rangeAlone d) := by
  unfold rangeAlone
  split
  · exact (h.foldl (fun h => h.setCoh.ite h)).updCache
  · exact (h.foldl .zeroTable).updCache
  · exact h

protected theorem Steady.abandonCoherence (h : Steady d₀ d) : Steady d₀ (abandonCoherence d) := by
  unfold abandonCoherence
  exact (h.updCache.rangeAlone.foldl (fun h => h.wakeLine)).when .raise

protected theorem Steady.cleanLines (h : Steady d₀ d) : Steady d₀ (cleanLines d).1 := by
  unfold cleanLines
  exact h.foldl fun h => h.storeTable.updCache.sendMsg.ite h.storeTable.setCoh

protected theorem Steady.startRange_purge {op : RangeOp} (h : Steady d₀ d) : Steady d₀ (startRange.purge op d) := by
  unfold startRange.purge
  exact h.dropLines.updCache

protected theorem Steady.startRange {op : RangeOp} (h : Steady d₀ d) : Steady d₀ (startRange op d) := by
  unfold startRange
  split
  · exact h.startRange_purge
  · exact h.startRange_purge
  · exact h.cleanLines.updCache
  · exact h.askLine.updCache.ite h.zeroTable.updCache

protected theorem Steady.updRcl {f : RecordLayer → RecordLayer} (h : Steady d₀ d) : Steady d₀ (updRcl f d) := by
  unfold updRcl
  exact h.rcl

protected theorem Steady.updWrc {f : WriteChannel → WriteChannel} (h : Steady d₀ d)
    (hf : ∀ w, (f w).writing = w.writing := by exact fun _ => rfl) : Steady d₀ (updWrc f d) := h.wrc (hf _)

protected theorem Steady.updRing {o : Nat} {f : Machine.Ring → Machine.Ring} (h : Steady d₀ d) : Steady d₀ (updRing o f d) := by
  unfold updRing
  exact h.updRcl

protected theorem Steady.updGroup {id : Nat} {f : Machine.Group → Machine.Group} (h : Steady d₀ d) :
    Steady d₀ (updGroup id f d) := by
  unfold updGroup
  exact h.updRcl

protected theorem Steady.updSlot {n : Nat} {f : Slot → Slot} (h : Steady d₀ d) : Steady d₀ (updSlot n f d) := by
  unfold updSlot
  exact h.cry

protected theorem Steady.changeStream {s : Nat} {f : StreamRec → StreamRec} (h : Steady d₀ d) :
    Steady d₀ (changeStream s f d).2 := by
  unfold changeStream
  split
  · next e => exact (h.obtainLine.ofPair e).updStream
  · next e => exact h.obtainLine.ofPair e

protected theorem Steady.runTask {t : TableTask} (h : Steady d₀ d) : Steady d₀ (runTask t d) := by
  unfold runTask
  split
  · next e => exact h.changeStream.ofPair e
  · next e => exact (h.changeStream.ofPair e).updRcl

protected theorem Steady.nameNext {o : Nat} (h : Steady d₀ d) : Steady d₀ (nameNext o d) := by
  unfold nameNext
  split
  · exact h.updRing.raise
  · exact h.updRing.updRcl.excTake.ite (h.updRing.updRcl.when .excEnd)

protected theorem Steady.useSparesTo {layer zone e : Nat} (h : Steady d₀ d) : Steady d₀ (useSparesTo layer zone e d) := by
  unfold useSparesTo
  exact h.updRcl

protected theorem Steady.takeId (h : Steady d₀ d) : Steady d₀ (takeId d) := by
  unfold takeId
  exact h.updWrc

protected theorem Steady.queueCluster {c : WriteCluster} (h : Steady d₀ d) : Steady d₀ (queueCluster c d) := by
  unfold queueCluster
  exact h.updWrc

protected theorem Steady.systemCluster {kind : ClusterKind} {data : List Byte} {dir : Sparse DirSlot} {rings : List DirRing}
    (h : Steady d₀ d) :
    Steady d₀ (systemCluster kind data dir rings d).2 := by
  unfold systemCluster
  exact h.updRing.takeId.queueCluster

protected theorem Steady.writeDirectory (h : Steady d₀ d) : Steady d₀ (writeDirectory d).2 := by
  unfold writeDirectory
  exact h.systemCluster

protected theorem Steady.locatePieces {id : Nat} {l : Loc} (h : Steady d₀ d) : Steady d₀ (locatePieces id l d) := by
  unfold locatePieces
  exact h.updRcl

protected theorem Steady.placeCheckpoint {o : Nat} {z : Zone} (h : Steady d₀ d) : Steady d₀ (placeCheckpoint o z d) := by
  unfold placeCheckpoint
  exact h.updRing.takeId.queueCluster

protected theorem Steady.placeData {o : Nat} {z : Zone} {c : WriteCluster} (h : Steady d₀ d) :
    Steady d₀ (placeData o z c d) := by
  unfold placeData
  exact h.updRing.updRcl.queueCluster.locatePieces

protected theorem Steady.placeCluster {o : Nat} {c : WriteCluster} (h : Steady d₀ d) : Steady d₀ (placeCluster o c d) := by
  unfold placeCluster
  dsimp only
  split
  · exact h.updRing
  · exact h.updRing.ite ((h.placeCheckpoint.ite h).andThen (fun h => h.updRing.ite h.placeData))

protected theorem Steady.closeAssembly {o : Nat} (h : Steady d₀ d) : Steady d₀ (closeAssembly o d) := by
  unfold closeAssembly
  split
  · exact h
  · exact h.updRing.updRcl.placeCluster

protected theorem Steady.openAssembly {o : Nat} (h : Steady d₀ d) : Steady d₀ (openAssembly o d).2 := by
  unfold openAssembly
  split
  · exact h
  · exact h.updRing.takeId

protected theorem Steady.layBytes {o gid stream seq n start : Nat} {first cont : Bool} {bs : List Byte} (h : Steady d₀ d) :
    Steady d₀ (layBytes o gid stream seq n first cont start bs d) := by
  induction n generalizing first cont start bs d with
  | zero => exact h
  | succ n ih =>
    unfold layBytes
    exact h.ite (h.openAssembly.andThen fun h => (ih h.closeAssembly).ite
      ((ih h.closeAssembly).ite (h.edit.andThen fun h => ih (h.closeAssembly.ite h))))

protected theorem Steady.endGroup {o gid : Nat} (h : Steady d₀ d) : Steady d₀ (endGroup o gid d) := by
  unfold endGroup
  split
  · exact h
  · split
    · exact h
    · exact h.updRing.updWrc

protected theorem Steady.closeIfDue {o : Nat} (h : Steady d₀ d) : Steady d₀ (closeIfDue o d) := by
  unfold closeIfDue
  split
  · exact h
  · exact h.closeAssembly.ite h

protected theorem Steady.placeGroup {o gid : Nat} (h : Steady d₀ d) : Steady d₀ (placeGroup o gid d) := by
  unfold placeGroup
  split
  · exact h
  · exact (h.foldl .layBytes).endGroup |>.closeIfDue

protected theorem Steady.rechain {stream : Nat} (h : Steady d₀ d) : Steady d₀ (rechain stream d) :=
  h.foldlPair fun h => h.edit

protected theorem Steady.addGroup {stream owner first : Nat} {recs : List RecInfo} {bytes : List Byte} {role : GroupRole}
    (h : Steady d₀ d) : Steady d₀ (addGroup stream owner first recs bytes role d).2 := by
  unfold addGroup
  dsimp only
  exact h.updRcl

protected theorem Steady.sendGroup {xid : Nat} {catching : Bool} {mark : Nat} {g : Machine.Group} {bs : List Byte} {poison : BitVec 32}
    (h : Steady d₀ d) :
    Steady d₀ (sendGroup xid catching mark g bs poison d) := by
  unfold sendGroup
  exact h.updGroup.updLath.sendMsg.foldl .sendMsg

protected theorem Steady.pumpMirror {n : Nat} (h : Steady d₀ d) : Steady d₀ (pumpMirror n d) := by
  induction n generalizing d with
  | zero => exact h
  | succ n ih =>
    unfold pumpMirror
    split
    · exact (ih h.sendGroup).ite (ih h.edit.sendGroup)
    · exact h

protected theorem Steady.closeXid {xid : Nat} (h : Steady d₀ d) : Steady d₀ (closeXid xid d) :=
  h.updLath.pumpMirror

protected theorem Steady.voidGroup {id : Nat} (h : Steady d₀ d) : Steady d₀ (voidGroup id d) := by
  unfold voidGroup
  split
  · exact h
  · exact h.ite (h.updGroup.when (fun h => h.count.raise.rechain))

protected theorem Steady.completeGroup {g : Machine.Group} (h : Steady d₀ d) : Steady d₀ (completeGroup g d) := by
  unfold completeGroup
  split
  · exact (h.updCmd.ite h).finishWith
  · exact h

protected theorem Steady.notePeerHead {g : Machine.Group} (h : Steady d₀ d) : Steady d₀ (notePeerHead g d) := by
  unfold notePeerHead
  split
  · exact h.updLath
  · exact h

protected theorem Steady.commitGroup {g : Machine.Group} (h : Steady d₀ d) : Steady d₀ (commitGroup g d).2 := by
  unfold commitGroup
  split
  · next e => exact (h.changeStream.ofPair e).updGroup |>.count |>.notePeerHead |>.completeGroup
  · next e => exact h.changeStream.ofPair e

protected theorem Steady.payGroup {g : Machine.Group} (h : Steady d₀ d) : Steady d₀ (payGroup d g) := by
  unfold payGroup
  split
  · exact h.updGroup.finishWith
  · exact h

protected theorem Steady.payOwed (h : Steady d₀ d) : Steady d₀ (payOwed d) := by
  unfold payOwed
  exact h.foldl .payGroup

protected theorem Steady.commitReady {n : Nat} (h : Steady d₀ d) : Steady d₀ (commitReady n d) := by
  induction n generalizing d with
  | zero => exact h.payOwed
  | succ n ih =>
    unfold commitReady
    dsimp only
    split
    · exact h.payOwed
    · split
      · next e => exact ih (h.payOwed.commitGroup.ofPair e)
      · next e => exact h.payOwed.commitGroup.ofPair e

protected theorem Steady.settleGroups (h : Steady d₀ d) : Steady d₀ (settleGroups d) :=
  h.commitReady

protected theorem Steady.listGap {g : Machine.Group} {xid st : Nat} (h : Steady d₀ d) : Steady d₀ (listGap g xid st d) := by
  unfold listGap
  exact (h.updGroup.ite (h.updGroup.updLath.sendMsg.ite h)).sendMsg |>.raise

protected theorem Steady.failLeader {g : Machine.Group} {t st : Nat} (h : Steady d₀ d) : Steady d₀ (failLeader g t st d) := by
  unfold failLeader
  exact (h.voidGroup.updGroup.ite h.voidGroup.finishWith).settleGroups

protected theorem Steady.failGroup {id st : Nat} (h : Steady d₀ d) : Steady d₀ (failGroup id st d) := by
  unfold failGroup
  split
  · exact h
  · split
    · exact h
    · split
      · refine .andThen ?_ fun h => h.failLeader
        split
        · exact h.sendMsg.closeXid
        · exact h
      · exact h.sendMsg.voidGroup.settleGroups
      · exact h.listGap
      · exact h.voidGroup

protected theorem Steady.failCluster {c : WriteCluster} {st : Nat} (h : Steady d₀ d) : Steady d₀ (failCluster c st d) := by
  unfold failCluster
  exact h.foldl .failGroup

protected theorem Steady.updFls {f : Flash → Flash} (h : Steady d₀ d) : Steady d₀ (updFls f d) := by
  unfold updFls
  exact h.fls

protected theorem Steady.eraseSectorAt {n : Nat} (h : Steady d₀ d) : Steady d₀ (eraseSectorAt n d) := by
  unfold eraseSectorAt
  exact h.updFls

protected theorem Steady.programAt {a : Nat} {bs : List Byte} (h : Steady d₀ d) : Steady d₀ (programAt a bs d) := by
  unfold programAt
  exact h.updFls

protected theorem Steady.writeSlotCopy {copyB : Bool} {n : Nat} {bs : List Byte} (h : Steady d₀ d) :
    Steady d₀ (writeSlotCopy copyB n bs d) := by
  unfold writeSlotCopy
  exact h.eraseSectorAt.programAt

protected theorem Steady.writeSlotRecord {n : Nat} {r : SlotRecord} (h : Steady d₀ d) : Steady d₀ (writeSlotRecord n r d) := by
  unfold writeSlotRecord
  exact h.writeSlotCopy.writeSlotCopy

protected theorem Steady.destroySlotRecord {n : Nat} (h : Steady d₀ d) : Steady d₀ (destroySlotRecord n d) := by
  unfold destroySlotRecord
  exact h.writeSlotCopy.writeSlotCopy

protected theorem Steady.updCry {f : Crypto → Crypto} (h : Steady d₀ d) : Steady d₀ (updCry f d) := by
  unfold updCry
  exact h.cry

protected theorem Steady.randomDraw (h : Steady d₀ d) : Steady d₀ (randomDraw d).2 := by
  unfold randomDraw
  dsimp only
  exact h.updCry

protected theorem Steady.installSlot {n keygen quota tick : Nat} {flags : BitVec 8} {key : BitVec 256} {load : Bool} (h : Steady d₀ d) :
    Steady d₀ (installSlot n keygen quota tick flags key load d) := by
  unfold installSlot
  exact h.writeSlotRecord.updSlot

protected theorem Steady.sendKey {n : Nat} (h : Steady d₀ d) : Steady d₀ (sendKey n d) := by
  unfold sendKey
  split
  · exact h
  · split
    · exact h
    · exact h.sendMsg

protected theorem Steady.setOp {i : Nat} {o : OwnerOp} (h : Steady d₀ d) : Steady d₀ (setOp i o d) := by
  unfold setOp
  exact h.updCry

protected theorem Steady.endOp {i n : Nat} (h : Steady d₀ d) : Steady d₀ (endOp i n d) := by
  unfold endOp
  exact h.updCry.updSlot

protected theorem Steady.finishOp {o : OwnerOp} {st result : Nat} (h : Steady d₀ d) : Steady d₀ (finishOp o st result d) := by
  unfold finishOp
  split
  · exact h
  · exact h.finishWith

protected theorem Steady.assignZones {n q : Nat} (h : Steady d₀ d) : Steady d₀ (assignZones n q d) :=
  h.updRcl.updRing.nameNext

protected theorem Steady.destroyOwner {n : Nat} (h : Steady d₀ d) : Steady d₀ (destroyOwner n d) := by
  unfold destroyOwner
  exact (h.foldl (fun h => h.runTask.ite h)).updSlot |>.destroySlotRecord |>.updSlot

protected theorem Steady.advanceOp {n i : Nat} (h : Steady d₀ d) : Steady d₀ (advanceOp n i d) := by
  induction n generalizing i d with
  | zero => exact h
  | succ n ih =>
    unfold advanceOp
    split
    · exact h
    · split
      · exact (h.ite h.setRegF.setRegF.startRange.setOp).ite (h.ite (h.randomDraw.installSlot.andThen fun h =>
          (ih h.sendKey.setOp).ite (ih h.setOp)))
      · exact h.assignZones.writeDirectory.setOp.ite h
      · exact h
      · exact h.ite h.destroyOwner.writeDirectory.setOp
      · exact h
      · exact ((h.ite h.updSlot.raise).finishOp.endOp).ite h
      · refine (h.ite h.setRegF.setRegF.startRange.setOp).ite (h.ite ?_)
        split
        · exact (h.sendMsg.ite h).endOp
        · exact h.installSlot.andThen fun h => (h.sendMsg.ite h).endOp.ite
            (h.assignZones.writeDirectory.setOp.ite (h.sendMsg.ite h).endOp)
      · exact h

protected theorem Steady.pumpOps (h : Steady d₀ d) : Steady d₀ (pumpOps d) := by
  unfold pumpOps
  induction List.range d.cry.ops.length with
  | nil => exact h
  | cons i l ih => exact ih.advanceOp

protected theorem Steady.startOp {step : OwnerStep} {tag : Option Nat} (h : Steady d₀ d) : Steady d₀ (startOp step tag d) :=
  h.updSlot.updCry.pumpOps

protected theorem Steady.ownersLeaveTopcoat (h : Steady d₀ d) : Steady d₀ (ownersLeaveTopcoat d) := by
  unfold ownersLeaveTopcoat
  refine .andThen ?_ fun h => h.pumpOps
  refine h.foldl fun h => ?_
  split
  · exact h
  · split
    · exact h
    · split
      · exact h.setOp.updSlot.raise
      · exact h.setOp.updSlot.raise
      · exact h.setOp.updSlot.raise
      · exact h.setOp

protected theorem Steady.setCartReg {l : List (BitVec 64)} (h : Steady d₀ d) : Steady d₀ (setCartReg l d) := by
  unfold setCartReg
  exact h.updCry.nv

protected theorem Steady.enterSerial {serial : BitVec 64} (h : Steady d₀ d) : Steady d₀ (enterSerial serial d) := by
  unfold enterSerial
  exact h.ite h.setCartReg

protected theorem Steady.updRdc {f : ReadChannel → ReadChannel} (h : Steady d₀ d) : Steady d₀ (updRdc f d) := by
  unfold updRdc
  exact h.rdc

protected theorem Steady.updRead {id : Nat} {f : LadderCluster → LadderCluster} (h : Steady d₀ d) :
    Steady d₀ (updRead id f d) := by
  unfold updRead
  exact h.updRdc

protected theorem Steady.sectorLookup {psa : Nat} (h : Steady d₀ d) : Steady d₀ (sectorLookup psa d).2 := by
  unfold sectorLookup
  extract_lets p
  split
  · split
    · split
      · next e => exact h.lookup.ofPair e
      · next e => exact h.lookup.ofPair e
    · dsimp only
      exact h.dropLines.count.lookup
  · exact h.lookup

protected theorem Steady.fillSector {c : LadderCluster} {i : Nat} {block : List Byte} (h : Steady d₀ d) :
    Steady d₀ (fillSector c i block d) := by
  unfold fillSector
  split
  · exact h
  · exact h.ite h.fillLine

protected theorem Steady.lookupWanted {id : Nat} (h : Steady d₀ d) : Steady d₀ (lookupWanted id d) := by
  unfold lookupWanted
  split
  · exact h
  · refine h.foldl fun h => ?_
    split
    · next e => exact (h.sectorLookup.ofPair e).updRead
    · next e => exact h.sectorLookup.ofPair e

protected theorem Steady.seekLayer {l : Nat} (h : Steady d₀ d) : Steady d₀ (seekLayer l d) := by
  unfold seekLayer
  exact h.ite (h.servo.ite (h.servo.startJump.ite h.startAcquisition))

protected theorem Steady.addRead {purpose : ReadFor} {loc : Loc} {parts : List (Nat × Nat × Nat)} (h : Steady d₀ d) :
    Steady d₀ (addRead purpose loc parts d) := by
  unfold addRead
  dsimp only
  split
  · exact h.updRdc.lookupWanted
  · exact h.updRdc.lookupWanted.when fun h => h.updRead.seekLayer

protected theorem Steady.startRead {purpose : ReadFor} {parts : List (Loc × Nat × Nat × Nat)} (h : Steady d₀ d) :
    Steady d₀ (startRead purpose parts d) := by
  unfold startRead
  exact h.foldl .addRead

protected theorem Steady.finishHostRead {tag : Nat} {cs : List LadderCluster} (h : Steady d₀ d) :
    Steady d₀ (finishHostRead tag cs d) := by
  unfold finishHostRead
  exact h.deliverData.finishWith.raise.ite (h.deliverData.finishWith.when .raise)

protected theorem Steady.answerRecov {xid unit : Nat} {cs : List LadderCluster} (h : Steady d₀ d) :
    Steady d₀ (answerRecov xid unit cs d) :=
  h.sendMsg

protected theorem Steady.catchRead {mark : Nat} {cs : List LadderCluster} (h : Steady d₀ d) :
    Steady d₀ (catchRead mark cs d) := by
  unfold catchRead
  split
  · exact h.sendGroup.ite h.drawn.sendGroup
  · exact h

protected theorem Steady.finishRead {p : ReadFor} (h : Steady d₀ d) : Steady d₀ (finishRead p d) := by
  unfold finishRead
  dsimp only
  split
  · exact h
  · split
    · exact h.finishHostRead
    · exact h.finishHostRead
    · exact h
    · exact h.dropReads
    · exact h.answerRecov.dropReads
    · exact h.catchRead.dropReads

protected theorem Steady.freeStore {c : LadderCluster} (h : Steady d₀ d) : Steady d₀ (freeStore c d) := by
  unfold freeStore
  exact h.updRdc

protected theorem Steady.restoreCluster {c : LadderCluster} (h : Steady d₀ d) : Steady d₀ (restoreCluster c d) := by
  unfold restoreCluster
  exact (h.foldl (fun h => h.updRead.fillSector)).raise

protected theorem Steady.queueRefresh {c : LadderCluster} (h : Steady d₀ d) : Steady d₀ (queueRefresh c d) :=
  h.updRdc.raise

protected theorem Steady.leaveLadder {c : LadderCluster} {lostNow : Nat} (h : Steady d₀ d) :
    Steady d₀ (leaveLadder c lostNow d) := by
  unfold leaveLadder
  dsimp only
  split
  · split
    · exact h.updRead.freeStore.queueRefresh
    · exact h.updRead.freeStore
  · exact h.updRead.freeStore

protected theorem Steady.endLadder {c : LadderCluster} (h : Steady d₀ d) : Steady d₀ (endLadder c d) := by
  unfold endLadder
  exact (h.freeStore.updRead.unless .countN).raise

protected theorem Steady.takePeer {c : LadderCluster} (h : Steady d₀ d) : Steady d₀ (takePeer c d) := by
  unfold takePeer
  exact (h.foldl (fun h => h.updRead)).when fun h => h.foldl (fun h => h.updRead.ite h)

protected theorem Steady.askPeer {c : LadderCluster} (h : Steady d₀ d) : Steady d₀ (askPeer c d) := by
  unfold askPeer
  exact h.takePeer.ite ((h.drawn.ite h).foldl (fun h => h.updLath.updRead.sendMsg))

protected theorem Steady.enterStep {c : LadderCluster} {k : Nat} (h : Steady d₀ d) : Steady d₀ (enterStep c k d) := by
  unfold enterStep
  dsimp only
  split
  · exact h.updRead.updRdc
  · exact h.updRead.updRdc
  · exact h.updRead.freeStore
  · exact h.updRead.freeStore.askPeer
  · exact h.updRead.endLadder

protected theorem Steady.climb {c : LadderCluster} (h : Steady d₀ d) : Steady d₀ (climb c d) := by
  unfold climb
  exact h.leaveLadder.ite (h.restoreCluster.leaveLadder.ite h.enterStep)

protected theorem Steady.climbOn {id n : Nat} (h : Steady d₀ d) : Steady d₀ (climbOn id n d) := by
  induction n generalizing d with
  | zero => exact h
  | succ n ih =>
    unfold climbOn
    split
    · exact h
    · exact h.ite (ih h.climb)

protected theorem Steady.settleRead {id : Nat} (h : Steady d₀ d) : Steady d₀ (settleRead id d) := by
  unfold settleRead
  dsimp only
  split
  · exact h.climbOn
  · exact h.climbOn.when fun h => h.updRead.finishRead

protected theorem Steady.answerUnits {id : Nat} {f : PeerUnit → PeerUnit} (h : Steady d₀ d) :
    Steady d₀ (answerUnits id f d) := by
  unfold answerUnits
  dsimp only
  split
  · exact h.updRead
  · exact h.updRead.unless fun h => h.takePeer.settleRead

protected theorem Steady.recovData {xid unit : Nat} {bytes : List Byte} {poison : BitVec 32} (h : Steady d₀ d) :
    Steady d₀ (recovData xid unit bytes poison d) := by
  unfold recovData
  dsimp only
  split
  · exact h
  · split
    · exact h
    · exact h.answerUnits

protected theorem Steady.peerGone (h : Steady d₀ d) : Steady d₀ (peerGone d) := by
  unfold peerGone
  exact h.foldl .answerUnits

protected theorem Steady.queueActivation {id : Nat} {copyB : Bool} {r : Activation} {groups : List Nat} (h : Steady d₀ d) :
    Steady d₀ (queueActivation id copyB r groups d) := by
  unfold queueActivation
  exact h.updRing.queueCluster

protected theorem Steady.startActivation {w : ActWrite} (h : Steady d₀ d) : Steady d₀ (startActivation w d) := by
  unfold startActivation
  exact h.updRcl.queueActivation

protected theorem Steady.writeActivation {r : Activation} {group : Option Nat} (h : Steady d₀ d) :
    Steady d₀ (writeActivation r group d) := by
  unfold writeActivation
  exact (h.takeId.takeId.foldl (fun h => h.updGroup)).andThen fun h => h.updRcl.ite h.startActivation

protected theorem Steady.changeActivation {tag : Nat} {r : Activation} (h : Steady d₀ d) :
    Steady d₀ (changeActivation tag r d) :=
  h.addGroup.writeActivation.pumpMirror

protected theorem Steady.dropBoot {tag : Nat} (h : Steady d₀ d) : Steady d₀ (dropBoot tag d) := by
  unfold dropBoot
  exact h.updRcl

protected theorem Steady.bootStep {tag : Nat} (h : Steady d₀ d) : Steady d₀ (bootStep tag d) := by
  unfold bootStep
  split
  · exact h.dropBoot
  · dsimp only
    split
    · split
      · exact h.dropBoot.changeActivation
      · exact h.dropBoot.finish
    · exact (h.dropBoot.when (fun h => h.updRcl)).finishWith |>.ite h.dropBoot.finishWith

protected theorem Steady.settleBoot (h : Steady d₀ d) : Steady d₀ (settleBoot d) := by
  unfold settleBoot
  exact h.foldl fun h => h.bootStep.ite h

protected theorem Steady.updGen {f : Startup → Startup} (h : Steady d₀ d) : Steady d₀ (updGen f d) := h.gen

protected theorem Steady.updHif {f : HostIf → HostIf} (h : Steady d₀ d) (hp : (f d.hif).pollSeal = d.hif.pollSeal := by rfl)
    (ho : (f d.hif).polling = d.hif.polling := by rfl)
    (hk : (∀ c ∈ d.hif.cmds, sealDrops c = false) → ∀ c ∈ (f d.hif).cmds, sealDrops c = false := by exact id) :
    Steady d₀ (updHif f d) := h.hif hp ho hk

protected theorem Steady.tellMode (h : Steady d₀ d) : Steady d₀ (tellMode d) :=
  h.sendMsg

protected theorem Steady.sendHello (h : Steady d₀ d) : Steady d₀ (sendHello d) := by
  unfold sendHello
  exact h.updLath.sendMsg.ite h

protected theorem Steady.leaveTopcoat (h : Steady d₀ d) : Steady d₀ (leaveTopcoat d) := by
  unfold leaveTopcoat
  exact (h.updLath.foldl .voidGroup).abandonCoherence |>.settleGroups |>.ownersLeaveTopcoat |>.settleBoot |>.peerGone |>.raise

protected theorem Steady.setMode {m : Mode} (h : Steady d₀ d) : Steady d₀ (setMode m d) := by
  unfold setMode
  exact h.unless fun h => ((h.updGen.raise.unless .tellMode).when .leaveTopcoat).when fun h => h.updGen.raise

protected theorem Steady.toUndercoat (h : Steady d₀ d) : Steady d₀ (toUndercoat d) := by
  unfold toUndercoat
  exact h.setMode.ite h

protected theorem Steady.abortWaiting (h : Steady d₀ d) : Steady d₀ (abortWaiting d) :=
  h.finishAll

protected theorem Steady.standParked (h : Steady d₀ d) : Steady d₀ (standParked d) := by
  unfold standParked
  exact h.parkStep.updGen

protected theorem Steady.noPower (h : Steady d₀ d) : Steady d₀ (noPower d) := by
  unfold noPower
  exact h.leaveRetention.updHif.unless .raise

protected theorem Steady.enterDust {cause : Nat} (h : Steady d₀ d) : Steady d₀ (enterDust cause d) := by
  unfold enterDust
  dsimp only
  split
  · exact h.setMode.abortWaiting.updGen.standParked.noPower.finishOk
  · exact h.setMode.abortWaiting.updGen.standParked.noPower

protected theorem Steady.pumpDust (h : Steady d₀ d) : Steady d₀ (pumpDust d) := by
  unfold pumpDust
  split
  · exact h.ite h.enterDust
  · exact h

protected theorem Steady.beginDust {tag : Option Nat} {cause : Nat} (h : Steady d₀ d) : Steady d₀ (beginDust tag cause d) :=
  h.updGen.abortWaiting.pumpDust

protected theorem Steady.finishRetiring (h : Steady d₀ d) : Steady d₀ (finishRetiring d) := by
  unfold finishRetiring
  exact h.foldl fun h => h.startOp.ite h

protected theorem Steady.enterUndercoat (h : Steady d₀ d) : Steady d₀ (enterUndercoat d) := by
  unfold enterUndercoat
  dsimp only
  split
  · exact h.updGen.setMode.updHif.sendHello.finishRetiring.finishOk
  · exact h.updGen.setMode.updHif.sendHello.finishRetiring

protected theorem Steady.queueSeal {o : Nat} (h : Steady d₀ d) : Steady d₀ (queueSeal o d) := by
  suffices k : ∀ f, f = Machine.queueSeal → Steady d₀ (f o d) from k _ rfl
  intro f hf
  delta Machine.queueSeal at hf
  obtain ⟨g, hg⟩ : ∃ g, g = groupOf := exists_eq
  obtain ⟨sg, hsg⟩ : ∃ sg, sg = sealGroups := exists_eq
  rw [← hg, ← hsg] at hf
  subst hf
  beta_reduce
  extract_lets r
  split
  · exact h
  · extract_lets z
    split
    split
    exact h.updRing.ite h.updRing.useSparesTo.takeId.queueCluster

protected theorem Steady.queueFill {o : Nat} {z : Zone} {first n : Nat} {frames : List Nat} (h : Steady d₀ d) :
    Steady d₀ (queueFill o z first n frames d) := by
  unfold queueFill
  exact (h.ite h.useSparesTo).foldl fun h => h.ite h.takeId.queueCluster

protected theorem Steady.updCart {f : Cartridge → Cartridge} (h : Steady d₀ d) : Steady d₀ (updCart f d) := by
  unfold updCart
  exact h.updGen

protected theorem Steady.queueFormatGroup (h : Steady d₀ d) : Steady d₀ (queueFormatGroup d) := by
  suffices k : ∀ f, f = Machine.queueFormatGroup → Steady d₀ (f d) from k _ rfl
  intro f hf
  delta Machine.queueFormatGroup at hf
  obtain ⟨g, hg⟩ : ∃ g, g = groupOf := exists_eq
  rw [← hg] at hf
  subst hf
  beta_reduce
  split
  · exact h
  · split
    split
    exact h.foldl fun h => h.ite h.takeId.queueCluster

protected theorem Steady.startFormat (h : Steady d₀ d) : Steady d₀ (startFormat d) := by
  unfold startFormat
  exact h.enterSerial.updCart.updGen.updRcl.updCry.wrc.queueFormatGroup

protected theorem Steady.writeDefects (h : Steady d₀ d) : Steady d₀ (writeDefects d) :=
  h.systemCluster

protected theorem Steady.leaveNow (h : Steady d₀ d) : Steady d₀ (leaveNow d) := by
  unfold leaveNow
  split
  · exact h.enterUndercoat.ite (h.ite (h.startFormat.ite h))
  · exact h

protected theorem Steady.dropCluster {id : Nat} (h : Steady d₀ d) : Steady d₀ (dropCluster id d) := by
  unfold dropCluster
  exact h.updWrc

protected theorem Steady.clampTrims (h : Steady d₀ d) : Steady d₀ (clampTrims d) := by
  unfold clampTrims
  exact h.updWrc

protected theorem Steady.excursionOver {psa : Nat} (h : Steady d₀ d) : Steady d₀ (excursionOver psa d) := by
  unfold excursionOver
  exact h.ite (h.updWrc.when (fun h => h.excEnd.unless (fun h => h.clampTrims)))

protected theorem Steady.phaseBEnd {o : Nat} (h : Steady d₀ d) : Steady d₀ (phaseBEnd o d) := by
  unfold phaseBEnd
  exact (h.updRing.updRcl.raise.unless (fun h => h.updGen)).ite h

protected theorem Steady.rewriteDirectory {c : WriteCluster} (h : Steady d₀ d) : Steady d₀ (rewriteDirectory c d) := by
  unfold rewriteDirectory
  exact h.systemCluster.updRcl.updCry

protected theorem Steady.clampPoll (h : Steady d₀ d) : Steady d₀ (clampPoll d) := by
  unfold clampPoll
  exact h.updHif.ite h

protected theorem Steady.startDrive (h : Steady d₀ d) : Steady d₀ (startDrive d) := by
  unfold startDrive
  exact (h.startHome.ite h).updGen |>.startAcquisition

protected theorem Steady.wakePower (h : Steady d₀ d) : Steady d₀ (wakePower d) := by
  unfold wakePower
  exact h.ite h.leaveRetention.updHif.clampPoll.startDrive

protected theorem Steady.putSearch {x : Search} (h : Steady d₀ d) : Steady d₀ (putSearch x d) := by
  unfold putSearch
  exact h.updRcl

protected theorem Steady.searchRead {x : Search} {ls : List Loc} {a n : Nat} (h : Steady d₀ d) :
    Steady d₀ (searchRead x ls a n d) :=
  h.putSearch.dropReads.startRead

protected theorem Steady.toMaps {ls : List Loc} {x : Search} (h : Steady d₀ d) : Steady d₀ (toMaps ls x d) :=
  h.searchRead

protected theorem Steady.toProbe {last pos : Nat} {x : Search} (h : Steady d₀ d) : Steady d₀ (toProbe last pos x d) := by
  unfold toProbe
  exact h.toMaps.ite h.searchRead

protected theorem Steady.startSearch {why : SearchFor} {s q : Nat} (h : Steady d₀ d) : Steady d₀ (startSearch why s q d) := by
  unfold startSearch
  split
  · exact h
  · dsimp only
    split
    · exact h.putSearch
    · exact h.toProbe.wakePower

protected theorem Steady.noteBacklog (h : Steady d₀ d) : Steady d₀ (noteBacklog d) := by
  unfold noteBacklog
  exact h.updLath.ite h.drawn.updLath

protected theorem Steady.storeTables (h : Steady d₀ d) : Steady d₀ (storeTables d) := by
  unfold storeTables
  refine .andThen ?_ fun h => h.dropLines
  refine h.foldl fun h => ?_
  split
  · exact h.storeTable
  · exact h

protected theorem Steady.tryTopcoat (h : Steady d₀ d) : Steady d₀ (tryTopcoat d) := by
  unfold tryTopcoat
  exact h.updLath.setMode.ite h

protected theorem Steady.catchComplete (h : Steady d₀ d) : Steady d₀ (catchComplete d) :=
  h.raise.storeTables.sendMsg.updLath.tryTopcoat

protected theorem Steady.catchProgress (h : Steady d₀ d) : Steady d₀ (catchProgress d) := by
  unfold catchProgress
  exact h.ite ((h.noteBacklog.when (fun h => h.updLath)).when .catchComplete)

protected theorem Steady.startCatch {g : Machine.Group} (h : Steady d₀ d) : Steady d₀ (startCatch g d) :=
  h.startRead

protected theorem Steady.pumpBootCatch (h : Steady d₀ d) : Steady d₀ (pumpBootCatch d) := by
  unfold pumpBootCatch
  dsimp only
  split
  · exact h
  · split
    · exact h
    · split
      · exact h.addGroup.drawn.sendGroup.updLath
      · exact h.addGroup
  · split
    · exact h
    · split
      · exact h.addGroup.updGroup.startCatch
      · exact h.addGroup.updGroup

protected theorem Steady.stepIn {s : Nat} (h : Steady d₀ d) : Steady d₀ (stepIn s d) := by
  unfold stepIn
  exact h.updLath.ite h

protected theorem Steady.pumpCatch (h : Steady d₀ d) : Steady d₀ (pumpCatch d) := by
  unfold pumpCatch
  split
  · exact h
  · refine .andThen ?_ fun h => h.pumpBootCatch.catchProgress
    refine h.foldl fun h => ?_
    dsimp only
    split
    · split
      · exact h.stepIn.startSearch
      · exact h.stepIn.startCatch
      · exact h.stepIn
    · exact h.stepIn

protected theorem Steady.renumberGroup {s first : Nat} {g : Machine.Group} (h : Steady d₀ d) :
    Steady d₀ (renumberGroup s first g d).2 := by
  unfold renumberGroup
  exact h.addGroup.placeGroup

protected theorem Steady.pumpRenumber (h : Steady d₀ d) : Steady d₀ (pumpRenumber d) :=
  h.foldl fun h => .ite h.edit (.ite (h.edit.foldlPair fun h => h.renumberGroup) h)

protected theorem Steady.detachDone {leaving : Nat} {tag : Option Nat} (h : Steady d₀ d) :
    Steady d₀ (detachDone leaving tag d) := by
  unfold detachDone
  dsimp only
  split
  · exact h.updLath.beginDust
  · split
    · exact h.updLath.toUndercoat.finishOk
    · exact h.updLath.toUndercoat

protected theorem Steady.pumpDetach (h : Steady d₀ d) : Steady d₀ (pumpDetach d) := by
  unfold pumpDetach
  split
  · exact h
  · exact h.detachDone.ite ((h.updLath.startRange.ite h).when (fun h => h.updLath.sendMsg) |>.when .detachDone)

protected theorem Steady.pumpTwin (h : Steady d₀ d) : Steady d₀ (pumpTwin d) :=
  h.pumpDetach.pumpRenumber.pumpCatch

protected theorem Steady.updEvt {f : EventLog → EventLog} (h : Steady d₀ d) : Steady d₀ (updEvt f d) := by
  unfold updEvt
  exact h.evt

protected theorem Steady.putEvent {tick origin source code : Nat} {detail : List Byte} (h : Steady d₀ d) :
    Steady d₀ (putEvent tick origin source code detail d) := by
  unfold putEvent
  exact (h.eraseSectorAt.ite h).programAt |>.updEvt |>.raise

protected theorem Steady.rollHour (h : Steady d₀ d) : Steady d₀ (rollHour d) := by
  unfold rollHour
  exact (h.updEvt.when .putEvent).ite h

protected theorem Steady.logEventAt {tick origin source code : Nat} {detail : List Byte} (h : Steady d₀ d) :
    Steady d₀ (logEventAt tick origin source code detail d) := by
  unfold logEventAt
  exact h.rollHour.unless fun h => h.updEvt.ite h.putEvent

protected theorem Steady.logEvent {origin source code : Nat} {detail : List Byte} (h : Steady d₀ d) :
    Steady d₀ (logEvent origin source code detail d) :=
  h.logEventAt

protected theorem Steady.resumeFormat (h : Steady d₀ d) : Steady d₀ (resumeFormat d) := by
  unfold resumeFormat
  exact (h.queueFormatGroup.ite (h.ite h.writeDefects.writeActivation)).ite h

protected theorem Steady.stopCatchup (h : Steady d₀ d) : Steady d₀ (stopCatchup d) := by
  unfold stopCatchup
  exact (h.foldl .voidGroup).updLath |>.peerGone |>.ite h

protected theorem Steady.rewindPlacement {o : Nat} (h : Steady d₀ d) : Steady d₀ (rewindPlacement o d) := by
  unfold rewindPlacement
  dsimp only
  split
  · exact h
  · exact h.updRing

protected theorem Steady.abandonCluster {c : WriteCluster} (h : Steady d₀ d) : Steady d₀ (abandonCluster c d) := by
  unfold abandonCluster
  dsimp only
  split
  · exact (h.dropCluster.foldl .excursionOver).failCluster |>.rewriteDirectory
  · exact (h.dropCluster.foldl .excursionOver).failCluster |>.updRcl
  · exact (h.dropCluster.foldl .excursionOver).failCluster

protected theorem Steady.abandonAssemblies (h : Steady d₀ d) : Steady d₀ (abandonAssemblies d) := by
  unfold abandonAssemblies
  exact h.updRcl.foldl .failGroup

protected theorem Steady.detachOwnerOps (h : Steady d₀ d) : Steady d₀ (detachOwnerOps d) := by
  unfold detachOwnerOps
  exact h.updCry

protected theorem Steady.settleSeal {old : List WriteCluster} (h : Steady d₀ d) : Steady d₀ (settleSeal old d) := by
  unfold settleSeal
  exact (h.foldl .abandonCluster).abandonAssemblies |>.settleGroups |>.finishAll |>.dropReads |>.updRcl |>.detachOwnerOps |>.updLath
    |>.updGen

protected theorem Steady.phaseB {o : Nat} (h : Steady d₀ d) : Steady d₀ (phaseB o d) := by
  unfold phaseB
  dsimp only
  refine .andThen ?_ fun h => h.updRcl.updRing.phaseBEnd
  split
  · exact (h.foldl .queueFill).unless .queueSeal
  · exact h

end

end Sys2Proof.Machine
end


section
/-!
PROOFS. The stack monitor: what each part of a cycle leaves of the supply's state, and the transitions that the stack makes.
-/

namespace Sys2Proof.Machine

section
variable {s : State} {d₀ d e : Device}

/-! ### Parts of a cycle

A cycle changes the supply, the counter of restarts (0x10048), and levels and detections of the interrupt controller; it neither begins nor
ends retention, and takes no detection of source 152 back, for the levels it sets are those of other sources. -/

structure MonitorStep (d e : Device) : Prop where
  retention : e.icu.retention = d.icu.retention
  raised : Raised 152 d → Raised 152 e
  onlyIn : OnlyIn (.pwr :: interruptParts) [0x4540, 0x10048] d e

protected theorem MonitorStep.refl : MonitorStep d d := ⟨rfl, id, .refl⟩

theorem raise_retention {k : Nat} : (raise k d).icu.retention = d.icu.retention := by
  rcases raise_spec k d with ⟨_, e⟩ | ⟨_, -, -, -, hi, -⟩
  · rw [e]
  · rw [hi]
    rfl

theorem setLevel_retention {k : Nat} {v : Bool} : (setLevel k v d).icu.retention = d.icu.retention := by
  rcases setLevel_spec k v d with ⟨_, e⟩ | ⟨_, _, e⟩ | ⟨_, _, -, -, -, hi, -⟩
  · rw [e]
  · rw [e]
  · rw [hi]
    rfl

/-- The level of another source stands. -/
theorem setLevel_level_other {k n : Nat} {v : Bool} (hn : n ≠ k) : ((setLevel k v d).src n).level = (d.src n).level := by
  rcases setLevel_spec k v d with ⟨_, e⟩ | ⟨_, _, e⟩ | ⟨_, _, -, hp, -⟩
  · rw [e]
    rfl
  · rw [e]
  · rw [hp n, updSrc_src, if_neg hn]

theorem MonitorStep.upd {f : Supply → Supply} (h : MonitorStep d₀ d) : MonitorStep d₀ (updPwr f d) :=
  ⟨h.retention, fun w => (h.raised w).of_icu rfl, h.onlyIn.andThen updPwr_onlyIn (by simp) (by simp)⟩

theorem MonitorStep.raise {k : Nat} (h : MonitorStep d₀ d) : MonitorStep d₀ (raise k d) :=
  ⟨raise_retention.trans h.retention, fun w => (h.raised w).raise k, h.onlyIn.andThen raise_onlyIn (by simp) (by simp)⟩

theorem MonitorStep.setLevel {k : Nat} {v : Bool} (h : MonitorStep d₀ d) (hk : k ≠ 152 := by decide) : MonitorStep d₀ (setLevel k v d) :=
  ⟨setLevel_retention.trans h.retention, fun w => (h.raised w).setLevel k v hk, h.onlyIn.andThen setLevel_onlyIn (by simp) (by simp)⟩

theorem MonitorStep.ite {c : Prop} [Decidable c] (h : MonitorStep d₀ d) (g : MonitorStep d₀ e) : MonitorStep d₀ (if c then d else e) := by
  split
  · exact h
  · exact g

theorem MonitorStep.restartMonitor (h : MonitorStep d₀ d) : MonitorStep d₀ (restartMonitor d) := by
  have hr := h.upd (f := fun p => { p with bleed := 0 })
  unfold Machine.restartMonitor
  exact .ite ⟨hr.retention, fun w => (hr.raised w).of_icu rfl, hr.onlyIn.andThen countF_onlyIn (by simp) (by simp)⟩ h

theorem MonitorStep.takeCells {cells : List Nat} {refB : Nat} (h : MonitorStep d₀ d) : MonitorStep d₀ (takeCells cells refB d) := by
  unfold Machine.takeCells
  exact h.ite (h.upd.ite h.upd)

theorem MonitorStep.refCheck {refB : Nat} (h : MonitorStep d₀ d) : MonitorStep d₀ (refCheck refB d) := by
  unfold Machine.refCheck
  exact h.upd.upd.raise.ite h.upd.upd

theorem MonitorStep.wireTest {moves : List Nat} (h : MonitorStep d₀ d) : MonitorStep d₀ (wireTest moves d) := by
  unfold Machine.wireTest
  exact h.upd.ite h.upd.raise

theorem MonitorStep.takeResults {cells moves : List Nat} {refB : Nat} (h : MonitorStep d₀ d) :
    MonitorStep d₀ (takeResults cells refB moves d) := by
  unfold Machine.takeResults
  exact (h.takeCells.refCheck.wireTest.ite h.takeCells.refCheck).ite h.upd

theorem MonitorStep.noteBeat (h : MonitorStep d₀ d) : MonitorStep d₀ (noteBeat d) := by
  unfold Machine.noteBeat
  exact h.upd.ite h

theorem MonitorStep.mismatchCheck (h : MonitorStep d₀ d) : MonitorStep d₀ (mismatchCheck d) := by
  unfold Machine.mismatchCheck
  exact h.upd.ite ((h.upd.raise.ite h.upd).ite h.upd)

theorem MonitorStep.alarmCheck (h : MonitorStep d₀ d) : MonitorStep d₀ (alarmCheck d) := h.upd.setLevel

theorem MonitorStep.stackLevels (h : MonitorStep d₀ d) : MonitorStep d₀ (stackLevels d) := h.upd.setLevel.setLevel

theorem MonitorStep.chargerStep {current : Nat} (h : MonitorStep d₀ d) : MonitorStep d₀ (chargerStep current d) := by
  unfold Machine.chargerStep
  exact h.upd.ite h.upd

/-! ### What a cycle takes in -/

/-- The supply as a cycle takes its readings up: its instant, its number and the coarse reading. -/
def cycleBegun (coarse : Nat) (d : Device) : Device :=
  updPwr (fun p => { p with coarse := min 0xFFFF coarse, cycleAt := d.now, cycles := p.cycles + 1 }) (restartMonitor d)

/-- A cycle after its checks, before the transitions that the stack makes. -/
def cycleJudged (cells : List Nat) (refB coarse current : Nat) (moves : List Nat) (d : Device) : Device :=
  chargerStep current (stackLevels (alarmCheck (mismatchCheck (noteBeat (takeResults cells refB moves (cycleBegun coarse d))))))

theorem monitorCycle_eq {cells moves : List Nat} {refB coarse current : Nat} :
    monitorCycle cells refB coarse current moves d = supplyByStack (cycleJudged cells refB coarse current moves d) := rfl

theorem cycleJudged_step {cells moves : List Nat} {refB coarse current : Nat} :
    MonitorStep d (cycleJudged cells refB coarse current moves d) :=
  MonitorStep.refl.restartMonitor.upd.takeResults.noteBeat.mismatchCheck.alarmCheck.stackLevels.chargerStep

theorem restartMonitor_pwr : ∃ b, (restartMonitor d).pwr = { d.pwr with bleed := b } := by
  unfold restartMonitor
  split
  · exact ⟨0, rfl⟩
  · exact ⟨_, rfl⟩

theorem noteBeat_pwr : ∃ b, (noteBeat d).pwr = { d.pwr with beatSince := b } := by
  unfold noteBeat
  split
  · exact ⟨some d.now, rfl⟩
  · exact ⟨_, rfl⟩

theorem wireTest_pwr {moves : List Nat} : ∃ w, (wireTest moves d).pwr = { d.pwr with openWire := w } := by
  unfold wireTest
  dsimp only
  split
  · exact ⟨_, rfl⟩
  · exact ⟨_, raise_pwr⟩

theorem mismatchCheck_pwr : ∃ a b c, (mismatchCheck d).pwr = { d.pwr with diffRun := a, sameRun := b, mismatch := c } := by
  unfold mismatchCheck
  dsimp only
  split
  · exact ⟨_, _, _, rfl⟩
  · split
    · split
      · exact ⟨_, _, _, raise_pwr⟩
      · exact ⟨_, _, _, rfl⟩
    · exact ⟨_, _, _, rfl⟩

theorem alarmCheck_pwr : ∃ a, (alarmCheck d).pwr = { d.pwr with cellAlarm := a } := ⟨_, setLevel_pwr⟩

theorem stackLevels_pwr : (stackLevels d).pwr = { d.pwr with sealTripped := decide (d.pwr.coarse < 9000) } := by
  unfold stackLevels
  simp only [setLevel_pwr]
  rfl

theorem chargerStep_pwr {current : Nat} : ∃ c p, (chargerStep current d).pwr = { d.pwr with charger := c, pause := p } := by
  unfold chargerStep
  split
  · exact ⟨_, _, rfl⟩
  · exact ⟨_, _, rfl⟩

/-- The fields of the supply's state that a cycle takes in or leaves, and that its checks do not change. -/
structure SameReadings (p q : Supply) : Prop where
  cells : q.cells = p.cells
  cellsValid : q.cellsValid = p.cellsValid
  coarse : q.coarse = p.coarse
  refB : q.refB = p.refB
  refFail : q.refFail = p.refFail
  refFails : q.refFails = p.refFails
  cycleAt : q.cycleAt = p.cycleAt
  cycles : q.cycles = p.cycles
  st : q.st = p.st
  vinWarn : q.vinWarn = p.vinWarn
  pwrwarnOn : q.pwrwarnOn = p.pwrwarnOn
  sealStep : q.sealStep = p.sealStep

protected theorem SameReadings.trans {p q r : Supply} (h : SameReadings p q) (g : SameReadings q r) : SameReadings p r where
  cells := g.cells.trans h.cells
  cellsValid := g.cellsValid.trans h.cellsValid
  coarse := g.coarse.trans h.coarse
  refB := g.refB.trans h.refB
  refFail := g.refFail.trans h.refFail
  refFails := g.refFails.trans h.refFails
  cycleAt := g.cycleAt.trans h.cycleAt
  cycles := g.cycles.trans h.cycles
  st := g.st.trans h.st
  vinWarn := g.vinWarn.trans h.vinWarn
  pwrwarnOn := g.pwrwarnOn.trans h.pwrwarnOn
  sealStep := g.sealStep.trans h.sealStep

/-- The checks that follow the results leave the readings. -/
theorem checks_sameReadings {current : Nat} :
    SameReadings d.pwr (chargerStep current (stackLevels (alarmCheck (mismatchCheck (noteBeat d))))).pwr := by
  obtain ⟨b, hb⟩ := noteBeat_pwr (d := d)
  obtain ⟨x, y, z, hm⟩ := mismatchCheck_pwr (d := noteBeat d)
  obtain ⟨a, ha⟩ := alarmCheck_pwr (d := mismatchCheck (noteBeat d))
  obtain ⟨c, p, hc⟩ := chargerStep_pwr (current := current) (d := stackLevels (alarmCheck (mismatchCheck (noteBeat d))))
  rw [hc, stackLevels_pwr, ha, hm, hb]
  constructor <;> rfl

/-- Six readings with REF_B in its range are taken. -/
theorem takeResults_good {cells moves : List Nat} {refB : Nat} (hn : cells.length = 6) (hlo : 1244 ≤ refB) (hhi : refB ≤ 1256) :
    SameReadings { d.pwr with cells := cells.map (min 0xFFFF), cellsValid := true, refB := refB, refFails := 0 }
      (takeResults cells refB moves d).pwr := by
  have hin : ¬((decide (refB < 1244) || decide (1256 < refB)) = true) := by simp; omega
  unfold takeResults takeCells refCheck
  simp only [hn, if_true, if_neg hin]
  split
  · obtain ⟨w, hw⟩ := wireTest_pwr (moves := moves) (d := updPwr (fun p => { p with
      refFails := 0, refPasses := p.refPasses + 1, monFault := p.monFault && p.refPasses + 1 < 100 })
      (updPwr (fun p => { p with refB := refB }) (updPwr (fun p => { p with cells := cells.map (min 0xFFFF), cellsValid := true }) d)))
    rw [hw]
    constructor <;> rfl
  · constructor <;> rfl

/-- A cycle with REF_B outside its range: the readings are discarded, and source 152 is raised. -/
theorem takeResults_bad {cells moves : List Nat} {refB : Nat} (hn : cells.length = 6) (hout : refB < 1244 ∨ 1256 < refB) :
    SameReadings { d.pwr with cellsValid := false, refB := refB, refFail := true, refFails := d.pwr.refFails + 1 }
      (takeResults cells refB moves d).pwr ∧ Raised 152 (takeResults cells refB moves d) := by
  have hb : (decide (refB < 1244) || decide (1256 < refB)) = true := by simpa using hout
  unfold takeResults takeCells refCheck
  simp only [hn, if_true, if_pos hb]
  generalize hr : raise 152 _ = r
  have hpwr : SameReadings { d.pwr with cellsValid := false, refB := refB, refFail := true, refFails := d.pwr.refFails + 1 } r.pwr := by
    rw [← hr, raise_pwr]
    constructor <;> rfl
  have hraised : Raised 152 r := hr ▸ raised_raise 152 _
  split
  · obtain ⟨w, hw⟩ := wireTest_pwr (moves := moves) (d := r)
    refine ⟨hpwr.trans ?_, (MonitorStep.refl.wireTest).raised hraised⟩
    rw [hw]
    constructor <;> rfl
  · exact ⟨hpwr, hraised⟩

theorem exec_stackMonitorCycle {cells tapMoves : List Nat} {refB coarse current : Nat} :
    exec (.stackMonitorCycle cells refB coarse current tapMoves) s =
      effect s fun d => onlyIf (decide (d.pwr.cycleAt + 250000 ≤ d.now)) (monitorCycle cells refB coarse current tapMoves) d := rfl

theorem stackMonitorCycle_to {cells tapMoves : List Nat} {refB coarse current : Nat} {P : Device → Prop}
    (hat : s.dev.pwr.cycleAt + 250000 ≤ s.dev.now) (p : P (supplyByStack (cycleJudged cells refB coarse current tapMoves s.dev))) :
    Completes (.stackMonitorCycle cells refB coarse current tapMoves) s P := by
  refine completes_effect _ exec_stackMonitorCycle ?_
  rwa [decide_eq_true hat, onlyIf_true, monitorCycle_eq]

/-- In ARMED the stack makes no transition. -/
theorem supplyByStack_armed (h : d.pwr.st = .armed) : supplyByStack d = d := by
  unfold supplyByStack
  split
  · rfl
  · rw [h]

theorem cycleBegun_readings {coarse : Nat} :
    SameReadings { d.pwr with coarse := min 0xFFFF coarse, cycleAt := d.now, cycles := d.pwr.cycles + 1 } (cycleBegun coarse d).pwr := by
  obtain ⟨b, hb⟩ := restartMonitor_pwr (d := d)
  rw [cycleBegun, updPwr_pwr, hb]
  constructor <;> rfl

/-- The readings after a cycle's checks are those after its results. -/
theorem cycleJudged_readings {cells moves : List Nat} {refB coarse current : Nat} {p : Supply}
    (h : SameReadings p (takeResults cells refB moves (cycleBegun coarse d)).pwr) :
    SameReadings p (cycleJudged cells refB coarse current moves d).pwr := h.trans checks_sameReadings

theorem monitorCycle_takes {cells tapMoves : List Nat} {refB coarse current : Nat} (hat : s.dev.pwr.cycleAt + 250000 ≤ s.dev.now)
    (hn : cells.length = 6) (hlo : 1244 ≤ refB) (hhi : refB ≤ 1256) (hst : s.dev.pwr.st = .armed) :
    Completes (.stackMonitorCycle cells refB coarse current tapMoves) s fun d =>
      d.pwr.cells = cells.map (min 0xFFFF) ∧ d.pwr.cellsValid = true ∧ d.pwr.coarse = min 0xFFFF coarse ∧ d.pwr.refB = refB ∧
      d.pwr.refFails = 0 ∧ d.pwr.refFail = s.dev.pwr.refFail ∧ d.pwr.cycleAt = s.dev.now ∧ d.pwr.cycles = s.dev.pwr.cycles + 1 ∧
      d.pwr.st = .armed ∧ OnlyIn (.pwr :: interruptParts) [0x4540, 0x10048] s.dev d := by
  have hb := cycleBegun_readings (d := s.dev) (coarse := coarse)
  have h := cycleJudged_readings (current := current) (takeResults_good (moves := tapMoves) (d := cycleBegun coarse s.dev) hn hlo hhi)
  have harmed := (h.st.trans hb.st).trans hst
  refine stackMonitorCycle_to hat ?_
  rw [supplyByStack_armed harmed]
  exact ⟨h.cells, h.cellsValid, h.coarse.trans hb.coarse, h.refB, h.refFails, h.refFail.trans hb.refFail, h.cycleAt.trans hb.cycleAt,
    h.cycles.trans hb.cycles, harmed, cycleJudged_step.onlyIn⟩

/-- A cycle whose REF_B check fails, before the transitions. -/
theorem cycleJudged_bad {cells moves : List Nat} {refB coarse current : Nat} (hn : cells.length = 6) (hout : refB < 1244 ∨ 1256 < refB) :
    SameReadings { d.pwr with coarse := min 0xFFFF coarse, cycleAt := d.now, cycles := d.pwr.cycles + 1, cellsValid := false
                              refB := refB, refFail := true, refFails := d.pwr.refFails + 1 }
      (cycleJudged cells refB coarse current moves d).pwr ∧ Raised 152 (cycleJudged cells refB coarse current moves d) := by
  have hb := cycleBegun_readings (d := d) (coarse := coarse)
  obtain ⟨h, hr⟩ := takeResults_bad (moves := moves) (d := cycleBegun coarse d) hn hout
  have hchecks := MonitorStep.refl (d := takeResults cells refB moves (cycleBegun coarse d)) |>.noteBeat.mismatchCheck.alarmCheck.stackLevels
    |>.chargerStep (current := current)
  refine ⟨(SameReadings.trans ?_ h).trans checks_sameReadings, hchecks.raised hr⟩
  exact ⟨hb.cells, rfl, hb.coarse, rfl, rfl, congrArg (· + 1) hb.refFails, hb.cycleAt, hb.cycles, hb.st, hb.vinWarn, hb.pwrwarnOn, hb.sealStep⟩

theorem monitorCycle_discards {cells tapMoves : List Nat} {refB coarse current : Nat} (hat : s.dev.pwr.cycleAt + 250000 ≤ s.dev.now)
    (hn : cells.length = 6) (hout : refB < 1244 ∨ 1256 < refB) (hst : s.dev.pwr.st = .armed) :
    Completes (.stackMonitorCycle cells refB coarse current tapMoves) s fun d =>
      d.pwr.cells = s.dev.pwr.cells ∧ d.pwr.cellsValid = false ∧ d.pwr.refFail = true ∧ d.pwr.refFails = s.dev.pwr.refFails + 1 ∧
      Raised 152 d ∧ OnlyIn (.pwr :: interruptParts) [0x4540, 0x10048] s.dev d := by
  obtain ⟨h, hr⟩ := cycleJudged_bad (d := s.dev) (coarse := coarse) (current := current) (moves := tapMoves) hn hout
  refine stackMonitorCycle_to hat ?_
  rw [supplyByStack_armed (h.st.trans hst)]
  exact ⟨h.cells, h.cellsValid, h.refFail, h.refFails, hr, cycleJudged_step.onlyIn⟩

/-! ### The transitions that the stack makes (Table 14-2) -/

/-- Without valid cell readings the coarse reading is the stack's. -/
theorem stackReading_coarse (h : d.pwr.cellsValid = false) : stackReading d = d.pwr.coarse := by
  have hc : cellsOk d = false := by simp [cellsOk, cellValid, h, List.range_succ]
  rw [stackReading, hc]
  rfl

/-- The fill that a seal left is queued, and the supply but for it stands. -/
theorem fillAfterSeal_pwr : ∃ f, (fillAfterSeal d).pwr = { d.pwr with sealFill := f } := by
  unfold fillAfterSeal
  split
  · exact ⟨_, rfl⟩
  · dsimp only
    split
    · exact ⟨none, Steady.refl.queueFill.queueFill.pwr⟩
    · exact ⟨none, Steady.refl.queueFill.pwr⟩

theorem armNow_pwr : ∃ f, (armNow d).pwr = { d.pwr with st := .armed, sealStep := 0, sealFill := f } := by
  obtain ⟨f, hf⟩ := fillAfterSeal_pwr (d := updPwr (fun p => { p with st := .armed, sealStep := 0 }) d)
  exact ⟨f, Steady.refl.resumeFormat.leaveNow.pwr.trans hf⟩

theorem monitorCycle_arms {cells tapMoves : List Nat} {refB coarse current : Nat} (hat : s.dev.pwr.cycleAt + 250000 ≤ s.dev.now)
    (hn : cells.length = 6) (hst : s.dev.pwr.st = .unarmed) (hout : refB < 1244) (hc : 12000 ≤ coarse) (hw : warning s.dev = false) :
    Completes (.stackMonitorCycle cells refB coarse current tapMoves) s fun d => d.pwr.st = .armed ∧ d.pwr.sealStep = 0 := by
  obtain ⟨h, -⟩ := cycleJudged_bad (d := s.dev) (coarse := coarse) (current := current) (moves := tapMoves) hn (.inl hout)
  have honly := cycleJudged_step (d := s.dev) (cells := cells) (refB := refB) (coarse := coarse) (current := current) (moves := tapMoves)
    |>.onlyIn
  refine stackMonitorCycle_to hat ?_
  generalize cycleJudged cells refB coarse current tapMoves s.dev = e at h honly
  have hadmit : admitLevel e = true := by
    rw [admitLevel, stackReading_coarse h.cellsValid, h.coarse]
    simp
    omega
  have hwarn : warning e = false := by
    rw [warning, h.vinWarn, h.pwrwarnOn, honly.2 0xF004 (by decide)]
    exact hw
  have harms : supplyByStack e = armNow e := by
    unfold supplyByStack
    simp [hadmit, h.st.trans hst, hwarn]
  obtain ⟨f, hf⟩ := armNow_pwr (d := e)
  rw [harms, hf]
  exact ⟨rfl, rfl⟩

theorem stackLevels_levels (h : d.icu.retention = false) :
    ((stackLevels d).src 145).level = !admitLevel d ∧ ((stackLevels d).src 146).level = decide (d.pwr.coarse < 9000) := by
  have hadmit : admitLevel (updPwr (fun p => { p with sealTripped := d.pwr.coarse < 9000 }) d) = admitLevel d := rfl
  have htrip : (updPwr (fun p => { p with sealTripped := d.pwr.coarse < 9000 }) d).pwr.sealTripped = decide (d.pwr.coarse < 9000) := rfl
  have hret : (updPwr (fun p => { p with sealTripped := d.pwr.coarse < 9000 }) d).icu.retention = false := h
  unfold stackLevels
  generalize updPwr (fun p => { p with sealTripped := d.pwr.coarse < 9000 }) d = e at *
  dsimp only
  rw [hadmit]
  refine ⟨?_, ?_⟩
  · rw [setLevel_level_other (by decide), setLevel_level 145 _ _ hret]
  · rw [setLevel_level 146 _ _ (setLevel_retention.trans hret), htrip]

theorem chargerStep_icu {current : Nat} : (chargerStep current d).icu = d.icu := by
  unfold chargerStep
  split <;> rfl

/-- After the levels and the charger the readings are as before. -/
theorem levels_sameReadings {current : Nat} : SameReadings d.pwr (chargerStep current (stackLevels d)).pwr := by
  obtain ⟨c, p, hc⟩ := chargerStep_pwr (current := current) (d := stackLevels d)
  rw [hc, stackLevels_pwr]
  constructor <;> rfl

theorem monitorCycle_belowAdmission {cells tapMoves : List Nat} {refB coarse current : Nat}
    (hat : s.dev.pwr.cycleAt + 250000 ≤ s.dev.now) (hn : cells.length = 6) (hst : s.dev.pwr.st = .unarmed) (hout : refB < 1244)
    (hc : coarse < 12000) (hret : s.dev.icu.retention = false) :
    Completes (.stackMonitorCycle cells refB coarse current tapMoves) s fun d =>
      d.pwr.st = .unarmed ∧ (d.src 145).level = true ∧ ((d.src 146).level = true ↔ coarse < 9000) ∧
      OnlyIn (.pwr :: interruptParts) [0x4540, 0x10048] s.dev d := by
  obtain ⟨h, -⟩ := cycleJudged_bad (d := s.dev) (coarse := coarse) (current := current) (moves := tapMoves) hn (.inl hout)
  have honly := cycleJudged_step (d := s.dev) (cells := cells) (refB := refB) (coarse := coarse) (current := current) (moves := tapMoves)
    |>.onlyIn
  have hstep : MonitorStep s.dev (alarmCheck (mismatchCheck (noteBeat (takeResults cells refB tapMoves (cycleBegun coarse s.dev))))) :=
    MonitorStep.refl.restartMonitor.upd.takeResults.noteBeat.mismatchCheck.alarmCheck
  refine stackMonitorCycle_to hat ?_
  unfold cycleJudged at h honly ⊢
  generalize alarmCheck (mismatchCheck (noteBeat (takeResults cells refB tapMoves (cycleBegun coarse s.dev)))) = a at h honly hstep ⊢
  have hsame := levels_sameReadings (d := a) (current := current)
  have hadmit {d : Device} (hv : d.pwr.cellsValid = false) (hd : d.pwr.coarse = min 0xFFFF coarse) : admitLevel d = false := by
    rw [admitLevel, stackReading_coarse hv, hd]
    simp
    omega
  have hcoarse : a.pwr.coarse = min 0xFFFF coarse := hsame.coarse.symm.trans h.coarse
  obtain ⟨h145, h146⟩ := stackLevels_levels (hstep.retention.trans hret)
  rw [hadmit (hsame.cellsValid.symm.trans h.cellsValid) hcoarse] at h145
  rw [hcoarse] at h146
  have hstays : supplyByStack (chargerStep current (stackLevels a)) = chargerStep current (stackLevels a) := by
    unfold supplyByStack
    rw [hadmit h.cellsValid h.coarse]
    rfl
  rw [hstays]
  unfold Device.src at h145 h146 ⊢
  rw [chargerStep_icu]
  refine ⟨h.st.trans hst, h145, ?_, honly⟩
  rw [h146, decide_eq_true_eq]
  omega

theorem monitorCycle_early {cells tapMoves : List Nat} {refB coarse current : Nat} (h : s.dev.now < s.dev.pwr.cycleAt + 250000) :
    Completes (.stackMonitorCycle cells refB coarse current tapMoves) s fun d => d = s.dev := by
  refine completes_effect _ exec_stackMonitorCycle ?_
  rw [decide_eq_false h.not_ge, onlyIf_false]

/-! ### The heartbeat (R392) -/

theorem heartbeatLoss_takes {quiet : Nat} (hc : s.dev.pwr.chainLost = false) (hq : 50000 ≤ quiet) (hret : s.dev.icu.retention = false) :
    Completes (.heartbeatLoss quiet) s fun d =>
      d.pwr = { s.dev.pwr with chainLost := true, cellsValid := false, beatSince := none } ∧ (d.src 147).level = true ∧
      d.regF 0x10048 31 16 = min 65535 (s.dev.regF 0x10048 31 16 + 1) ∧ OnlyIn (.pwr :: interruptParts) [0x10048, 0x4540] s.dev d := by
  refine completes_effect _ rfl ?_
  rw [hc, decide_eq_true hq, Bool.not_false, Bool.true_and, onlyIf_true]
  have honly : OnlyIn (.pwr :: interruptParts) [0x10048, 0x4540] s.dev
      (countF 0x10048 31 16 (updPwr (fun p => { p with chainLost := true, cellsValid := false, beatSince := none }) s.dev)) :=
    OnlyIn.refl.andThen updPwr_onlyIn (by simp) (by simp) |>.andThen countF_onlyIn (by simp) (by simp)
  refine ⟨setLevel_pwr, setLevel_level 147 _ _ hret, ?_, honly.andThen setLevel_onlyIn (by simp) (by simp)⟩
  rw [regF_eq_of_onlyIn setLevel_onlyIn (by decide), countF_regF (by decide) (by decide)]
  rfl

theorem heartbeatLoss_early {quiet : Nat} (hq : quiet < 50000) : Completes (.heartbeatLoss quiet) s fun d => d = s.dev := by
  refine completes_effect _ rfl ?_
  rw [decide_eq_false hq.not_ge, Bool.and_false, onlyIf_false]

theorem heartbeatRestored_takes {t present : Nat} (hc : s.dev.pwr.chainLost = true) (hb : s.dev.pwr.beatSince = some t)
    (hp : 500000 ≤ present) (hret : s.dev.icu.retention = false) :
    Completes (.heartbeatRestored present) s fun d =>
      d.pwr = { s.dev.pwr with chainLost := false, beatSince := none } ∧ (d.src 147).level = false ∧
      OnlyIn (.pwr :: interruptParts) [0x4540] s.dev d := by
  refine completes_effect _ rfl ?_
  rw [hc, hb, decide_eq_true hp, Option.isSome_some, Bool.true_and, Bool.true_and, onlyIf_true]
  exact setLevel_updPwr_spec hret

theorem heartbeatRestored_untimely {present : Nat} (h : s.dev.pwr.beatSince = none ∨ present < 500000) :
    Completes (.heartbeatRestored present) s fun d => d = s.dev := by
  refine completes_effect _ rfl ?_
  rcases h with h | h
  · rw [h, Option.isSome_none, Bool.and_false, Bool.false_and, onlyIf_false]
  · rw [decide_eq_false h.not_ge, Bool.and_false, onlyIf_false]

end

/-- Settles O43, clause by clause: what a cycle's parts leave of the readings, then the one transition that the stack makes, and the
heartbeat. -/
theorem stackMonitorReadsAndJudges : Obligations.StackMonitorReadsAndJudges :=
  ⟨fun _ _ _ _ _ _ => monitorCycle_takes, fun _ _ _ _ _ _ => monitorCycle_discards, fun _ _ _ _ _ _ => monitorCycle_arms,
    fun _ _ _ _ _ _ => monitorCycle_belowAdmission, fun _ _ _ _ _ _ => monitorCycle_early, fun _ _ => heartbeatLoss_takes,
    fun _ _ => heartbeatLoss_early, fun _ _ _ => heartbeatRestored_takes, fun _ _ => heartbeatRestored_untimely⟩

end Sys2Proof.Machine
end


section
/-!
PROOFS. Warnings, the return condition, the ride-through, and the beginning of a seal.
-/

namespace Sys2Proof.Machine

section
variable {s : State} {d e : Device}

/-! ### The drive stops and parks -/

/-- What the sled's park may change; the drive's stop changes the loops beside. -/
def driveParts : List Block := [.motion, .wrc, .icu, .bus]

/-- The registers that they may change: the inhibit causes, the count of sectors cut, the late masks, and the sled's counters. -/
def driveRegs : List Nat := [0xB01C, 0xB0DC, 0x4540, 0x9050]

theorem OnlyIn.refreshes (h : OnlyIn driveParts driveRegs d e) : OnlyIn driveParts driveRegs d (refreshInhibit e) :=
  h.andThen refreshInhibit_onlyIn

protected theorem OnlyIn.ite {bs : List Block} {os : List Nat} {d₀ : Device} {c : Prop} [Decidable c] (h : OnlyIn bs os d₀ d)
    (g : OnlyIn bs os d₀ e) : OnlyIn bs os d₀ (if c then d else e) := by
  split
  · exact h
  · exact g

theorem OnlyIn.moves {f : Motion → Motion} (h : OnlyIn driveParts driveRegs d e) : OnlyIn driveParts driveRegs d (updMotion f e) :=
  h.andThen updMotion_onlyIn

theorem rejectMotion_onlyIn : OnlyIn driveParts driveRegs d (rejectMotion d) :=
  OnlyIn.refl.andThen countF_onlyIn |>.andThen raise_onlyIn

theorem startUnhomedPark_onlyIn : OnlyIn driveParts driveRegs d (startUnhomedPark d) := by
  unfold startUnhomedPark
  have hplan : OnlyIn driveParts driveRegs d (if d.motion.ramping then d else withPlan (planSpeed (-(speedMax d)) d) d) :=
    OnlyIn.refl.ite OnlyIn.refl.moves
  exact (hplan.moves.refreshes.andThen innerRamp_onlyIn).ite hplan.moves.refreshes

theorem startMove_onlyIn {goal : Int} {park : Bool} : OnlyIn driveParts driveRegs d (startMove goal park d) :=
  OnlyIn.refl.moves.moves.refreshes

theorem startHome_onlyIn {after : AfterHome} : OnlyIn driveParts driveRegs d (startHome after d) := OnlyIn.refl.moves.moves.refreshes

theorem doPark_onlyIn : OnlyIn driveParts driveRegs d (doPark d) := by
  unfold doPark
  split
  · exact rejectMotion_onlyIn
  · exact OnlyIn.refl.moves
  · exact OnlyIn.refl.ite startUnhomedPark_onlyIn
  · exact startMove_onlyIn.ite startUnhomedPark_onlyIn
  · exact startHome_onlyIn.ite startMove_onlyIn
  · exact startMove_onlyIn
  · exact startMove_onlyIn

theorem parkDrive_onlyIn : OnlyIn driveParts driveRegs d (parkDrive d) := by
  unfold parkDrive
  exact OnlyIn.refl.ite (OnlyIn.refl.moves.trans doPark_onlyIn)

theorem brakeDrive_onlyIn : OnlyIn (.servo :: driveParts) driveRegs d (brakeDrive d) := by
  have hopen : OnlyIn (.servo :: driveParts) driveRegs d (openLoop 3 (openLoop 2 (openLoop 1 (openLoop 0 d)))) :=
    OnlyIn.refl.andThen openLoop_onlyIn |>.andThen openLoop_onlyIn |>.andThen openLoop_onlyIn |>.andThen openLoop_onlyIn
  refine hopen.trans ⟨fun p hp => ?_, fun _ _ => rfl⟩
  cases p with
  | servo => simp at hp
  | _ => rfl

/-! ### Warnings (R372, R375, R376) -/

theorem warning_congr (hv : e.pwr.vinWarn = d.pwr.vinWarn) (ho : e.pwr.pwrwarnOn = d.pwr.pwrwarnOn) (hr : e.reg 0xF004 = d.reg 0xF004) :
    warning e = warning d := by
  rw [warning, hv, ho, hr, warning]

theorem warning_of_vin (h : d.pwr.vinWarn = true) : warning d = true := by simp [warning, h]

theorem withWarning_begins {f : Device → Device} (h : warning d = false) (h' : warning (f d) = true) : withWarning f d = warningBegins (f d) := by
  simp [withWarning, h, h']

theorem withWarning_ends {f : Device → Device} (h : warning d = true) (h' : warning (f d) = false) :
    withWarning f d = updPwr (fun p => { p with clearSince := (f d).now, returned := false }) (f d) := by
  simp [withWarning, h, h']

theorem updPwr_updPwr {f g : Supply → Supply} : updPwr g (updPwr f d) = updPwr (fun p => g (f p)) d := rfl

theorem updPwr_now {f : Supply → Supply} : (updPwr f d).now = d.now := rfl

theorem updPwr_regF {f : Supply → Supply} {o hi lo : Nat} : (updPwr f d).regF o hi lo = d.regF o hi lo := rfl

/-- What the start of a ride-through sets. -/
def ridden (d : Device) (p : Supply) : Supply :=
  { p with returned := false, onHawk := true, charger := .off, pause := false, bleed := 0, testRunning := false, st := .rideThrough
           windowStart := d.now, windowMs := d.regF 0xF004 6 0 }

theorem warningBegins_armed (h : d.pwr.st = .armed) : warningBegins d = updPwr (ridden d) d := by
  unfold warningBegins
  simp only [updPwr_pwr, h, beginRide, stopBleedAndTest, loadOnHawk, chargerOff, updPwr_updPwr, updPwr_now, updPwr_regF]
  rfl

theorem warningBegins_reArming (h : d.pwr.st = .reArming) :
    warningBegins d = updPwr (fun p => { p with
      returned := false, st := .sealed, onHawk := true, charger := .off, pause := false, bleed := 0, testRunning := false }) d := by
  unfold warningBegins
  simp only [updPwr_pwr, h, stopBleedAndTest, loadOnHawk, chargerOff, updPwr_updPwr]

/-- VIN_WARN as the comparator shows it, with its source. -/
def vinWarnIs (b : Bool) (d : Device) : Device := setLevel 144 b (updPwr (fun p => { p with vinWarn := b }) d)

theorem exec_vinWarnAssert : exec .vinWarnAssert s = effect s fun d => onlyIf (!d.pwr.vinWarn) (withWarning (vinWarnIs true)) d := rfl

theorem exec_vinWarnClear : exec .vinWarnClear s = effect s fun d => onlyIf d.pwr.vinWarn (withWarning (vinWarnIs false)) d := rfl

theorem vinWarnIs_pwr {b : Bool} : (vinWarnIs b d).pwr = { d.pwr with vinWarn := b } := setLevel_pwr

theorem vinWarnIs_onlyIn {b : Bool} : OnlyIn (.pwr :: interruptParts) [0x4540] d (vinWarnIs b d) := setLevel_updPwr_onlyIn

theorem vinWarnAssert_to {P : Device → Prop} (hw : warning s.dev = false) (hv : s.dev.pwr.vinWarn = false)
    (p : P (warningBegins (vinWarnIs true s.dev))) : Completes .vinWarnAssert s P := by
  refine completes_effect _ exec_vinWarnAssert ?_
  rwa [hv, Bool.not_false, onlyIf_true, withWarning_begins hw (warning_of_vin (by rw [vinWarnIs_pwr]))]

theorem vinWarnAssert_rides (hst : s.dev.pwr.st = .armed) (hw : warning s.dev = false) (hv : s.dev.pwr.vinWarn = false)
    (hret : s.dev.icu.retention = false) :
    Completes .vinWarnAssert s fun d =>
      d.pwr = { s.dev.pwr with
        vinWarn := true, st := .rideThrough, onHawk := true, charger := .off, pause := false, bleed := 0, testRunning := false,
        windowStart := s.dev.now, windowMs := s.dev.regF 0xF004 6 0, returned := false } ∧
      (d.src 144).level = true ∧ OnlyIn (.pwr :: interruptParts) [0x4540] s.dev d := by
  have honly : OnlyIn (.pwr :: interruptParts) [0x4540] s.dev (vinWarnIs true s.dev) := vinWarnIs_onlyIn
  refine vinWarnAssert_to hw hv ?_
  rw [warningBegins_armed (by rw [vinWarnIs_pwr]; exact hst)]
  refine ⟨?_, setLevel_level 144 true _ hret, honly.andThen updPwr_onlyIn⟩
  rw [updPwr_pwr, vinWarnIs_pwr, ridden, honly.now_eq (by decide), regF_eq_of_onlyIn honly (by decide)]

theorem vinWarnAssert_seals (hst : s.dev.pwr.st = .reArming) (hw : warning s.dev = false) (hv : s.dev.pwr.vinWarn = false) :
    Completes .vinWarnAssert s fun d => d.pwr.st = .sealed ∧ d.pwr.onHawk = true ∧ OnlyIn (.pwr :: interruptParts) [0x4540] s.dev d := by
  refine vinWarnAssert_to hw hv ?_
  rw [warningBegins_reArming (by rw [vinWarnIs_pwr]; exact hst)]
  exact ⟨rfl, rfl, vinWarnIs_onlyIn.andThen updPwr_onlyIn⟩

/-- The reads aborted and the laser off, as a warning in UNARMED begins (R375). -/
def readsAborted (d : Device) : Device := abortReads (laserOff (stopBleedAndTest (chargerOff d)))

theorem readsAborted_pwr : (readsAborted d).pwr = { d.pwr with charger := .off, pause := false, bleed := 0, testRunning := false } := by
  have h : Steady (laserOff (stopBleedAndTest (chargerOff d))) (readsAborted d) := by
    unfold readsAborted abortReads
    exact (Steady.refl.foldl .finish).dropReads
  rw [h.pwr]
  rfl

theorem readsAborted_reads : (readsAborted d).rdc.clusters = [] := dropReads_all

/-- The load on the Hawk and the drive marked parked, before it stops and parks. -/
def darkened (d : Device) : Device := loadOnHawk (updGen (fun g => { g with parked := true }) (readsAborted d))

theorem darkened_pwr : (darkened d).pwr = { (readsAborted d).pwr with onHawk := true, charger := .off, pause := false } := rfl

theorem darkened_parked : (darkened d).gen.parked = true := rfl

theorem darkened_reads : (darkened d).rdc.clusters = [] := by
  simp only [darkened, loadOnHawk, chargerOff, updPwr_rdc, updGen_rdc]
  exact readsAborted_reads

theorem warnUnarmed_eq (h : d.pwr.sealTripped = false) : warnUnarmed d = parkDrive (brakeDrive (darkened d)) := by
  have ht : (updGen (fun g => { g with parked := true }) (readsAborted d)).pwr.sealTripped = false := by
    rw [updGen_pwr, readsAborted_pwr]
    exact h
  unfold warnUnarmed darkened
  unfold readsAborted at ht ⊢
  dsimp only
  rw [ht]
  rfl

theorem warnUnarmed_parks (h : d.pwr.sealTripped = false) :
    (warnUnarmed d).pwr.st = d.pwr.st ∧ (warnUnarmed d).pwr.onHawk = true ∧ (warnUnarmed d).gen.parked = true ∧
    (warnUnarmed d).rdc.clusters = [] := by
  have honly : OnlyIn (.servo :: driveParts) driveRegs (darkened d) (warnUnarmed d) :=
    warnUnarmed_eq h ▸ brakeDrive_onlyIn.andThen parkDrive_onlyIn
  rw [honly.1 .pwr (by decide), honly.1 .gen (by decide), honly.1 .rdc (by decide), darkened_pwr, readsAborted_pwr]
  exact ⟨rfl, rfl, darkened_parked, darkened_reads⟩

theorem vinWarnAssert_parks (hst : s.dev.pwr.st = .unarmed) (hw : warning s.dev = false) (hv : s.dev.pwr.vinWarn = false)
    (ht : s.dev.pwr.sealTripped = false) :
    Completes .vinWarnAssert s fun d => d.pwr.st = .unarmed ∧ d.pwr.onHawk = true ∧ d.gen.parked = true ∧ d.rdc.clusters = [] := by
  have hpwr := vinWarnIs_pwr (d := s.dev) (b := true)
  have hbegins : warningBegins (vinWarnIs true s.dev) = warnUnarmed (updPwr (fun p => { p with returned := false }) (vinWarnIs true s.dev)) := by
    unfold warningBegins
    simp only [updPwr_pwr, hpwr, hst]
  refine vinWarnAssert_to hw hv ?_
  rw [hbegins]
  obtain ⟨h1, h2, h3, h4⟩ := warnUnarmed_parks (d := updPwr (fun p => { p with returned := false }) (vinWarnIs true s.dev))
    (by rw [updPwr_pwr, hpwr]; exact ht)
  refine ⟨h1.trans ?_, h2, h3, h4⟩
  rw [updPwr_pwr, hpwr]
  exact hst

theorem vinWarnClear_clears (hv : s.dev.pwr.vinWarn = true) (ho : s.dev.pwr.pwrwarnOn = true) (hret : s.dev.icu.retention = false) :
    Completes .vinWarnClear s fun d =>
      d.pwr = { s.dev.pwr with vinWarn := false, clearSince := s.dev.now, returned := false } ∧ (d.src 144).level = false ∧
      OnlyIn (.pwr :: interruptParts) [0x4540] s.dev d := by
  have honly : OnlyIn (.pwr :: interruptParts) [0x4540] s.dev (vinWarnIs false s.dev) := vinWarnIs_onlyIn
  have hclear : warning (vinWarnIs false s.dev) = false := by
    rw [warning, vinWarnIs_pwr]
    simp [ho]
  refine completes_effect _ exec_vinWarnClear ?_
  rw [hv, onlyIf_true, withWarning_ends (warning_of_vin hv) hclear]
  refine ⟨?_, setLevel_level 144 false _ hret, honly.andThen updPwr_onlyIn⟩
  rw [updPwr_pwr, vinWarnIs_pwr, honly.now_eq (by decide)]

/-! ### IN_PWRWARN (R372, R419) -/

theorem exec_pwrwarnInputChange {on : Bool} {held : Nat} :
    exec (.pwrwarnInputChange on held) s = effect s (onlyIf (decide (inputFilter s.dev 0 ≤ held)) (takePwrwarn on)) := rfl

theorem pwrwarnInputChange_rides {held : Nat} (hst : s.dev.pwr.st = .armed) (hw : warning s.dev = false)
    (hen : wbit (s.dev.reg 0xF004) 8 = true) (hheld : s.dev.regF 0x12018 7 0 * 250 ≤ held) :
    Completes (.pwrwarnInputChange false held) s fun d =>
      d.pwr.st = .rideThrough ∧ d.pwr.pwrwarnOn = false ∧ d.pwr.onHawk = true ∧ d.pwr.windowStart = s.dev.now ∧
      OnlyIn (.pwr :: interruptParts) [0x4540] s.dev d := by
  refine completes_effect _ exec_pwrwarnInputChange ?_
  rw [decide_eq_true (show inputFilter s.dev 0 ≤ held from hheld), onlyIf_true]
  unfold takePwrwarn
  have honly : OnlyIn (.pwr :: interruptParts) [0x4540] s.dev
      (setLevel 170 false (updPwr (fun p => { p with pwrwarnOn := false, pwrwarn := !false }) s.dev)) := setLevel_updPwr_onlyIn
  have hpwr : (setLevel 170 false (updPwr (fun p => { p with pwrwarnOn := false, pwrwarn := !false }) s.dev)).pwr =
      { s.dev.pwr with pwrwarnOn := false, pwrwarn := true } := setLevel_pwr
  have hbegun : warning (setLevel 170 false (updPwr (fun p => { p with pwrwarnOn := false, pwrwarn := !false }) s.dev)) = true := by
    rw [warning, hpwr, honly.2 0xF004 (by decide), hen]
    simp
  rw [withWarning_begins hw hbegun, warningBegins_armed (by rw [hpwr]; exact hst)]
  refine ⟨rfl, ?_, rfl, honly.now_eq (by decide), honly.andThen updPwr_onlyIn⟩
  rw [updPwr_pwr, hpwr]
  rfl

theorem pwrwarnInputChange_bounce {on : Bool} {held : Nat} (h : held < s.dev.regF 0x12018 7 0 * 250) :
    Completes (.pwrwarnInputChange on held) s fun d => d = s.dev := by
  refine completes_effect _ exec_pwrwarnInputChange ?_
  rw [decide_eq_false (show ¬inputFilter s.dev 0 ≤ held from h.not_ge), onlyIf_false]

/-! ### The return condition (R371, R377) -/

theorem returnHolds_calm (h : returnHolds d = true) : warning d = false := by
  simp only [returnHolds, Bool.and_eq_true, Bool.not_eq_true'] at h
  exact h.1

theorem loadOnVin_pwr : ∃ c, (loadOnVin d).pwr = { d.pwr with onHawk := false, charger := c } := by
  obtain ⟨c, hc⟩ := chargerOn_eq (d := updPwr (fun p => { p with onHawk := false }) d)
  exact ⟨c, by rw [loadOnVin, hc]; rfl⟩

theorem loadOnVin_onlyIn : OnlyIn [.pwr] [] d (loadOnVin d) := by
  obtain ⟨c, hc⟩ := chargerOn_eq (d := updPwr (fun p => { p with onHawk := false }) d)
  rw [loadOnVin, hc]
  exact updPwr_onlyIn.trans updPwr_onlyIn

theorem exec_returnCondition : exec .returnCondition s = execReturnCondition s := rfl

theorem execReturnCondition_eq : execReturnCondition s = effect s fun d => onlyIf (returnHolds d) takeReturn d := by
  unfold execReturnCondition
  rfl

theorem returnCondition_to {P : Device → Prop} (hr : returnHolds s.dev = true) (p : P (takeReturn s.dev)) :
    Completes .returnCondition s P := by
  refine completes_effect _ (exec_returnCondition.trans execReturnCondition_eq) ?_
  rwa [hr, onlyIf_true]

theorem returnCondition_arms (hst : s.dev.pwr.st = .rideThrough) (hr : returnHolds s.dev = true) (hadmit : 12000 ≤ stackReading s.dev) :
    Completes .returnCondition s fun d =>
      d.pwr.st = .armed ∧ d.pwr.onHawk = false ∧ d.pwr.rides = min 0xFFFF (s.dev.pwr.rides + 1) ∧ Raised 150 d ∧
      OnlyIn (.pwr :: interruptParts) [0x4540] s.dev d := by
  obtain ⟨c, hc⟩ := loadOnVin_pwr (d := updPwr (fun p => { p with returned := true }) s.dev)
  have honly : OnlyIn [.pwr] [] s.dev (loadOnVin (updPwr (fun p => { p with returned := true }) s.dev)) :=
    updPwr_onlyIn.trans loadOnVin_onlyIn
  have hover : takeReturn s.dev = rideOver (loadOnVin (updPwr (fun p => { p with returned := true }) s.dev)) := by
    unfold takeReturn
    rw [hst]
    dsimp only
    generalize loadOnVin (updPwr (fun p => { p with returned := true }) s.dev) = e at hc honly ⊢
    have hadmit' : admitLevel e = true := by
      have hread : stackReading e = stackReading s.dev := by simp [stackReading, cellsOk, cellValid, hc]
      rw [admitLevel, hread, decide_eq_true hadmit]
    have hw : warning e = false := by
      rw [warning_congr (d := s.dev) (by rw [hc]; rfl) (by rw [hc]; rfl) (honly.2 _ List.not_mem_nil)]
      exact returnHolds_calm hr
    have hste : e.pwr.st = .rideThrough := by rw [hc]; exact hst
    have hret : e.pwr.returned = true := by rw [hc]; rfl
    unfold supplyByStack
    simp [hadmit', hste, hw, hret]
  refine returnCondition_to hr ?_
  rw [hover]
  refine ⟨congrArg Supply.st raise_pwr, ?_, ?_, raised_raise 150 _,
    (honly.mono (by decide) (by decide)).trans raise_updPwr_onlyIn⟩
  · rw [rideOver, raise_pwr, updPwr_pwr, hc]
  · rw [rideOver, raise_pwr, updPwr_pwr, hc]
    rfl

theorem returnCondition_reArms (hst : s.dev.pwr.st = .sealed) (hr : returnHolds s.dev = true) :
    Completes .returnCondition s fun d => d.pwr.st = .reArming ∧ d.pwr.onHawk = false ∧ OnlyIn [.pwr] [] s.dev d := by
  have htake : takeReturn s.dev = beginReArm s.dev := by
    unfold takeReturn
    rw [hst]
  obtain ⟨c, hc⟩ := loadOnVin_pwr (d := updPwr (fun p => { p with st := .reArming, returned := true }) s.dev)
  refine returnCondition_to hr ?_
  rw [htake, beginReArm]
  exact ⟨by rw [hc]; rfl, by rw [hc], updPwr_onlyIn.trans loadOnVin_onlyIn⟩

theorem returnCondition_sealing (hst : s.dev.pwr.st = .sealing) : Completes .returnCondition s fun d => d = s.dev := by
  refine completes_effect _ (exec_returnCondition.trans execReturnCondition_eq) ?_
  cases returnHolds s.dev with
  | false => rfl
  | true =>
    rw [onlyIf_true]
    unfold takeReturn
    rw [hst]

/-! ### The ride-through ends in a seal (R378, R379) -/

/-- The supply as a seal begins; `r` is the ring being written. -/
def sealBegun (now : Nat) (r : Option Nat) (p : Supply) : Supply :=
  { p with onHawk := true, charger := .off, pause := false, bleed := 0, testRunning := false, st := .sealing, sealStep := 1
           sealStart := now, sealRing := r }

/-- No waiting command is left after a drop (R320). -/
theorem dropWaiting_kept : ∀ x ∈ (dropWaiting d).hif.cmds, sealDrops x = false := by
  intro x hx
  unfold dropWaiting at hx
  simp only [updHif_hif, List.mem_filter, Bool.not_eq_true'] at hx
  exact hx.2

theorem rewindRing_onlySqs {n : Nat} : ∃ q, rewindRing n d = { d with hif := { d.hif with sqs := q } } := by
  unfold rewindRing
  dsimp only
  split
  · exact ⟨d.hif.sqs, rfl⟩
  · exact ⟨_, rfl⟩

theorem foldl_rewindRing_onlySqs {l : List Nat} : ∃ q, l.foldl (fun d n => rewindRing n d) d = { d with hif := { d.hif with sqs := q } } := by
  induction l generalizing d with
  | nil => exact ⟨d.hif.sqs, rfl⟩
  | cons n l ih =>
    obtain ⟨q, hq⟩ := rewindRing_onlySqs (d := d) (n := n)
    obtain ⟨q', hq'⟩ := ih (d := rewindRing n d)
    exact ⟨q', by rw [List.foldl_cons, hq', hq]⟩

/-- Waiting commands are dropped, and the supply, the polling and every detection stand. -/
theorem dropWaiting_steady : Steady d (dropWaiting d) := by
  obtain ⟨q, hq⟩ := foldl_rewindRing_onlySqs (d := d) (l := List.range 8)
  refine ⟨?_, ?_, ?_, ?_, fun _ => dropWaiting_kept, ?_, ?_⟩
  all_goals
    unfold dropWaiting
    rw [hq]
  · rfl
  · rfl
  · rfl
  · rfl
  · exact id
  · exact fun _ w => w.of_icu rfl

/-- The supply enters SEALING, and source 148 is raised. -/
def sealStarted (r : Option Nat) (d : Device) : Device :=
  raise 148 (updPwr (fun p => { p with st := .sealing, sealStep := 1, sealStart := d.now, sealRing := r }) (stopBleedAndTest (loadOnHawk d)))

/-- Topcoat and the catch-up end, and the stop of polling is an excursion. -/
def sealTold (d : Device) : Device := excTake 5 4 0 (stopCatchup (if d.gen.mode = .topcoat then setMode .undercoat d else tellMode d))

/-- Polling stops for a seal. -/
def pollStopped : Device → Device := updHif fun h => { h with pollSeal := true, polling := false, pollNow := false }

theorem beginSeal_eq : ∃ r, beginSeal d = pumpTwin (dropWaiting (pollStopped (sealTold (sealStarted r d)))) := ⟨_, rfl⟩

theorem sealStarted_pwr {r : Option Nat} : (sealStarted r d).pwr = sealBegun d.now r d.pwr := raise_pwr

theorem sealTold_steady : Steady d (sealTold d) := (Steady.refl.setMode.ite Steady.refl.tellMode).stopCatchup.excTake

theorem Detected.pollStopped {n : Nat} (h : Detected n d) : Detected n (pollStopped d) := h.of_icu rfl

/-- What a seal's beginning sets, whatever else it brings about (R379). -/
theorem beginSeal_spec : ∃ r,
    (beginSeal d).pwr = sealBegun d.now r d.pwr ∧ (beginSeal d).hif.pollSeal = true ∧ (beginSeal d).hif.polling = false ∧
    (∀ x ∈ (beginSeal d).hif.cmds, sealDrops x = false) ∧ Raised 148 (beginSeal d) := by
  obtain ⟨r, hr⟩ := beginSeal_eq (d := d)
  have hend : Steady (dropWaiting (pollStopped (sealTold (sealStarted r d)))) (beginSeal d) := hr ▸ Steady.refl.pumpTwin
  have hall := dropWaiting_steady.trans hend
  have h148 : Detected 148 (sealStarted r d) := detected_raise
  exact ⟨r, hall.pwr.trans (sealTold_steady.pwr.trans sealStarted_pwr), hall.pollSeal, hall.polling, hend.kept dropWaiting_kept,
    (hall.detected 148 (sealTold_steady.detected 148 h148).pollStopped).raised⟩

theorem exec_rideThroughWindowExpiry : exec .rideThroughWindowExpiry s = effect s fun d =>
    onlyIf (d.pwr.st = .rideThrough && decide (d.pwr.windowStart + d.pwr.windowMs * ticksPerMs ≤ d.now)) beginSeal d := rfl

theorem rideThroughWindowExpiry_seals (hst : s.dev.pwr.st = .rideThrough)
    (hover : s.dev.pwr.windowStart + s.dev.pwr.windowMs * 25000 ≤ s.dev.now) :
    Completes .rideThroughWindowExpiry s fun d =>
      d.pwr.st = .sealing ∧ d.pwr.sealStep = 1 ∧ d.pwr.sealStart = s.dev.now ∧ d.hif.pollSeal = true ∧ d.hif.polling = false ∧
      (∀ x ∈ d.hif.cmds, sealDrops x = false) ∧ Raised 148 d := by
  obtain ⟨r, hpwr, hseal, hpoll, hkept, hraised⟩ := beginSeal_spec (d := s.dev)
  refine completes_effect _ exec_rideThroughWindowExpiry ?_
  have hdue : s.dev.pwr.windowStart + s.dev.pwr.windowMs * ticksPerMs ≤ s.dev.now := hover
  rw [hst, decide_eq_true hdue, decide_eq_true rfl, Bool.true_and, onlyIf_true]
  exact ⟨congrArg Supply.st hpwr, congrArg Supply.sealStep hpwr, congrArg Supply.sealStart hpwr, hseal, hpoll, hkept, hraised⟩

theorem rideThroughWindowExpiry_early (h : s.dev.now < s.dev.pwr.windowStart + s.dev.pwr.windowMs * 25000) :
    Completes .rideThroughWindowExpiry s fun d => d = s.dev := by
  refine completes_effect _ exec_rideThroughWindowExpiry ?_
  have hnot : ¬s.dev.pwr.windowStart + s.dev.pwr.windowMs * ticksPerMs ≤ s.dev.now := h.not_ge
  rw [decide_eq_false hnot, Bool.and_false, onlyIf_false]

end

/-- Settles O41, clause by clause: a warning in each supply state, the return condition in each, and a seal's beginning, where `Steady` says
that nothing the seal calls sets the supply again. -/
theorem warningsMoveTheSupplyState : Obligations.WarningsMoveTheSupplyState :=
  ⟨fun _ => vinWarnAssert_rides, fun _ => vinWarnAssert_seals, fun _ => vinWarnAssert_parks, fun _ => vinWarnClear_clears,
    fun _ _ => pwrwarnInputChange_rides, fun _ _ _ => pwrwarnInputChange_bounce, fun _ => returnCondition_arms,
    fun _ => returnCondition_reArms, fun _ => returnCondition_sealing, fun _ => rideThroughWindowExpiry_seals,
    fun _ => rideThroughWindowExpiry_early⟩

end Sys2Proof.Machine
end


section
/-!
PROOFS. A seal's steps, and the trip at the reset level.
-/

namespace Sys2Proof.Machine

section
variable {s : State} {d e : Device}

/-! ### A seal begins at its level (R374) -/

/-- The comparator on the coarse divider shows a trip. -/
def sealTrips (d : Device) : Device := setLevel 146 true (updPwr (fun p => { p with sealTripped := true }) d)

theorem exec_sealLevelTrip : exec .sealLevelTrip s = effect s fun d =>
    onlyIf ((sealTrips d).pwr.st = .armed || (sealTrips d).pwr.st = .rideThrough) beginSeal (sealTrips d) := rfl

theorem sealTrips_pwr : (sealTrips d).pwr = { d.pwr with sealTripped := true } := setLevel_pwr

theorem sealTrips_onlyIn : OnlyIn (.pwr :: interruptParts) [0x4540] d (sealTrips d) := setLevel_updPwr_onlyIn

theorem sealLevelTrip_seals (hst : s.dev.pwr.st = .armed ∨ s.dev.pwr.st = .rideThrough) :
    Completes .sealLevelTrip s fun d =>
      d.pwr.sealTripped = true ∧ d.pwr.st = .sealing ∧ d.pwr.sealStep = 1 ∧ d.pwr.sealStart = s.dev.now ∧ d.pwr.onHawk = true ∧
      d.hif.pollSeal = true ∧ (∀ x ∈ d.hif.cmds, sealDrops x = false) ∧ Raised 148 d := by
  have hnow : (sealTrips s.dev).now = s.dev.now := sealTrips_onlyIn.now_eq (by decide)
  have hserves : (decide ((sealTrips s.dev).pwr.st = .armed) || decide ((sealTrips s.dev).pwr.st = .rideThrough)) = true := by
    rw [sealTrips_pwr]
    simpa using hst
  obtain ⟨r, hpwr, hseal, -, hkept, hraised⟩ := beginSeal_spec (d := sealTrips s.dev)
  refine completes_effect _ exec_sealLevelTrip ?_
  rw [hserves, onlyIf_true, hpwr, sealTrips_pwr, hnow]
  exact ⟨rfl, rfl, rfl, rfl, rfl, hseal, hkept, hraised⟩

theorem sealLevelTrip_unarmed (hst : s.dev.pwr.st = .unarmed) (hret : s.dev.icu.retention = false) :
    Completes .sealLevelTrip s fun d =>
      d.pwr = { s.dev.pwr with sealTripped := true } ∧ (d.src 146).level = true ∧ OnlyIn (.pwr :: interruptParts) [0x4540] s.dev d := by
  have hserves : (decide ((sealTrips s.dev).pwr.st = .armed) || decide ((sealTrips s.dev).pwr.st = .rideThrough)) = false := by
    rw [sealTrips_pwr]
    simp [hst]
  refine completes_effect _ exec_sealLevelTrip ?_
  rw [hserves, onlyIf_false]
  exact setLevel_updPwr_spec hret

/-! ### The finish step (R380, R381) -/

theorem settleSeal_reads {old : List WriteCluster} : (settleSeal old d).rdc.clusters = [] := by
  unfold settleSeal
  simp only [updGen_rdc, updLath_rdc, updRcl_rdc, detachOwnerOps, updCry_rdc]
  exact dropReads_all

/-- What is to be filled after the seal is noted, and nothing else. The layout functions stand as variables in the proof, so that the
kernel does not compute with the layout's numbers. -/
theorem noteFill_eq {o : Nat} : ∃ f, noteFill o d = updPwr (fun p => { p with sealFill := f }) d := by
  suffices k : ∀ n, n = noteFill → ∃ f, n o d = updPwr (fun p => { p with sealFill := f }) d from k _ rfl
  intro n hn
  delta noteFill at hn
  obtain ⟨g, hg⟩ : ∃ g, g = groupOf := exists_eq
  obtain ⟨sg, hsg⟩ : ∃ sg, sg = sealGroups := exists_eq
  rw [← hg, ← hsg] at hn
  subst hn
  beta_reduce
  extract_lets r
  split
  · exact ⟨d.pwr.sealFill, rfl⟩
  · extract_lets z
    exact ⟨_, rfl⟩

theorem noteFill_spec {o : Nat} : (∃ f, (noteFill o d).pwr = { d.pwr with sealFill := f }) ∧ (noteFill o d).wrc = d.wrc := by
  obtain ⟨f, h⟩ := noteFill_eq (d := d) (o := o)
  rw [h]
  exact ⟨⟨f, rfl⟩, rfl⟩

/-- Writing stops as the finish step ends. -/
def writingStopped : Device → Device := updWrc fun w => { w with writing := none }

/-- The seal checkpoint of ring `o` is queued (R380). -/
def checkpointQueued (o : Nat) (d : Device) : Device :=
  updPwr (fun p => { p with sealStep := 2 }) (queueSeal o (noteFill o (rewindPlacement o (writingStopped d))))

theorem finishSealStep_ring {o : Nat} (h : d.pwr.sealRing = some o) :
    finishSealStep d = settleSeal d.wrc.clusters (checkpointQueued o d) := by
  have h' : (updWrc (fun w => { w with writing := none }) d).pwr.sealRing = some o := h
  unfold finishSealStep checkpointQueued writingStopped
  simp only [h']

theorem finishSealStep_noRing (h : d.pwr.sealRing = none) (hl : d.rcl.lastWritten = none) :
    finishSealStep d = beginSealPark (settleSeal d.wrc.clusters (writingStopped d)) := by
  have h' : (updWrc (fun w => { w with writing := none }) d).pwr.sealRing = none := h
  have hl' : (updWrc (fun w => { w with writing := none }) d).rcl.lastWritten = none := hl
  unfold finishSealStep writingStopped
  simp only [h', hl']

theorem checkpointQueued_spec {o : Nat} :
    (∃ f, (checkpointQueued o d).pwr = { d.pwr with sealFill := f, sealStep := 2 }) ∧ (checkpointQueued o d).wrc.writing = none := by
  have hrewind : Steady (writingStopped d) (rewindPlacement o (writingStopped d)) := Steady.refl.rewindPlacement
  unfold checkpointQueued
  generalize rewindPlacement o (writingStopped d) = r at hrewind
  obtain ⟨⟨f, hf⟩, hwrc⟩ := noteFill_spec (o := o) (d := r)
  have hqueue : Steady (noteFill o r) (queueSeal o (noteFill o r)) := Steady.refl.queueSeal
  have hpwr : (queueSeal o (noteFill o r)).pwr = { d.pwr with sealFill := f } := by
    rw [hqueue.pwr, hf, hrewind.pwr]
    rfl
  refine ⟨⟨f, by rw [updPwr_pwr, hpwr]⟩, ?_⟩
  rw [updPwr_wrc]
  exact hqueue.writing (hwrc ▸ hrewind.writing rfl)

theorem exec_sealFinishEnd :
    exec .sealFinishEnd s = effect s fun d => onlyIf (d.pwr.st = .sealing && d.pwr.sealStep = 1) finishSealStep d := rfl

theorem sealFinishEnd_to {P : Device → Prop} (hst : s.dev.pwr.st = .sealing) (h1 : s.dev.pwr.sealStep = 1) (p : P (finishSealStep s.dev)) :
    Completes .sealFinishEnd s P := by
  refine completes_effect _ exec_sealFinishEnd ?_
  rwa [hst, h1, decide_eq_true rfl, decide_eq_true rfl, Bool.and_self, onlyIf_true]

theorem sealFinishEnd_queues {o : Nat} (hst : s.dev.pwr.st = .sealing) (h1 : s.dev.pwr.sealStep = 1) (hr : s.dev.pwr.sealRing = some o) :
    Completes .sealFinishEnd s fun d => d.pwr.st = .sealing ∧ d.pwr.sealStep = 2 ∧ d.wrc.writing = none ∧ d.rdc.clusters = [] := by
  obtain ⟨⟨f, hf⟩, hw⟩ := checkpointQueued_spec (o := o) (d := s.dev)
  have hsettle : Steady (checkpointQueued o s.dev) (settleSeal s.dev.wrc.clusters (checkpointQueued o s.dev)) := Steady.refl.settleSeal
  refine sealFinishEnd_to hst h1 ?_
  rw [finishSealStep_ring hr, hsettle.pwr, hf]
  exact ⟨hst, rfl, hsettle.writing hw, settleSeal_reads⟩

/-! ### The park step (R78, R378) -/

theorem parkStep_onlyIn : OnlyIn (.servo :: driveParts) driveRegs (laserOff d) (parkStep d) := brakeDrive_onlyIn.andThen parkDrive_onlyIn

theorem parkStep_braked : (parkStep d).servo.braked = true := by
  unfold parkStep
  rw [parkDrive_onlyIn.1 .servo (by decide)]
  rfl

theorem standParked_spec : (standParked d).pwr = d.pwr ∧ (standParked d).rdc = d.rdc ∧ (standParked d).servo.braked = true := by
  unfold standParked
  rw [updGen_pwr, updGen_rdc, updGen_servo, parkStep_onlyIn.1 .pwr (by decide), parkStep_onlyIn.1 .rdc (by decide)]
  exact ⟨rfl, rfl, parkStep_braked⟩

theorem beginSealPark_spec :
    (beginSealPark d).pwr = { d.pwr with sealStep := 3 } ∧ (beginSealPark d).gen.parked = true ∧ (beginSealPark d).servo.braked = true ∧
    (beginSealPark d).rdc = d.rdc := by
  unfold beginSealPark
  dsimp only
  obtain ⟨hpwr, hrdc, hbraked⟩ := standParked_spec (d := updPwr (fun p => { p with sealStep := 3 }) d)
  rw [refreshInhibit_onlyIn.1 .pwr (by decide), refreshInhibit_onlyIn.1 .gen (by decide), refreshInhibit_onlyIn.1 .servo (by decide),
    refreshInhibit_onlyIn.1 .rdc (by decide), hpwr, hrdc, standParked_gen]
  exact ⟨rfl, rfl, hbraked, rfl⟩

theorem sealFinishEnd_parks (hst : s.dev.pwr.st = .sealing) (h1 : s.dev.pwr.sealStep = 1) (hr : s.dev.pwr.sealRing = none)
    (hl : s.dev.rcl.lastWritten = none) :
    Completes .sealFinishEnd s fun d => d.pwr.st = .sealing ∧ d.pwr.sealStep = 3 ∧ d.gen.parked = true ∧ d.rdc.clusters = [] := by
  have hsettle : Steady (writingStopped s.dev) (settleSeal s.dev.wrc.clusters (writingStopped s.dev)) := Steady.refl.settleSeal
  obtain ⟨hpwr, hparked, -, hrdc⟩ := beginSealPark_spec (d := settleSeal s.dev.wrc.clusters (writingStopped s.dev))
  refine sealFinishEnd_to hst h1 ?_
  rw [finishSealStep_noRing hr hl, hpwr, hrdc, hsettle.pwr]
  exact ⟨hst, rfl, hparked, settleSeal_reads⟩

/-- The seal checkpoints that still wait are given up, and the park step begins. -/
def checkpointEnded (d : Device) : Device :=
  beginSealPark ((d.wrc.clusters.filter fun c => c.kind = .sealCheckpoint).foldl (fun d c => dropCheckpoint c d) d)

theorem exec_sealCheckpointEnd : exec .sealCheckpointEnd s =
    effect s fun d => onlyIf (d.pwr.st = .sealing && d.pwr.sealStep = 2 && !checkpointAlive d) checkpointEnded d := rfl

theorem sealCheckpointEnd_parks (hst : s.dev.pwr.st = .sealing) (h2 : s.dev.pwr.sealStep = 2) (hc : s.dev.wrc.clusters = []) :
    Completes .sealCheckpointEnd s fun d =>
      d.pwr = { s.dev.pwr with sealStep := 3 } ∧ d.gen.parked = true ∧ d.servo.braked = true := by
  have hgone : checkpointAlive s.dev = false := by rw [checkpointAlive, hc, List.any_nil]
  have hnone : checkpointEnded s.dev = beginSealPark s.dev := by rw [checkpointEnded, hc, List.filter_nil, List.foldl_nil]
  obtain ⟨hpwr, hparked, hbraked, -⟩ := beginSealPark_spec (d := s.dev)
  refine completes_effect _ exec_sealCheckpointEnd ?_
  rw [hst, h2, hgone, decide_eq_true rfl, decide_eq_true rfl, Bool.not_false, Bool.and_self, Bool.and_self, onlyIf_true, hnone]
  exact ⟨hpwr, hparked, hbraked⟩

theorem sealCheckpointEnd_untimely {c : WriteCluster} (hc : s.dev.wrc.clusters = [c]) (hk : c.kind = .sealCheckpoint)
    (hdue : ∀ i, i < 18 → (wsector c i).st = .due) : Completes .sealCheckpointEnd s fun d => d = s.dev := by
  have halive : checkpointAlive s.dev = true := by
    rw [checkpointAlive, hc, List.any_cons, hk, decide_eq_true rfl, Bool.true_and, Bool.or_eq_true]
    refine .inl (List.all_eq_true.mpr fun i hi => ?_)
    rw [hdue i (List.mem_range.mp hi)]
    rfl
  refine completes_effect _ exec_sealCheckpointEnd ?_
  rw [halive, Bool.not_true, Bool.and_false, onlyIf_false]

/-! ### The end of a seal (R378, R506) -/

theorem rollHour_onlyIn : OnlyIn ([.fls, .evt] ++ interruptParts) [0x4540] d (rollHour d) := by
  unfold rollHour
  have hevt := OnlyIn.refl (bs := [.fls, .evt] ++ interruptParts) (os := [0x4540]) (d := d) |>.andThen
    (updEvt_onlyIn (f := fun e => { e with hour := hourOf d, hourCount := 0, suppressed := 0 }))
  exact ((hevt.trans putEvent_spec.2.2.2).ite hevt).ite .refl

theorem logEvent_onlyIn {origin source code : Nat} {detail : List Byte} :
    OnlyIn ([.fls, .evt] ++ interruptParts) [0x4540] d (logEvent origin source code detail d) := by
  unfold logEvent logEventAt
  exact rollHour_onlyIn.ite ((rollHour_onlyIn.andThen updEvt_onlyIn).ite (rollHour_onlyIn.trans putEvent_spec.2.2.2))

/-- The supply as a seal is complete. -/
def sealOver (now : Nat) (p : Supply) : Supply :=
  { p with st := .sealed, sealStep := 4, seals := min 0xFFFF (p.seals + 1), lastSeal := min 0xFFFFFFFF (now - p.sealStart) }

/-- OUT_SEALED is energised, with its source. -/
def sealShown (d : Device) : Device := raise 149 (updRcl (fun r => { r with lastWritten := none }) (updPwr (sealOver d.now) d))

theorem sealDone_eq : sealDone d = if returnHolds (sealEntry (sealShown d)) then beginReArm (sealEntry (sealShown d))
    else sealEntry (sealShown d) := rfl

theorem sealEntry_onlyIn : OnlyIn ([.fls, .evt, .nv] ++ interruptParts) [0x4540] d (sealEntry d) := by
  unfold sealEntry
  have hlog := (logEvent_onlyIn (d := d) (origin := 4) (source := 0) (code := 0)
    (detail := leBytes 4 d.gen.laserSeconds ++ leBytes 8 (revolutions d))).mono (bs' := [.fls, .evt, .nv] ++ interruptParts) (os' := [0x4540])
    (by decide) (by decide)
  refine hlog.ite (hlog.trans ⟨fun p hp => ?_, fun _ _ => rfl⟩)
  cases p with
  | nv => simp at hp
  | _ => rfl

theorem sealEntry_steady : Steady d (sealEntry d) := by
  unfold sealEntry
  exact Steady.refl.logEvent.ite Steady.refl.logEvent.nv

theorem sealShown_onlyIn : OnlyIn ([.pwr, .rcl] ++ interruptParts) [0x4540] d (sealShown d) := by
  have hrcl : OnlyIn ([.pwr, .rcl] ++ interruptParts) [0x4540] d
      (updRcl (fun r => { r with lastWritten := none }) (updPwr (sealOver d.now) d)) :=
    OnlyIn.refl.andThen updPwr_onlyIn |>.andThen updRcl_onlyIn
  exact hrcl.andThen raise_onlyIn

/-- What the end of a seal leaves, before the return condition is judged: the supply, its detection, and the condition itself. -/
theorem sealEntry_sealShown_spec :
    (sealEntry (sealShown d)).pwr = sealOver d.now d.pwr ∧ Raised 149 (sealEntry (sealShown d)) ∧
    returnHolds (sealEntry (sealShown d)) = returnHolds d := by
  have hpwr : (sealEntry (sealShown d)).pwr = sealOver d.now d.pwr := by
    rw [sealEntry_steady.pwr]
    exact raise_pwr
  have hreg : (sealEntry (sealShown d)).reg 0xF004 = d.reg 0xF004 :=
    (sealEntry_onlyIn.2 _ (by decide)).trans (sealShown_onlyIn.2 _ (by decide))
  have hnow : (sealEntry (sealShown d)).now = d.now := (sealEntry_onlyIn.now_eq (by decide)).trans (sealShown_onlyIn.now_eq (by decide))
  refine ⟨hpwr, (sealEntry_steady.detected 149 detected_raise).raised, ?_⟩
  rw [returnHolds, returnHolds, warning_congr (d := d) (by rw [hpwr]; rfl) (by rw [hpwr]; rfl) hreg, hnow, hpwr]
  rfl

theorem exec_sealParkEnd : exec .sealParkEnd s =
    effect s fun d => onlyIf (d.pwr.st = .sealing && d.pwr.sealStep = 3 && sledAtRest d) sealDone d := rfl

theorem sealParkEnd_to {P : Device → Prop} (hst : s.dev.pwr.st = .sealing) (h3 : s.dev.pwr.sealStep = 3) (hrest : sledAtRest s.dev = true)
    (p : P (sealDone s.dev)) : Completes .sealParkEnd s P := by
  refine completes_effect _ exec_sealParkEnd ?_
  rwa [hst, h3, hrest, decide_eq_true rfl, decide_eq_true rfl, Bool.and_self, Bool.and_self, onlyIf_true]

theorem sealParkEnd_seals (hst : s.dev.pwr.st = .sealing) (h3 : s.dev.pwr.sealStep = 3) (hrest : sledAtRest s.dev = true)
    (hr : returnHolds s.dev = false) :
    Completes .sealParkEnd s fun d =>
      d.pwr = { s.dev.pwr with
        st := .sealed, sealStep := 4, seals := min 0xFFFF (s.dev.pwr.seals + 1),
        lastSeal := min 0xFFFFFFFF (s.dev.now - s.dev.pwr.sealStart) } ∧ Raised 149 d := by
  obtain ⟨hpwr, hraised, hret⟩ := sealEntry_sealShown_spec (d := s.dev)
  refine sealParkEnd_to hst h3 hrest ?_
  rw [sealDone_eq, hret, hr, if_neg Bool.false_ne_true]
  exact ⟨hpwr, hraised⟩

theorem sealParkEnd_reArms (hst : s.dev.pwr.st = .sealing) (h3 : s.dev.pwr.sealStep = 3) (hrest : sledAtRest s.dev = true)
    (hr : returnHolds s.dev = true) :
    Completes .sealParkEnd s fun d => d.pwr.st = .reArming ∧ d.pwr.onHawk = false ∧ Raised 149 d := by
  obtain ⟨-, hraised, hret⟩ := sealEntry_sealShown_spec (d := s.dev)
  refine sealParkEnd_to hst h3 hrest ?_
  rw [sealDone_eq, hret, hr, if_pos rfl]
  generalize sealEntry (sealShown s.dev) = e at hraised
  obtain ⟨c, hc⟩ := loadOnVin_pwr (d := updPwr (fun p => { p with st := .reArming, returned := true }) e)
  unfold beginReArm
  rw [hc]
  exact ⟨rfl, rfl, hraised.of_icu ((updPwr_onlyIn.trans loadOnVin_onlyIn).1 .icu (by decide))⟩

/-! ### The reset level (R373) -/

theorem resetLevelTrip_starts {x : PowerOnInputs} :
    Completes (.resetLevelTrip x) s fun d => d.hif.lock = false ∧ d.hif.cmds = [] ∧ d.pwr.st = .unarmed ∧ d.rdc.clusters = [] :=
  completes_effect (powerOn x) rfl ⟨started_powerOn.lock, started_powerOn.cmds, started_powerOn.st, started_powerOn.reads⟩

end

/-- Settles O42, clause by clause: each step of a seal sets its own part of the supply, and `Steady` says that what it brings about beside
leaves that part. -/
theorem sealRunsItsSteps : Obligations.SealRunsItsSteps :=
  ⟨fun _ => sealLevelTrip_seals, fun _ => sealLevelTrip_unarmed, fun _ _ => sealFinishEnd_queues, fun _ => sealFinishEnd_parks,
    fun _ => sealCheckpointEnd_parks, fun _ _ _ => sealCheckpointEnd_untimely, fun _ => sealParkEnd_seals, fun _ => sealParkEnd_reArms,
    fun _ _ => resetLevelTrip_starts⟩

end Sys2Proof.Machine
end


section
/-!
PROOFS. The sources' controls, the wake unit and retention, and the message table.
-/

namespace Sys2Proof.Machine

section
variable {s : State} {d e : Device}

/-! ### The sources that a word of a bit array names -/

theorem mem_namedSources {w n : Nat} {v : Word32} : n ∈ namedSources w v ↔ n / 32 = w ∧ v.getLsbD (n % 32) = true := by
  simp only [namedSources, bitsOf, List.mem_map, List.mem_filter, List.mem_range]
  constructor
  · rintro ⟨b, ⟨hb, hv⟩, rfl⟩
    rw [Nat.mul_add_div (by decide), Nat.div_eq_of_lt hb, Nat.mul_add_mod, Nat.mod_eq_of_lt hb]
    exact ⟨rfl, hv⟩
  · rintro ⟨rfl, hv⟩
    exact ⟨n % 32, ⟨Nat.mod_lt _ (by decide), hv⟩, Nat.div_add_mod n 32⟩

theorem namedSources_nodup {w : Nat} {v : Word32} : (namedSources w v).Nodup :=
  (List.nodup_range.filter _).map fun a b h => by simpa using h

theorem named_eq_decide {w n : Nat} {v : Word32} :
    (decide (n / 32 = w) && v.getLsbD (n % 32)) = decide (n / 32 = w ∧ v.getLsbD (n % 32) = true) := by
  rw [Bool.decide_and, Bool.decide_eq_true]

/-! ### A bit array's effect on each source -/

/-- `f` changes the source that it is given as `g` says, and no other source. -/
def ActsAs (f : Nat → Device → Device) (g : Src → Src) : Prop := ∀ k d n, (f k d).src n = if n = k then g (d.src n) else d.src n

theorem foldl_src {f : Nat → Device → Device} {g : Src → Src} (hf : ActsAs f g) {l : List Nat} (hl : l.Nodup) (n : Nat) :
    (l.foldl (fun d k => f k d) d).src n = if n ∈ l then g (d.src n) else d.src n := by
  induction l generalizing d with
  | nil => simp
  | cons k l ih =>
    obtain ⟨hk, hl⟩ := List.nodup_cons.mp hl
    rw [List.foldl_cons, ih hl, hf]
    by_cases hn : n = k
    · subst hn
      simp [hk]
    · simp [hn]

theorem writeMask_actsAs {on : Bool} : ActsAs (writeMask on) fun x => { x with masked := on } := by
  intro k d n
  have h : (writeMask on k d).src n = (updSrc k (fun x => { x with masked := on }) d).src n := rfl
  rw [h, updSrc_src]
  split
  · next hn => rw [hn]
  · rfl

theorem ActsAs.unlessLevel {f g : Src → Src} (hg : ∀ x, g x = if x.sense < 2 then x else f x) :
    ActsAs (fun k d => if (d.src k).sense < 2 then d else updSrc k f d) g := by
  intro k d n
  dsimp only
  split
  · next hs =>
    split
    · next hn => rw [hg, hn, if_pos hs]
    · rfl
  · next hs =>
    rw [updSrc_src]
    split
    · next hn => rw [hg, hn, if_neg hs]
    · rfl

theorem pendSet1_actsAs : ActsAs pendSet1 fun x => if x.sense < 2 then x else srcDetect x := .unlessLevel fun _ => rfl

theorem pendClr1_actsAs :
    ActsAs pendClr1 fun x => if x.sense < 2 then x else { x with pending := false, forwarded := x.forwarded && x.active } :=
  .unlessLevel fun _ => rfl

theorem writeMask_onlyIn {on : Bool} {k : Nat} : OnlyIn [.icu] [] d (writeMask on k d) := setIcu_onlyIn

theorem pendSet1_onlyIn {k : Nat} : OnlyIn [.icu] [] d (pendSet1 k d) := OnlyIn.refl.ite updSrc_onlyIn

theorem pendClr1_onlyIn {k : Nat} : OnlyIn [.icu] [] d (pendClr1 k d) := OnlyIn.refl.ite updSrc_onlyIn

theorem icuGate_mgmt {o : Nat} {g f : Device → Device} (h : pairRuns d = true) : icuGate .mgmt o g f d = f d :=
  (if_neg (by simp)).trans (gate_mgmt h)

/-- A write of the management pair to a bit array. -/
theorem bitArray_to {c : Instr} {w o : Nat} {v : Word32} {f : Nat → Device → Device} {P : Device → Prop} (hup : pairRuns s.dev = true)
    (hw : w < 8) (h : exec c s = effect s fun d => onlyIf (w < 8) (bitArrayWrite .mgmt o w v f) d)
    (p : P (deliver ((namedSources w v).foldl (fun d k => f k d) s.dev))) : Completes c s P := by
  refine completes_effect _ h ?_
  rwa [decide_eq_true hw, onlyIf_true, bitArrayWrite, icuGate_mgmt hup]

theorem bitArray_onlyIn {f : Nat → Device → Device} {l : List Nat} (hf : ∀ d k, OnlyIn [.icu] [] d (f k d)) :
    OnlyIn interruptParts [0x4540] d (deliver (l.foldl (fun d k => f k d) d)) := by
  have hfold : OnlyIn [.icu] [] d (l.foldl (fun d k => f k d) d) := .foldl hf
  exact OnlyIn.refl.andThen hfold |>.andThen deliver_onlyIn

/-- After the delivery a source is as the write left it, but for what a delivery may set. -/
theorem bitArray_src {w n : Nat} {v : Word32} {f : Nat → Device → Device} {g : Src → Src} (hf : ActsAs f g) : ∃ a b,
    (deliver ((namedSources w v).foldl (fun d k => f k d) d)).src n =
      { (if n / 32 = w ∧ v.getLsbD (n % 32) = true then g (d.src n) else d.src n) with active := a, forwarded := b } := by
  obtain ⟨-, h, -⟩ := deliver_delivering ((namedSources w v).foldl (fun d k => f k d) d)
  have hn := h n
  simp only [foldl_src hf namedSources_nodup, mem_namedSources] at hn
  exact ⟨_, _, hn⟩

/-! ### Masks (R357) -/

/-- The change of a mask bit that a write queues. -/
def maskChange (now : Nat) (on : Bool) (k : Nat) : Nat × MaskChange := (now + 2, .mask k on)

theorem foldl_writeMask_changes {on : Bool} {l : List Nat} :
    (l.foldl (fun d k => writeMask on k d) d).icu.changes = d.icu.changes ++ l.map (maskChange d.now on) := by
  induction l generalizing d with
  | nil => simp
  | cons k l ih =>
    rw [List.foldl_cons, ih, List.map_cons]
    show (d.icu.changes ++ [maskChange d.now on k]) ++ l.map (maskChange d.now on) = _
    simp

theorem deliver_changes : (deliver d).icu.changes = d.icu.changes := by
  obtain ⟨-, -, -, hi, -⟩ := deliver_delivering d
  rw [hi]

/-- The masks after a write to MASK_SET (`on`) or MASK_CLR. -/
theorem maskWrite_spec {w : Nat} {v : Word32} {on : Bool} (c : Instr) (o : Nat) (hup : pairRuns s.dev = true) (hw : w < 8)
    (h : exec c s = effect s fun d => onlyIf (w < 8) (bitArrayWrite .mgmt o w v (writeMask on)) d) :
    Completes c s fun d =>
      (∀ n, (d.src n).masked = (if n / 32 = w ∧ v.getLsbD (n % 32) = true then on else (s.dev.src n).masked) ∧
        (d.src n).maskedNow = (s.dev.src n).maskedNow) ∧
      (∀ b, b < 32 → v.getLsbD b = true → (s.dev.now + 2, MaskChange.mask (32 * w + b) on) ∈ d.icu.changes) ∧
      OnlyIn interruptParts [0x4540] s.dev d := by
  refine bitArray_to hup hw h ⟨fun n => ?_, fun b hb hv => ?_, bitArray_onlyIn fun _ _ => writeMask_onlyIn⟩
  · obtain ⟨x, y, hsrc⟩ := bitArray_src (d := s.dev) (w := w) (n := n) (v := v) (writeMask_actsAs (on := on))
    rw [hsrc]
    by_cases hn : n / 32 = w ∧ v.getLsbD (n % 32) = true
    · simp only [if_pos hn, and_self]
    · simp only [if_neg hn, and_self]
  · rw [deliver_changes, foldl_writeMask_changes]
    refine List.mem_append_right _ (List.mem_map_of_mem (f := maskChange s.dev.now on) (mem_namedSources.mpr ?_))
    rw [Nat.mul_add_div (by decide), Nat.div_eq_of_lt hb, Nat.mul_add_mod, Nat.mod_eq_of_lt hb]
    exact ⟨rfl, hv⟩

theorem maskSet_masks {w : Nat} {v : Word32} (hup : pairRuns s.dev = true) (hw : w < 8) :
    Completes (.maskSet .mgmt w v) s fun d =>
      (∀ n, n < 256 → (d.src n).masked = ((s.dev.src n).masked || (n / 32 = w && v.getLsbD (n % 32))) ∧
        (d.src n).maskedNow = (s.dev.src n).maskedNow) ∧
      (∀ b, b < 32 → v.getLsbD b = true → (s.dev.now + 2, MaskChange.mask (32 * w + b) true) ∈ d.icu.changes) ∧
      OnlyIn interruptParts [0x4540] s.dev d := by
  obtain ⟨t, ht, hpend, hsrc, hrest⟩ := maskWrite_spec (v := v) (on := true) (.maskSet .mgmt w v) (0x4400 + 4 * w) hup hw rfl
  refine ⟨t, ht, hpend, fun n _ => ⟨(hsrc n).1.trans ?_, (hsrc n).2⟩, hrest⟩
  rw [named_eq_decide]
  split
  · next hn => simp [hn]
  · next hn => simp [hn]

theorem maskClr_unmasks {w : Nat} {v : Word32} (hup : pairRuns s.dev = true) (hw : w < 8) :
    Completes (.maskClr .mgmt w v) s fun d =>
      (∀ n, n < 256 → (d.src n).masked = ((s.dev.src n).masked && !(n / 32 = w && v.getLsbD (n % 32))) ∧
        (d.src n).maskedNow = (s.dev.src n).maskedNow) ∧
      (∀ b, b < 32 → v.getLsbD b = true → (s.dev.now + 2, MaskChange.mask (32 * w + b) false) ∈ d.icu.changes) ∧
      OnlyIn interruptParts [0x4540] s.dev d := by
  obtain ⟨t, ht, hpend, hsrc, hrest⟩ := maskWrite_spec (v := v) (on := false) (.maskClr .mgmt w v) (0x4420 + 4 * w) hup hw rfl
  refine ⟨t, ht, hpend, fun n _ => ⟨(hsrc n).1.trans ?_, (hsrc n).2⟩, hrest⟩
  rw [named_eq_decide]
  split
  · next hn => simp [hn]
  · next hn => simp [hn]

/-! ### Pending bits (R350) -/

theorem pendSet_sets {w : Nat} {v : Word32} (hup : pairRuns s.dev = true) (hw : w < 8) :
    Completes (.pendSet .mgmt w v) s fun d =>
      (∀ n, n < 256 →
        (d.src n).pending = ((s.dev.src n).pending || (decide (2 ≤ (s.dev.src n).sense) && n / 32 = w && v.getLsbD (n % 32)))) ∧
      OnlyIn interruptParts [0x4540] s.dev d := by
  refine bitArray_to hup hw (o := 0x4440 + 4 * w) rfl ⟨fun n _ => ?_, bitArray_onlyIn fun _ _ => pendSet1_onlyIn⟩
  obtain ⟨x, y, hsrc⟩ := bitArray_src (d := s.dev) (w := w) (n := n) (v := v) pendSet1_actsAs
  rw [hsrc, Bool.and_assoc, named_eq_decide]
  by_cases hn : n / 32 = w ∧ v.getLsbD (n % 32) = true
  · by_cases hs : (s.dev.src n).sense < 2
    · simp [hn, hs, Nat.not_le.mpr hs]
    · simp [hn, hs, Nat.not_lt.mp hs, srcDetect]
  · simp [hn]

theorem pendClr_clears {w : Nat} {v : Word32} (hup : pairRuns s.dev = true) (hw : w < 8) :
    Completes (.pendClr .mgmt w v) s fun d =>
      (∀ n, n < 256 →
        (d.src n).pending = ((s.dev.src n).pending && !(decide (2 ≤ (s.dev.src n).sense) && n / 32 = w && v.getLsbD (n % 32)))) ∧
      OnlyIn interruptParts [0x4540] s.dev d := by
  refine bitArray_to hup hw (o := 0x4460 + 4 * w) rfl ⟨fun n _ => ?_, bitArray_onlyIn fun _ _ => pendClr1_onlyIn⟩
  obtain ⟨x, y, hsrc⟩ := bitArray_src (d := s.dev) (w := w) (n := n) (v := v) pendClr1_actsAs
  rw [hsrc, Bool.and_assoc, named_eq_decide]
  by_cases hn : n / 32 = w ∧ v.getLsbD (n % 32) = true
  · by_cases hs : (s.dev.src n).sense < 2
    · simp [hn, hs, Nat.not_le.mpr hs]
    · simp [hn, hs, Nat.not_lt.mp hs]
  · simp [hn]

/-! ### What the host may not write (R359) -/

theorem cfgRefused_src {n : Nat} : ∃ p c a f, (cfgRefused d).src n = { d.src n with pending := p, counter := c, active := a, forwarded := f } := by
  have hcount : (count 0x4544 d).src n = d.src n := rfl
  unfold cfgRefused
  rcases raise_spec 16 (count 0x4544 d) with ⟨-, e⟩ | ⟨-, -, h, -⟩
  · exact ⟨_, _, _, _, by rw [e]; rfl⟩
  · rw [h n, updSrc_src]
    split
    · next hn => exact ⟨_, _, _, _, by rw [← hn, hcount]; rfl⟩
    · exact ⟨_, _, _, _, by rw [hcount]⟩

theorem cfgRefused_spec : Raised 16 (cfgRefused d) ∧
    (cfgRefused d).reg 0x4544 = BitVec.ofNat 32 (min 0xFFFFFFFF ((d.reg 0x4544).toNat + 1)) ∧
    OnlyIn interruptParts [0x4540, 0x4544] d (cfgRefused d) := by
  obtain ⟨hr, hreg, honly⟩ := raise_count_spec (d := d) (k := 16) (o := 0x4544) (by decide)
  exact ⟨hr, hreg, honly.mono (by decide) (by decide)⟩

/-- A delivery takes no detection back. -/
theorem Raised.deliver {k : Nat} (h : Raised k d) : Raised k (deliver d) := by
  obtain ⟨-, hsrc, -, hi, -⟩ := deliver_delivering d
  rcases h with h | h
  · exact .inl (by rw [hsrc k]; exact h)
  · exact .inr (by rw [hi]; exact h)

theorem hostMaskSet_refused {w n : Nat} {v : Word32} (hw : w < 8) (hl : s.dev.hif.lock = false) (hn : n / 32 = w)
    (hv : v.getLsbD (n % 32) = true) (ht : (s.dev.src n).target ≠ 2) :
    Completes (.maskSet .host w v) s fun d =>
      (d.src n).masked = (s.dev.src n).masked ∧ Raised 16 d ∧
      d.reg 0x4544 = BitVec.ofNat 32 (min 0xFFFFFFFF ((s.dev.reg 0x4544).toNat + 1)) ∧ OnlyIn interruptParts [0x4540, 0x4544] s.dev d := by
  have hmem : n ∈ namedSources w v := mem_namedSources.mpr ⟨hn, hv⟩
  generalize hmine : (namedSources w v).filter (fun k => decide ((s.dev.src k).target = 2)) = mine
  have hnot : n ∉ mine := by
    rw [← hmine, List.mem_filter, decide_eq_true_eq]
    exact fun h => ht h.2
  have hlen : mine.length ≠ (namedSources w v).length := by
    intro h
    rw [← hmine, List.length_filter_eq_length_iff] at h
    exact ht (of_decide_eq_true (h n hmem))
  have hmasks : OnlyIn [.icu] [] s.dev (mine.foldl (fun d k => writeMask true k d) s.dev) := .foldl fun _ _ => writeMask_onlyIn
  have hnodup : mine.Nodup := hmine ▸ namedSources_nodup.filter _
  have hsrc := foldl_src (d := s.dev) (writeMask_actsAs (on := true)) hnodup n
  rw [if_neg hnot] at hsrc
  refine completes_effect (fun d => onlyIf (w < 8) (writeMaskSet .host w v) d) rfl ?_
  have hwrite : onlyIf (w < 8) (writeMaskSet .host w v) s.dev = deliver (cfgRefused (mine.foldl (fun d k => writeMask true k d) s.dev)) := by
    rw [decide_eq_true hw, onlyIf_true, writeMaskSet, bitArrayWrite, icuGate, hl]
    simp only [hmine, if_neg hlen]
    rfl
  rw [hwrite]
  generalize mine.foldl (fun d k => writeMask true k d) s.dev = m at hmasks hsrc
  obtain ⟨hr, hreg, honly⟩ := cfgRefused_spec (d := m)
  obtain ⟨p, c, a, f, hx⟩ := cfgRefused_src (d := m) (n := n)
  obtain ⟨-, hdel, hkeep, -⟩ := deliver_delivering (cfgRefused m)
  refine ⟨?_, hr.deliver, ?_, ?_⟩
  · rw [hdel n, hx, hsrc]
  · rw [hkeep _ (by decide), hreg, hmasks.2 _ List.not_mem_nil]
  · exact OnlyIn.refl.andThen hmasks |>.andThen honly |>.andThen deliver_onlyIn

/-! ### Thresholds and the configuration of sources (R357, R358) -/

theorem thresholdWrite_sets {t : Nat} {v : Word32} (hup : pairRuns s.dev = true) (ht : t < 3) :
    Completes (.thresholdWrite .mgmt t v) s fun d =>
      sget (fun _ => 0) d.icu.threshold t = fld v 3 0 ∧ (s.dev.now + 2, MaskChange.threshold t (fld v 3 0)) ∈ d.icu.changes ∧
      thresholdOf d t = thresholdOf s.dev t ∧ OnlyIn [.icu] [] s.dev d := by
  refine completes_effect (fun d => onlyIf (t < 3) (writeThreshold .mgmt t v) d) rfl ?_
  rw [decide_eq_true ht, onlyIf_true, writeThreshold, icuGate_mgmt hup]
  exact ⟨sget_sset_self _ _ _ _, List.mem_append_right _ List.mem_cons_self, rfl, setIcu_onlyIn⟩

theorem srcCfgWrite_to {n : Nat} {v : Word32} {P : Device → Prop} (hup : pairRuns s.dev = true) (hn : n < 256) (p : P (setCfg n v s.dev)) :
    Completes (.srcCfgWrite .mgmt n v) s P := by
  refine completes_effect (fun d => onlyIf (n < 256) (writeCfg .mgmt n v) d) rfl ?_
  rwa [decide_eq_true hn, onlyIf_true, writeCfg, icuGate_mgmt hup]

theorem srcCfgWrite_configures {n : Nat} {v : Word32} (hup : pairRuns s.dev = true) (hn : n < 256)
    (hok : cfgBad s.dev n (s.dev.src n) (cfgAfter n v (s.dev.src n)) = false) :
    Completes (.srcCfgWrite .mgmt n v) s fun d =>
      (d.src n).vector = fld v 31 27 ∧ (d.src n).priority = fld v 11 8 ∧ (d.src n).target = fld v 5 4 ∧
      (d.src n).sense = senseAfter n (s.dev.src n).sense (fld v 2 0) ∧
      (2 ≤ (d.src n).sense → (d.src n).pending = ((s.dev.src n).pending && decide (2 ≤ (s.dev.src n).sense))) ∧
      OnlyIn interruptParts [0x4540] s.dev d := by
  have hset : setCfg n v s.dev = deliver (updSrc n (fun _ => pendingAfter (s.dev.src n) (cfgAfter n v (s.dev.src n))) s.dev) := by
    unfold setCfg
    dsimp only
    rw [hok, if_neg Bool.false_ne_true]
  obtain ⟨-, hdel, -⟩ := deliver_delivering (updSrc n (fun _ => pendingAfter (s.dev.src n) (cfgAfter n v (s.dev.src n))) s.dev)
  refine srcCfgWrite_to hup hn ?_
  rw [hset]
  refine ⟨?_, ?_, ?_, ?_, fun h2 => ?_, OnlyIn.refl.andThen updSrc_onlyIn |>.andThen deliver_onlyIn⟩
  · rw [hdel n, updSrc_src_self]
    rfl
  · rw [hdel n, updSrc_src_self]
    rfl
  · rw [hdel n, updSrc_src_self]
    rfl
  · rw [hdel n, updSrc_src_self]
    rfl
  · rw [hdel n, updSrc_src_self] at h2 ⊢
    have h2' : 2 ≤ (cfgAfter n v (s.dev.src n)).sense := h2
    have h0 : (cfgAfter n v (s.dev.src n)).sense ≠ 0 := by omega
    have h1 : (cfgAfter n v (s.dev.src n)).sense ≠ 1 := by omega
    simp only [pendingAfter, if_neg h0, if_neg h1]
    by_cases hs : (s.dev.src n).sense < 2
    · simp [hs, Nat.not_le.mpr hs]
    · simp [hs, Nat.not_lt.mp hs]

theorem srcCfgWrite_refused {n : Nat} {v : Word32} (hup : pairRuns s.dev = true) (hn : n < 256)
    (hbad : cfgBad s.dev n (s.dev.src n) (cfgAfter n v (s.dev.src n)) = true) :
    Completes (.srcCfgWrite .mgmt n v) s fun d =>
      (d.src n).target = (s.dev.src n).target ∧ (d.src n).priority = (s.dev.src n).priority ∧ Raised 16 d ∧
      d.reg 0x4544 = BitVec.ofNat 32 (min 0xFFFFFFFF ((s.dev.reg 0x4544).toNat + 1)) ∧ OnlyIn interruptParts [0x4540, 0x4544] s.dev d := by
  have hset : setCfg n v s.dev = cfgRefused s.dev := if_pos hbad
  obtain ⟨p, c, a, f, hx⟩ := cfgRefused_src (d := s.dev) (n := n)
  refine srcCfgWrite_to hup hn ?_
  rw [hset, hx]
  exact ⟨rfl, rfl, cfgRefused_spec⟩

/-! ### The wake unit and retention (R362 to R364) -/

theorem wakeSlotWrite_sets {i : Nat} {v : Word32} (hup : pairRuns s.dev = true) (hi : i < 16) (hfwd : fld v 9 8 < 3)
    (hname : wakeNameOk s.dev i (fld v 7 0) = true) (hlevel : ¬(fld v 9 8 = 2 ∧ (s.dev.src (fld v 7 0)).sense < 2))
    (hold : (wakeSlot s.dev i).en = true → (s.dev.src (wakeSlot s.dev i).source).target ≠ 3) :
    Completes (.wakeSlotWrite .mgmt i v) s fun d =>
      wakeSlot d i = { en := wbit v 31, fwd := fld v 9 8, source := fld v 7 0 } ∧ OnlyIn interruptParts [0x4540] s.dev d := by
  have hafter : slotAfter s.dev i v = { en := wbit v 31, fwd := fld v 9 8, source := fld v 7 0 } := by
    rw [slotAfter, if_neg (by omega), if_pos hname]
  have hset : setSlot i v s.dev = deliver (updIcu (fun c => { c with
      slots := sset (fun _ => {}) i { en := wbit v 31, fwd := fld v 9 8, source := fld v 7 0 } c.slots }) s.dev) := by
    unfold setSlot
    dsimp only
    rw [hafter, if_neg, if_neg]
    · simp only [hname, Bool.not_true, Bool.false_or, Bool.and_eq_true, decide_eq_true_eq]
      exact fun h => hlevel h.2
    · simp only [Bool.and_eq_true, decide_eq_true_eq]
      exact fun h => hold h.1.1 h.1.2
  refine completes_effect (fun d => onlyIf (i < 16) (writeSlot .mgmt i v) d) rfl ?_
  rw [decide_eq_true hi, onlyIf_true, writeSlot, icuGate_mgmt hup, hset]
  obtain ⟨-, -, -, hicu, -⟩ := deliver_delivering (updIcu (fun c => { c with
    slots := sset (fun _ => {}) i { en := wbit v 31, fwd := fld v 9 8, source := fld v 7 0 } c.slots }) s.dev)
  refine ⟨?_, OnlyIn.refl.andThen setIcu_onlyIn |>.andThen deliver_onlyIn⟩
  rw [wakeSlot, hicu]
  exact sget_sset_self _ _ _ _

/-- The evaluation of what was latched changes the sources alone. -/
theorem foldl_unlatch_srcs {l : List (Nat × Option Bool)} :
    ∃ x, l.foldl (fun d p => unlatch p d) d = { d with icu := { d.icu with srcs := x } } := by
  induction l generalizing d with
  | nil => exact ⟨_, rfl⟩
  | cons p l ih =>
    obtain ⟨k, _ | v⟩ := p
    · obtain ⟨x, h⟩ := ih (d := updSrc k srcDetect d)
      exact ⟨x, h⟩
    · obtain ⟨x, h⟩ := ih (d := updSrc k (srcLevel v) d)
      exact ⟨x, h⟩

theorem leaveRetention_spec (h : d.icu.retention = true) :
    (∃ x, (leaveRetention d).icu = { d.icu with retention := false, latched := [], quietSince := d.now, srcs := x }) ∧
    OnlyIn interruptParts [0x4540] d (leaveRetention d) := by
  unfold leaveRetention
  simp only [h, if_true]
  obtain ⟨x, hx⟩ := foldl_unlatch_srcs (d := { d with icu := { d.icu with retention := false, latched := [], quietSince := d.now } })
    (l := d.icu.latched)
  rw [hx]
  obtain ⟨-, -, -, hi, -⟩ := deliver_delivering
    { d with icu := { d.icu with retention := false, latched := [], quietSince := d.now, srcs := x } }
  exact ⟨⟨_, hi⟩, OnlyIn.refl.andThen setIcu_onlyIn |>.andThen deliver_onlyIn⟩

/-- The detection latched and WAKE_STATUS set, before the core leaves retention. -/
def wakeNoted (src : Nat) (level : Bool) (d : Device) : Device :=
  countF 0x4640 31 16 (updIcu (fun i => { i with lastWake := src }) (latchWake src level d))

theorem latchWake_onlyIn {src : Nat} {level : Bool} :
    OnlyIn [.icu] [] d (latchWake src level d) ∧ (latchWake src level d).icu.retention = d.icu.retention := by
  unfold latchWake
  split
  · exact ⟨.refl, rfl⟩
  · exact ⟨setIcu_onlyIn, rfl⟩

theorem raise_icu_awake {k : Nat} (h : d.icu.retention = false) : ∃ x, (raise k d).icu = { d.icu with srcs := x } := by
  rcases raise_spec k d with ⟨ht, -⟩ | ⟨-, -, -, -, hi, -⟩
  · rw [h] at ht
    cases ht
  · exact ⟨_, hi⟩

theorem wakeDetect_wakes {src : Nat} {level : Bool} (hret : s.dev.icu.retention = true) (hsees : wakeSees s.dev src level = true) :
    Completes (.wakeDetect src level) s fun d =>
      d.icu.retention = false ∧ d.icu.latched = [] ∧ d.icu.lastWake = src ∧ Raised 25 d ∧
      d.regF 0x4640 31 16 = min 65535 (s.dev.regF 0x4640 31 16 + 1) ∧ OnlyIn interruptParts [0x4540, 0x4640] s.dev d := by
  obtain ⟨hlatch, hasleep⟩ := latchWake_onlyIn (d := s.dev) (src := src) (level := level)
  have hnoted : OnlyIn interruptParts [0x4540, 0x4640] s.dev (wakeNoted src level s.dev) :=
    OnlyIn.refl.andThen hlatch |>.andThen (setIcu_onlyIn) |>.andThen countF_onlyIn
  have hcount : (wakeNoted src level s.dev).regF 0x4640 31 16 = min 65535 (s.dev.regF 0x4640 31 16 + 1) := by
    rw [wakeNoted, countF_regF (by decide) (by decide)]
    have hsame : (updIcu (fun i => { i with lastWake := src }) (latchWake src level s.dev)).regF 0x4640 31 16 = s.dev.regF 0x4640 31 16 :=
      regF_eq_of_onlyIn (hlatch.trans setIcu_onlyIn) List.not_mem_nil
    rw [hsame]
    rfl
  have hlast : (wakeNoted src level s.dev).icu.lastWake = src := rfl
  have hret' : (wakeNoted src level s.dev).icu.retention = true := hasleep.trans hret
  refine completes_effect (fun d => onlyIf (d.icu.retention && wakeSees d src level) (wake src level) d) rfl ?_
  rw [hret, hsees, Bool.and_self, onlyIf_true]
  have hwake : wake src level s.dev = raise 25 (leaveRetention (wakeNoted src level s.dev)) := rfl
  rw [hwake]
  generalize wakeNoted src level s.dev = w at hnoted hcount hlast hret'
  obtain ⟨⟨x, hx⟩, honly⟩ := leaveRetention_spec hret'
  obtain ⟨y, hy⟩ := raise_icu_awake (d := leaveRetention w) (k := 25) (by rw [hx])
  refine ⟨by rw [hy, hx], by rw [hy, hx], by rw [hy, hx]; exact hlast, raised_raise 25 _, ?_, hnoted.andThen honly |>.andThen raise_onlyIn⟩
  rw [regF_eq_of_onlyIn raise_onlyIn (by decide), regF_eq_of_onlyIn honly (by decide), hcount]

theorem exec_retentionEntry : exec .retentionEntry s = execRetentionEntry s := rfl

theorem execRetentionEntry_eq :
    execRetentionEntry s = effect s fun d => onlyIf (mayRetain d) (updIcu fun i => { i with retention := true }) d := by
  unfold execRetentionEntry
  rfl

theorem retentionEntry_enters (h : mayRetain s.dev = true) :
    Completes .retentionEntry s fun d => d.icu = { s.dev.icu with retention := true } ∧ OnlyIn [.icu] [] s.dev d := by
  refine completes_effect _ (exec_retentionEntry.trans execRetentionEntry_eq) ?_
  rw [h, onlyIf_true]
  exact ⟨rfl, setIcu_onlyIn⟩

theorem retentionEntry_untimely (h : s.dev.hif.polling = true) : Completes .retentionEntry s fun d => d = s.dev := by
  have hbusy : mayRetain s.dev = false := by simp [mayRetain, coreBusy, h]
  refine completes_effect _ (exec_retentionEntry.trans execRetentionEntry_eq) ?_
  rw [hbusy, onlyIf_false]

/-! ### The message table (R311, R314) -/

theorem exec_msixTableWrite {o : Nat} {v : Word32} :
    exec (.msixTableWrite o v) s = effect s fun d => onlyIf (o < 512 && o % 4 = 0) (writeMsix o v) d := rfl

theorem msixTableWrite_to {o : Nat} {v : Word32} {P : Device → Prop} (ho : o < 512) (h4 : o % 4 = 0) (p : P (writeMsix o v s.dev)) :
    Completes (.msixTableWrite o v) s P := by
  refine completes_effect _ exec_msixTableWrite ?_
  rwa [decide_eq_true ho, decide_eq_true h4, Bool.and_self, onlyIf_true]

theorem msixTableWrite_stores {o : Nat} {v : Word32} (ho : o < 512) (h4 : o % 4 = 0) :
    Completes (.msixTableWrite o v) s fun d =>
      d.reg (0x1800 + o) = v &&& (if o % 16 = 0 then 0xFFFFFFFC else if o % 16 = 12 then 1 else 0xFFFFFFFF) ∧
      OnlyIn [.bus] [0x1800 + o] s.dev d := by
  refine msixTableWrite_to ho h4 ⟨?_, OnlyIn.refl.andThen setReg_onlyIn (by simp) (by simp) |>.andThen msixFlush1_onlyIn (by simp) (by simp)⟩
  rw [writeMsix, msixFlush1_onlyIn.2 _ List.not_mem_nil, setReg_reg_self]
  rfl

theorem msixTableWrite_sends {vec : Nat} {v : Word32} (hvec : vec < 32) (hmask : wbit v 0 = false) (hp : s.dev.bus.pba.getLsbD vec = true)
    (hl : s.dev.hif.linkUp = true) (hb : s.dev.hif.bme = true) :
    Completes (.msixTableWrite (16 * vec + 12) v) s fun d =>
      d.bus.out = .msix vec :: s.dev.bus.out ∧ d.bus.pba.getLsbD vec = false ∧
      (∀ u, u ≠ vec → d.bus.pba.getLsbD u = s.dev.bus.pba.getLsbD u) := by
  have hdiv : (16 * vec + 12) / 16 = vec := by omega
  have hmod : (16 * vec + 12) % 16 = 12 := by omega
  refine msixTableWrite_to (by omega) (by omega) ?_
  rw [writeMsix, hdiv]
  generalize hm : setReg (0x1800 + (16 * vec + 12)) (v &&& msixBits (16 * vec + 12)) s.dev = m
  have hbus : m.bus = s.dev.bus := hm ▸ rfl
  have hpm : m.bus.pba.getLsbD vec = true := by rw [hbus, hp]
  have hopen : msixOpen m vec = true := by
    have hreg : m.reg (0x1800 + 16 * vec + 12) = v &&& msixBits (16 * vec + 12) := by
      rw [← hm, ← Nat.add_assoc, setReg_reg_self]
    have hhif : m.hif = s.dev.hif := hm ▸ rfl
    have hbit : wbit (v &&& msixBits (16 * vec + 12)) 0 = false := by
      simp only [wbit] at hmask ⊢
      rw [BitVec.getLsbD_and, hmask, Bool.false_and]
    simp [msixOpen, hhif, hl, hb, hreg, hbit]
  have hsent := msixFlush1_sends hpm hopen
  refine ⟨?_, hsent.2, fun u hu => (msixFlush1_pba hu).trans (by rw [hbus])⟩
  rw [msixFlush1, hpm, hopen, Bool.and_self, if_pos rfl]
  exact congrArg (HostWrite.msix vec :: ·) (congrArg Bus.out hbus)

end

/-- Settles O40, clause by clause: a bit array's write acts on each source named, and the delivery that follows changes of a source no more
than that it is active or forwarded. -/
theorem sourceControlsWakeAndMessages : Obligations.SourceControlsWakeAndMessages :=
  ⟨⟨fun _ _ _ => maskSet_masks, fun _ _ _ => maskClr_unmasks, fun _ _ _ => pendSet_sets, fun _ _ _ => pendClr_clears,
      fun _ _ _ _ => hostMaskSet_refused, fun _ _ _ => thresholdWrite_sets, fun _ _ _ => srcCfgWrite_configures,
      fun _ _ _ => srcCfgWrite_refused⟩,
    fun _ _ _ => wakeSlotWrite_sets, fun _ _ _ => wakeDetect_wakes, fun _ => retentionEntry_enters, fun _ => retentionEntry_untimely,
    fun _ _ _ => msixTableWrite_stores, fun _ _ _ => msixTableWrite_sends⟩

end Sys2Proof.Machine
end


section
/-!
PROOFS. Test pulses and their checks (R409, R411 to R413, R416).

A pulse and its sample are those of an output's own window. The end of a period settles the checks, and what follows it leaves the latches:
`periodBegun` is the device as the next period begins, and `sendSync` and `noteSync` then change the group's synchronisation alone.
-/

namespace Sys2Proof.Machine

set_option Elab.async false

section
variable {s : State} {d e : Device} {i n : Nat} {l : List Nat} {cross : Bool} {c : PulseCheck}

/-! ### An output's own window (R409) -/

theorem windowMask_own (hj : d.fio.joint.getLsbD i = false) (hg : groupMember d i = false) : windowMask d i = 2 ^ i := by
  have hb : d.fio.joint.toNat.testBit i = false := hj
  simp [windowMask, hb, hg]

theorem windowOpens_own (hg : groupMember d i = false) :
    windowOpens d i = d.fio.periodStart + (2 * i + twinId d) * (fld d.fio.cfgNow 9 0 * 25000 / 8) := by
  simp [windowOpens, hg, slotLength, pulsePeriod, ticksPerMs]

theorem windowWidth_own (hg : groupMember d i = false) : windowWidth d i = fld d.fio.cfgNow 19 16 * 2500 := by
  unfold windowWidth
  split
  · rw [hg]
    rfl
  · rfl

/-- An output's own window holds its driver off, and no other (R409). -/
theorem pulseWindow_own (hi : i < 4) (hj : d.fio.joint.getLsbD i = false) (hg : groupMember d i = false) (he : energised d i = true)
    (hp : pulseEnabled d i = true) :
    pulseWindow i d = updFio (fun f =>
      { f with pulsing := BitVec.ofNat 4 (2 ^ i), windowEnd := d.now + fld d.fio.cfgNow 19 16 * 2500 }) d := by
  have hone : ∀ k, ((2 ^ i).testBit k && energised d k && (pulseEnabled d k || d.fio.joint.getLsbD k)) = decide (i = k) := by
    intro k
    by_cases hk : i = k
    · subst hk
      simp [he, hp]
    · simp [hk]
  have hoff : (List.range 4).filter (fun k => decide (i = k)) = [i] := by
    have closed : ∀ i < 4, (List.range 4).filter (fun k => decide (i = k)) = [i] := by decide
    exact closed i hi
  unfold pulseWindow
  simp only [windowMask_own hj hg, windowWidth_own hg, hone, hoff, if_neg (Nat.two_pow_pos i).ne', List.foldl_cons, List.foldl_nil, Nat.zero_add]

theorem exec_testPulseWindow :
    exec (.testPulseWindow i) s = effect s fun d => onlyIf (decide (i < 4 ∧ d.now = windowOpens d i)) (pulseWindow i) d := rfl

theorem testPulseWindow_opens (s : State) (i : Nat) (hi : i < 4) (hj : s.dev.fio.joint.getLsbD i = false) (hg : groupMember s.dev i = false)
    (he : energised s.dev i = true) (hp : pulseEnabled s.dev i = true)
    (ht : s.dev.now = s.dev.fio.periodStart + (2 * i + twinId s.dev) * (fld s.dev.fio.cfgNow 9 0 * 25000 / 8)) :
    Completes (.testPulseWindow i) s fun d =>
      d.fio = { s.dev.fio with pulsing := BitVec.ofNat 4 (2 ^ i), windowEnd := s.dev.now + fld s.dev.fio.cfgNow 19 16 * 2500 } ∧
      OnlyIn [.fio] [] s.dev d := by
  have hw : decide (i < 4 ∧ s.dev.now = windowOpens s.dev i) = true := decide_eq_true ⟨hi, ht.trans (windowOpens_own hg).symm⟩
  exact completes_to exec_testPulseWindow
    (by rw [hw, onlyIf_true, pulseWindow_own hi hj hg he hp]) ⟨rfl, updFio_onlyIn⟩

theorem testPulseWindow_untimely (s : State) (i : Nat) (h : 4 ≤ i ∨ s.dev.now ≠ windowOpens s.dev i) :
    Completes (.testPulseWindow i) s fun d => d = s.dev := by
  have hw : decide (i < 4 ∧ s.dev.now = windowOpens s.dev i) = false := decide_eq_false fun ⟨hi, ht⟩ => h.elim (by omega) (· ht)
  exact completes_to exec_testPulseWindow
    (by rw [hw, onlyIf_false]) rfl

/-! ### The sample of an output's own window (R411) -/

/-- The pins as sampled at the instant of output `i`, with its own bit read. -/
def pinsRead (i : Nat) (pins : BitVec 4) : Device → Device :=
  updFio fun f => { f with
    lowSoFar := f.lowSoFar &&& ~~~ pins, sampled := true,
    pin := (f.pin &&& ~~~ BitVec.ofNat 4 (2 ^ i)) ||| (pins &&& BitVec.ofNat 4 (2 ^ i)) }

theorem pinsRead_pin {pins : BitVec 4} (hi : i < 4) : (pinsRead i pins d).fio.pin.getLsbD i = pins.getLsbD i := by
  have closed : ∀ i < 4, (BitVec.ofNat 4 (2 ^ i)).getLsbD i = true := by decide
  simp only [pinsRead, updFio_fio, BitVec.getLsbD_or, BitVec.getLsbD_and, BitVec.getLsbD_not, closed i hi]
  simp

/-- The check of output `i` in its own window, as its pins read. -/
def ownCheck (i : Nat) (pins : BitVec 4) (d : Device) : PulseCheck :=
  { out := i, high := pins.getLsbD i, pins := pins, drivers := driversOn d }

theorem hasCheck_own (hl : isLatched d i = false) (hg : groupMember d i = false) (hj : d.fio.joint.getLsbD i = false)
    (he : energised d i = true) (hp : pulseEnabled d i = true) : hasCheck d i = true := by
  simp [hasCheck, hl, hg, hj, he, hp]

/-- The sample of an output's own window, counted and kept as its check (R411). -/
def ownSampled (i : Nat) (pins : BitVec 4) (d : Device) : Device :=
  count 0x1201C (updFio (fun f => { f with checks := f.checks ++ [ownCheck i pins d] }) (pinsRead i pins d))

theorem pulseSample_own {pins : BitVec 4} (hj : d.fio.joint.getLsbD i = false) (hg : groupMember d i = false)
    (hc : hasCheck d i = true) :
    pulseSample i pins d = ownSampled i pins d := by
  have hj' : (pinsRead i pins d).fio.joint.getLsbD i = false := hj
  have hg' : groupMember (pinsRead i pins d) i = false := hg
  have hc' : hasCheck (pinsRead i pins d) i = true := hc
  unfold pulseSample
  dsimp only
  rw [windowMask_own hj hg, if_neg (Nat.two_pow_pos i).ne']
  change (if (pinsRead i pins d).fio.joint.getLsbD i = true then _ else
    if groupMember (pinsRead i pins d) i = true then _ else if hasCheck (pinsRead i pins d) i = true then _ else _) = _
  rw [hj', hg', hc', if_neg Bool.false_ne_true, if_neg Bool.false_ne_true, if_pos rfl]
  rfl

theorem exec_pulseSampleInstant {pins : BitVec 4} : exec (.pulseSampleInstant i pins) s =
    effect s fun d => onlyIf (decide (i < 4 ∧ d.now + 1250 = windowOpens d i + windowWidth d i)) (pulseSample i pins) d := rfl

theorem pulseSampleInstant_checks (s : State) (i : Nat) (pins : BitVec 4) (hi : i < 4) (hj : s.dev.fio.joint.getLsbD i = false)
    (hg : groupMember s.dev i = false) (hl : isLatched s.dev i = false) (he : energised s.dev i = true)
    (hp : pulseEnabled s.dev i = true)
    (ht : s.dev.now + 1250 = s.dev.fio.periodStart + (2 * i + twinId s.dev) * (fld s.dev.fio.cfgNow 9 0 * 25000 / 8)
      + fld s.dev.fio.cfgNow 19 16 * 2500) :
    Completes (.pulseSampleInstant i pins) s fun d =>
      d.fio.checks = s.dev.fio.checks ++ [{ out := i, high := pins.getLsbD i, pins := pins, drivers := driversOn s.dev }] ∧
      d.fio.pin.getLsbD i = pins.getLsbD i ∧ d.fio.sampled = true ∧
      d.reg 0x1201C = BitVec.ofNat 32 (min 0xFFFFFFFF ((s.dev.reg 0x1201C).toNat + 1)) ∧ OnlyIn [.fio] [0x1201C] s.dev d := by
  have hw : decide (i < 4 ∧ s.dev.now + 1250 = windowOpens s.dev i + windowWidth s.dev i) = true := by
    rw [windowOpens_own hg, windowWidth_own hg]
    exact decide_eq_true ⟨hi, ht⟩
  refine completes_to (e := ownSampled i pins s.dev) exec_pulseSampleInstant
    (by rw [hw, onlyIf_true, pulseSample_own hj hg (hasCheck_own hl hg hj he hp)])
    ⟨rfl, pinsRead_pin (d := s.dev) hi, rfl, ?_, ?_⟩
  · rw [ownSampled, count_reg, if_pos rfl]
    rfl
  · exact OnlyIn.refl.andThen updFio_onlyIn |>.andThen updFio_onlyIn |>.andThen count_onlyIn

/-! ### Latching (R413) -/

theorem latchOutputs_onlyIn : OnlyIn ([.fio, .lsk, .evt] ++ interruptParts) [0x12020, 0x4540] d (latchOutputs cross l d) := by
  unfold latchOutputs
  dsimp only
  split
  · exact .refl
  · exact OnlyIn.refl.andThen updFio_onlyIn |>.andThen setReg_onlyIn |>.andThen logSafety_onlyIn |>.andThen raise_onlyIn

/-- Latching adds the outputs named to the latches of its kind. -/
theorem latchOutputs_fio : (latchOutputs cross l d).fio =
    if cross then { d.fio with cross := d.fio.cross ||| maskOf l } else { d.fio with ext := d.fio.ext ||| maskOf l } := by
  unfold latchOutputs
  dsimp only
  split
  · next h =>
    rw [h]
    split
    · simp
    · simp
  · rw [raise_onlyIn.1 .fio (by decide), logSafety_onlyIn.1 .fio (by decide)]
    rfl

theorem maskOf_ne_zero (hi : i < 4) (hl : i ∈ l) : maskOf l ≠ 0 := by
  intro h
  have hb := maskOf_getLsbD (l := l) hi
  rw [h, List.contains_iff_mem.2 hl] at hb
  simp at hb

theorem latchOutputs_raises (hi : i < 4) (hl : i ∈ l) : Raised (if cross then 168 else 166) (latchOutputs cross l d) := by
  unfold latchOutputs
  dsimp only
  rw [if_neg (maskOf_ne_zero hi hl)]
  exact raised_raise _ _

/-- A latched output is counted (R413). -/
theorem latchOutputs_counts (hi : i < 4) :
    (latchOutputs cross [i] d).reg 0x12020 = BitVec.ofNat 32 (min 0xFFFFFFFF ((d.reg 0x12020).toNat + 1)) := by
  have closed : ∀ i < 4, ((List.range 4).filter (maskOf [i]).getLsbD).length = 1 := by decide
  unfold latchOutputs
  dsimp only
  rw [if_neg (maskOf_ne_zero hi List.mem_cons_self), closed i hi, raise_onlyIn.2 _ (by decide), logSafety_onlyIn.2 _ (by decide)]
  exact setReg_reg_self _ _ _

/-! ### The checks of a period are settled (R412) -/

/-- From `d` to `e` no output left CROSS_CONNECT and no detection was taken back. -/
structure Latching (d e : Device) : Prop where
  cross : ∀ i, d.fio.cross.getLsbD i = true → e.fio.cross.getLsbD i = true
  raised : ∀ n, Raised n d → Raised n e

protected theorem Latching.latchOutputs (h : Latching e d) : Latching e (latchOutputs cross l d) where
  cross i hi := by
    rw [latchOutputs_fio]
    split
    · simp [h.cross i hi]
    · exact h.cross i hi
  raised n hn := by
    unfold Sys2Proof.Machine.latchOutputs
    dsimp only
    split
    · exact h.raised n hn
    · refine Raised.raise (Raised.andThen (Raised.andThen (Raised.andThen (h.raised n hn) updFio_onlyIn) setReg_onlyIn) logSafety_onlyIn) _

protected theorem Latching.ite {d₁ d₂ : Device} {p : Prop} [Decidable p] (h : Latching e d₁) (g : Latching e d₂) :
    Latching e (if p then d₁ else d₂) := by
  split
  · exact h
  · exact g

protected theorem Latching.refl : Latching d d := ⟨fun _ => id, fun _ => id⟩

/-- A change of the joint window is no matter of the latches. -/
protected theorem Latching.joint {m : BitVec 4} (h : Latching e d) : Latching e (updFio (fun f => { f with joint := m }) d) :=
  ⟨h.cross, fun n hn => (h.raised n hn).of_icu rfl⟩

theorem crossedWith_alone : crossedWith [c] c = [] := by simp [crossedWith]

theorem settleChecks_low (hc : d.fio.checks = [c]) (hh : c.high = false) (hg : d.fio.groupFailed = none) : settleChecks d = d := by
  simp [settleChecks, hc, hh, hg]

/-- One failed check is EXT_DRIVE (R412). -/
theorem settleChecks_high (hc : d.fio.checks = [c]) (hh : c.high = true) (hl : isLatched d c.out = false)
    (hg : d.fio.groupFailed = none) : settleChecks d = latchOutputs false [c.out] d := by
  have hg' : (latchOutputs false [c.out] d).fio.groupFailed = none := by
    rw [latchOutputs_fio]
    exact hg
  simp [settleChecks, hc, hh, hl, crossedWith_alone, hg']

/-- Two failed checks, one pin low while the other's driver was on, are CROSS_CONNECT of both (R412 (a)). -/
theorem settleChecks_crossed {a b : PulseCheck} (hc : d.fio.checks = [a, b]) (hne : a.out ≠ b.out) (ha : a.high = true) (hb : b.high = true)
    (hdrv : a.drivers.getLsbD b.out = true) (hpin : b.pins.getLsbD a.out = false) :
    Latching (latchOutputs true [a.out, b.out] d) (settleChecks d) := by
  have hys : crossedWith [a, b] a = [b.out] := by simp [crossedWith, hdrv, hpin, hne.symm]
  have hfailed : [a, b].filter (·.high) = [a, b] := by simp [ha, hb]
  unfold settleChecks
  dsimp only
  rw [hc, hfailed]
  simp only [List.foldl_cons, List.foldl_nil, hys, List.isEmpty_cons, Bool.false_eq_true, if_false]
  have h₁ : Latching (latchOutputs true [a.out, b.out] d)
      (if (crossedWith [a, b] b).isEmpty = true then latchOutputs true [a.out, b.out] d
        else latchOutputs true (b.out :: crossedWith [a, b] b) (latchOutputs true [a.out, b.out] d)) :=
    Latching.refl.ite Latching.refl.latchOutputs
  generalize (if (crossedWith [a, b] b).isEmpty = true then _ else _) = e₁ at h₁ ⊢
  generalize List.filter _ (List.map _ _) = rest
  have h₂ : Latching (latchOutputs true [a.out, b.out] d) (if rest.length = 1 then latchOutputs false rest e₁ else e₁) :=
    h₁.latchOutputs.ite h₁
  generalize (if rest.length = 1 then _ else _) = e₂ at h₂ ⊢
  have h₃ : Latching (latchOutputs true [a.out, b.out] d)
      (if 2 ≤ rest.length then updFio (fun f => { f with joint := maskOf rest }) e₂ else e₂) := h₂.joint.ite h₂
  exact h₃.latchOutputs.ite h₃

/-! ### The next period begins (R409, R412) -/

/-- The new period's start, with its settings in force and nothing checked in it. -/
def periodBegun (d : Device) : Device :=
  updFio (fun f => { f with
    lowLast := if f.sampled then f.lowSoFar else 0, lowSoFar := 0xF, sampled := false, checks := [], groupFailed := none
    pulsing := 0, periodStart := f.periodStart + pulsePeriod d, cfgNow := d.reg 0x12004, groupNow := d.reg 0x12008
    syncLast := (f.syncSeen :: f.syncLast).take 2, syncSeen := false, restorePending := false }) d

theorem noteSync_fio : ∃ b, (noteSync d).fio = { d.fio with sync := b } := by
  unfold noteSync
  dsimp only
  split
  · exact ⟨d.fio.sync, rfl⟩
  · refine ⟨groupPeer d != 0 && synchronised d, ?_⟩
    rw [logSafety_onlyIn.1 .fio (by decide)]
    rfl

theorem noteSync_onlyIn : OnlyIn [.fio, .lsk, .evt] [] d (noteSync d) := by
  unfold noteSync
  dsimp only
  split
  · exact .refl
  · exact OnlyIn.refl.andThen updFio_onlyIn |>.andThen logSafety_onlyIn

theorem sendSync_fio : ∃ b, (sendSync d).fio = { d.fio with syncSeen := b } := by
  unfold sendSync
  split
  · split
    · exact ⟨true, by rw [sendMsg_onlyIn.1 .fio (by decide)]; rfl⟩
    · exact ⟨d.fio.syncSeen, rfl⟩
  · exact ⟨d.fio.syncSeen, rfl⟩

theorem sendSync_onlyIn : OnlyIn [.fio, .lath] [] d (sendSync d) := by
  unfold sendSync
  split
  · split
    · exact OnlyIn.refl.andThen updFio_onlyIn |>.andThen sendMsg_onlyIn
    · exact .refl
  · exact .refl

/-- `e` is `d`, with the group's synchronisation told and noted. -/
structure SyncTold (d e : Device) : Prop where
  fio : ∃ seen noted, e.fio = { d.fio with syncSeen := seen, sync := noted }
  kept : OnlyIn [.fio, .lath, .lsk, .evt] [] d e

theorem syncTold : SyncTold d (noteSync (sendSync d)) where
  fio := by
    obtain ⟨seen, hs⟩ := sendSync_fio (d := d)
    obtain ⟨noted, hn⟩ := noteSync_fio (d := sendSync d)
    exact ⟨seen, noted, by rw [hn, hs]⟩
  kept := OnlyIn.refl.andThen sendSync_onlyIn |>.andThen noteSync_onlyIn

/-- The checks settled, with no joint window. -/
def checksSettled (d : Device) : Device := settleChecks (updFio (fun f => { f with joint := 0 }) d)

theorem pulsePeriodEnd_told : SyncTold (periodBegun (checksSettled d)) (pulsePeriodEnd d) := syncTold

theorem exec_pulsePeriodEnd : exec .pulsePeriodEnd s =
    effect s fun d => onlyIf (decide (d.fio.periodStart + pulsePeriod d ≤ d.now)) pulsePeriodEnd d := rfl

/-- What the end of a period leaves, in terms of the device whose checks are settled. -/
theorem pulsePeriodEnd_completes {P : Device → Prop} (s : State) (h : s.dev.fio.periodStart + pulsePeriod s.dev ≤ s.dev.now)
    (p : ∀ d, SyncTold (periodBegun (checksSettled s.dev)) d → P d) : Completes .pulsePeriodEnd s P :=
  completes_to exec_pulsePeriodEnd
    (by rw [decide_eq_true h, onlyIf_true]) (p _ pulsePeriodEnd_told)

theorem SyncTold.raised (h : SyncTold (periodBegun d) e) (hr : Raised n d) : Raised n e :=
  hr.of_icu (h.kept.1 .icu (by decide))

theorem pulsePeriodEnd_extDrive (s : State) (c : PulseCheck) (ht : s.dev.fio.periodStart + pulsePeriod s.dev ≤ s.dev.now)
    (hc : s.dev.fio.checks = [c]) (hi : c.out < 4) (hh : c.high = true) (hl : isLatched s.dev c.out = false)
    (hg : s.dev.fio.groupFailed = none) :
    Completes .pulsePeriodEnd s fun d =>
      d.fio.ext.getLsbD c.out = true ∧ (∀ i, i ≠ c.out → d.fio.ext.getLsbD i = s.dev.fio.ext.getLsbD i) ∧ d.fio.cross = s.dev.fio.cross ∧
      d.fio.joint = 0 ∧ d.fio.checks = [] ∧ d.fio.periodStart = s.dev.fio.periodStart + pulsePeriod s.dev ∧ d.fio.cfgNow = s.dev.reg 0x12004 ∧
      d.fio.groupNow = s.dev.reg 0x12008 ∧
      d.reg 0x12020 = BitVec.ofNat 32 (min 0xFFFFFFFF ((s.dev.reg 0x12020).toNat + 1)) ∧ Raised 166 d := by
  refine pulsePeriodEnd_completes s ht fun d hd => ?_
  have hs : checksSettled s.dev = latchOutputs false [c.out] (updFio (fun f => { f with joint := 0 }) s.dev) := settleChecks_high hc hh hl hg
  have hfio : (checksSettled s.dev).fio = { s.dev.fio with joint := 0, ext := s.dev.fio.ext ||| maskOf [c.out] } := by
    rw [hs, latchOutputs_fio]
    rfl
  have hreg : ∀ o, o ∉ [0x12020, 0x4540] → (checksSettled s.dev).reg o = s.dev.reg o := fun o ho => by
    rw [hs]
    exact latchOutputs_onlyIn.2 o ho
  obtain ⟨seen, noted, he⟩ := hd.fio
  have hext : d.fio.ext = s.dev.fio.ext ||| maskOf [c.out] := by
    rw [he]
    change (checksSettled s.dev).fio.ext = _
    rw [hfio]
  refine ⟨?_, fun i hne => ?_, ?_, ?_, by rw [he]; rfl, ?_, ?_, ?_, ?_, hd.raised ?_⟩
  · rw [hext, BitVec.getLsbD_or, maskOf_getLsbD hi]
    simp
  · rw [hext, BitVec.getLsbD_or]
    by_cases h4 : i < 4
    · simp [maskOf_getLsbD h4, hne]
    · simp [BitVec.getLsbD_of_ge _ _ (Nat.le_of_not_lt h4)]
  · rw [he]
    change (checksSettled s.dev).fio.cross = _
    rw [hfio]
  · rw [he]
    change (checksSettled s.dev).fio.joint = _
    rw [hfio]
  · rw [he]
    change (checksSettled s.dev).fio.periodStart + fld (checksSettled s.dev).fio.cfgNow 9 0 * ticksPerMs = _
    rw [hfio]
    rfl
  · rw [he]
    exact hreg _ (by decide)
  · rw [he]
    exact hreg _ (by decide)
  · rw [hd.kept.2 _ (by decide)]
    change (checksSettled s.dev).reg _ = _
    rw [hs]
    exact latchOutputs_counts hi
  · rw [hs]
    exact latchOutputs_raises hi List.mem_cons_self

theorem pulsePeriodEnd_passed (s : State) (c : PulseCheck) (ht : s.dev.fio.periodStart + pulsePeriod s.dev ≤ s.dev.now)
    (hc : s.dev.fio.checks = [c]) (hh : c.high = false) (hg : s.dev.fio.groupFailed = none) :
    Completes .pulsePeriodEnd s fun d => d.fio.ext = s.dev.fio.ext ∧ d.fio.cross = s.dev.fio.cross ∧ d.fio.checks = [] := by
  refine pulsePeriodEnd_completes s ht fun d hd => ?_
  have hs : checksSettled s.dev = updFio (fun f => { f with joint := 0 }) s.dev := settleChecks_low hc hh hg
  obtain ⟨seen, noted, he⟩ := hd.fio
  rw [he, hs]
  exact ⟨rfl, rfl, rfl⟩

theorem pulsePeriodEnd_crossConnect (s : State) (a b : PulseCheck) (ht : s.dev.fio.periodStart + pulsePeriod s.dev ≤ s.dev.now)
    (hc : s.dev.fio.checks = [a, b]) (ha : a.out < 4) (hb : b.out < 4) (hne : a.out ≠ b.out) (hha : a.high = true) (hhb : b.high = true)
    (hdrv : a.drivers.getLsbD b.out = true) (hpin : b.pins.getLsbD a.out = false) :
    Completes .pulsePeriodEnd s fun d => d.fio.cross.getLsbD a.out = true ∧ d.fio.cross.getLsbD b.out = true ∧ Raised 168 d := by
  refine pulsePeriodEnd_completes s ht fun d hd => ?_
  have hs : Latching (latchOutputs true [a.out, b.out] (updFio (fun f => { f with joint := 0 }) s.dev)) (checksSettled s.dev) :=
    settleChecks_crossed hc hne hha hhb hdrv hpin
  obtain ⟨seen, noted, he⟩ := hd.fio
  have hcross : d.fio.cross = (checksSettled s.dev).fio.cross := by rw [he]; rfl
  refine ⟨hcross ▸ hs.cross _ ?_, hcross ▸ hs.cross _ ?_, hd.raised (hs.raised 168 (latchOutputs_raises ha List.mem_cons_self))⟩
  · rw [latchOutputs_fio, if_pos rfl]
    simp [maskOf_getLsbD ha]
  · rw [latchOutputs_fio, if_pos rfl]
    simp [maskOf_getLsbD hb]

theorem pulsePeriodEnd_early (s : State) (h : s.dev.now < s.dev.fio.periodStart + pulsePeriod s.dev) :
    Completes .pulsePeriodEnd s fun d => d = s.dev :=
  completes_to exec_pulsePeriodEnd
    (by rw [decide_eq_false (Nat.not_le.2 h), onlyIf_false]) rfl

/-! ### PULSE_SYNC received (R416) -/

theorem exec_pulseSync {cr : Credits} {ticks width l p : Nat} :
    exec (.pulseSync cr ticks width l p) s = effect s (receive cr (.pulseSync ticks width l p) (takeSync ticks width l p)) := rfl

/-- What PULSE_SYNC gives TWIN_ID 1. -/
def syncTaken (ticks width l p : Nat) (d : Device) : Device :=
  updFio (fun f => { f with syncSeen := true, peerLocal := l, peerPeer := p, groupWindow := some (d.now + ticks, width) }) d

theorem takeSync_second {ticks width l p : Nat} (h : twinId d = 1) :
    takeSync ticks width l p d = noteSync (syncTaken ticks width l p d) := if_pos h

theorem pulseSync_taken (s : State) (cr : Credits) (ticks width l p : Nat) (hlive : s.dev.lath.live = true) (htwin : twinId s.dev = 1) :
    Completes (.pulseSync cr ticks width l p) s fun d =>
      d.fio.syncSeen = true ∧ d.fio.peerLocal = l ∧ d.fio.peerPeer = p ∧ d.fio.groupWindow = some (s.dev.now + ticks, width) ∧
      OnlyIn [.fio, .lath, .lsk, .evt] [0xE028] s.dev d := by
  have heven : (msgPayload (.pulseSync ticks width l p)).length % 2 = 0 := by simp [msgPayload]
  have ha : OnlyIn [.lath] [0xE028] s.dev (arrived cr (.pulseSync ticks width l p) s.dev) := arrived_onlyIn_of_even heven
  refine completes_receive exec_pulseSync hlive ?_
  rw [takeSync_second (twinId_arrived.trans htwin)]
  obtain ⟨noted, hn⟩ := noteSync_fio (d := syncTaken ticks width l p (arrived cr (.pulseSync ticks width l p) s.dev))
  refine ⟨?_, ?_, ?_, ?_, OnlyIn.refl.andThen ha |>.andThen updFio_onlyIn |>.andThen noteSync_onlyIn |>.andThen freeSlot_onlyIn⟩
  all_goals rw [freeSlot_onlyIn.1 .fio (by decide), hn]
  · rfl
  · rfl
  · rfl
  · rw [← ha.now_eq (by decide)]
    rfl

end

/-- Settles O46: an output's own window and sample, the end of a period by its checks, and PULSE_SYNC. -/
theorem testPulsesCheckTheOutputs : Obligations.TestPulsesCheckTheOutputs :=
  ⟨testPulseWindow_opens, testPulseWindow_untimely, pulseSampleInstant_checks, pulsePeriodEnd_extDrive, pulsePeriodEnd_passed,
    fun s a b ht hc ha hb hne hha hhb hdrv hpin _ => pulsePeriodEnd_crossConnect s a b ht hc ha hb hne hha hhb hdrv hpin,
    pulsePeriodEnd_early, pulseSync_taken⟩

end Sys2Proof.Machine
end


section
/-!
PROOFS. Lockstep supervision of the management pair (R399 to R403, R420).

The comparator's operands first: the bits of a transaction are told from its address and data, and parity is even over them. Then the way into
Primer, which holds the pair for its cause and takes no detection back, and the operations that begin and end a warm restart.
-/

namespace Sys2Proof.Machine

set_option Elab.async false

section
variable {s : State} {d₀ d e : Device} {cause n : Nat}

/-! ### The bits of a transaction (R398) -/

theorem append_cancel {m k : Nat} {x y : BitVec m} {a b : BitVec k} (h : x ++ a = y ++ b) : x = y ∧ a = b := by
  have hl := congrArg (BitVec.extractLsb' k m) h
  have hr := congrArg (BitVec.setWidth k) h
  rw [BitVec.extractLsb'_append_eq_left, BitVec.extractLsb'_append_eq_left] at hl
  rw [BitVec.setWidth_append_eq_right, BitVec.setWidth_append_eq_right] at hr
  exact ⟨hl, hr⟩

theorem busBits_injective {a b : BusCopy} (h : busBits a = busBits b) : a = b := by
  obtain ⟨h, haddr⟩ := append_cancel h
  obtain ⟨h, hdata⟩ := append_cancel h
  obtain ⟨hkind, henables⟩ := append_cancel h
  cases a
  cases b
  exact BusCopy.mk.injEq .. |>.mpr ⟨haddr, hdata, henables, hkind⟩

theorem busBits_addr {t : BusCopy} : (busBits t).setWidth 32 = t.addr := BitVec.setWidth_append_eq_right

/-! ### Parity (R399) -/

theorem dvd_foldl_parity {l : List Nat} {m : Nat} (h : 2 ^ 72 ∣ m) : 2 ^ 72 ∣ l.foldl (fun m k => m + 2 ^ (72 + k)) m := by
  induction l generalizing m with
  | nil => exact h
  | cons k l ih => exact ih (Nat.dvd_add h (Nat.pow_dvd_pow 2 (Nat.le_add_right 72 k)))

/-- The parity bits stand above the 72 bits that they guard. -/
theorem withParity_setWidth {v : BitVec 72} : (withParity v).setWidth 72 = v := by
  unfold withParity
  extract_lets odd
  obtain ⟨q, hq⟩ := dvd_foldl_parity (l := (List.range 9).filter odd) (Nat.dvd_zero (2 ^ 72))
  rw [hq]
  apply BitVec.eq_of_getLsbD_eq
  intro i hi
  have h81 : i < 81 := by omega
  have hlow : (2 ^ 72 * q).testBit i = false := by
    rw [Nat.testBit_two_pow_mul, decide_eq_false (Nat.not_le.2 hi), Bool.false_and]
  rw [BitVec.getLsbD_setWidth, BitVec.getLsbD_or, BitVec.getLsbD_setWidth, BitVec.getLsbD_ofNat, hlow]
  simp [hi, h81]

theorem parityOk_withParity {v : BitVec 72} : parityOk (withParity v) = true := by
  rw [parityOk, withParity_setWidth]
  exact decide_eq_true rfl

theorem withParity_addr {t : BusCopy} : (withParity (busBits t)).setWidth 32 = t.addr := by
  have h : ((withParity (busBits t)).setWidth 72).setWidth 32 = (withParity (busBits t)).setWidth 32 :=
    BitVec.setWidth_setWidth_of_le _ (by decide)
  rw [← h, withParity_setWidth, busBits_addr]

/-- A delay register of which at most copy A has bits upset. -/
theorem delayed_upsetA {v : BitVec 72} {upset : BitVec 81} : delayed v upset 0 = ⟨withParity v ^^^ upset, withParity v⟩ :=
  congrArg (DelayReg.mk _) BitVec.xor_zero

theorem delayed_sound {v : BitVec 72} : delayed v 0 0 = ⟨withParity v, withParity v⟩ :=
  delayed_upsetA.trans (congrArg (DelayReg.mk · _) BitVec.xor_zero)

theorem delayFault_sound {v : BitVec 72} : delayFault (delayed v 0 0) = none := by
  rw [delayed_sound]
  simp [delayFault, parityOk_withParity]

/-- Upset bits of one copy are found, by its parity or by the other copy (R399). -/
theorem delayFault_upset {v : BitVec 72} {upset : BitVec 81} (h : upset ≠ 0) :
    delayFault (delayed v upset 0) = some (if parityOk (withParity v ^^^ upset) then 4 else 3) := by
  have hne : withParity v ^^^ upset ≠ withParity v := fun he => h (by
    have hx := congrArg (withParity v ^^^ ·) he
    simpa [← BitVec.xor_assoc] using hx)
  rw [delayed_upsetA]
  simp only [delayFault, parityOk_withParity, Bool.not_true, Bool.or_false, if_neg hne]
  cases parityOk (withParity v ^^^ upset) with
  | true => rfl
  | false => rfl

/-! ### What the restart and the way into Primer leave -/

protected theorem Steady.updAvs {f : Avs → Avs} (h : Steady d₀ d) : Steady d₀ (updAvs f d) := by
  unfold Sys2Proof.Machine.updAvs
  exact h.avs

protected theorem Steady.avsPut {code : Nat} (h : Steady d₀ d) : Steady d₀ (avsPut code d) := by
  unfold Sys2Proof.Machine.avsPut
  exact h.ite h.updAvs

protected theorem Steady.clampAvs (h : Steady d₀ d) : Steady d₀ (clampAvs d) := by
  unfold Sys2Proof.Machine.clampAvs
  exact h.ite (h.avsPut.ite (h.avsPut.ite h))

protected theorem Steady.setSpeed {fast : Bool} (h : Steady d₀ d) : Steady d₀ (setSpeed fast d) := by
  unfold Sys2Proof.Machine.setSpeed
  exact h.ite (h.edit.when (fun h => h.putLoopCmd))

protected theorem Steady.programMark {a : Nat} (h : Steady d₀ d) : Steady d₀ (programMark a d) := by
  unfold Sys2Proof.Machine.programMark
  exact h.updFls.programAt

protected theorem Steady.imageStarts (h : Steady d₀ d) : Steady d₀ (imageStarts d) := by
  unfold Sys2Proof.Machine.imageStarts
  dsimp only
  split
  · split
    · exact h.gen.programMark
    · exact h.gen
  · exact h.gen

/-- What another part of the device does takes no detection back. -/
theorem Detected.andThen {bs : List Block} {os : List Nat} (h : Detected n d) (g : OnlyIn bs os d e)
    (hb : Block.icu ∉ bs := by decide) : Detected n e := h.of_icu (g.1 .icu hb)

/-- The service of active states ends, and what is pending stays so (R360). -/
protected theorem Raised.endActive {t : Nat} (h : Raised n d) : Raised n (endActive t d) := by
  have hfold : ∀ (l : List (Nat × Src)) (d : Device), Raised n d →
      Raised n (l.foldl (fun d p => updSrc p.1 (fun x => { x with active := false, forwarded := false }) d) d) := by
    intro l
    induction l with
    | nil => exact fun _ h => h
    | cons p l ih =>
      intro d h
      refine ih _ (h.imp (fun hp => ?_) id)
      rw [updSrc_src]
      split
      · next he => rw [← he]; exact hp
      · exact hp
  exact (hfold _ _ h).deliver

/-! ### Into Primer (R401, R403) -/

theorem setMode_primer_mode : (setMode .primer d).gen.mode = .primer := by
  by_cases h : d.gen.mode = .primer
  · simp [setMode, h]
  · have hchange : Evolves .any (updGen (fun g => { g with mode := .primer }) d)
        (if d.gen.mode = .topcoat then leaveTopcoat (tellMode (raise 18 (updGen (fun g => { g with mode := .primer }) d)))
          else tellMode (raise 18 (updGen (fun g => { g with mode := .primer }) d))) :=
      Evolves.refl.raise.tellMode.when .leaveTopcoat
    have heq : setMode .primer d =
        if d.gen.mode = .topcoat then leaveTopcoat (tellMode (raise 18 (updGen (fun g => { g with mode := .primer }) d)))
          else tellMode (raise 18 (updGen (fun g => { g with mode := .primer }) d)) := by
      simp [setMode, h]
    rw [heq]
    exact hchange.primer rfl

/-- From `d` into Primer for a cause: the pair is held for it, source 162 is detected, and no detection is taken back. -/
structure HeldInPrimer (cause : Nat) (d e : Device) : Prop where
  mode : e.gen.mode = .primer
  lsk : e.lsk = { d.lsk with cause := cause, pair := .held, testDue := false }
  told : Raised 162 e
  detected : ∀ n, Detected n d → Raised n e

theorem enterPrimer_held (hp : d.gen.mode ≠ .primer) : HeldInPrimer cause d (enterPrimer cause d) := by
  unfold enterPrimer
  rw [if_neg hp]
  extract_lets d₁ sv d₂ d₃ d₄ d₅ d₆ d₇ b
  have h₄ : Steady d₁ d₄ := (Steady.refl.servo.when fun h => h.setRegF.setSpeed).updWrc
  have hpower : Steady d₁ (noPower d₇) := h₄.setMode.clampAvs.updCry.updGen.noPower
  have hdetect : ∀ n, Detected n d₁ → Detected n b := fun n hn => (hpower.detected n hn).of_icu rfl
  have hlsk : b.lsk = d₁.lsk := hpower.lsk
  have hend : Steady b (finishAll (fun c => !placedAppend c && c.phase != .dead) stAbortedMode b) := Steady.refl.finishAll
  refine ⟨?_, ?_, ?_, fun n hn => ?_⟩
  · have hm : Evolves .any (setMode .primer d₄) b := Evolves.refl.clampAvs.updCry.updGen.noPower.dropBalance
    exact hm.finishAll.primer setMode_primer_mode
  · rw [hend.lsk, hlsk, raise_onlyIn.1 .lsk (by decide)]
    rfl
  · exact (hend.detected 162 (hdetect 162 detected_raise)).raised
  · exact (hend.detected n (hdetect n (Detected.raise (d := heldFor cause d) (hn.of_icu rfl)))).raised

/-! ### Tokens (R397) -/

theorem coreToken_lead {r : Option DelayReg} {c : CorePair} : (coreToken r c).lead = c.lead + 1 := by
  unfold coreToken
  dsimp only
  split
  · rfl
  · rfl

theorem issuePair_lead {r : DelayReg} : (issuePair r d).lsk.cores.lead = d.lsk.cores.lead + 3 := by
  simp only [issuePair, updLsk, coreToken_lead]

theorem freeOutput_lead : (freeOutput d).lsk.cores.lead = d.lsk.cores.lead := rfl

/-! ### A core mismatch (R401, R402) -/

/-- The safety fault log takes an entry, and counts what it drops. -/
theorem logSafety_lsk {cls action : Nat} {outputs : BitVec 4} {detail : Word32} : ∃ log lost,
    (logSafety cls outputs action detail d).lsk = { d.lsk with log := log, lost := lost } :=
  ⟨(logSafety cls outputs action detail d).lsk.log, (logSafety cls outputs action detail d).lsk.lost, by
    have h : (logLater d.now 2 0 (cls + 256 * outputs.toNat) (leBytes 4 action ++ leBytes 4 detail.toNat) d).lsk = d.lsk :=
      logLater_onlyIn.1 .lsk (by decide)
    unfold logSafety
    rw [updLsk_lsk, h]⟩

/-- A core mismatch as counted, before it is answered. -/
def mismatchNoted (addr : Word32) (d : Device) : Device :=
  raise 160 (updLsk (fun l => { l with
    mismatches := d.now :: d.lsk.mismatches.filter (fun t => decide (d.now ≤ t + 250000000)),
    count := min 0xFFFFFFFF (l.count + 1), addr := addr }) d)

theorem mismatchAt_restarts {addr : Word32}
    (h : (d.lsk.mismatches.filter fun t => decide (d.now ≤ t + 250000000)).length < 2) :
    mismatchAt addr d = beginRestart (logSafety 1 0 1 addr (mismatchNoted addr d)) := if_neg (Nat.not_le.2 h)

theorem mismatchAt_holds {addr : Word32}
    (h : 2 ≤ (d.lsk.mismatches.filter fun t => decide (d.now ≤ t + 250000000)).length) :
    mismatchAt addr d = enterPrimer 1 (logSafety 1 0 2 addr (mismatchNoted addr d)) := if_pos h

theorem mismatchNoted_onlyIn {addr : Word32} : OnlyIn (.lsk :: interruptParts) [0x4540] d (mismatchNoted addr d) :=
  OnlyIn.refl.andThen updLsk_onlyIn |>.andThen raise_onlyIn

/-- The pair as a warm restart begins at `now`. -/
def restarted (now : Nat) (l : Lockstep) : Lockstep :=
  { l with pair := .restarting, restartStart := now, testDue := false, cores := { l.cores with inputs := [], outputs := [] } }

theorem beginRestart_eq : beginRestart d = endActive 0 (updLsk (restarted d.now) d) := rfl

theorem beginRestart_lsk : (beginRestart d).lsk = restarted d.now d.lsk := by
  rw [beginRestart_eq, endActive_onlyIn.1 .lsk (by decide)]
  rfl

theorem beginRestart_onlyIn : OnlyIn (.lsk :: interruptParts) [0x4540] d (beginRestart d) :=
  OnlyIn.refl.andThen updLsk_onlyIn |>.andThen endActive_onlyIn

/-- What a warm restart keeps of the mismatch that began it. -/
structure Restarts (addr : Word32) (d e : Device) : Prop where
  pair : e.lsk.pair = .restarting
  start : e.lsk.restartStart = d.now
  count : e.lsk.count = min 0xFFFFFFFF (d.lsk.count + 1)
  address : e.lsk.addr = addr
  log : (e.lsk.log.head?).map (fun x => (x.cls, x.action, x.detail)) = some (1, 1, addr)
  told : Raised 160 e
  kept : OnlyIn ([.lsk, .evt] ++ interruptParts) [0x4540] d e

theorem mismatchAt_restarting {addr : Word32}
    (h : (d.lsk.mismatches.filter fun t => decide (d.now ≤ t + 250000000)).length < 2) : Restarts addr d (mismatchAt addr d) := by
  have hnoted : OnlyIn ([.lsk, .evt] ++ interruptParts) [0x4540] d (logSafety 1 0 1 addr (mismatchNoted addr d)) :=
    OnlyIn.refl.andThen mismatchNoted_onlyIn |>.andThen logSafety_onlyIn
  have hlsk : (mismatchNoted addr d).lsk = { d.lsk with
      mismatches := d.now :: d.lsk.mismatches.filter (fun t => decide (d.now ≤ t + 250000000)),
      count := min 0xFFFFFFFF (d.lsk.count + 1), addr := addr } := raise_onlyIn.1 .lsk (by decide)
  have hraised : Raised 160 (logSafety 1 0 1 addr (mismatchNoted addr d)) := (raised_raise _ _).andThen logSafety_onlyIn
  obtain ⟨log, lost, hlog⟩ := logSafety_lsk (d := mismatchNoted addr d) (cls := 1) (outputs := 0) (action := 1) (detail := addr)
  have he : (mismatchAt addr d).lsk = restarted d.now (logSafety 1 0 1 addr (mismatchNoted addr d)).lsk := by
    rw [mismatchAt_restarts h, beginRestart_lsk, hnoted.now_eq (by decide)]
  refine ⟨by rw [he]; rfl, by rw [he]; rfl, ?_, ?_, ?_, ?_, ?_⟩
  · rw [he, hlog, hlsk]
    rfl
  · rw [he, hlog, hlsk]
    rfl
  · rw [he]
    rfl
  · rw [mismatchAt_restarts h]
    exact (hraised.andThen updLsk_onlyIn).endActive
  · rw [mismatchAt_restarts h]
    exact hnoted.andThen beginRestart_onlyIn

/-! ### The commands -/

theorem exec_coreMismatch {lead trail : BusCopy} {upsetA upsetB : BitVec 81} : exec (.coreMismatch lead trail upsetA upsetB) s =
    effect s fun d => onlyIf (pairRuns d) (coreMismatch lead trail upsetA upsetB) d := rfl

theorem coreMismatch_unequal {lead trail : BusCopy} (h : lead ≠ trail) :
    coreMismatch lead trail 0 0 d = mismatchAt lead.addr (issuePair (delayed (busBits lead) 0 0) d) := by
  have hne : (withParity (busBits lead)).setWidth 72 ≠ busBits trail := fun he => h (busBits_injective (withParity_setWidth.symm.trans he))
  unfold coreMismatch
  simp only [delayFault_sound]
  rw [delayed_sound, if_neg hne, withParity_addr]

theorem coreMismatch_equal {x : BusCopy} : coreMismatch x x 0 0 d = freeOutput (issuePair (delayed (busBits x) 0 0) d) := by
  unfold coreMismatch
  simp only [delayFault_sound]
  rw [delayed_sound, if_pos withParity_setWidth]

theorem coreMismatch_upset {lead trail : BusCopy} {upset : BitVec 81} (h : upset ≠ 0) :
    coreMismatch lead trail upset 0 d = delayFaulted (if parityOk (withParity (busBits lead) ^^^ upset) then 4 else 3)
      (issuePair (delayed (busBits lead) upset 0) d) := by
  unfold coreMismatch
  simp only [delayFault_upset h]

theorem coreMismatch_restarts (s : State) (lead trail : BusCopy) (hup : pairRuns s.dev = true) (hne : lead ≠ trail)
    (hfew : (s.dev.lsk.mismatches.filter fun t => decide (s.dev.now ≤ t + 250000000)).length < 2) :
    Completes (.coreMismatch lead trail 0 0) s fun d =>
      d.lsk.pair = .restarting ∧ d.lsk.restartStart = s.dev.now ∧ d.lsk.count = min 0xFFFFFFFF (s.dev.lsk.count + 1) ∧
      d.lsk.addr = lead.addr ∧ (d.lsk.log.head?).map (fun e => (e.cls, e.action, e.detail)) = some (1, 1, lead.addr) ∧ Raised 160 d ∧
      OnlyIn ([.lsk, .evt] ++ interruptParts) [0x4540] s.dev d := by
  obtain ⟨pair, start, count, at_, log, told, kept⟩ :=
    mismatchAt_restarting (d := issuePair (delayed (busBits lead) 0 0) s.dev) (addr := lead.addr) hfew
  exact completes_to exec_coreMismatch (by rw [hup, onlyIf_true, coreMismatch_unequal hne])
    ⟨pair, start, count, at_, log, told, OnlyIn.refl.andThen updLsk_onlyIn |>.andThen kept⟩

theorem coreMismatch_holds (s : State) (lead trail : BusCopy) (hup : pairRuns s.dev = true) (hne : lead ≠ trail)
    (hp : s.dev.gen.mode ≠ .primer)
    (hmany : 2 ≤ (s.dev.lsk.mismatches.filter fun t => decide (s.dev.now ≤ t + 250000000)).length) :
    Completes (.coreMismatch lead trail 0 0) s fun d =>
      d.gen.mode = .primer ∧ d.lsk.cause = 1 ∧ d.lsk.pair = .held ∧ Raised 160 d ∧ Raised 162 d := by
  have heq := mismatchAt_holds (d := issuePair (delayed (busBits lead) 0 0) s.dev) (addr := lead.addr) hmany
  refine completes_to exec_coreMismatch (by rw [hup, onlyIf_true, coreMismatch_unequal hne, heq]) ?_
  generalize hd : issuePair (delayed (busBits lead) 0 0) s.dev = d at heq ⊢
  have hmode : (logSafety 1 0 2 lead.addr (mismatchNoted lead.addr d)).gen = s.dev.gen := by
    rw [logSafety_onlyIn.1 .gen (by decide), mismatchNoted_onlyIn.1 .gen (by decide), ← hd]
    rfl
  obtain ⟨mode, lsk, told, detected⟩ := enterPrimer_held (cause := 1) (d := logSafety 1 0 2 lead.addr (mismatchNoted lead.addr d))
    (by rw [hmode]; exact hp)
  exact ⟨mode, by rw [lsk], by rw [lsk], detected 160 (detected_raise.andThen logSafety_onlyIn), told⟩

theorem coreMismatch_releases (s : State) (x : BusCopy) (hup : pairRuns s.dev = true) :
    Completes (.coreMismatch x x 0 0) s fun d =>
      d.lsk = { s.dev.lsk with cores := d.lsk.cores } ∧ d.lsk.cores.lead = s.dev.lsk.cores.lead + 3 ∧ OnlyIn [.lsk] [] s.dev d :=
  completes_to (e := freeOutput (issuePair (delayed (busBits x) 0 0) s.dev)) exec_coreMismatch
    (by rw [hup, onlyIf_true, coreMismatch_equal])
    ⟨rfl, freeOutput_lead.trans issuePair_lead, OnlyIn.refl.andThen updLsk_onlyIn |>.andThen updLsk_onlyIn⟩

/-- A delay-register fault holds the pair in Primer for its cause (R399, R401). -/
theorem delayFaulted_held (hp : d.gen.mode ≠ .primer) :
    (delayFaulted cause d).gen.mode = .primer ∧ (delayFaulted cause d).lsk.cause = cause ∧ (delayFaulted cause d).lsk.pair = .held ∧
      (delayFaulted cause d).lsk.count = d.lsk.count ∧ Raised 164 (delayFaulted cause d) ∧ Raised 162 (delayFaulted cause d) := by
  have hmode : (logSafety cause 0 2 0 (raise 164 d)).gen = d.gen := by
    rw [logSafety_onlyIn.1 .gen (by decide), raise_onlyIn.1 .gen (by decide)]
  obtain ⟨mode, lsk, told, detected⟩ := enterPrimer_held (cause := cause) (d := logSafety cause 0 2 0 (raise 164 d))
    (by rw [hmode]; exact hp)
  obtain ⟨log, lost, hlog⟩ := logSafety_lsk (d := raise 164 d) (cls := cause) (outputs := 0) (action := 2) (detail := 0)
  refine ⟨mode, congrArg Lockstep.cause lsk, congrArg Lockstep.pair lsk, (congrArg Lockstep.count lsk).trans ?_,
    detected 164 (detected_raise.andThen logSafety_onlyIn), told⟩
  rw [hlog, raise_onlyIn.1 .lsk (by decide)]

theorem coreMismatch_delayFault (s : State) (lead trail : BusCopy) (upset : BitVec 81) (hup : pairRuns s.dev = true) (hu : upset ≠ 0)
    (hp : s.dev.gen.mode ≠ .primer) :
    Completes (.coreMismatch lead trail upset 0) s fun d =>
      d.gen.mode = .primer ∧ d.lsk.cause = (if parityOk (withParity (busBits lead) ^^^ upset) then 4 else 3) ∧ d.lsk.pair = .held ∧
      d.lsk.count = s.dev.lsk.count ∧ Raised 164 d ∧ Raised 162 d :=
  completes_to exec_coreMismatch (by rw [hup, onlyIf_true, coreMismatch_upset hu])
    (delayFaulted_held (d := issuePair (delayed (busBits lead) upset 0) s.dev) hp)

/-! ### The comparator's test (R400) -/

theorem exec_lockstepSelftest {lead trail : BusCopy} : exec (.lockstepSelftest lead trail) s =
    effect s fun d => onlyIf (pairRuns d && d.lsk.testDue) (lockstepSelftest lead trail) d := rfl

theorem exec_lockstepSelftestFail : exec .lockstepSelftestFail s =
    effect s fun d => onlyIf (pairRuns d && d.lsk.testDue) selftestFailed d := rfl

theorem flip_ne_zero {k : Nat} (h : k < 72) : BitVec.ofNat 72 (2 ^ k) ≠ 0 := by
  intro he
  have hk : (BitVec.ofNat 72 (2 ^ k)).getLsbD k = false := by
    rw [he]
    exact BitVec.getLsbD_zero
  rw [BitVec.getLsbD_ofNat, Nat.testBit_two_pow_self, decide_eq_true h] at hk
  cases hk

/-- A test that passed, with its transaction issued and released (R400). -/
def testPassed (r : DelayReg) (d : Device) : Device :=
  freeOutput (nextTest (updLsk (fun l => { l with passes := min 0xFFFFFF (l.passes + 1) }) (issuePair r d)))

theorem testPassed_lead {r : DelayReg} : (testPassed r d).lsk.cores.lead = d.lsk.cores.lead + 3 :=
  freeOutput_lead.trans (issuePair_lead (r := r) (d := d))

theorem testPassed_onlyIn {r : DelayReg} : OnlyIn [.lsk] [] d (testPassed r d) :=
  OnlyIn.refl.andThen updLsk_onlyIn |>.andThen updLsk_onlyIn |>.andThen updLsk_onlyIn |>.andThen updLsk_onlyIn

/-- Equal copies flag the inverted bit alone: the test passes, and the transaction is released (R400). -/
theorem lockstepSelftest_passes {x : BusCopy} (h : d.lsk.nextBit < 72) :
    lockstepSelftest x x d = testPassed (delayed (busBits x) 0 0) d := by
  have hflag : busBits x ^^^ (busBits x ^^^ BitVec.ofNat 72 (2 ^ d.lsk.nextBit)) = BitVec.ofNat 72 (2 ^ d.lsk.nextBit) := by
    rw [← BitVec.xor_assoc, BitVec.xor_self, BitVec.zero_xor]
  unfold lockstepSelftest
  dsimp only
  rw [hflag, BitVec.and_self, if_neg (flip_ne_zero h), if_pos rfl]
  rfl

theorem lockstepSelftest_counts (s : State) (x : BusCopy) (hup : pairRuns s.dev = true) (hdue : s.dev.lsk.testDue = true)
    (h72 : s.dev.lsk.nextBit < 72) :
    Completes (.lockstepSelftest x x) s fun d =>
      d.lsk = { s.dev.lsk with
        passes := min 0xFFFFFF (s.dev.lsk.passes + 1), lastBit := s.dev.lsk.nextBit, nextBit := (s.dev.lsk.nextBit + 1) % 72,
        testDue := false, cores := d.lsk.cores } ∧
      d.lsk.cores.lead = s.dev.lsk.cores.lead + 3 ∧ OnlyIn [.lsk] [] s.dev d :=
  completes_to (e := testPassed (delayed (busBits x) 0 0) s.dev) exec_lockstepSelftest
    (by rw [hup, hdue, Bool.and_self, onlyIf_true, lockstepSelftest_passes h72]) ⟨rfl, testPassed_lead, testPassed_onlyIn⟩

theorem lockstepSelftestFail_holds (s : State) (hup : pairRuns s.dev = true) (hdue : s.dev.lsk.testDue = true)
    (hp : s.dev.gen.mode ≠ .primer) :
    Completes .lockstepSelftestFail s fun d =>
      d.gen.mode = .primer ∧ d.lsk.cause = 2 ∧ d.lsk.pair = .held ∧ d.lsk.lastBit = s.dev.lsk.nextBit ∧ Raised 163 d ∧ Raised 162 d := by
  refine completes_to exec_lockstepSelftestFail (by rw [hup, hdue, Bool.and_self, onlyIf_true]) ?_
  unfold selftestFailed
  dsimp only
  generalize BitVec.ofNat 32 (raise 163 (nextTest s.dev)).lsk.lastBit = detail
  have hmode : (logSafety 2 0 2 detail (raise 163 (nextTest s.dev))).gen = s.dev.gen := by
    rw [logSafety_onlyIn.1 .gen (by decide), raise_onlyIn.1 .gen (by decide)]
    rfl
  obtain ⟨mode, lsk, told, detected⟩ := enterPrimer_held (cause := 2) (d := logSafety 2 0 2 detail (raise 163 (nextTest s.dev)))
    (by rw [hmode]; exact hp)
  obtain ⟨log, lost, hlog⟩ := logSafety_lsk (d := raise 163 (nextTest s.dev)) (cls := 2) (outputs := 0) (action := 2) (detail := detail)
  refine ⟨mode, congrArg Lockstep.cause lsk, congrArg Lockstep.pair lsk, (congrArg Lockstep.lastBit lsk).trans ?_,
    detected 163 (detected_raise.andThen logSafety_onlyIn), told⟩
  rw [hlog, raise_onlyIn.1 .lsk (by decide)]
  rfl

/-! ### DELAY_REGISTER_FAULT (R399) -/

theorem exec_delayRegisterFault {upsetA upsetB : BitVec 81} : exec (.delayRegisterFault upsetA upsetB) s =
    effect s fun d => onlyIf (pairRuns d) (delayRegisterFault upsetA upsetB) d := rfl

theorem delayRegisterFault_holds (s : State) (r : DelayReg) (upsetA upsetB : BitVec 81) (cause : Nat) (hup : pairRuns s.dev = true)
    (hr : s.dev.lsk.cores.inputs.head? = some r) (hf : delayFault { a := r.a ^^^ upsetA, b := r.b ^^^ upsetB } = some cause)
    (hp : s.dev.gen.mode ≠ .primer) :
    Completes (.delayRegisterFault upsetA upsetB) s fun d =>
      d.gen.mode = .primer ∧ d.lsk.cause = cause ∧ d.lsk.pair = .held ∧ Raised 164 d ∧ Raised 162 d := by
  have heq : delayRegisterFault upsetA upsetB s.dev = delayFaulted cause s.dev := by
    simp only [delayRegisterFault, List.headD_eq_head?_getD, hr, Option.getD_some, hf]
  obtain ⟨mode, hcause, pair, -, fault, told⟩ := delayFaulted_held (cause := cause) hp
  exact completes_to exec_delayRegisterFault (by rw [hup, onlyIf_true, heq]) ⟨mode, hcause, pair, fault, told⟩

/-! ### WARM_RESTART_DONE (R402) -/

theorem exec_warmRestartDone {crcOk otherOk : Bool} : exec (.warmRestartDone crcOk otherOk) s =
    effect s fun d => onlyIf (d.lsk.pair = .restarting) (warmRestartDone crcOk otherOk) d := rfl

/-- The pair as it runs again at `now`. -/
def rerun (now : Nat) (l : Lockstep) : Lockstep :=
  { l with pair := .running, restarts := min 0xFFFF (l.restarts + 1), lastUs := min 0xFFFF ((now - l.restartStart) / 25) }

theorem restartDone_eq : restartDone d = raise 161 (imageStarts (updLsk (rerun d.now) d)) := rfl

theorem restartDone_lsk : (restartDone d).lsk = rerun d.now d.lsk := by
  rw [restartDone_eq, raise_onlyIn.1 .lsk (by decide)]
  exact (Steady.imageStarts .refl).lsk

theorem Detected.restartDone (h : Detected n d) : Raised n (restartDone d) :=
  (((Steady.imageStarts .refl).detected n (h.of_icu rfl : Detected n (updLsk (rerun d.now) d))).raise).raised

theorem warmRestartDone_sameImage (s : State) (other : Bool) (h : s.dev.lsk.pair = .restarting) :
    Completes (.warmRestartDone true other) s fun d =>
      d.lsk.pair = .running ∧ d.lsk.imageB = s.dev.lsk.imageB ∧ d.lsk.restarts = min 0xFFFF (s.dev.lsk.restarts + 1) ∧
      d.lsk.lastUs = min 0xFFFF ((s.dev.now - s.dev.lsk.restartStart) / 25) ∧ Raised 161 d := by
  have heq : onlyIf (decide (s.dev.lsk.pair = .restarting)) (warmRestartDone true other) s.dev = restartDone s.dev := by
    rw [decide_eq_true h, onlyIf_true]
    rfl
  refine completes_to exec_warmRestartDone heq ?_
  rw [restartDone_lsk]
  exact ⟨rfl, rfl, rfl, rfl, raised_raise _ _⟩

theorem warmRestartDone_otherImage (s : State) (h : s.dev.lsk.pair = .restarting) :
    Completes (.warmRestartDone false true) s fun d =>
      d.lsk.pair = .running ∧ d.lsk.imageB = !s.dev.lsk.imageB ∧ Raised 165 d ∧ Raised 161 d := by
  have heq : onlyIf (decide (s.dev.lsk.pair = .restarting)) (warmRestartDone false true) s.dev =
      restartDone (updLsk (fun l => { l with imageB := !l.imageB })
        (logSafety 5 0 4 (if s.dev.lsk.imageB then 1 else 0) (raise 165 s.dev))) := by
    rw [decide_eq_true h, onlyIf_true]
    rfl
  generalize (if s.dev.lsk.imageB then (1 : Word32) else 0) = image at heq
  obtain ⟨log, lost, hlog⟩ := logSafety_lsk (d := raise 165 s.dev) (cls := 5) (outputs := 0) (action := 4) (detail := image)
  refine completes_to exec_warmRestartDone heq ⟨?_, ?_, ?_, raised_raise _ _⟩
  · rw [restartDone_lsk]
    rfl
  · rw [restartDone_lsk, updLsk_lsk, hlog, raise_onlyIn.1 .lsk (by decide)]
    rfl
  · exact ((detected_raise.andThen logSafety_onlyIn).andThen updLsk_onlyIn).restartDone

theorem warmRestartDone_noImage (s : State) (h : s.dev.lsk.pair = .restarting) (hp : s.dev.gen.mode ≠ .primer) :
    Completes (.warmRestartDone false false) s fun d =>
      d.gen.mode = .primer ∧ d.lsk.cause = 5 ∧ d.lsk.pair = .held ∧ Raised 165 d ∧ Raised 162 d := by
  have heq : onlyIf (decide (s.dev.lsk.pair = .restarting)) (warmRestartDone false false) s.dev =
      enterPrimer 5 (logSafety 5 0 2 (if s.dev.lsk.imageB then 1 else 0) (raise 165 s.dev)) := by
    rw [decide_eq_true h, onlyIf_true]
    rfl
  generalize (if s.dev.lsk.imageB then (1 : Word32) else 0) = image at heq
  have hmode : (logSafety 5 0 2 image (raise 165 s.dev)).gen = s.dev.gen := by
    rw [logSafety_onlyIn.1 .gen (by decide), raise_onlyIn.1 .gen (by decide)]
  obtain ⟨mode, lsk, told, detected⟩ := enterPrimer_held (cause := 5) (d := logSafety 5 0 2 image (raise 165 s.dev))
    (by rw [hmode]; exact hp)
  exact completes_to exec_warmRestartDone heq ⟨mode, congrArg Lockstep.cause lsk, congrArg Lockstep.pair lsk,
    detected 165 (detected_raise.andThen logSafety_onlyIn), told⟩

end

/-- Settles O45: a mismatch restarts the pair or holds it in Primer, the comparator's test, the delay registers, and the warm restart's end. -/
theorem lockstepFaultsRestartOrHold : Obligations.LockstepFaultsRestartOrHold :=
  ⟨coreMismatch_restarts, coreMismatch_holds, coreMismatch_releases, coreMismatch_delayFault, lockstepSelftest_counts,
    lockstepSelftestFail_holds, delayRegisterFault_holds, warmRestartDone_sameImage, warmRestartDone_otherImage, warmRestartDone_noImage⟩

end Sys2Proof.Machine
end
